-- ==== Sys2Proof/Word.lean ====
section
/-! DEFINITION. The plain words of the model: bytes, little-endian byte strings, and bit fields of numbers
(R10 of spec/00_scope.md gives the byte order). -/

namespace Sys2Proof

/-- A byte. -/
abbrev Byte := BitVec 8

/-- A 64-byte ring entry, a record or a control entry as one number, byte 0 in bits [7:0]. -/
abbrev Entry := BitVec 512

/-- The number held in bits [lo + w − 1 : lo] of x. -/
def bitsOf (x lo w : Nat) : Nat := x / 2 ^ lo % 2 ^ w

/-- Bit i of x. -/
def bitOf (x i : Nat) : Bool := x / 2 ^ i % 2 == 1

/-- x with bits [lo + w − 1 : lo] replaced by v. -/
def putBits (x lo w v : Nat) : Nat :=
  x - bitsOf x lo w * 2 ^ lo + v % 2 ^ w * 2 ^ lo

/-- x with bit i set. -/
def setBit (x i : Nat) : Nat := if bitOf x i then x else x + 2 ^ i

/-- x with bit i clear. -/
def clearBit (x i : Nat) : Nat := if bitOf x i then x - 2 ^ i else x

/-- The signed value of a w-bit number. -/
def signed (w x : Nat) : Int :=
  let y := x % 2 ^ w
  if y < 2 ^ (w - 1) then (y : Int) else (y : Int) - (2 ^ w : Nat)

/-- The w-bit two's complement number of an integer. -/
def unsigned (w : Nat) (i : Int) : Nat := (i % (2 ^ w : Nat)).toNat

/-- The n little-endian bytes of x. -/
def leBytes : Nat → Nat → List Byte
  | 0, _ => []
  | n + 1, x => BitVec.ofNat 8 x :: leBytes n (x / 256)

/-- The number that little-endian bytes spell. -/
def ofLE : List Byte → Nat
  | [] => 0
  | b :: r => b.toNat + 256 * ofLE r

/-- Bytes [off, off + n) of a byte string, zero beyond its end. -/
def bytesAt (bs : List Byte) (off n : Nat) : List Byte :=
  let t := (bs.drop off).take n
  t ++ List.replicate (n - t.length) 0

/-- The n-byte little-endian number at offset off of a byte string. -/
def leAt (bs : List Byte) (off n : Nat) : Nat := ofLE (bytesAt bs off n)

/-- A list cut into pieces of n elements (fuel: the list's length). -/
def chunksOf {α : Type} (n : Nat) : Nat → List α → List (List α)
  | 0, _ => []
  | _ + 1, [] => []
  | k + 1, l => l.take n :: chunksOf n k (l.drop n)

/-- True for 1, false for 0, as a register bit. -/
def b2n (b : Bool) : Nat := if b then 1 else 0

/-- Ceiling division. -/
def ceilDiv (a b : Nat) : Nat := (a + b - 1) / b

/-- The number of bits needed to write x, 0 for 0. -/
def bitLen (x : Nat) : Nat := if x = 0 then 0 else Nat.log2 x + 1

/-- The number of one bits among bits [n − 1 : 0] of x. -/
def popCount : Nat → Nat → Nat
  | 0, _ => 0
  | n + 1, x => x % 2 + popCount n (x / 2)

/-- The list 0, 1, …, n − 1. -/
def upTo (n : Nat) : List Nat := List.range n

/-- The positions below n of the one bits of x, ascending. -/
def onesOf (n x : Nat) : List Nat := (List.range n).filter (bitOf x)

/-- A packet as R72 lays it out: the 32-byte header with byte 0 in bits [7:0], the payload, the trailer's
E2E_CRC and STOMP.  The pad is always zero and is not held. -/
structure Packet where
  hdr : BitVec 256
  payload : List Byte
  e2e : BitVec 32
  stomp : Bool
  deriving DecidableEq, Repr

end Sys2Proof
end

