-- ==== Sys2Proof/Syntax.lean ====
section
/-! DEFINITION. The commands: one constructor per row of spec/opcode_table.json, in its order, those
with no operand last.  Operand names: fn a PCIe function,
q a quadrant, p a partition, port and input and output core ports of a quadrant, c the index of a Mover channel (its number less
1), a cartridge or a Mitten context, pkt a whole packet, entry the 64 B ring entry at the ring's head, value the 64 bits
of a register after the write, coll, step and chunk a collective's slot. -/

namespace Sys2Proof

inductive Instr where
  /-- R11. A host write to a register that has no row of its own stores or acts on each field according to its access
  code, ignoring reserved bits and host writes to RW-K fields. -/
  | registerWrite (fn : Nat) (off : Nat) (size : Nat) (value : BitVec 64)
  /-- R569. A 4 B read of bits [31:0] of a register latches bits [63:32] for the function's next 4 B read of the
  upper half. -/
  | splitReadLow (fn : Nat) (off : Nat) (size : Nat)
  /-- R19. A seam detects a CRC error and repairs it by seam-level retry. -/
  | seamCrcError (a : Nat) (b : Nat)
  /-- R19. The seam retry limit is exhausted, so the seam is declared down, a module-severity record is logged and
  the plane is withdrawn. -/
  | seamDown (a : Nat) (b : Nat)
  /-- R43. KNT_CMD OP LOAD starts fetching a knit, unless a load is already running (REFUSED set) or the module is in
  hold or in P2 or P3. -/
  | knitLoad (fn : Nat)
  /-- R69. KNT_CMD OP ABORT applies no further group, and the load fails with code ABORTED. -/
  | knitAbort (fn : Nat)
  /-- R58. KNT_CMD OP COMMIT releases a STAGED HOST_GO knit to its vote. -/
  | knitCommit (fn : Nat)
  /-- R43. The fetched knit is verified in steps 1-5 and its first group is staged and checked, or it is staged for a
  two-phase vote. -/
  | knitFetchComplete (file : List Byte)
  /-- R67. The zeroize COMPARE ends; on no mismatch the flip follows, and a mismatch is repeated once or fails the
  group. -/
  | borderZeroizeEnd (mismatch : List (Nat × Nat))
  /-- R108. A packet header arrives at a port and is checked in order, then routed, relayed, delivered or discarded.
  -/
  | packetHeaderArrival (q : Nat) (port : Nat) (pkt : Packet)
  /-- R108. A queued packet's age reaches AGE_LIMIT before its header starts, and it is discarded under cause AGE. -/
  | ageExpiry (q : Nat) (port : Nat)
  /-- R102. A partition's stamp bank flips once its group check passes and its old bank has retired, and EPOCH
  notices are sent. -/
  | epochFlip (p : Nat)
  /-- R101. The old bank retires once no packet stamped with it is held and 2 x AGE_LIMIT has passed since the flip.
  -/
  | epochRetire (p : Nat)
  /-- R113. The result resend timer expires, and held chunks are resent to every member that owes DONE and has sent
  none. -/
  | resultResendTimer (p : Nat) (coll : Nat) (step : Nat)
  /-- R210. A CNACK for a PARTIAL this Zarfer sent is received, and no action is taken on it. -/
  | cnackReceive (q : Nat) (pkt : Packet)
  /-- R152. A write to an LDG_KTEST_ input register recomputes the Kegus noise in LDG_KTEST_OUT. -/
  | kegusTestWrite (reg : Nat) (value : BitVec 64)
  /-- R162. A CONTRIB is admitted per chunk in its native quadrant by create-or-join and bitmap test; it is
  accumulated, counted as wasted, or deferred. -/
  | contrib (q : Nat) (pkt : Packet)
  /-- R166. A non-crown quadrant's admission request reaches the crown, which grants or refuses it against L. -/
  | admissionRequest (q : Nat) (p : Nat) (coll : Nat) (step : Nat) (chunk : Nat)
  /-- R166. The admission reply arrives; the tier-0 slot is created and waiting contributions are admitted, or they
  are answered with CNACK DEFER. -/
  | admissionReply (q : Nat) (p : Nat) (coll : Nat) (step : Nat) (chunk : Nat) (granted : Bool)
  /-- R172. A CLOSING slot's readout ends, and its partial, PARTIAL or result is sent and the slot state advances. -/
  | slotReadoutComplete (q : Nat) (p : Nat) (coll : Nat) (step : Nat) (chunk : Nat)
  /-- R172. A tier-0 partial arrives at the crown over the reduction channel and is accumulated into the crown slot.
  -/
  | tier0Partial (q : Nat) (p : Nat) (coll : Nat) (step : Nat) (chunk : Nat)
  /-- R172. The seam reports a tier-0 partial delivered, and the non-crown slot is freed. -/
  | partialDelivered (q : Nat) (p : Nat) (coll : Nat) (step : Nat) (chunk : Nat)
  /-- R598. A PARTIAL part from another rack adds its unreceived quarters to the crown slot. -/
  | partialReceive (q : Nat) (pkt : Packet)
  /-- R172. A RESULT part from another rack is written into the WAITING crown slot, which goes to HELD when all four
  quarters are written. -/
  | resultFromRack (q : Nat) (pkt : Packet)
  /-- R252. A rack-to-rack PUBLISH is written into the WAITING slot and multicast to local holders. -/
  | publishFromRack (q : Nat) (pkt : Packet)
  /-- R175. The pager writes a victim slot to a free spill record. -/
  | pagerSpill (q : Nat) (p : Nat)
  /-- R175. The pager reads a spill record into a free frame. -/
  | pagerRecall (q : Nat) (p : Nat)
  /-- R175. The pager reads a record and writes a victim slot into the same record. -/
  | pagerSwap (q : Nat) (p : Nat)
  /-- R164. A pager operation ends, and contributions that waited for that slot or frame are admitted in arrival
  order. -/
  | pagerOpComplete (q : Nat)
  /-- R174. A partition's directory sweep ends in every quadrant. -/
  | sweepEnd (p : Nat)
  /-- R185. A locked slab sequence exceeds HOLD and is released by force, and its engine is faulted. -/
  | slabLockTimeout (q : Nat) (bank : Nat) (port : Nat) (req : Nat) (busy : List (Nat × Nat × Nat × Nat))
  /-- R188. A write to SEQ_RING_PROD is accepted as a new PROD, or refused with DBERR set. -/
  | ringDoorbell (q : Nat) (p : Nat) (e : Nat) (prod : BitVec 32)
  /-- R189. A fabric DOORBELL packet updates PROD under the ring rules and is answered with DOORBELL_ACK. -/
  | doorbell (q : Nat) (pkt : Packet)
  /-- R191. Clearing SEQ_RING_CTL.ERR restarts a stopped ring at CONS. -/
  | ringErrClear (q : Nat) (p : Nat) (e : Nat)
  /-- R194. A waiting completion record is written once its queue has room, and the queue's vector is raised. -/
  | cqRecordWrite (p : Nat) (k : Nat)
  /-- R192. The COLLECTIVE command arms a command instance with its window and patience. -/
  | collective (q : Nat) (p : Nat) (entry : BitVec 512)
  /-- R202. ARM_STEP advances SEQ_STEP.ARMED and arms the STEP_PROG chain for each newly passed step. -/
  | armStep (q : Nat) (p : Nat) (entry : BitVec 512)
  /-- R192. The TRIGGER command arms the first word of a trigger chain with a step context. -/
  | trigger (q : Nat) (p : Nat) (entry : BitVec 512)
  /-- R211. The INCREMENT command adds an amount to a trigger counter. -/
  | increment (q : Nat) (p : Nat) (entry : BitVec 512)
  /-- R192. The sequencer ABORT command aborts a named instance. -/
  | abortCollective (q : Nat) (p : Nat) (entry : BitVec 512)
  /-- R222. STEP_REPLAY resets the step's unfinished instances and starts a sweep of their slots. -/
  | stepReplay (q : Nat) (p : Nat) (entry : BitVec 512)
  /-- R222. The step replay reset ends in every quadrant, and SEQ_STEP.REPLAY clears. -/
  | stepReplayEnd (p : Nat)
  /-- R474. The WARM command wakes the named engines and holds them ungated for HOLD_US. -/
  | warm (q : Nat) (p : Nat) (entry : BitVec 512)
  /-- R215. A member's DONE is checked against its receive count and recorded in the instance's DONE map. -/
  | done (q : Nat) (pkt : Packet)
  /-- R217. A GAP_NACK's entries are forwarded to the crowns, which resend HELD chunks. -/
  | gapNack (q : Nat) (pkt : Packet)
  /-- R220. An instance's patience expires and the instance becomes ABORTED. -/
  | patienceExpiry (p : Nat) (coll : Nat) (step : Nat)
  /-- R214. The REDUCE_FORWARD trigger operation releases the inter-rack PARTIALs of a HOLD instance. -/
  | reduceForward (p : Nat) (n : Nat)
  /-- R214. The CONVERT_MULTICAST trigger operation converts held sums and sends RESULT to a group. -/
  | convertMulticast (p : Nat) (n : Nat)
  /-- R235. The NORM_CONTRIBUTE trigger operation adds an instance's side ledgers into the step's norm ledger. -/
  | normContribute (p : Nat) (n : Nat)
  /-- R214. The UPDATE_SHARD trigger operation starts a shard's update for the operand step. -/
  | updateShard (p : Nat) (n : Nat)
  /-- R253. The PUBLISH trigger operation sends shard chunks from the state records to the holders or to a group. -/
  | publishOp (p : Nat) (n : Nat)
  /-- R254. The SNAPSHOT trigger operation copies a shard, encrypted, to another partition or to staging. -/
  | snapshotOp (p : Nat) (n : Nat)
  /-- R214. The SIGNAL_HOST trigger operation writes a SIGNAL record to a completion queue. -/
  | signalHost (p : Nat) (n : Nat)
  /-- R214. The INCREMENT trigger operation adds ARG0 to another trigger counter. -/
  | incrementOp (p : Nat) (n : Nat)
  /-- R214. The WAIT_EPOCH trigger operation completes when the epoch is STEADY with the named stamp bank. -/
  | waitEpoch (p : Nat) (n : Nat)
  /-- R213. A triggered operation completes; its DONE_CTR is incremented and the next word of its chain is armed. -/
  | triggerOpComplete (p : Nat) (n : Nat)
  /-- R210. A WAITING crown slot re-sends its PARTIAL at doubling intervals. -/
  | partialResendTimer (p : Nat) (coll : Nat) (step : Nat) (chunk : Nat)
  /-- R210. POD_HOLD passes after the latest RESULT send, and the owner slot is freed once its DONE set is complete.
  -/
  | podHoldExpiry (p : Nat) (coll : Nat) (step : Nat) (chunk : Nat)
  /-- R223. A write to SEQ_STRAG_CLR zeroes the selected partition's straggler tables and SEQ_SLOW. -/
  | stragClear (p : Nat)
  /-- R234. The update engine accepts a handed-off chunk into staging or its first pass, makes it wait, or discards
  it. -/
  | chunkHandoff (p : Nat) (coll : Nat) (step : Nat) (chunk : Nat)
  /-- R250. The update engine runs one recipe pass over one chunk and publishes after its final pass. -/
  | updatePass (p : Nat) (shard : Nat) (chunk : Nat)
  /-- R240. The NORM_CTX result arrives; the clip factor is computed and the step is skipped or enters UPDATING. -/
  | stepDecided (p : Nat)
  /-- R241. The step timer expires and the step ends ABANDONED or FAILED. -/
  | stepTimerExpiry (p : Nat)
  /-- R256. No pass completes within UPD_TMO.PROGRESS while passes are pending, and the update engine is faulted. -/
  | updateProgressTimeout (q : Nat)
  /-- R253. The update engine's PUBLISH command sends chunks of a shard to its holders or to a group. -/
  | publish (q : Nat) (p : Nat) (entry : BitVec 512)
  /-- R254. The update engine's SNAPSHOT command exports a shard as it stood at its latest ended step. -/
  | snapshot (q : Nat) (p : Nat) (entry : BitVec 512)
  /-- R255. IMPORT decrypts a TARGET 1 snapshot into a shard's records after checking its tag and header. -/
  | import_ (q : Nat) (p : Nat) (entry : BitVec 512)
  /-- R255. SET_T writes UPD_PART_T when the partition's step is IDLE. -/
  | setT (q : Nat) (p : Nat) (entry : BitVec 512)
  /-- R264. GRAM_ACC accumulates a symmetric Gram product into a statistic. -/
  | gramAcc (q : Nat) (p : Nat) (entry : BitVec 512)
  /-- R265. MATMUL computes C = op(A) op(B) + beta C. -/
  | matmul (q : Nat) (p : Nat) (entry : BitVec 512)
  /-- R267. NS_ROOT computes an inverse square or fourth root by coupled iterations. -/
  | nsRoot (q : Nat) (p : Nat) (entry : BitVec 512)
  /-- R268. NS_ORTHO computes polynomial orthogonalization iterations on a matrix. -/
  | nsOrtho (q : Nat) (p : Nat) (entry : BitVec 512)
  /-- R269. APPLY transforms a staged gradient block by its left and right factors. -/
  | apply (q : Nat) (p : Nat) (entry : BitVec 512)
  /-- R270. A waiting APPLY or staged GRAM_ACC starts once the step is UPDATING and its chunks are staged, or
  completes ABORTED. -/
  | gramWaitRelease (q : Nat) (p : Nat)
  /-- R272. The Gram engine runs one K-block unit of a tile and writes its accumulator. -/
  | gramUnit (q : Nat) (p : Nat)
  /-- R275. A unit does not end within GRM_TMO.PROGRESS, and the Gram engine is faulted. -/
  | gramProgressTimeout (q : Nat) (p : Nat)
  /-- R289. A MEMBER contribution is added to its context's round buffer or answered again. -/
  | mitMember (pkt : Packet)
  /-- R295. A row peer's ROW value is recorded for the round. -/
  | mitRow (pkt : Packet)
  /-- R295. A column peer's COLUMN row sum is recorded for the round. -/
  | mitColumn (pkt : Packet)
  /-- R297. A COURIER packet records another plane's value under its SUBJECT bit. -/
  | mitCourier (pkt : Packet)
  /-- R292. An open round's patience expires, and a RESULT with ABORTED set is sent. -/
  | mitRoundAbort (c : Nat) (seq : BitVec 32)
  /-- R296. A missing peer value triggers a resend of the module's own ROW or COLUMN value. -/
  | mitPeerResend (c : Nat) (seq : BitVec 32)
  /-- R297. A PLANES context resends its CARRY until it holds every plane's value. -/
  | mitCarryResend (c : Nat) (seq : BitVec 32)
  /-- R301. MIT_ROLE_CMD GO applies a primary or mirror role to a context. -/
  | mitRoleSet (c : Nat) (role : Nat)
  /-- R308. A write of MIT_CTL.NOTICE_EN takes effect, except that 0 is ignored unless every external port is closed.
  -/
  | noticeEnWrite (value : Nat)
  /-- R312. A header waiting in staging finds a bank with room and claims its cells. -/
  | bankAdmit (q : Nat) (input : Nat)
  /-- R323. An output starts a read stream for an eligible packet under the deficit scheduler. -/
  | egressStreamStart (q : Nat) (output : Nat) (bank : Nat)
  /-- R324. At or after its release time, an external output starts the packet's header flit on the wire. -/
  | packetRelease (q : Nat) (output : Nat)
  /-- R331. A port's flush ends and COR_PORT.FLUSHING clears. -/
  | flushEnd (q : Nat) (port : Nat)
  /-- R325. Every 32 cycles a quadrant sends its uplink queue depths to the other quadrants. -/
  | depthBroadcast (q : Nat)
  /-- R334. A write to COR_MIR_CTL configures a mirror session and zeroes its count. -/
  | mirCtlWrite (q : Nat) (session : Nat) (value : BitVec 64)
  /-- R338. COR_BUF.LOW_CLR sets LOW to FREE. -/
  | lowClr (q : Nat)
  /-- R338. A PEAK_CLR write sets a queue's PEAK to its current depth. -/
  | peakClr (q : Nat) (output : Nat) (cls : Nat)
  /-- R353. A DOWN port with its conditions met enters DETECT once DOWN_HOLD has passed. -/
  | linkDownHoldEnd (q : Nat) (port : Nat)
  /-- R353. Signal is seen long enough on the required lanes, and the port enters TRAIN attempt 0. -/
  | linkSignalDetect (q : Nat) (port : Nat) (lanes : Nat)
  /-- R353. After 1 ms of PRBS13Q the port enters ALIGN. -/
  | linkTrainEnd (q : Nat) (port : Nat)
  /-- R353. RX_OK holds locally and in 4 peer LCFs, so the port enters UP and counters reset. -/
  | linkAlignDone (q : Nat) (port : Nat)
  /-- R353. The 10 ms attempt ends without UP; the next rate is tried, or the port goes DOWN with TRAIN_FAIL. -/
  | linkAttemptTimeout (q : Nat) (port : Nat)
  /-- R354. A x4 or x2 pair slot of ALIGN ends without UP, and the next lane pair is tried. -/
  | linkX2SlotEnd (q : Nat) (port : Nat)
  /-- R353. RETRAIN passes 1 ms without UP, and the port returns to DETECT. -/
  | linkRetrainTimeout (q : Nat) (port : Nat)
  /-- R346. A valid LCF updates the peer's credit limits, state, RX_BAD and countdown. -/
  | lcfReceive (q : Nat) (port : Nat) (flit : BitVec 512)
  /-- R351. A SYNC_REQ repairs the receiver's RCVD and LIMIT by the lost charge d. -/
  | syncReq (q : Nat) (port : Nat) (vc : Nat) (sent : BitVec 16)
  /-- R357. A received QUIET request is answered with QUIET_ACK if this end has been idle for QUIET_IDLE. -/
  | quiet (q : Nat) (port : Nat)
  /-- R357. QUIET_ACK completes the quiet handshake, and transmitters stop after two frames. -/
  | quietAck (q : Nat) (port : Nat)
  /-- R361. CMD RETRAIN from the peer puts the port in RETRAIN. -/
  | retrain (q : Nat) (port : Nat)
  /-- R356. An UP port idle for QUIET_IDLE sends CMD QUIET. -/
  | quietIdleExpiry (q : Nat) (port : Nat)
  /-- R359. An end with a packet to send wakes a QUIET port with one idle frame. -/
  | linkWake (q : Nat) (port : Nat)
  /-- R359. Signal is detected on a quiet port, so the end starts its own frames and relocks. -/
  | peerSignalWake (q : Nat) (port : Nat)
  /-- R347. A codeword is decoded; an uncorrectable one marks its flits damaged and may lose packet boundaries.  l0 to l3: the
  PAM4 levels that each port lane carried for it, ten bits a symbol; with two lanes in use 136 symbols each, with four 68. -/
  | codewordDecode (q : Nat) (port : Nat) (l0 : BitVec 1360) (l1 : BitVec 1360) (l2 : BitVec 1360) (l3 : BitVec 1360)
  /-- R351. A VC starves for STARVE, and a SYNC_REQ is sent in the next LCF. -/
  | creditStarve (q : Nat) (port : Nat) (vc : Nat)
  /-- R360. A 1 ms window ends and lanes over LANE_THR become bad, which may start a degrade. -/
  | laneErrorWindow (q : Nat) (port : Nat)
  /-- R360. The degrade countdown ends, and both ends switch to the x2 lane pair. -/
  | degradeSwitch (q : Nat) (port : Nat)
  /-- R361. More than UCW_THR uncorrectable codewords fall in a 1 ms window, and the port enters RETRAIN. -/
  | ucwWindow (q : Nat) (port : Nat)
  /-- R361. 16 consecutive frames without a valid LCF while UP put the port in RETRAIN. -/
  | lcfLoss (q : Nat) (port : Nat)
  /-- R365. A write of 1 to LNK_PORT_CTL.RETRAIN puts the port in RETRAIN. -/
  | linkRetrainWrite (q : Nat) (port : Nat) (value : BitVec 64)
  /-- R365. A write of LNK_PORT_CTL.EN takes the port DOWN on 0 or permits DETECT on 1. -/
  | linkEnWrite (q : Nat) (port : Nat) (value : BitVec 64)
  /-- R365. LNK_INJ GO injects the selected link error when permitted. -/
  | linkInject (q : Nat) (value : BitVec 64)
  /-- R377. The patrol scrub reads a line and writes back a corrected sector. -/
  | patrolScrub (q : Nat) (stack : Nat)
  /-- R378. An error threshold or stack failure retires a channel or stack, and its extents become LOST or remap. -/
  | hbmRetire (q : Nat) (stack : Nat) (channel : Nat) (whole : Bool)
  /-- R378. HBM_RETIRE_CMD GO retires the named channel or stack. -/
  | hbmRetireCmd (q : Nat) (value : BitVec 64)
  /-- R381. A spare's zeroize ends, and the extent is mapped onto it with REMAPPED set. -/
  | spareRemapEnd (q : Nat) (ext : Nat)
  /-- R392. A locked HBM sequence exceeds HOLD and is released by force. -/
  | hbmLockTimeout (q : Nat) (stack : Nat) (pc : Nat) (req : Nat)
  /-- R394. HBM_INJ GO arms a bit flip in the next write to a line. -/
  | hbmInject (q : Nat) (value : BitVec 64)
  /-- R384. A PARK_WRITE request is checked and queued for the parking service. -/
  | parkWrite (q : Nat) (pkt : Packet)
  /-- R384. A PARK_READ request is checked and queued for the parking service. -/
  | parkRead (q : Nat) (pkt : Packet)
  /-- R386. The parking service applies a queued request and sends PARK_ACK or PARK_DATA. -/
  | parkApply (q : Nat) (p : Nat)
  /-- R387. No queued parking request completes for 1 ms, so the service is faulted. -/
  | parkServiceFault (q : Nat)
  /-- R409. The Mover START command runs a program on a channel. -/
  | moverStart (q : Nat) (p : Nat) (entry : BitVec 512)
  /-- R413. PAUSE stops a channel's new reads and drains the beats already read. -/
  | moverPause (q : Nat) (p : Nat) (c : Nat) (entry : BitVec 512)
  /-- R414. RESUME continues a paused channel or is latched while it is PAUSING. -/
  | moverResume (q : Nat) (p : Nat) (c : Nat) (entry : BitVec 512)
  /-- R412. ABORT ends a channel's program after draining. -/
  | moverAbort (q : Nat) (p : Nat) (c : Nat) (entry : BitVec 512)
  /-- R412. Clearing MOV_CH_CTL.ERR returns a channel in ERROR to IDLE. -/
  | moverErrClear (q : Nat) (p : Nat) (c : Nat)
  /-- R404. The MOVE instruction copies strided runs between spaces. -/
  | move (q : Nat) (p : Nat) (c : Nat) (host : List Byte)
  /-- R405. The FILL instruction writes a value to every aligned word of a range. -/
  | fill (q : Nat) (p : Nat) (c : Nat)
  /-- R405. The COMPARE instruction counts differing words between two ranges or against a constant. -/
  | compare (q : Nat) (p : Nat) (c : Nat) (host : List Byte)
  /-- R406. The WAIT instruction holds the channel until an event counter reaches its value. -/
  | wait (q : Nat) (p : Nat) (c : Nat)
  /-- R406. A waiting channel's counter meets its threshold, and the channel runs again. -/
  | waitMet (q : Nat) (p : Nat) (c : Nat)
  /-- R407. The SIGNAL instruction increments an event or trigger counter, or raises an interrupt. -/
  | signal (q : Nat) (p : Nat) (c : Nat)
  /-- R408. The LINK instruction continues the program at NEXT. -/
  | link (q : Nat) (p : Nat) (c : Nat)
  /-- R408. The END instruction finishes the program, and the channel goes to ENDING. -/
  | end_ (q : Nat) (p : Nat) (c : Nat)
  /-- R412. Every beat read by a PAUSING channel has been written, and it goes to PAUSED or ENDING. -/
  | pauseDrainEnd (q : Nat) (p : Nat) (c : Nat)
  /-- R411. An ENDING channel writes its record once the queue has room, then goes IDLE. -/
  | moverRecordWrite (q : Nat) (p : Nat) (c : Nat)
  /-- R417. A bus error stops every channel of the quadrant's Mover and stalls the pager. -/
  | moverBusError (q : Nat) (cause : Nat)
  /-- R417. A beat still outstanding after MOV_TMO.BEAT is a bus error. -/
  | moverBeatTimeout (q : Nat)
  /-- R418. The Yofen restarts channel 0 and then channels 1-3 after a bus error. -/
  | moverRestart (q : Nat)
  /-- R421. A write to MOV_EVT replaces an event counter's value. -/
  | eventCounterWrite (q : Nat) (p : Nat) (n : Nat) (value : BitVec 32)
  /-- R423. Every 1 ms each ADC channel's value is formed and checked for plausibility. -/
  | adcWindow (codes : List Nat) (temps : List Nat) (rpms : List Nat)
  /-- R426. A tach input gets no pulse within its limit while driven, and is LOST. -/
  | tachLost (n : Nat)
  /-- R427. Every 10 ms the pump and fan duties are computed. -/
  | trayStep (applied : List Nat) (peerLive : Bool)
  /-- R305. TRY_ALERT.ACC_GO sends POWER_CAP with ACC_LEVEL on every present downlink. -/
  | accGo (value : BitVec 64)
  /-- R434. A module whose peer heartbeat has been released claims the tray by starting its heartbeat. -/
  | trayClaim (long : Bool)
  /-- R435. Every 10 ms the owner publishes its control state on the tray bus. -/
  | ownerPublish (heard : List Nat)
  /-- R436. The plausibility verdicts decide the contest outcome. -/
  | contestResolve (peerPass : Bool)
  /-- R440. A rack manager heartbeat marks that manager live and ends autonomous hold. -/
  | managerHeartbeat (m : Nat)
  /-- R440. A manager's heartbeat is absent for 2 s, and the manager is lost. -/
  | managerLost (m : Nat)
  /-- R446. TRY_INJ GO injects a sensor, heartbeat or duty fault when permitted. -/
  | trayInject (value : BitVec 64)
  /-- R449. Insertion is qualified with the latch closed; the cartridge enters TRAINING and its ports are enabled. -/
  | cartInsert (c : Nat)
  /-- R457. Cartridge presence is lost; its ports go DOWN and an undrained removal is recorded. -/
  | cartPresenceLost (c : Nat)
  /-- R449. A hand touches the lever of an IN_SERVICE cartridge, which enters PRE_DRAIN. -/
  | cartTouch (c : Nat) (high : Bool)
  /-- R449. A qualified latch open moves the cartridge to FORCING. -/
  | cartCuffOpen (c : Nat)
  /-- R449. Touch low and latch closed for CANCEL_S return the cartridge to IN_SERVICE with RESTORE. -/
  | preDrainCancel (c : Nat)
  /-- R449. A qualified button press starts a drain or rejoins from SAFE, or is refused. -/
  | cartButton (c : Nat) (down : Bool)
  /-- R449. A button held 4 s moves the cartridge to FORCING. -/
  | cartButtonHold (c : Nat)
  /-- R449. TRY_CART_CMD OP 1 starts an orderly drain with REASON 6. -/
  | cartDrain (c : Nat)
  /-- R449. TRY_CART_CMD OP 2 forces the cartridge with REASON 4. -/
  | cartForce (c : Nat)
  /-- R460. TRY_CART_CMD OP 3 rejoins a SAFE cartridge into TRAINING. -/
  | cartRejoin (c : Nat)
  /-- R452. The drain completes; the cartridge enters STOPPING and its ports are disabled. -/
  | cartDrainComplete (c : Nat)
  /-- R452. The drain is not complete within ORDER_TMO, and the cartridge enters FORCING. -/
  | cartDrainTimeout (c : Nat)
  /-- R449. 20 us after the first WITHDRAW of a force, the cartridge enters STOPPING. -/
  | cartForceStop (c : Nat)
  /-- R449. Its ports are DOWN and their flushes have ended, so the cartridge is SAFE. -/
  | cartSafe (c : Nat)
  /-- R449. Every present port is UP or has failed training, so the cartridge is IN_SERVICE. -/
  | cartInService (c : Nat)
  /-- R467. HAT_PCMD GO or a PLDM request moves the module between power states, or is latched or refused. -/
  | powerRequest (target : Nat)
  /-- R468. The ENTERING_P2 wait ends by quiet point or expiry; instances are aborted, slots swept and the module
  parked. -/
  | p2QuietEnd (expired : Bool)
  /-- R472. An engine idle for GATE_IDLE_US in P1 gates itself. -/
  | engineGate (q : Nat) (e : Nat)
  /-- R472. Work arrives for a gated engine, and it wakes. -/
  | engineWake (q : Nat) (e : Nat)
  /-- R474. A warm hold expires, and the engine may gate again. -/
  | warmHoldEnd (q : Nat) (e : Nat) (p : Nat)
  /-- R478. MOD_RESET_N or HAT_RESET KIND 1 resets all but the Hatband and restarts from step 4. -/
  | moduleReset (cool : Bool)
  /-- R478. HAT_RESET KIND 2 or a quiesce resets one quadrant and aborts its instances. -/
  | quadrantReset (q : Nat)
  /-- R478. A VF FLR or HAT_RESET KIND 3 resets one partition's state, rings and holds. -/
  | partitionReset (p : Nat) (flr : Bool)
  /-- R532. PERST_N resets the PCIe controller while jobs continue and host accesses fail. -/
  | perst (asserted : Bool)
  /-- R480. A start-up step ends, and the next step starts, or the module opens or fails. -/
  | startupStepComplete (ok : Bool) (failed : List Nat)
  /-- R482. A load test phase of PHASE_MS ends; its CRC is checked and the next phase or the verdict follows. -/
  | loadtestPhaseEnd (crcOk : Bool)
  /-- R500. SEC_CMD OP 1 applies a life-cycle transition from a signed object. -/
  | lifecycleObject (obj : List Byte)
  /-- R501. SEC_CMD OP 2 enrols an owner certificate and raises counter 2. -/
  | ownerEnrol (cert : List Byte)
  /-- R510. DBG_CMD OP 2 checks a token against the challenge and grants D2 or D3. -/
  | tokenSubmit (token : List Byte)
  /-- R511. The JTAG SAMPLE/PRELOAD instruction at D1. -/
  | samplePreload (bits : BitVec 4096)
  /-- R511. The JTAG EXTEST instruction with every external port closed. -/
  | extest (bits : BitVec 4096)
  /-- R511. The JTAG EXTEST_PULSE instruction on the AC-coupled lanes. -/
  | extestPulse (bits : BitVec 4096)
  /-- R511. The JTAG EXTEST_TRAIN instruction on the AC-coupled lanes. -/
  | extestTrain (bits : BitVec 4096)
  /-- R511. The JTAG DBG_REQ instruction requests D1 when 1 is shifted. -/
  | dbgReq (bit : Bool)
  /-- R511. The JTAG DBG_TOKEN instruction reads the challenge and shifts in a token. -/
  | dbgToken (token : List Byte)
  /-- R574. A JTAG DBG_ACCESS performs a PF0 BAR0 access at the current level on Update-DR. -/
  | dbgAccess (bits : BitVec 96)
  /-- R496. In P3 the sentinel accepts images and knits by PLDM firmware update and restarts at step 2. -/
  | firmwareUpdate (addr : Nat) (data : List Byte)
  /-- R507. The SPDM GET_CERTIFICATE request returns the identity chain. -/
  | getCertificate (off : Nat) (len : Nat)
  /-- R507. The SPDM CHALLENGE request is signed with the identity key. -/
  | challenge (nonce : List Byte)
  /-- R507. The SPDM GET_MEASUREMENTS request returns the measurement indexes. -/
  | getMeasurements (index : Nat) (nonce : List Byte)
  /-- R534. The MCTP Set Endpoint ID message assigns a binding's endpoint ID. -/
  | setEndpointId (binding : Nat) (eid : BitVec 8)
  /-- R535. A PLDM sensor read returns a numeric or state sensor. -/
  | pldmSensorRead (n : Nat)
  /-- R535. A PLDM effecter write acts as the PF0 register write it names. -/
  | pldmEffecterWrite (n : Nat) (value : BitVec 64)
  /-- R522. A BAR2 read is served from the partition's extents or completes with UR or Completer Abort. -/
  | bar2Read (fn : Nat) (off : Nat) (len : Nat)
  /-- R522. A BAR2 write is applied in the partition's extents or dropped, and a poisoned one is dropped and logged.
  -/
  | bar2Write (fn : Nat) (off : Nat) (data : List Byte) (poisoned : Bool)
  /-- R532. The PCIe link goes down; jobs continue, host accesses fail and a fetching load is aborted. -/
  | pcieLinkDown (down : Bool)
  /-- R527. A host access ends with an error completion or completion timeout, and its user handles the failure. -/
  | hostAccessFail (fn : Nat) (user : Nat) (q : Nat) (c : Nat)
  /-- R529. Unmasking a vector with its Pending Bit set delivers one message. -/
  | msixUnmask (fn : Nat) (vec : Nat)
  /-- R563. CTR_CLR GO zeroes COUNT and OVF of the selected counters of a bank. -/
  | counterClear (value : BitVec 64)
  /-- R548. Due Tally programs join one sweep that latches banks and writes snapshot records. -/
  | tallySweep (due : List Nat) (skipped : List Nat)
  /-- R553. A write to CTR_PS_CTL configures the sampler, restarts its count and empties its buffer. -/
  | samplerCtlWrite (q : Nat) (value : BitVec 64)
  /-- R560. A write of ERR_INJ_CTL.EN takes effect only at debug level D1 or above. -/
  | injectEnableWrite (value : BitVec 64)
  /-- R560. ERR_INJ GO arms an injection at a detector when permitted, or sets REFUSED. -/
  | errorInject (value : BitVec 64)
  /-- R573. An access to the debug window is served in the aimed memory when the level allows it. -/
  | debugWindowAccess (write : Bool) (off : Nat) (size : Nat) (value : BitVec 64)
  /-- R460. A qualified latch close on a seated cartridge that was re-seated with its latch open moves it from ABSENT
  to TRAINING. -/
  | cartLatchClose (c : Nat)
  /-- R353. After 100 us of PRBS13Q in RETRAIN the port switches to frames and begins alignment at its current rate.
  -/
  | retrainPrbsEnd (q : Nat) (port : Nat)
  /-- R478. A quadrant reset ends 100 us after the quadrant's ports are DOWN, HAT_RESET.BUSY clears, ports retrain
  and a latched enable is applied. -/
  | quadrantResetEnd (q : Nat)
  /-- R475. IEEE 1588 time received over the management Ethernet is used by the Yofen to align the 64-bit ns time
  counter. -/
  | ieee1588Time (ns : BitVec 64)
  /-- R47. At a group's commit point, every bank select the group writes switches on one edge in all quadrants. -/
  | groupCommit
  /-- R49. The copy of switched images into their new shadow banks ends, and the next group may start. -/
  | resyncEnd
  /-- R53. A QUIET or QUIESCE group that has not reached its commit point within QUIET_TMO fails with code
  QUIET_TIMEOUT. -/
  | quietTimeout
  /-- R58. The VOTE_CONTEXT result arrives; the staged knit is applied on 1 or discarded with code VOTE on 0. -/
  | knitVoteResult
  /-- R58. No COMMIT has arrived within QUIET_TMO of STAGED, so the module contributes 0 to the vote. -/
  | voteCommitTimeout
  /-- R67. The drain phase of a border move ends and the zeroize phase starts. -/
  | borderDrainEnd
  /-- R68. The drain has not ended within DRAIN_TMO, so ports and quotas are restored and the group fails with
  DRAIN_TIMEOUT. -/
  | borderDrainTimeout
  /-- R302. A notice is sent a second time with RESEND = 1, 10 us after its first send. -/
  | noticeRepeat
  /-- R429. Every 1 ms the throttle THR is stepped against the effective cap. -/
  | capStep
  /-- R431. PWR_ALERT_N asserts; THR rises to ALERT_THR and a POWER_CAP notice is sent. -/
  | pwrAlertAssert
  /-- R431. PWR_ALERT_N has been released for 1 ms, and POWER_CAP is sent with ACC_LEVEL. -/
  | pwrAlertRelease
  /-- R422. The Yofen kicks the Hatband watchdog. -/
  | yofenKick
  /-- R422. 100 ms pass without a kick; the Hatband stops the heartbeat, logs and resets the Yofen. -/
  | yofenWatchdog
  /-- R434. A slot 1 module that sees TRAY_OWN_IN toggle while it toggles stops and becomes standby. -/
  | trayOwnConflict
  /-- R435. A duty has differed by more than OUT_TOL for 2 s, and the standby announces a contest. -/
  | contestStart
  /-- R436. A DEGRADED module that has passed plausibility for 60 s leaves DEGRADED. -/
  | degradedClear
  /-- R437. A standby whose duties stay within OUT_TOL for 10 s becomes QUALIFIED. -/
  | standbyQualify
  /-- R446. TRY_OWN.YIELD makes an owner stop its heartbeat and become standby. -/
  | trayYield
  /-- R439. Once per TELEM_MS, tray and module items are sent on both SGMII links. -/
  | telemetrySend
  /-- R440. Both managers have been lost for 60 s, and the module enters autonomous hold. -/
  | autonomousHold
  /-- R442. A pump failure enters stage 1 with a 600 W cap. -/
  | pumpStage1
  /-- R442. Tj reaches T_EXPORT, or low flow lasts EXPORT_AFTER, and forced exports start. -/
  | pumpStage2
  /-- R442. Tj reaches T_STOP; downlinks are withdrawn and the module enters P2. -/
  | pumpStage3
  /-- R442. Pumps and flow have been good for 10 s, and the pump stages clear. -/
  | pumpStageClear
  /-- R443. I3C bus 7 is held low for more than 10 ms, and the other module drives bus recovery. -/
  | trayBusRecovery
  /-- R456. A tray button press toggles LOCATE on both modules. -/
  | trayButton
  /-- R456. A tray button held 4 s drains every IN_SERVICE or PRE_DRAIN cartridge of both modules. -/
  | trayButtonHold
  /-- R458. VIN falls below 40 V and the last gasp runs. -/
  | vinLow
  /-- R464. After the hold-up, the Hatband turns the stage off and the module is in P3. -/
  | vinHoldupEnd
  /-- R464. VIN has stayed at or above 44 V for 10 ms, and start-up runs from step 4. -/
  | vinGood
  /-- R465. A rail is not in regulation within 5 ms; every started rail is taken down and the module goes to P3. -/
  | railTimeout
  /-- R584. VAUX_3V3 is below 2.9 V for 5 us; rails are taken down and the module goes Off. -/
  | vauxLow
  /-- R469. In P2 the Yofen stops 1 s after its last request ends. -/
  | yofenIdleStop
  /-- R477. No REFCLK edge for 2 us; PLLs hold, ports retrain and time runs free. -/
  | refclkLost
  /-- R477. REFCLK returns within 10 ms, PLLs relock and ports retrain. -/
  | refclkReturn
  /-- R477. REFCLK has been absent 10 ms, and the module enters P3. -/
  | refclkLossTimeout
  /-- R475. Every 100 ms the Hatband calibrates its oscillator against REFCLK. -/
  | oscCalibrate
  /-- R471. Tj reaches 115 C; THERM_TRIP_N is asserted and every rail is taken down. -/
  | thermalTrip
  /-- R478. VAUX_3V3 rising through 3.0 V clears everything and starts the start-up sequence. -/
  | coldReset
  /-- R483. HAT_LOADTEST.RUN starts the load test while every external port is closed. -/
  | loadtestRun
  /-- R497. SEC_CMD OP 3 raises the firmware floor counter. -/
  | firmwareFloor
  /-- R497. SEC_CMD OP 4 raises the knit rollback floor counter. -/
  | knitFloor
  /-- R510. A read of DBG_CHAL0 draws a new challenge and invalidates the previous one. -/
  | challengeRead
  /-- R508. DBG_CMD OP 1 grants debug level D1. -/
  | debugRequestD1
  /-- R508. DBG_CMD OP 3 RELEASE ends the grant and returns the level to D0. -/
  | debugRelease
  /-- R510. A debug grant's DURATION_S expires. -/
  | grantExpiry
  /-- R511. The JTAG BYPASS instruction. -/
  | bypass
  /-- R511. The JTAG IDCODE instruction returns the device identification. -/
  | idcode
  /-- R511. The JTAG CLAMP instruction with every external port closed. -/
  | clamp
  /-- R511. The JTAG HIGHZ instruction with every external port closed. -/
  | highz
  /-- R507. The SPDM GET_VERSION request is answered. -/
  | getVersion
  /-- R507. The SPDM GET_CAPABILITIES request is answered. -/
  | getCapabilities
  /-- R507. The SPDM NEGOTIATE_ALGORITHMS request is answered. -/
  | negotiateAlgorithms
  /-- R507. The SPDM GET_DIGESTS request returns certificate digests. -/
  | getDigests
  /-- R531. An FLR of PF0 resets PF0's PCIe state, fails its fetching load and ends its debug grant. -/
  | pf0Flr
  /-- R422. The Yofen finishes booting after a Hatband reset, comes up as a standby, clears HAT_YOF.RESETTING and
  copies the Hatband records into ring 0. -/
  | yofenReboot
  /-- R478. MOD_RESET_N is released, or the 10 us minimum ends, and the start-up sequence runs from step 4. -/
  | moduleResetRelease
  deriving DecidableEq, Repr

end Sys2Proof
end

