-- ==== Sys2Proof/Config.lean ====
section
/-! DEFINITION. The free values of the model: what the spec leaves to a standard it only names, and what it leaves
open.  None has a body, so no proof can rest on a value of it (log entries 5 to 9). -/

namespace Sys2Proof

/-- AES-256-GCM of the standard that R502 and R503 name: key, nonce, authenticated data and plaintext to ciphertext and
16 B tag.  The spec does not restate the cipher. -/
opaque Config.gcmSeal : List Byte → List Byte → List Byte → List Byte → List Byte × List Byte

/-- Its inverse: key, nonce, authenticated data, ciphertext and tag to the plaintext, none when the tag fails. -/
opaque Config.gcmOpen : List Byte → List Byte → List Byte → List Byte → List Byte → Option (List Byte)

/-- SHA-256 of the standard that R31, R43 and R507 name. -/
opaque Config.sha256 : List Byte → List Byte

/-- ECDSA P-256 verification of a signature over a message under a public key (R38, R500, R510). -/
opaque Config.ecdsaOk : List Byte → List Byte → List Byte → Bool

/-- ECDSA P-256 signature with a private scalar, for one fresh number (R507). -/
opaque Config.ecdsaSign : Nat → Nat → List Byte → List Byte

/-- The 256-bit seed that the SRAM PUF reproduces (R489). -/
opaque Config.pufSeed : List Byte

/-- Whether the helper data of boot flash lets the sentinel reconstruct the seed (R490). -/
opaque Config.pufOk : List Byte → Bool

/-- The P-256 public key X ‖ Y of a private scalar (R489). -/
opaque Config.p256Public : Nat → List Byte

/-- The ECDH shared secret of a private scalar and a public key (R502). -/
opaque Config.p256Ecdh : Nat → List Byte → List Byte

/-- The bytes of the VERSION, CAPABILITIES and ALGORITHMS answers: the coding of what R507 states is DSP0274's. -/
opaque Config.spdmBody : Nat → List Byte

/-- A free number, by the count of the draw and the item of that draw: DRBG output, analog results and other values that the spec
leaves open. -/
opaque Config.free : Nat → Nat → Nat

/-- The bits of a NaN that an operation on up to three operands gives (R258 fixes only that it is one). -/
opaque Config.nanBits : Nat → Nat → Nat → Nat

/-- What a module is made with: 0 the hash of the root key in the Hatband ROM, 2 the identity certificate chain, 3 the ROM (R491, R496, R507). -/
opaque Config.device : Nat → List Byte

end Sys2Proof
end

