-- ==== Sys2Proof/Machine/Maps.lean ====
section
/-! DEFINITION. Sparse data by key: a sorted association list keyed by a list of numbers, and byte memory as a
canonical list of cells. -/

namespace Sys2Proof.Machine

/-- A list put in rising order of a number. -/
def sortOn {A : Type} (f : A → Nat) (l : List A) : List A :=
  l.foldr (fun x r => r.takeWhile (fun y => decide (f y < f x)) ++ x :: r.dropWhile fun y => decide (f y < f x)) []

/-- A key: a name number and its indexes. -/
abbrev Key := List Nat

/-- Lexicographic order of keys. -/
def keyLt : Key → Key → Bool
  | [], [] => false
  | [], _ :: _ => true
  | _ :: _, [] => false
  | a :: as, b :: bs => decide (a < b) || (decide (a = b) && keyLt as bs)

/-- Sparse data: pairs of key and value in strictly rising key order. -/
abbrev SMap (V : Type) := List (Key × V)

/-- The value at a key. -/
def SMap.find {V : Type} (k : Key) : SMap V → Option V
  | [] => none
  | (k', v) :: r => if k = k' then some v else SMap.find k r

/-- The map with a value stored at a key. -/
def SMap.set {V : Type} (k : Key) (v : V) : SMap V → SMap V
  | [] => [(k, v)]
  | (k', v') :: r =>
    if k = k' then (k, v) :: r
    else if keyLt k k' then (k, v) :: (k', v') :: r
    else (k', v') :: SMap.set k v r

/-- The map without a key. -/
def SMap.erase {V : Type} (k : Key) : SMap V → SMap V
  | [] => []
  | (k', v') :: r => if k = k' then SMap.erase k r else (k', v') :: SMap.erase k r

/-- The map without the keys that satisfy a test. -/
def SMap.eraseIf {V : Type} (t : Key → V → Bool) (m : SMap V) : SMap V :=
  m.filter fun kv => !t kv.1 kv.2

/-- The value at a key, or a default. -/
def SMap.get {V : Type} (m : SMap V) (k : Key) (d : V) : V := (SMap.find k m).getD d

/-- Keys strictly rising. -/
def SMap.wf {V : Type} : SMap V → Bool
  | [] => true
  | [_] => true
  | (k, _) :: (k', v') :: r => keyLt k k' && SMap.wf ((k', v') :: r)

/-- Byte memory: cells in strictly rising address order, none equal to what an unlisted address reads as. -/
abbrev Mem := List Host.Cell

/-- What an unlisted byte reads as.  DESIGN CHOICE (log entry 2). -/
def Mem.blank : Byte := 0

/-- One byte. -/
def Mem.read (a : Nat) : Mem → Byte
  | [] => Mem.blank
  | (a', b) :: r => if a = a' then b else Mem.read a r

/-- Store one byte that is not the blank byte. -/
def Mem.insert (a : Nat) (b : Byte) : Mem → Mem
  | [] => [(a, b)]
  | (a', b') :: r =>
    if a = a' then (a, b) :: r
    else if a < a' then (a, b) :: (a', b') :: r
    else (a', b') :: Mem.insert a b r

/-- Unlist one byte. -/
def Mem.remove (a : Nat) : Mem → Mem
  | [] => []
  | (a', b') :: r => if a = a' then Mem.remove a r else (a', b') :: Mem.remove a r

/-- Write one byte, keeping the canonical form. -/
def Mem.write (a : Nat) (b : Byte) (m : Mem) : Mem :=
  if b = Mem.blank then Mem.remove a m else Mem.insert a b m

/-- The canonical form: every address above lo, addresses rising, no blank byte listed. -/
def Mem.wfFrom : Nat → Mem → Bool
  | _, [] => true
  | lo, (a, b) :: r => decide (lo ≤ a) && decide (b ≠ Mem.blank) && Mem.wfFrom (a + 1) r

/-- The canonical form of a memory. -/
def Mem.wf (m : Mem) : Bool := Mem.wfFrom 0 m

/-- n bytes from address a upward. -/
def Mem.readN (m : Mem) (a : Nat) : Nat → List Byte
  | 0 => []
  | n + 1 => Mem.read a m :: Mem.readN m (a + 1) n

/-- Bytes written from address a upward. -/
def Mem.writeN (a : Nat) : List Byte → Mem → Mem
  | [], m => m
  | b :: r, m => Mem.writeN (a + 1) r (Mem.write a b m)

end Sys2Proof.Machine
end

