-- ==== Sys2Proof/Machine/Float.lean ====
section
/-! DEFINITION. Exact numbers and the element formats: decoding, rounding and encoding of R128, R129, R136 to R139
(spec/04_ledger_arithmetic.md), and Kegus (R142).  An exact number is a sign and a quotient of naturals. -/

namespace Sys2Proof.Machine

/-- An exact number: (−1)^neg · n / d, with d not zero. -/
structure Ex where
  neg : Bool
  n : Nat
  d : Nat
  deriving DecidableEq, Repr

def exOfInt (i : Int) : Ex := ⟨decide (i < 0), i.natAbs, 1⟩

/-- x · 2^k. -/
def exScale (x : Ex) (k : Int) : Ex :=
  if 0 ≤ k then { x with n := x.n * 2 ^ k.toNat } else { x with d := x.d * 2 ^ (-k).toNat }

/-- The signed numerator. -/
def exNum (x : Ex) : Int := if x.neg then -(x.n : Int) else x.n

def exOf (num : Int) (d : Nat) : Ex := ⟨decide (num < 0), num.natAbs, d⟩
def exMul (x y : Ex) : Ex := exOf (exNum x * exNum y) (x.d * y.d)
def exAdd (x y : Ex) : Ex := exOf (exNum x * y.d + exNum y * x.d) (x.d * y.d)
def exNeg (x : Ex) : Ex := exOf (-(exNum x)) x.d
def exDivNat (x : Ex) (k : Nat) : Ex := { x with d := x.d * k }

/-- x / y for y not zero. -/
def exDiv (x y : Ex) : Ex := exOf (exNum x * y.d * (if y.neg then -1 else 1)) (x.d * y.n)

/-- x < y. -/
def exLt (x y : Ex) : Bool := decide (exNum x * y.d < exNum y * x.d)

/-- floor(log2 (n / d)) for n, d not zero. -/
def floorLog2 (n d : Nat) : Int :=
  let e : Int := (Nat.log2 n : Int) - Nat.log2 d
  if 0 ≤ e then (if d * 2 ^ e.toNat ≤ n then e else e - 1)
  else if d ≤ n * 2 ^ (-e).toNat then e else e - 1

/-- Rounding modes of R136. -/
inductive Rnd where
  | rne
  | sr (noise : Nat)
  deriving DecidableEq, Repr

/-- round_int of R136: n / d to an integer. -/
def roundInt (n d : Nat) (m : Rnd) : Nat :=
  let i := n / d
  let r := n % d
  match m with
  | .rne => if d < 2 * r || (2 * r == d && i % 2 == 1) then i + 1 else i
  | .sr noise => if 2 ^ 32 ≤ r * 2 ^ 32 / d + noise then i + 1 else i

/-- x / 2^q as a quotient, rounded to an integer. -/
def roundAt (x : Ex) (q : Int) (m : Rnd) : Nat :=
  if 0 ≤ q then roundInt x.n (x.d * 2 ^ q.toNat) m else roundInt (x.n * 2 ^ (-q).toNat) x.d m

/-- A floating-point format of R128: field widths, bias, the encoding of the largest finite magnitude, and whether
only S.1…1.1…1 is special (E4M3). -/
structure Fmt where
  ebits : Nat
  mbits : Nat
  bias : Nat
  maxBits : Nat
  e4m3 : Bool
  deriving DecidableEq, Repr

def fmtFp32 : Fmt := ⟨8, 23, 127, 0x7F7FFFFF, false⟩
def fmtBf16 : Fmt := ⟨8, 7, 127, 0x7F7F, false⟩
def fmtFp16 : Fmt := ⟨5, 10, 15, 0x7BFF, false⟩
def fmtE4m3 : Fmt := ⟨4, 3, 7, 0x7E, true⟩
def fmtE5m2 : Fmt := ⟨5, 2, 15, 0x7B, false⟩
def fmtFp64 : Fmt := ⟨11, 52, 1023, 0x7FEFFFFFFFFFFFFF, false⟩

/-- decode of R129: none for an infinity or a NaN, else the exact value. -/
def decodeFloat (f : Fmt) (bits : Nat) : Option Ex :=
  let s := bitOf bits (f.ebits + f.mbits)
  let e := bitsOf bits f.mbits f.ebits
  let m := bitsOf bits 0 f.mbits
  let top := 2 ^ f.ebits - 1
  if (if f.e4m3 then e == top && m == 2 ^ f.mbits - 1 else e == top) then none
  else if e = 0 then some (exScale ⟨s, m, 1⟩ (1 - (f.bias : Int) - f.mbits))
  else some (exScale ⟨s, m + 2 ^ f.mbits, 1⟩ ((e : Int) - f.bias - f.mbits))

/-- The magnitude bits of y · 2^q, where y < 2^(mbits + 1) or y = 2^(mbits + 1) after a carry. -/
def encodeMag (f : Fmt) (y : Nat) (q : Int) : Nat :=
  let (y, q) := if 2 ^ (f.mbits + 1) ≤ y then (y / 2, q + 1) else (y, q)
  if y < 2 ^ f.mbits then y
  else (q + f.mbits + f.bias).toNat * 2 ^ f.mbits + (y - 2 ^ f.mbits)

/-- to_float of R136: the encoding and whether it saturated. -/
def toFloat (f : Fmt) (x : Ex) (m : Rnd) : Nat × Bool :=
  if x.n = 0 then (0, false)
  else
    let e := max (floorLog2 x.n x.d) (1 - (f.bias : Int))
    let q := e - f.mbits
    let mag := encodeMag f (roundAt x q m) q
    let ovf := decide (f.maxBits < mag)
    let mag := if ovf then f.maxBits else mag
    (if mag = 0 then 0 else mag + (if x.neg then 2 ^ (f.ebits + f.mbits) else 0), ovf)

/-! ## Kegus (R142) -/

def rotl32 (v n : Nat) : Nat := (v * 2 ^ n % 2 ^ 32) ||| (v / 2 ^ (32 - n))

/-- One round: the addend, the rotation and the round key. -/
def kegusRound (xy : Nat × Nat) (r : Nat × Nat × Nat) : Nat × Nat :=
  let x := (xy.1 + xy.2 + r.1) % 2 ^ 32
  let y := rotl32 xy.2 r.2.1 ^^^ x
  (x ^^^ r.2.2, y)

/-- The Kegus noise of a key. -/
def kegus (seed step coll chunk elem : Nat) : Nat :=
  let k0 := seed % 2 ^ 32
  let k1 := seed / 2 ^ 32 % 2 ^ 32
  let t := coll * 2 + chunk / 2 ^ 23 % 2
  let x := (step % 2 ^ 32) ^^^ k0
  let y := (chunk % 2 ^ 23 * 512 + elem) ^^^ k1
  let a := (k1 + t) % 2 ^ 32
  let b := (k0 + t) % 2 ^ 32
  ([(0x9E3779B9, 7, a), (0x3C6EF372, 13, b), (0xDAA66D2B, 17, a), (0x78DDE6E4, 25, b)].foldl kegusRound (x, y)).2

end Sys2Proof.Machine
end

