-- ==== Sys2Proof/Machine/Flags.lean ====
section
/-! DEFINITION. Ledger arithmetic and every flag computation of it: conversion into the ledger, the operations, the
output conversions, the side ledger, widths, and the move of a window (R120 to R149, spec/04_ledger_arithmetic.md). -/

namespace Sys2Proof.Machine

/-- A signed 10-bit window exponent. -/
def windowOf (w : Nat) : Int := signed 10 w

/-- The input limit of R123. -/
def ledgerLimit : Nat := 2 ^ 115 - 1

/-- The overflow and invalid flags of a chunk (R148). -/
structure Flg where
  ovf : Bool
  inv : Bool
  deriving DecidableEq, Repr

def flg0 : Flg := ⟨false, false⟩
def flgOr (a b : Flg) : Flg := ⟨a.ovf || b.ovf, a.inv || b.inv⟩
def flgBits (a : Flg) : Nat := b2n a.ovf + 2 * b2n a.inv
def flgOfBits (n : Nat) : Flg := ⟨bitOf n 0, bitOf n 1⟩

/-- to_ledger of R129. -/
def toLedger (x : Ex) (w : Int) : Int × Flg :=
  let mag := roundAt x (w - 100) .rne
  let ovf := decide (ledgerLimit < mag)
  let mag := if ovf then ledgerLimit else mag
  (if x.neg then -(mag : Int) else mag, ⟨ovf, false⟩)

/-! ## Formats (R124, R125, R126) -/

/-- Bytes of one chunk in a member format; 0 for a format no member sends. -/
def chunkBytes : Nat → Nat
  | 0 => 2048 | 1 => 1024 | 2 => 1024 | 3 => 512 | 4 => 512 | 5 => 528 | 6 => 528 | 7 => 2048 | 9 => 2048
  | _ => 0

/-- The most chunks a packet of a format carries (R124). -/
def maxChunks : Nat → Nat
  | 0 => 1 | 1 => 2 | 2 => 2 | 3 => 4 | 4 => 4 | 5 => 3 | 6 => 3 | 7 => 1 | 8 => 4 | 9 => 1
  | _ => 0

/-- PAY_UNITS of n chunks of a format. -/
def payUnitsOf (fmt n : Nat) : Nat := ceilDiv (chunkBytes fmt * n) 64

/-- True when a contribution's FORMAT, NCHUNK and PAY_UNITS agree (R125, R146). -/
def contribFormatOk (fmt n payUnits narrow : Nat) : Bool :=
  fmt != 8 && fmt != 9 && decide (0 < chunkBytes fmt) && decide (n ≤ maxChunks fmt)
    && payUnits == payUnitsOf fmt n && narrow == 0

/-- The element format of a floating-point code. -/
def fmtOf : Nat → Option Fmt
  | 0 => some fmtFp32 | 1 => some fmtBf16 | 2 => some fmtFp16 | 3 => some fmtE4m3 | 4 => some fmtE5m2
  | 5 => some fmtE4m3 | 6 => some fmtE5m2
  | _ => none

/-- Bytes of one element. -/
def elemBytes : Nat → Nat
  | 0 => 4 | 1 => 2 | 2 => 2 | 3 => 1 | 4 => 1 | 5 => 1 | 6 => 1 | 7 => 4
  | _ => 0

/-- The exact value of an input element, none when it is invalid (R129, R130): its bits and, for an MX format, its
block's scale byte. -/
def inputValue (fmt bits scale : Nat) : Option Ex :=
  if fmt = 7 then some (exOfInt (signed 32 bits))
  else match fmtOf fmt with
    | none => none
    | some f =>
      if fmt = 5 ∨ fmt = 6 then
        if scale = 0xFF then none else (decodeFloat f bits).map fun x => exScale x ((scale : Int) - 127)
      else decodeFloat f bits

/-- The elements of chunk i of a payload of n chunks, as (bits, scale). -/
def chunkElems (fmt n i : Nat) (payload : List Byte) : List (Nat × Nat) :=
  let eb := elemBytes fmt
  (List.range 512).map fun j =>
    (leAt payload ((512 * i + j) * eb) eb,
     if fmt = 5 ∨ fmt = 6 then leAt payload (512 * n + 16 * i + j / 32) 1 else 0)

/-! ## Operations (R131, R132) -/

/-- Operation codes of R197. -/
inductive COp where
  | sum | mean | max | min | and | or
  deriving DecidableEq, Repr

def copOf : Nat → Option COp
  | 0 => some .sum | 1 => some .mean | 2 => some .max | 3 => some .min | 4 => some .and | 5 => some .or
  | _ => none

/-- The initial slot value. -/
def copInit : COp → Int
  | .sum => 0 | .mean => 0 | .max => -(2 ^ 127 : Int) | .min => 2 ^ 127 - 1 | .and => 2 ^ 32 - 1 | .or => 0

/-- A ledger value combined with another. -/
def copCombine : COp → Int → Int → Int
  | .sum, a, b => a + b
  | .mean, a, b => a + b
  | .max, a, b => max a b
  | .min, a, b => min a b
  | .and, a, b => (a.toNat &&& b.toNat : Nat)
  | .or, a, b => (a.toNat ||| b.toNat : Nat)

def copBitwise : COp → Bool
  | .and => true | .or => true | _ => false

/-- One input element added to a ledger value, with the flags it sets. -/
def accumElem (op : COp) (w : Int) (fmt bits scale : Nat) (l : Int) : Int × Flg :=
  if copBitwise op then
    if fmt = 7 then (copCombine op l (bits % 2 ^ 32 : Nat), flg0) else (l, ⟨false, true⟩)
  else match inputValue fmt bits scale with
    | none => (l, ⟨false, true⟩)
    | some x => let r := toLedger x w; (copCombine op l r.1, r.2)

/-- A chunk's payload added to a ledger. -/
def accumChunk (op : COp) (w : Int) (fmt n i : Nat) (payload : List Byte) (ledger : List Int) : List Int × Flg :=
  let rs := ((chunkElems fmt n i payload).zip ledger).map fun e => accumElem op w fmt e.1.1 e.1.2 e.2
  (rs.map Prod.fst, rs.foldl (fun f r => flgOr f r.2) flg0)

/-! ## Widths and windows (R145, R147) -/

/-- The width of a ledger value. -/
def ledgerWidth (l : Int) : Nat :=
  if 0 ≤ l then bitLen l.toNat + 1 else bitLen (-l - 1).toNat + 1

/-- The range word of a chunk. -/
def rangeWord (ls : List Int) : Nat := ls.foldl (fun n l => max n (ledgerWidth l)) 1

/-- Saturation to 128 bits at −2^127 and 2^127 − 1. -/
def sat128 (l : Int) : Int × Bool :=
  if 2 ^ 127 ≤ l then (2 ^ 127 - 1, true) else if l < -(2 ^ 127 : Int) then (-(2 ^ 127 : Int), true) else (l, false)

/-- A ledger value moved from window w to window w' (R147). -/
def moveWindow (l : Int) (w w' : Int) : Int × Bool :=
  if w' ≤ w then sat128 (l * 2 ^ (w - w').toNat)
  else
    let m := roundInt l.natAbs (2 ^ (w' - w).toNat) .rne
    sat128 (if l < 0 then -(m : Int) else m)

/-! ## Output (R133, R136 to R141) -/

/-- True for an element of a MAX or MIN that still holds its initial value (R132). -/
def untouched (op : COp) (l : Int) : Bool :=
  (op == .max && l == copInit .max) || (op == .min && l == copInit .min)

/-- The exact value of a result element: L · 2^(W − 100), divided by N for MEAN; zero where untouched. -/
def resultValue (op : COp) (w : Int) (n : Nat) (l : Int) : Ex :=
  if untouched op l then ⟨false, 0, 1⟩
  else
    let x := exScale (exOfInt l) (w - 100)
    if op = .mean then exDivNat x n else x

/-- INT32 output (R139). -/
def toInt32 (x : Ex) (m : Rnd) : Nat × Bool :=
  let i := roundInt x.n x.d m
  let v : Int := if x.neg then -(i : Int) else i
  if 2 ^ 31 ≤ v then (2 ^ 31 - 1, true)
  else if v < -(2 ^ 31 : Int) then (2 ^ 31, true)
  else (unsigned 32 v, false)

/-- The scale exponent X of an MX block and whether it was clamped to 127 (R138). -/
def mxScale (fmt : Nat) (xs : List Ex) : Option (Int × Bool) :=
  match xs.filter fun x => x.n != 0 with
  | [] => none
  | y :: ys =>
    let e := ys.foldl (fun m x => max m (floorLog2 x.n x.d)) (floorLog2 y.n y.d)
    let x := e - (if fmt = 5 then 8 else 15)
    if 127 < x then some (127, true) else if x < -127 then some (-127, false) else some (x, false)

/-- One MX block: the element encodings, the scale byte, and whether the overflow flag is set. -/
def mxBlock (fmt : Nat) (xs : List (Ex × Rnd)) : List Nat × Nat × Bool :=
  let f := if fmt = 5 then fmtE4m3 else fmtE5m2
  match mxScale fmt (xs.map Prod.fst) with
  | none => (xs.map fun _ => 0, 127, false)
  | some (x, clamped) =>
    let rs := xs.map fun e => toFloat f (exScale e.1 (-x)) e.2
    (rs.map Prod.fst, (x + 127).toNat, clamped && rs.any Prod.snd)

/-- What an output conversion gives: the payload bytes, the overflow flag, and the exact value y of each element for
the side ledger. -/
structure Conv where
  bytes : List Byte
  ovf : Bool
  ys : List Ex
  deriving DecidableEq, Repr

/-- A chunk's result converted to an output format (R136 to R141).  The noise of element j is given by the list ms;
ls are the ledger values. -/
def convertChunk (op : COp) (fmt : Nat) (w : Int) (n : Nat) (ls : List Int) (ms : List Rnd) : Conv :=
  let xs := (ls.map (resultValue op w n)).zip ms
  if copBitwise op then
    let bs := ls.map fun l => l.toNat % 2 ^ 32
    ⟨bs.flatMap (leBytes 4), false, bs.map fun b => exOfInt (signed 32 b)⟩
  else if fmt = 7 then
    let rs := xs.map fun e => toInt32 e.1 e.2
    ⟨rs.flatMap fun r => leBytes 4 r.1, rs.any Prod.snd, rs.map fun r => exOfInt (signed 32 r.1)⟩
  else if fmt = 5 ∨ fmt = 6 then
    let f := if fmt = 5 then fmtE4m3 else fmtE5m2
    let bl := (chunksOf 32 16 xs).map (mxBlock fmt)
    ⟨(bl.flatMap fun b => b.1.map (BitVec.ofNat 8)) ++ bl.map (fun b => BitVec.ofNat 8 b.2.1), bl.any fun b => b.2.2,
     bl.flatMap fun b => b.1.map fun e => exScale ((decodeFloat f e).getD ⟨false, 0, 1⟩) ((b.2.1 : Int) - 127)⟩
  else if fmt = 9 then
    let rs := xs.map fun e => toFloat fmtFp32 e.1 e.2
    ⟨(rs.flatMap fun r => leBytes 2 (r.1 / 2 ^ 16)) ++ rs.flatMap fun r => leBytes 2 r.1, rs.any Prod.snd,
     xs.map fun e => (decodeFloat fmtFp32 (toFloat fmtFp32 e.1 .rne).1).getD ⟨false, 0, 1⟩⟩
  else match fmtOf fmt with
    | none => ⟨[], false, []⟩
    | some f =>
      let rs := xs.map fun e => toFloat f e.1 e.2
      ⟨rs.flatMap fun r => leBytes (elemBytes fmt) r.1, rs.any Prod.snd,
       rs.map fun r => (decodeFloat f r.1).getD ⟨false, 0, 1⟩⟩

/-- The side ledger S of a chunk (R134): its value and whether it saturated.  In L128 or SPLIT output, y is the value
rounded to FP32. -/
def sideLedger (w : Int) (ys : List Ex) : Nat × Bool :=
  ys.foldl (fun s y =>
    let q := roundAt (exMul y y) (2 * w - 100) .rne
    let t := s.1 + q
    if 2 ^ 127 ≤ t then (2 ^ 127 - 1, true) else (t, s.2)) (0, false)

/-- L128 output of a MEAN or any other operation (R140). -/
def l128Output (op : COp) (n : Nat) (m : Rnd) (l : Int) : Int :=
  if op = .mean then
    let i := roundInt l.natAbs n m
    if l < 0 then -(i : Int) else i
  else l

end Sys2Proof.Machine
end

