-- ==== Sys2Proof/Machine/Operands.lean ====
section
/-! DEFINITION. The operand forms of the packet commands: the header fields of R73 to R75, the trailer of R76, the two
checks of R77, the opcode table of R80 and the virtual channels of R81 (spec/03_woyth_transport.md). -/

namespace Sys2Proof.Machine

/-! ## Header fields (R73, R74, R75) -/

/-- A header field by its lowest bit and width. -/
def pkF (p : Packet) (lo w : Nat) : Nat := bitsOf p.hdr.toNat lo w

/-- The packet with a header field replaced. -/
def pkSet (p : Packet) (lo w v : Nat) : Packet := { p with hdr := BitVec.ofNat 256 (putBits p.hdr.toNat lo w v) }

def pkOpcode (p : Packet) : Nat := pkF p 0 8
def pkVc (p : Packet) : Nat := pkF p 8 4
def pkEpoch (p : Packet) : Nat := pkF p 12 1
def pkCmark (p : Packet) : Nat := pkF p 13 1
def pkColour (p : Packet) : Nat := pkF p 14 2
def pkPart (p : Packet) : Nat := pkF p 16 5
def pkVersion (p : Packet) : Nat := pkF p 21 3
def pkPayUnits (p : Packet) : Nat := pkF p 24 6
def pkDstType (p : Packet) : Nat := pkF p 32 2
def pkSrcType (p : Packet) : Nat := pkF p 34 2
def pkResend (p : Packet) : Nat := pkF p 36 1
def pkCecho (p : Packet) : Nat := pkF p 37 1
def pkRstate (p : Packet) : Nat := pkF p 40 2
def pkRplane (p : Packet) : Nat := pkF p 42 5
def pkDst (p : Packet) : Nat := pkF p 48 16
def pkSrc (p : Packet) : Nat := pkF p 64 16
def pkAge (p : Packet) : Nat := pkF p 80 16
def pkSeq (p : Packet) : Nat := pkF p 96 32
def pkHcrc (p : Packet) : Nat := pkF p 224 32
def pkAddr (p : Packet) : Nat := pkF p 128 64
def pkLenUnits (p : Packet) : Nat := pkF p 192 6
def pkMode (p : Packet) : Nat := pkF p 200 8
def pkStatus (p : Packet) : Nat := pkF p 208 8
def pkColl (p : Packet) : Nat := pkF p 128 16
def pkStep (p : Packet) : Nat := pkF p 144 32
def pkChunk (p : Packet) : Nat := pkF p 176 24
def pkNchunk (p : Packet) : Nat := pkF p 200 2 + 1
def pkFormat (p : Packet) : Nat := pkF p 202 4
def pkNarrow (p : Packet) : Nat := pkF p 206 1
def pkFlags (p : Packet) : Nat := pkF p 208 8
def pkReason (p : Packet) : Nat := pkF p 216 8

/-- The flits of a packet (R72). -/
def pkFlits (p : Packet) : Nat := pkPayUnits p + 1

/-- The cells of a packet (R309). -/
def pkCells (p : Packet) : Nat := ceilDiv (pkFlits p) 4

/-! ## The two checks (R77) -/

/-- One bit step of the reflected Castagnoli CRC. -/
def crcBit (c : Nat) : Nat := if c % 2 = 1 then (c / 2) ^^^ 0x82F63B78 else c / 2

/-- One byte of CRC-32C. -/
def crcByte (c : Nat) (b : Byte) : Nat :=
  crcBit (crcBit (crcBit (crcBit (crcBit (crcBit (crcBit (crcBit (c ^^^ b.toNat))))))))

/-- CRC-32C of a byte string (R77). -/
def crc32c (bs : List Byte) : Nat := (bs.foldl crcByte 0xFFFFFFFF) ^^^ 0xFFFFFFFF

/-- HCRC of the header bytes 0 to 27 as they stand. -/
def hcrcOf (hdr : Nat) : Nat := crc32c (leBytes 28 hdr)

/-- The header with the fields that E2E_CRC takes as zero: VC, CMARK, AGE, CECHO, RSTATE, RPLANE. -/
def e2eHeader (hdr : Nat) : Nat :=
  putBits (putBits (putBits (putBits (putBits (putBits hdr 8 4 0) 13 1 0) 37 1 0) 40 2 0) 42 5 0) 80 16 0

/-- E2E_CRC of a header and payload. -/
def e2eOf (hdr : Nat) (payload : List Byte) : Nat := crc32c (leBytes 28 (e2eHeader hdr) ++ payload)

/-- The packet with HCRC recomputed, as every sender of a hop does. -/
def pkSeal (p : Packet) : Packet := pkSet p 224 32 (hcrcOf p.hdr.toNat)

/-- The packet with E2E_CRC computed by its source, then HCRC. -/
def pkSealSource (p : Packet) : Packet :=
  pkSeal { p with e2e := BitVec.ofNat 32 (e2eOf p.hdr.toNat p.payload) }

def pkHcrcOk (p : Packet) : Bool := pkHcrc p == hcrcOf p.hdr.toNat
def pkE2eOk (p : Packet) : Bool := p.e2e.toNat == e2eOf p.hdr.toNat p.payload

/-! ## Opcodes, classes, virtual channels (R80, R81) -/

/-- Traffic classes, in the order Q, P, U, D, M, B. -/
inductive Cls where
  | q | p | u | d | m | b
  deriving DecidableEq, Repr

def clsIx : Cls → Nat
  | .q => 0 | .p => 1 | .u => 2 | .d => 3 | .m => 4 | .b => 5

def clsOf : Nat → Cls
  | 0 => .q | 1 => .p | 2 => .u | 3 => .d | 4 => .m | _ => .b

/-- A row of the opcode table: class, NI may send, Zarfer may send, DST_TYPEs permitted. -/
structure OpRow where
  cls : Cls
  ni : Bool
  zarfer : Bool
  dst : List Nat
  deriving DecidableEq, Repr

/-- The opcode table of R80; none for a reserved code. -/
def opRow : Nat → Option OpRow
  | 0x10 => some ⟨.q, true, false, [0]⟩
  | 0x11 => some ⟨.q, true, false, [0]⟩
  | 0x12 => some ⟨.q, true, false, [2]⟩
  | 0x13 => some ⟨.q, true, false, [2]⟩
  | 0x14 => some ⟨.q, true, false, [2]⟩
  | 0x20 => some ⟨.p, true, false, [0]⟩
  | 0x21 => some ⟨.p, true, false, [0]⟩
  | 0x22 => some ⟨.p, false, true, [0]⟩
  | 0x23 => some ⟨.p, false, true, [0]⟩
  | 0x24 => some ⟨.p, false, true, [0]⟩
  | 0x2F => some ⟨.p, true, true, [0]⟩
  | 0x30 => some ⟨.u, true, false, [2]⟩
  | 0x31 => some ⟨.u, false, true, [2]⟩
  | 0x32 => some ⟨.u, true, false, [2]⟩
  | 0x33 => some ⟨.u, true, false, [2]⟩
  | 0x40 => some ⟨.d, false, true, [0, 1, 2]⟩
  | 0x41 => some ⟨.d, false, true, [0, 1, 2]⟩
  | 0x42 => some ⟨.d, false, true, [0, 2]⟩
  | 0x43 => some ⟨.d, false, true, [0, 1]⟩
  | 0x50 => some ⟨.m, true, true, [2]⟩
  | 0x51 => some ⟨.m, false, true, [0, 1, 2]⟩
  | 0x52 => some ⟨.m, false, true, [0, 1]⟩
  | 0x60 => some ⟨.b, false, true, [0]⟩
  | 0x61 => some ⟨.b, false, true, [0]⟩
  | 0x62 => some ⟨.b, false, true, [0, 1]⟩
  | _ => none

/-- The class of a virtual channel (R81). -/
def vcCls (v : Nat) : Cls := clsOf (v / 3)

/-- The first VC of a class. -/
def clsVc (c : Cls) : Nat := 3 * clsIx c

/-- The hop index of a VC; 0 for class B. -/
def vcHop (v : Nat) : Nat := if v = 15 then 0 else v % 3

/-- The VC of a class at a hop index; class B has VC 15 only. -/
def vcAt (c : Cls) (h : Nat) : Nat := if c = .b then 15 else clsVc c + h

/-! ## Addresses (R84) -/

def dstIsSelf (d : Nat) : Bool := bitOf d 6
def dstX (d : Nat) : Nat := bitsOf d 0 3
def dstY (d : Nat) : Nat := bitsOf d 3 3
def dstRank (d : Nat) : Nat := bitsOf d 0 12

/-- A SWITCH address of rack (x, y), with QUAD as a source. -/
def switchAddr (x y quad : Nat) : Nat := x + 8 * y + 256 * quad

/-- Bits that R73, R75 and R84 reserve in DST, SRC and header bytes 3 to 5 are zero. -/
def pkAddrOk (ty a : Nat) (isSrc : Bool) : Bool :=
  match ty with
  | 0 => bitsOf a 12 4 == 0
  | 1 => bitsOf a 12 4 == 0
  | 2 => decide (dstX a ≤ 4) && decide (dstY a ≤ 4) && !bitOf a 7 && bitsOf a 10 6 == 0
           && (isSrc || bitsOf a 8 2 == 0)
  | _ => false

/-- A header built from its fields; HCRC and E2E_CRC are put in by pkSealSource. -/
def mkHdr (opcode vc epoch part payUnits dstType srcType dst src seq opspec : Nat) : Nat :=
  opcode + vc * 2 ^ 8 + epoch * 2 ^ 12 + part * 2 ^ 16 + 2 ^ 21 + payUnits * 2 ^ 24
    + dstType * 2 ^ 32 + srcType * 2 ^ 34 + dst * 2 ^ 48 + src * 2 ^ 64 + seq % 2 ^ 32 * 2 ^ 96
    + opspec % 2 ^ 96 * 2 ^ 128

/-- A packet from its header number and payload, padded to whole 64 B units. -/
def mkPacket (hdr : Nat) (payload : List Byte) : Packet :=
  pkSealSource { hdr := BitVec.ofNat 256 hdr, payload := payload, e2e := 0, stomp := false }

/-- OPSPEC of classes U and D (R75), as the number of bytes 16 to 27. -/
def collSpec (coll step chunk nchunk format narrow flags reason : Nat) : Nat :=
  coll + step * 2 ^ 16 + chunk * 2 ^ 48 + (nchunk - 1) * 2 ^ 72 + format * 2 ^ 74 + narrow * 2 ^ 78
    + flags * 2 ^ 80 + reason * 2 ^ 88

/-- OPSPEC of classes Q and P (R74). -/
def reqSpec (addr lenUnits mode status : Nat) : Nat :=
  addr + lenUnits * 2 ^ 64 + mode * 2 ^ 72 + status * 2 ^ 80

end Sys2Proof.Machine
end

