-- ==== Sys2Proof/Machine/RegMap.lean ====
section
/-! DEFINITION. The register map of the module: one field descriptor per field of every register table of spec/02 to spec/20, and the rows that place the registers in PF0's BAR0 (R564 to R567 of spec/20_register_map.md).  Written by a script from the spec's own register tables. -/

namespace Sys2Proof.Machine

/-- A register field: its number, its width in bits and its reset value. -/
structure Fld where
  id : Nat
  w : Nat
  reset : Nat
  deriving DecidableEq, Repr

/-- The access codes of R11. -/
inductive Acc where
  | rw | ro | wo | w1c | w1s | rwk
  deriving DecidableEq, Repr

/-- What a VF sees of a register (the "A VF sees" sentence of each chapter). -/
inductive Vis where
  | none | part | ctrVis | fn | all | counter | mirror | strag | sampler | mitCtx
  deriving DecidableEq, Repr

/-- Which copies of a register are live: every quadrant's, the trigger quadrant's (one copy per partition),
Q0's, or one copy per function. -/
inductive Live where
  | all | trig | q0 | fn
  deriving DecidableEq, Repr

/-- One field in its register: lowest bit, descriptor, access code, and the range of R594 where the table states one. -/
structure FieldRow where
  lo : Nat
  fld : Fld
  acc : Acc
  range : Option (Nat × Nat)
  deriving DecidableEq, Repr

/-- One register (array) in its block: offset, dimensions (count, stride), visibility, live copies, fields. -/
structure RegRow where
  off : Nat
  dims : List (Nat × Nat)
  vis : Vis
  live : Live
  fields : List FieldRow
  deriving DecidableEq, Repr

def F.KNT_LOAD_ADDR_ADDR : Fld := ⟨0, 52, 0⟩
def F.KNT_LOAD_LEN_LEN : Fld := ⟨1, 32, 0⟩
def F.KNT_CMD_OP : Fld := ⟨2, 2, 0⟩
def F.KNT_STATUS_STATE : Fld := ⟨3, 3, 0⟩
def F.KNT_STATUS_RESYNC : Fld := ⟨4, 1, 0⟩
def F.KNT_STATUS_REFUSED : Fld := ⟨5, 1, 0⟩
def F.KNT_STATUS_LAST_GROUP : Fld := ⟨6, 16, 0⟩
def F.KNT_STATUS_FAIL_GROUP : Fld := ⟨7, 16, 0⟩
def F.KNT_STATUS_FAIL_CODE : Fld := ⟨8, 8, 0⟩
def F.KNT_FAIL_FRAME_FRAME : Fld := ⟨9, 32, 0⟩
def F.KNT_TIMEOUTS_QUIET_TMO : Fld := ⟨10, 16, 3000⟩
def F.KNT_TIMEOUTS_DRAIN_TMO : Fld := ⟨11, 16, 1000⟩
def F.KNT_PART_STATE_SERIAL : Fld := ⟨12, 32, 0⟩
def F.KNT_PART_STATE_GROUP : Fld := ⟨13, 16, 0⟩
def F.KNT_PART_STATE_PARTIAL : Fld := ⟨14, 1, 0⟩
def F.XPT_CTL_AGE_LIMIT : Fld := ⟨15, 16, 2000⟩
def F.XPT_CTL_DEFER_RETRY : Fld := ⟨16, 8, 20⟩
def F.XPT_CTL_CMARK_EN : Fld := ⟨17, 1, 1⟩
def F.XPT_RESEND_FIRST : Fld := ⟨18, 10, 100⟩
def F.XPT_RESEND_TRIES : Fld := ⟨19, 3, 3⟩
def F.XPT_CMARK_THR_Q : Fld := ⟨20, 8, 16⟩
def F.XPT_CMARK_THR_P : Fld := ⟨21, 8, 16⟩
def F.XPT_CMARK_THR_U : Fld := ⟨22, 8, 16⟩
def F.XPT_CMARK_THR_D : Fld := ⟨23, 8, 16⟩
def F.XPT_INJ_THR_ON : Fld := ⟨24, 18, 8192⟩
def F.XPT_INJ_THR_OFF : Fld := ⟨25, 18, 4096⟩
def F.XPT_POD_X : Fld := ⟨26, 3, 0⟩
def F.XPT_POD_Y : Fld := ⟨27, 3, 0⟩
def F.XPT_POD_PLANE : Fld := ⟨28, 5, 0⟩
def F.XPT_EPOCH_STAMP : Fld := ⟨29, 1, 0⟩
def F.XPT_EPOCH_STATE : Fld := ⟨30, 2, 0⟩
def F.XPT_EPOCH_VALID_A : Fld := ⟨31, 1, 0⟩
def F.XPT_EPOCH_VALID_B : Fld := ⟨32, 1, 0⟩
def F.XPT_EPOCH_INFLIGHT_A : Fld := ⟨33, 20, 0⟩
def F.XPT_EPOCH_INFLIGHT_B : Fld := ⟨34, 20, 0⟩
def F.XPT_EPOCH_FLIPS : Fld := ⟨35, 16, 0⟩
def F.XPT_DISC_COUNT : Fld := ⟨36, 48, 0⟩
def F.XPT_DISC_OVF : Fld := ⟨37, 1, 0⟩
def F.LDG_PART_CTL_OVF_POLICY : Fld := ⟨38, 1, 0⟩
def F.LDG_PART_CTL_INV_POLICY : Fld := ⟨39, 1, 0⟩
def F.LDG_PART_CTL_SR_EN : Fld := ⟨40, 1, 0⟩
def F.LDG_STEP_STEP_TAG : Fld := ⟨41, 32, 0⟩
def F.LDG_STEP_OVF : Fld := ⟨42, 1, 0⟩
def F.LDG_STEP_INV : Fld := ⟨43, 1, 0⟩
def F.LDG_STEP_SKIPPED : Fld := ⟨44, 1, 0⟩
def F.LDG_STEP_VALID : Fld := ⟨45, 1, 0⟩
def F.LDG_FIRST_COLL_ID : Fld := ⟨46, 16, 0⟩
def F.LDG_FIRST_CHUNK : Fld := ⟨47, 24, 0⟩
def F.LDG_FIRST_KIND : Fld := ⟨48, 1, 0⟩
def F.LDG_KTEST_SEED_SEED : Fld := ⟨49, 64, 0⟩
def F.LDG_KTEST_IN_STEP : Fld := ⟨50, 32, 0⟩
def F.LDG_KTEST_IN_COLL : Fld := ⟨51, 16, 0⟩
def F.LDG_KTEST_POS_CHUNK : Fld := ⟨52, 24, 0⟩
def F.LDG_KTEST_POS_ELEM : Fld := ⟨53, 9, 0⟩
def F.LDG_KTEST_OUT_NOISE : Fld := ⟨54, 32, 1844790004⟩
def F.SLT_PART_CAP_SPILL_CAP : Fld := ⟨55, 18, 0⟩
def F.SLT_PART_CAP_CAP : Fld := ⟨56, 18, 0⟩
def F.SLT_PART_CAP_LIMIT : Fld := ⟨57, 16, 0⟩
def F.SLT_PART_USE_RESIDENT : Fld := ⟨58, 16, 0⟩
def F.SLT_PART_USE_SPILLED : Fld := ⟨59, 18, 0⟩
def F.SLT_PART_USE_ADMITTED : Fld := ⟨60, 16, 0⟩
def F.SLT_PART_USE_LAST_DEFER : Fld := ⟨61, 3, 0⟩
def F.SLT_EVENT_COUNT : Fld := ⟨62, 48, 0⟩
def F.SLT_EVENT_OVF : Fld := ⟨63, 1, 0⟩
def F.SLT_PAGER_CTL_LOW_WATER : Fld := ⟨64, 16, 0⟩
def F.SLT_PAGER_STAT_STALLED : Fld := ⟨65, 1, 0⟩
def F.SLT_PAGER_STAT_PENDING : Fld := ⟨66, 16, 0⟩
def F.SLT_SWEEP_PART : Fld := ⟨67, 5, 0⟩
def F.SLT_SWEEP_ACTIVE : Fld := ⟨68, 1, 0⟩
def F.ARB_SLAB_CTL_HOLD : Fld := ⟨69, 13, 4096⟩
def F.ARB_SLAB_LOG_BANK : Fld := ⟨70, 7, 0⟩
def F.ARB_SLAB_LOG_PORT : Fld := ⟨71, 1, 0⟩
def F.ARB_SLAB_LOG_REQ : Fld := ⟨72, 3, 0⟩
def F.ARB_SLAB_LOG_VALID : Fld := ⟨73, 1, 0⟩
def F.ARB_SLAB_LOG_FIRES : Fld := ⟨74, 16, 0⟩
def F.SEQ_RING_BASE_ADDR : Fld := ⟨75, 52, 0⟩
def F.SEQ_RING_CTL_LOG2SIZE : Fld := ⟨76, 5, 6⟩
def F.SEQ_RING_CTL_CQ : Fld := ⟨77, 3, 0⟩
def F.SEQ_RING_CTL_EN : Fld := ⟨78, 1, 0⟩
def F.SEQ_RING_CTL_FABRIC_DB : Fld := ⟨79, 1, 0⟩
def F.SEQ_RING_CTL_ERR : Fld := ⟨80, 1, 0⟩
def F.SEQ_RING_CTL_DBERR : Fld := ⟨81, 1, 0⟩
def F.SEQ_RING_PROD_PROD : Fld := ⟨82, 32, 0⟩
def F.SEQ_RING_CONS_CONS : Fld := ⟨83, 32, 0⟩
def F.SEQ_CTL_POD_HOLD : Fld := ⟨84, 16, 100⟩
def F.SEQ_STEP_ARMED : Fld := ⟨85, 32, 0⟩
def F.SEQ_STEP_REPLAY : Fld := ⟨86, 1, 0⟩
def F.SEQ_SLOW_RANK : Fld := ⟨87, 12, 0⟩
def F.SEQ_SLOW_VALID : Fld := ⟨88, 1, 0⟩
def F.SEQ_SLOW_LAST : Fld := ⟨89, 32, 0⟩
def F.SEQ_SLOW_BAD_DONE : Fld := ⟨90, 16, 0⟩
def F.SEQ_ABORT_COLL_ID : Fld := ⟨91, 16, 0⟩
def F.SEQ_ABORT_STEP_TAG : Fld := ⟨92, 32, 0⟩
def F.SEQ_ABORT_MISSING : Fld := ⟨93, 13, 0⟩
def F.SEQ_ABORT_MORE : Fld := ⟨94, 1, 0⟩
def F.SEQ_ABORT_VALID : Fld := ⟨95, 1, 0⟩
def F.SEQ_STRAG_SEL_TABLE : Fld := ⟨96, 4, 0⟩
def F.SEQ_STRAG_SEL_ACC : Fld := ⟨97, 8, 0⟩
def F.SEQ_STRAG_SEL_PART : Fld := ⟨98, 5, 0⟩
def F.SEQ_STRAG_DATA0_LAST : Fld := ⟨99, 32, 0⟩
def F.SEQ_STRAG_DATA0_LAG_MAX : Fld := ⟨100, 32, 0⟩
def F.SEQ_STRAG_DATA1_LAG_SUM : Fld := ⟨101, 48, 0⟩
def F.SEQ_STRAG_DATA1_OVF : Fld := ⟨102, 1, 0⟩
def F.SEQ_STRAG_CLR_CLEAR : Fld := ⟨103, 1, 0⟩
def F.SEQ_ABORT_MAP_MISSING : Fld := ⟨104, 64, 0⟩
def F.SEQ_CQ_BASE_ADDR : Fld := ⟨105, 59, 0⟩
def F.SEQ_CQ_CTL_LOG2SIZE : Fld := ⟨106, 5, 4⟩
def F.SEQ_CQ_CTL_EN : Fld := ⟨107, 1, 0⟩
def F.SEQ_CQ_CTL_HOST : Fld := ⟨108, 1, 0⟩
def F.SEQ_CQ_CTL_VECTOR : Fld := ⟨109, 11, 0⟩
def F.SEQ_CQ_PTR_PROD : Fld := ⟨110, 32, 0⟩
def F.SEQ_CQ_PTR_CONS : Fld := ⟨111, 32, 0⟩
def F.SEQ_CQ_LOST_COUNT : Fld := ⟨112, 48, 0⟩
def F.SEQ_CQ_LOST_OVF : Fld := ⟨113, 1, 0⟩
def F.UPD_PART_STEP_STEP_TAG : Fld := ⟨114, 32, 0⟩
def F.UPD_PART_STEP_STATE : Fld := ⟨115, 3, 0⟩
def F.UPD_PART_STEP_OUTCOME : Fld := ⟨116, 3, 0⟩
def F.UPD_PART_STEP_EARLY : Fld := ⟨117, 1, 0⟩
def F.UPD_PART_T_T : Fld := ⟨118, 32, 0⟩
def F.UPD_NORM_NORM : Fld := ⟨119, 64, 0⟩
def F.UPD_CLIP_K : Fld := ⟨120, 32, 0⟩
def F.UPD_CLIP_STEP_TAG : Fld := ⟨121, 32, 0⟩
def F.UPD_STAT_COUNT : Fld := ⟨122, 48, 0⟩
def F.UPD_STAT_OVF : Fld := ⟨123, 1, 0⟩
def F.UPD_TMO_STEP : Fld := ⟨124, 16, 3000⟩
def F.UPD_TMO_PROGRESS : Fld := ⟨125, 16, 1000⟩
def F.UPD_FAULT_FAULTED : Fld := ⟨126, 1, 0⟩
def F.UPD_FAULT_LOST : Fld := ⟨127, 1, 0⟩
def F.UPD_FAULT_PART : Fld := ⟨128, 5, 0⟩
def F.UPD_FAULT_SHARD : Fld := ⟨129, 12, 0⟩
def F.GRM_PART_STATE : Fld := ⟨130, 2, 0⟩
def F.GRM_PART_OPCODE : Fld := ⟨131, 8, 0⟩
def F.GRM_PART_TAG : Fld := ⟨132, 32, 0⟩
def F.GRM_PROG_DONE : Fld := ⟨133, 32, 0⟩
def F.GRM_PROG_TOTAL : Fld := ⟨134, 32, 0⟩
def F.GRM_STAT_COUNT : Fld := ⟨135, 48, 0⟩
def F.GRM_STAT_OVF : Fld := ⟨136, 1, 0⟩
def F.GRM_TMO_PROGRESS : Fld := ⟨137, 16, 1000⟩
def F.GRM_FAULT_FAULTED : Fld := ⟨138, 1, 0⟩
def F.GRM_FAULT_PART : Fld := ⟨139, 5, 0⟩
def F.GRM_FAULT_OPCODE : Fld := ⟨140, 8, 0⟩
def F.GRM_FAULT_VALID : Fld := ⟨141, 1, 0⟩
def F.MIT_CTL_PEER_RESEND : Fld := ⟨142, 10, 10⟩
def F.MIT_CTL_NOTICE_EN : Fld := ⟨143, 1, 1⟩
def F.MIT_ROLE_CMD_CTX : Fld := ⟨144, 10, 0⟩
def F.MIT_ROLE_CMD_ROLE : Fld := ⟨145, 1, 0⟩
def F.MIT_ROLE_CMD_GO : Fld := ⟨146, 1, 0⟩
def F.MIT_ABORT_CTX : Fld := ⟨147, 10, 0⟩
def F.MIT_ABORT_KIND : Fld := ⟨148, 3, 0⟩
def F.MIT_ABORT_SEQ : Fld := ⟨149, 32, 0⟩
def F.MIT_ABORT_MISSING : Fld := ⟨150, 13, 0⟩
def F.MIT_ABORT_MORE : Fld := ⟨151, 1, 0⟩
def F.MIT_ABORT_VALID : Fld := ⟨152, 1, 0⟩
def F.MIT_CTX_SEQ : Fld := ⟨153, 32, 0⟩
def F.MIT_CTX_STATE0 : Fld := ⟨154, 2, 0⟩
def F.MIT_CTX_STATE1 : Fld := ⟨155, 2, 0⟩
def F.MIT_CTX_ROLE : Fld := ⟨156, 1, 0⟩
def F.MIT_CTX_JOINING : Fld := ⟨157, 1, 0⟩
def F.MIT_CTX_ACTIVE : Fld := ⟨158, 1, 0⟩
def F.MIT_CTX_PART : Fld := ⟨159, 5, 0⟩
def F.MIT_STAT_COUNT : Fld := ⟨160, 48, 0⟩
def F.MIT_STAT_OVF : Fld := ⟨161, 1, 0⟩
def F.COR_BUF_FREE : Fld := ⟨162, 18, 190542⟩
def F.COR_BUF_LOW : Fld := ⟨163, 18, 190542⟩
def F.COR_BUF_LOW_CLR : Fld := ⟨164, 1, 0⟩
def F.COR_PORT_OPEN : Fld := ⟨165, 1, 0⟩
def F.COR_PORT_FLUSHING : Fld := ⟨166, 1, 0⟩
def F.COR_PORT_FLUSHED : Fld := ⟨167, 32, 0⟩
def F.COR_QDEPTH_CELLS : Fld := ⟨168, 18, 0⟩
def F.COR_QDEPTH_PEAK : Fld := ⟨169, 18, 0⟩
def F.COR_QDEPTH_PEAK_CLR : Fld := ⟨170, 1, 0⟩
def F.COR_UQUOTA_USE_CELLS : Fld := ⟨171, 18, 0⟩
def F.COR_UQUOTA_USE_AT_QUOTA : Fld := ⟨172, 1, 0⟩
def F.COR_MIR_CTL_EN : Fld := ⟨173, 1, 0⟩
def F.COR_MIR_CTL_PORT : Fld := ⟨174, 6, 0⟩
def F.COR_MIR_CTL_DIR : Fld := ⟨175, 1, 0⟩
def F.COR_MIR_CTL_CLASSES : Fld := ⟨176, 6, 0⟩
def F.COR_MIR_CTL_K : Fld := ⟨177, 5, 24⟩
def F.COR_MIR_CTL_DEST : Fld := ⟨178, 2, 3⟩
def F.COR_MIR_CTL_PART : Fld := ⟨179, 5, 0⟩
def F.COR_MIR_CTL_RANK : Fld := ⟨180, 12, 0⟩
def F.COR_MIR_CTL_LOG2SIZE : Fld := ⟨181, 5, 4⟩
def F.COR_MIR_CTL_VECTOR : Fld := ⟨182, 11, 0⟩
def F.COR_MIR_RING_ADDR : Fld := ⟨183, 57, 0⟩
def F.COR_MIR_PTR_PROD : Fld := ⟨184, 32, 0⟩
def F.COR_MIR_PTR_CONS : Fld := ⟨185, 32, 0⟩
def F.COR_MIR_STAT_TAKEN : Fld := ⟨186, 32, 0⟩
def F.COR_MIR_STAT_LOST : Fld := ⟨187, 32, 0⟩
def F.LNK_PORT_CTL_EN : Fld := ⟨188, 1, 1⟩
def F.LNK_PORT_CTL_RETRAIN : Fld := ⟨189, 1, 0⟩
def F.LNK_PORT_STAT_STATE : Fld := ⟨190, 3, 0⟩
def F.LNK_PORT_STAT_RATE : Fld := ⟨191, 2, 0⟩
def F.LNK_PORT_STAT_LANES : Fld := ⟨192, 4, 0⟩
def F.LNK_PORT_STAT_RX_BAD : Fld := ⟨193, 4, 0⟩
def F.LNK_PORT_STAT_DOWN_CAUSE : Fld := ⟨194, 4, 0⟩
def F.LNK_PORT_STAT_PEER_RX_OK : Fld := ⟨195, 1, 0⟩
def F.LNK_PORT_STAT_RETRAINS : Fld := ⟨196, 16, 0⟩
def F.LNK_PORT_STAT_DEGRADES : Fld := ⟨197, 16, 0⟩
def F.LNK_PORT_ERR_UCW : Fld := ⟨198, 32, 0⟩
def F.LNK_PORT_ERR_LCF_BAD : Fld := ⟨199, 16, 0⟩
def F.LNK_PORT_ERR_SYNCS : Fld := ⟨200, 16, 0⟩
def F.LNK_THR_LANE_THR : Fld := ⟨201, 24, 32768⟩
def F.LNK_THR_UCW_THR : Fld := ⟨202, 16, 4⟩
def F.LNK_TIMERS_STARVE : Fld := ⟨203, 16, 50⟩
def F.LNK_TIMERS_DOWN_HOLD : Fld := ⟨204, 16, 100⟩
def F.LNK_TIMERS_QUIET_IDLE : Fld := ⟨205, 16, 100⟩
def F.LNK_INJ_PORT : Fld := ⟨206, 6, 0⟩
def F.LNK_INJ_LANE : Fld := ⟨207, 2, 0⟩
def F.LNK_INJ_KIND : Fld := ⟨208, 3, 0⟩
def F.LNK_INJ_GO : Fld := ⟨209, 1, 0⟩
def F.LNK_CRED_TX_AVAIL : Fld := ⟨210, 16, 0⟩
def F.LNK_CRED_RX_OUT : Fld := ⟨211, 16, 0⟩
def F.LNK_CRED_STARVED : Fld := ⟨212, 1, 0⟩
def F.LNK_LANE_CTLE : Fld := ⟨213, 6, 0⟩
def F.LNK_LANE_POL : Fld := ⟨214, 1, 0⟩
def F.LNK_LANE_BAD : Fld := ⟨215, 1, 0⟩
def F.LNK_LANE_CORR_LAST : Fld := ⟨216, 24, 0⟩
def F.LNK_LANE_CORR_TOTAL : Fld := ⟨217, 32, 0⟩
def F.HBM_STACK_STATE : Fld := ⟨218, 2, 0⟩
def F.HBM_STACK_CH_RETIRED : Fld := ⟨219, 16, 0⟩
def F.HBM_STACK_MAP_MIB : Fld := ⟨220, 15, 0⟩
def F.HBM_ECC_CE : Fld := ⟨221, 32, 0⟩
def F.HBM_ECC_UCE : Fld := ⟨222, 16, 0⟩
def F.HBM_ECC_OVF : Fld := ⟨223, 1, 0⟩
def F.HBM_ERR_LOG_STACK : Fld := ⟨224, 3, 0⟩
def F.HBM_ERR_LOG_PC : Fld := ⟨225, 5, 0⟩
def F.HBM_ERR_LOG_PART : Fld := ⟨226, 5, 0⟩
def F.HBM_ERR_LOG_VALID : Fld := ⟨227, 1, 0⟩
def F.HBM_ERR_LOG_MORE : Fld := ⟨228, 1, 0⟩
def F.HBM_ERR_LOG_LINE : Fld := ⟨229, 28, 0⟩
def F.HBM_SCRUB_EN : Fld := ⟨230, 1, 1⟩
def F.HBM_SCRUB_PERIOD : Fld := ⟨231, 8, 24⟩
def F.HBM_SCRUB_PASSES : Fld := ⟨232, 32, 0⟩
def F.HBM_RETIRE_THR_CH_UCE : Fld := ⟨233, 8, 4⟩
def F.HBM_RETIRE_THR_CH_CE : Fld := ⟨234, 24, 1000000⟩
def F.HBM_RETIRE_CMD_STACK : Fld := ⟨235, 3, 0⟩
def F.HBM_RETIRE_CMD_CHANNEL : Fld := ⟨236, 4, 0⟩
def F.HBM_RETIRE_CMD_WHOLE : Fld := ⟨237, 1, 0⟩
def F.HBM_RETIRE_CMD_GO : Fld := ⟨238, 1, 0⟩
def F.HBM_EXTENT_LOST : Fld := ⟨239, 1, 0⟩
def F.HBM_EXTENT_REMAPPING : Fld := ⟨240, 1, 0⟩
def F.HBM_EXTENT_REMAPPED : Fld := ⟨241, 1, 0⟩
def F.HBM_INJ_STACK : Fld := ⟨242, 3, 0⟩
def F.HBM_INJ_PC : Fld := ⟨243, 5, 0⟩
def F.HBM_INJ_LINE : Fld := ⟨244, 28, 0⟩
def F.HBM_INJ_BITS : Fld := ⟨245, 2, 1⟩
def F.HBM_INJ_GO : Fld := ⟨246, 1, 0⟩
def F.PRK_QUEUE_DEPTH : Fld := ⟨247, 9, 0⟩
def F.PRK_QUEUE_PEAK : Fld := ⟨248, 9, 0⟩
def F.PRK_QUEUE_PEAK_CLR : Fld := ⟨249, 1, 0⟩
def F.PRK_QUEUE_FAULTED : Fld := ⟨250, 1, 0⟩
def F.PRK_STAT_COUNT : Fld := ⟨251, 48, 0⟩
def F.PRK_STAT_OVF : Fld := ⟨252, 1, 0⟩
def F.ARB_HBM_CTL_HOLD : Fld := ⟨253, 13, 4096⟩
def F.ARB_HBM_LOG_STACK : Fld := ⟨254, 3, 0⟩
def F.ARB_HBM_LOG_PC : Fld := ⟨255, 5, 0⟩
def F.ARB_HBM_LOG_REQ : Fld := ⟨256, 3, 0⟩
def F.ARB_HBM_LOG_VALID : Fld := ⟨257, 1, 0⟩
def F.ARB_HBM_LOG_FIRES : Fld := ⟨258, 16, 0⟩
def F.MOV_CH_CTL_PAUSE : Fld := ⟨259, 1, 0⟩
def F.MOV_CH_CTL_RESUME : Fld := ⟨260, 1, 0⟩
def F.MOV_CH_CTL_ABORT : Fld := ⟨261, 1, 0⟩
def F.MOV_CH_CTL_ERR : Fld := ⟨262, 1, 0⟩
def F.MOV_CH_STAT_STATE : Fld := ⟨263, 3, 0⟩
def F.MOV_CH_STAT_BUSY : Fld := ⟨264, 1, 0⟩
def F.MOV_CH_STAT_STATUS : Fld := ⟨265, 8, 0⟩
def F.MOV_CH_STAT_LOSTREC : Fld := ⟨266, 1, 0⟩
def F.MOV_CH_STAT_PC : Fld := ⟨267, 40, 0⟩
def F.MOV_CH_POS_I0 : Fld := ⟨268, 16, 0⟩
def F.MOV_CH_POS_I1 : Fld := ⟨269, 16, 0⟩
def F.MOV_CH_POS_I2 : Fld := ⟨270, 16, 0⟩
def F.MOV_CH_POS_BEAT : Fld := ⟨271, 16, 0⟩
def F.MOV_CH_OFF_OFFSET : Fld := ⟨272, 64, 0⟩
def F.MOV_CQ_BASE_ADDR : Fld := ⟨273, 59, 0⟩
def F.MOV_CQ_CTL_LOG2SIZE : Fld := ⟨274, 5, 4⟩
def F.MOV_CQ_CTL_HOST : Fld := ⟨275, 1, 0⟩
def F.MOV_CQ_CTL_VECTOR : Fld := ⟨276, 11, 0⟩
def F.MOV_CQ_PTR_PROD : Fld := ⟨277, 32, 0⟩
def F.MOV_CQ_PTR_CONS : Fld := ⟨278, 32, 0⟩
def F.MOV_EVT_COUNT : Fld := ⟨279, 32, 0⟩
def F.MOV_TMO_BEAT : Fld := ⟨280, 16, 10⟩
def F.MOV_STAT_STOPPED : Fld := ⟨281, 1, 0⟩
def F.MOV_STAT_FAULTED : Fld := ⟨282, 1, 0⟩
def F.MOV_STAT_CAUSE : Fld := ⟨283, 3, 0⟩
def F.MOV_STAT_BUSERRS : Fld := ⟨284, 32, 0⟩
def F.TRY_OWN_ROLE : Fld := ⟨285, 2, 0⟩
def F.TRY_OWN_SLOT : Fld := ⟨286, 1, 0⟩
def F.TRY_OWN_PEER_LIVE : Fld := ⟨287, 1, 0⟩
def F.TRY_OWN_QUALIFIED : Fld := ⟨288, 1, 0⟩
def F.TRY_OWN_CONTEST : Fld := ⟨289, 1, 0⟩
def F.TRY_OWN_PLAUS_OK : Fld := ⟨290, 1, 0⟩
def F.TRY_OWN_YIELD : Fld := ⟨291, 1, 0⟩
def F.TRY_OWN_CONTESTS : Fld := ⟨292, 16, 0⟩
def F.TRY_OWN_HANDOVERS : Fld := ⟨293, 16, 0⟩
def F.TRY_ADC_VALUE : Fld := ⟨294, 32, 0⟩
def F.TRY_ADC_CODE : Fld := ⟨295, 16, 0⟩
def F.TRY_ADC_IMPLAUS : Fld := ⟨296, 1, 0⟩
def F.TRY_ADC_STICKY : Fld := ⟨297, 1, 0⟩
def F.TRY_TACH_RPM : Fld := ⟨298, 16, 0⟩
def F.TRY_TACH_LOST : Fld := ⟨299, 1, 0⟩
def F.TRY_PWM_COMPUTED : Fld := ⟨300, 16, 0⟩
def F.TRY_PWM_APPLIED : Fld := ⟨301, 16, 0⟩
def F.TRY_PWM_FORCE_DUTY : Fld := ⟨302, 16, 0⟩
def F.TRY_PWM_FORCE : Fld := ⟨303, 1, 0⟩
def F.TRY_CAP_POWER_W : Fld := ⟨304, 12, 0⟩
def F.TRY_CAP_CAP_W : Fld := ⟨305, 12, 0⟩
def F.TRY_CAP_THR : Fld := ⟨306, 8, 0⟩
def F.TRY_CAP_HOST_CAP_W : Fld := ⟨307, 12, 0⟩
def F.TRY_CAP_SOURCE : Fld := ⟨308, 3, 0⟩
def F.TRY_ALERT_ALERT_W : Fld := ⟨309, 12, 1000⟩
def F.TRY_ALERT_ALERT_THR : Fld := ⟨310, 8, 128⟩
def F.TRY_ALERT_ALERT_LEVEL : Fld := ⟨311, 8, 128⟩
def F.TRY_ALERT_ASSERTED : Fld := ⟨312, 1, 0⟩
def F.TRY_ALERT_ACC_LEVEL : Fld := ⟨313, 8, 0⟩
def F.TRY_ALERT_ACC_GO : Fld := ⟨314, 1, 0⟩
def F.TRY_STAGE_PUMP : Fld := ⟨315, 2, 0⟩
def F.TRY_STAGE_EXPORT_DONE : Fld := ⟨316, 1, 0⟩
def F.TRY_STAGE_HOLD : Fld := ⟨317, 1, 0⟩
def F.TRY_STAGE_MGR_A : Fld := ⟨318, 1, 0⟩
def F.TRY_STAGE_MGR_B : Fld := ⟨319, 1, 0⟩
def F.TRY_INJ_CHANNEL : Fld := ⟨320, 4, 0⟩
def F.TRY_INJ_KIND : Fld := ⟨321, 3, 0⟩
def F.TRY_INJ_GO : Fld := ⟨322, 1, 0⟩
def F.HAT_YOF_RESETTING : Fld := ⟨323, 1, 0⟩
def F.HAT_YOF_RESETS : Fld := ⟨324, 16, 0⟩
def F.TRY_CART_STATE : Fld := ⟨325, 3, 0⟩
def F.TRY_CART_PRESENT : Fld := ⟨326, 1, 0⟩
def F.TRY_CART_CUFF : Fld := ⟨327, 1, 0⟩
def F.TRY_CART_TOUCH : Fld := ⟨328, 1, 0⟩
def F.TRY_CART_BTN : Fld := ⟨329, 1, 0⟩
def F.TRY_CART_REFUSED : Fld := ⟨330, 1, 0⟩
def F.TRY_CART_LAST_REASON : Fld := ⟨331, 3, 0⟩
def F.TRY_CART_DRAINS : Fld := ⟨332, 16, 0⟩
def F.TRY_CART_UNDRAINED : Fld := ⟨333, 16, 0⟩
def F.TRY_CART_CMD_CART : Fld := ⟨334, 3, 0⟩
def F.TRY_CART_CMD_OP : Fld := ⟨335, 2, 0⟩
def F.TRY_CART_CMD_GO : Fld := ⟨336, 1, 0⟩
def F.TRY_CART_CFG_ORDER_TMO : Fld := ⟨337, 16, 100⟩
def F.TRY_CART_CFG_CANCEL_S : Fld := ⟨338, 12, 30⟩
def F.TRY_CART_CFG_ATTN : Fld := ⟨339, 8, 0⟩
def F.TRY_CART_CFG_LOCATE : Fld := ⟨340, 1, 0⟩
def F.HAT_PSTATE_STATE : Fld := ⟨341, 3, 3⟩
def F.HAT_PSTATE_BUSY : Fld := ⟨342, 1, 0⟩
def F.HAT_PSTATE_PENDING : Fld := ⟨343, 1, 0⟩
def F.HAT_PSTATE_REFUSED : Fld := ⟨344, 1, 0⟩
def F.HAT_PSTATE_CAUSE : Fld := ⟨345, 3, 0⟩
def F.HAT_PCMD_TARGET : Fld := ⟨346, 2, 0⟩
def F.HAT_PCMD_GO : Fld := ⟨347, 1, 0⟩
def F.HAT_BOOT_STEP : Fld := ⟨348, 4, 1⟩
def F.HAT_BOOT_FAILED : Fld := ⟨349, 1, 0⟩
def F.HAT_BOOT_FAIL_STEP : Fld := ⟨350, 4, 0⟩
def F.HAT_BOOT_ELAPSED_MS : Fld := ⟨351, 32, 0⟩
def F.HAT_RESET_KIND : Fld := ⟨352, 2, 0⟩
def F.HAT_RESET_QUAD : Fld := ⟨353, 2, 0⟩
def F.HAT_RESET_PART : Fld := ⟨354, 5, 0⟩
def F.HAT_RESET_GO : Fld := ⟨355, 1, 0⟩
def F.HAT_RESET_BUSY : Fld := ⟨356, 1, 0⟩
def F.HAT_RESET_LAST : Fld := ⟨357, 3, 0⟩
def F.HAT_LOADTEST_RUN : Fld := ⟨358, 1, 0⟩
def F.HAT_LOADTEST_ACTIVE : Fld := ⟨359, 1, 0⟩
def F.HAT_LOADTEST_FAILED : Fld := ⟨360, 1, 0⟩
def F.HAT_LOADTEST_PHASE : Fld := ⟨361, 6, 0⟩
def F.HAT_CLK_REF_OK : Fld := ⟨362, 1, 0⟩
def F.HAT_CLK_TIME_FREE : Fld := ⟨363, 1, 0⟩
def F.HAT_CLK_OSC_CAL : Fld := ⟨364, 1, 0⟩
def F.HAT_CLK_TRIPS : Fld := ⟨365, 32, 0⟩
def F.HAT_GATE_GATED : Fld := ⟨366, 5, 0⟩
def F.HAT_GATE_WARM : Fld := ⟨367, 5, 0⟩
def F.HAT_GATE_BUSY : Fld := ⟨368, 1, 0⟩
def F.HAT_GATE_WAKES : Fld := ⟨369, 32, 0⟩
def F.SEC_LC_STATE : Fld := ⟨370, 2, 0⟩
def F.SEC_LC_ZEROIZED : Fld := ⟨371, 1, 0⟩
def F.SEC_LC_COUNT : Fld := ⟨372, 32, 0⟩
def F.SEC_OBJ_ADDR_ADDR : Fld := ⟨373, 52, 0⟩
def F.SEC_CMD_OP : Fld := ⟨374, 3, 0⟩
def F.SEC_CMD_GO : Fld := ⟨375, 1, 0⟩
def F.SEC_STATUS_BUSY : Fld := ⟨376, 1, 0⟩
def F.SEC_STATUS_RESULT : Fld := ⟨377, 8, 0⟩
def F.SEC_FLOOR_FW : Fld := ⟨378, 32, 0⟩
def F.SEC_FLOOR_KNIT : Fld := ⟨379, 32, 0⟩
def F.SEC_BOOT_EPOCH : Fld := ⟨380, 32, 0⟩
def F.SEC_BOOT_OWNER_GEN : Fld := ⟨381, 32, 0⟩
def F.SEC_KEY_KEY_GEN : Fld := ⟨382, 32, 0⟩
def F.SEC_KEY_VALID : Fld := ⟨383, 1, 0⟩
def F.SEC_KEY_EXHAUSTED : Fld := ⟨384, 4, 0⟩
def F.DBG_LEVEL_LEVEL : Fld := ⟨385, 2, 0⟩
def F.DBG_LEVEL_PART : Fld := ⟨386, 5, 0⟩
def F.DBG_LEVEL_WAKE : Fld := ⟨387, 1, 0⟩
def F.DBG_LEVEL_WRITE : Fld := ⟨388, 1, 0⟩
def F.DBG_LEVEL_IFACE : Fld := ⟨389, 1, 0⟩
def F.DBG_LEVEL_REMAIN_S : Fld := ⟨390, 32, 0⟩
def F.DBG_TOKEN_ADDR_ADDR : Fld := ⟨391, 58, 0⟩
def F.DBG_CMD_OP : Fld := ⟨392, 2, 0⟩
def F.DBG_CMD_GO : Fld := ⟨393, 1, 0⟩
def F.DBG_STATUS_BUSY : Fld := ⟨394, 1, 0⟩
def F.DBG_STATUS_RESULT : Fld := ⟨395, 8, 0⟩
def F.PCI_LINK_SPEED : Fld := ⟨396, 3, 0⟩
def F.PCI_LINK_WIDTH : Fld := ⟨397, 5, 0⟩
def F.PCI_LINK_FLIT : Fld := ⟨398, 1, 0⟩
def F.PCI_LINK_DOWNS : Fld := ⟨399, 16, 0⟩
def F.PCI_TMO_CPL_MS : Fld := ⟨400, 16, 10⟩
def F.PCI_APER_BASE : Fld := ⟨401, 4, 0⟩
def F.PCI_FN_STAT_BADACC : Fld := ⟨402, 1, 0⟩
def F.PCI_FN_STAT_BADBAR2 : Fld := ⟨403, 1, 0⟩
def F.PCI_FN_STAT_BADVEC : Fld := ⟨404, 1, 0⟩
def F.PCI_FN_STAT_HOSTFAIL : Fld := ⟨405, 1, 0⟩
def F.PCI_FN_STAT_FAILS : Fld := ⟨406, 32, 0⟩
def F.CTRM_SEL_EVENT : Fld := ⟨407, 8, 0⟩
def F.CTRM_SEL_PART : Fld := ⟨408, 5, 0⟩
def F.CTRM_SEL_PART_EN : Fld := ⟨409, 1, 0⟩
def F.CTRM_SEL_EN : Fld := ⟨410, 1, 0⟩
def F.CTR_SEL_EVENT : Fld := ⟨411, 8, 0⟩
def F.CTR_SEL_PART : Fld := ⟨412, 5, 0⟩
def F.CTR_SEL_PART_EN : Fld := ⟨413, 1, 0⟩
def F.CTR_SEL_EN : Fld := ⟨414, 1, 0⟩
def F.CTRM_VAL_COUNT : Fld := ⟨415, 48, 0⟩
def F.CTRM_VAL_OVF : Fld := ⟨416, 1, 0⟩
def F.CTR_VAL_COUNT : Fld := ⟨417, 48, 0⟩
def F.CTR_VAL_OVF : Fld := ⟨418, 1, 0⟩
def F.CTR_CLR_BANK : Fld := ⟨419, 9, 0⟩
def F.CTR_CLR_MASK : Fld := ⟨420, 8, 0⟩
def F.CTR_CLR_GO : Fld := ⟨421, 1, 0⟩
def F.CTR_TALLY_STAT_SNAPS : Fld := ⟨422, 32, 0⟩
def F.CTR_TALLY_STAT_SKIPPED : Fld := ⟨423, 16, 0⟩
def F.CTR_TALLY_STAT_LOST : Fld := ⟨424, 16, 0⟩
def F.CTR_PS_CTL_EN : Fld := ⟨425, 1, 0⟩
def F.CTR_PS_CTL_SOURCE : Fld := ⟨426, 3, 0⟩
def F.CTR_PS_CTL_MODE : Fld := ⟨427, 1, 0⟩
def F.CTR_PS_CTL_K : Fld := ⟨428, 5, 10⟩
def F.CTR_PS_CTL_PART : Fld := ⟨429, 5, 0⟩
def F.CTR_PS_CTL_PART_EN : Fld := ⟨430, 1, 1⟩
def F.CTR_PS_CTL_PORT : Fld := ⟨431, 6, 63⟩
def F.CTR_PS_STAT_HELD : Fld := ⟨432, 13, 0⟩
def F.CTR_PS_STAT_WRAPPED : Fld := ⟨433, 1, 0⟩
def F.ERR_CTL_CE_LIMIT : Fld := ⟨434, 16, 100⟩
def F.ERR_INJ_DET : Fld := ⟨435, 8, 0⟩
def F.ERR_INJ_QUAD : Fld := ⟨436, 3, 0⟩
def F.ERR_INJ_PART : Fld := ⟨437, 5, 0⟩
def F.ERR_INJ_RECORD_ONLY : Fld := ⟨438, 1, 0⟩
def F.ERR_INJ_GO : Fld := ⟨439, 1, 0⟩
def F.ERR_INJ_TARGET : Fld := ⟨440, 32, 0⟩
def F.ERR_INJ_STAT_ARMED : Fld := ⟨441, 1, 0⟩
def F.ERR_INJ_STAT_REFUSED : Fld := ⟨442, 1, 0⟩
def F.ERR_INJ_STAT_FIRED : Fld := ⟨443, 1, 0⟩
def F.GLB_ID_PART : Fld := ⟨444, 32, 844781139⟩
def F.GLB_ID_REV : Fld := ⟨445, 4, 2⟩
def F.GLB_DEVICE_DEVICE : Fld := ⟨446, 64, 0⟩
def F.GLB_FN_FN : Fld := ⟨447, 5, 0⟩
def F.GLB_FN_PART : Fld := ⟨448, 5, 0⟩
def F.GLB_FN_VALID : Fld := ⟨449, 1, 0⟩
def F.GLB_STATUS_STEP : Fld := ⟨450, 4, 0⟩
def F.GLB_STATUS_PSTATE : Fld := ⟨451, 3, 0⟩
def F.GLB_STATUS_LC : Fld := ⟨452, 2, 0⟩
def F.GLB_STATUS_DEBUG : Fld := ⟨453, 2, 0⟩
def F.GLB_STATUS_QUAD_UP : Fld := ⟨454, 4, 0⟩
def F.GLB_STATUS_HOLD : Fld := ⟨455, 1, 0⟩
def F.GLB_STATUS_OWNER : Fld := ⟨456, 1, 0⟩
def F.GLB_SUMMARY_CORRECTED : Fld := ⟨457, 1, 0⟩
def F.GLB_SUMMARY_CONTAINED : Fld := ⟨458, 1, 0⟩
def F.GLB_SUMMARY_MODULE : Fld := ⟨459, 1, 0⟩
def F.GLB_SUMMARY_FATAL : Fld := ⟨460, 1, 0⟩
def F.GLB_TIME_NS : Fld := ⟨461, 64, 0⟩
def F.GLB_SCRATCH_VALUE : Fld := ⟨462, 64, 0⟩
def F.YOF_FW_SVN : Fld := ⟨463, 32, 0⟩
def F.YOF_FW_BUILD : Fld := ⟨464, 32, 0⟩
def F.YOF_STAT_STATE : Fld := ⟨465, 2, 0⟩
def F.YOF_STAT_UPTIME_S : Fld := ⟨466, 32, 0⟩
def F.CTR_TALLY_BASE_ADDR : Fld := ⟨467, 59, 0⟩
def F.CTR_TALLY_CTL_LOG2SIZE : Fld := ⟨468, 5, 4⟩
def F.CTR_TALLY_CTL_EN : Fld := ⟨469, 1, 0⟩
def F.CTR_TALLY_CTL_HOST : Fld := ⟨470, 1, 0⟩
def F.CTR_TALLY_CTL_VECTOR : Fld := ⟨471, 11, 0⟩
def F.CTR_TALLY_PTR_PROD : Fld := ⟨472, 32, 0⟩
def F.CTR_TALLY_PTR_CONS : Fld := ⟨473, 32, 0⟩
def F.CTR_LEG_CYCLE_COUNT : Fld := ⟨474, 64, 0⟩
def F.CTR_LEG_SEL_EVENT : Fld := ⟨475, 8, 0⟩
def F.CTR_LEG_VAL_COUNT : Fld := ⟨476, 48, 0⟩
def F.CTR_LEG_VAL_OVF : Fld := ⟨477, 1, 0⟩
def F.CTR_PS_READ_INDEX : Fld := ⟨478, 12, 0⟩
def F.CTR_PS_DATA_DATA : Fld := ⟨479, 64, 0⟩
def F.ERR_INJ_CTL_EN : Fld := ⟨480, 1, 0⟩
def F.ERR_READ_INDEX : Fld := ⟨481, 8, 0⟩
def F.ERR_READ_SRC : Fld := ⟨482, 1, 0⟩
def F.ERR_READ_DATA_DATA : Fld := ⟨483, 64, 0⟩
def F.ERR_DET_COUNT : Fld := ⟨484, 48, 0⟩
def F.ERR_DET_OVF : Fld := ⟨485, 1, 0⟩
def F.ERR_RING_BASE_ADDR : Fld := ⟨486, 59, 0⟩
def F.ERR_RING_CTL_LOG2SIZE : Fld := ⟨487, 5, 4⟩
def F.ERR_RING_CTL_EN : Fld := ⟨488, 1, 0⟩
def F.ERR_RING_CTL_HOST : Fld := ⟨489, 1, 0⟩
def F.ERR_RING_CTL_VECTOR : Fld := ⟨490, 11, 0⟩
def F.ERR_RING_PTR_PROD : Fld := ⟨491, 32, 0⟩
def F.ERR_RING_PTR_CONS : Fld := ⟨492, 32, 0⟩
def F.ERR_RING_LOST_COUNT : Fld := ⟨493, 48, 0⟩
def F.ERR_RING_LOST_OVF : Fld := ⟨494, 1, 0⟩
def F.DBG_CHAL_CHAL : Fld := ⟨495, 64, 0⟩
def F.DBG_WIN_CTL_SPACE : Fld := ⟨496, 3, 0⟩
def F.DBG_WIN_CTL_QUAD : Fld := ⟨497, 2, 0⟩
def F.DBG_WIN_CTL_PART : Fld := ⟨498, 5, 0⟩
def F.DBG_WIN_CTL_BASE : Fld := ⟨499, 40, 0⟩

/-- The registers of the module-wide block GLB_ (slot 0). -/
def regsModuleGLB : List RegRow :=
  [⟨0x0, [], .all, .all, [⟨0, F.GLB_ID_PART, .ro, none⟩,
      ⟨32, F.GLB_ID_REV, .ro, none⟩]⟩,
   ⟨0x8, [(4, 0x8)], .all, .all, [⟨0, F.GLB_DEVICE_DEVICE, .ro, none⟩]⟩,
   ⟨0x28, [], .all, .all, [⟨0, F.GLB_FN_FN, .ro, none⟩,
      ⟨5, F.GLB_FN_PART, .ro, none⟩,
      ⟨10, F.GLB_FN_VALID, .ro, none⟩]⟩,
   ⟨0x30, [], .all, .all, [⟨0, F.GLB_STATUS_STEP, .ro, none⟩,
      ⟨4, F.GLB_STATUS_PSTATE, .ro, none⟩,
      ⟨7, F.GLB_STATUS_LC, .ro, none⟩,
      ⟨9, F.GLB_STATUS_DEBUG, .ro, none⟩,
      ⟨11, F.GLB_STATUS_QUAD_UP, .ro, none⟩,
      ⟨15, F.GLB_STATUS_HOLD, .ro, none⟩,
      ⟨16, F.GLB_STATUS_OWNER, .ro, none⟩]⟩,
   ⟨0x38, [], .fn, .fn, [⟨0, F.GLB_SUMMARY_CORRECTED, .w1c, none⟩,
      ⟨1, F.GLB_SUMMARY_CONTAINED, .w1c, none⟩,
      ⟨2, F.GLB_SUMMARY_MODULE, .w1c, none⟩,
      ⟨3, F.GLB_SUMMARY_FATAL, .w1c, none⟩]⟩,
   ⟨0x40, [], .all, .all, [⟨0, F.GLB_TIME_NS, .ro, none⟩]⟩,
   ⟨0x48, [], .fn, .fn, [⟨0, F.GLB_SCRATCH_VALUE, .rw, none⟩]⟩]

/-- The registers of the module-wide block KNT_ (slot 1). -/
def regsModuleKNT : List RegRow :=
  [⟨0x0, [], .fn, .fn, [⟨12, F.KNT_LOAD_ADDR_ADDR, .rw, none⟩]⟩,
   ⟨0x8, [], .fn, .fn, [⟨0, F.KNT_LOAD_LEN_LEN, .rw, none⟩]⟩,
   ⟨0x10, [], .fn, .fn, [⟨0, F.KNT_CMD_OP, .wo, none⟩]⟩,
   ⟨0x18, [], .fn, .fn, [⟨0, F.KNT_STATUS_STATE, .ro, none⟩,
      ⟨3, F.KNT_STATUS_RESYNC, .ro, none⟩,
      ⟨4, F.KNT_STATUS_REFUSED, .w1c, none⟩,
      ⟨16, F.KNT_STATUS_LAST_GROUP, .ro, none⟩,
      ⟨32, F.KNT_STATUS_FAIL_GROUP, .ro, none⟩,
      ⟨48, F.KNT_STATUS_FAIL_CODE, .ro, none⟩]⟩,
   ⟨0x20, [], .fn, .fn, [⟨0, F.KNT_FAIL_FRAME_FRAME, .ro, none⟩]⟩,
   ⟨0x28, [], .none, .all, [⟨0, F.KNT_TIMEOUTS_QUIET_TMO, .rw, none⟩,
      ⟨16, F.KNT_TIMEOUTS_DRAIN_TMO, .rw, none⟩]⟩,
   ⟨0x100, [(32, 0x8)], .part, .all, [⟨0, F.KNT_PART_STATE_SERIAL, .ro, none⟩,
      ⟨32, F.KNT_PART_STATE_GROUP, .ro, none⟩,
      ⟨48, F.KNT_PART_STATE_PARTIAL, .ro, none⟩]⟩]

/-- The registers of the module-wide block BRM_ (slot 2). -/
def regsModuleBRM : List RegRow :=
  []

/-- The registers of the module-wide block XPT_ (slot 3). -/
def regsModuleXPT : List RegRow :=
  [⟨0x0, [], .none, .all, [⟨0, F.XPT_CTL_AGE_LIMIT, .rwk, none⟩,
      ⟨16, F.XPT_CTL_DEFER_RETRY, .rw, none⟩,
      ⟨24, F.XPT_CTL_CMARK_EN, .rw, none⟩]⟩,
   ⟨0x8, [], .none, .all, [⟨0, F.XPT_RESEND_FIRST, .rw, some (10, 1000)⟩,
      ⟨10, F.XPT_RESEND_TRIES, .rw, none⟩]⟩,
   ⟨0x10, [], .none, .all, [⟨0, F.XPT_CMARK_THR_Q, .rw, none⟩,
      ⟨8, F.XPT_CMARK_THR_P, .rw, none⟩,
      ⟨16, F.XPT_CMARK_THR_U, .rw, none⟩,
      ⟨24, F.XPT_CMARK_THR_D, .rw, none⟩]⟩,
   ⟨0x18, [], .none, .all, [⟨0, F.XPT_INJ_THR_ON, .rw, none⟩,
      ⟨32, F.XPT_INJ_THR_OFF, .rw, none⟩]⟩,
   ⟨0x20, [], .none, .all, [⟨0, F.XPT_POD_X, .rwk, none⟩,
      ⟨3, F.XPT_POD_Y, .rwk, none⟩,
      ⟨8, F.XPT_POD_PLANE, .rwk, none⟩]⟩,
   ⟨0x100, [(32, 0x8)], .part, .all, [⟨0, F.XPT_EPOCH_STAMP, .ro, none⟩,
      ⟨1, F.XPT_EPOCH_STATE, .ro, none⟩,
      ⟨3, F.XPT_EPOCH_VALID_A, .ro, none⟩,
      ⟨4, F.XPT_EPOCH_VALID_B, .ro, none⟩,
      ⟨8, F.XPT_EPOCH_INFLIGHT_A, .ro, none⟩,
      ⟨28, F.XPT_EPOCH_INFLIGHT_B, .ro, none⟩,
      ⟨48, F.XPT_EPOCH_FLIPS, .ro, none⟩]⟩,
   ⟨0x200, [(12, 0x8)], .none, .all, [⟨0, F.XPT_DISC_COUNT, .ro, none⟩,
      ⟨48, F.XPT_DISC_OVF, .w1c, none⟩]⟩]

/-- The registers of the module-wide block LDG_ (slot 4). -/
def regsModuleLDG : List RegRow :=
  [⟨0x0, [(32, 0x8)], .part, .all, [⟨0, F.LDG_PART_CTL_OVF_POLICY, .rwk, none⟩,
      ⟨1, F.LDG_PART_CTL_INV_POLICY, .rwk, none⟩,
      ⟨2, F.LDG_PART_CTL_SR_EN, .rwk, none⟩]⟩,
   ⟨0x100, [(32, 0x8)], .part, .all, [⟨0, F.LDG_STEP_STEP_TAG, .ro, none⟩,
      ⟨32, F.LDG_STEP_OVF, .ro, none⟩,
      ⟨33, F.LDG_STEP_INV, .ro, none⟩,
      ⟨34, F.LDG_STEP_SKIPPED, .ro, none⟩,
      ⟨35, F.LDG_STEP_VALID, .ro, none⟩]⟩,
   ⟨0x200, [(32, 0x8)], .part, .all, [⟨0, F.LDG_FIRST_COLL_ID, .ro, none⟩,
      ⟨16, F.LDG_FIRST_CHUNK, .ro, none⟩,
      ⟨40, F.LDG_FIRST_KIND, .ro, none⟩]⟩,
   ⟨0x300, [], .none, .all, [⟨0, F.LDG_KTEST_SEED_SEED, .rw, none⟩]⟩,
   ⟨0x308, [], .none, .all, [⟨0, F.LDG_KTEST_IN_STEP, .rw, none⟩,
      ⟨32, F.LDG_KTEST_IN_COLL, .rw, none⟩]⟩,
   ⟨0x310, [], .none, .all, [⟨0, F.LDG_KTEST_POS_CHUNK, .rw, none⟩,
      ⟨24, F.LDG_KTEST_POS_ELEM, .rw, none⟩]⟩,
   ⟨0x318, [], .none, .all, [⟨0, F.LDG_KTEST_OUT_NOISE, .ro, none⟩]⟩]

/-- The registers of the module-wide block YOF_ (slot 5). -/
def regsModuleYOF : List RegRow :=
  [⟨0x0, [], .none, .all, [⟨0, F.YOF_FW_SVN, .ro, none⟩,
      ⟨32, F.YOF_FW_BUILD, .ro, none⟩]⟩,
   ⟨0x8, [], .none, .all, [⟨0, F.YOF_STAT_STATE, .ro, none⟩,
      ⟨32, F.YOF_STAT_UPTIME_S, .ro, none⟩]⟩]

/-- The registers of the module-wide block HAT_ (slot 6). -/
def regsModuleHAT : List RegRow :=
  [⟨0x0, [], .none, .all, [⟨0, F.HAT_YOF_RESETTING, .ro, none⟩,
      ⟨16, F.HAT_YOF_RESETS, .ro, none⟩]⟩,
   ⟨0x8, [], .none, .all, [⟨0, F.HAT_PSTATE_STATE, .ro, none⟩,
      ⟨3, F.HAT_PSTATE_BUSY, .ro, none⟩,
      ⟨4, F.HAT_PSTATE_PENDING, .ro, none⟩,
      ⟨5, F.HAT_PSTATE_REFUSED, .w1c, none⟩,
      ⟨6, F.HAT_PSTATE_CAUSE, .ro, none⟩]⟩,
   ⟨0x10, [], .none, .all, [⟨0, F.HAT_PCMD_TARGET, .wo, none⟩,
      ⟨2, F.HAT_PCMD_GO, .wo, none⟩]⟩,
   ⟨0x18, [], .none, .all, [⟨0, F.HAT_BOOT_STEP, .ro, none⟩,
      ⟨4, F.HAT_BOOT_FAILED, .ro, none⟩,
      ⟨5, F.HAT_BOOT_FAIL_STEP, .ro, none⟩,
      ⟨16, F.HAT_BOOT_ELAPSED_MS, .ro, none⟩]⟩,
   ⟨0x20, [], .none, .all, [⟨0, F.HAT_RESET_KIND, .wo, none⟩,
      ⟨2, F.HAT_RESET_QUAD, .wo, none⟩,
      ⟨4, F.HAT_RESET_PART, .wo, none⟩,
      ⟨9, F.HAT_RESET_GO, .wo, none⟩,
      ⟨10, F.HAT_RESET_BUSY, .ro, none⟩,
      ⟨11, F.HAT_RESET_LAST, .ro, none⟩]⟩,
   ⟨0x28, [], .none, .all, [⟨0, F.HAT_LOADTEST_RUN, .wo, none⟩,
      ⟨1, F.HAT_LOADTEST_ACTIVE, .ro, none⟩,
      ⟨2, F.HAT_LOADTEST_FAILED, .ro, none⟩,
      ⟨3, F.HAT_LOADTEST_PHASE, .ro, none⟩]⟩,
   ⟨0x30, [], .none, .all, [⟨0, F.HAT_CLK_REF_OK, .ro, none⟩,
      ⟨1, F.HAT_CLK_TIME_FREE, .w1c, none⟩,
      ⟨2, F.HAT_CLK_OSC_CAL, .ro, none⟩,
      ⟨16, F.HAT_CLK_TRIPS, .ro, none⟩]⟩,
   ⟨0x80, [(4, 0x8)], .none, .all, [⟨0, F.HAT_GATE_GATED, .ro, none⟩,
      ⟨5, F.HAT_GATE_WARM, .ro, none⟩,
      ⟨10, F.HAT_GATE_BUSY, .ro, none⟩,
      ⟨32, F.HAT_GATE_WAKES, .ro, none⟩]⟩]

/-- The registers of the module-wide block TRY_ (slot 7). -/
def regsModuleTRY : List RegRow :=
  [⟨0x0, [], .none, .all, [⟨0, F.TRY_OWN_ROLE, .ro, none⟩,
      ⟨2, F.TRY_OWN_SLOT, .ro, none⟩,
      ⟨3, F.TRY_OWN_PEER_LIVE, .ro, none⟩,
      ⟨4, F.TRY_OWN_QUALIFIED, .ro, none⟩,
      ⟨5, F.TRY_OWN_CONTEST, .ro, none⟩,
      ⟨6, F.TRY_OWN_PLAUS_OK, .ro, none⟩,
      ⟨7, F.TRY_OWN_YIELD, .wo, none⟩,
      ⟨32, F.TRY_OWN_CONTESTS, .ro, none⟩,
      ⟨48, F.TRY_OWN_HANDOVERS, .ro, none⟩]⟩,
   ⟨0x100, [(16, 0x8)], .none, .all, [⟨0, F.TRY_ADC_VALUE, .ro, none⟩,
      ⟨32, F.TRY_ADC_CODE, .ro, none⟩,
      ⟨48, F.TRY_ADC_IMPLAUS, .ro, none⟩,
      ⟨49, F.TRY_ADC_STICKY, .w1c, none⟩]⟩,
   ⟨0x200, [(8, 0x8)], .none, .all, [⟨0, F.TRY_TACH_RPM, .ro, none⟩,
      ⟨16, F.TRY_TACH_LOST, .ro, none⟩]⟩,
   ⟨0x280, [(8, 0x8)], .none, .all, [⟨0, F.TRY_PWM_COMPUTED, .ro, none⟩,
      ⟨16, F.TRY_PWM_APPLIED, .ro, none⟩,
      ⟨32, F.TRY_PWM_FORCE_DUTY, .rw, none⟩,
      ⟨48, F.TRY_PWM_FORCE, .rw, none⟩]⟩,
   ⟨0x300, [], .none, .all, [⟨0, F.TRY_CAP_POWER_W, .ro, none⟩,
      ⟨12, F.TRY_CAP_CAP_W, .ro, none⟩,
      ⟨24, F.TRY_CAP_THR, .ro, none⟩,
      ⟨32, F.TRY_CAP_HOST_CAP_W, .rw, none⟩,
      ⟨44, F.TRY_CAP_SOURCE, .ro, none⟩]⟩,
   ⟨0x308, [], .none, .all, [⟨0, F.TRY_ALERT_ALERT_W, .rwk, none⟩,
      ⟨12, F.TRY_ALERT_ALERT_THR, .rwk, none⟩,
      ⟨20, F.TRY_ALERT_ALERT_LEVEL, .rwk, none⟩,
      ⟨28, F.TRY_ALERT_ASSERTED, .ro, none⟩,
      ⟨29, F.TRY_ALERT_ACC_LEVEL, .rw, none⟩,
      ⟨37, F.TRY_ALERT_ACC_GO, .wo, none⟩]⟩,
   ⟨0x310, [], .none, .all, [⟨0, F.TRY_STAGE_PUMP, .ro, none⟩,
      ⟨2, F.TRY_STAGE_EXPORT_DONE, .ro, none⟩,
      ⟨3, F.TRY_STAGE_HOLD, .ro, none⟩,
      ⟨4, F.TRY_STAGE_MGR_A, .ro, none⟩,
      ⟨5, F.TRY_STAGE_MGR_B, .ro, none⟩]⟩,
   ⟨0x318, [], .none, .all, [⟨0, F.TRY_INJ_CHANNEL, .rw, none⟩,
      ⟨4, F.TRY_INJ_KIND, .rw, none⟩,
      ⟨7, F.TRY_INJ_GO, .wo, none⟩]⟩,
   ⟨0x400, [(8, 0x8)], .none, .all, [⟨0, F.TRY_CART_STATE, .ro, none⟩,
      ⟨3, F.TRY_CART_PRESENT, .ro, none⟩,
      ⟨4, F.TRY_CART_CUFF, .ro, none⟩,
      ⟨5, F.TRY_CART_TOUCH, .ro, none⟩,
      ⟨6, F.TRY_CART_BTN, .ro, none⟩,
      ⟨7, F.TRY_CART_REFUSED, .w1c, none⟩,
      ⟨8, F.TRY_CART_LAST_REASON, .ro, none⟩,
      ⟨16, F.TRY_CART_DRAINS, .ro, none⟩,
      ⟨32, F.TRY_CART_UNDRAINED, .ro, none⟩]⟩,
   ⟨0x440, [], .none, .all, [⟨0, F.TRY_CART_CMD_CART, .wo, none⟩,
      ⟨3, F.TRY_CART_CMD_OP, .wo, none⟩,
      ⟨5, F.TRY_CART_CMD_GO, .wo, none⟩]⟩,
   ⟨0x448, [], .none, .all, [⟨0, F.TRY_CART_CFG_ORDER_TMO, .rw, some (1, 65535)⟩,
      ⟨16, F.TRY_CART_CFG_CANCEL_S, .rw, some (1, 4095)⟩,
      ⟨28, F.TRY_CART_CFG_ATTN, .rw, none⟩,
      ⟨36, F.TRY_CART_CFG_LOCATE, .rw, none⟩]⟩]

/-- The registers of the module-wide block SEC_ (slot 8). -/
def regsModuleSEC : List RegRow :=
  [⟨0x0, [], .none, .all, [⟨0, F.SEC_LC_STATE, .ro, none⟩,
      ⟨2, F.SEC_LC_ZEROIZED, .ro, none⟩,
      ⟨8, F.SEC_LC_COUNT, .ro, none⟩]⟩,
   ⟨0x8, [], .none, .all, [⟨12, F.SEC_OBJ_ADDR_ADDR, .rw, none⟩]⟩,
   ⟨0x10, [], .none, .all, [⟨0, F.SEC_CMD_OP, .wo, none⟩,
      ⟨3, F.SEC_CMD_GO, .wo, none⟩]⟩,
   ⟨0x18, [], .none, .all, [⟨0, F.SEC_STATUS_BUSY, .ro, none⟩,
      ⟨8, F.SEC_STATUS_RESULT, .ro, none⟩]⟩,
   ⟨0x20, [], .none, .all, [⟨0, F.SEC_FLOOR_FW, .ro, none⟩,
      ⟨32, F.SEC_FLOOR_KNIT, .ro, none⟩]⟩,
   ⟨0x28, [], .all, .all, [⟨0, F.SEC_BOOT_EPOCH, .ro, none⟩,
      ⟨32, F.SEC_BOOT_OWNER_GEN, .ro, none⟩]⟩,
   ⟨0x100, [(32, 0x8)], .part, .all, [⟨0, F.SEC_KEY_KEY_GEN, .ro, none⟩,
      ⟨32, F.SEC_KEY_VALID, .ro, none⟩,
      ⟨33, F.SEC_KEY_EXHAUSTED, .ro, none⟩]⟩]

/-- The registers of the module-wide block DBG_ (slot 9). -/
def regsModuleDBG : List RegRow :=
  [⟨0x0, [], .none, .all, [⟨0, F.DBG_LEVEL_LEVEL, .ro, none⟩,
      ⟨2, F.DBG_LEVEL_PART, .ro, none⟩,
      ⟨7, F.DBG_LEVEL_WAKE, .ro, none⟩,
      ⟨8, F.DBG_LEVEL_WRITE, .ro, none⟩,
      ⟨9, F.DBG_LEVEL_IFACE, .ro, none⟩,
      ⟨32, F.DBG_LEVEL_REMAIN_S, .ro, none⟩]⟩,
   ⟨0x18, [], .none, .all, [⟨6, F.DBG_TOKEN_ADDR_ADDR, .rw, none⟩]⟩,
   ⟨0x20, [], .none, .all, [⟨0, F.DBG_CMD_OP, .wo, none⟩,
      ⟨2, F.DBG_CMD_GO, .wo, none⟩]⟩,
   ⟨0x28, [], .none, .all, [⟨0, F.DBG_STATUS_BUSY, .ro, none⟩,
      ⟨8, F.DBG_STATUS_RESULT, .ro, none⟩]⟩,
   ⟨0x8, [(2, 0x8)], .none, .all, [⟨0, F.DBG_CHAL_CHAL, .ro, none⟩]⟩,
   ⟨0x40, [], .none, .all, [⟨0, F.DBG_WIN_CTL_SPACE, .rw, none⟩,
      ⟨3, F.DBG_WIN_CTL_QUAD, .rw, none⟩,
      ⟨5, F.DBG_WIN_CTL_PART, .rw, none⟩,
      ⟨24, F.DBG_WIN_CTL_BASE, .rw, none⟩]⟩]

/-- The registers of the module-wide block PCI_ (slot 10). -/
def regsModulePCI : List RegRow :=
  [⟨0x0, [], .none, .all, [⟨0, F.PCI_LINK_SPEED, .ro, none⟩,
      ⟨3, F.PCI_LINK_WIDTH, .ro, none⟩,
      ⟨8, F.PCI_LINK_FLIT, .ro, none⟩,
      ⟨16, F.PCI_LINK_DOWNS, .ro, none⟩]⟩,
   ⟨0x8, [], .none, .all, [⟨0, F.PCI_TMO_CPL_MS, .rw, some (1, 65535)⟩]⟩,
   ⟨0x100, [(32, 0x8)], .part, .all, [⟨36, F.PCI_APER_BASE, .rw, none⟩]⟩,
   ⟨0x200, [(32, 0x8)], .part, .all, [⟨0, F.PCI_FN_STAT_BADACC, .w1c, none⟩,
      ⟨1, F.PCI_FN_STAT_BADBAR2, .w1c, none⟩,
      ⟨2, F.PCI_FN_STAT_BADVEC, .w1c, none⟩,
      ⟨3, F.PCI_FN_STAT_HOSTFAIL, .w1c, none⟩,
      ⟨16, F.PCI_FN_STAT_FAILS, .ro, none⟩]⟩]

/-- The registers of the module-wide block CTR_ (slot 11). -/
def regsModuleCTR : List RegRow :=
  [⟨0x0, [(8, 0x80), (8, 0x8)], .counter, .all, [⟨0, F.CTRM_SEL_EVENT, .rw, none⟩,
      ⟨8, F.CTRM_SEL_PART, .rw, none⟩,
      ⟨13, F.CTRM_SEL_PART_EN, .rw, none⟩,
      ⟨14, F.CTRM_SEL_EN, .rw, none⟩]⟩,
   ⟨0x40, [(8, 0x80), (8, 0x8)], .counter, .all, [⟨0, F.CTRM_VAL_COUNT, .ro, none⟩,
      ⟨48, F.CTRM_VAL_OVF, .w1c, none⟩]⟩,
   ⟨0x1000, [], .none, .all, [⟨0, F.CTR_CLR_BANK, .wo, none⟩,
      ⟨9, F.CTR_CLR_MASK, .wo, none⟩,
      ⟨17, F.CTR_CLR_GO, .wo, none⟩]⟩,
   ⟨0x2018, [(32, 0x20)], .part, .all, [⟨0, F.CTR_TALLY_STAT_SNAPS, .ro, none⟩,
      ⟨32, F.CTR_TALLY_STAT_SKIPPED, .ro, none⟩,
      ⟨48, F.CTR_TALLY_STAT_LOST, .ro, none⟩]⟩,
   ⟨0x2000, [(32, 0x20)], .part, .all, [⟨5, F.CTR_TALLY_BASE_ADDR, .rw, none⟩]⟩,
   ⟨0x2008, [(32, 0x20)], .part, .all, [⟨0, F.CTR_TALLY_CTL_LOG2SIZE, .rw, some (4, 16)⟩,
      ⟨5, F.CTR_TALLY_CTL_EN, .rw, none⟩,
      ⟨6, F.CTR_TALLY_CTL_HOST, .rw, none⟩,
      ⟨7, F.CTR_TALLY_CTL_VECTOR, .rw, none⟩]⟩,
   ⟨0x2010, [(32, 0x20)], .part, .all, [⟨0, F.CTR_TALLY_PTR_PROD, .ro, none⟩,
      ⟨32, F.CTR_TALLY_PTR_CONS, .rw, none⟩]⟩,
   ⟨0xF000, [], .none, .all, [⟨0, F.CTR_LEG_CYCLE_COUNT, .ro, none⟩]⟩,
   ⟨0xF040, [(8, 0x8)], .none, .all, [⟨0, F.CTR_LEG_SEL_EVENT, .rw, none⟩]⟩,
   ⟨0xF080, [(8, 0x8)], .none, .all, [⟨0, F.CTR_LEG_VAL_COUNT, .ro, none⟩,
      ⟨48, F.CTR_LEG_VAL_OVF, .w1c, none⟩]⟩]

/-- The registers of the module-wide block ERR_ (slot 12). -/
def regsModuleERR : List RegRow :=
  [⟨0x0, [], .none, .all, [⟨0, F.ERR_CTL_CE_LIMIT, .rw, none⟩]⟩,
   ⟨0x10, [], .none, .all, [⟨0, F.ERR_INJ_DET, .rw, none⟩,
      ⟨8, F.ERR_INJ_QUAD, .rw, none⟩,
      ⟨11, F.ERR_INJ_PART, .rw, none⟩,
      ⟨16, F.ERR_INJ_RECORD_ONLY, .rw, none⟩,
      ⟨17, F.ERR_INJ_GO, .wo, none⟩,
      ⟨32, F.ERR_INJ_TARGET, .rw, none⟩]⟩,
   ⟨0x18, [], .none, .all, [⟨0, F.ERR_INJ_STAT_ARMED, .ro, none⟩,
      ⟨1, F.ERR_INJ_STAT_REFUSED, .w1c, none⟩,
      ⟨2, F.ERR_INJ_STAT_FIRED, .w1c, none⟩]⟩,
   ⟨0x8, [], .none, .all, [⟨0, F.ERR_INJ_CTL_EN, .rw, none⟩]⟩,
   ⟨0x20, [], .none, .all, [⟨0, F.ERR_READ_INDEX, .rw, none⟩,
      ⟨8, F.ERR_READ_SRC, .rw, none⟩]⟩,
   ⟨0x40, [(8, 0x8)], .none, .all, [⟨0, F.ERR_READ_DATA_DATA, .ro, none⟩]⟩,
   ⟨0x100, [(64, 0x8)], .none, .all, [⟨0, F.ERR_DET_COUNT, .ro, none⟩,
      ⟨48, F.ERR_DET_OVF, .w1c, none⟩]⟩,
   ⟨0x800, [(32, 0x20)], .part, .all, [⟨5, F.ERR_RING_BASE_ADDR, .rw, none⟩]⟩,
   ⟨0x808, [(32, 0x20)], .part, .all, [⟨0, F.ERR_RING_CTL_LOG2SIZE, .rw, some (4, 16)⟩,
      ⟨5, F.ERR_RING_CTL_EN, .rw, none⟩,
      ⟨6, F.ERR_RING_CTL_HOST, .rw, none⟩,
      ⟨7, F.ERR_RING_CTL_VECTOR, .rw, none⟩]⟩,
   ⟨0x810, [(32, 0x20)], .part, .all, [⟨0, F.ERR_RING_PTR_PROD, .ro, none⟩,
      ⟨32, F.ERR_RING_PTR_CONS, .rw, none⟩]⟩,
   ⟨0x818, [(32, 0x20)], .part, .all, [⟨0, F.ERR_RING_LOST_COUNT, .ro, none⟩,
      ⟨48, F.ERR_RING_LOST_OVF, .w1c, none⟩]⟩]

/-- The rows of the block in a module-wide slot (R565). -/
def regsModule (slot : Nat) : List RegRow :=
  match slot with
  | 0 => regsModuleGLB
  | 1 => regsModuleKNT
  | 2 => regsModuleBRM
  | 3 => regsModuleXPT
  | 4 => regsModuleLDG
  | 5 => regsModuleYOF
  | 6 => regsModuleHAT
  | 7 => regsModuleTRY
  | 8 => regsModuleSEC
  | 9 => regsModuleDBG
  | 10 => regsModulePCI
  | 11 => regsModuleCTR
  | 12 => regsModuleERR
  | _ => []

/-- The registers of the quadrant block COR_ (slot 0). -/
def regsQuadrantCOR : List RegRow :=
  [⟨0x0, [], .none, .all, [⟨0, F.COR_BUF_FREE, .ro, none⟩,
      ⟨18, F.COR_BUF_LOW, .ro, none⟩,
      ⟨36, F.COR_BUF_LOW_CLR, .wo, none⟩]⟩,
   ⟨0x100, [(48, 0x8)], .none, .all, [⟨0, F.COR_PORT_OPEN, .ro, none⟩,
      ⟨1, F.COR_PORT_FLUSHING, .ro, none⟩,
      ⟨16, F.COR_PORT_FLUSHED, .ro, none⟩]⟩,
   ⟨0x1000, [(48, 0x40), (6, 0x8)], .none, .all, [⟨0, F.COR_QDEPTH_CELLS, .ro, none⟩,
      ⟨18, F.COR_QDEPTH_PEAK, .ro, none⟩,
      ⟨36, F.COR_QDEPTH_PEAK_CLR, .wo, none⟩]⟩,
   ⟨0x2000, [(32, 0x8)], .part, .all, [⟨0, F.COR_UQUOTA_USE_CELLS, .ro, none⟩,
      ⟨18, F.COR_UQUOTA_USE_AT_QUOTA, .ro, none⟩]⟩,
   ⟨0x3000, [(4, 0x20)], .none, .all, [⟨0, F.COR_MIR_CTL_EN, .rw, none⟩,
      ⟨1, F.COR_MIR_CTL_PORT, .rw, some (0, 47)⟩,
      ⟨7, F.COR_MIR_CTL_DIR, .rw, none⟩,
      ⟨8, F.COR_MIR_CTL_CLASSES, .rw, none⟩,
      ⟨14, F.COR_MIR_CTL_K, .rw, none⟩,
      ⟨19, F.COR_MIR_CTL_DEST, .rw, none⟩,
      ⟨21, F.COR_MIR_CTL_PART, .rw, none⟩,
      ⟨26, F.COR_MIR_CTL_RANK, .rw, none⟩,
      ⟨38, F.COR_MIR_CTL_LOG2SIZE, .rw, some (4, 16)⟩,
      ⟨43, F.COR_MIR_CTL_VECTOR, .rw, none⟩]⟩,
   ⟨0x3008, [(4, 0x20)], .none, .all, [⟨7, F.COR_MIR_RING_ADDR, .rw, none⟩]⟩,
   ⟨0x3010, [(4, 0x20)], .mirror, .all, [⟨0, F.COR_MIR_PTR_PROD, .ro, none⟩,
      ⟨32, F.COR_MIR_PTR_CONS, .rw, none⟩]⟩,
   ⟨0x3018, [(4, 0x20)], .mirror, .all, [⟨0, F.COR_MIR_STAT_TAKEN, .ro, none⟩,
      ⟨32, F.COR_MIR_STAT_LOST, .ro, none⟩]⟩]

/-- The registers of the quadrant block LNK_ (slot 1). -/
def regsQuadrantLNK : List RegRow :=
  [⟨0x0, [(40, 0x40)], .none, .all, [⟨0, F.LNK_PORT_CTL_EN, .rw, none⟩,
      ⟨1, F.LNK_PORT_CTL_RETRAIN, .wo, none⟩]⟩,
   ⟨0x8, [(40, 0x40)], .none, .all, [⟨0, F.LNK_PORT_STAT_STATE, .ro, none⟩,
      ⟨3, F.LNK_PORT_STAT_RATE, .ro, none⟩,
      ⟨5, F.LNK_PORT_STAT_LANES, .ro, none⟩,
      ⟨9, F.LNK_PORT_STAT_RX_BAD, .ro, none⟩,
      ⟨13, F.LNK_PORT_STAT_DOWN_CAUSE, .ro, none⟩,
      ⟨17, F.LNK_PORT_STAT_PEER_RX_OK, .ro, none⟩,
      ⟨32, F.LNK_PORT_STAT_RETRAINS, .ro, none⟩,
      ⟨48, F.LNK_PORT_STAT_DEGRADES, .ro, none⟩]⟩,
   ⟨0x10, [(40, 0x40)], .none, .all, [⟨0, F.LNK_PORT_ERR_UCW, .ro, none⟩,
      ⟨32, F.LNK_PORT_ERR_LCF_BAD, .ro, none⟩,
      ⟨48, F.LNK_PORT_ERR_SYNCS, .ro, none⟩]⟩,
   ⟨0x1000, [], .none, .all, [⟨0, F.LNK_THR_LANE_THR, .rw, none⟩,
      ⟨24, F.LNK_THR_UCW_THR, .rw, none⟩]⟩,
   ⟨0x1008, [], .none, .all, [⟨0, F.LNK_TIMERS_STARVE, .rw, some (1, 65535)⟩,
      ⟨16, F.LNK_TIMERS_DOWN_HOLD, .rw, none⟩,
      ⟨32, F.LNK_TIMERS_QUIET_IDLE, .rw, some (1, 65535)⟩]⟩,
   ⟨0x1010, [], .none, .all, [⟨0, F.LNK_INJ_PORT, .rw, some (0, 39)⟩,
      ⟨6, F.LNK_INJ_LANE, .rw, none⟩,
      ⟨8, F.LNK_INJ_KIND, .rw, none⟩,
      ⟨11, F.LNK_INJ_GO, .wo, none⟩]⟩,
   ⟨0x2000, [(40, 0x80), (16, 0x8)], .none, .all, [⟨0, F.LNK_CRED_TX_AVAIL, .ro, none⟩,
      ⟨16, F.LNK_CRED_RX_OUT, .ro, none⟩,
      ⟨32, F.LNK_CRED_STARVED, .ro, none⟩]⟩,
   ⟨0x4000, [(160, 0x8)], .none, .all, [⟨0, F.LNK_LANE_CTLE, .ro, none⟩,
      ⟨6, F.LNK_LANE_POL, .ro, none⟩,
      ⟨7, F.LNK_LANE_BAD, .ro, none⟩,
      ⟨8, F.LNK_LANE_CORR_LAST, .ro, none⟩,
      ⟨32, F.LNK_LANE_CORR_TOTAL, .ro, none⟩]⟩]

/-- The registers of the quadrant block SLT_ (slot 2). -/
def regsQuadrantSLT : List RegRow :=
  [⟨0x0, [(32, 0x8)], .part, .all, [⟨0, F.SLT_PART_CAP_SPILL_CAP, .ro, none⟩,
      ⟨18, F.SLT_PART_CAP_CAP, .ro, none⟩,
      ⟨36, F.SLT_PART_CAP_LIMIT, .ro, none⟩]⟩,
   ⟨0x100, [(32, 0x8)], .part, .all, [⟨0, F.SLT_PART_USE_RESIDENT, .ro, none⟩,
      ⟨16, F.SLT_PART_USE_SPILLED, .ro, none⟩,
      ⟨34, F.SLT_PART_USE_ADMITTED, .ro, none⟩,
      ⟨50, F.SLT_PART_USE_LAST_DEFER, .ro, none⟩]⟩,
   ⟨0x200, [(32, 0x40), (8, 0x8)], .ctrVis, .all, [⟨0, F.SLT_EVENT_COUNT, .ro, none⟩,
      ⟨48, F.SLT_EVENT_OVF, .w1c, none⟩]⟩,
   ⟨0x1000, [], .none, .all, [⟨0, F.SLT_PAGER_CTL_LOW_WATER, .rw, none⟩]⟩,
   ⟨0x1008, [], .none, .all, [⟨0, F.SLT_PAGER_STAT_STALLED, .ro, none⟩,
      ⟨16, F.SLT_PAGER_STAT_PENDING, .ro, none⟩]⟩,
   ⟨0x1010, [], .none, .all, [⟨0, F.SLT_SWEEP_PART, .ro, none⟩,
      ⟨5, F.SLT_SWEEP_ACTIVE, .ro, none⟩]⟩]

/-- The registers of the quadrant block ARB_ (slot 3). -/
def regsQuadrantARB : List RegRow :=
  [⟨0x0, [], .none, .all, [⟨0, F.ARB_SLAB_CTL_HOLD, .rw, some (64, 8191)⟩]⟩,
   ⟨0x8, [], .none, .all, [⟨0, F.ARB_SLAB_LOG_BANK, .ro, none⟩,
      ⟨7, F.ARB_SLAB_LOG_PORT, .ro, none⟩,
      ⟨8, F.ARB_SLAB_LOG_REQ, .ro, none⟩,
      ⟨11, F.ARB_SLAB_LOG_VALID, .w1c, none⟩,
      ⟨32, F.ARB_SLAB_LOG_FIRES, .ro, none⟩]⟩,
   ⟨0x100, [], .none, .all, [⟨0, F.ARB_HBM_CTL_HOLD, .rw, some (64, 8191)⟩]⟩,
   ⟨0x108, [], .none, .all, [⟨0, F.ARB_HBM_LOG_STACK, .ro, none⟩,
      ⟨3, F.ARB_HBM_LOG_PC, .ro, none⟩,
      ⟨8, F.ARB_HBM_LOG_REQ, .ro, none⟩,
      ⟨11, F.ARB_HBM_LOG_VALID, .w1c, none⟩,
      ⟨32, F.ARB_HBM_LOG_FIRES, .ro, none⟩]⟩]

/-- The registers of the quadrant block SEQ_ (slot 4). -/
def regsQuadrantSEQ : List RegRow :=
  [⟨0x0, [(32, 0x100), (5, 0x20)], .part, .all, [⟨12, F.SEQ_RING_BASE_ADDR, .rw, none⟩]⟩,
   ⟨0x8, [(32, 0x100), (5, 0x20)], .part, .all, [⟨0, F.SEQ_RING_CTL_LOG2SIZE, .rw, some (6, 16)⟩,
      ⟨5, F.SEQ_RING_CTL_CQ, .rw, none⟩,
      ⟨8, F.SEQ_RING_CTL_EN, .rw, none⟩,
      ⟨9, F.SEQ_RING_CTL_FABRIC_DB, .rw, none⟩,
      ⟨10, F.SEQ_RING_CTL_ERR, .w1c, none⟩,
      ⟨11, F.SEQ_RING_CTL_DBERR, .w1c, none⟩]⟩,
   ⟨0x10, [(32, 0x100), (5, 0x20)], .part, .all, [⟨0, F.SEQ_RING_PROD_PROD, .rw, none⟩]⟩,
   ⟨0x18, [(32, 0x100), (5, 0x20)], .part, .all, [⟨0, F.SEQ_RING_CONS_CONS, .ro, none⟩]⟩,
   ⟨0x2000, [], .none, .all, [⟨0, F.SEQ_CTL_POD_HOLD, .rw, some (10, 65535)⟩]⟩,
   ⟨0x2100, [(32, 0x8)], .part, .trig, [⟨0, F.SEQ_STEP_ARMED, .ro, none⟩,
      ⟨32, F.SEQ_STEP_REPLAY, .ro, none⟩]⟩,
   ⟨0x2200, [(32, 0x8)], .part, .trig, [⟨0, F.SEQ_SLOW_RANK, .ro, none⟩,
      ⟨12, F.SEQ_SLOW_VALID, .ro, none⟩,
      ⟨16, F.SEQ_SLOW_LAST, .ro, none⟩,
      ⟨48, F.SEQ_SLOW_BAD_DONE, .ro, none⟩]⟩,
   ⟨0x2300, [(32, 0x8)], .part, .trig, [⟨0, F.SEQ_ABORT_COLL_ID, .ro, none⟩,
      ⟨16, F.SEQ_ABORT_STEP_TAG, .ro, none⟩,
      ⟨48, F.SEQ_ABORT_MISSING, .ro, none⟩,
      ⟨62, F.SEQ_ABORT_MORE, .ro, none⟩,
      ⟨63, F.SEQ_ABORT_VALID, .w1c, none⟩]⟩,
   ⟨0x2400, [], .strag, .all, [⟨0, F.SEQ_STRAG_SEL_TABLE, .rw, some (0, 8)⟩,
      ⟨8, F.SEQ_STRAG_SEL_ACC, .rw, some (0, 143)⟩,
      ⟨16, F.SEQ_STRAG_SEL_PART, .rw, none⟩]⟩,
   ⟨0x2408, [], .strag, .all, [⟨0, F.SEQ_STRAG_DATA0_LAST, .ro, none⟩,
      ⟨32, F.SEQ_STRAG_DATA0_LAG_MAX, .ro, none⟩]⟩,
   ⟨0x2410, [], .strag, .all, [⟨0, F.SEQ_STRAG_DATA1_LAG_SUM, .ro, none⟩,
      ⟨48, F.SEQ_STRAG_DATA1_OVF, .w1c, none⟩]⟩,
   ⟨0x2418, [], .strag, .all, [⟨0, F.SEQ_STRAG_CLR_CLEAR, .wo, none⟩]⟩,
   ⟨0x3000, [(32, 0x200), (64, 0x8)], .part, .trig, [⟨0, F.SEQ_ABORT_MAP_MISSING, .ro, none⟩]⟩,
   ⟨0x8000, [(32, 0x100), (8, 0x20)], .part, .trig, [⟨5, F.SEQ_CQ_BASE_ADDR, .rw, none⟩]⟩,
   ⟨0x8008, [(32, 0x100), (8, 0x20)], .part, .trig, [⟨0, F.SEQ_CQ_CTL_LOG2SIZE, .rw, some (4, 16)⟩,
      ⟨5, F.SEQ_CQ_CTL_EN, .rw, none⟩,
      ⟨6, F.SEQ_CQ_CTL_HOST, .rw, none⟩,
      ⟨7, F.SEQ_CQ_CTL_VECTOR, .rw, none⟩]⟩,
   ⟨0x8010, [(32, 0x100), (8, 0x20)], .part, .trig, [⟨0, F.SEQ_CQ_PTR_PROD, .ro, none⟩,
      ⟨32, F.SEQ_CQ_PTR_CONS, .rw, none⟩]⟩,
   ⟨0x8018, [(32, 0x100), (8, 0x20)], .part, .trig, [⟨0, F.SEQ_CQ_LOST_COUNT, .ro, none⟩,
      ⟨48, F.SEQ_CQ_LOST_OVF, .w1c, none⟩]⟩]

/-- The registers of the quadrant block UPD_ (slot 5). -/
def regsQuadrantUPD : List RegRow :=
  [⟨0x0, [(32, 0x8)], .part, .trig, [⟨0, F.UPD_PART_STEP_STEP_TAG, .ro, none⟩,
      ⟨32, F.UPD_PART_STEP_STATE, .ro, none⟩,
      ⟨35, F.UPD_PART_STEP_OUTCOME, .ro, none⟩,
      ⟨38, F.UPD_PART_STEP_EARLY, .ro, none⟩]⟩,
   ⟨0x100, [(32, 0x8)], .part, .trig, [⟨0, F.UPD_PART_T_T, .ro, none⟩]⟩,
   ⟨0x200, [(32, 0x8)], .part, .trig, [⟨0, F.UPD_NORM_NORM, .ro, none⟩]⟩,
   ⟨0x300, [(32, 0x8)], .part, .trig, [⟨0, F.UPD_CLIP_K, .ro, none⟩,
      ⟨32, F.UPD_CLIP_STEP_TAG, .ro, none⟩]⟩,
   ⟨0x400, [(32, 0x40), (6, 0x8)], .part, .trig, [⟨0, F.UPD_STAT_COUNT, .ro, none⟩,
      ⟨48, F.UPD_STAT_OVF, .w1c, none⟩]⟩,
   ⟨0x1000, [], .none, .all, [⟨0, F.UPD_TMO_STEP, .rw, none⟩,
      ⟨16, F.UPD_TMO_PROGRESS, .rw, some (10, 65535)⟩]⟩,
   ⟨0x1008, [], .none, .all, [⟨0, F.UPD_FAULT_FAULTED, .ro, none⟩,
      ⟨1, F.UPD_FAULT_LOST, .w1c, none⟩,
      ⟨2, F.UPD_FAULT_PART, .ro, none⟩,
      ⟨8, F.UPD_FAULT_SHARD, .ro, none⟩]⟩]

/-- The registers of the quadrant block GRM_ (slot 6). -/
def regsQuadrantGRM : List RegRow :=
  [⟨0x0, [(32, 0x8)], .part, .all, [⟨0, F.GRM_PART_STATE, .ro, none⟩,
      ⟨8, F.GRM_PART_OPCODE, .ro, none⟩,
      ⟨32, F.GRM_PART_TAG, .ro, none⟩]⟩,
   ⟨0x100, [(32, 0x8)], .part, .all, [⟨0, F.GRM_PROG_DONE, .ro, none⟩,
      ⟨32, F.GRM_PROG_TOTAL, .ro, none⟩]⟩,
   ⟨0x200, [(32, 0x40), (6, 0x8)], .part, .all, [⟨0, F.GRM_STAT_COUNT, .ro, none⟩,
      ⟨48, F.GRM_STAT_OVF, .w1c, none⟩]⟩,
   ⟨0x1000, [], .none, .all, [⟨0, F.GRM_TMO_PROGRESS, .rw, some (10, 65535)⟩]⟩,
   ⟨0x1008, [], .none, .all, [⟨0, F.GRM_FAULT_FAULTED, .ro, none⟩,
      ⟨1, F.GRM_FAULT_PART, .ro, none⟩,
      ⟨8, F.GRM_FAULT_OPCODE, .ro, none⟩,
      ⟨16, F.GRM_FAULT_VALID, .w1c, none⟩]⟩]

/-- The registers of the quadrant block MIT_ (slot 7). -/
def regsQuadrantMIT : List RegRow :=
  [⟨0x0, [], .none, .q0, [⟨0, F.MIT_CTL_PEER_RESEND, .rw, some (1, 1000)⟩,
      ⟨10, F.MIT_CTL_NOTICE_EN, .rw, none⟩]⟩,
   ⟨0x8, [], .none, .q0, [⟨0, F.MIT_ROLE_CMD_CTX, .wo, none⟩,
      ⟨10, F.MIT_ROLE_CMD_ROLE, .wo, none⟩,
      ⟨11, F.MIT_ROLE_CMD_GO, .wo, none⟩]⟩,
   ⟨0x10, [], .none, .all, [⟨0, F.MIT_ABORT_CTX, .ro, none⟩,
      ⟨10, F.MIT_ABORT_KIND, .ro, none⟩,
      ⟨16, F.MIT_ABORT_SEQ, .ro, none⟩,
      ⟨48, F.MIT_ABORT_MISSING, .ro, none⟩,
      ⟨62, F.MIT_ABORT_MORE, .ro, none⟩,
      ⟨63, F.MIT_ABORT_VALID, .w1c, none⟩]⟩,
   ⟨0x100, [(256, 0x8)], .mitCtx, .all, [⟨0, F.MIT_CTX_SEQ, .ro, none⟩,
      ⟨32, F.MIT_CTX_STATE0, .ro, none⟩,
      ⟨34, F.MIT_CTX_STATE1, .ro, none⟩,
      ⟨36, F.MIT_CTX_ROLE, .ro, none⟩,
      ⟨37, F.MIT_CTX_JOINING, .ro, none⟩,
      ⟨38, F.MIT_CTX_ACTIVE, .ro, none⟩,
      ⟨39, F.MIT_CTX_PART, .ro, none⟩]⟩,
   ⟨0x1000, [(8, 0x8)], .none, .all, [⟨0, F.MIT_STAT_COUNT, .ro, none⟩,
      ⟨48, F.MIT_STAT_OVF, .w1c, none⟩]⟩]

/-- The registers of the quadrant block HBM_ (slot 8). -/
def regsQuadrantHBM : List RegRow :=
  [⟨0x0, [(6, 0x8)], .none, .all, [⟨0, F.HBM_STACK_STATE, .ro, none⟩,
      ⟨2, F.HBM_STACK_CH_RETIRED, .ro, none⟩,
      ⟨18, F.HBM_STACK_MAP_MIB, .ro, none⟩]⟩,
   ⟨0x40, [(6, 0x8)], .none, .all, [⟨0, F.HBM_ECC_CE, .ro, none⟩,
      ⟨32, F.HBM_ECC_UCE, .ro, none⟩,
      ⟨48, F.HBM_ECC_OVF, .w1c, none⟩]⟩,
   ⟨0x80, [], .none, .all, [⟨0, F.HBM_ERR_LOG_STACK, .ro, none⟩,
      ⟨3, F.HBM_ERR_LOG_PC, .ro, none⟩,
      ⟨8, F.HBM_ERR_LOG_PART, .ro, none⟩,
      ⟨13, F.HBM_ERR_LOG_VALID, .w1c, none⟩,
      ⟨14, F.HBM_ERR_LOG_MORE, .ro, none⟩,
      ⟨16, F.HBM_ERR_LOG_LINE, .ro, none⟩]⟩,
   ⟨0x88, [], .none, .all, [⟨0, F.HBM_SCRUB_EN, .rw, none⟩,
      ⟨1, F.HBM_SCRUB_PERIOD, .rw, some (1, 255)⟩,
      ⟨32, F.HBM_SCRUB_PASSES, .ro, none⟩]⟩,
   ⟨0x90, [], .none, .all, [⟨0, F.HBM_RETIRE_THR_CH_UCE, .rw, some (1, 255)⟩,
      ⟨8, F.HBM_RETIRE_THR_CH_CE, .rw, none⟩]⟩,
   ⟨0x98, [], .none, .all, [⟨0, F.HBM_RETIRE_CMD_STACK, .wo, none⟩,
      ⟨3, F.HBM_RETIRE_CMD_CHANNEL, .wo, none⟩,
      ⟨7, F.HBM_RETIRE_CMD_WHOLE, .wo, none⟩,
      ⟨8, F.HBM_RETIRE_CMD_GO, .wo, none⟩]⟩,
   ⟨0x100, [(64, 0x8)], .none, .all, [⟨0, F.HBM_EXTENT_LOST, .ro, none⟩,
      ⟨1, F.HBM_EXTENT_REMAPPING, .ro, none⟩,
      ⟨2, F.HBM_EXTENT_REMAPPED, .ro, none⟩]⟩,
   ⟨0x300, [], .none, .all, [⟨0, F.HBM_INJ_STACK, .rw, none⟩,
      ⟨3, F.HBM_INJ_PC, .rw, none⟩,
      ⟨8, F.HBM_INJ_LINE, .rw, none⟩,
      ⟨36, F.HBM_INJ_BITS, .rw, none⟩,
      ⟨38, F.HBM_INJ_GO, .wo, none⟩]⟩]

/-- The registers of the quadrant block PRK_ (slot 9). -/
def regsQuadrantPRK : List RegRow :=
  [⟨0x0, [], .none, .all, [⟨0, F.PRK_QUEUE_DEPTH, .ro, none⟩,
      ⟨9, F.PRK_QUEUE_PEAK, .ro, none⟩,
      ⟨18, F.PRK_QUEUE_PEAK_CLR, .wo, none⟩,
      ⟨19, F.PRK_QUEUE_FAULTED, .ro, none⟩]⟩,
   ⟨0x100, [(32, 0x40), (6, 0x8)], .ctrVis, .all, [⟨0, F.PRK_STAT_COUNT, .ro, none⟩,
      ⟨48, F.PRK_STAT_OVF, .w1c, none⟩]⟩]

/-- The registers of the quadrant block MOV_ (slot 10). -/
def regsQuadrantMOV : List RegRow :=
  [⟨0x0, [(32, 0x200), (3, 0x40)], .part, .all, [⟨0, F.MOV_CH_CTL_PAUSE, .wo, none⟩,
      ⟨1, F.MOV_CH_CTL_RESUME, .wo, none⟩,
      ⟨2, F.MOV_CH_CTL_ABORT, .wo, none⟩,
      ⟨3, F.MOV_CH_CTL_ERR, .w1c, none⟩]⟩,
   ⟨0x8, [(32, 0x200), (3, 0x40)], .part, .all, [⟨0, F.MOV_CH_STAT_STATE, .ro, none⟩,
      ⟨3, F.MOV_CH_STAT_BUSY, .ro, none⟩,
      ⟨4, F.MOV_CH_STAT_STATUS, .ro, none⟩,
      ⟨12, F.MOV_CH_STAT_LOSTREC, .ro, none⟩,
      ⟨24, F.MOV_CH_STAT_PC, .ro, none⟩]⟩,
   ⟨0x10, [(32, 0x200), (3, 0x40)], .part, .all, [⟨0, F.MOV_CH_POS_I0, .ro, none⟩,
      ⟨16, F.MOV_CH_POS_I1, .ro, none⟩,
      ⟨32, F.MOV_CH_POS_I2, .ro, none⟩,
      ⟨48, F.MOV_CH_POS_BEAT, .ro, none⟩]⟩,
   ⟨0x18, [(32, 0x200), (3, 0x40)], .part, .all, [⟨0, F.MOV_CH_OFF_OFFSET, .ro, none⟩]⟩,
   ⟨0x20, [(32, 0x200), (3, 0x40)], .part, .all, [⟨5, F.MOV_CQ_BASE_ADDR, .rw, none⟩]⟩,
   ⟨0x28, [(32, 0x200), (3, 0x40)], .part, .all, [⟨0, F.MOV_CQ_CTL_LOG2SIZE, .rw, some (4, 16)⟩,
      ⟨5, F.MOV_CQ_CTL_HOST, .rw, none⟩,
      ⟨6, F.MOV_CQ_CTL_VECTOR, .rw, none⟩]⟩,
   ⟨0x30, [(32, 0x200), (3, 0x40)], .part, .all, [⟨0, F.MOV_CQ_PTR_PROD, .ro, none⟩,
      ⟨32, F.MOV_CQ_PTR_CONS, .rw, none⟩]⟩,
   ⟨0x100, [(32, 0x200), (16, 0x8)], .part, .all, [⟨0, F.MOV_EVT_COUNT, .rw, none⟩]⟩,
   ⟨0x8000, [], .none, .all, [⟨0, F.MOV_TMO_BEAT, .rw, some (1, 65535)⟩]⟩,
   ⟨0x8008, [], .none, .all, [⟨0, F.MOV_STAT_STOPPED, .ro, none⟩,
      ⟨1, F.MOV_STAT_FAULTED, .ro, none⟩,
      ⟨2, F.MOV_STAT_CAUSE, .ro, none⟩,
      ⟨16, F.MOV_STAT_BUSERRS, .ro, none⟩]⟩]

/-- The registers of the quadrant block CTR_ (slot 11). -/
def regsQuadrantCTR : List RegRow :=
  [⟨0x0, [(104, 0x80), (8, 0x8)], .counter, .all, [⟨0, F.CTR_SEL_EVENT, .rw, none⟩,
      ⟨8, F.CTR_SEL_PART, .rw, none⟩,
      ⟨13, F.CTR_SEL_PART_EN, .rw, none⟩,
      ⟨14, F.CTR_SEL_EN, .rw, none⟩]⟩,
   ⟨0x40, [(104, 0x80), (8, 0x8)], .counter, .all, [⟨0, F.CTR_VAL_COUNT, .ro, none⟩,
      ⟨48, F.CTR_VAL_OVF, .w1c, none⟩]⟩,
   ⟨0x4000, [], .sampler, .all, [⟨0, F.CTR_PS_CTL_EN, .rw, none⟩,
      ⟨1, F.CTR_PS_CTL_SOURCE, .rw, none⟩,
      ⟨4, F.CTR_PS_CTL_MODE, .rw, none⟩,
      ⟨5, F.CTR_PS_CTL_K, .rw, some (0, 24)⟩,
      ⟨10, F.CTR_PS_CTL_PART, .rw, none⟩,
      ⟨15, F.CTR_PS_CTL_PART_EN, .rw, none⟩,
      ⟨16, F.CTR_PS_CTL_PORT, .rw, none⟩]⟩,
   ⟨0x4008, [], .sampler, .all, [⟨0, F.CTR_PS_STAT_HELD, .ro, none⟩,
      ⟨13, F.CTR_PS_STAT_WRAPPED, .ro, none⟩]⟩,
   ⟨0x4010, [], .sampler, .all, [⟨0, F.CTR_PS_READ_INDEX, .rw, none⟩]⟩,
   ⟨0x4018, [(4, 0x8)], .sampler, .all, [⟨0, F.CTR_PS_DATA_DATA, .ro, none⟩]⟩]

/-- The rows of the block in a quadrant slot (R566). -/
def regsQuadrant (slot : Nat) : List RegRow :=
  match slot with
  | 0 => regsQuadrantCOR
  | 1 => regsQuadrantLNK
  | 2 => regsQuadrantSLT
  | 3 => regsQuadrantARB
  | 4 => regsQuadrantSEQ
  | 5 => regsQuadrantUPD
  | 6 => regsQuadrantGRM
  | 7 => regsQuadrantMIT
  | 8 => regsQuadrantHBM
  | 9 => regsQuadrantPRK
  | 10 => regsQuadrantMOV
  | 11 => regsQuadrantCTR
  | _ => []

end Sys2Proof.Machine
end

