-- ==== Sys2Proof/Machine/Vars.lean ====
section
/-! DEFINITION. The scalar state that the spec gives the machine beside its registers: one descriptor per item, with its
width and reset value.  The indexes of each item stand in brackets in its docstring. -/

namespace Sys2Proof.Machine

/-- R475: time since the time counter's reset, in ps; GLB_TIME.NS is its whole ns. -/
def V.TIME_PS : Fld := ⟨1000, 84, 0⟩
/-- R310: [q] core cycles since the quadrant's reset. -/
def V.CYCLE : Fld := ⟨1001, 64, 0⟩
/-- R555: error record count since start-up. -/
def V.ERR_SEQ : Fld := ⟨1002, 32, 0⟩
/-- R557: [det, quad] the second of the time counter that CE_COUNT counts in. -/
def V.CE_SEC : Fld := ⟨1003, 64, 0⟩
/-- R557: [det, quad] corrected records written in that second. -/
def V.CE_COUNT : Fld := ⟨1004, 16, 0⟩
/-- R557: [f] earliest ns at which vector 1 may be raised again. -/
def V.VEC1_TIME : Fld := ⟨1005, 64, 0⟩
/-- R557: [f] vector 1 waits for that time. -/
def V.VEC1_DUE : Fld := ⟨1006, 1, 0⟩
/-- R529: [f, v] mask bit of an MSI-X table entry. -/
def V.MSIX_MASK : Fld := ⟨1007, 1, 1⟩
/-- R529: [f, v] its Pending Bit. -/
def V.MSIX_PEND : Fld := ⟨1008, 1, 0⟩
/-- R527: [f] Bus Master Enable of the function. -/
def V.BME : Fld := ⟨1009, 1, 1⟩
/-- R532: PERST_N asserted. -/
def V.PERST : Fld := ⟨1010, 1, 0⟩
/-- R533: [f] advisory non-fatal error logged. -/
def V.AER_ADV : Fld := ⟨1011, 1, 0⟩
/-- R533: [f] AER status: bit 0 correctable, 1 non-fatal, 2 fatal, 3 poisoned TLP received. -/
def V.AER_ERR : Fld := ⟨1012, 4, 0⟩
/-- R549: [port] router counter of external port 40q + k: packets received. -/
def V.RTR_PKT_IN : Fld := ⟨1013, 48, 0⟩
/-- R549: [port] packets sent. -/
def V.RTR_PKT_OUT : Fld := ⟨1014, 48, 0⟩
/-- R549: [port] flits received. -/
def V.RTR_FLIT_IN : Fld := ⟨1015, 48, 0⟩
/-- R549: [port] flits sent. -/
def V.RTR_FLIT_OUT : Fld := ⟨1016, 48, 0⟩
/-- R549: [port] BACK_STALLED flit slots. -/
def V.RTR_STALL : Fld := ⟨1017, 48, 0⟩
/-- R549: [port] ingress discards. -/
def V.RTR_DISC : Fld := ⟨1018, 48, 0⟩
/-- R560: armed injection: 0 none, 1 ERR_INJ, 2 LNK_INJ, 3 HBM_INJ, 4 TRY_INJ. -/
def V.INJ_KIND : Fld := ⟨1019, 4, 0⟩
/-- R560: detector of the armed injection. -/
def V.INJ_DET : Fld := ⟨1020, 8, 0⟩
/-- R560: its quadrant. -/
def V.INJ_QUAD : Fld := ⟨1021, 3, 0⟩
/-- R560: its partition. -/
def V.INJ_PART : Fld := ⟨1022, 5, 0⟩
/-- R560: its target. -/
def V.INJ_TARGET : Fld := ⟨1023, 32, 0⟩
/-- R96: [q, k] the port is withdrawn (notice sent, still up or down). -/
def V.WITHDRAWN : Fld := ⟨1024, 1, 0⟩
/-- R101: [p] ns of the latest flip. -/
def V.FLIP_NS : Fld := ⟨1025, 64, 0⟩
/-- R102: [p] a flip waits for the retirement of the old bank. -/
def V.WAIT_FLIP : Fld := ⟨1026, 1, 0⟩
/-- R323: [q, o] round pointer of an output. -/
def V.ROUND_PTR : Fld := ⟨1027, 4, 0⟩
/-- R323: [q, o, v] deficit in bytes, two's complement. -/
def V.DEFICIT : Fld := ⟨1028, 64, 0⟩
/-- R334: [q, s] frames counted by a mirror session since its configuration. -/
def V.MIR_COUNT : Fld := ⟨1029, 32, 0⟩
/-- R105: [q] running count of MIRROR packets. -/
def V.MIR_SEQ : Fld := ⟨1030, 32, 0⟩
/-- R325: [q, u, c] depth of uplink queue u and class c as last broadcast to quadrant q. -/
def V.UPDEPTH : Fld := ⟨1031, 18, 0⟩
/-- R19: [a, b] seam between quadrants a < b is down. -/
def V.SEAM_DOWN : Fld := ⟨1032, 1, 0⟩
/-- R19: [a, b] seam-level retries counted. -/
def V.SEAM_RETRY : Fld := ⟨1033, 32, 0⟩
/-- R19: the plane is withdrawn. -/
def V.PLANE_WITHDRAWN : Fld := ⟨1034, 1, 0⟩
/-- R116: [q, o, c] the module's own senders are stopped for a queue and class. -/
def V.INJ_STOP : Fld := ⟨1035, 1, 0⟩
/-- R553: [q] matching events since the latest write of CTR_PS_CTL. -/
def V.PS_COUNT : Fld := ⟨1036, 32, 0⟩
/-- R79: [q, k] a packet's header was admitted and its trailer has not been received. -/
def V.INGRESS_OPEN : Fld := ⟨1037, 1, 0⟩
/-- R211: [p, k] trigger counter k of partition p, saturating. -/
def V.TRIG_CTR : Fld := ⟨1038, 32, 0⟩
/-- R213: [p, k] 1 + the index of the word armed on the counter; 0 none. -/
def V.TRIG_WORD : Fld := ⟨1039, 16, 0⟩
/-- R213: [p, k] its context step. -/
def V.TRIG_CTX : Fld := ⟨1040, 32, 0⟩
/-- R219: [p, table, acc] LAST of a member; table 0 all collectives, 1 to 8 the WATCH entries. -/
def V.STRAG_LAST : Fld := ⟨1041, 32, 0⟩
/-- R219: [p, table, acc] LAG_MAX. -/
def V.STRAG_LAG_MAX : Fld := ⟨1042, 32, 0⟩
/-- R219: [p, table, acc] LAG_SUM. -/
def V.STRAG_LAG_SUM : Fld := ⟨1043, 48, 0⟩
/-- R223: [p, table, acc] LAG_SUM has wrapped. -/
def V.STRAG_LAG_OVF : Fld := ⟨1044, 1, 0⟩
/-- R185: [q, e] reduction engine e is out of service. -/
def V.ENGINE_FAULT : Fld := ⟨1045, 1, 0⟩
/-- R52: [p] a QUIET group of the partition waits for its commit point. -/
def V.KNIT_QUIET : Fld := ⟨1046, 1, 0⟩
/-- R67: a border move drains. -/
def V.BORDER_DRAIN : Fld := ⟨1047, 1, 0⟩
/-- R179: [q] the pager is stopped with its Mover. -/
def V.PAGER_STOP : Fld := ⟨1048, 1, 0⟩
/-- R222: [p] the step being replayed while SEQ_STEP.REPLAY is 1. -/
def V.REPLAY_STEP : Fld := ⟨1049, 32, 0⟩
/-- R194: [p, k] earliest ns of the queue's next interrupt. -/
def V.CQ_VEC_TIME : Fld := ⟨1050, 64, 0⟩
/-- R194: [p, k] the queue's interrupt waits for that time. -/
def V.CQ_VEC_DUE : Fld := ⟨1051, 1, 0⟩
/-- R105: [q] running count of packets that belong to no instance. -/
def V.SEQ_RUNNING : Fld := ⟨1052, 32, 0⟩
/-- R149: [p, step] overflow among the instances of a step. -/
def V.STEPFLG_OVF : Fld := ⟨1053, 1, 0⟩
/-- R149: [p, step] invalid among them. -/
def V.STEPFLG_INV : Fld := ⟨1054, 1, 0⟩
/-- R151: [p, step] a chunk of the step was flagged. -/
def V.STEPFLG_SET : Fld := ⟨1055, 1, 0⟩
/-- R151: [p, step] first flagged collective. -/
def V.STEPFLG_COLL : Fld := ⟨1056, 16, 0⟩
/-- R151: [p, step] first flagged chunk. -/
def V.STEPFLG_CHUNK : Fld := ⟨1057, 24, 0⟩
/-- R151: [p, step] 0 overflow, 1 invalid. -/
def V.STEPFLG_KIND : Fld := ⟨1058, 1, 0⟩
/-- R67: [p, q] a draining border move lowers the partition's quota in quadrant q. -/
def V.BORDER_LOWERED : Fld := ⟨1059, 1, 0⟩
/-- R67: [p, q] the new quota that it lowers it to. -/
def V.BORDER_QUOTA : Fld := ⟨1060, 16, 0⟩
/-- R301: [ctx] the JOINING context has opened its first round. -/
def V.MIT_FIRST : Fld := ⟨1061, 1, 0⟩
/-- R302: the module's notice count. -/
def V.NOTICE_SEQ : Fld := ⟨1062, 32, 0⟩
/-- R235: [p] the norm ledger of the step in flight, two's complement. -/
def V.NORM_LEDGER : Fld := ⟨1063, 128, 0⟩
/-- R236: [p] NORM_CONTRIBUTE operations of the step in flight that have completed. -/
def V.NORM_OPS : Fld := ⟨1064, 16, 0⟩
/-- R238: [p] clip factor that the step in flight uses. -/
def V.STEP_K : Fld := ⟨1065, 32, 0⟩
/-- R238: [p] a step has been decided since the OPT header was last written. -/
def V.CLIP_KNOWN : Fld := ⟨1066, 1, 0⟩
/-- R241: [p] ns at which the step timer expires; 0 not running. -/
def V.STEP_TIMER : Fld := ⟨1067, 64, 0⟩
/-- R242: [p, shard] the shard's update of the step in flight has started. -/
def V.UPD_STARTED : Fld := ⟨1068, 1, 0⟩
/-- R214: [p, shard] the shard's update of the step in flight has ended. -/
def V.UPD_OP_DONE : Fld := ⟨1069, 1, 0⟩
/-- R256: [p, shard] the shard is LOST. -/
def V.SHARD_LOST : Fld := ⟨1070, 1, 0⟩
/-- R248: [p, g] LAMB ledger of squared weights. -/
def V.LAMB_WW : Fld := ⟨1071, 128, 0⟩
/-- R248: [p, g] LAMB ledger of squared directions. -/
def V.LAMB_UU : Fld := ⟨1072, 128, 0⟩
/-- R247: [p, g] the values between the passes of a group have been computed. -/
def V.GROUP_READY : Fld := ⟨1073, 1, 0⟩
/-- R247: [p, g] LAMB trust ratio. -/
def V.GROUP_RATIO : Fld := ⟨1074, 32, 0⟩
/-- R246: [p] a group ledger of the step saturated; its record is written. -/
def V.LEDGER_SAT : Fld := ⟨1075, 1, 0⟩
/-- R249: [p] the step's record of a non-finite parameter is written. -/
def V.NONFINITE_SEEN : Fld := ⟨1076, 1, 0⟩
/-- R505: [p, shard] an IMPORT was done and no later step has ended. -/
def V.IMPORTED : Fld := ⟨1077, 1, 0⟩
/-- R504: [p, q] SEQ of the next SNAPSHOT packet. -/
def V.SNAP_SEQ : Fld := ⟨1078, 33, 0⟩
/-- R502: [p] export key held. -/
def V.EXPORT_KEY : Fld := ⟨1079, 256, 0⟩
/-- R222: [p] quadrant of the ring whose STEP_REPLAY command runs. -/
def V.REPLAY_QUAD : Fld := ⟨1080, 2, 0⟩
/-- R222: [p] that command's entry. -/
def V.REPLAY_ENTRY : Fld := ⟨1081, 512, 0⟩
/-- R337: [q, s] earliest ns of the session's next interrupt. -/
def V.MIR_VEC_TIME : Fld := ⟨1082, 64, 0⟩
/-- R337: [q, s] the session's interrupt waits for that time. -/
def V.MIR_VEC_DUE : Fld := ⟨1083, 1, 0⟩
/-- R349: [q, k, v] credits charged as sender. -/
def V.LNK_SENT : Fld := ⟨1084, 16, 0⟩
/-- R349: [q, k, v] credits charged as receiver. -/
def V.LNK_RCVD : Fld := ⟨1085, 16, 0⟩
/-- R349: [q, k, v] credits granted as receiver. -/
def V.LNK_LIMIT : Fld := ⟨1086, 16, 0⟩
/-- R349: [q, k, v] the peer's LIMIT in its latest valid LCF. -/
def V.LNK_PEER_LIMIT : Fld := ⟨1087, 16, 0⟩
/-- R360: [q, k] the port's own RX_BAD. -/
def V.LNK_OWN_BAD : Fld := ⟨1088, 4, 0⟩
/-- R360: [q, k] RX_BAD of the peer's latest valid LCF. -/
def V.LNK_PEER_BAD : Fld := ⟨1089, 4, 0⟩
/-- R353: [q, k] training attempt. -/
def V.LNK_ATTEMPT : Fld := ⟨1090, 2, 0⟩
/-- R354: [q, k] ALIGN slot: 0 x4, 1 to 3 the pairs with lane 1 to 3. -/
def V.LNK_SLOT : Fld := ⟨1091, 2, 0⟩
/-- R360: [q, k] frames left before a degrade. -/
def V.LNK_COUNTDOWN : Fld := ⟨1092, 3, 0⟩
/-- R360: [q, k] lanes kept once the countdown ends. -/
def V.LNK_KEEP : Fld := ⟨1093, 4, 0⟩
/-- R357: [q, k] CMD QUIET sent and not answered. -/
def V.LNK_QUIET_REQ : Fld := ⟨1094, 1, 0⟩
/-- R360: [q, l] corrected symbols of the lane in the current window. -/
def V.LNK_LANE_COUNT : Fld := ⟨1095, 24, 0⟩
/-- R353: [q, k] 1 + ns of the latest entry to RETRAIN, 0 none. -/
def V.LNK_RETRAIN1 : Fld := ⟨1096, 64, 0⟩
/-- R353: [q, k] 1 + ns of the one before. -/
def V.LNK_RETRAIN2 : Fld := ⟨1097, 64, 0⟩
/-- R347: [q, k] the receiver has lost the packet boundaries. -/
def V.LNK_LOST_BOUND : Fld := ⟨1098, 1, 0⟩
/-- R356: [q, k] the port is QUIET because the module is in P2. -/
def V.LNK_P2 : Fld := ⟨1099, 1, 0⟩
/-- R305: [q, k] REASON of the latest withdrawal. -/
def V.WITHDRAW_REASON : Fld := ⟨1100, 8, 0⟩
/-- R346: [q, k] STATE of the peer's latest valid LCF. -/
def V.LNK_PEER_STATE : Fld := ⟨1101, 3, 0⟩
/-- R346: [q, k] LANES of that LCF. -/
def V.LNK_PEER_LANES : Fld := ⟨1102, 4, 0⟩
/-- R346: [q, k] COUNTDOWN of that LCF. -/
def V.LNK_PEER_CTDN : Fld := ⟨1103, 3, 0⟩
/-- R263: [q, p] entry of the Gram command that waits or runs. -/
def V.GRM_ENTRY : Fld := ⟨1104, 512, 0⟩
/-- R270: [q, p] a step has ended without being applied while the partition's command waited, or its step has FAILED while it runs. -/
def V.GRM_ABORT : Fld := ⟨1105, 1, 0⟩
/-- R270: [q, p] the step that a running staged command started in. -/
def V.GRM_STEP : Fld := ⟨1106, 32, 0⟩
/-- R275: [q, p] the running command has written a non-finite element. -/
def V.GRM_NF : Fld := ⟨1107, 1, 0⟩
/-- R376: [stack] 1 + the second of the stack's latest corrected record, 0 none. -/
def V.HBM_CE_SEC : Fld := ⟨1108, 64, 0⟩
/-- R377: [q, s] next line of the patrol scrub in its stack. -/
def V.SCRUB_LINE : Fld := ⟨1109, 32, 0⟩
/-- R394: [q] stacks whose current scrub pass has ended. -/
def V.SCRUB_DONE : Fld := ⟨1110, 6, 0⟩
/-- R392: [q] the patrol scrub is stopped until a quadrant reset. -/
def V.SCRUB_STOP : Fld := ⟨1111, 1, 0⟩
/-- R380: [stack] channels recorded as retired in boot flash. -/
def V.RET_CH : Fld := ⟨1112, 16, 0⟩
/-- R380: [stack] stack recorded as retired in boot flash. -/
def V.RET_STACK : Fld := ⟨1113, 1, 0⟩
/-- R67: [q, e] extent e of the quadrant changes owner in a border move in progress. -/
def V.EXT_MOVING : Fld := ⟨1114, 1, 0⟩
/-- R409: [q, p, c] entry of the START whose program runs or whose record is due; 0 none. -/
def V.MOV_START_E : Fld := ⟨1115, 512, 0⟩
/-- R410: [q, p, c] TAG of that START. -/
def V.MOV_TAG : Fld := ⟨1116, 32, 0⟩
/-- R410: [q, p, c] MISMATCH of the program. -/
def V.MOV_MISM : Fld := ⟨1117, 32, 0⟩
/-- R410: [q, p, c] FIRST of the program. -/
def V.MOV_FIRST : Fld := ⟨1118, 40, 0⟩
/-- R410: [q, p, c] 1 + the address of the COMPARE that FIRST is of, 0 none. -/
def V.MOV_FWORD : Fld := ⟨1119, 41, 0⟩
/-- R410: [q, p, c] address of the word at which the program ended. -/
def V.MOV_ENDW : Fld := ⟨1120, 40, 0⟩
/-- R412: [q, p, c] an ABORT ends the program once it has drained. -/
def V.MOV_DROP : Fld := ⟨1121, 1, 0⟩
/-- R412: [q, p, c] the ending program goes to ERROR once its record is written. -/
def V.MOV_TO_ERR : Fld := ⟨1122, 1, 0⟩
/-- R411: [q, p, c] earliest ns of the queue's next interrupt. -/
def V.MOV_VEC_TIME : Fld := ⟨1123, 64, 0⟩
/-- R411: [q, p, c] the queue's interrupt waits for that time. -/
def V.MOV_VEC_DUE : Fld := ⟨1124, 1, 0⟩
/-- R420: [q] 1 + ns of the latest bus error, 0 none. -/
def V.MOV_BE1 : Fld := ⟨1125, 64, 0⟩
/-- R420: [q] 1 + ns of the one before. -/
def V.MOV_BE2 : Fld := ⟨1126, 64, 0⟩
/-- R419: [q] bus errors of the quadrant's Mover during the zeroize of the border move in progress. -/
def V.ZERO_BUSERR : Fld := ⟨1127, 8, 0⟩
/-- R69: 1 + the function whose load is in progress, 0 none; 34 a boot load. -/
def V.KNT_FN : Fld := ⟨1128, 6, 0⟩
/-- R47: index of the group in progress. -/
def V.KNT_GROUP : Fld := ⟨1129, 32, 0⟩
/-- R50: what the load in progress waits for: 0 nothing, 1 an immediate commit point, 2 a quiet point, 3 an epoch flip, 4 a border's drain, 5 its zeroize, 6 a quiesce, 7 the copy of switched images, 8 fetching, 9 a vote. -/
def V.KNT_WAIT : Fld := ⟨1130, 4, 0⟩
/-- R68: zeroize repeats of the border move in progress. -/
def V.KNT_TRIES : Fld := ⟨1131, 2, 0⟩
/-- R44: a base knit has been applied since start-up. -/
def V.BASE_APPLIED : Fld := ⟨1132, 1, 0⟩
/-- R37: SERIAL of the base knit applied last. -/
def V.BASE_SERIAL : Fld := ⟨1133, 32, 0⟩
/-- R492: [i] monotonic counter i of the boot flash. -/
def V.FLASH_CTR : Fld := ⟨1134, 32, 0⟩
/-- R492: command sequence SEQ of the boot flash. -/
def V.FLASH_SEQ : Fld := ⟨1135, 32, 0⟩
/-- R492: the boot flash holds the key K. -/
def V.FLASH_KEYED : Fld := ⟨1136, 1, 0⟩
/-- R499: slot of the life-cycle object that holds. -/
def V.LC_SLOT : Fld := ⟨1137, 1, 0⟩
/-- R44: where the staged knit lies: 0 the KNIT region, 1 + the stack of the boot staging area. -/
def V.KNT_AREA : Fld := ⟨1138, 6, 0⟩
/-- R58: of the load in progress: 0 no vote, 1 a vote is owed, 2 the module has contributed. -/
def V.KNT_VOTE : Fld := ⟨1139, 2, 0⟩
/-- R49: [region, quad, partition] the image's copy into its new shadow bank is in progress. -/
def V.KNT_COPY : Fld := ⟨1140, 1, 0⟩
/-- R49: 1 + the function in whose view that copy shows. -/
def V.KNT_COPY_FN : Fld := ⟨1141, 6, 0⟩
/-- R67: [q, k] a draining border move holds back the port's credits. -/
def V.BORDER_PORT : Fld := ⟨1142, 1, 0⟩
/-- R68: [q, e] the extent failed its second zeroize and is unreadable. -/
def V.EXT_DEAD : Fld := ⟨1143, 1, 0⟩
/-- R196: [p] STEP_START has been loaded from the partition's COLL image. -/
def V.STEP_LOADED : Fld := ⟨1144, 1, 0⟩
/-- R478: [q] a SCHED group quiesces the quadrant. -/
def V.QUIESCE : Fld := ⟨1145, 1, 0⟩
/-- R478: [q] the quadrant is in a quadrant reset. -/
def V.QRESET : Fld := ⟨1146, 1, 0⟩
/-- R478: the module is in a module reset. -/
def V.MRESET : Fld := ⟨1147, 1, 0⟩
/-- R512: a debug grant woke the module: every port stays withdrawn and closed. -/
def V.WAKE_CLOSED : Fld := ⟨1148, 1, 0⟩
/-- R468: the module enters P2: slot creation is deferred for every partition. -/
def V.P2_DEFER : Fld := ⟨1149, 1, 0⟩
/-- R427: [j] integrator of control loop j, FP32: 0 pump_t, 1 pump_f, 2 fan. -/
def V.INTEG : Fld := ⟨1150, 32, 0⟩
/-- R427: [i] duty that the module computed for output i, FP32. -/
def V.DUTY : Fld := ⟨1151, 32, 0⟩
/-- R427: [i] duty driven on PWM output i, FP32: the computed duty, or the forced one where it is greater. -/
def V.PWM_OUT : Fld := ⟨1152, 32, 0⟩
/-- R424: hottest junction in °C, FP32. -/
def V.TJ : Fld := ⟨1153, 32, 0⟩
/-- R424: sum of the ten products of VIN and IIN of the latest window, times 2^298; P is a tenth of it. -/
def V.P_SUM : Fld := ⟨1154, 700, 0⟩
/-- R425: [n] 1 + ns of the latest window in which channel n was implausible, 0 none. -/
def V.ADC_BAD_AT : Fld := ⟨1155, 65, 0⟩
/-- R425: [n] 1 + ns of the channel's latest record, 0 none. -/
def V.ADC_REC : Fld := ⟨1156, 65, 0⟩
/-- R425: the module fails plausibility. -/
def V.PLAUS_FAILED : Fld := ⟨1157, 1, 0⟩
/-- R446: channel whose codes an injection replaces. -/
def V.ADC_INJ_CH : Fld := ⟨1158, 4, 0⟩
/-- R446: ns at which that injection ends. -/
def V.ADC_INJ_END : Fld := ⟨1159, 64, 0⟩
/-- R446: ns at which the injected duty offset ends. -/
def V.DUTY_INJ_END : Fld := ⟨1160, 64, 0⟩
/-- R446: ns at which the injected stop of the heartbeat ends. -/
def V.HB_STOP_END : Fld := ⟨1161, 64, 0⟩
/-- R422: ns of the latest Yofen kick. -/
def V.KICK_NS : Fld := ⟨1162, 64, 0⟩
/-- R559: a kick was suppressed by an injection. -/
def V.KICK_INJ : Fld := ⟨1163, 1, 0⟩
/-- R446: last owner of the tray seen: 0 none, 1 this module, 2 the other. -/
def V.OWNER_SEEN : Fld := ⟨1164, 2, 0⟩
/-- R435: [j] integrators that the owner published. -/
def V.PEER_INTEG : Fld := ⟨1165, 32, 0⟩
/-- R435: effective cap that the owner published. -/
def V.PEER_CAP : Fld := ⟨1166, 12, 0⟩
/-- R435: pump stage that the owner published. -/
def V.PEER_STAGE : Fld := ⟨1167, 2, 0⟩
/-- R435: plausibility verdict that the owner published. -/
def V.PEER_PLAUS : Fld := ⟨1168, 1, 0⟩
/-- R437: the standby has loaded the owner's integrators since it became one. -/
def V.INTEG_LOADED : Fld := ⟨1169, 1, 0⟩
/-- R436: ns before which the standby starts no new contest. -/
def V.CONTEST_HOLD : Fld := ⟨1170, 64, 0⟩
/-- R438: tray telemetry sequence number of the owner. -/
def V.TRAY_SEQ : Fld := ⟨1171, 64, 0⟩
/-- R438: the sender's own count of datagrams. -/
def V.MOD_SEQ : Fld := ⟨1172, 64, 0⟩
/-- R466: the Yofen runs. -/
def V.YOF_ON : Fld := ⟨1173, 1, 0⟩
/-- R458: VIN is below 40 V: the last gasp runs on the hold-up. -/
def V.GASP : Fld := ⟨1174, 1, 0⟩
/-- R486: [c] an enable of the cartridge is latched while it is STOPPING: 1 by its button, 2 by TRY_CART_CMD. -/
def V.CART_LATCH : Fld := ⟨1175, 2, 0⟩
/-- R455: [c] LED pattern: 0 off, 2 amber blink, 3 blue, 4 green blink, 5 amber, 6 green, 7 blue blink. -/
def V.LED : Fld := ⟨1176, 4, 0⟩
/-- R455: [c] the refusal pattern is shown before it. -/
def V.LED_FLASH : Fld := ⟨1177, 1, 0⟩
/-- R467: state that ENTERING_P2 or ENTERING_P3 leads to: 2 or 3. -/
def V.PTARGET : Fld := ⟨1178, 2, 0⟩
/-- R488: cause of that entry. -/
def V.PCAUSE : Fld := ⟨1179, 3, 0⟩
/-- R486: power state that a latched enable asks for. -/
def V.PEND_TO : Fld := ⟨1180, 2, 0⟩
/-- R467: state at opening: 0 POWER.OPEN_STATE, 1 P0, 2 P1. -/
def V.OPEN_TO : Fld := ⟨1181, 2, 0⟩
/-- R480: a start-up sequence runs. -/
def V.BOOTING : Fld := ⟨1182, 1, 1⟩
/-- R488: ns at which it started. -/
def V.BOOT_NS : Fld := ⟨1183, 64, 0⟩
/-- R471: THERM_TRIP_N is asserted. -/
def V.THERM : Fld := ⟨1184, 1, 0⟩
/-- R464: the module entered P3 on VIN collapse. -/
def V.VIN_P3 : Fld := ⟨1185, 1, 0⟩
/-- R466: VAUX_3V3 is absent: the module is Off. -/
def V.OFF : Fld := ⟨1186, 1, 0⟩
/-- R474: [q, e, p] 1 + ns at which partition p's hold of engine kind e ends, 0 none. -/
def V.WARM_NS : Fld := ⟨1187, 65, 0⟩
/-- R483: a record of contained or higher severity was written during the load test. -/
def V.LT_BAD : Fld := ⟨1188, 1, 0⟩
/-- R512: state from which a grant woke the module. -/
def V.WOKE_FROM : Fld := ⟨1189, 2, 0⟩
/-- R510: ns at which the D2 or D3 grant ends. -/
def V.GRANT_END : Fld := ⟨1190, 65, 0⟩
/-- R512: the start-up sequence that runs serves a grant and ends after step 9. -/
def V.WAKE_BOOT : Fld := ⟨1191, 1, 0⟩
/-- R507: [p] SHA-256 of the manifest of the partition's latest applied knit; 0: of the base knit. -/
def V.MANIFEST : Fld := ⟨1192, 256, 0⟩
/-- R510: a challenge is current. -/
def V.CHAL_OK : Fld := ⟨1193, 1, 0⟩
/-- R511: effective JTAG instruction. -/
def V.JTAG_IR : Fld := ⟨1194, 8, 255⟩
/-- R511: boundary-scan update register. -/
def V.JTAG_BSR : Fld := ⟨1195, 4096, 0⟩
/-- R534: [b] endpoint ID of a binding: 0 PCIe VDM, 1 SMBus. -/
def V.EID : Fld := ⟨1196, 8, 0⟩
/-- R560: set while the responses of an injection run. -/
def V.INJ_NOW : Fld := ⟨1197, 1, 0⟩
/-- R559: the next end-to-end check failure of the quadrant was injected. -/
def V.E2E_INJ : Fld := ⟨1198, 1, 0⟩
/-- R536: an FLR of PF0 met a SEC_CMD, whose vector is not raised. -/
def V.SEC_NOVEC : Fld := ⟨1199, 1, 0⟩
/-- R535: [q] hottest reading of the quadrant's sensors in °C, FP32. -/
def V.TJQ : Fld := ⟨1200, 32, 0⟩
/-- R569: [f] offset of the register that a 4 B read of its low half latched, in units of 1 B. -/
def V.SPLIT_OFF : Fld := ⟨1201, 28, 0⟩
/-- R569: [f] the latched bits [63:32]. -/
def V.SPLIT_HI : Fld := ⟨1202, 32, 0⟩
/-- R569: [f] no other BAR0 access of the function has come since. -/
def V.SPLIT_OK : Fld := ⟨1203, 1, 0⟩
/-- R574: STATUS that the next DBG_ACCESS shifts out. -/
def V.DBGA_STATUS : Fld := ⟨1204, 2, 0⟩
/-- R574: data of the previous DBG_ACCESS read. -/
def V.DBGA_DATA : Fld := ⟨1205, 64, 0⟩
/-- R572: ns of the Yofen's latest boot. -/
def V.YOF_BOOT_NS : Fld := ⟨1206, 64, 0⟩
/-- R353: the 100 µs of PRBS13Q of RETRAIN have been sent. -/
def V.LNK_PRBS : Fld := ⟨1207, 1, 0⟩
/-- R242: [p] step tag of the latest ended step before the step in flight. -/
def V.ENDED_STEP : Fld := ⟨1208, 32, 0⟩
/-- R254: [p] UPD_PART_T after that step. -/
def V.ENDED_T : Fld := ⟨1209, 32, 0⟩
/-- R553: [q, source, part, ...] 1 and the record of a sampled event in progress, 0 for none. -/
def V.PS_REC : Fld := ⟨1210, 257, 0⟩
/-- R554: [q, source, part, ...] the core cycle at which a sampled event began. -/
def V.PS_BEG : Fld := ⟨1211, 64, 0⟩
/-- R554: [q, source, part, ...] the cycles that a sampled event in progress has waited. -/
def V.PS_WAIT : Fld := ⟨1212, 64, 0⟩
/-- R554: [q, p, e] 1 and the core cycle at which the entry at the head of a ring was looked at, 0 for none. -/
def V.HEAD_CYC : Fld := ⟨1213, 64, 0⟩
/-- R554: [q, p, c] the core cycle at which a channel entered WAITING. -/
def V.MOV_WAITC : Fld := ⟨1214, 64, 0⟩
/-- The number of the next packet in the module, which all its copies share: the model's own, so that a damaged packet is found wherever its copies are. -/
def V.PKT_UID : Fld := ⟨1215, 64, 0⟩
/-- R319: [q] F, the shared cells that no pool held or had promised at the start of the cycle. -/
def V.COR_F : Fld := ⟨1216, 18, 190542⟩
/-- R332: [q] the highest input that has admitted a header in this cycle. -/
def V.COR_ADMIT : Fld := ⟨1217, 6, 0⟩
/-- R323: [q] copies linked since the quadrant's reset: the order in which lists are served. -/
def V.LINK_SEQ : Fld := ⟨1218, 64, 0⟩
/-- R79: [q, k] number of the packet that is being received on the port. -/
def V.INGRESS_UID : Fld := ⟨1219, 64, 0⟩
/-- R345: [q, k] link cycle (V.LINK_CYC) at which flit slot TX_BASE of the port begins. -/
def V.TX_TIME : Fld := ⟨1220, 64, 0⟩
/-- R345: [q, k] a flit slot, counted from the port's first frame. -/
def V.TX_BASE : Fld := ⟨1221, 64, 0⟩
/-- R345: [q, k] the first flit slot after those that packets have taken. -/
def V.TX_NEXT : Fld := ⟨1222, 64, 0⟩
/-- R346: [q, k] CMD, ARG and SENT of the port's next LCF, from bit 0, 4 and 8. -/
def V.LCF_CMD : Fld := ⟨1223, 24, 0⟩
/-- R345: [q, k] the codeword that the receiver expects next, in its frame. -/
def V.RX_CW : Fld := ⟨1224, 4, 0⟩
/-- R347: [q, k] flits that the packet being received, or being discarded, still has to come. -/
def V.RX_LEFT : Fld := ⟨1225, 6, 0⟩
/-- R346: [q, k] the codeword of the LCF that arrives was uncorrectable. -/
def V.RX_LCF_BAD : Fld := ⟨1226, 1, 0⟩
/-- R353: [q, k] consecutive codewords decoded, up to 64. -/
def V.RX_CW_RUN : Fld := ⟨1227, 7, 0⟩
/-- R353: [q, k] consecutive valid LCFs received, up to 4. -/
def V.RX_LCF_RUN : Fld := ⟨1228, 3, 0⟩
/-- R353: [q, k] consecutive valid LCFs received with RX_OK, up to 4. -/
def V.RX_OK_RUN : Fld := ⟨1229, 3, 0⟩
/-- R361: [q, k] uncorrectable codewords of the current 1 ms window. -/
def V.UCW_COUNT : Fld := ⟨1230, 32, 0⟩
/-- R15: [field number, its indexes] 1 + the time in ps at which an event last set the W1C bit. -/
def V.RAISED : Fld := ⟨1231, 85, 0⟩
/-- R66: [q, w] 1 + the first cycle, counted from the quadrant's reset, in which engine w's unit in progress is over. -/
def V.ENG_FREE : Fld := ⟨1232, 64, 0⟩
/-- R67: [q, w] 1 + the wheel slot in which engine w's latest unit started. -/
def V.ENG_SLOT : Fld := ⟨1233, 9, 0⟩
/-- R274: [q, w] 1 + the partition of engine w's latest unit. -/
def V.ENG_PART : Fld := ⟨1234, 6, 0⟩
/-- R66: [q, w] 1 + the partition to which the slot in progress is lent, 0 while it is not lent. -/
def V.SLOT_LENT : Fld := ⟨1235, 6, 0⟩
/-- R171: [q, e, p] accumulations given to reduction engine e for a partition. -/
def V.ACC_IN : Fld := ⟨1236, 64, 0⟩
/-- R171: [q, e, p] accumulations that the engine has made. -/
def V.ACC_OUT : Fld := ⟨1237, 64, 0⟩
/-- R67: [q] the border group in progress writes the WHEEL image of the quadrant. -/
def V.BORDER_WHEEL : Fld := ⟨1238, 1, 0⟩
/-- R48: [page] 1 + the memory key of a page of the staged knit, where the tables in force at its staging put it; 0 where it cannot be read. -/
def V.KNT_PAGE : Fld := ⟨1239, 46, 0⟩
/-- R43: bytes 0 to 63 of the header of the knit being loaded. -/
def V.KNT_HDR : Fld := ⟨1240, 512, 0⟩
/-- R164: [q] slots created in the quadrant. -/
def V.SLOT_SEQ : Fld := ⟨1241, 64, 0⟩
/-- R105: [p, coll, step] packets sent of an instance whose record is gone. -/
def V.INST_SEQ : Fld := ⟨1242, 32, 0⟩
/-- R106: [p, coll, step, what] 1 + the SEQ of the first send of a packet of an instance whose record is gone. -/
def V.INST_FIRST : Fld := ⟨1243, 33, 0⟩
/-- R204: an instance is to be aborted at the end of the cycle. -/
def V.ABORT_DUE : Fld := ⟨1244, 1, 0⟩
/-- R151: [p, step] the record of the step's flags has been written. -/
def V.STEPFLG_REC : Fld := ⟨1245, 1, 0⟩
/-- R253: [p, shard, group] a PUBLISH of the shard has named the group in place of its holders. -/
def V.PUB_OVER : Fld := ⟨1246, 1, 0⟩
/-- R270: [q, p] the host has written to the operands of the running Gram command. -/
def V.GRM_TAINT : Fld := ⟨1247, 1, 0⟩
/-- R293: a round is to be aborted at the end of the cycle. -/
def V.ROUND_DUE : Fld := ⟨1248, 1, 0⟩
/-- R301: the load test that runs, or that start-up will run, is one after a repair. -/
def V.REPAIR : Fld := ⟨1249, 1, 0⟩
/-- R360: [q, port] the U for which the degrade countdown runs. -/
def V.LNK_CTDN_U : Fld := ⟨1250, 4, 0⟩
/-- R357: [q, port] frames that a port in QUIET sends before its transmitters stop. -/
def V.QUIET_FRAMES : Fld := ⟨1251, 2, 0⟩
/-- R393: [stack] HBM of the stack has been retired since the zeroize of a border move began. -/
def V.ZERO_LOST : Fld := ⟨1252, 1, 0⟩
/-- R378: [kind, stack, channel, ns] sectors found uncorrectable (kind 0) or corrected (kind 1) at that time. -/
def V.CH_ERR : Fld := ⟨1253, 64, 0⟩
/-- R378: [stack, channel] a threshold of HBM_RETIRE_THR has been met in this cycle. -/
def V.RET_DUE : Fld := ⟨1254, 1, 0⟩
/-- R396: [q, p] 1 + the channel that the data path served last for a partition. -/
def V.MOV_ROT : Fld := ⟨1255, 2, 0⟩
/-- R401: [q, p, c, word] 1 + the free value that stands for a word of the program, which the host has written since its START. -/
def V.MOV_WROTE : Fld := ⟨1256, 64, 0⟩
/-- R415: [q, p, k] what SIGNALs have added to an event counter in the cycle of EVT_SIGC. -/
def V.EVT_SIG : Fld := ⟨1257, 32, 0⟩
/-- R415: [q, p, k] 1 + that cycle. -/
def V.EVT_SIGC : Fld := ⟨1258, 64, 0⟩
/-- R415: [q, p, c] 1 + the cycle in which a data error stopped the channel. -/
def V.MOV_DATAC : Fld := ⟨1259, 64, 0⟩
/-- R418: [q] 1 + the time by which channels 1 to 3 restart. -/
def V.MOV_RESTART : Fld := ⟨1260, 64, 0⟩
/-- R429: core-clock cycles of the module, skipped cycles included. -/
def V.CLK : Fld := ⟨1261, 64, 0⟩
/-- R430: [q] cycles of the quadrant's links, skipped core-clock cycles included. -/
def V.LINK_CYC : Fld := ⟨1262, 64, 0⟩
/-- R444: 1 + the 1 ms step of the latest TRAY_STEP. -/
def V.TRAY_MS : Fld := ⟨1263, 64, 0⟩
/-- R449: [c] the press in progress is not one that enables: it began elsewhere than in STOPPING or SAFE, was refused, or has become a hold. -/
def V.CART_HELD : Fld := ⟨1264, 1, 0⟩
/-- R452: [q] 1 + the ns at which a header was last admitted from an external port of the quadrant. -/
def V.HDR_NS : Fld := ⟨1265, 64, 0⟩
/-- R492: the key K that the boot flash holds, its bytes little-endian. -/
def V.FLASH_KEY : Fld := ⟨1266, 256, 0⟩
/-- R513: the token that JTAG has shifted in, its bytes little-endian: PF0's of the same cycle is checked first. -/
def V.JTAG_TOK : Fld := ⟨1267, 1280, 0⟩
/-- R513: 1 + the bytes of that token; 0: none waits. -/
def V.JTAG_TOKN : Fld := ⟨1268, 32, 0⟩
/-- R513: [p] 1 + the time in ps of partition p's latest reset. -/
def V.PRST_PS : Fld := ⟨1269, 85, 0⟩
/-- R540, R544: [q, b] cycles of the unit in progress of the block that local bank b counts; 0: none. -/
def V.BANK_LEN : Fld := ⟨1270, 32, 0⟩
/-- R544: [q, b] the cycle from which that unit has ended. -/
def V.BANK_END : Fld := ⟨1271, 64, 0⟩
/-- R541: [q, b] the partition whose work it is. -/
def V.BANK_PART : Fld := ⟨1272, 5, 0⟩
/-- R544: [q, b] it was aborted, or its result is discarded. -/
def V.BANK_WASTE : Fld := ⟨1273, 1, 0⟩
/-- R543: [q, b, i], or [4, m, i] of module bank m, 1 + a select written in this cycle: it takes effect at the next. -/
def V.SEL_NEXT : Fld := ⟨1274, 16, 0⟩
/-- R388: the requester and quadrant of the HBM access in progress: 1 + 4 * requester + quadrant; 0 BAR2, Yofen or debug access at Q0; 62 the update engine; 63 one counted elsewhere. -/
def V.HBM_REQ : Fld := ⟨1275, 6, 0⟩
/-- R345: [q, k] the first flit slot of the packet last put on the wire. -/
def V.TX_FIRST : Fld := ⟨1276, 64, 0⟩
/-- R541: [q, k] its partition. -/
def V.TX_PART : Fld := ⟨1277, 5, 0⟩
/-- R544: [q, k] its RESEND. -/
def V.TX_RESEND : Fld := ⟨1278, 1, 0⟩
/-- R546: the global banks that the sweep in progress has still to latch. -/
def V.SWEEP_BANKS : Fld := ⟨1279, 424, 0⟩
/-- R548: the partitions whose programs the sweep serves; 0: no sweep. -/
def V.SWEEP_PROGS : Fld := ⟨1280, 32, 0⟩
/-- R546: the core-clock cycle (V.CLK) of its next latch, or of its end. -/
def V.SWEEP_AT : Fld := ⟨1281, 64, 0⟩
/-- R548: the partitions whose programs have fallen due during the sweep. -/
def V.SWEEP_WAIT : Fld := ⟨1282, 32, 0⟩
/-- R570: [field, ix ...] 1 + TIME_PS of the latest host write of the RW field: a hardware update of the same cycle is lost. -/
def V.HOST_W : Fld := ⟨1283, 85, 0⟩
/-- R570: [field, ix ...] 1 + TIME_PS of the latest commit of the RW-K field, and what it held before that in bits [63:0]. -/
def V.RWK_OLD : Fld := ⟨1284, 149, 0⟩
/-- R570, R574: 1 + the bits of the DBG_ACCESS in progress, 0 for none. -/
def V.DBGA_REQ : Fld := ⟨1285, 97, 0⟩
/-- R513: LEVEL, PART and WRITE of the grant under which it began. -/
def V.DBGA_GRANT : Fld := ⟨1286, 8, 0⟩

end Sys2Proof.Machine
end

