-- ==== Sys2Proof/Machine/State.lean ====
section
/-! DEFINITION. The state: the registers and scalar state of Sys2Proof/Machine/RegMap.lean and Vars.lean, the knit images, the memories, the packets and
buffers, the slots and instances, the engines' work, the logs, and the queue of waiting commands. -/

namespace Sys2Proof.Machine

/-- What the block puts out: the model's own record of the effects that leave the module (log entry 10). -/
inductive Out where
  /-- A posted write of a function to host memory (R526). -/
  | hostWrite (fn addr : Nat) (data : List Byte)
  /-- A message of an MSI-X vector (R529). -/
  | msix (fn vec : Nat)
  /-- An error report: 0 advisory non-fatal, 1 non-fatal, 2 fatal, 3 advisory for a poisoned TLP (R533). -/
  | aer (fn kind : Nat)
  /-- A UDP datagram on a management link (R438). -/
  | datagram (link : Nat) (body : List Nat)
  /-- A drive of a pin of the module: 7 the recovery of the tray bus (R443). -/
  | pin (name value : Nat)
  /-- A publication on the tray bus (R435). -/
  | trayBus (body : List Nat)
  /-- The instruction register and the data register that the JTAG port shows (R511). -/
  | jtag (ir value : Nat)
  /-- An MCTP answer: 0 endpoint, 1 PLDM, 0x500 and up SPDM (R507, R534, R535). -/
  | mctp (msg : Nat) (body : List Nat)
  /-- The completion of a host read: 0 successful, 1 Unsupported Request, 2 Completer Abort (R519, R522, R523). -/
  | completion (fn status : Nat) (data : List Byte)
  /-- A packet sent on an external port. -/
  | wire (q port : Nat) (p : Packet)
  /-- The flits of a packet as they stand in the frames of a port: the number of the first flit slot since the port came UP, then one flit a slot,
  the LCFs among them; a slot that no entry names holds an idle flit (R345). -/
  | flits (q port slot : Nat) (l : List (BitVec 512))
  /-- A control flit of a port: its command and argument (R346). -/
  | lcf (q port cmd arg value : Nat)
  /-- A sample record of a mirror session, put into the sample buffer of the Yofen (R337). -/
  | sample (q : Nat) (rcd : List Byte)
  deriving DecidableEq, Repr

/-- The knit images: their bytes in two banks, and the active bank of each image (absent: bank 0). -/
structure Images where
  mem : Mem
  sel : SMap Nat
  deriving DecidableEq, Repr

/-- Where a copy of a packet ends: a core output of a quadrant, the VC it takes there, and the relay state it is sent
with. -/
structure Dest where
  quad : Nat
  port : Nat
  vc : Nat
  rstate : Nat
  rplane : Nat
  deriving DecidableEq, Repr

/-- A copy linked to an output of its quadrant: the final destinations it serves and its release time (R314), whether it was
marked at its egress queue (R114), its place in the order in which copies are linked (R323), and 1 + the cycle in which its read stream started, 0 while
it waits (R313). -/
structure Copy where
  out : Nat
  dests : List Dest
  release : Nat
  cmark : Bool
  link : Nat := 0
  started : Nat := 0
  deriving DecidableEq, Repr

/-- A packet held in a quadrant's core: its input, how it entered the module (0 downlink, 1 uplink, 2 the module's own),
its hop index, its arrival in ns, its admission cycle, its bank and the copies not yet read; ready: the cycle in which each of its cells is complete
at its input (R311); uid: the number of the packet in the module, which all its copies share; sender: the partition whose tables route it (R89). -/
structure Held where
  pkt : Packet
  inPort : Nat
  origin : Nat
  hop : Nat
  arrive : Nat
  admitted : Nat
  bank : Nat
  copies : List Copy
  ready : List Nat := []
  uid : Nat := 0
  sender : Nat := 0
  since : Nat := 0
  deriving DecidableEq, Repr

/-- A packet in the reassembly buffer or in the class M egress buffer of an external output. -/
structure Reas where
  pkt : Packet
  dest : Dest
  origin : Nat
  inPort : Nat
  release : Nat
  arrive : Nat
  admitted : Nat
  bank : Nat := 0
  uid : Nat := 0
  sender : Nat := 0
  since : Nat := 0
  deriving DecidableEq, Repr

/-- Where a slot's ledger is (R153, R155): nowhere yet (its creation waits for a frame), pending admission at the
crown (R166), a slab frame, or a spill record. -/
inductive Res where
  | none
  | pending
  | frame (n : Nat)
  | record (n : Nat)
  deriving DecidableEq, Repr

/-- Slot states of R173 other than FREE. -/
inductive SlotSt where
  | opened | closing | waiting | held | aborting
  deriving DecidableEq, Repr

/-- The metadata of a slot (R156).  sent: its partial is on the reduction channel, or its PARTIAL has gone; resendIv:
the latest re-send interval in µs (R210); podSent: ns of the latest RESULT send to another rack, 0 none; born: its number in the order of creations
(R164); dset: the set of the partition's sub-table that holds its directory entry (R158); accAt: the accumulations that its engine had been given for the
partition when the slot's latest was (R171). -/
structure Slot where
  members : Nat
  st : SlotSt
  ovf : Bool
  inv : Bool
  unarmed : Bool
  crown : Bool
  podnew : Bool
  locked : Bool
  range : Nat
  w : Nat
  engine : Nat
  wasted : Nat
  lastRank : Nat
  tFirst : Nat
  tLast : Nat
  touch : Nat
  res : Res
  side : Nat
  peerParts : Nat
  resultParts : Nat
  sent : Bool
  resendIv : Nat
  podSent : Nat
  born : Nat := 0
  dset : Nat := 0
  accAt : Nat := 0
  deriving DecidableEq, Repr

/-- What waits in a partition's wait list for a slot (R164): a chunk of a contribution, a tier-0 partial of a quadrant with its ledger words and flags,
a packet from another rack, a resend of a held chunk to a rank, or the re-send of a PARTIAL. -/
inductive WaitWhat where
  | contrib (k : Packet) (chunk : Nat)
  | tier0 (q : Nat) (ls : List Int) (ovf inv : Bool)
  | packet (k : Packet)
  | resend (rank : Nat)
  | partialAgain
  | close
  | convert
  deriving DecidableEq, Repr

/-- A waiting item and the key (coll, step, chunk) it waits for. -/
structure WaitItem where
  coll : Nat
  step : Nat
  chunk : Nat
  what : WaitWhat
  deriving DecidableEq, Repr

/-- A message on a seam's reduction channel about admission (R166). -/
structure AdmMsg where
  reply : Bool
  granted : Bool
  quad : Nat
  part : Nat
  coll : Nat
  step : Nat
  chunk : Nat
  deriving DecidableEq, Repr

/-- The pager operation in progress in a quadrant (R175). -/
structure PagerOp where
  part : Nat
  coll : Nat
  step : Nat
  chunk : Nat
  deriving DecidableEq, Repr

/-- Instance states of R204. -/
inductive ISt where
  | unused | unarmed | active | ready | complete | aborted
  deriving DecidableEq, Repr

/-- An instance record (R200).  fwd: REDUCE_FORWARD released its PARTIALs; released: CONVERT_MULTICAST released its held sums; outGroup, outFmt: where
and how its results go; sums: crown slots that hold their sum; sides: side ledgers by chunk; resends, resendDue: the
result resend timer (R113); seq: its running count of packets sent (R105); seqs: the SEQ of the first send of each (R106), by opcode, chunk, part and
destination; abort: the REASON of an abort event of the cycle, 0 none (R204). -/
structure Inst where
  step : Nat
  st : ISt
  bank : Nat
  w : Nat
  armed : Bool
  deadline : Nat
  ovf : Bool
  inv : Bool
  resulted : Nat
  sums : Nat
  done : Nat
  seq : Nat
  fwd : Bool
  released : Bool
  outGroup : Nat
  outFmt : Nat
  sides : SMap Nat
  resends : Nat
  resendDue : Nat
  seqs : SMap Nat := []
  abort : Nat := 0
  deriving DecidableEq, Repr

/-- A triggered operation that has fired (R213): its word's index and contents, and its context step; posted: 1 + its SIGNAL record, while that waits
for room (R214). -/
structure TrigOp where
  widx : Nat
  word : Nat
  ctx : Nat
  counter : Nat
  finished : Bool
  aborted : Bool
  posted : Nat := 0
  deriving DecidableEq, Repr

/-- A RUP chunk handed off to the update engine (R233): its gradients as FP32 words, flags, side ledger with its
window, and whether it has been counted as an early wait (R234). -/
structure Handoff where
  coll : Nat
  step : Nat
  chunk : Nat
  grads : List Nat
  ovf : Bool
  inv : Bool
  side : Nat
  window : Nat
  waited : Bool
  deriving DecidableEq, Repr

/-- The 512 parameters of a record: master words, M and V widened to FP32. -/
structure Rec where
  w : List Nat
  m : List Nat
  v : List Nat
  deriving DecidableEq, Repr

/-- A chunk that the update engine has accepted (R234): its gradients while they are not staged, whether they are staged,
the passes done, whether it is finished and whether an APPLY has put its direction in staging, its flags, and what it added to the norm
ledger, two's complement; bad: the elements that its first pass left unchanged; prior: what its record held before that pass (R249). -/
structure UpdChunk where
  grads : List Nat
  staged : Bool
  passes : Nat
  finished : Bool
  dir : Bool
  ovf : Bool
  inv : Bool
  norm : Nat
  bad : List Nat
  prior : Rec := ⟨[], [], []⟩
  deriving DecidableEq, Repr

/-- A value of a Mitten stage: the 64 payload bytes as a number, and its two flags (R285, R284). -/
structure MVal where
  v : Nat
  ovf : Bool
  inv : Bool
  deriving DecidableEq, Repr

/-- A round buffer (R289).  inputs by contributor (kind of R292, index); rack, row, pod: the stage values once formed;
an ABORTED round's pod is its abort payload; silent: the first round of a JOINING context (R301); resendIv, carryIv: intervals of R296 and R297 in µs; due: its
patience has expired in the cycle in progress (R293). -/
structure Round where
  seq : Nat
  st : Nat
  silent : Bool
  deadline : Nat
  inputs : SMap MVal
  rack : Option MVal
  row : Option MVal
  pod : Option MVal
  resendIv : Nat
  carryIv : Nat
  due : Bool := false
  deriving DecidableEq, Repr

/-- A notice that is due a second time (R302): quadrant, port, and its packet. -/
structure NoticeCopy where
  quad : Nat
  port : Nat
  pkt : Packet
  deriving DecidableEq, Repr

/-- Where a partition byte lies. -/
structure Loc where
  quad : Nat
  ext : Nat
  stack : Nat
  dev : Nat
  deriving DecidableEq, Repr

/-- A request in the parking queue: its packet, and where the tables in force at its admission put its stored bytes (R48, R383). -/
structure Parked where
  pkt : Packet
  places : List (Loc × Nat)
  cycle : Nat
  port : Nat
  deriving DecidableEq, Repr

/-- What a detection reports (R555); hat: the Hatband writes the record. -/
structure ErrInfo where
  det : Nat
  sev : Nat
  part : Nat := 0
  quad : Nat := 4
  unit : Nat := 0
  cause : Nat := 0
  addr : Nat := 0
  info : Nat := 0
  inj : Bool := false
  hat : Bool := false
  deriving DecidableEq, Repr

/-- The state of the module.  Maps are sorted by key and hold no entry for what is absent; the key of each stands in brackets. -/
structure State where
  /-- The commands that wait, first in first out. -/
  pending : List Instr
  /-- Every register field (R564 to R569, in the chapters' tables) and every scalar of Vars.lean: [field number, indexes], cut to the
  field's width; an absent entry has the field's reset value. -/
  regs : SMap Nat
  /-- The knit images in two banks (R35, R47, R48). -/
  img : Images
  /-- HBM by stack and device address (R365, R370): hbmKey. -/
  hbm : Mem
  /-- The boot flash (R491, R492). -/
  flash : Mem
  /-- [stack, sector]: wrong bits of an injected sector, 1 corrected or 2 uncorrectable (R375, R376, R394). -/
  badSectors : SMap Nat
  /-- [quadrant, input]: packets of a staging buffer, oldest first (R312). -/
  staging : SMap (List Held)
  /-- [quadrant]: packets admitted to the banks (R309, R310). -/
  bufs : SMap (List Held)
  /-- [quadrant, output]: packets in the reassembly buffer of an external output (R322). -/
  reasm : SMap (List Reas)
  /-- [quadrant, service port]: packets delivered to a service and not yet taken. -/
  svc : SMap (List Held)
  /-- [quadrant, port]: Mitten packets that wait beside the core for an external port, in its class M egress buffer (R277). -/
  mitEgress : SMap (List Reas)
  /-- [quadrant]: requests queued at the parking service (R387). -/
  parkQ : SMap (List Parked)
  /-- [quadrant, partition, channel]: Mover ring entries that wait for the channel (R409). -/
  movCmds : SMap (List Nat)
  /-- [context, sequence parity]: round buffers (R289). -/
  mit : SMap Round
  /-- Notices that are due a second time (R302). -/
  notices : List NoticeCopy
  /-- [quadrant, partition, COLL_ID, STEP_TAG, chunk]: slots (R156, R173). -/
  slots : SMap Slot
  /-- [quadrant, frame, element]: 128-bit words of the slab that are not zero (R153). -/
  slab : SMap Nat
  /-- [quadrant, partition]: the wait list (R164). -/
  waits : SMap (List WaitItem)
  /-- Messages about admission on the reduction channels (R166). -/
  admMsgs : List AdmMsg
  /-- [quadrant]: the pager's operation in progress (R175). -/
  pagerOp : SMap PagerOp
  /-- [partition, COLL_ID, STEP_TAG mod DEPTH]: instance records (R200). -/
  insts : SMap Inst
  /-- [partition]: triggered operations that have fired, oldest first (R213). -/
  trigOps : SMap (List TrigOp)
  /-- [partition, queue]: completion records that wait for room in their queue (R194). -/
  cqWait : SMap (List Nat)
  /-- [quadrant]: records of the packet sampler (R553).  [100 + partition]: snapshot records that wait for their TELEMETRY packet (R550). -/
  psBuf : SMap (List Nat)
  /-- [partition]: chunks handed off and not yet accepted (R233, R234). -/
  handoffs : SMap (List Handoff)
  /-- [partition, shard, chunk]: chunks that the update engine has accepted (R234). -/
  upd : SMap UpdChunk
  /-- Detections of the cycle in progress whose records are written at its end, in the order of R562. -/
  errDue : List ErrInfo
  /-- The module's log of module and fatal records, newest first, at most 256 (R557). -/
  errLog : List Nat
  /-- The Hatband's log, newest first, at most 64 (R557). -/
  hatLog : List Nat
  /-- The effects put out so far, oldest first: the model's own record, no state of the spec (log entry 10). -/
  out : List Out
  /-- How many free values have been drawn: the model's own counter, no state of the spec (log entry 11). -/
  free : Nat
  deriving DecidableEq, Repr

/-- The module right after a cold reset (R478, R480): every register at its reset value, no knit loaded, memory with
nothing listed, HAT_PSTATE P3 and HAT_BOOT at step 1. -/
def State.reset : State :=
  { pending := [], regs := [], img := ⟨[], []⟩, hbm := [], flash := [], badSectors := [], staging := [], bufs := [], reasm := [],
    svc := [], mitEgress := [], parkQ := [], movCmds := [], mit := [], notices := [], slots := [], slab := [], waits := [],
    admMsgs := [], pagerOp := [], insts := [], trigOps := [], cqWait := [], psBuf := [], handoffs := [], upd := [],
    errDue := [], errLog := [], hatLog := [], out := [], free := 0 }

/-- Why a command stops: no command does, so that no name is needed.  A command whose operand names no unit of the module changes nothing
(log entry 4). -/
inductive Fault where
  deriving DecidableEq, Repr

/-- Why a command is refused. -/
inductive Refusal where
  /-- A command that the model gives no meaning.  Raised by no arm of exec; safe. -/
  | notModelled (mnemonic : String)
  deriving DecidableEq, Repr

end Sys2Proof.Machine
end

