-- ==== Sys2Proof/Machine/Ops.lean ====
section
/-! DEFINITION. The named operations over registers, knit images, memory, interrupts, counters and error records that
every command is written with. -/

namespace Sys2Proof.Machine

/-! ## Registers and scalar state -/

/-- The value of a field. -/
def State.rd (s : State) (f : Fld) (ix : List Nat) : Nat := SMap.get s.regs (f.id :: ix) f.reset

/-- True when the field is not zero. -/
def State.rdb (s : State) (f : Fld) (ix : List Nat) : Bool := s.rd f ix != 0

/-- The state with a field stored, cut to its width. -/
def State.wr (s : State) (f : Fld) (ix : List Nat) (n : Nat) : State :=
  { s with regs := SMap.set (f.id :: ix) (n % 2 ^ f.w) s.regs }

/-- A W1C bit set by an event, which wins over a clearing write of the same cycle (R15). -/
def State.raise (s : State) (f : Fld) (ix : List Nat) : State := (s.wr f ix 1).wr V.RAISED (f.id :: ix) (s.rd V.TIME_PS [] + 1)

/-- True when an event has set the bit in this cycle. -/
def State.raisedNow (s : State) (f : Fld) (ix : List Nat) : Bool := s.rd V.RAISED (f.id :: ix) == s.rd V.TIME_PS [] + 1

/-- A W1C bit to which software writes 1: cleared, unless an event has set it in this cycle (R15). -/
def State.lower (s : State) (f : Fld) (ix : List Nat) : State := if s.raisedNow f ix then s else s.wr f ix 0

/-- A field that the host writes. -/
def State.hostWr (s : State) (f : Fld) (ix : List Nat) (v : Nat) : State := (s.wr f ix v).wr V.HOST_W (f.id :: ix) (s.rd V.TIME_PS [] + 1)

/-- A hardware update of an RW field, lost in a cycle in which the host writes it (R570). -/
def State.hwWr (s : State) (f : Fld) (ix : List Nat) (v : Nat) : State :=
  if s.rd V.HOST_W (f.id :: ix) == s.rd V.TIME_PS [] + 1 then s else s.wr f ix v

/-- A commit has changed the RW-K field in this cycle. -/
def State.rwkNow (s : State) (f : Fld) (ix : List Nat) : Bool := s.rd V.RWK_OLD (f.id :: ix) / 2 ^ 64 == s.rd V.TIME_PS [] + 1

/-- An RW-K field loaded by a commit; reads of the cycle still return what it held before (R570). -/
def State.wrK (s : State) (f : Fld) (ix : List Nat) (v : Nat) : State :=
  (if s.rwkNow f ix then s else s.wr V.RWK_OLD (f.id :: ix) ((s.rd V.TIME_PS [] + 1) * 2 ^ 64 + s.rd f ix)).wr f ix v

/-- A wrapping count. -/
def State.bump (s : State) (f : Fld) (ix : List Nat) (n : Nat) : State := s.wr f ix (s.rd f ix + n)

/-- A saturating count. -/
def State.bumpSat (s : State) (f : Fld) (ix : List Nat) (n : Nat) : State :=
  s.wr f ix (min (s.rd f ix + n) (2 ^ f.w - 1))

/-- A wrapping count with its OVF bit (R542). -/
def State.bumpOvf (s : State) (f ovf : Fld) (ix : List Nat) (n : Nat) : State :=
  let v := s.rd f ix + n
  let s' := s.wr f ix v
  if v < 2 ^ f.w then s' else s'.raise ovf ix

/-- Every listed field at an index back to its reset value. -/
def State.resetFields (s : State) (fs : List Fld) (ix : List Nat) : State :=
  fs.foldl (fun t f => t.wr f ix f.reset) s

/-- Every field of a list of field numbers erased, at every index that satisfies a test: back to its reset value. -/
def State.eraseRegs (s : State) (t : Nat → List Nat → Bool) : State :=
  { s with regs := SMap.eraseIf (fun k _ => match k with | [] => false | f :: ix => t f ix) s.regs }

/-- Put out an effect. -/
def State.emit (s : State) (o : Out) : State := { s with out := s.out ++ [o] }

/-- A fresh number for a free value. -/
def State.freshen (s : State) : State := { s with free := s.free + 1 }

/-- Whole ns of the time counter. -/
def State.timeNs (s : State) : Nat := s.rd V.TIME_PS [] / 1000

/-! ## Knit images (R35, R47, R48) -/

/-- The memory key of a byte of an image bank. -/
def imgKey (bank region quad part off : Nat) : Nat :=
  (((bank * 32 + region) * 8 + quad) * 32 + part) * 2 ^ 22 + off

/-- The active bank of an image. -/
def Images.active (v : Images) (region quad part : Nat) : Nat := SMap.get v.sel [region, quad, part] 0

/-- An n-byte little-endian number of a named bank of an image. -/
def Images.leBank (v : Images) (bank region quad part off n : Nat) : Nat :=
  ofLE (Mem.readN v.mem (imgKey bank region quad part off) n)

/-- An n-byte little-endian number of the active bank of an image. -/
def Images.le (v : Images) (region quad part off n : Nat) : Nat :=
  v.leBank (v.active region quad part) region quad part off n

/-- n bytes of the active bank of an image. -/
def Images.bytes (v : Images) (region quad part off n : Nat) : List Byte :=
  Mem.readN v.mem (imgKey (v.active region quad part) region quad part off) n

/-- Bytes written to a named bank of an image. -/
def Images.put (v : Images) (bank region quad part off : Nat) (bs : List Byte) : Images :=
  { v with mem := Mem.writeN (imgKey bank region quad part off) bs v.mem }

/-- Every byte of an image bank, as (offset, byte). -/
def Images.cells (v : Images) (bank region quad part : Nat) : List (Nat × Byte) :=
  let k := imgKey bank region quad part 0
  (v.mem.filter fun c => decide (k ≤ c.1) && decide (c.1 < k + 2 ^ 22)).map fun c => (c.1 - k, c.2)

/-- An image bank with every byte zero. -/
def Images.wipe (v : Images) (bank region quad part : Nat) : Images :=
  let k := imgKey bank region quad part 0
  { v with mem := v.mem.filter fun c => !(decide (k ≤ c.1) && decide (c.1 < k + 2 ^ 22)) }

/-- One bank of an image copied into the other (R49). -/
def Images.copyBank (v : Images) (src dst region quad part : Nat) : Images :=
  (v.cells src region quad part).foldl
    (fun w c => w.put dst region quad part c.1 [c.2]) (v.wipe dst region quad part)

/-! ## Brim entries (R61) -/

/-- n bits of Brim entry p from a byte and bit on. -/
def Images.brim (v : Images) (p byte lo w : Nat) : Nat :=
  bitsOf (v.le 0x0E 4 0 (64 * p + byte) 8) lo w

def Images.brimValid (v : Images) (p : Nat) : Bool := p == 0 || v.brim p 0 0 1 == 1
def Images.brimPod (v : Images) (p : Nat) : Bool := v.brim p 0 1 1 == 1
def Images.brimCtrVis (v : Images) (p : Nat) : Bool := v.brim p 0 2 1 == 1
def Images.brimVfKnit (v : Images) (p : Nat) : Bool := v.brim p 0 3 1 == 1
def Images.brimPark (v : Images) (p : Nat) : Bool := v.brim p 0 4 1 == 1

/-- The downlinks of Brim entry p, bit n for Dn. -/
def Images.brimDown (v : Images) (p : Nat) : Nat :=
  v.le 0x0E 4 0 (64 * p + 8) 8 + v.le 0x0E 4 0 (64 * p + 16) 8 * 2 ^ 64 + v.le 0x0E 4 0 (64 * p + 24) 2 * 2 ^ 128

def Images.slotQuota (v : Images) (p q : Nat) : Nat := v.le 0x0E 4 0 (64 * p + 32 + 2 * q) 2
def Images.mitBase (v : Images) (p : Nat) : Nat := v.le 0x0E 4 0 (64 * p + 40) 2
def Images.mitCount (v : Images) (p : Nat) : Nat := v.le 0x0E 4 0 (64 * p + 42) 2
def Images.maxRanks (v : Images) (p : Nat) : Nat := v.le 0x0E 4 0 (64 * p + 44) 2

/-- The partition that owns downlink n: a valid tenant entry that sets it, else partition 0 (R62). -/
def Images.downOwner (v : Images) (n : Nat) : Nat :=
  ((List.range 32).find? fun p => p != 0 && v.brimValid p && bitOf (v.brimDown p) n).getD 0

/-- The partition that owns a Mitten context, if any (R280). -/
def Images.mitOwner (v : Images) (ctx : Nat) : Option Nat :=
  (List.range 32).find? fun p =>
    v.brimValid p && decide (v.mitBase p ≤ ctx) && decide (ctx < v.mitBase p + v.mitCount p)

/-! ## Extents and partition memory (R369, R370, R381) -/

/-- An extent of partition 0's HBMMAP image. -/
structure Extent where
  quad : Nat
  idx : Nat
  valid : Bool
  spare : Bool
  part : Nat
  stackMask : Nat
  spareIdx : Nat
  hasSpare : Bool
  base : Nat
  len : Nat
  paddr : Nat
  deriving DecidableEq, Repr

/-- Extent entry e of quadrant q. -/
def Images.extent (v : Images) (q e : Nat) : Extent :=
  let x := fun o n : Nat => v.le 0x05 q 0 (16 * e + o) n
  { quad := q, idx := e, valid := bitOf (x 0 1) 0, spare := bitOf (x 0 1) 1, part := bitsOf (x 1 1) 0 5, stackMask := bitsOf (x 2 1) 0 6,
    spareIdx := bitsOf (x 3 1) 0 6, hasSpare := bitOf (x 3 1) 6, base := x 4 2, len := x 6 2, paddr := bitsOf (x 8 4) 0 20 }

/-- Extent entry e of quadrant q as it is mapped: onto its spare when it is remapped. -/
def State.extentOf (s : State) (q e : Nat) : Extent :=
  let x := s.img.extent q e
  if s.rdb F.HBM_EXTENT_REMAPPED [q, e] then
    let y := s.img.extent q x.spareIdx
    { x with stackMask := y.stackMask, base := y.base, len := y.len }
  else x

/-- The local stacks of an extent, ascending. -/
def Extent.stackList (x : Extent) : List Nat := onesOf 6 x.stackMask

/-- The bytes of an extent. -/
def Extent.size (x : Extent) : Nat := x.stackList.length * x.len * 2 ^ 20

/-- The extents of a partition in a quadrant, ascending entry index. -/
def State.extents (s : State) (part q : Nat) : List Extent :=
  ((List.range 64).map (s.extentOf q)).filter fun x => x.valid && !x.spare && x.part == part

/-- The stack and device address of a partition address (R370). -/
def State.locate (s : State) (part paddr : Nat) : Option Loc :=
  ((List.range 4).flatMap fun q => s.extents part q).findSome? fun x =>
    let base := x.paddr * 2 ^ 20
    if base ≤ paddr && paddr < base + x.size then
      let o := paddr - base
      let k := x.stackList.length
      let page := o / 4096
      some { quad := x.quad, ext := x.idx, stack := 6 * x.quad + x.stackList.getD (page % k) 0,
             dev := x.base * 2 ^ 20 + page / k * 4096 + o % 4096 }
    else none

/-- The key of a device byte. -/
def hbmKey (stack dev : Nat) : Nat := stack * 2 ^ 40 + dev

/-- A byte range cut at 4 KiB pages: (address, length) pieces (fuel: the number of pages). -/
def pagePieces : Nat → Nat → Nat → List (Nat × Nat)
  | 0, _, _ => []
  | k + 1, a, n =>
    if n = 0 then [] else
      let m := min n (4096 - a % 4096)
      (a, m) :: pagePieces k (a + m) (n - m)

/-- The pieces of n bytes at a partition address. -/
def piecesOf (a n : Nat) : List (Nat × Nat) := pagePieces (n / 4096 + 2) a n

/-- Every piece of a partition byte range with its place; none when a byte lies in no extent. -/
def State.place (s : State) (part a n : Nat) : Option (List (Loc × Nat)) :=
  (piecesOf a n).mapM fun pc => (s.locate part pc.1).map fun l => (l, pc.2)

/-- The sectors of a placed range. -/
def sectorsOf (ps : List (Loc × Nat)) : List (List Nat) :=
  ps.flatMap fun pc =>
    (List.range ((pc.1.dev + pc.2 - 1) / 32 + 1 - pc.1.dev / 32)).map fun i => [pc.1.stack, pc.1.dev / 32 + i]

/-- How a read of partition memory ends. -/
inductive MemRes where
  | ok (data : List Byte)
  | outside
  | lost
  | uncorrectable (stack sector : Nat)
  deriving DecidableEq, Repr

/-- True when no piece lies in a LOST extent, or in one that a failed zeroize made unreadable (R68). -/
def State.placesAlive (s : State) (ps : List (Loc × Nat)) : Bool :=
  ps.all fun pc => !s.rdb F.HBM_EXTENT_LOST [pc.1.quad, pc.1.ext] && !s.rdb V.EXT_DEAD [pc.1.quad, pc.1.ext]

/-- A read of a placed range (R375, R376). -/
def State.placeRead (s : State) (ps : List (Loc × Nat)) : MemRes :=
  match (sectorsOf ps).find? fun k => SMap.get s.badSectors k 0 == 2 with
  | some k => .uncorrectable (k.getD 0 0) (k.getD 1 0)
  | none => .ok (ps.flatMap fun pc => Mem.readN s.hbm (hbmKey pc.1.stack pc.1.dev) pc.2)

/-- A read of n bytes of partition memory (R370, R375, R376, R379). -/
def State.memRead (s : State) (part a n : Nat) : MemRes :=
  match s.place part a n with
  | none => .outside
  | some ps => if !s.placesAlive ps then .lost else s.placeRead ps

/-- The data of a read, none when it fails. -/
def State.memData (s : State) (part a n : Nat) : Option (List Byte) :=
  match s.memRead part a n with
  | .ok d => some d
  | _ => none

/-- The pseudo-channels of a stack in service, ascending (R366). -/
def State.channels (s : State) (stack : Nat) : List Nat :=
  (List.range 32).filter fun u => !bitOf (s.rd F.HBM_STACK_CH_RETIRED [stack / 6, stack % 6]) (u / 2)

/-- Line of a device address in its stack, and the armed HBM_INJ injection that names it (R394). -/
def State.injHits (s : State) (stack dev n : Nat) : Bool :=
  s.rd V.INJ_KIND [] == 3 && s.rd V.INJ_QUAD [] == stack / 6
    && (let q := stack / 6
        s.rd F.HBM_INJ_STACK [q] == stack % 6
          && (let us := s.channels stack
              let line := s.rd F.HBM_INJ_LINE [q] * us.length + us.idxOf (s.rd F.HBM_INJ_PC [q])
              us.contains (s.rd F.HBM_INJ_PC [q]) && decide (dev / 128 ≤ line) && decide (line ≤ (dev + n - 1) / 128)))

/-- The injection that waited has fired (R560). -/
def State.injFired (s : State) : State :=
  ((s.wr V.INJ_KIND [] 0).wr F.ERR_INJ_STAT_ARMED [] 0).raise F.ERR_INJ_STAT_FIRED []

/-- The response to an injection: its records carry INJ (R560). -/
def State.injWith (s : State) (f : State → State) : State := (f (s.injFired.wr V.INJ_NOW [] 1)).wr V.INJ_NOW [] 0

/-- The first sector of a write from a device address that lies in the line an armed HBM_INJ injection names. -/
def State.injSector (s : State) (stack dev : Nat) : List Nat :=
  let us := s.channels stack
  let line := s.rd F.HBM_INJ_LINE [stack / 6] * us.length + us.idxOf (s.rd F.HBM_INJ_PC [stack / 6])
  [stack, max (dev / 32) (4 * line)]

/-- The injected bits of HBM_INJ flipped in a sector just written. -/
def State.injFlip (s : State) (stack dev : Nat) : State :=
  let bits := s.rd F.HBM_INJ_BITS [stack / 6]
  (if bits = 1 || bits = 2 then { s with badSectors := SMap.set (s.injSector stack dev) bits s.badSectors } else s).injFired

/-- A write of device bytes: data and check bits; a line that an armed injection names takes its flipped bits.  A write
of part of a sector is a read and a write (R375), so it leaves an uncorrectable sector uncorrectable. -/
def State.devWrite (s : State) (stack dev : Nat) (bs : List Byte) : State :=
  let s1 := { s with hbm := Mem.writeN (hbmKey stack dev) bs s.hbm }
  let secs := (List.range ((dev + bs.length - 1) / 32 + 1 - dev / 32)).map fun i => [stack, dev / 32 + i]
  let whole := fun k : List Nat => dev ≤ 32 * k.getD 1 0 && 32 * k.getD 1 0 + 32 ≤ dev + bs.length
  let clean := { s1 with badSectors := secs.foldl (fun m k =>
    if whole k || SMap.get m k 0 != 2 then SMap.erase k m else m) s1.badSectors }
  if bs.isEmpty then s
  else if s.injHits stack dev bs.length then clean.injFlip stack dev
  else clean

/-- A placed write, piece by piece. -/
def State.writePlaces (s : State) : List (Loc × Nat) → List Byte → State
  | [], _ => s
  | pc :: r, bs => (s.devWrite pc.1.stack pc.1.dev (bs.take pc.2)).writePlaces r (bs.drop pc.2)

/-! ## Regions (R372, R373) -/

/-- A region extent. -/
structure RegionExt where
  quad : Nat
  idx : Nat
  kind : Nat
  start : Nat
  bytes : Nat
  deriving DecidableEq, Repr

/-- Region entry e of quadrant q of partition p's HBMMAP image: partition 0's own table follows its extents. -/
def Images.regionExt (v : Images) (p q e : Nat) : Option RegionExt :=
  let x := fun o n : Nat => v.le 0x05 q p ((if p = 0 then 1024 else 0) + 16 * e + o) n
  if bitOf (x 0 1) 0 then some { quad := q, idx := e, kind := bitsOf (x 0 1) 1 3, start := x 4 4 * 4096, bytes := x 8 4 * 4096 } else none

/-- The region of a KIND: its extents in ascending quadrant and entry index. -/
def Images.region (v : Images) (p kind : Nat) : List RegionExt :=
  (List.range 4).flatMap fun q =>
    (List.range 64).filterMap fun e => (v.regionExt p q e).filter fun r => r.kind == kind

/-- The bytes of a region. -/
def regionSize (rs : List RegionExt) : Nat := rs.foldl (fun n r => n + r.bytes) 0

/-- The region extent and offset in it of a region offset. -/
def regionFind : List RegionExt → Nat → Option (RegionExt × Nat)
  | [], _ => none
  | r :: rs, o => if o < r.bytes then some (r, o) else regionFind rs (o - r.bytes)

/-- The partition address of n bytes at a region offset, none when they leave the region or cross a region extent. -/
def Images.regionAddr (v : Images) (p kind o n : Nat) : Option (RegionExt × Nat) :=
  match regionFind (v.region p kind) o with
  | some (r, x) => if x + n ≤ r.bytes then some (r, r.start + x) else none
  | none => none

/-- The partition addresses and lengths of the pieces of n bytes at a region offset, one for each region extent that they cross. -/
def regionCut : List RegionExt → Nat → Nat → Option (List (Nat × Nat))
  | [], _, n => if n = 0 then some [] else none
  | r :: rs, o, n =>
    if r.bytes ≤ o then regionCut rs (o - r.bytes) n
    else if o + n ≤ r.bytes then some [(r.start + o, n)]
    else (regionCut rs 0 (n - (r.bytes - o))).map fun l => (r.start + o, r.bytes - o) :: l

/-- The pieces of n bytes at an offset of a region, none when they leave it (R373). -/
def Images.regionPieces (v : Images) (p kind o n : Nat) : Option (List (Nat × Nat)) := regionCut (v.region p kind) o n

/-! ## Counters (R540 to R542, R552) -/

/-- An event counted in module bank m. -/
def State.countModule (s : State) (m code part n : Nat) : State :=
  (List.range 8).foldl (fun t i =>
    if t.rdb F.CTRM_SEL_EN [m, i] && t.rd F.CTRM_SEL_EVENT [m, i] == code
        && (!t.rdb F.CTRM_SEL_PART_EN [m, i] || t.rd F.CTRM_SEL_PART [m, i] == part) then
      t.bumpOvf F.CTRM_VAL_COUNT F.CTRM_VAL_OVF [m, i] n
    else t) s

/-- An event counted in local bank b of quadrant q. -/
def State.countLocal (s : State) (q b code part n : Nat) : State :=
  (List.range 8).foldl (fun t i =>
    if t.rdb F.CTR_SEL_EN [q, b, i] && t.rd F.CTR_SEL_EVENT [q, b, i] == code
        && (!t.rdb F.CTR_SEL_PART_EN [q, b, i] || t.rd F.CTR_SEL_PART [q, b, i] == part) then
      t.bumpOvf F.CTR_VAL_COUNT F.CTR_VAL_OVF [q, b, i] n
    else t) s

/-- An event of the legacy set (R552). -/
def State.countLegacy (s : State) (code n : Nat) : State :=
  (List.range 8).foldl (fun t i =>
    if t.rd F.CTR_LEG_SEL_EVENT [i] == code then t.bumpOvf F.CTR_LEG_VAL_COUNT F.CTR_LEG_VAL_OVF [i] n else t) s

/-- A TLP sent by the PCIe port, counted (R540). -/
def State.tlp (s : State) (o : Out) : State := (s.emit o).countModule 0 17 0 1

/-- The 64 B beats of a piece. -/
def beatsOf (pc : Loc × Nat) : Nat := (pc.1.dev + pc.2 - 1) / 64 + 1 - pc.1.dev / 64

/-- HBM accesses made by a requester of R388 in a quadrant. -/
def State.asReq (s : State) (r q : Nat) (f : State → State) : State := (f (s.wr V.HBM_REQ [] (1 + 4 * r + q))).wr V.HBM_REQ [] (s.rd V.HBM_REQ [])

/-- The requester of R388 and its quadrant, for the access in progress to a stack of quadrant q. -/
def State.reqNow (s : State) (q : Nat) : Nat × Nat :=
  let v := s.rd V.HBM_REQ []
  if v = 0 then (6, 0) else if v = 62 then (0, q) else ((v - 1) / 4, (v - 1) % 4)

/-- The core port that leads to another quadrant over its seam (R21). -/
def seamPort (q q' : Nat) : Nat := 40 + (if q' < q then q' else q' - 1)

/-- n grants of the arbiters of stack l of quadrant q to requester r of quadrant x: those of another quadrant cross the memory channel of a seam as requester 5 (R388). -/
def State.countGrant (s : State) (q l r x part n : Nat) : State :=
  if x = q then s.countLocal q (94 + l) (16 + r) part n
  else
    ((s.countLocal q (94 + l) 21 part n).countLocal x (60 + seamPort x q) 6 part n).countLocal q (60 + seamPort q x) 7 part n

/-- n beats of a stack, counted in the stack's bank (18 read, 19 written) and as grants (R540, R541). -/
def State.countBeat (s : State) (code part stack n : Nat) : State :=
  if s.rd V.HBM_REQ [] = 63 then s
  else
    let r := s.reqNow (stack / 6)
    (s.countLocal (stack / 6) (56 + stack % 6) code part n).countGrant (stack / 6) (stack % 6) r.1 r.2 part n

/-- Beats of a placed range. -/
def State.countBeats (s : State) (code part : Nat) (ps : List (Loc × Nat)) : State :=
  ps.foldl (fun t pc => if pc.2 = 0 then t else t.countBeat code part pc.1.stack (beatsOf pc)) s

/-- A sector read and written as a locked sequence of two beats (R375, R391). -/
def State.lockedBeats (s : State) (part stack : Nat) : State :=
  (s.countBeat 18 part stack 1).countLocal (stack / 6) (94 + stack % 6) 25 part 2

/-- Beats of every line of a slab frame, n for each, granted to a requester of R180: line l of frame f lies in bank (32 f + l) mod 128 (R153). -/
def State.slabBeats (s : State) (q f r part n : Nat) : State :=
  (List.range 4).foldl (fun t j => t.countLocal q (78 + f * 4 % 16 + j) (16 + r) part (8 * n)) s

/-- Beats of a byte range of the slab for requester 7. -/
def State.slabSpan (s : State) (q a n part : Nat) : State :=
  (List.range ((a + n + 255) / 256 - a / 256)).foldl (fun t i => t.countLocal q (78 + (a / 256 + i) % 128 / 8) 23 part 1) s

/-- A unit of n cycles for a partition starts in the block that local bank b counts (R540). -/
def State.bankStart (s : State) (q b p n : Nat) : State :=
  ((((s.wr V.BANK_LEN [q, b] n).wr V.BANK_END [q, b] (s.rd V.CYCLE [q] + n)).wr V.BANK_PART [q, b] p).wr V.BANK_WASTE [q, b] 0).countLocal q b 6 p 1

/-- A unit in progress for a partition is aborted, or its result will be discarded (R544). -/
def State.bankWaste (s : State) (q b p : Nat) : State :=
  if s.rdb V.BANK_LEN [q, b] && s.rd V.BANK_PART [q, b] == p then s.wr V.BANK_WASTE [q, b] 1 else s

/-- Units that have ended: counted as completed, and their cycles under RETIRED or WASTED (R540, R544). -/
def State.bankEnds (s : State) (q : Nat) : State :=
  ([43, 44, 45, 46, 47, 49, 51, 52, 53, 54] : List Nat).foldl (fun t b =>
    if t.rdb V.BANK_LEN [q, b] && decide (t.rd V.BANK_END [q, b] ≤ t.rd V.CYCLE [q]) then
      let p := t.rd V.BANK_PART [q, b]
      let n := t.rd V.BANK_LEN [q, b]
      let t := t.wr V.BANK_LEN [q, b] 0
      if t.rdb V.BANK_WASTE [q, b] then t.countLocal q b 3 p n else (t.countLocal q b 7 p 1).countLocal q b 2 p n
    else t) s

/-- A write of partition memory; none where a byte lies in no extent or in a LOST one. -/
def State.memWrite (s : State) (part a : Nat) (bs : List Byte) : Option State :=
  match s.place part a bs.length with
  | none => none
  | some ps => if s.placesAlive ps then some ((s.writePlaces ps bs).countBeats 19 part ps) else none

/-! ## Host accesses and interrupts (R526, R527, R529) -/

/-- True when a host access of a function can be sent: the link up, PERST_N released, Bus Master Enable set. -/
def State.hostOk (s : State) (f : Nat) : Bool :=
  s.rdb F.PCI_LINK_SPEED [] && !s.rdb V.PERST [] && s.rdb V.BME [f]

/-- A failed host access counted in PCI_FN_STAT (R527, R537). -/
def State.hostFail (s : State) (f : Nat) : State :=
  ((s.raise F.PCI_FN_STAT_HOSTFAIL [f]).bump F.PCI_FN_STAT_FAILS [f] 1).countModule 0 19 0 1

/-- An error reported through AER (R533): 0 advisory non-fatal, 1 non-fatal, 2 fatal, 3 advisory for a poisoned TLP. -/
def State.aer (s : State) (f kind : Nat) : State :=
  let s := (s.wr V.AER_ERR [f] (setBit (s.rd V.AER_ERR [f]) kind)).emit (.aer f kind)
  if kind = 0 || kind = 3 then s.wr V.AER_ADV [f] 1 else s

/-- The MSI-X table size of a function (R529). -/
def msixSize (f : Nat) : Nat := if f = 0 then 512 else 48

/-- A message due on a vector of a function: sent, held by its mask, or not sent where host accesses fail. -/
def State.msix (s : State) (f v : Nat) : State :=
  if s.rdb V.MSIX_MASK [f, v] then s.wr V.MSIX_PEND [f, v] 1
  else if s.hostOk f then s.tlp (.msix f v) else s

/-- A message due on the VECTOR field of a register (R529). -/
def State.vector (s : State) (f v : Nat) : State :=
  if v < 2 || msixSize f ≤ v then s.raise F.PCI_FN_STAT_BADVEC [f] else s.msix f v

/-- A record written to a ring in host memory or in HBM; none when the record is lost. -/
def State.ringWrite (s : State) (f base : Nat) (host : Bool) (log2 prod : Nat) (bs : List Byte) : Option State :=
  let a := base + prod % 2 ^ log2 * bs.length
  if host then
    if s.hostOk f then some (s.tlp (.hostWrite f a bs)) else none
  else s.memWrite f a bs

/-! ## Error records (R555 to R557) -/

/-- The 64 B error record as a number, byte 0 in bits [7:0]. -/
def errRecord (time seq : Nat) (e : ErrInfo) : Nat :=
  time % 2 ^ 64 + e.det % 256 * 2 ^ 64 + e.sev % 4 * 2 ^ 72 + b2n e.inj * 2 ^ 74 + b2n e.hat * 2 ^ 75
    + e.part % 32 * 2 ^ 80 + e.quad % 8 * 2 ^ 88 + seq % 2 ^ 32 * 2 ^ 96 + e.unit % 2 ^ 16 * 2 ^ 128
    + e.cause % 2 ^ 16 * 2 ^ 144 + e.addr % 2 ^ 64 * 2 ^ 192 + e.info % 2 ^ 256 * 2 ^ 256

/-- The record as ring 0 shows it at D0: ADDR and INFO zero for a tenant's record (R556). -/
def errRedact (r : Nat) : Nat := r % 2 ^ 192

/-- Vector 1 of a function, at most once per µs (R557). -/
def State.raiseVec1 (s : State) (f : Nat) : State :=
  if s.rd V.VEC1_TIME [f] ≤ s.timeNs then
    (((s.msix f 1).wr V.VEC1_TIME [f] (s.timeNs + 1000)).wr V.VEC1_DUE [f] 0)
  else s.wr V.VEC1_DUE [f] 1

/-- The GLB_SUMMARY field of a severity. -/
def summaryFld : Nat → Fld
  | 0 => F.GLB_SUMMARY_CORRECTED
  | 1 => F.GLB_SUMMARY_CONTAINED
  | 2 => F.GLB_SUMMARY_MODULE
  | _ => F.GLB_SUMMARY_FATAL

/-- A record directed to error ring f: written, lost, or not written because the ring is off (R557, R571). -/
def State.errToRing (s : State) (f sev rcd : Nat) : State :=
  let s := s.raise (summaryFld sev) [f]
  if s.rdb F.ERR_RING_CTL_EN [f] then
    let log2 := s.rd F.ERR_RING_CTL_LOG2SIZE [f]
    let prod := s.rd F.ERR_RING_PTR_PROD [f]
    let lost := (s.bumpOvf F.ERR_RING_LOST_COUNT F.ERR_RING_LOST_OVF [f] 1).countModule 2 17 0 1
    if 2 ^ log2 ≤ (prod + 2 ^ 32 - s.rd F.ERR_RING_PTR_CONS [f]) % 2 ^ 32 then lost
    else match s.ringWrite f (s.rd F.ERR_RING_BASE_ADDR [f] * 32) (s.rdb F.ERR_RING_CTL_HOST [f]) log2 prod
          (leBytes 64 rcd) with
      | some t => ((t.bump F.ERR_RING_PTR_PROD [f] 1).countModule 2 16 0 1).raiseVec1 f
      | none => if s.rdb F.ERR_RING_CTL_HOST [f] then lost.hostFail f else lost
  else s

/-- The rings that a record goes to: ring 0, and ring p or every enabled ring (R556). -/
def State.errRings (s : State) (e : ErrInfo) : List Nat :=
  if e.sev < 2 then (if e.part = 0 then [0] else [0, e.part])
  else 0 :: ((List.range 32).filter fun f => f != 0 && s.rdb F.ERR_RING_CTL_EN [f])

/-- True while another corrected record of the detector may be written in this second (R557). -/
def State.ceAllowed (s : State) (det quad : Nat) : Bool :=
  s.rd V.CE_SEC [det, quad] != s.timeNs / 10 ^ 9 || s.rd V.CE_COUNT [det, quad] < s.rd F.ERR_CTL_CE_LIMIT []

/-- One corrected record counted against the limit. -/
def State.ceNote (s : State) (det quad : Nat) : State :=
  if s.rd V.CE_SEC [det, quad] != s.timeNs / 10 ^ 9 then
    (s.wr V.CE_SEC [det, quad] (s.timeNs / 10 ^ 9)).wr V.CE_COUNT [det, quad] 1
  else s.bump V.CE_COUNT [det, quad] 1

/-- A telemetry datagram of a KIND on both management links: the header of R438 and its items.  KIND 1 carries the
owner's tray sequence, every other KIND the sender's own count. -/
def State.sendGram (s : State) (kind : Nat) (items : List Byte) : State :=
  let seq := if kind = 1 then s.rd V.TRAY_SEQ [] else s.rd V.MOD_SEQ []
  let h := leBytes 4 0x594D4C54 ++ leBytes 1 kind
    ++ leBytes 1 (s.rd F.TRY_OWN_SLOT [] + 2 * b2n (s.rd F.TRY_OWN_ROLE [] == 2)) ++ leBytes 2 items.length
    ++ leBytes 8 seq ++ leBytes 8 s.timeNs ++ leBytes 4 (s.img.le 0x0B 4 0 428 4)
  let d := (h ++ leBytes 4 (crc32c (h ++ items)) ++ items).map fun b : Byte => b.toNat
  let s := (s.emit (.datagram 0 d)).emit (.datagram 1 d)
  if kind = 1 then s else s.bump V.MOD_SEQ [] 1

/-- A record written to every destination of its severity (R556). -/
def State.errDeliver (s : State) (e : ErrInfo) (rcd : Nat) : State :=
  let s1 := (s.errRings e).foldl (fun t f =>
    t.errToRing f e.sev (if f = 0 && e.part != 0 && t.rd F.DBG_LEVEL_LEVEL [] == 0 then errRedact rcd else rcd)) s
  let s2 := if e.sev < 2 then s1
    else
      let s := ({ s1 with errLog := (rcd :: s1.errLog).take 256 }).sendGram 3 (leBytes 64 rcd)
      if e.det = 0x17 then s else s.aer 0 (if e.sev = 3 then 2 else 1)
  if e.sev = 3 then { s2 with hatLog := (rcd :: s2.hatLog).take 64 } else s2

/-- The record of a detection, unless the corrected-record limit is reached; one that the Hatband writes goes to its log (R557). -/
def State.errWrite (s : State) (e : ErrInfo) : State :=
  if e.sev = 0 && !s.ceAllowed e.det e.quad then s
  else
    let s := if e.sev = 0 then s.ceNote e.det e.quad else s
    let rcd := errRecord s.timeNs (s.rd V.ERR_SEQ []) e
    let s := s.bump V.ERR_SEQ [] 1
    if e.hat then { s with hatLog := (rcd :: s.hatLog).take 64 } else s.errDeliver e rcd

/-- A detection put among others of its cycle: ascending QUAD, then ascending DETECTOR (R562). -/
def errInsert (e : ErrInfo) : List ErrInfo → List ErrInfo
  | [] => [e]
  | x :: l => if e.quad < x.quad ∨ (e.quad = x.quad ∧ e.det < x.det) then e :: x :: l else x :: errInsert e l

/-- The records of the cycle's detections written. -/
def State.errFlush (s : State) : State := s.errDue.foldl State.errWrite { s with errDue := [] }

/-- A detection: counted in ERR_DET; its record is written at the end of the cycle. -/
def State.err (s : State) (e0 : ErrInfo) : State :=
  let e := { e0 with inj := e0.inj || s.rdb V.INJ_NOW [] }
  let s := s.bumpOvf F.ERR_DET_COUNT F.ERR_DET_OVF [e.det] 1
  let s := if 1 ≤ e.sev && s.rdb F.HAT_LOADTEST_ACTIVE [] then s.wr V.LT_BAD [] 1 else s
  { s with errDue := errInsert e s.errDue }

/-! ## What a read of HBM reports (R375, R376) -/

/-- The pseudo-channel of a line of a stack (R366): the n-th in service, a retired channel left out. -/
def State.lineChannel (s : State) (stack line : Nat) : Nat :=
  (s.channels stack).getD (line % (s.channels stack).length) 0

/-- The window of a channel condition of R378 in ns: 24 h for uncorrectable sectors (kind 0), 1 h for corrected errors (kind 1). -/
def errWindow (kind : Nat) : Nat := (if kind = 0 then 24 else 1) * 3600 * 10 ^ 9

/-- An uncorrectable (kind 0) or corrected (kind 1) sector counted against its channel: where HBM_RETIRE_THR is met within the window, the channel is retired at the
end of the cycle (R378). -/
def State.channelNote (s : State) (kind stack line : Nat) : State :=
  let ch := s.lineChannel stack line / 2
  let mine := fun k : List Nat => k.take 4 == [V.CH_ERR.id, kind, stack, ch]
  let s := { s with regs := SMap.eraseIf (fun k _ => mine k && decide (k.getD 4 0 + errWindow kind ≤ s.timeNs)) s.regs }
  let s := s.bump V.CH_ERR [kind, stack, ch, s.timeNs] 1
  let n : Nat := ((s.regs.filter fun kv => mine kv.1).map fun kv => kv.2).foldl (· + ·) 0
  let met := if kind = 0 then decide (s.rd F.HBM_RETIRE_THR_CH_UCE [stack / 6] ≤ n) else decide (s.rd F.HBM_RETIRE_THR_CH_CE [stack / 6] < n)
  if met then s.wr V.RET_DUE [stack, ch] 1 else s

/-- An uncorrectable sector found by a read for a partition: counted, logged in HBM_ERR_LOG, one contained record.  Bad
sectors come from injections only, so the record has INJ. -/
def State.noteSector (s : State) (det part stack sector : Nat) : State :=
  let q := stack / 6
  let l := stack % 6
  let line := sector / 4
  let s := (s.bumpOvf F.HBM_ECC_UCE F.HBM_ECC_OVF [q, l] 1).countLocal q (56 + l) 17 part 1
  let s := if s.rdb F.HBM_ERR_LOG_VALID [q] then s.wr F.HBM_ERR_LOG_MORE [q] 1 else s.raise F.HBM_ERR_LOG_VALID [q]
  let s := (((s.wr F.HBM_ERR_LOG_STACK [q] l).wr F.HBM_ERR_LOG_PC [q] (s.lineChannel stack line)).wr
    F.HBM_ERR_LOG_PART [q] part).wr F.HBM_ERR_LOG_LINE [q] line
  (s.channelNote 0 stack line).err
    { det := det, sev := 1, part := part, quad := q, unit := l, addr := line, inj := true,
      info := l + s.lineChannel stack line * 2 ^ 3 + part * 2 ^ 8 + 2 ^ 13 + line * 2 ^ 16 }

/-- A corrected sector: counted, and at most one corrected record per stack and second. -/
def State.noteCorrected (s : State) (part stack sector : Nat) : State :=
  let q := stack / 6
  let l := stack % 6
  let s := ((s.bumpOvf F.HBM_ECC_CE F.HBM_ECC_OVF [q, l] 1).countLocal q (56 + l) 16 part 1).channelNote 1 stack (sector / 4)
  let sec := s.timeNs / 10 ^ 9 + 1
  if s.rd V.HBM_CE_SEC [stack] = sec then s
  else (s.wr V.HBM_CE_SEC [stack] sec).err
    { det := 0x09, sev := 0, part := part, quad := q, unit := l, addr := sector / 4, inj := true }

/-- What a read of one sector reports under the reader's detector. -/
def State.noteOne (s : State) (det part : Nat) (k : List Nat) : State :=
  if SMap.get s.badSectors k 0 = 2 then s.noteSector det part (k.getD 0 0) (k.getD 1 0)
  else if SMap.get s.badSectors k 0 = 1 then s.noteCorrected part (k.getD 0 0) (k.getD 1 0)
  else s

/-- What a read of a placed range leaves behind: its beats, and its corrected and uncorrectable sectors under the reader's detector. -/
def State.notePlaces (s : State) (det part : Nat) (ps : List (Loc × Nat)) : State :=
  (sectorsOf ps).foldl (fun t k => t.noteOne det part k) (s.countBeats 18 part ps)

/-- Sectors that a placed write covers only in part: each is read and written (R375). -/
def partSectors (ps : List (Loc × Nat)) : List (List Nat) :=
  ps.flatMap fun pc => (sectorsOf [pc]).filter fun k =>
    !(decide (pc.1.dev ≤ 32 * k.getD 1 0) && decide (32 * k.getD 1 0 + 32 ≤ pc.1.dev + pc.2))

/-- What the reads of a write of parts of sectors report. -/
def State.noteMerge (s : State) (part a n : Nat) : State :=
  match s.place part a n with
  | some ps => if s.placesAlive ps then (partSectors ps).foldl (fun t k => (t.noteOne 0x09 part k).lockedBeats part (k.getD 0 0)) s else s
  | none => s

/-- What a read of n bytes of partition memory leaves behind. -/
def State.noteRead (s : State) (det part a n : Nat) : State :=
  match s.place part a n with
  | none => s
  | some ps => if !s.placesAlive ps then s else s.notePlaces det part ps

/-- True when a read meets an uncorrectable sector. -/
def State.readBad (s : State) (part a n : Nat) : Bool :=
  match s.memRead part a n with
  | .uncorrectable _ _ => true
  | _ => false

/-- True when an extent holds bytes of a range of partition memory. -/
def Extent.meets (x : Extent) (part a n : Nat) : Bool :=
  x.valid && !x.spare && x.part == part && decide (a < x.paddr * 2 ^ 20 + x.size) && decide (x.paddr * 2 ^ 20 < a + n)

/-- True when a byte range of a partition touches an extent that has a flag. -/
def State.rangeHas (s : State) (flag : Fld) (part a n : Nat) : Bool :=
  (List.range 4).any fun q => (List.range 64).any fun e => s.rdb flag [q, e] && (s.extentOf q e).meets part a n

/-- True when a byte range of a partition touches a LOST extent. -/
def State.rangeLost (s : State) (part a n : Nat) : Bool := s.rangeHas F.HBM_EXTENT_LOST part a n

/-- n bytes at an offset of a region, none where they leave it or cannot be read. -/
def State.regionData (s : State) (p kind off n : Nat) : Option (List Byte) := do
  let ps ← s.img.regionPieces p kind off n
  return (← ps.mapM fun x => s.memData p x.1 x.2).flatten

/-- What a read of a region reports (R376). -/
def State.regionNote (s : State) (det p kind off n : Nat) : State :=
  match s.img.regionPieces p kind off n with
  | some ps => ps.foldl (fun t x => t.noteRead det p x.1 x.2) s
  | none => s

/-- Pieces written in order, none where one lies in a LOST extent. -/
def State.piecesWrite (s : State) (p : Nat) : List (Nat × Nat) → List Byte → Option State
  | [], _ => some s
  | x :: xs, bs => match s.memWrite p x.1 (bs.take x.2) with
    | some t => t.piecesWrite p xs (bs.drop x.2)
    | none => none

/-- Bytes written at an offset of a region; none where they leave it or lie in a LOST extent. -/
def State.regionWrite (s : State) (p kind off : Nat) (bs : List Byte) : Option State :=
  match s.img.regionPieces p kind off bs.length with
  | some ps => s.piecesWrite p ps bs
  | none => none

/-- True when n bytes at an offset of a region touch a LOST extent. -/
def State.regionLost (s : State) (p kind off n : Nat) : Bool :=
  match s.img.regionPieces p kind off n with
  | some ps => ps.any fun x => s.rangeLost p x.1 x.2
  | none => false

/-- True when an injection at detector 0x0D is armed for engine e of a quadrant (1 update, 2 Gram). -/
def State.injEngine (s : State) (q e : Nat) : Bool :=
  s.rd V.INJ_KIND [] == 1 && s.rd V.INJ_DET [] == 0x0D && s.rd V.INJ_QUAD [] == q && s.rd V.INJ_TARGET [] % 4 == e

/-- True when an ERR_INJ injection at a detector is armed for a quadrant. -/
def State.injDet (s : State) (det q : Nat) : Bool :=
  s.rd V.INJ_KIND [] == 1 && s.rd V.INJ_DET [] == det && s.rd V.INJ_QUAD [] == q

/-- HBM, flash and the knit images are in their canonical form. -/
def State.memWf (s : State) : Bool := s.hbm.wf && s.flash.wf && s.img.mem.wf

end Sys2Proof.Machine
end

