-- ==== Sys2Proof/Machine/Route.lean ====
section
/-! DEFINITION. Routing of packets: rank maps, route tables, groups, relay, discards and NACKs
(R84 to R117 of spec/03_woyth_transport.md, R198 and R209 of spec/06_collective_programs.md). -/

namespace Sys2Proof.Machine

/-! ## This module -/

def State.myX (s : State) : Nat := s.rd F.XPT_POD_X []
def State.myY (s : State) : Nat := s.rd F.XPT_POD_Y []
def State.myPlane (s : State) : Nat := s.rd F.XPT_POD_PLANE []

/-- The stamp bank of a partition (R99). -/
def State.stamp (s : State) (p : Nat) : Nat := s.rd F.XPT_EPOCH_STAMP [p]

/-- True when a bank of a partition holds an image that is not retired (R103). -/
def State.bankValid (s : State) (p bank : Nat) : Bool :=
  if bank = 0 then s.rdb F.XPT_EPOCH_VALID_A [p] else s.rdb F.XPT_EPOCH_VALID_B [p]

/-- The SRC address of a packet this quadrant originates (R84). -/
def State.ownAddr (s : State) (q : Nat) : Nat := switchAddr s.myX s.myY q

/-! ## Rank and route entries (R85, R92) -/

/-- A rank map entry. -/
structure RankEntry where
  acc : Nat
  x : Nat
  y : Nat
  bvalid : Bool
  valid : Bool
  buddy : Nat
  deriving DecidableEq, Repr

/-- Entry n of a partition's RANK image in a bank. -/
def Images.rankRaw (v : Images) (bank p n : Nat) : RankEntry :=
  let e := v.leBank bank 0x06 4 p (4 * n) 4
  { acc := bitsOf e 0 8, x := bitsOf e 8 3, y := bitsOf e 11 3, bvalid := bitOf e 14, valid := bitOf e 15,
    buddy := bitsOf e 16 12 }

/-- The valid entry of a rank below MAX_RANKS. -/
def Images.rankEntry (v : Images) (bank p n : Nat) : Option RankEntry :=
  let e := v.rankRaw bank p n
  if n < v.maxRanks p && e.valid then some e else none

/-- The route entry toward a rack, in a quadrant and bank. -/
def Images.routeEntry (v : Images) (bank q p x y : Nat) : Nat := v.leBank bank 0x07 q p (8 * (5 * y + x)) 8

/-- peer_index of R91. -/
def peerIndex (own other : Nat) : Nat := if other < own then other else other - 1

/-- The candidate uplinks toward a rack with the route-entry bit that enables each (R91, R92). -/
def candidates (x0 y0 x1 y1 : Nat) : List (Nat × Nat) :=
  let row := [(2 * peerIndex x0 x1, 1), (2 * peerIndex x0 x1 + 1, 2)]
  let col := [(8 + 2 * peerIndex y0 y1, 3), (9 + 2 * peerIndex y0 y1, 4)]
  if y1 = y0 then row else if x1 = x0 then col else row ++ col

/-! ## Depths (R325) -/

/-- The next cycle after t in which the n-th of 48 rotating connections of unit i meets unit j: (i + t) mod 48 = j (R310). -/
def nextMeet (i j t : Nat) : Nat := t + 1 + (j + 48 - (i + t + 1) % 48) % 48

/-- The cycles in which the cells of a packet are written to its bank: each at the first connection after the cell is complete at input i, its
header is admitted and the cell before it is written (R311). -/
def writeFrom (i b : Nat) : Nat → List Nat → List Nat
  | _, [] => []
  | t, c :: r => let w := nextMeet i b (max t c); w :: writeFrom i b w r

/-- The cycles in which the cells of a held packet are written. -/
def Held.written (h : Held) : List Nat := writeFrom h.inPort h.bank h.admitted h.ready

/-- The cycles in which a read stream that starts in cycle t reads cells written in the given cycles, from bank b to output o: one cell a rotation, each
once it has been written (R310, R313). -/
def readFrom (b o : Nat) : Nat → List Nat → List Nat
  | _, [] => []
  | t, w :: r => let c := nextMeet b o (max t w); c :: readFrom b o c r

/-- The cycles in which a copy's stream reads its cells, none while the copy waits. -/
def Held.reads (h : Held) (c : Copy) : List Nat :=
  if c.started = 0 then [] else readFrom h.bank c.out (c.started - 2) h.written

/-- Cells of a held packet that a copy has not read before cycle t. -/
def Held.unread (h : Held) (c : Copy) (t : Nat) : Nat :=
  pkCells h.pkt - ((h.reads c).filter fun r => decide (r < t)).length

/-- Cells of a held packet in use in cycle t: those that some copy has not read before it (R313, R319, R327). -/
def Held.cells (h : Held) (t : Nat) : Nat := (h.copies.map fun c => h.unread c t).foldl max 0

/-- Cells of a held packet's copies linked to an output and not yet sent from it, for a class; at an external output a copy whose stream has started counts in
reassembly. -/
def heldDepth (t o c : Nat) (h : Held) : Nat :=
  ((h.copies.filter fun k => k.out == o && (k.started == 0 || decide (40 ≤ o)) && (k.dests.any fun d => clsIx (vcCls d.vc) == c)).map
    fun k => h.unread k t).foldl (· + ·) 0

/-- The depth of queue (o, c): cells linked to the output and not yet sent, reassembly and the class M egress buffer included. -/
def State.depth (s : State) (q o c : Nat) : Nat :=
  let out := fun (l : List Reas) =>
    ((l.filter fun r => clsIx (vcCls r.dest.vc) == c).map fun r => pkCells r.pkt).foldl (· + ·) 0
  ((SMap.get s.bufs [q] []).map (heldDepth (s.rd V.CYCLE [q]) o c)).foldl (· + ·) 0
    + out (SMap.get s.reasm [q, o] []) + out (SMap.get s.mitEgress [q, o] [])

/-- The depth of an uplink's queue as quadrant q knows it: its own at once, another quadrant's as last broadcast. -/
def State.uplinkDepth (s : State) (q u c : Nat) : Nat :=
  if u / 4 = q then s.depth q (36 + u % 4) c else s.rd V.UPDEPTH [q, u, c]

/-! ## Ports -/

/-- True when a downlink is up: its core port admits and is routed to. -/
def State.downUp (s : State) (n : Nat) : Bool := s.rdb F.COR_PORT_OPEN [n / 36, n % 36]

/-- True when a downlink is neither down nor withdrawn (R96). -/
def State.downOpen (s : State) (n : Nat) : Bool := s.downUp n && !s.rdb V.WITHDRAWN [n / 36, n % 36]

/-- True while the seam between two quadrants is not declared down (R19). -/
def State.seamOk (s : State) (a b : Nat) : Bool := a == b || !s.rdb V.SEAM_DOWN [min a b, max a b]

/-- The quadrant at the far end of a seam port. -/
def seamQuad (q port : Nat) : Nat := if port - 40 < q then port - 40 else port - 39

/-! ## Where a packet goes -/

/-- Discard causes, by the index of R108. -/
inductive Cause where
  | hcrc | stomp | age | e2e | port | spoof | format | noRoute | unreachable | epoch | relay | bDrop
  deriving DecidableEq, Repr

def causeIx : Cause → Nat
  | .hcrc => 0 | .stomp => 1 | .age => 2 | .e2e => 3 | .port => 4 | .spoof => 5 | .format => 6 | .noRoute => 7
  | .unreachable => 8 | .epoch => 9 | .relay => 10 | .bDrop => 11

/-- The NACK code of a cause (R108, R110). -/
def causeNack : Cause → Option Nat
  | .stomp => some 1
  | .e2e => some 1
  | .noRoute => some 3
  | .unreachable => some 4
  | .relay => some 4
  | .epoch => some 6
  | _ => none

/-- The outcome of routing. -/
inductive Route where
  | goal (ds : List Dest)
  | drop (c : Cause)
  deriving DecidableEq, Repr

/-- Routing context of a packet: the quadrant that resolves it, how it entered, its hop index. -/
structure RCtx where
  quad : Nat
  origin : Nat
  hop : Nat
  deriving DecidableEq, Repr

/-- Delivery on the downlink of an entry in the own rack, or its relay through the buddy, whose downlink must be up (R88, R94, R96, R98). -/
def State.toDownlink (s : State) (c : RCtx) (p bank : Nat) (cls : Cls) (rstate rplane : Nat) (e : RankEntry) : Route :=
  if s.img.downOwner e.acc != p || 144 ≤ e.acc then .drop .noRoute
  else if s.downOpen e.acc then .goal [⟨e.acc / 36, e.acc % 36, vcAt cls c.hop, rstate, rplane⟩]
  else if c.origin == 1 || rstate == 2 || !e.bvalid then .drop .unreachable
  else match s.img.rankEntry bank p e.buddy with
    | none => .drop .unreachable
    | some b =>
      if s.downUp b.acc && s.img.downOwner b.acc == p then
        .goal [⟨b.acc / 36, b.acc % 36, vcAt cls c.hop, 1, s.myPlane⟩]
      else .drop .unreachable

/-- The enabled candidate with the shallowest queue, ties to the lowest uplink (R93). -/
def State.pickUplink (s : State) (q c : Nat) (us : List Nat) : Option Nat :=
  us.foldl (fun best u =>
    match best with
    | none => some u
    | some b => if s.uplinkDepth q u c < s.uplinkDepth q b c || (s.uplinkDepth q u c == s.uplinkDepth q b c && decide (u < b))
                then some u else some b) none

/-- Pod routing toward another rack (R91 to R94).  DESIGN CHOICE (log entry 69): a packet that came in on an uplink with hop index h2 and is bound for
another rack, and one bound for a rack coordinate above 4, find no route, since R81 gives them no hop index and R91 no candidate. -/
def State.toRack (s : State) (c : RCtx) (p bank : Nat) (cls : Cls) (rstate rplane x y : Nat) : Route :=
  let e := s.img.routeEntry bank c.quad p x y
  if !s.img.brimPod p || !bitOf e 0 || (c.origin == 1 && decide (2 ≤ c.hop)) || decide (4 < x) || decide (4 < y) then .drop .noRoute
  else
    let us := ((candidates s.myX s.myY x y).filter fun u =>
      bitOf e u.2 && s.rdb F.COR_PORT_OPEN [u.1 / 4, 36 + u.1 % 4]).map Prod.fst
    match s.pickUplink c.quad (clsIx cls) us with
    | none => .drop .noRoute
    | some u => .goal [⟨u / 4, 36 + u % 4, vcAt cls (if c.origin = 1 then c.hop + 1 else 1), rstate, rplane⟩]

/-- The service port of an opcode, and the quadrant of this module that serves it (R21, R161, R183 of the chapters that
own the service).  k is the packet, q the quadrant it is in. -/
def State.servicePort (s : State) (q : Nat) (k : Packet) : Option (Nat × Nat) :=
  let p := pkPart k
  match pkOpcode k with
  | 0x12 => some (q, 45)
  | 0x13 => some (q, 45)
  | 0x14 => some (bitsOf (pkAddr k) 11 2, 45)
  | 0x30 => (s.img.rankEntry (pkEpoch k) p (dstRank (pkSrc k))).map fun e => (e.acc / 36 % 4, 43)
  | 0x31 => some ((p + pkColl k + pkChunk k) % 4, 43)
  | 0x32 => some ((p + pkColl k) % 4, 45)
  | 0x33 => (s.img.rankEntry (pkEpoch k) p (dstRank (pkSrc k))).map fun e => (e.acc / 36 % 4, 45)
  | 0x40 => some ((p + pkColl k + pkChunk k) % 4, 43)
  | 0x41 => some ((p + pkColl k + pkChunk k) % 4, 43)
  | 0x42 => some (q, 43)
  | 0x50 => some (pkF k 128 16 % 4, 46)
  | 0x51 => some (pkF k 128 16 % 4, 46)
  | _ => none

/-! ## Groups (R198, R89) -/

/-- A member set of a partition's COLL image, as a 4,096-bit number. -/
def Images.memberSet (v : Images) (p set : Nat) : Nat := v.le 0x08 4 p (0x50000 + 512 * set) 512

/-- Group g of a partition: below 2,048 from its COLL image, from 2,048 on from its OPT image (holder groups): receiving
partition, member set, POD. -/
structure Group where
  valid : Bool
  pod : Bool
  rx : Nat
  set : Nat
  deriving DecidableEq, Repr

def groupOfBits (e : Nat) : Group := ⟨bitOf e 0, bitOf e 1, bitsOf e 2 5, bitsOf e 8 8⟩

def Images.group (v : Images) (p g : Nat) : Group :=
  if g < 2048 then groupOfBits (v.le 0x08 4 p (0x70000 + 16 * g) 2)
  else groupOfBits (v.le 0x09 4 p (0x61000 + 16 * (g - 2048)) 2)

/-- True when the receiving partition of a group accepts packets of p (R198). -/
def Images.groupAccepts (v : Images) (p : Nat) (g : Group) : Bool :=
  g.valid && (g.rx == p || bitOf (v.le 0x08 4 g.rx 0 4) p)

/-- The ranks of a group. -/
def Images.groupRanks (v : Images) (g : Group) : List Nat := onesOf 4096 (v.memberSet g.rx g.set)

/-- True when the entry of a collective id spans racks (POD of R197). -/
def Images.collPod (v : Images) (p coll : Nat) : Bool := coll < 4096 && bitOf (v.le 0x08 4 p (0x1000 + 64 * coll) 4) 28

/-- The other racks that hold members of a group of PART rx. -/
def State.groupRacks (s : State) (g : Group) (rx bank : Nat) : List (Nat × Nat) :=
  (((s.img.groupRanks g).filterMap (s.img.rankEntry bank rx)).filterMap fun e =>
    if e.x == s.myX && e.y == s.myY then none else some (e.x, e.y)).eraseDups

/-- The other racks that a packet of a collective to a POD group is to reach: none where the collective itself spans racks, since each of these
delivers to its own members (R198, R208; DEDUCED, log entry 76). -/
def State.podRacksOf (s : State) (p coll g rx bank : Nat) : List (Nat × Nat) :=
  let gr := s.img.group p g
  if !gr.pod || s.img.collPod p coll then [] else s.groupRacks gr rx bank

/-- The collective that a packet names: only classes U and D name one. -/
def collOfPk (k : Packet) : Nat := if vcCls (pkVc k) = .d || vcCls (pkVc k) = .u then pkColl k else 4096

/-- The racks that this module sends a packet to a POD group on to, as R208 goes: the rack it starts from to the racks of its column through which members
are reached and to those of its row, a rack that has it from its own column to those of its row. -/
def State.podHops (s : State) (c : RCtx) (p : Nat) (k : Packet) : List (Nat × Nat) :=
  let g := dstRank (pkDst k)
  let rs := if c.origin = 2 then s.podRacksOf p (collOfPk k) g (pkPart k) (pkEpoch k)
    else if (s.img.group p g).pod then s.groupRacks (s.img.group p g) (pkPart k) (pkEpoch k) else []
  let row := rs.filter fun r => r.2 == s.myY
  if c.origin = 2 then row ++ ((rs.filter fun r => r.2 != s.myY).map fun r => (s.myX, r.2)).eraseDups
  else if c.origin = 1 && pkSrcType k == 1 && dstX (pkSrc k) == s.myX then row
  else []

/-- How each member of the own rack of a group is reached, and each rack that the packet goes on to (R88, R89, R198, R209). -/
def State.groupRoutes (s : State) (c : RCtx) (p : Nat) (k : Packet) : List Route :=
  let rx := pkPart k
  let bank := pkEpoch k
  let cls := vcCls (pkVc k)
  ((s.img.groupRanks (s.img.group p (dstRank (pkDst k)))).filterMap fun r =>
    match s.img.rankEntry bank rx r with
    | some e => if e.x == s.myX && e.y == s.myY then some (s.toDownlink c rx bank cls 0 0 e) else none
    | none => none)
  ++ (s.podHops c p k).map fun r => s.toRack c rx bank cls 0 0 r.1 r.2

/-- Delivery to a group (R198). -/
def State.toGroup (s : State) (c : RCtx) (p : Nat) (k : Packet) : Route :=
  if !s.img.groupAccepts p (s.img.group p (dstRank (pkDst k))) then .drop .noRoute
  else .goal ((s.groupRoutes c p k).flatMap fun r =>
    match r with
    | .goal l => l
    | .drop _ => [])

/-- The copies of a packet to a group that reach no member, by the cause of each (R96, R108). -/
def State.lostCopies (s : State) (c : RCtx) (sender : Nat) (k : Packet) : List Cause :=
  if pkDstType k = 1 && s.img.groupAccepts sender (s.img.group sender (dstRank (pkDst k))) then
    (s.groupRoutes c sender k).filterMap fun r =>
      match r with
      | .goal _ => none
      | .drop x => some x
  else []

/-- Delivery of a packet by its DST (R88).  from is the sending partition of a packet the module originates. -/
def State.route (s : State) (c : RCtx) (sender : Nat) (k : Packet) : Route :=
  let p := pkPart k
  let bank := pkEpoch k
  let cls := vcCls (pkVc k)
  match pkDstType k with
  | 0 =>
    match s.img.rankEntry bank p (dstRank (pkDst k)) with
    | none => .drop .noRoute
    | some e =>
      if e.x == s.myX && e.y == s.myY then s.toDownlink c p bank cls (pkRstate k) (pkRplane k) e
      else s.toRack c p bank cls (pkRstate k) (pkRplane k) e.x e.y
  | 1 => s.toGroup c sender k
  | _ =>
    let d := pkDst k
    if dstIsSelf d || (dstX d == s.myX && dstY d == s.myY) then
      match s.servicePort c.quad k with
      | some (q, port) => .goal [⟨q, port, pkVc k, 0, 0⟩]
      | none => .drop .noRoute
    else s.toRack c p bank cls (pkRstate k) (pkRplane k) (dstX d) (dstY d)

/-! ## Copies at an input (R209, R314, R327, R328) -/

/-- The output of quadrant q toward a destination's quadrant for a multicast copy: the row or column seam, and for the
diagonal quadrant the row seam, whose far end copies it over its column seam. -/
def multicastHop (q d : Nat) : Nat := if d = 3 - q then (q / 2 * 2 + (1 - q % 2)) else d

/-- The quadrant that a copy toward dq crosses to next: directly for a single destination, under R209 for several. -/
def nextQuad (multi : Bool) (q dq : Nat) : Nat := if multi then multicastHop q dq else dq

/-- Seams crossed toward a destination. -/
def seamsTo (multi : Bool) (q dq : Nat) : Nat := if dq = q then 0 else if multi && dq == 3 - q then 2 else 1

def State.relCycles (s : State) (q : Nat) : Nat := s.img.le 0x02 q 0 0 2
def State.seamAdd (s : State) (q : Nat) : Nat := s.img.le 0x02 q 0 2 2

/-- The copies that quadrant q makes for a list of destinations, one per output; base is the release time before
the seam, add the cycles that a seam adds. -/
def State.copiesFor (_s : State) (q : Nat) (multi : Bool) (base add : Nat) (ds : List Dest) : List Copy :=
  let loc := (ds.filter fun d => d.quad == q).map fun d => { out := d.port, dests := [d], release := base, cmark := false : Copy }
  let rem := [0, 1, 2, 3].filterMap fun n =>
    let l := ds.filter fun d => d.quad != q && nextQuad multi q d.quad == n
    if l.isEmpty then none
    else some { out := seamPort q n, dests := l, release := base + add, cmark := false : Copy }
  loc ++ rem

/-- A packet put in an input's staging buffer with its destinations resolved, under a number of its own: copies of one to a group cross no diagonal
seam (R209).  ready: when each of its cells is complete. -/
def State.stage (s : State) (q i : Nat) (k : Packet) (origin hop arrive sender : Nat) (ready : List Nat) (ds : List Dest) : State :=
  let u := s.rd V.PKT_UID []
  let cs := s.copiesFor q (pkDstType k == 1) 0 (s.seamAdd q) ds
  let h : Held := { pkt := k, inPort := i, origin := origin, hop := hop, arrive := arrive, admitted := 0, bank := 0, copies := cs,
                    ready := ready, uid := u, sender := sender }
  let s := s.wr V.PKT_UID [] (u + 1)
  { s with staging := SMap.set [q, i] (SMap.get s.staging [q, i] [] ++ [h]) s.staging }

/-- Every cell of a packet of the module's own is complete as its header is offered to the core. -/
def State.readyNow (s : State) (q : Nat) (k : Packet) : List Nat := List.replicate (pkCells k) (s.rd V.CYCLE [q])

/-! ## Discards and NACKs (R108, R109, R110) -/

/-- A discard counted under its cause; port is the core port it came in on, when it is an external or seam port. -/
def State.countDiscard (s : State) (q port : Nat) (part : Nat) (c : Cause) : State :=
  let s := s.bumpOvf F.XPT_DISC_COUNT F.XPT_DISC_OVF [causeIx c] 1
  let s := if port < 43 then s.countLocal q port (48 + causeIx c) part 1 else s
  let s := if port < 40 then s.bump V.RTR_DISC [40 * q + port] 1 else s
  let s := s.countLegacy 5 1
  if c = .hcrc || c = .e2e then s.countLegacy 6 1 else s

/-- A packet that the module originates at an internal port of quadrant q: routed at once and put in that port's
staging buffer, or discarded and counted without a NACK; a copy to a group that reaches no member is discarded by itself. -/
def State.send (s : State) (q port sender : Nat) (k : Packet) : State :=
  match s.route ⟨q, 2, 0⟩ sender k with
  | .goal ds =>
    let s := (s.lostCopies ⟨q, 2, 0⟩ sender k).foldl (fun t c => t.countDiscard q port (pkPart k) c) s
    let s := if port = 47 then s.countLocal q 103 6 (pkPart k) 1 else s
    if ds.isEmpty then s else s.stage q port k 2 0 s.timeNs sender (s.readyNow q k) ds
  | .drop c => s.countDiscard q port (pkPart k) c

/-- The answer to a discarded class Q or U packet: NACK or CNACK with a code (R80, R109, R110, R115). -/
def State.nackPacket (s : State) (q : Nat) (k : Packet) (code : Nat) : Packet :=
  let p := pkPart k
  let dt := if pkSrcType k = 1 then 2 else 0
  let dst := if pkSrcType k = 1 then bitsOf (pkSrc k) 0 6 else pkSrc k
  let e := s.stamp p
  if vcCls (pkVc k) = .q then
    mkPacket (mkHdr 0x2F (vcAt .p 0) e p 0 dt 1 dst (s.ownAddr q) (pkSeq k) (reqSpec (pkAddr k) (pkLenUnits k) 0 code)
      + pkCmark k * 2 ^ 37) []
  else
    mkPacket (mkHdr 0x42 (vcAt .d 0) e p 0 dt 1 dst (s.ownAddr q) (pkSeq k)
      (collSpec (pkColl k) (pkStep k) (pkChunk k) (pkNchunk k) 0 0
        (max 1 (s.rd F.XPT_CTL_DEFER_RETRY [])) code)) []

/-- True when a packet may be answered (R109): class Q or U, an SRC that decodes to a valid rank or to a Zarfer. -/
def State.nackable (s : State) (k : Packet) : Bool :=
  let cls := vcCls (pkVc k)
  (cls = .q || cls = .u)
    && (pkSrcType k == 1 || (s.img.rankEntry (pkEpoch k) (pkPart k) (dstRank (pkSrc k))).isSome
          || (s.img.rankEntry (s.stamp (pkPart k)) (pkPart k) (dstRank (pkSrc k))).isSome)

/-- NACK_SEND of R109. -/
def State.nack (s : State) (q : Nat) (k : Packet) (code : Nat) : State :=
  if s.nackable k then s.send q (if vcCls (pkVc k) = .q then 45 else 43) (pkPart k) (s.nackPacket q k code) else s

/-- A discard: counted, and answered with its cause's NACK. -/
def State.discard (s : State) (q port : Nat) (k : Packet) (c : Cause) : State :=
  let s := s.countDiscard q port (pkPart k) c
  match causeNack c with
  | some code => s.nack q k code
  | none => s

/-! ## A packet at one of the module's services -/

/-- The service takes a delivered packet out of its input queue. -/
def takeFirst (k : Packet) : List Held → List Held
  | [] => []
  | h :: r => if h.pkt = k then r else h :: takeFirst k r

def State.takeSvc (s : State) (q port : Nat) (k : Packet) : State :=
  { s with svc := SMap.set [q, port] (takeFirst k (SMap.get s.svc [q, port] [])) s.svc }

/-- The end-to-end check at a service (R78, R108): none, or the cause under which the packet is discarded. -/
def serviceCause (k : Packet) : Option Cause :=
  if k.stomp then some .stomp else if !pkE2eOk k then some .e2e else none

/-- A record of the end-to-end detector (R559, 0x05). -/
def State.e2eRecord (s : State) (q : Nat) (k : Packet) (c : Cause) : State :=
  (s.err { det := 0x05, sev := 0, part := pkPart k, quad := q, cause := causeIx c, inj := s.rdb V.E2E_INJ [q] }).wr
    V.E2E_INJ [q] 0

end Sys2Proof.Machine
end

