-- ==== Sys2Proof/Machine/Wheel.lean ====
section
/-! DEFINITION. Engine time wheels (R64 to R67, R596 of spec/02_knit_and_partitions.md): the slot in progress, whose it is, and
whether a unit of work may start in it. -/

namespace Sys2Proof.Machine

/-! ## The WHEEL image (R64) -/

/-- Offset of wheel w in the WHEEL image: reduction engines 0 to 4, update, Gram, Mover, parking. -/
def wheelAt (w : Nat) : Nat := 264 * w

/-- MODE: 1 for a wheel that lends. -/
def Images.wheelLoan (v : Images) (q w : Nat) : Bool := bitOf (v.le 0x04 q 0 (wheelAt w) 1) 0

/-- SLOT_EXP. -/
def Images.wheelExp (v : Images) (q w : Nat) : Nat := v.le 0x04 q 0 (wheelAt w + 1) 1 % 16

/-- The byte of slot n: OWNER and KIND. -/
def Images.wheelSlot (v : Images) (q w n : Nat) : Nat := v.le 0x04 q 0 (wheelAt w + 8 + n) 1

/-- OWNER of a slot byte. -/
def slotOwner (b : Nat) : Nat := bitsOf b 0 5

/-- KIND of a slot byte: 0 free, 1 owned, 2 pager. -/
def slotKind (b : Nat) : Nat := bitsOf b 5 2

/-! ## The slot in progress (R596) -/

/-- The slot in progress at core cycle t of a wheel of slot length 2 ^ exp. -/
def slotAt256 (exp t : Nat) : Nat := t / 2 ^ exp % 256

/-- The slot in progress of wheel w of a quadrant. -/
def State.wheelNow (s : State) (q w : Nat) : Nat := slotAt256 (s.img.wheelExp q w) (s.rd V.CYCLE [q])

/-- The first cycle after the slot in progress. -/
def slotEnd (exp t : Nat) : Nat := (t / 2 ^ exp + 1) * 2 ^ exp

/-- Consecutive slots of the wheel from slot n on that partition p owns (fuel: the slots of the wheel). -/
def Images.ownedRun (v : Images) (q w p : Nat) : Nat → Nat → Nat
  | 0, _ => 0
  | k + 1, n =>
    let b := v.wheelSlot q w (n % 256)
    if slotKind b = 1 ∧ slotOwner b = p then 1 + v.ownedRun q w p k (n + 1) else 0

/-- True when a unit of n cycles that starts now ends by the end of the run of slots that its partition owns (R65); a partition that
owns every slot has no end of run. -/
def State.fitsRun (s : State) (q w p n : Nat) : Bool :=
  let e := s.img.wheelExp q w
  let t := s.rd V.CYCLE [q]
  let r := s.img.ownedRun q w p 256 (slotAt256 e t)
  r == 256 || decide (t + n ≤ (t / 2 ^ e + r) * 2 ^ e)

/-- True when a unit of n cycles that starts now ends by the end of the slot in progress (R65). -/
def State.fitsSlot (s : State) (q w n : Nat) : Bool :=
  decide (s.rd V.CYCLE [q] + n ≤ slotEnd (s.img.wheelExp q w) (s.rd V.CYCLE [q]))

/-! ## Slots that a border move gives to another owner (R67) -/

/-- The owner of a slot byte: none for a free slot. -/
def slotHolder (b : Nat) : Option (Nat × Nat) := if slotKind b = 0 then none else some (slotKind b, slotOwner b)

/-- True for a slot that changes owner in the border move in progress. -/
def State.slotMoves (s : State) (q w n : Nat) : Bool :=
  s.rdb V.BORDER_WHEEL [q] &&
    slotHolder (s.img.wheelSlot q w n)
      != slotHolder (s.img.leBank (1 - s.img.active 0x04 q 0) 0x04 q 0 (wheelAt w + 8 + n) 1)

/-- The work started in slots that change owner has ended. -/
def State.movedSlotsIdle (s : State) (q : Nat) : Bool :=
  (List.range 9).all fun w =>
    decide (s.rd V.ENG_FREE [q, w] ≤ s.rd V.CYCLE [q] + 1) || s.rd V.ENG_SLOT [q, w] == 0
      || !s.slotMoves q w (s.rd V.ENG_SLOT [q, w] - 1)

/-! ## Units of work (R65, R66) -/

/-- True while no unit of the engine is in progress. -/
def State.engineFree (s : State) (q w : Nat) : Bool := decide (s.rd V.ENG_FREE [q, w] ≤ s.rd V.CYCLE [q] + 1)

/-- A unit of partition p that lasts n cycles may start in the slot in progress: in a slot that p owns and that is not lent, when it
ends by the end of p's run; in a slot lent to p, when it ends by the end of the slot. -/
def State.slotFor (s : State) (q w p n : Nat) : Bool :=
  let i := s.wheelNow q w
  let b := s.img.wheelSlot q w i
  let lent := s.rd V.SLOT_LENT [q, w]
  s.img.wheelExp q w != 0 && !s.slotMoves q w i &&
    (if lent = 0 then slotKind b == 1 && slotOwner b == p && s.fitsRun q w p n else lent == p + 1 && s.fitsSlot q w n)

/-- The same, on an engine whose units follow one another. -/
def State.unitGo (s : State) (q w p n : Nat) : Bool := s.engineFree q w && s.slotFor q w p n

/-- The local counter bank of a wheel's engine (R539). -/
def engBank (w : Nat) : Nat := if w < 5 then 43 + w else if w = 8 then 54 else 46 + w

/-- A wheel's engine is taken by a unit of n cycles. -/
def State.engineTake (s : State) (q w p n : Nat) : State :=
  ((s.wr V.ENG_FREE [q, w] (s.rd V.CYCLE [q] + n + 1)).wr V.ENG_SLOT [q, w] (s.wheelNow q w + 1)).wr V.ENG_PART [q, w] (p + 1)

/-- A unit of n cycles has started. -/
def State.unitStart (s : State) (q w p n : Nat) : State := (s.engineTake q w p n).bankStart q (engBank w) p n

/-- A unit run when it may start; the effect of a unit is made in the cycle in which it starts (log entry 74). -/
def State.unit (s : State) (q w p n : Nat) (f : State → State) : State :=
  if s.unitGo q w p n then f (s.unitStart q w p n) else s

/-! ## Lending (R66) -/

/-- The partitions in the order of the search for a borrower: from the one after the slot's OWNER on, OWNER last. -/
def borrowers (owner : Nat) : List Nat := (List.range 32).map fun i => (owner + 1 + i) % 32

/-- The slot in progress of a wheel lent, at its start: next gives the cycles of the next unit of a partition with ready work. -/
def State.lend (s : State) (q w : Nat) (next : State → Nat → Option Nat) : State :=
  let i := s.wheelNow q w
  let b := s.img.wheelSlot q w i
  let may := s.img.wheelLoan q w && s.img.wheelExp q w != 0 && !s.slotMoves q w i
    && (slotKind b == 0 || (slotKind b == 1 && (next s (slotOwner b)).isNone))
  let taker := (borrowers (slotOwner b)).find? fun p => match next s p with
    | some n => s.fitsSlot q w n
    | none => false
  s.wr V.SLOT_LENT [q, w] (if may then (match taker with | some p => p + 1 | none => 0) else 0)

/-- At the first cycle of a slot, the slot is lent or not. -/
def State.slotStart (s : State) (q w : Nat) (next : State → Nat → Option Nat) : State :=
  let e := s.img.wheelExp q w
  if e != 0 && s.rd V.CYCLE [q] % 2 ^ e == 0 && (s.img.wheelLoan q w || s.rdb V.SLOT_LENT [q, w]) then s.lend q w next else s

/-! ## Pager slots (R175, R176) -/

/-- Cycles of a pager operation. -/
def pagerCycles : Nat := 80

/-- A pager operation has started, in the Mover's wheel. -/
def State.pagerStart (s : State) (q p : Nat) : State := (s.engineTake q 7 p pagerCycles).bankStart q 49 p pagerCycles

/-- True when a pager operation of a partition may start: a pager slot of the Mover wheel is in progress, the operation ends by its
end, and no partition that comes before p in the slot's order has pager work. -/
def State.pagerGo (s : State) (q p : Nat) (work : State → Nat → Bool) : Bool :=
  let i := s.wheelNow q 7
  let b := s.img.wheelSlot q 7 i
  slotKind b == 2 && !s.slotMoves q 7 i && s.fitsSlot q 7 pagerCycles
    && ((List.range 32).map fun k => (slotOwner b + k) % 32).find? (fun r => r == p || work s r) == some p

end Sys2Proof.Machine
end

