-- ==== Sys2Proof/Machine/Coll.lean ====
section
/-! DEFINITION. Collective entries, instances, completion records, trigger counters and command rings: the shared
operations of the collective sequencer (spec/06_collective_programs.md). -/

namespace Sys2Proof.Machine

/-- a is before b in the serial order of R188. -/
def before32 (a b : Nat) : Bool :=
  let d := (b + 2 ^ 32 - a % 2 ^ 32) % 2 ^ 32
  decide (1 ≤ d) && decide (d ≤ 2 ^ 31 - 1)

/-! ## The COLL image (R195 to R198) -/

/-- A collective entry (R197). -/
structure CollE where
  valid : Bool
  cmd : Bool
  op : Nat
  ckind : Nat
  outFmt : Nat
  sr : Bool
  side : Bool
  winCmd : Bool
  watch : Bool
  w : Nat
  mode : Nat
  pod : Bool
  cqEn : Bool
  chunkBase : Nat
  depth : Nat
  cq : Nat
  nchunk : Nat
  set : Nat
  group : Nat
  scatter : Nat
  patience : Nat
  evtReady : Nat
  evtComplete : Nat
  shard : Nat
  deriving DecidableEq, Repr

def collOfBits (x : Nat) : CollE :=
  { valid := bitOf x 0, cmd := bitOf x 1, op := bitsOf x 2 3, ckind := bitsOf x 5 3, outFmt := bitsOf x 8 4,
    sr := bitOf x 12, side := bitOf x 13, winCmd := bitOf x 14, watch := bitOf x 15, w := bitsOf x 16 10,
    mode := bitsOf x 26 2, pod := bitOf x 28, cqEn := bitOf x 29, chunkBase := bitsOf x 32 24, depth := bitsOf x 56 3,
    cq := bitsOf x 59 3, nchunk := bitsOf x 64 24, set := bitsOf x 88 8, group := bitsOf x 96 12,
    scatter := bitsOf x 112 16, patience := bitsOf x 128 20, evtReady := bitsOf x 160 8, evtComplete := bitsOf x 168 8,
    shard := bitsOf x 176 16 }

/-- Entry n of a partition's COLL image. -/
def Images.coll (v : Images) (p n : Nat) : CollE := collOfBits (v.le 0x08 4 p (0x1000 + 64 * n) 24)

/-- The valid entry of a collective id. -/
def Images.collValid (v : Images) (p n : Nat) : Option CollE :=
  if n < 4096 && (v.coll p n).valid then some (v.coll p n) else none

/-- The member ranks of an entry. -/
def Images.members (v : Images) (p : Nat) (e : CollE) : Nat := v.memberSet p e.set

/-- N of R133. -/
def Images.nMembers (v : Images) (p : Nat) (e : CollE) : Nat := popCount 4096 (v.members p e)

/-- owner(c) of R205: the member of rank index ((c − CHUNK_BASE) div SCATTER_CHUNKS) mod N. -/
def Images.ownerRank (v : Images) (p : Nat) (e : CollE) (c : Nat) : Nat :=
  let ms := onesOf 4096 (v.members p e)
  ms.getD ((c - e.chunkBase) / max 1 e.scatter % max 1 ms.length) 0

def copOfEntry (e : CollE) : COp := (copOf e.op).getD .sum

/-- True when the rank contributes chunk c (R205). -/
def Images.contributes (v : Images) (p : Nat) (e : CollE) (rank c : Nat) : Bool :=
  decide (e.chunkBase ≤ c) && decide (c < e.chunkBase + e.nchunk)
    && bitOf (v.members p e) rank && (e.ckind != 2 || v.ownerRank p e c == rank)

/-- The patience of an entry in ms (R196, R197). -/
def Images.patienceMs (v : Images) (p : Nat) (e : CollE) : Nat :=
  if e.patience ≠ 0 then e.patience
  else
    let d := bitsOf (v.le 0x08 4 p 8 4) 0 20
    if d = 0 then 10000 else d

/-! ## Pod roles (R206, R207) -/

/-- The sorted columns and rows of racks that hold members of an entry, under a RANK bank. -/
def Images.podRacks (v : Images) (bank p : Nat) (e : CollE) : List Nat × List Nat :=
  let rs := (onesOf 4096 (v.members p e)).filterMap (v.rankEntry bank p)
  ((List.range 5).filter fun x => rs.any fun r => r.x == x, (List.range 5).filter fun y => rs.any fun r => r.y == y)

/-- The role of this rack for a chunk. -/
inductive PodRole where
  | single
  | sendTo (x y : Nat) (peers : List Nat)
  | form (peers : List Nat) (racks : List (Nat × Nat))
  deriving DecidableEq, Repr

/-- True when the role sends a PARTIAL. -/
def podSends : PodRole → Bool
  | .sendTo _ _ _ => true
  | _ => false

/-- R207: whom to collect from (MEMBERS bits of R157), and where the sum goes.  form lists the racks (ox, y') that the
result goes to. -/
def State.podRole (s : State) (bank p : Nat) (e : CollE) (c : Nat) : PodRole :=
  if !e.pod then .single
  else
    let (xs, ys) := s.img.podRacks bank p e
    let i := c - e.chunkBase
    let ox := xs.getD (i % max 1 xs.length) 0
    let oy := ys.getD (i / max 1 xs.length % max 1 ys.length) 0
    let x := s.myX
    let y := s.myY
    if x ≠ ox then .sendTo ox y []
    else
      let row := (xs.filter fun a => a != x).map fun a => 176 + peerIndex x a
      if y ≠ oy then .sendTo ox oy row
      else .form (row ++ (ys.filter fun b => b != y).map fun b => 180 + peerIndex y b)
            ((ys.filter fun b => b != y).map fun b => (ox, b))

/-- The racks (x', y) of the row that a rack in the owner's column passes the result on to (R208). -/
def State.rowRacks (s : State) (bank p : Nat) (e : CollE) : List (Nat × Nat) :=
  if !e.pod then [] else ((s.img.podRacks bank p e).1.filter fun a => a != s.myX).map fun a => (a, s.myY)

/-- True when this rack lies in the owner column of a chunk. -/
def State.inOwnerColumn (s : State) (bank p : Nat) (e : CollE) (c : Nat) : Bool :=
  let xs := (s.img.podRacks bank p e).1
  xs.getD ((c - e.chunkBase) % max 1 xs.length) 0 == s.myX

/-! ## Receivers (R205, R215) -/

/-- The ranks of the own rack, translated through the instance's bank, that satisfy a test. -/
def State.localRanks (s : State) (bank p : Nat) (set : Nat) : List Nat :=
  (onesOf 4096 set).filter fun r =>
    match s.img.rankEntry bank p r with
    | some e => e.x == s.myX && e.y == s.myY
    | none => false

/-- The number of chunks of an entry that a rank owns under owner(c). -/
def Images.ownedChunks (v : Images) (p : Nat) (e : CollE) (rank : Nat) : Nat :=
  let ms := onesOf 4096 (v.members p e)
  let sc := max 1 e.scatter
  let n := max 1 ms.length
  let k := (ms.takeWhile fun r => r != rank).length
  if !bitOf (v.members p e) rank then 0
  else
    let turn := sc * n
    e.nchunk / turn * sc + (min sc (e.nchunk % turn - k * sc))

/-- The group that receives an instance's results: the publish group of a RUP shard, or the instance's own. -/
def Images.resultGroup (v : Images) (p : Nat) (e : CollE) (i : Inst) : Nat :=
  if e.ckind = 4 then bitsOf (v.le 0x09 4 p (0x70000 + 64 * e.shard + 2) 2) 0 12 else i.outGroup

/-- The receive count of a rank: the chunks it receives; 0 for a non-receiver and for a receiver of another
partition. -/
def Images.recvCount (v : Images) (p : Nat) (e : CollE) (i : Inst) (rank : Nat) : Nat :=
  if e.ckind = 1 then v.ownedChunks p e rank
  else
    let g := v.group p (v.resultGroup p e i)
    if g.valid && g.rx == p && bitOf (v.memberSet g.rx g.set) rank then e.nchunk else 0

/-- The ranks of the own rack that owe DONE, as a bitmap (R215). -/
def State.owing (s : State) (p : Nat) (e : CollE) (i : Inst) : List Nat :=
  let set := if e.ckind = 1 then s.img.members p e
    else (let g := s.img.group p (s.img.resultGroup p e i); if g.valid && g.rx == p then s.img.memberSet g.rx g.set else 0)
  (s.localRanks i.bank p set).filter fun r => s.img.recvCount p e i r != 0

/-! ## Completion queues (R193, R194) -/

/-- What a completion record reports. -/
structure CqRec where
  kind : Nat
  status : Nat := 0
  coll : Nat := 0
  step : Nat := 0
  ovf : Bool := false
  inv : Bool := false
  missing : Nat := 0
  first : Nat := 0
  ring : Nat := 0
  tag : Nat := 0
  deriving DecidableEq, Repr

/-- The 32 B record without its PHASE bit. -/
def cqRecord (time : Nat) (r : CqRec) : Nat :=
  r.kind % 256 + r.status % 256 * 2 ^ 8 + r.coll % 2 ^ 16 * 2 ^ 16 + r.step % 2 ^ 32 * 2 ^ 32 + time % 2 ^ 64 * 2 ^ 64
    + b2n r.ovf * 2 ^ 128 + b2n r.inv * 2 ^ 129 + r.missing % 2 ^ 16 * 2 ^ 144 + r.first % 2 ^ 12 * 2 ^ 160
    + r.ring % 256 * 2 ^ 176 + r.tag % 2 ^ 32 * 2 ^ 192

/-- PHASE of a record at an index: 1 on the first pass. -/
def cqPhase (log2 prod : Nat) : Nat := 1 - prod / 2 ^ log2 % 2

def State.cqRoom (s : State) (p k : Nat) : Bool :=
  (s.rd F.SEQ_CQ_PTR_PROD [p, k] + 2 ^ 32 - s.rd F.SEQ_CQ_PTR_CONS [p, k]) % 2 ^ 32 < 2 ^ s.rd F.SEQ_CQ_CTL_LOG2SIZE [p, k]

def State.cqLost (s : State) (p k : Nat) : State := s.bumpOvf F.SEQ_CQ_LOST_COUNT F.SEQ_CQ_LOST_OVF [p, k] 1

/-- The queue's vector, at most one interrupt per µs. -/
def State.cqVector (s : State) (p k : Nat) : State :=
  if s.rd V.CQ_VEC_TIME [p, k] ≤ s.timeNs then
    ((s.vector p (s.rd F.SEQ_CQ_CTL_VECTOR [p, k])).wr V.CQ_VEC_TIME [p, k] (s.timeNs + 1000)).wr V.CQ_VEC_DUE [p, k] 0
  else s.wr V.CQ_VEC_DUE [p, k] 1

/-- A record written at PROD, or lost where its write fails (R527). -/
def State.cqPut (s : State) (p k rcd : Nat) : State :=
  let log2 := s.rd F.SEQ_CQ_CTL_LOG2SIZE [p, k]
  let prod := s.rd F.SEQ_CQ_PTR_PROD [p, k]
  match s.ringWrite p (s.rd F.SEQ_CQ_BASE_ADDR [p, k] * 32) (s.rdb F.SEQ_CQ_CTL_HOST [p, k]) log2 prod
      (leBytes 32 (rcd + cqPhase log2 prod * 2 ^ 255)) with
  | some t => (t.bump F.SEQ_CQ_PTR_PROD [p, k] 1).cqVector p k
  | none => if s.rdb F.SEQ_CQ_CTL_HOST [p, k] then (s.hostFail p).cqLost p k else s.cqLost p k

/-- A completion record due on a queue: written, waiting for room (at most 8), or lost. -/
def State.cqPost (s : State) (p k : Nat) (r : CqRec) : State :=
  let rcd := cqRecord s.timeNs r
  let w := SMap.get s.cqWait [p, k] []
  if !s.rdb F.SEQ_CQ_CTL_EN [p, k] then s.cqLost p k
  else if w.isEmpty && s.cqRoom p k then s.cqPut p k rcd
  else if w.length < 8 then { s with cqWait := SMap.set [p, k] (w ++ [rcd]) s.cqWait }
  else s.cqLost p k

/-! ## Trigger counters and words (R211 to R213) -/

/-- Trigger word i of a partition. -/
def Images.trigWord (v : Images) (p i : Nat) : Nat := v.le 0x08 4 p (0x80000 + 64 * i) 32

def twOp (w : Nat) : Nat := bitsOf w 0 8
def twCounter (w : Nat) : Nat := bitsOf w 8 8
def twNext (w : Nat) : Nat := bitsOf w 16 16
def twThreshold (w : Nat) : Nat := bitsOf w 32 32
def twColl (w : Nat) : Nat := bitsOf w 64 16
def twStepOff (w : Nat) : Int := signed 8 (bitsOf w 80 8)
def twDoneCtr (w : Nat) : Nat := bitsOf w 88 8
def twGroup (w : Nat) : Nat := bitsOf w 96 12
def twFormat (w : Nat) : Nat := bitsOf w 112 4
def twEntryFmt (w : Nat) : Bool := bitOf w 116
def twEntryGroup (w : Nat) : Bool := bitOf w 117
def twArg0 (w : Nat) : Nat := bitsOf w 128 64
def twArg1 (w : Nat) : Nat := bitsOf w 192 64

/-- The operand step of a fired word. -/
def twStep (w ctx : Nat) : Nat := unsigned 32 ((ctx : Int) + twStepOff w)

/-- A sample record stored by the sampler of a quadrant (R553, R554). -/
def State.samplePut (s : State) (q rcd : Nat) : State :=
  let b := SMap.get s.psBuf [q] []
  if b.length < 4096 then { s with psBuf := SMap.set [q] (b ++ [rcd]) s.psBuf }
  else if s.rdb F.CTR_PS_CTL_MODE [q] then
    ({ s with psBuf := SMap.set [q] (b.drop 1 ++ [rcd]) s.psBuf }).wr F.CTR_PS_STAT_WRAPPED [q] 1
  else s

/-- The sampler of a quadrant watches an event. -/
def State.sampleOn (s : State) (q source part port : Nat) : Bool :=
  s.rdb F.CTR_PS_CTL_EN [q] && s.rd F.CTR_PS_CTL_SOURCE [q] == source
    && (if s.rdb F.CTR_PS_CTL_PART_EN [q] then s.rd F.CTR_PS_CTL_PART [q] == part
        else decide (1 ≤ s.rd F.DBG_LEVEL_LEVEL []))
    && (source != 1 || s.rd F.CTR_PS_CTL_PORT [q] == 63 || s.rd F.CTR_PS_CTL_PORT [q] == port)

/-- The first 24 bytes of a sample record, STATUS left 0 (R554). -/
def sampleHead (began source part unit id addr : Nat) : Nat :=
  began % 2 ^ 64 + source * 2 ^ 64 + part * 2 ^ 67 + unit % 2 ^ 16 * 2 ^ 80 + id % 2 ^ 32 * 2 ^ 96 + addr % 2 ^ 64 * 2 ^ 128

/-- STATUS, LATENCY and WAIT of a sample record, the last two saturating. -/
def sampleTail (status latency wait : Nat) : Nat :=
  status % 256 * 2 ^ 72 + min latency (2 ^ 32 - 1) * 2 ^ 192 + min wait (2 ^ 32 - 1) * 2 ^ 224

/-- A packet offered to the sampler as its header leaves: the event ends there, so its record is complete. -/
def State.samplePacket (s : State) (q part port unit id addr latency wait began : Nat) : State :=
  if s.sampleOn q 1 part port then
    let n := s.rd V.PS_COUNT [q] + 1
    let s := s.wr V.PS_COUNT [q] n
    if n % 2 ^ s.rd F.CTR_PS_CTL_K [q] = 0 then
      s.samplePut q (sampleHead began 1 part unit id addr + sampleTail 0 latency wait)
    else s
  else s

/-- An event that starts, offered to the sampler; the key of one that is to be recorded holds its record until it ends. -/
def State.sampleBegin (s : State) (source part : Nat) (key : List Nat) (unit id addr wait : Nat) : State :=
  let q := key.headD 0
  if s.sampleOn q source part 0 then
    let n := s.rd V.PS_COUNT [q] + 1
    let s := s.wr V.PS_COUNT [q] n
    if n % 2 ^ s.rd F.CTR_PS_CTL_K [q] = 0 then
      ((s.wr V.PS_REC key (1 + 2 * sampleHead s.timeNs source part unit id addr)).wr V.PS_BEG key (s.rd V.CYCLE [q])).wr
        V.PS_WAIT key wait
    else s
  else s

/-- Cycles of waiting added to the record of an event. -/
def State.sampleWait (s : State) (key : List Nat) (n : Nat) : State :=
  if s.rd V.PS_REC key = 0 then s else s.wr V.PS_WAIT key (s.rd V.PS_WAIT key + n)

/-- The end of an event: its record is written when it was to be recorded. -/
def State.sampleEnd (s : State) (key : List Nat) (status : Nat) : State :=
  let r := s.rd V.PS_REC key
  let q := key.headD 0
  if r = 0 then s
  else
    ((((s.samplePut q (r / 2 + sampleTail status (s.rd V.CYCLE [q] - s.rd V.PS_BEG key) (s.rd V.PS_WAIT key))).wr
      V.PS_REC key 0).wr V.PS_BEG key 0).wr V.PS_WAIT key 0)

/-- TRIGGER_FIRE: the word armed on a counter fires when its threshold is reached; the threshold is subtracted and the
operation starts. -/
def State.trigTest (s : State) (p k : Nat) : State :=
  let wi := s.rd V.TRIG_WORD [p, k]
  if wi = 0 then s
  else
    let word := s.img.trigWord p (wi - 1)
    let c := s.rd V.TRIG_CTR [p, k]
    if twThreshold word ≤ c then
      let s := (s.wr V.TRIG_CTR [p, k] (c - twThreshold word)).wr V.TRIG_WORD [p, k] 0
      let op : TrigOp := ⟨wi - 1, word, s.rd V.TRIG_CTX [p, k], k, false, false, 0⟩
      let s := { s with trigOps := SMap.set [p] (SMap.get s.trigOps [p] [] ++ [op]) s.trigOps }
      s.sampleBegin 2 p [p % 4, 2, p, wi - 1] k (wi - 1) (0x80000 + 64 * (wi - 1)) 0
    else s

/-- An increment of a trigger counter, saturating, and the threshold test; 0xFF and above name no counter. -/
def State.trigAdd (s : State) (p k n : Nat) : State :=
  if k < 255 then (s.bumpSat V.TRIG_CTR [p, k] n).trigTest p k else s

/-- A word armed on its counter with a context step.  A word on a counter that already holds one is not armed: the
chain stops and a record is written. -/
def State.trigArm (s : State) (p widx ctx : Nat) : State :=
  let word := s.img.trigWord p widx
  let k := twCounter word
  if 8192 ≤ widx then s
  else if k = 255 || s.rd V.TRIG_WORD [p, k] != 0 then
    s.err { det := 0x0E, sev := 1, part := p, quad := p % 4, unit := k, addr := 0x80000 + 64 * widx }
  else ((s.wr V.TRIG_WORD [p, k] (widx + 1)).wr V.TRIG_CTX [p, k] ctx).trigTest p k

/-! ## Instances (R200 to R204) -/

/-- The key of the record of instance (coll, step). -/
def instKey (p coll : Nat) (e : CollE) (step : Nat) : Key := [p, coll, step % max 1 e.depth]

/-- An unused record. -/
def instNone : Inst :=
  { step := 0, st := .unused, bank := 0, w := 0, armed := false, deadline := 0, ovf := false, inv := false,
    resulted := 0, sums := 0, done := 0, seq := 0, fwd := false, released := false, outGroup := 0, outFmt := 0, sides := [],
    resends := 0, resendDue := 0 }

/-- The outcome of R201. -/
inductive RecUse where
  | use (i : Inst)
  | fresh
  | busy
  | completed
  deriving DecidableEq, Repr

def State.recUse (s : State) (p coll : Nat) (e : CollE) (step : Nat) : RecUse :=
  let i := SMap.get s.insts (instKey p coll e step) instNone
  if i.st = .unused then .fresh
  else if i.step = step then .use i
  else if before32 i.step step then (if i.st = .complete || i.st = .aborted then .fresh else .busy)
  else .completed

/-- True when a STANDING instance of a step is armed (R202). -/
def State.stepArmed (s : State) (p step : Nat) : Bool := !before32 (s.rd F.SEQ_STEP_ARMED [p]) step

/-- A new record for an instance; deadline 0: its patience has not started (R220). -/
def State.instNew (s : State) (p : Nat) (e : CollE) (step : Nat) (armed : Bool) (w deadline : Nat) : Inst :=
  { instNone with
    step := step, st := if armed then .active else .unarmed, bank := s.stamp p, w := w, armed := armed,
    deadline := deadline, outGroup := e.group, outFmt := e.outFmt }

def State.instPut (s : State) (p coll : Nat) (e : CollE) (i : Inst) : State :=
  { s with insts := SMap.set (instKey p coll e i.step) i s.insts }

/-- The record of an instance if it holds it. -/
def State.instGet (s : State) (p coll : Nat) (e : CollE) (step : Nat) : Option Inst :=
  let i := SMap.get s.insts (instKey p coll e step) instNone
  if i.st ≠ .unused && i.step = step then some i else none

/-- The SEQ of a packet of an instance: that of its first send, or the next of the instance's running count (R105, R106).  what names the packet: opcode,
chunk, part, and 0 or the rack it goes to.  The first RESULT or PUBLISH starts the result resend timer (R113). -/
def State.instSend (s : State) (p coll : Nat) (e : CollE) (step : Nat) (what : Key) : State × Nat :=
  match s.instGet p coll e step with
  | some i =>
    let due := if i.resendDue = 0 && (what.headD 0 == 0x40 || what.headD 0 == 0x41) then s.timeNs + s.rd F.XPT_RESEND_FIRST [] * 1000
      else i.resendDue
    match SMap.find what i.seqs with
    | some n => (s.instPut p coll e { i with resendDue := due }, n)
    | none =>
      (s.instPut p coll e { i with resendDue := due, seq := (i.seq + 1) % 2 ^ 32, seqs := SMap.set what i.seq i.seqs }, i.seq)
  | none =>
    let at_ := [p, coll, step] ++ what
    let n := s.rd V.INST_SEQ [p, coll, step]
    if s.rd V.INST_FIRST at_ ≠ 0 then (s, s.rd V.INST_FIRST at_ - 1)
    else ((s.wr V.INST_FIRST at_ (n + 1)).wr V.INST_SEQ [p, coll, step] (n + 1), n)

/-- A packet of an instance that is to be sent anew, under a count of its own. -/
def State.instForget (s : State) (p coll : Nat) (e : CollE) (step : Nat) (what : Key) : State :=
  match s.instGet p coll e step with
  | some i => s.instPut p coll e { i with seqs := SMap.erase what i.seqs }
  | none => s.wr V.INST_FIRST ([p, coll, step] ++ what) 0

/-- The flags of a chunk ORed into its instance and the partition's step flags, with the first flagged chunk (R149). -/
def State.instFlags (s : State) (p coll : Nat) (e : CollE) (step chunk : Nat) (ovf inv : Bool) : State :=
  match s.instGet p coll e step with
  | none => s
  | some i =>
    if !(ovf || inv) then s
    else
      let s := s.instPut p coll e { i with ovf := i.ovf || ovf, inv := i.inv || inv }
      let s := s.wr V.STEPFLG_OVF [p, step] (s.rd V.STEPFLG_OVF [p, step] ||| b2n ovf)
      let s := s.wr V.STEPFLG_INV [p, step] (s.rd V.STEPFLG_INV [p, step] ||| b2n inv)
      if s.rdb V.STEPFLG_SET [p, step] then s
      else
        (((s.wr V.STEPFLG_SET [p, step] 1).wr V.STEPFLG_COLL [p, step] coll).wr
          V.STEPFLG_CHUNK [p, step] chunk).wr V.STEPFLG_KIND [p, step] (if ovf then 0 else 1)

/-- LDG_STEP of a step whose flags are final, and its one contained record when they are set (R149, R151); a step before the one that LDG_STEP shows does
not replace it. -/
def State.stepFlagRecord (s : State) (p step : Nat) : State :=
  let o := s.rd V.STEPFLG_OVF [p, step]
  let v := s.rd V.STEPFLG_INV [p, step]
  let coll := s.rd V.STEPFLG_COLL [p, step]
  let chunk := s.rd V.STEPFLG_CHUNK [p, step]
  let shown := s.rdb F.LDG_STEP_VALID [p]
  let cur := s.rd F.LDG_STEP_STEP_TAG [p]
  let s := if shown && cur != step && !before32 cur step then s
    else
      let s := if shown && cur == step then s else s.wr F.LDG_STEP_SKIPPED [p] 0
      let s := ((((s.wr F.LDG_STEP_STEP_TAG [p] step).wr F.LDG_STEP_OVF [p] o).wr F.LDG_STEP_INV [p] v).wr F.LDG_STEP_VALID [p] 1)
      if o + v = 0 then s
      else ((s.wr F.LDG_FIRST_COLL_ID [p] coll).wr F.LDG_FIRST_CHUNK [p] chunk).wr F.LDG_FIRST_KIND [p] (s.rd V.STEPFLG_KIND [p, step])
  if o + v = 0 || s.rdb V.STEPFLG_REC [p, step] then s
  else (s.wr V.STEPFLG_REC [p, step] 1).err
    { det := 0x06, sev := 1, part := p, quad := p % 4, cause := o + 2 * v, info := step + coll * 2 ^ 32 + chunk * 2 ^ 48 }

/-- An instance that still runs (R204). -/
def liveInst (i : Inst) : Bool := i.st == .unarmed || i.st == .active || i.st == .ready

/-- A step's flags shown as final once no instance of it runs and no update step of it is in flight (R149; DESIGN CHOICE, log entry 77). -/
def State.stepFlagsSettle (s : State) (p step : Nat) : State :=
  let live := s.insts.any fun kv => kv.1.getD 0 99 == p && kv.2.step == step && liveInst kv.2
  let flying := s.rd F.UPD_PART_STEP_STATE [p] != 0 && s.rd F.UPD_PART_STEP_STEP_TAG [p] == step
  if live || flying then s else s.stepFlagRecord p step

/-! ## Command rings (R187 to R191) -/

/-- OPCODE, SIGNAL, FENCE, CQ and TAG of an entry (R190). -/
def ceOpcode (x : Nat) : Nat := bitsOf x 0 8
def ceSignal (x : Nat) : Bool := bitOf x 8
def ceFence (x : Nat) : Bool := bitOf x 9
def ceCq (x : Nat) : Nat := bitsOf x 16 3
def ceTag (x : Nat) : Nat := bitsOf x 32 32

def State.ringEmpty (s : State) (q p e : Nat) : Bool :=
  s.rd F.SEQ_RING_PROD_PROD [q, p, e] == s.rd F.SEQ_RING_CONS_CONS [q, p, e]

/-- The partition address of the entry at CONS. -/
def State.ringAddr (s : State) (q p e : Nat) : Nat :=
  s.rd F.SEQ_RING_BASE_ADDR [q, p, e] * 4096
    + 64 * (s.rd F.SEQ_RING_CONS_CONS [q, p, e] % 2 ^ s.rd F.SEQ_RING_CTL_LOG2SIZE [q, p, e])

/-- True when the engine may take an entry of the ring: enabled, not stopped, not empty. -/
def State.ringReady (s : State) (q p e : Nat) : Bool :=
  s.rdb F.SEQ_RING_CTL_EN [q, p, e] && !s.rdb F.SEQ_RING_CTL_ERR [q, p, e] && !s.ringEmpty q p e

/-- The entry at the head of a ring that its engine may take, fetched from the partition's memory. -/
def State.ringHead (s : State) (q p e : Nat) : Option Nat :=
  if s.ringReady q p e then (s.memData p (s.ringAddr q p e) 64).map ofLE else none

/-- The ring stops at CONS with a COMMAND record and a contained record (R191). -/
def State.ringStop (s : State) (q p e status tag : Nat) : State :=
  let s := s.raise F.SEQ_RING_CTL_ERR [q, p, e]
  let s := s.cqPost p (s.rd F.SEQ_RING_CTL_CQ [q, p, e]) { kind := 1, status := status, ring := 8 * q + e, tag := tag }
  s.err { det := 0x0E, sev := 1, part := p, quad := q, unit := 8 * q + e, cause := status, addr := s.ringAddr q p e }

/-- CONS past the entry. -/
def State.ringTake (s : State) (q p e : Nat) : State :=
  (s.bump F.SEQ_RING_CONS_CONS [q, p, e] 1).wr V.HEAD_CYC [q, p, e] 0

/-- A command's completion: the end of its sample, and its COMMAND record when SIGNAL is set (R190, R193). -/
def State.cmdDone (s : State) (q p e entry status : Nat) : State :=
  let s := s.sampleEnd [q, 3, p, e, entry] status
  if ceSignal entry then
    s.cqPost p (ceCq entry) { kind := 1, status := status, ring := 8 * q + e, tag := ceTag entry }
  else s

/-- Opcodes that engine e knows (R192, R255, R264 to R269, R409); the parking ring has none. -/
def opcodeKnown (e op : Nat) : Bool :=
  match e with
  | 0 => decide (1 ≤ op) && decide (op ≤ 7)
  | 1 => decide (1 ≤ op) && decide (op ≤ 4)
  | 2 => decide (1 ≤ op) && decide (op ≤ 5)
  | 3 => decide (1 ≤ op) && decide (op ≤ 4)
  | _ => false

/-- The head of a ring looked at when it is released: an entry that cannot be fetched or whose opcode is reserved stops
the ring.  The cycle at which it became the head is kept for the sampler. -/
def State.ringCheck (s : State) (q p e : Nat) : State :=
  if s.ringReady q p e then
    let s := if s.rd V.HEAD_CYC [q, p, e] = 0 then
        (s.noteRead 0x09 p (s.ringAddr q p e) 64).wr V.HEAD_CYC [q, p, e] (s.rd V.CYCLE [q] + 1) else s
    match s.memData p (s.ringAddr q p e) 64 with
    | none => s.ringStop q p e 5 0
    | some d => if opcodeKnown e (ceOpcode (ofLE d)) then s else s.ringStop q p e 5 (ceTag (ofLE d))
  else s

/-- The heads of every ring of a partition looked at, after extents have been lost or moved (R191). -/
def State.ringChecks (s : State) (p : Nat) : State :=
  (List.range 4).foldl (fun t q => (List.range 5).foldl (fun t e => t.ringCheck q p e) t) s

/-- Those of every partition. -/
def State.allRings (s : State) : State := (List.range 32).foldl State.ringChecks s

/-- True when no earlier command of a ring is still to complete: a STEP_REPLAY of the sequencer, a program or a command of
a Mover channel (R190). -/
def State.ringDrained (s : State) (q p e : Nat) : Bool :=
  if e = 0 then !(s.rdb F.SEQ_STEP_REPLAY [p] && s.rd V.REPLAY_QUAD [p] == q)
  else if e = 3 then [0, 1, 2].all fun c => !s.rdb V.MOV_START_E [q, p, c] && (SMap.get s.movCmds [q, p, c] []).isEmpty
  else true

/-- A command of a ring: the entry must be the one at the head and have the row's opcode, and a FENCE waits for every
earlier command. -/
def State.ringCmd (s : State) (q p e op entry : Nat) : Bool :=
  q < 4 && p < 32 && s.ringHead q p e == some entry && ceOpcode entry == op && (!ceFence entry || s.ringDrained q p e)

/-- A command taken from its ring: CONS moves on, the next head is looked at, and the start is offered to the
sampler. -/
def State.cmdStart (s : State) (q p e entry : Nat) : State :=
  let addr := s.ringAddr q p e
  let since := s.rd V.HEAD_CYC [q, p, e]
  let wait := if since = 0 then 0 else s.rd V.CYCLE [q] + 1 - since
  ((s.ringTake q p e).sampleBegin 3 p [q, 3, p, e, entry] (8 * q + e) (ceTag entry) addr wait).ringCheck q p e

end Sys2Proof.Machine
end

