-- ==== Sys2Proof/Machine/Soft.lean ====
section
/-! DEFINITION. The binary32 and binary64 operations of the update recipes (R237, R244, R246, R247): each rounds once to
nearest even, keeps subnormals and signed zeros, and gives none where the IEEE result is infinite or not a number; and the operations on words that may be
either, for the results that keep them (R237, R247, R258, R259, R267). -/

namespace Sys2Proof.Machine

/-- A magnitude rounded to a format with a sign bit put on; none on overflow. -/
def roundSigned (f : Fmt) (neg : Bool) (x : Ex) : Option Nat :=
  let (b, o) := toFloat f { x with neg := false } .rne
  if o then none else some (b + b2n neg * 2 ^ (f.ebits + f.mbits))

/-- The sign bit of a word. -/
def fNeg (f : Fmt) (a : Nat) : Bool := bitOf a (f.ebits + f.mbits)

def fMul (f : Fmt) (a b : Nat) : Option Nat := do
  let x ← decodeFloat f a
  let y ← decodeFloat f b
  roundSigned f (fNeg f a != fNeg f b) (exMul x y)

def fAdd (f : Fmt) (a b : Nat) : Option Nat := do
  let x ← decodeFloat f a
  let y ← decodeFloat f b
  let z := exAdd x y
  roundSigned f (if z.n = 0 then fNeg f a && fNeg f b else z.neg) z

/-- The negation of a word. -/
def fFlip (f : Fmt) (a : Nat) : Nat :=
  let s := 2 ^ (f.ebits + f.mbits)
  if fNeg f a then a - s else a + s

def fSub (f : Fmt) (a b : Nat) : Option Nat := fAdd f a (fFlip f b)

def fDiv (f : Fmt) (a b : Nat) : Option Nat := do
  let x ← decodeFloat f a
  let y ← decodeFloat f b
  if y.n = 0 then none else roundSigned f (fNeg f a != fNeg f b) (exDiv x y)

/-- The integer square root, bit by bit from bit n − 1 down. -/
def isqrtBits : Nat → Nat → Nat → Nat
  | 0, _, r => r
  | n + 1, x, r => let t := r + 2 ^ n; isqrtBits n x (if t * t ≤ x then t else r)

/-- A rational whose rounding to any format here equals that of the square root of x: 64 and more bits of the root and
a sticky half. -/
def exSqrt (x : Ex) : Ex :=
  let k := 80 + bitLen x.d
  let y := x.n * 4 ^ k / x.d
  let r := isqrtBits ((bitLen y + 1) / 2) y 0
  let exact := r * r == y && x.n * 4 ^ k % x.d == 0
  ⟨false, 2 * r + (if exact then 0 else 1), 2 ^ (k + 1)⟩

def fSqrt (f : Fmt) (a : Nat) : Option Nat := do
  let x ← decodeFloat f a
  if x.n = 0 then some a else if x.neg then none else roundSigned f false (exSqrt x)

/-- An exact value rounded to a format. -/
def fOfEx (f : Fmt) (x : Ex) : Option Nat := roundSigned f x.neg x

/-- A word of one format rounded to another. -/
def fCast (f g : Fmt) (a : Nat) : Option Nat := do
  let x ← decodeFloat f a
  roundSigned g (fNeg f a) x

def exPow (x : Ex) (n : Nat) : Ex := ⟨x.neg && decide (n % 2 = 1), x.n ^ n, x.d ^ n⟩

/-- x to the power n as one rounded operation. -/
def fPow (f : Fmt) (a n : Nat) : Option Nat := do
  let x ← decodeFloat f a
  fOfEx f (exPow x n)

/-! Short names of the binary32 operations, and 1.0. -/

def mul32 (a b : Nat) : Option Nat := fMul fmtFp32 a b
def add32 (a b : Nat) : Option Nat := fAdd fmtFp32 a b
def sub32 (a b : Nat) : Option Nat := fSub fmtFp32 a b
def div32 (a b : Nat) : Option Nat := fDiv fmtFp32 a b
def sqrt32 (a : Nat) : Option Nat := fSqrt fmtFp32 a
def one32 : Nat := 0x3F800000
def one64 : Nat := 0x3FF0000000000000

/-- sign of R244: −1.0, 0.0 or 1.0. -/
def sign32 (a : Nat) : Nat := if a % 2 ^ 31 = 0 then 0 else if bitOf a 31 then 0xBF800000 else one32

/-- bc of R246: 1 / (1 − beta^t) in binary64, rounded once to binary32. -/
def biasCorr (beta t : Nat) : Option Nat := do
  let b ← fCast fmtFp32 fmtFp64 beta
  let p ← fPow fmtFp64 b t
  let d ← fSub fmtFp64 one64 p
  let q ← fDiv fmtFp64 one64 d
  fCast fmtFp64 fmtFp32 q

/-! ## IEEE 754 words with NaN and infinity (R258, R259, R267) -/

/-- The all-ones exponent with a zero mantissa: infinity. -/
def infBits (f : Fmt) : Nat := (2 ^ f.ebits - 1) * 2 ^ f.mbits

def ieInf (f : Fmt) (a : Nat) : Bool := !f.e4m3 && a % 2 ^ (f.ebits + f.mbits) == infBits f
def ieNan (f : Fmt) (a : Nat) : Bool := (decodeFloat f a).isNone && !ieInf f a

/-- A NaN of a format, its payload and sign free values of the operands. -/
def nanWord (f : Fmt) (a b c : Nat) : Nat :=
  let x := Config.nanBits a b c
  if f.e4m3 then 2 ^ (f.ebits + f.mbits) - 1 + x % 2 * 2 ^ (f.ebits + f.mbits)
  else infBits f + 1 + x / 2 % (2 ^ f.mbits - 1) + x % 2 * 2 ^ (f.ebits + f.mbits)

def signedBits (f : Fmt) (neg : Bool) (m : Nat) : Nat := m + b2n neg * 2 ^ (f.ebits + f.mbits)

/-- An exact value rounded once; infinity on overflow. -/
def ieRound (f : Fmt) (neg : Bool) (x : Ex) : Nat := (roundSigned f neg x).getD (signedBits f neg (infBits f))

/-- A product's sign, and its kind: none NaN, else infinite or the exact value. -/
def ieProd (fa fb : Fmt) (a b : Nat) : Option (Bool × Option Ex) :=
  let neg := fNeg fa a != fNeg fb b
  if ieNan fa a || ieNan fb b then none
  else match decodeFloat fa a, decodeFloat fb b with
    | some x, some y => some (neg, some (exMul x y))
    | some x, none => if x.n = 0 then none else some (neg, none)
    | none, some y => if y.n = 0 then none else some (neg, none)
    | none, none => some (neg, none)

/-- acc + a × b with one binary32 rounding: the array's step (R258). -/
def ieFma (fa fb : Fmt) (acc a b : Nat) : Nat :=
  let nan := nanWord fmtFp32 acc (min a b) (max a b)
  if ieNan fmtFp32 acc then nan
  else match ieProd fa fb a b with
    | none => nan
    | some (neg, none) =>
      if ieInf fmtFp32 acc && fNeg fmtFp32 acc != neg then nan else signedBits fmtFp32 neg (infBits fmtFp32)
    | some (neg, some x) =>
      match decodeFloat fmtFp32 acc with
      | none => acc
      | some c =>
        let z := exAdd c x
        ieRound fmtFp32 (if z.n = 0 then fNeg fmtFp32 acc && neg else z.neg) z

def ieAdd (f : Fmt) (a b : Nat) : Nat :=
  if ieNan f a || ieNan f b || (ieInf f a && ieInf f b && fNeg f a != fNeg f b) then nanWord f 0 a b
  else if ieInf f a then a
  else if ieInf f b then b
  else match decodeFloat f a, decodeFloat f b with
    | some x, some y =>
      let z := exAdd x y
      ieRound f (if z.n = 0 then fNeg f a && fNeg f b else z.neg) z
    | _, _ => nanWord f 0 a b

def ieSub (f : Fmt) (a b : Nat) : Nat := ieAdd f a (fFlip f b)

def ieMul (f : Fmt) (a b : Nat) : Nat :=
  match ieProd f f a b with
  | none => nanWord f 1 a b
  | some (neg, none) => signedBits f neg (infBits f)
  | some (neg, some x) => ieRound f neg x

def ieDiv (f : Fmt) (a b : Nat) : Nat :=
  let neg := fNeg f a != fNeg f b
  if ieNan f a || ieNan f b || (ieInf f a && ieInf f b) then nanWord f 2 a b
  else if ieInf f a then signedBits f neg (infBits f)
  else if ieInf f b then signedBits f neg 0
  else match decodeFloat f a, decodeFloat f b with
    | some x, some y =>
      if y.n = 0 then (if x.n = 0 then nanWord f 2 a b else signedBits f neg (infBits f)) else ieRound f neg (exDiv x y)
    | _, _ => nanWord f 2 a b

def ieSqrt (f : Fmt) (a : Nat) : Nat :=
  if ieNan f a then nanWord f 3 a 0
  else match decodeFloat f a with
    | some x => if x.n = 0 then a else if x.neg then nanWord f 3 a 0 else ieRound f false (exSqrt x)
    | none => if fNeg f a then nanWord f 3 a 0 else a

/-- A word rounded to another format. -/
def ieCast (f g : Fmt) (a : Nat) : Nat :=
  if ieNan f a then nanWord g 4 a 0
  else match decodeFloat f a with
    | some x => ieRound g (fNeg f a) x
    | none => signedBits g (fNeg f a) (infBits g)

/-- A binary32 result, none where it is infinite or a NaN. -/
def fin32 (a : Nat) : Option Nat := if (decodeFloat fmtFp32 a).isSome then some a else none

end Sys2Proof.Machine
end

