-- ==== Sys2Proof/Machine/Mit.lean ====
section
/-! DEFINITION. Mitten: contexts, round buffers, stage arithmetic, rounds, roles and notices (spec/09_mitten.md). -/

namespace Sys2Proof.Machine

/-! ## Contexts (R280, R281, R283) -/

/-- A context entry (R281). -/
structure CtxE where
  valid : Bool
  pod : Bool
  planes : Bool
  self : Bool
  op : Nat
  ni : Bool
  ty : Nat
  w : Nat
  primary : Nat
  mirror : Nat
  set : Nat
  group : Nat
  resultEn : Bool
  courier0 : Nat
  courier1 : Nat
  patience : Nat
  xs : Nat
  ys : Nat
  deriving DecidableEq, Repr

def ctxOfBits (x : Nat) : CtxE :=
  { valid := bitOf x 0, pod := bitOf x 1, planes := bitOf x 2, self := bitOf x 3, op := bitsOf x 4 3, ni := bitOf x 7,
    ty := bitsOf x 8 2, w := bitsOf x 16 10, primary := bitsOf x 32 5, mirror := bitsOf x 40 5, set := bitsOf x 48 8,
    group := bitsOf x 64 12, resultEn := bitOf x 79, courier0 := bitsOf x 80 12, courier1 := bitsOf x 96 12,
    patience := bitsOf x 128 20, xs := bitsOf x 160 5, ys := bitsOf x 168 5 }

/-- The context entry at index i of a partition's COLL image. -/
def Images.ctxEntry (v : Images) (p i : Nat) : CtxE := ctxOfBits (v.le 0x08 4 p (0x100000 + 64 * i) 22)

/-- The owner and entry of a context, if a partition owns it and its entry is valid. -/
def Images.ctx (v : Images) (c : Nat) : Option (Nat × CtxE) :=
  match v.mitOwner c with
  | some p => let e := v.ctxEntry p (c - v.mitBase p); if e.valid then some (p, e) else none
  | none => none

/-- True when a valid context is active on this module (R283). -/
def State.ctxActive (s : State) (e : CtxE) : Bool :=
  if e.ni then s.myPlane == e.primary || s.myPlane == e.mirror
  else !e.pod || (bitOf e.xs s.myX && bitOf e.ys s.myY)

/-! ## Stage values (R285, R287, R288) -/

/-- Elements of a TYPE: count and width in bits. -/
def mitShape : Nat → Nat × Nat
  | 0 => (4, 128) | 1 => (8, 64) | 2 => (16, 32) | _ => (1, 512)

def mitFmt (ty : Nat) : Fmt := if ty = 1 then fmtFp64 else fmtFp32

/-- A ledger value limited to |L| ≤ 2^127 − 1, and whether it was larger. -/
def lim127 (l : Int) : Int × Bool :=
  if 2 ^ 127 - 1 < l then (2 ^ 127 - 1, true) else if l < -(2 ^ 127 - 1 : Int) then (-(2 ^ 127 - 1 : Int), true) else (l, false)

/-- An input element of a SUM on the ledger grid. -/
def mitInput (e : CtxE) (x : Nat) : Int × Flg :=
  if e.ty = 0 then let (l, o) := lim127 (signed 128 x); (l, ⟨o, false⟩)
  else match decodeFloat (mitFmt e.ty) x with
    | none => (0, ⟨false, true⟩)
    | some v =>
      let m := roundAt v (windowOf e.w - 100) .rne
      let (l, o) := lim127 (if v.neg then -(m : Int) else m)
      (l, ⟨o, false⟩)

/-- The emitted element of a SUM stage: saturated once, and converted to TYPE for an FP type. -/
def mitEmit (e : CtxE) (l : Int) : Nat × Bool :=
  let (t, o) := sat128 l
  if e.ty = 0 then (unsigned 128 t, o)
  else
    let (b, o') := toFloat (mitFmt e.ty) (exScale (exOfInt t) (windowOf e.w - 100)) .rne
    (b, o || o')

/-- The value of an FP word as MAX and MIN compare it, none for a NaN: an infinity stands beyond every finite magnitude. -/
def mitOrder (f : Fmt) (x : Nat) : Option Ex :=
  if x % 2 ^ (f.ebits + f.mbits) = infBits f then some ⟨fNeg f x, 2 ^ 2 ^ f.ebits, 1⟩ else decodeFloat f x

/-- One element of a MAX or MIN stage on an FP type: the extreme of the inputs that are no NaN, zero as +0 (R288). -/
def mitExtremeFp (e : CtxE) (xs : List Nat) : Nat × Flg :=
  let f := mitFmt e.ty
  let vs := xs.filterMap fun x => (mitOrder f x).map fun v => (x, v)
  let best := vs.foldl (fun (b : Option (Nat × Ex)) v =>
    match b with
    | none => some v
    | some u => if (if e.op = 2 then exLt u.2 v.2 else exLt v.2 u.2) then some v else some u) none
  let inv := decide (vs.length < xs.length)
  match best with
  | some (x, v) => (if v.n = 0 then 0 else x, ⟨false, inv⟩)
  | none => (0, ⟨false, inv⟩)

/-- One element of a MAX or MIN stage on L128. -/
def mitExtremeInt (op : Nat) (xs : List Nat) : Nat :=
  match xs.map (signed 128) with
  | [] => 0
  | y :: ys => unsigned 128 (ys.foldl (fun a b => if op = 2 then max a b else min a b) y)

/-- Element i of a stage. -/
def mitElem (e : CtxE) (xs : List Nat) : Nat × Flg :=
  if e.op = 0 then
    let ins := xs.map (mitInput e)
    let (b, o) := mitEmit e (ins.foldl (fun n i => n + i.1) 0)
    (b, ⟨o || ins.any fun i => i.2.ovf, ins.any fun i => i.2.inv⟩)
  else if e.ty = 0 then (mitExtremeInt e.op xs, flg0)
  else mitExtremeFp e xs

/-- One stage: its full set of inputs combined; OP is 0 SUM, 2 MAX, 3 MIN, 4 AND, 5 OR (R281). -/
def mitStage (e : CtxE) (ins : List MVal) : MVal :=
  let fl : Flg := ⟨ins.any fun m => m.ovf, ins.any fun m => m.inv⟩
  if e.op = 4 then ⟨ins.foldl (fun a m => a &&& m.v) (2 ^ 512 - 1), fl.ovf, fl.inv⟩
  else if e.op = 5 then ⟨ins.foldl (fun a m => a ||| m.v) 0, fl.ovf, fl.inv⟩
  else
    let (n, w) := mitShape e.ty
    let r := (List.range n).foldl (fun (acc : Nat × Flg) i =>
      let (b, f) := mitElem e (ins.map fun m => bitsOf m.v (w * i) w)
      (acc.1 + b * 2 ^ (w * i), flgOr acc.2 f)) (0, fl)
    ⟨r.1, r.2.ovf, r.2.inv⟩

/-! ## Packets of class M (R284, R277) -/

def pkCtx (k : Packet) : Nat := pkF k 128 10
def pkStage (k : Packet) : Nat := pkF k 144 3
def pkSubject (k : Packet) : Nat := pkF k 147 5
def pkMval (k : Packet) : MVal := ⟨leAt k.payload 0 64, pkF k 154 1 == 1, pkF k 155 1 == 1⟩

/-- OPSPEC of class M. -/
def mitSpec (ctx stage subject role aborted : Nat) (m : MVal) : Nat :=
  ctx + stage * 2 ^ 16 + subject * 2 ^ 19 + role * 2 ^ 24 + aborted * 2 ^ 25 + b2n m.ovf * 2 ^ 26 + b2n m.inv * 2 ^ 27

/-- A class M packet of a partition. -/
def State.mitPacket (s : State) (op ctx p hop dstType dst seq resend spec : Nat) (body : List Byte) : Packet :=
  mkPacket (mkHdr op (vcAt .m hop) (s.stamp p) p 1 dstType 1 dst (s.ownAddr (ctx % 4)) seq spec + resend * 2 ^ 36) body

/-- A packet put in the class M egress buffer of an external port, with what its header takes as it leaves (R277). -/
def State.mitPut (s : State) (k : Packet) (origin inPort sender : Nat) (d : Dest) : State :=
  let u := s.rd V.PKT_UID []
  let r : Reas := { pkt := k, dest := d, origin := origin, inPort := inPort, release := s.rd V.CYCLE [d.quad], arrive := s.timeNs,
                    admitted := s.rd V.CYCLE [d.quad], since := s.timeNs, uid := u, sender := sender }
  let s := s.wr V.PKT_UID [] (u + 1)
  let s := if origin = 2 then s.countLocal (pkCtx k % 4) 55 6 (pkPart k) 1 else s
  { s with mitEgress := SMap.set [d.quad, d.port] (SMap.get s.mitEgress [d.quad, d.port] [] ++ [r]) s.mitEgress }

/-- The combiner writes a packet into the class M egress buffer of an external port. -/
def State.mitOut (s : State) (q port : Nat) (k : Packet) : State :=
  s.mitPut k 2 46 (pkPart k) ⟨q, port, pkVc k, pkRstate k, pkRplane k⟩

/-- A packet to a rank in the current stamp bank: on its downlink, or by relay through the buddy when that is down or withdrawn (R96, R450); otherwise
discarded and counted (R108); one that would cross a seam declared down is lost (log entry 70). -/
def State.mitToRank (s : State) (q p rank : Nat) (k : Packet) : State :=
  match s.img.rankEntry (s.stamp p) p rank with
  | some r =>
    if r.x == s.myX && r.y == s.myY then
      match s.toDownlink ⟨q, 2, 0⟩ p (s.stamp p) .m 0 0 r with
      | .goal ds => ds.foldl (fun t d => if t.seamOk q d.quad then t.mitPut k 2 46 p d else t.countDiscard q 46 p .unreachable) s
      | .drop c => s.countDiscard q 46 p c
    else s
  | none => s.countDiscard q 46 p .noRoute

/-- True when an uplink's port is open. -/
def State.upOpen (s : State) (u : Nat) : Bool := s.rdb F.COR_PORT_OPEN [u / 4, 36 + u % 4]

/-- A packet of quadrant q's combiner written to the even uplink of a pair, or to the odd one when the even one is down (R295).  DESIGN CHOICE (log entry
70): one that would cross a seam declared down is lost, and counted under UNREACHABLE. -/
def State.mitToPair (s : State) (q u : Nat) (k : Packet) : State :=
  let v := if s.upOpen u then u else u + 1
  if !s.upOpen v then s
  else if s.seamOk q (v / 4) then s.mitOut (v / 4) (36 + v % 4) k else s.countDiscard q 46 (pkPart k) .unreachable

/-! ## Peers and contributors (R290, R292) -/

/-- The row peers of a POD context, as X coordinates, and its column peers, as Y coordinates. -/
def State.rowPeers (s : State) (e : CtxE) : List Nat := if e.pod then (onesOf 5 e.xs).filter fun x => x != s.myX else []
def State.colPeers (s : State) (e : CtxE) : List Nat := if e.pod then (onesOf 5 e.ys).filter fun y => y != s.myY else []

/-- The local members of a context as (rank, acc). -/
def State.mitMembers (s : State) (p : Nat) (e : CtxE) : List (Nat × Nat) :=
  if e.ni then
    (onesOf 4096 (s.img.memberSet p e.set)).filterMap fun r =>
      match s.img.rankEntry (s.stamp p) p r with
      | some t => if t.x == s.myX && t.y == s.myY then some (r, t.acc) else none
      | none => none
  else []

/-- The expected contributors of the rack value, as (kind, index): members by ACC, the module itself, the other
planes. -/
def State.rackExpected (s : State) (p : Nat) (e : CtxE) : List Key :=
  (s.mitMembers p e).map (fun m => [1, m.2])
    ++ (if e.self then [[5, 0]] else [])
    ++ (if e.planes then ((List.range 18).filter fun n => n != s.myPlane).map fun n => [2, n] else [])

def State.rowExpected (s : State) (e : CtxE) : List Key := (s.rowPeers e).map fun x => [3, x]
def State.colExpected (s : State) (e : CtxE) : List Key := (s.colPeers e).map fun y => [4, y]

/-- Inputs of a round from a list of contributors, none while one is missing. -/
def roundInputs (r : Round) (ks : List Key) : Option (List MVal) := ks.mapM fun k => SMap.find k r.inputs

/-! ## Round buffers (R289) -/

def mitKey (c seq : Nat) : Key := [c, seq % 2]

def State.mitStat (s : State) (c k : Nat) : State :=
  (s.bumpOvf F.MIT_STAT_COUNT F.MIT_STAT_OVF [c % 4, k] 1).countLocal (c % 4) 55 (16 + k) ((s.img.mitOwner c).getD 0) 1

def State.roundPut (s : State) (c : Nat) (r : Round) : State := { s with mit := SMap.set (mitKey c r.seq) r s.mit }
def State.roundGet (s : State) (c seq : Nat) : Option Round :=
  match SMap.find (mitKey c seq) s.mit with
  | some r => if r.seq = seq then some r else none
  | none => none

def State.ctxRole (s : State) (c : Nat) : Nat := s.rd F.MIT_CTX_ROLE [c % 4, c / 4]

/-- A buffer opened for a round, with the joining rule of R301. -/
def State.roundOpen (s : State) (c seq p : Nat) (e : CtxE) : State :=
  let ix := [c % 4, c / 4]
  let joining := s.rdb F.MIT_CTX_JOINING ix
  let silent := joining && !s.rdb V.MIT_FIRST [c]
  let s := s.wr F.MIT_CTX_SEQ ix seq
  let s := if joining then (if silent then s.wr V.MIT_FIRST [c] 1 else (s.wr F.MIT_CTX_JOINING ix 0).wr V.MIT_FIRST [c] 0) else s
  let ms := if e.patience ≠ 0 then e.patience
    else (let d := bitsOf (s.img.le 0x08 4 p 8 4) 0 20; if d = 0 then 10000 else d)
  s.roundPut c { seq := seq, st := 1, silent := silent, deadline := s.timeNs + ms * 10 ^ 6, inputs := [], rack := none,
                 row := none, pod := none, resendIv := 0, carryIv := 0 }

/-- What the buffer holds for a round (R289). -/
inductive BufUse where
  | opens | adds | again | stale | ahead
  deriving DecidableEq, Repr

def State.bufUse (s : State) (c seq : Nat) : BufUse :=
  match SMap.find (mitKey c seq) s.mit with
  | none => .opens
  | some r =>
    if r.seq = seq then (if r.st = 1 then .adds else .again)
    else if before32 seq r.seq then .stale
    else if r.st = 1 then .ahead
    else .opens

/-! ## Sending (R290, R291, R295, R297) -/

/-- RESULT to the ranks of the result group on the module's own downlinks, one copy each. -/
def State.mitSendResult (s : State) (c p : Nat) (e : CtxE) (seq aborted : Nat) (m : MVal) : State :=
  if !e.resultEn then s
  else
    let g := s.img.group p e.group
    let k := s.mitPacket 0x51 c p 0 1 e.group seq 0 (mitSpec c 5 0 (s.ctxRole c) aborted m) (leBytes 64 m.v)
    if g.valid && g.rx == p then
      (s.localRanks (s.stamp p) p (s.img.memberSet p g.set)).foldl (fun t r => t.mitToRank (c % 4) p r k) s
    else s

/-- RESULT again, to one rank. -/
def State.mitResultTo (s : State) (c p rank seq aborted : Nat) (m : MVal) : State :=
  s.mitToRank (c % 4) p rank (s.mitPacket 0x51 c p 0 0 rank seq 1 (mitSpec c 5 0 (s.ctxRole c) aborted m) (leBytes 64 m.v))

/-- The module's rack value as ROW to the row peer in column x. -/
def State.mitRowTo (s : State) (c p seq resend x : Nat) (m : MVal) : State :=
  s.mitToPair (c % 4) (2 * peerIndex s.myX x)
    (s.mitPacket 0x50 c p 1 2 (switchAddr x s.myY 0) seq resend (mitSpec c 1 0 0 0 m) (leBytes 64 m.v))

/-- The row sum as COLUMN to the column peer in row y. -/
def State.mitColTo (s : State) (c p seq resend y : Nat) (m : MVal) : State :=
  s.mitToPair (c % 4) (8 + 2 * peerIndex s.myY y)
    (s.mitPacket 0x50 c p 1 2 (switchAddr s.myX y 0) seq resend (mitSpec c 2 0 0 0 m) (leBytes 64 m.v))

/-- The module's own value as CARRY to both couriers; an armed injection of detector 0x0F inverts payload bit 0 of the
copy to COURIER1 (R559). -/
def State.mitCarry (s : State) (c p : Nat) (e : CtxE) (seq resend : Nat) (m : MVal) : State :=
  let hit := s.rd V.INJ_KIND [] == 1 && s.rd V.INJ_DET [] == 0x0F && s.rd V.INJ_TARGET [] == c
  let k := fun (rank : Nat) (v : MVal) =>
    s.mitPacket 0x51 c p 0 0 rank seq resend (mitSpec c 3 s.myPlane 0 0 v) (leBytes 64 v.v)
  let m1 := if hit then { m with v := m.v ^^^ 1 } else m
  let t := (s.mitToRank (c % 4) p e.courier0 (k e.courier0 m)).mitToRank (c % 4) p e.courier1 (k e.courier1 m1)
  if hit then t.injFired else t

/-! ## Advancing a round (R290) -/

/-- The rack value formed once its expected set is complete, and sent to the row peers. -/
def State.mitRack (s : State) (c p : Nat) (e : CtxE) (r : Round) : State × Round :=
  match r.rack with
  | some _ => (s, r)
  | none =>
    match roundInputs r (s.rackExpected p e) with
    | none => (s, r)
    | some ins =>
      let m := mitStage e ins
      let s := if r.silent then s else (s.rowPeers e).foldl (fun t x => t.mitRowTo c p r.seq 0 x m) s
      (s, { r with rack := some m, resendIv := s.rd F.MIT_CTL_PEER_RESEND [] })

/-- The row sum formed once every row peer's value is there, and sent to the column peers. -/
def State.mitRow (s : State) (c p : Nat) (e : CtxE) (r : Round) : State × Round :=
  match r.rack, r.row with
  | some own, none =>
    if !e.pod then (s, { r with row := some own })
    else match roundInputs r (s.rowExpected e) with
      | none => (s, r)
      | some ins =>
        let m := mitStage e (own :: ins)
        let s := if r.silent then s else (s.colPeers e).foldl (fun t y => t.mitColTo c p r.seq 0 y m) s
        (s, { r with row := some m, resendIv := s.rd F.MIT_CTL_PEER_RESEND [] })
  | _, _ => (s, r)

/-- The pod result formed once every column peer's row sum is there: the round is DONE and its result sent. -/
def State.mitPod (s : State) (c p : Nat) (e : CtxE) (r : Round) : State × Round :=
  match r.row, r.pod with
  | some own, none =>
    let fin := fun (m : MVal) =>
      let s := s.mitStat c 0
      let s := if r.silent then s else s.mitSendResult c p e r.seq 0 m
      (s, { r with pod := some m, st := 2 })
    if !e.pod then fin own
    else match roundInputs r (s.colExpected e) with
      | none => (s, r)
      | some ins => fin (mitStage e (own :: ins))
  | _, _ => (s, r)

/-- Every stage that can run, in order. -/
def State.mitAdvance (s : State) (c p seq : Nat) (e : CtxE) : State :=
  match s.roundGet c seq with
  | none => s
  | some r =>
    let (s, r) := s.mitRack c p e r
    let (s, r) := s.mitRow c p e r
    let (s, r) := s.mitPod c p e r
    s.roundPut c r

/-- An input recorded under its contributor; a repeat counts under DUP. -/
def State.mitAdd (s : State) (c p seq : Nat) (e : CtxE) (who : Key) (m : MVal) : State :=
  match s.roundGet c seq with
  | none => s
  | some r =>
    match SMap.find who r.inputs with
    | some _ => s.mitStat c 1
    | none => (s.roundPut c { r with inputs := SMap.set who m r.inputs }).mitAdvance c p seq e

/-- An input that reaches its context: opened, added, answered, or ignored (R289, R291). -/
def State.mitInputAt (s : State) (c p seq : Nat) (e : CtxE) (who : Key) (m : MVal) (answer : State → Round → State) : State :=
  match s.bufUse c seq with
  | .opens => (s.roundOpen c seq p e).mitAdd c p seq e who m
  | .adds => s.mitAdd c p seq e who m
  | .again =>
    match s.roundGet c seq with
    | some r => answer s r
    | none => s
  | .stale => s.mitStat c 4
  | .ahead => s.mitStat c 5

/-- The module's own contribution to a context (SELF): its CARRY goes out in a PLANES context. -/
def State.mitSelf (s : State) (c p seq : Nat) (e : CtxE) (m : MVal) : State :=
  let s := s.mitInputAt c p seq e [5, 0] m fun t _ => t
  if e.planes then
    match s.roundGet c seq with
    | some r =>
      if r.carryIv = 0 && !r.silent then
        (s.mitCarry c p e seq 0 m).roundPut c { r with carryIv := s.rd F.MIT_CTL_PEER_RESEND [] }
      else s
    | none => s
  else s

/-! ## The packet commands -/

/-- A class M packet that its context ignores (R283). -/
def State.mitIgnored (s : State) (c : Nat) : State := s.mitStat c 3

/-- The active context that a packet names, in the packet's own partition. -/
def State.ctxFor (s : State) (k : Packet) : Option CtxE :=
  match s.img.ctx (pkCtx k) with
  | some (p, e) => if p = pkPart k && s.ctxActive e then some e else none
  | none => none

/-- Of the packets that reach one buffer in one cycle, the combiner applies those of the local lane first, then those of the seams in ascending quadrant (R293). -/
def State.laneFirst (s : State) (q : Nat) (k : Packet) : Bool :=
  let l := SMap.get s.svc [q, 46] []
  match l.find? fun h => h.pkt == k with
  | some h => !(l.any fun g => mitKey (pkCtx g.pkt) (pkSeq g.pkt) == mitKey (pkCtx k) (pkSeq k) && g.admitted == h.admitted && decide (g.bank < h.bank))
  | none => true

/-- The end-to-end check at the combiner, and the length check of R279. -/
def State.atCombiner (s : State) (k : Packet) (f : State → State) : State :=
  let q := pkCtx k % 4
  if !s.laneFirst q k then s else
  let s := s.takeSvc q 46 k
  if pkPayUnits k ≠ 1 then s.countDiscard q 46 (pkPart k) .format
  else match serviceCause k with
    | some c => (s.e2eRecord q k c).countDiscard q 46 (pkPart k) c
    | none => f s

/-- The answer to a member's value that comes after its round has closed. -/
def mitMemberLate (c p rank : Nat) (t : State) (rd : Round) : State :=
  if rd.silent then t
  else match rd.pod with
    | some m => t.mitResultTo c p rank rd.seq (b2n (rd.st = 3)) m
    | none => t.mitResultTo c p rank rd.seq 1 ⟨0, false, false⟩

/-- The answer to a ROW value that the round already holds. -/
def mitRowLate (c p x : Nat) (t : State) (rd : Round) : State :=
  match rd.rack with
  | some m => if rd.silent then t else t.mitRowTo c p rd.seq 1 x m
  | none => t

/-- The answer to a COLUMN value that the round already holds. -/
def mitColLate (c p y : Nat) (t : State) (rd : Round) : State :=
  match rd.row with
  | some m => if rd.silent then t else t.mitColTo c p rd.seq 1 y m
  | none => t

/-- The answer to a courier's value that the round already holds. -/
def mitCourierLate (c p : Nat) (e : CtxE) (t : State) (rd : Round) : State :=
  match SMap.find [5, 0] rd.inputs with
  | some m => if rd.silent then t else t.mitCarry c p e rd.seq 1 m
  | none => t

/-- MIT_MEMBER. -/
def State.mitMember (s : State) (k : Packet) : State :=
  s.atCombiner k fun s =>
    let c := pkCtx k
    let p := pkPart k
    match s.ctxFor k, s.img.rankEntry (pkEpoch k) p (dstRank (pkSrc k)) with
    | some e, some r =>
      if !e.ni || !bitOf (s.img.memberSet p e.set) (dstRank (pkSrc k)) then s.mitIgnored c
      else s.mitInputAt c p (pkSeq k) e [1, r.acc] (pkMval k) (mitMemberLate c p (dstRank (pkSrc k)))
    | _, _ => s.mitIgnored c

/-- MIT_ROW. -/
def State.mitRowIn (s : State) (k : Packet) : State :=
  s.atCombiner k fun s =>
    let c := pkCtx k
    let p := pkPart k
    let x := dstX (pkSrc k)
    match s.ctxFor k with
    | some e =>
      if !e.pod || pkSrcType k ≠ 1 || dstY (pkSrc k) ≠ s.myY || !(s.rowPeers e).contains x then s.mitIgnored c
      else s.mitInputAt c p (pkSeq k) e [3, x] (pkMval k) (mitRowLate c p x)
    | none => s.mitIgnored c

/-- MIT_COLUMN. -/
def State.mitColumnIn (s : State) (k : Packet) : State :=
  s.atCombiner k fun s =>
    let c := pkCtx k
    let p := pkPart k
    let y := dstY (pkSrc k)
    match s.ctxFor k with
    | some e =>
      if !e.pod || pkSrcType k ≠ 1 || dstX (pkSrc k) ≠ s.myX || !(s.colPeers e).contains y then s.mitIgnored c
      else s.mitInputAt c p (pkSeq k) e [4, y] (pkMval k) (mitColLate c p y)
    | none => s.mitIgnored c

/-- MIT_COURIER: recorded once under plane bit SUBJECT; a differing second copy counts MISMATCH (R297). -/
def State.mitCourier (s : State) (k : Packet) : State :=
  s.atCombiner k fun s =>
    let c := pkCtx k
    let p := pkPart k
    let n := pkSubject k
    let src := dstRank (pkSrc k)
    match s.ctxFor k with
    | some e =>
      if !e.planes || (src ≠ e.courier0 && src ≠ e.courier1) || 18 ≤ n || n = s.myPlane then s.mitIgnored c
      else
        let s := match s.roundGet c (pkSeq k) with
          | some r =>
            match SMap.find [2, n] r.inputs with
            | some m =>
              if m = pkMval k then s
              else (s.mitStat c 7).err { det := 0x0F, sev := 1, part := p, quad := c % 4, unit := c, addr := pkSeq k }
            | none => s
          | none => s
        s.mitInputAt c p (pkSeq k) e [2, n] (pkMval k) (mitCourierLate c p e)
    | none => s.mitIgnored c

/-! ## Patience and resends (R292, R296, R297) -/

/-- The missing contributors of a round by kind, in the order of R290: members by rank, SELF, planes, row peers by peer
index, column peers by peer index. -/
def State.mitMissing (s : State) (p : Nat) (e : CtxE) (r : Round) : List (Nat × List Nat) :=
  let lack := fun (k : Key) => (SMap.find k r.inputs).isNone
  [(1, ((s.mitMembers p e).filter fun m => lack [1, m.2]).map Prod.fst),
   (5, if e.self && lack [5, 0] then [0] else []),
   (2, if e.planes then (List.range 18).filter fun n => n != s.myPlane && lack [2, n] else []),
   (3, ((s.rowPeers e).filter fun x => lack [3, x]).map (peerIndex s.myX)),
   (4, ((s.colPeers e).filter fun y => lack [4, y]).map (peerIndex s.myY))]

/-- An OPEN round of a context aborted: MIT_ABORT, RESULT with the missing count, and one contained record. -/
def State.mitAbort (s : State) (c p : Nat) (e : CtxE) (r : Round) (seq : Nat) : State :=
  let miss := s.mitMissing p e r
  let n := miss.foldl (fun a m => a + m.2.length) 0
  let (kind, first) := match miss.find? fun m => !m.2.isEmpty with
    | some (k, l) => (k, l.headD 0)
    | none => (0, 0)
  let v := n + first * 2 ^ 16 + kind * 2 ^ 32
  let ix := [c % 4]
  let s := (s.roundPut c { r with st := 3, pod := some ⟨v, false, false⟩ }).mitStat c 2
  let s := if s.rdb F.MIT_ABORT_VALID ix then s.wr F.MIT_ABORT_MORE ix 1 else s
  let s := ((((s.wr F.MIT_ABORT_CTX ix c).wr F.MIT_ABORT_KIND ix kind).wr F.MIT_ABORT_SEQ ix seq).wr
    F.MIT_ABORT_MISSING ix n).raise F.MIT_ABORT_VALID ix
  let s := if r.silent then s else s.mitSendResult c p e seq 1 ⟨v, false, false⟩
  s.err { det := 0x07, sev := 1, part := p, quad := c % 4, unit := c, cause := kind, addr := seq }

/-- MIT_ROUND_ABORT: an OPEN round's patience expires.  Its abort is made at the end of the cycle, so that a completion in the same cycle wins (R293). -/
def State.mitRoundAbort (s : State) (c seq : Nat) : State :=
  match s.img.ctx c, s.roundGet c seq with
  | some _, some r =>
    if r.st ≠ 1 then s else (s.roundPut c { r with due := true }).wr V.ROUND_DUE [] 1
  | _, _ => s

/-- The rounds whose patience has expired in the cycle, aborted at its end. -/
def State.roundsDue (s : State) : State :=
  if s.rdb V.ROUND_DUE [] then
    s.mit.foldl (fun t kv =>
      let c := kv.1.getD 0 0
      match t.img.ctx c, t.roundGet c kv.2.seq with
      | some (p, e), some r => if r.due && r.st == 1 then t.mitAbort c p e { r with due := false } r.seq else t
      | _, _ => t) (s.wr V.ROUND_DUE [] 0)
  else s

/-- The next interval of R296: doubled, up to 8 × PEER_RESEND. -/
def State.nextIv (s : State) (iv : Nat) : Nat := min (2 * iv) (8 * s.rd F.MIT_CTL_PEER_RESEND [])

/-- MIT_PEER_RESEND: the module's own ROW or COLUMN value again to each peer whose value is missing. -/
def State.mitPeerResend (s : State) (c seq : Nat) : State :=
  match s.img.ctx c, s.roundGet c seq with
  | some (p, e), some r =>
    if r.st ≠ 1 || r.silent then s
    else match r.rack, r.row with
      | some m, none =>
        let l := (s.rowPeers e).filter fun x => (SMap.find [3, x] r.inputs).isNone
        (l.foldl (fun t x => t.mitRowTo c p seq 1 x m) s).roundPut c { r with resendIv := s.nextIv r.resendIv }
      | _, some m =>
        let l := (s.colPeers e).filter fun y => (SMap.find [4, y] r.inputs).isNone
        (l.foldl (fun t y => t.mitColTo c p seq 1 y m) s).roundPut c { r with resendIv := s.nextIv r.resendIv }
      | none, none => s
  | _, _ => s

/-- MIT_CARRY_RESEND: CARRY again while a plane's value is missing. -/
def State.mitCarryResend (s : State) (c seq : Nat) : State :=
  match s.img.ctx c, s.roundGet c seq with
  | some (p, e), some r =>
    let lack := e.planes && (List.range 18).any fun n => n != s.myPlane && (SMap.find [2, n] r.inputs).isNone
    match SMap.find [5, 0] r.inputs with
    | some m =>
      if r.st = 1 && lack && !r.silent then
        (s.mitCarry c p e seq 1 m).roundPut c { r with carryIv := s.nextIv r.carryIv }
      else s
    | none => s
  | _, _ => s

/-- MIT_ROLE_SET: MIT_ROLE_CMD with GO = 1. -/
def State.mitRoleSet (s : State) (c role : Nat) : State := s.wr F.MIT_CTX_ROLE [c % 4, c / 4] role

/-- The buffers of a partition's contexts returned to empty (R294). -/
def State.mitEmpty (s : State) (own : Nat → Bool) : State :=
  { s with mit := SMap.eraseIf (fun k _ => own (k.getD 0 0)) s.mit }

/-- Every context in JOINING with ROLE = MIRROR (R301). -/
def State.mitJoin (s : State) : State :=
  (List.range 1024).foldl (fun t c =>
    ((t.wr F.MIT_CTX_ROLE [c % 4, c / 4] 1).wr F.MIT_CTX_JOINING [c % 4, c / 4] 1).wr V.MIT_FIRST [c] 0) s

/-! ## Notices (R302 to R305) -/

/-- The 48 downlinks of a quadrant and their presence in its PORT image. -/
def State.portPresent (s : State) (q k : Nat) : Bool := s.img.le 0x01 q 0 (64 + 8 * k) 1 % 2 == 1

/-- The present downlinks. -/
def State.presentDown (s : State) : List Nat := (List.range 144).filter fun n => s.portPresent (n / 36) (n % 36)

/-- The payload of a notice (R304): level is byte 16, reason byte 17, ports the mask of bytes 24 to 41. -/
def State.noticeBody (s : State) (kind level reason ports : Nat) : List Byte :=
  leBytes 1 kind ++ leBytes 1 s.myPlane ++ leBytes 6 0 ++ leBytes 8 s.timeNs ++ leBytes 1 level ++ leBytes 1 reason
    ++ leBytes 6 0 ++ leBytes 18 ports ++ leBytes 22 0

/-- The lowest rank that a partition's stamp bank maps to an accelerator, rank 0 when it maps none. -/
def State.lowestRank (s : State) (p acc : Nat) : Nat :=
  ((List.range 4096).find? fun r =>
    match s.img.rankEntry (s.stamp p) p r with
    | some t => t.x == s.myX && t.y == s.myY && t.acc == acc
    | none => false).getD 0

/-- One notice on one downlink: the packet, written to its egress and kept for its second send. -/
def State.noticeOn (s : State) (kind level reason ports seq n : Nat) : State :=
  let p := s.img.downOwner n
  let k := mkPacket (mkHdr 0x52 (vcAt .m 0) (s.stamp p) p 1 0 1 (if p = 0 then 0 else s.lowestRank p n) (s.ownAddr (n / 36)) seq
    (mitSpec 0 6 0 0 0 ⟨0, false, false⟩)) (s.noticeBody kind level reason ports)
  let t := s.mitOut (n / 36) (n % 36) k
  { t with notices := t.notices ++ [⟨n / 36, n % 36, k⟩] }

/-- A notice to a list of downlinks.  Notices of KIND 2, 3 and 5 are not sent while NOTICE_EN is 0 (R308). -/
def State.notice (s : State) (kind level reason : Nat) (ns : List Nat) : State :=
  if (kind == 2 || kind == 3 || kind == 5) && !s.rdb F.MIT_CTL_NOTICE_EN [] then s
  else
    let dests := ns.filter fun n => s.portPresent (n / 36) (n % 36)
    if dests.isEmpty then s
    else
      let seq := s.rd V.NOTICE_SEQ []
      let mask := if kind == 2 || kind == 3 then dests.foldl setBit 0 else 0
      let s := dests.foldl (fun t n => t.noticeOn kind level reason mask seq n) s
      (s.bumpOvf F.MIT_STAT_COUNT F.MIT_STAT_OVF [0, 6] 1).wr V.NOTICE_SEQ [] (seq + 1)

/-- A notice as it is sent again: RESEND = 1, the stamp bank of its partition now, and the rank that this bank gives its downlink (R99, R302). -/
def State.noticeAgain (s : State) (c : NoticeCopy) : Packet :=
  let p := pkPart c.pkt
  pkSealSource (pkSet (pkSet (pkSet c.pkt 36 1 1) 12 1 (s.stamp p)) 48 16 (if p = 0 then 0 else s.lowestRank p (36 * c.quad + c.port)))

/-- NOTICE_REPEAT: the oldest notice that is due goes out again. -/
def State.noticeRepeat (s : State) : State :=
  match s.notices with
  | [] => s
  | c :: r => ({ s with notices := r }).mitOut c.quad c.port (s.noticeAgain c)

/-- True when every external port is closed. -/
def State.allClosed (s : State) : Bool :=
  (List.range 160).all fun i => !s.rdb F.COR_PORT_OPEN [i / 40, i % 40]

end Sys2Proof.Machine
end

