-- ==== Sys2Proof/Machine/Slots.lean ====
section
/-! DEFINITION. Reduction slots and their directory, admission, readout, results, and what an instance's states do to
them: the shared operations (spec/05_reduction_slots.md, R204 to R221 of spec/06_collective_programs.md). -/

namespace Sys2Proof.Machine

/-! ## Ledgers in the slab (R121, R153) -/

def slotKey (q p coll step chunk : Nat) : Key := [q, p, coll, step, chunk]

/-- The 512 ledger values of a frame. -/
def State.ledger (s : State) (q f : Nat) : List Int :=
  (List.range 512).map fun j => signed 128 (SMap.get s.slab [q, f, j] 0)

/-- A slab word stored; zero words are not listed. -/
def slabPut (m : SMap Nat) (k : Key) (n : Nat) : SMap Nat := if n = 0 then SMap.erase k m else SMap.set k n m

/-- A frame's ledger written. -/
def State.putLedger (s : State) (q f : Nat) (ls : List Int) : State :=
  { s with slab := ((List.range 512).zip ls).foldl (fun m e => slabPut m [q, f, e.1] (unsigned 128 e.2)) s.slab }

/-- The slab bank of line l of frame f (R153). -/
def slabBank (f l : Nat) : Nat := (32 * f + l) % 128

/-- True when a line of a frame lies in a bank. -/
def frameInBank (f b : Nat) : Bool := (List.range 32).any fun l => slabBank f l == b

/-! ## Frames, quotas and counts (R154, R155, R165) -/

/-- The slots of a partition in a quadrant, with their keys. -/
def State.slotsOf (s : State) (q p : Nat) : List (Key × Slot) :=
  s.slots.filter fun kv => kv.1.getD 0 9 == q && kv.1.getD 1 99 == p

def isFrame : Res → Bool
  | .frame _ => true | _ => false
def isRecord : Res → Bool
  | .record _ => true | _ => false

/-- Resident and spilled slots, and chunks admitted by the crown (R186). -/
def State.residentCount (s : State) (q p : Nat) : Nat := ((s.slotsOf q p).filter fun kv => isFrame kv.2.res).length
def State.spilledCount (s : State) (q p : Nat) : Nat := ((s.slotsOf q p).filter fun kv => isRecord kv.2.res).length
def State.admittedCount (s : State) (q p : Nat) : Nat :=
  ((s.slotsOf q p).filter fun kv => kv.2.crown && !kv.2.podnew && kv.2.res != .pending).length

/-- A frame of a quadrant that no slot uses, if the partition's quota leaves one (R154). -/
def State.freeFrame (s : State) (q p : Nat) : Option Nat :=
  if s.residentCount q p < s.img.slotQuota p q then
    let used := s.slots.filterMap fun kv =>
      match kv.2.res with
      | .frame n => if kv.1.getD 0 9 == q then some n else none
      | _ => none
    (List.range (used.length + 1)).find? fun n => decide (n < 32768) && !used.contains n
  else none

/-- SPILL_CAP of R155. -/
def Images.spillCap (v : Images) (p q : Nat) : Nat :=
  min (3 * v.slotQuota p q)
    (((v.region p 1).filter fun r => r.quad == q).foldl (fun n r => n + r.bytes / 8320) 0)

/-- C_q, K and L of R165. -/
def Images.slotCap (v : Images) (p q : Nat) : Nat := min (v.slotQuota p q + v.spillCap p q) (4 * v.slotQuota p q)
def Images.slotK (v : Images) (p : Nat) : Nat :=
  min (min (v.slotCap p 0) (v.slotCap p 1)) (min (v.slotCap p 2) (v.slotCap p 3))
def Images.slotLimit (v : Images) (p : Nat) : Nat := v.slotK p / (if v.brimPod p then 100 else 4)

/-- The crown quadrant of a chunk (R161). -/
def crownQuad (p coll chunk : Nat) : Nat := (p + coll + chunk) % 4

/-- The home set of a key (R158). -/
def homeSet (quota p coll step chunk : Nat) : Nat :=
  crc32c (leBytes 1 p ++ leBytes 2 coll ++ leBytes 4 step ++ leBytes 3 chunk) % max 1 quota

/-- An event of SLT_EVENT: 0 CREATE, 1 JOIN, 2 WASTED, 3 DEFER, 4 NONMEMBER, 5 SPILL, 6 RECALL, 7 SWAP. -/
def State.sltEvent (s : State) (q p c : Nat) : State :=
  (s.bumpOvf F.SLT_EVENT_COUNT F.SLT_EVENT_OVF [q, p, c] 1).countLocal q 48 (16 + c) p 1

/-- TOUCH units of 1,024 cycles. -/
def State.touchNow (s : State) (q : Nat) : Nat := s.rd V.CYCLE [q] / 1024 % 2 ^ 32

def State.slotGet (s : State) (k : Key) : Option Slot := SMap.find k s.slots
def State.slotPut (s : State) (k : Key) (x : Slot) : State := { s with slots := SMap.set k x s.slots }

/-! ## The slot directory (R158) -/

/-- Sets of a partition's sub-table in a quadrant. -/
def State.dirSets (s : State) (q p : Nat) : Nat := max 1 (s.img.slotQuota p q)

/-- The home set of a slot's key in a sub-table of n sets. -/
def keyHome (n : Nat) (k : Key) : Nat := homeSet n (k.getD 1 0) (k.getD 2 0) (k.getD 3 0) (k.getD 4 0)

/-- Entries of a set in use. -/
def State.setFill (s : State) (q p j : Nat) : Nat := ((s.slotsOf q p).filter fun kv => kv.2.dset == j).length

/-- A probe from set j on: it stops at the set that holds the key, or at the first set with an empty entry (fuel: the full sets there can be). -/
def State.probe (s : State) (q p : Nat) (k : Key) : Nat → Nat → Nat
  | 0, j => j
  | n + 1, j =>
    if ((s.slotGet k).any fun x => x.dset == j) || s.setFill q p j < 8 then j else s.probe q p k n ((j + 1) % s.dirSets q p)

/-- The set at which a lookup of a key stops: a creation takes an empty entry of it. -/
def State.placeSet (s : State) (k : Key) : Nat :=
  let q := k.getD 0 0
  let p := k.getD 1 0
  s.probe q p k ((s.slotsOf q p).length / 8 + 1) (keyHome (s.dirSets q p) k)

/-- A directory lookup: the slot with an equal key, if the probe finds it. -/
def State.slotLook (s : State) (k : Key) : Option Slot :=
  match s.slotGet k with
  | some x => if s.placeSet k = x.dset then some x else none
  | none => none

/-- Sets from a to b in ascending order with wraparound. -/
def setsFrom (n a b : Nat) : Nat := (b + n - a % n) % n

/-- After an entry of the full set `hole` has been freed, later entries of the probe run move back, from set j on. -/
def State.dirFill (s : State) (q p : Nat) : Nat → Nat → Nat → State
  | 0, _, _ => s
  | n + 1, hole, j =>
    let m := s.dirSets q p
    let full := s.setFill q p j == 8
    match (s.slotsOf q p).find? fun kv => kv.2.dset == j && decide (setsFrom m (keyHome m kv.1) hole < setsFrom m (keyHome m kv.1) j) with
    | some kv =>
      let t := s.slotPut kv.1 { kv.2 with dset := hole }
      if full then t.dirFill q p n j ((j + 1) % m) else t
    | none => if full then s.dirFill q p n hole ((j + 1) % m) else s

/-- A directory entry freed. -/
def State.slotDrop (s : State) (k : Key) : State :=
  match s.slotGet k with
  | none => s
  | some x =>
    let q := k.getD 0 0
    let p := k.getD 1 0
    let t : State := { s with slots := SMap.erase k s.slots }
    if s.setFill q p x.dset = 8 then t.dirFill q p ((s.slotsOf q p).length + 1) x.dset ((x.dset + 1) % s.dirSets q p) else t

/-- The sub-table of a partition laid out anew, after a border move has changed its SLOT_QUOTA (DESIGN CHOICE, log entry 79). -/
def State.dirRebuild (s : State) (q p : Nat) : State :=
  (s.slotsOf q p).foldl (fun t kv => t.slotPut kv.1 { kv.2 with dset := t.placeSet kv.1 })
    { s with slots := SMap.eraseIf (fun k _ => k.getD 0 9 == q && k.getD 1 99 == p) s.slots }

/-- The bound engine of R161: engines out of service are skipped. -/
def State.boundEngine (s : State) (q coll chunk : Nat) : Nat :=
  let e := (coll + chunk) % 5
  (((List.range 5).map fun i => (e + i) % 5).find? fun e => !s.rdb V.ENGINE_FAULT [q, e]).getD e

/-- A frame given to a slot, with the initial value of R131 in every element. -/
def State.giveFrame (s : State) (q p : Nat) (k : Key) (x : Slot) (op : COp) : State :=
  match s.freeFrame q p with
  | some f => (s.putLedger q f (List.replicate 512 (copInit op))).slotPut k { x with res := .frame f }
  | none => s.slotPut k { x with res := .none }

/-- True when an armed injection of detector 0x06 names the collective (R559). -/
def State.injLedger (s : State) (p coll : Nat) : Bool :=
  s.rd V.INJ_KIND [] == 1 && s.rd V.INJ_DET [] == 6 && s.rd V.INJ_PART [] == p && s.rd V.INJ_TARGET [] == coll

/-- True when a slot of the partition waits for a frame (R164). -/
def State.frameless (s : State) (q p : Nat) : Bool := (s.slotsOf q p).any fun kv => kv.2.res == .none

/-- SLOT_CREATE (R160): the metadata zeroed but for the key, W, ENGINE, CROWN, UNARMED, T_FIRST and TOUCH.  A creation that finds no free frame, or earlier
creations that wait for one, waits for its turn (R164). -/
def State.slotCreate (s : State) (q p coll step chunk : Nat) (e : CollE) (i : Inst) (crown podnew : Bool) : State :=
  let key := slotKey q p coll step chunk
  let inj := s.injLedger p coll
  let n := s.rd V.SLOT_SEQ [q]
  let x : Slot :=
    { members := 0, st := .opened, ovf := inj, inv := false, unarmed := !i.armed, crown := crown, podnew := podnew,
      locked := false, range := 0, w := i.w, engine := s.boundEngine q coll chunk, wasted := 0, lastRank := 0,
      tFirst := s.timeNs, tLast := 0, touch := s.touchNow q, res := .none, side := 0, peerParts := 0,
      resultParts := 0, sent := false, resendIv := 0, podSent := 0,
      born := ((s.slotGet key).map (·.born)).getD n, dset := s.placeSet key }
  let t := s.wr V.SLOT_SEQ [q] (n + 1)
  let t := (if s.frameless q p then t.slotPut key x else t.giveFrame q p key x (copOfEntry e)).sltEvent q p 0
  if inj then t.injFired else t

/-! ## Expected sets (R170) -/

/-- The local contributors of a chunk, as (rank, acc). -/
def State.contributors (s : State) (p : Nat) (e : CollE) (bank chunk : Nat) : List (Nat × Nat) :=
  let ms := if e.ckind = 2 then [s.img.ownerRank p e chunk] else onesOf 4096 (s.img.members p e)
  ms.filterMap fun r =>
    match s.img.rankEntry bank p r with
    | some t => if t.x == s.myX && t.y == s.myY then some (r, t.acc) else none
    | none => none

/-- The expected set of a slot as a MEMBERS map. -/
def State.expected (s : State) (q p coll chunk : Nat) (e : CollE) (bank : Nat) : Nat :=
  let cs := s.contributors p e bank chunk
  let own := (cs.filter fun c => c.2 / 36 == q).foldl (fun n c => setBit n c.2) 0
  if q = crownQuad p coll chunk then
    let tiers := ([0, 1, 2, 3].filter fun t => t != q && cs.any fun c => c.2 / 36 == t).foldl (fun n t => setBit n (160 + t)) own
    match s.podRole bank p e chunk with
    | .single => tiers
    | .sendTo _ _ ps => ps.foldl setBit tiers
    | .form ps _ => ps.foldl setBit tiers
  else own

/-- OPEN to CLOSING when the expected set is complete and the slot is armed (R170). -/
def State.tryClose (s : State) (q p coll step chunk : Nat) (e : CollE) (bank : Nat) : State :=
  let k := slotKey q p coll step chunk
  match s.slotGet k with
  | none => s
  | some x =>
    let want := s.expected q p coll chunk e bank
    if x.st = .opened && !x.unarmed && isFrame x.res && x.members &&& want == want then
      s.slotPut k { x with st := .closing }
    else s

/-! ## Stragglers (R219) -/

/-- The WATCH entries of a partition in ascending COLL_ID. -/
def Images.watchList (v : Images) (p : Nat) : List Nat :=
  ((List.range 4096).filter fun n => let e := v.coll p n; e.valid && e.watch).take 8

/-- The tables that an entry counts in: table 0, and its WATCH table. -/
def State.stragTables (s : State) (p coll : Nat) (e : CollE) : List Nat :=
  if e.watch then
    let l := s.img.watchList p
    [0, 1 + (l.takeWhile fun n => n != coll).length]
  else [0]

/-- The member with the largest LAST of table 0, ties to the lowest ACC, shown by its rank (R219). -/
def State.slowest (s : State) (p : Nat) : State :=
  let (acc, n) := (List.range 144).foldl (fun b a =>
    let v := s.rd V.STRAG_LAST [p, 0, a]
    if b.2 < v then (a, v) else b) (0, 0)
  let bank := s.stamp p
  let rank := ((List.range 4096).find? fun r =>
    match s.img.rankEntry bank p r with
    | some t => t.x == s.myX && t.y == s.myY && t.acc == acc
    | none => false).getD 0
  if n = 0 then s
  else ((s.wr F.SEQ_SLOW_RANK [p] rank).wr F.SEQ_SLOW_VALID [p] 1).wr F.SEQ_SLOW_LAST [p] n

/-- A member's contribution admitted: its lag, and LAST when it completed the native slot's expected set. -/
def State.straggler (s : State) (p coll acc lag : Nat) (e : CollE) (last : Bool) : State :=
  let s := (s.stragTables p coll e).foldl (fun t tb =>
    let t := t.bumpOvf V.STRAG_LAG_SUM V.STRAG_LAG_OVF [p, tb, acc] lag
    let t := if t.rd V.STRAG_LAG_MAX [p, tb, acc] < lag then t.wr V.STRAG_LAG_MAX [p, tb, acc] (min lag (2 ^ 32 - 1)) else t
    if last then t.bumpSat V.STRAG_LAST [p, tb, acc] 1 else t) s
  if last then s.slowest p else s

/-! ## The engines' queues (R161, R171) -/

/-- The patience of an instance starts at its first admission, if it has not started (R220). -/
def State.startPatience (s : State) (p coll : Nat) (e : CollE) (step : Nat) : State :=
  match s.instGet p coll e step with
  | some i =>
    if i.deadline = 0 then s.instPut p coll e { i with deadline := s.timeNs + s.img.patienceMs p e * 10 ^ 6 } else s
  | none => s

/-- True when a slot's ledger can be worked on: resident, with no pager work pending. -/
def slotReady (x : Slot) : Bool := isFrame x.res && !x.locked

/-- An accumulation on a slot given to its engine, which makes them in turn. -/
def State.accGive (s : State) (q p : Nat) (x : Slot) : State × Slot :=
  let n := s.rd V.ACC_IN [q, x.engine, p] + 1
  (s.wr V.ACC_IN [q, x.engine, p] n, { x with accAt := n })

/-- True while the slot's engine has accumulations on it still to make. -/
def State.accPending (s : State) (q p : Nat) (x : Slot) : Bool := decide (s.rd V.ACC_OUT [q, x.engine, p] < x.accAt)

/-- LOCKED: engine or pager work on the slot is pending (R156). -/
def State.slotLocked (s : State) (q p : Nat) (x : Slot) : Bool := x.locked || s.accPending q p x

/-- In a cycle in which a reduction engine is free, it starts an accumulation of the partition whose slot is in progress. -/
def State.accTick (s : State) (q : Nat) : State :=
  (List.range 5).foldl (fun t e =>
    let lent := t.rd V.SLOT_LENT [q, e]
    let p := if lent = 0 then slotOwner (t.img.wheelSlot q e (t.wheelNow q e)) else lent - 1
    if !t.rdb V.ENGINE_FAULT [q, e] && decide (t.rd V.ACC_OUT [q, e, p] < t.rd V.ACC_IN [q, e, p]) then
      t.unit q e p 2 fun u => u.bump V.ACC_OUT [q, e, p] 1
    else t) s

/-- A repeat that adds nothing: counted in the slot and in SLT_EVENT (R162). -/
def State.wastedOn (s : State) (k : Key) (x : Slot) : State :=
  (s.slotPut k { x with wasted := min (x.wasted + 1) 0xFFFF }).sltEvent (k.getD 0 0) (k.getD 1 0) 2

/-! ## Sending partials and results -/

/-- The quarters that a part of a chunk covers (R127, R598). -/
def partQuarters (k : Packet) : List Nat :=
  let n := pkNchunk k - 1
  if pkNarrow k = 1 then [2 * n, 2 * n + 1] else [n]

/-- The ledger words of a part, as (element, value): 16 B words, or sign-extended 8 B words (R127, R146). -/
def partWords (k : Packet) : List (Nat × Int) :=
  let n := pkNchunk k - 1
  if pkNarrow k = 1 then (List.range 256).map fun j => (256 * n + j, signed 64 (leAt k.payload (8 * j) 8))
  else (List.range 128).map fun j => (128 * n + j, signed 128 (leAt k.payload (16 * j) 16))



/-- KEGUS_SEED of a partition (R225). -/
def Images.seed (v : Images) (p : Nat) : Nat := v.le 0x09 4 p 0x60000 8

/-- The rounding of each element of a chunk (R136, R144): SR only where the entry and LDG_PART_CTL.SR_EN both set it. -/
def State.rounding (s : State) (p coll step chunk : Nat) (e : CollE) : List Rnd :=
  if e.sr && s.rdb F.LDG_PART_CTL_SR_EN [p] then
    let sd := s.img.seed p
    (List.range 512).map fun j => .sr (kegus sd step coll chunk j)
  else List.replicate 512 .rne

/-- A payload padded to whole 64 B units. -/
def padUnits (bs : List Byte) : List Byte := bs ++ List.replicate (ceilDiv bs.length 64 * 64 - bs.length) 0

/-- What one packet of a chunk carries: the field NCHUNK, NARROW, and its bytes. -/
structure Piece where
  nch : Nat
  narrow : Nat
  bytes : List Byte
  deriving DecidableEq, Repr

/-- The ledger words of a chunk as parts of FORMAT L128, narrow when the range word allows (R127, R145). -/
def ledgerPieces (ls : List Int) : List Piece :=
  let narrow := decide (rangeWord ls ≤ 64)
  let per := if narrow then 256 else 128
  ((List.range (512 / per)).zip (chunksOf per 4 ls)).map fun e =>
    ⟨e.1 + 1, b2n narrow, e.2.flatMap fun w => leBytes (if narrow then 8 else 16) (unsigned 128 w)⟩

/-- A converted chunk as packets: the parts of an L128 output, or one chunk in one packet (R124, R127).  DESIGN CHOICE (log entry 69): of the counts that R597
leaves to the Zarfer, every RESULT and PUBLISH that the model sends holds one chunk. -/
def resultPieces (fmt : Nat) (bs : List Byte) : List Piece :=
  if fmt = 8 then ledgerPieces ((chunksOf 16 512 bs).map fun w => signed 128 (ofLE w)) else [⟨1, 0, bs⟩]

/-- Where a packet of an instance goes: the members of a group, a rank, or another rack. -/
inductive To where
  | group (g : Nat)
  | rank (r : Nat)
  | rack (x y : Nat)
  deriving DecidableEq, Repr

/-- True when a group has a receiver: a member of this rack, or one of another rack that the packet is to reach (R198). -/
def State.groupReaches (s : State) (p coll g : Nat) : Bool :=
  let gr := s.img.group p g
  !gr.valid || !(s.localRanks (s.stamp gr.rx) gr.rx (s.img.memberSet gr.rx gr.set)).isEmpty
    || !(s.podRacksOf p coll g gr.rx (s.stamp gr.rx)).isEmpty

/-- A packet of an instance (R105): to a group under R89 when the group's partition differs; nothing is sent to a group without a receiver. -/
def State.instPacket (s : State) (q port op p coll step : Nat) (e : CollE) (chunk fmt : Nat) (cls : Cls) (dest : To) (resend flags : Nat)
    (c : Piece) : State :=
  let go := fun (part dt dst mark : Nat) =>
    let (t, seq) := s.instSend p coll e step [op, chunk, c.nch, mark]
    let pl := padUnits c.bytes
    t.send q port p (mkPacket (mkHdr op (vcAt cls 0) (t.stamp part) part (pl.length / 64) dt 1 dst (t.ownAddr q) seq
      (collSpec coll step chunk c.nch fmt c.narrow flags 0) + resend * 2 ^ 36) pl)
  match dest with
  | .group g => if s.groupReaches p coll g then go (s.img.group p g).rx 1 g 0 else s
  | .rank r => go p 0 r 0
  | .rack x y => go p 2 (switchAddr x y 0) (1 + x + 8 * y)

/-- A chunk sent to other racks, each piece to each rack. -/
def State.toRacks (s : State) (q port op p coll step : Nat) (e : CollE) (chunk fmt : Nat) (cls : Cls) (resend flags : Nat)
    (cs : List Piece) (racks : List (Nat × Nat)) : State :=
  racks.foldl (fun t r => cs.foldl (fun u c => u.instPacket q port op p coll step e chunk fmt cls (.rack r.1 r.2) resend flags c) t) s

/-- The bytes and overflow of a chunk's result in the instance's output format, with the side ledger. -/
def State.convertSlot (s : State) (p coll step chunk fmt : Nat) (e : CollE) (w : Nat) (ls : List Int) : Conv × Nat × Bool :=
  let cv := convertChunk (copOfEntry e) fmt (windowOf w) (s.img.nMembers p e) ls (s.rounding p coll step chunk e)
  let (sd, so) := if e.side && (e.op = 0 || e.op = 1) then sideLedger (windowOf w) cv.ys else (0, false)
  (cv, sd, so)

/-- The output format of an instance: AND and OR results leave as INT32 only (R139). -/
def outFmtOf (e : CollE) (i : Inst) : Nat := if copBitwise (copOfEntry e) then 7 else i.outFmt

/-- The result of a chunk sent to its receivers: its group, or owner(c). -/
def State.sendResult (s : State) (q p coll step chunk : Nat) (e : CollE) (i : Inst) (flags : Nat) (bs : List Byte) : State :=
  let fmt := outFmtOf e i
  let out := fun (dest : To) => (resultPieces fmt bs).foldl (fun t c => t.instPacket q 43 0x40 p coll step e chunk fmt .d dest 0 flags c) s
  if e.ckind = 1 then
    let r := s.img.ownerRank p e chunk
    if (s.localRanks i.bank p (2 ^ r)).isEmpty then s else out (.rank r)
  else out (.group i.outGroup)

/-! ## Instance transitions (R204) -/

/-- Every slot of an instance with its key. -/
def State.instSlots (s : State) (p coll step : Nat) : List (Key × Slot) :=
  s.slots.filter fun kv => kv.1.drop 1 |>.take 3 |> fun t => t == [p, coll, step]

/-- INSTANCE_COMPLETE: the counter, the record, and the freeing of its slots; an owner slot that sent a RESULT to another
rack waits for POD_HOLD (R210). -/
def State.instComplete (s : State) (p coll : Nat) (e : CollE) (i : Inst) : State :=
  let s := s.instPut p coll e { i with st := .complete, abort := 0 }
  let s := (s.instSlots p coll i.step).foldl (fun t kv =>
    if kv.2.st = .held && kv.2.podSent = 0 then t.slotDrop kv.1 else t) s
  let s := if e.cqEn then
    s.cqPost p e.cq { kind := 2, coll := coll, step := i.step, ovf := i.ovf, inv := i.inv } else s
  (s.trigAdd p e.evtComplete 1).stepFlagsSettle p i.step

/-- READY to COMPLETE once every receiver that owes DONE has sent one (R204). -/
def State.checkComplete (s : State) (p coll : Nat) (e : CollE) (step : Nat) : State :=
  match s.instGet p coll e step with
  | none => s
  | some i =>
    if i.st = .ready && i.resulted = e.nchunk && (s.owing p e i).all fun r => bitOf i.done r then s.instComplete p coll e i
    else s

/-- ACTIVE to READY once every chunk has its result formed or handed off, or, for a HOLD instance, every crown slot
holds its sum. -/
def State.checkReady (s : State) (p coll : Nat) (e : CollE) (step : Nat) : State :=
  match s.instGet p coll e step with
  | none => s
  | some i =>
    let full := if e.mode = 1 && !i.released then i.sums = e.nchunk else i.resulted = e.nchunk
    if i.st = .active && full then
      ((s.instPut p coll e { i with st := .ready }).trigAdd p e.evtReady 1).checkComplete p coll e step
    else s.checkComplete p coll e step

/-- The result of a chunk is formed or handed off: counted in the instance. -/
def State.chunkResulted (s : State) (p coll : Nat) (e : CollE) (step : Nat) : State :=
  match s.instGet p coll e step with
  | none => s
  | some i =>
    (s.instPut p coll e { i with resulted := i.resulted + 1 }).checkReady p coll e step

/-- The missing ranks of an instance (R221), as a 4,096-bit map. -/
def State.missing (s : State) (p coll step : Nat) (e : CollE) (i : Inst) : Nat :=
  let sl := s.instSlots p coll step
  let chunks := (sl.map fun kv => kv.1.getD 4 0).eraseDups
  let lacks := fun (c r acc : Nat) =>
    let nat := acc / 36
    let crown := crownQuad p coll c
    bitOf (s.img.members p e) r && (match s.slotGet (slotKey nat p coll step c) with
      | some x => !bitOf x.members acc
      | none => match s.slotGet (slotKey crown p coll step c) with
        | some x => nat != crown && !bitOf x.members (160 + nat)
        | none => false)
  let loc := chunks.flatMap fun c => ((s.contributors p e i.bank c).filter fun m => lacks c m.1 m.2).map Prod.fst
  let peer := chunks.flatMap fun c =>
    match s.slotGet (slotKey (crownQuad p coll c) p coll step c) with
    | none => []
    | some x =>
      let want := (List.range 8).filter fun j =>
        bitOf (s.expected (crownQuad p coll c) p coll c e i.bank) (176 + j) && !bitOf x.members (176 + j)
      (onesOf 4096 (s.img.members p e)).filter fun r =>
        match s.img.rankEntry i.bank p r with
        | some t => want.any fun j =>
            if j < 4 then t.y == s.myY && t.x != s.myX && peerIndex s.myX t.x == j
            else t.x == s.myX && t.y != s.myY && peerIndex s.myY t.y == j - 4
        | none => false
  (loc ++ peer).foldl setBit 0

/-- The ABORT payload (R221). -/
def abortPayload (reason resulted missing : Nat) : List Byte :=
  leBytes 4 reason ++ leBytes 3 resulted ++ List.replicate 57 0 ++ leBytes 512 missing

/-- ABORT sent to the receivers of an instance. -/
def State.sendAbort (s : State) (p coll : Nat) (e : CollE) (i : Inst) (reason missing : Nat) : State :=
  let q := (p + coll) % 4
  let c : Piece := ⟨1, 0, abortPayload reason i.resulted missing⟩
  let out := fun (t : State) (dest : To) => t.instPacket q 45 0x43 p coll i.step e 0 0 .d dest 0 0 c
  if e.ckind = 1 then (s.owing p e i).foldl (fun t r => out t (.rank r)) s else out s (.group (s.img.resultGroup p e i))

/-- The hand-offs of an instance that the update engine has not accepted, dropped with its slots. -/
def State.handoffsDrop (s : State) (p coll step : Nat) : State :=
  let l := (SMap.get s.handoffs [p] []).filter fun h => !(h.coll == coll && h.step == step)
  { s with handoffs := if l.isEmpty then SMap.erase [p] s.handoffs else SMap.set [p] l s.handoffs }

/-- INSTANCE_ABORT (R221): the slots released, ABORT sent, SEQ_ABORT and its map, the records. -/
def State.instAbort (s : State) (p coll : Nat) (e : CollE) (i : Inst) (reason : Nat) : State :=
  let miss := s.missing p coll i.step e i
  let n := popCount 4096 miss
  let first := ((onesOf 4096 miss).head?).getD 0
  let s := s.instPut p coll e { i with st := .aborted, abort := 0 }
  let s := (s.instSlots p coll i.step).foldl (fun t kv => t.slotDrop kv.1) s
  let s := s.handoffsDrop p coll i.step
  let s := s.sendAbort p coll e i reason miss
  let s := if s.rdb F.SEQ_ABORT_VALID [p] then s.wr F.SEQ_ABORT_MORE [p] 1 else s
  let s := (((s.wr F.SEQ_ABORT_COLL_ID [p] coll).wr F.SEQ_ABORT_STEP_TAG [p] i.step).wr F.SEQ_ABORT_MISSING [p] n).raise
    F.SEQ_ABORT_VALID [p]
  let s := (List.range 64).foldl (fun t w => t.wr F.SEQ_ABORT_MAP_MISSING [p, w] (bitsOf miss (64 * w) 64)) s
  let s := if e.cqEn then
    s.cqPost p e.cq { kind := 3, status := 0x10, coll := coll, step := i.step, ovf := i.ovf, inv := i.inv, missing := n,
                      first := first } else s
  (s.err { det := 0x07, sev := 1, part := p, quad := (p + coll) % 4, cause := reason, addr := coll + i.step * 2 ^ 16 }).stepFlagsSettle p
    i.step

/-- An abort event of a live instance: it takes effect at the end of the cycle, unless the instance completes in it (R204).  The first event of a cycle gives
the REASON. -/
def State.abortEvent (s : State) (p coll : Nat) (e : CollE) (step reason : Nat) : State :=
  match s.instGet p coll e step with
  | some i => if liveInst i && i.abort == 0 then (s.instPut p coll e { i with abort := reason }).wr V.ABORT_DUE [] 1 else s
  | none => s

/-! ## A crown slot whose sum is complete (R172, R207, R208, R233) -/

/-- The chunk handed off to the update engine of the shard's quadrant: gradients as FP32 and the side ledger (R233). -/
def State.handoff (s : State) (p coll step chunk : Nat) (e : CollE) (x : Slot) (ls : List Int) : State :=
  let cv := convertChunk (copOfEntry e) 0 (windowOf x.w) (s.img.nMembers p e) ls (s.rounding p coll step chunk e)
  let (sd, so) := sideLedger (windowOf x.w) cv.ys
  let h : Handoff :=
    { coll := coll, step := step, chunk := chunk, grads := (chunksOf 4 512 cv.bytes).map ofLE, ovf := x.ovf || cv.ovf || so,
      inv := x.inv, side := sd, window := x.w, waited := false }
  { s with handoffs := SMap.set [p] (SMap.get s.handoffs [p] [] ++ [h]) s.handoffs }

/-- MODE of a shard entry: 1 PARTITIONED (R226). -/
def Images.shardPartitioned (v : Images) (p k : Nat) : Bool := bitOf (v.le 0x09 4 p (0x70000 + 64 * k) 1) 1

/-- The final ledger of a chunk is in the crown slot: its result goes to the members of this rack, or the chunk is handed
off.  A handed-off chunk's slot stays CLOSING until the update engine accepts it (R234). -/
def State.crownResult (s : State) (p coll step chunk : Nat) (e : CollE) (i : Inst) (x : Slot) (f : Nat) : State :=
  let q := crownQuad p coll chunk
  let k := slotKey q p coll step chunk
  let ls := s.ledger q f
  if e.ckind = 4 then
    (s.slotPut k { x with st := .closing, sent := true, touch := s.touchNow q }).handoff p coll step chunk e x ls
  else
    let (cv, sd, so) := s.convertSlot p coll step chunk (outFmtOf e i) e x.w ls
    let x := { x with st := .held, ovf := x.ovf || cv.ovf || so, side := sd, touch := s.touchNow q }
    let s := s.slotPut k x
    let s := s.instFlags p coll e step chunk x.ovf x.inv
    let s := match s.instGet p coll e step with
      | some j => s.instPut p coll e { j with sides := SMap.set [chunk] sd j.sides }
      | none => s
    (s.sendResult q p coll step chunk e i (flgBits ⟨x.ovf, x.inv⟩) cv.bytes).chunkResulted p coll e step

/-- The crown's L sent as a RESULT of FORMAT L128 to other racks, read out with its RANGE (R208, R171). -/
def State.resultToRacks (s : State) (p coll step chunk : Nat) (e : CollE) (x : Slot) (f resend : Nat)
    (racks : List (Nat × Nat)) : State :=
  let q := crownQuad p coll chunk
  if racks.isEmpty then s
  else
    let ls := s.ledger q f
    let s := s.toRacks q 43 0x40 p coll step e chunk 8 .d resend (flgBits ⟨x.ovf, x.inv⟩) (ledgerPieces ls) racks
    match s.slotGet (slotKey q p coll step chunk) with
    | some y =>
      s.slotPut (slotKey q p coll step chunk) { y with podSent := max 1 s.timeNs, touch := s.touchNow q, range := rangeWord ls }
    | none => s

/-- A published chunk's high halves as a PUBLISH to other racks (R252). -/
def State.publishToRacks (s : State) (q port p coll step chunk : Nat) (e : CollE) (resend flags : Nat) (hi : List Byte)
    (racks : List (Nat × Nat)) : State :=
  s.toRacks q port 0x41 p coll step e chunk 1 .d resend flags [⟨1, 0, hi⟩] racks

/-- The high halves that the slot of a PARTITIONED chunk holds once the PUBLISH has been written into it (R252). -/
def State.slotHalves (s : State) (q f : Nat) : List Byte := (s.ledger q f).flatMap fun l => leBytes 2 (unsigned 16 l)

/-- The PARTIAL of a crown slot sent to the rack its role names; the slot goes to WAITING (R172, R210). -/
def State.sendPartial (s : State) (p coll step chunk : Nat) (e : CollE) (x : Slot) (f tx ty resend : Nat) : State :=
  let q := crownQuad p coll chunk
  let s := s.toRacks q 43 0x31 p coll step e chunk 8 .u resend (flgBits ⟨x.ovf, x.inv⟩) (ledgerPieces (s.ledger q f)) [(tx, ty)]
  s.slotPut (slotKey q p coll step chunk)
    { x with
      st := .waiting, sent := true, touch := s.touchNow q,
      resendIv := if x.resendIv = 0 then s.rd F.XPT_RESEND_FIRST [] else min (2 * x.resendIv) (8 * s.rd F.XPT_RESEND_FIRST []) }

/-- A crown slot in CLOSING goes on as its instance's mode and its rack's role say. -/
def State.crownProceed (s : State) (p coll step chunk : Nat) (e : CollE) : State :=
  let q := crownQuad p coll chunk
  match s.instGet p coll e step, s.slotGet (slotKey q p coll step chunk) with
  | some i, some x =>
    match x.res with
    | .frame f =>
      match s.podRole i.bank p e chunk with
      | .sendTo tx ty _ =>
        if e.mode = 1 && !i.fwd && !i.released then s
        else
          let s := s.sendPartial p coll step chunk e x f tx ty 0
          if e.ckind = 4 && s.img.shardPartitioned p e.shard then s.chunkResulted p coll e step else s
      | .single => if e.mode = 1 && !i.released then s else s.crownResult p coll step chunk e i x f
      | .form _ racks =>
        if e.mode = 1 && !i.released then s
        else
          let part := e.ckind == 4 && s.img.shardPartitioned p e.shard
          let s := if part then s
            else s.resultToRacks p coll step chunk e x f 0 (racks ++ s.rowRacks i.bank p e)
          match s.slotGet (slotKey q p coll step chunk) with
          | some x => s.crownResult p coll step chunk e i x f
          | none => s
    | _ => s
  | _, _ => s

/-- The sum of a HOLD instance's crown slot is complete: counted once (R204). -/
def State.holdSum (s : State) (p coll step chunk : Nat) (e : CollE) : State :=
  let q := crownQuad p coll chunk
  match s.instGet p coll e step, s.slotGet (slotKey q p coll step chunk) with
  | some i, some x =>
    if e.mode = 1 && !x.sent then
      ((s.slotPut (slotKey q p coll step chunk) { x with sent := true }).instPut p coll e
        { i with sums := i.sums + 1 }).checkReady p coll e step
    else s
  | _, _ => s

/-! ## A RESULT or PUBLISH of another rack written into the slot (R172, R208, R252) -/

/-- The quarters of a RESULT part, or all four of a PUBLISH, written once each; the slot goes to HELD when all four
are. -/
def State.writeResult (s : State) (k : Packet) (e : CollE) (i : Inst) : State :=
  let p := pkPart k
  let coll := pkColl k
  let step := pkStep k
  let chunk := pkChunk k
  let q := crownQuad p coll chunk
  let key := slotKey q p coll step chunk
  match s.slotGet key with
  | none => s.sltEvent q p 2
  | some x =>
    match x.st, x.res with
    | .waiting, .frame f =>
      let pub := pkOpcode k == 0x41
      let qs := if pub then [0, 1, 2, 3] else partQuarters k
      let fresh := qs.filter fun t => !bitOf x.resultParts t
      if fresh.isEmpty then s.wastedOn key x
      else
        let ws := if pub then (List.range 512).map fun j => (j, (leAt k.payload (2 * j) 2 : Int)) else partWords k
        let slab := (ws.filter fun w => fresh.contains (w.1 / 128)).foldl
          (fun m w => slabPut m [q, f, w.1] (unsigned 128 w.2)) s.slab
        let parts := fresh.foldl setBit x.resultParts
        let fl := flgOfBits (pkFlags k)
        let x := { x with
          resultParts := parts, ovf := x.ovf || fl.ovf, inv := x.inv || fl.inv, tLast := s.timeNs, touch := s.touchNow q }
        let s := ({ s with slab := slab } : State).slotPut key x
        let s := s.instFlags p coll e step chunk fl.ovf fl.inv
        if parts % 16 ≠ 15 then s
        else
          let x := { x with st := .held }
          let s := s.slotPut key x
          if pub then
            let hi := s.slotHalves q f
            let fl := pkFlags k % 4
            let s := if s.inOwnerColumn i.bank p e chunk then
                let t := s.publishToRacks q 43 p coll step chunk e 0 fl hi (s.rowRacks i.bank p e)
                match t.slotGet key with
                | some y => t.slotPut key { y with podSent := max 1 s.timeNs }
                | none => t
              else s
            s.instPacket q 43 0x41 p coll step e chunk 1 .d (.group (s.img.resultGroup p e i)) 0 fl ⟨1, 0, hi⟩
          else
            let s := if s.inOwnerColumn i.bank p e chunk then
              s.resultToRacks p coll step chunk e x f 0 (s.rowRacks i.bank p e) else s
            match s.slotGet key with
            | some x => if e.mode = 1 && !i.released then s.slotPut key x else s.crownResult p coll step chunk e i x f
            | none => s
    | _, _ => s.wastedOn key x

/-! ## Resends of held chunks (R113, R210, R217) -/

/-- True when a chunk's result has been formed: a HOLD instance's slot may be HELD with a sum of another rack that has yet to
be converted (R208, R214). -/
def resultFormed (e : CollE) (i : Inst) (chunk : Nat) : Bool := e.mode != 1 || (SMap.find [chunk] i.sides).isSome

/-- The chunk of a resident HELD slot, its result formed, sent again to one rank. -/
def State.resendChunk (s : State) (q p coll step chunk rank : Nat) (e : CollE) (i : Inst) : State :=
  let key := slotKey q p coll step chunk
  match s.slotGet key with
  | none => s
  | some x =>
    match x.st, x.res with
    | .held, .frame f =>
      if !resultFormed e i chunk then s else
      let ls := s.ledger q f
      let s := s.slotPut key { x with touch := s.touchNow q }
      let fl := flgBits ⟨x.ovf, x.inv⟩
      if e.ckind = 4 then
        if s.img.shardPartitioned p e.shard then
          s.instPacket q 43 0x41 p coll step e chunk 1 .d (.rank rank) 1 fl ⟨1, 0, ls.flatMap fun l => leBytes 2 (unsigned 16 l)⟩
        else s
      else
        let fmt := outFmtOf e i
        (resultPieces fmt (s.convertSlot p coll step chunk fmt e x.w ls).1.bytes).foldl
          (fun t c => t.instPacket q 43 0x40 p coll step e chunk fmt .d (.rank rank) 1 fl c) s
    | _, _ => s

/-! ## Adding to a resident slot (R162, R172, R598) -/

/-- True when the engine bound to a slot is faulted (R185). -/
def State.engineOut (s : State) (q : Nat) (x : Slot) : Bool := s.rdb V.ENGINE_FAULT [q, x.engine]

/-- One chunk of a member contribution admitted into its resident native slot: the bit test and set, then the
accumulation.  On a faulted engine the accumulation stays pending, and the instance aborts (R174; DEDUCED, log entry 75). -/
def State.admitChunk (s : State) (q : Nat) (pk : Packet) (chunk : Nat) (e : CollE) (i : Inst) (acc : Nat) : State :=
  let p := pkPart pk
  let coll := pkColl pk
  let step := pkStep pk
  let k := slotKey q p coll step chunk
  match s.slotGet k with
  | none => s
  | some x =>
    match x.res with
    | .frame f =>
      if bitOf x.members acc then
        s.wastedOn k x
      else
        let s := s.startPatience p coll e step
        let lag := s.timeNs - x.tFirst
        let x := { x with
          members := setBit x.members acc, lastRank := dstRank (pkSrc pk), tLast := s.timeNs, touch := s.touchNow q }
        if s.engineOut q x then (s.slotPut k x).abortEvent p coll e step 3
        else
          let (ls, fl) := accumChunk (copOfEntry e) (windowOf x.w) (pkFormat pk) (pkNchunk pk) (chunk - pkChunk pk) pk.payload
            (s.ledger q f)
          let (s, x) := s.accGive q p x
          let s := s.slabBeats q f x.engine p 2
          let s := ((s.putLedger q f ls).slotPut k { x with ovf := x.ovf || fl.ovf, inv := x.inv || fl.inv }).sltEvent q p 1
          let s := s.instFlags p coll e step chunk fl.ovf fl.inv
          let want := s.expected q p coll chunk e i.bank
          let s := s.straggler p coll acc lag e (x.members &&& want == want)
          s.tryClose q p coll step chunk e i.bank
    | _ => s

/-- A tier-0 partial added to the crown slot: ledger, flags, bit 160 + src (R132, R149, R172). -/
def State.addTier0 (s : State) (src p coll step chunk : Nat) (gs : List Int) (fl : Flg) (e : CollE) (i : Inst) : State :=
  let c := crownQuad p coll chunk
  let k := slotKey c p coll step chunk
  match s.slotGet k with
  | none => s
  | some x =>
    match x.res with
    | .frame f =>
      if bitOf x.members (160 + src) then s.wastedOn k x
      else
        let s := s.startPatience p coll e step
        let x := { x with
          members := setBit x.members (160 + src), ovf := x.ovf || fl.ovf, inv := x.inv || fl.inv, tLast := s.timeNs,
          touch := s.touchNow c }
        if s.engineOut c x then (s.slotPut k x).abortEvent p coll e step 3
        else
          let ls := ((s.ledger c f).zip gs).map fun ab => copCombine (copOfEntry e) ab.1 ab.2
          let (s, x) := s.accGive c p x
          ((((s.slabBeats c f x.engine p 2).putLedger c f ls).slotPut k x).sltEvent c p 1).tryClose c p coll step chunk e i.bank
    | _ => s

/-- A PARTIAL part from another rack added to the crown slot: only its unreceived quarters (R598). -/
def State.addPartial (s : State) (k : Packet) (e : CollE) (i : Inst) (bit : Nat) : State :=
  let p := pkPart k
  let c := crownQuad p (pkColl k) (pkChunk k)
  let key := slotKey c p (pkColl k) (pkStep k) (pkChunk k)
  match s.slotGet key with
  | none => s
  | some x =>
    match x.res with
    | .frame f =>
      let j := bit - 176
      let fresh := (partQuarters k).filter fun t => !bitOf x.peerParts (4 * j + t)
      if fresh.isEmpty then s.wastedOn key x
      else
        let s := s.startPatience p (pkColl k) e (pkStep k)
        let parts := fresh.foldl (fun n t => setBit n (4 * j + t)) x.peerParts
        let fl := flgOfBits (pkFlags k)
        let x := { x with
          peerParts := parts, ovf := x.ovf || fl.ovf, inv := x.inv || fl.inv, tLast := s.timeNs, touch := s.touchNow c,
          members := if bitsOf parts (4 * j) 4 = 15 then setBit x.members bit else x.members }
        if s.engineOut c x then (s.slotPut key x).abortEvent p (pkColl k) e (pkStep k) 3
        else
          let add := (partWords k).filter fun w => fresh.contains (w.1 / 128)
          let slab := add.foldl (fun m w =>
            slabPut m [c, f, w.1] (unsigned 128 (copCombine (copOfEntry e) (signed 128 (SMap.get s.slab [c, f, w.1] 0)) w.2))) s.slab
          let (s, x) := s.accGive c p x
          let s := ((({ s with slab := slab } : State).slabBeats c f x.engine p 2).slotPut key x).sltEvent c p 1
          let s := s.instFlags p (pkColl k) e (pkStep k) (pkChunk k) fl.ovf fl.inv
          s.tryClose c p (pkColl k) (pkStep k) (pkChunk k) e i.bank
    | _ => s

/-- A PARTIAL part at a resident crown slot: added, or, when the slot is HELD, counted as wasted and answered with the
RESULT again, or for a PARTITIONED shard with the PUBLISH that the slot holds (R210, R252). -/
def State.partialInto (s : State) (k : Packet) (e : CollE) (i : Inst) (bit : Nat) : State :=
  let p := pkPart k
  let c := crownQuad p (pkColl k) (pkChunk k)
  let key := slotKey c p (pkColl k) (pkStep k) (pkChunk k)
  let rack := [(dstX (pkSrc k), dstY (pkSrc k))]
  match s.slotGet key with
  | none => s
  | some x =>
    match x.st, x.res with
    | .held, .frame f =>
      let s := s.wastedOn key x
      if e.ckind = 4 && s.img.shardPartitioned p e.shard then
        let s := s.publishToRacks c 43 p (pkColl k) (pkStep k) (pkChunk k) e 1 (flgBits ⟨x.ovf, x.inv⟩) (s.slotHalves c f) rack
        match s.slotGet key with
        | some y => s.slotPut key { y with podSent := max 1 s.timeNs, touch := s.touchNow c }
        | none => s
      else s.resultToRacks p (pkColl k) (pkStep k) (pkChunk k) e x f 1 rack
    | _, _ => s.addPartial k e i bit

/-- The sum of another rack in a HELD slot of a HOLD instance converted and sent, once, when its release has fired
(R208, R214). -/
def State.convertHeld (s : State) (p coll step chunk : Nat) (e : CollE) (i : Inst) : State :=
  match s.slotGet (slotKey (crownQuad p coll chunk) p coll step chunk) with
  | none => s
  | some x =>
    match x.st, x.res with
    | .held, .frame f =>
      if i.released && !resultFormed e i chunk then s.crownResult p coll step chunk e i x f else s
    | _, _ => s

/-! ## Wait lists (R164) -/

def State.waitAdd (s : State) (q p : Nat) (w : WaitItem) : State :=
  { s with waits := SMap.set [q, p] (SMap.get s.waits [q, p] [] ++ [w]) s.waits }

/-- A slot that may close now does; one that is full but spilled is recalled first (R170, R173). -/
def State.closeOrRecall (s : State) (q p coll step chunk : Nat) (e : CollE) (bank : Nat) : State :=
  let t := s.tryClose q p coll step chunk e bank
  match t.slotGet (slotKey q p coll step chunk) with
  | none => t
  | some x =>
    let want := t.expected q p coll chunk e bank
    if x.st = .opened && !x.unarmed && isRecord x.res && x.members &&& want == want then
      t.waitAdd q p ⟨coll, step, chunk, .close⟩
    else t

/-- True when the slot an item waits for is resident. -/
def State.waitReady (s : State) (q p : Nat) (w : WaitItem) : Bool :=
  match s.slotGet (slotKey q p w.coll w.step w.chunk) with
  | some x => slotReady x
  | none => true

/-- A waiting item admitted; one whose slot is gone has no further effect. -/
def State.waitRun (s : State) (q p : Nat) (w : WaitItem) : State :=
  match s.img.collValid p w.coll with
  | none => s
  | some e =>
    match s.instGet p w.coll e w.step with
    | none => s
    | some i =>
      match w.what with
      | .contrib k chunk =>
        match s.img.rankEntry (pkEpoch k) p (dstRank (pkSrc k)) with
        | some r => s.admitChunk q k chunk e i r.acc
        | none => s
      | .tier0 src ls ovf inv => s.addTier0 src p w.coll w.step w.chunk ls ⟨ovf, inv⟩ e i
      | .packet k =>
        if pkOpcode k = 0x31 then
          s.partialInto k e i (if dstY (pkSrc k) = s.myY then 176 + peerIndex s.myX (dstX (pkSrc k))
            else 180 + peerIndex s.myY (dstY (pkSrc k)))
        else s.writeResult k e i
      | .resend rank => s.resendChunk q p w.coll w.step w.chunk rank e i
      | .partialAgain =>
        match s.slotGet (slotKey q p w.coll w.step w.chunk), s.podRole i.bank p e w.chunk with
        | some x, .sendTo tx ty _ =>
          match x.st, x.res with
          | .waiting, .frame f => s.sendPartial p w.coll w.step w.chunk e x f tx ty 1
          | _, _ => s
        | _, _ => s
      | .close => s.tryClose q p w.coll w.step w.chunk e i.bank
      | .convert => s.convertHeld p w.coll w.step w.chunk e i

/-- The oldest creation of a partition that waits for a frame. -/
def State.oldestFrameless (s : State) (q p : Nat) : Option (Key × Slot) :=
  ((s.slotsOf q p).filter fun kv => kv.2.res == .none).foldl (fun b kv =>
    match b with
    | none => some kv
    | some c => if kv.2.born < c.2.born then some kv else some c) none

/-- Free frames given, in the order of their creations, to slots that wait for one (R164). -/
def State.fillN : Nat → State → Nat → Nat → State
  | 0, s, _, _ => s
  | n + 1, s, q, p =>
    match s.oldestFrameless q p, s.freeFrame q p with
    | some kv, some _ =>
      match s.img.collValid p (kv.1.getD 2 0) with
      | some e => State.fillN n (s.giveFrame q p kv.1 kv.2 (copOfEntry e)) q p
      | none => s
    | _, _ => s

def State.fillFrames (s : State) (q p : Nat) : State :=
  State.fillN ((s.slotsOf q p).filter fun kv => kv.2.res == .none).length s q p

/-- One pass over a wait list in arrival order: ready items are admitted, the others stay. -/
def State.settleOnce (s : State) (q p : Nat) : State :=
  let s := s.fillFrames q p
  let ws := SMap.get s.waits [q, p] []
  let (s, keep) := ws.foldl (fun (t : State × List WaitItem) w =>
    if t.1.waitReady q p w then (t.1.waitRun q p w, t.2) else (t.1, t.2 ++ [w])) (s, [])
  { s with waits := if keep.isEmpty then SMap.erase [q, p] s.waits else SMap.set [q, p] keep s.waits }

/-- Wait lists of a partition served in all four quadrants, as often as something may have become free. -/
def State.settleN : Nat → State → Nat → State
  | 0, s, _ => s
  | n + 1, s, p => State.settleN n ([0, 1, 2, 3].foldl (fun t q => t.settleOnce q p) s) p

def State.settle (s : State) (p : Nat) : State :=
  if [0, 1, 2, 3].all (fun q => (SMap.get s.waits [q, p] []).isEmpty && !s.frameless q p) then s else State.settleN 2 s p

/-- The aborts of a cycle, at its end (R204). -/
def State.abortsDue (s : State) : State :=
  if s.rdb V.ABORT_DUE [] then
    s.insts.foldl (fun t kv =>
      let p := kv.1.getD 0 0
      let coll := kv.1.getD 1 0
      match t.img.collValid p coll with
      | some e => match t.instGet p coll e kv.2.step with
        | some i => if i.abort ≠ 0 && liveInst i then (t.instAbort p coll e i i.abort).settle p else t
        | none => t
      | none => t) (s.wr V.ABORT_DUE [] 0)
  else s

end Sys2Proof.Machine
end

