-- ==== Sys2Proof/Machine/Upd.lean ====
section
/-! DEFINITION. The update engine: shards, state records, recipes, the states of a step, publishing and snapshots: the
shared operations (spec/07_update_engine.md). -/

namespace Sys2Proof.Machine

/-! ## The OPT image (R224 to R228, R243) -/

/-- A shard entry (R226). -/
structure ShardE where
  valid : Bool
  partitioned : Bool
  layout1 : Bool
  stage : Bool
  quad : Nat
  group : Nat
  coll : Nat
  segCount : Nat
  segBase : Nat
  lchunk : Nat
  stateAddr : Nat
  stageAddr : Nat
  deriving DecidableEq, Repr

def shardOfBits (x : Nat) : ShardE :=
  { valid := bitOf x 0, partitioned := bitOf x 1, layout1 := bitOf x 2, stage := bitOf x 3, quad := bitsOf x 8 2,
    group := bitsOf x 16 12, coll := bitsOf x 32 16, segCount := bitsOf x 48 16, segBase := bitsOf x 64 32,
    lchunk := bitsOf x 96 24, stateAddr := bitsOf x 128 64, stageAddr := bitsOf x 192 64 }

def Images.shard (v : Images) (p k : Nat) : ShardE := shardOfBits (v.le 0x09 4 p (0x70000 + 64 * k) 32)

/-- The valid entry of a shard number. -/
def Images.shardValid (v : Images) (p k : Nat) : Option ShardE :=
  if k < 4096 && (v.shard p k).valid then some (v.shard p k) else none

/-- Segment n of an OPT image: START, GROUP, FACT_ADDR (R227). -/
structure Seg where
  start : Nat
  group : Nat
  fact : Nat
  deriving DecidableEq, Repr

def Images.seg (v : Images) (p n : Nat) : Seg :=
  let x := v.le 0x09 4 p (0xB0000 + 16 * n) 16
  ⟨bitsOf x 0 24, bitsOf x 32 12, bitsOf x 64 64⟩

/-- The segments of a shard, ascending START. -/
def Images.segs (v : Images) (p : Nat) (h : ShardE) : List Seg := (List.range h.segCount).map fun n => v.seg p (h.segBase + n)

/-- The segment of chunk offset i: the last one whose START is at most i. -/
def Images.segOf (v : Images) (p : Nat) (h : ShardE) (i : Nat) : Seg :=
  (v.segs p h).foldl (fun b g => if g.start ≤ i then g else b) ⟨0, 0, 0⟩

/-- A parameter group (R243). -/
structure Grp where
  recipe : Nat
  clip : Bool
  bias : Bool
  nesterov : Bool
  fw : Nat
  lrMult : Nat
  wd : Nat
  beta1 : Nat
  beta2 : Nat
  eps : Nat
  aux : Nat
  cols : Nat
  deriving DecidableEq, Repr

def grpOfBits (x : Nat) : Grp :=
  { recipe := bitsOf x 0 4, clip := bitOf x 4, bias := bitOf x 5, nesterov := bitOf x 6, fw := bitsOf x 16 10,
    lrMult := bitsOf x 32 32, wd := bitsOf x 64 32, beta1 := bitsOf x 96 32, beta2 := bitsOf x 128 32,
    eps := bitsOf x 160 32, aux := bitsOf x 192 32, cols := bitsOf x 224 32 }

def Images.grp (v : Images) (p n : Nat) : Grp := grpOfBits (v.le 0x09 4 p (32 * n) 32)

/-- Header fields (R225). -/
def Images.optLagged (v : Images) (p : Nat) : Bool := v.le 0x09 4 p 0x60008 1 % 2 == 1
def Images.optAuto (v : Images) (p : Nat) : Bool := bitOf (v.le 0x09 4 p 0x60008 1) 1
def Images.normW (v : Images) (p : Nat) : Int := windowOf (v.le 0x09 4 p 0x6000A 2)
def Images.clipNorm (v : Images) (p : Nat) : Nat := v.le 0x09 4 p 0x6000C 4
def Images.tStart (v : Images) (p : Nat) : Nat := v.le 0x09 4 p 0x60010 4
def Images.rupCount (v : Images) (p : Nat) : Nat := v.le 0x09 4 p 0x60014 2
def Images.normExtra (v : Images) (p : Nat) : Nat := v.le 0x09 4 p 0x60016 2
def Images.normCtx (v : Images) (p : Nat) : Nat := bitsOf (v.le 0x09 4 p 0x60018 2) 0 10
/-- Learning-rate entry i. -/
def Images.lrEntry (v : Images) (p i : Nat) : Nat := v.le 0x09 4 p (0x20000 + 4 * i) 4

/-- Recipes with two passes (R245). -/
def twoPass (recipe : Nat) : Bool := recipe == 3 || recipe == 5

/-! ## Records (R228, R231) -/

/-- |XS| × |YS| of the RUP entry of a shard. -/
def State.podSize (s : State) (p : Nat) (h : ShardE) : Nat :=
  let (xs, ys) := s.img.podRacks (s.stamp p) p (s.img.coll p h.coll)
  max 1 (xs.length * ys.length)

/-- The local record of chunk offset i. -/
def State.recordOf (s : State) (p : Nat) (h : ShardE) (i : Nat) : Nat := if h.partitioned then i / s.podSize p h else i

/-- True when this rack is the owner rack of R207 for a chunk. -/
def State.ownsChunk (s : State) (bank p : Nat) (e : CollE) (c : Nat) : Bool :=
  match s.podRole bank p e c with
  | .single => true
  | .form _ _ => true
  | .sendTo _ _ _ => false

/-- Bytes of a record. -/
def recBytes (h : ShardE) : Nat := if h.layout1 then 4096 else 6144

/-- n bytes of the partition's optimizer region at an offset. -/
def State.optRead (s : State) (p off n : Nat) : Option (List Byte) := s.regionData p 0 off n

/-- HBM is accessed by the update engine, unless another engine's unit is doing so (R388). -/
def State.updReq (s : State) : State := if s.rdb V.HBM_REQ [] then s else s.wr V.HBM_REQ [] 62

/-- What a read of a region by the update engine reports. -/
def State.updNote (s : State) (p kind off n : Nat) : State :=
  (s.updReq.regionNote 0x09 p kind off n).wr V.HBM_REQ [] (s.rd V.HBM_REQ [])

/-- A write of a region by the update engine. -/
def State.updWrite (s : State) (p kind off : Nat) (bs : List Byte) : Option State :=
  (s.updReq.regionWrite p kind off bs).map fun t => t.wr V.HBM_REQ [] (s.rd V.HBM_REQ [])

/-- What a read of the optimizer region reports (R376). -/
def State.optNote (s : State) (p off n : Nat) : State := s.updNote p 0 off n

/-- Bytes written to the optimizer region; none where they leave it or lie in a LOST extent. -/
def State.optWrite (s : State) (p off : Nat) (bs : List Byte) : Option State := s.updWrite p 0 off bs

/-- 16-bit elements of an array at an offset. -/
def half16 (bs : List Byte) (off : Nat) : List Nat := (chunksOf 2 512 (bytesAt bs off 1024)).map ofLE
def word32 (bs : List Byte) (off : Nat) : List Nat := (chunksOf 4 512 (bytesAt bs off 2048)).map ofLE

def recOfBytes (l1 : Bool) (bs : List Byte) : Rec :=
  let w := ((half16 bs 0).zip (half16 bs 1024)).map fun hl => hl.1 * 2 ^ 16 + hl.2
  if l1 then { w := w, m := (half16 bs 2048).map (· * 2 ^ 16), v := (half16 bs 3072).map (· * 2 ^ 16) }
  else { w := w, m := word32 bs 2048, v := word32 bs 4096 }

/-- M or V in BF16 under SR with the noise of R232; a word that is not finite keeps its high half. -/
def toBf16Sr (noise x : Nat) : Nat :=
  match decodeFloat fmtFp32 x with
  | some e => (toFloat fmtBf16 e (.sr noise)).1
  | none => x / 2 ^ 16

/-- The bytes of a record (R231, R232): c is the RUP chunk index.  changed: the elements whose M and V were written;
the others keep their stored BF16 words. -/
def recBytesOf (l1 : Bool) (seed step c : Nat) (changed : List Bool) (r : Rec) : List Byte :=
  let hi := r.w.flatMap fun x => leBytes 2 (x / 2 ^ 16)
  let lo := r.w.flatMap fun x => leBytes 2 x
  if l1 then
    let conv := fun (coll : Nat) (xs : List Nat) =>
      ((xs.zip changed).zip (List.range 512)).flatMap fun t =>
        leBytes 2 (if t.1.2 then toBf16Sr (kegus seed step coll c t.2) t.1.1 else t.1.1 / 2 ^ 16)
    hi ++ lo ++ conv 0xFFFE r.m ++ conv 0xFFFF r.v
  else hi ++ lo ++ r.m.flatMap (leBytes 4) ++ r.v.flatMap (leBytes 4)

/-! ## Recipes (R244, R246) -/

/-- What setup gives for a step and group: lr, k, bc1, bc2; none where one is not finite. -/
structure Setup where
  lr : Option Nat
  k : Nat
  bc1 : Option Nat
  bc2 : Option Nat
  deriving DecidableEq, Repr

def Images.setup (v : Images) (p : Nat) (g : Grp) (t kStep : Nat) : Setup :=
  { lr := mul32 (v.lrEntry p (min (t - 1) 65535)) g.lrMult, k := if g.clip then kStep else one32,
    bc1 := if g.bias then biasCorr g.beta1 t else some one32, bc2 := if g.bias then biasCorr g.beta2 t else some one32 }

/-- The new w, m, v of one parameter. -/
abbrev Wmv := Nat × Nat × Nat

/-- A new master: w − lr·d. -/
def stepDown (w lr d : Nat) : Option Nat := do sub32 w (← mul32 lr d)

/-- (a × x) + (b × y). -/
def mix32 (a x b y : Nat) : Option Nat := do add32 (← mul32 a x) (← mul32 b y)

def sgdM (u : Setup) (g : Grp) (w m v gr : Nat) : Option Wmv := do
  let lr ← u.lr
  let x ← add32 (← mul32 gr u.k) (← mul32 g.wd w)
  let m' ← add32 (← mul32 g.beta1 m) x
  let d ← if g.nesterov then add32 x (← mul32 g.beta1 m') else some m'
  some (← stepDown w lr d, m', v)

def adamDir (u : Setup) (g : Grp) (m v : Nat) : Option Nat := do
  let b1 ← u.bc1
  let b2 ← u.bc2
  div32 (← mul32 m b1) (← add32 (← sqrt32 (← mul32 v b2)) g.eps)

/-- The moments of ADAMW and LAMB. -/
def adamMoments (u : Setup) (g : Grp) (m v gr : Nat) : Option (Nat × Nat) := do
  let x ← mul32 gr u.k
  let m' ← mix32 g.beta1 m (← sub32 one32 g.beta1) x
  let v' ← mix32 g.beta2 v (← sub32 one32 g.beta2) (← mul32 x x)
  some (m', v')

/-- The update direction of ADAMW and LAMB. -/
def adamU (u : Setup) (g : Grp) (w m v : Nat) : Option Nat := do add32 (← adamDir u g m v) (← mul32 g.wd w)

def adamw (u : Setup) (g : Grp) (w m v gr : Nat) : Option Wmv := do
  let lr ← u.lr
  let (m', v') ← adamMoments u g m v gr
  some (← stepDown w lr (← adamU u g w m' v'), m', v')

def lion (u : Setup) (g : Grp) (w m v gr : Nat) : Option Wmv := do
  let lr ← u.lr
  let x ← mul32 gr u.k
  let c ← mix32 g.beta1 m (← sub32 one32 g.beta1) x
  let d ← add32 (sign32 c) (← mul32 g.wd w)
  let m' ← mix32 g.beta2 m (← sub32 one32 g.beta2) x
  some (← stepDown w lr d, m', v)

/-- square_to_ledger: x² on the FW grid, to nearest even. -/
def squareLedger (fw x : Nat) : Int :=
  match decodeFloat fmtFp32 x with
  | some e => roundAt (exMul e e) (windowOf fw - 100) .rne
  | none => 0

/-- LAMB pass 1: the moments, w² and u². -/
def lamb1 (u : Setup) (g : Grp) (w m v gr : Nat) : Option (Wmv × Int × Int) := do
  let (m', v') ← adamMoments u g m v gr
  let x ← adamU u g w m' v'
  some ((w, m', v'), squareLedger g.fw w, squareLedger g.fw x)

def lamb2 (u : Setup) (g : Grp) (ratio w m v : Nat) : Option Wmv := do
  let lr ← u.lr
  some (← stepDown w (← mul32 lr ratio) (← adamU u g w m v), m, v)

/-- ADAFACTOR pass 2 with the row and column factors of the parameter, which R247 computes whatever they are. -/
def adafactor2 (u : Setup) (g : Grp) (rf cf rmean w m v gr : Nat) : Option Wmv := do
  let lr ← u.lr
  let x ← mul32 gr u.k
  let vh ← fin32 (ieDiv fmtFp32 (← fin32 (ieMul fmtFp32 rf cf)) rmean)
  let y ← div32 x (← add32 (← sqrt32 vh) g.eps)
  let m' ← mix32 g.beta1 m (← sub32 one32 g.beta1) y
  some (← stepDown w lr (← add32 m' (← mul32 g.wd w)), m', v)

def precond (u : Setup) (g : Grp) (w m v d : Nat) : Option Wmv := do
  let lr ← u.lr
  let m' ← add32 (← mul32 g.beta1 m) (← mul32 d u.k)
  some (← stepDown w lr (← add32 m' (← mul32 g.wd w)), m', v)

/-! ## The step in flight (R234, R240, R241) -/

def State.updState (s : State) (p : Nat) : Nat := s.rd F.UPD_PART_STEP_STATE [p]
def State.updStep (s : State) (p : Nat) : Nat := s.rd F.UPD_PART_STEP_STEP_TAG [p]
def State.updStat (s : State) (p c n : Nat) : State :=
  (s.bumpOvf F.UPD_STAT_COUNT F.UPD_STAT_OVF [p, c] n).countLocal (p % 4) 51 (16 + c) p n

/-- The t that a pass of the step in flight uses. -/
def State.updT (s : State) (p : Nat) : Nat :=
  if 3 ≤ s.updState p then s.rd F.UPD_PART_T_T [p] else s.rd F.UPD_PART_T_T [p] + 1

/-- The latest ended step of a partition and UPD_PART_T after it (R242, R254). -/
def State.endedStep (s : State) (p : Nat) : Nat := if s.updState p = 0 then s.updStep p else s.rd V.ENDED_STEP [p]
def State.endedT (s : State) (p : Nat) : Nat := if s.updState p = 0 then s.rd F.UPD_PART_T_T [p] else s.rd V.ENDED_T [p]

/-- The chunks of a partition that the update engine holds, erased. -/
def State.updClear (s : State) (p : Nat) : State :=
  let clr := fun (t : State) (f : Fld) => t.eraseRegs fun id ix => id == f.id && ix.getD 0 99 == p
  let s := { s with upd := SMap.eraseIf (fun k _ => k.getD 0 99 == p) s.upd }
  [V.UPD_STARTED, V.UPD_OP_DONE, V.GROUP_READY, V.GROUP_RATIO, V.LAMB_WW, V.LAMB_UU, V.LEDGER_SAT, V.NONFINITE_SEEN].foldl clr
    (((s.wr V.NORM_LEDGER [p] 0).wr V.NORM_OPS [p] 0).wr V.STEP_TIMER [p] 0)

/-- A step opened for the first chunk handed off. -/
def State.stepOpen (s : State) (p step : Nat) : State :=
  let k := if s.img.optLagged p && s.rdb V.CLIP_KNOWN [p] then s.rd F.UPD_CLIP_K [p] else one32
  let s := (s.wr V.ENDED_STEP [p] (s.updStep p)).wr V.ENDED_T [p] (s.rd F.UPD_PART_T_T [p])
  (((s.updClear p).wr F.UPD_PART_STEP_STATE [p] 1).wr F.UPD_PART_STEP_STEP_TAG [p] step).wr V.STEP_K [p] k

/-- What the end of a step that was not applied means for Gram commands: a waiting one is to complete ABORTED, and a running one of a step that has FAILED to
stop (R270). -/
def State.stepEndGram (s : State) (p outcome : Nat) : State :=
  (List.range 4).foldl (fun t q =>
    let st := t.rd F.GRM_PART_STATE [q, p]
    if st = 1 && outcome != 1 || st = 2 && outcome == 4 && t.rd V.GRM_STEP [q, p] == t.updStep p then t.wr V.GRM_ABORT [q, p] 1 else t) s

/-- The end of a step: IDLE with an outcome; the engine's chunks and staged gradients are discarded. -/
def State.stepEnd (s : State) (p outcome : Nat) : State :=
  let s := s.stepEndGram p outcome
  let s := s.eraseRegs fun id ix => id == V.IMPORTED.id && ix.getD 0 99 == p
  (((s.updClear p).wr F.UPD_PART_STEP_STATE [p] 0).wr F.UPD_PART_STEP_OUTCOME [p] outcome).stepFlagRecord p (s.updStep p)

/-- The RUP collectives of a partition. -/
def Images.rupColls (v : Images) (p : Nat) : List (Nat × CollE) :=
  ((List.range 4096).map fun n => (n, v.coll p n)).filter fun ne => ne.2.valid && ne.2.ckind == 4

/-- The RUP instances of a step, with their collective. -/
def State.rupInsts (s : State) (p step : Nat) : List (Nat × CollE × Inst) :=
  (s.img.rupColls p).filterMap fun ne => (s.instGet p ne.1 ne.2 step).map fun i => (ne.1, ne.2, i)

/-- Σg² and the step flags contributed to NORM_CTX once the module's part of the step is local-final (R236). -/
def State.localFinal (s : State) (p : Nat) : State :=
  if s.updState p ≠ 1 then s
  else
    let step := s.updStep p
    let ready := ((s.rupInsts p step).filter fun x => x.2.2.st == .ready || x.2.2.st == .complete).length
    if ready < s.img.rupCount p || s.rd V.NORM_OPS [p] < s.img.normExtra p then s
    else
      let s := s.wr F.UPD_PART_STEP_STATE [p] 2
      let s := s.wr V.STEP_TIMER [p] (s.timeNs + s.rd F.UPD_TMO_STEP [p % 4] * 10 ^ 7)
      let ctx := s.img.normCtx p
      let v := s.rd V.NORM_LEDGER [p] + s.rd V.STEPFLG_OVF [p, step] * 2 ^ 128 + s.rd V.STEPFLG_INV [p, step] * 2 ^ 256
      match s.img.ctx ctx with
      | some (o, e) => if o = p && s.ctxActive e then s.mitSelf ctx p step e ⟨v, false, false⟩ else s
      | none => s

/-- An amount added to the norm ledger, which saturates at 2^127 − 1 and then sets the overflow flag of the step (R134, R235). -/
def State.normSum (s : State) (p : Nat) (m : Int) : State :=
  let x := signed 128 (s.rd V.NORM_LEDGER [p]) + m
  let s := s.wr V.NORM_LEDGER [p] (unsigned 128 (min x (2 ^ 127 - 1)))
  if 2 ^ 127 ≤ x then s.wr V.STEPFLG_OVF [p, s.updStep p] 1 else s

/-- A side ledger in window 2W moved to NORM_W, and whether it saturated (R147, R235). -/
def State.normMoved (s : State) (p w side : Nat) : Int × Bool := moveWindow side (2 * windowOf w) (s.img.normW p)

/-! ## Acceptance of a chunk (R233, R234) -/

def updKey (p k i : Nat) : Key := [p, k, i]

def State.updGet (s : State) (p k i : Nat) : Option UpdChunk := SMap.find (updKey p k i) s.upd
def State.updPut (s : State) (p k i : Nat) (c : UpdChunk) : State := { s with upd := SMap.set (updKey p k i) c s.upd }

/-- A shard marked LOST: its passes and publishes stop (R256, R376). -/
def State.shardLost (s : State) (p k : Nat) : State :=
  let q := (s.img.shard p k).quad
  let s := (((s.wr V.SHARD_LOST [p, k] 1).raise F.UPD_FAULT_LOST [q]).wr F.UPD_FAULT_PART [q] p).wr F.UPD_FAULT_SHARD [q] k
  s.err { det := 0x0D, sev := 1, part := p, quad := q, unit := k, cause := 2 }

/-- Every RUP instance of a step that is not COMPLETE aborted with a reason (R241). -/
def State.abortRups (s : State) (p step : Nat) : State :=
  (s.rupInsts p step).foldl (fun t x =>
    t.abortEvent p x.1 x.2.1 x.2.2.step 3) s

/-- The step ends FAILED (R241). -/
def State.stepFail (s : State) (p : Nat) : State :=
  let step := s.updStep p
  ((s.abortRups p step).stepEnd p 4).err { det := 0x0D, sev := 1, part := p, quad := p % 4, cause := 4, addr := step }

/-- A read of a shard's records that failed: the shard is LOST, and a step in flight FAILED (R376). -/
def State.shardReadLost (s : State) (p k off n : Nat) : State :=
  if s.rdb V.SHARD_LOST [p, k] then s
  else
    let s := (s.optNote p off n).shardLost p k
    if s.updState p = 0 then s else s.stepFail p

/-- A handed-off chunk taken out of the partition's list. -/
def State.handoffDrop (s : State) (p : Nat) (h : Handoff) : State :=
  let l := (SMap.get s.handoffs [p] []).filter fun x => !(x.coll == h.coll && x.step == h.step && x.chunk == h.chunk)
  { s with handoffs := if l.isEmpty then SMap.erase [p] s.handoffs else SMap.set [p] l s.handoffs }

/-- The crown slot of an accepted chunk: HELD and at once FREE, but for one that sent a RESULT to another rack, which stays HELD for POD_HOLD; its chunk is
resulted (R205, R210, R233). -/
def State.handoffSlot (s : State) (p : Nat) (h : Handoff) (e : CollE) : State :=
  let key := slotKey (crownQuad p h.coll h.chunk) p h.coll h.step h.chunk
  let s := match s.slotGet key with
    | some x => if x.podSent = 0 then s.slotDrop key else s.slotPut key { x with st := .held }
    | none => s
  let s := s.instFlags p h.coll e h.step h.chunk h.ovf h.inv
  (s.chunkResulted p h.coll e h.step).settle p

/-- A chunk of the step in flight accepted: staged, or held for its first pass; its side ledger added to the norm.  A chunk
accepted before, whose instance was aborted and refilled, is counted once: its earlier amount is taken back, and one that
has started its passes keeps its first gradients (R235, R241). -/
def State.handoffAccept (s : State) (p : Nat) (h : Handoff) (e : CollE) (sh : ShardE) : State :=
  let i := h.chunk - e.chunkBase
  let g := s.img.grp p (s.img.segOf p sh i).group
  let old := s.updGet p e.shard i
  if (old.map fun c => decide (0 < c.passes)).getD false then (s.handoffSlot p h e).localFinal p
  else
    let (m, o) := if g.clip && s.ownsChunk (s.stamp p) p e h.chunk then s.normMoved p h.window h.side else (0, false)
    let s := s.instFlags p h.coll e h.step h.chunk o false
    let c : UpdChunk :=
      { grads := h.grads, staged := false, passes := 0, finished := false, dir := false, ovf := h.ovf, inv := h.inv,
        norm := unsigned 128 m, bad := [] }
    let back : Int := (old.map fun c => signed 128 c.norm).getD 0
    let s := s.normSum p (m - back)
    let s := if sh.stage then
        match s.optWrite p (sh.stageAddr + 2048 * s.recordOf p sh i) (h.grads.flatMap (leBytes 4)) with
        | some t => t.updPut p e.shard i { c with grads := [], staged := true }
        | none => s.shardLost p e.shard
      else s.updPut p e.shard i c
    (s.handoffSlot p h e).localFinal p

/-- EARLY: a hand-off of a later step waits for the step in flight (R234, R257). -/
def State.updEarly (s : State) (p : Nat) : Bool :=
  s.updState p != 0 && (SMap.get s.handoffs [p] []).any fun h => h.waited && before32 (s.updStep p) h.step

/-- CHUNK_HANDOFF: the update engine takes the chunk (coll, step, chunk) that its crown has handed off. -/
def State.chunkHandoff (s : State) (p coll step chunk : Nat) : State :=
  match (SMap.get s.handoffs [p] []).find? fun h => h.coll == coll && h.step == step && h.chunk == chunk with
  | none => s
  | some h =>
    match s.img.collValid p coll with
    | none => s.handoffDrop p h
    | some e =>
      match s.img.shardValid p e.shard with
      | none => s.handoffDrop p h
      | some sh =>
        if s.rdb F.UPD_FAULT_FAULTED [sh.quad] then s
        else
          let idle := s.updState p = 0
          let ended := idle && s.rdb F.UPD_PART_STEP_OUTCOME [p] && !before32 (s.updStep p) step
          let early := !idle && before32 (s.updStep p) step
          let past := ended || (!idle && before32 step (s.updStep p))
          if past then
            ((s.handoffDrop p h).sltEvent (crownQuad p coll chunk) p 2).slotDrop (slotKey (crownQuad p coll chunk) p coll step chunk)
              |>.settle p
          else if early then
            if h.waited then s
            else
              let l := (SMap.get s.handoffs [p] []).map fun x =>
                if x.coll == coll && x.step == step && x.chunk == chunk then { x with waited := true } else x
              ({ s with handoffs := SMap.set [p] l s.handoffs }).updStat p 2 1
          else
            let s := if idle then s.stepOpen p step else s
            (s.handoffDrop p h).handoffAccept p h e sh

/-! ## Passes (R245 to R250) -/

/-- Every chunk offset of a group on this module, with its shard (R247). -/
def State.groupChunks (s : State) (p g : Nat) : List (Nat × Nat) :=
  (List.range 4096).flatMap fun k =>
    match s.img.shardValid p k with
    | none => []
    | some h =>
      let e := s.img.coll p h.coll
      ((List.range e.nchunk).filter fun i =>
        (s.img.segOf p h i).group == g && (!h.partitioned || s.ownsChunk (s.stamp p) p e (e.chunkBase + i))).map fun i => (k, i)

/-- True when every chunk of a group on this module has passed its first pass. -/
def State.groupPassed (s : State) (p g : Nat) : Bool :=
  (s.groupChunks p g).all fun ki =>
    match s.updGet p ki.1 ki.2 with
    | some c => decide (1 ≤ c.passes)
    | none => false

/-- A ledger with a square added, saturating at 2^127 − 1. -/
def addSat (l x : Int) : Int × Bool := if 2 ^ 127 - 1 < l + x then (2 ^ 127 - 1, true) else (l + x, false)

/-- A group ledger in a scalar item. -/
def State.ledgerAdd (s : State) (f : Fld) (ix : List Nat) (x : Int) : State × Bool :=
  let (l, o) := addSat (signed 128 (s.rd f ix)) x
  (s.wr f ix (unsigned 128 l), o)

/-- A 16 B ledger of a factor area. -/
def State.factAdd (s : State) (p off : Nat) (x : Int) : State × Bool :=
  match s.optRead p off 16 with
  | none => (s, false)
  | some d =>
    let (l, o) := addSat (signed 128 (ofLE d)) x
    match s.optWrite p off (leBytes 16 (unsigned 128 l)) with
    | some t => (t, o)
    | none => (s, o)

/-- The one record per step of a saturated group ledger (R246). -/
def State.satRecord (s : State) (p k i : Nat) (o : Bool) : State :=
  if o && !s.rdb V.LEDGER_SAT [p] then
    (s.wr V.LEDGER_SAT [p] 1).err { det := 0x0D, sev := 1, part := p, quad := p % 4, unit := k, cause := 5, addr := i }
  else s

/-- Up to a 64 B boundary. -/
def up64 (n : Nat) : Nat := ceilDiv n 64 * 64

/-- Rows, and offsets of the four arrays of an ADAFACTOR segment (R247, R248). -/
structure Fact where
  rows : Nat
  cols : Nat
  rl : Nat
  cl : Nat
  rf : Nat
  cf : Nat
  deriving DecidableEq, Repr

/-- The chunks of a segment of a shard: up to the next segment or the shard's end. -/
def Images.segChunks (v : Images) (p : Nat) (h : ShardE) (g : Seg) : Nat :=
  (((v.segs p h).find? fun x => decide (g.start < x.start)).map (·.start)).getD h.lchunk - g.start

def Images.fact (v : Images) (p : Nat) (h : ShardE) (sg : Seg) (g : Grp) : Fact :=
  let cols := max 1 g.cols
  let rows := ceilDiv (512 * v.segChunks p h sg) cols
  let cl := sg.fact + up64 (16 * rows)
  let rf := cl + up64 (16 * cols)
  { rows := rows, cols := cols, rl := sg.fact, cl := cl, rf := rf, cf := rf + up64 (4 * rows) }

/-- FP32 words of the optimizer region, zero where they cannot be read. -/
def State.optWord (s : State) (p off : Nat) : Nat := ((s.optRead p off 4).map ofLE).getD 0

/-- A ledger of a window rounded to a format. -/
def ledgerTo (f : Fmt) (w : Nat) (l : Int) : Option Nat := fOfEx f (exScale (exOfInt l) (windowOf w - 100))

/-- One smoothed factor: (BETA2 × f) + ((1.0 − BETA2) × (ledger / n)), whatever it comes to. -/
def smooth (g : Grp) (fct ledger n : Nat) : Nat :=
  let l := signed 128 ledger
  let r := ieRound fmtFp32 (decide (l < 0)) (exScale (exOfInt l) (windowOf g.fw - 100))
  let d := ieRound fmtFp32 false (exOfInt n)
  ieAdd fmtFp32 (ieMul fmtFp32 g.beta2 fct) (ieMul fmtFp32 (ieSub fmtFp32 one32 g.beta2) (ieDiv fmtFp32 r d))

/-- The factors of one direction updated in memory, their ledgers zeroed. -/
def State.smoothAll (s : State) (p : Nat) (g : Grp) (ledg fac count n : Nat) : State :=
  (List.range count).foldl (fun t i =>
    let l := ((t.optRead p (ledg + 16 * i) 16).map ofLE).getD 0
    let t := (t.optWrite p (fac + 4 * i) (leBytes 4 (smooth g (t.optWord p (fac + 4 * i)) l n))).getD t
    (t.optWrite p (ledg + 16 * i) (leBytes 16 0)).getD t) s

/-- rmean: the binary32 sum of rf in ascending row order over the row count. -/
def State.rMean (s : State) (p : Nat) (f : Fact) : Nat :=
  ieDiv fmtFp32 ((List.range f.rows).foldl (fun a i => ieAdd fmtFp32 a (s.optWord p (f.rf + 4 * i))) 0) (ieRound fmtFp32 false (exOfInt f.rows))

/-- The LAMB trust ratio (R247). -/
def trustRatio (g : Grp) (ww uu : Nat) : Nat :=
  if ww = 0 || uu = 0 then one32
  else
    let r := do
      let a ← fSqrt fmtFp64 (← ledgerTo fmtFp64 g.fw (signed 128 ww))
      let b ← fSqrt fmtFp64 (← ledgerTo fmtFp64 g.fw (signed 128 uu))
      fCast fmtFp64 fmtFp32 (← fDiv fmtFp64 a b)
    match r with
    | some x =>
      if g.aux % 2 ^ 31 = 0 then x
      else match decodeFloat fmtFp32 g.aux, decodeFloat fmtFp32 x with
        | some c, some y => if exLt c y then g.aux else x
        | _, _ => x
    | none => one32

/-- What the engine computes between the passes of a group, once (R247). -/
def State.betweenPasses (s : State) (p gi : Nat) (h : ShardE) (sg : Seg) (g : Grp) : State :=
  if s.rdb V.GROUP_READY [p, gi] then s
  else
    let s := s.wr V.GROUP_READY [p, gi] 1
    if g.recipe = 3 then s.wr V.GROUP_RATIO [p, gi] (trustRatio g (s.rd V.LAMB_WW [p, gi]) (s.rd V.LAMB_UU [p, gi]))
    else
      let f := s.img.fact p h sg g
      (s.smoothAll p g f.rl f.rf f.rows f.cols).smoothAll p g f.cl f.cf f.cols f.rows

/-- A non-finite parameter: counted, and recorded once per step (R249). -/
def State.nonFinite (s : State) (p k i n : Nat) : State :=
  if n = 0 then s
  else
    let s := s.updStat p 3 n
    if s.rdb V.NONFINITE_SEEN [p] then s
    else (s.wr V.NONFINITE_SEEN [p] 1).err { det := 0x0D, sev := 1, part := p, quad := p % 4, unit := k, cause := 6, addr := i }

/-- The record with the new values of one recipe: an element without a value keeps its old state. -/
def applyElems (r : Rec) (xs : List (Option Wmv)) : Rec :=
  let z := ((r.w.zip (r.m.zip r.v)).zip xs).map fun t =>
    match t.2 with
    | some (w, m, v) => (w, m, v)
    | none => (t.1.1, t.1.2.1, t.1.2.2)
  { w := z.map (·.1), m := z.map (·.2.1), v := z.map (·.2.2) }

/-- The elements that a pass gave no finite value. -/
def badElems {α : Type} (xs : List (Option α)) : List Nat :=
  (List.range xs.length).filter fun j => match xs[j]? with | some (some _) => false | _ => true

/-- One element's inputs: w, m, v, g. -/
def elemsOf (r : Rec) (gs : List Nat) : List (Nat × Nat × Nat × Nat) :=
  ((r.w.zip (r.m.zip r.v)).zip gs).map fun t => (t.1.1, t.1.2.1, t.1.2.2, t.2)

/-- The final-pass values of each element of a chunk, for every recipe. -/
def State.finalElems (s : State) (p gi e0 : Nat) (h : ShardE) (sg : Seg) (g : Grp) (u : Setup) (r : Rec)
    (gs : List Nat) : List (Option Wmv) :=
  let f := s.img.fact p h sg g
  let rm := if g.recipe = 5 then s.rMean p f else 0
  ((elemsOf r gs).zip (List.range 512)).map fun t =>
    let (w, m, v, x) := t.1
    match g.recipe with
    | 0 => some (w, m, v)
    | 1 => sgdM u g w m v x
    | 2 => adamw u g w m v x
    | 3 => lamb2 u g (s.rd V.GROUP_RATIO [p, gi]) w m v
    | 4 => lion u g w m v x
    | 5 =>
      let e := e0 + t.2
      adafactor2 u g (s.optWord p (f.rf + 4 * (e / f.cols))) (s.optWord p (f.cf + 4 * (e % f.cols))) rm w m v x
    | _ => precond u g w m v x

/-- The gradients of a chunk: held, or read from staging. -/
def State.chunkGrads (s : State) (p i : Nat) (h : ShardE) (c : UpdChunk) : Option (List Nat) :=
  if c.staged then (s.optRead p (h.stageAddr + 2048 * s.recordOf p h i) 2048).map fun d => (chunksOf 4 512 d).map ofLE
  else some c.grads

/-- The high halves of a record as PUBLISH carries them. -/
def State.highHalves (s : State) (p i : Nat) (h : ShardE) : Option (List Byte) :=
  s.optRead p (h.stateAddr + recBytes h * s.recordOf p h i) 1024

/-- One chunk published to a group from its record, and in PARTITIONED mode to the racks of R208 (R251, R252). -/
def State.publishChunk (s : State) (p k i : Nat) (h : ShardE) (g step flags : Nat) (racks : Bool) : State :=
  let e := s.img.coll p h.coll
  let c := e.chunkBase + i
  let off := h.stateAddr + recBytes h * s.recordOf p h i
  if s.rdb V.SHARD_LOST [p, k] then s else
  match s.highHalves p i h with
  | none => s.shardReadLost p k off 1024
  | some hi =>
    let s := (s.optNote p off 1024).instPacket h.quad 44 0x41 p h.coll step e c 1 .d (.group g) 0 flags ⟨1, 0, hi⟩
    let s := s.updStat p 1 1
    if !racks || !h.partitioned then s
    else
      match s.podRole (s.stamp p) p e c with
      | .form _ rs => s.publishToRacks h.quad 44 p h.coll step c e 0 flags hi (rs ++ s.rowRacks (s.stamp p) p e)
      | _ => s

/-- True when every chunk of every shard has passed every pass of the step (R240). -/
def State.allPassed (s : State) (p : Nat) : Bool :=
  (List.range 4096).all fun k =>
    match s.img.shardValid p k with
    | none => true
    | some h => (s.upd.filter fun kv => kv.1.take 2 == [p, k] && kv.2.finished).length == h.lchunk

/-- PUBLISHING to IDLE, outcome APPLIED, once every RUP instance of the step is COMPLETE. -/
def State.publishEnd (s : State) (p : Nat) : State :=
  if s.updState p = 4 && ((s.rupInsts p (s.updStep p)).all fun x => x.2.2.st == .complete) then
    s.stepEnd p 1
  else s

/-- UPDATING to PUBLISHING. -/
def State.passesEnd (s : State) (p : Nat) : State :=
  if s.updState p = 3 && s.allPassed p then (s.wr F.UPD_PART_STEP_STATE [p] 4).publishEnd p else s

/-- The end of a chunk's final pass: it is published, and its shard's UPDATE_SHARD may be complete. -/
def State.chunkFinal (s : State) (p k i : Nat) (h : ShardE) (c : UpdChunk) : State :=
  let step := s.updStep p
  let s := s.updPut p k i { c with passes := c.passes + 1, finished := true, prior := ⟨[], [], []⟩ }
  let s := s.publishChunk p k i h h.group step (flgBits ⟨c.ovf, c.inv⟩) true
  let s := if (s.upd.filter fun kv => kv.1.take 2 == [p, k] && kv.2.finished).length == h.lchunk then s.wr V.UPD_OP_DONE [p, k] 1 else s
  s.passesEnd p

/-- True when no pass of the step in flight has touched a shard (R242). -/
def State.shardQuiet (s : State) (p k : Nat) : Bool :=
  !(s.upd.any fun kv => kv.1.take 2 == [p, k] && decide (0 < kv.2.passes)) || s.updState p == 0

/-- PUBLISH or SNAPSHOT work pending on a shard: an operation that has fired, or a command at the head of an update ring (R242). -/
def State.readsPending (s : State) (p k : Nat) : Bool :=
  ((SMap.get s.trigOps [p] []).any fun o => !o.finished && (twOp o.word == 5 || twOp o.word == 6) && twArg0 o.word % 2 ^ 16 == k)
    || (List.range 4).any fun q => match s.ringHead q p 1 with
      | some x => (ceOpcode x == 1 || ceOpcode x == 2) && bitsOf x 64 16 == k
      | none => false

/-- True when the next pass of a chunk may start (R234, R240, R242, R246, R247). -/
def State.passReady (s : State) (p k : Nat) (g : Grp) (gi : Nat) (c : UpdChunk) : Bool :=
  let st := s.updState p
  let second := twoPass g.recipe && c.passes == 1
  !c.finished
    && (if s.img.optLagged p then (if second then st == 3 else decide (1 ≤ st) && decide (st ≤ 3))
        else st == 3 && (s.img.optAuto p || s.rdb V.UPD_STARTED [p, k]))
    && (!second || s.groupPassed p gi)
    && (g.recipe != 6 || c.dir)
    && !(s.shardQuiet p k && s.readsPending p k)

/-- The first pass of a two-pass chunk: LAMB's moments and ledgers, ADAFACTOR's ledgers. -/
def State.firstPass (s : State) (p k i gi : Nat) (h : ShardE) (sg : Seg) (g : Grp) (u : Setup) (c : UpdChunk) (r : Rec)
    (gs : List Nat) : State :=
  let off := h.stateAddr + recBytes h * s.recordOf p h i
  let e := s.img.coll p h.coll
  if g.recipe = 3 then
    let xs := (elemsOf r gs).map fun t => lamb1 u g t.1 t.2.1 t.2.2.1 t.2.2.2
    let r' := applyElems r (xs.map fun x => x.map (·.1))
    let ww := (xs.filterMap id).foldl (fun a x => a + x.2.1) 0
    let uu := (xs.filterMap id).foldl (fun a x => a + x.2.2) 0
    match s.optWrite p off (recBytesOf h.layout1 (s.img.seed p) (s.updStep p) (e.chunkBase + i) (xs.map (·.isSome)) r') with
    | none => (s.shardLost p k).stepFail p
    | some s =>
      let (s, o1) := s.ledgerAdd V.LAMB_WW [p, gi] ww
      let (s, o2) := s.ledgerAdd V.LAMB_UU [p, gi] uu
      let s := (s.satRecord p k i (o1 || o2)).nonFinite p k i (xs.filter (·.isNone)).length
      s.updPut p k i { c with passes := 1, bad := badElems xs, prior := r }
  else
    let f := s.img.fact p h sg g
    let e0 := (i - sg.start) * 512
    let (s, o, n) := (gs.zip (List.range 512)).foldl (fun (t : State × Bool × List Nat) x =>
      match mul32 x.1 u.k with
      | none => (t.1, t.2.1, t.2.2 ++ [x.2])
      | some y =>
        let q := squareLedger g.fw y
        let (a, o1) := t.1.factAdd p (f.rl + 16 * ((e0 + x.2) / f.cols)) q
        let (b, o2) := a.factAdd p (f.cl + 16 * ((e0 + x.2) % f.cols)) q
        (b, t.2.1 || o1 || o2, t.2.2)) (s, false, [])
    ((s.satRecord p k i o).nonFinite p k i n.length).updPut p k i { c with passes := 1, bad := n }

/-- What the reads of a pass report: the record, and the staged gradient (R376). -/
def State.passNote (s : State) (p i off : Nat) (h : ShardE) (c : UpdChunk) : State :=
  let s := s.optNote p off (recBytes h)
  if c.staged then s.optNote p (h.stageAddr + 2048 * s.recordOf p h i) 2048 else s

/-- Values of a final pass without those of the elements that the first pass left unchanged (R249). -/
def dropElems {α : Type} (bad : List Nat) (xs : List (Option α)) : List (Option α) :=
  (xs.zip (List.range xs.length)).map fun t => if bad.contains t.2 then none else t.1

/-- Cycles of a pass over one chunk (R250). -/
def passCycles : Nat := 4

/-- UPDATE_PASS: one recipe pass over one chunk, the update engine's unit of work (R250).  A parameter that either pass of a LAMB group leaves unchanged keeps
the M and V that it had before the first (R249). -/
def State.updatePass (s : State) (p k i : Nat) : State :=
  match s.img.shardValid p k, s.updGet p k i with
  | some h, some c =>
    let sg := s.img.segOf p h i
    let g := s.img.grp p sg.group
    if s.rdb F.UPD_FAULT_FAULTED [h.quad] || s.rdb V.SHARD_LOST [p, k] || !s.passReady p k g sg.group c then s
    else s.unit h.quad 5 p passCycles fun s =>
      let off := h.stateAddr + recBytes h * s.recordOf p h i
      match s.optRead p off (recBytes h), s.chunkGrads p i h c with
      | some bs, some gs =>
        let r := recOfBytes h.layout1 bs
        let u := s.img.setup p g (s.updT p) (s.rd V.STEP_K [p])
        let s := (s.passNote p i off h c).updStat p 0 1
        if twoPass g.recipe && c.passes = 0 then s.firstPass p k i sg.group h sg g u c r gs
        else
          let s := if twoPass g.recipe then s.betweenPasses p sg.group h sg g else s
          let xs := dropElems c.bad (s.finalElems p sg.group ((i - sg.start) * 512) h sg g u r gs)
          let r' := applyElems (if g.recipe = 3 then { r with m := c.prior.m, v := c.prior.v } else r) xs
          let e := s.img.coll p h.coll
          let ch := xs.map fun x => x.isSome && g.recipe != 0 && g.recipe != 3
          match s.optWrite p off (if g.recipe = 0 then bs
              else recBytesOf h.layout1 (s.img.seed p) (s.updStep p) (e.chunkBase + i) ch r') with
          | none => (s.shardLost p k).stepFail p
          | some s => (s.nonFinite p k i ((xs.filter (·.isNone)).length - c.bad.length)).chunkFinal p k i h c
      | _, _ => ((s.passNote p i off h c).shardLost p k).stepFail p
  | _, _ => s

/-! ## Decision, timers and faults (R237 to R241, R256) -/

/-- k and r of a decided step from Σg² as a ledger in NORM_W (R237): whatever the quotient comes to where r is not at most CLIP_NORM. -/
def clipFactor (clipNorm : Nat) (w : Int) (g2 : Int) : Nat × Nat :=
  let n := (fOfEx fmtFp64 (exScale (exOfInt g2) (w - 100))).getD 0
  let r := (fSqrt fmtFp64 n).getD 0
  let within := clipNorm % 2 ^ 31 == 0 || clipNorm == infBits fmtFp32
    || (match decodeFloat fmtFp32 clipNorm, decodeFloat fmtFp64 r with
      | some c, some x => !exLt c x
      | _, _ => false)
  (if within then one32 else ieCast fmtFp64 fmtFp32 (ieDiv fmtFp64 (ieCast fmtFp32 fmtFp64 clipNorm) r), r)

/-- A RUP instance of a skipped step goes to COMPLETE without DONE (R239). -/
def State.completeRups (s : State) (p step : Nat) : State :=
  (s.rupInsts p step).foldl (fun t x => if x.2.2.st = .ready then t.instComplete p x.1 x.2.1 x.2.2 else t) s

/-- STEP_DECIDED: the result of NORM_CTX for the step in flight has arrived. -/
def State.stepDecided (s : State) (p : Nat) : State :=
  let step := s.updStep p
  if s.updState p ≠ 2 then s
  else match s.roundGet (s.img.normCtx p) step with
    | none => s
    | some rd =>
      match rd.st, rd.pod with
      | 2, some m =>
        let (k, r) := clipFactor (s.img.clipNorm p) (s.img.normW p) (signed 128 (bitsOf m.v 0 128))
        let gov := bitsOf m.v 128 128 != 0
        let ginv := bitsOf m.v 256 128 != 0
        let s := s.stepFlagRecord p step
        let s := ((s.wr F.UPD_NORM_NORM [p] r).wr F.UPD_CLIP_K [p] k).wr F.UPD_CLIP_STEP_TAG [p] step
        let s := s.wr V.CLIP_KNOWN [p] 1
        let skip := !s.img.optLagged p
          && ((gov && s.rdb F.LDG_PART_CTL_OVF_POLICY [p]) || (ginv && s.rdb F.LDG_PART_CTL_INV_POLICY [p]))
        if skip then
          (((s.wr F.LDG_STEP_SKIPPED [p] 1).updStat p 4 1).completeRups p step).stepEnd p 2
        else
          let s := if s.img.optLagged p then s else s.wr V.STEP_K [p] k
          ((s.wr F.UPD_PART_STEP_STATE [p] 3).bump F.UPD_PART_T_T [p] 1).passesEnd p
      | _, _ => s

/-- STEP_TIMER_EXPIRY: ABANDONED from DECIDING, FAILED from UPDATING or PUBLISHING (R241). -/
def State.stepTimerExpiry (s : State) (p : Nat) : State :=
  let step := s.updStep p
  match s.updState p with
  | 2 => ((s.abortRups p step).stepEnd p 3).err { det := 0x0D, sev := 1, part := p, quad := p % 4, cause := 3, addr := step }
  | 3 => s.stepFail p
  | 4 => s.stepFail p
  | _ => s

/-- True when an UPDATING or PUBLISHING step of a partition has shards in a quadrant. -/
def State.updOn (s : State) (p q : Nat) : Bool :=
  decide (3 ≤ s.updState p)
    && (List.range 4096).any fun k => match s.img.shardValid p k with | some h => h.quad == q | none => false

/-- UPDATE_PROGRESS_TIMEOUT: the engine of a quadrant is faulted (R256). -/
def State.updateProgressTimeout (s : State) (q : Nat) : State :=
  if s.rdb F.UPD_FAULT_FAULTED [q] then s
  else
    let inj := s.injEngine q 1
    let s := if inj then s.injFired else s
    let s := (s.wr F.UPD_FAULT_FAULTED [q] 1).err { det := 0x0D, sev := 2, quad := q, unit := 1, cause := 1, inj := inj }
    (List.range 32).foldl (fun t p => if t.updOn p q then t.stepFail p else t) s

/-! ## Publish, snapshots and import (R253 to R255, R503 to R505) -/

/-- PUBLISH of a shard's chunks from its records (R253). -/
def State.publishShard (s : State) (p k arg1 : Nat) (h : ShardE) : State :=
  let g := if bitOf arg1 15 then bitsOf arg1 0 12 else h.group
  let first := bitsOf arg1 16 24
  let cnt := bitsOf arg1 40 24
  let e := s.img.coll p h.coll
  let is := (List.range e.nchunk).filter fun i =>
    (cnt == 0 || (decide (first ≤ i) && decide (i < first + cnt)))
      && (!h.partitioned || s.ownsChunk (s.stamp p) p e (e.chunkBase + i))
  let step := s.endedStep p
  let s := if bitOf arg1 15 then s.wr V.PUB_OVER [p, k, g] 1 else s
  is.foldl (fun t i => (t.instForget p h.coll e step [0x41, e.chunkBase + i, 1, 0]).publishChunk p k i h g step 0 false) s

/-- The nonce of R503. -/
def State.nonce (s : State) (target p k seq step q : Nat) (h : ShardE) : List Byte :=
  let _ := p
  let rack := if target = 1 && !h.partitioned then 0xFF else s.myX + 8 * s.myY
  leBytes 1 (target + 1) ++ leBytes 1 s.myPlane ++ leBytes 1 rack ++ leBytes 1 (if target = 0 then q else 0)
    ++ (if target = 0 then leBytes 4 (s.rd F.SEC_BOOT_EPOCH []) ++ leBytes 4 seq else leBytes 4 step ++ leBytes 2 k ++ leBytes 2 0)

def State.exportKey (s : State) (p : Nat) : List Byte := leBytes 32 (s.rd V.EXPORT_KEY [p])

/-- One SNAPSHOT packet: the masters of a chunk in FORMAT SPLIT, encrypted (R254, R504). -/
def State.snapPacket (s : State) (p k i colour g : Nat) (h : ShardE) : State :=
  let off := h.stateAddr + recBytes h * s.recordOf p h i
  match s.optRead p off 2048 with
  | none => s.shardReadLost p k off 2048
  | some plain =>
    let s := s.optNote p off 2048
    let seq := s.rd V.SNAP_SEQ [p, h.quad]
    let (ct, tag) := Config.gcmSeal (s.exportKey p) (s.nonce 0 p k seq 0 h.quad h)
      (leBytes 1 p ++ leBytes 2 k ++ leBytes 3 i) plain
    let gr := s.img.group p g
    let pk := mkPacket (mkHdr 0x62 15 (s.stamp gr.rx) gr.rx 32 1 1 g (s.ownAddr h.quad) seq (k + i * 2 ^ 12 + leAt tag 0 8 * 2 ^ 32)
      + colour * 2 ^ 14) (bytesAt ct 0 2048)
    (s.wr V.SNAP_SEQ [p, h.quad] (seq + 1)).send h.quad 44 p pk

/-- The 64 B header of a TARGET 1 snapshot (R254). -/
def State.snapHeader (s : State) (p k : Nat) (h : ShardE) (step : Nat) : List Byte :=
  leBytes 4 0x504E534B ++ leBytes 2 k ++ leBytes 1 (b2n h.layout1) ++ leBytes 1 0 ++ leBytes 4 step
    ++ leBytes 4 (s.endedT p) ++ leBytes 4 h.lchunk ++ List.replicate 44 0

/-- A snapshot written: its completion STATUS and the state after. -/
def State.snapshotShard (s : State) (p k arg1 : Nat) (h : ShardE) : State × Nat :=
  if !s.rdb F.SEC_KEY_VALID [p] then (s, 5)
  else if !bitOf arg1 0 then
    let g := bitsOf arg1 4 12
    let e := s.img.coll p h.coll
    let seq := s.rd V.SNAP_SEQ [p, h.quad]
    if 2 ^ 20 < h.lchunk then (s, 5)
    else if 2 ^ 32 < seq + h.lchunk then
      (s.wr F.SEC_KEY_EXHAUSTED [p] (setBit (s.rd F.SEC_KEY_EXHAUSTED [p]) h.quad), 7)
    else
      let is := (List.range e.nchunk).filter fun i => !h.partitioned || s.ownsChunk (s.stamp p) p e (e.chunkBase + i)
      (is.foldl (fun t i => t.snapPacket p k i (bitsOf arg1 1 2) g h) s, 0)
  else if s.rdb V.IMPORTED [p, k] then (s, 7)
  else
    let off := bitsOf arg1 16 48 * 4096
    let step := s.endedStep p
    match s.optRead p h.stateAddr (recBytes h * h.lchunk) with
    | none => (s.shardReadLost p k h.stateAddr (recBytes h * h.lchunk), 5)
    | some plain =>
      let s := s.optNote p h.stateAddr (recBytes h * h.lchunk)
      let hd := s.snapHeader p k h step
      let (ct, tag) := Config.gcmSeal (s.exportKey p) (s.nonce 1 p k 0 step h.quad h) hd plain
      match s.updWrite p 3 off (hd ++ bytesAt ct 0 (recBytes h * h.lchunk) ++ bytesAt tag 0 16) with
      | some t => (t, 0)
      | none => (s, 5)

/-- IMPORT: BOUNDS unless tag, SHARD, LAYOUT and LCHUNK match; it then writes every record (R255, R505). -/
def State.importShard (s : State) (p k offPages : Nat) (h : ShardE) : State × Nat :=
  if s.updState p ≠ 0 then (s, 7)
  else if !s.rdb F.SEC_KEY_VALID [p] then (s, 5)
  else
    let n := recBytes h * h.lchunk
    let off := offPages * 4096
    match s.regionData p 3 off (64 + n + 16) with
    | none => (s.updNote p 3 off (64 + n + 16), 5)
    | some d =>
      let s := s.updNote p 3 off (64 + n + 16)
      let hd := bytesAt d 0 64
      let okHd := leAt hd 0 4 == 0x504E534B && leAt hd 4 2 == k && leAt hd 6 1 == b2n h.layout1 && leAt hd 16 4 == h.lchunk
      match Config.gcmOpen (s.exportKey p) (s.nonce 1 p k 0 (leAt hd 8 4) h.quad h) hd (bytesAt d 64 n) (bytesAt d (64 + n) 16) with
      | none => (s, 5)
      | some plain =>
        if !okHd then (s, 5)
        else match s.optWrite p h.stateAddr (bytesAt plain 0 n) with
          | some t => ((t.wr V.IMPORTED [p, k] 1).wr V.SHARD_LOST [p, k] 0, 0)
          | none => (s, 5)

/-- A shard command of the update ring: its operands are checked, then it starts, runs and completes. -/
def State.shardCmd (s : State) (q p op entry : Nat) (quiet : Bool) (run : State → Nat → ShardE → State × Nat) : State :=
  if !s.ringCmd q p 1 op entry || s.rdb F.UPD_FAULT_FAULTED [q] then s
  else
    let k := bitsOf entry 64 16
    match s.img.shardValid p k with
    | none => s.ringStop q p 1 5 (ceTag entry)
    | some h =>
      if quiet && !s.shardQuiet p k then s
      else
        let (t, st) := run (s.cmdStart q p 1 entry) k h
        t.cmdDone q p 1 entry st

/-- PUBLISH of the update ring. -/
def State.publishCmd (s : State) (q p entry : Nat) : State :=
  s.shardCmd q p 1 entry true fun t k h =>
    if t.rdb V.SHARD_LOST [p, k] then (t, 5) else (t.publishShard p k (bitsOf entry 128 64) h, 0)

/-- SNAPSHOT of the update ring. -/
def State.snapshotCmd (s : State) (q p entry : Nat) : State :=
  s.shardCmd q p 2 entry true fun t k h => t.snapshotShard p k (bitsOf entry 128 64) h

/-- IMPORT. -/
def State.importCmd (s : State) (q p entry : Nat) : State :=
  s.shardCmd q p 3 entry false fun t k h => t.importShard p k (bitsOf entry 128 64) h

/-- SET_T. -/
def State.setT (s : State) (q p entry : Nat) : State :=
  if !s.ringCmd q p 1 4 entry || s.rdb F.UPD_FAULT_FAULTED [q] then s
  else
    let s := s.cmdStart q p 1 entry
    if s.updState p = 0 then (s.wr F.UPD_PART_T_T [p] (bitsOf entry 96 32)).cmdDone q p 1 entry 0
    else s.cmdDone q p 1 entry 7

/-- UPDATE_PASS: a pass of a chunk; with an injection armed for the engine the unit makes no progress (R559, 0x0D). -/
def State.updatePassCmd (s : State) (p k i : Nat) : State :=
  match s.img.shardValid p k with
  | some h => if s.injEngine h.quad 1 then s.updateProgressTimeout h.quad else s.updatePass p k i
  | none => s

end Sys2Proof.Machine
end

