-- ==== Sys2Proof/Machine/Key.lean ====
section
/-! DEFINITION. The boot flash, its counters, the objects that anchor the life cycle and the owner, and partition keys
(R489 to R505 of spec/17_security_and_debug.md). -/

namespace Sys2Proof.Machine

/-! ## Boot flash (R491, R492) -/

/-- n bytes of boot flash. -/
def State.flashBytes (s : State) (a n : Nat) : List Byte := Mem.readN s.flash a n

/-- Bytes written to boot flash. -/
def State.flashPut (s : State) (a : Nat) (bs : List Byte) : State := { s with flash := Mem.writeN a bs s.flash }

/-- A flash counter. -/
def State.flashCtr (s : State) (i : Nat) : Nat := s.rd V.FLASH_CTR [i]

/-- The registers that show the counters (R515). -/
def State.showCounters (s : State) : State :=
  ((((s.wr F.SEC_FLOOR_FW [] (s.flashCtr 0)).wr F.SEC_FLOOR_KNIT [] (s.flashCtr 1)).wr
    F.SEC_BOOT_OWNER_GEN [] (s.flashCtr 2)).wr F.SEC_LC_COUNT [] (s.flashCtr 3)).wr F.SEC_BOOT_EPOCH [] (s.flashCtr 4)

/-! ## Device keys (R489, R490) -/

/-- HMAC with SHA-256, whose block is 64 B. -/
def hmac (key msg : List Byte) : List Byte :=
  let k := if 64 < key.length then Config.sha256 key else key
  let k := k ++ List.replicate (64 - k.length) 0
  Config.sha256 (k.map (fun b => b ^^^ 0x5C) ++ Config.sha256 (k.map (fun b => b ^^^ 0x36) ++ msg))

/-- Blocks i + 1 on of the expansion of HKDF. -/
def hkdfBlocks (prk info : List Byte) : Nat → Nat → List Byte → List Byte
  | 0, _, _ => []
  | n + 1, i, prev =>
    let t := hmac prk (prev ++ info ++ [BitVec.ofNat 8 (i + 1)])
    t ++ hkdfBlocks prk info n (i + 1) t

/-- HKDF-SHA-256 (RFC 5869): n bytes from a salt, an input key and info. -/
def hkdf (salt ikm info : List Byte) (n : Nat) : List Byte := (hkdfBlocks (hmac salt ikm) info (ceilDiv n 32) 0 []).take n

/-- A label of R489 in ASCII. -/
def asciiBytes (t : String) : List Byte := t.toList.map fun c => BitVec.ofNat 8 c.toNat

/-- The key of a label, derived from the seed of the PUF. -/
def deviceKey (label : String) (n : Nat) : List Byte := hkdf [] Config.pufSeed (asciiBytes label) n

/-- The order of the group of P-256 (FIPS 186-5). -/
def p256Order : Nat := 0xFFFFFFFF00000000FFFFFFFFFFFFFFFFBCE6FAADA7179E84F3B9CAC2FC632551

/-- The private scalar of a label: 48 bytes of output by the extra-random-bits method. -/
def deviceScalar (label : String) : Nat := ofLE (deviceKey label 48).reverse % (p256Order - 1) + 1

def identityScalar : Nat := deviceScalar "SVZ2 identity"
def wrapScalar : Nat := deviceScalar "SVZ2 wrap"
def flashKey : List Byte := deviceKey "SVZ2 flash" 32

/-- DEVICE: the SHA-256 of the identity public key. -/
def deviceId : List Byte := Config.sha256 (Config.p256Public identityScalar)

/-- The seed can be reconstructed with the helper data of boot flash (R490). -/
def State.seedOk (s : State) : Bool := Config.pufOk (s.flashBytes 0x800 1024)

/-! ## The counters of boot flash (R492 to R494) -/

/-- A command of boot flash: its opcode and request bytes to what the flash holds after it and its response bytes.  The value of a CTR_INCR response is the
counter's after the command, its seq the request's (log entry 82). -/
def State.flashCmd (s : State) (op : Nat) (req : List Byte) : State × List Byte :=
  let k := leBytes 32 (s.rd V.FLASH_KEY [])
  let i := leAt req 0 1
  match op with
  | 0xA0 =>
    if s.rdb V.FLASH_KEYED [] then (s, [1])
    else ((s.wr V.FLASH_KEY [] (ofLE (bytesAt req 0 32))).wr V.FLASH_KEYED [] 1, [0])
  | 0xA1 =>
    let v := leBytes 4 (s.flashCtr i)
    (s, v ++ hmac k (0xA1 :: bytesAt req 0 17 ++ v))
  | 0xA2 =>
    let v := leAt req 1 4
    let ok := s.rdb V.FLASH_KEYED [] && decide (i < 8) && bytesAt req 9 32 == hmac k (0xA2 :: bytesAt req 0 9)
      && leAt req 5 4 == s.rd V.FLASH_SEQ [] && decide (s.flashCtr i < v)
    let t := if ok then (s.wr V.FLASH_CTR [i] v).bump V.FLASH_SEQ [] 1 else s
    let status := leBytes 1 (b2n !ok)
    let now := leBytes 4 (t.flashCtr i)
    (t, status ++ now ++ hmac k (0xA2 :: status ++ bytesAt req 0 1 ++ now ++ bytesAt req 5 4))
  | 0xA3 => (s, leBytes 4 (s.rd V.FLASH_SEQ []))
  | _ => (s, [])

/-- A CTR_READ with a fresh nonce from the DRBG: true when the MAC of its response is right. -/
def State.ctrReadOk (s : State) (i : Nat) : Bool :=
  let req := leBytes 1 i ++ leBytes 16 (Config.free s.free i)
  let resp := (s.flashCmd 0xA1 req).2
  bytesAt resp 4 32 == hmac flashKey (0xA1 :: req ++ bytesAt resp 0 4)

/-- A counter raised to a greater value by SEQ_READ and CTR_INCR: none when the response's status or MAC is wrong. -/
def State.ctrRaise (s : State) (i v : Nat) : Option State :=
  let seq := (s.flashCmd 0xA3 []).2
  let req := leBytes 1 i ++ leBytes 4 v ++ seq
  let (t, resp) := s.flashCmd 0xA2 (req ++ hmac flashKey (0xA2 :: req))
  if leAt resp 0 1 = 0 && bytesAt resp 5 32 == hmac flashKey (0xA2 :: bytesAt resp 0 1 ++ bytesAt req 0 1 ++ bytesAt resp 1 4 ++ seq) then
    some t.showCounters
  else none

/-! ## Life cycle (R498, R499) -/

/-- The root public key of boot flash. -/
def State.rootKey (s : State) : List Byte := s.flashBytes 0 64

/-- The root key record has the hash that the Hatband ROM holds (R496). -/
def State.rootKeyOk (s : State) : Bool := Config.sha256 s.rootKey == Config.device 0

/-- The signature that ends a signed object of n bytes, over the bytes before it. -/
def sigOver (key bs : List Byte) (n : Nat) : Bool := Config.ecdsaOk key (bs.take n) (bytesAt bs n 64)

/-- The offset of a life-cycle slot. -/
def lcSlotAddr (i : Nat) : Nat := if i = 0 then 0x1000 else 0x1800

/-- The fields of a life-cycle object. -/
structure LcObj where
  state : Nat
  issuer : Nat
  count : Nat
  device : List Byte
  wellFormed : Bool
  deriving DecidableEq, Repr

/-- A life-cycle object read from its 128 bytes; reserved bits must be zero. -/
def lcObjOf (bs : List Byte) : LcObj :=
  { state := leAt bs 4 1 % 4, issuer := leAt bs 5 1, count := leAt bs 8 4, device := bytesAt bs 12 32,
    wellFormed := leAt bs 0 4 == 0x434C5653 && leAt bs 4 1 / 4 == 0 && leAt bs 5 1 < 2 && leAt bs 6 2 == 0
      && leAt bs 44 20 == 0 && bs.length == 128 }

/-- An erased slot: nothing has been written there. -/
def State.lcErased (s : State) (i : Nat) : Bool := (s.flashBytes (lcSlotAddr i) 128).all fun b => b == 0 || b == 0xFF

/-! ## The owner certificate (R501) -/

/-- A signer of the owner certificate. -/
structure Signer where
  id : Nat
  kinds : Nat
  parts : Nat
  key : List Byte
  deriving DecidableEq, Repr

/-- The signers of certificate bytes. -/
def ownSigners (bs : List Byte) : List Signer :=
  (List.range (leAt bs 6 2)).map fun k =>
    { id := leAt bs (112 + 96 * k) 8, kinds := leAt bs (112 + 96 * k + 8) 1, parts := leAt bs (112 + 96 * k + 12) 4,
      key := bytesAt bs (112 + 96 * k + 16) 64 }

/-- The bytes of a certificate that its signature covers. -/
def ownLen (bs : List Byte) : Nat := 112 + 96 * leAt bs 6 2

/-- The form of an owner certificate, reserved bytes zero. -/
def ownForm (bs : List Byte) : Bool :=
  let n := leAt bs 6 2
  leAt bs 0 4 == 0x434E574F && leAt bs 4 2 == 1 && decide (1 ≤ n) && decide (n ≤ 16) && leAt bs 108 1 < 2
    && leAt bs 109 3 == 0
    && (List.range n).all fun k =>
        let o := 112 + 96 * k
        leAt bs o 8 != 0 && leAt bs (o + 8) 1 < 16 && leAt bs (o + 9) 3 == 0 && leAt bs (o + 80) 16 == 0

/-- The owner certificate of boot flash. -/
def State.ownCert (s : State) : List Byte := s.flashBytes 0x4000 4096

/-- True while boot flash holds an owner certificate. -/
def State.ownHeld (s : State) : Bool := ownForm s.ownCert

/-- The owner key of the certificate held. -/
def State.ownerKey (s : State) : List Byte := bytesAt s.ownCert 40 64

/-- The key of a signer by its SIGNER_ID, and the signer where it is not the root key. -/
def State.signerKey (s : State) (id : Nat) : Option (List Byte × Option Signer) :=
  if id = 0 then some (s.rootKey, none)
  else if s.ownHeld then ((ownSigners s.ownCert).find? fun g => g.id == id).map fun g => (g.key, some g)
  else none

/-- True when a signer may sign a knit of a KIND for a partition in the present life cycle (R38, R496, R501). -/
def State.knitSigner (s : State) (g : Option Signer) (kind part : Nat) : Bool :=
  let lc := s.rd F.SEC_LC_STATE []
  match g with
  | none => lc != 2
  | some g => (lc == 1 || lc == 2) && bitOf g.kinds (kind - 1) && bitOf g.parts part

/-! ## Partition keys (R502) -/

/-- The SECK entry of partition p in a bank of its image. -/
def Images.seck (v : Images) (bank p : Nat) : List Byte := Mem.readN v.mem (imgKey bank 0x0C 4 p 0) 256

/-- KEY_GEN of an entry. -/
def seckGen (e : List Byte) : Nat := leAt e 64 4

/-- The export key of an entry: unwrapped under the wrap key, with bytes 0 to 71 authenticated. -/
def seckKey (p : Nat) (e : List Byte) : Option (List Byte) :=
  let k := hkdf deviceId (Config.p256Ecdh wrapScalar (bytesAt e 0 64)) (asciiBytes "SVZ2 SECK" ++ leBytes 1 p ++ leBytes 4 (seckGen e)) 32
  Config.gcmOpen k (bytesAt e 72 12) (bytesAt e 0 72) (bytesAt e 88 32) (bytesAt e 120 16)

/-- The check of a group that writes a partition's SECK image. -/
def State.seckOk (s : State) (p : Nat) (e : List Byte) : Bool :=
  seckGen e == 0 || (decide (s.rd F.SEC_KEY_KEY_GEN [p] < seckGen e) && (seckKey p e).isSome)

/-- No export key is held. -/
def State.keyErase (s : State) (p : Nat) : State :=
  ((s.wr F.SEC_KEY_KEY_GEN [p] 0).wr F.SEC_KEY_VALID [p] 0).wr V.EXPORT_KEY [p] 0

/-- A committed SECK entry: the key it wraps, or none for KEY_GEN 0. -/
def State.keyTake (s : State) (p : Nat) (e : List Byte) : State :=
  if seckGen e = 0 then s.keyErase p
  else match seckKey p e with
    | some k => ((s.wr F.SEC_KEY_KEY_GEN [p] (seckGen e)).wr F.SEC_KEY_VALID [p] 1).wr V.EXPORT_KEY [p] (ofLE (bytesAt k 0 32))
    | none => s

end Sys2Proof.Machine
end

