-- ==== Sys2Proof/Machine/Check.lean ====
section
/-! DEFINITION. The check of a knit group against the configuration that it would produce (step 2 of R47): the rules that
end in code SEMANTIC.  Each check reads a state whose images are those that the group would make active. -/

namespace Sys2Proof.Machine

/-- lo ≤ x ≤ hi. -/
def within (lo hi x : Nat) : Bool := decide (lo ≤ x) && decide (x ≤ hi)

/-- True when no two half-open ranges of a list overlap. -/
def rangesDisjoint : List (Nat × Nat) → Bool
  | [] => true
  | r :: rs => rs.all (fun t => decide (r.2 ≤ t.1) || decide (t.2 ≤ r.1)) && rangesDisjoint rs

/-- The partitions that exist. -/
def Images.parts (v : Images) : List Nat := (List.range 32).filter v.brimValid

/-- The valid tenant partitions. -/
def Images.tenants (v : Images) : List Nat := v.parts.filter fun p => p != 0

/-! ## BRIM (R62, R165) and PORT (R363) -/

/-- A Brim table as R61, R62 and R165 demand. -/
def State.brimCheck (s : State) : Bool :=
  let v := s.img
  let ts := v.tenants
  ((List.range 144).all fun n =>
      !s.portPresent (n / 36) (n % 36) || decide ((v.parts.filter fun p => bitOf (v.brimDown p) n).length ≤ 1))
    && v.brim 0 0 0 1 == 1 && v.parts.all (fun p => within 1 4096 (v.maxRanks p))
    && ((List.range 4).all fun q => decide ((v.parts.foldl (fun n p => n + v.slotQuota p q) 0) ≤ 32768))
    && v.parts.all (fun p => v.mitCount p == 0 || decide (v.mitBase p + v.mitCount p ≤ 1024))
    && rangesDisjoint ((v.parts.filter fun p => v.mitCount p != 0).map fun p => (v.mitBase p, v.mitBase p + v.mitCount p))
    && ((List.range 32).all fun p => v.brimValid p || v.le 0x0E 4 0 (64 * p) 64 == 0)
    && ts.all fun p => (List.range 4).all fun q => decide (64 ≤ v.slotQuota p q)

/-- L of R165 is not 0 for a POD partition. -/
def State.limitCheck (s : State) : Bool := s.img.tenants.all fun p => !s.img.brimPod p || s.img.slotLimit p != 0

/-- One port entry of R363. -/
def portEntryOk (x : Nat) : Bool :=
  decide (bitsOf x 1 2 < 3) && decide (bitsOf x 3 2 < 3) && decide (bitsOf x 1 2 ≤ bitsOf x 3 2)
    && decide (bitsOf x 8 6 ≤ 36) && decide (bitsOf x 16 5 ≤ 16) && decide (bitsOf x 24 5 ≤ 24)
    && (decide (bitsOf x 32 4 ≤ 7) || bitsOf x 32 4 == 15)

def State.portCheck (s : State) : Bool :=
  let v := s.img
  let h := v.le 0x01 0 0 0 4
  ((List.range 4).all fun q => v.le 0x01 q 0 0 64 == v.le 0x01 0 0 0 64)
    && within 100 60000 (bitsOf h 0 16) && decide (bitsOf h 16 3 ≤ 4) && decide (bitsOf h 19 3 ≤ 4)
    && decide (bitsOf h 24 5 ≤ 17)
    && (List.range 4).all fun q => (List.range 40).all fun k => portEntryOk (v.le 0x01 q 0 (64 + 8 * k) 8)

/-! ## SCHED (R326), BUF (R321) and WHEEL (R64, R65, R175, R274) -/

def State.schedCheck (s : State) : Bool :=
  (List.range 4).all fun q =>
    within 464 4095 (s.img.le 0x02 q 0 0 2) && within 224 1023 (s.img.le 0x02 q 0 2 2)
      && (List.range 16).all fun v => (s.img.le 0x02 q 0 (8 + v) 1 == 0) == (decide (12 ≤ v) && decide (v ≤ 14))

def State.bufCheck (s : State) : Bool :=
  (List.range 4).all fun q =>
    ((List.range 6).all fun c =>
      let a : Int := signed 4 (s.img.le 0x03 q 0 c 1)
      decide (-4 ≤ a) && decide (a ≤ 4))
      && (List.range 3).all fun k =>
        let x := s.img.le 0x03 q 0 (16 + 8 * k) 8
        decide (bitsOf x 0 18 < bitsOf x 18 18) && decide (bitsOf x 18 18 ≤ 190542)

/-- One wheel: its number in the order of R64, its SLOT_EXP and its slot bytes. -/
def wheelOk (w exp : Nat) (slots : List Nat) : Bool :=
  let pagers := (slots.filter fun b => bitsOf b 5 2 == 2).length
  within 4 12 exp && slots.all (fun b => bitsOf b 5 2 != 3)
    && (if w = 7 then decide (16 ≤ pagers) && decide (7 ≤ exp) else pagers == 0)
    && (w != 6 || exp == 12)

def State.wheelCheck (s : State) : Bool :=
  (List.range 4).all fun q => (List.range 9).all fun w =>
    let b := (s.img.bytes 0x04 q 0 (264 * w) 264).map (·.toNat)
    wheelOk w (b.getD 1 0 % 16) (b.drop 8)

/-! ## POWER (R487) and SENSE (R445) -/

def State.powerCheck (s : State) : Bool :=
  let n := fun o w => s.img.le 0x0A 4 0 o w
  within 300 2000 (n 0 2 % 4096) && within 300 2000 (n 2 2 % 4096) && within 1 240 (n 4 1) && within 1 900 (n 18 2)
    && within 5 1000 (n 20 2) && within 2 64 (n 22 1) && n 22 1 % 2 == 0

/-- a < b as FP32 numbers; false where one is not a number. -/
def lt32 (a b : Nat) : Bool :=
  match decodeFloat fmtFp32 a, decodeFloat fmtFp32 b with
  | some x, some y => exLt x y
  | _, _ => false

/-- a ≤ b as FP32 numbers. -/
def le32 (a b : Nat) : Bool :=
  match decodeFloat fmtFp32 a, decodeFloat fmtFp32 b with
  | some x, some y => !exLt y x
  | _, _ => false

def State.senseCheck (s : State) : Bool :=
  let n := fun o w => s.img.le 0x0B 4 0 o w
  ((List.range 16).all fun c => n (16 * c + 6) 1 % 2 == 0 || lt32 (n (16 * c + 8) 4) (n (16 * c + 12) 4))
    && ((List.range 8).all fun i => within 1 8 (n (256 + 8 * i) 1))
    && le32 0x40000000 (n 416 4) && n 352 4 == n 416 4
    && le32 0x3C23D70A (n 420 4) && le32 (n 420 4) 0x3E800000
    && within 80 103 (n 424 1) && within (n 424 1) 103 (n 425 1) && within 1 3600 (n 426 2)
    && within 10 10000 (n 432 2) && within 1 240 (n 437 1)

/-! ## HBMMAP (R44, R371, R372) -/

/-- Every valid extent of partition 0's image. -/
def Images.allExtents (v : Images) : List Extent :=
  (List.range 4).flatMap fun q => ((List.range 64).map (v.extent q)).filter fun x => x.valid

/-- R371. -/
def State.extentCheck (s : State) : Bool :=
  let v := s.img
  let xs := v.allExtents
  xs.all (fun x =>
      within 1 22888 x.len && (x.part == 0 || (!x.spare && v.brimValid x.part))
        && x.stackList.all (fun l => s.rd F.HBM_STACK_STATE [x.quad, l] != 3
            && decide (x.base + x.len ≤ s.rd F.HBM_STACK_MAP_MIB [x.quad, l]))
        && (!x.hasSpare ||
            (let y := v.extent x.quad x.spareIdx
             y.valid && y.spare && y.stackList.length * y.len == x.stackList.length * x.len)))
    && ((List.range 24).all fun k => rangesDisjoint
          ((xs.filter fun x => x.quad == k / 6 && bitOf x.stackMask (k % 6)).map fun x => (x.base, x.base + x.len)))
    && ((List.range 32).all fun p => rangesDisjoint
          ((xs.filter fun x => !x.spare && x.part == p).map fun x => (x.paddr, x.paddr + x.stackList.length * x.len)))

/-- The valid region extents of a partition. -/
def Images.regionExts (v : Images) (p : Nat) : List RegionExt :=
  (List.range 4).flatMap fun q => (List.range 64).filterMap fun e => v.regionExt p q e

/-- Entries of one KIND in one image in ascending START. -/
def kindsAscend : List RegionExt → Bool
  | [] => true
  | r :: rs => rs.all (fun t => t.quad != r.quad || t.kind != r.kind || decide (r.start < t.start)) && kindsAscend rs

/-- R372 for one partition. -/
def State.regionCheck (s : State) (p : Nat) : Bool :=
  let v := s.img
  let rs := v.regionExts p
  rs.all (fun r => r.bytes != 0 && (decide (r.kind < 4) || (r.kind == 4 && p == 0))
      && v.allExtents.any fun x => x.quad == r.quad && !x.spare && x.part == p
          && decide (x.paddr * 2 ^ 20 ≤ r.start) && decide (r.start + r.bytes ≤ x.paddr * 2 ^ 20 + x.size))
    && rangesDisjoint (rs.map fun r => (r.start, r.start + r.bytes)) && kindsAscend rs

/-- R44: partition 0's KNIT region has at least 544 MiB. -/
def State.knitRegionCheck (s : State) : Bool := decide (544 * 2 ^ 20 ≤ regionSize (s.img.region 0 4))

/-! ## RANK (R86) and ROUTE (R92) -/

/-- R86 for the bank that the group gives a partition. -/
def State.rankCheck (s : State) (bank p : Nat) : Bool :=
  let v := s.img
  (List.range (v.maxRanks p)).all fun n =>
    match v.rankEntry bank p n with
    | none => true
    | some e =>
      decide (e.x ≤ 4) && decide (e.y ≤ 4)
        && (!(e.x == s.myX && e.y == s.myY) || (decide (e.acc < 144) && v.downOwner e.acc == p))
        && (!e.bvalid ||
            match v.rankEntry bank p e.buddy with
            | none => false
            | some b => b.x == e.x && b.y == e.y && b.acc / 36 != e.acc / 36)

/-- The conditions that R92 puts on a ROUTE image (log entry 40). -/
def State.routeCheck (s : State) (bank p : Nat) : Bool :=
  (List.range 4).all fun q => (List.range 5).all fun y => (List.range 5).all fun x =>
    let e := s.img.routeEntry bank q p x y
    !(x == s.myX && y == s.myY && bitOf e 0) && !(y == s.myY && bitsOf e 3 2 != 0) && !(x == s.myX && bitsOf e 1 2 != 0)

/-! ## COLL (R199, R206, R282) -/

/-- The racks of an entry's members form a product set under a bank. -/
def State.productSet (s : State) (bank p : Nat) (e : CollE) : Bool :=
  let (xs, ys) := s.img.podRacks bank p e
  let rs := (onesOf 4096 (s.img.members p e)).filterMap (s.img.rankEntry bank p)
  xs.all fun x => ys.all fun y => rs.any fun r => r.x == x && r.y == y

/-- The valid POD entries of a partition keep the product set of R206 under each bank that holds an image. -/
def State.podCheck (s : State) (p : Nat) : Bool :=
  (List.range 4096).all fun n =>
    let e := s.img.coll p n
    !(e.valid && e.pod) || [0, 1].all fun b => !s.bankValid p b || s.productSet b p e

/-- One valid collective entry (R199). -/
def State.collEntryOk (s : State) (p : Nat) (e : CollE) : Bool :=
  decide (e.op ≤ 5) && decide (e.ckind ≤ 4) && decide (e.mode ≤ 2) && ((e.ckind == 4) == (e.mode == 2))
    && (e.ckind != 4 || decide (e.op ≤ 1))
    && (!(e.ckind == 2 || e.ckind == 3) || e.op == 5) && (!(e.op == 4 || e.op == 5) || e.outFmt == 7)
    && (e.ckind != 3 || e.nchunk == 1)
    && e.outFmt != 8 && decide (e.outFmt ≤ 9)
    && decide (e.chunkBase + e.nchunk ≤ 2 ^ 24) && e.nchunk != 0 && e.scatter != 0 && within 1 4 e.depth
    && s.img.members p e != 0 && (s.img.group p e.group).valid && (!e.pod || s.img.brimPod p)
    && !(!e.cmd && e.winCmd)

/-- The valid collective entries of a partition. -/
def Images.collList (v : Images) (p : Nat) : List (Nat × CollE) :=
  (List.range 4096).filterMap fun n => (v.collValid p n).map fun e => (n, e)

/-- A courier: a valid rank in this rack. -/
def State.courierAcc (s : State) (p rank : Nat) : Option Nat :=
  (s.img.rankEntry (s.stamp p) p rank).bind fun e => if e.x == s.myX && e.y == s.myY then some e.acc else none

/-- One valid context entry (R282). -/
def State.ctxEntryOk (s : State) (p : Nat) (e : CtxE) : Bool :=
  let v := s.img
  (e.op == 0 || within 2 5 e.op) && decide (e.primary ≤ 17) && (decide (e.mirror ≤ 17) || e.mirror == 31)
    && decide (e.patience ≤ 600000)
    && (e.ty != 3 || decide (4 ≤ e.op)) && (!(e.ty == 1 || e.ty == 2) || decide (e.op ≤ 3))
    && (e.self || e.ni) && !(p == 0 && (e.ni || e.planes))
    && (!e.planes || (e.self && !e.ni &&
        match s.courierAcc p e.courier0, s.courierAcc p e.courier1 with
        | some a, some b => a / 36 != b / 36
        | _, _ => false))
    && (!e.ni || (!e.planes && e.primary != e.mirror && e.resultEn))
    && (!e.pod || (v.brimPod p && bitOf e.xs s.myX && bitOf e.ys s.myY))
    && (!e.resultEn || ((v.group p e.group).valid && (v.group p e.group).rx == p))

/-- R199 and R282 for a COLL group of a partition. -/
def State.collCheck (s : State) (p : Nat) : Bool :=
  let v := s.img
  let es := v.collList p
  es.all (fun x => s.collEntryOk p x.2) && s.podCheck p
    && decide ((es.filter fun x => x.2.watch).length ≤ 8)
    && ((List.range 4).all fun q => decide ((v.parts.foldl (fun n p' =>
          (v.collList p').foldl (fun m x => if (p' + x.1) % 4 = q then m + x.2.depth else m) n) 0) ≤ 16384))
    && (List.range (v.mitCount p)).all fun i => let e := v.ctxEntry p i; !e.valid || s.ctxEntryOk p e

/-! ## OPT (R25, R226, R227, R229, R599) -/

/-- Bytes [off, off + n) of a region lie in it, in extents of one quadrant. -/
def Images.regionInQuad (v : Images) (p kind quad off n : Nat) : Bool :=
  let rs := v.region p kind
  n == 0 || (decide (off + n ≤ regionSize rs) &&
    (rs.foldl (fun (a : Nat × Bool) r =>
      (a.1 + r.bytes, a.2 && (r.quad == quad || decide (off + n ≤ a.1) || decide (a.1 + r.bytes ≤ off)))) (0, true)).2)

/-- The records that R228 gives this module. -/
def State.shardRecords (s : State) (p : Nat) (h : ShardE) : Nat :=
  let e := s.img.coll p h.coll
  if !h.partitioned then e.nchunk
  else
    let (xs, ys) := s.img.podRacks (s.stamp p) p e
    let m := xs.length * ys.length
    if xs.contains s.myX && ys.contains s.myY then
      let t := ys.idxOf s.myY * xs.length + xs.idxOf s.myX
      if t < e.nchunk then (e.nchunk - t + m - 1) / m else 0
    else 0

/-- The valid shards of a partition. -/
def Images.shardList (v : Images) (p : Nat) : List (Nat × ShardE) :=
  (List.range 4096).filterMap fun k => (v.shardValid p k).map fun h => (k, h)

/-- STARTs in ascending order. -/
def startsAscend : List Seg → Bool
  | [] => true
  | g :: gs => gs.all (fun t => decide (g.start < t.start)) && startsAscend gs

/-- The records, staging and factor areas of a shard lie on the stacks of its quadrant (R25, R226, R229). -/
def State.shardPlaced (s : State) (p : Nat) (h : ShardE) : Bool :=
  let v := s.img
  v.regionInQuad p 0 h.quad h.stateAddr (h.lchunk * recBytes h)
    && (!h.stage || v.regionInQuad p 0 h.quad h.stageAddr (2048 * h.lchunk))
    && (v.segs p h).all fun g =>
        let gr := v.grp p g.group
        gr.recipe != 5 || (let f := v.fact p h g gr
          v.regionInQuad p 0 h.quad g.fact (f.cf + 4 * gr.cols - g.fact))

/-- One valid shard entry. -/
def State.shardOk (s : State) (p k : Nat) (h : ShardE) : Bool :=
  let v := s.img
  let e := v.coll p h.coll
  let segs := v.segs p h
  let exact := !v.optLagged p
  ((v.collList p).filter fun x => x.2.ckind == 4 && x.2.shard == k).map (·.1) == [h.coll]
    && e.outFmt == 0 && h.lchunk == s.shardRecords p h
    && decide (2048 ≤ h.group) && h.segCount != 0 && h.stateAddr % 4096 == 0 && h.stageAddr % 4096 == 0
    && (h.stage || h.stageAddr == 0) && (segs.headD ⟨1, 0, 0⟩).start == 0 && startsAscend segs
    && s.shardPlaced p h
    && (h.stage || (!exact && segs.all fun g => let r := (v.grp p g.group).recipe; r != 5 && r != 6))
    && segs.all (fun g =>
        let gr := v.grp p g.group
        decide (gr.recipe ≤ 6) && (!(gr.recipe == 3 || gr.recipe == 5) || !h.partitioned)
          && (gr.recipe != 5 || (gr.cols != 0 && g.fact % 64 == 0)))

/-- The last two conditions of R229, also demanded by R599. -/
def State.optCtxCheck (s : State) (p : Nat) : Bool :=
  let v := s.img
  let loss := bitsOf (v.le 0x09 4 p 0x6001A 2) 0 10
  (v.shardList p).isEmpty ||
    (within 1 4096 (v.rupCount p)
      && (match v.ctx (v.normCtx p) with
          | some (o, e) => o == p && e.self && e.op == 0 && e.ty == 0 && s.ctxActive e
          | none => false)
      && (loss == 0x3FF ||
          match v.ctx loss with
          | some (o, _) => o == p
          | none => false))

/-- R229. -/
def State.optCheck (s : State) (p : Nat) : Bool :=
  let v := s.img
  let hs := v.shardList p
  let ada := (hs.flatMap fun x => v.segs p x.2).filter fun g => (v.grp p g.group).recipe == 5
  hs.all (fun x => s.shardOk p x.1 x.2)
    && ada.all (fun g => (ada.filter fun t => t.group == g.group).length == 1)
    && (hs.isEmpty || !v.optLagged p || bitsOf (v.le 0x09 4 p 0x60008 1) 2 2 == 0)
    && s.optCtxCheck p

/-! ## OBS (R547) -/

def State.obsCheck (s : State) (p : Nat) : Bool :=
  let v := s.img
  ((List.range 4).all fun q => v.le 0x0D q p 0 8 == v.le 0x0D 0 p 0 8)
    && (p == 0 || (List.range 4).all fun q => (List.range 40).all fun b =>
        !bitOf (v.le 0x0D q p 8 14) b || (decide (b < 36) && v.downOwner (36 * q + b) == p))

/-! ## The whole check -/

/-- Step 2 of R47 on the state that the group would produce.  wrote: the regions that the group writes; p: the
partition whose images it writes; bank: the bank that a RANK or ROUTE group fills; seck: the SECK entry it writes. -/
def State.groupCheck (s : State) (wrote : Nat → Bool) (p bank : Nat) (seck : List Byte) : Bool :=
  let border := wrote 0x0E || wrote 0x01 || wrote 0x04 || (wrote 0x05 && p == 0)
  (!(wrote 0x0E || wrote 0x01) || s.brimCheck) && (!wrote 0x01 || s.portCheck) && (!wrote 0x02 || s.schedCheck)
    && (!wrote 0x03 || s.bufCheck) && (!wrote 0x04 || s.wheelCheck) && (!wrote 0x0A || s.powerCheck)
    && (!wrote 0x0B || s.senseCheck)
    && (!(wrote 0x0E || (wrote 0x05 && p == 0)) || (s.extentCheck && s.img.parts.all s.regionCheck))
    && (!(wrote 0x05 && p == 0) || s.knitRegionCheck) && (!(wrote 0x05 && p != 0) || s.regionCheck p)
    && (!wrote 0x05 || (s.img.shardList p).all fun x => s.shardPlaced p x.2)
    && (!(border || wrote 0x05) || s.limitCheck)
    && (!wrote 0x06 || (s.rankCheck bank p && s.podCheck p)) && (!wrote 0x07 || s.routeCheck bank p)
    && (!wrote 0x08 || (s.collCheck p && s.optCtxCheck p)) && (!wrote 0x09 || s.optCheck p)
    && (!border || s.img.tenants.all s.optCtxCheck)
    && (!wrote 0x0C || s.seckOk p seck) && (!wrote 0x0D || s.obsCheck p)

end Sys2Proof.Machine
end

