-- ==== Sys2Proof/Machine/Fec.lean ====
section
/-! DEFINITION. What stands on the lanes of a link: the flits of a packet (R72), the Reed–Solomon code (R343), lanes, PAM4 levels and scrambling
(R344). -/

namespace Sys2Proof.Machine

/-! ## Flits (R72, R76) -/

/-- The bytes of a packet: header, payload, pad, trailer. -/
def packetBytes (k : Packet) : List Byte :=
  leBytes 32 k.hdr.toNat ++ bytesAt k.payload 0 (64 * pkPayUnits k) ++ List.replicate 24 0 ++ leBytes 4 k.e2e.toNat
    ++ leBytes 4 (b2n k.stomp)

/-- The flits of a packet, byte 0 of each in bits [7:0]. -/
def flitsOf (k : Packet) : List (BitVec 512) :=
  (chunksOf 64 (pkPayUnits k + 1) (packetBytes k)).map fun l => BitVec.ofNat 512 (ofLE l)

/-! ## The field GF(2^10) (R343): polynomials in α below α^10, with α^10 = α^3 + 1 -/

/-- The product by α. -/
def gfStep (a : Nat) : Nat := if 2 * a < 1024 then 2 * a else (2 * a) ^^^ 0x409

/-- The sum of a · α^i over the one bits i of b (fuel: the bits of b). -/
def gfMulBits : Nat → Nat → Nat → Nat
  | 0, _, _ => 0
  | n + 1, a, b => (if b % 2 = 1 then a else 0) ^^^ gfMulBits n (gfStep a) (b / 2)

def gfMul (a b : Nat) : Nat := gfMulBits 10 a b

/-- a^n by repeated squaring (fuel: the bits of n). -/
def gfPowBits : Nat → Nat → Nat → Nat
  | 0, _, _ => 1
  | k + 1, a, n => gfMul (if n % 2 = 1 then a else 1) (gfPowBits k (gfMul a a) (n / 2))

def gfPow (a n : Nat) : Nat := gfPowBits 10 a n

/-- α^n. -/
def gfAlpha (n : Nat) : Nat := gfPow 2 (n % 1023)

/-- The inverse of a nonzero element: a^1022. -/
def gfInv (a : Nat) : Nat := gfPow a 1022

/-! ## Polynomials, lowest coefficient first -/

/-- The value of a polynomial. -/
def gfEval (p : List Nat) (x : Nat) : Nat := p.foldr (fun c v => c ^^^ gfMul x v) 0

def gfAdd : List Nat → List Nat → List Nat
  | [], b => b
  | a, [] => a
  | x :: a, y :: b => (x ^^^ y) :: gfAdd a b

def gfScale (c : Nat) (p : List Nat) : List Nat := p.map (gfMul c)

def gfPolyMul : List Nat → List Nat → List Nat
  | [], _ => []
  | x :: a, b => gfAdd (gfScale x b) (0 :: gfPolyMul a b)

/-- The generator: the product of (x − α^i) for i = 0 to 15. -/
def rsGen : List Nat := (List.range 16).foldl (fun p i => gfPolyMul p [gfAlpha i, 1]) [1]

/-! ## The code RS(272,256) (R343) -/

/-- The parity register after one message symbol: highest coefficient first. -/
def rsStep (r : List Nat) (m : Nat) : List Nat :=
  let f := m ^^^ r.headD 0
  gfAdd (r.tail ++ [0]) (gfScale f (rsGen.reverse.tail))

/-- The 16 parity symbols of 256 message symbols, symbol 256 first.  DESIGN CHOICE (log entry 72): symbol 0 is the coefficient of x^271. -/
def rsParity (ms : List Nat) : List Nat := ms.foldl rsStep (List.replicate 16 0)

/-- The syndromes of a received word: its values at α^0 to α^15. -/
def rsSyndromes (w : List Nat) : List Nat := (List.range 16).map fun j => gfEval w.reverse (gfAlpha j)

/-- A step of the Berlekamp–Massey algorithm. -/
structure Bm where
  c : List Nat
  b : List Nat
  l : Nat
  m : Nat
  d : Nat
  deriving DecidableEq, Repr

def bmStep (syn : List Nat) (x : Bm) (n : Nat) : Bm :=
  let d := (List.range (x.l + 1)).foldl (fun v i => v ^^^ gfMul (x.c.getD i 0) (syn.getD (n - i) 0)) 0
  if d = 0 then { x with m := x.m + 1 }
  else
    let t := gfAdd x.c (List.replicate x.m 0 ++ gfScale (gfMul d (gfInv x.d)) x.b)
    if 2 * x.l ≤ n then ⟨t, x.c, n + 1 - x.l, 1, d⟩ else { x with c := t, m := x.m + 1 }

/-- The error locator and the number of errors that it stands for. -/
def rsLocator (syn : List Nat) : Bm := (List.range 16).foldl (bmStep syn) ⟨[1], [1], 0, 1, 1⟩

/-- The errors of a received word: (symbol, value) pairs; none when no codeword lies within 8 symbols of it. -/
def rsErrors (w : List Nat) : Option (List (Nat × Nat)) :=
  let syn := rsSyndromes w
  if syn.all fun s => s == 0 then some []
  else
    let x := rsLocator syn
    let om := (gfPolyMul syn x.c).take 16
    let der := x.c.zipIdx.map fun ci => if ci.2 % 2 = 1 then ci.1 else 0
    let at0 := (List.range 272).filter fun k => gfEval x.c (gfAlpha (1023 - (271 - k))) == 0
    if 8 < x.l || at0.length != x.l then none
    else
      let es := at0.map fun k =>
        let y := gfAlpha (1023 - (271 - k))
        (k, gfMul (gfMul (gfAlpha (271 - k)) (gfEval om y)) (gfInv (gfEval der.tail y)))
      some es

/-- A received word corrected, and the symbols that were wrong; none for an uncorrectable one. -/
def rsDecode (w : List Nat) : Option (List Nat × List Nat) :=
  (rsErrors w).map fun es => (es.foldl (fun l e => l.modify e.1 fun x => x ^^^ e.2) w, es.map Prod.fst)

/-- The 256 message symbols of five flits, bits in flit order from bit 0 of byte 0 on. -/
def flitSymbols (fs : List (BitVec 512)) : List Nat :=
  let m := fs.foldr (fun f n => f.toNat + 2 ^ 512 * n) 0
  (List.range 256).map fun k => bitsOf m (10 * k) 10

/-- The five flits of 256 message symbols. -/
def symbolFlits (ms : List Nat) : List (BitVec 512) :=
  let m := ms.foldr (fun x n => x % 1024 + 1024 * n) 0
  (List.range 5).map fun i => BitVec.ofNat 512 (m / 2 ^ (512 * i))

/-! ## Lanes (R344) -/

/-- The next state of a lane's scrambler, whose lowest bit is the bit of the sequence of x^31 + x^28 + 1. -/
def scrNext (x : Nat) : Nat := (2 * x + (x / 2 ^ 30 + x / 2 ^ 27) % 2) % 2 ^ 31

/-- The state after n steps. -/
def scrRun : Nat → Nat → Nat
  | 0, x => x
  | n + 1, x => scrRun n (scrNext x)

/-- Ten bits of the sequence from a state on, as a symbol. -/
def scrSymbol (x : Nat) : Nat :=
  ((List.range 10).foldl (fun a i => let y := scrNext a.1; (y, a.2 + y % 2 * 2 ^ i)) (x, 0)).2

/-- The scrambling of a lane's n symbols from a state on, ten bits each. -/
def scrSymbols : Nat → Nat → List Nat
  | 0, _ => []
  | n + 1, x => scrSymbol x :: scrSymbols n (scrRun 10 x)

/-- What is added to each symbol of codeword c of a frame on a list of lanes in use: each lane's sequence, restarted at the frame with 0x7FFFFFFF XOR the lane
number; the 64 sync bits of the LCF are sent as they are.  DESIGN CHOICE (log entry 72): the sequence runs on under the sync bits. -/
def scrWord (lanes : List Nat) (c : Nat) : List Nat :=
  let w := lanes.length
  let n := 272 / w
  let ls := lanes.map fun j => scrSymbols n (scrRun (10 * n * c) (0x7FFFFFFF ^^^ j))
  (List.range 272).map fun k =>
    let x := (ls.getD (k % w) []).getD (k / w) 0
    if c = 0 && k < 6 then 0 else if c = 0 && k = 6 then x / 16 * 16 else x

/-- The PAM4 level of a pair of bits, and the pair of a level: 00 is level 0, 01 level 1, 11 level 2, 10 level 3. -/
def gray (p : Nat) : Nat := p ^^^ (p / 2)

/-- The five levels of a symbol, least significant pair first, two bits each. -/
def symbolLevels (x : Nat) : Nat := (List.range 5).foldl (fun n i => n + gray (bitsOf x (2 * i) 2) * 2 ^ (2 * i)) 0

/-- The levels of a symbol as a receiver takes them where its lane's polarity is inverted. -/
def invertLevels (x : Nat) : Nat := 1023 - x % 1024

/-- What port lane j carries for codeword c of a frame of five flits, ten bits a symbol; nothing on a lane that is not in use. -/
def txLane (lanes : List Nat) (c : Nat) (fs : List (BitVec 512)) (j : Nat) : Nat :=
  let ms := flitSymbols fs
  let w := (ms ++ rsParity ms).zip (scrWord lanes c)
  let mine := w.zipIdx.filter fun x => lanes[x.2 % lanes.length]? == some j
  (mine.map fun x => symbolLevels (x.1.1 ^^^ x.1.2)).foldr (fun x n => x + 1024 * n) 0

/-- The symbols that a receiver finds in the levels of codeword c of a frame on the four port lanes: symbol k came on the (k mod w)-th of the w lanes in
use; inv: the lanes whose polarity is inverted. -/
def rxWord (lanes : List Nat) (inv : Nat → Bool) (c : Nat) (levels : List Nat) : List Nat :=
  let w := lanes.length
  ((List.range 272).zip (scrWord lanes c)).map fun p =>
    let j := lanes.getD (p.1 % w) 0
    let x := bitsOf (levels.getD j 0) (10 * (p.1 / w)) 10
    symbolLevels (if inv j then invertLevels x else x) ^^^ p.2

end Sys2Proof.Machine
end

