-- ==== Sys2Proof/Machine/SlotCmd.lean ====
section
/-! DEFINITION. The commands of the reduction slots, the slot directory and the pager
(R161 to R185 of spec/05_reduction_slots.md, R210 and R252 for parts of another rack). -/

namespace Sys2Proof.Machine

/-! ## A packet at a reduction service -/

/-- The service takes a packet, checks it end to end (R78, R108), and handles it unless it is discarded. -/
def State.atService (s : State) (q port : Nat) (k : Packet) (f : State → State) : State :=
  let s := s.takeSvc q port k
  match serviceCause k with
  | some c => (s.e2eRecord q k c).discard q port k c
  | none => f s

/-- A packet forwarded unchanged to the same service of another quadrant of the module over the switched channel of
the seam (R161). -/
def State.forwardTo (s : State) (q q' port : Nat) (k : Packet) : State :=
  s.stage q port k 2 0 s.timeNs (pkPart k) (s.readyNow q k) [⟨q', port, pkVc k, 0, 0⟩]

/-- A contribution of a non-member: counted under NONMEMBER and answered with CNACK BOUNDS (R163). -/
def State.nonMember (s : State) (q : Nat) (k : Packet) : State := (s.sltEvent q (pkPart k) 4).nack q k 5

/-- A packet counted as wasted without a lookup (R163). -/
def State.wastedPacket (s : State) (q p n : Nat) : State := (List.range n).foldl (fun t _ => t.sltEvent q p 2) s

/-- The instance record of a key made if it is not held (R201). -/
def State.instEnsure (s : State) (p coll : Nat) (e : CollE) (i : Inst) : State :=
  match s.instGet p coll e i.step with
  | some _ => s
  | none => s.instPut p coll e i

/-! ## CONTRIB (R162 to R168) -/

/-- The cause for which a creation in quadrant q is deferred (R167), other than ADMIT. -/
def State.holdCause (s : State) (q p : Nat) (e : CollE) (i : Inst) : Option Nat :=
  if e.cmd && e.winCmd && !i.armed then some 4
  else if s.rdb V.KNIT_QUIET [p] || s.rdb V.P2_DEFER [] then some 2
  else if s.rdb V.BORDER_LOWERED [p, q] && decide (s.rd V.BORDER_QUOTA [p, q] ≤ s.residentCount q p) then some 3
  else none

/-- True when the crown quadrant q has room for one more admitted chunk (R165, R166). -/
def State.admits (s : State) (q p : Nat) : Bool := decide (s.admittedCount q p < s.img.slotLimit p)

/-! ## Messages of the reduction channel and the operation of the pager -/

/-- A message put on the reduction channel. -/
def State.admSay (s : State) (m : AdmMsg) : State := { s with admMsgs := s.admMsgs ++ [m] }

/-- A message taken off the reduction channel. -/
def State.admTake (s : State) (m : AdmMsg) : State := { s with admMsgs := s.admMsgs.erase m }

/-- The pager of a quadrant is busy with an operation, or idle again. -/
def State.pagerMark (s : State) (q : Nat) (o : PagerOp) : State := { s with pagerOp := SMap.set [q] o s.pagerOp }
def State.pagerClear (s : State) (q : Nat) : State := { s with pagerOp := SMap.erase [q] s.pagerOp }

/-- A slot is unlocked. -/
def State.slotUnlock (s : State) (k : Key) : State :=
  match s.slotGet k with
  | some x => s.slotPut k { x with locked := false }
  | none => s

/-- A slot of a non-crown quadrant whose admission the crown has been asked for: the pending directory entry of R166. -/
def State.askCrown (s : State) (q p coll step chunk : Nat) (e : CollE) (i : Inst) : State :=
  let x : Slot :=
    { members := 0, st := .opened, ovf := false, inv := false, unarmed := !i.armed, crown := false, podnew := false,
      locked := false, range := 0, w := i.w, engine := s.boundEngine q coll chunk, wasted := 0, lastRank := 0,
      tFirst := 0, tLast := 0, touch := 0, res := .pending, side := 0, peerParts := 0, resultParts := 0, sent := false,
      resendIv := 0, podSent := 0, born := s.rd V.SLOT_SEQ [q], dset := s.placeSet (slotKey q p coll step chunk) }
  let _ := e
  let s := (s.slotPut (slotKey q p coll step chunk) x).wr V.SLOT_SEQ [q] (s.rd V.SLOT_SEQ [q] + 1)
  s.admSay ⟨false, false, q, p, coll, step, chunk⟩

/-- One chunk of a member contribution: joined, created, left waiting, or deferred for the cause answered. -/
def State.contribChunk (s : State) (q acc : Nat) (k : Packet) (e : CollE) (i : Inst) (c : Nat) : State × Option Nat :=
  let p := pkPart k
  let coll := pkColl k
  let step := pkStep k
  let wait := fun (t : State) => t.waitAdd q p ⟨coll, step, c, .contrib k c⟩
  let join := fun (t : State) =>
    match t.slotGet (slotKey q p coll step c) with
    | some x => if slotReady x then t.admitChunk q k c e i acc else wait t
    | none => t
  match s.slotLook (slotKey q p coll step c) with
  | some _ => (join (s.instEnsure p coll e i), none)
  | none =>
    if i.st = .ready then (s.sltEvent q p 2, none) else
    match s.holdCause q p e i with
    | some d => (s, some d)
    | none =>
      if q = crownQuad p coll c then
        if s.admits q p then (join ((s.instEnsure p coll e i).slotCreate q p coll step c e i true false), none)
        else (s, some 1)
      else (wait ((s.instEnsure p coll e i).askCrown q p coll step c e i), none)

/-- A deferral answered: CNACK DEFER for the whole packet, its cause in LAST_DEFER (R162, R167). -/
def State.deferred (s : State) (q : Nat) (k : Packet) (cause : Nat) : State :=
  ((s.wr F.SLT_PART_USE_LAST_DEFER [q, pkPart k] cause).sltEvent q (pkPart k) 3).nack q k 2

/-- Every chunk of an admissible contribution in ascending order, and one CNACK DEFER if any was deferred (R162). -/
def State.contribChunks (s : State) (q acc : Nat) (k : Packet) (e : CollE) (i : Inst) : State :=
  let r := (List.range (pkNchunk k)).foldl (fun (t : State × Option Nat) j =>
    let u := t.1.contribChunk q acc k e i (pkChunk k + j)
    (u.1, match u.2 with | some d => some d | none => t.2)) (s, none)
  match r.2 with
  | some d => (r.1.deferred q k d).settle (pkPart k)
  | none => r.1.settle (pkPart k)

/-- True when the rank of a contribution maps to the same accelerator in the instance's bank (R203). -/
def State.sameAcc (s : State) (k : Packet) (acc bank : Nat) : Bool :=
  pkEpoch k == bank
    || match s.img.rankEntry bank (pkPart k) (dstRank (pkSrc k)) with
       | some r => r.acc == acc
       | none => false

/-- A contribution of a member to a valid entry, by what the instance record holds (R163, R201, R203, R222). -/
def State.contribInst (s : State) (q acc : Nat) (k : Packet) (e : CollE) : State :=
  let p := pkPart k
  let coll := pkColl k
  let step := pkStep k
  if s.rdb F.SEQ_STEP_REPLAY [p] && s.rd V.REPLAY_STEP [p] == step then s.nack q k 7
  else match s.recUse p coll e step with
    | .busy => s.nack q k 7
    | .completed => s.wastedPacket q p (pkNchunk k)
    | .use i =>
      if i.st = .complete || i.st = .aborted then s.wastedPacket q p (pkNchunk k)
      else if !s.sameAcc k acc i.bank then s.nack q k 6
      else s.contribChunks q acc k e i
    | .fresh =>
      let i := s.instNew p e step (!e.cmd && s.stepArmed p step) e.w 0
      if !s.sameAcc k acc i.bank then s.nack q k 6 else s.contribChunks q acc k e i

/-- Every chunk of a contribution is one that the rank contributes (R205). -/
def State.contribMember (s : State) (k : Packet) (e : CollE) : Bool :=
  (List.range (pkNchunk k)).all fun j => s.img.contributes (pkPart k) e (dstRank (pkSrc k)) (pkChunk k + j)

/-- CONTRIB: a member contribution at the reduction service of quadrant q. -/
def State.contrib (s : State) (q : Nat) (k : Packet) : State :=
  s.atService q 43 k fun s =>
    let p := pkPart k
    if !contribFormatOk (pkFormat k) (pkNchunk k) (pkPayUnits k) (pkNarrow k) then s.countDiscard q 43 p .format
    else match s.img.rankEntry (pkEpoch k) p (dstRank (pkSrc k)), s.img.collValid p (pkColl k) with
      | some r, some e =>
        if r.acc / 36 ≠ q then s.forwardTo q (r.acc / 36) 43 k
        else if s.contribMember k e then s.contribInst q r.acc k e
        else s.nonMember q k
      | _, _ => s.nonMember q k

/-! ## Admission messages (R166) -/

/-- ADMISSION_REQUEST: the crown grants a chunk that it has admitted or has room for, and replies.  Over a seam declared down no message arrives (R19;
DESIGN CHOICE, log entry 70). -/
def State.admissionRequest (s : State) (q p coll step chunk : Nat) : State :=
  let m : AdmMsg := ⟨false, false, q, p, coll, step, chunk⟩
  if !s.admMsgs.contains m || !s.seamOk q (crownQuad p coll chunk) then s
  else
    let s := s.admTake m
    let reply := fun (t : State) (g : Bool) => t.admSay ⟨true, g, q, p, coll, step, chunk⟩
    let c := crownQuad p coll chunk
    match s.slotLook (slotKey c p coll step chunk) with
    | some _ => reply s true
    | none =>
      match s.img.collValid p coll with
      | none => reply s false
      | some e =>
        match s.instGet p coll e step with
        | none => reply s false
        | some i =>
          if i.st = .complete || i.st = .aborted || (s.holdCause c p e i).isSome || !s.admits c p then reply s false
          else reply (s.slotCreate c p coll step chunk e i true false) true

/-- The contributions that wait in quadrant q for a key. -/
def State.waitersOf (s : State) (q p coll step chunk : Nat) : List Packet :=
  ((SMap.get s.waits [q, p] []).filterMap fun w =>
    match w.what with
    | .contrib k _ => if w.coll = coll ∧ w.step = step ∧ w.chunk = chunk then some k else none
    | _ => none).eraseDups

/-- The wait list of quadrant q without the items of a key. -/
def State.waitDrop (s : State) (q p coll step chunk : Nat) : State :=
  let keep := (SMap.get s.waits [q, p] []).filter fun w => !(w.coll == coll && w.step == step && w.chunk == chunk)
  { s with waits := if keep.isEmpty then SMap.erase [q, p] s.waits else SMap.set [q, p] keep s.waits }

/-- ADMISSION_REPLY: the tier-0 slot is created in the pending entry and the waiting contributions are admitted, or the
entry is freed and each waiting packet is answered with CNACK DEFER, cause ADMIT. -/
def State.admissionReply (s : State) (q p coll step chunk : Nat) (granted : Bool) : State :=
  let m : AdmMsg := ⟨true, granted, q, p, coll, step, chunk⟩
  if !s.admMsgs.contains m || !s.seamOk q (crownQuad p coll chunk) then s
  else
    let s := s.admTake m
    let key := slotKey q p coll step chunk
    match s.slotGet key, s.img.collValid p coll with
    | some x, some e =>
      if x.res ≠ .pending then s
      else if granted then
        match s.instGet p coll e step with
        | some i => (s.slotCreate q p coll step chunk e i false false).settle p
        | none => s.slotDrop key
      else
        let ks := s.waitersOf q p coll step chunk
        ks.foldl (fun t k => t.deferred q k 1) ((s.slotDrop key).waitDrop q p coll step chunk)
    | _, _ => s

/-! ## Readout and partials (R172) -/

/-- Cycles of the unit of work that a slot in CLOSING needs (R171): the readout of a partial, in the form its RANGE allows, the conversion of a chunk, or, at
the rack that forms the result of a pod, both. -/
def State.readoutCycles (s : State) (q p coll chunk : Nat) (e : CollE) (bank range : Nat) : Nat :=
  let rd := if range ≤ 64 then 8 else 16
  if q ≠ crownQuad p coll chunk then rd
  else match s.podRole bank p e chunk with
    | .single => 4
    | .sendTo _ _ _ => rd
    | .form _ _ => if e.ckind = 4 && s.img.shardPartitioned p e.shard then 4 else rd + 4

/-- True while a crown slot of a HOLD instance keeps its sum (R204, R214). -/
def State.heldSum (s : State) (p coll step chunk : Nat) (e : CollE) : Bool :=
  e.mode == 1 && (match s.instGet p coll e step with
    | some i => !i.released && !(i.fwd && podSends (s.podRole i.bank p e chunk))
    | none => true)

/-- The readout or conversion of a slot in CLOSING has been made: RANGE is written; a non-crown slot's partial goes to the reduction channel, a crown slot
goes on as its instance says. -/
def State.readoutDone (s : State) (q p coll step chunk : Nat) (e : CollE) (x : Slot) (range : Nat) : State :=
  let crown := q == crownQuad p coll chunk
  let s := s.slotPut (slotKey q p coll step chunk) { x with range := range, touch := s.touchNow q, sent := !crown }
  if crown then (s.crownProceed p coll step chunk e).localFinal p else s

/-- The cycles of the readout or conversion that a slot in CLOSING waits for, once its engine has made its accumulations; none for the crown slot of a HOLD
instance, whose sum stays (R171, R185, R204). -/
def State.readoutUnit (s : State) (k : Key) (x : Slot) : Option Nat :=
  let q := k.getD 0 0
  let p := k.getD 1 0
  let coll := k.getD 2 0
  let step := k.getD 3 0
  let chunk := k.getD 4 0
  match x.st, x.res, s.img.collValid p coll with
  | .closing, .frame f, some e =>
    let bank := ((s.instGet p coll e step).map (·.bank)).getD (s.stamp p)
    if x.sent || s.slotLocked q p x || s.engineOut q x || s.rdb V.ENGINE_FAULT [q, 6]
        || (q == crownQuad p coll chunk && s.heldSum p coll step chunk e) then none
    else some (s.readoutCycles q p coll chunk e bank (rangeWord (s.ledger q f)))
  | _, _, _ => none

/-- SLOT_READOUT_COMPLETE: once the slot's engine has made its accumulations and may start the unit of work that the readout takes (R171).  The crown slot of a
HOLD instance takes none: its sum is counted. -/
def State.slotReadoutComplete (s : State) (q p coll step chunk : Nat) : State :=
  let k := slotKey q p coll step chunk
  match s.slotGet k, s.img.collValid p coll with
  | some x, some e =>
    match x.st, x.res with
    | .closing, .frame f =>
      if x.sent || s.slotLocked q p x || s.engineOut q x || s.rdb V.ENGINE_FAULT [q, 6] then s
      else match s.readoutUnit k x with
        | some n => s.unit q x.engine p n fun t => (t.slabBeats q f 6 p 1).readoutDone q p coll step chunk e x (rangeWord (s.ledger q f))
        | none => (s.holdSum p coll step chunk e).localFinal p
    | _, _ => s
  | _, _ => s

/-- The tier-0 partial of a quadrant waits at the crown for its slot. -/
def State.tier0Waits (s : State) (q p coll step chunk : Nat) : Bool :=
  (SMap.get s.waits [crownQuad p coll chunk, p] []).any fun w =>
    w.coll == coll && w.step == step && w.chunk == chunk && (match w.what with | .tier0 r _ _ _ => r == q | _ => false)

/-- TIER0_PARTIAL: the partial of quadrant q reaches the crown; the crown slot is joined, or created for it (R168).  Over a seam declared down it does not
arrive (R19; DESIGN CHOICE, log entry 70). -/
def State.tier0Partial (s : State) (q p coll step chunk : Nat) : State :=
  let c := crownQuad p coll chunk
  match s.slotGet (slotKey q p coll step chunk), s.img.collValid p coll with
  | some y, some e =>
    match y.res with
    | .frame g =>
      if q = c || y.st ≠ .closing || !y.sent || !s.seamOk q c || s.tier0Waits q p coll step chunk then s
      else
        let ls := s.ledger q g
        let wait := fun (t : State) => (t.waitAdd c p ⟨coll, step, chunk, .tier0 q ls y.ovf y.inv⟩).settle p
        match s.slotLook (slotKey c p coll step chunk), s.instGet p coll e step with
        | some x, some i => if slotReady x then s.addTier0 q p coll step chunk ls ⟨y.ovf, y.inv⟩ e i else wait s
        | none, some i =>
          if i.st = .complete || i.st = .aborted then s.sltEvent c p 2 else wait (s.slotCreate c p coll step chunk e i true false)
        | none, none => s.sltEvent c p 2
        | some _, none => s
    | _ => s
  | _, _ => s

/-- PARTIAL_DELIVERED: the seam reports the partial of quadrant q delivered, and its slot is freed. -/
def State.partialDelivered (s : State) (q p coll step chunk : Nat) : State :=
  match s.slotGet (slotKey q p coll step chunk) with
  | some y =>
    let taken := s.tier0Waits q p coll step chunk || (match s.slotGet (slotKey (crownQuad p coll chunk) p coll step chunk) with
      | some x => bitOf x.members (160 + q)
      | none => true)
    if q ≠ crownQuad p coll chunk && y.st = .closing && y.sent && taken then
      (s.slotDrop (slotKey q p coll step chunk)).settle p
    else s
  | none => s

/-! ## Packets of other racks (R161, R168, R172, R210, R598, R252) -/

/-- The PARTIAL contributor bit of a sending rack (R157). -/
def State.peerBit (s : State) (k : Packet) : Option Nat :=
  let x := dstX (pkSrc k)
  let y := dstY (pkSrc k)
  if y = s.myY && x ≠ s.myX then some (176 + peerIndex s.myX x)
  else if x = s.myX && y ≠ s.myY then some (180 + peerIndex s.myY y)
  else none

/-- The published chunk of a PARTITIONED shard sent again to a rack that repeats its PARTIAL (R210, R252). -/
def State.republishRack (s : State) (k : Packet) (e : CollE) : State :=
  let p := pkPart k
  let j := pkChunk k - e.chunkBase
  match s.img.shardValid p e.shard, s.updGet p e.shard j with
  | some h, some u =>
    match s.highHalves p j h with
    | some hi =>
      if u.finished && h.partitioned && s.updStep p = pkStep k then
        s.publishToRacks h.quad 44 p (pkColl k) (pkStep k) (pkChunk k) e 1 (flgBits ⟨u.ovf, u.inv⟩) hi [(dstX (pkSrc k), dstY (pkSrc k))]
      else s
    | none => s
  | _, _ => s

/-- A PARTIAL for a live instance at the crown c: added, left waiting, answered with the RESULT again, or creating a
slot. -/
def State.partialSlot (s : State) (c : Nat) (k : Packet) (e : CollE) (i : Inst) (bit : Nat) : State :=
  let p := pkPart k
  let coll := pkColl k
  let step := pkStep k
  let chunk := pkChunk k
  let item : WaitItem := ⟨coll, step, chunk, .packet k⟩
  match s.slotLook (slotKey c p coll step chunk) with
  | some x => if slotReady x then s.partialInto k e i bit else (s.waitAdd c p item).settle p
  | none =>
    if i.st = .ready then (s.wastedPacket c p 1).republishRack k e
    else if e.cmd && e.winCmd && !i.armed then s.deferred c k 4
    else ((s.instEnsure p coll e i).slotCreate c p coll step chunk e i true true |>.waitAdd c p item).settle p

/-- PARTIAL_RECEIVE: a PARTIAL part from another rack. -/
def State.partialReceive (s : State) (q : Nat) (k : Packet) : State :=
  s.atService q 43 k fun s =>
    let p := pkPart k
    let c := crownQuad p (pkColl k) (pkChunk k)
    if c ≠ q then s.forwardTo q c 43 k
    else if pkFormat k ≠ 8 then s.countDiscard q 43 p .format
    else match s.img.collValid p (pkColl k), s.peerBit k with
      | some e, some bit =>
        if !e.pod || pkChunk k < e.chunkBase || e.chunkBase + e.nchunk ≤ pkChunk k then s.nonMember q k
        else
          let go := fun (i : Inst) =>
            if bitOf (s.expected c p (pkColl k) (pkChunk k) e i.bank) bit then s.partialSlot c k e i bit
            else s.nonMember q k
          match s.recUse p (pkColl k) e (pkStep k) with
          | .busy => s.nack q k 7
          | .completed => s.wastedPacket c p 1
          | .use i => if i.st = .complete || i.st = .aborted then s.wastedPacket c p 1 else go i
          | .fresh => go (s.instNew p e (pkStep k) (!e.cmd && s.stepArmed p (pkStep k)) e.w 0)
      | _, _ => s.nonMember q k

/-- Chunk j of a packet of several chunks, as a packet of one (R125, R597). -/
def chunkPiece (k : Packet) (j : Nat) : Packet :=
  let n := chunkBytes (pkFormat k)
  { pkSet (pkSet k 176 24 (pkChunk k + j)) 200 2 0 with payload := (k.payload.drop (n * j)).take n }

/-- The chunks that a RESULT or PUBLISH of another rack carries: one part of one chunk in FORMAT L128, or any count that R124 allows. -/
def rackPieces (k : Packet) : List Packet :=
  if pkFormat k = 8 then [k] else (List.range (pkNchunk k)).map (chunkPiece k)

/-- One chunk of a RESULT or PUBLISH of another rack: written into the WAITING slot of its crown, which is recalled first when it is spilled, or counted as
wasted. -/
def State.rackChunk (s : State) (k : Packet) : State :=
  let p := pkPart k
  let c := crownQuad p (pkColl k) (pkChunk k)
  match s.img.collValid p (pkColl k) with
  | none => s.sltEvent c p 2
  | some e =>
    match s.instGet p (pkColl k) e (pkStep k), s.slotLook (slotKey c p (pkColl k) (pkStep k) (pkChunk k)) with
    | some i, some x =>
      if x.st = .waiting && !slotReady x then
        (s.waitAdd c p ⟨pkColl k, pkStep k, pkChunk k, .packet k⟩).settle p
      else s.writeResult k e i
    | _, some x => s.wastedOn (slotKey c p (pkColl k) (pkStep k) (pkChunk k)) x
    | _, none => s.sltEvent c p 2

/-- A RESULT or PUBLISH of another rack at the crown of its first chunk. -/
def State.rackPart (s : State) (q : Nat) (k : Packet) : State :=
  s.atService q 43 k fun s =>
    let c := crownQuad (pkPart k) (pkColl k) (pkChunk k)
    if c ≠ q then s.forwardTo q c 43 k else (rackPieces k).foldl State.rackChunk s

/-- RESULT_FROM_RACK: a part of FORMAT L128 (R127, R146). -/
def State.resultFromRack (s : State) (q : Nat) (k : Packet) : State :=
  if pkFormat k = 8 then s.rackPart q k
  else s.atService q 43 k fun s => s.countDiscard q 43 (pkPart k) .format

/-- PUBLISH_FROM_RACK: a rack-to-rack PUBLISH of bf16 high halves (R252), of one or two chunks (R597). -/
def State.publishFromRack (s : State) (q : Nat) (k : Packet) : State :=
  if pkFormat k = 1 && decide (pkNchunk k ≤ maxChunks 1) then s.rackPart q k
  else s.atService q 43 k fun s => s.countDiscard q 43 (pkPart k) .format

/-! ## The pager (R155, R175 to R177) -/

/-- STATE codes of R173. -/
def slotStCode : SlotSt → Nat
  | .opened => 1 | .closing => 2 | .waiting => 3 | .held => 4 | .aborting => 5

/-- The 128 metadata bytes of a slot in spill record n (R156). -/
def slotMeta (k : Key) (x : Slot) (n : Nat) : List Byte :=
  leBytes 32 x.members
    ++ leBytes 1 (k.getD 1 0 + slotStCode x.st * 32)
    ++ leBytes 1 (b2n x.ovf + 2 * b2n x.inv + 4 * b2n x.unarmed + 8 * b2n x.crown + 16 + 32 * b2n x.podnew + 64 * b2n x.locked)
    ++ leBytes 2 (k.getD 2 0) ++ leBytes 4 (k.getD 3 0) ++ leBytes 3 (k.getD 4 0) ++ leBytes 1 x.range
    ++ leBytes 2 (x.w + x.engine * 1024) ++ leBytes 2 (popCount 256 x.members) ++ leBytes 2 x.wasted
    ++ leBytes 2 x.lastRank ++ leBytes 4 0 ++ leBytes 8 x.tFirst ++ leBytes 8 x.tLast ++ leBytes 4 x.touch
    ++ leBytes 4 n ++ leBytes 16 x.side ++ leBytes 4 x.peerParts ++ leBytes 28 x.resultParts

/-- The partition address of spill record n of quadrant q: records number through the quadrant's spill extents in
ascending address (R155). -/
def recordAt : List RegionExt → Nat → Option Nat
  | [], _ => none
  | r :: rs, n => if n < r.bytes / 8320 then some (r.start + 8320 * n) else recordAt rs (n - r.bytes / 8320)

def State.recordAddr (s : State) (q p n : Nat) : Option Nat :=
  recordAt (sortOn (fun r => r.start) ((s.img.region p 1).filter fun r => r.quad == q)) n

/-- A spill record that no slot of the partition holds. -/
def State.freeRecord (s : State) (q p : Nat) : Option Nat :=
  let used := (s.slotsOf q p).filterMap fun kv => match kv.2.res with | .record n => some n | _ => none
  (List.range (used.length + 1)).find? fun n => decide (n < s.img.spillCap p q) && !used.contains n

/-- HELD before WAITING before OPEN (R177); other states are no victims. -/
def victimRank : SlotSt → Option Nat
  | .held => some 0 | .waiting => some 1 | .opened => some 2 | _ => none

/-- a is the better victim of two: state first, then the older TOUCH, then the lower frame (R177). -/
def victimBefore (now : Nat) (a b : Slot) : Bool :=
  let age : Slot → Nat := fun x => (now + 2 ^ 32 - x.touch) % 2 ^ 32
  let fr : Slot → Nat := fun x => match x.res with | .frame n => n | _ => 0
  match victimRank a.st, victimRank b.st with
  | some ra, some rb =>
    decide (ra < rb) || (ra == rb && (decide (age b < age a) || (age a == age b && decide (fr a < fr b))))
  | _, _ => false

/-- The victim of a spill or swap (R177). -/
def State.victim (s : State) (q p : Nat) : Option (Key × Slot) :=
  let cands := (s.slotsOf q p).filter fun kv => isFrame kv.2.res && !s.slotLocked q p kv.2 && (victimRank kv.2.st).isSome
  cands.foldl (fun b kv =>
    match b with
    | none => some kv
    | some c => if victimBefore (s.touchNow q) kv.2 c.2 then some kv else some c) none

/-- The spilled slot that the oldest waiting item of a quadrant waits for (R176). -/
def State.recallNext (s : State) (q p : Nat) : Option (Key × Slot) :=
  (SMap.get s.waits [q, p] []).findSome? fun w =>
    match s.slotGet (slotKey q p w.coll w.step w.chunk) with
    | some x => if isRecord x.res && !x.locked then some (slotKey q p w.coll w.step w.chunk, x) else none
    | none => none

/-- True when the pager of a quadrant can start an operation (R175, R179). -/
def State.pagerIdle (s : State) (q : Nat) : Bool := !s.rdb V.PAGER_STOP [q] && (SMap.find [q] s.pagerOp).isNone

/-- Free frames of a partition's quota. -/
def State.freeFrames (s : State) (q p : Nat) : Nat := s.img.slotQuota p q - s.residentCount q p

/-- A spill for a creation that waits for a frame, or one to restore LOW_WATER free frames (R176). -/
def State.spillWanted (s : State) (q p : Nat) : Bool :=
  s.freeFrames q p == 0 && s.frameless q p || decide (s.freeFrames q p < s.rd F.SLT_PAGER_CTL_LOW_WATER [q])

/-- The spill that the pager can make: its victim and the record it takes (R177). -/
def State.spillNext (s : State) (q p : Nat) : Option ((Key × Slot) × Nat) :=
  match s.spillWanted q p, s.victim q p, s.freeRecord q p with
  | true, some v, some n => some (v, n)
  | _, _, _ => none

/-- True when the pager has an operation of the partition that it can make: a recall into a free frame or by a swap, or a spill. -/
def State.pagerWork (s : State) (q p : Nat) : Bool :=
  ((s.recallNext q p).isSome && ((s.freeFrame q p).isSome || (s.victim q p).isSome)) || (s.spillNext q p).isSome

/-- True when the pager may start an operation of a partition: it is idle, and the pager slot in progress serves the partition (R175, R176). -/
def State.pagerMay (s : State) (q p : Nat) : Bool := s.pagerIdle q && s.pagerGo q p fun t r => t.pagerWork q r

def opOf (k : Key) : PagerOp := ⟨k.getD 1 0, k.getD 2 0, k.getD 3 0, k.getD 4 0⟩

/-- A resident slot written to spill record n and left LOCKED; none when the record cannot be written. -/
def State.spillTo (s : State) (q p n : Nat) (k : Key) (x : Slot) : Option State :=
  match s.recordAddr q p n, x.res with
  | some a, .frame f =>
    let y := { x with res := .record n, locked := true }
    let d := (s.ledger q f).flatMap (fun l => leBytes 16 (unsigned 128 l)) ++ slotMeta k y n
    match (s.wr V.HBM_REQ [] (9 + q)).memWrite p a d with
    | some t => some (((t.wr V.HBM_REQ [] 0).slabBeats q f 5 p 1).slotPut k y)
    | none => none
  | _, _ => none

/-- An instance aborted because a spill record of one of its slots is lost: REASON 4 (R174, R376). -/
def State.memoryAbort (s : State) (p coll step : Nat) : State :=
  match s.img.collValid p coll with
  | some e => match s.instGet p coll e step with
    | some _ => s.abortEvent p coll e step 4
    | none => s
  | none => s

/-- PAGER_SPILL: once no recall is waiting, a spill for a creation that waits for a frame, or to restore LOW_WATER free frames (R176). -/
def State.pagerSpill (s : State) (q p : Nat) : State :=
  if !s.pagerMay q p || (s.recallNext q p).isSome then s
  else match s.spillNext q p with
    | some (v, n) =>
      match s.spillTo q p n v.1 v.2 with
      | some t => ((t.pagerStart q p).pagerMark q (opOf v.1)).sltEvent q p 5
      | none => s
    | none => s

/-- A record read into a frame: the ledger, or the abort of its instance when the read fails (R376). -/
def State.recallInto (s : State) (q p f : Nat) (k : Key) (x : Slot) (data : Option (List Byte)) : State :=
  match data with
  | some d =>
    ((s.slabBeats q f 5 p 1).putLedger q f ((chunksOf 16 512 (d.take 8192)).map fun b => signed 128 (ofLE b))).slotPut k
      { x with res := .frame f, locked := true }
  | none =>
    s.memoryAbort p (k.getD 2 0) (k.getD 3 0)

/-- The bytes of a slot's spill record. -/
def State.recordData (s : State) (q p : Nat) (x : Slot) : Option (List Byte) :=
  match x.res with
  | .record n => match s.recordAddr q p n with
    | some a => s.memData p a 8320
    | none => none
  | _ => none

/-- What the read of a slot's spill record reports: the pager's detector (R376, R559). -/
def State.recordNote (s : State) (q p : Nat) (x : Slot) : State :=
  match x.res with
  | .record n => match s.recordAddr q p n with
    | some a => s.asReq 2 q fun t => t.noteRead 0x08 p a 8320
    | none => s
  | _ => s

/-- PAGER_RECALL: the record that the oldest waiting contribution needs, into a free frame (R176, R177). -/
def State.pagerRecall (s : State) (q p : Nat) : State :=
  if !s.pagerMay q p then s
  else match s.recallNext q p, s.freeFrame q p with
    | some (k, x), some f =>
      let s := (s.pagerStart q p).pagerMark q (opOf k)
      ((s.recordNote q p x).recallInto q p f k x (s.recordData q p x)).sltEvent q p 6
    | _, _ => s

/-- PAGER_SWAP: with no frame free, the record is read and a victim takes its place in the same record (R175, R177). -/
def State.pagerSwap (s : State) (q p : Nat) : State :=
  if !s.pagerMay q p || (s.freeFrame q p).isSome then s
  else match s.recallNext q p, s.victim q p with
    | some (k, x), some (kv, v) =>
      match x.res, v.res with
      | .record n, .frame f =>
        let d := s.recordData q p x
        let s := s.recordNote q p x
        match s.spillTo q p n kv v with
        | some t =>
          let t := (t.slotUnlock kv).pagerStart q p
          ((t.pagerMark q (opOf k)).recallInto q p f k x d).sltEvent q p 7
        | none => s
      | _, _ => s
    | _, _ => s

/-- PAGER_OP_COMPLETE: the slot is unlocked, and what waited for it or for its frame is admitted in arrival order.  While the pager stalls, its operations wait
and their slots stay LOCKED (R179, R418). -/
def State.pagerOpComplete (s : State) (q : Nat) : State :=
  match SMap.find [q] s.pagerOp with
  | none => s
  | some o =>
    if s.rdb V.PAGER_STOP [q] then s
    else ((s.pagerClear q).slotUnlock (slotKey q o.part o.coll o.step o.chunk)).settle o.part

/-- Spilled slots of a partition that an item waits for. -/
def State.recallsPending (s : State) (q p : Nat) : Nat :=
  ((SMap.get s.waits [q, p] []).filterMap fun w =>
    match s.slotGet (slotKey q p w.coll w.step w.chunk) with
    | some x => if isRecord x.res && !x.locked then some (w.coll, w.step, w.chunk) else none
    | none => none).eraseDups.length

/-- Spills of a partition that its waiting creations and LOW_WATER ask for, no more than there are slots to spill. -/
def State.spillsPending (s : State) (q p : Nat) : Nat :=
  let waiting := ((s.slotsOf q p).filter fun kv => kv.2.res == .none).length
  let can := ((s.slotsOf q p).filter fun kv => isFrame kv.2.res && !s.slotLocked q p kv.2 && (victimRank kv.2.st).isSome).length
  min (waiting + s.rd F.SLT_PAGER_CTL_LOW_WATER [q] - s.freeFrames q p) can

/-- Pager operations pending in a quadrant, as SLT_PAGER_STAT shows them (R176, R186): the one in progress, the recalls and the spills. -/
def State.pagerPending (s : State) (q : Nat) : Nat :=
  min 0xFFFF ((SMap.find [q] s.pagerOp).toList.length
    + ((List.range 32).foldl (fun n p => if s.img.slotQuota p q = 0 then n else n + s.recallsPending q p + s.spillsPending q p) 0))

/-! ## Sweeps and forced releases (R174, R185) -/

/-- The sweep of a partition's sub-tables: every slot freed without a partial, result, ABORT or record, the wait lists
discarded, the spill records abandoned. -/
def State.sweepPart (s : State) (p : Nat) : State :=
  let s := { s with
    slots := SMap.eraseIf (fun k _ => k.getD 1 99 == p) s.slots
    waits := SMap.eraseIf (fun k _ => k.getD 1 99 == p) s.waits
    admMsgs := s.admMsgs.filter fun m => m.part != p }
  let s := s.eraseRegs fun id ix => (id == V.ACC_IN.id || id == V.ACC_OUT.id) && ix.getD 2 99 == p
  (List.range 4).foldl (fun t q => (t.wr F.SLT_SWEEP_PART [q] p).wr F.SLT_SWEEP_ACTIVE [q] 1) s

/-- SWEEP_END: the sweep of partition p has ended in every quadrant. -/
def State.sweepEnd (s : State) (p : Nat) : State :=
  (List.range 4).foldl (fun t q =>
    if t.rdb F.SLT_SWEEP_ACTIVE [q] && t.rd F.SLT_SWEEP_PART [q] == p then t.wr F.SLT_SWEEP_ACTIVE [q] 0 else t) s

/-- The slots of a quadrant whose accumulations are pending on an engine: those it has still to make, and those named as in progress in it, whose locked
sequence the bank holds (R153, R174). -/
def State.pendingOn (s : State) (q bank e : Nat) (busy : List (Nat × Nat × Nat × Nat)) : List (Key × Slot) :=
  s.slots.filter fun kv =>
    kv.1.getD 0 9 == q && kv.2.engine == e && (s.accPending q (kv.1.getD 1 0) kv.2
      || (busy.contains (kv.1.getD 1 0, kv.1.getD 2 0, kv.1.getD 3 0, kv.1.getD 4 0)
          && (match kv.2.res with | .frame f => frameInBank f bank | _ => false)))

/-- SLAB_LOCK_TIMEOUT: the locked sequence of a requester is released by force.  A reduction engine is faulted, and the instances of the slots with
accumulations pending on it abort with REASON 3; a fault of requester 6 stops the readouts and conversions of the quadrant (R174, R185; DEDUCED, log
entry 75). -/
def State.slabLockTimeout (s : State) (q bank port req : Nat) (busy : List (Nat × Nat × Nat × Nat)) : State :=
  let s := (((s.wr F.ARB_SLAB_LOG_BANK [q] bank).wr F.ARB_SLAB_LOG_PORT [q] port).wr F.ARB_SLAB_LOG_REQ [q] req).raise
    F.ARB_SLAB_LOG_VALID [q]
  let s := (s.bump F.ARB_SLAB_LOG_FIRES [q] 1).countLocal q (78 + bank / 8) 26 0 1
  let inj := s.injDet 0x0C q && s.rd V.INJ_TARGET [] % 16 == 2 * req
  let s := if inj then s.injFired else s
  let s := s.err { det := 0x0C, sev := 2, quad := q, unit := req, inj := inj,
                   info := bank + 2 ^ 7 * port + 2 ^ 8 * req + 2 ^ 11 + 2 ^ 32 * s.rd F.ARB_SLAB_LOG_FIRES [q] }
  if req = 5 || 7 ≤ req then s
  else (s.pendingOn q bank req busy).foldl (fun t kv =>
    match t.img.collValid (kv.1.getD 1 0) (kv.1.getD 2 0) with
    | some e => t.abortEvent (kv.1.getD 1 0) (kv.1.getD 2 0) e (kv.1.getD 3 0) 3
    | none => t) (s.wr V.ENGINE_FAULT [q, req] 1)

end Sys2Proof.Machine
end

