-- ==== Sys2Proof/Machine/SeqCmd.lean ====
section
/-! DEFINITION. The commands of the collective sequencer: doorbells, ring commands, completion, triggered operations and
timers (spec/06_collective_programs.md; R111, R113 of spec/03_woyth_transport.md). -/

namespace Sys2Proof.Machine

/-! ## Doorbells, rings and records (R187 to R194) -/

/-- True when a new PROD value is accepted (R188). -/
def State.prodOk (s : State) (q p e prod : Nat) : Bool :=
  !before32 prod (s.rd F.SEQ_RING_PROD_PROD [q, p, e])
    && decide ((prod + 2 ^ 32 - s.rd F.SEQ_RING_CONS_CONS [q, p, e]) % 2 ^ 32 ≤ 2 ^ s.rd F.SEQ_RING_CTL_LOG2SIZE [q, p, e])

/-- RING_DOORBELL: a write to SEQ_RING_PROD. -/
def State.ringDoorbell (s : State) (q p e prod : Nat) : State :=
  if s.prodOk q p e prod then (s.wr F.SEQ_RING_PROD_PROD [q, p, e] prod).ringCheck q p e
  else s.raise F.SEQ_RING_CTL_DBERR [q, p, e]

/-- A class P answer to a request: SEQ, ADDR and LEN_UNITS echoed, DST the request's SRC (R80, R115). -/
def State.replyP (s : State) (q op status : Nat) (k : Packet) (pl : List Byte) : State :=
  let p := pkPart k
  s.send q 45 p (mkPacket (mkHdr op (vcAt .p 0) (s.stamp p) p (pl.length / 64) 0 1 (pkSrc k) (s.ownAddr q) (pkSeq k)
    (reqSpec (pkAddr k) (pkLenUnits k) 0 status) + pkCmark k * 2 ^ 37) pl)

/-- DOORBELL: a fabric doorbell packet, answered with DOORBELL_ACK (R189). -/
def State.doorbell (s : State) (q : Nat) (k : Packet) : State :=
  s.atService q 45 k fun s =>
    let p := pkPart k
    let ring := bitsOf (pkAddr k) 8 8
    let prod := bitsOf (pkAddr k) 32 32
    let rq := ring / 8
    let e := ring % 8
    let ok := (s.img.rankEntry (pkEpoch k) p (dstRank (pkSrc k))).isSome && decide (rq < 4) && decide (e < 5)
      && s.rdb F.SEQ_RING_CTL_FABRIC_DB [rq, p, e]
    if !ok then s.replyP q 0x24 5 k []
    else (s.ringDoorbell rq p e prod).replyP q 0x24 (if s.prodOk rq p e prod then 0 else 5) k []

/-- RING_ERR_CLEAR: writing 1 to SEQ_RING_CTL.ERR restarts the ring at CONS. -/
def State.ringErrClear (s : State) (q p e : Nat) : State :=
  if s.raisedNow F.SEQ_RING_CTL_ERR [q, p, e] then s else (s.wr F.SEQ_RING_CTL_ERR [q, p, e] 0).ringCheck q p e

/-- The records that go on waiting for a completion queue. -/
def State.cqKeep (s : State) (p k : Nat) (rs : List Nat) : State :=
  { s with cqWait := if rs.isEmpty then SMap.erase [p, k] s.cqWait else SMap.set [p, k] rs s.cqWait }

/-- The SIGNAL_HOST operation that posted a record ends, once the record is written or lost (R214). -/
def State.signalEnd (s : State) (p rcd : Nat) : State :=
  let l := SMap.get s.trigOps [p] []
  match l.findIdx? fun o => o.posted == rcd + 1 && !o.finished with
  | some n => match l[n]? with
    | some o => { s with trigOps := SMap.set [p] (l.set n { o with finished := true, posted := 0 }) s.trigOps }
    | none => s
  | none => s

/-- CQ_RECORD_WRITE: a waiting record written once its queue has room; a coalesced vector that is due is raised. -/
def State.cqRecordWrite (s : State) (p k : Nat) : State :=
  match SMap.get s.cqWait [p, k] [] with
  | [] => if s.rdb V.CQ_VEC_DUE [p, k] then s.cqVector p k else s
  | r :: rs =>
    if s.cqRoom p k then
      ((s.cqKeep p k rs).cqPut p k r).signalEnd p r
    else s

/-! ## Arming (R202) -/

/-- An instance armed: its record is ACTIVE and its slots may close (R170, R204). -/
def State.armInst (s : State) (p coll : Nat) (e : CollE) (i : Inst) : State :=
  let s := s.instPut p coll e { i with st := if i.st = .unarmed then .active else i.st, armed := true }
  (s.instSlots p coll i.step).foldl (fun t kv =>
    let t := t.slotPut kv.1 { kv.2 with unarmed := false }
    t.closeOrRecall (kv.1.getD 0 0) p coll i.step (kv.1.getD 4 0) e i.bank) s

/-- COLLECTIVE.  Its PATIENCE_MS, where it is not 0, counts from the start of the instance's patience (R220). -/
def State.collective (s : State) (q p entry : Nat) : State :=
  if !s.ringCmd q p 0 1 entry then s
  else
    let coll := bitsOf entry 64 16
    let step := bitsOf entry 96 32
    let ms := bitsOf entry 160 32
    match s.img.collValid p coll with
    | none => s.ringStop q p 0 5 (ceTag entry)
    | some e =>
      if !e.cmd then s.ringStop q p 0 5 (ceTag entry)
      else
        let w := if e.winCmd then bitsOf entry 128 10 else e.w
        let dl := s.timeNs + (if ms = 0 then s.img.patienceMs p e else ms) * 10 ^ 6
        match s.recUse p coll e step with
        | .busy => s
        | .completed => (s.cmdStart q p 0 entry).cmdDone q p 0 entry 7
        | .fresh => ((s.cmdStart q p 0 entry).instPut p coll e (s.instNew p e step true w dl)).cmdDone q p 0 entry 0
        | .use i =>
          if i.armed || i.st = .complete || i.st = .aborted then (s.cmdStart q p 0 entry).cmdDone q p 0 entry 7
          else
            let old := s.img.patienceMs p e * 10 ^ 6
            let deadline := if i.deadline = 0 then dl else if ms = 0 then i.deadline else i.deadline - old + ms * 10 ^ 6
            ((s.cmdStart q p 0 entry).armInst p coll e { i with w := w, deadline := deadline }).cmdDone q p 0 entry 0

/-- Every UNARMED STANDING instance of a step that is now armed (R202, R204). -/
def State.armStanding (s : State) (p : Nat) : State :=
  s.insts.foldl (fun t kv =>
    let coll := kv.1.getD 1 0
    let e := t.img.coll p coll
    if kv.1.getD 0 99 == p && kv.2.st == .unarmed && !e.cmd && t.stepArmed p kv.2.step then t.armInst p coll e kv.2 else t) s

/-- STEP_PROG of a partition's COLL header (R196). -/
def Images.stepProg (v : Images) (p : Nat) : Nat := v.le 0x08 4 p 12 2

/-- ARM_STEP: ARMED moves forward only; each step newly passed arms the STEP_PROG chain with that step as context. -/
def State.armStep (s : State) (q p entry : Nat) : State :=
  if !s.ringCmd q p 0 2 entry then s
  else
    let step := bitsOf entry 96 32
    let old := s.rd F.SEQ_STEP_ARMED [p]
    let s := s.cmdStart q p 0 entry
    if !before32 old step then s.cmdDone q p 0 entry 0
    else
      let s := (s.wr F.SEQ_STEP_ARMED [p] step).armStanding p
      let word := s.img.stepProg p
      let s := if word = 0xFFFF then s
        else (List.range ((step + 2 ^ 32 - old) % 2 ^ 32)).foldl (fun t j => t.trigArm p word ((old + 1 + j) % 2 ^ 32)) s
      s.cmdDone q p 0 entry 0

/-- TRIGGER: a chain's first word armed with a step context; a word whose counter is taken is not armed (R213). -/
def State.triggerCmd (s : State) (q p entry : Nat) : State :=
  if !s.ringCmd q p 0 3 entry then s
  else
    let word := bitsOf entry 64 16
    if 8192 ≤ word then s.ringStop q p 0 5 (ceTag entry)
    else
      let k := twCounter (s.img.trigWord p word)
      let taken := k == 255 || s.rd V.TRIG_WORD [p, k] != 0
      ((s.cmdStart q p 0 entry).trigArm p word (bitsOf entry 96 32)).cmdDone q p 0 entry (if taken then 7 else 0)

/-- INCREMENT. -/
def State.incrementCmd (s : State) (q p entry : Nat) : State :=
  if !s.ringCmd q p 0 4 entry then s
  else if bitsOf entry 64 8 = 255 then s.ringStop q p 0 5 (ceTag entry)
  else ((s.cmdStart q p 0 entry).trigAdd p (bitsOf entry 64 8) (bitsOf entry 96 32)).cmdDone q p 0 entry 0

/-- ABORT_COLLECTIVE. -/
def State.abortCollective (s : State) (q p entry : Nat) : State :=
  if !s.ringCmd q p 0 5 entry then s
  else
    let coll := bitsOf entry 64 16
    match s.img.collValid p coll with
    | none => s.ringStop q p 0 5 (ceTag entry)
    | some e =>
      let s := s.cmdStart q p 0 entry
      (s.abortEvent p coll e (bitsOf entry 96 32) 2).cmdDone q p 0 entry 0

/-! ## Step replay (R222) -/

/-- The instances of a step that a replay resets, with their slots. -/
def State.replayReset (s : State) (p step : Nat) : State :=
  s.insts.foldl (fun t kv =>
    if kv.1.getD 0 99 == p && kv.2.step == step && (kv.2.st == .unarmed || kv.2.st == .active || kv.2.st == .aborted) then
      let coll := kv.1.getD 1 0
      let t := (t.instSlots p coll step).foldl (fun u x => u.slotDrop x.1) t
      let t := t.handoffsDrop p coll step
      { t with insts := SMap.erase kv.1 t.insts }
    else t) s

/-- STEP_REPLAY: the reset starts; a second one waits at the head of its ring until it has ended. -/
def State.stepReplay (s : State) (q p entry : Nat) : State :=
  if !s.ringCmd q p 0 6 entry || s.rdb F.SEQ_STEP_REPLAY [p] then s
  else
    let step := bitsOf entry 96 32
    let s := s.cmdStart q p 0 entry
    let s := ((s.wr F.SEQ_STEP_REPLAY [p] 1).wr V.REPLAY_STEP [p] step).wr V.REPLAY_QUAD [p] q
    ((s.wr V.REPLAY_ENTRY [p] entry).replayReset p step).settle p

/-- STEP_REPLAY_END: the reset has ended in every quadrant, and the command completes. -/
def State.stepReplayEnd (s : State) (p : Nat) : State :=
  if s.rdb F.SEQ_STEP_REPLAY [p] then
    (s.wr F.SEQ_STEP_REPLAY [p] 0).cmdDone (s.rd V.REPLAY_QUAD [p]) p 0 (s.rd V.REPLAY_ENTRY [p]) 0
  else s

/-! ## Completion (R215 to R217) -/

/-- True when a rank receives chunks of an instance in its own partition (R205, R215). -/
def State.isReceiver (s : State) (p : Nat) (e : CollE) (i : Inst) (rank : Nat) : Bool := s.img.recvCount p e i rank != 0

/-- DONE: checked against the receive count and recorded; one of a rank that receives nothing of the instance is handled as a non-member's (R215). -/
def State.doneCmd (s : State) (q : Nat) (k : Packet) : State :=
  s.atService q 45 k fun s =>
    let p := pkPart k
    let coll := pkColl k
    let rank := dstRank (pkSrc k)
    match s.img.collValid p coll, s.img.rankEntry (pkEpoch k) p rank with
    | some e, some _ =>
      match s.recUse p coll e (pkStep k) with
      | .use i =>
        if !s.isReceiver p e i rank then s.nonMember q k
        else if leAt k.payload 0 3 ≠ s.img.recvCount p e i rank then s.bump F.SEQ_SLOW_BAD_DONE [p] 1
        else if !liveInst i || bitOf i.done rank then s
        else
          let s := (s.instPut p coll e { i with done := setBit i.done rank }).checkComplete p coll e (pkStep k)
          (s.publishEnd p).settle p
      | .busy => s
      | _ => if s.isReceiver p e (s.instNew p e (pkStep k) false e.w 0) rank then s else s.nonMember q k
    | _, _ => s.nonMember q k

/-- True when this module holds the record of a RUP chunk (R228). -/
def State.ownsRecord (s : State) (bank p : Nat) (e : CollE) (h : ShardE) (c : Nat) : Bool :=
  !h.partitioned || s.ownsChunk bank p e c

/-- A published chunk sent again to one rank, from its record, of the step in flight or, for PUBLISH of an ended one, of
that (R253), or, where another rack owns it, from the slot (R251, R252, R217). -/
def State.resendAny (s : State) (p coll step chunk rank : Nat) (e : CollE) (i : Inst) : State :=
  let c := crownQuad p coll chunk
  let fromSlot := fun (t : State) =>
    match t.slotGet (slotKey c p coll step chunk) with
    | some x =>
      if x.st ≠ .held then t
      else if slotReady x then t.resendChunk c p coll step chunk rank e i
      else t.waitAdd c p ⟨coll, step, chunk, .resend rank⟩
    | none => t
  if e.ckind ≠ 4 then fromSlot s
  else
    let j := chunk - e.chunkBase
    match s.img.shardValid p e.shard with
    | some h =>
      let u := s.updGet p e.shard j
      let now := (u.map (·.finished)).getD false && s.updStep p = step
      let ended := (s.updState p = 0 || s.shardQuiet p e.shard) && s.endedStep p = step && s.ownsRecord i.bank p e h chunk
      if (now || ended) && !s.rdb V.SHARD_LOST [p, e.shard] then
        match s.highHalves p j h with
        | some hi =>
          (s.instPacket h.quad 44 0x41 p coll step e chunk 1 .d (.rank rank) 1
            (if now then (u.map fun c => flgBits ⟨c.ovf, c.inv⟩).getD 0 else 0) ⟨1, 0, hi⟩).updStat p 5 1
        | none => s.shardReadLost p e.shard (h.stateAddr + recBytes h * s.recordOf p h j) 1024
      else fromSlot s
    | none => fromSlot s

/-- True when a rank is in a group that a PUBLISH of the shard named in place of its holders (R253). -/
def State.publishedTo (s : State) (p k rank : Nat) : Bool :=
  (List.range 4096).any fun g => s.rdb V.PUB_OVER [p, k, g] &&
    (let gr := s.img.group p g; gr.valid && gr.rx == p && bitOf (s.img.memberSet p gr.set) rank)

/-- GAP_NACK: each missing chunk that is held is sent again to the member; a published chunk is sent again from its record whether or not the instance is
still held (R217, R253). -/
def State.gapNack (s : State) (q : Nat) (k : Packet) : State :=
  s.atService q 45 k fun s =>
    let p := pkPart k
    let coll := pkColl k
    let rank := dstRank (pkSrc k)
    match s.img.collValid p coll, s.img.rankEntry (pkEpoch k) p rank with
    | some e, some _ =>
      let i := (s.instGet p coll e (pkStep k)).getD (s.instNew p e (pkStep k) false e.w 0)
      if !s.isReceiver p e i rank && !(e.ckind == 4 && s.publishedTo p e.shard rank) then s.nonMember q k
      else
        let n := min 32 (leAt k.payload 0 1)
        ((List.range n).foldl (fun t j =>
          let c := leAt k.payload (4 + 3 * j) 3
          if e.chunkBase ≤ c ∧ c < e.chunkBase + e.nchunk then t.resendAny p coll (pkStep k) c rank e i else t) s).settle p
    | _, _ => s.nonMember q k

/-- RESULT_RESEND_TIMER: every held chunk again to every receiver that owes DONE and has sent none, while tries are left
(R111, R113). -/
def State.resultResendTimer (s : State) (p coll step : Nat) : State :=
  match s.img.collValid p coll with
  | none => s
  | some e =>
    match s.instGet p coll e step with
    | none => s
    | some i =>
      if !liveInst i || i.resendDue = 0 || s.rd F.XPT_RESEND_TRIES [] ≤ i.resends then s
      else
        let n := i.resends + 1
        let s := s.instPut p coll e
          { i with resends := n, resendDue := i.resendDue + s.rd F.XPT_RESEND_FIRST [] * 1000 * 2 ^ n }
        ((s.owing p e i).filter fun r => !bitOf i.done r).foldl (fun t r =>
          (List.range e.nchunk).foldl (fun u j =>
            if e.ckind = 1 && u.img.ownerRank p e (e.chunkBase + j) != r then u
            else u.resendAny p coll step (e.chunkBase + j) r e i) t) s |>.settle p

/-- CNACK_RECEIVE: a CNACK for a PARTIAL that this Zarfer sent is taken, and nothing follows (R210). -/
def State.cnackReceive (s : State) (q : Nat) (k : Packet) : State := s.atService q 43 k fun s => s

/-- PATIENCE_EXPIRY: REASON 1 (R204, R220, R221). -/
def State.patienceExpiry (s : State) (p coll step : Nat) : State :=
  match s.img.collValid p coll with
  | none => s
  | some e =>
    match s.instGet p coll e step with
    | some i => if i.deadline = 0 then s else s.abortEvent p coll e step 1
    | none => s

/-- PARTIAL_RESEND_TIMER: a WAITING crown slot sends its PARTIAL again; a spilled one is recalled first (R210). -/
def State.partialResendTimer (s : State) (p coll step chunk : Nat) : State :=
  let c := crownQuad p coll chunk
  match s.img.collValid p coll, s.slotGet (slotKey c p coll step chunk) with
  | some e, some x =>
    match s.instGet p coll e step with
    | some i =>
      if x.st ≠ .waiting then s
      else if slotReady x then s.waitRun c p ⟨coll, step, chunk, .partialAgain⟩
      else
        let _ := i
        s.waitAdd c p ⟨coll, step, chunk, .partialAgain⟩
    | none => s
  | _, _ => s

/-- POD_HOLD_EXPIRY: the owner slot is freed once its DONE set is complete, which for a sum handed off it is at once (R205); otherwise completion frees it
(R210). -/
def State.podHoldExpiry (s : State) (p coll step chunk : Nat) : State :=
  let c := crownQuad p coll chunk
  let key := slotKey c p coll step chunk
  match s.img.collValid p coll, s.slotGet key with
  | some e, some x =>
    if x.st ≠ .held || x.podSent = 0 then s
    else match s.instGet p coll e step with
      | some i => if i.st = .complete || e.ckind = 4 && !s.img.shardPartitioned p e.shard then (s.slotDrop key).settle p
          else s.slotPut key { x with podSent := 0 }
      | none => (s.slotDrop key).settle p
  | _, _ => s

/-- STRAG_CLEAR: every table of a partition and its SEQ_SLOW zeroed (R223). -/
def State.stragClear (s : State) (p : Nat) : State :=
  let s := s.eraseRegs fun id ix =>
    (id == V.STRAG_LAST.id || id == V.STRAG_LAG_MAX.id || id == V.STRAG_LAG_SUM.id || id == V.STRAG_LAG_OVF.id) && ix.getD 0 99 == p
  s.resetFields [F.SEQ_SLOW_RANK, F.SEQ_SLOW_VALID, F.SEQ_SLOW_LAST, F.SEQ_SLOW_BAD_DONE] [p]

/-! ## Triggered operations (R213, R214) -/

/-- Operation n of a partition's fired operations, if it has the named OP and is not finished. -/
def State.trigOp (s : State) (p n op : Nat) : Option TrigOp :=
  match (SMap.get s.trigOps [p] [])[n]? with
  | some o => if twOp o.word = op && !o.finished then some o else none
  | none => none

/-- Operation n marked finished, ABORTED or not.  The sampler counts what an operation with an operand instance
(REDUCE_FORWARD, CONVERT_MULTICAST, NORM_CONTRIBUTE) waited since it fired. -/
def State.trigEnd (s : State) (p n : Nat) (o : TrigOp) (aborted : Bool) : State :=
  let key := [p % 4, 2, p, o.widx]
  let s := if twOp o.word < 4 then s.sampleWait key (s.rd V.CYCLE [p % 4] - s.rd V.PS_BEG key) else s
  { s with trigOps := SMap.set [p] ((SMap.get s.trigOps [p] []).set n { o with finished := true, aborted := aborted }) s.trigOps }

/-- What the operand instance of a fired word allows: it waits for READY; an ABORTED one ends the operation. -/
def State.trigInst (s : State) (p n op : Nat) (f : State → TrigOp → Nat → CollE → Inst → State) : State :=
  match s.trigOp p n op with
  | none => s
  | some o =>
    let coll := twColl o.word
    match s.img.collValid p coll with
    | none => s.trigEnd p n o true
    | some e =>
      match s.instGet p coll e (twStep o.word o.ctx) with
      | none => s
      | some i =>
        if i.st = .aborted then s.trigEnd p n o true
        else if i.st = .ready || i.st = .complete then f s o coll e i
        else s

/-- The crown slots of an instance that keep their sum in CLOSING and are selected, offered for readout again. -/
def State.releaseCrowns (s : State) (p coll step : Nat) (sel : Nat → Bool) : State :=
  (s.instSlots p coll step).foldl (fun t kv =>
    let c := kv.1.getD 4 0
    if kv.1.getD 0 9 = crownQuad p coll c && kv.2.st = .closing && sel c then t.slotPut kv.1 { kv.2 with sent := false } else t) s

/-- The sums of other racks in HELD crown slots of a released instance converted, a spilled one once it is recalled. -/
def State.convertCrowns (s : State) (p coll step : Nat) (e : CollE) : State :=
  (s.instSlots p coll step).foldl (fun t kv =>
    let c := kv.1.getD 4 0
    let q := crownQuad p coll c
    if kv.1.getD 0 9 = q && kv.2.st = .held then
      if slotReady kv.2 then
        match t.instGet p coll e step with
        | some i => t.convertHeld p coll step c e i
        | none => t
      else t.waitAdd q p ⟨coll, step, c, .convert⟩
    else t) s

/-- REDUCE_FORWARD: releases the PARTIALs, which each slot sends at its readout; it ends when every one has been sent. -/
def State.reduceForward (s : State) (p n : Nat) : State :=
  s.trigInst p n 1 fun s o coll e i =>
    if !e.pod then s.trigEnd p n o false
    else
      let sends := fun c => podSends (s.podRole i.bank p e c)
      let s := if i.fwd then s else (s.instPut p coll e { i with fwd := true }).releaseCrowns p coll i.step sends
      if (s.instSlots p coll i.step).any fun kv =>
          kv.1.getD 0 9 == crownQuad p coll (kv.1.getD 4 0) && kv.2.st == .closing && sends (kv.1.getD 4 0) then s
      else s.trigEnd p n o false

/-- CONVERT_MULTICAST: releases the held sums, each converted at its readout; it ends when every result has been formed and sent. -/
def State.convertMulticast (s : State) (p n : Nat) : State :=
  s.trigInst p n 2 fun s o coll e i =>
    let s := if i.released then s
      else
        let j := { i with
          released := true, outGroup := if twEntryGroup o.word then e.group else twGroup o.word,
          outFmt := if twEntryFmt o.word then e.outFmt else twFormat o.word }
        (((s.instPut p coll e j).convertCrowns p coll i.step e).releaseCrowns p coll i.step fun _ => true).settle p
    match s.instGet p coll e i.step with
    | some j => if j.resulted = e.nchunk then s.trigEnd p n o false else s
    | none => s

/-- NORM_CONTRIBUTE: the instance's side ledgers added into the norm ledger of the operand step. -/
def State.normContribute (s : State) (p n : Nat) : State :=
  s.trigInst p n 3 fun s o coll e i =>
    let step := twStep o.word o.ctx
    if s.updState p = 1 && s.updStep p = step then
      let s := i.sides.foldl (fun t kv =>
        let (m, o) := t.normMoved p i.w kv.2
        (t.instFlags p coll e i.step (kv.1.headD 0) o false).normSum p m) s
      ((s.bumpSat V.NORM_OPS [p] 1).trigEnd p n o false).localFinal p
    else if before32 step (s.updStep p) || (s.updStep p = step && (s.updState p ≠ 0 || s.rdb F.UPD_PART_STEP_OUTCOME [p])) then
      s.trigEnd p n o false
    else s

/-- UPDATE_SHARD: starts a shard's update; a started or skipped one completes at once (R242). -/
def State.updateShard (s : State) (p n : Nat) : State :=
  match s.trigOp p n 4 with
  | none => s
  | some o =>
    let k := twArg0 o.word % 2 ^ 16
    let step := twStep o.word o.ctx
    let past := before32 step (s.updStep p)
      || (s.updStep p = step && s.updState p = 0 && s.rdb F.UPD_PART_STEP_OUTCOME [p])
    if past then s.trigEnd p n o false
    else if s.updStep p ≠ step || s.updState p = 0 then s
    else if s.rdb V.UPD_OP_DONE [p, k] then s.trigEnd p n o false
    else if s.updState p = 3 then
      if s.rdb V.UPD_STARTED [p, k] || s.img.optAuto p then s.trigEnd p n o false
      else s.wr V.UPD_STARTED [p, k] 1
    else if s.updState p = 4 || s.img.optLagged p then s.trigEnd p n o false
    else s

/-- PUBLISH_OP. -/
def State.publishOp (s : State) (p n : Nat) : State :=
  match s.trigOp p n 5 with
  | none => s
  | some o =>
    let k := twArg0 o.word % 2 ^ 16
    match s.img.shardValid p k with
    | none => s.trigEnd p n o true
    | some h =>
      if !s.shardQuiet p k || s.rdb F.UPD_FAULT_FAULTED [h.quad] then s
      else if s.rdb V.SHARD_LOST [p, k] then s.trigEnd p n o true
      else (s.publishShard p k (twArg1 o.word) h).trigEnd p n o false

/-- SNAPSHOT_OP. -/
def State.snapshotOp (s : State) (p n : Nat) : State :=
  match s.trigOp p n 6 with
  | none => s
  | some o =>
    let k := twArg0 o.word % 2 ^ 16
    match s.img.shardValid p k with
    | none => s.trigEnd p n o true
    | some h =>
      if !s.shardQuiet p k || s.rdb F.UPD_FAULT_FAULTED [h.quad] then s
      else
        let (t, st) := s.snapshotShard p k (twArg1 o.word) h
        t.trigEnd p n o (st != 0)

/-- SIGNAL_HOST: ends when its record has been written or lost; one that waits for room holds it. -/
def State.signalHost (s : State) (p n : Nat) : State :=
  match s.trigOp p n 7 with
  | none => s
  | some o =>
    if o.posted ≠ 0 then s
    else
      let k := twArg0 o.word % 8
      let r : CqRec := { kind := 4, tag := twArg1 o.word % 2 ^ 32 }
      let waiting := (SMap.get s.cqWait [p, k] []).length
      let t := s.cqPost p k r
      if waiting < (SMap.get t.cqWait [p, k] []).length then
        { t with trigOps := SMap.set [p] ((SMap.get t.trigOps [p] []).set n { o with posted := cqRecord s.timeNs r + 1 }) t.trigOps }
      else t.trigEnd p n o false

/-- INCREMENT_OP. -/
def State.incrementOp (s : State) (p n : Nat) : State :=
  match s.trigOp p n 8 with
  | none => s
  | some o => (s.trigEnd p n o false).trigAdd p (twArg1 o.word % 256) (twArg0 o.word % 2 ^ 32)

/-- WAIT_EPOCH: ends when the epoch is STEADY with the named stamp bank. -/
def State.waitEpoch (s : State) (p n : Nat) : State :=
  match s.trigOp p n 9 with
  | none => s
  | some o =>
    if s.rd F.XPT_EPOCH_STATE [p] = 0 && s.stamp p = twArg0 o.word % 2 then s.trigEnd p n o false else s

/-- The n-th fired operation of a partition leaves. -/
def State.trigDrop (s : State) (p n : Nat) : State :=
  let l := (SMap.get s.trigOps [p] []).eraseIdx n
  { s with trigOps := if l.isEmpty then SMap.erase [p] s.trigOps else SMap.set [p] l s.trigOps }

/-- TRIGGER_OP_COMPLETE: the operation leaves; DONE_CTR rises by 1, and NEXT is armed unless it was ABORTED. -/
def State.triggerOpComplete (s : State) (p n : Nat) : State :=
  match (SMap.get s.trigOps [p] [])[n]? with
  | none => s
  | some o =>
    if !o.finished then s
    else
      let s := ((s.trigDrop p n).sampleEnd [p % 4, 2, p, o.widx] (if o.aborted then 0x10 else 0)).trigAdd p (twDoneCtr o.word) 1
      if o.aborted || twNext o.word = 0xFFFF then s else s.trigArm p (twNext o.word) o.ctx

end Sys2Proof.Machine
end

