-- ==== Sys2Proof/Machine/Swc.lean ====
section
/-! DEFINITION. The switch core and the arrival of packets: admission, egress, release, flush, mirroring and credits
(R72 to R117 of spec/03_woyth_transport.md, R309 to R338 of spec/10_switch_core.md, R348 to R350 of
spec/11_woyth_link.md). -/

namespace Sys2Proof.Machine

/-! ## Pools, thresholds, quotas (R317 to R321) -/

/-- Packets that hold cells of pools: waiting in the staging of an external or seam port, and in the buffer.  What waits at an internal input still
lies in its service. -/
def State.heldOf (s : State) (q : Nat) : List Held :=
  SMap.get s.bufs [q] [] ++ (List.range 43).flatMap fun i => SMap.get s.staging [q, i] []

/-- Cells in use in cycle t by packets in a list that belong to pool (i, v). -/
def poolCells (t : Nat) (l : List Held) (i v : Nat) : Nat :=
  ((l.filter fun h => h.inPort == i && pkVc h.pkt == v).map fun h => h.cells t).foldl (· + ·) 0

/-- Credits that an external or seam port has promised and not yet received, as receiver; a seam starts with 36 on every VC (R318, R328). -/
def State.promised (s : State) (q k v : Nat) : Nat :=
  (s.rd V.LNK_LIMIT [q, k, v] + (if 40 ≤ k then 36 else 0) + 65536 - s.rd V.LNK_RCVD [q, k, v]) % 65536

/-- S(i, v): shared cells that a pool holds or has promised. -/
def State.poolShared (s : State) (l : List Held) (q i v : Nat) : Nat :=
  poolCells (s.rd V.CYCLE [q]) l i v + (if i < 43 then s.promised q i v / 4 else 0) - 9

/-- The shared cells that no pool holds or has promised now. -/
def State.countFree (s : State) (q : Nat) : Nat :=
  let l := s.heldOf q
  let ks := (l.map fun h => (h.inPort, pkVc h.pkt)).eraseDups
  190542 - (ks.map fun k => s.poolShared l q k.1 k.2).foldl (· + ·) 0

/-- F of R319: their number at the start of the cycle. -/
def State.freeShared (s : State) (q : Nat) : Nat := s.rd V.COR_F [q]

/-- ALPHA_EXP of a class, signed (R321). -/
def State.alphaExp (s : State) (q c : Nat) : Int := signed 4 (s.img.le 0x03 q 0 c 1)

/-- R319: the pool may extend a credit beyond its reserved minimum. -/
def State.mayExtend (s : State) (q i v : Nat) : Bool :=
  let l := s.heldOf q
  let f := s.freeShared q
  let sh := s.poolShared l q i v
  let a := s.alphaExp q (clsIx (vcCls v))
  if 0 ≤ a then decide (sh < 2 ^ a.toNat * f) else decide (sh * 2 ^ (-a).toNat < f)

/-- Class U packets of a partition that wait in its wait list of a quadrant, each once. -/
def State.uWaiting (s : State) (q p : Nat) : List Packet :=
  (((SMap.get s.waits [q, p] []).filterMap fun w =>
    match w.what with
    | .contrib k _ => some k
    | .packet k => some k
    | _ => none).filter fun k => decide (vcCls (pkVc k) = .u)).eraseDups

/-- Class U cells of a partition held in a quadrant: in staging, the buffer, reassembly, at its services, and in its wait list (R320). -/
def State.uCells (s : State) (q p : Nat) : Nat :=
  let mine := fun (k : Packet) => decide (vcCls (pkVc k) = .u) && pkPart k == p
  let sum := fun (l : List Nat) => l.foldl (· + ·) 0
  sum (((s.heldOf q).filter fun h => mine h.pkt).map fun h => h.cells (s.rd V.CYCLE [q]))
    + sum ((((List.range 40).flatMap fun o => SMap.get s.reasm [q, o] []).filter fun r => mine r.pkt).map fun r => pkCells r.pkt)
    + sum ((((List.range 5).flatMap fun o => SMap.get s.svc [q, 43 + o] []).filter fun h => mine h.pkt).map fun h => pkCells h.pkt)
    + sum ((s.uWaiting q p).map pkCells)

def State.uQuota (s : State) (q p : Nat) : Nat := s.img.le 0x03 q 0 (64 + 4 * p) 4 % 2 ^ 18

/-- True while the partition's class U pools extend no shared credit. -/
def State.atQuota (s : State) (q p : Nat) : Bool :=
  p != 0 && s.uQuota q p != 0 && decide (s.uQuota q p ≤ s.uCells q p)

/-- F for the cycle that begins, and COR_BUF.LOW. -/
def State.noteFree (s : State) (q : Nat) : State :=
  let f := s.countFree q
  let s := s.wr V.COR_F [q] f
  if f < s.rd F.COR_BUF_LOW [q] then s.wr F.COR_BUF_LOW [q] f else s

/-- Shared credits extended, a cell's worth at a time, until one packet's credits stand (fuel: 9 cells).  How far a pool
extends within R319 is the model's choice (log entry 31). -/
def State.extend (s : State) (q k v : Nat) : Nat → State
  | 0 => s
  | n + 1 =>
    if s.promised q k v < 36 && s.mayExtend q k v && !(vcCls v = .u && k < 36 && s.atQuota q (s.img.downOwner (36 * q + k))) then
      (s.bump V.LNK_LIMIT [q, k, v] 4).extend q k v n
    else s

/-- Credits granted on a VC of an external or seam port: its reserved minimum at once, shared ones under R319 (R318, R328, R349); none while a
border move drains the port (R67). -/
def State.grant (s : State) (q k v : Nat) : State :=
  if 43 ≤ k || s.rdb V.BORDER_PORT [q, k] then s
  else if vcCls v = .m then
    (if 40 ≤ k then s else if s.promised q k v < 36 then s.bump V.LNK_LIMIT [q, k, v] (36 - s.promised q k v) else s)
  else
    let held := 4 * poolCells (s.rd V.CYCLE [q]) (s.heldOf q) k v
    let want := 36 - held
    let s := if s.promised q k v < want then s.bump V.LNK_LIMIT [q, k, v] (want - s.promised q k v) else s
    s.extend q k v 9

/-- Credits of a packet: c(n) of R348. -/
def credits (k : Packet) : Nat := 4 * pkCells k

/-- Credits held as sender on an output's VC, those reserved by packets in reassembly taken off (R322, R349). -/
def State.txAvail (s : State) (q o v : Nat) : Nat :=
  let held := (s.rd V.LNK_PEER_LIMIT [q, o, v] + 65536 - s.rd V.LNK_SENT [q, o, v]) % 65536
  held - (((SMap.get s.reasm [q, o] []).filter fun r => r.dest.vc == v).map fun r => credits r.pkt).foldl (· + ·) 0

/-! ## Thresholds on egress queues (R114, R116, R325) -/

/-- Stop and resume of the module's own senders for a queue and class. -/
def State.injUpdate (s : State) (q o c : Nat) : State :=
  let d := s.depth q o c
  if s.rd F.XPT_INJ_THR_ON [] < d then s.wr V.INJ_STOP [q, o, c] 1
  else if d < s.rd F.XPT_INJ_THR_OFF [] then s.wr V.INJ_STOP [q, o, c] 0 else s

/-- A packet of a class linked to an output: PEAK, and R116. -/
def State.linked (s : State) (q o c : Nat) : State :=
  let d := s.depth q o c
  let s := if s.rd F.COR_QDEPTH_PEAK [q, o, c] < d then s.wr F.COR_QDEPTH_PEAK [q, o, c] d else s
  s.injUpdate q o c

/-- XPT_CMARK_THR of a class in cells, none for classes that are not marked. -/
def State.markThr (s : State) : Cls → Option Nat
  | .q => some (256 * s.rd F.XPT_CMARK_THR_Q [])
  | .p => some (256 * s.rd F.XPT_CMARK_THR_P [])
  | .u => some (256 * s.rd F.XPT_CMARK_THR_U [])
  | .d => some (256 * s.rd F.XPT_CMARK_THR_D [])
  | _ => none

/-- True when a packet enqueued now on an output is marked (R114). -/
def State.marks (s : State) (q o : Nat) (c : Cls) : Bool :=
  match s.markThr c with
  | some t => s.rdb F.XPT_CTL_CMARK_EN [] && decide (t < s.depth q o (clsIx c))
  | none => false

/-- Opcodes of the module's own senders that R116 stops. -/
def injStops (op : Nat) : Bool := op == 0x40 || op == 0x41 || op == 0x43 || op == 0x60 || op == 0x61 || op == 0x62

/-- Stops and resumes of every queue after a write of XPT_INJ_THR (R116). -/
def State.injSweep (s : State) : State :=
  (List.range 4).foldl (fun t q => (List.range 48).foldl (fun t o => (List.range 6).foldl (fun t c => t.injUpdate q o c) t) t) s

/-- True when R116 holds a packet of an internal input back: some egress queue that a copy of it goes to is stopped, in any quadrant. -/
def State.injHeld (s : State) (q : Nat) (h : Held) : Bool :=
  let c := clsIx (vcCls (pkVc h.pkt))
  injStops (pkOpcode h.pkt) && h.origin == 2 &&
    h.copies.any fun k => s.rdb V.INJ_STOP [q, k.out, c] || k.dests.any fun d => s.rdb V.INJ_STOP [d.quad, d.port, c]

/-! ## Mirroring (R334 to R337) -/

/-- The 128 B record of a sample (R336). -/
def mirRecord (ns port dir disc sess cause depth wait : Nat) (k : Packet) (keep : Bool) : List Byte :=
  leBytes 8 ns ++ leBytes 1 (port + dir * 64 + disc * 128) ++ leBytes 1 sess ++ leBytes 1 cause ++ leBytes 1 0
    ++ leBytes 4 depth ++ leBytes 4 wait ++ leBytes 12 0 ++ leBytes 32 k.hdr.toNat
    ++ (if keep then bytesAt k.payload 0 64 else leBytes 64 0)

/-- The session's vector, at most one interrupt per µs. -/
def State.mirVector (s : State) (q i : Nat) : State :=
  if s.rd V.MIR_VEC_TIME [q, i] ≤ s.timeNs then
    ((s.vector (s.rd F.COR_MIR_CTL_PART [q, i]) (s.rd F.COR_MIR_CTL_VECTOR [q, i])).wr V.MIR_VEC_TIME [q, i]
      (s.timeNs + 1000)).wr V.MIR_VEC_DUE [q, i] 0
  else s.wr V.MIR_VEC_DUE [q, i] 1

def State.mirLost (s : State) (q i : Nat) : State := s.bump F.COR_MIR_STAT_LOST [q, i] 1

/-- A record delivered to the session's destination (R337). -/
def State.mirDeliver (s : State) (q i taken : Nat) (bs : List Byte) : State :=
  let p := s.rd F.COR_MIR_CTL_PART [q, i]
  match s.rd F.COR_MIR_CTL_DEST [q, i] with
  | 0 => s.emit (.sample q bs)
  | 1 =>
    let log2 := s.rd F.COR_MIR_CTL_LOG2SIZE [q, i]
    let prod := s.rd F.COR_MIR_PTR_PROD [q, i]
    if 2 ^ log2 ≤ (prod + 2 ^ 32 - s.rd F.COR_MIR_PTR_CONS [q, i]) % 2 ^ 32 then s.mirLost q i
    else match s.ringWrite p (s.rd F.COR_MIR_RING_ADDR [q, i] * 128) true log2 prod bs with
      | some t => (t.bump F.COR_MIR_PTR_PROD [q, i] 1).mirVector q i
      | none => (s.hostFail p).mirLost q i
  | 2 =>
    if p = 0 then s.mirLost q i
    else
      let seq := s.rd V.MIR_SEQ [q]
      (s.bump V.MIR_SEQ [q] 1).send q 47 p
        (mkPacket (mkHdr 0x61 15 (s.stamp p) p 2 0 1 (s.rd F.COR_MIR_CTL_RANK [q, i]) (s.ownAddr q) seq
          (i + q * 4 + taken * 2 ^ 32) + 1 * 2 ^ 14) bs)
  | _ => s

/-- A frame offered to one session. -/
def State.mirOne (s : State) (q port dir : Nat) (k : Packet) (disc : Option Cause) (depth wait i : Nat) : State :=
  let part := s.rd F.COR_MIR_CTL_PART [q, i]
  if s.rdb F.COR_MIR_CTL_EN [q, i] && s.rd F.COR_MIR_CTL_PORT [q, i] == port && s.rd F.COR_MIR_CTL_DIR [q, i] == dir
      && bitOf (s.rd F.COR_MIR_CTL_CLASSES [q, i]) (clsIx (vcCls (pkVc k)))
      && (if part = 0 then decide (1 ≤ s.rd F.DBG_LEVEL_LEVEL []) else part == pkPart k) then
    let n := s.rd V.MIR_COUNT [q, i] + 1
    let s := s.wr V.MIR_COUNT [q, i] n
    if n % 2 ^ s.rd F.COR_MIR_CTL_K [q, i] = 0 then
      let taken := s.rd F.COR_MIR_STAT_TAKEN [q, i] + 1
      let rcd := mirRecord s.timeNs port dir (b2n disc.isSome) i ((disc.map causeIx).getD 0) depth wait k (part != 0)
      (s.wr F.COR_MIR_STAT_TAKEN [q, i] taken).mirDeliver q i (taken % 2 ^ 32) rcd
    else s
  else s

/-- MIRROR_SAMPLE: a frame offered to the four sessions of a quadrant. -/
def State.mirror (s : State) (q port dir : Nat) (k : Packet) (disc : Option Cause) (depth wait : Nat) : State :=
  (List.range 4).foldl (fun t i => t.mirOne q port dir k disc depth wait i) s

/-- MIR_CTL_WRITE: the session's configuration; its count back to zero (R334, R338). -/
def State.mirCtlWrite (s : State) (q i v : Nat) : State :=
  let k := bitsOf v 14 5
  let s := (((s.wr F.COR_MIR_CTL_EN [q, i] (bitsOf v 0 1)).wr F.COR_MIR_CTL_PORT [q, i] (min 47 (bitsOf v 1 6))).wr
    F.COR_MIR_CTL_DIR [q, i] (bitsOf v 7 1)).wr F.COR_MIR_CTL_CLASSES [q, i] (bitsOf v 8 6)
  let s := (((s.wr F.COR_MIR_CTL_K [q, i] (if 4 ≤ k && k ≤ 24 then k else 24)).wr F.COR_MIR_CTL_DEST [q, i] (bitsOf v 19 2)).wr
    F.COR_MIR_CTL_PART [q, i] (bitsOf v 21 5)).wr F.COR_MIR_CTL_RANK [q, i] (bitsOf v 26 12)
  ((s.wr F.COR_MIR_CTL_LOG2SIZE [q, i] (max 4 (min 16 (bitsOf v 38 5)))).wr F.COR_MIR_CTL_VECTOR [q, i] (bitsOf v 43 11)).wr V.MIR_COUNT [q, i] 0

/-- True when an armed LNK_INJ injection of a kind names a port (R365, R560). -/
def State.injLink (s : State) (q k kind : Nat) : Bool :=
  s.rd V.INJ_KIND [] == 2 && s.rd V.INJ_QUAD [] == q && s.rd V.INJ_TARGET [] % 64 == k
    && s.rd V.INJ_TARGET [] / 256 == kind

/-! ## Header arrival (R63, R77, R78, R87 to R98, R103, R108) -/

/-- The FORMAT check of R108, with R125, R146 and R279.  DESIGN CHOICE (log entry 69): RSTATE 3, which R73 reserves and no cause of R108 names,
fails it. -/
def formatOk (down : Bool) (k : Packet) : Bool :=
  match opRow (pkOpcode k) with
  | none => false
  | some r =>
    pkVersion k == 1 && r.dst.contains (pkDstType k) && decide (pkSrcType k ≤ 1) && decide (pkRstate k ≤ 2)
      && decide (vcCls (pkVc k) = r.cls) && decide (pkPayUnits k ≤ 32)
      && (if pkSrcType k = 0 || (down && pkRstate k != 2) then r.ni else r.zarfer)
      && (r.cls != .m || pkPayUnits k == 1)
      && (pkOpcode k != 0x30 || contribFormatOk (pkFormat k) (pkNchunk k) (pkPayUnits k) (pkNarrow k))
      && ((r.cls != .u && r.cls != .d) || pkNarrow k == 0 || pkFormat k == 8)

/-- The entry of a packet's source in the bank that the packet names. -/
def State.srcEntry (s : State) (k : Packet) : Option RankEntry :=
  if pkSrcType k = 0 then s.img.rankEntry (pkEpoch k) (pkPart k) (dstRank (pkSrc k)) else none

/-- The buddy of an entry. -/
def State.buddyOf (s : State) (k : Packet) (e : Option RankEntry) : Option RankEntry :=
  match e with
  | some r => if r.bvalid then s.img.rankEntry (pkEpoch k) (pkPart k) r.buddy else none
  | none => none

/-- R87 holds for a packet that enters on downlink n. -/
def State.notSpoofed (s : State) (n : Nat) (k : Packet) : Bool :=
  let here := fun (e : Option RankEntry) =>
    match e with
    | some r => r.x == s.myX && r.y == s.myY && r.acc == n
    | none => false
  pkSrcType k == 0 && pkDstType k != 1 &&
    (if pkRstate k = 2 then
      here (s.buddyOf k (s.srcEntry k)) ||
        (pkDstType k == 0 && here (s.buddyOf k (s.img.rankEntry (pkEpoch k) (pkPart k) (dstRank (pkDst k)))))
    else here (s.srcEntry k))

/-- UPWARD_RELAY (R95): where a packet with RSTATE 1 from a downlink goes. -/
def State.upRelay (s : State) (hop : Nat) (k : Packet) : Route :=
  let c := vcCls (pkVc k)
  if !(c = .q || c = .u || c = .m) || pkDstType k != 2 || !dstIsSelf (pkDst k) || pkRplane k == s.myPlane then .drop .relay
  else match s.buddyOf k (s.srcEntry k) with
    | some b =>
      if b.acc < 144 && b.x == s.myX && b.y == s.myY && s.downUp b.acc && s.img.downOwner b.acc == pkPart k then
        .goal [⟨b.acc / 36, b.acc % 36, vcAt c hop, 1, pkRplane k⟩]
      else .drop .relay
    | none => .drop .relay

/-- The checks of R108 in their order, then routing. -/
def State.arrivalRoute (s : State) (q k : Nat) (pk : Packet) : Route :=
  let down := decide (k < 36)
  let n := 36 * q + k
  let hop := vcHop (pkVc pk)
  if !pkHcrcOk pk then .drop .hcrc
  else if !formatOk down pk then .drop .format
  else if s.rd F.XPT_CTL_AGE_LIMIT [] ≤ pkAge pk then .drop .age
  else if down && s.img.downOwner n != pkPart pk then .drop .port
  else if !s.bankValid (pkPart pk) (pkEpoch pk) then .drop .epoch
  else if down && !s.notSpoofed n pk then .drop .spoof
  else if down && pkRstate pk == 1 then s.upRelay hop pk
  else s.route ⟨q, if down then 0 else 1, hop⟩ (pkPart pk) pk

/-- Receipt counted for a port (R540, R549, R552). -/
def State.countIn (s : State) (q k : Nat) (pk : Packet) : State :=
  let s := (s.bump V.RTR_PKT_IN [40 * q + k] 1).bump V.RTR_FLIT_IN [40 * q + k] (pkFlits pk)
  let s := (s.countLocal q k 7 (pkPart pk) 1).countLocal q k (80 + pkVc pk) (pkPart pk) (pkFlits pk)
  (s.countLegacy 1 1).countLegacy 3 (pkFlits pk)

/-- A header admitted from an external port (R452). -/
def State.noteHeader (s : State) (q i : Nat) : State := if i < 40 then s.wr V.HDR_NS [q] (s.timeNs + 1) else s

/-- A class M packet steered: to the combiner of its context's quadrant, or into a class M egress buffer (R277).  DESIGN CHOICE (log entry 70): one that
would cross a seam declared down is lost, and counted under UNREACHABLE. -/
def State.steer (s : State) (q k : Nat) (pk : Packet) (ds : List Dest) : State :=
  ds.foldl (fun t d =>
    if !t.seamOk q d.quad then t.countDiscard q k (pkPart pk) .unreachable
    else if d.port = 46 then
      let h : Held := { pkt := pk, inPort := k, origin := if k < 36 then 0 else 1, hop := vcHop (pkVc pk), arrive := t.timeNs,
                        admitted := t.rd V.CYCLE [d.quad], bank := if d.quad = q then 0 else 1 + q, copies := [], uid := t.rd V.PKT_UID [], sender := pkPart pk }
      let t := (t.wr V.PKT_UID [] (h.uid + 1)).countLocal d.quad 55 7 (pkPart pk) 1
      { t with svc := SMap.set [d.quad, 46] (SMap.get t.svc [d.quad, 46] [] ++ [h]) t.svc }
    else t.mitPut pk (if k < 36 then 0 else 1) k (pkPart pk) d) (s.noteHeader q k)

/-- Lanes in use times Gb/s of a lane, of an external port (R339). -/
def State.portRate (s : State) (q k : Nat) : Nat :=
  popCount 4 (s.rd F.LNK_PORT_STAT_LANES [q, k]) * (224 / 2 ^ s.rd F.LNK_PORT_STAT_RATE [q, k])

/-- The cycle in which each cell of a packet is complete at an external port whose header flit arrives now: a flit takes the time of 544 bits on the lanes
(R311, R339, R343). -/
def State.readyAt (s : State) (q k : Nat) (pk : Packet) : List Nat :=
  (List.range (pkCells pk)).map fun j =>
    s.rd V.CYCLE [q] + ceilDiv ((min (4 * (j + 1)) (pkFlits pk) - 1) * 4352) (5 * s.portRate q k)

/-- Cells in an input's staging buffer. -/
def State.stagingUse (s : State) (q i : Nat) : Nat :=
  ((SMap.get s.staging [q, i] []).map fun h => pkCells h.pkt).foldl (· + ·) 0

/-- PACKET_HEADER_ARRIVAL at external port k of a quadrant.  A packet that the staging buffer of 24 cells has no room for does not arrive (log entry 16); a
header that is routed is offered to the mirror sessions as it is admitted. -/
def State.headerArrival (s : State) (q k : Nat) (pk : Packet) : State :=
  if !s.rdb F.COR_PORT_OPEN [q, k] || s.rdb V.LNK_LOST_BOUND [q, k] then s
  else if decide (vcCls (pkVc pk) ≠ .m) && decide (24 < s.stagingUse q k + pkCells pk) then s
  else if s.injLink q k 4 then s.injFired.wr V.LNK_LOST_BOUND [q, k] 1
  else
    let s := s.countIn q k pk
    let r := s.arrivalRoute q k pk
    if !pkHcrcOk pk then (s.discard q k pk .hcrc).wr V.LNK_LOST_BOUND [q, k] 1
    else
      let s := s.bump V.LNK_RCVD [q, k, pkVc pk] (credits pk)
      match r with
      | .drop c => ((s.mirror q k 0 pk (some c) 0 0).discard q k pk c).grant q k (pkVc pk)
      | .goal ds =>
        let s := (s.lostCopies ⟨q, 1, vcHop (pkVc pk)⟩ (pkPart pk) pk).foldl (fun t c => t.countDiscard q k (pkPart pk) c) s
        if vcCls (pkVc pk) = .m then
          (((s.mirror q k 0 pk none 0 0).steer q k pk ds).wr V.INGRESS_OPEN [q, k] 0).grant q k (pkVc pk)
        else if ds.isEmpty then (s.mirror q k 0 pk none 0 0).grant q k (pkVc pk)
        else
          let s := (s.wr V.INGRESS_OPEN [q, k] (if pkPayUnits pk = 0 then 0 else 1)).wr V.INGRESS_UID [q, k] (s.rd V.PKT_UID [])
          (s.stage q k pk (if k < 36 then 0 else 1) (vcHop (pkVc pk)) s.timeNs (pkPart pk) (s.readyAt q k pk) ds).grant q k (pkVc pk)

/-! ## Admission to the buffer (R311, R312, R327, R330) -/

/-- Cells in use in a bank. -/
def State.bankUse (s : State) (q b : Nat) : Nat :=
  (((SMap.get s.bufs [q] []).filter fun h => h.bank == b).map fun h => h.cells (s.rd V.CYCLE [q])).foldl (· + ·) 0

/-- True while the write stream of a held packet is unfinished (R311). -/
def Held.writing (h : Held) (t : Nat) : Bool := h.written.any fun w => decide (t < w)

/-- The bank of R311, tested in the order (i + h + 1) mod 48 upward. -/
def State.findBank (s : State) (q i cells : Nat) : Option Nat :=
  let t := s.rd V.CYCLE [q]
  ((List.range 48).map fun n => (i + t + 1 + n) % 48).find? fun b =>
    decide (s.bankUse q b + cells ≤ 4096) &&
      !((SMap.get s.bufs [q] []).any fun h => h.inPort == i && h.bank == b && h.writing t)

/-- CLASS_B_DROP: a copy's drop decision (R330). -/
def State.bDrops (s : State) (q i : Nat) (k : Packet) (o : Nat) : Bool :=
  let col := pkColour k
  let e := s.img.le 0x03 q 0 (16 + 8 * col) 8
  let mn := bitsOf e 0 18
  let mx := bitsOf e 18 18
  let pm := bitsOf e 36 8
  let d := s.depth q o 5
  let x := kegus 0 (s.rd V.CYCLE [q] % 2 ^ 32) 0xFFFD q o
  decide (mx ≤ d)
    || (decide (mn ≤ d) && decide (x * (256 * (mx - mn)) < pm * (d - mn) * 2 ^ 32))
    || (decide (9 < poolCells (s.rd V.CYCLE [q]) (s.heldOf q) i (pkVc k) + (if i < 43 then 0 else pkCells k)) && !s.mayExtend q i (pkVc k))

/-- The cycle from which RELEASE counts: that of admission, or of the last flit of a packet that enters on an external port below four lanes at
224 Gb/s; a copy that crossed a seam keeps its release time (R314, R328). -/
def State.releaseBase (s : State) (q i : Nat) (h : Held) : Nat :=
  let t := s.rd V.CYCLE [q]
  if 40 ≤ i && i < 43 then 0
  else if i < 40 && s.portRate q i < 896 then h.ready.foldl max t + s.relCycles q
  else t + s.relCycles q

/-- The copies of a header as it is admitted: their release times, marks, and the copies dropped under R330. -/
def State.admitCopies (s : State) (q i : Nat) (h : Held) : List Copy × Nat :=
  let cls := vcCls (pkVc h.pkt)
  let cs := h.copies.filter fun c => !(cls = .b && s.bDrops q i h.pkt c.out)
  (cs.map fun c => { c with release := c.release + s.releaseBase q i h, cmark := s.marks q c.out cls }, h.copies.length - cs.length)

/-- A port that is closed takes no copy: relayed or discarded as R331 says; the shared operation of a flush. -/
def State.relinkDest (s : State) (h : Held) (d : Dest) : Option Dest :=
  if h.origin == 1 || pkRstate h.pkt == 2 || 36 ≤ d.port || d.rstate != 0 then none
  else
    let p := pkPart h.pkt
    let bank := pkEpoch h.pkt
    let n := 36 * d.quad + d.port
    let e := if pkDstType h.pkt = 0 then s.img.rankEntry bank p (dstRank (pkDst h.pkt))
      else ((List.range 4096).filterMap fun r => s.img.rankEntry bank p r).find? fun e =>
        e.acc == n && e.x == s.myX && e.y == s.myY
    match e with
    | some e =>
      if e.bvalid then
        match s.img.rankEntry bank p e.buddy with
        | some b =>
          if s.downUp b.acc && s.img.downOwner b.acc == p then some ⟨b.acc / 36, b.acc % 36, d.vc, 1, s.myPlane⟩ else none
        | none => none
      else none
    | none => none

/-- A copy bound for a port that has gone down: toward the buddy, or none (R331); it joins a new queue, so it is marked by that queue's depth too (R114). -/
def State.relinkCopy (s : State) (q : Nat) (h : Held) (c : Copy) : Option Copy :=
  match c.dests with
  | [d] =>
    match s.relinkDest h d with
    | some b =>
      let o := if b.quad = q then b.port else seamPort q b.quad
      some { out := o, dests := [b],
             release := max (c.release + s.seamAdd q) (s.rd V.CYCLE [q] + s.relCycles q + s.seamAdd q),
             cmark := c.cmark || s.marks q o (vcCls (pkVc h.pkt)) }
    | none => none
  | _ => none

/-- The next place in the order in which copies are linked in a quadrant (R323). -/
def State.linkNo (s : State) (q : Nat) : Nat := s.rd V.LINK_SEQ [q]

/-- A packet linked to the outputs of its copies, in their order (R323), with what follows for each queue (R116, R338). -/
def State.linkHeld (s : State) (q : Nat) (h : Held) : State :=
  let n := s.linkNo q
  let x := { h with copies := h.copies.zipIdx.map fun c => { c.1 with link := n + c.2 } }
  let s := s.wr V.LINK_SEQ [q] (n + h.copies.length)
  let s := { s with bufs := SMap.set [q] (SMap.get s.bufs [q] [] ++ [x]) s.bufs }
  h.copies.foldl (fun t k => t.linked q k.out (clsIx (vcCls (pkVc h.pkt)))) s

/-- A header that has its bank: written once, its copies linked (R327); a copy to a closed port is relayed or discarded as R331 says, each by itself.  A packet
with no copy left is freed.  The header is offered to the mirror sessions of its input with the depth of its first output, discarded when no copy is left
(R332, R334). -/
def State.admitHeld (s : State) (q i b : Nat) (h : Held) (rest : List Held) : State :=
  let (cs, lost) := s.admitCopies q i h
  let s := s.noteHeader q i
  let s := { s with staging := if rest.isEmpty then SMap.erase [q, i] s.staging else SMap.set [q, i] rest s.staging }
  let shut := fun (c : Copy) => decide (c.out < 40) && !s.rdb F.COR_PORT_OPEN [q, c.out]
  let live := cs.filterMap fun c => if shut c then s.relinkCopy q h c else some c
  let c := vcCls (pkVc h.pkt)
  let cause := if live.isEmpty then (if cs.isEmpty then some .bDrop else some .unreachable) else none
  let s := s.mirror q i 0 h.pkt cause ((cs.head?.map fun k => s.depth q k.out (clsIx c)).getD 0) 0
  let s := (List.range lost).foldl (fun t _ => t.countDiscard q i (pkPart h.pkt) .bDrop) s
  let s := (List.range (cs.length - live.length)).foldl (fun t _ => t.discard q i h.pkt .unreachable) s
  if live.isEmpty then s.grant q i (pkVc h.pkt)
  else s.linkHeld q { h with admitted := s.rd V.CYCLE [q], since := s.timeNs, bank := b, copies := live }

/-- An internal input offers a packet only within its pool: its reserved minimum, or shared cells under R319; class B is dropped instead (R317, R330). -/
def State.poolTakes (s : State) (q i : Nat) (h : Held) : Bool :=
  let v := pkVc h.pkt
  decide (vcCls v = .b) || decide (poolCells (s.rd V.CYCLE [q]) (s.heldOf q) i v + pkCells h.pkt ≤ 9) || s.mayExtend q i v

/-- The header that an input admits next: the first in arrival order; at an internal input, the first that neither R116 nor its pool holds
back. -/
def State.nextHeader (s : State) (q i : Nat) : Option (Held × List Held) :=
  let l := SMap.get s.staging [q, i] []
  match l with
  | [] => none
  | h :: r =>
    if i < 43 then some (h, r)
    else match l.findIdx? fun h => !s.injHeld q h && s.poolTakes q i h with
      | some n =>
        match l[n]? with
        | some h => some (h, l.eraseIdx n)
        | none => none
      | none => none

/-- BANK_ADMIT.  Inputs that admit in one cycle claim in ascending number (R311, R332). -/
def State.bankAdmit (s : State) (q i : Nat) : State :=
  if i < s.rd V.COR_ADMIT [q] then s
  else match s.nextHeader q i with
    | none => s
    | some (h, r) =>
      match s.findBank q i (pkCells h.pkt) with
      | some b => (s.admitHeld q i b h r).wr V.COR_ADMIT [q] i
      | none => s

/-! ## Egress (R313, R322 to R324) -/

/-- WEIGHT of a VC (R326). -/
def State.weight (s : State) (q v : Nat) : Nat := s.img.le 0x02 q 0 (8 + v) 1

/-- The reassembly cells in use at an external output. -/
def State.reasmUse (s : State) (q o : Nat) : Nat :=
  ((SMap.get s.reasm [q, o] []).map fun r => pkCells r.pkt).foldl (· + ·) 0

/-- True when a port's link carries packets: UP. -/
def State.linkUp (s : State) (q o : Nat) : Bool := s.rd F.LNK_PORT_STAT_STATE [q, o] == 4

/-- R322 for a copy on an output: room at the far side, and at an external output its credits.  At a seam output the seam must not be down: DESIGN CHOICE (log
entry 70), the spec does not say what becomes of a packet bound for a seam declared down (R19), and the model holds it in its list.  The receiving port must have room in staging and credits on the VC.  At an internal output the service has room: its queues have no size of their own (log entry 71). -/
def State.eligible (s : State) (q o : Nat) (k : Packet) (c : Copy) : Bool :=
  if o < 40 then
    s.linkUp q o && s.rdb F.COR_PORT_OPEN [q, o] && decide (s.reasmUse q o + pkCells k ≤ 432)
      && decide (credits k ≤ s.txAvail q o ((c.dests.map fun d => d.vc).headD 0))
  else if o < 43 then
    let q' := seamQuad q o
    let i := seamPort q' q
    s.seamOk q q' && decide (s.stagingUse q' i + pkCells k ≤ 24) && decide (credits k ≤ s.promised q' i (pkVc k))
  else true

/-- The VC of a copy on its output. -/
def copyVc (c : Copy) : Nat := (c.dests.map fun d => d.vc).headD 0

/-- The head of the list (b, o, v) among a quadrant's held packets: of the copies that wait, the one linked first. -/
def headOf (l : List Held) (b o v : Nat) : Option (Held × Copy) :=
  (l.flatMap fun h =>
    if h.bank = b then (h.copies.filter fun c => c.out == o && copyVc c == v && c.started == 0).map fun c => (h, c) else []).foldl
    (fun best x =>
      match best with
      | none => some x
      | some y => if x.2.link < y.2.link then some x else some y) none

/-- The VCs with an eligible head packet in some bank. -/
def State.eligibleVcs (s : State) (q o : Nat) : List Nat :=
  let l := SMap.get s.bufs [q] []
  (List.range 16).filter fun v =>
    s.weight q v != 0 &&
      (l.map fun h => h.bank).any fun b =>
        match headOf l b o v with
        | some (h, c) => s.eligible q o h.pkt c
        | none => false

/-- A deficit as a signed number of bytes. -/
def State.deficit (s : State) (q o v : Nat) : Int := signed 64 (s.rd V.DEFICIT [q, o, v])

/-- The end of a round at an output, when no eligible VC has a positive deficit (R323). -/
def State.roundEnd (s : State) (q o : Nat) (vs : List Nat) : State :=
  if vs.any fun v => decide (0 < s.deficit q o v) then s
  else
    let s := (List.range 16).foldl (fun t v =>
      if t.weight q v = 0 then t
      else if vs.contains v then t.wr V.DEFICIT [q, o, v] (unsigned 64 (t.deficit q o v + (t.weight q v * 2112 : Nat)))
      else t.wr V.DEFICIT [q, o, v] 0) s
    s.wr V.ROUND_PTR [q, o] ((s.rd V.ROUND_PTR [q, o] + 1) % 16)

/-- The VC that starts: positive deficit, eligible in bank b, nearest after the round pointer. -/
def State.pickVc (s : State) (q o b : Nat) : Option Nat :=
  let l := SMap.get s.bufs [q] []
  ((List.range 16).map fun n => (s.rd V.ROUND_PTR [q, o] + 1 + n) % 16).find? fun v =>
    s.weight q v != 0 && decide (0 < s.deficit q o v) &&
      match headOf l b o v with
      | some (h, c) => s.eligible q o h.pkt c
      | none => false

/-- A copy of a packet marked as started in a cycle. -/
def startCopy (h : Held) (c : Copy) (t : Nat) (l : List Held) : List Held :=
  l.map fun x => if x = h then { x with copies := x.copies.map fun y => if y = c then { y with started := t + 1 } else y } else x

/-- Where a copy's packet goes as its output reads it: the room and the credits that it takes are reserved as the stream starts (R322). -/
def State.deliver (s : State) (q o : Nat) (h : Held) (c : Copy) : State :=
  let k := if c.cmark then pkSet h.pkt 13 1 1 else h.pkt
  if o < 40 then
    match c.dests with
    | d :: _ =>
      let r : Reas := { pkt := k, dest := d, origin := h.origin, inPort := h.inPort, release := c.release, arrive := h.arrive,
                        admitted := h.admitted, bank := h.bank, uid := h.uid, sender := h.sender, since := h.since }
      { s with reasm := SMap.set [q, o] (SMap.get s.reasm [q, o] [] ++ [r]) s.reasm }
    | [] => s
  else if o < 43 then
    let q' := seamQuad q o
    let i := seamPort q' q
    let shift := fun (n : Nat) => n + s.rd V.CYCLE [q'] - s.rd V.CYCLE [q]
    let cs := s.copiesFor q' (pkDstType k == 1) (shift c.release) (s.seamAdd q) c.dests
    let x : Held := { pkt := k, inPort := i, origin := h.origin, hop := h.hop, arrive := h.arrive, admitted := 0, bank := 0,
                      copies := cs, ready := (h.reads { c with started := s.rd V.CYCLE [q] + 1 }).map shift, uid := h.uid, sender := h.sender }
    let s := s.bump V.LNK_RCVD [q', i, pkVc k] (credits k)
    { s with staging := SMap.set [q', i] (SMap.get s.staging [q', i] [] ++ [x]) s.staging }
  else
    let hit := s.injDet 0x05 q && s.rd V.INJ_TARGET [] % 64 == h.inPort
    let s := if hit then s.injFired.wr V.E2E_INJ [q] 1 else s
    let x : Held := { h with pkt := if hit then { k with e2e := k.e2e ^^^ 1#32 } else k, copies := [] }
    { s with svc := SMap.set [q, o] (SMap.get s.svc [q, o] [] ++ [x]) s.svc }

/-- A packet that leaves the core on a seam or for the management agent, counted where it is sent and where it is received (R540). -/
def State.countStream (s : State) (q o : Nat) (h : Held) (c : Copy) : State :=
  let p := pkPart h.pkt
  if o < 40 then s
  else if o < 43 then
    let q' := seamQuad q o
    let i := seamPort q' q
    let s := (s.countLocal q o 6 p 1).countLocal q o (64 + copyVc c) p (pkFlits h.pkt)
    (s.countLocal q' i 7 p 1).countLocal q' i (80 + copyVc c) p (pkFlits h.pkt)
  else if o = 47 then s.countLocal q 103 7 p 1
  else s

/-- A stream of output o on VC v starts for copy c of packet h: one cell is read a rotation from this cycle on, and frees as it is read (R313).  A header that leaves
on a seam or internal port is offered to the mirror sessions (R334). -/
def State.streamOut (s : State) (q o v : Nat) (h : Held) (c : Copy) : State :=
  let s := s.wr V.DEFICIT [q, o, v] (unsigned 64 (s.deficit q o v - (64 * pkFlits h.pkt : Nat)))
  let s := { s with bufs := SMap.set [q] (startCopy h c (s.rd V.CYCLE [q]) (SMap.get s.bufs [q] [])) s.bufs }
  let s := if o < 40 then s else s.mirror q o 1 h.pkt none (s.depth q o (clsIx (vcCls v))) (s.rd V.CYCLE [q] - c.release)
  (s.countStream q o h c).deliver q o h c

/-- True while a stream from bank b to output o is unfinished, so that the output reads its next cell in this cycle (R313). -/
def State.streaming (s : State) (q b o : Nat) : Bool :=
  (SMap.get s.bufs [q] []).any fun h => h.bank == b && h.copies.any fun c =>
    c.out == o && (h.reads c).any fun r => decide (s.rd V.CYCLE [q] ≤ r)

/-- EGRESS_STREAM_START: output o starts a stream from bank b, in a cycle in which stage 2 connects the two (R310) and no stream between them is unfinished. -/
def State.streamStart (s : State) (q o b : Nat) : State :=
  if (b + s.rd V.CYCLE [q]) % 48 ≠ o || s.streaming q b o then s
  else
    let s := s.roundEnd q o (s.eligibleVcs q o)
    match s.pickVc q o b with
    | none => s
    | some v =>
      match headOf (SMap.get s.bufs [q] []) b o v with
      | none => s
      | some (h, c) => s.streamOut q o v h c

/-- The end of a cycle in a quadrant's core: cells read in it are free from the next cycle on, their pools' credits return, packets read by their last copy leave, and the
queues' stops and F follow (R313, R318, R319). -/
def State.coreCycle (s : State) (q : Nat) : State :=
  let t := s.rd V.CYCLE [q]
  let l := SMap.get s.bufs [q] []
  let read := fun (h : Held) (c : Copy) => c.started != 0 && h.unread c t == 0
  let keep := (l.map fun h => { h with copies := h.copies.filter fun c => !read h c }).filter fun h => !h.copies.isEmpty
  let pools := ((l.filter fun h => h.copies.any fun c => (h.reads c).any fun r => decide (r + 1 = t)).map fun h => (h.inPort, pkVc h.pkt)).eraseDups
  let outs := ((l.flatMap fun h => h.copies.filter fun c => (h.reads c).any fun r => decide (r + 1 = t)).filter fun c => 40 ≤ c.out).map
    fun c => (c.out, clsIx (vcCls (copyVc c)))
  let s := if l.isEmpty then s else { s with bufs := if keep.isEmpty then SMap.erase [q] s.bufs else SMap.set [q] keep s.bufs }
  let s := pools.foldl (fun u iv => u.grant q iv.1 iv.2) s
  (outs.eraseDups.foldl (fun u oc => u.injUpdate q oc.1 oc.2) s).noteFree q

/-! ## On the wire (R107, R316, R324) -/

/-- Of released packets, the one that an external output sends next: earliest release, ties to the lower VC. -/
def nextReas : List Reas → Option Reas
  | [] => none
  | r :: rs =>
    match nextReas rs with
    | none => some r
    | some t => if t.release < r.release || (t.release == r.release && decide (t.dest.vc < r.dest.vc)) then some t else some r

/-- The packet that an external output would start now: the first of class M that has its credits, else the released packet in reassembly with
the earliest release time (R324). -/
def State.nextOut (s : State) (q o : Nat) : Option Reas :=
  match (SMap.get s.mitEgress [q, o] []).find? fun r => decide (credits r.pkt ≤ s.txAvail q o r.dest.vc) with
  | some r => some r
  | none => nextReas ((SMap.get s.reasm [q, o] []).filter fun r => decide (r.release ≤ s.rd V.CYCLE [q]))

/-- Residence in whole µs, rounded up: none for a packet of the module's own, at least 1 for one in transit. -/
def State.residence (s : State) (r : Reas) : Nat :=
  if r.origin = 2 then 0 else max 1 (ceilDiv (s.timeNs - r.arrive) 1000)

/-- AGE reaches the limit before the header starts (R108). -/
def State.aged (s : State) (r : Reas) : Bool :=
  decide (s.rd F.XPT_CTL_AGE_LIMIT [] ≤ pkAge r.pkt + ceilDiv (s.timeNs - r.arrive) 1000)

/-- The header rewrite of R316: VC, relay state, AGE, HCRC. -/
def State.rewrite (s : State) (r : Reas) : Packet :=
  pkSeal (pkSet (pkSet (pkSet (pkSet r.pkt 8 4 r.dest.vc) 40 2 r.dest.rstate) 42 5 r.dest.rplane) 80 16
    (min 0xFFFF (pkAge r.pkt + s.residence r)))

/-- The flit slots of a packet: n of them from slot f on, flit 0 of each frame left to its LCF (R345). -/
def slotsFrom : Nat → Nat → List Nat
  | 0, _ => []
  | n + 1, f => let g := if f % 65 = 0 then f + 1 else f; g :: slotsFrom n (g + 1)

/-- The first flit boundary of a port at or after this cycle, past the LCF of a frame (R314). -/
def State.slotNow (s : State) (q o : Nat) : Nat :=
  let n := s.rd V.TX_BASE [q, o] + ceilDiv ((s.rd V.LINK_CYC [q] - s.rd V.TX_TIME [q, o]) * (5 * s.portRate q o)) 4352
  if n % 65 = 0 then n + 1 else n

/-- True when no packet is on the port's wire. -/
def State.wireFree (s : State) (q o : Nat) : Bool := decide (s.rd V.TX_NEXT [q, o] ≤ s.slotNow q o)

/-- A packet's flits put into the port's frames, from the first free flit slot on. -/
def State.putFlits (s : State) (q o : Nat) (k : Packet) : State :=
  let n := s.slotNow q o
  let l := slotsFrom (pkFlits k) n
  ((((s.wr V.TX_NEXT [q, o] ((l.getLast?.getD n) + 1)).wr V.TX_FIRST [q, o] (l.headD n)).wr V.TX_PART [q, o] (pkPart k)).wr
    V.TX_RESEND [q, o] (pkResend k)).emit (.flits q o (l.headD n) (flitsOf k))

/-- A packet put on the wire: credits charged, counters, the egress sample. -/
def State.putWire (s : State) (q o : Nat) (k : Packet) (inPort admitted since release : Nat) (ingress : Packet) : State :=
  let p := pkPart k
  let now := s.rd V.CYCLE [q]
  let s := (s.bump V.LNK_SENT [q, o, pkVc k] (credits k)).putFlits q o k
  let s := (s.bump V.RTR_PKT_OUT [40 * q + o] 1).bump V.RTR_FLIT_OUT [40 * q + o] (pkFlits k)
  let s := (s.countLocal q o 6 p 1).countLocal q o (64 + pkVc k) p (pkFlits k)
  let s := (s.countLegacy 2 1).countLegacy 4 (pkFlits k)
  let s := s.mirror q o 1 k none (s.depth q o (clsIx (vcCls (pkVc k)))) (now - release)
  let s := s.samplePacket q p o (inPort + 64 * o) (pkSeq k) (ingress.hdr.toNat % 2 ^ 64) (now - admitted) (now - release) since
  s.emit (.wire q o k)

/-- A packet taken out of an output's reassembly or class M egress buffer. -/
def State.outTake (s : State) (q o : Nat) (r : Reas) : State :=
  let drop := fun (m : SMap (List Reas)) =>
    let l := (SMap.get m [q, o] []).erase r
    if l.isEmpty then SMap.erase [q, o] m else SMap.set [q, o] l m
  if vcCls r.dest.vc = .m then { s with mitEgress := drop s.mitEgress } else { s with reasm := drop s.reasm }

/-- The packet that would start has aged out: taken and discarded. -/
def State.ageOut (s : State) (q o : Nat) (r : Reas) : State :=
  ((s.outTake q o r).countDiscard q o (pkPart r.pkt) .age).injUpdate q o (clsIx (vcCls r.dest.vc))

/-- PACKET_RELEASE: on an UP link whose wire is free the next packet's header starts; an aged packet is never sent. -/
def State.packetRelease (s : State) (q o : Nat) : State :=
  if !s.linkUp q o || !s.wireFree q o then s
  else match s.nextOut q o with
    | none => s
    | some r =>
      if s.aged r then s.ageOut q o r
      else ((s.outTake q o r).putWire q o (s.rewrite r) r.inPort r.admitted r.since r.release r.pkt).injUpdate q o (clsIx (vcCls r.dest.vc))

/-- AGE_EXPIRY: the packet that output o would start next is discarded when it has aged out. -/
def State.ageExpiry (s : State) (q o : Nat) : State :=
  match s.nextOut q o with
  | none => s
  | some r => if s.aged r then s.ageOut q o r else s

/-- DEPTH_BROADCAST: a quadrant's uplink depths, to the other three (R325). -/
def State.depthBroadcast (s : State) (q : Nat) : State :=
  (List.range 4).foldl (fun t q' =>
    if q' = q then t
    else (List.range 4).foldl (fun t u =>
      (List.range 6).foldl (fun t c => t.wr V.UPDEPTH [q', 4 * q + u, c] (s.depth q (36 + u) c)) t) t) s

/-- LOW_CLR and PEAK_CLR. -/
def State.lowClr (s : State) (q : Nat) : State := s.wr F.COR_BUF_LOW [q] (s.freeShared q)
def State.peakClr (s : State) (q o c : Nat) : State := s.wr F.COR_QDEPTH_PEAK [q, o, c] (s.depth q o c)

/-! ## Port down (R331) -/

/-- Every copy of a packet of the module, wherever it is held, changed: its bytes and the cycles in which its cells are complete. -/
def State.mapPacket (s : State) (u : Nat) (f : Packet → Packet) (g : List Nat → List Nat) : State :=
  let held := fun (m : SMap (List Held)) =>
    m.map fun kv => (kv.1, kv.2.map fun h => if h.uid = u then { h with pkt := f h.pkt, ready := g h.ready } else h)
  let out := fun (m : SMap (List Reas)) => m.map fun kv => (kv.1, kv.2.map fun r => if r.uid = u then { r with pkt := f r.pkt } else r)
  { s with staging := held s.staging, bufs := held s.bufs, svc := held s.svc, reasm := out s.reasm }

/-- STOMP set in the packet that is being received on a port (R79). -/
def State.stompIngress (s : State) (q k : Nat) : State :=
  if s.rdb V.INGRESS_OPEN [q, k] then
    (s.wr V.INGRESS_OPEN [q, k] 0).mapPacket (s.rd V.INGRESS_UID [q, k]) (fun p => { p with stomp := true }) id
  else s

/-- A packet of which only n cells have come: every later byte reads as zero, and STOMP is set (R331). -/
def cutPacket (n : Nat) (k : Packet) : Packet :=
  let kept := 256 * n - 32
  { k with payload := k.payload.take kept ++ List.replicate (k.payload.length - kept) 0
           e2e := if n < pkCells k then 0 else k.e2e
           stomp := true }

/-- The cells of the packet that is being received on a port and has not come whole are filled with zeros, and STOMP is set in its trailer (R331). -/
def State.cutIngress (s : State) (q k : Nat) : State :=
  if s.rdb V.INGRESS_OPEN [q, k] then
    let t := s.rd V.CYCLE [q]
    let u := s.rd V.INGRESS_UID [q, k]
    let here := (SMap.get s.bufs [q] [] ++ SMap.get s.staging [q, k] []).find? fun h => h.uid == u
    let n := match here with
      | some h => (h.ready.filter fun c => decide (c ≤ t)).length
      | none => 9
    (s.wr V.INGRESS_OPEN [q, k] 0).mapPacket u
      (fun p => if n < pkCells p then cutPacket n p else p) fun r => r.map fun c => min c t
  else s

/-- A copy to a closed port: counted in FLUSHED, and what becomes of it: a copy that is relinked, or none when it is discarded. -/
def State.flushOne (s : State) (q k : Nat) (h : Held) (c : Copy) : State × Option Copy :=
  let s := s.bump F.COR_PORT_FLUSHED [q, k] 1
  if s.rd F.XPT_CTL_AGE_LIMIT [] ≤ pkAge h.pkt + ceilDiv (s.timeNs - h.arrive) 1000 then
    (s.countDiscard q k (pkPart h.pkt) .age, none)
  else match s.relinkCopy q h c with
    | some n => (s, some n)
    | none => (s.discard q k h.pkt .unreachable, none)

/-- A relinked copy joins the packet's copies in its bank, last in the order of linking; a packet that lies in no bank takes the bank it was in, or one
with room (R323, R331). -/
def State.relink (s : State) (q : Nat) (h : Held) (c : Copy) : State :=
  let n := s.linkNo q
  let x := { c with link := n }
  let l := SMap.get s.bufs [q] []
  let s := s.wr V.LINK_SEQ [q] (n + 1)
  let room := fun (b : Nat) => decide (s.bankUse q b + pkCells h.pkt ≤ 4096)
  let b := if room h.bank then h.bank else ((List.range 48).find? room).getD h.bank
  let l := if l.any fun y => y.uid == h.uid && y.inPort == h.inPort then
      l.map fun y => if y.uid = h.uid && y.inPort = h.inPort then { y with copies := y.copies ++ [x] } else y
    else l ++ [{ h with bank := b, copies := [x] }]
  ({ s with bufs := SMap.set [q] l s.bufs }).linked q c.out (clsIx (vcCls (pkVc h.pkt)))

/-- The packet of a reassembly buffer or a class M egress buffer as the core holds it. -/
def Reas.held (r : Reas) (t : Nat) : Held :=
  { pkt := r.pkt, inPort := r.inPort, origin := r.origin, hop := 0, arrive := r.arrive, admitted := r.admitted, since := r.since, bank := r.bank,
    copies := [], ready := List.replicate (pkCells r.pkt) t, uid := r.uid, sender := r.sender }

/-- A class M packet flushed off its egress buffer: relayed toward the buddy, or discarded (R331, R450). -/
def State.flushMit (s : State) (q k : Nat) (r : Reas) : State :=
  let s := s.bump F.COR_PORT_FLUSHED [q, k] 1
  if s.aged r then s.countDiscard q k (pkPart r.pkt) .age
  else match s.relinkDest (r.held 0) r.dest with
    | some d => if s.seamOk q d.quad then s.mitPut r.pkt r.origin r.inPort r.sender d else s.discard q k r.pkt .unreachable
    | none => s.discard q k r.pkt .unreachable

/-- The packets with a copy bound for a port and not yet on its wire, in the order of their links: those that wait in a bank, and those in reassembly. -/
def State.flushList (s : State) (q k : Nat) : List (Held × Copy) :=
  ((SMap.get s.reasm [q, k] []).map fun r =>
      (r.held (s.rd V.CYCLE [q]), { out := k, dests := [r.dest], release := r.release, cmark := pkCmark r.pkt == 1 : Copy }))
    ++ (SMap.get s.bufs [q] []).flatMap fun h => (h.copies.filter fun c => c.out == k && c.started == 0).map fun c => (h, c)

/-- PORT_FLUSH: port k has gone down; the credits of the cells that the flush frees are returned. -/
def State.portFlush (s : State) (q k : Nat) : State :=
  let s := ((s.wr F.COR_PORT_OPEN [q, k] 0).wr F.COR_PORT_FLUSHING [q, k] 1).cutIngress q k
  let all := s.flushList q k
  let ms := SMap.get s.mitEgress [q, k] []
  let keep := ((SMap.get s.bufs [q] []).map fun h => { h with copies := h.copies.filter fun c => c.out != k }).filter fun h => !h.copies.isEmpty
  let s := { s with reasm := SMap.erase [q, k] s.reasm, mitEgress := SMap.erase [q, k] s.mitEgress
                    bufs := if keep.isEmpty then SMap.erase [q] s.bufs else SMap.set [q] keep s.bufs }
  let s := all.foldl (fun t hc =>
    match t.flushOne q k hc.1 hc.2 with
    | (t, some n) => t.relink q hc.1 n
    | (t, none) => t) s
  let s := ms.foldl (fun t r => t.flushMit q k r) s
  let s := (((all.map fun hc => (hc.1.inPort, pkVc hc.1.pkt)).eraseDups).filter fun iv => iv.1 != k).foldl
    (fun t iv => t.grant q iv.1 iv.2) s
  (List.range 6).foldl (fun t c => t.injUpdate q k c) s

/-- RESTORE_NOTICE: what a downlink that opens is told (R305): RESTORE when it had been withdrawn and the plane is not (R19), and the stamp bank of
its owner. -/
def State.openNotices (s : State) (q k : Nat) : State :=
  if 36 ≤ k then s
  else
    let n := 36 * q + k
    let s := if s.rdb V.WITHDRAWN [q, k] && !s.rdb V.PLANE_WITHDRAWN [] then
        (s.wr V.WITHDRAWN [q, k] 0).notice 3 0 (s.rd V.WITHDRAW_REASON [q, k]) [n]
      else s
    s.notice 5 (s.stamp (s.img.downOwner n)) 0 [n]

/-- The core port of an UP link opens; none opens while NOTICE_EN is 0 (R308). -/
def State.portOpen (s : State) (q k : Nat) : State :=
  if s.rdb F.MIT_CTL_NOTICE_EN [] then (s.wr F.COR_PORT_OPEN [q, k] 1).openNotices q k else s

/-- FLUSH_END: the flush ends; a port that came up again meanwhile opens. -/
def State.flushEnd (s : State) (q k : Nat) : State :=
  if s.rdb F.COR_PORT_FLUSHING [q, k] then
    let s := s.wr F.COR_PORT_FLUSHING [q, k] 0
    if s.linkUp q k then s.portOpen q k else s
  else s

/-- NOTICE_EN_WRITE: 0 is ignored unless every external port is closed; with 1 the ports that came up meanwhile open (R308). -/
def State.noticeEnWrite (s : State) (v : Nat) : State :=
  if v = 0 && !s.allClosed then s
  else
    let s := s.wr F.MIT_CTL_NOTICE_EN [] v
    if v = 0 then s
    else (List.range 160).foldl (fun t i =>
      let q := i / 40
      let k := i % 40
      if t.linkUp q k && !t.rdb F.COR_PORT_OPEN [q, k] && !t.rdb F.COR_PORT_FLUSHING [q, k] then t.portOpen q k else t) s

/-- Packets of a partition stamped with a bank that the Zarfer holds: in staging, banks, reassembly, class M egress, at its services, in the parking queues and in
the wait lists; the copies of one packet count once (R101, R119). -/
def State.inflight (s : State) (p bank : Nat) : Nat :=
  let has := fun (k : Packet) => pkPart k == p && pkEpoch k == bank
  let held := fun (m : SMap (List Held)) => m.flatMap fun kv => (kv.2.filter fun h => has h.pkt).map fun h => h.uid
  let out := fun (m : SMap (List Reas)) => m.flatMap fun kv => (kv.2.filter fun r => has r.pkt).map fun r => r.uid
  let waiting := s.waits.flatMap fun kv => (kv.2.filterMap fun w =>
    match w.what with
    | .contrib k _ => some k
    | .packet k => some k
    | _ => none).eraseDups
  (held s.staging ++ held s.bufs ++ held s.svc ++ out s.reasm ++ out s.mitEgress).eraseDups.length
    + ((s.parkQ.map fun kv => (kv.2.filter fun r => has r.pkt).length).foldl (· + ·) 0) + (waiting.filter has).length

/-- KEGUS_TEST_WRITE: LDG_KTEST_OUT recomputed from its inputs after a write of register r (0 SEED, 1 IN, 2 POS). -/
def State.kegusTestWrite (s : State) (r v : Nat) : State :=
  let s := match r with
    | 0 => s.wr F.LDG_KTEST_SEED_SEED [] v
    | 1 => (s.wr F.LDG_KTEST_IN_STEP [] (bitsOf v 0 32)).wr F.LDG_KTEST_IN_COLL [] (bitsOf v 32 16)
    | _ => (s.wr F.LDG_KTEST_POS_CHUNK [] (bitsOf v 0 24)).wr F.LDG_KTEST_POS_ELEM [] (bitsOf v 24 9)
  s.wr F.LDG_KTEST_OUT_NOISE [] (kegus (s.rd F.LDG_KTEST_SEED_SEED []) (s.rd F.LDG_KTEST_IN_STEP [])
    (s.rd F.LDG_KTEST_IN_COLL []) (s.rd F.LDG_KTEST_POS_CHUNK []) (s.rd F.LDG_KTEST_POS_ELEM []))

end Sys2Proof.Machine
end

