-- ==== Sys2Proof/Machine/Link.lean ====
section
/-! DEFINITION. The Woyth links: states and training, credits, quiet, degrade and retrain, and the seams
(R339 to R365 of spec/11_woyth_link.md, R19 of spec/01_module_anatomy.md, R560 of
spec/19_observability_and_errors.md). -/

namespace Sys2Proof.Machine

/-! ## Permission to inject (R560) -/

/-- True while some tenant Brim entry is valid. -/
def Images.anyTenant (v : Images) : Bool := (List.range 32).any fun p => p != 0 && v.brimValid p

/-- True when a GO of an injection is permitted: its target's partition, and whether its response is of module or fatal
severity. -/
def State.injAllowed (s : State) (recordOnly : Bool) (p : Nat) (severe : Bool) : Bool :=
  let l := s.rd F.DBG_LEVEL_LEVEL []
  s.rdb F.ERR_INJ_CTL_EN [] && !s.rdb F.ERR_INJ_STAT_ARMED [] &&
    (recordOnly ||
      ((p == 0 || l == 3 || (l == 2 && s.rd F.DBG_LEVEL_PART [] == p)) && (!severe || l == 3 || !s.img.anyTenant)))

/-- A refused GO. -/
def State.injRefused (s : State) : State := s.raise F.ERR_INJ_STAT_REFUSED []

/-- An injection armed: 1 ERR_INJ, 2 LNK_INJ, 3 HBM_INJ, 4 TRY_INJ. -/
def State.injArm (s : State) (kind det quad part target : Nat) : State :=
  (((((s.wr V.INJ_KIND [] kind).wr V.INJ_DET [] det).wr V.INJ_QUAD [] quad).wr V.INJ_PART [] part).wr V.INJ_TARGET [] target).wr
    F.ERR_INJ_STAT_ARMED [] 1

/-! ## The port's configuration and records -/

/-- The 8-byte PORT entry of a port (R363). -/
def State.portCfg (s : State) (q k : Nat) : Nat := s.img.le 0x01 q 0 (64 + 8 * k) 8
def State.x2En (s : State) (q k : Nat) : Bool := bitOf (s.portCfg q k) 5
def State.quietEn (s : State) (q k : Nat) : Bool := bitOf (s.portCfg q k) 6

/-- True when an attempt's rate lies in the port's range: attempts 0, 1, 2 run at rates 0, 1, 2. -/
def State.rateOk (s : State) (q k r : Nat) : Bool :=
  decide (bitsOf (s.portCfg q k) 1 2 ≤ r) && decide (r ≤ bitsOf (s.portCfg q k) 3 2)

/-- True when the cartridge that gates the port is present, or none does. -/
def State.cartThere (s : State) (q k : Nat) : Bool :=
  let c := bitsOf (s.portCfg q k) 32 4
  decide (8 ≤ c) || s.rdb F.TRY_CART_PRESENT [c]

def State.lnkState (s : State) (q k : Nat) : Nat := s.rd F.LNK_PORT_STAT_STATE [q, k]
def State.setLnk (s : State) (q k st : Nat) : State := s.wr F.LNK_PORT_STAT_STATE [q, k] st

/-- LNK_PORT_STAT as a number: the INFO of link records. -/
def State.portStat (s : State) (q k : Nat) : Nat :=
  s.rd F.LNK_PORT_STAT_STATE [q, k] + s.rd F.LNK_PORT_STAT_RATE [q, k] * 2 ^ 3 + s.rd F.LNK_PORT_STAT_LANES [q, k] * 2 ^ 5
    + s.rd F.LNK_PORT_STAT_RX_BAD [q, k] * 2 ^ 9 + s.rd F.LNK_PORT_STAT_DOWN_CAUSE [q, k] * 2 ^ 13
    + s.rd F.LNK_PORT_STAT_PEER_RX_OK [q, k] * 2 ^ 17 + s.rd F.LNK_PORT_STAT_RETRAINS [q, k] * 2 ^ 32
    + s.rd F.LNK_PORT_STAT_DEGRADES [q, k] * 2 ^ 48

/-- The owner of a port's link. -/
def State.portPart (s : State) (q k : Nat) : Nat := if k < 36 then s.img.downOwner (36 * q + k) else 0

/-- A link record (R362). -/
def State.lnkRecord (s : State) (q k det sev cause : Nat) (inj : Bool) : State :=
  s.err { det := det, sev := sev, part := s.portPart q k, quad := q, unit := k, cause := cause, info := s.portStat q k,
          inj := inj }

/-! ## Moves between states (R353, R355, R361) -/

/-- RX_BAD of the port and the U of R360 in LNK_PORT_STAT, and BAD of its lanes. -/
def State.setBad (s : State) (q k own : Nat) : State :=
  let s := (s.wr V.LNK_OWN_BAD [q, k] own).wr F.LNK_PORT_STAT_RX_BAD [q, k] (own ||| s.rd V.LNK_PEER_BAD [q, k])
  (List.range 4).foldl (fun t j => t.wr F.LNK_LANE_BAD [q, 4 * k + j] (b2n (bitOf own j))) s

/-- An LCF of a port that stands in flit slot n (R346).  HDR_OFF names the first flit after a packet in progress. -/
def State.lcfOf (s : State) (q k n : Nat) : Nat :=
  let cmd := s.rd V.LCF_CMD [q, k]
  let c := s.rd V.LNK_COUNTDOWN [q, k]
  let ctdn := if c = 0 then 0 else max 1 (c - 1)
  let ok := decide (64 ≤ s.rd V.RX_CW_RUN [q, k]) && decide (4 ≤ s.rd V.RX_LCF_RUN [q, k])
  let l := 0x0FF033CCA55AF00F + n / 65 % 2 ^ 16 * 2 ^ 64 + (let h := s.rd V.TX_NEXT [q, k] - n; if 1 ≤ h ∧ h ≤ 33 then h else 1) * 2 ^ 80
    + s.rd F.LNK_PORT_STAT_STATE [q, k] * 2 ^ 88 + b2n ok * 2 ^ 91 + s.rd V.LNK_OWN_BAD [q, k] * 2 ^ 92
    + (if ctdn = 0 then s.rd F.LNK_PORT_STAT_LANES [q, k] else s.rd V.LNK_KEEP [q, k]) * 2 ^ 96 + ctdn * 2 ^ 100 + cmd * 2 ^ 104
    + (List.range 16).foldl (fun a v => a + s.rd V.LNK_LIMIT [q, k, v] * 2 ^ (128 + 16 * v)) 0
  l + crc32c (leBytes 60 l) * 2 ^ 480

/-- A frame of a port begins: its LCF stands in flit 0, and a countdown goes on: V.LNK_COUNTDOWN is 1 more than the frames still to be announced (R345, R346,
R360).  A port in QUIET sends two more frames (R357). -/
def State.frameBegin (s : State) (q k n : Nat) : State :=
  let s := (s.emit (.flits q k n [BitVec.ofNat 512 (s.lcfOf q k n)])).wr V.LCF_CMD [q, k] 0
  let s := if s.rdb V.QUIET_FRAMES [q, k] then s.wr V.QUIET_FRAMES [q, k] (s.rd V.QUIET_FRAMES [q, k] - 1) else s
  if 1 < s.rd V.LNK_COUNTDOWN [q, k] then s.wr V.LNK_COUNTDOWN [q, k] (s.rd V.LNK_COUNTDOWN [q, k] - 1) else s

/-- A command for the port's next LCF: CMD, ARG and SENT. -/
def State.lcfSend (s : State) (q k cmd arg sent : Nat) : State :=
  (s.wr V.LCF_CMD [q, k] (cmd + arg * 2 ^ 4 + sent * 2 ^ 8)).emit (.lcf q k cmd arg sent)

/-- The port's frames begin anew in this cycle, on the lanes and at the rate that it now has. -/
def State.framesBegin (s : State) (q k : Nat) : State :=
  let n := 65 * ceilDiv (max (s.slotNow q k - 1) (s.rd V.TX_NEXT [q, k])) 65
  (((s.wr V.TX_TIME [q, k] (s.rd V.LINK_CYC [q])).wr V.TX_BASE [q, k] n).wr V.TX_NEXT [q, k] n).frameBegin q k n

/-- Codeword and frame lock lost: the receiver waits for a first codeword, and counts anew toward RX_OK (R353). -/
def State.rxBegin (s : State) (q k : Nat) : State :=
  [V.RX_CW, V.RX_LEFT, V.RX_LCF_BAD, V.RX_CW_RUN, V.RX_LCF_RUN, V.RX_OK_RUN, V.LNK_LOST_BOUND].foldl (fun t f => t.wr f [q, k] 0) s

/-- True while the port's lanes carry frames; nothing is sent in a slot whose rate lies outside the port's range (R353). -/
def State.framed (s : State) (q k : Nat) : Bool :=
  let st := s.lnkState q k
  (st == 3 && s.rateOk q k (s.rd V.LNK_ATTEMPT [q, k])) || st == 4 || (st == 5 && s.rdb V.QUIET_FRAMES [q, k])
    || (st == 6 && s.rdb V.LNK_PRBS [q, k])

/-- The port's frames begin, where it may send in its state. -/
def State.framesStart (s : State) (q k : Nat) : State := if s.framed q k then s.framesBegin q k else s

/-- The flit slot of a port that has begun by cycle t. -/
def State.slotAt (s : State) (q k t : Nat) : Nat :=
  s.rd V.TX_BASE [q, k] + (t - s.rd V.TX_TIME [q, k]) * (5 * s.portRate q k) / 4352

/-- The frames of quadrant q's ports that begin in this cycle (R345). -/
def State.frameClock (s : State) (q : Nat) : State :=
  (List.range 40).foldl (fun t k =>
    let c := t.rd V.LINK_CYC [q]
    if t.framed q k && decide (t.rd V.TX_TIME [q, k] < c) && decide (t.slotAt q k (c - 1) / 65 < t.slotAt q k c / 65) then
      t.frameBegin q k (t.slotAt q k c / 65 * 65)
    else t) s

/-- Entry to DOWN with a cause; the core flushes the port. -/
def State.linkDown (s : State) (q k cause : Nat) : State :=
  let was := s.lnkState q k
  if was = 0 then s
  else
    let s := ((s.setLnk q k 0).wr F.LNK_PORT_STAT_DOWN_CAUSE [q, k] cause).wr F.LNK_PORT_STAT_PEER_RX_OK [q, k] 0
    let s := if was = 4 || was = 5 || was = 6 then s.lnkRecord q k 1 1 cause false else s
    let s := ((s.wr F.LNK_PORT_STAT_LANES [q, k] 0).wr V.LNK_COUNTDOWN [q, k] 0).wr V.LNK_QUIET_REQ [q, k] 0
    let s := (s.rxBegin q k).wr V.LNK_P2 [q, k] 0
    if was = 4 || was = 5 || was = 6 || s.rdb F.COR_PORT_OPEN [q, k] then s.portFlush q k else s

/-- Entry to RETRAIN; the third within 1 s is DOWN, cause FLAP. -/
def State.linkRetrain (s : State) (q k cause : Nat) (inj : Bool) : State :=
  if s.lnkState q k = 4 || s.lnkState q k = 5 then
    let now := s.timeNs + 1
    let two := s.rd V.LNK_RETRAIN2 [q, k]
    let s := (s.bump F.LNK_PORT_STAT_RETRAINS [q, k] 1).countLegacy 7 1
    let s := (s.wr V.LNK_RETRAIN2 [q, k] (s.rd V.LNK_RETRAIN1 [q, k])).wr V.LNK_RETRAIN1 [q, k] now
    let s := (s.cutIngress q k).rxBegin q k
    let s := ((s.setLnk q k 6).wr V.LNK_COUNTDOWN [q, k] 0).wr V.LNK_QUIET_REQ [q, k] 0
    let s := ((s.wr F.LNK_PORT_STAT_LANES [q, k] 15).wr V.LNK_SLOT [q, k] 0).wr V.UCW_COUNT [q, k] 0
    let s := ((s.wr V.LNK_PEER_BAD [q, k] 0).setBad q k 0).wr V.LNK_PRBS [q, k] 0
    let s := s.lcfSend q k 4 0 0
    let s := s.lnkRecord q k (if cause = 2 then 2 else 1) 0 cause inj
    if two ≠ 0 && now - two < 10 ^ 9 then s.linkDown q k 5 else s
  else s

/-- TRAIN with an attempt. -/
def State.linkTrain (s : State) (q k a : Nat) : State :=
  let s := ((s.setLnk q k 2).wr V.LNK_ATTEMPT [q, k] a).wr F.LNK_PORT_STAT_RATE [q, k] a
  let s := ((s.wr F.LNK_PORT_STAT_LANES [q, k] 15).wr V.LNK_SLOT [q, k] 0).wr F.LNK_PORT_STAT_PEER_RX_OK [q, k] 0
  let s := ((s.wr V.LNK_PEER_BAD [q, k] 0).setBad q k 0).rxBegin q k
  (List.range 4).foldl (fun t j => t.wr F.LNK_LANE_CTLE [q, 4 * k + j] (bitsOf (t.portCfg q k) 8 6)) s

/-- LINK_DOWN_HOLD_END. -/
def State.downHoldEnd (s : State) (q k : Nat) : State :=
  if s.lnkState q k = 0 && s.portPresent q k && s.rdb F.LNK_PORT_CTL_EN [q, k] && s.cartThere q k
      && decide (s.rd F.HAT_PSTATE_STATE [] < 3) && s.rd F.HAT_BOOT_STEP [] == 11 && !s.rdb V.QRESET [q]
      && !s.rdb V.WAKE_CLOSED [] then
    (s.setLnk q k 1).wr F.LNK_PORT_STAT_LANES [q, k] 15
  else s

/-- LINK_SIGNAL_DETECT: lanes is the set of lanes on which signal has been seen long enough. -/
def State.signalDetect (s : State) (q k lanes : Nat) : State :=
  if s.lnkState q k = 1 && (lanes % 16 == 15 || (s.x2En q k && bitOf lanes 0 && lanes % 16 != 1)) then s.linkTrain q k 0
  else s

/-- What a port's receiver found on its four lanes: polarity, and peaking where ADAPT is 1 (free values). -/
def State.trainLanes (s : State) (q k : Nat) : State :=
  (List.range 4).foldl (fun t j =>
    let n := t.free
    let t := t.freshen.wr F.LNK_LANE_POL [q, 4 * k + j] (Config.free n 0 % 2)
    if bitOf (t.portCfg q k) 7 then t.wr F.LNK_LANE_CTLE [q, 4 * k + j] (Config.free n 1 % 37) else t) s

/-- LINK_TRAIN_END. -/
def State.trainEnd (s : State) (q k : Nat) : State :=
  if s.lnkState q k = 2 then ((s.trainLanes q k).setLnk q k 3).framesStart q k else s

/-- The lanes of an ALIGN slot (R354). -/
def slotLanes (n : Nat) : Nat := if n = 0 then 15 else 1 + 2 ^ n

/-- Entry to UP from ALIGN: counters of R349 back to zero, 36 credits granted on every VC (R350), and the core told. -/
def State.enterUp (s : State) (q k : Nat) : State :=
  let l := slotLanes (s.rd V.LNK_SLOT [q, k])
  let s := (s.setLnk q k 4).wr F.LNK_PORT_STAT_LANES [q, k] l
  let s := if l = 15 then s else s.setBad q k (15 - l)
  let s := (List.range 16).foldl (fun t v =>
    (((t.wr V.LNK_SENT [q, k, v] 0).wr V.LNK_RCVD [q, k, v] 0).wr V.LNK_LIMIT [q, k, v] 36).wr V.LNK_PEER_LIMIT [q, k, v] 0) s
  if s.rdb F.COR_PORT_FLUSHING [q, k] || s.rdb F.COR_PORT_OPEN [q, k] then s else s.portOpen q k

/-- RETRAIN_PRBS_END: the port in RETRAIN goes over to frames and aligns at the rate it has. -/
def State.retrainPrbsEnd (s : State) (q k : Nat) : State := if s.lnkState q k = 6 then (s.wr V.LNK_PRBS [q, k] 1).framesBegin q k else s

/-- RX_OK holds locally: 64 codewords in a row decoded and four valid LCFs in a row received; and the peer's has been seen in four in a row (R353). -/
def State.rxOk (s : State) (q k : Nat) : Bool :=
  decide (64 ≤ s.rd V.RX_CW_RUN [q, k]) && decide (4 ≤ s.rd V.RX_LCF_RUN [q, k]) && decide (4 ≤ s.rd V.RX_OK_RUN [q, k])

/-- LINK_ALIGN_DONE. -/
def State.alignDone (s : State) (q k : Nat) : State :=
  if !s.rxOk q k then s
  else if s.lnkState q k = 6 then (if s.rdb V.LNK_PRBS [q, k] then s.enterUp q k else s)
  else if s.lnkState q k = 3 && s.rateOk q k (s.rd V.LNK_ATTEMPT [q, k]) then s.enterUp q k
  else s

/-- LINK_ATTEMPT_TIMEOUT. -/
def State.attemptTimeout (s : State) (q k : Nat) : State :=
  if s.lnkState q k = 3 then
    let a := s.rd V.LNK_ATTEMPT [q, k]
    if a < 2 then s.linkTrain q k (a + 1) else s.linkDown q k 4
  else s

/-- LINK_X2_SLOT_END. -/
def State.x2SlotEnd (s : State) (q k : Nat) : State :=
  if s.lnkState q k = 3 && s.x2En q k && decide (s.rd V.LNK_SLOT [q, k] < 3) then
    let n := s.rd V.LNK_SLOT [q, k] + 1
    (((s.wr V.LNK_SLOT [q, k] n).wr F.LNK_PORT_STAT_LANES [q, k] (slotLanes n)).rxBegin q k).framesStart q k
  else s

/-- LINK_RETRAIN_TIMEOUT. -/
def State.retrainTimeout (s : State) (q k : Nat) : State :=
  if s.lnkState q k = 6 then (s.setLnk q k 1).wr F.LNK_PORT_STAT_PEER_RX_OK [q, k] 0 else s

/-! ## Degrade (R360, R361) -/

/-- What the union U calls for: nothing, a countdown toward a lane pair, or a retrain. -/
def State.uCheck (s : State) (q k : Nat) (inj : Bool) : State :=
  let u := s.rd F.LNK_PORT_STAT_RX_BAD [q, k]
  let lanes := s.rd F.LNK_PORT_STAT_LANES [q, k]
  if s.lnkState q k ≠ 4 then s
  else if lanes = 15 then
    if u = 0 then s
    else if bitOf u 0 || u / 2 % 8 == 7 || !s.x2En q k then s.linkRetrain q k 3 inj
    else
      let j := if !bitOf u 1 then 1 else if !bitOf u 2 then 2 else 3
      let keep := 1 + 2 ^ j
      if s.rdb V.LNK_COUNTDOWN [q, k] && s.rd V.LNK_CTDN_U [q, k] == u then s
      else ((s.wr V.LNK_COUNTDOWN [q, k] 5).wr V.LNK_KEEP [q, k] keep).wr V.LNK_CTDN_U [q, k] u
  else if u &&& lanes != 0 then s.linkRetrain q k 3 inj
  else s

/-- The port's own BAD lanes with those whose window count passes LANE_THR. -/
def State.lanesBad (s : State) (q k : Nat) : Nat :=
  (List.range 4).foldl (fun n j => if s.rd F.LNK_THR_LANE_THR [q] < s.rd V.LNK_LANE_COUNT [q, 4 * k + j] then setBit n j else n)
    (s.rd V.LNK_OWN_BAD [q, k])

/-- The window counts shown in CORR_LAST and started again. -/
def State.lanesRead (s : State) (q k : Nat) : State :=
  (List.range 4).foldl (fun t j =>
    (t.wr F.LNK_LANE_CORR_LAST [q, 4 * k + j] (t.rd V.LNK_LANE_COUNT [q, 4 * k + j])).wr V.LNK_LANE_COUNT [q, 4 * k + j] 0) s

/-- LANE_ERROR_WINDOW: a 1 ms window of a port's receiver ends. -/
def State.laneWindow (s : State) (q k : Nat) : State :=
  let bad := s.lanesBad q k
  let s := s.lanesRead q k
  let inj := s.injLink q k 1
  let s := if inj then s.injFired else s
  (s.setBad q k bad).uCheck q k inj

/-- DEGRADE_SWITCH: the countdown ends, the port's own once four LCFs have announced it, or the peer's. -/
def State.degradeSwitch (s : State) (q k : Nat) : State :=
  if s.lnkState q k = 4 && s.rd V.LNK_COUNTDOWN [q, k] = 1 then
    let s := ((s.wr F.LNK_PORT_STAT_LANES [q, k] (s.rd V.LNK_KEEP [q, k])).wr V.LNK_COUNTDOWN [q, k] 0).framesBegin q k
    (s.bump F.LNK_PORT_STAT_DEGRADES [q, k] 1).lnkRecord q k 1 0 0 false
  else if s.lnkState q k = 4 && s.rdb V.LNK_PEER_CTDN [q, k] && s.rd V.LNK_PEER_LANES [q, k] != s.rd F.LNK_PORT_STAT_LANES [q, k] then
    let s := ((s.wr F.LNK_PORT_STAT_LANES [q, k] (s.rd V.LNK_PEER_LANES [q, k])).wr V.LNK_PEER_CTDN [q, k] 0).framesBegin q k
    (s.bump F.LNK_PORT_STAT_DEGRADES [q, k] 1).lnkRecord q k 1 0 0 false
  else s

/-- UCW_WINDOW, LCF_LOSS, RETRAIN and LINK_RETRAIN_WRITE: the conditions of R361.  UCW_WINDOW ends a 1 ms window. -/
def State.ucwWindow (s : State) (q k : Nat) : State :=
  let n := s.rd V.UCW_COUNT [q, k]
  let s := s.wr V.UCW_COUNT [q, k] 0
  if s.rd F.LNK_THR_UCW_THR [q] < n then s.linkRetrain q k 1 false else s
def State.lcfLoss (s : State) (q k : Nat) : State := if s.lnkState q k = 4 then s.linkRetrain q k 2 false else s
def State.peerRetrain (s : State) (q k : Nat) : State := s.linkRetrain q k 4 false
def State.retrainWrite (s : State) (q k v : Nat) : State := if bitOf v 1 then s.linkRetrain q k 5 false else s

/-- EN cleared by the module. -/
def State.enDrop (s : State) (q k : Nat) : State := (s.hwWr F.LNK_PORT_CTL_EN [q, k] 0).linkDown q k 1

/-- LINK_EN_WRITE: bit 0 is EN. -/
def State.enWrite (s : State) (q k v : Nat) : State :=
  let s := s.hostWr F.LNK_PORT_CTL_EN [q, k] (v % 2)
  if v % 2 = 0 then s.linkDown q k 1 else s

/-! ## Link control flits (R346, R351) -/

/-- An LCF is valid: its sync and its CRC. -/
def lcfOk (l : Nat) : Bool := l % 2 ^ 64 == 0x0FF033CCA55AF00F && bitsOf l 480 32 == crc32c (leBytes 60 l)

/-- The sixteen LIMITs of an LCF. -/
def State.peerLimits (s : State) (q k l : Nat) : State :=
  (List.range 16).foldl (fun t v => t.wr V.LNK_PEER_LIMIT [q, k, v] (bitsOf l (128 + 16 * v) 16)) s

/-- The packet boundaries are found again: HDR_OFF names the first flit of the frame on one; n packet flits of the frame have gone by (R347). -/
def State.regain (s : State) (q k n l : Nat) : State :=
  if s.rdb V.LNK_LOST_BOUND [q, k] then (s.wr V.LNK_LOST_BOUND [q, k] 0).wr V.RX_LEFT [q, k] (bitsOf l 80 6 - 1 - n) else s

/-- One more in a row, up to a bound, or none. -/
def State.runOf (s : State) (f : Fld) (q k bound : Nat) (more : Bool) : State :=
  s.wr f [q, k] (if more then min bound (s.rd f [q, k] + 1) else 0)

/-- LCF_RECEIVE.  An LCF whose codeword did not decode is not valid. -/
def State.lcfReceive (s : State) (q k l : Nat) : State :=
  let st := s.lnkState q k
  if st = 0 || st = 1 || st = 2 || st = 5 then s
  else if s.injLink q k 3 then (s.injFired).lnkRecord q k 2 0 0 true
  else
    let ok := lcfOk l && !s.rdb V.RX_LCF_BAD [q, k]
    let s := (s.wr V.RX_LCF_BAD [q, k] 0).runOf V.RX_LCF_RUN q k 4 ok
    let s := s.runOf V.RX_OK_RUN q k 4 (ok && bitOf l 91)
    if !ok then s.bump F.LNK_PORT_ERR_LCF_BAD [q, k] 1
    else
      let s := (s.wr V.LNK_PEER_STATE [q, k] (bitsOf l 88 3)).wr F.LNK_PORT_STAT_PEER_RX_OK [q, k] (bitsOf l 91 1)
      let s := ((s.wr V.LNK_PEER_BAD [q, k] (bitsOf l 92 4)).wr V.LNK_PEER_LANES [q, k] (bitsOf l 96 4)).wr V.LNK_PEER_CTDN [q, k]
        (bitsOf l 100 3)
      let s := s.regain q k (5 * s.rd V.RX_CW [q, k] - 1) l
      let s := if st = 4 then s.peerLimits q k l else s
      (s.setBad q k (s.rd V.LNK_OWN_BAD [q, k])).uCheck q k false

/-- SYNC_REQ: a valid LCF carries the sender's SENT of a VC. -/
def State.syncReq (s : State) (q k v sent : Nat) : State :=
  let d := (sent % 65536 + 65536 - s.rd V.LNK_RCVD [q, k, v]) % 65536
  if s.lnkState q k = 4 && 1 ≤ d && d ≤ 32767 then
    let s := (s.bump V.LNK_RCVD [q, k, v] d).bump V.LNK_LIMIT [q, k, v] d
    ((s.bump F.LNK_PORT_ERR_SYNCS [q, k] 1).countLegacy 8 1).lnkRecord q k 3 0 v false
  else s

/-- True when the head packet of a VC of an output waits for credits: LNK_CRED.STARVED. -/
def State.starved (s : State) (q k v : Nat) : Bool :=
  let av := s.txAvail q k v
  let l := SMap.get s.bufs [q] []
  s.linkUp q k &&
    (((SMap.get s.mitEgress [q, k] []).find? fun r => r.dest.vc == v).any (fun r => decide (av < credits r.pkt))
      || ((l.map fun h => h.bank).eraseDups.any fun b => (headOf l b k v).any fun x => decide (av < credits x.1.pkt)))

/-- CREDIT_STARVE: SYNC_REQ in the next LCF. -/
def State.creditStarve (s : State) (q k v : Nat) : State :=
  if s.starved q k v then s.lcfSend q k 1 v (s.rd V.LNK_SENT [q, k, v]) else s

/-- True when a port has nothing to send and receives no packet. -/
def State.portIdle (s : State) (q k : Nat) : Bool :=
  (SMap.get s.mitEgress [q, k] []).isEmpty && (SMap.get s.reasm [q, k] []).isEmpty && s.wireFree q k &&
    !((SMap.get s.bufs [q] []).any fun h => h.copies.any fun c => c.out == k && c.started == 0) && !s.rdb V.INGRESS_OPEN [q, k]

/-- True when a port has sent nothing but idle flits for QUIET_IDLE. -/
def State.sentIdle (s : State) (q k : Nat) : Bool :=
  decide (s.rd F.LNK_TIMERS_QUIET_IDLE [q] * 1000 * s.portRate q k ≤ (s.slotNow q k - s.rd V.TX_NEXT [q, k]) * 544)

/-- The port enters QUIET after the answer: it sends two more frames, and its transmitters stop (R357). -/
def State.goQuiet (s : State) (q k : Nat) : State := ((s.setLnk q k 5).wr V.LNK_QUIET_REQ [q, k] 0).wr V.QUIET_FRAMES [q, k] 2

/-- QUIET received: a port with something to send ignores it and cancels its own request, and one whose own QUIET crosses it takes it as the answer; any
other answers when it has been idle for QUIET_IDLE (R357). -/
def State.quietReq (s : State) (q k : Nat) : State :=
  if s.lnkState q k ≠ 4 then s
  else if !s.portIdle q k then s.wr V.LNK_QUIET_REQ [q, k] 0
  else if s.rdb V.LNK_QUIET_REQ [q, k] then s.goQuiet q k
  else if s.sentIdle q k then ((s.lcfSend q k 3 0 0).goQuiet q k).wr V.QUIET_FRAMES [q, k] 3
  else s

/-- QUIET_ACK received; a request is cancelled where the port has become ready to send. -/
def State.quietAck (s : State) (q k : Nat) : State :=
  if s.lnkState q k = 4 && s.rdb V.LNK_QUIET_REQ [q, k] then
    let s := s.wr V.LNK_QUIET_REQ [q, k] 0
    if s.portIdle q k then s.goQuiet q k else s
  else s

/-- QUIET_IDLE_EXPIRY. -/
def State.quietIdle (s : State) (q k : Nat) : State :=
  if s.lnkState q k = 4 && s.quietEn q k && s.portIdle q k then (s.lcfSend q k 2 0 0).wr V.LNK_QUIET_REQ [q, k] 1
  else s

/-- A port in QUIET wakes: its frames begin anew. -/
def State.wakeUp (s : State) (q k : Nat) : State := (((s.setLnk q k 4).wr V.QUIET_FRAMES [q, k] 0).rxBegin q k).framesBegin q k

/-- LINK_WAKE: a packet waits at a QUIET port.  One frame of idle flits goes before it (R359). -/
def State.linkWake (s : State) (q k : Nat) : State :=
  if s.lnkState q k = 5 && !s.portIdle q k && !s.rdb V.LNK_P2 [q, k] then
    let t := s.wakeUp q k
    t.wr V.TX_NEXT [q, k] (t.rd V.TX_NEXT [q, k] + 65)
  else s

/-- PEER_SIGNAL_WAKE. -/
def State.peerWake (s : State) (q k : Nat) : State :=
  if s.lnkState q k = 5 then (s.wr V.LNK_P2 [q, k] 0).wakeUp q k else s

/-! ## Codewords (R343 to R345, R347) -/

/-- The lanes in use, ascending. -/
def State.lanesOf (s : State) (q k : Nat) : List Nat := onesOf 4 (s.rd F.LNK_PORT_STAT_LANES [q, k])

/-- Corrected symbols counted per port lane: those of the symbols that were wrong, and an injected one. -/
def State.countSymbols (s : State) (q k : Nat) (wrong : List Nat) (extra : Nat → Nat) : State :=
  let ls := s.lanesOf q k
  ls.foldl (fun t j =>
    let n := (wrong.filter fun x => ls.getD (x % ls.length) 0 == j).length + extra j
    (t.bumpSat V.LNK_LANE_COUNT [q, 4 * k + j] n).bump F.LNK_LANE_CORR_TOTAL [q, 4 * k + j] n) s

/-- A flit of a frame other than its LCF: part of the packet in progress, idle, or a header.  What the header says is for PACKET_HEADER_ARRIVAL, which
follows; only the packet's length counts here. -/
def State.rxFlit (s : State) (q k f : Nat) : State :=
  let n := s.rd V.RX_LEFT [q, k]
  if s.rdb V.LNK_LOST_BOUND [q, k] then s
  else if n = 0 then (if bitsOf f 0 8 = 0 then s else s.wr V.RX_LEFT [q, k] (min 32 (bitsOf f 24 6)))
  else
    let s := s.wr V.RX_LEFT [q, k] (n - 1)
    if n = 1 then s.wr V.INGRESS_OPEN [q, k] 0 else s

/-- The flits of codeword c of a frame; after a loss, a valid LCF in flit 0 names the next packet boundary. -/
def State.rxFlits (s : State) (q k c : Nat) (fs : List Nat) : State :=
  let s := if c = 0 && lcfOk (fs.headD 0) then s.regain q k 0 (fs.headD 0) else s
  (if c = 0 then fs.tail else fs).foldl (fun t f => t.rxFlit q k f) s

/-- The flits of an uncorrectable codeword c are damaged: the packet in progress is stomped; where a packet boundary lies among them, no header flit can
be told from an idle one, so that the boundaries are lost (R347).  DEDUCED (log entry 72). -/
def State.rxDamaged (s : State) (q k c : Nat) : State :=
  let n := if c = 0 then 4 else 5
  let m := s.rd V.RX_LEFT [q, k]
  if s.rdb V.LNK_LOST_BOUND [q, k] then s
  else
    let s := (if m = 0 then s else s.stompIngress q k).wr V.RX_LEFT [q, k] (m - n)
    if m < n then s.wr V.LNK_LOST_BOUND [q, k] 1 else s

/-- CODEWORD_DECODE: the levels that the four port lanes carried. -/
def State.codeword (s : State) (q k : Nat) (levels : List Nat) : State :=
  if !s.framed q k then s
  else
    let hit := s.injLink q k 2
    let lane := s.injLink q k 1
    let c := s.rd V.RX_CW [q, k]
    let res := rsDecode (rxWord (s.lanesOf q k) (fun j => s.rdb F.LNK_LANE_POL [q, 4 * k + j]) c levels)
    let s := if hit then s.injFired else if lane then s.raise F.ERR_INJ_STAT_FIRED [] else s
    let s := s.wr V.RX_CW [q, k] ((c + 1) % 13)
    match if hit then none else res with
    | none =>
      let s := ((s.bump F.LNK_PORT_ERR_UCW [q, k] 1).bumpSat V.UCW_COUNT [q, k] 1).runOf V.RX_CW_RUN q k 64 false
      let s := if c = 0 then s.wr V.RX_LCF_BAD [q, k] 1 else s
      let s := if hit then s.lnkRecord q k 1 0 0 true else s
      if s.linkUp q k then s.rxDamaged q k c else s
    | some (w, wrong) =>
      let s := s.countSymbols q k wrong fun j => b2n (lane && s.rd V.INJ_TARGET [] / 64 % 4 == j)
      let s := s.runOf V.RX_CW_RUN q k 64 true
      if s.linkUp q k then s.rxFlits q k c ((symbolFlits (w.take 256)).map fun f => f.toNat) else s

/-- What port lane j carries for codeword c of the port's frame n, as its record of flits has it: an idle flit where nothing was sent (R345). -/
def State.txCodeword (s : State) (q k n c j : Nat) : Nat :=
  let sent := s.out.flatMap fun o =>
    match o with
    | .flits q' k' a l => if q' = q && k' = k then (if a % 65 = 0 then [a] else slotsFrom l.length a).zip l else []
    | _ => []
  txLane (s.lanesOf q k) c ((List.range 5).map fun i => ((sent.find? fun x => x.1 == 65 * n + 5 * c + i).map Prod.snd).getD 0) j

/-- LINK_INJECT: a write of LNK_INJ with GO. -/
def State.linkInject (s : State) (q v : Nat) : State :=
  let k := min 39 (bitsOf v 0 6)
  let kind := bitsOf v 8 3
  let s := ((s.wr F.LNK_INJ_PORT [q] k).wr F.LNK_INJ_LANE [q] (bitsOf v 6 2)).wr F.LNK_INJ_KIND [q] kind
  if !bitOf v 11 then s
  else if !s.injAllowed false (s.portPart q k) false then s.injRefused
  else if 1 ≤ kind && kind ≤ 4 then s.injArm 2 0 q (s.portPart q k) (k + 64 * bitsOf v 6 2 + 256 * kind)
  else s

/-! ## Seams (R19) -/

/-- SEAM_CRC_ERROR: repaired by retry. -/
def State.seamCrc (s : State) (a b : Nat) : State := s.bump V.SEAM_RETRY [min a b, max a b] 1

/-- Present downlinks withdrawn with a REASON: one WITHDRAW notice names them (R305). -/
def State.withdraw (s : State) (ns : List Nat) (reason : Nat) : State :=
  let goal := ns.filter fun n => s.portPresent (n / 36) (n % 36)
  let s := goal.foldl (fun t n =>
    (t.wr V.WITHDRAWN [n / 36, n % 36] 1).wr V.WITHDRAW_REASON [n / 36, n % 36] reason) s
  s.notice 2 0 reason goal

/-- Downlinks withdrawn with a REASON return: RESTORE at once where the port is open, else when it opens; none while the plane is withdrawn (R19). -/
def State.restore (s : State) (ns : List Nat) (reason : Nat) : State :=
  let goal := ns.filter fun n => !s.rdb V.PLANE_WITHDRAWN [] && s.rdb V.WITHDRAWN [n / 36, n % 36] && s.rd V.WITHDRAW_REASON [n / 36, n % 36] == reason
    && s.rdb F.COR_PORT_OPEN [n / 36, n % 36]
  (goal.foldl (fun t n => t.wr V.WITHDRAWN [n / 36, n % 36] 0) s).notice 3 0 reason goal

/-- SEAM_DOWN, with PLANE_WITHDRAWAL: every present downlink is withdrawn with REASON 7. -/
def State.seamDown (s : State) (a b : Nat) : State :=
  if s.rdb V.SEAM_DOWN [min a b, max a b] then s
  else
    let s := s.wr V.SEAM_DOWN [min a b, max a b] 1
    let s := s.err { det := 0x04, sev := 2, quad := min a b, unit := seamPort (min a b) (max a b) }
    (s.wr V.PLANE_WITHDRAWN [] 1).withdraw s.presentDown 7

end Sys2Proof.Machine
end

