-- ==== Sys2Proof/Machine/Gram.lean ====
section
/-! DEFINITION. The Gram engine: its arithmetic, operands, commands, units and faults
(R258 to R276 of spec/08_gram_engine.md). -/

namespace Sys2Proof.Machine

/-! ## The stager (R259) -/

/-- The format of a code of R124. -/
def gFmt : Nat → Fmt
  | 0 => fmtFp32
  | 1 => fmtBf16
  | 2 => fmtFp16
  | 3 => fmtE4m3
  | _ => fmtE5m2

def gSize : Nat → Nat
  | 0 => 4
  | 1 => 2
  | 2 => 2
  | _ => 1

/-- True for a magnitude beyond the largest finite one of a format. -/
def beyondMax (g : Fmt) (x : Ex) : Bool := (decodeFloat g g.maxBits).any fun m => exLt m x

/-- One element converted to the array input format, and whether it saturated. -/
def stager (inF srcF w : Nat) : Nat × Bool :=
  if inF = srcF then (w, false)
  else
    let f := gFmt srcF
    let g := gFmt inF
    match decodeFloat f w with
    | none => (nanWord g 5 w 0, false)
    | some x =>
      let x := { x with neg := false }
      (signedBits g (fNeg f w) (toFloat g x .rne).1, beyondMax g x)

/-! ## Operands (R261, R262) -/

/-- A matrix descriptor. -/
structure Desc where
  addr : Nat
  rows : Nat
  cols : Nat
  trans : Bool
  fmt : Nat
  pitch : Nat
  deriving DecidableEq, Repr

def descOfBits (x : Nat) : Desc :=
  { addr := bitsOf x 0 64, rows := bitsOf x 64 13, cols := bitsOf x 80 13, trans := bitOf x 77, fmt := bitsOf x 93 3,
    pitch := bitsOf x 96 32 }

/-- The descriptor at a byte offset of an entry. -/
def descAt (entry off : Nat) : Desc := descOfBits (bitsOf entry (8 * off) 128)

/-- Fields in range, reserved bits zero, alignment (R261, R262). -/
def descOk (entry off : Nat) : Bool :=
  let d := descAt entry off
  decide (1 ≤ d.rows) && decide (d.rows ≤ 4096) && decide (1 ≤ d.cols) && decide (d.cols ≤ 4096) && decide (d.fmt ≤ 4)
    && d.addr % 64 == 0 && d.pitch % 64 == 0 && decide (d.cols * gSize d.fmt ≤ d.pitch)
    && bitsOf entry (8 * off + 78) 2 == 0

/-- The byte ranges of the stored rows. -/
def Desc.ranges (d : Desc) : List (Nat × Nat) := (List.range d.rows).map fun r => (d.addr + r * d.pitch, d.cols * gSize d.fmt)

/-- An FP32 matrix of a pitch as a descriptor. -/
def plainDesc (addr rows cols : Nat) : Desc :=
  { addr := addr, rows := rows, cols := cols, trans := false, fmt := 0, pitch := up64 (4 * cols) }

/-- True when n bytes from an address on lie in ranges that may adjoin (fuel: as many as the ranges). -/
def spanIn (rs : List (Nat × Nat)) : Nat → Nat → Nat → Bool
  | 0, _, n => n == 0
  | k + 1, a, n =>
    n == 0 || match rs.find? fun r => decide (r.1 ≤ a) && decide (a < r.1 + r.2) with
      | some r => spanIn rs k (r.1 + r.2) (a + n - (r.1 + r.2))
      | none => false

/-- True when every byte of every range lies in the partition's optimizer region in a quadrant (R262). -/
def State.inOpt (s : State) (q p : Nat) (rs : List (Nat × Nat)) : Bool :=
  let reg := ((s.img.region p 0).filter fun r => r.quad == q).map fun r => (r.start, r.bytes)
  rs.all fun a => spanIn reg reg.length a.1 a.2

def overlap (xs ys : List (Nat × Nat)) : Bool :=
  xs.any fun a => ys.any fun b => decide (a.1 < b.1 + b.2) && decide (b.1 < a.1 + a.2)

/-- Rows and columns of op(X). -/
def Desc.m (d : Desc) : Nat := if d.trans then d.cols else d.rows
def Desc.n (d : Desc) : Nat := if d.trans then d.rows else d.cols

/-- Offset of element (i, j) of op(X). -/
def Desc.at (d : Desc) (i j : Nat) : Nat :=
  let (r, c) := if d.trans then (j, i) else (i, j)
  d.addr + r * d.pitch + c * gSize d.fmt

/-- The byte ranges of the elements (i, j) of op(X) with i0 ≤ i < i1 and j0 ≤ j < j1. -/
def Desc.block (d : Desc) (i0 i1 j0 j1 : Nat) : List (Nat × Nat) :=
  let (r0, r1, c0, c1) := if d.trans then (j0, j1, i0, i1) else (i0, i1, j0, j1)
  (List.range (r1 - r0)).map fun r => (d.addr + (r0 + r) * d.pitch + c0 * gSize d.fmt, (c1 - c0) * gSize d.fmt)

/-- n bytes at an offset of a descriptor's space: the partition's addresses, or, for a staged block, the optimizer region from STAGE_ADDR on (R228). -/
def State.gRead (s : State) (p : Nat) (stage : Option Nat) (a n : Nat) : Option (List Byte) :=
  match stage with
  | some o => s.optRead p (o + a) n
  | none => s.memData p a n

/-- Element (i, j) of op(X), zero where it cannot be read. -/
def State.elem (s : State) (p : Nat) (stage : Option Nat) (d : Desc) (i j : Nat) : Nat :=
  ((s.gRead p stage (d.at i j) (gSize d.fmt)).map ofLE).getD 0

/-- An FP32 element stored. -/
def State.elemPut (s : State) (p : Nat) (stage : Option Nat) (d : Desc) (i j w : Nat) : State :=
  (match stage with
    | some o => s.optWrite p (o + d.at i j) (leBytes 4 w)
    | none => s.memWrite p (d.at i j) (leBytes 4 w)).getD s

/-- A matrix as a function of its indexes. -/
abbrev Mat := Nat → Nat → Nat

def State.mat (s : State) (p : Nat) (stage : Option Nat) (d : Desc) : Mat := fun i j => s.elem p stage d i j

/-- An accumulator over K indexes k0 ≤ k < k1, from a start value. -/
def dot (fa fb sa sb : Nat) (a b : Mat) (start i j k0 k1 : Nat) : Nat :=
  (List.range (k1 - k0)).foldl (fun acc n =>
    ieFma (gFmt fa) (gFmt fb) acc (stager fa sa (a i (k0 + n))).1 (stager fb sb (b (k0 + n) j)).1) start

/-- A matrix held as its rows. -/
def tabulate (r c : Nat) (f : Mat) : List (List Nat) := (List.range r).map fun i => (List.range c).map (f i)
def ofRows (t : List (List Nat)) : Mat := fun i j => (t.getD i []).getD j 0

/-- mm of R267 up to K index k1: an array product of FP32 operands from zero. -/
def mmK (f r c k1 : Nat) (a b : Mat) : List (List Nat) := tabulate r c fun i j => dot f f 0 0 a b 0 i j 0 k1

/-! ## NS_ROOT and NS_ORTHO (R267, R268) -/

/-- The binary64 square root of the sum of squares over elements in row-major order. -/
def frob (r c : Nat) (a : Mat) : Nat :=
  ieSqrt fmtFp64 ((List.range r).foldl (fun acc i =>
    (List.range c).foldl (fun x j =>
      let y := ieCast fmtFp32 fmtFp64 (a i j)
      ieAdd fmtFp64 x (ieMul fmtFp64 y y)) acc) 0)

/-- FP32 words of p + 1 and of 1 / p. -/
def rootConst (p : Nat) : Nat × Nat := if p = 2 then (0x40400000, 0x3F000000) else (0x40A00000, 0x3E800000)

/-- tform of R267. -/
def tform (n p : Nat) (m : Mat) : List (List Nat) :=
  let (c, ip) := rootConst p
  tabulate n n fun i j => ieMul fmtFp32 (ieSub fmtFp32 (if i = j then c else 0) (m i j)) ip

/-- The damped input B. -/
def damped (a : Mat) (delta : Nat) : Mat := fun i j => ieAdd fmtFp32 (a i j) (if i = j then delta else 0)

/-- The iterate of R267: M, T, X. -/
structure RootIt where
  m : List (List Nat)
  t : List (List Nat)
  x : List (List Nat)
  deriving DecidableEq, Repr

/-- After the scale passes. -/
def rootStart (n p : Nat) (b : Mat) (c : Nat) : RootIt :=
  let r := if p = 2 then ieSqrt fmtFp64 c else ieSqrt fmtFp64 (ieSqrt fmtFp64 c)
  let sc := ieCast fmtFp64 fmtFp32 (ieDiv fmtFp64 one64 r)
  let m := tabulate n n fun i j => ieCast fmtFp64 fmtFp32 (ieDiv fmtFp64 (ieCast fmtFp32 fmtFp64 (b i j)) c)
  let t := tform n p (ofRows m)
  { m := m, t := t, x := tabulate n n fun i j => ieMul fmtFp32 sc (ofRows t i j) }

/-- The products of one iteration as operand pairs, and the next iterate. -/
def rootStep (f n p : Nat) (it : RootIt) : List (List (List Nat) × List (List Nat)) × RootIt :=
  let mm := fun a b => mmK f n n n (ofRows a) (ofRows b)
  let u := mm it.t it.t
  let q := if p = 4 then mm u u else u
  let m := mm q it.m
  let t := tform n p (ofRows m)
  let head := if p = 4 then [(it.t, it.t), (u, u)] else [(it.t, it.t)]
  (head ++ [(q, it.m), (it.x, t)], { m := m, t := t, x := mm it.x t })

/-- Every product of NS_ROOT in order, for k iterations, and the final iterate. -/
def rootProducts (f n p : Nat) : Nat → RootIt → List (List (List Nat) × List (List Nat)) × RootIt
  | 0, it => ([], it)
  | k + 1, it =>
    let (ps, nx) := rootStep f n p it
    let (rest, fin) := rootProducts f n p k nx
    (ps ++ rest, fin)

/-- One iteration of R268 on Y (r × c): its products, each with the K length, and the next Y. -/
def orthoStep (f r c ca cb cc : Nat) (y : List (List Nat)) :
    List (List (List Nat) × List (List Nat) × Nat) × List (List Nat) :=
  let yt := tabulate c r fun i j => ofRows y j i
  let sm := mmK f r r c (ofRows y) (ofRows yt)
  let pm := mmK f r r r (ofRows sm) (ofRows sm)
  let q := tabulate r r fun i j => ieAdd fmtFp32 (ieMul fmtFp32 cb (ofRows sm i j)) (ieMul fmtFp32 cc (ofRows pm i j))
  let qy := mmK f r c r (ofRows q) (ofRows y)
  ([(y, yt, c), (sm, sm, r), (q, y, r)],
   tabulate r c fun i j => ieAdd fmtFp32 (ieMul fmtFp32 ca (ofRows y i j)) (ofRows qy i j))

/-- Every product of NS_ORTHO, and the Y before each iteration; coef gives (a, b, c) of iteration it. -/
def orthoProducts (f r c : Nat) (coef : Nat → Nat × Nat × Nat) : Nat → Nat → List (List Nat) →
    List (List (List Nat) × List (List Nat) × Nat) × List (List (List Nat))
  | 0, _, y => ([], [y])
  | k + 1, it, y =>
    let (ca, cb, cc) := coef it
    let (ps, ny) := orthoStep f r c ca cb cc y
    let (rest, ys) := orthoProducts f r c coef k (it + 1) ny
    (ps ++ rest, y :: ys)

/-! ## Passes and units (R271, R272) -/

/-- A pass over output tiles: its size, K length, whether only tiles i ≤ j run, whether it is an elementwise pass, and the
tiles read or written besides (R272). -/
structure GPass where
  rows : Nat
  cols : Nat
  k : Nat
  sym : Bool
  scale : Bool
  scaleBytes : Nat
  extra : Nat
  srcA : Nat
  srcB : Nat
  zero : Bool
  deriving DecidableEq, Repr

def GPass.tiles (g : GPass) : List (Nat × Nat) :=
  (List.range (ceilDiv g.rows 256)).flatMap fun i =>
    ((List.range (ceilDiv g.cols 256)).filter fun j => !g.sym || decide (i ≤ j)).map fun j => (i, j)

def kBlock (fp8 : Bool) : Nat := if fp8 then 2048 else 1024

def GPass.perTile (g : GPass) (fp8 : Bool) : Nat := if g.scale then 1 else ceilDiv g.k (kBlock fp8)
def GPass.units (g : GPass) (fp8 : Bool) : Nat := g.tiles.length * g.perTile fp8

/-- The pass, tile and K-block of unit n. -/
def unitAt (fp8 : Bool) : Nat → List GPass → Nat → Option (Nat × GPass × (Nat × Nat) × Nat)
  | _, [], _ => none
  | i, g :: r, n =>
    if n < g.units fp8 then some (i, g, g.tiles.getD (n / g.perTile fp8) (0, 0), n % g.perTile fp8)
    else unitAt fp8 (i + 1) r (n - g.units fp8)

/-- The length of a unit in cycles (R272). -/
def unitCycles (fp8 : Bool) (g : GPass) (t : Nat × Nat) (b : Nat) : Nat :=
  let len := min g.k ((b + 1) * kBlock fp8) - b * kBlock fp8
  let comp := if g.scale then 0 else (if fp8 then 128 else 256) * ceilDiv len 256
  let last := b + 1 == g.perTile fp8
  let bytes := if g.scale then g.scaleBytes
    else 256 * len * g.srcA + (if g.sym && t.1 == t.2 then 0 else 256 * len * g.srcB)
      + (if b = 0 && g.zero then 0 else 262144) + 262144
      + (if last then 262144 * (g.extra + b2n (g.sym && t.1 != t.2)) else 0)
  max comp (ceilDiv bytes 1536)

/-! ## The command's fields -/

/-- IN_FMT of a command, and of its second operand. -/
def gIn (op entry : Nat) : Nat :=
  match op with
  | 1 => bitsOf entry 323 3
  | 2 => bitsOf entry 480 3
  | 3 => bitsOf entry 424 3
  | 4 => bitsOf entry 459 3
  | _ => bitsOf entry 80 3
def gInB (op entry : Nat) : Nat := if op = 2 then bitsOf entry 483 3 else gIn op entry
def fmtFp8 (c : Nat) : Bool := c == 3 || c == 4
def fmtIn (c : Nat) : Bool := decide (1 ≤ c) && decide (c ≤ 4)

def gStaged (op entry : Nat) : Bool := op == 5 || (op == 1 && bitOf entry 322)
def gShard (op entry : Nat) : Nat := if op = 5 then bitsOf entry 64 16 else bitsOf entry 336 16

/-- The block operand of a staged command: its descriptor's byte offset in the entry. -/
def gBlockOff (op : Nat) : Nat := if op = 5 then 16 else 8

/-- STAGE_ADDR of the shard of a staged command. -/
def State.gStage (s : State) (p op entry : Nat) : Option Nat :=
  if gStaged op entry then some (s.img.shard p (gShard op entry)).stageAddr else none

/-- The partition addresses of byte ranges of a descriptor's space, none where one leaves the region. -/
def State.gRanges (s : State) (p : Nat) (stage : Option Nat) (rs : List (Nat × Nat)) : Option (List (Nat × Nat)) :=
  match stage with
  | none => some rs
  | some o => (rs.mapM fun r => s.img.regionPieces p 0 (o + r.1) r.2).map List.flatten

/-- The chunk offsets of a shard whose staged gradients a block covers (R228, R269). -/
def State.blockChunks (s : State) (p k : Nat) (d : Desc) : List Nat :=
  let h := s.img.shard p k
  let e := s.img.coll p h.coll
  (List.range e.nchunk).filter fun i =>
    (!h.partitioned || s.ownsChunk (s.stamp p) p e (e.chunkBase + i))
      && overlap [(2048 * s.recordOf p h i, 2048)] d.ranges

/-- The dimension n of GRAM_ACC, and its K. -/
def accN (entry : Nat) : Nat := let d := descAt entry 8; if bitOf entry 320 then d.cols else d.rows
def accK (entry : Nat) : Nat := let d := descAt entry 8; if bitOf entry 320 then d.rows else d.cols

/-- Rows and columns of Y in NS_ORTHO: rows at most columns. -/
def orthoR (entry : Nat) : Nat := let d := descAt entry 8; min d.rows d.cols
def orthoC (entry : Nat) : Nat := let d := descAt entry 8; max d.rows d.cols

/-- Bytes of the work area of NS_ROOT or NS_ORTHO (R266, R268). -/
def nsWork (op entry : Nat) : Nat :=
  let d := descAt entry 8
  if op = 3 then 20 * d.rows ^ 2 else 4 * (2 * d.rows * d.cols + 3 * d.rows ^ 2)

/-- Results and work areas of a command outside a staged block, as byte ranges. -/
def gResults (op entry : Nat) : List (Nat × Nat) :=
  match op with
  | 1 => (descAt entry 24).ranges
  | 2 => (descAt entry 40).ranges
  | 3 => (descAt entry 24).ranges ++ [(bitsOf entry 320 64, nsWork 3 entry)]
  | 4 => (descAt entry 24).ranges ++ [(bitsOf entry 320 64, nsWork 4 entry)]
  | _ => let g := descAt entry 16; (plainDesc (bitsOf entry 384 64) g.rows g.cols).ranges

/-- Operands and coefficients of a command outside a staged block, as byte ranges. -/
def gReads (op entry : Nat) : List (Nat × Nat) :=
  match op with
  | 1 => if gStaged 1 entry then [] else (descAt entry 8).ranges
  | 2 => (descAt entry 8).ranges ++ (descAt entry 24).ranges
  | 3 => (descAt entry 8).ranges
  | 4 => (descAt entry 8).ranges ++ [(bitsOf entry 384 64, 12 * (bitsOf entry 456 3 + 1))]
  | _ =>
    let g := descAt entry 16
    (if bitsOf entry 256 64 = 0 then [] else (plainDesc (bitsOf entry 256 64) g.rows g.rows).ranges)
      ++ (if bitsOf entry 320 64 = 0 then [] else (plainDesc (bitsOf entry 320 64) g.cols g.cols).ranges)

/-- The staged block of a command as partition addresses: empty for another command, none where it leaves the optimizer region. -/
def State.gBlock (s : State) (p op entry : Nat) : Option (List (Nat × Nat)) :=
  if gStaged op entry then s.gRanges p (s.gStage p op entry) (descAt entry (gBlockOff op)).ranges else some []

/-- Every area of a command. -/
def State.gAreas (s : State) (p op entry : Nat) : List (Nat × Nat) :=
  gResults op entry ++ gReads op entry ++ (s.gBlock p op entry).getD []

/-- Fields of the command in range, dimensions that agree (R262 to R269). -/
def gramFieldsOk (op entry : Nat) : Bool :=
  fmtIn (gIn op entry) && fmtIn (gInB op entry) && fmtFp8 (gIn op entry) == fmtFp8 (gInB op entry) &&
  match op with
  | 1 =>
    let l := descAt entry 24
    descOk entry 8 && descOk entry 24 && !(descAt entry 8).trans && l.fmt == 0 && l.rows == accN entry
      && l.cols == accN entry && bitsOf entry 326 10 == 0 && bitsOf entry 352 160 == 0
  | 2 =>
    let a := descAt entry 8
    let b := descAt entry 24
    let c := descAt entry 40
    descOk entry 8 && descOk entry 24 && descOk entry 40 && c.fmt == 0 && a.n == b.m && c.m == a.m
      && c.n == b.n && bitsOf entry 486 26 == 0
  | 3 =>
    let a := descAt entry 8
    let x := descAt entry 24
    let k := bitsOf entry 416 6
    descOk entry 8 && descOk entry 24 && a.fmt == 0 && x.fmt == 0 && !a.trans && a.rows == a.cols
      && x.rows == a.rows && x.cols == a.rows && bitsOf entry 320 64 % 64 == 0 && decide (1 ≤ k) && decide (k ≤ 32)
      && bitsOf entry 423 1 == 0 && bitsOf entry 427 85 == 0
  | 4 =>
    let a := descAt entry 8
    let x := descAt entry 24
    let k := bitsOf entry 448 6
    descOk entry 8 && descOk entry 24 && a.fmt == 0 && x.fmt == 0 && !a.trans && x.m == a.rows
      && x.n == a.cols && bitsOf entry 384 64 % 64 == 0 && decide (1 ≤ k) && decide (k ≤ 32)
      && bitsOf entry 454 2 == 0 && bitsOf entry 462 18 == 0
  | _ =>
    let g := descAt entry 16
    descOk entry 16 && g.fmt == 0 && !g.trans && g.addr % 2048 == 0 && g.pitch % 2048 == 0 && 4 * g.cols % 2048 == 0
      && bitsOf entry 83 45 == 0 && bitsOf entry 448 64 == 0

/-- The whole check of R262, R269 and R270 that rejects a command with BOUNDS.  The block of APPLY is its operand, and its result updated in place. -/
def State.gramOk (s : State) (q p op entry : Nat) : Bool :=
  let res := gResults op entry
  let rds := gReads op entry
  gramFieldsOk op entry && s.inOpt q p res && s.inOpt q p rds && !overlap res rds
    && (match s.gBlock p op entry with
      | some b => s.inOpt q p b && !overlap res b && (op != 5 || !overlap b rds)
      | none => false)
    && (!gStaged op entry ||
        match s.img.shardValid p (gShard op entry) with
        | none => false
        | some h =>
          h.stage && h.quad == q &&
            (op != 5 || (s.blockChunks p (gShard op entry) (descAt entry 16)).all fun i =>
              (s.img.grp p (s.img.segOf p h i).group).recipe == 6))

/-! ## The passes of each command -/

def product (r c k : Nat) (sym : Bool) (extra sa sb : Nat) (zero : Bool) : GPass :=
  { rows := r, cols := c, k := k, sym := sym, scale := false, scaleBytes := 0, extra := extra, srcA := sa, srcB := sb, zero := zero }
def scalePass (r c bytes : Nat) : GPass :=
  { rows := r, cols := c, k := 0, sym := false, scale := true, scaleBytes := bytes, extra := 0, srcA := 4, srcB := 4, zero := true }

def gramPasses (op entry : Nat) : List GPass :=
  match op with
  | 1 =>
    let sz := gSize (descAt entry 8).fmt
    [product (accN entry) (accN entry) (accK entry) true 0 sz sz (bitOf entry 321)]
  | 2 =>
    let a := descAt entry 8
    let b := descAt entry 24
    [product a.m b.n a.n false 0 (gSize a.fmt) (gSize b.fmt) (bitsOf entry 448 31 == 0)]
  | 3 =>
    let n := (descAt entry 8).rows
    let four := bitOf entry 422
    let k := bitsOf entry 416 6
    let one := product n n n false 0 4 4 true
    let withT := product n n n false 1 4 4 true
    [scalePass n n 262144, scalePass n n 1048576]
      ++ (List.range (k - 1)).flatMap fun _ => if four then [one, one, withT, one] else [one, withT, one]
  | 4 =>
    let r := orthoR entry
    let c := orthoC entry
    [scalePass r c 262144, scalePass r c 524288]
      ++ (List.range (bitsOf entry 448 6)).flatMap fun _ =>
        [product r r c true 0 4 4 true, product r r r false 1 4 4 true, product r c r false 1 4 4 true]
  | _ =>
    let g := descAt entry 16
    let pl := bitsOf entry 256 64 != 0
    let pr := bitsOf entry 320 64 != 0
    (if pl then [product g.rows g.cols g.rows false 0 4 4 true] else [])
      ++ (if pr then [product g.rows g.cols g.cols false 0 4 4 true] else [])
      ++ (if pl != pr then [scalePass g.rows g.cols 524288] else [])

/-- TOTAL of GRM_PROG. -/
def gramTotal (op entry : Nat) : Nat :=
  let fp8 := fmtFp8 (gIn op entry)
  ((gramPasses op entry).map fun g => g.units fp8).foldl (· + ·) 0

/-! ## Starting, waiting, completing (R263, R270) -/

def State.grmStat (s : State) (q p c n : Nat) : State :=
  (s.bumpOvf F.GRM_STAT_COUNT F.GRM_STAT_OVF [q, p, c] n).countLocal q 52 (16 + c) p n

/-- The command ends with a status: GRM_PART back to IDLE, its record written.  Only STATUS ABORTED is counted under ABORTED. -/
def State.gramEnd (s : State) (q p entry status : Nat) : State :=
  let s := s.grmStat q p (if status = 0x10 then 5 else 1) 1
  let s := ((s.wr F.GRM_PART_STATE [q, p] 0).wr V.GRM_ENTRY [q, p] 0).wr V.GRM_ABORT [q, p] 0
  s.cmdDone q p 2 entry status

/-- A running command stops before its end: ABORTED; a stopped APPLY fails an UPDATING step (R270, R275). -/
def State.gramStop (s : State) (q p : Nat) : State :=
  let entry := s.rd V.GRM_ENTRY [q, p]
  let s' := (s.bankWaste q 52 p).gramEnd q p entry 0x10
  if ceOpcode entry = 5 && s.updState p == 3 && s.updStep p == s.rd V.GRM_STEP [q, p] then s'.stepFail p else s'

/-- True when a staged command's block is complete for the step in flight. -/
def State.blockStaged (s : State) (p op entry : Nat) : Bool :=
  s.updState p == 3 &&
    (s.blockChunks p (gShard op entry) (descAt entry (gBlockOff op))).all fun i =>
      match s.updGet p (gShard op entry) i with
      | some c => c.staged
      | none => false

/-- True when an earlier APPLY of the step has transformed a chunk of the block. -/
def State.blockDone (s : State) (p op entry : Nat) : Bool :=
  (s.blockChunks p (gShard op entry) (descAt entry (gBlockOff op))).any fun i =>
    match s.updGet p (gShard op entry) i with
    | some c => c.dir
    | none => false

/-- The chunks of a finished APPLY have their direction (R269). -/
def State.applyDone (s : State) (p entry : Nat) : State :=
  let k := gShard 5 entry
  (s.blockChunks p k (descAt entry 16)).foldl (fun t i =>
    match t.updGet p k i with
    | some c => t.updPut p k i { c with dir := true }
    | none => t) s

/-- The last write of a command has been made: it completes. -/
def State.gramDone (s : State) (q p op entry : Nat) : State := (if op = 5 then s.applyDone p entry else s).gramEnd q p entry 0

/-- The command takes its entry and runs.  An APPLY without a factor has nothing to compute: d is G. -/
def State.gramRun (s : State) (q p op entry : Nat) : State :=
  let s := s.cmdStart q p 2 entry
  let s := (((s.wr F.GRM_PART_STATE [q, p] 2).wr V.GRM_ENTRY [q, p] entry).wr F.GRM_PROG_DONE [q, p] 0).wr
    F.GRM_PROG_TOTAL [q, p] (gramTotal op entry)
  let s := ((s.wr V.GRM_STEP [q, p] (s.updStep p)).wr V.GRM_NF [q, p] 0).wr V.GRM_TAINT [q, p] 0
  if gStaged op entry && s.blockDone p op entry then s.gramEnd q p entry 7
  else if gramTotal op entry = 0 then s.gramDone q p op entry
  else s

/-- A Gram command at the head of its ring: rejected, aborted by a faulted engine, waiting, or started. -/
def State.gramCmd (s : State) (q p op entry : Nat) : State :=
  if !s.ringCmd q p 2 op entry || s.rdb F.GRM_PART_STATE [q, p] then s
  else
    let s := (s.wr F.GRM_PART_OPCODE [q, p] op).wr F.GRM_PART_TAG [q, p] (ceTag entry)
    if s.rdb F.GRM_FAULT_FAULTED [q] then (s.cmdStart q p 2 entry).gramEnd q p entry 0x10
    else if !s.gramOk q p op entry then s.ringStop q p 2 5 (ceTag entry)
    else if !gStaged op entry || s.blockStaged p op entry then s.gramRun q p op entry
    else ((s.wr F.GRM_PART_STATE [q, p] 1).wr V.GRM_ENTRY [q, p] entry).wr V.GRM_ABORT [q, p] 0

/-- GRAM_WAIT_RELEASE: the wait of R270 ends: the command completes ABORTED because a step ended without being applied while it waited, or because the engine is
faulted; or it starts. -/
def State.gramWaitRelease (s : State) (q p : Nat) : State :=
  let entry := s.rd V.GRM_ENTRY [q, p]
  let op := ceOpcode entry
  if s.rd F.GRM_PART_STATE [q, p] ≠ 1 then s
  else if s.rdb V.GRM_ABORT [q, p] || s.rdb F.GRM_FAULT_FAULTED [q] then (s.cmdStart q p 2 entry).gramEnd q p entry 0x10
  else if !s.blockStaged p op entry then s
  else if s.gramOk q p op entry then s.gramRun q p op entry
  else (s.wr F.GRM_PART_STATE [q, p] 0).ringStop q p 2 5 (ceTag entry)

/-! ## What a unit does -/

/-- The index pairs of a tile. -/
def tileElems (g : GPass) (t : Nat × Nat) : List (Nat × Nat) :=
  (List.range (min 256 (g.rows - 256 * t.1))).flatMap fun i =>
    (List.range (min 256 (g.cols - 256 * t.2))).map fun j => (256 * t.1 + i, 256 * t.2 + j)

/-- Saturated conversions of a unit's two operand blocks. -/
def unitSat (fa fb sa sb : Nat) (a b : Mat) (g : GPass) (t : Nat × Nat) (k0 k1 : Nat) : Nat :=
  let cnt := fun (f sf : Nat) (m : Mat) (base lim : Nat) =>
    ((List.range (min 256 (lim - base))).map fun r =>
      ((List.range (k1 - k0)).filter fun n => (stager f sf (m (base + r) (k0 + n))).2).length).foldl (· + ·) 0
  cnt fa sa a (256 * t.1) g.rows
    + (if g.sym && t.1 == t.2 then 0 else cnt fb sb (fun c k => b k c) (256 * t.2) g.cols)

/-- Result elements written. -/
def State.putElems (s : State) (p : Nat) (stage : Option Nat) (d : Desc) (ws : List ((Nat × Nat) × Nat)) : State :=
  (ws.foldl (fun t w => t.elemPut p stage d w.1.1 w.1.2 w.2) (s.wr V.HBM_REQ [] 63)).wr V.HBM_REQ [] (s.rd V.HBM_REQ [])

/-- The sector that holds an element of an operand. -/
def State.elemSector (s : State) (p : Nat) (stage : Option Nat) (d : Desc) (w : (Nat × Nat) × Nat) : Option Loc :=
  match stage with
  | none => s.locate p (d.at w.1.1 w.1.2)
  | some o => match s.img.regionPieces p 0 (o + d.at w.1.1 w.1.2) 4 with
    | some (x :: _) => s.locate p x.1
    | _ => none

/-- The beats that hold a unit's result elements, and where each lies: consecutive elements of one beat count once. -/
def State.tileBeats (s : State) (p : Nat) (stage : Option Nat) (d : Desc) (ws : List ((Nat × Nat) × Nat)) : List (Nat × Nat) :=
  (ws.filterMap (s.elemSector p stage d)).foldr (fun l out =>
    if out.head? == some (l.stack, l.dev / 64) then out else (l.stack, l.dev / 64) :: out) []

/-- What the sectors under a unit's result report as it is written: one that the result covers whole takes new check bits, one at an edge is read and written (R375,
R391). -/
def State.tileSectors (s : State) (p : Nat) (stage : Option Nat) (d : Desc) (ws : List ((Nat × Nat) × Nat)) : State :=
  if s.badSectors.isEmpty then s
  else
    let ks := ws.filterMap fun w => (s.elemSector p stage d w).map fun l => [l.stack, l.dev / 32]
    s.badSectors.foldl (fun t kv =>
      let n := ks.count kv.1
      if n = 0 then t
      else if 8 ≤ n then { t with badSectors := SMap.erase kv.1 t.badSectors }
      else t.noteOne 0x09 p kv.1) s

/-- A unit's result written: an armed HBM_INJ injection flips its bits in the first beat of its line, after the data of the whole unit. -/
def State.putTile (s : State) (p : Nat) (stage : Option Nat) (d : Desc) (ws : List ((Nat × Nat) × Nat)) : State :=
  let s := (s.tileBeats p stage d ws).foldl (fun t b => t.countBeat 19 p b.1 1) s
  if s.rd V.INJ_KIND [] = 3 then
    let t := (((s.tileSectors p stage d ws).wr V.INJ_KIND [] 0).putElems p stage d ws).wr V.INJ_KIND [] 3
    match (ws.filterMap (s.elemSector p stage d)).find? fun l => s.injHits l.stack l.dev 4 with
    | some l => t.injFlip l.stack l.dev
    | none => t
  else (s.tileSectors p stage d ws).putElems p stage d ws

/-- The elements of a unit that runs after the host has written to the command's operands: unspecified (R270). -/
def State.taintElems (s : State) (ws : List ((Nat × Nat) × Nat)) : List ((Nat × Nat) × Nat) :=
  (ws.zip (List.range ws.length)).map fun w => (w.1.1, Config.free s.free w.2 % 2 ^ 32)

def notFinite (ws : List ((Nat × Nat) × Nat)) : Nat := (ws.filter fun w => (decodeFloat fmtFp32 w.2).isNone).length

/-- Non-finite result elements counted, and recorded once per command. -/
def State.gramNonFinite (s : State) (q p n : Nat) : State :=
  if n = 0 then s
  else
    let s := s.grmStat q p 3 n
    if s.rdb V.GRM_NF [q, p] then s
    else (s.wr V.GRM_NF [q, p] 1).err { det := 0x0D, sev := 1, part := p, quad := q, unit := 2, cause := 6,
                                        addr := s.rd F.GRM_PART_TAG [q, p] }

/-- What one unit of a command does: the elements written (with the descriptor they go to, and STAGE_ADDR for a staged block), the saturations,
whether the elements are final results, and whether the command ends here with a zero result. -/
structure UnitOut where
  dst : Desc
  stage : Option Nat
  ws : List ((Nat × Nat) × Nat)
  sat : Nat
  final : Bool
  degenerate : Bool
  deriving DecidableEq, Repr

def noDesc : Desc := plainDesc 0 0 0

/-- GRAM_ACC: accumulators of a tile over a K-block; the mirror at the tile's end. -/
def State.accUnit (s : State) (p entry : Nat) (g : GPass) (t : Nat × Nat) (b : Nat) : UnitOut :=
  let stg := s.gStage p 1 entry
  let d := descAt entry 8
  let l := descAt entry 24
  let f := gIn 1 entry
  let m := s.mat p stg d
  let a : Mat := if bitOf entry 320 then fun i k => m k i else m
  let bt : Mat := fun k j => a j k
  let k0 := b * kBlock (fmtFp8 f)
  let k1 := min g.k (k0 + kBlock (fmtFp8 f))
  let ws := (tileElems g t).map fun ij =>
    let start := if b = 0 && bitOf entry 321 then 0 else s.elem p none l (min ij.1 ij.2) (max ij.1 ij.2)
    (ij, dot f f d.fmt d.fmt a bt start ij.1 ij.2 k0 k1)
  let last := b + 1 == g.perTile (fmtFp8 f)
  { dst := l, stage := none, ws := if last && t.1 != t.2 then ws ++ ws.map fun w => ((w.1.2, w.1.1), w.2) else ws,
    sat := unitSat f f d.fmt d.fmt a bt g t k0 k1, final := last, degenerate := false }

/-- MATMUL. -/
def State.mulUnit (s : State) (p entry : Nat) (g : GPass) (t : Nat × Nat) (b : Nat) : UnitOut :=
  let a := descAt entry 8
  let d := descAt entry 24
  let c := descAt entry 40
  let fa := gIn 2 entry
  let fb := gInB 2 entry
  let beta := bitsOf entry 448 32
  let k0 := b * kBlock (fmtFp8 fa)
  let k1 := min g.k (k0 + kBlock (fmtFp8 fa))
  let ws := (tileElems g t).map fun ij =>
    let old := s.elem p none c ij.1 ij.2
    let start := if b ≠ 0 then old else if beta % 2 ^ 31 = 0 then 0 else ieMul fmtFp32 beta old
    (ij, dot fa fb a.fmt d.fmt (s.mat p none a) (s.mat p none d) start ij.1 ij.2 k0 k1)
  { dst := c, stage := none, ws := ws, sat := unitSat fa fb a.fmt d.fmt (s.mat p none a) (s.mat p none d) g t k0 k1,
    final := b + 1 == g.perTile (fmtFp8 fa), degenerate := false }

/-- A tile of a product over its first K-blocks. -/
def productTile (f : Nat) (a b : Mat) (g : GPass) (t : Nat × Nat) (k1 : Nat) : List ((Nat × Nat) × Nat) :=
  (tileElems g t).map fun ij => (ij, dot f f 0 0 a b 0 ij.1 ij.2 0 k1)

/-- NS_ROOT: only the last product, or the second scale pass of a single iteration, writes the result. -/
def State.rootUnit (s : State) (p entry i : Nat) (g : GPass) (t : Nat × Nat) (b lastUnitOfPass : Nat) : UnitOut :=
  let a := descAt entry 8
  let x := descAt entry 24
  let n := a.rows
  let pw := if bitOf entry 422 then 4 else 2
  let k := bitsOf entry 416 6
  let f := gIn 3 entry
  let bm := damped (s.mat p none a) (bitsOf entry 384 32)
  let c := frob n n bm
  let none' : UnitOut := { dst := noDesc, stage := none, ws := [], sat := 0, final := false, degenerate := false }
  if i = 0 then
    if lastUnitOfPass = 1 && c % 2 ^ 63 == 0 then
      { none' with dst := x, ws := ((List.range n).flatMap fun r => (List.range n).map fun cc => ((r, cc), 0)), degenerate := true }
    else none'
  else
    let it := rootStart n pw bm c
    if i = 1 then
      if k = 1 then { none' with dst := x, ws := (tileElems g t).map fun ij => (ij, ofRows it.x ij.1 ij.2), final := true }
      else none'
    else
      let ps := (rootProducts f n pw (k - 1) it).1
      match ps[i - 2]? with
      | none => none'
      | some (u, v) =>
        let k0 := b * kBlock (fmtFp8 f)
        let k1 := min g.k (k0 + kBlock (fmtFp8 f))
        let sat := unitSat f f 0 0 (ofRows u) (ofRows v) g t k0 k1
        if i - 1 = ps.length then
          { dst := x, stage := none, ws := productTile f (ofRows u) (ofRows v) g t k1, sat := sat,
            final := b + 1 == g.perTile (fmtFp8 f), degenerate := false }
        else { none' with sat := sat }

/-- Coefficient triple of an iteration. -/
def State.coef (s : State) (p entry it : Nat) : Nat × Nat × Nat :=
  let n := min it (bitsOf entry 456 3)
  let w := fun j => ((s.memData p (bitsOf entry 384 64 + 12 * n + 4 * j) 4).map ofLE).getD 0
  (w 0, w 1, w 2)

/-- NS_ORTHO: the last product of the last iteration writes the result. -/
def State.orthoUnit (s : State) (p entry i : Nat) (g : GPass) (t : Nat × Nat) (b lastUnitOfPass : Nat) : UnitOut :=
  let d := descAt entry 8
  let x := descAt entry 24
  let tr := decide (d.cols < d.rows)
  let r := orthoR entry
  let c := orthoC entry
  let f := gIn 4 entry
  let k := bitsOf entry 448 6
  let m := s.mat p none d
  let y0 : Mat := if tr then fun a e => m e a else m
  let xd : Desc := if tr then { x with trans := !x.trans } else x
  let nrm := ieAdd fmtFp64 (frob r c y0) (ieCast fmtFp32 fmtFp64 (bitsOf entry 480 32))
  let none' : UnitOut := { dst := noDesc, stage := none, ws := [], sat := 0, final := false, degenerate := false }
  if i = 0 then
    if lastUnitOfPass = 1 && nrm % 2 ^ 63 == 0 then
      { none' with dst := xd, ws := ((List.range r).flatMap fun a => (List.range c).map fun e => ((a, e), 0)), degenerate := true }
    else none'
  else if i = 1 then none'
  else
    let y := tabulate r c fun a e => ieCast fmtFp64 fmtFp32 (ieDiv fmtFp64 (ieCast fmtFp32 fmtFp64 (y0 a e)) nrm)
    let (ps, ys) := orthoProducts f r c (s.coef p entry) k 0 y
    match ps[i - 2]? with
    | none => none'
    | some (u, v, _) =>
      let k0 := b * kBlock (fmtFp8 f)
      let k1 := min g.k (k0 + kBlock (fmtFp8 f))
      let sat := unitSat f f 0 0 (ofRows u) (ofRows v) g t k0 k1
      let lastBlock := b + 1 == g.perTile (fmtFp8 f)
      if i - 1 = ps.length then
        let ca := (s.coef p entry (k - 1)).1
        let yl := ys.getD (k - 1) []
        let ws := (productTile f (ofRows u) (ofRows v) g t k1).map fun w =>
          (w.1, if lastBlock then ieAdd fmtFp32 (ieMul fmtFp32 ca (ofRows yl w.1.1 w.1.2)) w.2 else w.2)
        { dst := xd, stage := none, ws := ws, sat := sat, final := lastBlock, degenerate := false }
      else { none' with sat := sat }

/-- APPLY: the first product writes WORK; the second, or the copy pass, writes the block. -/
def State.applyUnit (s : State) (p entry i : Nat) (g : GPass) (t : Nat × Nat) (b : Nat) : UnitOut :=
  let stg := s.gStage p 5 entry
  let d := descAt entry 16
  let f := gIn 5 entry
  let pl := bitsOf entry 256 64
  let pr := bitsOf entry 320 64
  let wk := plainDesc (bitsOf entry 384 64) d.rows d.cols
  let blk := s.mat p stg d
  let lm := s.mat p none (plainDesc pl d.rows d.rows)
  let rm := s.mat p none (plainDesc pr d.cols d.cols)
  let k0 := b * kBlock (fmtFp8 f)
  let k1 := min g.k (k0 + kBlock (fmtFp8 f))
  let run := fun (a bb : Mat) (dst : Desc) (bs : Option Nat) (fin : Bool) =>
    let ws := (tileElems g t).map fun ij =>
      (ij, dot f f 0 0 a bb (if b = 0 then 0 else s.elem p bs dst ij.1 ij.2) ij.1 ij.2 k0 k1)
    ({ dst := dst, stage := bs, ws := ws, sat := unitSat f f 0 0 a bb g t k0 k1,
       final := fin && b + 1 == g.perTile (fmtFp8 f), degenerate := false } : UnitOut)
  if g.scale then
    { dst := d, stage := stg, ws := (tileElems g t).map fun ij => (ij, s.elem p none wk ij.1 ij.2), sat := 0, final := true,
      degenerate := false }
  else if i = 0 && pl != 0 then run lm blk wk none false
  else if i = 0 then run blk rm wk none false
  else run (s.mat p none wk) rm d stg true

/-- The unit of a command's number. -/
def State.gramUnitOut (s : State) (p entry i : Nat) (g : GPass) (t : Nat × Nat) (b last : Nat) : UnitOut :=
  match ceOpcode entry with
  | 1 => s.accUnit p entry g t b
  | 2 => s.mulUnit p entry g t b
  | 3 => s.rootUnit p entry i g t b last
  | 4 => s.orthoUnit p entry i g t b last
  | _ => s.applyUnit p entry i g t b

/-- WORK of an NS_ command: its contents are unspecified, free bytes. -/
def State.freeWork (s : State) (p entry : Nat) : State :=
  let op := ceOpcode entry
  if op = 3 || op = 4 then
    let bs := (List.range (nsWork op entry)).map fun i => BitVec.ofNat 8 (Config.free s.free i)
    { (s.memWrite p (bitsOf entry 320 64) bs).getD s with free := s.free + 1 }
  else s

/-- The byte ranges that a unit reads, each with the space it lies in: the operand blocks, the accumulators read back or started from, and the coefficients.  The
work area of NS_ROOT and NS_ORTHO is the engine's own. -/
def State.unitReads (s : State) (p op entry i : Nat) (g : GPass) (t : Nat × Nat) (b : Nat) : List (Option Nat × List (Nat × Nat)) :=
  let i0 := 256 * t.1
  let i1 := min g.rows (i0 + 256)
  let j0 := 256 * t.2
  let j1 := min g.cols (j0 + 256)
  let k0 := b * kBlock (fmtFp8 (gIn op entry))
  let k1 := min g.k (k0 + kBlock (fmtFp8 (gIn op entry)))
  let stg := s.gStage p op entry
  match op with
  | 1 =>
    let d := descAt entry 8
    let d := { d with trans := bitOf entry 320 }
    let l := descAt entry 24
    let old := if b = 0 && bitOf entry 321 then [] else (List.range (i1 - i0)).flatMap fun r => l.block (i0 + r) (i0 + r + 1) (max j0 (i0 + r)) j1
    [(stg, d.block i0 i1 k0 k1 ++ d.block j0 j1 k0 k1), (none, old)]
  | 2 =>
    let old := if b = 0 && bitsOf entry 448 31 == 0 then [] else (descAt entry 40).block i0 i1 j0 j1
    [(none, (descAt entry 8).block i0 i1 k0 k1 ++ (descAt entry 24).block k0 k1 j0 j1 ++ old)]
  | 3 => if i ≤ 1 then [(none, (descAt entry 8).block i0 i1 j0 j1)] else []
  | 4 =>
    let d := descAt entry 8
    if i ≤ 1 then [(none, ({ d with trans := decide (d.cols < d.rows) } : Desc).block i0 i1 j0 j1)]
    else if (i - 2) % 3 = 0 then []
    else [(none, [(bitsOf entry 384 64 + 12 * min ((i - 2) / 3) (bitsOf entry 456 3), 12)])]
  | _ =>
    let d := descAt entry 16
    let wk := plainDesc (bitsOf entry 384 64) d.rows d.cols
    let pl := plainDesc (bitsOf entry 256 64) d.rows d.rows
    let pr := plainDesc (bitsOf entry 320 64) d.cols d.cols
    let first := i = 0
    let acc := fun (x : Desc) => if b = 0 then [] else x.block i0 i1 j0 j1
    if g.scale then [(none, wk.block i0 i1 j0 j1)]
    else if first && bitsOf entry 256 64 != 0 then [(stg, d.block k0 k1 j0 j1), (none, pl.block i0 i1 k0 k1 ++ acc wk)]
    else if first then [(stg, d.block i0 i1 k0 k1), (none, pr.block k0 k1 j0 j1 ++ acc wk)]
    else [(none, wk.block i0 i1 k0 k1 ++ pr.block k0 k1 j0 j1), (stg, acc d)]

/-- The same as partition addresses. -/
def State.unitSpans (s : State) (p op entry i : Nat) (g : GPass) (t : Nat × Nat) (b : Nat) : List (Nat × Nat) :=
  (s.unitReads p op entry i g t b).flatMap fun x => (s.gRanges p x.1 x.2).getD []

/-- GRAM_PROGRESS_TIMEOUT: a unit of partition p did not end; the engine is faulted. -/
def State.gramProgressTimeout (s : State) (q p : Nat) : State :=
  if s.rdb F.GRM_FAULT_FAULTED [q] || s.rd F.GRM_PART_STATE [q, p] ≠ 2 then s
  else
    let inj := s.injEngine q 2
    let s := if inj then s.injFired else s
    let s := (((s.wr F.GRM_FAULT_FAULTED [q] 1).wr F.GRM_FAULT_PART [q] p).wr F.GRM_FAULT_OPCODE [q]
      (s.rd F.GRM_PART_OPCODE [q, p])).raise F.GRM_FAULT_VALID [q]
    let s := s.err { det := 0x0D, sev := 2, quad := q, unit := 2, cause := 2, info := s.rd F.GRM_PART_OPCODE [q, p] * 2 ^ 8 + 2 * p + 1,
                     inj := inj }
    (List.range 32).foldl (fun t r => if t.rd F.GRM_PART_STATE [q, r] == 2 then t.gramStop q r else t) s

/-- The next unit of a partition's running command: its pass, tile and K-block. -/
def State.gramNext (s : State) (q p : Nat) : Option (Nat × GPass × (Nat × Nat) × Nat) :=
  let entry := s.rd V.GRM_ENTRY [q, p]
  let op := ceOpcode entry
  if s.rd F.GRM_PART_STATE [q, p] = 2 && !s.rdb F.GRM_FAULT_FAULTED [q] then
    unitAt (fmtFp8 (gIn op entry)) 0 (gramPasses op entry) (s.rd F.GRM_PROG_DONE [q, p])
  else none

/-- Cycles of a unit from when it is chosen: the stager fills for 64 cycles before one that does not directly follow a unit of its partition (R274). -/
def State.gramCycles (s : State) (q p : Nat) (u : Nat × GPass × (Nat × Nat) × Nat) : Nat :=
  let entry := s.rd V.GRM_ENTRY [q, p]
  let follows := s.rd V.ENG_PART [q, 6] == p + 1 && s.rd V.ENG_FREE [q, 6] == s.rd V.CYCLE [q] + 1
  unitCycles (fmtFp8 (gIn (ceOpcode entry) entry)) u.2.1 u.2.2.1 u.2.2.2 + (if follows then 0 else 64)

/-- What a unit leaves behind. -/
def State.gramEffect (s : State) (q p : Nat) (u : Nat × GPass × (Nat × Nat) × Nat) : State :=
  let entry := s.rd V.GRM_ENTRY [q, p]
  let op := ceOpcode entry
  let fp8 := fmtFp8 (gIn op entry)
  let n := s.rd F.GRM_PROG_DONE [q, p]
  let (i, g, t, b) := u
  let lastOfPass := b2n (b + 1 == g.perTile fp8 && some t == g.tiles.getLast?)
  let o := s.gramUnitOut p entry i g t b lastOfPass
  let ws := if s.rdb V.GRM_TAINT [q, p] then s.taintElems o.ws else o.ws
  let s := if s.rdb V.GRM_TAINT [q, p] then s.freshen else s
  let s := if n = 0 then s.freeWork p entry else s
  let s := s.putTile p o.stage o.dst ws
  let s := (s.grmStat q p 0 1).grmStat q p 2 o.sat
  let s := if o.final then s.gramNonFinite q p (notFinite ws) else s
  let s := s.wr F.GRM_PROG_DONE [q, p] (n + 1)
  if o.degenerate then (s.grmStat q p 4 1).gramEnd q p entry 0
  else if n + 1 = s.rd F.GRM_PROG_TOTAL [q, p] then s.gramDone q p op entry
  else s

/-- The next unit of a partition's running command starts in this cycle. -/
def State.gramStarts (s : State) (q p : Nat) : Bool :=
  let entry := s.rd V.GRM_ENTRY [q, p]
  let op := ceOpcode entry
  match s.gramNext q p with
  | none => false
  | some u => !s.injEngine q 2 && !(gStaged op entry && s.rdb V.GRM_ABORT [q, p])
      && !((s.gAreas p op entry).any fun a => s.rangeLost p a.1 a.2) && s.unitGo q 6 p (s.gramCycles q p u)

/-- GRAM_UNIT: the next unit of a partition's running command.  A command whose step has FAILED stops (R270), and one that meets a LOST extent or an uncorrectable
sector in what the unit reads (R275). -/
def State.gramUnit (s : State) (q p : Nat) : State :=
  let entry := s.rd V.GRM_ENTRY [q, p]
  let op := ceOpcode entry
  match s.gramNext q p with
  | none => s
  | some u =>
    if s.injEngine q 2 then s.gramProgressTimeout q p
    else if gStaged op entry && s.rdb V.GRM_ABORT [q, p] then s.gramStop q p
    else if (s.gAreas p op entry).any fun a => s.rangeLost p a.1 a.2 then
      (s.err { det := 0x0D, sev := 1, part := p, quad := q, unit := 2, cause := 0x10, addr := ceTag entry }).gramStop q p
    else s.unit q 6 p (s.gramCycles q p u) fun s => s.asReq 1 q fun s =>
      let rs := s.unitSpans p op entry u.1 u.2.1 u.2.2.1 u.2.2.2
      match rs.find? fun a => s.readBad p a.1 a.2 with
      | some a => (s.noteRead 0x09 p a.1 a.2).gramStop q p
      | none => (rs.foldl (fun t a => t.noteRead 0x09 p a.1 a.2) s).gramEffect q p u

end Sys2Proof.Machine
end

