-- ==== Sys2Proof/Machine/Hbm.lean ====
section
/-! DEFINITION. HBM retirement, remapping and scrub, and the parking service (spec/12_hbm_and_parking.md). -/

namespace Sys2Proof.Machine

/-! ## Stacks and extents -/

/-- Lines of a stack in service (R366, R367). -/
def State.stackLines (s : State) (q l : Nat) : Nat :=
  if s.rd F.HBM_STACK_CH_RETIRED [q, l] = 0 then 187500000 else 175781250

/-- The partition that owns a device byte; 0 where no extent holds it. -/
def State.devOwner (s : State) (q l dev : Nat) : Nat :=
  let mib := dev / 2 ^ 20
  match ((List.range 64).map (s.extentOf q)).find? fun x =>
      x.valid && bitOf x.stackMask l && decide (x.base ≤ mib) && decide (mib < x.base + x.len) with
  | some x => x.part
  | none => 0

/-- Device bytes zeroed, with valid check bits (R382). -/
def State.zeroDev (s : State) (stack base n : Nat) : State :=
  let k := hbmKey stack base
  { s with hbm := s.hbm.filter (fun c => !(decide (k ≤ c.1) && decide (c.1 < k + n))),
           badSectors := SMap.eraseIf (fun x _ => x.getD 0 0 == stack && decide (base ≤ 32 * x.getD 1 0)
             && decide (32 * x.getD 1 0 < base + n)) s.badSectors }

/-- Every byte of an extent zeroed, on the stacks where it lies. -/
def State.zeroExtent (s : State) (x : Extent) : State :=
  x.stackList.foldl (fun t l => t.zeroDev (6 * x.quad + l) (x.base * 2 ^ 20) (x.len * 2 ^ 20)) s

/-! ## Patrol scrub (R377) -/

/-- One sector read by the scrub: a corrected sector is written back, an uncorrectable one is left unchanged. -/
def State.scrubSector (s : State) (stack sector : Nat) : State :=
  let part := s.devOwner (stack / 6) (stack % 6) (32 * sector)
  if SMap.get s.badSectors [stack, sector] 0 = 1 then
    { ((s.noteCorrected part stack sector).countBeat 19 part stack 1 |>.lockedBeats part stack) with
      badSectors := SMap.erase [stack, sector] s.badSectors }
  else if SMap.get s.badSectors [stack, sector] 0 = 2 then s.noteSector 0x09 part stack sector
  else s

/-- The scrub of a stack moves to its next line; a pass over every stack in service counts in PASSES. -/
def State.scrubNext (s : State) (q l : Nat) : State :=
  let n := s.rd V.SCRUB_LINE [q, l] + 1
  if n < s.stackLines q l then s.wr V.SCRUB_LINE [q, l] n
  else
    let s := s.wr V.SCRUB_LINE [q, l] 0
    let done := setBit (s.rd V.SCRUB_DONE [q]) l
    if (List.range 6).all fun i => bitOf done i || s.rd F.HBM_STACK_STATE [q, i] != 2 then
      (s.bump F.HBM_SCRUB_PASSES [q] 1).wr V.SCRUB_DONE [q] 0
    else s.wr V.SCRUB_DONE [q] done

/-- PATROL_SCRUB: the next line of a stack. -/
def State.patrolScrub (s : State) (q l : Nat) : State :=
  if !s.rdb F.HBM_SCRUB_EN [q] || s.rd F.HBM_STACK_STATE [q, l] ≠ 2 || s.rdb V.SCRUB_STOP [q] then s
  else
    let line := s.rd V.SCRUB_LINE [q, l]
    let part := s.devOwner q l (128 * line)
    (s.asReq 7 q fun s => (List.range 4).foldl (fun t i => t.scrubSector (6 * q + l) (4 * line + i)) (s.countBeat 18 part (6 * q + l) 2)).scrubNext q l

/-! ## Retirement and remapping (R378 to R381) -/

/-- True when an extent of a quadrant includes a stack where it is mapped now. -/
def State.extentOn (s : State) (q e l : Nat) : Bool :=
  let x := s.extentOf q e
  x.valid && bitOf x.stackMask l

/-- True when the spare of extent e can take it: it has one, the spare is not LOST, and no extent uses it. -/
def State.canRemap (s : State) (q e : Nat) : Bool :=
  let x := s.img.extent q e
  let y := s.img.extent q x.spareIdx
  !x.spare && x.hasSpare && y.valid && y.spare && !s.rdb F.HBM_EXTENT_LOST [q, x.spareIdx]
    && (y.stackList.all fun l => s.rd F.HBM_STACK_STATE [q, l] != 3)
    && !s.rdb F.HBM_EXTENT_REMAPPED [q, e]
    && !((List.range 64).any fun i => (s.img.extent q i).hasSpare && (s.img.extent q i).spareIdx == x.spareIdx
          && (s.rdb F.HBM_EXTENT_REMAPPING [q, i] || s.rdb F.HBM_EXTENT_REMAPPED [q, i]))

/-- An extent that includes a retired stack: LOST, and its remap started when its spare can take it (R379, R381). -/
def State.loseExtent (s : State) (q e : Nat) : State :=
  let s := s.wr F.HBM_EXTENT_LOST [q, e] 1
  if s.canRemap q e then s.wr F.HBM_EXTENT_REMAPPING [q, e] 1 else s

/-- A remap onto a spare that is itself LOST ends. -/
def State.dropRemaps (s : State) (q : Nat) : State :=
  (List.range 64).foldl (fun t e =>
    if t.rdb F.HBM_EXTENT_REMAPPING [q, e] && t.rdb F.HBM_EXTENT_LOST [q, (t.img.extent q e).spareIdx] then
      t.wr F.HBM_EXTENT_REMAPPING [q, e] 0
    else t) s

/-- True when a shard's records, staging or factor areas lie under a LOST extent (R256). -/
def State.shardUnder (s : State) (p : Nat) (h : ShardE) : Bool :=
  s.regionLost p 0 h.stateAddr (recBytes h * h.lchunk)
    || (h.stage && s.regionLost p 0 h.stageAddr (2048 * h.lchunk))
    || ((s.img.segs p h).any fun sg =>
          let g := s.img.grp p sg.group
          let fct := s.img.fact p h sg g
          g.recipe == 5 && s.regionLost p 0 sg.fact (fct.cf + up64 (4 * fct.cols) - sg.fact))

/-- The update engine's part of a retirement: shards LOST, the step in flight FAILED. -/
def State.loseShards (s : State) (p : Nat) : State :=
  let ks := (List.range 4096).filter fun k => !s.rdb V.SHARD_LOST [p, k] &&
    (match s.img.shardValid p k with | some h => s.shardUnder p h | none => false)
  if ks.isEmpty then s
  else
    let s := ks.foldl (fun t k => t.shardLost p k) s
    if s.updState p = 0 then s else s.stepFail p

/-- The slots' part: instances with a spill record under a LOST extent abort (R174). -/
def State.loseRecords (s : State) (q p : Nat) : State :=
  ((s.slotsOf q p).filter fun kv => match kv.2.res with
      | .record n => match s.recordAddr q p n with
        | some a => s.rangeLost p a 8320
        | none => false
      | _ => false).foldl (fun t kv => t.memoryAbort p (kv.1.getD 2 0) (kv.1.getD 3 0)) s

/-- The Gram engine's part: a command over a LOST extent stops and completes ABORTED (R275). -/
def State.loseGram (s : State) (q p : Nat) : State :=
  let entry := s.rd V.GRM_ENTRY [q, p]
  let op := ceOpcode entry
  if s.rd F.GRM_PART_STATE [q, p] == 2
      && (s.gAreas p op entry).any fun a => s.rangeLost p a.1 a.2 then
    (s.err { det := 0x0D, sev := 1, part := p, quad := q, unit := 2, cause := 0x10, addr := ceTag entry }).gramStop q p
  else s

/-- What the owner of LOST extents loses at a retirement. -/
def State.loseFor (s : State) (q p : Nat) : State :=
  let s := s.err { det := 0x09, sev := 1, part := p, quad := q, cause := 0x04 }
  let s := s.loseShards p
  ((List.range 4).foldl (fun t r => (t.loseRecords r p).loseGram r p) s).ringChecks p

/-- The extents of a retired stack, and their owners. -/
def State.loseStack (s : State) (q l : Nat) : State :=
  let es := (List.range 64).filter fun e => s.extentOn q e l && !s.rdb F.HBM_EXTENT_LOST [q, e]
  let s := (es.filter fun e => (s.img.extent q e).spare).foldl (fun t e => t.wr F.HBM_EXTENT_LOST [q, e] 1) s
  let s := s.dropRemaps q
  let s := (es.filter fun e => !(s.img.extent q e).spare).foldl (fun t e => t.loseExtent q e) s
  let ps := (List.range 32).filter fun p => es.any fun e => !(s.img.extent q e).spare && (s.img.extent q e).part == p
  ps.foldl (fun t p => t.loseFor q p) s

/-- Pages of a staged knit on a stack whose lines a retirement moves or takes away can be read no more (R379). -/
def State.losePages (s : State) (stack : Nat) : State :=
  { s with regs := SMap.eraseIf (fun k n => k.headD 0 == V.KNT_PAGE.id && n != 0 && (n - 1) / 2 ^ 40 == stack) s.regs }

/-- A channel or, on a second channel, a failure or a command, the stack is retired, and the boot flash holds it
(R378, R380). -/
def State.hbmRetire (s : State) (q l ch : Nat) (whole : Bool) : State :=
  let old := s.rd F.HBM_STACK_CH_RETIRED [q, l]
  if s.rd F.HBM_STACK_STATE [q, l] = 3 || (!whole && bitOf old ch) then s
  else if whole || old ≠ 0 then
    let s := ((s.wr F.HBM_STACK_STATE [q, l] 3).wr F.HBM_STACK_MAP_MIB [q, l] 0).wr V.RET_STACK [6 * q + l] 1
    (((s.losePages (6 * q + l)).wr V.ZERO_LOST [6 * q + l] 1).err { det := 0x09, sev := 2, quad := q, unit := l, cause := 16 }).loseStack q l
  else
    let s := ((s.wr F.HBM_STACK_CH_RETIRED [q, l] (setBit old ch)).wr F.HBM_STACK_MAP_MIB [q, l] 21457).wr
      V.RET_CH [6 * q + l] (setBit old ch)
    (((s.losePages (6 * q + l)).wr V.ZERO_LOST [6 * q + l] 1).err { det := 0x09, sev := 2, quad := q, unit := l, cause := ch }).loseStack q l

/-- The channels whose errors have met a threshold in this cycle are retired (R378). -/
def State.retiresDue (s : State) : State :=
  let ks := (s.regs.filter fun kv => kv.1.headD 0 == V.RET_DUE.id).map fun kv => kv.1
  let s := s.eraseRegs fun f _ => f == V.RET_DUE.id
  ks.foldl (fun t k => t.hbmRetire (k.getD 1 0 / 6) (k.getD 1 0 % 6) (k.getD 2 0) false) s

/-- HBM_RETIRE_CMD written. -/
def State.hbmRetireCmd (s : State) (q v : Nat) : State :=
  if bitOf v 8 && bitsOf v 0 3 < 6 then s.hbmRetire q (bitsOf v 0 3) (bitsOf v 3 4) (bitOf v 7) else s

/-- SPARE_REMAP_END: the zeroized spare takes the extent's addresses (R381). -/
def State.spareRemapEnd (s : State) (q e : Nat) : State :=
  if !s.rdb F.HBM_EXTENT_REMAPPING [q, e] then s
  else
    let s := s.zeroExtent (s.img.extent q (s.img.extent q e).spareIdx)
    ((s.wr F.HBM_EXTENT_REMAPPING [q, e] 0).wr F.HBM_EXTENT_REMAPPED [q, e] 1).wr F.HBM_EXTENT_LOST [q, e] 0

/-! ## Arbiter and injection (R392, R394) -/

/-- The Gram engine of a quadrant faulted, whatever it runs (R275). -/
def State.gramFault (s : State) (q : Nat) : State :=
  match (List.range 32).find? fun p => s.rd F.GRM_PART_STATE [q, p] == 2 with
  | some p => s.gramProgressTimeout q p
  | none => s

/-- HBM_LOCK_TIMEOUT: a locked sequence released by force.  Requesters 0, 2, 3 and 4 never lock (R391). -/
def State.hbmLockTimeout (s : State) (q l pc req : Nat) : State :=
  if req = 0 || req = 2 || req = 3 || req = 4 then s
  else
    let inj := s.injDet 0x0C q && s.rd V.INJ_TARGET [] % 16 == 1 + 2 * req
    let s := if inj then s.injFired else s
    let s := (((s.wr F.ARB_HBM_LOG_STACK [q] l).wr F.ARB_HBM_LOG_PC [q] pc).wr F.ARB_HBM_LOG_REQ [q] req).raise
      F.ARB_HBM_LOG_VALID [q]
    let s := (s.bump F.ARB_HBM_LOG_FIRES [q] 1).countLocal q (94 + l) 26 0 1
    let s := s.err
      { det := 0x0C, sev := 2, quad := q, unit := req, cause := 1, inj := inj,
        info := l + 8 * pc + 2 ^ 8 * req + 2 ^ 11 + 2 ^ 32 * s.rd F.ARB_HBM_LOG_FIRES [q] }
    if req = 1 then s.gramFault q
    else if req = 7 then s.wr V.SCRUB_STOP [q] 1
    else s

/-- The partition that owns the line a value of HBM_INJ names. -/
def State.injTargetPart (s : State) (q v : Nat) : Nat :=
  let us := s.channels (6 * q + bitsOf v 0 3)
  s.devOwner q (bitsOf v 0 3) (128 * (bitsOf v 8 28 * us.length + us.idxOf (bitsOf v 3 5)))

/-- The fields of HBM_INJ stored. -/
def State.hbmInjFields (s : State) (q v : Nat) : State :=
  (((s.wr F.HBM_INJ_STACK [q] (bitsOf v 0 3)).wr F.HBM_INJ_PC [q] (bitsOf v 3 5)).wr F.HBM_INJ_LINE [q] (bitsOf v 8 28)).wr
    F.HBM_INJ_BITS [q] (bitsOf v 36 2)

/-- HBM_INJ written: its fields, and with GO the injection armed when it is permitted (R394, R560). -/
def State.hbmInject (s : State) (q v : Nat) : State :=
  let s := s.hbmInjFields q v
  if !bitOf v 38 then s
  else
    let p := s.injTargetPart q v
    if 6 ≤ bitsOf v 0 3 || !s.injAllowed false p false then s.injRefused else s.injArm 3 0x09 q p 0

/-! ## The parking service (R383 to R387) -/

/-- Stored bytes of a request of u units in a mode; none where the mode or the length breaks R384. -/
def parkStored (mode u : Nat) : Option Nat :=
  if mode = 0 then (if 1 ≤ u && u ≤ 32 then some (64 * u) else none)
  else if mode = 1 then (if u = 32 then some 1088 else none)
  else if mode = 2 then (if 2 ≤ u && u ≤ 32 && u % 2 = 0 then some (32 * u) else none)
  else none

/-- A block of 32 BF16 words narrowed: elements, scale byte, whether X was clamped, whether it is a 0xFF block. -/
def parkBlock (ws : List Nat) : List Nat × Nat × Bool × Bool :=
  match ws.mapM fun w => decodeFloat fmtBf16 w with
  | none => (ws.map fun _ => 0, 255, false, true)
  | some xs =>
    let b := mxBlock 5 (xs.map fun x => (x, Rnd.rne))
    let nz := xs.filter fun x => x.n != 0
    let e : Int := match nz with
      | [] => 0
      | y :: ys => ys.foldl (fun m x => max m (floorLog2 x.n x.d)) (floorLog2 y.n y.d) - 8
    (b.1, b.2.1, decide (e < -127) || decide (127 < e), false)

/-- The numbers of w little-endian bytes in a byte string. -/
def wordsOf (w : Nat) (bs : List Byte) : List Nat := (chunksOf w bs.length bs).map ofLE

/-- A payload narrowed to its stored form, with the SAT and NONFINITE counts (R385). -/
def parkNarrow (mode : Nat) (pl : List Byte) : List Byte × Nat × Nat :=
  if mode = 1 then
    let bl := (chunksOf 32 1024 (wordsOf 2 (bytesAt pl 0 2048))).map parkBlock
    ((bl.flatMap fun b => b.1.map (BitVec.ofNat 8)) ++ bl.map (fun b => BitVec.ofNat 8 b.2.1) ++ List.replicate 32 0,
      (bl.filter fun b => b.2.2.1).length, (bl.filter fun b => b.2.2.2).length)
  else if mode = 2 then
    let rs := (wordsOf 4 pl).map fun w =>
      if ieNan fmtFp32 w then (0x7FC0, false)
      else
        let y := ieCast fmtFp32 fmtBf16 w
        (y, ieInf fmtBf16 y && !ieInf fmtFp32 w)
    (rs.flatMap fun r => leBytes 2 r.1, (rs.filter fun r => r.2).length, 0)
  else (pl, 0, 0)

/-- An element of mode 1 read back: the quiet NaN 0x7FC0 for a 0xFF block or S.1111.111. -/
def parkElem (e scale : Nat) : Nat :=
  match decodeFloat fmtE4m3 e with
  | none => 0x7FC0
  | some x => if scale = 255 then 0x7FC0 else ieRound fmtBf16 (fNeg fmtE4m3 e) (exScale x ((scale : Int) - 127))

/-- Stored bytes widened to the payload of a read. -/
def parkWiden (mode : Nat) (bs : List Byte) : List Byte :=
  if mode = 1 then
    (List.range 1024).flatMap fun j => leBytes 2 (parkElem (leAt bs j 1) (leAt bs (1024 + j / 32) 1))
  else if mode = 2 then (wordsOf 2 bs).flatMap fun w => leBytes 4 (w * 2 ^ 16)
  else bs

/-- True when a byte range of a partition touches an extent that changes owner in a border move. -/
def State.rangeMoving (s : State) (part a n : Nat) : Bool := s.rangeHas V.EXT_MOVING part a n

/-- Where the stored bytes of a request lie; none where R383 answers BOUNDS. -/
def State.parkTarget (s : State) (k : Packet) : Option (List (Loc × Nat)) :=
  let p := pkPart k
  let u := if pkOpcode k = 0x12 then pkPayUnits k else pkLenUnits k
  match parkStored (pkMode k) u with
  | none => none
  | some n => match s.img.regionAddr p 2 (pkAddr k) n with
    | none => none
    | some (_, a) => if !s.img.brimPark p || s.rangeLost p a n || s.rangeMoving p a n then none else s.place p a n

def State.prkStat (s : State) (q p c n : Nat) : State :=
  if n = 0 then s else (s.bumpOvf F.PRK_STAT_COUNT F.PRK_STAT_OVF [q, p, c] n).countLocal q 54 (16 + c) p n

/-- The extent in force that holds a device byte. -/
def State.devExtent (s : State) (q l dev : Nat) : Option Extent :=
  let mib := dev / 2 ^ 20
  ((List.range 64).map (s.extentOf q)).find? fun x =>
    x.valid && !x.spare && bitOf x.stackMask l && decide (x.base ≤ mib) && decide (mib < x.base + x.len)

/-- A piece of a queued request can be reached: its partition still owns the bytes, which are neither LOST nor changing owner (R383, R393). -/
def State.pieceLive (s : State) (p : Nat) (pc : Loc × Nat) : Bool :=
  match s.devExtent pc.1.quad (pc.1.stack % 6) pc.1.dev with
  | some x => x.part == p && !s.rdb F.HBM_EXTENT_LOST [x.quad, x.idx] && !s.rdb V.EXT_DEAD [x.quad, x.idx]
      && !s.rdb V.EXT_MOVING [x.quad, x.idx]
  | none => false

/-- Queued requests of a quadrant, in the order of their admission. -/
def State.parked (s : State) (q : Nat) : List Parked := SMap.get s.parkQ [q] []

def State.setParked (s : State) (q : Nat) (l : List Parked) : State :=
  { s with parkQ := if l.isEmpty then SMap.erase [q] s.parkQ else SMap.set [q] l s.parkQ }

/-- True when a request of a partition finds an entry: 256, of which each tenant with PARK keeps 4 (R387). -/
def State.parkRoom (s : State) (q p : Nat) : Bool :=
  let l := s.parked q
  let cnt := fun r => (l.filter fun k => pkPart k.pkt == r).length
  let kept := ((List.range 32).filter fun r => r != 0 && r != p && s.img.brimValid r && s.img.brimPark r).map fun r => 4 - cnt r
  decide (l.length + kept.foldl (· + ·) 0 < 256)

/-- A request takes its place: after those admitted before it, of one cycle in the order of their core ports (R393). -/
def parkInsert (r : Parked) : List Parked → List Parked
  | [] => [r]
  | x :: xs => if x.cycle = r.cycle && decide (r.port < x.port) then r :: x :: xs else x :: parkInsert r xs

/-- A request at the service: BOUNDS, BUSY, or queued (R383, R387). -/
def State.parkIn (s : State) (q : Nat) (k : Packet) : State :=
  let port := match (SMap.get s.svc [q, 45] []).find? fun h => h.pkt == k with
    | some h => h.inPort
    | none => 0
  s.atService q 45 k fun s =>
    let p := pkPart k
    match s.parkTarget k with
    | none => (s.prkStat q p 3 1).nack q k 5
    | some ps =>
      if s.rdb F.PRK_QUEUE_FAULTED [q] then (s.prkStat q p 3 1).nack q k 5
      else if !s.parkRoom q p then (s.prkStat q p 2 1).nack q k 7
      else
        let s := s.setParked q (parkInsert ⟨k, ps, s.rd V.CYCLE [q], port⟩ (s.parked q))
        s.wr F.PRK_QUEUE_PEAK [q] (max (s.rd F.PRK_QUEUE_PEAK [q]) (s.parked q).length)

/-- PARK_WRITE arrives at the service. -/
def State.parkWrite (s : State) (q : Nat) (k : Packet) : State := if pkOpcode k = 0x12 then s.parkIn q k else s

/-- PARK_READ arrives at the service. -/
def State.parkRead (s : State) (q : Nat) (k : Packet) : State := if pkOpcode k = 0x13 then s.parkIn q k else s

/-- A queued request applied to the bytes that its admission named: its reply, or BOUNDS where they can no longer be reached. -/
def State.parkDo (s : State) (q : Nat) (r : Parked) : State :=
  let k := r.pkt
  let p := pkPart k
  if !r.places.all (s.pieceLive p) then (s.prkStat q p 3 1).nack q k 5
  else if pkOpcode k = 0x12 then
    let (bs, sat, nf) := parkNarrow (pkMode k) (bytesAt k.payload 0 (64 * pkPayUnits k))
    let s := (s.writePlaces r.places bs).countBeats 19 p r.places
    (((s.prkStat q p 0 1).prkStat q p 4 sat).prkStat q p 5 nf).replyP q 0x22 0 k []
  else
    let d := s.placeRead r.places
    let s := s.notePlaces 0x09 p r.places
    match d with
    | .ok bs => (s.prkStat q p 1 1).replyP q 0x23 0 k (parkWiden (pkMode k) bs)
    | _ => (s.prkStat q p 3 1).nack q k 5

/-- Cycles of a request: the unit of work of the parking wheel (R387). -/
def parkCycles : Nat := 2

/-- PARK_APPLY: the oldest queued request of a partition (R386), in a slot of the parking wheel that is the partition's (R65, R66). -/
def State.parkApply (s : State) (q p : Nat) : State :=
  match (s.parked q).find? fun k => pkPart k.pkt == p with
  | none => s
  | some k =>
    if s.rdb F.PRK_QUEUE_FAULTED [q] then s
    else s.unit q 8 p parkCycles fun t => t.asReq 4 q fun t => (t.setParked q ((t.parked q).erase k)).parkDo q k

/-- PARK_SERVICE_FAULT: no request completed for 1 ms; every queued request is answered BOUNDS (R387). -/
def State.parkServiceFault (s : State) (q : Nat) : State :=
  if (s.parked q).isEmpty || s.rdb F.PRK_QUEUE_FAULTED [q] then s
  else
    let l := s.parked q
    let s := ((s.setParked q []).wr F.PRK_QUEUE_FAULTED [q] 1).err { det := 0x0D, sev := 2, quad := q, unit := 3 }
    l.foldl (fun t k => (t.prkStat q (pkPart k.pkt) 3 1).nack q k.pkt 5) s

/-- A partition reset discards its queued requests without replies (R387). -/
def State.parkReset (s : State) (p : Nat) : State :=
  (List.range 4).foldl (fun t q => t.setParked q ((t.parked q).filter fun k => pkPart k.pkt != p)) s

end Sys2Proof.Machine
end

