-- ==== Sys2Proof/Machine/KnitCore.lean ====
section
/-! DEFINITION. Knit files, their staging and the load in progress: headers, frames, shadow banks and failures
(R30 to R59, R69 of spec/02_knit_and_partitions.md). -/

namespace Sys2Proof.Machine

/-! ## Headers and frames (R32, R34, R35) -/

/-- The fields of a knit header. -/
structure KnitHdr where
  kind : Nat
  part : Nat
  twoPhase : Bool
  hostGo : Bool
  frames : Nat
  manifest : Nat
  serial : Nat
  preSerial : Nat
  preGroup : Nat
  groups : Nat
  base : Nat
  vote : Nat
  change : Nat
  deriving DecidableEq, Repr

def knitHdrOf (bs : List Byte) : KnitHdr :=
  { kind := leAt bs 12 1, part := leAt bs 13 1 % 32, twoPhase := bitOf (leAt bs 14 2) 0, hostGo := bitOf (leAt bs 14 2) 1,
    frames := leAt bs 16 4, manifest := leAt bs 20 4, serial := leAt bs 24 4, preSerial := leAt bs 28 4,
    preGroup := leAt bs 32 2, groups := leAt bs 34 2, base := leAt bs 36 4, vote := leAt bs 40 2 % 1024,
    change := leAt bs 44 8 }

/-- The fields of a frame. -/
structure Frame where
  region : Nat
  quad : Nat
  part : Nat
  off : Nat
  group : Nat
  len : Nat
  commit : Nat
  data : List Byte
  deriving DecidableEq, Repr

def frameOf (bs : List Byte) : Frame :=
  let a := leAt bs 0 4
  let n := leAt bs 6 2
  { region := bitsOf a 27 5, quad := bitsOf a 24 3, part := bitsOf a 19 5, off := 8 * bitsOf a 0 19, group := leAt bs 4 2,
    len := n, commit := leAt bs 8 1 % 8, data := bytesAt bs 16 n }

/-- Regions with one image per quadrant (R39). -/
def perQuad (region : Nat) : Bool := decide (region ≤ 5) || region == 7 || region == 0x0D

/-- Regions of partition 0 only. -/
def partZeroOnly (region : Nat) : Bool := decide (region ≤ 4) || region == 0x0A || region == 0x0B || region == 0x0E

/-- The commit kind of a region (R39): 0 IMMEDIATE, 1 QUIET, 2 EPOCH, 3 BORDER, 4 QUIESCE. -/
def commitOf (region part : Nat) : Nat :=
  match region with
  | 0x01 => 3 | 0x02 => 4 | 0x03 => 0 | 0x04 => 3
  | 0x05 => if part = 0 then 3 else 1
  | 0x06 => 2 | 0x07 => 2 | 0x08 => 1 | 0x09 => 1 | 0x0A => 0 | 0x0B => 0 | 0x0C => 1 | 0x0D => 0 | _ => 3

/-- The images that a frame writes. -/
def Frame.keys (f : Frame) : List (Nat × Nat × Nat) :=
  if f.quad = 4 && perQuad f.region then (List.range 4).map fun q => (f.region, q, f.part) else [(f.region, f.quad, f.part)]

/-! ## The staging area (R43, R44) -/

/-- The lowest-numbered stack in service. -/
def State.lowStack (s : State) : Nat :=
  ((List.range 24).find? fun k => s.rd F.HBM_STACK_STATE [k / 6, k % 6] == 2).getD 0

/-- Page i of the staging area that a load uses: its stack and device address; none where no extent in force gives it one. -/
def State.stagePlace (s : State) (i : Nat) : Option (Nat × Nat) :=
  match s.rd V.KNT_AREA [] with
  | 0 => match s.img.regionAddr 0 4 (4096 * i) 4096 with
    | some (_, a) => match s.place 0 a 4096 with
      | some [(x, _)] => if s.placesAlive [(x, 4096)] then some (x.stack, x.dev) else none
      | _ => none
    | none => none
  | k + 1 => some (k, 4096 * i)

/-- The pages of a knit written to staging, from page i on.  Where each lies is held for the whole load, so that a group that moves the KNIT region
does not move the pages of the load that carries it (R48). -/
def State.stagePages (s : State) : Nat → List (List Byte) → State
  | _, [] => s
  | i, pg :: r =>
    let s := match s.stagePlace i with
      | some (k, a) => ((s.devWrite k a pg).countBeat 19 0 k (ceilDiv pg.length 64)).wr V.KNT_PAGE [i] (1 + hbmKey k a)
      | none => s
    s.stagePages (i + 1) r

/-- A page of the staged knit; none where a sector of it is uncorrectable, or its stack has been retired (R376, R379). -/
def State.stagedPage (s : State) (i : Nat) : Option (List Byte) :=
  match s.rd V.KNT_PAGE [i] with
  | 0 => none
  | a + 1 =>
    if (List.range 128).any fun j => SMap.get s.badSectors [a / 2 ^ 40, a % 2 ^ 40 / 32 + j] 0 == 2 then none
    else some (Mem.readN s.hbm a 4096)

/-- A knit file put into staging. -/
def State.stageKnit (s : State) (bs : List Byte) : State :=
  let s := s.wr V.KNT_AREA [] (if s.rdb V.BASE_APPLIED [] then 0 else 1 + s.lowStack)
  let s := (s.eraseRegs fun f _ => f == V.KNT_PAGE.id).wr V.KNT_HDR [] (leAt bs 0 64)
  s.stagePages 0 (chunksOf 4096 bs.length bs)

/-- The header of the knit being loaded. -/
def State.knitHdr (s : State) : KnitHdr := knitHdrOf (leBytes 64 (s.rd V.KNT_HDR []))

/-- The frames of group g of the staged knit; none when a page cannot be read. -/
def State.groupFrames (s : State) (g : Nat) : Option (List Frame) :=
  ((List.range s.knitHdr.frames).mapM fun i => (s.stagedPage (i + 1)).map frameOf).map
    fun fs => fs.filter fun f => f.group == g

/-! ## Shadow banks (R47 to R49) -/

/-- The shadow bank of an image: for RANK and ROUTE the bank not being stamped. -/
def State.shadowBank (s : State) (region quad part : Nat) : Nat :=
  if region = 6 || region = 7 then 1 - s.stamp part else 1 - s.img.active region quad part

/-- An image copied from its active bank into its shadow. -/
def State.resyncImg (s : State) (k : Nat × Nat × Nat) : State :=
  let b := s.shadowBank k.1 k.2.1 k.2.2
  { s with img := s.img.copyBank (1 - b) b k.1 k.2.1 k.2.2 }

/-- A frame written to the shadow banks of its images. -/
def State.frameWrite (s : State) (f : Frame) : State :=
  f.keys.foldl (fun t k => { t with img := t.img.put (t.shadowBank k.1 k.2.1 k.2.2) k.1 k.2.1 k.2.2 f.off f.data }) s

/-- The bank select of an image switched; RANK and ROUTE switch with the stamp bank. -/
def State.switchImg (s : State) (k : Nat × Nat × Nat) : State :=
  if k.1 = 6 || k.1 = 7 then s
  else { s with img := { s.img with sel := SMap.set [k.1, k.2.1, k.2.2] (1 - s.img.active k.1 k.2.1 k.2.2) s.img.sel } }

/-- The images that frames write. -/
def imageKeys (fs : List Frame) : List (Nat × Nat × Nat) := (fs.flatMap Frame.keys).eraseDups

/-- The images of the two epoch banks of a partition. -/
def epochKeys (p : Nat) : List (Nat × Nat × Nat) := (6, 4, p) :: (List.range 4).map fun q => (7, q, p)

/-- The images to make equal to their active banks before a group is written. -/
def syncKeys (fs : List Frame) : List (Nat × Nat × Nat) :=
  let ks := imageKeys fs
  match ks.find? fun k => k.1 == 6 || k.1 == 7 with
  | some k => (ks ++ epochKeys k.2.2).eraseDups
  | none => ks

/-- The state with a group's images as the group would make them. -/
def State.candidate (s : State) (fs : List Frame) : State :=
  let ks := imageKeys fs
  let t := ks.foldl State.switchImg s
  match ks.find? fun k => k.1 == 6 || k.1 == 7 with
  | some k =>
    let b := 1 - s.stamp k.2.2
    (t.wr F.XPT_EPOCH_STAMP [k.2.2] b).wr (if b = 0 then F.XPT_EPOCH_VALID_A else F.XPT_EPOCH_VALID_B) [k.2.2] 1
  | none => t

/-! ## The load in progress (R45, R55, R57, R595) -/

/-- The view that the load in progress shows in: a function, or 33 for a load at start-up. -/
def State.knitFn (s : State) : Nat := s.rd V.KNT_FN [] - 1

def State.knitBusy (s : State) : Bool := s.rdb V.KNT_FN []

/-- KNT_STATUS.STATE of the load in progress, with the interrupt of R70 at DONE and FAILED. -/
def State.knitState (s : State) (st : Nat) : State :=
  let s := s.wr F.KNT_STATUS_STATE [s.knitFn] st
  if 5 ≤ st && s.knitFn < 32 then s.msix s.knitFn 0 else s

/-- KNT_PART_STATE of a partition. -/
def State.partState (s : State) (p serial group part : Nat) : State :=
  ((s.wr F.KNT_PART_STATE_SERIAL [p] serial).wr F.KNT_PART_STATE_GROUP [p] group).wr F.KNT_PART_STATE_PARTIAL [p] part

/-- A partition holds no configuration. -/
def State.partEmpty (s : State) (p : Nat) : Bool :=
  s.rd F.KNT_PART_STATE_SERIAL [p] == 0 && s.rd F.KNT_PART_STATE_GROUP [p] == 0 && !s.rdb F.KNT_PART_STATE_PARTIAL [p]

/-- What VOTE_CONTEXT must be (R58). -/
def State.voteCtx (s : State) (c : Nat) : Option CtxE :=
  match s.img.ctx c with
  | some (p, e) => if p = 0 && e.self && e.op = 4 then some e else none
  | none => none

/-- The module contributes v to the vote; false when the context does not meet R58 any more. -/
def State.voteCast (s : State) (v : Nat) : State × Bool :=
  let h := s.knitHdr
  match s.voteCtx h.vote with
  | some e =>
    if s.ctxActive e then ((s.wr V.KNT_VOTE [] 2).mitSelf h.vote 0 (h.change % 2 ^ 32) e ⟨v, false, false⟩, true)
    else (s.wr V.KNT_VOTE [] 2, false)
  | none => (s.wr V.KNT_VOTE [] 2, false)

/-- The partition whose images the group in progress writes. -/
def State.groupPart (s : State) : Nat :=
  match s.groupFrames (s.rd V.KNT_GROUP []) with
  | some (f :: _) => f.part
  | _ => s.knitHdr.part

/-- What a waiting group holds back is released: slot creation (R52), a flip that it waits for (R49), border ports, quotas, extents and wheel slots
(R67), quiesced quadrants. -/
def State.knitRelease (s : State) : State :=
  let p := s.groupPart
  let s := if (s.rd V.KNT_WAIT [] = 3 || s.rd V.KNT_WAIT [] = 7) && s.rd F.XPT_EPOCH_STATE [p] = 2 && !s.rdb V.WAIT_FLIP [p] then
      s.wr F.XPT_EPOCH_STATE [p] 1 else s
  let s := s.eraseRegs fun f _ => f == V.KNIT_QUIET.id || f == V.BORDER_PORT.id || f == V.BORDER_LOWERED.id || f == V.BORDER_QUOTA.id
    || f == V.EXT_MOVING.id || f == V.BORDER_WHEEL.id
  let s := s.wr V.BORDER_DRAIN [] 0
  (List.range 4).foldl (fun t q =>
    if t.rdb V.QUIESCE [q] then (t.wr V.QUIESCE [q] 0).restore ((List.range 36).map fun k => 36 * q + k) 6 else t) s

/-- The load in progress is over. -/
def State.knitIdle (s : State) : State :=
  (((s.wr V.KNT_FN [] 0).wr V.KNT_WAIT [] 0).wr V.KNT_VOTE [] 0).wr V.KNT_GROUP [] 0

/-- The load in progress fails (R55, R57): group 0 for a failure of steps 1 to 5 or of a knit not yet released.  DEDUCED (log entry 33): FAIL_FRAME reads 0 where no frame
failed, and a two-phase knit whose staging failed contributes 0 at once, HOST_GO or not. -/
def State.knitFail (s : State) (code group frame : Nat) : State :=
  let f := s.knitFn
  let h := s.knitHdr
  let part := if f < 32 && (s.rd F.KNT_STATUS_STATE [f] ≤ 1 || code ≤ 3 || code = 0x0E) then f else h.part
  let s := if s.rd V.KNT_VOTE [] = 1 then (s.voteCast 0).1 else s
  let s := s.knitRelease
  let s := if group = 0 then s else s.partState h.part h.serial (group - 1) 1
  let s := ((s.wr F.KNT_STATUS_LAST_GROUP [f] (group - 1)).wr F.KNT_STATUS_FAIL_GROUP [f] group).wr F.KNT_STATUS_FAIL_CODE [f] code
  let s := s.wr F.KNT_FAIL_FRAME_FRAME [f] frame
  let s := s.err { det := 0x16, sev := 1, part := part, unit := group, cause := code, addr := frame }
  (s.knitState 6).knitIdle

/-- True while a group of the load is staged or waits: the whole file has passed steps 1 to 5. -/
def State.groupWaits (s : State) : Bool := s.knitBusy && s.rd V.KNT_WAIT [] != 8 && s.rdb V.KNT_GROUP []

/-- R54: a group of a reset partition that is staged or waiting fails. -/
def State.knitPartReset (s : State) (p : Nat) : State :=
  if s.groupWaits && s.groupPart == p then s.knitFail 0x0C (s.rd V.KNT_GROUP []) 0 else s

/-- A Yofen reset during a load: every uncommitted group fails as under a partition reset (R54); a file that is still being fetched has none. -/
def State.knitYofenReset (s : State) : State :=
  if s.knitBusy then s.knitFail 0x0C (if s.groupWaits then s.rd V.KNT_GROUP [] else 0) 0 else s

end Sys2Proof.Machine
end

