-- ==== Sys2Proof/Machine/Mover.lean ====
section
/-! DEFINITION. The Mover: channels, the instructions of its programs, commands, records and bus errors
(spec/13_mover.md).  Channel c of R395 (1 to 3) has index c − 1. -/

namespace Sys2Proof.Machine

/-! ## Channel state -/

def State.movSt (s : State) (q p c : Nat) : Nat := s.rd F.MOV_CH_STAT_STATE [q, p, c]

/-- A new channel state.  The cycles spent in WAITING are the sampler's WAIT (R554). -/
def State.setMov (s : State) (q p c st : Nat) : State :=
  let was := s.movSt q p c
  let s := if was = 2 && st != 2 then s.sampleWait [q, 4, p, c] (s.rd V.CYCLE [q] - s.rd V.MOV_WAITC [q, p, c]) else s
  let s := if st = 2 && was != 2 then s.wr V.MOV_WAITC [q, p, c] (s.rd V.CYCLE [q]) else s
  s.wr F.MOV_CH_STAT_STATE [q, p, c] st
def State.movPc (s : State) (q p c : Nat) : Nat := s.rd F.MOV_CH_STAT_PC [q, p, c]

/-- The position registers of a channel (R413). -/
def State.setPos (s : State) (q p c i0 i1 i2 off : Nat) : State :=
  ((((s.wr F.MOV_CH_POS_I0 [q, p, c] i0).wr F.MOV_CH_POS_I1 [q, p, c] i1).wr F.MOV_CH_POS_I2 [q, p, c] i2).wr
    F.MOV_CH_POS_BEAT [q, p, c] (min (off / 64) 65535)).wr F.MOV_CH_OFF_OFFSET [q, p, c] off

/-- The channel's instruction may run: RUNNING, and the Mover is not stopped. -/
def State.movRuns (s : State) (q p c : Nat) : Bool :=
  s.movSt q p c == 1 && !s.rdb F.MOV_STAT_STOPPED [q] && !s.rdb F.MOV_STAT_FAULTED [q]

/-! ## Completion (R409 to R412) -/

/-- True when a waiting PAUSE, RESUME or ABORT has completed in a channel state (R409). -/
def cmdMet (op st : Nat) : Bool :=
  if op = 2 then st == 4 || st == 0 else if op = 3 then st != 4 && st != 3 else st == 0

/-- The waiting commands of a channel that its state completes. -/
def State.movSettle (s : State) (q p c : Nat) : State :=
  let l := SMap.get s.movCmds [q, p, c] []
  let st := s.movSt q p c
  let keep := l.filter fun e => !cmdMet (ceOpcode e) st
  let s := { s with movCmds := if keep.isEmpty then SMap.erase [q, p, c] s.movCmds else SMap.set [q, p, c] keep s.movCmds }
  (l.filter fun e => cmdMet (ceOpcode e) st).foldl (fun t e => t.cmdDone q p 3 e 0) s

/-- The program ends, and with it the instruction in progress: the channel waits in ENDING for its record. -/
def State.movEnding (s : State) (q p c status word : Nat) (toErr : Bool) : State :=
  let s := (s.setMov q p c 5).sampleEnd [q, 4, p, c] status
  ((((s.wr F.MOV_CH_STAT_STATUS [q, p, c] status).wr V.MOV_ENDW [q, p, c] word).wr V.MOV_TO_ERR [q, p, c]
    (b2n toErr)).wr V.MOV_DROP [q, p, c] 0).wr F.MOV_CH_STAT_BUSY [q, p, c] 0

/-- The program stops at an instruction with an error; ALIGN, BOUNDS and FIELD write a record (R416). -/
def State.movStop (s : State) (q p c status word : Nat) : State :=
  let s := s.movEnding q p c status word true
  if status = 0x22 then s.wr V.MOV_DATAC [q, p, c] (s.rd V.CYCLE [q] + 1)
  else s.err { det := 0x0B, sev := 1, part := p, quad := q, unit := c + 1, cause := status, addr := word }

/-- The queue's vector, at most once per µs (R411). -/
def State.movVector (s : State) (q p c : Nat) : State :=
  if s.rd V.MOV_VEC_TIME [q, p, c] ≤ s.timeNs then
    ((s.vector p (s.rd F.MOV_CQ_CTL_VECTOR [q, p, c])).wr V.MOV_VEC_TIME [q, p, c] (s.timeNs + 1000)).wr V.MOV_VEC_DUE [q, p, c] 0
  else s.wr V.MOV_VEC_DUE [q, p, c] 1

/-- The 32 B record of R410, without PHASE. -/
def State.movRecord (s : State) (q p c : Nat) : Nat :=
  let st := s.rd F.MOV_CH_STAT_STATUS [q, p, c]
  let fw := s.rd V.MOV_FWORD [q, p, c]
  let word := if st = 0 && fw ≠ 0 then fw - 1 else s.rd V.MOV_ENDW [q, p, c]
  st + (c + 1) * 2 ^ 8 + s.rd V.MOV_TAG [q, p, c] * 2 ^ 32 + s.timeNs % 2 ^ 64 * 2 ^ 64 + s.rd V.MOV_MISM [q, p, c] * 2 ^ 128
    + s.rd V.MOV_FIRST [q, p, c] % 2 ^ 40 * 2 ^ 160 + word % 2 ^ 40 * 2 ^ 200

/-- The bytes of the record at PROD, PHASE in the last bit. -/
def State.movRecordBytes (s : State) (q p c prod log2 : Nat) : List Byte :=
  let r : Nat := s.movRecord q p c
  leBytes 31 r ++ [BitVec.ofNat 8 (r / 2 ^ 248 + 128 * cqPhase log2 prod)]

/-- An ENDING channel's record written to its completion queue, or LOSTREC where it cannot be written (R411). -/
def State.movRecordOut (s : State) (q p c : Nat) : State :=
  let log2 := s.rd F.MOV_CQ_CTL_LOG2SIZE [q, p, c]
  let prod := s.rd F.MOV_CQ_PTR_PROD [q, p, c]
  let host := s.rdb F.MOV_CQ_CTL_HOST [q, p, c]
  match s.ringWrite p (s.rd F.MOV_CQ_BASE_ADDR [q, p, c] * 32) host log2 prod (s.movRecordBytes q p c prod log2) with
  | some t => (t.bump F.MOV_CQ_PTR_PROD [q, p, c] 1).wr F.MOV_CH_STAT_LOSTREC [q, p, c] 0
  | none => (if host then s.hostFail p else s).wr F.MOV_CH_STAT_LOSTREC [q, p, c] 1

/-- The channel after its record: IDLE or ERROR, and the COMMAND record of the START that began it. -/
def State.movRecordEnd (s : State) (q p c : Nat) : State :=
  let e := s.rd V.MOV_START_E [q, p, c]
  let err := s.rdb V.MOV_TO_ERR [q, p, c]
  let s := if err then (s.setMov q p c 6).raise F.MOV_CH_CTL_ERR [q, p, c] else s.setMov q p c 0
  let s := (s.wr V.MOV_START_E [q, p, c] 0).wr V.MOV_TO_ERR [q, p, c] 0
  let s := if e = 0 then s else s.cmdDone q p 3 e (s.rd F.MOV_CH_STAT_STATUS [q, p, c])
  s.movSettle q p c

/-- MOVER_RECORD_WRITE: an ENDING channel's record once its queue has room; the channel then goes IDLE or ERROR. -/
def State.movRecordWrite (s : State) (q p c : Nat) : State :=
  let room := decide ((s.rd F.MOV_CQ_PTR_PROD [q, p, c] + 2 ^ 32 - s.rd F.MOV_CQ_PTR_CONS [q, p, c]) % 2 ^ 32
    < 2 ^ s.rd F.MOV_CQ_CTL_LOG2SIZE [q, p, c])
  if s.movSt q p c ≠ 5 || !room then s
  else ((s.movRecordOut q p c).movVector q p c).movRecordEnd q p c

/-! ## Bus errors (R417 to R420) -/

/-- A program that a data error has stopped in this cycle: the bus error governs (R415). -/
def State.movBusWins (s : State) (q p c : Nat) : State :=
  if s.movSt q p c = 5 && s.rd V.MOV_DATAC [q, p, c] == s.rd V.CYCLE [q] + 1 then
    ((s.setMov q p c 1).wr V.MOV_TO_ERR [q, p, c] 0).wr F.MOV_CH_STAT_STATUS [q, p, c] 0
  else s

/-- Every channel of the quadrant's Mover stops, the pager with it; the third within 1 s faults the Mover. -/
def State.movBusError (s : State) (q cause : Nat) : State :=
  if s.rdb F.MOV_STAT_STOPPED [q] || s.rdb F.MOV_STAT_FAULTED [q] then s
  else
    let now := s.timeNs
    let old := s.rd V.MOV_BE2 [q]
    let s := (((s.wr F.MOV_STAT_STOPPED [q] 1).wr V.PAGER_STOP [q] 1).wr F.MOV_STAT_CAUSE [q] cause).bump F.MOV_STAT_BUSERRS [q] 1
    let s := (s.wr V.MOV_BE2 [q] (s.rd V.MOV_BE1 [q])).wr V.MOV_BE1 [q] (now + 1)
    let s := s.wr V.ZERO_BUSERR [q] (s.rd V.ZERO_BUSERR [q] + b2n (s.rd V.KNT_WAIT [] == 5))
    let s := (List.range 32).foldl (fun t p => [0, 1, 2].foldl (fun t c => t.movBusWins q p c) t) s
    if old ≠ 0 && now + 1 - old ≤ 10 ^ 9 then
      (s.wr F.MOV_STAT_FAULTED [q] 1).err { det := 0x0B, sev := 2, quad := q, cause := 0x23, info := 1 + 2 + 4 * cause }
    else s

/-- MOVER_BUS_ERROR: reported with its cause; 5 is a parity error, which an injection may have made (R559, 0x0B). -/
def State.movBusErrorCmd (s : State) (q cause : Nat) : State := s.movBusError q cause

/-- MOVER_BEAT_TIMEOUT. -/
def State.movBeatTimeout (s : State) (q : Nat) : State := s.movBusError q 4

/-! ## Instruction words (R399, R402 to R405) -/

/-- STATUS with which an instruction word (and for MOVE the next) stops at its fetch, 0 for none.  FIELD is looked for
before ALIGN. -/
def movCheck (a b : Nat) : Nat :=
  let z := fun x lo w => bitsOf x lo w == 0
  match bitsOf a 0 8 with
  | 1 =>
    if !(z a 12 4 && z a 16 48 && z a 224 32 && z b 48 16) || bitsOf a 8 2 = 3 || bitsOf a 10 2 = 3
        || bitsOf b 0 16 = 0 || bitsOf b 16 16 = 0 || bitsOf b 32 16 = 0 then 0x21
    else if !(z a 64 6 && z a 128 6 && z a 192 6) || bitsOf a 192 32 = 0 then 0x20 else 0
  | 2 =>
    if !(z a 10 6 && z a 16 48) || bitsOf a 8 2 = 3 then 0x21
    else if !(z a 64 6 && z a 192 6) || bitsOf a 192 64 = 0 then 0x20 else 0
  | 3 =>
    if !(z a 13 3 && z a 16 48) || bitsOf a 8 2 = 3 || (!bitOf a 12 && bitsOf a 10 2 = 3) then 0x21
    else if !(z a 64 6 && z a 192 6 && (bitOf a 12 || z a 128 6)) || bitsOf a 192 64 = 0 then 0x20 else 0
  | 4 => if z a 12 20 && z a 64 192 then 0 else 0x21
  | 5 =>
    let t := bitsOf a 8 2
    if !(z a 10 6 && z a 24 8 && z a 64 192) || t = 3 || (t = 0 && 15 < bitsOf a 16 8) || (t = 2 && 254 < bitsOf a 16 8) then 0x21
    else 0
  | 6 => if !(z a 8 56 && z a 128 128) then 0x21 else if z a 64 5 then 0 else 0x20
  | 7 => if z a 8 248 then 0 else 0x21
  | _ => 0x21

/-- The word at an address of the partition for a channel: its bits, or the STATUS with which the fetch fails.  A word that the host has written since the program's
START is a free value: the Mover fetches words ahead (R401). -/
def State.movWord (s : State) (q p c a : Nat) : Nat × Nat :=
  match s.memRead p a 32 with
  | .ok d =>
    let n := s.rd V.MOV_WROTE [q, p, c, a / 32]
    (if n = 0 then ofLE d else Config.free (n - 1) 0 % 2 ^ 256, 0)
  | .outside => (0, 5)
  | _ => (0, 0x22)

/-- The instruction at a channel's position, with the STATUS that stops it, 0 for none. -/
def State.movInstr (s : State) (q p c : Nat) : Nat × Nat × Nat :=
  let pc := s.movPc q p c
  let (a, x) := s.movWord q p c pc
  let (b, y) := if bitsOf a 0 8 = 1 && x = 0 then s.movWord q p c (pc + 32) else (0, 0)
  if pc % 32 ≠ 0 then (a, b, 0x20) else if x ≠ 0 then (a, b, x) else if y ≠ 0 then (a, b, y) else (a, b, movCheck a b)

/-- What the fetch of the instruction at an address reads and reports. -/
def State.movFetchNote (s : State) (q p c pc : Nat) : State :=
  s.asReq 3 q fun t => t.noteRead 0x09 p pc (if bitsOf (s.movWord q p c pc).1 0 8 = 1 && (s.movWord q p c pc).2 = 0 then 64 else 32)

/-- The channel fetches the instruction at an address: one that breaks the rules stops it, and another starts. -/
def State.movFetch (s : State) (q p c pc : Nat) : State :=
  let s := (s.wr F.MOV_CH_STAT_PC [q, p, c] pc).setPos q p c 0 0 0 0
  if 2 ^ 40 ≤ pc then s.movStop q p c 5 pc
  else
    let x := s.movInstr q p c
    let s := if pc % 32 = 0 then s.movFetchNote q p c pc else s
    if x.2.2 = 0 then s.sampleBegin 4 p [q, 4, p, c] (c + 1) (s.rd V.MOV_TAG [q, p, c]) pc 0 else s.movStop q p c x.2.2 pc

/-- The instruction at the position when the channel runs and the opcode is the row's. -/
def State.movAt (s : State) (q p c op : Nat) : Option (Nat × Nat) :=
  let x := s.movInstr q p c
  if s.movRuns q p c && x.2.2 == 0 && bitsOf x.1 0 8 == op then some (x.1, x.2.1) else none

/-- An instruction ends: counted, its sample written, and the next one fetched. -/
def State.movNext (s : State) (q p c next : Nat) : State :=
  (s.sampleEnd [q, 4, p, c] 0).movFetch q p c next

/-- The host writes n bytes of a partition's memory: words of the programs of its channels that have started (R401). -/
def State.movTaint (s : State) (p a n : Nat) : State :=
  let k := (a + n + 31) / 32 - a / 32
  (List.range 12).foldl (fun t j =>
    if t.movSt (j / 3) p (j % 3) = 0 || t.movSt (j / 3) p (j % 3) = 6 then t
    else (List.range k).foldl (fun t i => t.wr V.MOV_WROTE [j / 3, p, j % 3, a / 32 + i] (s.free + 1 + i)) t)
    { s with free := s.free + k }

/-! ## Runs (R398, R400, R404) -/

/-- True when a run of a space passes its check. -/
def State.runOk (s : State) (p space : Nat) (a : Int) (n : Nat) : Bool :=
  if space = 1 then true
  else if a < 0 then false
  else if space = 2 then p == 0 && decide (a.toNat + n ≤ 2 ^ 28)
  else (s.place p a.toNat n).isSome

/-- n bytes of the slab of a quadrant. -/
def State.slabRead (s : State) (q a n : Nat) : List Byte :=
  (List.range (n / 16)).flatMap fun i =>
    let w := a / 16 + i
    leBytes 16 (SMap.get s.slab [q, w / 512, w % 512] 0)

/-- Bytes written to the slab of a quadrant. -/
def State.slabWrite (s : State) (q a : Nat) (bs : List Byte) : State :=
  { s with slab := ((List.range (bs.length / 16)).foldl (fun m i =>
      let w := a / 16 + i
      slabPut m [q, w / 512, w % 512] (leAt bs (16 * i) 16)) s.slab) }

/-- How a run's read ends: its bytes, a data error at an offset, or a failed host access. -/
inductive RunRead where
  | ok (bs : List Byte)
  | data (off : Nat)
  | host
  deriving DecidableEq, Repr

/-- The beats of a run before its first uncorrectable one. -/
def State.goodBytes (s : State) (p a n : Nat) : Nat :=
  64 * ((List.range (n / 64)).findIdx fun i => s.readBad p (a + 64 * i) 64)

/-- A run read; host bytes come with the command. -/
def State.runRead (s : State) (q p space : Nat) (a : Int) (n : Nat) (host : List Byte) : RunRead :=
  if space = 1 then (if s.hostOk p then .ok (bytesAt host 0 n) else .host)
  else if space = 2 then .ok (s.slabRead q a.toNat n)
  else match s.memRead p a.toNat n with
    | .ok d => .ok d
    | .uncorrectable _ _ => .data (s.goodBytes p a.toNat n)
    | _ => .data 0

/-- What a run's read reports (R376). -/
def State.runNote (s : State) (q p space : Nat) (a : Int) (n : Nat) : State :=
  if space = 0 then s.noteRead 0x09 p a.toNat n else if space = 2 then s.slabSpan q a.toNat n p else s

/-- A run written; none where its bytes lie in a LOST extent. -/
def State.runWrite (s : State) (q p space : Nat) (a : Int) (bs : List Byte) : Option State :=
  if space = 1 then some (s.tlp (.hostWrite p (a % 2 ^ 64).toNat bs))
  else if space = 2 then some ((s.slabSpan q a.toNat bs.length p).slabWrite q a.toNat bs)
  else s.memWrite p a.toNat bs

/-- How a cycle of issue ends: beats left for the next one, the instruction done, a stop, or a bus error. -/
inductive RunEnd where
  | more
  | done
  | stop (status : Nat)
  | bus
  deriving DecidableEq, Repr

/-- n bytes copied from an address to another; the bytes that were, and how that ends.  Beats before an uncorrectable one are written. -/
def State.copyPart (s : State) (q p ss ds : Nat) (a d : Int) (n : Nat) (host : List Byte) : State × Nat × RunEnd :=
  let r := s.runRead q p ss a n host
  let s := s.runNote q p ss a n
  match r with
  | .host => (s.hostFail p, 0, .bus)
  | .data off =>
    if ds = 1 && !s.hostOk p then (s.hostFail p, 0, .bus)
    else match s.runWrite q p ds d (match s.runRead q p ss a off host with | .ok bs => bs.take off | _ => []) with
      | some t => (t, off, .stop 0x22)
      | none => (s, 0, .stop 0x22)
  | .ok bs =>
    if ds = 1 && !s.hostOk p then (s.hostFail p, 0, .bus)
    else match s.runWrite q p ds d bs with
      | some t => (t, n, .more)
      | none => (s, 0, .stop 0x22)

/-- The loop indexes of a MOVE in order, loop 0 innermost. -/
def moveIxs (b : Nat) : List (Nat × Nat × Nat) :=
  (List.range (bitsOf b 32 16)).flatMap fun i2 =>
    (List.range (bitsOf b 16 16)).flatMap fun i1 => (List.range (bitsOf b 0 16)).map fun i0 => (i0, i1, i2)

/-- The address of a run: strides at byte 40 + 4k of the MOVE, k even for the source. -/
def moveAddr (base b odd : Nat) (i : Nat × Nat × Nat) : Int :=
  let st := fun k => signed 32 (bitsOf b (64 + 64 * k + 32 * odd) 32)
  (base : Int) + 64 * (i.1 * st 0 + i.2.1 * st 1 + i.2.2 * st 2)

/-- The indexes of the next run of a MOVE, none after the last. -/
def nextRun (b : Nat) (i : Nat × Nat × Nat) : Option (Nat × Nat × Nat) :=
  if i.1 + 1 < bitsOf b 0 16 then some (i.1 + 1, i.2.1, i.2.2)
  else if i.2.1 + 1 < bitsOf b 16 16 then some (0, i.2.1 + 1, i.2.2)
  else if i.2.2 + 1 < bitsOf b 32 16 then some (0, 0, i.2.2 + 1)
  else none

/-- The common part of [a, a + n) and [d, d + m). -/
def overlapRange (a : Int) (n : Nat) (d : Int) (m : Nat) : Int × Nat :=
  let lo := max a d
  (lo, (min (a + n) (d + m) - lo).toNat)

/-- The bytes of a space from an address on, left unspecified. -/
def State.bytesUnspecified (s : State) (q p space : Nat) (a : Int) (n : Nat) : State :=
  if n = 0 then s
  else
    let t := (s.runWrite q p space a ((List.range n).map fun x => BitVec.ofNat 8 (Config.free s.free x))).getD s
    { t with free := t.free + 1 }

/-- Destination bytes of a MOVE just written that are source bytes of the same MOVE are unspecified (R401). -/
def State.moveUnspecified (s : State) (q p a b : Nat) (d : Int) (m : Nat) : State :=
  if bitsOf a 8 2 ≠ bitsOf a 10 2 || bitsOf a 8 2 = 1 then s
  else
    (moveIxs b).foldl (fun t i =>
      let o := overlapRange (moveAddr (bitsOf a 64 64) b 0 i) (bitsOf a 192 32) d m
      t.bytesUnspecified q p (bitsOf a 8 2) o.1 o.2) s

/-- A run may be issued from an offset on: the whole run is checked before its first beat (R400). -/
def State.runStart (s : State) (p space : Nat) (a : Int) (off m n : Nat) : Bool :=
  if off = 0 then s.runOk p space a n else s.runOk p space (a + off) m

/-- Beats of a MOVE issued from a position, up to left of them (fuel: at least left): the state, the position reached, and how that ends.  host holds what reads of
host memory return. -/
def State.moveIssue (s : State) (q p a b : Nat) : Nat → Nat → Nat × Nat × Nat → Nat → List Byte → State × (Nat × Nat × Nat) × Nat × RunEnd
  | 0, _, i, off, _ => (s, i, off, .more)
  | k + 1, left, i, off, host =>
    let ss := bitsOf a 8 2
    let ds := bitsOf a 10 2
    let n := bitsOf a 192 32
    let m := min (64 * left) (n - off)
    let x := moveAddr (bitsOf a 64 64) b 0 i
    let d := moveAddr (bitsOf a 128 64) b 1 i
    if left = 0 then (s, i, off, .more)
    else if !s.runStart p ss x off m n || !s.runStart p ds d off m n then (s, i, off, .stop 5)
    else
      let (t, got, e) := s.copyPart q p ss ds (x + off) (d + off) m host
      let t := t.moveUnspecified q p a b (d + off) got
      if e ≠ .more then (t, i, off + got, e)
      else if off + m < n then (t, i, off + m, .more)
      else match nextRun b i with
        | none => (t, i, off + m, .done)
        | some j => t.moveIssue q p a b k (left - m / 64) j 0 (if ss = 1 then host.drop m else host)

/-! ## The ordered restart (R418) -/

/-- Bytes of a run from an offset on, left unspecified. -/
def State.runUnspecified (s : State) (q p space : Nat) (d : Int) (off n : Nat) : State :=
  if space = 1 || !s.runOk p space d n then s else s.bytesUnspecified q p space (d + off) (n - off)

/-- After a BUSERR the bytes that the instruction writes past the reported position are unspecified. -/
def State.restUnspecified (s : State) (q p c : Nat) : State :=
  let x := s.movInstr q p c
  let ix := (s.rd F.MOV_CH_POS_I0 [q, p, c], s.rd F.MOV_CH_POS_I1 [q, p, c], s.rd F.MOV_CH_POS_I2 [q, p, c])
  let off := s.rd F.MOV_CH_OFF_OFFSET [q, p, c]
  if x.2.2 ≠ 0 then s
  else if bitsOf x.1 0 8 = 1 then
    ((moveIxs x.2.1).dropWhile fun i => i != ix).foldl (fun t i =>
      t.runUnspecified q p (bitsOf x.1 10 2) (moveAddr (bitsOf x.1 128 64) x.2.1 1 i) (if i == ix then off else 0)
        (bitsOf x.1 192 32)) s
  else if bitsOf x.1 0 8 = 2 then s.runUnspecified q p (bitsOf x.1 8 2) (bitsOf x.1 64 64 : Nat) off (bitsOf x.1 192 64)
  else s

/-- A channel at the restart: RUNNING, WAITING and PAUSING programs end with BUSERR. -/
def State.movRestartCh (s : State) (q p c : Nat) : State :=
  let st := s.movSt q p c
  if st = 1 || st = 2 || st = 3 then
    ((s.restUnspecified q p c).movEnding q p c 0x23 (s.movPc q p c) false).movRecordWrite q p c
  else s

/-- Channels 1 to 3 restart. -/
def State.movRestartAll (s : State) (q : Nat) : State :=
  let s := (List.range 32).foldl (fun t p => [0, 1, 2].foldl (fun t c => t.movRestartCh q p c) t) s
  (s.wr F.MOV_STAT_STOPPED [q] 0).wr V.MOV_RESTART [q] 0

/-- Channels 1 to 3 restart when the pager has nothing pending, or 100 µs after channel 0. -/
def State.movRestartDue (s : State) (q : Nat) : State :=
  let d := s.rd V.MOV_RESTART [q]
  if d ≠ 0 && (s.pagerPending q == 0 || decide (d ≤ s.timeNs + 1)) then s.movRestartAll q else s

/-- MOVER_RESTART: the read buffer cleared and recorded, and channel 0 restarted with the pager; then channels 1 to 3 when they may (R418). -/
def State.movRestart (s : State) (q : Nat) : State :=
  if !s.rdb F.MOV_STAT_STOPPED [q] || s.rdb F.MOV_STAT_FAULTED [q] then s
  else if s.rd V.MOV_RESTART [q] ≠ 0 then s.movRestartDue q
  else
    let inj := s.injDet 0x0B q
    let s := if inj then s.injFired else s
    let s := (s.err { det := 0x0B, sev := 2, quad := q, cause := 0x23, inj := inj,
                      info := 1 + 4 * s.rd F.MOV_STAT_CAUSE [q] }).wr V.PAGER_STOP [q] 0
    (s.wr V.MOV_RESTART [q] (s.timeNs + 100001)).movRestartDue q

/-! ## The instructions (R404 to R408) -/

/-- The end of a cycle of issue. -/
def State.movAfter (s0 : State) (q p c next : Nat) (e : RunEnd) : State :=
  let s := s0.wr V.HBM_REQ [] 0
  match e with
  | .more => s
  | .done => s.movNext q p c next
  | .stop st => s.movStop q p c st (s.movPc q p c)
  | .bus => s.movBusError q 1

/-- A channel has data to move. -/
def State.movReady (s : State) (q p c : Nat) : Bool :=
  let x := s.movInstr q p c
  s.movRuns q p c && x.2.2 == 0 && decide (bitsOf x.1 0 8 ≤ 3)

/-- The channels of a partition are served in rotating order (R396). -/
def State.movTurn (s : State) (q p c : Nat) : Bool :=
  let last := s.rd V.MOV_ROT [q, p]
  ((List.range 3).map fun i => (last + i) % 3).find? (s.movReady q p) == some c

/-- A channel may issue in this cycle: the unit of work of the Mover's wheel (R397). -/
def State.movIssue (s : State) (q p c : Nat) : Bool := s.unitGo q 7 p 1 && s.movTurn q p c

/-- A cycle of issue begins: HBM is accessed as requester 3 until its end (R388). -/
def State.movUnit (s : State) (q p c : Nat) : State :=
  ((s.unitStart q 7 p 1).wr V.MOV_ROT [q, p] (c + 1)).wr V.HBM_REQ [] (13 + q)

/-- The loop indexes of a channel's position. -/
def State.movIx (s : State) (q p c : Nat) : Nat × Nat × Nat :=
  (s.rd F.MOV_CH_POS_I0 [q, p, c], s.rd F.MOV_CH_POS_I1 [q, p, c], s.rd F.MOV_CH_POS_I2 [q, p, c])

/-- The byte offset of a channel's position. -/
def State.movOff (s : State) (q p c : Nat) : Nat := s.rd F.MOV_CH_OFF_OFFSET [q, p, c]

/-- MOVE (R404): a cycle of issue, 16 beats from the channel's position on. -/
def State.movMove (s : State) (q p c : Nat) (host : List Byte) : State :=
  match s.movAt q p c 1 with
  | none => s
  | some (a, b) =>
    if !s.movIssue q p c then s else
    let (t, i, off, e) := (s.movUnit q p c).moveIssue q p a b 16 16 (s.movIx q p c) (s.movOff q p c) host
    (t.setPos q p c i.1 i.2.1 i.2.2 off).movAfter q p c (s.movPc q p c + 64) e

/-- FILL (R405): a cycle of issue. -/
def State.movFill (s : State) (q p c : Nat) : State :=
  match s.movAt q p c 2 with
  | none => s
  | some (a, _) =>
    if !s.movIssue q p c then s else
    let t := s.movUnit q p c
    let pc := s.movPc q p c
    let off := s.movOff q p c
    let ds := bitsOf a 8 2
    let d : Int := bitsOf a 64 64
    let n := bitsOf a 192 64
    let m := min 1024 (n - off)
    if !t.runStart p ds d off m n then t.movAfter q p c 0 (.stop 5)
    else if ds = 1 && !t.hostOk p then (t.hostFail p).movAfter q p c 0 .bus
    else match t.runWrite q p ds (d + off) ((List.range (m / 8)).flatMap fun _ => leBytes 8 (bitsOf a 128 64)) with
      | some u => (u.setPos q p c 0 0 0 (off + m)).movAfter q p c (pc + 32) (if off + m < n then .more else .done)
      | none => t.movAfter q p c 0 (.stop 0x22)

/-- The indexes of the 8-byte words that differ. -/
def diffWords (n : Nat) (x y : List Byte) : List Nat :=
  (List.range (n / 8)).filter fun i => leAt x (8 * i) 8 != leAt y (8 * i) 8

/-- The result of a part of a COMPARE, at an offset of its range, in the program's record fields. -/
def State.movDiff (s : State) (q p c off : Nat) (ds : List Nat) : State :=
  match ds with
  | [] => s
  | d :: _ =>
    let s := s.wr V.MOV_MISM [q, p, c] (min (s.rd V.MOV_MISM [q, p, c] + ds.length) (2 ^ 32 - 1))
    if s.rdb V.MOV_FWORD [q, p, c] then s
    else (s.wr V.MOV_FIRST [q, p, c] (off + 8 * d)).wr V.MOV_FWORD [q, p, c] (s.movPc q p c + 1)

/-- COMPARE (R405): a cycle of issue, 16 beats of A, or 8 of A and 8 of B. -/
def State.movCompare (s : State) (q p c : Nat) (host : List Byte) : State :=
  match s.movAt q p c 3 with
  | none => s
  | some (a, _) =>
    if !s.movIssue q p c then s else
    let t := s.movUnit q p c
    let pc := s.movPc q p c
    let off := s.movOff q p c
    let sa := bitsOf a 8 2
    let sb := bitsOf a 10 2
    let const := bitOf a 12
    let x : Int := bitsOf a 64 64
    let y : Int := bitsOf a 128 64
    let n := bitsOf a 192 64
    let m := min (if const then 1024 else 512) (n - off)
    if !t.runStart p sa x off m n || (!const && !t.runStart p sb y off m n) then t.movAfter q p c 0 (.stop 5)
    else
      let ra := t.runRead q p sa (x + off) m host
      let rb := if const then .ok ((List.range (m / 8)).flatMap fun _ => leBytes 8 (bitsOf a 128 64))
        else t.runRead q p sb (y + off) m (if sa = 1 then host.drop m else host)
      let t := t.runNote q p sa (x + off) m
      let t := if const then t else t.runNote q p sb (y + off) m
      match ra, rb with
      | .ok u, .ok v =>
        ((t.movDiff q p c off (diffWords m u v)).setPos q p c 0 0 0 (off + m)).movAfter q p c (pc + 32) (if off + m < n then .more else .done)
      | .host, _ => (t.hostFail p).movAfter q p c 0 .bus
      | _, .host => (t.hostFail p).movAfter q p c 0 .bus
      | .data o, .data o' => (t.setPos q p c 0 0 0 (off + min o o')).movAfter q p c 0 (.stop 0x22)
      | .data o, _ => (t.setPos q p c 0 0 0 (off + o)).movAfter q p c 0 (.stop 0x22)
      | _, .data o => (t.setPos q p c 0 0 0 (off + o)).movAfter q p c 0 (.stop 0x22)

/-- What SIGNALs have added to an event counter in the core cycle in progress. -/
def State.evtNew (s : State) (q p k : Nat) : Nat :=
  if s.rd V.EVT_SIGC [q, p, k] = s.rd V.CYCLE [q] + 1 then s.rd V.EVT_SIG [q, p, k] else 0

/-- A SIGNAL adds to an event counter. -/
def State.evtAdd (s : State) (q p k n : Nat) : State :=
  ((s.wr V.EVT_SIG [q, p, k] (s.evtNew q p k + n)).wr V.EVT_SIGC [q, p, k] (s.rd V.CYCLE [q] + 1)).bump F.MOV_EVT_COUNT [q, p, k] n

/-- A WAIT is met when its value is not after the counter (R406); it sees what a SIGNAL adds in the next cycle (R415). -/
def State.waitMet (s : State) (q p a : Nat) : Bool :=
  let k := bitsOf a 8 4
  !before32 ((s.rd F.MOV_EVT_COUNT [q, p, k] + 2 ^ 32 - s.evtNew q p k) % 2 ^ 32) (bitsOf a 32 32)

/-- WAIT (R406). -/
def State.movWait (s : State) (q p c : Nat) : State :=
  match s.movAt q p c 4 with
  | none => s
  | some (a, _) => if s.waitMet q p a then s.movNext q p c (s.movPc q p c + 32) else s.setMov q p c 2

/-- WAIT_MET: a WAITING channel whose counter has reached its value runs again. -/
def State.movWaitMet (s : State) (q p c : Nat) : State :=
  let x := s.movInstr q p c
  if s.movSt q p c = 2 && !s.rdb F.MOV_STAT_STOPPED [q] && x.2.2 == 0 && bitsOf x.1 0 8 == 4 && s.waitMet q p x.1 then
    (s.setMov q p c 1).movNext q p c (s.movPc q p c + 32)
  else s

/-- SIGNAL (R407). -/
def State.movSignal (s : State) (q p c : Nat) : State :=
  match s.movAt q p c 5 with
  | none => s
  | some (a, _) =>
    let ix := bitsOf a 16 8
    let t := match bitsOf a 8 2 with
      | 0 => s.evtAdd q p ix (bitsOf a 32 32)
      | 1 => s.vector p (s.rd F.MOV_CQ_CTL_VECTOR [q, p, c])
      | _ => s.trigAdd p ix (bitsOf a 32 32)
    t.movNext q p c (s.movPc q p c + 32)

/-- LINK (R408). -/
def State.movLink (s : State) (q p c : Nat) : State :=
  match s.movAt q p c 6 with
  | none => s
  | some (a, _) => s.movNext q p c (bitsOf a 64 64)

/-- END (R408). -/
def State.movEnd (s : State) (q p c : Nat) : State :=
  match s.movAt q p c 7 with
  | none => s
  | some _ => s.movEnding q p c 0 (s.movPc q p c) false

/-! ## Commands (R409, R412 to R414) -/

/-- The channel that a command names, as an index. -/
def movChan (entry : Nat) : Nat := bitsOf entry 64 2 - 1

/-- MOVER_START: the START at the head of the Mover ring. -/
def State.movStart (s : State) (q p entry : Nat) : State :=
  if !s.ringCmd q p 3 1 entry then s
  else if bitsOf entry 64 2 = 0 then s.ringStop q p 3 5 (ceTag entry)
  else
    let c := movChan entry
    let st := s.movSt q p c
    if s.rdb F.MOV_STAT_FAULTED [q] || st = 6 then (s.cmdStart q p 3 entry).cmdDone q p 3 entry 7
    else if st ≠ 0 || s.rdb F.MOV_STAT_STOPPED [q] then s
    else
      let s := s.cmdStart q p 3 entry
      let s := (((s.wr V.MOV_START_E [q, p, c] entry).wr V.MOV_TAG [q, p, c] (ceTag entry)).wr V.MOV_MISM [q, p, c] 0).wr
        V.MOV_FIRST [q, p, c] 0
      let s := ((s.wr V.MOV_FWORD [q, p, c] 0).setMov q p c 1).eraseRegs fun f ix => f == V.MOV_WROTE.id && ix.take 3 == [q, p, c]
      s.movFetch q p c (bitsOf entry 128 64)

/-- A PAUSE, RESUME or ABORT taken from the ring waits for its completion. -/
def State.movCmdTake (s : State) (q p c entry : Nat) : State :=
  let s := s.cmdStart q p 3 entry
  { s with movCmds := SMap.set [q, p, c] (SMap.get s.movCmds [q, p, c] [] ++ [entry]) s.movCmds }

/-- PAUSE (R412); where the END has just been fetched, END wins (R415). -/
def State.movPause (s : State) (q p c : Nat) : State :=
  let st := s.movSt q p c
  if (s.movAt q p c 7).isSome then s.movEnd q p c
  else if st = 1 then s.setMov q p c 3 else if st = 2 then s.setMov q p c 4 else s

/-- A PAUSED channel continues: RUNNING, or WAITING when the WAIT at its position is not met. -/
def State.movContinue (s : State) (q p c : Nat) : State :=
  let x := s.movInstr q p c
  if x.2.2 == 0 && bitsOf x.1 0 8 == 4 && !s.waitMet q p x.1 then s.setMov q p c 2 else s.setMov q p c 1

def State.movResume (s : State) (q p c : Nat) : State :=
  let st := s.movSt q p c
  if st = 4 then s.movContinue q p c
  else if st = 3 then s.wr F.MOV_CH_STAT_BUSY [q, p, c] 1 else s

def State.movAbort (s : State) (q p c : Nat) : State :=
  let st := s.movSt q p c
  if st = 1 || st = 3 then ((s.setMov q p c 3).wr V.MOV_DROP [q, p, c] 1).wr F.MOV_CH_STAT_BUSY [q, p, c] 0
  else if st = 2 || st = 4 then s.movEnding q p c 0x10 (s.movPc q p c) false
  else s

/-- A command of the Mover ring other than START, or a write of its MOV_CH_CTL bit (entry 0). -/
def State.movCommand (s : State) (q p c op entry : Nat) (f : State → State) : State :=
  if entry = 0 then (f s).movSettle q p c
  else if !s.ringCmd q p 3 op entry then s
  else if bitsOf entry 64 2 = 0 then s.ringStop q p 3 5 (ceTag entry)
  else if movChan entry ≠ c then s
  else (f (s.movCmdTake q p c entry)).movSettle q p c

/-- MOVER_PAUSE. -/
def State.movPauseCmd (s : State) (q p c entry : Nat) : State := s.movCommand q p c 2 entry fun t => t.movPause q p c

/-- MOVER_RESUME. -/
def State.movResumeCmd (s : State) (q p c entry : Nat) : State := s.movCommand q p c 3 entry fun t => t.movResume q p c

/-- MOVER_ABORT. -/
def State.movAbortCmd (s : State) (q p c entry : Nat) : State := s.movCommand q p c 4 entry fun t => t.movAbort q p c

/-- PAUSE_DRAIN_END: PAUSED, then a latched RESUME; or ENDING after ABORT. -/
def State.movDrainEnd (s : State) (q p c : Nat) : State :=
  if s.movSt q p c ≠ 3 || s.rdb F.MOV_STAT_STOPPED [q] then s
  else if s.rdb V.MOV_DROP [q, p, c] then s.movEnding q p c 0x10 (s.movPc q p c) false
  else
    let s := (s.setMov q p c 4).movSettle q p c
    if s.rdb F.MOV_CH_STAT_BUSY [q, p, c] then
      ((s.wr F.MOV_CH_STAT_BUSY [q, p, c] 0).movContinue q p c).movSettle q p c
    else s

/-- MOVER_ERR_CLEAR: 1 written to MOV_CH_CTL.ERR. -/
def State.movErrClear (s : State) (q p c : Nat) : State :=
  if s.movSt q p c = 6 && !s.raisedNow F.MOV_CH_CTL_ERR [q, p, c] then ((s.wr F.MOV_CH_CTL_ERR [q, p, c] 0).setMov q p c 0).movSettle q p c else s

/-- EVENT_COUNTER_WRITE: MOV_EVT takes a value, to which what SIGNALs add in the same cycle is added (R415, R421). -/
def State.evtWrite (s : State) (q p k v : Nat) : State := s.wr F.MOV_EVT_COUNT [q, p, k] (v + s.evtNew q p k)

/-- A partition reset: its channels IDLE with no record, its counters and waiting commands gone (R406, R412). -/
def State.movReset (s : State) (p : Nat) : State :=
  let s := (List.range 4).foldl (fun t q => [0, 1, 2].foldl (fun t c =>
    ((((((t.setMov q p c 0).wr F.MOV_CH_STAT_BUSY [q, p, c] 0).wr V.MOV_START_E [q, p, c] 0).wr V.MOV_DROP [q, p, c] 0).wr
      V.MOV_TO_ERR [q, p, c] 0).wr F.MOV_CH_CTL_ERR [q, p, c] 0)) t) s
  let s := (List.range 4).foldl (fun t q => (List.range 16).foldl (fun t k => t.wr F.MOV_EVT_COUNT [q, p, k] 0) t) s
  let s := s.eraseRegs fun f ix => (f == V.MOV_WROTE.id || f == V.EVT_SIG.id || f == V.MOV_ROT.id) && ix.getD 1 99 == p
  { s with movCmds := SMap.eraseIf (fun k _ => k.getD 1 0 == p) s.movCmds }

/-- SLAB_LOCK_TIMEOUT: a forced release, and for the Mover's requesters, of which the pager's is channel 0, a bus error (R185, R175, R417). -/
def State.slabTimeout (s : State) (q bank port req : Nat) (busy : List (Nat × Nat × Nat × Nat)) : State :=
  let t := s.slabLockTimeout q bank port req busy
  if req = 5 || req = 7 then t.movBusError q 3 else t

end Sys2Proof.Machine
end

