-- ==== Sys2Proof/Machine/Reset.lean ====
section
/-! DEFINITION. Quadrant and module resets (R478, R479 of spec/16_power_clocks_reset.md). -/

namespace Sys2Proof.Machine

/-- Fields at every index whose head is q back to their reset values. -/
def State.clearAt (s : State) (q : Nat) (fs : List Fld) : State :=
  let ids := fs.map (·.id)
  s.eraseRegs fun f ix => ids.contains f && ix.getD 0 99 == q

/-- Status fields and hidden state of a quadrant that its reset clears.  Registers that a host configures keep their values
(log entry 41). -/
def quadFields : List Fld :=
  [F.COR_BUF_LOW, F.COR_PORT_OPEN, F.COR_PORT_FLUSHING, F.COR_PORT_FLUSHED, F.COR_QDEPTH_PEAK,
   F.LNK_PORT_STAT_RATE, F.LNK_PORT_STAT_LANES, F.LNK_PORT_STAT_RX_BAD, F.LNK_PORT_STAT_PEER_RX_OK,
   F.LNK_PORT_STAT_RETRAINS, F.LNK_PORT_STAT_DEGRADES, F.LNK_PORT_ERR_UCW, F.LNK_PORT_ERR_LCF_BAD, F.LNK_PORT_ERR_SYNCS,
   F.LNK_LANE_CTLE, F.LNK_LANE_POL, F.LNK_LANE_BAD, F.LNK_LANE_CORR_LAST, F.LNK_LANE_CORR_TOTAL,
   F.SLT_SWEEP_PART, F.SLT_SWEEP_ACTIVE, F.ARB_SLAB_LOG_VALID, F.UPD_FAULT_FAULTED, F.GRM_PART_STATE, F.GRM_PART_OPCODE,
   F.GRM_PART_TAG, F.GRM_PROG_DONE, F.GRM_PROG_TOTAL, F.GRM_FAULT_FAULTED, F.GRM_FAULT_VALID, F.PRK_QUEUE_PEAK,
   F.PRK_QUEUE_FAULTED, F.ARB_HBM_LOG_VALID, F.MOV_CH_CTL_ERR, F.MOV_CH_STAT_STATE, F.MOV_CH_STAT_BUSY, F.MOV_CH_STAT_STATUS,
   F.MOV_CH_STAT_LOSTREC, F.MOV_CH_STAT_PC, F.MOV_CH_POS_I0, F.MOV_CH_POS_I1, F.MOV_CH_POS_I2, F.MOV_CH_POS_BEAT,
   F.MOV_CH_OFF_OFFSET, F.MOV_EVT_COUNT, F.MOV_STAT_STOPPED, F.MOV_STAT_FAULTED, F.MOV_STAT_CAUSE, F.MOV_STAT_BUSERRS,
   V.CYCLE, V.ROUND_PTR, V.DEFICIT, V.UPDEPTH, V.INJ_STOP, V.INGRESS_OPEN, V.ENGINE_FAULT, V.PAGER_STOP, V.GRM_ENTRY,
   V.GRM_ABORT, V.GRM_STEP, V.GRM_NF, V.GRM_TAINT, V.SCRUB_STOP, V.LNK_SENT, V.LNK_RCVD, V.LNK_LIMIT, V.LNK_PEER_LIMIT,
   V.LNK_OWN_BAD, V.LNK_PEER_BAD, V.LNK_ATTEMPT, V.LNK_SLOT, V.LNK_COUNTDOWN, V.LNK_CTDN_U, V.QUIET_FRAMES, V.LNK_KEEP, V.LNK_QUIET_REQ,
   V.LNK_LANE_COUNT, V.LNK_RETRAIN1, V.LNK_RETRAIN2, V.LNK_LOST_BOUND, V.LNK_P2, V.LNK_PEER_STATE, V.LNK_PEER_LANES,
   V.LNK_PEER_CTDN, V.MOV_START_E, V.MOV_TAG, V.MOV_MISM, V.MOV_FIRST, V.MOV_FWORD, V.MOV_ENDW, V.MOV_DROP, V.MOV_TO_ERR,
   V.MOV_ROT, V.MOV_WROTE, V.EVT_SIG, V.EVT_SIGC, V.MOV_DATAC, V.MOV_RESTART,
   V.COR_F, V.COR_ADMIT, V.LINK_SEQ, V.INGRESS_UID, V.TX_TIME, V.LINK_CYC, V.TX_BASE, V.TX_NEXT, V.LCF_CMD, V.RX_CW, V.RX_LEFT, V.RX_LCF_BAD,
   V.RX_CW_RUN, V.RX_LCF_RUN, V.RX_OK_RUN, V.UCW_COUNT, V.ENG_FREE, V.ENG_SLOT, V.ENG_PART, V.SLOT_LENT, V.ACC_IN, V.ACC_OUT, V.SLOT_SEQ, V.MOV_BE1, V.MOV_BE2, V.MOV_WAITC, V.HEAD_CYC, V.PS_REC, V.PS_BEG, V.PS_WAIT,
   V.BANK_LEN, V.BANK_END, V.BANK_PART, V.BANK_WASTE, V.TX_FIRST, V.TX_PART, V.TX_RESEND]

/-- Every live instance with a slot in quadrant q aborts (R174, R478); REASON 3 (log entry 41). -/
def State.abortIn (s : State) (q : Nat) : State :=
  let ks := (s.slots.filter fun kv => kv.1.getD 0 9 == q).map fun kv => (kv.1.getD 1 0, kv.1.getD 2 0, kv.1.getD 3 0)
  ks.eraseDups.foldl (fun t k =>
    match t.img.collValid k.1 k.2.1 with
    | some e => match t.instGet k.1 k.2.1 e k.2.2 with
      | some i => if i.st = .complete || i.st = .aborted || i.st = .unused then t else t.instAbort k.1 k.2.1 e i 3
      | none => t
    | none => t) s

/-- Steps being updated by the update engine of quadrant q end as they do when it is faulted (R256). -/
def State.failSteps (s : State) (q : Nat) : State :=
  (List.range 32).foldl (fun t p =>
    if (t.updState p == 3 || t.updState p == 4) && (t.img.shardList p).any fun x => x.2.quad == q then t.stepFail p else t) s

/-- The buffers and queues of quadrant q emptied. -/
def State.emptyQuad (s : State) (q : Nat) : State :=
  let at0 := fun (k : Key) => k.getD 0 99 == q
  { s with
    staging := SMap.eraseIf (fun k _ => at0 k) s.staging
    bufs := SMap.eraseIf (fun k _ => at0 k) s.bufs
    reasm := SMap.eraseIf (fun k _ => at0 k) s.reasm
    svc := SMap.eraseIf (fun k _ => at0 k) s.svc
    mitEgress := SMap.eraseIf (fun k _ => at0 k) s.mitEgress
    parkQ := SMap.eraseIf (fun k _ => at0 k) s.parkQ
    movCmds := SMap.eraseIf (fun k _ => at0 k) s.movCmds
    notices := s.notices.filter fun n => n.quad != q
    slots := SMap.eraseIf (fun k _ => at0 k) s.slots
    slab := SMap.eraseIf (fun k _ => at0 k) s.slab
    waits := SMap.eraseIf (fun k _ => at0 k) s.waits
    admMsgs := s.admMsgs.filter fun m => m.quad != q
    pagerOp := SMap.eraseIf (fun k _ => at0 k) s.pagerOp
    mit := SMap.eraseIf (fun k _ => k.getD 0 0 % 4 == q) s.mit }

/-- True while a quadrant is not in a quadrant reset, nor the module in a module reset. -/
def State.quadUp (s : State) (q : Nat) : Bool := !s.rdb V.QRESET [q] && !s.rdb V.MRESET []

/-- A quadrant reset begins (R478).  Absorbed by a module reset, ignored while the quadrant is in reset (R479). -/
def State.quadReset (s : State) (q : Nat) : State :=
  if !s.quadUp q then s
  else
    let s := (s.wr V.QRESET [q] 1).wr F.HAT_RESET_LAST [] 3
    let s := (s.abortIn q).failSteps q
    let s := (List.range 40).foldl (fun t k => t.linkDown q k 0) s
    (s.emptyQuad q).clearAt q quadFields

/-- Every port of a quadrant that may leaves DOWN. -/
def State.portsDetect (s : State) (q : Nat) : State := (List.range 40).foldl (fun t k => t.downHoldEnd q k) s

/-- QUADRANT_RESET_END: the ports, which are DOWN, train again as R353 lets them, and downlinks withdrawn for a quiesce
return. -/
def State.quadResetEnd (s : State) (q : Nat) : State :=
  if s.rdb V.QRESET [q] then
    let s := s.wr V.QRESET [q] 0
    if s.rdb V.QUIESCE [q] then (s.wr V.QUIESCE [q] 0).restore ((List.range 36).map fun k => 36 * q + k) 6 else s
  else s

/-- Field numbers of the Hatband, of its inputs, of the test access port (R511), of boot flash and of what the sentinel has read from it: a module reset
keeps them. -/
def hatFields : List Fld :=
  [F.HAT_YOF_RESETS, F.HAT_PSTATE_STATE, F.HAT_PSTATE_REFUSED, F.HAT_PSTATE_CAUSE, F.HAT_BOOT_STEP, F.HAT_BOOT_FAILED,
   F.HAT_BOOT_FAIL_STEP, F.HAT_BOOT_ELAPSED_MS, F.HAT_RESET_LAST, F.HAT_CLK_REF_OK, F.HAT_CLK_TIME_FREE, F.HAT_CLK_OSC_CAL,
   F.HAT_CLK_TRIPS, F.SEC_LC_STATE, F.SEC_LC_ZEROIZED, F.SEC_LC_COUNT, F.SEC_FLOOR_FW, F.SEC_FLOOR_KNIT, F.SEC_BOOT_EPOCH,
   F.SEC_BOOT_OWNER_GEN, F.TRY_OWN_SLOT, F.TRY_CART_PRESENT, F.TRY_CART_CUFF, F.TRY_CART_TOUCH, F.TRY_CART_BTN, V.FLASH_CTR,
   V.FLASH_SEQ, V.FLASH_KEYED, V.FLASH_KEY, V.LC_SLOT, V.RET_CH, V.RET_STACK, V.BME, V.MSIX_MASK, V.PERST, V.GASP, V.THERM, V.VIN_P3,
   V.OPEN_TO, V.OFF, V.ERR_SEQ, V.JTAG_IR, V.JTAG_BSR, V.DBGA_STATUS, V.DBGA_DATA]

/-- What an entry to P3 keeps beside them: the debug level, which the sentinel serves there (R512). -/
def p3Fields : List Fld :=
  hatFields ++ [F.DBG_LEVEL_LEVEL, F.DBG_LEVEL_PART, F.DBG_LEVEL_WAKE, F.DBG_LEVEL_WRITE, F.DBG_LEVEL_IFACE,
    F.DBG_LEVEL_REMAIN_S, F.DBG_CHAL_CHAL, V.CHAL_OK, V.JTAG_TOK, V.JTAG_TOKN, V.DBGA_REQ, V.DBGA_GRANT, V.WOKE_FROM, V.GRANT_END, V.WAKE_BOOT, V.WAKE_CLOSED]

/-- What boot flash and the world outside hold: kept by a cold reset. -/
def flashFields : List Fld := [V.FLASH_CTR, V.FLASH_SEQ, V.FLASH_KEYED, V.FLASH_KEY, V.RET_CH, V.RET_STACK, V.PERST, F.TRY_OWN_SLOT]

/-- The state after a reset that keeps some fields, boot flash and the command queue; log: the Hatband's log too.  The records of the cycle are written
first. -/
def State.resetKeeping (s0 : State) (fs : List Fld) (log : Bool) : State :=
  let s := s0.errFlush
  let ids := fs.map (·.id)
  { State.reset with
    pending := s.pending, flash := s.flash, hatLog := if log then s.hatLog else [], out := s.out, free := s.free
    regs := SMap.eraseIf (fun k _ => !ids.contains (k.getD 0 99999)) s.regs }

end Sys2Proof.Machine
end

