-- ==== Sys2Proof/Machine/Knit.lean ====
section
/-! DEFINITION. Knit loads, commits, border moves and epoch flips (spec/02_knit_and_partitions.md, R100 to R102). -/

namespace Sys2Proof.Machine

/-! ## Verification (R43) -/

/-- Step 1 of R43: the failure code, if any. -/
def knitStep1 (bs : List Byte) : Option Nat :=
  let h := knitHdrOf bs
  if bs.length < 4096 || leAt bs 60 4 != crc32c (bs.take 60) || leAt bs 0 4 != 0x32544E4B || leAt bs 4 4 != 2 then some 1
  else if leAt bs 8 4 != 0x325A5653 then some 2
  else if h.manifest != 4096 * (h.frames + 1) || !within 1 131072 h.frames || !within 1 4096 h.groups
      || bs.length != h.manifest + 112 + 32 * h.frames || ofLE (bytesAt bs 64 4032) != 0 then some 1
  else none

/-- Step 2 of R43: the failure code, if any.  f: the function that issued the load, 33 at start-up. -/
def State.knitStep2 (s : State) (f : Nat) (bs : List Byte) : Option Nat :=
  let h := knitHdrOf bs
  let v := s.img
  let st := (s.rd F.KNT_PART_STATE_SERIAL [h.part], s.rd F.KNT_PART_STATE_GROUP [h.part])
  if 0 < f && f < 32 && !((h.kind == 2 || h.kind == 3) && h.part == f && v.brimVfKnit f) then some 0x0E
  else
    let known := s.rdb V.BASE_SERIAL [] && h.base == s.rd V.BASE_SERIAL [] && v.brimValid h.part
    let pre := (h.preSerial, h.preGroup)
    let ok := match h.kind with
      | 1 => h.part == 0 && h.base == 0 && pre == (0, 0) && (List.range 31).all fun p => s.partEmpty (p + 1)
      | 2 => h.part != 0 && known && pre == (0, 0) && s.partEmpty h.part
      | 3 => known && pre == st
      | _ => false
    if !ok || h.serial == 0 || (h.twoPhase && (s.voteCtx h.vote).isNone) then some 3
    else if (h.kind == 3 && decide (h.serial ≤ h.preSerial)) || (h.kind == 1 && decide (h.serial < s.flashCtr 1)) then some 0x10
    else none

/-- Steps 1 and 2 of R43. -/
def State.knitStep12 (s : State) (f : Nat) (bs : List Byte) : Option Nat := (knitStep1 bs).orElse fun _ => s.knitStep2 f bs

/-- One frame of step 5: its failure code.  prev: the frame before it; hash: its FRAME_HASH. -/
def frameCode (h : KnitHdr) (prev : Option Frame) (hash bs : List Byte) : Option Nat :=
  let f := frameOf bs
  if leAt bs 4092 4 != crc32c (bs.take 4092) then some 7
  else if Config.sha256 bs != hash then some 6
  else
    let addrOk := within 1 0x0E f.region && decide (f.quad ≤ 4) && (f.quad == 4 || perQuad f.region)
      && (f.part == 0 || !partZeroOnly f.region) && (h.kind == 1 || f.part == h.part) && decide (f.off + f.len ≤ 2 ^ 22)
    let formOk := f.len % 8 == 0 && within 8 4072 f.len && f.commit == commitOf f.region f.part && leAt bs 8 1 < 8
      && ofLE (bytesAt bs 9 7) == 0 && ofLE (bytesAt bs (16 + f.len) (4076 - f.len)) == 0
    let orderOk := match prev with
      | none => f.group == 1
      | some e => (f.group == e.group && f.commit == e.commit && f.part == e.part) || f.group == e.group + 1
    if addrOk && formOk && orderOk && decide (f.group ≤ h.groups) then none else some 8

/-- Step 5 over the frames from number i on: the failing code and frame. -/
def framesCode (h : KnitHdr) (bs : List Byte) (prev : Option Frame) : Nat → Nat → Option (Nat × Nat)
  | 0, _ => none
  | n + 1, i =>
    let fr := bytesAt bs (4096 * (i + 1)) 4096
    match frameCode h prev (bytesAt bs (h.manifest + 48 + 32 * i) 32) fr with
    | some c => some (c, i)
    | none => framesCode h bs (some (frameOf fr)) n (i + 1)

/-- Bytes [0, n) are covered by ranges. -/
def covered (n : Nat) (rs : List (Nat × Nat)) : Bool :=
  (List.range (ceilDiv n 8)).all fun w => rs.any fun r => decide (r.1 ≤ 8 * w) && decide (8 * w < r.2)

/-- The images that a base or partition knit writes in full (R40). -/
def State.fullImages (s : State) (h : KnitHdr) : List ((Nat × Nat × Nat) × Nat) :=
  let quads := fun (r p n : Nat) => (List.range 4).map fun q => ((r, q, p), n)
  match h.kind with
  | 1 => quads 1 0 384 ++ quads 2 0 64 ++ quads 3 0 192 ++ quads 4 0 2376 ++ quads 5 0 2048
      ++ [((0x0A, 4, 0), 64), ((0x0B, 4, 0), 512), ((0x0E, 4, 0), 2048)]
  | 2 => [((6, 4, h.part), 4 * s.img.maxRanks h.part), ((9, 4, h.part), 0x1B0000)] ++ quads 7 h.part 256 ++ quads 5 h.part 1024
  | _ => []

/-- R40: nothing of those images is left unwritten. -/
def State.fullOk (s : State) (h : KnitHdr) (fs : List Frame) : Bool :=
  (s.fullImages h).all fun k => covered k.2 ((fs.filter fun f => f.keys.contains k.1).map fun f => (f.off, f.off + f.len))

/-- The checks of R43 on a whole file: the failure code and frame.  DEDUCED (log entry 33): a manifest whose MAGIC or FRAME_COUNT is wrong fails with code
HASH, as a manifest that does not match its header, since R57 names no code for it. -/
def State.knitVerify (s : State) (f : Nat) (bs : List Byte) : Option (Nat × Nat) :=
  match s.knitStep12 f bs with
  | some c => some (c, 0)
  | none =>
    let h := knitHdrOf bs
    let m := h.manifest
    let n := 48 + 32 * h.frames
    match s.signerKey (leAt bs (m + 8) 8) with
    | none => some (5, 0)
    | some (key, g) =>
      if !Config.ecdsaOk key (bytesAt bs m n) (bytesAt bs (m + n) 64) then some (4, 0)
      else if !s.knitSigner g h.kind h.part then some (5, 0)
      else if leAt bs m 4 != 0x4D544E4B || leAt bs (m + 4) 4 != h.frames
          || bytesAt bs (m + 16) 32 != Config.sha256 (bs.take 64) then some (6, 0)
      else match framesCode h bs none h.frames 0 with
        | some c => some c
        | none =>
          let fs := (List.range h.frames).map fun i => frameOf (bytesAt bs (4096 * (i + 1)) 4096)
          if (fs.map (·.group)).getLast? != some h.groups || !s.fullOk h fs then some (8, 0) else none

/-! ## What a border move changes (R67) -/

/-- The owner of a MiB of a stack, none where no extent lies. -/
def State.mibOwner (s : State) (q l mib : Nat) : Option Nat :=
  let xs := ((List.range 64).map (s.extentOf q)).filter fun x =>
    x.valid && bitOf x.stackMask l && decide (x.base ≤ mib) && decide (mib < x.base + x.len)
  match xs.find? fun x => !x.spare with
  | some x => some x.part
  | none => (xs.head?).map fun x => x.part

/-- The MiB ranges (stack, first, end) that a new table gives to another owner; with base, every range that it gives to a
tenant. -/
def movedRanges (old new : State) (base : Bool) : List (Nat × Nat × Nat) :=
  (List.range 24).flatMap fun k =>
    let q := k / 6
    let l := k % 6
    let cuts := fun (t : State) => ((List.range 64).map (t.extentOf q)).flatMap fun x =>
      if x.valid && bitOf x.stackMask l then [x.base, x.base + x.len] else []
    let ps := (sortOn id (cuts old ++ cuts new)).eraseDups
    (ps.zip (ps.drop 1)).filterMap fun r =>
      match new.mibOwner q l r.1 with
      | none => none
      | some o => if old.mibOwner q l r.1 != some o || (base && o != 0) then some (k, r.1, r.2) else none

/-- The ranges that the group in progress moves; none before a first base knit is in force, whose extents start-up step 9 zeroizes (R44, R382). -/
def State.groupMoves (s : State) : List (Nat × Nat × Nat) :=
  if !s.rdb V.BASE_APPLIED [] then []
  else match s.groupFrames (s.rd V.KNT_GROUP []) with
    | some fs => movedRanges s (s.candidate fs) (s.knitHdr.kind == 1)
    | none => []

/-- Those ranges filled with zero. -/
def State.zeroMoves (s : State) (ms : List (Nat × Nat × Nat)) : State :=
  ms.foldl (fun t m => t.zeroDev m.1 (m.2.1 * 2 ^ 20) ((m.2.2 - m.2.1) * 2 ^ 20)) s

/-- A bad sector lies in the ranges: COMPARE reports it as a mismatch. -/
def State.movesBad (s : State) (ms : List (Nat × Nat × Nat)) : Bool :=
  s.badSectors.any fun b => b.2 == 2 && ms.any fun m =>
    b.1.getD 0 0 == m.1 && decide (m.2.1 * 2 ^ 15 ≤ b.1.getD 1 0) && decide (b.1.getD 1 0 < m.2.2 * 2 ^ 15)

/-- The extents of the present table that the ranges touch. -/
def State.movedExtents (s : State) (ms : List (Nat × Nat × Nat)) : List (Nat × Nat) :=
  (List.range 256).filterMap fun i =>
    let x := s.extentOf (i / 64) (i % 64)
    if x.valid && ms.any fun m => m.1 / 6 == x.quad && bitOf x.stackMask (m.1 % 6) && decide (m.2.1 < x.base + x.len)
        && decide (x.base < m.2.2) then some (i / 64, i % 64) else none

/-- The ports, as 40q + k, that change owner, become absent or become present. -/
def movedPorts (old new : State) : List Nat :=
  (List.range 160).filter fun i =>
    let q := i / 40
    let k := i % 40
    old.portPresent q k != new.portPresent q k
      || (decide (k < 36) && old.img.downOwner (36 * q + k) != new.img.downOwner (36 * q + k))

/-- The drain phase starts; qs: the quadrants whose WHEEL image the group writes. -/
def State.borderStart (s new : State) (base : Bool) (qs : List Nat) : State :=
  let s := qs.foldl (fun t q => t.wr V.BORDER_WHEEL [q] 1) s
  let s := (movedPorts s new).foldl (fun t i => t.wr V.BORDER_PORT [i / 40, i % 40] 1) s
  let s := (List.range 128).foldl (fun t i =>
    let p := i / 4
    let q := i % 4
    if new.img.slotQuota p q < s.img.slotQuota p q then
      (t.wr V.BORDER_LOWERED [p, q] 1).wr V.BORDER_QUOTA [p, q] (new.img.slotQuota p q)
    else t) s
  let s := (s.movedExtents (movedRanges s new base)).foldl (fun t x => t.wr V.EXT_MOVING [x.1, x.2] 1) s
  (s.wr V.BORDER_DRAIN [] 1).wr V.KNT_WAIT [] 4

/-- A port holds nothing: its egress queues of every class, reassembly included, and its ingress pools are empty. -/
def State.portDrained (s : State) (q k : Nat) : Bool :=
  ((List.range 6).all fun c => s.depth q k c == 0) && (SMap.get s.mitEgress [q, k] []).isEmpty
    && (SMap.get s.reasm [q, k] []).isEmpty && (s.heldOf q).all fun h => h.inPort != k

/-- The drain phase may end. -/
def State.borderDrained (s : State) : Bool :=
  ((List.range 160).all fun i => !s.rdb V.BORDER_PORT [i / 40, i % 40] || s.portDrained (i / 40) (i % 40))
    && ((List.range 128).all fun i =>
        !s.rdb V.BORDER_LOWERED [i / 4, i % 4] || decide (s.residentCount (i % 4) (i / 4) ≤ s.rd V.BORDER_QUOTA [i / 4, i % 4]))
    && (List.range 4).all fun q => !s.rdb V.BORDER_WHEEL [q] || s.movedSlotsIdle q

/-! ## Epoch flips (R100 to R102) -/

/-- VALID of a bank. -/
def validFld (b : Nat) : Fld := if b = 0 then F.XPT_EPOCH_VALID_A else F.XPT_EPOCH_VALID_B

/-- True while the bank that is not stamped has not retired. -/
def State.oldBank (s : State) (p : Nat) : Bool := s.bankValid p (1 - s.stamp p)

/-- True for a packet of a partition that the module itself is the source of. -/
def State.ownPacket (s : State) (p : Nat) (k : Packet) : Bool :=
  pkPart k == p && pkSrcType k == 1 && dstX (pkSrc k) == s.myX && dstY (pkSrc k) == s.myY

/-- A packet stamped with a bank by its source (R99). -/
def restamped (b : Nat) (k : Packet) : Packet := pkSealSource (pkSet k 12 1 b)

/-- The module's own packets of a partition that wait at an internal port of a quadrant, their first flit not sent: stamped with the new bank and routed by it;
one that the new bank gives no route is discarded (R99). -/
def State.restampPort (s : State) (p b q i : Nat) : State :=
  let l := SMap.get s.staging [q, i] []
  let mine := fun (h : Held) => h.origin == 2 && s.ownPacket p h.pkt
  if !l.any mine then s
  else
    let again := fun (h : Held) =>
      match s.route ⟨q, 2, 0⟩ h.sender (restamped b h.pkt) with
      | .goal ds =>
        let k := restamped b h.pkt
        if ds.isEmpty then none else some { h with pkt := k, copies := s.copiesFor q (pkDstType k == 1) 0 (s.seamAdd q) ds }
      | .drop _ => none
    let lost := fun (t : State) (h : Held) =>
      match s.route ⟨q, 2, 0⟩ h.sender (restamped b h.pkt) with
      | .goal _ => (s.lostCopies ⟨q, 2, 0⟩ h.sender (restamped b h.pkt)).foldl (fun t c => t.countDiscard q i p c) t
      | .drop c => t.countDiscard q i p c
    let keep := l.filterMap fun h => if mine h then again h else some h
    (l.filter mine).foldl lost
      { s with staging := if keep.isEmpty then SMap.erase [q, i] s.staging else SMap.set [q, i] keep s.staging }

/-- Every packet of the module's own that has not begun to leave, stamped with a partition's new bank: at the internal ports, and in the class M egress
buffers, where each keeps the port that it was formed for (R99, log entry 73). -/
def State.restampAll (s : State) (p b : Nat) : State :=
  let s := (List.range 20).foldl (fun t n => t.restampPort p b (n / 5) (43 + n % 5)) s
  { s with mitEgress := s.mitEgress.map fun kv =>
      (kv.1, kv.2.map fun r => if r.origin = 2 && s.ownPacket p r.pkt then { r with pkt := restamped b r.pkt } else r) }

/-- The stamp bank of a partition flips: packets that wait to leave take it, SEQ_SLOW names its member by it (R223), and the partition's downlinks are told. -/
def State.flipNow (s : State) (p : Nat) : State :=
  let b := 1 - s.stamp p
  let s := ((s.wr F.XPT_EPOCH_STAMP [p] b).wr (validFld b) [p] 1).bump F.XPT_EPOCH_FLIPS [p] 1
  let s := (s.wr F.XPT_EPOCH_STATE [p] (if s.bankValid p (1 - b) then 1 else 0)).wr V.FLIP_NS [p] s.timeNs
  let s := (s.restampAll p b).slowest p
  (s.wr V.WAIT_FLIP [p] 0).notice 5 b 0 ((List.range 144).filter fun n => s.img.downOwner n == p)

/-- The flip of a partition whose Brim entry has changed: at once, or once its old bank has retired.  Its maps stay. -/
def State.borderFlip (s : State) (p : Nat) : State :=
  if !s.bankValid p (s.stamp p) then s
  else if s.oldBank p then (s.wr V.WAIT_FLIP [p] 1).wr F.XPT_EPOCH_STATE [p] 2
  else ((epochKeys p).foldl State.resyncImg s).flipNow p

/-! ## What a commit loads (R48, R196, R225, R301, R363, R487, R502, R547) -/

/-- True when a group's frames write a byte of [lo, hi) of an image. -/
def writes (fs : List Frame) (region lo hi : Nat) : Bool :=
  fs.any fun f => f.region == region && decide (f.off < hi) && decide (lo < f.off + f.len)

/-- Loads from a partition's COLL image: STEP_START at its first commit, and the roles of the contexts it writes. -/
def State.loadColl (s : State) (fs : List Frame) (p : Nat) : State :=
  let v := s.img
  let s := if s.rdb V.STEP_LOADED [p] then s
    else (s.wr V.STEP_LOADED [p] 1).wr F.SEQ_STEP_ARMED [p] (v.le 0x08 4 p 4 4)
  (List.range (v.mitCount p)).foldl (fun t i =>
    let c := v.mitBase p + i
    let e := v.ctxEntry p i
    if writes fs 8 (0x100000 + 64 * i) (0x100040 + 64 * i) && e.valid then
      if !e.ni || s.myPlane == e.primary then t.mitRoleSet c 0
      else if s.myPlane == e.mirror then t.mitRoleSet c 1 else t
    else t) s

/-- Loads from a partition's OPT image. -/
def State.loadOpt (s : State) (fs : List Frame) (p : Nat) : State :=
  let x := s.img.le 0x09 4 p 0x60008 1
  let s := ((s.wrK F.LDG_PART_CTL_OVF_POLICY [p] (bitsOf x 2 1)).wrK F.LDG_PART_CTL_INV_POLICY [p] (bitsOf x 3 1)).wrK
    F.LDG_PART_CTL_SR_EN [p] (bitsOf x 4 1)
  let s := if writes fs 9 0x60010 0x60014 then s.wr F.UPD_PART_T_T [p] (s.img.tStart p) else s
  if writes fs 9 0x60000 0x60040 then s.wr V.CLIP_KNOWN [p] 0 else s

/-- Every select, from partition 0's OBS images. -/
def State.loadSelects (s : State) : State :=
  let put := fun (t : State) (ix : List Nat) (x : Nat) => t.wr V.SEL_NEXT ix (1 + x % 2 ^ 15)
  let s := (List.range 4).foldl (fun t q => (List.range 104).foldl (fun t b => (List.range 8).foldl (fun t i =>
    put t [q, b, i]
      (s.img.le 0x0D q 0 (64 + 32 * b + 4 * i) 4)) t) t) s
  (List.range 8).foldl (fun t m => (List.range 8).foldl (fun t i =>
    put t [4, m, i]
      (s.img.le 0x0D 0 0 (64 + 32 * (104 + m) + 4 * i) 4)) t) s

/-- Loads from partition 0's PORT, WHEEL, HBMMAP and POWER images.  A commit of a WHEEL image ends what its quadrant lends (log entry 74); where extents move, the
heads of rings that lie in none any more stop them (R191). -/
def State.loadModule (s : State) (fs : List Frame) : State :=
  let s := if writes fs 1 0 64 then
      let h := s.img.le 0x01 0 0 0 4
      (((s.wrK F.XPT_CTL_AGE_LIMIT [] (bitsOf h 0 16)).wrK F.XPT_POD_X [] (bitsOf h 16 3)).wrK F.XPT_POD_Y [] (bitsOf h 19 3)).wrK
        F.XPT_POD_PLANE [] (bitsOf h 24 5)
    else s
  let s := if fs.any fun f => f.region == 5 && f.part == 0 then
      (s.eraseRegs fun f _ => f == F.HBM_EXTENT_LOST.id || f == F.HBM_EXTENT_REMAPPING.id || f == F.HBM_EXTENT_REMAPPED.id).allRings
    else s
  let wheels := (List.range 4).filter fun q => fs.any fun f => f.region == 4 && f.quad == q
  let s := s.eraseRegs fun f ix => f == V.SLOT_LENT.id && wheels.contains (ix.getD 0 99)
  if fs.any fun f => f.region == 0x0A then
    let n := fun o w => s.img.le 0x0A 4 0 o w
    ((s.wrK F.TRY_ALERT_ALERT_W [] (n 2 2 % 4096)).wrK F.TRY_ALERT_ALERT_THR [] (n 4 1)).wrK F.TRY_ALERT_ALERT_LEVEL [] (n 5 1)
  else s

/-- Everything that a commit of a group's frames loads from the images it has made active. -/
def State.commitLoads (s : State) (fs : List Frame) : State :=
  let ps := fun (r : Nat) => ((fs.filter fun f => f.region == r).map (·.part)).eraseDups
  let s := s.loadModule fs
  let s := (ps 8).foldl (fun t p => t.loadColl fs p) s
  let s := (ps 9).foldl (fun t p => t.loadOpt fs p) s
  let s := (ps 0x0C).foldl (fun t p => t.keyTake p (t.img.seck (t.img.active 0x0C 4 p) p)) s
  if (ps 0x0D).contains 0 then s.loadSelects else s

/-! ## Groups (R47 to R52) -/

/-- The images that a partition's configuration is made of (R30): its own, and for a tenant its region tables. -/
def configKeys (p : Nat) : List (Nat × Nat × Nat) :=
  [6, 8, 9, 0x0C].map (fun r => (r, 4, p))
    ++ (List.range 4).flatMap fun q => (7, q, p) :: (0x0D, q, p) :: if p = 0 then [] else [(5, q, p)]

/-- A partition's configuration discarded: every byte of its images reads as zero, but in the banks that a group of the new knit has just written,
whose images are in keep (R30, R40). -/
def State.dropConfig (s : State) (keep : List (Nat × Nat × Nat)) (p : Nat) : State :=
  let s := (configKeys p).foldl (fun t k =>
    let b := t.shadowBank k.1 k.2.1 k.2.2
    let t := { t with img := t.img.wipe (1 - b) k.1 k.2.1 k.2.2 }
    if keep.contains k then t else { t with img := t.img.wipe b k.1 k.2.1 k.2.2 }) s
  let s := (s.partState p 0 0 0).keyErase p
  let s := if keep.any fun k => (k.1 == 6 || k.1 == 7) && k.2.2 == p then s else s.wr F.XPT_EPOCH_STAMP [p] 0
  ((s.wr F.XPT_EPOCH_VALID_A [p] 0).wr F.XPT_EPOCH_VALID_B [p] 0).wr V.STEP_LOADED [p] 0

/-- Every configuration of a tenant discarded. -/
def State.dropTenants (s : State) : State := (List.range 31).foldl (fun t i => t.dropConfig [] (i + 1)) s

/-- Every configuration of a partition discarded by a base knit, whose first group has been written to the shadow banks of the images in keep (R30). -/
def State.dropAll (s : State) (keep : List (Nat × Nat × Nat)) : State := (List.range 32).foldl (fun t p => t.dropConfig keep p) s

/-- The images of a group made ready to be written: each shadow bank equal to its active bank, but for the configurations that the first group of a base
knit discards, which start from zero (R30, R40, R49). -/
def State.shadowReady (s : State) (fs : List Frame) (base : Bool) : State :=
  (syncKeys fs).foldl (fun t k =>
    if base && (configKeys k.2.2).contains k then { t with img := t.img.wipe (t.shadowBank k.1 k.2.1 k.2.2) k.1 k.2.1 k.2.2 }
    else t.resyncImg k) s

/-- True while a group has to wait before it may be written: an image is still being copied, or an old epoch bank has not
retired (R49). -/
def State.stageBlocked (s : State) (fs : List Frame) : Bool :=
  (imageKeys fs).any fun k =>
    s.rdb V.KNT_COPY [k.1, k.2.1, k.2.2] || ((k.1 == 6 || k.1 == 7) && (s.oldBank k.2.2 || s.rdb V.WAIT_FLIP [k.2.2]))

/-- A staged group waits for its commit point (R50). -/
def State.knitPoint (s : State) (fs : List Frame) : State :=
  let h := s.knitHdr
  let p := (fs.map (·.part)).headD h.part
  let s := s.wr F.KNT_STATUS_STATE [s.knitFn] 4
  match (fs.map (·.commit)).headD 0 with
  | 0 => s.wr V.KNT_WAIT [] 1
  | 1 => (if p = 0 then s else s.wr V.KNIT_QUIET [p] 1).wr V.KNT_WAIT [] 2
  | 2 => s.wr V.KNT_WAIT [] 3
  | 3 => s.borderStart (s.candidate fs) (h.kind == 1) ((imageKeys fs).filterMap fun k => if k.1 = 4 then some k.2.1 else none)
  | _ =>
    let qs := ((imageKeys fs).map fun k => k.2.1).eraseDups
    (qs.foldl (fun t q => (t.wr V.QUIESCE [q] 1).withdraw ((List.range 36).map fun k => 36 * q + k) 6) s).wr V.KNT_WAIT [] 6

/-- The knit rests STAGED (R58): it votes at once, or waits for COMMIT. -/
def State.knitStaged (s : State) : State :=
  let s := s.wr F.KNT_STATUS_STATE [s.knitFn] 3
  if s.knitHdr.hostGo then s.wr V.KNT_WAIT [] 10
  else
    let (t, ok) := s.voteCast 1
    if ok then t.wr V.KNT_WAIT [] 9 else t.knitFail 0x0D 0 0

/-- GROUP_STAGE: group g is written to the shadow banks and checked.  DEDUCED (log entry 33): a page of the group that cannot be read back from HBM fails it with
code HASH; while the first group waits under R49, STATE stays VERIFYING. -/
def State.knitStage (s : State) (g : Nat) : State :=
  let s := s.wr V.KNT_GROUP [] g
  match s.groupFrames g with
  | none => s.knitFail 6 g 0
  | some fs =>
    let h := s.knitHdr
    let p := (fs.map (·.part)).headD h.part
    if s.stageBlocked fs then
      let s := s.wr V.KNT_WAIT [] 7
      if fs.any fun f => f.region == 6 || f.region == 7 then
        (if s.oldBank p then s.wr F.XPT_EPOCH_STATE [p] 2 else s)
      else s
    else
      let s := s.shadowReady fs (h.kind == 1 && g == 1)
      let s := fs.foldl State.frameWrite s
      let t := (if h.kind == 1 && g == 1 then s.dropAll (imageKeys fs) else s).candidate fs
      let wrote := fun r => fs.any fun f => f.region == r
      let seck := t.img.seck (t.img.active 0x0C 4 p) p
      if !t.groupCheck wrote p (t.stamp p) seck then s.knitFail 9 g 0
      else if s.rd V.KNT_VOTE [] = 1 then s.knitStaged
      else s.knitPoint fs

/-- The manifest of the staged knit. -/
def State.stagedManifest (s : State) : List Byte :=
  let h := s.knitHdr
  let n := 112 + 32 * h.frames
  ((List.range (ceilDiv n 4096)).flatMap fun i => (s.stagedPage (h.manifest / 4096 + i)).getD []).take n

/-- The knit has been applied in full.  DEDUCED (log entry 33): a tenant whose images a base knit carries gets the configuration state (SERIAL, 0) of that base knit,
since R30 names none. -/
def State.knitDone (s : State) : State :=
  let h := s.knitHdr
  let s := if h.part ≠ 0 || h.kind = 1 then s.wr V.MANIFEST [h.part] (ofLE (Config.sha256 s.stagedManifest)) else s
  let s := s.partState h.part h.serial 0 0
  let s := if h.part = 0 then s.wr V.BASE_APPLIED [] 1 else s
  let s := if h.kind = 2 then s.wr F.SEC_LC_ZEROIZED [] 0 else s
  let s := if h.kind = 1 then
      let ps := ((List.range h.frames).filterMap fun i => (s.stagedPage (i + 1)).map fun b => (frameOf b).part).eraseDups
      (ps.filter fun p => p != 0).foldl (fun t p => t.partState p h.serial 0 0) s
    else s
  (s.knitState 5).knitIdle

/-- Slot directories of partitions whose SLOT_QUOTA a group has changed (R158). -/
def State.quotaDirs (s : State) (old : Images) : State :=
  (List.range 4).foldl (fun t q => (List.range 32).foldl (fun t p =>
    if old.slotQuota p q = t.img.slotQuota p q then t else t.dirRebuild q p) t) s

/-- Remaps in progress complete before a commit of partition 0's HBMMAP replaces the table (R393). -/
def State.remapsEnd (s : State) : State :=
  (List.range 256).foldl (fun t i => t.spareRemapEnd (i / 64) (i % 64)) s

/-- Bank selects switch and what hangs on them is loaded: the group in progress takes effect. -/
def State.groupApply (s : State) (fs : List Frame) : State :=
  let old := s.img
  let h := s.knitHdr
  let g := s.rd V.KNT_GROUP []
  let s := s.knitRelease
  let s := if fs.any fun f => f.region == 5 && f.part == 0 then s.remapsEnd else s
  let s := if h.kind = 1 && g = 1 then ((s.dropAll (imageKeys fs)).wr V.BASE_SERIAL [] h.serial).eraseRegs fun f _ => f == V.EXT_DEAD.id else s
  let ks := imageKeys fs
  let s := ((ks.foldl State.switchImg s).commitLoads fs).quotaDirs old
  let ks := ks.filter fun k => k.1 != 6 && k.1 != 7
  let s := ks.foldl (fun t k => t.wr V.KNT_COPY [k.1, k.2.1, k.2.2] 1) s
  let s := if ks.isEmpty then s
    else (s.wr F.KNT_STATUS_RESYNC [s.knitFn] 1).wr V.KNT_COPY_FN [] (s.knitFn + 1)
  (s.wr F.KNT_STATUS_LAST_GROUP [s.knitFn] g).wr V.KNT_WAIT [] 0

/-- The next group is staged, or the load is DONE. -/
def State.knitNext (s : State) : State :=
  let g := s.rd V.KNT_GROUP [] + 1
  if s.knitHdr.groups < g then s.knitDone else s.knitStage g

/-- The frames of the group in progress. -/
def State.nowFrames (s : State) : List Frame := (s.groupFrames (s.rd V.KNT_GROUP [])).getD []

/-- A destination that a packet may not be delivered to: one of the listed ports, as 40q + k, when it is a downlink that its partition does not own (R63). -/
def State.notOwned (s : State) (ports : List Nat) (d : Dest) (k : Packet) : Bool :=
  ports.contains (40 * d.quad + d.port) && decide (d.port < 36) && s.img.downOwner (36 * d.quad + d.port) != pkPart k

/-- A held packet without the copies that have not started and are bound for a downlink its partition does not own, and how many those are. -/
def State.heldOwned (s : State) (ports : List Nat) (h : Held) : Held × Nat :=
  let out := fun (c : Copy) => c.started == 0
  let cs := h.copies.map fun c => if out c then { c with dests := c.dests.filter fun d => !s.notOwned ports d h.pkt } else c
  ({ h with copies := cs.filter fun c => !c.dests.isEmpty },
    ((h.copies.filter out).flatMap fun c => c.dests.filter fun d => s.notOwned ports d h.pkt).length)

/-- One list of held packets of a quadrant without those copies, each of which is counted. -/
def State.ownedHeld (s : State) (ports : List Nat) (q : Nat) (l : List Held) : State × List Held :=
  l.foldl (fun a h =>
    let (g, n) := s.heldOwned ports h
    ((List.range n).foldl (fun t _ => t.countDiscard q h.inPort (pkPart h.pkt) .noRoute) a.1,
      if g.copies.isEmpty && n != 0 then a.2 else a.2 ++ [g])) (s, [])

/-- A list of packets that wait at an external output without those its downlink's owner does not own. -/
def State.ownedOut (s : State) (ports : List Nat) (q : Nat) (l : List Reas) : State × List Reas :=
  l.foldl (fun a r =>
    if s.notOwned ports r.dest r.pkt then (a.1.countDiscard q r.inPort (pkPart r.pkt) .noRoute, a.2) else (a.1, a.2 ++ [r])) (s, [])

/-- No packet stays queued toward a downlink that its partition does not own any more: it is discarded under NO_ROUTE, as at its routing
(R63; DEDUCED, log entry 34). -/
def State.expel (s : State) (ports : List Nat) : State :=
  let s := s.staging.foldl (fun t kv =>
    let (t, l) := t.ownedHeld ports (kv.1.getD 0 0) kv.2
    { t with staging := if l.isEmpty then SMap.erase kv.1 t.staging else SMap.set kv.1 l t.staging }) s
  let s := s.bufs.foldl (fun t kv =>
    let (t, l) := t.ownedHeld ports (kv.1.getD 0 0) kv.2
    { t with bufs := if l.isEmpty then SMap.erase kv.1 t.bufs else SMap.set kv.1 l t.bufs }) s
  let s := s.reasm.foldl (fun t kv =>
    let (t, l) := t.ownedOut ports (kv.1.getD 0 0) kv.2
    { t with reasm := if l.isEmpty then SMap.erase kv.1 t.reasm else SMap.set kv.1 l t.reasm }) s
  s.mitEgress.foldl (fun t kv =>
    let (t, l) := t.ownedOut ports (kv.1.getD 0 0) kv.2
    { t with mitEgress := if l.isEmpty then SMap.erase kv.1 t.mitEgress else SMap.set kv.1 l t.mitEgress }) s

/-- A border group takes effect: ports, contexts and epochs follow the new tables (R67, R294, R363). -/
def State.borderApply (s : State) : State :=
  let fs := s.nowFrames
  let new := s.candidate fs
  let ports := movedPorts s new
  let ctxs := (List.range 1024).filter fun c => s.img.mitOwner c != new.img.mitOwner c
  let brims := (List.range 32).filter fun p => s.img.le 0x0E 4 0 (64 * p) 64 != new.img.le 0x0E 4 0 (64 * p) 64
  let s := ((s.groupApply fs).mitEmpty fun c => ctxs.contains c).expel ports
  let s := ports.foldl (fun t i =>
    let q := i / 40
    let k := i % 40
    if t.portPresent q k then t.downHoldEnd q k else t.linkDown q k 3) s
  brims.foldl State.borderFlip s

/-! ## The commands -/

/-- A load of function f begins: FETCHING, with nothing failed yet.  DEDUCED (log entry 33): RESYNC of an earlier load's copy that still runs is shown on, as R49 has
it. -/
def State.knitFetching (s : State) (f : Nat) : State :=
  let s := ((s.wr F.KNT_STATUS_LAST_GROUP [f] 0).wr F.KNT_STATUS_FAIL_GROUP [f] 0).wr F.KNT_STATUS_FAIL_CODE [f] 0
  (((s.wr F.KNT_FAIL_FRAME_FRAME [f] 0).wr F.KNT_STATUS_STATE [f] 1).wr V.KNT_FN [] (f + 1)).wr V.KNT_WAIT [] 8

/-- KNIT_LOAD from function f. -/
def State.knitLoad (s : State) (f : Nat) : State :=
  if s.knitBusy then s.raise F.KNT_STATUS_REFUSED [f]
  else
    let s := s.knitFetching f
    if s.rdb F.TRY_STAGE_HOLD [] then s.knitFail 0x0F 0 0
    else if 2 ≤ s.rd F.HAT_PSTATE_STATE [] then s.knitFail 0x0F 0 0xFFFFFFFF
    else if f ≠ 0 && !s.img.brimVfKnit f then s.knitFail 0x0E 0 0
    else if !s.hostOk f then (s.hostFail f).knitFail 0x0C 0 0
    else s

/-- KNIT_FETCH_COMPLETE: the file is staged, verified, and its first group staged and checked. -/
def State.knitFetched (s : State) (bs : List Byte) : State :=
  let f := s.knitFn
  if !s.knitBusy || s.rd V.KNT_WAIT [] ≠ 8 then s
  else if bs.length ≠ s.rd F.KNT_LOAD_LEN_LEN [f] then s
  else
    let s := (s.stageKnit bs).wr F.KNT_STATUS_STATE [f] 2
    let h := knitHdrOf bs
    let s := if (knitStep1 bs).isNone && h.twoPhase then s.wr V.KNT_VOTE [] 1 else s
    match s.knitVerify f bs with
    | some (c, i) => s.knitFail c 0 i
    | none => s.knitStage 1

/-- KNIT_ABORT: taken from PF0 and from the function whose load runs (log entry 42). -/
def State.knitAbort (s : State) (f : Nat) : State :=
  if s.knitBusy && s.knitFn < 32 && (f == 0 || f == s.knitFn) then
    s.knitFail 0x0C (if s.rd F.KNT_STATUS_STATE [s.knitFn] == 4 then s.rd V.KNT_GROUP [] else 0) 0
  else s

/-- What a STAGED knit does once its vote is in: it is applied after a yes, and else discarded (R58). -/
def State.voteDone (s : State) (yes : Bool) : State := if yes then s.knitPoint s.nowFrames else s.knitFail 0x0D 0 0

/-- The round of VOTE_CONTEXT in which the module has voted. -/
def State.voteRound (s : State) : Option Round := s.roundGet s.knitHdr.vote (s.knitHdr.change % 2 ^ 32)

/-- A round that has completed with a yes. -/
def Round.yes (r : Round) : Bool :=
  r.st == 2 && match r.pod.orElse fun _ => r.row.orElse fun _ => r.rack with
    | some m => m.v % 2 == 1
    | none => false

/-- The vote of a STAGED knit is cast. -/
def State.knitVote (s : State) (v : Nat) : State :=
  if s.knitBusy && s.rd V.KNT_WAIT [] = 10 then
    let (t, ok) := s.voteCast v
    if ok then t.wr V.KNT_WAIT [] 9 else t.knitFail 0x0D 0 0
  else s

/-- KNIT_COMMIT from function f: PF0 releases a STAGED knit to its vote. -/
def State.knitCommit (s : State) (f : Nat) : State := if f = 0 then s.knitVote 1 else s

/-- VOTE_COMMIT_TIMEOUT. -/
def State.voteCommitTimeout (s : State) : State := s.knitVote 0

/-- KNIT_VOTE_RESULT: the round of VOTE_CONTEXT in which the module voted has completed, or its patience has expired. -/
def State.knitVoteResult (s : State) : State :=
  if !s.knitBusy || s.rd V.KNT_WAIT [] ≠ 9 then s
  else match s.voteRound with
    | some r => if r.st = 1 then s else s.voteDone r.yes
    | none => s.voteDone false

/-- R51. -/
def State.quietPoint (s : State) (p : Nat) : Bool :=
  (SMap.get s.trigOps [p] []).isEmpty && (p == 0 ||
    (s.slots.all (fun kv => kv.1.getD 1 99 != p) && s.updState p == 0
      && (List.range 4).all fun q => s.rd F.GRM_PART_STATE [q, p] != 2))

/-- The downlinks of every quadrant that a SCHED group quiesces are drained. -/
def State.quiesced (s : State) : Bool :=
  (List.range 4).all fun q => !s.rdb V.QUIESCE [q] || (List.range 36).all fun k => s.portDrained q k

/-- GROUP_COMMIT. -/
def State.groupCommit (s : State) : State :=
  if !s.knitBusy then s
  else
    let fs := s.nowFrames
    match s.rd V.KNT_WAIT [] with
    | 1 => (s.groupApply fs).knitNext
    | 2 => if s.quietPoint ((fs.map (·.part)).headD 0) then (s.groupApply fs).knitNext else s
    | 6 =>
      if s.quiesced then
        let qs := (List.range 4).filter fun q => s.rdb V.QUIESCE [q]
        let s := s.eraseRegs fun f _ => f == V.QUIESCE.id
        let s := s.groupApply fs
        let s := qs.foldl (fun t q => (t.quadReset q).wr V.QUIESCE [q] 1) s
        s.knitNext
      else s
    | _ => s

/-- The copies that a commit owes are made, and RESYNC ends in every view. -/
def State.resyncDone (s : State) : State :=
  let ks := (s.regs.filter fun kv => kv.1.headD 0 == V.KNT_COPY.id && kv.2 == 1).map fun kv => kv.1.drop 1
  let s := ks.foldl (fun t k => t.resyncImg (k.getD 0 0, k.getD 1 0, k.getD 2 0)) s
  (s.eraseRegs fun g _ => g == V.KNT_COPY.id || g == F.KNT_STATUS_RESYNC.id).wr V.KNT_COPY_FN [] 0

/-- RESYNC_END. -/
def State.resyncEnd (s : State) : State :=
  if s.rdb V.KNT_COPY_FN [] then
    let s := s.resyncDone
    if s.knitBusy && s.rd V.KNT_WAIT [] = 7 then s.knitStage (s.rd V.KNT_GROUP []) else s
  else s

/-- QUIET_TIMEOUT (R53, R102). -/
def State.quietTimeout (s : State) : State :=
  let w := s.rd V.KNT_WAIT []
  let flip := w == 3 || (w == 7 && s.nowFrames.any fun f => f.region == 6 || f.region == 7)
  if s.knitBusy && (w == 2 || w == 6 || flip) then s.knitFail 0x0A (s.rd V.KNT_GROUP []) 0 else s

/-- A zeroize begins: no bus error and no retirement has met it yet. -/
def State.zeroWatch (s : State) : State := s.eraseRegs fun f _ => f == V.ZERO_BUSERR.id || f == V.ZERO_LOST.id

/-- BORDER_DRAIN_END: the drain has ended and the zeroize starts. -/
def State.borderDrainEnd (s : State) : State :=
  if s.knitBusy && s.rd V.KNT_WAIT [] = 4 && s.borderDrained then
    (((s.zeroMoves s.groupMoves).wr V.KNT_WAIT [] 5).wr V.KNT_TRIES [] 0).zeroWatch
  else s

/-- BORDER_DRAIN_TIMEOUT. -/
def State.borderDrainTimeout (s : State) : State :=
  if s.knitBusy && s.rd V.KNT_WAIT [] = 4 then s.knitFail 0x0B (s.rd V.KNT_GROUP []) 0 else s

/-- The ranges of moved memory in which COMPARE finds something other than zero: those that lie in an extent of the operand, those that hold an uncorrectable
sector, and those of a stack that a retirement has met meanwhile (R393); and those of a quadrant where two bus errors have kept the Mover from comparing (R419). -/
def State.badMoves (s : State) (ms : List (Nat × Nat × Nat)) (mismatch : List (Nat × Nat)) : List (Nat × Nat × Nat) :=
  ms.filter fun m => decide (2 ≤ s.rd V.ZERO_BUSERR [m.1 / 6]) || s.movesBad [m] || s.rdb V.ZERO_LOST [m.1] || s.rd F.HBM_STACK_STATE [m.1 / 6, m.1 % 6] == 3
    || (s.movedExtents [m]).any mismatch.contains

/-- BORDER_ZEROIZE_END: the COMPARE has ended; mismatch: the extents, as (quadrant, entry), in which it found a word that is not zero.  After a second mismatch these
extents, and no others, stay unreadable (R68). -/
def State.borderZeroizeEnd (s : State) (mismatch : List (Nat × Nat)) : State :=
  if s.knitBusy && s.rd V.KNT_WAIT [] = 5 then
    let ms := s.groupMoves
    let bad := s.badMoves ms mismatch
    if bad.isEmpty then s.borderApply.knitNext
    else if s.rd V.KNT_TRIES [] = 0 then ((s.zeroMoves ms).wr V.KNT_TRIES [] 1).zeroWatch
    else
      let s := (s.movedExtents bad).foldl (fun t x => t.wr V.EXT_DEAD [x.1, x.2] 1) s
      s.knitFail 9 (s.rd V.KNT_GROUP []) 0
  else s

/-- EPOCH_FLIP: the flip that an EPOCH group or a border move owes a partition, once its old bank has retired. -/
def State.epochFlip (s : State) (p : Nat) : State :=
  if s.oldBank p then s
  else if s.rdb V.WAIT_FLIP [p] then ((epochKeys p).foldl State.resyncImg s).flipNow p
  else if s.knitBusy && s.rd V.KNT_WAIT [] = 3 && s.nowFrames.any fun f => f.part == p then
    ((s.groupApply s.nowFrames).flipNow p).knitNext
  else s

/-- EPOCH_RETIRE: no packet stamped with the old bank is held, and it retires. -/
def State.epochRetire (s : State) (p : Nat) : State :=
  let b := 1 - s.stamp p
  if s.bankValid p b && s.inflight p b = 0 then
    let s := (s.wr (validFld b) [p] 0).wr F.XPT_EPOCH_STATE [p] (if s.rdb V.WAIT_FLIP [p] then 2 else 0)
    if s.knitBusy && s.rd V.KNT_WAIT [] = 7 then s.knitStage (s.rd V.KNT_GROUP []) else s
  else s

/-! ## Loads at start-up (R42, R480) -/

/-- A two-phase knit at start-up has voted: no external port is open and no host has written COMMIT, so that only its own module can have completed the round, and the wait of
HOST_GO or the context's patience ends with a discard otherwise (R58; DEDUCED, log entry 34). -/
def State.bootVote (s : State) : State :=
  match s.rd V.KNT_WAIT [] with
  | 9 => s.voteDone (match s.voteRound with | some r => r.yes | none => false)
  | 10 => (s.voteCast 0).1.knitFail 0x0D 0 0
  | _ => s

/-- One group after the other takes effect as soon as it is staged (fuel: the number of groups). -/
def State.bootGroups (s : State) : Nat → State
  | 0 => s
  | n + 1 =>
    let s := s.bootVote
    let fs := s.nowFrames
    let p := (fs.map (·.part)).headD 0
    let s := if !s.knitBusy then s else match s.rd V.KNT_WAIT [] with
      | 0 => s
      | 7 => s
      | 3 => (s.groupApply fs).flipNow p
      | 4 => s.borderApply
      | _ => s.groupApply fs
    if s.knitBusy && s.rd V.KNT_WAIT [] = 0 then
      let s := ((s.resyncEnd).epochRetire p).knitNext
      s.bootGroups n
    else s

/-- A knit read from boot flash: true when it has been applied in full. -/
def State.knitBoot (s : State) (bs : List Byte) : State × Bool :=
  let s := ((s.wr V.KNT_FN [] 34).wr F.KNT_STATUS_STATE [33] 2).wr F.KNT_STATUS_FAIL_GROUP [33] 0
  let s := s.stageKnit bs
  let s := if (knitStep1 bs).isNone && (knitHdrOf bs).twoPhase then s.wr V.KNT_VOTE [] 1 else s
  let s := match s.knitVerify 33 bs with
    | some (c, i) => s.knitFail c 0 i
    | none => (s.knitStage 1).bootGroups (knitHdrOf bs).groups
  (s, s.rd F.KNT_STATUS_STATE [33] == 5)

end Sys2Proof.Machine
end

