-- ==== Sys2Proof/Machine/Tray.lean ====
section
/-! DEFINITION. Tray control: measurement, the pump, fan and power-cap loops, the owner pair, telemetry and the rack
managers (R422 to R446 of spec/14_tray_control.md). -/

namespace Sys2Proof.Machine

/-! ## The SENSE image and small helpers -/

/-- An n-byte field of the SENSE image (R445). -/
def State.sense (s : State) (off n : Nat) : Nat := s.img.le 0x0B 4 0 off n

/-- a < b for FP32 words, infinities included; false where one is not a number. -/
def less32 (a b : Nat) : Bool :=
  let k := fun x : Nat => if bitOf x 31 then -((x % 2 ^ 31 : Nat) : Int) else ((x % 2 ^ 31 : Nat) : Int)
  !(ieNan fmtFp32 a || ieNan fmtFp32 b) && decide (k a < k b)

/-- The greater of two FP32 words, as the pseudocode's max takes it. -/
def max32 (a b : Nat) : Nat := if less32 a b then b else a

/-- clamp of R427. -/
def clamp32 (x lo hi : Nat) : Nat := if less32 x lo then lo else if less32 hi x then hi else x

/-- A whole number as an FP32 word; the numbers used here are exact. -/
def nat32 (n : Nat) : Nat := (toFloat fmtFp32 ⟨false, n, 1⟩ .rne).1

/-- A value shown in a whole-number field: the spec does not say how it is rounded, so the field holds a free choice of
its two neighbours, no more than the field can hold (log entry 43). -/
def State.showEx (s : State) (f : Fld) (ix : List Nat) (x : Ex) : State :=
  let v := if x.neg then 0 else x.n / x.d + (if x.n % x.d = 0 then 0 else Config.free s.free 0 % 2)
  s.freshen.wr f ix (min v (2 ^ f.w - 1))

/-- An FP32 word shown in a whole-number field, in units of 1/k. -/
def State.show32 (s : State) (f : Fld) (ix : List Nat) (v k : Nat) : State :=
  match decodeFloat fmtFp32 v with
  | some x => s.showEx f ix { x with n := x.n * k }
  | none => s.wr f ix (2 ^ f.w - 1)

/-- True while the Yofen runs. -/
def State.yofRuns (s : State) : Bool := s.rdb V.YOF_ON [] && !s.rdb F.HAT_YOF_RESETTING []

/-- True while an injected 0xFFFF replaces the codes of a channel. -/
def State.adcInj (s : State) (n : Nat) : Bool := s.rd V.ADC_INJ_CH [] == n && decide (s.timeNs < s.rd V.ADC_INJ_END [])

/-! ## Measurement (R423 to R426) -/

/-- OFFSET of a channel as an FP32 word. -/
def State.adcOffset (s : State) (n : Nat) : Nat :=
  (toFloat fmtFp32 (exOfInt (signed 16 (s.sense (16 * n + 4) 2))) .rne).1

/-- (code − OFFSET) × GAIN for an FP32 code. -/
def State.adcValue (s : State) (n code : Nat) : Nat :=
  ieMul fmtFp32 (ieSub fmtFp32 code (s.adcOffset n)) (s.sense (16 * n) 4)

/-- The ten codes of a channel in a window of 160 codes, channel by channel. -/
def State.adcCodes (s : State) (codes : List Nat) (n : Nat) : List Nat :=
  (List.range 10).map fun i => if s.adcInj n then 0xFFFF else codes.getD (10 * n + i) 0 % 2 ^ 16

/-- A channel's 1 ms value stored. -/
def State.adcStore (s : State) (codes : List Nat) (n : Nat) : State :=
  let sum := (s.adcCodes codes n).foldl (fun (a b : Nat) => a + b) 0
  (s.wr F.TRY_ADC_VALUE [n] (s.adcValue n (ieDiv fmtFp32 (nat32 sum) (nat32 10)))).showEx F.TRY_ADC_CODE [n] ⟨false, sum, 10⟩

/-- The value of a channel. -/
def State.adc (s : State) (n : Nat) : Nat := s.rd F.TRY_ADC_VALUE [n]

/-- a > b + 2 for two finite FP32 words. -/
def above2 (a b : Nat) : Bool :=
  match decodeFloat fmtFp32 a, decodeFloat fmtFp32 b with
  | some x, some y => exLt (exAdd y ⟨false, 2, 1⟩) x
  | _, _ => false

/-- The conditions of R425 for a channel's window. -/
def State.implausible (s : State) (codes : List Nat) (n : Nat) : Bool :=
  let v := s.adc n
  (s.adcCodes codes n).any (fun c => c == 0 || c == 0xFFFF)
    || ieNan fmtFp32 v || less32 v (s.sense (16 * n + 8) 4) || less32 (s.sense (16 * n + 12) 4) v
    || (ieNan fmtFp32 (s.adc 15) || less32 (s.adc 15) 0x401E6667 || less32 0x40219999 (s.adc 15))
    || ((n == 4 || n == 5) && above2 (s.adc 4) (s.adc 5))

/-- A channel's verdict noted: its bits, and its corrected record when it becomes implausible, at most one a minute. -/
def State.adcNote (s : State) (n : Nat) (bad : Bool) : State :=
  let was := s.rdb F.TRY_ADC_IMPLAUS [n]
  let s := s.wr F.TRY_ADC_IMPLAUS [n] (b2n bad)
  if bad then
    let s := (s.raise F.TRY_ADC_STICKY [n]).wr V.ADC_BAD_AT [n] (1 + s.timeNs)
    if !was && (s.rd V.ADC_REC [n] == 0 || decide (s.rd V.ADC_REC [n] - 1 + 60 * 10 ^ 9 ≤ s.timeNs)) then
      (s.wr V.ADC_REC [n] (1 + s.timeNs)).err { det := 0x11, sev := 0, unit := n, inj := s.adcInj n }
    else s
  else s

/-- True when a CRIT channel was implausible in a window of the latest second. -/
def State.plausFails (s : State) : Bool :=
  (List.range 16).any fun n =>
    s.sense (16 * n + 6) 1 % 2 == 1 && s.rdb V.ADC_BAD_AT [n] && decide (s.timeNs < s.rd V.ADC_BAD_AT [n] - 1 + 10 ^ 9)

/-- The module's verdict: a contained record when it fails; a standby in no contest becomes DEGRADED (R441). -/
def State.plausNote (s : State) : State :=
  let bad := s.plausFails
  let was := s.rdb V.PLAUS_FAILED []
  let s := (s.wr V.PLAUS_FAILED [] (b2n bad)).wr F.TRY_OWN_PLAUS_OK [] (b2n !bad)
  let s := if bad && !was then s.err { det := 0x11, sev := 1, inj := s.adcInj (s.rd V.ADC_INJ_CH []) } else s
  if bad && s.rd F.TRY_OWN_ROLE [] = 1 && !s.rdb F.TRY_OWN_CONTEST [] then (s.wr F.TRY_OWN_ROLE [] 3).wr F.TRY_OWN_QUALIFIED [] 0 else s

/-- P of R424: the sum of the ten products of VIN and IIN, times 2^298; a product that is not finite counts as the
greatest number held. -/
def State.powerSum (s : State) (codes : List Nat) : Nat :=
  let prod := fun i : Nat =>
    let v := s.adcValue 0 (nat32 ((s.adcCodes codes 0).getD i 0))
    let a := s.adcValue 1 (nat32 ((s.adcCodes codes 1).getD i 0))
    match decodeFloat fmtFp32 v, decodeFloat fmtFp32 a with
    | some x, some y =>
      let p := exMul x y
      exNum p * 2 ^ 298 / (p.d : Int)
    | _, _ => (2 ^ 690 : Int)
  (((List.range 10).map prod).foldl (fun (a b : Int) => a + b) 0).toNat

/-- P in W. -/
def State.powerP (s : State) : Ex := ⟨false, s.rd V.P_SUM [], 10 * 2 ^ 298⟩

/-- A window of the converter taken in: its codes stored and judged, P and its display, the temperatures and the speeds. -/
def State.adcTake (s : State) (codes temps rpms : List Nat) : State :=
  let s := (List.range 16).foldl (fun t n => t.adcStore codes n) s
  let bad := (List.range 16).map fun n => s.implausible codes n
  let s := (List.range 16).foldl (fun t n => t.adcNote n (bad.getD n false)) s
  let s := s.plausNote
  let s := s.wr V.P_SUM [] (min (s.powerSum codes) (2 ^ 700 - 1))
  let s := s.showEx F.TRY_CAP_POWER_W [] s.powerP
  let s := match temps with
    | [] => s
    | t :: r => s.wr V.TJ [] (r.foldl max32 t)
  let s := (List.range 4).foldl (fun t q => match (temps.drop (16 * q)).take 16 with
    | [] => t
    | x :: r => t.wr V.TJQ [q] (r.foldl max32 x)) s
  (List.range 8).foldl (fun t i =>
    match rpms[i]? with
    | some r => let t := t.wr F.TRY_TACH_RPM [i] r
                if r = 0 then t else t.wr F.TRY_TACH_LOST [i] 0
    | none => t) s

/-- ADC_WINDOW: 160 codes channel by channel, the readings of the on-die sensors as FP32 words in °C, and the speeds of
the eight tach inputs. -/
def State.adcWindow (s : State) (codes temps rpms : List Nat) : State :=
  if !s.yofRuns then s else s.adcTake codes temps rpms

/-- A tach input is driven: its duty is at least 0.2. -/
def State.tachDriven (s : State) (i : Nat) : Bool := decide (2 ^ 16 ≤ 5 * s.rd F.TRY_PWM_APPLIED [i])

/-- TACH_LOST: a fan's loss is a corrected record (R441). -/
def State.tachLost (s : State) (i : Nat) : State :=
  if !s.tachDriven i || s.rdb F.TRY_TACH_LOST [i] || !s.yofRuns then s
  else
    let s := (s.wr F.TRY_TACH_LOST [i] 1).wr F.TRY_TACH_RPM [i] 0
    if i < 2 then s else s.err { det := 0x11, sev := 0, unit := 16 + i }

/-! ## The control loops (R427) -/

/-- pi of R427: the integrator after the step and the duty. -/
def State.piLoop (s : State) (j meas : Nat) : Nat × Nat :=
  let fld := fun o : Nat => s.sense (320 + 32 * j + o) 4
  let e := ieSub fmtFp32 meas (fld 0)
  let i := clamp32 (ieAdd fmtFp32 (s.rd V.INTEG [j]) (ieMul fmtFp32 (ieMul fmtFp32 (fld 8) e) 0x3C23D70A)) 0 one32
  (i, clamp32 (ieAdd fmtFp32 (ieMul fmtFp32 (fld 4) e) i) (fld 12) one32)

/-- FORCE_DUTY of an output as an FP32 word. -/
def State.forceDuty (s : State) (i : Nat) : Nat := (toFloat fmtFp32 ⟨false, s.rd F.TRY_PWM_FORCE_DUTY [i], 2 ^ 16⟩ .rne).1

/-- The duty driven at an output: the computed duty, raised to FORCE_DUTY when FORCE is 1. -/
def State.dutyOut (s : State) (i : Nat) : State :=
  let d := s.rd V.DUTY [i]
  s.wr V.PWM_OUT [i] (if s.rdb F.TRY_PWM_FORCE [i] then max32 d (s.forceDuty i) else d)

/-- TRY_PWM written: the loop step of the same 1 ms step uses the written value (R444). -/
def State.dutyForced (s : State) : State :=
  if s.yofRuns && s.rd V.TRAY_MS [] == s.timeNs / 10 ^ 6 + 1 then (List.range 8).foldl State.dutyOut s else s

/-- A computed duty stored, and the duty driven. -/
def State.dutyStore (s : State) (i d : Nat) : State :=
  let d := if s.timeNs < s.rd V.DUTY_INJ_END [] then
      clamp32 (ieAdd fmtFp32 d (ieMul fmtFp32 0x40000000 (s.sense 420 4))) 0 one32 else d
  ((s.wr V.DUTY [i] d).show32 F.TRY_PWM_COMPUTED [i] d (2 ^ 16)).dutyOut i

/-- The 10 ms step of the three loops, and the duty of each of the eight outputs. -/
def State.trayControl (s : State) (applied : List Nat) (peerLive : Bool) : State :=
  let s := (List.range 8).foldl (fun t i =>
    match applied[i]? with
    | some a => t.wr F.TRY_PWM_APPLIED [i] a
    | none => t) s
  let s := (s.wr F.TRY_OWN_PEER_LIVE [] (b2n peerLive)).wr V.TRAY_MS [] (s.timeNs / 10 ^ 6 + 1)
  let flowMin := s.sense 416 4
  let (i0, d0) := s.piLoop 0 (s.rd V.TJ [])
  let (i1, d1) := s.piLoop 1 (ieAdd fmtFp32 (ieSub fmtFp32 flowMin (s.adc 6)) flowMin)
  let (i2, d2) := s.piLoop 2 (max32 (max32 (s.adc 13) (s.adc 14)) (s.adc 9))
  let s := ((s.wr V.INTEG [0] i0).wr V.INTEG [1] i1).wr V.INTEG [2] i2
  let ok := !s.rdb V.PLAUS_FAILED []
  let lost := fun i : Nat => s.rdb F.TRY_TACH_LOST [i]
  let pump := if !ok || lost 0 || lost 1 then one32 else max32 d0 d1
  let fanLost := (List.range 6).any fun i => lost (2 + i)
  let fan := fun i : Nat => if !ok || (fanLost && !lost i) then one32 else d2
  (List.range 8).foldl (fun t i => t.dutyStore i (if i < 2 then pump else fan i)) s

/-- TRAY_STEP: the duties that the multiplexer reports, whether TRAY_OWN_IN toggles, and the loops. -/
def State.trayStep (s : State) (applied : List Nat) (peerLive : Bool) : State :=
  if !s.yofRuns then s else s.trayControl applied peerLive

/-! ## The power cap (R428 to R431) -/

/-- The active caps with their SOURCE codes. -/
def State.caps (s : State) : List (Nat × Ex) :=
  let vin := (decodeFloat fmtFp32 (s.adc 0)).getD ⟨false, 0, 1⟩
  let forty := if vin.neg then ⟨false, 0, 1⟩ else { vin with n := 40 * vin.n }
  let whole := fun n : Nat => (⟨false, n, 1⟩ : Ex)
  [(0, if exLt forty (whole 2000) then forty else whole 2000), (1, whole (s.img.le 0x0A 4 0 0 2 % 4096))]
    ++ (if s.rdb F.TRY_CAP_HOST_CAP_W [] then [(2, whole (s.rd F.TRY_CAP_HOST_CAP_W []))] else [])
    ++ (if s.rdb F.TRY_STAGE_PUMP [] then [(3, whole 600)] else [])
    ++ (if s.rdb F.TRY_ALERT_ASSERTED [] then [(4, whole (s.rd F.TRY_ALERT_ALERT_W []))] else [])

/-- The effective cap and its source: the least, the lowest SOURCE code among equals. -/
def State.effCap (s : State) : Nat × Ex :=
  match s.caps with
  | [] => (0, ⟨false, 0, 1⟩)
  | c :: r => r.foldl (fun a b => if exLt b.2 a.2 then b else a) c

/-- cap_step of R429; where the cap is zero its quotient is a free value. -/
def State.capThr (s : State) (cap : Ex) : Nat :=
  let thr := s.rd F.TRY_CAP_THR []
  let p := s.powerP
  let hyst : Ex := ⟨false, s.sense 438 2, 1⟩
  if exLt cap p then
    let x := exMul (exAdd p (exNeg cap)) ⟨false, s.sense 436 1, 1⟩
    let up := if cap.n = 0 then Config.free s.free 1 else ceilDiv (exDiv x cap).n (exDiv x cap).d
    min (s.sense 437 1) (thr + max 1 up)
  else if exLt p (exAdd cap (exNeg hyst)) then thr - 1
  else thr

/-- CAP_STEP. -/
def State.capStep (s : State) : State :=
  if !s.yofRuns then s
  else
    let (src, cap) := s.effCap
    ((s.freshen.wr F.TRY_CAP_THR [] (s.capThr cap)).wr F.TRY_CAP_SOURCE [] src).showEx F.TRY_CAP_CAP_W [] cap

/-- PWR_ALERT_ASSERT: a hardware path. -/
def State.alertAssert (s : State) : State :=
  let s := (s.wr F.TRY_ALERT_ASSERTED [] 1).wr F.TRY_CAP_THR []
    (max (s.rd F.TRY_CAP_THR []) (s.rd F.TRY_ALERT_ALERT_THR []))
  s.notice 1 (s.rd F.TRY_ALERT_ALERT_LEVEL []) 0 s.presentDown

/-- POWER_CAP with ACC_LEVEL on every present downlink. -/
def State.accNotice (s : State) : State := s.notice 1 (s.rd F.TRY_ALERT_ACC_LEVEL []) 0 s.presentDown

/-- PWR_ALERT_RELEASE. -/
def State.alertRelease (s : State) : State :=
  if s.rdb F.TRY_ALERT_ASSERTED [] then (s.wr F.TRY_ALERT_ASSERTED [] 0).accNotice else s

/-- ACC_GO: a write of TRY_ALERT; with ACC_GO = 1 the notice is sent, or kept for the release. -/
def State.accGo (s : State) (v : Nat) : State :=
  let s := s.wr F.TRY_ALERT_ACC_LEVEL [] (bitsOf v 29 8)
  if bitOf v 37 && !s.rdb F.TRY_ALERT_ASSERTED [] then s.accNotice else s

/-! ## The watchdog of the Yofen (R422) -/

/-- YOFEN_KICK; an armed injection at detector 0x12 suppresses it. -/
def State.yofenKick (s : State) : State :=
  if !s.yofRuns then s
  else if s.rd V.INJ_KIND [] = 1 && s.rd V.INJ_DET [] = 0x12 then s.injFired.wr V.KICK_INJ [] 1
  else (s.wr V.KICK_NS [] s.timeNs).wr V.KICK_INJ [] 0

/-- A record that the Hatband writes to its own log only: no ring is reached while the Yofen or the rails are down. -/
def State.hatRecord (s : State) (e : ErrInfo) : State :=
  let s := s.bumpOvf F.ERR_DET_COUNT F.ERR_DET_OVF [e.det] 1
  { s with errDue := errInsert { e with hat := true } s.errDue }

/-- The Yofen loses what it holds: its loops, its part in the owner pair and every uncommitted knit group. -/
def State.yofenLost (s : State) : State :=
  let s := s.knitYofenReset
  let s := s.eraseRegs fun f _ => f == V.INTEG.id || f == V.DUTY.id || f == V.INTEG_LOADED.id || f == V.CONTEST_HOLD.id
  ((s.wr F.TRY_OWN_ROLE [] 0).wr F.TRY_OWN_QUALIFIED [] 0).wr F.TRY_OWN_CONTEST [] 0

/-- YOFEN_WATCHDOG: the heartbeat stops with the role, the reset is counted and logged, and the Yofen is reset. -/
def State.yofenReset (s : State) (det unit : Nat) (inj : Bool) : State :=
  let s := s.bump F.HAT_YOF_RESETS [] 1
  let s := s.hatRecord { det := det, sev := 2, unit := unit, inj := inj }
  (s.wr F.HAT_YOF_RESETTING [] 1).yofenLost

def State.yofenWatchdog (s : State) : State :=
  if s.yofRuns then (s.yofenReset 0x12 0 (s.rdb V.KICK_INJ [])).wr V.KICK_INJ [] 0 else s

/-- The Yofen starts: a standby, and the Hatband's records in ring 0, oldest first (R557). -/
def State.yofenStart (s : State) : State :=
  let s := (s.wr V.YOF_ON [] 1).wr F.HAT_YOF_RESETTING [] 0
  let s := s.wr F.TRY_OWN_ROLE [] 1
  let s := (s.wr V.KICK_NS [] s.timeNs).wr V.YOF_BOOT_NS [] s.timeNs
  s.hatLog.reverse.foldl (fun t r => t.errToRing 0 (bitsOf r 72 2) r) s

/-- YOFEN_REBOOT: the Yofen has booted after a reset by the Hatband. -/
def State.yofenReboot (s : State) : State := if s.rdb F.HAT_YOF_RESETTING [] then s.yofenStart else s

/-! ## The owner pair (R432 to R437) -/

/-- TRAY_OWN_OUT toggles. -/
def State.ownOut (s : State) : Bool :=
  s.rd F.TRY_OWN_ROLE [] == 2 && s.yofRuns && decide (s.rd V.HB_STOP_END [] ≤ s.timeNs)

/-- An owner of the tray seen, 1 this module, 2 the other: a change is counted. -/
def State.seeOwner (s : State) (w : Nat) : State :=
  let old := s.rd V.OWNER_SEEN []
  let s := s.wr V.OWNER_SEEN [] w
  if old = 0 || old = w then s else s.bump F.TRY_OWN_HANDOVERS [] 1

/-- The module becomes a standby that has not qualified. -/
def State.becomeStandby (s : State) : State :=
  ((s.wr F.TRY_OWN_ROLE [] 1).wr F.TRY_OWN_QUALIFIED [] 0).wr V.INTEG_LOADED [] 0

/-- TRAY_CLAIM: TRAY_OWN_IN has been released for more than 1 ms, or more than 100 ms.  A contest that runs ends
without a verdict (R444). -/
def State.trayClaim (s : State) (long : Bool) : State :=
  let s := s.wr F.TRY_OWN_PEER_LIVE [] 0
  if s.yofRuns && s.rd F.TRY_OWN_ROLE [] < 2 && (s.rdb F.TRY_OWN_PLAUS_OK [] || long) then
    ((s.wr F.TRY_OWN_ROLE [] 2).wr F.TRY_OWN_CONTEST [] 0).seeOwner 1
  else s.wr F.TRY_OWN_CONTEST [] 0

/-- TRAY_OWN_CONFLICT: slot 1 gives way; slot 0 keeps the tray. -/
def State.ownConflict (s : State) : State :=
  let s := s.wr F.TRY_OWN_PEER_LIVE [] 1
  if s.rd F.TRY_OWN_ROLE [] = 2 && s.rd F.TRY_OWN_SLOT [] = 1 then (s.wr F.TRY_OWN_CONTEST [] 0).becomeStandby.seeOwner 2 else s

/-- OWNER_PUBLISH: an owner puts its control state on the tray bus; a standby takes what the owner put there, and loads
the integrators before it contests anything (R437). -/
def State.ownerPublish (s : State) (pub : List Nat) : State :=
  if !s.yofRuns then s
  else if s.rd F.TRY_OWN_ROLE [] = 2 then
    s.emit (.trayBus [s.rd V.INTEG [0], s.rd V.INTEG [1], s.rd V.INTEG [2], s.rd F.TRY_CAP_CAP_W [], s.rd F.TRY_STAGE_PUMP [],
      s.rd V.TRAY_SEQ [], s.rd F.TRY_OWN_PLAUS_OK []])
  else
    let g := fun i : Nat => pub.getD i 0
    let s := (List.range 3).foldl (fun t j => t.wr V.PEER_INTEG [j] (g j)) s
    let s := (((s.wr V.PEER_CAP [] (g 3)).wr V.PEER_STAGE [] (g 4)).wr V.TRAY_SEQ [] (g 5)).wr V.PEER_PLAUS [] (g 6)
    let s := (s.wr F.TRY_OWN_PEER_LIVE [] 1).seeOwner 2
    if s.rdb V.INTEG_LOADED [] then s
    else (List.range 3).foldl (fun t j => t.wr V.INTEG [j] (g j)) (s.wr V.INTEG_LOADED [] 1)

/-- An output differs by more than OUT_TOL from the reported duty. -/
def State.outDiffers (s : State) (i : Nat) : Bool :=
  match decodeFloat fmtFp32 (s.rd V.DUTY [i]), decodeFloat fmtFp32 (s.sense 420 4) with
  | some x, some tol =>
    let d := exAdd x (exNeg ⟨false, s.rd F.TRY_PWM_APPLIED [i], 2 ^ 16⟩)
    exLt tol { d with neg := false }
  | _, _ => false

def State.anyDiffers (s : State) : Bool := (List.range 8).any s.outDiffers

/-- CONTEST_START: announced by a qualified standby whose duties differ, or heard by the owner.  Every contest writes a
module record on both modules. -/
def State.contestStart (s : State) : State :=
  let role := s.rd F.TRY_OWN_ROLE []
  let may := s.yofRuns && !s.rdb F.TRY_OWN_CONTEST [] &&
    (role == 2 || (role == 1 && s.rdb F.TRY_OWN_QUALIFIED [] && s.rdb F.TRY_OWN_PEER_LIVE [] && s.anyDiffers
      && decide (s.rd V.CONTEST_HOLD [] ≤ s.timeNs)))
  if may then
    ((s.wr F.TRY_OWN_CONTEST [] 1).bump F.TRY_OWN_CONTESTS [] 1).err
      { det := 0x10, sev := 2, inj := decide (s.timeNs < s.rd V.DUTY_INJ_END []) }
  else s

/-- CONTEST_RESOLVE: the table of R436, with the other module's verdict; a standby that fails is DEGRADED whatever the
other's verdict (R441). -/
def State.contestResolve (s : State) (peerPass : Bool) : State :=
  if !s.rdb F.TRY_OWN_CONTEST [] || !s.yofRuns then s
  else
    let own := s.rdb F.TRY_OWN_PLAUS_OK []
    let owner := s.rd F.TRY_OWN_ROLE [] == 2
    let s := s.wr F.TRY_OWN_CONTEST [] 0
    if !own && (peerPass || !owner) then (s.wr F.TRY_OWN_ROLE [] 3).wr F.TRY_OWN_QUALIFIED [] 0
    else if own && peerPass && !owner then s.wr V.CONTEST_HOLD [] (s.timeNs + 60 * 10 ^ 9)
    else s

/-- DEGRADED_CLEAR. -/
def State.degradedClear (s : State) : State :=
  if s.yofRuns && s.rd F.TRY_OWN_ROLE [] = 3 && s.rdb F.TRY_OWN_PLAUS_OK [] then s.becomeStandby else s

/-- STANDBY_QUALIFY. -/
def State.standbyQualify (s : State) : State :=
  if s.yofRuns && s.rd F.TRY_OWN_ROLE [] = 1 && s.rdb V.INTEG_LOADED [] && !s.anyDiffers then s.wr F.TRY_OWN_QUALIFIED [] 1
  else s

/-- TRAY_YIELD: TRY_OWN.YIELD. -/
def State.trayYield (s : State) : State := if s.rd F.TRY_OWN_ROLE [] = 2 then s.becomeStandby else s

/-! ## Telemetry and the rack managers (R438 to R440) -/

/-- The two telemetry datagrams. -/
def State.telemetryOut (s : State) : State :=
  let adcReg := fun n : Nat => leBytes 4 (s.adc n) ++ leBytes 2 (s.rd F.TRY_ADC_CODE [n])
    ++ leBytes 2 (s.rd F.TRY_ADC_IMPLAUS [n] + 2 * s.rd F.TRY_ADC_STICKY [n])
  let tray := ([4, 7, 8, 9, 10, 11, 12, 13, 14].flatMap adcReg)
    ++ ((List.range 8).flatMap fun i => leBytes 8 (s.rd F.TRY_TACH_RPM [i] + s.rd F.TRY_TACH_LOST [i] * 2 ^ 16))
    ++ ((List.range 8).flatMap fun i => leBytes 8 (s.rd F.TRY_PWM_APPLIED [i]))
  let s := s.sendGram 1 tray
  let s := if s.rd F.TRY_OWN_ROLE [] = 2 then s.bump V.TRAY_SEQ [] 1 else s
  s.sendGram 2 ([0, 1, 2, 3, 5, 6, 15].flatMap adcReg)

/-- TELEMETRY_SEND: the tray items and the module items, each as the 8 bytes of its register (log entry 44). -/
def State.telemetrySend (s : State) : State :=
  if !s.yofRuns then s else s.telemetryOut

/-- MANAGER_HEARTBEAT: manager 0 is A, 1 is B. -/
def State.managerHeartbeat (s : State) (m : Nat) : State :=
  (s.wr (if m = 0 then F.TRY_STAGE_MGR_A else F.TRY_STAGE_MGR_B) [] 1).wr F.TRY_STAGE_HOLD [] 0

/-- MANAGER_LOST. -/
def State.managerLost (s : State) (m : Nat) : State :=
  let f := if m = 0 then F.TRY_STAGE_MGR_A else F.TRY_STAGE_MGR_B
  if s.rdb f [] then (s.wr f [] 0).err { det := 0x12, sev := 0, unit := m } else s

/-- AUTONOMOUS_HOLD. -/
def State.autonomousHold (s : State) : State :=
  if s.rdb F.TRY_STAGE_MGR_A [] || s.rdb F.TRY_STAGE_MGR_B [] then s else s.wr F.TRY_STAGE_HOLD [] 1

/-! ## Pump stages (R442) -/

/-- Flow is below FLOW_MIN. -/
def State.flowLow (s : State) : Bool := less32 (s.adc 6) (s.sense 416 4)
def State.pumpLost (s : State) : Bool := s.rdb F.TRY_TACH_LOST [0] || s.rdb F.TRY_TACH_LOST [1]
def State.tjAtLeast (s : State) (deg : Nat) : Bool := !ieNan fmtFp32 (s.rd V.TJ []) && !less32 (s.rd V.TJ []) (nat32 deg)

def State.pumpRecord (s : State) (stage : Nat) : State :=
  (s.wr F.TRY_STAGE_PUMP [] stage).err { det := 0x14, sev := 2, cause := stage }

/-- PUMP_STAGE_1. -/
def State.pumpStage1 (s : State) : State :=
  if s.yofRuns && s.rd F.TRY_STAGE_PUMP [] = 0 && (s.pumpLost || s.flowLow) then
    (s.wr F.TRY_STAGE_EXPORT_DONE [] 0).pumpRecord 1
  else s

/-- The forced export of a partition: its shards in ascending order, each at the next 4 KiB boundary of STAGE from
EXPORT_OFF on (log entry 45). -/
def State.exportPart (s : State) (p : Nat) : State :=
  ((List.range 4096).foldl (fun (a : State × Nat) k =>
    match a.1.img.shardValid p k with
    | some h => ((a.1.snapshotShard p k (1 + a.2 * 2 ^ 16) h).1,
                 a.2 + ceilDiv (64 + recBytes h * h.lchunk + 16) 4096)
    | none => a) (s, 256 * s.sense (444 + 2 * p) 2)).1

/-- Stage 2 of the pump ladder: its record, the event datagram and the export of every partition that Sense names (R439). -/
def State.pumpExport (s : State) : State :=
  let s := (s.pumpRecord 2).sendGram 3 (leBytes 8 2)
  let s := (List.range 32).foldl (fun t p =>
    if p != 0 && bitOf (t.sense 440 4) p && t.img.brimValid p then t.exportPart p else t) s
  s.wr F.TRY_STAGE_EXPORT_DONE [] 1

/-- PUMP_STAGE_2: the exports run and an event datagram is sent.  The junction alone enters it from stage 0 as well. -/
def State.pumpStage2 (s : State) : State :=
  if s.yofRuns && s.rd F.TRY_STAGE_PUMP [] < 2
      && (s.tjAtLeast (s.sense 424 1) || (s.rd F.TRY_STAGE_PUMP [] == 1 && s.flowLow)) then
    s.pumpExport
  else s

/-- PUMP_STAGE_CLEAR: the tach inputs and the flow have been good. -/
def State.pumpStageClear (s : State) : State :=
  if s.yofRuns && !s.pumpLost && !s.flowLow then s.wr F.TRY_STAGE_PUMP [] 0 else s

/-- TRAY_BUS_RECOVERY: the bus recovery of the I3C specification on bus 7. -/
def State.trayBusRecovery (s : State) : State := s.emit (.pin 7 1)

/-- TRAY_INJECT: a write of TRY_INJ.  A contest record has module severity. -/
def State.trayInject (s : State) (v : Nat) : State :=
  let kind := bitsOf v 4 3
  let s := (s.wr F.TRY_INJ_CHANNEL [] (bitsOf v 0 4)).wr F.TRY_INJ_KIND [] kind
  if !bitOf v 7 then s
  else if !s.injAllowed false 0 (kind == 3) then s.injRefused
  else match kind with
    | 1 => ((s.wr V.ADC_INJ_CH [] (bitsOf v 0 4)).wr V.ADC_INJ_END [] (s.timeNs + 10 ^ 9)).injFired
    | 2 => (s.wr V.HB_STOP_END [] (s.timeNs + 2 * 10 ^ 6)).injFired
    | 3 => (s.wr V.DUTY_INJ_END [] (s.timeNs + 3 * 10 ^ 9)).injFired
    | _ => s

end Sys2Proof.Machine
end

