-- ==== Sys2Proof/Machine/Cart.lean ====
section
/-! DEFINITION. Cartridges, the Cuff, the buttons, their LEDs and the last gasp (R447 to R462 of
spec/15_people_at_the_tray.md). -/

namespace Sys2Proof.Machine

/-! ## Cartridges (R447, R449) -/

/-- A cartridge of the module's own slot. -/
def State.ownCart (s : State) (c : Nat) : Bool := c / 4 == s.rd F.TRY_OWN_SLOT []

def State.cart (s : State) (c : Nat) : Nat := s.rd F.TRY_CART_STATE [c]

/-- The downlinks of the cartridge's quadrant. -/
def cartDown (c : Nat) : List Nat := (List.range 36).map fun k => 36 * (c % 4) + k

/-- A present port of the cartridge is DOWN. -/
def State.cartPortDown (s : State) (c : Nat) : Bool :=
  (List.range 40).any fun k => s.portPresent (c % 4) k && s.lnkState (c % 4) k == 0

/-- The LED pattern of a cartridge, without the refusal pattern (R455). -/
def State.ledPattern (s : State) (c : Nat) : Nat :=
  let attn := fun n : Nat => if bitOf (s.rd F.TRY_CART_CFG_ATTN []) c then 7 else n
  if 3 ≤ s.rd F.HAT_PSTATE_STATE [] then 0
  else match s.cart c with
    | 0 => 0
    | 1 => attn 4
    | 2 => attn (if s.cartPortDown c then 5 else 6)
    | 7 => 3
    | _ => 2

/-- LED_UPDATE: the Yofen sets the LED of a cartridge of the own slot. -/
def State.ledUpdate (s : State) (c : Nat) : State :=
  if s.ownCart c && s.yofRuns then (s.wr V.LED [c] (s.ledPattern c)).wr V.LED_FLASH [c] 0 else s

/-- Every LED of the own slot. -/
def State.ledAll (s : State) : State := (List.range 8).foldl (fun t c => t.ledUpdate c) s

/-- What a module that owns the tray shows on the locator LED (R456): 0 off, 1 blue blinking, 2 steady blue.  The two operands
are what the tray bus says of the other module: its LOCATE, and a recent last gasp of it (log entry 50). -/
def State.locatorLed (s : State) (peerLocate peerGasp : Bool) : Nat :=
  if s.rd F.TRY_OWN_ROLE [] ≠ 2 then 0
  else if s.rdb V.GASP [] || peerGasp then 2
  else if s.rdb F.TRY_CART_CFG_LOCATE [] || peerLocate then 1
  else 0

def State.setCart (s : State) (c st : Nat) : State := (s.wr F.TRY_CART_STATE [c] st).ledUpdate c

/-- Entry to a state that withdraws the cartridge's downlinks with a REASON. -/
def State.cartWithdraw (s : State) (c st reason : Nat) : State :=
  ((s.wr F.TRY_CART_LAST_REASON [c] reason).withdraw (cartDown c) reason).setCart c st

/-- Entry to TRAINING: EN of every present port (R460). -/
def State.cartTrain (s : State) (c : Nat) : State :=
  ((List.range 40).foldl (fun t k =>
    if t.portPresent (c % 4) k then t.hwWr F.LNK_PORT_CTL_EN [c % 4, k] 1 else t) (s.wr V.CART_LATCH [c] 0)).setCart c 1

/-- Entry to STOPPING: EN 0 on every port (R453). -/
def State.cartStop (s : State) (c : Nat) : State :=
  ((List.range 40).foldl (fun t k => t.enDrop (c % 4) k) (s.bump F.TRY_CART_DRAINS [c] 1)).setCart c 6

/-- The module acts on the cartridge: its own slot, and no last gasp (R461). -/
def State.cartActs (s : State) (c : Nat) : Bool := s.ownCart c && !s.rdb V.GASP []

/-- Another cartridge of the slot is PRE_DRAIN, DRAINING, FORCING, STOPPING or SAFE (R454). -/
def State.cartOtherBusy (s : State) (c : Nat) : Bool :=
  (List.range 8).any fun d => d != c && s.ownCart d && decide (3 ≤ s.cart d)

def State.cartRefuse (s : State) (c : Nat) : State := (s.raise F.TRY_CART_REFUSED [c]).wr V.LED_FLASH [c] 1

/-- States in which a latch, a hold, a command or a timeout forces the cartridge. -/
def State.cartForceable (s : State) (c : Nat) : Bool := s.cart c == 2 || s.cart c == 3 || s.cart c == 4

/-- FORCING with a REASON. -/
def State.cartForceIn (s : State) (c reason : Nat) : State :=
  if s.cartActs c && s.cartForceable c then s.cartWithdraw c 5 reason else s

/-- An enable of the cartridge, 1 by its button and 2 by TRY_CART_CMD: from SAFE into TRAINING, or latched while it is STOPPING
(R449, R486). -/
def State.cartEnable (s : State) (c who : Nat) : State :=
  if s.cart c = 7 && !s.rdb F.TRY_CART_CUFF [c] && s.rdb F.TRY_CART_PRESENT [c] then s.cartTrain c
  else if s.cart c = 6 then s.wr V.CART_LATCH [c] who
  else s

/-! ## Inputs (R448) -/

/-- CART_INSERT: a cartridge of the other slot only shows. -/
def State.cartInsert (s : State) (c : Nat) : State :=
  let s := s.wr F.TRY_CART_PRESENT [c] 1
  if s.cartActs c && s.cart c == 0 && !s.rdb F.TRY_CART_CUFF [c] then s.cartTrain c else s

/-- CART_LATCH_CLOSE. -/
def State.cartLatchClose (s : State) (c : Nat) : State :=
  let s := s.wr F.TRY_CART_CUFF [c] 0
  if s.cartActs c && s.cart c == 0 && s.rdb F.TRY_CART_PRESENT [c] then s.cartTrain c else s

/-- CART_PRESENCE_LOST (R457). -/
def State.cartLost (s : State) (c : Nat) : State :=
  let st := s.cart c
  let s := (s.wr F.TRY_CART_PRESENT [c] 0).wr V.CART_LATCH [c] 0
  if !s.ownCart c then s
  else
    let s := (List.range 40).foldl (fun t k => t.linkDown (c % 4) k 2) s
    if s.rdb V.GASP [] then s
    else
      let s := s.setCart c 0
      if 2 ≤ st && st ≤ 4 then
        (((s.wr F.TRY_CART_LAST_REASON [c] 5).bump F.TRY_CART_UNDRAINED [c] 1).sendGram 3 (leBytes 8 (5 + 256 * c))).err
          { det := 0x18, sev := 1, quad := c % 4, unit := c, cause := 5 }
      else s

/-- CART_TOUCH: a level of CART_TOUCH[c]; its rising edge on an IN_SERVICE cartridge starts the pre-drain. -/
def State.cartTouch (s : State) (c : Nat) (high : Bool) : State :=
  let was := s.rdb F.TRY_CART_TOUCH [c]
  let s := s.wr F.TRY_CART_TOUCH [c] (b2n high)
  if s.cartActs c && high && !was && s.cart c == 2 then s.cartWithdraw c 3 1 else s

/-- CART_CUFF_OPEN. -/
def State.cartCuffOpen (s : State) (c : Nat) : State := (s.wr F.TRY_CART_CUFF [c] 1).cartForceIn c 2

/-- PRE_DRAIN_CANCEL: RESTORE with REASON 1. -/
def State.preDrainCancel (s : State) (c : Nat) : State :=
  let s := s.wr F.TRY_CART_TOUCH [c] 0
  if s.cartActs c && s.cart c == 3 && !s.rdb F.TRY_CART_CUFF [c] then (s.restore (cartDown c) 1).setCart c 2 else s

/-- CART_BUTTON: a qualified level of the button.  A press drains or is refused; a short press, at its release, rejoins or is latched. -/
def State.cartButton (s : State) (c : Nat) (down : Bool) : State :=
  let was := s.rdb F.TRY_CART_BTN [c]
  let st := s.cart c
  let s := s.wr F.TRY_CART_BTN [c] (b2n down)
  if !s.cartActs c || down == was then s
  else if !down then (if s.rdb V.CART_HELD [c] then s else s.cartEnable c 1)
  else
    let busy := s.cartOtherBusy c
    let s := s.wr V.CART_HELD [c] (b2n (busy || !(st == 6 || st == 7)))
    if busy then s.cartRefuse c else if st == 2 || st == 3 then s.cartWithdraw c 4 3 else s

/-- CART_BUTTON_HOLD. -/
def State.cartButtonHold (s : State) (c : Nat) : State := ((s.wr F.TRY_CART_BTN [c] 1).wr V.CART_HELD [c] 1).cartForceIn c 4

/-- TRAY_BUTTON. -/
def State.trayButton (s : State) : State := s.hwWr F.TRY_CART_CFG_LOCATE [] (1 - s.rd F.TRY_CART_CFG_LOCATE [])

/-- TRAY_BUTTON_HOLD: a button press, so REASON 3; R454 does not apply. -/
def State.trayButtonHold (s : State) : State :=
  (List.range 8).foldl (fun t c =>
    if t.cartActs c && (t.cart c == 2 || t.cart c == 3) then t.cartWithdraw c 4 3 else t) s

/-! ## TRY_CART_CMD -/

/-- CART_DRAIN: OP 1. -/
def State.cartDrain (s : State) (c : Nat) : State :=
  if !s.cartActs c then s
  else if s.cartOtherBusy c then s.cartRefuse c
  else
    let s := s.wr V.CART_LATCH [c] 0
    if s.cart c == 2 || s.cart c == 3 then s.cartWithdraw c 4 6 else s

/-- CART_FORCE: OP 2. -/
def State.cartForce (s : State) (c : Nat) : State :=
  if s.cartActs c then (s.wr V.CART_LATCH [c] 0).cartForceIn c 4 else s

/-- CART_REJOIN: OP 3. -/
def State.cartRejoin (s : State) (c : Nat) : State := if s.cartActs c then s.cartEnable c 2 else s

/-! ## The drain (R452, R453) -/

/-- A cartridge's drain is complete: the queues and pools of its ports are empty, and no header has been admitted from them for 10 µs. -/
def State.cartDrained (s : State) (c : Nat) : Bool :=
  let n := s.rd V.HDR_NS [c % 4]
  ((List.range 40).all fun k => s.portDrained (c % 4) k) && (n == 0 || decide (n + 10000 ≤ s.timeNs + 1))

/-- CART_DRAIN_COMPLETE. -/
def State.cartDrainComplete (s : State) (c : Nat) : State :=
  if s.cartActs c && s.cart c == 4 && s.cartDrained c then s.cartStop c else s

/-- CART_DRAIN_TIMEOUT: completion wins (R461). -/
def State.cartDrainTimeout (s : State) (c : Nat) : State :=
  if s.cart c == 4 then (if s.cartActs c && s.cartDrained c then s.cartStop c else s.cartForceIn c 4) else s

/-- CART_FORCE_STOP. -/
def State.cartForceStop (s : State) (c : Nat) : State :=
  if s.cartActs c && s.cart c == 5 then s.cartStop c else s

/-- CART_SAFE: a latched enable is applied as SAFE is reached. -/
def State.cartSafe (s : State) (c : Nat) : State :=
  if s.cartActs c && s.cart c == 6
      && ((List.range 40).all fun k => s.lnkState (c % 4) k == 0 && !s.rdb F.COR_PORT_FLUSHING [c % 4, k]) then
    let latched := s.rdb V.CART_LATCH [c]
    let s := (s.setCart c 7).wr V.CART_LATCH [c] 0
    if latched then s.cartEnable c 1 else s
  else s

/-- CART_IN_SERVICE. -/
def State.cartInService (s : State) (c : Nat) : State :=
  if s.cartActs c && s.cart c == 1
      && ((List.range 40).all fun k => !s.portPresent (c % 4) k || s.lnkState (c % 4) k == 4
            || (s.lnkState (c % 4) k == 0 && s.rd F.LNK_PORT_STAT_DOWN_CAUSE [c % 4, k] == 4)) then
    s.setCart c 2
  else s

/-! ## The last gasp (R458, R459) -/

/-- The items of the last-gasp datagram. -/
def State.gaspItems (s : State) : List Byte :=
  let carts := (List.range 4).foldl (fun n q =>
    if s.rdb F.TRY_CART_PRESENT [4 * s.rd F.TRY_OWN_SLOT [] + q] then setBit n q else n) 0
  leBytes 1 1 ++ leBytes 1 s.myPlane ++ leBytes 1 (s.myX + 8 * s.myY) ++ leBytes 1 carts ++ List.replicate 12 0
    ++ (List.range 31).flatMap fun i =>
        let p := i + 1
        leBytes 1 (if s.img.brimValid p then p else 0)
          ++ leBytes 1 (s.rd F.UPD_PART_STEP_STATE [p] + 8 * s.rd F.UPD_PART_STEP_OUTCOME [p]) ++ leBytes 2 0
          ++ leBytes 4 (s.rd F.UPD_PART_STEP_STEP_TAG [p]) ++ leBytes 4 (s.rd F.UPD_PART_T_T [p])
          ++ leBytes 4 (s.rd F.SEQ_STEP_ARMED [p])

/-- VIN_LOW: no engine starts a unit, THR is THR_MAX, PLANE_LOST goes to every present downlink, and the last-gasp
datagram to both managers. -/
def State.vinLow (s : State) : State :=
  if s.rdb V.GASP [] || 3 ≤ s.rd F.HAT_PSTATE_STATE [] then s
  else
    let s := (s.wr V.GASP [] 1).wr F.TRY_CAP_THR [] (s.sense 437 1)
    let s := s.notice 4 0 0 s.presentDown
    let s := if s.yofRuns then s.sendGram 4 s.gaspItems else s
    s.hatRecord { det := 0x13, sev := 3 }

end Sys2Proof.Machine
end

