-- ==== Sys2Proof/Machine/Power.lean ====
section
/-! DEFINITION. Power states, engine gating, clocks, resets, start-up and the load test (R463 to R488 of
spec/16_power_clocks_reset.md, R514, R584). -/

namespace Sys2Proof.Machine

/-! ## What runs -/

def State.pstate (s : State) : Nat := s.rd F.HAT_PSTATE_STATE []

/-- VAUX_3V3 is present: the Hatband runs. -/
def State.hatOn (s : State) : Bool := !s.rdb V.OFF []

/-- The core clock runs. -/
def State.clocked (s : State) : Bool := decide (s.pstate < 2)

/-- Engines and the Mover may start units: the core clock runs and no last gasp does (R458). -/
def State.unitsOk (s : State) : Bool := s.clocked && !s.rdb V.GASP []

/-- Engine kind e of quadrant q is awake and may start units (R472): 0 reduction, 1 update, 2 Gram, 3 Mover channels
1 to 3, 4 parking. -/
def State.engineOn (s : State) (q e : Nat) : Bool := s.unitsOk && s.quadUp q && !bitOf (s.rd F.HAT_GATE_GATED [q]) e

/-- Every external port of the module. -/
def allPorts : List (Nat × Nat) := (List.range 160).map fun i => (i / 40, i % 40)

/-- The detector of a record whose rule names none: a free value (log entry 46). -/
def State.openDet (s : State) : Nat := Config.free s.free 0 % 64

/-! ## The end of a debug grant (R510, R514) -/

/-- Injections need level D1 (R560). -/
def State.injLevel (s : State) : State := if s.rd F.DBG_LEVEL_LEVEL [] = 0 then s.hwWr F.ERR_INJ_CTL_EN [] 0 else s

/-- The level goes to lv and the grant, if any, is recorded as ended. -/
def State.levelDrop (s : State) (lv : Nat) : State :=
  let old := s.rd F.DBG_LEVEL_LEVEL []
  if old = 0 then s
  else
    let s := s.err { det := 0x19, sev := 0, part := s.rd F.DBG_LEVEL_PART [], cause := old }
    let s := (((s.wr F.DBG_LEVEL_LEVEL [] lv).wr F.DBG_LEVEL_PART [] 0).wr F.DBG_LEVEL_WRITE [] 0).wr F.DBG_LEVEL_IFACE [] 0
    let s := if s.rdb F.ERR_INJ_STAT_ARMED [] then (s.wr V.INJ_KIND [] 0).wr F.ERR_INJ_STAT_ARMED [] 0 else s
    ((s.wr F.DBG_LEVEL_REMAIN_S [] 0).wr V.GRANT_END [] 0).injLevel

/-! ## Stopping (R467, R468, R485, R486) -/

/-- The Yofen stops: its loops and its role go with it. -/
def State.yofStop (s : State) : State :=
  let s := s.eraseRegs fun f _ => f == V.INTEG.id || f == V.DUTY.id || f == V.INTEG_LOADED.id || f == V.CONTEST_HOLD.id
  (((s.wr V.YOF_ON [] 0).wr F.TRY_OWN_ROLE [] 0).wr F.TRY_OWN_QUALIFIED [] 0).wr F.TRY_OWN_CONTEST [] 0

/-- Every rail is down: P3.  The Hatband and boot flash keep what they hold; ports are DOWN, cause power (R353). -/
def State.enterP3 (s : State) (cause : Nat) : State :=
  let s := s.resetKeeping p3Fields true
  let s := ((s.wr F.HAT_PSTATE_STATE [] 3).wr F.HAT_PSTATE_CAUSE [] cause).wr V.BOOTING [] 0
  allPorts.foldl (fun t x => t.wr F.LNK_PORT_STAT_DOWN_CAUSE [x.1, x.2] 6) s

/-- The start-up sequence starts from step 4. -/
def State.startUp (s : State) (openTo : Nat) (wake : Bool) : State :=
  let s := ((s.wr V.BOOTING [] 1).wr F.HAT_BOOT_STEP [] 4).wr V.OPEN_TO [] openTo
  (((((s.wr F.HAT_BOOT_FAILED [] 0).wr F.HAT_BOOT_FAIL_STEP [] 0).wr V.BOOT_NS [] s.timeNs).wr V.WAKE_BOOT [] (b2n wake)).wr
    V.VIN_P3 [] 0).wr V.REPAIR [] 0

/-- Return from P2: ports wake, RESTORE with REASON 6 goes out where a port is open, and the deferral is lifted. -/
def State.leaveP2 (s : State) (goal : Nat) : State :=
  let s := s.wr F.HAT_PSTATE_STATE [] goal
  let s := (List.range 4).foldl (fun t q => t.wr F.HAT_GATE_GATED [q] 0) s
  let s := if s.rdb V.YOF_ON [] then s else s.yofenStart
  let s := allPorts.foldl (fun t x =>
    if t.rdb V.LNK_P2 [x.1, x.2] then (t.wakeUp x.1 x.2).wr V.LNK_P2 [x.1, x.2] 0 else t) s
  (if s.rdb V.WAKE_CLOSED [] then s else s.restore s.presentDown 6).wr V.P2_DEFER [] 0

/-- ENTERING_P2 or ENTERING_P3 begins: steps 1 and 2 of R468.  From P2 the way to P3 has no wait. -/
def State.stopBegin (s : State) (goal cause : Nat) : State :=
  if s.pstate = 2 then s.enterP3 cause
  else
    let s := (((s.wr F.HAT_PSTATE_BUSY [] 1).wr V.PTARGET [] goal).wr V.PCAUSE [] cause).wr F.HAT_PSTATE_PENDING [] 0
    (s.withdraw s.presentDown 6).wr V.P2_DEFER [] 1

/-- Step 4 of R468 for one partition. -/
def State.stopAbort (s : State) (p : Nat) : State :=
  let s := (s.insts.filter fun kv => kv.1.getD 0 99 == p).foldl (fun t kv =>
    let coll := kv.1.getD 1 0
    match t.img.collValid p coll with
    | some e => match t.instGet p coll e kv.2.step with
      | some i => if i.st = .complete || i.st = .aborted || i.st = .unused then t else t.instAbort p coll e i 2
      | none => t
    | none => t) s
  match s.updState p with
  | 1 => s.stepEnd p 3
  | 2 => s.stepEnd p 3
  | 3 => s.stepFail p
  | 4 => s.stepFail p
  | _ => s

/-- The end of ENTERING_P2 or ENTERING_P3: steps 5 and 6 of R468, and a latched enable (R486). -/
def State.stopReached (s : State) : State :=
  let s := (List.range 32).foldl (fun t p => (t.sweepPart p).sweepEnd p) s
  let s := { s with slab := [], pagerOp := [] }
  let goal := s.rd V.PTARGET []
  let cause := s.rd V.PCAUSE []
  let pend := s.rdb F.HAT_PSTATE_PENDING []
  let want := s.rd V.PEND_TO []
  let s := (s.wr F.HAT_PSTATE_BUSY [] 0).wr F.HAT_PSTATE_PENDING [] 0
  if goal = 3 then
    let s := s.enterP3 cause
    if pend then s.startUp (want + 1) false else s
  else
    let s := allPorts.foldl (fun t x =>
      if t.lnkState x.1 x.2 = 4 then ((t.cutIngress x.1 x.2).setLnk x.1 x.2 5).wr V.LNK_P2 [x.1, x.2] 1 else t) s
    let s := (List.range 4).foldl (fun t q => t.wr F.HAT_GATE_GATED [q] 31) s
    let s := ((s.wr F.HAT_PSTATE_STATE [] 2).wr F.HAT_PSTATE_CAUSE [] cause).yofStop
    if pend then s.leaveP2 want else s

/-- P2_QUIET_END: every tenant is at its quiet point, or the wait has expired. -/
def State.p2QuietEnd (s : State) (expired : Bool) : State :=
  if !s.rdb F.HAT_PSTATE_BUSY [] || !s.clocked then s
  else if (List.range 32).all fun p => p == 0 || !s.img.brimValid p || s.quietPoint p then s.stopReached
  else if expired then ((List.range 32).foldl (fun t p => t.stopAbort p) s).stopReached
  else s

/-- A request for P0 (0), P1 (1), P2 (2) or P3 (3) (R467). -/
def State.powerRequest (s : State) (goal : Nat) : State :=
  let st := s.pstate
  let refused := s.raise F.HAT_PSTATE_REFUSED []
  if s.rdb V.MRESET [] then s
  else if s.rdb F.HAT_PSTATE_BUSY [] then
    if goal < 2 then
      if s.rd F.TRY_STAGE_PUMP [] = 3 then refused else (s.wr F.HAT_PSTATE_PENDING [] 1).wr V.PEND_TO [] goal
    else (if goal = 3 then s.wr V.PTARGET [] 3 else s).wr F.HAT_PSTATE_PENDING [] 0
  else if st = 3 then
    if goal = 3 then s
    else if goal = 2 || s.rdb V.THERM [] then refused
    else if s.rdb V.BOOTING [] then s.wr V.OPEN_TO [] (goal + 1)
    else s.startUp (goal + 1) false
  else if st = goal then s
  else if goal < 2 then
    if s.rd F.TRY_STAGE_PUMP [] = 3 then refused
    else if st = 2 then (s.leaveP2 goal).wr F.HAT_PSTATE_CAUSE [] 1
    else
      let s := (s.wr F.HAT_PSTATE_STATE [] goal).wr F.HAT_PSTATE_CAUSE [] 1
      if goal = 0 then (List.range 4).foldl (fun t q => t.wr F.HAT_GATE_GATED [q] 0) s else s
  else s.stopBegin goal 1

/-- PUMP_STAGE_3 (R442): downlinks withdrawn with REASON 6, and P2; a stop clears a latched enable. -/
def State.pumpStage3 (s : State) : State :=
  if s.yofRuns && s.rd F.TRY_STAGE_PUMP [] < 3 && s.tjAtLeast (s.sense 425 1) then
    let s := s.pumpRecord 3
    if s.rdb F.HAT_PSTATE_BUSY [] then s.wr F.HAT_PSTATE_PENDING [] 0
    else if s.clocked then s.stopBegin 2 2
    else s
  else s

/-- The Yofen starts on demand in P2 (R469). -/
def State.yofDemand (s : State) : State := if s.pstate = 2 && !s.rdb V.YOF_ON [] then s.yofenStart else s

/-- YOFEN_IDLE_STOP. -/
def State.yofenIdleStop (s : State) : State := if s.pstate = 2 && s.rdb V.YOF_ON [] then s.yofStop else s

/-- The end of a grant (R510, R514, R512): a module that the grant woke goes back to where it was woken from. -/
def State.grantEnd (s : State) (lv : Nat) : State :=
  let woke := s.rdb F.DBG_LEVEL_WAKE []
  let s := (s.levelDrop lv).wr F.DBG_LEVEL_WAKE [] 0
  if woke then
    let s := s.wr V.WAKE_CLOSED [] 0
    if s.clocked then s.stopBegin (s.rd V.WOKE_FROM []) 1
    else if s.rdb V.BOOTING [] then s.enterP3 1
    else s
  else s

/-! ## Engines asleep (R472 to R474) -/

/-- Some partition holds engine kind e of a quadrant warm. -/
def State.warmHeld (s : State) (q e : Nat) : Bool := (List.range 32).any fun p => s.rdb V.WARM_NS [q, e, p]

def State.warmShow (s : State) (q e : Nat) : State :=
  let w := s.rd F.HAT_GATE_WARM [q]
  s.wr F.HAT_GATE_WARM [q] (putBits w e 1 (b2n (s.warmHeld q e)))

/-- ENGINE_GATE. -/
def State.engineGate (s : State) (q e : Nat) : State :=
  if s.pstate = 1 && s.img.le 0x0A 4 0 (8 + 2 * e) 2 ≠ 0 && !s.warmHeld q e then
    s.wr F.HAT_GATE_GATED [q] (putBits (s.rd F.HAT_GATE_GATED [q]) e 1 1)
  else s

/-- ENGINE_WAKE. -/
def State.engineWake (s : State) (q e : Nat) : State :=
  if s.clocked && bitOf (s.rd F.HAT_GATE_GATED [q]) e then
    (s.wr F.HAT_GATE_GATED [q] (putBits (s.rd F.HAT_GATE_GATED [q]) e 1 0)).bump F.HAT_GATE_WAKES [q] 1
  else s

/-- A hold of one engine kind: replaced when the new one ends later. -/
def State.warmOne (s : State) (p q e holdUs : Nat) : State :=
  let t := 1 + s.timeNs + 1000 * holdUs
  ((s.engineWake q e).wr V.WARM_NS [q, e, p] (max t (s.rd V.WARM_NS [q, e, p]))).warmShow q e

/-- WARM: opcode 0x07 of the sequencer ring of quadrant q. -/
def State.warm (s : State) (q p entry : Nat) : State :=
  if !s.ringCmd q p 0 7 entry then s
  else
    let engines := bitsOf entry 64 5
    let quads := bitsOf entry 72 4
    let hold := bitsOf entry 96 32
    let rsvd := bitsOf entry 69 3 + bitsOf entry 76 4 + bitsOf entry 80 16
    if rsvd ≠ 0 || hold = 0 || 10000000 < hold then s.ringStop q p 0 5 (ceTag entry)
    else
      let s := s.cmdStart q p 0 entry
      let s := (List.range 20).foldl (fun t i =>
        if bitOf engines (i % 5) && bitOf quads (i / 5) then t.warmOne p (i / 5) (i % 5) hold else t) s
      s.cmdDone q p 0 entry 0

/-- WARM_HOLD_END: partition p's hold of an engine kind ends. -/
def State.warmHoldEnd (s : State) (q e p : Nat) : State := (s.wr V.WARM_NS [q, e, p] 0).warmShow q e

/-! ## Clocks (R475, R477) -/

/-- REFCLK_LOST. -/
def State.refclkLost (s : State) : State :=
  if !s.rdb F.HAT_CLK_REF_OK [] then s
  else
    let s := (s.wr F.HAT_CLK_REF_OK [] 0).raise F.HAT_CLK_TIME_FREE []
    let s := allPorts.foldl (fun t x => t.linkRetrain x.1 x.2 0 false) s
    s.err { det := 0x15, sev := 2 }

/-- REFCLK_RETURN. -/
def State.refclkReturn (s : State) : State :=
  if s.rdb F.HAT_CLK_REF_OK [] then s
  else allPorts.foldl (fun t x => t.linkRetrain x.1 x.2 0 false) (s.wr F.HAT_CLK_REF_OK [] 1)

/-- REFCLK_LOSS_TIMEOUT: P3 by way of ENTERING_P3. -/
def State.refclkTimeout (s : State) : State :=
  if s.rdb F.HAT_CLK_REF_OK [] || s.pstate = 3 then s
  else if s.rdb F.HAT_PSTATE_BUSY [] then ((s.wr V.PTARGET [] 3).wr V.PCAUSE [] 4).wr F.HAT_PSTATE_PENDING [] 0
  else s.stopBegin 3 4

/-- OSC_CALIBRATE. -/
def State.oscCalibrate (s : State) : State := if s.rdb F.HAT_CLK_REF_OK [] then s.wr F.HAT_CLK_OSC_CAL [] 1 else s

/-- IEEE_1588_TIME: the time counter takes the time received, in ns. -/
def State.ieee1588 (s : State) (ns : Nat) : State := if s.yofRuns then s.wr V.TIME_PS [] (ns * 1000) else s

/-! ## Supplies and trips (R464, R465, R471, R584) -/

/-- THERMAL_TRIP: no notice is sent. -/
def State.thermalTrip (s : State) : State :=
  if s.pstate = 3 then s
  else
    let s := s.hatRecord { det := 0x14, sev := 3 }
    ((s.bump F.HAT_CLK_TRIPS [] 1).wr V.THERM [] 1).enterP3 3

/-- RAIL_TIMEOUT: a rail is not in regulation 5 ms after its start, which is in step 4; the sequence stops, and the module is in P3. -/
def State.railTimeout (s : State) : State :=
  if s.rdb V.BOOTING [] && s.rd F.HAT_BOOT_STEP [] == 4 then
    (((s.hatRecord { det := 0x13, sev := 2 }).enterP3 5).wr F.HAT_BOOT_FAILED [] 1).wr F.HAT_BOOT_FAIL_STEP [] 4
  else s

/-- VIN_HOLDUP_END: no CAUSE code names a VIN collapse, so CAUSE is a free value (log entry 47). -/
def State.vinHoldupEnd (s : State) : State :=
  if s.rdb V.GASP [] then
    let s := (s.freshen.enterP3 (Config.free s.free 0 % 8)).wr V.GASP [] 0
    s.wr V.VIN_P3 [] 1
  else s

/-- VIN_GOOD: only a P3 entered on VIN collapse is left without a request. -/
def State.vinGood (s : State) : State :=
  if s.rdb V.VIN_P3 [] && s.pstate = 3 && !s.rdb V.THERM [] then s.startUp 0 false else s

/-- VAUX_LOW: the module is Off. -/
def State.vauxLow (s : State) : State :=
  ((s.resetKeeping flashFields false).wr V.OFF [] 1).wr V.BOOTING [] 0

/-! ## Resets (R478, R479) -/

/-- COLD_RESET: the strap TRAY_SLOT is sampled, a free value (R588, R593; log entry 3). -/
def State.coldReset (s : State) : State :=
  ((s.freshen.resetKeeping flashFields false).wr F.HAT_RESET_LAST [] 1).wr F.TRY_OWN_SLOT [] (Config.free s.free 0 % 2)

/-- MODULE_RESET; cool: every on-die sensor reads below 100 °C, which releases THERM_TRIP_N (R471).  A last gasp absorbs it (R593). -/
def State.moduleReset (s : State) (cool : Bool) : State :=
  if s.rdb V.MRESET [] || s.rdb V.GASP [] then s
  else
    let s := s.levelDrop 0
    let s := s.resetKeeping hatFields true
    let s := if cool then s.wr V.THERM [] 0 else s
    let s := ((s.wr V.MRESET [] 1).wr F.HAT_RESET_LAST [] 2).wr F.HAT_PSTATE_STATE [] 3
    (s.wr F.HAT_BOOT_STEP [] 4).wr V.BOOTING [] 0

/-- MODULE_RESET_RELEASE: start-up from step 4, unless a thermal trip still holds the module in P3. -/
def State.moduleRelease (s : State) : State :=
  if !s.rdb V.MRESET [] then s
  else
    let s := s.wr V.MRESET [] 0
    if s.rdb V.THERM [] then s else s.startUp 0 false

/-- The partition's own state beside its directories, engines and rings. -/
def State.partClear (s : State) (p : Nat) : State :=
  let s := { s with
    insts := SMap.eraseIf (fun k _ => k.getD 0 99 == p) s.insts
    trigOps := SMap.erase [p] s.trigOps
    handoffs := SMap.erase [p] s.handoffs }
  let first := [V.TRIG_CTR.id, V.TRIG_WORD.id, V.TRIG_CTX.id, F.SEQ_STEP_REPLAY.id, V.REPLAY_STEP.id, V.REPLAY_QUAD.id,
    V.REPLAY_ENTRY.id, V.INST_SEQ.id, V.INST_FIRST.id, V.STEPFLG_OVF.id, V.STEPFLG_INV.id, V.STEPFLG_REC.id, V.PUB_OVER.id]
  let second := [F.GRM_PART_STATE.id, F.GRM_PART_OPCODE.id, F.GRM_PART_TAG.id, F.GRM_PROG_DONE.id, F.GRM_PROG_TOTAL.id,
    V.GRM_ENTRY.id, V.GRM_ABORT.id, V.GRM_STEP.id, V.GRM_NF.id, V.GRM_TAINT.id, F.SEQ_RING_CTL_EN.id, F.SEQ_RING_CTL_ERR.id,
    F.SEQ_RING_CTL_DBERR.id, F.SEQ_RING_PROD_PROD.id, F.SEQ_RING_CONS_CONS.id, V.HEAD_CYC.id, V.MOV_WAITC.id]
  let third := [V.PS_REC.id, V.PS_BEG.id, V.PS_WAIT.id]
  s.eraseRegs fun f ix => (first.contains f && ix.getD 0 99 == p) || (second.contains f && ix.getD 1 99 == p)
    || (third.contains f && ix.getD 2 99 == p)
    || (f == V.WARM_NS.id && ix.getD 2 99 == p)

/-- The reset of partition p is in progress: its sweep runs. -/
def State.partResetting (s : State) (p : Nat) : Bool :=
  (List.range 4).any fun q => s.rdb F.SLT_SWEEP_ACTIVE [q] && s.rd F.SLT_SWEEP_PART [q] == p

/-- PARTITION_RESET of a tenant: absorbed by a module reset, ignored while the partition's own is in progress (R479). -/
def State.partitionReset (s : State) (p : Nat) : State :=
  if p = 0 || s.rdb V.MRESET [] || ((List.range 4).any fun q => s.rdb V.QRESET [q])
      || s.partResetting p then s
  else
    let s := (s.wr F.HAT_RESET_LAST [] 4).wr V.PRST_PS [p] (1 + s.rd V.TIME_PS [])
    let s := (s.knitPartReset p).sweepPart p
    let s := (s.updClear p).wr F.UPD_PART_STEP_STATE [p] 0
    let s := (((s.partClear p).mitEmpty fun c => s.img.mitOwner c == some p).movReset p).parkReset p
    let s := (List.range 20).foldl (fun t i => t.warmShow (i / 5) (i % 5)) s
    if s.rd F.DBG_LEVEL_LEVEL [] = 2 && s.rd F.DBG_LEVEL_PART [] = p then s.grantEnd 1 else s

/-! ## Start-up (R480, R481, R494 to R501) -/

/-- A signed firmware image of a KIND in boot flash (R495): its header, hash, signature and security version. -/
def State.imageOk (s : State) (at0 kind maxLen : Nat) : Bool :=
  let h := s.flashBytes at0 128
  let n := leAt h 12 4
  leAt h 0 4 == 0x57465653 && leAt h 4 1 == kind && decide (n + 128 ≤ maxLen)
    && Config.sha256 (s.flashBytes (at0 + 128) n) == bytesAt h 16 32 && sigOver s.rootKey h 64
    && decide (s.flashCtr 0 ≤ leAt h 8 4)

/-- The first-stage and Yofen images. -/
def State.firstOk (s : State) : Bool := s.imageOk 0x10000 1 0x20000
def State.yofenOk (s : State) : Bool := s.imageOk 0x40000 2 0x7C0000

/-- A life-cycle object of a slot that holds: its form, DEVICE and signature.  The transition to RETURNED erases the owner
certificate, so its object, once it is the current one, was checked at the transition (log entry 67). -/
def State.lcValid (s : State) (i : Nat) : Bool :=
  let bs := s.flashBytes (lcSlotAddr i) 128
  let o := lcObjOf bs
  o.wellFormed && o.device == deviceId
    && (sigOver (if o.issuer = 0 then s.rootKey else s.ownerKey) bs 64
      || (o.issuer == 1 && o.state == 3 && o.count == s.flashCtr 3 && !s.ownHeld))

/-- The rest of an interrupted transition from one state to another (R499, R500): the HBM and the keys on the die were
lost with the power. -/
def State.lcFinish (s : State) (from0 goal : Nat) : State :=
  if from0 = 0 then s.flashPut 0x2000 ((Config.device 2).take 8192)
  else if goal = 3 then (s.flashPut 0x4000 (List.replicate 4096 0)).wr F.SEC_LC_ZEROIZED [] 1
  else if from0 = 3 then s.eraseRegs fun f _ => f == V.RET_CH.id || f == V.RET_STACK.id
  else s

/-- The life cycle resolved at step 2 (R499): none where step 2 fails. -/
def State.lcResolve (s : State) : Option State :=
  if s.flashCtr 3 = 0 && s.lcErased 0 && s.lcErased 1 then some (s.wr F.SEC_LC_STATE [] 0)
  else
    let obj := fun i : Nat => lcObjOf (s.flashBytes (lcSlotAddr i) 128)
    let ok := (List.range 2).filter fun i => s.lcValid i
    let best := match ok with
      | [a, b] => some (if (obj a).count < (obj b).count then b else a)
      | [a] => some a
      | _ => none
    match best with
    | none => none
    | some i =>
      let o := obj i
      let held := fun t : State => (t.wr F.SEC_LC_STATE [] o.state).wr V.LC_SLOT [] i
      if o.count = s.flashCtr 3 then some (held s)
      else if o.count = s.flashCtr 3 + 1 then
        let from0 := if s.lcValid (1 - i) then (obj (1 - i)).state else 0
        (s.ctrRaise 3 o.count).map fun t => (held t).lcFinish from0 o.state
      else none

/-- Step 2: the device keys (R490), the root key, the flash key and the counters (R494) and the life cycle. -/
def State.bootRom (s : State) : Option State :=
  if !s.seedOk || !s.rootKeyOk then none
  else
    let blank := s.flashCtr 3 == 0 && s.lcErased 0 && s.lcErased 1
    if !s.rdb V.FLASH_KEYED [] && !blank then none
    else
      let s := if s.rdb V.FLASH_KEYED [] then s else (s.flashCmd 0xA0 flashKey).1
      if (List.range 5).all s.ctrReadOk then s.freshen.showCounters.lcResolve else none

/-- The owner certificate of flash is the one enrolled (R501): its form, DEVICE, generation and, for ISSUER 0, its
signature.  A signature by an earlier owner key was checked at enrolment. -/
def State.ownCertOk (s : State) : Bool :=
  let bs := s.ownCert
  ownForm bs && bytesAt bs 8 32 == deviceId && leAt bs 104 4 == s.flashCtr 2
    && (leAt bs 108 1 == 1 || sigOver s.rootKey bs (ownLen bs))

/-- Step 3: first stage, boot epoch, Yofen image, and the owner certificate where the life cycle requires one. -/
def State.bootVerify (s : State) : Option State :=
  if !s.firstOk then none
  else
    let next := if s.flashCtr 4 + 1 < 2 ^ 32 then s.ctrRaise 4 (s.flashCtr 4 + 1) else some s
    next.bind fun s => if !s.yofenOk || (s.rd F.SEC_LC_STATE [] = 2 && !s.ownCertOk) then none else some s

/-- A failure in steps 2 to 7: the sequence stops in P3. -/
def State.bootFail (s : State) : State :=
  let step := s.rd F.HAT_BOOT_STEP []
  let cause := s.rd F.HAT_PSTATE_CAUSE []
  let s := (s.hatRecord { det := s.openDet, sev := 2, cause := step }).freshen.enterP3 cause
  (s.wr F.HAT_BOOT_FAILED [] 1).wr F.HAT_BOOT_FAIL_STEP [] step

/-- Step 6: the stacks that trained are up; a stack that failed is retired. -/
def State.hbmUp (s : State) (failed : List Nat) : State :=
  (List.range 24).foldl (fun t k =>
    let q := k / 6
    let l := k % 6
    if t.rdb V.RET_STACK [k] then (t.wr F.HBM_STACK_STATE [q, l] 3).wr F.HBM_STACK_MAP_MIB [q, l] 0
    else
      let ch := t.rd V.RET_CH [k]
      let t := ((t.wr F.HBM_STACK_STATE [q, l] 2).wr F.HBM_STACK_CH_RETIRED [q, l] ch).wr F.HBM_STACK_MAP_MIB [q, l]
        (if ch = 0 then 22888 else 21457)
      if failed.contains k then t.hbmRetire q l 0 true else t) s

/-- The bytes of the knit at an offset of boot flash; none where none begins there (R491). -/
def State.flashKnit (s : State) (o : Nat) : Option (List Byte) :=
  if leAt (s.flashBytes o 4) 0 4 = 0x32544E4B then
    let h := knitHdrOf (s.flashBytes o 64)
    some (s.flashBytes o (h.manifest + 112 + 32 * h.frames))
  else none

/-- The offset after a knit: the next 4 KiB boundary. -/
def knitAfter (o n : Nat) : Nat := o + ceilDiv n 4096 * 4096

/-- Step 8: the base knit of boot flash; a failure leaves none in force (R42). -/
def State.bootBase (s : State) : State × Bool :=
  match s.flashKnit 0x800000 with
  | some bs =>
    let (t, ok) := s.knitBoot bs
    if ok then (t, true) else (t.wr V.BASE_SERIAL [] 0, false)
  | none => (s, false)

/-- The partition knits that follow it, in order (fuel: the 4 KiB pages of the area).  The partition of one whose groups fail stays empty (R42). -/
def State.bootParts (s : State) : Nat → Nat → State
  | 0, _ => s
  | n + 1, o =>
    match s.flashKnit o with
    | some bs =>
      let (t, ok) := s.knitBoot bs
      let t := if !ok && t.rdb F.KNT_STATUS_FAIL_GROUP [33] then t.dropConfig [] (knitHdrOf bs).part else t
      t.bootParts n (knitAfter o bs.length)
    | none => s

/-- Every extent of a tenant holds zeros (R382). -/
def State.zeroTenants (s : State) : State :=
  (List.range 256).foldl (fun t i =>
    let x := t.extentOf (i / 64) (i % 64)
    if x.valid && !x.spare && x.part != 0 then t.zeroExtent x else t) s

/-- Step 9. -/
def State.bootTenants (s : State) : State :=
  let s := s.zeroTenants
  match s.flashKnit 0x800000 with
  | some bs => s.bootParts 14336 (knitAfter 0x800000 bs.length)
  | none => s

/-- The module opens: present ports may leave DOWN, and seated cartridges with a closed latch train.  After the load test of a repair the contexts join again
(R301). -/
def State.openModule (s : State) : State :=
  let goal := match s.rd V.OPEN_TO [] with
    | 1 => 0
    | 2 => 1
    | _ => s.img.le 0x0A 4 0 6 1 % 2
  let s := ((s.wr F.HAT_BOOT_STEP [] 11).wr F.HAT_PSTATE_STATE [] goal).wr V.BOOTING [] 0
  let s := s.wr F.HAT_BOOT_ELAPSED_MS [] ((s.timeNs - s.rd V.BOOT_NS []) / 10 ^ 6)
  let s := if s.rdb V.REPAIR [] then s.mitJoin.wr V.REPAIR [] 0 else s
  let s := (List.range 8).foldl (fun t c =>
    if t.ownCart c && t.rdb F.TRY_CART_PRESENT [c] && !t.rdb F.TRY_CART_CUFF [c] && t.cart c == 0 then t.cartTrain c else t) s
  (List.range 4).foldl (fun t q => t.portsDetect q) s

/-- The load test starts (R482). -/
def State.loadTestStart (s : State) : State :=
  (((s.wr F.HAT_LOADTEST_ACTIVE [] 1).wr F.HAT_LOADTEST_FAILED [] 0).wr F.HAT_LOADTEST_PHASE [] 0).wr V.LT_BAD [] 0

/-- The PCIe link trains (R516): its rate and width are what the host gives it, free values here. -/
def State.pcieUp (s : State) : State :=
  if s.rdb V.PERST [] || s.rdb F.PCI_LINK_SPEED [] then s
  else
    let a := Config.free s.free 0
    let b := Config.free s.free 1
    let s := (s.freshen.wr F.PCI_LINK_SPEED [] (5 + a % 2)).wr F.PCI_LINK_FLIT [] (a % 2)
    s.wr F.PCI_LINK_WIDTH [] ([1, 4, 8, 16].getD (b % 4) 16)

/-- STARTUP_STEP_COMPLETE: the step in progress ends.  ok: what the step does outside the model went well; failed: at
step 6 the stacks that failed training. -/
def State.startupStep (s : State) (ok : Bool) (failed : List Nat) : State :=
  let next := fun t : State => t.wr F.HAT_BOOT_STEP [] (t.rd F.HAT_BOOT_STEP [] + 1)
  if !s.rdb V.BOOTING [] || s.rdb V.MRESET [] then s
  else match s.rd F.HAT_BOOT_STEP [] with
    | 1 => next (s.wr V.REPAIR [] 1)
    | 2 => match (if ok then s.bootRom else none) with
      | some t => next t
      | none => s.bootFail
    | 3 => match (if ok then s.bootVerify else none) with
      | some t => next t
      | none => s.bootFail
    | 4 => if ok then next (((s.wr F.HAT_PSTATE_STATE [] 0).wr F.HAT_CLK_REF_OK [] 1).mitJoin) else s.bootFail
    | 5 => if ok then next s.yofenStart.pcieUp else s.bootFail
    | 6 => if ok then next (s.hbmUp failed) else s.bootFail
    | 7 => if ok then next s else s.bootFail
    | 8 =>
      if s.rdb V.BASE_APPLIED [] then next s
      else
        let (t, done) := s.bootBase
        if done then next t else t
    | 9 =>
      let t := s.bootTenants
      if t.rdb V.WAKE_BOOT [] then
        ((t.wr V.BOOTING [] 0).wr F.HAT_PSTATE_STATE [] 1).wr V.WAKE_CLOSED [] 1
      else (next t).loadTestStart
    | _ => s

/-! ## The load test (R482, R483) -/

/-- LOADTEST_RUN: only while every external port is closed.  DESIGN CHOICE (log entry 80): a test that PF0 runs, and the one of a start-up from step 1, is one after
a repair; the spec does not say how the module tells. -/
def State.loadtestRun (s : State) : State :=
  if s.clocked && s.allClosed && !s.rdb F.HAT_LOADTEST_ACTIVE [] && 10 ≤ s.rd F.HAT_BOOT_STEP [] then
    ((s.wr F.HAT_BOOT_STEP [] 10).loadTestStart).wr V.REPAIR [] 1
  else s

/-- LOADTEST_PHASE_END: whether the phase's CRC equals the one precomputed. -/
def State.loadtestPhase (s : State) (crcOk : Bool) : State :=
  if !s.rdb F.HAT_LOADTEST_ACTIVE [] then s
  else
    let good := crcOk && !s.rdb V.LT_BAD [] && !exLt s.effCap.2 s.powerP && !s.tjAtLeast (s.sense 424 1)
    if !good then
      let s := (s.wr F.HAT_LOADTEST_ACTIVE [] 0).wr F.HAT_LOADTEST_FAILED [] 1
      (s.err { det := s.openDet, sev := 2, cause := s.rd F.HAT_LOADTEST_PHASE [] }).freshen
    else if s.rd F.HAT_LOADTEST_PHASE [] + 1 < s.img.le 0x0A 4 0 22 1 then s.bump F.HAT_LOADTEST_PHASE [] 1
    else (s.wr F.HAT_LOADTEST_ACTIVE [] 0).openModule

end Sys2Proof.Machine
end

