-- ==== Sys2Proof/Machine/Security.lean ====
section
/-! DEFINITION. Life-cycle transitions, owner enrolment, floors, attestation, debug grants and JTAG (R495 to R515 of
spec/17_security_and_debug.md). -/

namespace Sys2Proof.Machine

/-! ## SEC_CMD (R497, R500, R501) -/

/-- A SEC_CMD ends with a RESULT: 0 OK, 1 SIGNATURE, 2 DEVICE, 3 COUNT, 4 LIFECYCLE, 5 FLASH; vector 0 of PF0 when
SEC_STATUS leaves BUSY (R529). -/
def State.secDone (s : State) (result : Nat) : State :=
  let busy := s.rdb F.SEC_STATUS_BUSY []
  let quiet := s.rdb V.SEC_NOVEC []
  let s := ((s.wr F.SEC_STATUS_BUSY [] 0).wr F.SEC_STATUS_RESULT [] result).wr V.SEC_NOVEC [] 0
  if busy && !quiet then s.msix 0 0 else s

/-- Every tenant partition closed: reset, its configuration discarded and its Brim entry invalid (log entry 48). -/
def State.closeTenants (s : State) : State :=
  let s := ((List.range 31).foldl (fun t i => t.partitionReset (i + 1)) s).dropTenants
  (List.range 31).foldl (fun t i =>
    let o := 64 * (i + 1)
    let b := fun k : Nat => leBytes 1 (t.img.leBank k 0x0E 4 0 o 1 / 2 * 2)
    { t with img := (t.img.put 0 0x0E 4 0 o (b 0)).put 1 0x0E 4 0 o (b 1) }) s

/-- All HBM zeroized (R382): zeros with valid check bits. -/
def State.zeroizeHbm (s : State) : State := { s with hbm := [], badSectors := [] }

/-- The transitions of R500: the states and the ISSUER. -/
def lcStep (from0 goal issuer : Nat) : Bool :=
  (from0 == 0 && goal == 1 && issuer == 0) || (from0 == 1 && goal == 2 && issuer == 0) || (from0 == 2 && goal == 3 && issuer == 1)
    || (from0 == 3 && goal == 1 && issuer == 0)

/-- What a transition does beside the state itself. -/
def State.lcEffect (s : State) (from0 goal : Nat) : State :=
  if from0 = 0 then s.flashPut 0x2000 ((Config.device 2).take 8192)
  else if goal = 3 then
    let s := s.closeTenants.zeroizeHbm
    let s := (List.range 32).foldl (fun t p => t.keyErase p) s
    (s.flashPut 0x4000 (List.replicate 4096 0)).wr F.SEC_LC_ZEROIZED [] 1
  else if from0 = 3 then s.eraseRegs fun f _ => f == V.RET_CH.id || f == V.RET_STACK.id
  else s

/-- LIFECYCLE_OBJECT: SEC_CMD OP 1 with the object fetched.  The object goes to the slot that does not hold the current
one, counter 3 rises, then the effect is applied. -/
def State.lifecycleObject (s : State) (bs : List Byte) : State :=
  let o := lcObjOf bs
  let from0 := s.rd F.SEC_LC_STATE []
  if !o.wellFormed || !sigOver (if o.issuer = 0 then s.rootKey else s.ownerKey) bs 64 then s.secDone 1
  else if o.device != deviceId then s.secDone 2
  else if o.count != s.flashCtr 3 + 1 then s.secDone 3
  else if !lcStep from0 o.state o.issuer || (from0 == 1 && o.state == 2 && !s.ownCertOk) then s.secDone 4
  else
    let slot := if s.flashCtr 3 = 0 then 0 else 1 - s.rd V.LC_SLOT []
    let s := s.grantEnd 0
    let s := (s.flashPut (lcSlotAddr slot) (bs.take 128)).wr V.LC_SLOT [] slot
    match s.ctrRaise 3 o.count with
    | some t => ((t.wr F.SEC_LC_STATE [] o.state).lcEffect from0 o.state).secDone 0
    | none => s.secDone 5

/-- A counter raised to a value, unless it is there already; RESULT FLASH when boot flash does not answer as R494 asks. -/
def State.floorRaise (s : State) (i v : Nat) : State :=
  if v ≤ s.flashCtr i then s.secDone 0
  else match s.ctrRaise i v with
    | some t => t.secDone 0
    | none => s.secDone 5

/-- OWNER_ENROL: SEC_CMD OP 2 with the certificate fetched. -/
def State.ownerEnrol (s : State) (bs : List Byte) : State :=
  let issuer := leAt bs 108 1
  let gen := leAt bs 104 4
  let lc := s.rd F.SEC_LC_STATE []
  let n := ownLen bs + 64
  if !ownForm bs || bs.length < n || !sigOver (if issuer = 0 then s.rootKey else s.ownerKey) bs (ownLen bs) then s.secDone 1
  else if bytesAt bs 8 32 != deviceId then s.secDone 2
  else if gen ≤ s.flashCtr 2 then s.secDone 3
  else if !((issuer == 0 && lc == 1) || (issuer == 1 && lc == 2)) then s.secDone 4
  else
    let s := if s.ownHeld && s.ownerKey != bytesAt bs 40 64 then (s.grantEnd 0).closeTenants.zeroizeHbm else s
    let s := (s.flashPut 0x4000 (List.replicate 4096 0)).flashPut 0x4000 (bs.take n)
    s.floorRaise 2 gen

/-- FIRMWARE_FLOOR: counter 0 to the lesser SVN of the running images. -/
def State.firmwareFloor (s : State) : State :=
  s.floorRaise 0 (min (leAt (s.flashBytes 0x10000 12) 8 4) (leAt (s.flashBytes 0x40000 12) 8 4))

/-- KNIT_FLOOR: counter 1 to the SERIAL of the active base knit. -/
def State.knitFloor (s : State) : State := s.floorRaise 1 (s.rd V.BASE_SERIAL [])

/-! ## Debug grants (R508 to R513) -/

/-- CHALLENGE_READ: the DRBG gives a new challenge (free values) and the previous one is void. -/
def State.challengeRead (s : State) : State :=
  let c := fun i : Nat => Config.free s.free i % 2 ^ 64
  ((s.freshen.wr F.DBG_CHAL_CHAL [0] (c 0)).wr F.DBG_CHAL_CHAL [1] (c 1)).wr V.CHAL_OK [] 1

/-- The challenge as its 16 bytes. -/
def State.challenge (s : State) : Nat := s.rd F.DBG_CHAL_CHAL [0] + s.rd F.DBG_CHAL_CHAL [1] * 2 ^ 64

/-- A DBG_CMD ends with a RESULT; vector 0 of PF0 when DBG_STATUS leaves BUSY. -/
def State.dbgDone (s : State) (result : Nat) : State :=
  let busy := s.rdb F.DBG_STATUS_BUSY []
  let s := (s.wr F.DBG_STATUS_BUSY [] 0).wr F.DBG_STATUS_RESULT [] result
  if busy then s.msix 0 0 else s

/-- A grant is recorded. -/
def State.grantRecord (s : State) (level part : Nat) : State := s.err { det := 0x19, sev := 0, part := part, cause := level, unit := 1 }

/-- DEBUG_REQUEST_D1: from PF0 or from JTAG, in any life cycle. -/
def State.requestD1 (s : State) (jtag : Bool) : State :=
  let s := if s.rd F.DBG_LEVEL_LEVEL [] = 0 then
      ((s.wr F.DBG_LEVEL_LEVEL [] 1).wr F.DBG_LEVEL_IFACE [] (b2n jtag)).grantRecord 1 0 else s
  s.dbgDone 0

/-- The checks of a token in order (log entry 49): its RESULT, 0 when it is accepted. -/
def State.tokenResult (s : State) (bs : List Byte) : Nat :=
  let level := leAt bs 4 1
  let part := leAt bs 5 1
  let dur := leAt bs 56 4
  let id := leAt bs 64 8
  let lc := s.rd F.SEC_LC_STATE []
  let formOk := bs.length == 160 && leAt bs 0 4 == 0x54474244 && (level == 2 || level == 3) && part < 32
    && (level == 3 || part != 0) && leAt bs 6 1 < 4 && leAt bs 7 1 == 0 && within 1 86400 dur && leAt bs 60 4 == 0
    && leAt bs 72 24 == 0
  let key := if level = 3 then (if id = 0 then some s.rootKey else none)
    else match s.signerKey id with
      | some (k, some g) => if bitOf g.kinds 3 && bitOf g.parts part then some k else none
      | _ => none
  if !formOk then 8
  else if !s.rdb V.CHAL_OK [] || leAt bs 8 16 != s.challenge then 3
  else if bytesAt bs 24 32 != deviceId then 4
  else match key with
    | none => 2
    | some k =>
      if !sigOver k bs 96 then 1
      else if !((level == 2 && lc == 2) || (level == 3 && lc == 3 && s.rdb F.SEC_LC_ZEROIZED [])) then 5
      else if s.pstate = 3 && (!bitOf (leAt bs 6 1) 0 || s.rdb V.THERM [] || s.rdb V.BOOTING []) then 6
      else if 2 ≤ s.rd F.DBG_LEVEL_LEVEL [] then 7
      else 0

/-- The module is woken by a grant: P1 with every port withdrawn and closed. -/
def State.wake (s : State) : State :=
  let from0 := s.pstate
  if from0 < 2 then s
  else
    let s := (s.wr V.WOKE_FROM [] from0).wr F.DBG_LEVEL_WAKE [] 1
    if from0 = 3 then s.startUp 2 true
    else
      let s := s.wr V.WAKE_CLOSED [] 1
      (allPorts.foldl (fun t x => t.linkDown x.1 x.2 6) s).leaveP2 1

/-- TOKEN_SUBMIT: the token consumes the challenge, whatever the result.  A reset of its partition in the same cycle wins
(R513): the grant ends at once. -/
def State.tokenSubmit (s : State) (bs : List Byte) (jtag : Bool) : State :=
  let r := s.tokenResult bs
  let s := s.wr V.CHAL_OK [] 0
  if r ≠ 0 then s.dbgDone r
  else
    let level := leAt bs 4 1
    let part := if level = 2 then leAt bs 5 1 else 0
    let flags := leAt bs 6 1
    let dur := leAt bs 56 4
    let s := (((s.wr F.DBG_LEVEL_LEVEL [] level).wr F.DBG_LEVEL_PART [] part).wr F.DBG_LEVEL_WRITE []
      (b2n (level == 3 || bitOf flags 1))).wr F.DBG_LEVEL_IFACE [] (b2n jtag)
    let s := (s.wr F.DBG_LEVEL_REMAIN_S [] dur).wr V.GRANT_END [] (s.timeNs + dur * 10 ^ 9)
    let s := (s.grantRecord level part).dbgDone 0
    if level = 2 && s.rd V.PRST_PS [part] = s.rd V.TIME_PS [] + 1 then s.grantEnd 1
    else if bitOf flags 0 then s.wake else s

/-- DEBUG_RELEASE. -/
def State.debugRelease (s : State) : State := (s.grantEnd 0).dbgDone 0

/-- GRANT_EXPIRY. -/
def State.grantExpiry (s : State) : State := if 2 ≤ s.rd F.DBG_LEVEL_LEVEL [] then s.grantEnd 0 else s

/-! ## JTAG (R511, R589) -/

/-- IDCODE of the B0 part. -/
def idcode : Nat := 0x25A329AF

/-- The instruction loaded, or BYPASS where its requirement is not met, and the value that its data register captures. -/
def State.jtagSet (s : State) (op : Nat) (ok : Bool) (value : Nat) : State :=
  if ok then (s.wr V.JTAG_IR [] op).emit (.jtag op value) else (s.wr V.JTAG_IR [] 0xFF).emit (.jtag 0xFF 0)

def State.jtagD1 (s : State) : Bool := decide (1 ≤ s.rd F.DBG_LEVEL_LEVEL [])

/-- EXTEST and its kin, CLAMP and HIGHZ: D1, and every external port closed. -/
def State.jtagPins (s : State) : Bool := s.jtagD1 && s.allClosed

def State.jtagBypass (s : State) : State := s.jtagSet 0xFF true 0
def State.jtagIdcode (s : State) : State := s.jtagSet 0x01 true idcode

/-- SAMPLE/PRELOAD: the pins as sampled are free values; the boundary register takes what is shifted in. -/
def State.jtagSample (s : State) (bits : Nat) : State :=
  let t := (s.freshen).jtagSet 0x02 s.jtagD1 (Config.free s.free 0)
  if s.jtagD1 then t.wr V.JTAG_BSR [] bits else t

/-- EXTEST: the pins are driven from the boundary register, the inputs captured. -/
def State.jtagExtest (s : State) (bits : Nat) : State :=
  let t := (s.freshen).jtagSet 0x06 s.jtagPins (Config.free s.free 0)
  if s.jtagPins then t.wr V.JTAG_BSR [] bits else t

/-- EXTEST_PULSE and EXTEST_TRAIN on the AC-coupled lanes: lane instructions act only in P0 and P1. -/
def State.jtagLanes (s : State) (op bits : Nat) : State :=
  let ok := s.jtagPins && s.clocked
  let t := (s.freshen).jtagSet op ok (Config.free s.free 0)
  if ok then t.wr V.JTAG_BSR [] bits else t

def State.jtagPulse (s : State) (bits : Nat) : State := s.jtagLanes 0x07 bits
def State.jtagTrain (s : State) (bits : Nat) : State := s.jtagLanes 0x08 bits
def State.jtagClamp (s : State) : State := s.jtagSet 0x09 s.jtagPins 0
def State.jtagHighz (s : State) : State := s.jtagSet 0x0A s.jtagPins 0

/-- DBG_REQ: shifting 1 requests D1. -/
def State.jtagReq (s : State) (bit : Bool) : State :=
  let s := s.jtagSet 0x20 true 0
  if bit then s.requestD1 true else s

/-- The token that JTAG has shifted in is checked: at the end of the cycle, after PF0's (R513). -/
def State.jtagTokenDue (s : State) : State :=
  let n := s.rd V.JTAG_TOKN []
  if n = 0 then s
  else
    let bs := leBytes 160 (s.rd V.JTAG_TOK [])
    ((s.wr V.JTAG_TOKN [] 0).wr V.JTAG_TOK [] 0).tokenSubmit (if n = 161 then bs else []) true

/-- DBG_TOKEN: with nothing shifted in, the challenge is read; else a token is submitted, checked at the end of the cycle. -/
def State.jtagToken (s : State) (bs : List Byte) : State :=
  if bs.isEmpty then
    let s := s.challengeRead
    s.jtagSet 0x21 true s.challenge
  else
    let s := (s.jtagSet 0x21 true 0).jtagTokenDue
    (s.wr V.JTAG_TOK [] (ofLE (bytesAt bs 0 160))).wr V.JTAG_TOKN [] (1 + bs.length)

/-! ## Firmware update (R496) -/

/-- FIRMWARE_UPDATE: in the P3 state left by R481, bytes for an image or a knit; the sequence restarts at step 2. -/
def State.firmwareUpdate (s : State) (addr : Nat) (bs : List Byte) : State :=
  if s.pstate = 3 && s.rdb F.HAT_BOOT_FAILED [] && !s.rdb V.BOOTING [] && 0x10000 ≤ addr && addr + bs.length ≤ 2 ^ 26 then
    let s := (s.flashPut addr bs).startUp 0 false
    s.wr F.HAT_BOOT_STEP [] 2
  else s

/-! ## SPDM (R507) -/

/-- An SPDM answer, by its request's place in the list of R507; the Yofen starts on demand in P2. -/
def State.spdm (s : State) (req : Nat) (body : State → List Byte) : State :=
  let s := s.yofDemand
  if s.yofRuns then s.emit (.mctp (0x500 + req) ((body s).map fun b : Byte => b.toNat)) else s

/-- The identity certificate chain. -/
def State.chain (s : State) : List Byte := s.flashBytes 0x2000 8192

/-- A measurement (R507); none for an index without one. -/
def State.measure (s : State) (i : Nat) : Option (List Byte) :=
  let image := fun a : Nat => Config.sha256 (s.flashBytes a (128 + leAt (s.flashBytes a 16) 12 4))
  if i = 1 then some (Config.sha256 (Config.device 3))
  else if i = 2 then some (image 0x10000)
  else if i = 3 then some (image 0x40000)
  else if i = 4 then some (if s.ownHeld then Config.sha256 (s.ownCert.take (ownLen s.ownCert + 64)) else List.replicate 32 0)
  else if i = 5 then some (leBytes 32 (s.rd V.MANIFEST [0]))
  else if 0x11 ≤ i && i ≤ 0x2F then some (leBytes 32 (s.rd V.MANIFEST [i - 0x10]))
  else if i = 0x30 then some (leBytes 1 (s.rd F.SEC_LC_STATE []) ++ leBytes 1 (s.rd F.DBG_LEVEL_LEVEL [])
    ++ leBytes 1 (s.rd F.DBG_LEVEL_PART []) ++ [0] ++ leBytes 4 (s.flashCtr 0) ++ leBytes 4 (s.flashCtr 1))
  else none

def State.getVersion (s : State) : State := s.spdm 0 fun _ => Config.spdmBody 0

/-- The capabilities R507 gives: certificates, challenge and signed measurements; no key exchange, pre-shared keys or
sessions.  Their coding is that of DSP0274. -/
def State.getCapabilities (s : State) : State := s.spdm 1 fun _ => Config.spdmBody 1
def State.negotiateAlgorithms (s : State) : State := s.spdm 2 fun _ => Config.spdmBody 2
def State.getDigests (s : State) : State := s.spdm 3 fun t => Config.sha256 t.chain
def State.getCertificate (s : State) (off n : Nat) : State := s.spdm 4 fun t => bytesAt t.chain off n

/-- CHALLENGE: the chain's digest and a signature with the identity key over it and the nonce. -/
def State.spdmChallenge (s : State) (nonce : List Byte) : State :=
  let t := s.spdm 5 fun t =>
    let d := Config.sha256 t.chain
    d ++ Config.ecdsaSign identityScalar t.free (d ++ nonce)
  t.freshen

/-- GET_MEASUREMENTS: one index, or every one for 0xFF, then a signature over them and the nonce. -/
def State.getMeasurements (s : State) (index : Nat) (nonce : List Byte) : State :=
  let t := s.spdm 6 fun t =>
    let ms := if index = 0xFF then (List.range 0x31).flatMap fun i => (t.measure i).getD [] else (t.measure index).getD []
    ms ++ Config.ecdsaSign identityScalar t.free (ms ++ nonce)
  t.freshen

end Sys2Proof.Machine
end

