-- ==== Sys2Proof/Machine/Obs.lean ====
section
/-! DEFINITION. Counters, Tally, the sampler and error injection (R538 to R563 of
spec/19_observability_and_errors.md). -/

namespace Sys2Proof.Machine

/-! ## Counters (R539 to R543) -/

/-- A counter of a global bank: its COUNT and OVF fields and their index. -/
def ctrAt (bank i : Nat) : Fld × Fld × List Nat :=
  if bank < 416 then (F.CTR_VAL_COUNT, F.CTR_VAL_OVF, [bank / 104, bank % 104, i])
  else (F.CTRM_VAL_COUNT, F.CTRM_VAL_OVF, [bank - 416, i])

/-- EN, PART_EN and PART of a counter's select. -/
def State.ctrSel (s : State) (bank i : Nat) : Bool × Bool × Nat :=
  if bank < 416 then
    let ix := [bank / 104, bank % 104, i]
    (s.rdb F.CTR_SEL_EN ix, s.rdb F.CTR_SEL_PART_EN ix, s.rd F.CTR_SEL_PART ix)
  else
    let ix := [bank - 416, i]
    (s.rdb F.CTRM_SEL_EN ix, s.rdb F.CTRM_SEL_PART_EN ix, s.rd F.CTRM_SEL_PART ix)

/-- A counter is in the view of partition p's function (R543). -/
def State.ctrSeen (s : State) (p bank i : Nat) : Bool :=
  let c := s.ctrSel bank i
  if p = 0 then !(c.2.1 && c.2.2 != 0) || decide (1 ≤ s.rd F.DBG_LEVEL_LEVEL [])
  else s.img.brimCtrVis p && c.1 && c.2.1 && c.2.2 == p

/-- COUNTER_CLEAR: a write of CTR_CLR; a wrap in the same cycle keeps OVF set (R562). -/
def State.counterClear (s : State) (v : Nat) : State :=
  let bank := bitsOf v 0 9
  if !bitOf v 17 || 424 ≤ bank then s
  else (List.range 8).foldl (fun t i =>
    if bitOf v (9 + i) then
      let c := ctrAt bank i
      (t.wr c.1 c.2.2 0).lower c.2.1 c.2.2
    else t) s

/-! ## Tally (R545 to R551) -/

/-- An n-byte field of partition p's OBS image of quadrant q. -/
def State.obs (s : State) (p q off n : Nat) : Nat := s.img.le 0x0D q p off n

/-- The global banks of partition p's program, ascending. -/
def State.tallyBanks (s : State) (p : Nat) : List Nat :=
  ((List.range 4).flatMap fun q => ((onesOf 104 (s.obs p q 8 14)).map fun b => 104 * q + b))
    ++ (onesOf 8 (bitsOf (s.obs p 0 8 14) 104 8)).map fun m => 416 + m

/-- The snapshot record of a bank. -/
def State.snapRecord (s : State) (p snap bank : Nat) : List Byte :=
  let seen := (List.range 8).foldl (fun n i => if s.ctrSeen p bank i then setBit n i else n) 0
  let ovf := (List.range 8).foldl (fun n i =>
    let c := ctrAt bank i
    if s.rdb c.2.1 c.2.2 then setBit n i else n) 0
  leBytes 8 s.timeNs ++ leBytes 2 bank ++ leBytes 1 seen ++ leBytes 1 ovf ++ leBytes 4 snap
    ++ (List.range 8).flatMap fun i =>
        let c := ctrAt bank i
        leBytes 6 (if bitOf seen i then s.rd c.1 c.2.2 else 0)

/-- The router record of a port bank. -/
def State.routerRecord (s : State) (snap bank : Nat) : List Byte :=
  let q := bank / 104
  let port := bank % 104
  let ix := [40 * q + port]
  leBytes 8 s.timeNs ++ leBytes 2 (bank + 2 ^ 15) ++ leBytes 1 0xFF ++ leBytes 1 0 ++ leBytes 4 snap
    ++ leBytes 6 (s.rd V.RTR_PKT_IN ix) ++ leBytes 6 (s.rd V.RTR_PKT_OUT ix) ++ leBytes 6 (s.rd V.RTR_FLIT_IN ix)
    ++ leBytes 6 (s.rd V.RTR_FLIT_OUT ix) ++ leBytes 6 (s.rd V.RTR_STALL ix) ++ leBytes 6 (s.rd V.RTR_DISC ix)
    ++ (List.range 6).flatMap fun c => leBytes 2 (min (s.depth q port c / 4) 0xFFFF)

/-- One record to the function's Tally ring: false where it is lost. -/
def State.tallyPut (s : State) (f : Nat) (rcd : List Byte) : State :=
  let lost := s.bump F.CTR_TALLY_STAT_LOST [f] 1
  let log2 := s.rd F.CTR_TALLY_CTL_LOG2SIZE [f]
  let prod := s.rd F.CTR_TALLY_PTR_PROD [f]
  if !s.rdb F.CTR_TALLY_CTL_EN [f] || 2 ^ log2 ≤ (prod + 2 ^ 32 - s.rd F.CTR_TALLY_PTR_CONS [f]) % 2 ^ 32 then lost
  else match s.ringWrite f (s.rd F.CTR_TALLY_BASE_ADDR [f] * 32) (s.rdb F.CTR_TALLY_CTL_HOST [f]) log2 prod rcd with
    | some t => t.bump F.CTR_TALLY_PTR_PROD [f] 1
    | none => if s.rdb F.CTR_TALLY_CTL_HOST [f] then lost.hostFail f else lost

/-- A TELEMETRY packet of the records that a program holds for it, if any. -/
def State.tallyPacket (s : State) (p : Nat) : State :=
  let rs := SMap.get s.psBuf [100 + p] []
  if rs.isEmpty then s
  else
    let seq := s.rd V.MIR_SEQ [0]
    let k := mkPacket (mkHdr 0x60 15 (s.stamp p) p rs.length 0 1 (s.obs p 0 6 2 % 2 ^ 12) (s.ownAddr 0) seq
      (s.rd F.CTR_TALLY_STAT_SNAPS [p] + rs.length * 2 ^ 32)) (rs.flatMap (leBytes 64))
    ({ s with psBuf := SMap.erase [100 + p] s.psBuf }.bump V.MIR_SEQ [0] 1).send 0 47 p k

/-- A snapshot record to the program's destination: its function's Tally ring, or TELEMETRY packets of up to 32 records (R550). -/
def State.tallyRecord (s : State) (p : Nat) (rcd : List Byte) : State :=
  if bitOf (s.obs p 0 4 1) 0 then
    let rs := SMap.get s.psBuf [100 + p] [] ++ [ofLE rcd]
    let s := { s with psBuf := SMap.set [100 + p] rs s.psBuf }
    if rs.length < 32 then s else s.tallyPacket p
  else s.tallyPut p rcd

/-- The programs of the sweep in progress. -/
def State.sweepProgs (s : State) : List Nat := onesOf 32 (s.rd V.SWEEP_PROGS [])

/-- A bank latched: one record for each program that covers it, and the router record of a port bank (R547, R549). -/
def State.tallyLatch (s : State) (bank : Nat) : State :=
  (s.sweepProgs.filter fun p => (s.tallyBanks p).contains bank).foldl (fun t p =>
    let snap := s.rd F.CTR_TALLY_STAT_SNAPS [p]
    let t := t.tallyRecord p (s.snapRecord p snap bank)
    if bitOf (s.obs p 0 4 1) 1 && decide (bank < 416) && decide (bank % 104 < 40) then t.tallyRecord p (s.routerRecord snap bank) else t) s

/-- A program's snapshot ends: what is left of its packets is sent, or its vector raised (R550). -/
def State.tallyEnd (s : State) (p : Nat) : State :=
  let s := if bitOf (s.obs p 0 4 1) 0 then s.tallyPacket p else s.vector p (s.rd F.CTR_TALLY_CTL_VECTOR [p])
  (s.bump F.CTR_TALLY_STAT_SNAPS [p] 1).countModule 2 18 0 1

/-- A cycle of the sweep in progress: one bank is latched every 7 cycles, in ascending global number (R546). -/
def State.sweepCycle (s : State) : State :=
  if s.rd V.SWEEP_PROGS [] = 0 || s.rd V.CLK [] < s.rd V.SWEEP_AT [] then s
  else match onesOf 424 (s.rd V.SWEEP_BANKS []) with
    | b :: _ => ((s.tallyLatch b).wr V.SWEEP_BANKS [] (s.rd V.SWEEP_BANKS [] - 2 ^ b)).wr V.SWEEP_AT [] (s.rd V.SWEEP_AT [] + 7)
    | [] => (s.sweepProgs.foldl State.tallyEnd s).wr V.SWEEP_PROGS [] 0

/-- A snapshot skipped because the program's next due time came first (R548). -/
def State.tallySkip (s : State) (p : Nat) : State := (s.bump F.CTR_TALLY_STAT_SKIPPED [p] 1).countModule 2 19 0 1

/-- A set of partitions as a mask. -/
def maskOf (l : List Nat) : Nat := l.foldl (fun m p => setBit m p) 0

/-- TALLY_SWEEP: the programs that fall due, and those whose snapshot was skipped because their next due time came first.  With no sweep running a sweep starts at
the next cycle for those and for the ones that fell due during the sweep before; during a sweep they wait for the next. -/
def State.tallySweep (s : State) (due skipped : List Nat) : State :=
  let on := fun p : Nat => s.img.brimValid p && s.obs p 0 0 3 % 2 ^ 20 != 0
  let ps := (List.range 32).filter fun p => due.contains p && on p
  let s := ((List.range 32).filter fun p => skipped.contains p && on p).foldl State.tallySkip s
  let old := onesOf 32 (s.rd V.SWEEP_WAIT [])
  let s := (ps.filter old.contains).foldl State.tallySkip s
  let all := (List.range 32).filter fun p => ps.contains p || old.contains p
  if s.rd V.SWEEP_PROGS [] ≠ 0 then s.wr V.SWEEP_WAIT [] (maskOf all)
  else if all.isEmpty then s
  else
    (((s.wr V.SWEEP_WAIT [] 0).wr V.SWEEP_PROGS [] (maskOf all)).wr V.SWEEP_BANKS [] (maskOf (all.flatMap s.tallyBanks))).wr V.SWEEP_AT []
      (s.rd V.CLK [] + 1)

/-! ## The sampler (R553) -/

/-- The buffer of a sampler emptied, with the events in progress that it was to record. -/
def State.psEmpty (s : State) (q : Nat) : State :=
  let s := s.eraseRegs fun f ix => (f == V.PS_REC.id || f == V.PS_BEG.id || f == V.PS_WAIT.id) && ix.getD 0 99 == q
  { s with psBuf := SMap.erase [q] s.psBuf }

/-- SAMPLER_CTL_WRITE: a write of CTR_PS_CTL restarts the count and empties the buffer. -/
def State.samplerCtl (s : State) (q v : Nat) : State :=
  let s := (((s.wr F.CTR_PS_CTL_EN [q] (bitsOf v 0 1)).wr F.CTR_PS_CTL_SOURCE [q] (bitsOf v 1 3)).wr F.CTR_PS_CTL_MODE [q]
    (bitsOf v 4 1)).wr F.CTR_PS_CTL_PART [q] (bitsOf v 10 5)
  let s := s.wr F.CTR_PS_CTL_K [q] (min 24 (bitsOf v 5 5))
  let s := (s.wr F.CTR_PS_CTL_PART_EN [q] (bitsOf v 15 1)).wr F.CTR_PS_CTL_PORT [q] (bitsOf v 16 6)
  ((s.wr V.PS_COUNT [q] 0).wr F.CTR_PS_STAT_WRAPPED [q] 0).psEmpty q

/-! ## Injection (R559, R560) -/

/-- INJECT_ENABLE_WRITE: EN may be set only at D1 or above. -/
def State.injectEnable (s : State) (v : Nat) : State :=
  if v % 2 = 0 then s.wr F.ERR_INJ_CTL_EN [] 0
  else if 1 ≤ s.rd F.DBG_LEVEL_LEVEL [] then s.hostWr F.ERR_INJ_CTL_EN [] 1
  else s

/-- The severities that R559 lists for a detector of ERR_INJ. -/
def detSevs (det : Nat) : List Nat :=
  if det = 0x05 then [0]
  else if det = 0x06 || det = 0x07 || det = 0x0F then [1]
  else if det = 0x04 || det = 0x0C || det = 0x15 then [2]
  else if det = 0x13 then [3]
  else if det = 0x14 then [2, 3]
  else if det = 0x12 then [2, 0]
  else if det = 0x0A then [0, 1, 2]
  else if det = 0x17 then [0, 1, 2]
  else [1, 2]

/-- The severity of a record-only injection: the detector's, or a free choice among those that R559 lists. -/
def State.injSeverity (s : State) (det : Nat) : Nat :=
  (detSevs det).getD (Config.free s.free 0 % (detSevs det).length) 0

/-- Detectors that ERR_INJ takes for a full injection. -/
def detFull (det : Nat) : Bool :=
  det == 4 || det == 5 || det == 6 || det == 7 || det == 0x0A || det == 0x0B || det == 0x0C || det == 0x0D || det == 0x0F
    || det == 0x12 || det == 0x17

/-- Detectors that ERR_INJ takes at all: those that the table marks as injected through it. -/
def detInjected (det : Nat) : Bool := detFull det || det == 0x13 || det == 0x14 || det == 0x15

/-- True when the response of a full injection has module or fatal severity. -/
def detSevere (det target : Nat) : Bool :=
  det == 4 || det == 0x0C || det == 0x0D || det == 0x12 || (det == 0x0A && bitOf target 3 && (target % 8 == 2 || target % 8 == 5
    || target % 8 == 6))

/-- The partition that the target of an injection belongs to (R560). -/
def State.injOwner (s : State) (det q p target : Nat) : Nat :=
  if det = 0x0F || (det = 0x07 && bitOf target 31) then (s.img.mitOwner (target % 2 ^ 10)).getD 0
  else if det = 0x05 then s.portPart q (target % 64)
  else if det = 0x17 then target % 32
  else p

/-- The open instance of a collective, or the open round of a context, expires now (0x07). -/
def State.injPatience (s : State) (p target : Nat) : State :=
  if bitOf target 31 then
    let c := target % 2 ^ 10
    match (s.mit.filter fun kv => kv.1.getD 0 9999 == c && kv.2.st == 1).head? with
    | some kv => s.mitRoundAbort c kv.2.seq
    | none => s
  else
    let coll := target % 2 ^ 16
    match (s.insts.filter fun kv => kv.1.getD 0 99 == p && kv.1.getD 1 99999 == coll
        && (kv.2.st == .active || kv.2.st == .unarmed)).head?, s.img.collValid p coll with
    | some kv, some e => s.instAbort p coll e kv.2 1
    | _, _ => s

/-- The packet that a bank has just admitted leaves with STOMP set. -/
def State.stompLast (s : State) (q : Nat) : State :=
  let l := SMap.get s.bufs [q] []
  match l.getLast? with
  | some h =>
    let k : Packet := { h.pkt with stomp := true }
    { s with bufs := SMap.set [q] (l.dropLast ++ [{ h with pkt := k }]) s.bufs }
  | none => s

/-- An injected error of SRAM m of R558 that a write by partition p has met: a and b name the collective and step, or the
context and round, that it wrote. -/
def State.sramFire (s : State) (q m p a b : Nat) (double : Bool) : State :=
  let part := if m = 2 || 5 ≤ m then 0 else p
  let quad := if 5 ≤ m then 4 else q
  let rcd := fun (t : State) (sev : Nat) => t.err { det := 0x0A, sev := sev, part := part, quad := quad, unit := m }
  if !double then rcd s 0
  else match m with
    | 0 =>
      match s.img.collValid p a with
      | some e => match s.instGet p a e b with
        | some i => (rcd s 1).instAbort p a e i 4
        | none => rcd s 1
      | none => rcd s 1
    | 1 => (rcd s 1).stompLast q
    | 2 => (rcd s 2).quadReset q
    | 3 => if s.rd F.GRM_PART_STATE [q, p] = 2 then (rcd s 1).gramStop q p else rcd s 1
    | 4 => (rcd s 1).mitRoundAbort a b
    | 5 => if s.yofRuns then s.yofenReset 0x0A 5 true else s
    | 6 => s.hatRecord { det := 0x0A, sev := 2, unit := 6, inj := true }
    | _ => s

/-- After a write of SRAM m by partition p: the injection that waits for it fires (R559, 0x0A). -/
def State.sramHook (s : State) (q m p a b : Nat) : State :=
  if s.injDet 0x0A q && s.rd V.INJ_PART [] == p && s.rd V.INJ_TARGET [] % 8 == m then
    s.injWith fun t => t.sramFire q m p a b (bitOf (s.rd V.INJ_TARGET []) 3)
  else s

/-- What a permitted full injection does at once; the others wait for their point. -/
def State.injNow (s : State) (det q p target : Nat) : State :=
  match det with
  | 4 => if q < 4 && target % 4 < 3 then s.injWith fun t => t.seamDown q (seamQuad q (40 + target % 4)) else s
  | 7 => s.injWith fun t => t.injPatience p target
  | 0x0A => if 5 ≤ target % 8 then s.injWith fun t => t.sramFire q (target % 8) p 0 0 (bitOf target 3) else s
  | 0x0B => if q < 4 then (s.wr V.INJ_NOW [] 1 |>.movBusError q 5).wr V.INJ_NOW [] 0 else s
  | _ => s

/-- The fields of ERR_INJ stored; QUAD is 0 to 4 (R594). -/
def State.injFields (s : State) (v : Nat) : State :=
  ((((s.wr F.ERR_INJ_DET [] (bitsOf v 0 8)).wr F.ERR_INJ_QUAD [] (min 4 (bitsOf v 8 3))).wr F.ERR_INJ_PART [] (bitsOf v 11 5)).wr
    F.ERR_INJ_RECORD_ONLY [] (b2n (bitOf v 16))).wr F.ERR_INJ_TARGET [] (bitsOf v 32 32)

/-- ERROR_INJECT: a write of ERR_INJ (R560). -/
def State.errorInject (s : State) (v : Nat) : State :=
  let det := bitsOf v 0 8
  let q := min 4 (bitsOf v 8 3)
  let p := bitsOf v 11 5
  let target := bitsOf v 32 32
  let ro := bitOf v 16
  let s := s.injFields v
  if !bitOf v 17 then s
  else if !detInjected det || (!ro && !detFull det)
      || !s.injAllowed ro (s.injOwner det q p target) (detSevere det target) then s.injRefused
  else if ro then
    (s.raise F.ERR_INJ_STAT_FIRED []).freshen.err
      { det := det, sev := s.injSeverity det, part := p, quad := q, unit := target, inj := true }
  else (s.injArm 1 det q p target).injNow det q p target

end Sys2Proof.Machine
end

