-- ==== Sys2Proof/Machine/Host.lean ====
section
/-! DEFINITION. The PCIe functions beside their registers, BAR2, failed host accesses, and the MCTP endpoints (R516 to
R536 of spec/18_host_interface.md). -/

namespace Sys2Proof.Machine

/-! ## The link and its resets (R516, R530 to R532) -/

/-- TLPs of the host reach the Zarfer. -/
def State.pciUp (s : State) : Bool := s.hatOn && s.rdb F.PCI_LINK_SPEED [] && !s.rdb V.PERST []

/-- A knit load of the named functions that is FETCHING fails with code ABORTED. -/
def State.fetchAbort (s : State) (who : Nat → Bool) : State :=
  if s.knitBusy && s.rd V.KNT_WAIT [] = 8 && who s.knitFn then s.knitFail 0x0C 0 0 else s

/-- PCI_APER and the MSI-X table of a function back at reset. -/
def State.fnReset (s : State) (f : Nat) : State :=
  (s.wr F.PCI_APER_BASE [f] 0).eraseRegs fun x ix =>
    (x == V.MSIX_MASK.id || x == V.MSIX_PEND.id || x == V.BME.id || x == V.AER_ADV.id || x == V.AER_ERR.id) && ix.getD 0 99 == f

/-- The enables that PF0 has latched are cleared: of the power state, of cartridges, and of partition 0's Mover channels
(R485, R531). -/
def State.dropLatches (s : State) : State :=
  let s := (List.range 8).foldl (fun t c => if t.rd V.CART_LATCH [c] = 2 then t.wr V.CART_LATCH [c] 0 else t) s
  let s := (List.range 12).foldl (fun t i => t.wr F.MOV_CH_STAT_BUSY [i / 3, 0, i % 3] 0) s
  s.wr F.HAT_PSTATE_PENDING [] 0

/-- PF0_FLR. -/
def State.pf0Flr (s : State) : State :=
  let s := ((s.fetchAbort fun f => f == 0).fnReset 0).wr F.GLB_SCRATCH_VALUE [0] 0
  let s := if s.rdb F.SEC_STATUS_BUSY [] then s.wr V.SEC_NOVEC [] 1 else s
  let s := if 1 ≤ s.rd F.DBG_LEVEL_LEVEL [] && !s.rdb F.DBG_LEVEL_IFACE [] then s.grantEnd 0 else s
  s.dropLatches

/-- PARTITION_RESET, by an FLR of the VF or by HAT_RESET KIND 3: the FLR also resets what the function itself holds. -/
def State.partReset (s : State) (p : Nat) (flr : Bool) : State :=
  let s := s.partitionReset p
  if flr && p != 0 then (s.fnReset p).wr F.GLB_SCRATCH_VALUE [p] 0 else s

/-- The link is down: no rate, no lanes in use (R537). -/
def State.linkOff (s : State) : State :=
  ((s.wr F.PCI_LINK_SPEED [] 0).wr F.PCI_LINK_WIDTH [] 0).wr F.PCI_LINK_FLIT [] 0

/-- PERST: PERST_N asserted resets the PCIe controller and every function's PCIe state; released, the link trains. -/
def State.perst (s : State) (asserted : Bool) : State :=
  if asserted then
    let s := if s.rdb F.PCI_LINK_SPEED [] then s.bump F.PCI_LINK_DOWNS [] 1 else s
    let s := ((s.wr V.PERST [] 1).wr F.HAT_RESET_LAST [] 5).linkOff.fetchAbort fun f => f < 32
    (List.range 32).foldl (fun t f => t.fnReset f) s
  else
    let s := s.wr V.PERST [] 0
    if s.rdb V.YOF_ON [] then s.pcieUp else s

/-- PCIE_LINK_DOWN: the link is lost while PERST_N is released, or trains again. -/
def State.pcieLinkDown (s : State) (down : Bool) : State :=
  if down then
    if !s.rdb F.PCI_LINK_SPEED [] then s
    else
      let s := (s.linkOff.bump F.PCI_LINK_DOWNS [] 1).fetchAbort fun f => f < 32
      (s.err { det := 0x17, sev := 2 }).aer 0 2
  else if s.rdb V.YOF_ON [] then s.pcieUp
  else s

/-! ## Failed host accesses (R527, R533) -/

/-- HOST_ACCESS_FAIL: a host read of function f ends with an error completion or a timeout.  user: 0 a Mover run of
channel c in quadrant q, 1 a record's posted write, which AER does not report, 2 the knit fetch, 3 SEC_CMD, 4 DBG_CMD. -/
def State.hostAccessFail (s : State) (f user q c : Nat) : State :=
  let fail := fun t : State => ((t.hostFail f).err { det := 0x17, sev := 1, part := f }).aer f 1
  match user with
  | 0 => if s.movSt q f (c - 1) == 1 then (fail s).movBusError q 1 else s
  | 1 => s.hostFail f
  | 2 => if s.knitBusy && s.rd V.KNT_WAIT [] = 8 && s.knitFn = f then (fail s).fetchAbort fun x => x == f else s
  | 3 => if f = 0 && s.rdb F.SEC_STATUS_BUSY [] then (fail s).secDone 5 else s
  | 4 => if f = 0 && s.rdb F.DBG_STATUS_BUSY [] then (fail s).dbgDone 8 else s
  | _ => s

/-- True when an armed injection makes the next host read of function f end in a completion timeout (R559, 0x17). -/
def State.injRead (s : State) (f : Nat) : Bool :=
  s.rd V.INJ_KIND [] == 1 && s.rd V.INJ_DET [] == 0x17 && s.rd V.INJ_TARGET [] % 32 == f

/-- A host read of function f for a user: done, or failed by an armed injection. -/
def State.readGate (s : State) (f user q c : Nat) (done : State → State) : State :=
  let s := s.countModule 0 17 0 1
  if s.injRead f then s.injWith fun t => t.hostAccessFail f user q c else done (s.countModule 0 16 0 1)

/-- MSIX_UNMASK. -/
def State.msixUnmask (s : State) (f v : Nat) : State :=
  let due := s.rdb V.MSIX_PEND [f, v]
  let s := (s.wr V.MSIX_MASK [f, v] 0).wr V.MSIX_PEND [f, v] 0
  if due && s.hostOk f then s.tlp (.msix f v) else s

/-! ## BAR2 (R521 to R523) -/

/-- The partition address of a BAR2 offset. -/
def State.bar2Addr (s : State) (f off : Nat) : Nat := s.rd F.PCI_APER_BASE [f] * 2 ^ 36 + off

/-- A BAR2 access is served: every byte in an extent of the partition that is neither LOST nor changing owner. -/
def State.bar2Served (s : State) (f off n : Nat) : Bool :=
  let a := s.bar2Addr f off
  s.clocked && s.img.brimValid f && !s.rangeMoving f a n &&
    (match s.place f a n with
      | some ps => s.placesAlive ps
      | none => false)

/-- BAR2_READ: a completion with its data, with UR, or with Completer Abort. -/
def State.bar2Read (s : State) (f off n : Nat) : State :=
  let s := s.countModule 0 16 0 1
  let a := s.bar2Addr f off
  if !s.bar2Served f off n then ((s.raise F.PCI_FN_STAT_BADBAR2 [f]).tlp (.completion f 1 [])).aer f 0
  else match s.memRead f a n with
    | .ok d => (s.noteRead 0x09 f a n).tlp (.completion f 0 d)
    | _ => ((s.noteRead 0x09 f a n).tlp (.completion f 2 [])).aer f 0

/-- A host write to the operands of a partition's running Gram commands: the result elements that they affect are unspecified (R270). -/
def State.gramTaint (s : State) (p a n : Nat) : State :=
  (List.range 4).foldl (fun t q =>
    let entry := t.rd V.GRM_ENTRY [q, p]
    let op := ceOpcode entry
    if t.rd F.GRM_PART_STATE [q, p] = 2 && overlap [(a, n)] (gReads op entry ++ (t.gBlock p op entry).getD []) then t.wr V.GRM_TAINT [q, p] 1
    else t) s

/-- What a host write leaves unspecified: results of running Gram commands, and words of running Mover programs (R270, R401). -/
def State.hostWrote (s : State) (p a n : Nat) : State := (s.gramTaint p a n).movTaint p a n

/-- BAR2_WRITE. -/
def State.bar2Write (s : State) (f off : Nat) (bs : List Byte) (poisoned : Bool) : State :=
  let s := s.countModule 0 16 0 1
  if poisoned then (s.err { det := 0x17, sev := 1, part := f }).aer f 3
  else if !s.bar2Served f off bs.length then s.raise F.PCI_FN_STAT_BADBAR2 [f]
  else match s.memWrite f (s.bar2Addr f off) bs with
    | some _ => (((s.noteMerge f (s.bar2Addr f off) bs.length).memWrite f (s.bar2Addr f off) bs).getD s).hostWrote f (s.bar2Addr f off) bs.length
    | none => s

/-! ## MCTP (R534, R535) -/

/-- An endpoint answers on a binding (0 PCIe VDM, 1 SMBus): the Yofen, or on SMBus the sentinel for what it takes. -/
def State.mctpAnswers (s : State) (b : Nat) (sentinel : Bool) : Bool :=
  if b = 1 && sentinel then s.hatOn else s.yofRuns && (b == 1 || s.pciUp)

/-- SET_ENDPOINT_ID: the endpoint ID of a binding, and its answer. -/
def State.setEid (s : State) (b eid : Nat) : State :=
  let s := if b = 0 then s.yofDemand else s
  if s.mctpAnswers b true then (s.wr V.EID [b] eid).emit (.mctp 0 [b, eid]) else s

/-- The items of R535 in order: ADC channels, tach inputs, Tj of each quadrant, P, the effective cap, power state, pump
stage, tray role, life cycle, and the cartridge states. -/
def State.sensor (s : State) (i : Nat) : Nat :=
  if i < 16 then s.rd F.TRY_ADC_VALUE [i]
  else if i < 24 then s.rd F.TRY_TACH_RPM [i - 16]
  else if i < 28 then s.rd V.TJQ [i - 24]
  else if i = 28 then s.rd F.TRY_CAP_POWER_W []
  else if i = 29 then s.rd F.TRY_CAP_CAP_W []
  else if i = 30 then s.rd F.HAT_PSTATE_STATE []
  else if i = 31 then s.rd F.TRY_STAGE_PUMP []
  else if i = 32 then s.rd F.TRY_OWN_ROLE []
  else if i = 33 then s.rd F.SEC_LC_STATE []
  else s.rd F.TRY_CART_STATE [i - 34]

/-- PLDM_SENSOR_READ: item i of R535; the Yofen starts on demand in P2. -/
def State.pldmRead (s : State) (i : Nat) : State :=
  let s := s.yofDemand
  if s.yofRuns then s.emit (.mctp 1 [i, s.sensor i]) else s

end Sys2Proof.Machine
end

