-- ==== Sys2Proof/Machine/Work.lean ====
section
/-! DEFINITION. The next unit of work that a partition has ready at each engine, and what the engines' wheels do in a core cycle (R65, R66 of
spec/02_knit_and_partitions.md, R171, R250, R274, R387, R397). -/

namespace Sys2Proof.Machine

/-- The oldest slot of a partition whose engine has a readout or conversion to make. -/
def State.oldestReadout (s : State) (q e p : Nat) : Option Nat :=
  ((s.slotsOf q p).foldl (fun (b : Option (Nat × Nat)) kv =>
    if kv.2.engine != e then b
    else match s.readoutUnit kv.1 kv.2, b with
      | some n, some (o, m) => if kv.2.born < o then some (kv.2.born, n) else some (o, m)
      | some n, none => some (kv.2.born, n)
      | none, _ => b) none).map Prod.snd

/-- Cycles of the next unit of reduction engine e for a partition: its accumulations first (R171). -/
def State.reduceNext (e : Nat) (s : State) (q p : Nat) : Option Nat :=
  if s.rdb V.ENGINE_FAULT [q, e] then none
  else if s.rd V.ACC_OUT [q, e, p] < s.rd V.ACC_IN [q, e, p] then some 2
  else s.oldestReadout q e p

/-- Cycles of the next pass of a partition at the update engine of a quadrant (R250). -/
def State.updateNext (s : State) (q p : Nat) : Option Nat :=
  if !s.rdb F.UPD_FAULT_FAULTED [q] && (s.upd.any fun kv => kv.1.getD 0 99 == p &&
      match s.img.shardValid p (kv.1.getD 1 0) with
      | some h =>
        let sg := s.img.segOf p h (kv.1.getD 2 0)
        h.quad == q && !s.rdb V.SHARD_LOST [p, kv.1.getD 1 0] && s.passReady p (kv.1.getD 1 0) (s.img.grp p sg.group) sg.group kv.2
      | none => false) then some passCycles
  else none

/-- Cycles of the next unit of a partition's Gram command (R274). -/
def State.gramUnitNext (s : State) (q p : Nat) : Option Nat := (s.gramNext q p).map fun u => s.gramCycles q p u

/-- A cycle of issue for a partition with a channel that has data to move (R397). -/
def State.moverNext (s : State) (q p : Nat) : Option Nat :=
  if [0, 1, 2].any fun c => s.movReady q p c then some 1 else none

/-- Cycles of the next parking request of a partition (R387). -/
def State.parkNext (s : State) (q p : Nat) : Option Nat :=
  if !s.rdb F.PRK_QUEUE_FAULTED [q] && (s.parked q).any fun k => pkPart k.pkt == p then some parkCycles else none

/-- The next unit of a partition at the engine of wheel w, in the order of R64. -/
def State.nextUnit (w : Nat) (s : State) (q p : Nat) : Option Nat :=
  if w < 5 then s.reduceNext w q p
  else if w = 5 then s.updateNext q p
  else if w = 6 then s.gramUnitNext q p
  else if w = 7 then s.moverNext q p
  else s.parkNext q p

/-- Engine kind e of R472 has no work: no unit in progress, and none ready. -/
def State.engineIdle (s : State) (q e : Nat) : Bool :=
  (if e = 0 then List.range 5 else [4 + e]).all fun w => s.engineFree q w && (List.range 32).all fun p => (s.nextUnit w q p).isNone

/-! ## Top-down classes (R540, R544) -/

/-- The flit slot of a port that begins at or after cycle t. -/
def State.slotFrom (s : State) (q k t : Nat) : Nat :=
  s.rd V.TX_BASE [q, k] + ceilDiv ((t - s.rd V.TX_TIME [q, k]) * (5 * s.portRate q k)) 4352

/-- The VCs of a port whose head packet, released, waits for credits; while the port is not UP, those with packets queued. -/
def State.stalledVcs (s : State) (q k : Nat) : List Nat :=
  let up := s.linkUp q k
  let short := fun (pk : Packet) (v : Nat) => !up || decide (s.txAvail q k v < credits pk)
  (List.range 16).filter fun v =>
    ((SMap.get s.bufs [q] []).any fun h => h.copies.any fun c => c.out == k && copyVc c == v && c.started == 0
        && (!up || decide (c.release ≤ s.rd V.CYCLE [q])) && short h.pkt v)
      || ((SMap.get s.mitEgress [q, k] []).any fun r => r.dest.vc == v && short r.pkt v)
      || (!up && (SMap.get s.reasm [q, k] []).any fun r => r.dest.vc == v)

/-- Flit slot n of an external port, counted in its class. -/
def State.slotClass (s : State) (q k n : Nat) : State :=
  if n % 65 = 0 then s.countLocal q k 3 0 1
  else if s.rd V.TX_FIRST [q, k] ≤ n && n < s.rd V.TX_NEXT [q, k] then
    s.countLocal q k (if s.rdb V.TX_RESEND [q, k] then 3 else 2) (s.rd V.TX_PART [q, k]) 1
  else
    let vs := s.stalledVcs q k
    if vs.isEmpty then s.countLocal q k 4 0 1
    else vs.foldl (fun t v => t.countLocal q k (96 + v) 0 1) ((s.countLocal q k 5 0 1).bump V.RTR_STALL [40 * q + k] 1)

/-- The flit slots of a quadrant's ports that begin in this cycle. -/
def State.slotClasses (s : State) (q : Nat) : State :=
  (List.range 40).foldl (fun t k =>
    if t.framed q k then
      let c := t.rd V.LINK_CYC [q]
      let n := t.slotFrom q k c
      (List.range (t.slotFrom q k (c + 1) - n)).foldl (fun u i => u.slotClass q k (n + i)) t
    else t) s

/-- The wheel of a local bank's engine. -/
def bankWheel (b : Nat) : Option Nat :=
  if 43 ≤ b && b < 48 then some (b - 43) else if 51 ≤ b && b < 54 then some (b - 46) else if b = 54 then some 8 else none

/-- The class and partition of this cycle for a bank other than an external port's; none while a unit is in progress, whose cycles count at its end.  A cycle that the throttle
skips stalls what has work.  DESIGN CHOICE (log entry 83): a seam's switched channel counts a cell read as its work; a block to which the spec gives no cycles of
work is idle. -/
def State.cycleClass (s : State) (q b : Nat) (skipped : Bool) : Option (Nat × Nat) :=
  let busy := s.rdb V.BANK_LEN [q, b]
  if 40 ≤ b && b < 43 then
    let t := s.rd V.CYCLE [q]
    let l := SMap.get s.bufs [q] []
    let read := if skipped then none else l.find? fun h => h.copies.any fun c => c.out == b && (h.reads c).contains t
    match read with
    | some h => some (if pkResend h.pkt = 1 then 3 else 2, pkPart h.pkt)
    | none => some (if l.any fun h => h.copies.any fun c => c.out == b && c.started == 0 && decide (c.release ≤ t) then 5 else 4, 0)
  else if busy && !skipped then none
  else
    let owner := fun w : Nat => slotOwner (s.img.wheelSlot q w (s.wheelNow q w))
    let ready := fun w : Nat => (List.range 32).any fun p => (s.nextUnit w q p).isSome
    match bankWheel b with
    | some w => some (if busy || ready w then 5 else 4, owner w)
    | none =>
      if b = 49 then some (if busy || (List.range 32).any (s.pagerWork q) then 5 else 4, owner 7)
      else if b = 55 then
        some (if (List.range 40).any fun k => !(SMap.get s.mitEgress [q, k] []).isEmpty then 5 else 4, 0)
      else some (4, 0)

/-- The banks to which R540 lists the top-down classes, those of external ports left out. -/
def classBank (b : Nat) : Bool := (40 ≤ b && b < 56) || (100 ≤ b && b < 104)

/-- One counter in a core cycle. -/
def State.ctrCycle (s : State) (q b i : Nat) (skipped : Bool) : State :=
  let ev := s.rd F.CTR_SEL_EVENT [q, b, i]
  let add := fun p : Nat =>
    if !s.rdb F.CTR_SEL_PART_EN [q, b, i] || s.rd F.CTR_SEL_PART [q, b, i] == p then
      s.bumpOvf F.CTR_VAL_COUNT F.CTR_VAL_OVF [q, b, i] 1 else s
  if ev = 1 then add 0
  else if 2 ≤ ev && ev < 6 && classBank b then
    match s.cycleClass q b skipped with
    | some (c, p) => if c = ev then add p else s
    | none => s
  else s

/-- The indexes of registers of a field that hold a value other than 0. -/
def State.setIndexes (s : State) (f : Fld) : List (List Nat) :=
  (s.regs.filter fun kv => kv.1.headD 0 == f.id && kv.2 != 0).map fun kv => kv.1.tail

/-- What the counters count in a core cycle. -/
def State.countCycle (s : State) (skipped : Bool) : State :=
  let s := (s.setIndexes F.CTR_SEL_EN).foldl (fun t ix =>
    if t.quadUp (ix.getD 0 0) then t.ctrCycle (ix.getD 0 0) (ix.getD 1 0) (ix.getD 2 0) skipped else t) s
  let s := (s.setIndexes F.CTRM_SEL_EN).foldl (fun t ix =>
    if t.rd F.CTRM_SEL_EVENT ix == 1 && (!t.rdb F.CTRM_SEL_PART_EN ix || t.rd F.CTRM_SEL_PART ix == 0) then
      t.bumpOvf F.CTRM_VAL_COUNT F.CTRM_VAL_OVF ix 1 else t) s
  (List.range 4).foldl (fun t q => if t.quadUp q then t.slotClasses q else t) s

/-- Selects written in the cycle that ends take effect (R543). -/
def State.selectsDue (s : State) : State :=
  (s.setIndexes V.SEL_NEXT).foldl (fun t ix =>
    let x := t.rd V.SEL_NEXT ix - 1
    let put := fun (fs : Fld × Fld × Fld × Fld) (ix : List Nat) =>
      (((t.wr fs.1 ix (bitsOf x 0 8)).wr fs.2.1 ix (bitsOf x 8 5)).wr fs.2.2.1 ix (bitsOf x 13 1)).wr fs.2.2.2 ix (bitsOf x 14 1)
    let u := if ix.headD 0 < 4 then put (F.CTR_SEL_EVENT, F.CTR_SEL_PART, F.CTR_SEL_PART_EN, F.CTR_SEL_EN) ix
      else put (F.CTRM_SEL_EVENT, F.CTRM_SEL_PART, F.CTRM_SEL_PART_EN, F.CTRM_SEL_EN) ix.tail
    u.wr V.SEL_NEXT ix 0) s

/-- The wheels of a quadrant in a new core cycle: slots that begin are lent or not, and the reduction engines start accumulations. -/
def State.wheelCycle (s : State) (q : Nat) : State :=
  let s := (List.range 9).foldl (fun t w => t.slotStart q w fun u p => u.nextUnit w q p) s
  if s.engineOn q 0 then s.accTick q else s

end Sys2Proof.Machine
end

