-- ==== Sys2Proof/Machine/HostIf.lean ====
section
/-! DEFINITION. BAR0: the register map, access codes, views of the functions, the debug window and DBG_ACCESS (R11 to
R15, R594 of spec/00_scope.md, R517 to R520 of spec/18_host_interface.md, R543 and R568 of
spec/19_observability_and_errors.md and spec/20_register_map.md, R564 to R574 of spec/20_register_map.md). -/

namespace Sys2Proof.Machine

/-! ## Finding a register (R564 to R567) -/

/-- A register that a function reaches: its quadrant, slot and row, the index of its copy as State keeps it, and the
array index that the offset names. -/
structure RegHit where
  quad : Option Nat
  slot : Nat
  row : RegRow
  ix : List Nat
  arr : List Nat
  deriving DecidableEq, Repr

/-- The array index of an offset in a register array, none where the offset is no element. -/
def dimsIndex : List (Nat × Nat) → Nat → Option (List Nat)
  | [], 0 => some []
  | [], _ + 1 => none
  | (n, st) :: r, o => if o / st < n then (dimsIndex r (o % st)).map fun l => o / st :: l else none

/-- The index of an 8-byte-aligned block offset in a row. -/
def RegRow.index (r : RegRow) (off : Nat) : Option (List Nat) := if r.off ≤ off then dimsIndex r.dims (off - r.off) else none

/-- The row of a block that holds an offset. -/
def findRow (rows : List RegRow) (off : Nat) : Option (RegRow × List Nat) :=
  rows.findSome? fun r => (r.index off).map fun ix => (r, ix)

/-- What function f sees of a row: its array index, none where the function does not see it. -/
def State.seen (s : State) (f : Nat) (quad : Option Nat) (r : RegRow) (arr : List Nat) : Option (List Nat) :=
  let q := quad.getD 0
  if f = 0 then (if r.vis = .fn then some [0] else some arr)
  else match r.vis with
    | .none => none
    | .all => some arr
    | .fn => some [f]
    | .part => if arr.headD 1 = 0 then some (f :: arr.tail) else none
    | .ctrVis => if arr.headD 1 = 0 && s.img.brimCtrVis f then some (f :: arr.tail) else none
    | .counter =>
      let bank := match quad with
        | some q => 104 * q + arr.getD 0 0
        | none => 416 + arr.getD 0 0
      if s.ctrSeen f bank (arr.getD 1 0) then some arr else none
    | .mirror => if s.rd F.COR_MIR_CTL_PART [q, arr.getD 0 0] = f then some arr else none
    | .strag => if f % 4 = q then some (f :: arr) else none
    | .sampler => if s.rdb F.CTR_PS_CTL_PART_EN [q] && s.rd F.CTR_PS_CTL_PART [q] = f then some arr else none
    | .mitCtx => if s.img.mitOwner (4 * arr.getD 0 0 + q) = some f then some arr else none

/-- The copy of a row that State keeps: with its quadrant, or one copy where only one quadrant's is live. -/
def liveIx (l : Live) (quad : Option Nat) (arr : List Nat) : Option (List Nat) :=
  match l, quad with
  | .trig, some q => if arr.headD 0 % 4 = q then some arr else none
  | .q0, some q => if q = 0 then some arr else none
  | _, some q => some (q :: arr)
  | _, none => some arr

/-- The register of a block that function f reaches at an offset. -/
def State.hitAt (s : State) (f : Nat) (quad : Option Nat) (slot off : Nat) : Option RegHit :=
  let rows := match quad with
    | some _ => regsQuadrant slot
    | none => regsModule slot
  (findRow rows (off / 8 * 8)).bind fun x =>
    (s.seen f quad x.1 x.2).bind fun arr =>
      (liveIx x.1.live quad arr).map fun ix => { quad := quad, slot := slot, row := x.1, ix := ix, arr := arr }

/-- What a BAR0 offset names. -/
inductive Place where
  | reg (f : Nat) (h : RegHit)
  | brim (p w : Nat)
  | window (off : Nat)
  | nothing
  deriving DecidableEq, Repr

/-- Offset o of the image of partition p (R567), or of PF0's blocks for p = 0. -/
def State.blockPlace (s : State) (f : Nat) (quad : Option Nat) (slot off : Nat) : Place :=
  if quad = none && slot = 2 then
    (if f = 0 then (if off < 0x800 then .brim (off / 0x40) (off / 8 % 8) else .nothing)
     else if off < 0x40 then .brim f (off / 8) else .nothing)
  else match s.hitAt f quad slot off with
    | some h => .reg f h
    | none => .nothing

/-- The image of partition p. -/
def State.imagePlace (s : State) (p o : Nat) : Place :=
  if !s.img.brimValid p then .nothing
  else if o < 0xD0000 then s.blockPlace p none (o / 0x10000) (o % 0x10000)
  else if o < 0x100000 then .nothing
  else
    let q := (o - 0x100000) / 0xC0000
    let r := (o - 0x100000) % 0xC0000
    if q < 4 then s.blockPlace p (some q) (r / 0x10000) (r % 0x10000) else .nothing

/-- PF0's BAR0. -/
def State.pf0Place (s : State) (o : Nat) : Place :=
  if o < 0xD0000 then s.blockPlace 0 none (o / 0x10000) (o % 0x10000)
  else if 0x2000000 ≤ o && o < 0x3000000 then .window (o - 0x2000000)
  else if 0x4000000 ≤ o && o < 0x8000000 then
    let r := o % 0x1000000
    if r < 0xC0000 then s.blockPlace 0 (some (o / 0x1000000 - 4)) (r / 0x10000) (r % 0x10000) else .nothing
  else if 0x8000000 ≤ o && o < 0x8000000 + 31 * 0x400000 then
    s.imagePlace ((o - 0x8000000) / 0x400000 + 1) (o % 0x400000)
  else .nothing

/-- What function f reaches at a BAR0 offset. -/
def State.bar0Place (s : State) (f o : Nat) : Place := if f = 0 then s.pf0Place o else s.imagePlace f o

/-- An offset of PF0's BAR0 in the image of a partition. -/
def imageOffset (o : Nat) : Bool := decide (0x8000000 ≤ o)

/-! ## Reading -/

/-- D2 for partition p, or D3 (R510). -/
def State.grants (s : State) (p : Nat) : Bool :=
  s.rd F.DBG_LEVEL_LEVEL [] == 3 || (s.rd F.DBG_LEVEL_LEVEL [] == 2 && s.rd F.DBG_LEVEL_PART [] == p)

/-- The value of a straggler field for the selection that a function has made in a quadrant: tables of the selected
partition, in the block of its trigger quadrant. -/
def State.stragRead (s : State) (f : Nat) (fld : Fld) (ix : List Nat) : Nat :=
  let p := if f = 0 then s.rd F.SEQ_STRAG_SEL_PART ix else f
  if p % 4 ≠ ix.headD 0 then 0
  else s.rd fld [p, s.rd F.SEQ_STRAG_SEL_TABLE ix, s.rd F.SEQ_STRAG_SEL_ACC ix]

/-- YOF_STAT.STATE (R572): 0 OFF, 1 BOOTING, 2 RUNNING, 3 STOPPED in P2. -/
def State.yofState (s : State) : Nat :=
  if s.rdb F.HAT_YOF_RESETTING [] then 1 else if s.rdb V.YOF_ON [] then 2 else if s.pstate = 2 then 3 else 0

/-- Fields that show state kept elsewhere. -/
def State.computed (s : State) (f : Nat) (fld : Fld) (ix : List Nat) : Option Nat :=
  let a := ix.getD 0 0
  let b := ix.getD 1 0
  let c := ix.getD 2 0
  if fld = F.GLB_DEVICE_DEVICE then some (leAt deviceId (8 * a) 8)
  else if fld = F.GLB_FN_FN || fld = F.GLB_FN_PART then some f
  else if fld = F.GLB_FN_VALID then some 1
  else if fld = F.GLB_STATUS_STEP then some (s.rd F.HAT_BOOT_STEP [])
  else if fld = F.GLB_STATUS_PSTATE then some s.pstate
  else if fld = F.GLB_STATUS_LC then some (s.rd F.SEC_LC_STATE [])
  else if fld = F.GLB_STATUS_DEBUG then some (s.rd F.DBG_LEVEL_LEVEL [])
  else if fld = F.GLB_STATUS_QUAD_UP then
    some ((List.range 4).foldl (fun n q => if s.rdb V.QRESET [q] then n else setBit n q) 0)
  else if fld = F.GLB_STATUS_HOLD then some (s.rd F.TRY_STAGE_HOLD [])
  else if fld = F.GLB_STATUS_OWNER then some (b2n (s.rd F.TRY_OWN_ROLE [] == 2))
  else if fld = F.GLB_TIME_NS then some (s.timeNs % 2 ^ 64)
  else if fld = F.XPT_EPOCH_INFLIGHT_A then some (min (s.inflight a 0) (2 ^ 20 - 1))
  else if fld = F.XPT_EPOCH_INFLIGHT_B then some (min (s.inflight a 1) (2 ^ 20 - 1))
  else if fld = F.YOF_FW_SVN then some (if s.yofState = 0 then 0 else leAt (s.flashBytes 0x40000 128) 8 4)
  else if fld = F.YOF_FW_BUILD then some (if s.yofState = 0 then 0 else leAt (s.flashBytes 0x40080 4) 0 4)
  else if fld = F.YOF_STAT_STATE then some s.yofState
  else if fld = F.YOF_STAT_UPTIME_S then
    some (if s.yofRuns then min ((s.timeNs - s.rd V.YOF_BOOT_NS []) / 10 ^ 9) (2 ^ 32 - 1) else 0)
  else if fld = F.HAT_RESET_BUSY then
    some (b2n (s.rdb V.MRESET [] || (List.range 4).any fun q => s.rdb V.QRESET [q] || s.rdb F.SLT_SWEEP_ACTIVE [q]))
  else if fld = F.DBG_LEVEL_REMAIN_S then
    some (if 2 ≤ s.rd F.DBG_LEVEL_LEVEL [] then min ((s.rd V.GRANT_END [] - s.timeNs) / 10 ^ 9) (2 ^ 32 - 1) else 0)
  else if fld = F.ERR_READ_DATA_DATA then
    some (bitsOf ((if s.rdb F.ERR_READ_SRC [] then s.hatLog else s.errLog).getD (s.rd F.ERR_READ_INDEX []) 0) (64 * a) 64)
  else if fld = F.COR_BUF_FREE then some (s.freeShared a)
  else if fld = F.COR_QDEPTH_CELLS then some (s.depth a b c)
  else if fld = F.COR_UQUOTA_USE_CELLS then some (s.uCells a b)
  else if fld = F.COR_UQUOTA_USE_AT_QUOTA then some (b2n (s.atQuota a b))
  else if fld = F.LNK_CRED_TX_AVAIL then some (s.txAvail a b c)
  else if fld = F.LNK_CRED_RX_OUT then some (s.promised a b c)
  else if fld = F.LNK_CRED_STARVED then some (b2n (s.starved a b c))
  else if fld = F.SLT_PART_CAP_SPILL_CAP then some (s.img.spillCap b a)
  else if fld = F.SLT_PART_CAP_CAP then some (s.img.slotCap b a)
  else if fld = F.SLT_PART_CAP_LIMIT then some (s.img.slotLimit b)
  else if fld = F.SLT_PART_USE_RESIDENT then some (s.residentCount a b)
  else if fld = F.SLT_PART_USE_SPILLED then some (s.spilledCount a b)
  else if fld = F.SLT_PART_USE_ADMITTED then some (s.admittedCount a b)
  else if fld = F.SLT_PAGER_STAT_STALLED then some (s.rd V.PAGER_STOP [a])
  else if fld = F.SLT_PAGER_STAT_PENDING then some (min (s.pagerPending a) 0xFFFF)
  else if fld = F.SEQ_STRAG_SEL_PART then some (if f = 0 then s.rd fld ix else f)
  else if fld = F.UPD_PART_STEP_EARLY then some (b2n (s.updEarly a))
  else if fld = F.SEQ_STRAG_DATA0_LAST then some (s.stragRead f V.STRAG_LAST ix)
  else if fld = F.SEQ_STRAG_DATA0_LAG_MAX then some (s.stragRead f V.STRAG_LAG_MAX ix)
  else if fld = F.SEQ_STRAG_DATA1_LAG_SUM then some (s.stragRead f V.STRAG_LAG_SUM ix)
  else if fld = F.SEQ_STRAG_DATA1_OVF then some (s.stragRead f V.STRAG_LAG_OVF ix)
  else if fld = F.MIT_CTX_STATE0 || fld = F.MIT_CTX_STATE1 then
    some (match SMap.find [4 * b + a, if fld = F.MIT_CTX_STATE0 then 0 else 1] s.mit with
      | some r => r.st
      | none => 0)
  else if fld = F.MIT_CTX_ACTIVE then
    some (match s.img.ctx (4 * b + a) with
      | some (_, e) => b2n (s.ctxActive e)
      | none => 0)
  else if fld = F.MIT_CTX_PART then some ((s.img.mitOwner (4 * b + a)).getD 0)
  else if fld = F.PRK_QUEUE_DEPTH then some (s.parked a).length
  else if fld.id < 415 && 407 ≤ fld.id && s.rdb V.SEL_NEXT (if fld.id < 411 then 4 :: ix else ix) then
    let x := s.rd V.SEL_NEXT (if fld.id < 411 then 4 :: ix else ix) - 1
    some (bitsOf x ([0, 8, 13, 14].getD ((fld.id - 407) % 4) 0) fld.w)
  else if fld = F.CTR_PS_STAT_HELD then some (SMap.get s.psBuf [a] []).length
  else if fld = F.CTR_PS_READ_INDEX then some (s.rd fld (if f = 0 then [a] else [a, f]))
  else if fld = F.CTR_PS_DATA_DATA then
    some (bitsOf ((SMap.get s.psBuf [a] []).getD (s.rd F.CTR_PS_READ_INDEX (if f = 0 then [a] else [a, f])) 0) (64 * b) 64)
  else none

/-- The value of a field as function f reads it: of an RW-K field, before the commit edge of the cycle (R570). -/
def State.fieldRead (s : State) (f : Nat) (fld : Fld) (ix : List Nat) : Nat :=
  (if s.rwkNow fld ix then s.rd V.RWK_OLD (fld.id :: ix) % 2 ^ 64 else (s.computed f fld ix).getD (s.rd fld ix)) % 2 ^ fld.w

/-- PF0's view of a tenant's counter at D0 reads 0 (R543). -/
def State.counterHidden (s : State) (h : RegHit) (direct : Bool) : Bool :=
  let ix := h.ix
  let tenant := fun e p : Fld => s.rdb e ix && s.rdb p ix
  direct && s.rd F.DBG_LEVEL_LEVEL [] == 0 && h.slot == 11 && h.row.vis == .counter
    && ((h.quad.isSome && h.row.off == 0x40 && tenant F.CTR_SEL_PART_EN F.CTR_SEL_PART)
      || (h.quad.isNone && h.row.off == 0x40 && tenant F.CTRM_SEL_PART_EN F.CTRM_SEL_PART))

/-- Registers that PF0 does not read in an image below D2 for its partition (R568). -/
def imageHidden (h : RegHit) : Bool :=
  (h.slot == 11 && (h.row.off == 0x40 || (h.quad.isSome && h.row.off == 0x4018)))
    || (h.slot == 4 && h.quad.isSome && (h.row.off == 0x2408 || h.row.off == 0x2410))

/-- The value of a register as function f sees it: WO fields read 0. -/
def State.regRead (s : State) (f : Nat) (h : RegHit) : Nat :=
  h.row.fields.foldl (fun n r => if r.acc = .wo then n else n + s.fieldRead f r.fld h.ix * 2 ^ r.lo) 0

/-- The bits of word w of a Brim entry that hold fields of R61. -/
def brimMask (w : Nat) : Nat :=
  if w = 0 then 0x1F else if w = 1 || w = 2 || w = 4 then 2 ^ 64 - 1 else if w = 3 then 0xFFFF else if w = 5 then 2 ^ 48 - 1 else 0

/-- What a debug window access reaches (R573): memories whose clocks run, in P0 and P1 (R512). -/
def State.windowServed (s : State) (a n : Nat) (write : Bool) : Bool :=
  let sp := s.rd F.DBG_WIN_CTL_SPACE []
  let q := s.rd F.DBG_WIN_CTL_QUAD []
  let p := s.rd F.DBG_WIN_CTL_PART []
  let l := s.rd F.DBG_LEVEL_LEVEL []
  let d := s.rd F.DBG_LEVEL_PART []
  let mapped := match s.place p a n with
    | some ps => s.placesAlive ps
    | none => false
  s.clocked && (!write || l == 3 || s.rdb F.DBG_LEVEL_WRITE []) &&
    (match sp with
      | 0 => mapped && (l == 3 || (l == 2 && p == d))
      | 1 => decide (a + n ≤ 2 ^ 28) && (l == 3 || (l == 2 && (s.slotsOf q d).any fun kv => kv.2.res == .frame (a / 8192)))
      | 2 => l == 3 || (l == 2 && s.img.mitOwner (4 * (a / 4096) + q) == some d)
      | 3 => l == 3
      | 4 => l == 3
      | _ => false)

/-- A window read: its completion status and value.  The layouts of the SRAMs of SPACE 2 to 4 are not stated, so their
bytes are free values. -/
def State.windowRead (s : State) (off n : Nat) : State × Nat × Nat :=
  let a := s.rd F.DBG_WIN_CTL_BASE [] * 2 ^ 24 + off
  let p := s.rd F.DBG_WIN_CTL_PART []
  let q := s.rd F.DBG_WIN_CTL_QUAD []
  if !s.windowServed a n false then (s, 0, 0)
  else match s.rd F.DBG_WIN_CTL_SPACE [] with
    | 0 => match s.memRead p a n with
      | .ok d => (s.noteRead 0x09 p a n, 0, ofLE d)
      | _ => (s.noteRead 0x09 p a n, 2, 0)
    | 1 => (s.slabSpan q a n (s.rd F.DBG_LEVEL_PART []), 0, leAt (s.slabRead q (a / 16 * 16) 16) (a % 16) n)
    | _ => (s.freshen, 0, Config.free s.free 0 % 2 ^ (8 * n))

/-- A window write. -/
def State.windowWrite (s : State) (off n v : Nat) : State :=
  let a := s.rd F.DBG_WIN_CTL_BASE [] * 2 ^ 24 + off
  let p := s.rd F.DBG_WIN_CTL_PART []
  let q := s.rd F.DBG_WIN_CTL_QUAD []
  if !s.windowServed a n true then s
  else match s.rd F.DBG_WIN_CTL_SPACE [] with
    | 0 => (((s.noteMerge p a n).memWrite p a (leBytes n v)).getD s).hostWrote p a n
    | 1 =>
      let old := s.slabRead q (a / 16 * 16) 16
      (s.slabSpan q a n (s.rd F.DBG_LEVEL_PART [])).slabWrite q (a / 16 * 16) (old.take (a % 16) ++ leBytes n v ++ old.drop (a % 16 + n))
    | _ => s

/-- A read of all 64 bits at an 8-byte-aligned offset, or of n window bytes: state after it, completion status, value.
A read of DBG_CHAL0 draws a challenge (R510). -/
def State.bar0Value (s : State) (f o n : Nat) : State × Nat × Nat :=
  match s.bar0Place f o with
  | .nothing => (s, 0, 0)
  | .brim p w => (s, 0, s.img.le 0x0E 4 0 (64 * p + 8 * w) 8 &&& brimMask w)
  | .window off => s.windowRead off n
  | .reg g h =>
    let viaImage := f == 0 && imageOffset o
    if s.counterHidden h (f == 0 && !viaImage) || (viaImage && imageHidden h && !s.grants g) then (s, 0, 0)
    else if h.slot = 9 && h.row.off = 8 && h.arr = [0] then
      let s := s.challengeRead
      (s, 0, s.regRead g h)
    else (s, 0, s.regRead g h)

/-! ## Writing (R11 to R15, R520, R594) -/

/-- The stored value of an RW field: the nearest in its range. -/
def clampTo (r : Option (Nat × Nat)) (v : Nat) : Nat :=
  match r with
  | some (lo, hi) => max lo (min hi v)
  | none => v

/-- A write: value v over bits [lo, hi). -/
structure RegWrite where
  v : Nat
  lo : Nat
  hi : Nat
  deriving DecidableEq, Repr

/-- The write covers part of a field. -/
def RegWrite.covers (w : RegWrite) (r : FieldRow) : Bool := decide (r.lo < w.hi) && decide (w.lo < r.lo + r.fld.w)

/-- The bits of the write, in place. -/
def RegWrite.bits (w : RegWrite) : Nat := bitsOf w.v 0 (w.hi - w.lo) * 2 ^ w.lo

/-- The bits that a field holds or takes once the write is merged into its register: a WO or W1C field takes them only when
the write covers it. -/
def State.fieldNew (s : State) (h : RegHit) (w : RegWrite) (r : FieldRow) : Nat :=
  match r.acc with
  | .rw => bitsOf (putBits (s.rd r.fld h.ix * 2 ^ r.lo) w.lo (w.hi - w.lo) w.v) r.lo r.fld.w
  | .wo | .w1c | .w1s => bitsOf w.bits r.lo r.fld.w
  | .ro | .rwk => s.rd r.fld h.ix

/-- The register's bits after the merge. -/
def State.merged (s : State) (h : RegHit) (w : RegWrite) : Nat :=
  h.row.fields.foldl (fun n r => n + s.fieldNew h w r * 2 ^ r.lo) 0

/-- One field of a register with no action of its own. -/
def State.fieldWrite (s : State) (h : RegHit) (w : RegWrite) (r : FieldRow) : State :=
  if !w.covers r then s
  else match r.acc with
    | .rw => s.hostWr r.fld h.ix (clampTo r.range (s.fieldNew h w r))
    | .w1c => if s.fieldNew h w r != 0 then s.lower r.fld h.ix else s
    | .w1s => if s.fieldNew h w r != 0 then s.wr r.fld h.ix 1 else s
    | .ro | .wo | .rwk => s

/-- Every field in turn. -/
def State.plainWrite (s : State) (h : RegHit) (w : RegWrite) : State :=
  h.row.fields.foldl (fun t r => t.fieldWrite h w r) s

/-- A VALID bit that also clears MORE, unless an event of the same cycle keeps it set (R15). -/
def State.validWrite (s : State) (h : RegHit) (w : RegWrite) (valid : Fld) (bit : Nat) (more : Fld) : State :=
  let s' := s.plainWrite h w
  if bitOf w.bits bit && !s.raisedNow valid h.ix then s'.wr more h.ix 0 else s'

/-- A tray cartridge command. -/
def State.cartCmd (s : State) (c op : Nat) : State :=
  match op with
  | 1 => s.cartDrain c
  | 2 => s.cartForce c
  | 3 => s.cartRejoin c
  | _ => s

/-- HAT_RESET (R478). -/
def State.resetCmd (s : State) (v : Nat) : State :=
  if !bitOf v 9 then s
  else match v % 4 with
    | 1 => s.moduleReset (less32 (s.rd V.TJ []) 0x42C80000)
    | 2 => s.quadReset (bitsOf v 2 2)
    | 3 => s.partReset (bitsOf v 4 5) false
    | _ => s

/-- SEC_CMD: OP 1 and 2 fetch their object from host memory; a GO while BUSY is ignored. -/
def State.secCmd (s : State) (v : Nat) : State :=
  if !bitOf v 3 || s.rdb F.SEC_STATUS_BUSY [] then s
  else match v % 8 with
    | 1 | 2 =>
      let s := s.wr F.SEC_STATUS_BUSY [] 1
      if s.hostOk 0 then s else (s.hostFail 0).secDone 5
    | 3 => (s.wr F.SEC_STATUS_BUSY [] 1).firmwareFloor
    | 4 => (s.wr F.SEC_STATUS_BUSY [] 1).knitFloor
    | _ => s

/-- DBG_CMD: OP 2 fetches the token from host memory. -/
def State.dbgCmd (s : State) (v : Nat) : State :=
  if !bitOf v 2 || s.rdb F.DBG_STATUS_BUSY [] then s
  else match v % 4 with
    | 1 => s.requestD1 false
    | 2 =>
      let s := s.wr F.DBG_STATUS_BUSY [] 1
      if s.hostOk 0 then s else (s.hostFail 0).dbgDone 8
    | 3 => s.debugRelease
    | _ => s

/-- A select written: it takes effect at the next cycle (R543). -/
def State.selectWrite (s : State) (ix : List Nat) (w : RegWrite) : State :=
  if w.lo = 0 then s.wr V.SEL_NEXT ix (1 + w.v % 2 ^ 15) else s

/-- A write of a module-wide register: those that act, with what the write makes of the register in m.  DEDUCED (log entry 69): the table of R119 has
XPT_INJ_THR.OFF below ON, so by R594 an OFF at or above ON is stored as ON - 1. -/
def State.moduleWrite (s : State) (h : RegHit) (w : RegWrite) (m : Nat) : State :=
  match h.slot, h.row.off with
  | 1, 0x10 =>
    let f := h.ix.headD 0
    (match m % 4 with
      | 1 => s.knitLoad f
      | 2 => s.knitAbort f
      | 3 => s.knitCommit f
      | _ => s)
  | 3, 0x18 =>
    let s := s.plainWrite h w
    (s.wr F.XPT_INJ_THR_OFF [] (min (s.rd F.XPT_INJ_THR_OFF []) (s.rd F.XPT_INJ_THR_ON [] - 1))).injSweep
  | 4, 0x300 => s.kegusTestWrite 0 m
  | 4, 0x308 => s.kegusTestWrite 1 m
  | 4, 0x310 => s.kegusTestWrite 2 m
  | 6, 0x10 => if bitOf m 2 then s.powerRequest (m % 4) else s
  | 6, 0x20 => s.resetCmd m
  | 6, 0x28 => if bitOf m 0 then s.loadtestRun else s
  | 7, 0 => if bitOf m 7 then s.trayYield else s
  | 7, 0x280 => (s.plainWrite h w).dutyForced
  | 7, 0x308 => s.accGo m
  | 7, 0x318 => s.trayInject m
  | 7, 0x440 => if bitOf m 5 then s.cartCmd (bitsOf m 0 3) (bitsOf m 3 2) else s
  | 7, 0x448 => (s.plainWrite h w).ledAll
  | 8, 0x10 => s.secCmd m
  | 9, 0x20 => s.dbgCmd m
  | 11, 0x0 => s.selectWrite (4 :: h.ix) w
  | 11, 0x1000 => s.counterClear m
  | 12, 0x8 => s.injectEnable m
  | 12, 0x10 => s.errorInject m
  | _, _ => s.plainWrite h w

/-- MOV_CH_CTL: PAUSE, RESUME, ABORT and ERR in this order. -/
def State.movCtl (s : State) (ix : List Nat) (m : Nat) : State :=
  let q := ix.getD 0 0
  let p := ix.getD 1 0
  let c := ix.getD 2 0
  let s := if bitOf m 0 then s.movPauseCmd q p c 0 else s
  let s := if bitOf m 1 then s.movResumeCmd q p c 0 else s
  let s := if bitOf m 2 then s.movAbortCmd q p c 0 else s
  if bitOf m 3 then s.movErrClear q p c else s

/-- SEQ_RING_CTL: clearing ERR restarts the ring, and an enabled ring fetches its head. -/
def State.ringCtl (s : State) (h : RegHit) (w : RegWrite) : State :=
  let q := h.ix.getD 0 0
  let p := h.ix.getD 1 0
  let e := h.ix.getD 2 0
  let was := s.rdb F.SEQ_RING_CTL_EN h.ix
  let clear := bitOf w.bits 10
  let err := s.rd F.SEQ_RING_CTL_ERR h.ix
  let s := (s.plainWrite h w).wr F.SEQ_RING_CTL_ERR h.ix err
  if clear then s.ringErrClear q p e
  else if !was && s.rdb F.SEQ_RING_CTL_EN h.ix then s.ringCheck q p e
  else s

/-- A write of a register of a quadrant block by function f.  A doorbell of a partition whose reset is in progress is dropped (R536). -/
def State.quadWrite (s : State) (f : Nat) (h : RegHit) (w : RegWrite) (m : Nat) : State :=
  let q := h.quad.getD 0
  let a := h.ix.getD 1 0
  let b := h.ix.getD 2 0
  let low := decide (w.lo = 0)
  match h.slot, h.row.off with
  | 0, 0x0 => if bitOf m 36 then s.lowClr q else s
  | 0, 0x1000 => if bitOf m 36 then s.peakClr q a b else s
  | 0, 0x3000 => s.mirCtlWrite q a m
  | 1, 0x0 =>
    let s := if low then s.enWrite q a (m % 2) else s
    s.retrainWrite q a m
  | 1, 0x1010 => s.linkInject q m
  | 4, 0x8 => s.ringCtl h w
  | 4, 0x10 => if low && !s.partResetting a then s.ringDoorbell q a b (m % 2 ^ 32) else s
  | 4, 0x2300 => s.validWrite h w F.SEQ_ABORT_VALID 63 F.SEQ_ABORT_MORE
  | 4, 0x2400 =>
    let s := s.plainWrite h w
    if f = 0 then s else s.wr F.SEQ_STRAG_SEL_PART h.ix f
  | 4, 0x2410 =>
    let p := if f = 0 then s.rd F.SEQ_STRAG_SEL_PART h.ix else f
    if bitOf m 48 && p % 4 == q then
      s.lower V.STRAG_LAG_OVF [p, s.rd F.SEQ_STRAG_SEL_TABLE h.ix, s.rd F.SEQ_STRAG_SEL_ACC h.ix]
    else s
  | 4, 0x2418 =>
    let p := if f = 0 then s.rd F.SEQ_STRAG_SEL_PART h.ix else f
    if bitOf m 0 && p % 4 == q then s.stragClear p else s
  | 7, 0x0 =>
    let en := s.rd F.MIT_CTL_NOTICE_EN h.ix
    let s := (s.plainWrite h w).wr F.MIT_CTL_NOTICE_EN h.ix en
    if low then s.noticeEnWrite (bitsOf m 10 1) else s
  | 7, 0x8 => if bitOf m 11 then s.mitRoleSet (bitsOf m 0 10) (bitsOf m 10 1) else s
  | 7, 0x10 => s.validWrite h w F.MIT_ABORT_VALID 63 F.MIT_ABORT_MORE
  | 8, 0x80 => s.validWrite h w F.HBM_ERR_LOG_VALID 13 F.HBM_ERR_LOG_MORE
  | 8, 0x98 => s.hbmRetireCmd q m
  | 8, 0x300 => s.hbmInject q m
  | 9, 0x0 => if bitOf m 18 then s.wr F.PRK_QUEUE_PEAK [q] (s.parked q).length else s
  | 10, 0x0 => s.movCtl h.ix m
  | 10, 0x100 => if low then s.evtWrite q a b (m % 2 ^ 32) else s
  | 11, 0x0 => s.selectWrite h.ix w
  | 11, 0x4000 => s.samplerCtl q m
  | 11, 0x4010 => if low then s.wr F.CTR_PS_READ_INDEX (if f = 0 then [q] else [q, f]) (m % 2 ^ 12) else s
  | _, _ => s.plainWrite h w

/-- A VF writes only copies that serve its function or partition: of counters only OVF, of the sampler only its INDEX,
of a mirror session only CONS (R520, R543). -/
def vfMayWrite (h : RegHit) : Bool :=
  match h.row.vis with
  | .part | .fn | .ctrVis | .mirror | .strag => true
  | .counter => h.row.off == 0x40
  | .sampler => h.row.off == 0x4010
  | .none | .all | .mitCtx => false

/-- A write of n bytes at a BAR0 offset, aligned. -/
def State.bar0Store (s : State) (f o n v : Nat) : State :=
  match s.bar0Place f o with
  | .nothing => s
  | .brim _ _ => s
  | .window off => s.windowWrite off n v
  | .reg g h =>
    let viaImage := f == 0 && imageOffset o
    let d3 := s.rd F.DBG_LEVEL_LEVEL [] == 3
    if viaImage && !(d3 || (s.grants g && s.rdb F.DBG_LEVEL_WRITE [])) then s
    else if g ≠ 0 && !vfMayWrite h then s
    else
      let lo := if o % 8 = 4 then 32 else 0
      let w : RegWrite := { v := v, lo := lo, hi := lo + 8 * n }
      let m := s.merged h w
      if h.quad.isSome then s.quadWrite g h w m else s.moduleWrite h w m

/-! ## The commands -/

/-- A BAR0 access that R519 does not accept. -/
def badAccess (o n : Nat) : Bool := !(n == 4 || n == 8) || o % n != 0

/-- Another BAR0 access of a function ends the hold of a latched high half; in P2 it starts the Yofen (R469, R569). -/
def State.bar0Touch (s : State) (f : Nat) : State := s.yofDemand.wr V.SPLIT_OK [f] 0

/-- REGISTER_WRITE: n bytes of v at offset o of the BAR0 of function f. -/
def State.registerWrite (s : State) (f o n v : Nat) : State :=
  if !s.pciUp then s
  else
    let s := (s.countModule 0 16 0 1).bar0Touch f
    if badAccess o n then s.raise F.PCI_FN_STAT_BADACC [f] else s.bar0Store f o n v

/-- A read of n bytes at offset o, aligned: state after it, completion status, value.  A 4 B read of the low half of a register
latches the high half; the function's next read, of that high half, returns what was latched (R569). -/
def State.bar0Load (s : State) (f o n : Nat) : State × Nat × Nat :=
  let held := s.rdb V.SPLIT_OK [f] && n == 4 && o == s.rd V.SPLIT_OFF [f] + 4
  let hi := s.rd V.SPLIT_HI [f]
  let s := s.bar0Touch f
  if held then (s, 0, hi)
  else
    let inWin := f == 0 && decide (0x2000000 ≤ o) && decide (o < 0x3000000)
    let (t, st, v) := s.bar0Value f o n
    if st ≠ 0 then (t, st, 0)
    else if inWin || n = 8 then (t, 0, v)
    else if o % 8 = 4 then (t, 0, v / 2 ^ 32)
    else (((t.wr V.SPLIT_OFF [f] o).wr V.SPLIT_HI [f] (v / 2 ^ 32)).wr V.SPLIT_OK [f] 1, 0, v % 2 ^ 32)

/-- A BAR0 read of n bytes: its completion. -/
def State.registerRead (s0 : State) (f o n : Nat) : State :=
  let s := s0.countModule 0 16 0 1
  if !s0.pciUp then s0
  else if badAccess o n then
    (((s.bar0Touch f).raise F.PCI_FN_STAT_BADACC [f]).tlp (.completion f 1 [])).aer f 0
  else
    let (t, st, v) := s.bar0Load f o n
    if st ≠ 0 then (t.tlp (.completion f st [])).aer f 0 else t.tlp (.completion f 0 (leBytes n v))

/-- DEBUG_WINDOW_ACCESS: n bytes at window offset o, read or written by PF0. -/
def State.debugWindow (s : State) (write : Bool) (o n v : Nat) : State :=
  if write then s.registerWrite 0 (0x2000000 + o) n v else s.registerRead 0 (0x2000000 + o) n

/-- CHALLENGE_READ: PF0 reads DBG_CHAL0. -/
def State.chalRead (s : State) : State := s.registerRead 0 0x90008 8

/-- LEVEL, PART and WRITE of the grant held. -/
def State.grantWord (s : State) : Nat :=
  s.rd F.DBG_LEVEL_LEVEL [] + 4 * s.rd F.DBG_LEVEL_PART [] + 128 * s.rd F.DBG_LEVEL_WRITE []

def State.grantPut (s : State) (x : Nat) : State :=
  ((s.wr F.DBG_LEVEL_LEVEL [] (x % 4)).wr F.DBG_LEVEL_PART [] (bitsOf x 2 5)).wr F.DBG_LEVEL_WRITE [] (bitsOf x 7 1)

/-- The effect of f under the grant x: a level that f leaves alone is afterwards what it is now. -/
def State.underGrant (s : State) (x : Nat) (f : State → State) : State :=
  let t := f (s.grantPut x)
  if t.grantWord = x then t.grantPut s.grantWord else t

/-- What a DBG_ACCESS may reach at the current level: D1 only reads registers; in P3 the sentinel serves D1 and only the
Hatband's registers and its log (R512, R574; log entry 57). -/
def State.dbgMay (s : State) (o : Nat) (write : Bool) : Bool :=
  let win := decide (0x2000000 ≤ o) && decide (o < 0x3000000)
  let hat := o / 0x10000 == 6 || o / 0x10000 == 7 || (o / 0x10000 == 12 && decide (0x20 ≤ o % 0x10000) && decide (o % 0x10000 < 0x80))
  (decide (2 ≤ s.rd F.DBG_LEVEL_LEVEL []) && decide (s.pstate < 3)) || (!write && !win && (decide (s.pstate < 3) || hat))

/-- What the TAP shifts out of the DBG_ACCESS register: STATUS, and the data of the previous read. -/
def State.dbgaShow (s : State) (st : Nat) : State :=
  (s.wr V.DBGA_STATUS [] st).jtagSet 0x22 true (st * 2 ^ 30 + s.rd V.DBGA_DATA [] * 2 ^ 32)

/-- DBG_ACCESS: the 96 bits shifted in.  It needs D1 (R511); while the previous one has not completed it acts on nothing. -/
def State.dbgAccess (s : State) (bits : Nat) : State :=
  if s.rd F.DBG_LEVEL_LEVEL [] = 0 then s.jtagBypass
  else if s.rdb V.DBGA_REQ [] then s.dbgaShow 3
  else if badAccess (bitsOf bits 0 28) (if bitOf bits 29 then 8 else 4) || !s.dbgMay (bitsOf bits 0 28) (bitOf bits 28) then s.dbgaShow 1
  else ((s.wr V.DBGA_REQ [] (1 + bits)).wr V.DBGA_GRANT [] s.grantWord).jtagSet 0x22 true
    (s.rd V.DBGA_STATUS [] * 2 ^ 30 + s.rd V.DBGA_DATA [] * 2 ^ 32)

/-- The access of a DBG_ACCESS. -/
def State.dbgaRun (s : State) (bits : Nat) : State :=
  let o := bitsOf bits 0 28
  let n := if bitOf bits 29 then 8 else 4
  if bitOf bits 28 then ((s.bar0Touch 0).bar0Store 0 o n (bitsOf bits 32 64)).wr V.DBGA_STATUS [] 0
  else
    let (t, st, d) := s.bar0Load 0 o n
    (t.wr V.DBGA_STATUS [] st).wr V.DBGA_DATA [] (if st = 0 then d else s.rd V.DBGA_DATA [])

/-- The DBG_ACCESS in progress acts as a PF0 access, after the PCIe accesses of its cycle (R570), under the grant it began with (R513). -/
def State.dbgAccessDue (s : State) : State :=
  let n := s.rd V.DBGA_REQ []
  if n = 0 then s else (s.wr V.DBGA_REQ [] 0).underGrant (s.rd V.DBGA_GRANT []) fun t => t.dbgaRun (n - 1)

/-- PLDM_EFFECTER_WRITE: an item of R535, 0 HOST_CAP_W, 1 to 8 FORCE_DUTY, 9 the power state, 10 to 17 the cartridges (1 drain,
3 rejoin); the sentinel takes only the power state.  It acts as the register write from PF0. -/
def State.pldmWrite (s : State) (i v : Nat) : State :=
  if i = 9 then (if s.hatOn then s.powerRequest (v % 4) else s)
  else
    let s := s.yofDemand
    if !s.yofRuns then s
    else if i = 0 then s.wr F.TRY_CAP_HOST_CAP_W [] v
    else if i < 9 then (s.wr F.TRY_PWM_FORCE_DUTY [i - 1] v).dutyForced
    else if v = 1 || v = 3 then s.cartCmd (i - 10) v
    else s

/-! ## The clock -/

/-- The links of a quadrant that runs go on by one cycle of 625 ps: its ports' frames (R345). -/
def State.linkCycle (s : State) (q : Nat) : State := if s.quadUp q then (s.bump V.LINK_CYC [q] 1).frameClock q else s

/-- The next core cycle of a quadrant that runs: its wheels, its core's cells, credits and F (R65, R310, R319). -/
def State.quadCycle (s : State) (q : Nat) : State :=
  if s.quadUp q then ((((s.bump V.CYCLE [q] 1).wr V.COR_ADMIT [q] 0).bankEnds q).wheelCycle q).coreCycle q else s

/-- One core-clock cycle passes: what the counters count in it, and the selects written in it; then the time counter, the cycle counters, the links and the sweep of
the next (R475, R543, R546, R552). -/
def State.clockCycle (s : State) (skipped : Bool) : State :=
  let s := (s.countCycle skipped).selectsDue
  ((List.range 4).foldl State.linkCycle (((s.bump V.TIME_PS [] 625).bump F.CTR_LEG_CYCLE_COUNT [] 1).bump V.CLK [] 1)).sweepCycle

/-- Core-clock cycles that the throttle skips before the next one: the first THR of each 256 (R429, log entry 81). -/
def State.skips (s : State) : Nat := s.rd F.TRY_CAP_THR [] - s.rd V.CLK [] % 256

/-- The next core cycle in which work advances, after those that the throttle skips. -/
def State.advance (s : State) : State :=
  if s.pstate < 2 then
    (List.range 4).foldl State.quadCycle (((List.range s.skips).foldl (fun t _ => t.clockCycle true) s).clockCycle false)
  else s.selectsDue.bump V.TIME_PS [] 625

/-- A vector held back by its limit of one interrupt per µs, raised once the µs has passed (R194, R337, R411, R557); the key
is that of the register that holds it. -/
def State.dueVector (s : State) (k : List Nat) : State :=
  let due := fun (d t : Fld) => k.headD 0 == d.id && s.rdb d k.tail && decide (s.rd t k.tail ≤ s.timeNs)
  if due V.VEC1_DUE V.VEC1_TIME then s.raiseVec1 (k.getD 1 0)
  else if due V.CQ_VEC_DUE V.CQ_VEC_TIME then s.cqVector (k.getD 1 0) (k.getD 2 0)
  else if due V.MIR_VEC_DUE V.MIR_VEC_TIME then s.mirVector (k.getD 1 0) (k.getD 2 0)
  else if due V.MOV_VEC_DUE V.MOV_VEC_TIME then s.movVector (k.getD 1 0) (k.getD 2 0) (k.getD 3 0)
  else s

/-- Every vector held back. -/
def State.dueVectors (s : State) : State :=
  let ids := [V.VEC1_DUE.id, V.CQ_VEC_DUE.id, V.MIR_VEC_DUE.id, V.MOV_VEC_DUE.id]
  ((s.regs.filter fun kv => ids.contains (kv.1.headD 0)).map fun kv => kv.1).foldl (fun t k => t.dueVector k) s

/-- A step with no command waiting: what the core cycle in progress leaves for its end, the next core cycle, and the vectors that it makes due. -/
def State.tick (s : State) : State :=
  ((List.range 4).foldl State.movRestartDue s.jtagTokenDue.dbgAccessDue.abortsDue.roundsDue.retiresDue).errFlush.advance.dueVectors

end Sys2Proof.Machine
end

