-- ==== Sys2Proof/Machine/Rows.lean ====
section
/-! DEFINITION. What a command does beside its chapter's operation: injected SRAM errors at the write it makes (R558, R559),
host reads that an injection makes fail, and fetched objects (R527); and the run of a command. -/

namespace Sys2Proof.Machine

/-! ## Injected SRAM errors (R559, 0x0A) -/

/-- After the slot of a packet's collective has been written in quadrant q: its slab frame and its directory entry. -/
def State.slotHook (s : State) (q p coll step : Nat) : State :=
  if s.slots.any fun kv => kv.1.take 4 == [q, p, coll, step] then (s.sramHook q 0 p coll step).sramHook q 2 p coll step else s

def State.contribRow (s : State) (q : Nat) (k : Packet) : State :=
  (s.contrib q k).slotHook q (pkPart k) (pkColl k) (pkStep k)

def State.tier0Row (s : State) (q p coll step chunk : Nat) : State :=
  let c := crownQuad p coll chunk
  let s := if q = c then s
    else (s.countLocal q (60 + seamPort q c) 6 p 1).countLocal c (60 + seamPort c q) 7 p 1
  (s.tier0Partial q p coll step chunk).slotHook (crownQuad p coll chunk) p coll step

def State.partialRow (s : State) (q : Nat) (k : Packet) : State :=
  (s.partialReceive q k).slotHook q (pkPart k) (pkColl k) (pkStep k)

/-- BANK_ADMIT writes packet buffer cells. -/
def State.admitRow (s : State) (q i : Nat) : State :=
  let n := (SMap.get s.bufs [q] []).length
  let t := s.bankAdmit q i
  match (SMap.get t.bufs [q] []).getLast? with
  | some h => if n < (SMap.get t.bufs [q] []).length then t.sramHook q 1 (pkPart h.pkt) 0 0 else t
  | none => t

/-- GRAM_UNIT writes the operand store before a unit that starts. -/
def State.gramRow (s : State) (q p : Nat) : State :=
  (if s.gramStarts q p then s.sramHook q 3 p 0 0 else s).gramUnit q p

/-- A packet that a Mitten context takes writes its SRAM. -/
def State.mitRow1 (s : State) (k : Packet) (f : State → Packet → State) : State :=
  let t := f s k
  if (t.roundGet (pkCtx k) (pkSeq k)).isSome then t.sramHook (pkCtx k % 4) 4 (pkPart k) (pkCtx k) (pkSeq k) else t

/-- The update engine of a shard's quadrant runs (R472). -/
def State.shardOn (s : State) (p k : Nat) : Bool :=
  match s.img.shardValid p k with
  | some h => s.engineOn h.quad 1
  | none => true

/-- UPDATE_PASS by an engine that is awake. -/
def State.updatePassRow (s : State) (p k i : Nat) : State := if s.shardOn p k then s.updatePassCmd p k i else s

/-- CHUNK_HANDOFF to an engine that is awake. -/
def State.handoffRow (s : State) (p coll step chunk : Nat) : State :=
  match s.img.collValid p coll with
  | some e => if s.shardOn p e.shard then s.chunkHandoff p coll step chunk else s
  | none => s.chunkHandoff p coll step chunk

/-- ENGINE_GATE: an engine that has had no work gates itself (R472). -/
def State.gateRow (s : State) (q e : Nat) : State := if s.engineIdle q e then s.engineGate q e else s

/-! ## Host reads -/

/-- KNIT_FETCH_COMPLETE. -/
def State.fetchDone (s : State) (bs : List Byte) : State :=
  if s.knitBusy && s.rd V.KNT_WAIT [] = 8 then s.readGate s.knitFn 2 0 0 fun t => t.knitFetched bs else s

/-- SEC_CMD OP 1 or 2, its object fetched from host memory by the Yofen. -/
def State.secFetched (s : State) (run : State → State) : State :=
  let s := s.yofDemand
  if !s.yofRuns then s
  else
    let s := s.wr F.SEC_STATUS_BUSY [] 1
    if s.hostOk 0 then s.readGate 0 3 0 0 run else (s.hostFail 0).secDone 5

/-- SEC_CMD OP 3 or 4. -/
def State.secPlain (s : State) (run : State → State) : State :=
  let s := s.yofDemand
  if !s.yofRuns then s else run (s.wr F.SEC_STATUS_BUSY [] 1)

/-- DBG_CMD OP 2, its token fetched from host memory. -/
def State.tokenFetched (s : State) (bs : List Byte) : State :=
  let s := s.yofDemand
  if !s.yofRuns then s
  else
    let s := s.wr F.DBG_STATUS_BUSY [] 1
    if s.hostOk 0 then s.readGate 0 4 0 0 fun t => t.tokenSubmit bs false else (s.hostFail 0).dbgDone 8

/-- A Mover instruction of a channel that reads host memory. -/
def State.movReadsHost (s : State) (q p c op : Nat) : Bool :=
  match s.movAt q p c op with
  | some (a, _) => s.movIssue q p c && (bitsOf a 8 2 == 1 || (op == 3 && !bitOf a 12 && bitsOf a 10 2 == 1))
  | none => false

def State.moveRow (s : State) (q p c : Nat) (host : List Byte) : State :=
  if s.movReadsHost q p c 1 then s.readGate p 0 q (c + 1) fun t => t.movMove q p c host else s.movMove q p c host

def State.compareRow (s : State) (q p c : Nat) (host : List Byte) : State :=
  if s.movReadsHost q p c 3 then s.readGate p 0 q (c + 1) fun t => t.movCompare q p c host else s.movCompare q p c host

/-! ## The run of a command -/

/-- BAR0 registers are reached: the core rails are on and no module reset runs. -/
def State.barOn (s : State) : Bool := decide (s.pstate < 3) && !s.rdb V.MRESET []

/-- The registers of a quadrant are reached. -/
def State.barQuad (s : State) (q : Nat) : Bool := s.barOn && s.quadUp q

/-- The core of a quadrant runs. -/
def State.quadOn (s : State) (q : Nat) : Bool := s.clocked && s.quadUp q

/-- An engine that is never gated runs in a quadrant (R472). -/
def State.unitOn (s : State) (q : Nat) : Bool := s.unitsOk && s.quadUp q

/-- The state with a queue of waiting commands. -/
def State.withQueue (s : State) (l : List Instr) : State := { s with pending := l }

/-- The run of a command in a state: its effect where its operands name units of the module (ok) and the unit it acts on runs (up);
nothing where no such event can be (log entries 4 and 12).  The queue is no part of the effect. -/
def State.run (s : State) (ok up : Bool) (f : State → State) : Host.Outcome State Fault Refusal :=
  .next (if ok && up then (f s).withQueue s.pending else s)

end Sys2Proof.Machine
end

