-- ==== Sys2Proof/WellFormed.lean ====
section
/-! DEFINITION. Which commands are well formed: their operands name quadrants, ports, partitions, stacks, channels and cartridges
that the module has, and a packet's payload has the length that its PAY_UNITS gives. -/

namespace Sys2Proof

def below (n x : Nat) : Bool := decide (x < n)

def allBelow (n : Nat) (l : List Nat) : Bool := l.all fun x => below n x

def listOf (len n : Nat) (l : List Nat) : Bool := l.length == len && allBelow n l

/-- R72: the payload holds PAY_UNITS units of 64 B. -/
def Packet.wf (k : Packet) : Bool := k.payload.length == 64 * bitsOf k.hdr.toNat 24 6

/-- The slots that a locked slab sequence held: partition, COLL_ID, STEP_TAG, chunk. -/
def busyOk (l : List (Nat × Nat × Nat × Nat)) : Bool :=
  l.all fun b => below 32 b.1 && below (2 ^ 16) b.2.1 && below (2 ^ 32) b.2.2.1 && below (2 ^ 24) b.2.2.2

def Instr.wf : Instr → Bool
  | .registerWrite fn off size _ => below 32 fn && below (2 ^ 28) off && below 16 size
  | .splitReadLow fn off size => below 32 fn && below (2 ^ 28) off && below 16 size
  | .seamCrcError a b => below 4 a && below 4 b
  | .seamDown a b => below 4 a && below 4 b
  | .knitLoad fn => below 32 fn
  | .knitAbort fn => below 32 fn
  | .knitCommit fn => below 32 fn
  | .knitFetchComplete _ => true
  | .groupCommit => true
  | .resyncEnd => true
  | .quietTimeout => true
  | .knitVoteResult => true
  | .voteCommitTimeout => true
  | .borderDrainEnd => true
  | .borderDrainTimeout => true
  | .borderZeroizeEnd mismatch => mismatch.all fun x => decide (x.1 < 4) && decide (x.2 < 64)
  | .packetHeaderArrival q port pkt => below 4 q && below 40 port && pkt.wf
  | .ageExpiry q port => below 4 q && below 40 port
  | .epochFlip p => below 32 p
  | .epochRetire p => below 32 p
  | .resultResendTimer p coll step => below 32 p && below (2 ^ 16) coll && below (2 ^ 32) step
  | .cnackReceive q pkt => below 4 q && pkt.wf
  | .kegusTestWrite reg _ => below 3 reg
  | .contrib q pkt => below 4 q && pkt.wf
  | .admissionRequest q p coll step chunk => below 4 q && below 32 p && below (2 ^ 16) coll && below (2 ^ 32) step && below (2 ^ 24) chunk
  | .admissionReply q p coll step chunk _ => below 4 q && below 32 p && below (2 ^ 16) coll && below (2 ^ 32) step && below (2 ^ 24) chunk
  | .slotReadoutComplete q p coll step chunk => below 4 q && below 32 p && below (2 ^ 16) coll && below (2 ^ 32) step && below (2 ^ 24) chunk
  | .tier0Partial q p coll step chunk => below 4 q && below 32 p && below (2 ^ 16) coll && below (2 ^ 32) step && below (2 ^ 24) chunk
  | .partialDelivered q p coll step chunk => below 4 q && below 32 p && below (2 ^ 16) coll && below (2 ^ 32) step && below (2 ^ 24) chunk
  | .partialReceive q pkt => below 4 q && pkt.wf
  | .resultFromRack q pkt => below 4 q && pkt.wf
  | .publishFromRack q pkt => below 4 q && pkt.wf
  | .pagerSpill q p => below 4 q && below 32 p
  | .pagerRecall q p => below 4 q && below 32 p
  | .pagerSwap q p => below 4 q && below 32 p
  | .pagerOpComplete q => below 4 q
  | .sweepEnd p => below 32 p
  | .slabLockTimeout q bank port req busy => below 4 q && below 128 bank && below 2 port && below 8 req && busyOk busy
  | .ringDoorbell q p e _ => below 4 q && below 32 p && below 5 e
  | .doorbell q pkt => below 4 q && pkt.wf
  | .ringErrClear q p e => below 4 q && below 32 p && below 5 e
  | .cqRecordWrite p k => below 32 p && below 8 k
  | .collective q p _ => below 4 q && below 32 p
  | .armStep q p _ => below 4 q && below 32 p
  | .trigger q p _ => below 4 q && below 32 p
  | .increment q p _ => below 4 q && below 32 p
  | .abortCollective q p _ => below 4 q && below 32 p
  | .stepReplay q p _ => below 4 q && below 32 p
  | .stepReplayEnd p => below 32 p
  | .warm q p _ => below 4 q && below 32 p
  | .done q pkt => below 4 q && pkt.wf
  | .gapNack q pkt => below 4 q && pkt.wf
  | .patienceExpiry p coll step => below 32 p && below (2 ^ 16) coll && below (2 ^ 32) step
  | .reduceForward p n => below 32 p && below 256 n
  | .convertMulticast p n => below 32 p && below 256 n
  | .normContribute p n => below 32 p && below 256 n
  | .updateShard p n => below 32 p && below 256 n
  | .publishOp p n => below 32 p && below 256 n
  | .snapshotOp p n => below 32 p && below 256 n
  | .signalHost p n => below 32 p && below 256 n
  | .incrementOp p n => below 32 p && below 256 n
  | .waitEpoch p n => below 32 p && below 256 n
  | .triggerOpComplete p n => below 32 p && below 256 n
  | .partialResendTimer p coll step chunk => below 32 p && below (2 ^ 16) coll && below (2 ^ 32) step && below (2 ^ 24) chunk
  | .podHoldExpiry p coll step chunk => below 32 p && below (2 ^ 16) coll && below (2 ^ 32) step && below (2 ^ 24) chunk
  | .stragClear p => below 32 p
  | .chunkHandoff p coll step chunk => below 32 p && below (2 ^ 16) coll && below (2 ^ 32) step && below (2 ^ 24) chunk
  | .updatePass p shard chunk => below 32 p && below 4096 shard && below (2 ^ 24) chunk
  | .stepDecided p => below 32 p
  | .stepTimerExpiry p => below 32 p
  | .updateProgressTimeout q => below 4 q
  | .publish q p _ => below 4 q && below 32 p
  | .snapshot q p _ => below 4 q && below 32 p
  | .import_ q p _ => below 4 q && below 32 p
  | .setT q p _ => below 4 q && below 32 p
  | .gramAcc q p _ => below 4 q && below 32 p
  | .matmul q p _ => below 4 q && below 32 p
  | .nsRoot q p _ => below 4 q && below 32 p
  | .nsOrtho q p _ => below 4 q && below 32 p
  | .apply q p _ => below 4 q && below 32 p
  | .gramWaitRelease q p => below 4 q && below 32 p
  | .gramUnit q p => below 4 q && below 32 p
  | .gramProgressTimeout q p => below 4 q && below 32 p
  | .mitMember pkt => pkt.wf
  | .mitRow pkt => pkt.wf
  | .mitColumn pkt => pkt.wf
  | .mitCourier pkt => pkt.wf
  | .mitRoundAbort c _ => below 1024 c
  | .mitPeerResend c _ => below 1024 c
  | .mitCarryResend c _ => below 1024 c
  | .mitRoleSet c role => below 1024 c && below 2 role
  | .noticeEnWrite value => below 2 value
  | .noticeRepeat => true
  | .bankAdmit q input => below 4 q && below 48 input
  | .egressStreamStart q output bank => below 4 q && below 48 output && below 48 bank
  | .packetRelease q output => below 4 q && below 40 output
  | .flushEnd q port => below 4 q && below 40 port
  | .depthBroadcast q => below 4 q
  | .mirCtlWrite q session _ => below 4 q && below 4 session
  | .lowClr q => below 4 q
  | .peakClr q output cls => below 4 q && below 48 output && below 6 cls
  | .linkDownHoldEnd q port => below 4 q && below 40 port
  | .linkSignalDetect q port lanes => below 4 q && below 40 port && below 16 lanes
  | .linkTrainEnd q port => below 4 q && below 40 port
  | .linkAlignDone q port => below 4 q && below 40 port
  | .linkAttemptTimeout q port => below 4 q && below 40 port
  | .linkX2SlotEnd q port => below 4 q && below 40 port
  | .linkRetrainTimeout q port => below 4 q && below 40 port
  | .lcfReceive q port _ => below 4 q && below 40 port
  | .syncReq q port vc _ => below 4 q && below 40 port && below 16 vc
  | .quiet q port => below 4 q && below 40 port
  | .quietAck q port => below 4 q && below 40 port
  | .retrain q port => below 4 q && below 40 port
  | .quietIdleExpiry q port => below 4 q && below 40 port
  | .linkWake q port => below 4 q && below 40 port
  | .peerSignalWake q port => below 4 q && below 40 port
  | .codewordDecode q port _ _ _ _ => below 4 q && below 40 port
  | .creditStarve q port vc => below 4 q && below 40 port && below 16 vc
  | .laneErrorWindow q port => below 4 q && below 40 port
  | .degradeSwitch q port => below 4 q && below 40 port
  | .ucwWindow q port => below 4 q && below 40 port
  | .lcfLoss q port => below 4 q && below 40 port
  | .linkRetrainWrite q port _ => below 4 q && below 40 port
  | .linkEnWrite q port _ => below 4 q && below 40 port
  | .linkInject q _ => below 4 q
  | .patrolScrub q stack => below 4 q && below 6 stack
  | .hbmRetire q stack channel _ => below 4 q && below 6 stack && below 16 channel
  | .hbmRetireCmd q _ => below 4 q
  | .spareRemapEnd q ext => below 4 q && below 64 ext
  | .hbmLockTimeout q stack pc req => below 4 q && below 6 stack && below 32 pc && below 8 req
  | .hbmInject q _ => below 4 q
  | .parkWrite q pkt => below 4 q && pkt.wf
  | .parkRead q pkt => below 4 q && pkt.wf
  | .parkApply q p => below 4 q && below 32 p
  | .parkServiceFault q => below 4 q
  | .moverStart q p _ => below 4 q && below 32 p
  | .moverPause q p c _ => below 4 q && below 32 p && below 3 c
  | .moverResume q p c _ => below 4 q && below 32 p && below 3 c
  | .moverAbort q p c _ => below 4 q && below 32 p && below 3 c
  | .moverErrClear q p c => below 4 q && below 32 p && below 3 c
  | .move q p c _ => below 4 q && below 32 p && below 3 c
  | .fill q p c => below 4 q && below 32 p && below 3 c
  | .compare q p c _ => below 4 q && below 32 p && below 3 c
  | .wait q p c => below 4 q && below 32 p && below 3 c
  | .waitMet q p c => below 4 q && below 32 p && below 3 c
  | .signal q p c => below 4 q && below 32 p && below 3 c
  | .link q p c => below 4 q && below 32 p && below 3 c
  | .end_ q p c => below 4 q && below 32 p && below 3 c
  | .pauseDrainEnd q p c => below 4 q && below 32 p && below 3 c
  | .moverRecordWrite q p c => below 4 q && below 32 p && below 3 c
  | .moverBusError q cause => below 4 q && below 8 cause
  | .moverBeatTimeout q => below 4 q
  | .moverRestart q => below 4 q
  | .eventCounterWrite q p n _ => below 4 q && below 32 p && below 16 n
  | .adcWindow codes temps rpms => listOf 160 (2 ^ 16) codes && listOf 64 (2 ^ 32) temps && listOf 8 (2 ^ 16) rpms
  | .tachLost n => below 8 n
  | .trayStep applied _ => listOf 8 (2 ^ 16) applied
  | .capStep => true
  | .pwrAlertAssert => true
  | .pwrAlertRelease => true
  | .accGo _ => true
  | .yofenKick => true
  | .yofenWatchdog => true
  | .trayClaim _ => true
  | .trayOwnConflict => true
  | .ownerPublish heard => listOf 7 (2 ^ 64) heard
  | .contestStart => true
  | .contestResolve _ => true
  | .degradedClear => true
  | .standbyQualify => true
  | .trayYield => true
  | .telemetrySend => true
  | .managerHeartbeat m => below 2 m
  | .managerLost m => below 2 m
  | .autonomousHold => true
  | .pumpStage1 => true
  | .pumpStage2 => true
  | .pumpStage3 => true
  | .pumpStageClear => true
  | .trayBusRecovery => true
  | .trayInject _ => true
  | .cartInsert c => below 8 c
  | .cartPresenceLost c => below 8 c
  | .cartTouch c _ => below 8 c
  | .cartCuffOpen c => below 8 c
  | .preDrainCancel c => below 8 c
  | .cartButton c _ => below 8 c
  | .cartButtonHold c => below 8 c
  | .trayButton => true
  | .trayButtonHold => true
  | .cartDrain c => below 8 c
  | .cartForce c => below 8 c
  | .cartRejoin c => below 8 c
  | .cartDrainComplete c => below 8 c
  | .cartDrainTimeout c => below 8 c
  | .cartForceStop c => below 8 c
  | .cartSafe c => below 8 c
  | .cartInService c => below 8 c
  | .vinLow => true
  | .vinHoldupEnd => true
  | .vinGood => true
  | .railTimeout => true
  | .vauxLow => true
  | .powerRequest target => below 4 target
  | .p2QuietEnd _ => true
  | .yofenIdleStop => true
  | .engineGate q e => below 4 q && below 5 e
  | .engineWake q e => below 4 q && below 5 e
  | .warmHoldEnd q e p => below 4 q && below 5 e && below 32 p
  | .refclkLost => true
  | .refclkReturn => true
  | .refclkLossTimeout => true
  | .oscCalibrate => true
  | .thermalTrip => true
  | .coldReset => true
  | .moduleReset _ => true
  | .quadrantReset q => below 4 q
  | .partitionReset p _ => below 32 p
  | .perst _ => true
  | .startupStepComplete _ failed => allBelow 24 failed
  | .loadtestRun => true
  | .loadtestPhaseEnd _ => true
  | .lifecycleObject _ => true
  | .ownerEnrol _ => true
  | .firmwareFloor => true
  | .knitFloor => true
  | .challengeRead => true
  | .debugRequestD1 => true
  | .tokenSubmit _ => true
  | .debugRelease => true
  | .grantExpiry => true
  | .bypass => true
  | .idcode => true
  | .samplePreload _ => true
  | .extest _ => true
  | .extestPulse _ => true
  | .extestTrain _ => true
  | .clamp => true
  | .highz => true
  | .dbgReq _ => true
  | .dbgToken _ => true
  | .dbgAccess _ => true
  | .firmwareUpdate addr _ => below (2 ^ 26) addr
  | .getVersion => true
  | .getCapabilities => true
  | .negotiateAlgorithms => true
  | .getDigests => true
  | .getCertificate off len => below (2 ^ 16) off && below (2 ^ 16) len
  | .challenge _ => true
  | .getMeasurements index _ => below 256 index
  | .setEndpointId binding _ => below 2 binding
  | .pldmSensorRead n => below 42 n
  | .pldmEffecterWrite n _ => below 18 n
  | .bar2Read fn off len => below 32 fn && below (2 ^ 36) off && below 4097 len
  | .bar2Write fn off _ _ => below 32 fn && below (2 ^ 36) off
  | .pf0Flr => true
  | .pcieLinkDown _ => true
  | .hostAccessFail fn user q c => below 32 fn && below 5 user && below 4 q && below 4 c
  | .msixUnmask fn vec => below 32 fn && below 512 vec
  | .counterClear _ => true
  | .tallySweep due skipped => allBelow 32 due && allBelow 32 skipped
  | .samplerCtlWrite q _ => below 4 q
  | .injectEnableWrite _ => true
  | .errorInject _ => true
  | .debugWindowAccess _ off size _ => below (2 ^ 24) off && below 16 size
  | .cartLatchClose c => below 8 c
  | .retrainPrbsEnd q port => below 4 q && below 40 port
  | .yofenReboot => true
  | .quadrantResetEnd q => below 4 q
  | .moduleResetRelease => true
  | .ieee1588Time _ => true

end Sys2Proof
end

