-- ==== Sys2Proof/Machine/CmdCart.lean ====
section
/-! DEFINITION. The commands of cartridges, buttons and the last gasp: one meaning each. -/

namespace Sys2Proof.Machine

/-- CART_INSERT (R449). -/
def execCartInsert (c : Nat) (s : State) : Host.Outcome State Fault Refusal :=
  s.run (Instr.cartInsert c).wf s.hatOn fun t => t.cartInsert c

/-- CART_PRESENCE_LOST (R457). -/
def execCartPresenceLost (c : Nat) (s : State) : Host.Outcome State Fault Refusal :=
  s.run (Instr.cartPresenceLost c).wf s.hatOn fun t => t.cartLost c

/-- CART_TOUCH (R449). -/
def execCartTouch (c : Nat) (high : Bool) (s : State) : Host.Outcome State Fault Refusal :=
  s.run (Instr.cartTouch c high).wf s.hatOn fun t => t.cartTouch c high

/-- CART_CUFF_OPEN (R449). -/
def execCartCuffOpen (c : Nat) (s : State) : Host.Outcome State Fault Refusal :=
  s.run (Instr.cartCuffOpen c).wf s.hatOn fun t => t.cartCuffOpen c

/-- PRE_DRAIN_CANCEL (R449). -/
def execPreDrainCancel (c : Nat) (s : State) : Host.Outcome State Fault Refusal :=
  s.run (Instr.preDrainCancel c).wf s.hatOn fun t => t.preDrainCancel c

/-- CART_BUTTON (R449). -/
def execCartButton (c : Nat) (down : Bool) (s : State) : Host.Outcome State Fault Refusal :=
  s.run (Instr.cartButton c down).wf s.hatOn fun t => t.cartButton c down

/-- CART_BUTTON_HOLD (R449). -/
def execCartButtonHold (c : Nat) (s : State) : Host.Outcome State Fault Refusal :=
  s.run (Instr.cartButtonHold c).wf s.hatOn fun t => t.cartButtonHold c

/-- TRAY_BUTTON (R456). -/
def execTrayButton (s : State) : Host.Outcome State Fault Refusal :=
  s.run Instr.trayButton.wf s.hatOn fun t => t.trayButton

/-- TRAY_BUTTON_HOLD (R456). -/
def execTrayButtonHold (s : State) : Host.Outcome State Fault Refusal :=
  s.run Instr.trayButtonHold.wf s.hatOn fun t => t.trayButtonHold

/-- CART_DRAIN (R449). -/
def execCartDrain (c : Nat) (s : State) : Host.Outcome State Fault Refusal :=
  s.run (Instr.cartDrain c).wf s.barOn fun t => t.cartDrain c

/-- CART_FORCE (R449). -/
def execCartForce (c : Nat) (s : State) : Host.Outcome State Fault Refusal :=
  s.run (Instr.cartForce c).wf s.barOn fun t => t.cartForce c

/-- CART_REJOIN (R460). -/
def execCartRejoin (c : Nat) (s : State) : Host.Outcome State Fault Refusal :=
  s.run (Instr.cartRejoin c).wf s.barOn fun t => t.cartRejoin c

/-- CART_DRAIN_COMPLETE (R452). -/
def execCartDrainComplete (c : Nat) (s : State) : Host.Outcome State Fault Refusal :=
  s.run (Instr.cartDrainComplete c).wf s.hatOn fun t => t.cartDrainComplete c

/-- CART_DRAIN_TIMEOUT (R452). -/
def execCartDrainTimeout (c : Nat) (s : State) : Host.Outcome State Fault Refusal :=
  s.run (Instr.cartDrainTimeout c).wf s.hatOn fun t => t.cartDrainTimeout c

/-- CART_FORCE_STOP (R449). -/
def execCartForceStop (c : Nat) (s : State) : Host.Outcome State Fault Refusal :=
  s.run (Instr.cartForceStop c).wf s.hatOn fun t => t.cartForceStop c

/-- CART_SAFE (R449). -/
def execCartSafe (c : Nat) (s : State) : Host.Outcome State Fault Refusal :=
  s.run (Instr.cartSafe c).wf s.hatOn fun t => t.cartSafe c

/-- CART_IN_SERVICE (R449). -/
def execCartInService (c : Nat) (s : State) : Host.Outcome State Fault Refusal :=
  s.run (Instr.cartInService c).wf s.hatOn fun t => t.cartInService c

/-- VIN_LOW (R458). -/
def execVinLow (s : State) : Host.Outcome State Fault Refusal :=
  s.run Instr.vinLow.wf s.hatOn fun t => t.vinLow

/-- CART_LATCH_CLOSE (R460). -/
def execCartLatchClose (c : Nat) (s : State) : Host.Outcome State Fault Refusal :=
  s.run (Instr.cartLatchClose c).wf s.hatOn fun t => t.cartLatchClose c

end Sys2Proof.Machine
end

