-- ==== Sys2Proof/Machine/CmdGram.lean ====
section
/-! DEFINITION. The commands of the Gram engine: one meaning each. -/

namespace Sys2Proof.Machine

/-- GRAM_ACC (R264). -/
def execGramAcc (q : Nat) (p : Nat) (entry : BitVec 512) (s : State) : Host.Outcome State Fault Refusal :=
  s.run (Instr.gramAcc q p entry).wf (s.engineOn q 2) fun t => t.gramCmd q p 1 entry.toNat

/-- MATMUL (R265). -/
def execMatmul (q : Nat) (p : Nat) (entry : BitVec 512) (s : State) : Host.Outcome State Fault Refusal :=
  s.run (Instr.matmul q p entry).wf (s.engineOn q 2) fun t => t.gramCmd q p 2 entry.toNat

/-- NS_ROOT (R267). -/
def execNsRoot (q : Nat) (p : Nat) (entry : BitVec 512) (s : State) : Host.Outcome State Fault Refusal :=
  s.run (Instr.nsRoot q p entry).wf (s.engineOn q 2) fun t => t.gramCmd q p 3 entry.toNat

/-- NS_ORTHO (R268). -/
def execNsOrtho (q : Nat) (p : Nat) (entry : BitVec 512) (s : State) : Host.Outcome State Fault Refusal :=
  s.run (Instr.nsOrtho q p entry).wf (s.engineOn q 2) fun t => t.gramCmd q p 4 entry.toNat

/-- APPLY (R269). -/
def execApply (q : Nat) (p : Nat) (entry : BitVec 512) (s : State) : Host.Outcome State Fault Refusal :=
  s.run (Instr.apply q p entry).wf (s.engineOn q 2) fun t => t.gramCmd q p 5 entry.toNat

/-- GRAM_WAIT_RELEASE (R270). -/
def execGramWaitRelease (q : Nat) (p : Nat) (s : State) : Host.Outcome State Fault Refusal :=
  s.run (Instr.gramWaitRelease q p).wf (s.engineOn q 2) fun t => t.gramWaitRelease q p

/-- GRAM_UNIT (R272). -/
def execGramUnit (q : Nat) (p : Nat) (s : State) : Host.Outcome State Fault Refusal :=
  s.run (Instr.gramUnit q p).wf (s.engineOn q 2) fun t => t.gramRow q p

/-- GRAM_PROGRESS_TIMEOUT (R275). -/
def execGramProgressTimeout (q : Nat) (p : Nat) (s : State) : Host.Outcome State Fault Refusal :=
  s.run (Instr.gramProgressTimeout q p).wf (s.quadOn q) fun t => t.gramProgressTimeout q p

end Sys2Proof.Machine
end

