-- ==== Sys2Proof/Machine/CmdHbm.lean ====
section
/-! DEFINITION. The commands of HBM, parking and the HBM arbiter: one meaning each. -/

namespace Sys2Proof.Machine

/-- PATROL_SCRUB (R377). -/
def execPatrolScrub (q : Nat) (stack : Nat) (s : State) : Host.Outcome State Fault Refusal :=
  s.run (Instr.patrolScrub q stack).wf (s.quadOn q) fun t => t.patrolScrub q stack

/-- HBM_RETIRE (R378). -/
def execHbmRetire (q : Nat) (stack : Nat) (channel : Nat) (whole : Bool) (s : State) :
    Host.Outcome State Fault Refusal :=
  s.run (Instr.hbmRetire q stack channel whole).wf (s.quadOn q) fun t => t.hbmRetire q stack channel whole

/-- HBM_RETIRE_CMD (R378). -/
def execHbmRetireCmd (q : Nat) (value : BitVec 64) (s : State) : Host.Outcome State Fault Refusal :=
  s.run (Instr.hbmRetireCmd q value).wf (s.barQuad q) fun t => t.hbmRetireCmd q value.toNat

/-- SPARE_REMAP_END (R381). -/
def execSpareRemapEnd (q : Nat) (ext : Nat) (s : State) : Host.Outcome State Fault Refusal :=
  s.run (Instr.spareRemapEnd q ext).wf (s.quadOn q) fun t => t.spareRemapEnd q ext

/-- HBM_LOCK_TIMEOUT (R392). -/
def execHbmLockTimeout (q : Nat) (stack : Nat) (pc : Nat) (req : Nat) (s : State) : Host.Outcome State Fault Refusal :=
  s.run (Instr.hbmLockTimeout q stack pc req).wf (s.quadOn q) fun t => t.hbmLockTimeout q stack pc req

/-- HBM_INJECT (R394). -/
def execHbmInject (q : Nat) (value : BitVec 64) (s : State) : Host.Outcome State Fault Refusal :=
  s.run (Instr.hbmInject q value).wf (s.barQuad q) fun t => t.hbmInject q value.toNat

/-- PARK_WRITE (R384). -/
def execParkWrite (q : Nat) (pkt : Packet) (s : State) : Host.Outcome State Fault Refusal :=
  s.run (Instr.parkWrite q pkt).wf (s.quadOn q) fun t => t.parkWrite q pkt

/-- PARK_READ (R384). -/
def execParkRead (q : Nat) (pkt : Packet) (s : State) : Host.Outcome State Fault Refusal :=
  s.run (Instr.parkRead q pkt).wf (s.quadOn q) fun t => t.parkRead q pkt

/-- PARK_APPLY (R386). -/
def execParkApply (q : Nat) (p : Nat) (s : State) : Host.Outcome State Fault Refusal :=
  s.run (Instr.parkApply q p).wf (s.engineOn q 4) fun t => t.parkApply q p

/-- PARK_SERVICE_FAULT (R387). -/
def execParkServiceFault (q : Nat) (s : State) : Host.Outcome State Fault Refusal :=
  s.run (Instr.parkServiceFault q).wf (s.quadOn q) fun t => t.parkServiceFault q

end Sys2Proof.Machine
end

