-- ==== Sys2Proof/Machine/CmdHost.lean ====
section
/-! DEFINITION. The commands of the PCIe functions and MCTP: one meaning each. -/

namespace Sys2Proof.Machine

/-- PERST (R532). -/
def execPerst (asserted : Bool) (s : State) : Host.Outcome State Fault Refusal :=
  s.run (Instr.perst asserted).wf true fun t => t.perst asserted

/-- SET_ENDPOINT_ID (R534). -/
def execSetEndpointId (binding : Nat) (eid : BitVec 8) (s : State) : Host.Outcome State Fault Refusal :=
  s.run (Instr.setEndpointId binding eid).wf s.hatOn fun t => t.setEid binding eid.toNat

/-- PLDM_SENSOR_READ (R535). -/
def execPldmSensorRead (n : Nat) (s : State) : Host.Outcome State Fault Refusal :=
  s.run (Instr.pldmSensorRead n).wf s.hatOn fun t => t.pldmRead n

/-- PLDM_EFFECTER_WRITE (R535). -/
def execPldmEffecterWrite (n : Nat) (value : BitVec 64) (s : State) : Host.Outcome State Fault Refusal :=
  s.run (Instr.pldmEffecterWrite n value).wf s.hatOn fun t => t.pldmWrite n value.toNat

/-- BAR2_READ (R522). -/
def execBar2Read (fn : Nat) (off : Nat) (len : Nat) (s : State) : Host.Outcome State Fault Refusal :=
  s.run (Instr.bar2Read fn off len).wf s.pciUp fun t => t.bar2Read fn off len

/-- BAR2_WRITE (R522). -/
def execBar2Write (fn : Nat) (off : Nat) (data : List Byte) (poisoned : Bool) (s : State) :
    Host.Outcome State Fault Refusal :=
  s.run (Instr.bar2Write fn off data poisoned).wf s.pciUp fun t => t.bar2Write fn off data poisoned

/-- PF0_FLR (R531). -/
def execPf0Flr (s : State) : Host.Outcome State Fault Refusal :=
  s.run Instr.pf0Flr.wf s.pciUp fun t => t.pf0Flr

/-- PCIE_LINK_DOWN (R532). -/
def execPcieLinkDown (down : Bool) (s : State) : Host.Outcome State Fault Refusal :=
  s.run (Instr.pcieLinkDown down).wf s.hatOn fun t => t.pcieLinkDown down

/-- HOST_ACCESS_FAIL (R527). -/
def execHostAccessFail (fn : Nat) (user : Nat) (q : Nat) (c : Nat) (s : State) : Host.Outcome State Fault Refusal :=
  s.run (Instr.hostAccessFail fn user q c).wf s.barOn fun t => t.hostAccessFail fn user q c

/-- MSIX_UNMASK (R529). -/
def execMsixUnmask (fn : Nat) (vec : Nat) (s : State) : Host.Outcome State Fault Refusal :=
  s.run (Instr.msixUnmask fn vec).wf (s.pciUp && decide (vec < msixSize fn)) fun t => t.msixUnmask fn vec

end Sys2Proof.Machine
end

