-- ==== Sys2Proof/Machine/CmdJtag.lean ====
section
/-! DEFINITION. The commands of JTAG: one meaning each. -/

namespace Sys2Proof.Machine

/-- BYPASS (R511). -/
def execBypass (s : State) : Host.Outcome State Fault Refusal :=
  s.run Instr.bypass.wf s.hatOn fun t => t.jtagBypass

/-- IDCODE (R511). -/
def execIdcode (s : State) : Host.Outcome State Fault Refusal :=
  s.run Instr.idcode.wf s.hatOn fun t => t.jtagIdcode

/-- SAMPLE_PRELOAD (R511). -/
def execSamplePreload (bits : BitVec 4096) (s : State) : Host.Outcome State Fault Refusal :=
  s.run (Instr.samplePreload bits).wf s.hatOn fun t => t.jtagSample bits.toNat

/-- EXTEST (R511). -/
def execExtest (bits : BitVec 4096) (s : State) : Host.Outcome State Fault Refusal :=
  s.run (Instr.extest bits).wf s.hatOn fun t => t.jtagExtest bits.toNat

/-- EXTEST_PULSE (R511). -/
def execExtestPulse (bits : BitVec 4096) (s : State) : Host.Outcome State Fault Refusal :=
  s.run (Instr.extestPulse bits).wf s.hatOn fun t => t.jtagPulse bits.toNat

/-- EXTEST_TRAIN (R511). -/
def execExtestTrain (bits : BitVec 4096) (s : State) : Host.Outcome State Fault Refusal :=
  s.run (Instr.extestTrain bits).wf s.hatOn fun t => t.jtagTrain bits.toNat

/-- CLAMP (R511). -/
def execClamp (s : State) : Host.Outcome State Fault Refusal :=
  s.run Instr.clamp.wf s.hatOn fun t => t.jtagClamp

/-- HIGHZ (R511). -/
def execHighz (s : State) : Host.Outcome State Fault Refusal :=
  s.run Instr.highz.wf s.hatOn fun t => t.jtagHighz

/-- DBG_REQ (R511). -/
def execDbgReq (bit : Bool) (s : State) : Host.Outcome State Fault Refusal :=
  s.run (Instr.dbgReq bit).wf s.hatOn fun t => t.jtagReq bit

/-- DBG_TOKEN (R511). -/
def execDbgToken (token : List Byte) (s : State) : Host.Outcome State Fault Refusal :=
  s.run (Instr.dbgToken token).wf s.hatOn fun t => t.jtagToken token

/-- DBG_ACCESS (R574). -/
def execDbgAccess (bits : BitVec 96) (s : State) : Host.Outcome State Fault Refusal :=
  s.run (Instr.dbgAccess bits).wf s.hatOn fun t => t.dbgAccess bits.toNat

end Sys2Proof.Machine
end

