-- ==== Sys2Proof/Machine/CmdKnit.lean ====
section
/-! DEFINITION. The commands of the knit and the epochs: one meaning each. -/

namespace Sys2Proof.Machine

/-- KNIT_LOAD (R43). -/
def execKnitLoad (fn : Nat) (s : State) : Host.Outcome State Fault Refusal :=
  s.run (Instr.knitLoad fn).wf (s.barOn && s.img.brimValid fn) fun t => t.knitLoad fn

/-- KNIT_ABORT (R69). -/
def execKnitAbort (fn : Nat) (s : State) : Host.Outcome State Fault Refusal :=
  s.run (Instr.knitAbort fn).wf (s.barOn && s.img.brimValid fn) fun t => t.knitAbort fn

/-- KNIT_COMMIT (R58). -/
def execKnitCommit (fn : Nat) (s : State) : Host.Outcome State Fault Refusal :=
  s.run (Instr.knitCommit fn).wf (s.barOn && s.img.brimValid fn) fun t => t.knitCommit fn

/-- KNIT_FETCH_COMPLETE (R43). -/
def execKnitFetchComplete (file : List Byte) (s : State) : Host.Outcome State Fault Refusal :=
  s.run (Instr.knitFetchComplete file).wf s.clocked fun t => t.fetchDone file

/-- GROUP_COMMIT (R47). -/
def execGroupCommit (s : State) : Host.Outcome State Fault Refusal :=
  s.run Instr.groupCommit.wf s.clocked fun t => t.groupCommit

/-- RESYNC_END (R49). -/
def execResyncEnd (s : State) : Host.Outcome State Fault Refusal :=
  s.run Instr.resyncEnd.wf s.clocked fun t => t.resyncEnd

/-- QUIET_TIMEOUT (R53). -/
def execQuietTimeout (s : State) : Host.Outcome State Fault Refusal :=
  s.run Instr.quietTimeout.wf s.clocked fun t => t.quietTimeout

/-- KNIT_VOTE_RESULT (R58). -/
def execKnitVoteResult (s : State) : Host.Outcome State Fault Refusal :=
  s.run Instr.knitVoteResult.wf s.clocked fun t => t.knitVoteResult

/-- VOTE_COMMIT_TIMEOUT (R58). -/
def execVoteCommitTimeout (s : State) : Host.Outcome State Fault Refusal :=
  s.run Instr.voteCommitTimeout.wf s.clocked fun t => t.voteCommitTimeout

/-- BORDER_DRAIN_END (R67). -/
def execBorderDrainEnd (s : State) : Host.Outcome State Fault Refusal :=
  s.run Instr.borderDrainEnd.wf s.clocked fun t => t.borderDrainEnd

/-- BORDER_DRAIN_TIMEOUT (R68). -/
def execBorderDrainTimeout (s : State) : Host.Outcome State Fault Refusal :=
  s.run Instr.borderDrainTimeout.wf s.clocked fun t => t.borderDrainTimeout

/-- BORDER_ZEROIZE_END (R67). -/
def execBorderZeroizeEnd (mismatch : List (Nat × Nat)) (s : State) : Host.Outcome State Fault Refusal :=
  s.run (Instr.borderZeroizeEnd mismatch).wf s.clocked fun t => t.borderZeroizeEnd mismatch

/-- EPOCH_FLIP (R102). -/
def execEpochFlip (p : Nat) (s : State) : Host.Outcome State Fault Refusal :=
  s.run (Instr.epochFlip p).wf s.clocked fun t => t.epochFlip p

/-- EPOCH_RETIRE (R101). -/
def execEpochRetire (p : Nat) (s : State) : Host.Outcome State Fault Refusal :=
  s.run (Instr.epochRetire p).wf s.clocked fun t => t.epochRetire p

end Sys2Proof.Machine
end

