-- ==== Sys2Proof/Machine/CmdLink.lean ====
section
/-! DEFINITION. The commands of the Woyth links and the seams: one meaning each. -/

namespace Sys2Proof.Machine

/-- SEAM_CRC_ERROR (R19). -/
def execSeamCrcError (a : Nat) (b : Nat) (s : State) : Host.Outcome State Fault Refusal :=
  s.run (Instr.seamCrcError a b).wf (s.clocked && a != b) fun t => t.seamCrc a b

/-- SEAM_DOWN (R19). -/
def execSeamDown (a : Nat) (b : Nat) (s : State) : Host.Outcome State Fault Refusal :=
  s.run (Instr.seamDown a b).wf (s.clocked && a != b) fun t => t.seamDown a b

/-- LINK_DOWN_HOLD_END (R353). -/
def execLinkDownHoldEnd (q : Nat) (port : Nat) (s : State) : Host.Outcome State Fault Refusal :=
  s.run (Instr.linkDownHoldEnd q port).wf (s.quadOn q) fun t => t.downHoldEnd q port

/-- LINK_SIGNAL_DETECT (R353). -/
def execLinkSignalDetect (q : Nat) (port : Nat) (lanes : Nat) (s : State) : Host.Outcome State Fault Refusal :=
  s.run (Instr.linkSignalDetect q port lanes).wf (s.quadOn q) fun t => t.signalDetect q port lanes

/-- LINK_TRAIN_END (R353). -/
def execLinkTrainEnd (q : Nat) (port : Nat) (s : State) : Host.Outcome State Fault Refusal :=
  s.run (Instr.linkTrainEnd q port).wf (s.quadOn q) fun t => t.trainEnd q port

/-- LINK_ALIGN_DONE (R353). -/
def execLinkAlignDone (q : Nat) (port : Nat) (s : State) : Host.Outcome State Fault Refusal :=
  s.run (Instr.linkAlignDone q port).wf (s.quadOn q) fun t => t.alignDone q port

/-- LINK_ATTEMPT_TIMEOUT (R353). -/
def execLinkAttemptTimeout (q : Nat) (port : Nat) (s : State) : Host.Outcome State Fault Refusal :=
  s.run (Instr.linkAttemptTimeout q port).wf (s.quadOn q) fun t => t.attemptTimeout q port

/-- LINK_X2_SLOT_END (R354). -/
def execLinkX2SlotEnd (q : Nat) (port : Nat) (s : State) : Host.Outcome State Fault Refusal :=
  s.run (Instr.linkX2SlotEnd q port).wf (s.quadOn q) fun t => t.x2SlotEnd q port

/-- LINK_RETRAIN_TIMEOUT (R353). -/
def execLinkRetrainTimeout (q : Nat) (port : Nat) (s : State) : Host.Outcome State Fault Refusal :=
  s.run (Instr.linkRetrainTimeout q port).wf (s.quadOn q) fun t => t.retrainTimeout q port

/-- LCF_RECEIVE (R346). -/
def execLcfReceive (q : Nat) (port : Nat) (flit : BitVec 512) (s : State) : Host.Outcome State Fault Refusal :=
  s.run (Instr.lcfReceive q port flit).wf (s.quadOn q) fun t => t.lcfReceive q port flit.toNat

/-- SYNC_REQ (R351). -/
def execSyncReq (q : Nat) (port : Nat) (vc : Nat) (sent : BitVec 16) (s : State) : Host.Outcome State Fault Refusal :=
  s.run (Instr.syncReq q port vc sent).wf (s.quadOn q) fun t => t.syncReq q port vc sent.toNat

/-- QUIET (R357). -/
def execQuiet (q : Nat) (port : Nat) (s : State) : Host.Outcome State Fault Refusal :=
  s.run (Instr.quiet q port).wf (s.quadOn q) fun t => t.quietReq q port

/-- QUIET_ACK (R357). -/
def execQuietAck (q : Nat) (port : Nat) (s : State) : Host.Outcome State Fault Refusal :=
  s.run (Instr.quietAck q port).wf (s.quadOn q) fun t => t.quietAck q port

/-- RETRAIN (R361). -/
def execRetrain (q : Nat) (port : Nat) (s : State) : Host.Outcome State Fault Refusal :=
  s.run (Instr.retrain q port).wf (s.quadOn q) fun t => t.peerRetrain q port

/-- QUIET_IDLE_EXPIRY (R356). -/
def execQuietIdleExpiry (q : Nat) (port : Nat) (s : State) : Host.Outcome State Fault Refusal :=
  s.run (Instr.quietIdleExpiry q port).wf (s.quadOn q) fun t => t.quietIdle q port

/-- LINK_WAKE (R359). -/
def execLinkWake (q : Nat) (port : Nat) (s : State) : Host.Outcome State Fault Refusal :=
  s.run (Instr.linkWake q port).wf (s.quadOn q) fun t => t.linkWake q port

/-- PEER_SIGNAL_WAKE (R359). -/
def execPeerSignalWake (q : Nat) (port : Nat) (s : State) : Host.Outcome State Fault Refusal :=
  s.run (Instr.peerSignalWake q port).wf (s.quadOn q) fun t => t.peerWake q port

/-- CODEWORD_DECODE (R347). -/
def execCodewordDecode (q : Nat) (port : Nat) (l0 : BitVec 1360) (l1 : BitVec 1360) (l2 : BitVec 1360) (l3 : BitVec 1360) (s : State) :
    Host.Outcome State Fault Refusal :=
  s.run (Instr.codewordDecode q port l0 l1 l2 l3).wf (s.quadOn q)
    fun t => t.codeword q port [l0.toNat, l1.toNat, l2.toNat, l3.toNat]

/-- CREDIT_STARVE (R351). -/
def execCreditStarve (q : Nat) (port : Nat) (vc : Nat) (s : State) : Host.Outcome State Fault Refusal :=
  s.run (Instr.creditStarve q port vc).wf (s.quadOn q) fun t => t.creditStarve q port vc

/-- LANE_ERROR_WINDOW (R360). -/
def execLaneErrorWindow (q : Nat) (port : Nat) (s : State) : Host.Outcome State Fault Refusal :=
  s.run (Instr.laneErrorWindow q port).wf (s.quadOn q) fun t => t.laneWindow q port

/-- DEGRADE_SWITCH (R360). -/
def execDegradeSwitch (q : Nat) (port : Nat) (s : State) : Host.Outcome State Fault Refusal :=
  s.run (Instr.degradeSwitch q port).wf (s.quadOn q) fun t => t.degradeSwitch q port

/-- UCW_WINDOW (R361). -/
def execUcwWindow (q : Nat) (port : Nat) (s : State) : Host.Outcome State Fault Refusal :=
  s.run (Instr.ucwWindow q port).wf (s.quadOn q) fun t => t.ucwWindow q port

/-- LCF_LOSS (R361). -/
def execLcfLoss (q : Nat) (port : Nat) (s : State) : Host.Outcome State Fault Refusal :=
  s.run (Instr.lcfLoss q port).wf (s.quadOn q) fun t => t.lcfLoss q port

/-- LINK_RETRAIN_WRITE (R365). -/
def execLinkRetrainWrite (q : Nat) (port : Nat) (value : BitVec 64) (s : State) : Host.Outcome State Fault Refusal :=
  s.run (Instr.linkRetrainWrite q port value).wf (s.barQuad q) fun t => t.retrainWrite q port value.toNat

/-- LINK_EN_WRITE (R365). -/
def execLinkEnWrite (q : Nat) (port : Nat) (value : BitVec 64) (s : State) : Host.Outcome State Fault Refusal :=
  s.run (Instr.linkEnWrite q port value).wf (s.barQuad q) fun t => t.enWrite q port value.toNat

/-- LINK_INJECT (R365). -/
def execLinkInject (q : Nat) (value : BitVec 64) (s : State) : Host.Outcome State Fault Refusal :=
  s.run (Instr.linkInject q value).wf (s.barQuad q) fun t => t.linkInject q value.toNat

/-- RETRAIN_PRBS_END (R353). -/
def execRetrainPrbsEnd (q : Nat) (port : Nat) (s : State) : Host.Outcome State Fault Refusal :=
  s.run (Instr.retrainPrbsEnd q port).wf (s.quadOn q) fun t => t.retrainPrbsEnd q port

end Sys2Proof.Machine
end

