-- ==== Sys2Proof/Machine/CmdMitten.lean ====
section
/-! DEFINITION. The commands of Mitten and the notices: one meaning each. -/

namespace Sys2Proof.Machine

/-- MIT_MEMBER (R289). -/
def execMitMember (pkt : Packet) (s : State) : Host.Outcome State Fault Refusal :=
  s.run (Instr.mitMember pkt).wf (s.unitOn (pkCtx pkt % 4)) fun t => t.mitRow1 pkt State.mitMember

/-- MIT_ROW (R295). -/
def execMitRow (pkt : Packet) (s : State) : Host.Outcome State Fault Refusal :=
  s.run (Instr.mitRow pkt).wf (s.unitOn (pkCtx pkt % 4)) fun t => t.mitRow1 pkt State.mitRowIn

/-- MIT_COLUMN (R295). -/
def execMitColumn (pkt : Packet) (s : State) : Host.Outcome State Fault Refusal :=
  s.run (Instr.mitColumn pkt).wf (s.unitOn (pkCtx pkt % 4)) fun t => t.mitRow1 pkt State.mitColumnIn

/-- MIT_COURIER (R297). -/
def execMitCourier (pkt : Packet) (s : State) : Host.Outcome State Fault Refusal :=
  s.run (Instr.mitCourier pkt).wf (s.unitOn (pkCtx pkt % 4)) fun t => t.mitRow1 pkt State.mitCourier

/-- MIT_ROUND_ABORT (R292). -/
def execMitRoundAbort (c : Nat) (seq : BitVec 32) (s : State) : Host.Outcome State Fault Refusal :=
  s.run (Instr.mitRoundAbort c seq).wf (s.unitOn (c % 4)) fun t => t.mitRoundAbort c seq.toNat

/-- MIT_PEER_RESEND (R296). -/
def execMitPeerResend (c : Nat) (seq : BitVec 32) (s : State) : Host.Outcome State Fault Refusal :=
  s.run (Instr.mitPeerResend c seq).wf (s.unitOn (c % 4)) fun t => t.mitPeerResend c seq.toNat

/-- MIT_CARRY_RESEND (R297). -/
def execMitCarryResend (c : Nat) (seq : BitVec 32) (s : State) : Host.Outcome State Fault Refusal :=
  s.run (Instr.mitCarryResend c seq).wf (s.unitOn (c % 4)) fun t => t.mitCarryResend c seq.toNat

/-- MIT_ROLE_SET (R301). -/
def execMitRoleSet (c : Nat) (role : Nat) (s : State) : Host.Outcome State Fault Refusal :=
  s.run (Instr.mitRoleSet c role).wf s.barOn fun t => t.mitRoleSet c role

/-- NOTICE_EN_WRITE (R308). -/
def execNoticeEnWrite (value : Nat) (s : State) : Host.Outcome State Fault Refusal :=
  s.run (Instr.noticeEnWrite value).wf s.barOn fun t => t.noticeEnWrite value

/-- NOTICE_REPEAT (R302). -/
def execNoticeRepeat (s : State) : Host.Outcome State Fault Refusal :=
  s.run Instr.noticeRepeat.wf s.clocked fun t => t.noticeRepeat

end Sys2Proof.Machine
end

