-- ==== Sys2Proof/Machine/CmdMover.lean ====
section
/-! DEFINITION. The commands of the Mover: one meaning each. -/

namespace Sys2Proof.Machine

/-- MOVER_START (R409). -/
def execMoverStart (q : Nat) (p : Nat) (entry : BitVec 512) (s : State) : Host.Outcome State Fault Refusal :=
  s.run (Instr.moverStart q p entry).wf (s.engineOn q 3) fun t => t.movStart q p entry.toNat

/-- MOVER_PAUSE (R413). -/
def execMoverPause (q : Nat) (p : Nat) (c : Nat) (entry : BitVec 512) (s : State) : Host.Outcome State Fault Refusal :=
  s.run (Instr.moverPause q p c entry).wf (s.quadOn q) fun t => t.movPauseCmd q p c entry.toNat

/-- MOVER_RESUME (R414). -/
def execMoverResume (q : Nat) (p : Nat) (c : Nat) (entry : BitVec 512) (s : State) : Host.Outcome State Fault Refusal :=
  s.run (Instr.moverResume q p c entry).wf (s.quadOn q) fun t => t.movResumeCmd q p c entry.toNat

/-- MOVER_ABORT (R412). -/
def execMoverAbort (q : Nat) (p : Nat) (c : Nat) (entry : BitVec 512) (s : State) : Host.Outcome State Fault Refusal :=
  s.run (Instr.moverAbort q p c entry).wf (s.quadOn q) fun t => t.movAbortCmd q p c entry.toNat

/-- MOVER_ERR_CLEAR (R412). -/
def execMoverErrClear (q : Nat) (p : Nat) (c : Nat) (s : State) : Host.Outcome State Fault Refusal :=
  s.run (Instr.moverErrClear q p c).wf (s.barQuad q) fun t => t.movErrClear q p c

/-- MOVE (R404). -/
def execMove (q : Nat) (p : Nat) (c : Nat) (host : List Byte) (s : State) : Host.Outcome State Fault Refusal :=
  s.run (Instr.move q p c host).wf (s.engineOn q 3) fun t => t.moveRow q p c host

/-- FILL (R405). -/
def execFill (q : Nat) (p : Nat) (c : Nat) (s : State) : Host.Outcome State Fault Refusal :=
  s.run (Instr.fill q p c).wf (s.engineOn q 3) fun t => t.movFill q p c

/-- COMPARE (R405). -/
def execCompare (q : Nat) (p : Nat) (c : Nat) (host : List Byte) (s : State) : Host.Outcome State Fault Refusal :=
  s.run (Instr.compare q p c host).wf (s.engineOn q 3) fun t => t.compareRow q p c host

/-- WAIT (R406). -/
def execWait (q : Nat) (p : Nat) (c : Nat) (s : State) : Host.Outcome State Fault Refusal :=
  s.run (Instr.wait q p c).wf (s.engineOn q 3) fun t => t.movWait q p c

/-- WAIT_MET (R406). -/
def execWaitMet (q : Nat) (p : Nat) (c : Nat) (s : State) : Host.Outcome State Fault Refusal :=
  s.run (Instr.waitMet q p c).wf (s.engineOn q 3) fun t => t.movWaitMet q p c

/-- SIGNAL (R407). -/
def execSignal (q : Nat) (p : Nat) (c : Nat) (s : State) : Host.Outcome State Fault Refusal :=
  s.run (Instr.signal q p c).wf (s.engineOn q 3) fun t => t.movSignal q p c

/-- LINK (R408). -/
def execLink (q : Nat) (p : Nat) (c : Nat) (s : State) : Host.Outcome State Fault Refusal :=
  s.run (Instr.link q p c).wf (s.engineOn q 3) fun t => t.movLink q p c

/-- END (R408). -/
def execEnd (q : Nat) (p : Nat) (c : Nat) (s : State) : Host.Outcome State Fault Refusal :=
  s.run (Instr.end_ q p c).wf (s.engineOn q 3) fun t => t.movEnd q p c

/-- PAUSE_DRAIN_END (R412). -/
def execPauseDrainEnd (q : Nat) (p : Nat) (c : Nat) (s : State) : Host.Outcome State Fault Refusal :=
  s.run (Instr.pauseDrainEnd q p c).wf (s.quadOn q) fun t => t.movDrainEnd q p c

/-- MOVER_RECORD_WRITE (R411). -/
def execMoverRecordWrite (q : Nat) (p : Nat) (c : Nat) (s : State) : Host.Outcome State Fault Refusal :=
  s.run (Instr.moverRecordWrite q p c).wf (s.quadOn q) fun t => t.movRecordWrite q p c

/-- MOVER_BUS_ERROR (R417). -/
def execMoverBusError (q : Nat) (cause : Nat) (s : State) : Host.Outcome State Fault Refusal :=
  s.run (Instr.moverBusError q cause).wf (s.quadOn q) fun t => t.movBusErrorCmd q cause

/-- MOVER_BEAT_TIMEOUT (R417). -/
def execMoverBeatTimeout (q : Nat) (s : State) : Host.Outcome State Fault Refusal :=
  s.run (Instr.moverBeatTimeout q).wf (s.quadOn q) fun t => t.movBeatTimeout q

/-- MOVER_RESTART (R418). -/
def execMoverRestart (q : Nat) (s : State) : Host.Outcome State Fault Refusal :=
  s.run (Instr.moverRestart q).wf (s.quadOn q) fun t => t.movRestart q

/-- EVENT_COUNTER_WRITE (R421). -/
def execEventCounterWrite (q : Nat) (p : Nat) (n : Nat) (value : BitVec 32) (s : State) :
    Host.Outcome State Fault Refusal :=
  s.run (Instr.eventCounterWrite q p n value).wf (s.barQuad q) fun t => t.evtWrite q p n value.toNat

end Sys2Proof.Machine
end

