-- ==== Sys2Proof/Machine/CmdObs.lean ====
section
/-! DEFINITION. The commands of counters, Tally, the sampler and injection: one meaning each. -/

namespace Sys2Proof.Machine

/-- COUNTER_CLEAR (R563). -/
def execCounterClear (value : BitVec 64) (s : State) : Host.Outcome State Fault Refusal :=
  s.run (Instr.counterClear value).wf s.barOn fun t => t.counterClear value.toNat

/-- TALLY_SWEEP (R548). -/
def execTallySweep (due : List Nat) (skipped : List Nat) (s : State) : Host.Outcome State Fault Refusal :=
  s.run (Instr.tallySweep due skipped).wf s.clocked fun t => t.tallySweep due skipped

/-- SAMPLER_CTL_WRITE (R553). -/
def execSamplerCtlWrite (q : Nat) (value : BitVec 64) (s : State) : Host.Outcome State Fault Refusal :=
  s.run (Instr.samplerCtlWrite q value).wf (s.barQuad q) fun t => t.samplerCtl q value.toNat

/-- INJECT_ENABLE_WRITE (R560). -/
def execInjectEnableWrite (value : BitVec 64) (s : State) : Host.Outcome State Fault Refusal :=
  s.run (Instr.injectEnableWrite value).wf s.barOn fun t => t.injectEnable value.toNat

/-- ERROR_INJECT (R560). -/
def execErrorInject (value : BitVec 64) (s : State) : Host.Outcome State Fault Refusal :=
  s.run (Instr.errorInject value).wf s.barOn fun t => t.errorInject value.toNat

end Sys2Proof.Machine
end

