-- ==== Sys2Proof/Machine/CmdPower.lean ====
section
/-! DEFINITION. The commands of power, clocks and resets: one meaning each. -/

namespace Sys2Proof.Machine

/-- VIN_HOLDUP_END (R464). -/
def execVinHoldupEnd (s : State) : Host.Outcome State Fault Refusal :=
  s.run Instr.vinHoldupEnd.wf s.hatOn fun t => t.vinHoldupEnd

/-- VIN_GOOD (R464). -/
def execVinGood (s : State) : Host.Outcome State Fault Refusal :=
  s.run Instr.vinGood.wf s.hatOn fun t => t.vinGood

/-- RAIL_TIMEOUT (R465). -/
def execRailTimeout (s : State) : Host.Outcome State Fault Refusal :=
  s.run Instr.railTimeout.wf s.hatOn fun t => t.railTimeout

/-- VAUX_LOW (R584). -/
def execVauxLow (s : State) : Host.Outcome State Fault Refusal :=
  s.run Instr.vauxLow.wf s.hatOn fun t => t.vauxLow

/-- POWER_REQUEST (R467). -/
def execPowerRequest (target : Nat) (s : State) : Host.Outcome State Fault Refusal :=
  s.run (Instr.powerRequest target).wf s.hatOn fun t => t.powerRequest target

/-- P2_QUIET_END (R468). -/
def execP2QuietEnd (expired : Bool) (s : State) : Host.Outcome State Fault Refusal :=
  s.run (Instr.p2QuietEnd expired).wf s.hatOn fun t => t.p2QuietEnd expired

/-- YOFEN_IDLE_STOP (R469). -/
def execYofenIdleStop (s : State) : Host.Outcome State Fault Refusal :=
  s.run Instr.yofenIdleStop.wf s.hatOn fun t => t.yofenIdleStop

/-- ENGINE_GATE (R472). -/
def execEngineGate (q : Nat) (e : Nat) (s : State) : Host.Outcome State Fault Refusal :=
  s.run (Instr.engineGate q e).wf (s.quadOn q) fun t => t.gateRow q e

/-- ENGINE_WAKE (R472). -/
def execEngineWake (q : Nat) (e : Nat) (s : State) : Host.Outcome State Fault Refusal :=
  s.run (Instr.engineWake q e).wf (s.quadOn q) fun t => t.engineWake q e

/-- WARM_HOLD_END (R474). -/
def execWarmHoldEnd (q : Nat) (e : Nat) (p : Nat) (s : State) : Host.Outcome State Fault Refusal :=
  s.run (Instr.warmHoldEnd q e p).wf s.clocked fun t => t.warmHoldEnd q e p

/-- REFCLK_LOST (R477). -/
def execRefclkLost (s : State) : Host.Outcome State Fault Refusal :=
  s.run Instr.refclkLost.wf s.hatOn fun t => t.refclkLost

/-- REFCLK_RETURN (R477). -/
def execRefclkReturn (s : State) : Host.Outcome State Fault Refusal :=
  s.run Instr.refclkReturn.wf s.hatOn fun t => t.refclkReturn

/-- REFCLK_LOSS_TIMEOUT (R477). -/
def execRefclkLossTimeout (s : State) : Host.Outcome State Fault Refusal :=
  s.run Instr.refclkLossTimeout.wf s.hatOn fun t => t.refclkTimeout

/-- OSC_CALIBRATE (R475). -/
def execOscCalibrate (s : State) : Host.Outcome State Fault Refusal :=
  s.run Instr.oscCalibrate.wf s.hatOn fun t => t.oscCalibrate

/-- THERMAL_TRIP (R471). -/
def execThermalTrip (s : State) : Host.Outcome State Fault Refusal :=
  s.run Instr.thermalTrip.wf s.hatOn fun t => t.thermalTrip

/-- COLD_RESET (R478). -/
def execColdReset (s : State) : Host.Outcome State Fault Refusal :=
  s.run Instr.coldReset.wf true fun t => t.coldReset

/-- MODULE_RESET (R478). -/
def execModuleReset (cool : Bool) (s : State) : Host.Outcome State Fault Refusal :=
  s.run (Instr.moduleReset cool).wf s.hatOn fun t => t.moduleReset cool

/-- QUADRANT_RESET (R478). -/
def execQuadrantReset (q : Nat) (s : State) : Host.Outcome State Fault Refusal :=
  s.run (Instr.quadrantReset q).wf s.barOn fun t => t.quadReset q

/-- PARTITION_RESET (R478). -/
def execPartitionReset (p : Nat) (flr : Bool) (s : State) : Host.Outcome State Fault Refusal :=
  s.run (Instr.partitionReset p flr).wf s.barOn fun t => t.partReset p flr

/-- STARTUP_STEP_COMPLETE (R480). -/
def execStartupStepComplete (ok : Bool) (failed : List Nat) (s : State) : Host.Outcome State Fault Refusal :=
  s.run (Instr.startupStepComplete ok failed).wf s.hatOn fun t => t.startupStep ok failed

/-- LOADTEST_RUN (R483). -/
def execLoadtestRun (s : State) : Host.Outcome State Fault Refusal :=
  s.run Instr.loadtestRun.wf s.barOn fun t => t.loadtestRun

/-- LOADTEST_PHASE_END (R482). -/
def execLoadtestPhaseEnd (crcOk : Bool) (s : State) : Host.Outcome State Fault Refusal :=
  s.run (Instr.loadtestPhaseEnd crcOk).wf s.clocked fun t => t.loadtestPhase crcOk

/-- QUADRANT_RESET_END (R478). -/
def execQuadrantResetEnd (q : Nat) (s : State) : Host.Outcome State Fault Refusal :=
  s.run (Instr.quadrantResetEnd q).wf s.barOn fun t => t.quadResetEnd q

/-- MODULE_RESET_RELEASE (R478). -/
def execModuleResetRelease (s : State) : Host.Outcome State Fault Refusal :=
  s.run Instr.moduleResetRelease.wf s.hatOn fun t => t.moduleRelease

/-- IEEE_1588_TIME (R475). -/
def execIeee1588Time (ns : BitVec 64) (s : State) : Host.Outcome State Fault Refusal :=
  s.run (Instr.ieee1588Time ns).wf s.hatOn fun t => t.ieee1588 ns.toNat

end Sys2Proof.Machine
end

