-- ==== Sys2Proof/Machine/CmdReg.lean ====
section
/-! DEFINITION. The commands of BAR0 registers and the debug window: one meaning each. -/

namespace Sys2Proof.Machine

/-- REGISTER_WRITE (R11). -/
def execRegisterWrite (fn : Nat) (off : Nat) (size : Nat) (value : BitVec 64) (s : State) :
    Host.Outcome State Fault Refusal :=
  s.run (Instr.registerWrite fn off size value).wf true fun t => t.registerWrite fn off size value.toNat

/-- SPLIT_READ_LOW (R569). -/
def execSplitReadLow (fn : Nat) (off : Nat) (size : Nat) (s : State) : Host.Outcome State Fault Refusal :=
  s.run (Instr.splitReadLow fn off size).wf true fun t => t.registerRead fn off size

/-- KEGUS_TEST_WRITE (R152). -/
def execKegusTestWrite (reg : Nat) (value : BitVec 64) (s : State) : Host.Outcome State Fault Refusal :=
  s.run (Instr.kegusTestWrite reg value).wf s.barOn fun t => t.kegusTestWrite reg value.toNat

/-- DEBUG_WINDOW_ACCESS (R573). -/
def execDebugWindowAccess (write : Bool) (off : Nat) (size : Nat) (value : BitVec 64) (s : State) :
    Host.Outcome State Fault Refusal :=
  s.run (Instr.debugWindowAccess write off size value).wf true fun t => t.debugWindow write off size value.toNat

end Sys2Proof.Machine
end

