-- ==== Sys2Proof/Machine/CmdSecurity.lean ====
section
/-! DEFINITION. The commands of security and debug grants: one meaning each. -/

namespace Sys2Proof.Machine

/-- LIFECYCLE_OBJECT (R500). -/
def execLifecycleObject (obj : List Byte) (s : State) : Host.Outcome State Fault Refusal :=
  s.run (Instr.lifecycleObject obj).wf s.barOn fun t => t.secFetched fun u => u.lifecycleObject obj

/-- OWNER_ENROL (R501). -/
def execOwnerEnrol (cert : List Byte) (s : State) : Host.Outcome State Fault Refusal :=
  s.run (Instr.ownerEnrol cert).wf s.barOn fun t => t.secFetched fun u => u.ownerEnrol cert

/-- FIRMWARE_FLOOR (R497). -/
def execFirmwareFloor (s : State) : Host.Outcome State Fault Refusal :=
  s.run Instr.firmwareFloor.wf s.barOn fun t => t.secPlain fun u => u.firmwareFloor

/-- KNIT_FLOOR (R497). -/
def execKnitFloor (s : State) : Host.Outcome State Fault Refusal :=
  s.run Instr.knitFloor.wf s.barOn fun t => t.secPlain fun u => u.knitFloor

/-- CHALLENGE_READ (R510). -/
def execChallengeRead (s : State) : Host.Outcome State Fault Refusal :=
  s.run Instr.challengeRead.wf s.barOn fun t => t.chalRead

/-- DEBUG_REQUEST_D1 (R508). -/
def execDebugRequestD1 (s : State) : Host.Outcome State Fault Refusal :=
  s.run Instr.debugRequestD1.wf s.barOn fun t => t.requestD1 false

/-- TOKEN_SUBMIT (R510). -/
def execTokenSubmit (token : List Byte) (s : State) : Host.Outcome State Fault Refusal :=
  s.run (Instr.tokenSubmit token).wf s.barOn fun t => t.tokenFetched token

/-- DEBUG_RELEASE (R508). -/
def execDebugRelease (s : State) : Host.Outcome State Fault Refusal :=
  s.run Instr.debugRelease.wf s.barOn fun t => t.debugRelease

/-- GRANT_EXPIRY (R510). -/
def execGrantExpiry (s : State) : Host.Outcome State Fault Refusal :=
  s.run Instr.grantExpiry.wf s.hatOn fun t => t.grantExpiry

/-- FIRMWARE_UPDATE (R496). -/
def execFirmwareUpdate (addr : Nat) (data : List Byte) (s : State) : Host.Outcome State Fault Refusal :=
  s.run (Instr.firmwareUpdate addr data).wf s.hatOn fun t => t.firmwareUpdate addr data

end Sys2Proof.Machine
end

