-- ==== Sys2Proof/Machine/CmdSeq.lean ====
section
/-! DEFINITION. The commands of the collective sequencer and its rings: one meaning each. -/

namespace Sys2Proof.Machine

/-- RESULT_RESEND_TIMER (R113). -/
def execResultResendTimer (p : Nat) (coll : Nat) (step : Nat) (s : State) : Host.Outcome State Fault Refusal :=
  s.run (Instr.resultResendTimer p coll step).wf (s.unitOn (p % 4)) fun t => t.resultResendTimer p coll step

/-- CNACK_RECEIVE (R210). -/
def execCnackReceive (q : Nat) (pkt : Packet) (s : State) : Host.Outcome State Fault Refusal :=
  s.run (Instr.cnackReceive q pkt).wf (s.quadOn q) fun t => t.cnackReceive q pkt

/-- RING_DOORBELL (R188). -/
def execRingDoorbell (q : Nat) (p : Nat) (e : Nat) (prod : BitVec 32) (s : State) : Host.Outcome State Fault Refusal :=
  s.run (Instr.ringDoorbell q p e prod).wf (s.barQuad q && !s.partResetting p) fun t => t.ringDoorbell q p e prod.toNat

/-- DOORBELL (R189). -/
def execDoorbell (q : Nat) (pkt : Packet) (s : State) : Host.Outcome State Fault Refusal :=
  s.run (Instr.doorbell q pkt).wf (s.quadOn q) fun t => t.doorbell q pkt

/-- RING_ERR_CLEAR (R191). -/
def execRingErrClear (q : Nat) (p : Nat) (e : Nat) (s : State) : Host.Outcome State Fault Refusal :=
  s.run (Instr.ringErrClear q p e).wf (s.barQuad q) fun t => t.ringErrClear q p e

/-- CQ_RECORD_WRITE (R194). -/
def execCqRecordWrite (p : Nat) (k : Nat) (s : State) : Host.Outcome State Fault Refusal :=
  s.run (Instr.cqRecordWrite p k).wf (s.quadOn (p % 4)) fun t => t.cqRecordWrite p k

/-- COLLECTIVE (R192). -/
def execCollective (q : Nat) (p : Nat) (entry : BitVec 512) (s : State) : Host.Outcome State Fault Refusal :=
  s.run (Instr.collective q p entry).wf (s.unitOn q) fun t => t.collective q p entry.toNat

/-- ARM_STEP (R202). -/
def execArmStep (q : Nat) (p : Nat) (entry : BitVec 512) (s : State) : Host.Outcome State Fault Refusal :=
  s.run (Instr.armStep q p entry).wf (s.unitOn q) fun t => t.armStep q p entry.toNat

/-- TRIGGER (R192). -/
def execTrigger (q : Nat) (p : Nat) (entry : BitVec 512) (s : State) : Host.Outcome State Fault Refusal :=
  s.run (Instr.trigger q p entry).wf (s.unitOn q) fun t => t.triggerCmd q p entry.toNat

/-- INCREMENT (R211). -/
def execIncrement (q : Nat) (p : Nat) (entry : BitVec 512) (s : State) : Host.Outcome State Fault Refusal :=
  s.run (Instr.increment q p entry).wf (s.unitOn q) fun t => t.incrementCmd q p entry.toNat

/-- ABORT_COLLECTIVE (R192). -/
def execAbortCollective (q : Nat) (p : Nat) (entry : BitVec 512) (s : State) : Host.Outcome State Fault Refusal :=
  s.run (Instr.abortCollective q p entry).wf (s.unitOn q) fun t => t.abortCollective q p entry.toNat

/-- STEP_REPLAY (R222). -/
def execStepReplay (q : Nat) (p : Nat) (entry : BitVec 512) (s : State) : Host.Outcome State Fault Refusal :=
  s.run (Instr.stepReplay q p entry).wf (s.unitOn q) fun t => t.stepReplay q p entry.toNat

/-- STEP_REPLAY_END (R222). -/
def execStepReplayEnd (p : Nat) (s : State) : Host.Outcome State Fault Refusal :=
  s.run (Instr.stepReplayEnd p).wf (s.unitOn (p % 4)) fun t => t.stepReplayEnd p

/-- WARM (R474). -/
def execWarm (q : Nat) (p : Nat) (entry : BitVec 512) (s : State) : Host.Outcome State Fault Refusal :=
  s.run (Instr.warm q p entry).wf (s.unitOn q) fun t => t.warm q p entry.toNat

/-- DONE (R215). -/
def execDone (q : Nat) (pkt : Packet) (s : State) : Host.Outcome State Fault Refusal :=
  s.run (Instr.done q pkt).wf (s.unitOn q) fun t => t.doneCmd q pkt

/-- GAP_NACK (R217). -/
def execGapNack (q : Nat) (pkt : Packet) (s : State) : Host.Outcome State Fault Refusal :=
  s.run (Instr.gapNack q pkt).wf (s.unitOn q) fun t => t.gapNack q pkt

/-- PATIENCE_EXPIRY (R220). -/
def execPatienceExpiry (p : Nat) (coll : Nat) (step : Nat) (s : State) : Host.Outcome State Fault Refusal :=
  s.run (Instr.patienceExpiry p coll step).wf (s.unitOn (p % 4)) fun t => t.patienceExpiry p coll step

/-- PARTIAL_RESEND_TIMER (R210). -/
def execPartialResendTimer (p : Nat) (coll : Nat) (step : Nat) (chunk : Nat) (s : State) :
    Host.Outcome State Fault Refusal :=
  s.run (Instr.partialResendTimer p coll step chunk).wf (s.unitOn (crownQuad p coll chunk))
    fun t => t.partialResendTimer p coll step chunk

/-- POD_HOLD_EXPIRY (R210). -/
def execPodHoldExpiry (p : Nat) (coll : Nat) (step : Nat) (chunk : Nat) (s : State) :
    Host.Outcome State Fault Refusal :=
  s.run (Instr.podHoldExpiry p coll step chunk).wf (s.unitOn (crownQuad p coll chunk))
    fun t => t.podHoldExpiry p coll step chunk

/-- STRAG_CLEAR (R223). -/
def execStragClear (p : Nat) (s : State) : Host.Outcome State Fault Refusal :=
  s.run (Instr.stragClear p).wf (s.barQuad (p % 4)) fun t => t.stragClear p

end Sys2Proof.Machine
end

