-- ==== Sys2Proof/Machine/CmdSlot.lean ====
section
/-! DEFINITION. The commands of reduction slots and the pager: one meaning each. -/

namespace Sys2Proof.Machine

/-- CONTRIB (R162). -/
def execContrib (q : Nat) (pkt : Packet) (s : State) : Host.Outcome State Fault Refusal :=
  s.run (Instr.contrib q pkt).wf (s.engineOn q 0) fun t => t.contribRow q pkt

/-- ADMISSION_REQUEST (R166). -/
def execAdmissionRequest (q : Nat) (p : Nat) (coll : Nat) (step : Nat) (chunk : Nat) (s : State) :
    Host.Outcome State Fault Refusal :=
  s.run (Instr.admissionRequest q p coll step chunk).wf (s.quadOn q && s.quadUp (crownQuad p coll chunk))
    fun t => t.admissionRequest q p coll step chunk

/-- ADMISSION_REPLY (R166). -/
def execAdmissionReply (q : Nat) (p : Nat) (coll : Nat) (step : Nat) (chunk : Nat) (granted : Bool) (s : State) :
    Host.Outcome State Fault Refusal :=
  s.run (Instr.admissionReply q p coll step chunk granted).wf (s.quadOn q)
    fun t => t.admissionReply q p coll step chunk granted

/-- SLOT_READOUT_COMPLETE (R172). -/
def execSlotReadoutComplete (q : Nat) (p : Nat) (coll : Nat) (step : Nat) (chunk : Nat) (s : State) :
    Host.Outcome State Fault Refusal :=
  s.run (Instr.slotReadoutComplete q p coll step chunk).wf (s.unitOn q)
    fun t => t.slotReadoutComplete q p coll step chunk

/-- TIER0_PARTIAL (R172). -/
def execTier0Partial (q : Nat) (p : Nat) (coll : Nat) (step : Nat) (chunk : Nat) (s : State) :
    Host.Outcome State Fault Refusal :=
  s.run (Instr.tier0Partial q p coll step chunk).wf (s.engineOn (crownQuad p coll chunk) 0)
    fun t => t.tier0Row q p coll step chunk

/-- PARTIAL_DELIVERED (R172). -/
def execPartialDelivered (q : Nat) (p : Nat) (coll : Nat) (step : Nat) (chunk : Nat) (s : State) :
    Host.Outcome State Fault Refusal :=
  s.run (Instr.partialDelivered q p coll step chunk).wf (s.quadOn q) fun t => t.partialDelivered q p coll step chunk

/-- PARTIAL_RECEIVE (R598). -/
def execPartialReceive (q : Nat) (pkt : Packet) (s : State) : Host.Outcome State Fault Refusal :=
  s.run (Instr.partialReceive q pkt).wf (s.engineOn q 0) fun t => t.partialRow q pkt

/-- RESULT_FROM_RACK (R172). -/
def execResultFromRack (q : Nat) (pkt : Packet) (s : State) : Host.Outcome State Fault Refusal :=
  s.run (Instr.resultFromRack q pkt).wf (s.unitOn q) fun t => t.resultFromRack q pkt

/-- PUBLISH_FROM_RACK (R252). -/
def execPublishFromRack (q : Nat) (pkt : Packet) (s : State) : Host.Outcome State Fault Refusal :=
  s.run (Instr.publishFromRack q pkt).wf (s.unitOn q) fun t => t.publishFromRack q pkt

/-- PAGER_SPILL (R175). -/
def execPagerSpill (q : Nat) (p : Nat) (s : State) : Host.Outcome State Fault Refusal :=
  s.run (Instr.pagerSpill q p).wf (s.unitOn q) fun t => t.pagerSpill q p

/-- PAGER_RECALL (R175). -/
def execPagerRecall (q : Nat) (p : Nat) (s : State) : Host.Outcome State Fault Refusal :=
  s.run (Instr.pagerRecall q p).wf (s.unitOn q) fun t => t.pagerRecall q p

/-- PAGER_SWAP (R175). -/
def execPagerSwap (q : Nat) (p : Nat) (s : State) : Host.Outcome State Fault Refusal :=
  s.run (Instr.pagerSwap q p).wf (s.unitOn q) fun t => t.pagerSwap q p

/-- PAGER_OP_COMPLETE (R164). -/
def execPagerOpComplete (q : Nat) (s : State) : Host.Outcome State Fault Refusal :=
  s.run (Instr.pagerOpComplete q).wf (s.unitOn q) fun t => t.pagerOpComplete q

/-- SWEEP_END (R174). -/
def execSweepEnd (p : Nat) (s : State) : Host.Outcome State Fault Refusal :=
  s.run (Instr.sweepEnd p).wf s.clocked fun t => t.sweepEnd p

/-- SLAB_LOCK_TIMEOUT (R185). -/
def execSlabLockTimeout (q : Nat) (bank : Nat) (port : Nat) (req : Nat) (busy : List (Nat × Nat × Nat × Nat)) (s : State) :
    Host.Outcome State Fault Refusal :=
  s.run (Instr.slabLockTimeout q bank port req busy).wf (s.quadOn q) fun t => t.slabTimeout q bank port req busy

end Sys2Proof.Machine
end

