-- ==== Sys2Proof/Machine/CmdSpdm.lean ====
section
/-! DEFINITION. The commands of SPDM: one meaning each. -/

namespace Sys2Proof.Machine

/-- GET_VERSION (R507). -/
def execGetVersion (s : State) : Host.Outcome State Fault Refusal :=
  s.run Instr.getVersion.wf s.hatOn fun t => t.getVersion

/-- GET_CAPABILITIES (R507). -/
def execGetCapabilities (s : State) : Host.Outcome State Fault Refusal :=
  s.run Instr.getCapabilities.wf s.hatOn fun t => t.getCapabilities

/-- NEGOTIATE_ALGORITHMS (R507). -/
def execNegotiateAlgorithms (s : State) : Host.Outcome State Fault Refusal :=
  s.run Instr.negotiateAlgorithms.wf s.hatOn fun t => t.negotiateAlgorithms

/-- GET_DIGESTS (R507). -/
def execGetDigests (s : State) : Host.Outcome State Fault Refusal :=
  s.run Instr.getDigests.wf s.hatOn fun t => t.getDigests

/-- GET_CERTIFICATE (R507). -/
def execGetCertificate (off : Nat) (len : Nat) (s : State) : Host.Outcome State Fault Refusal :=
  s.run (Instr.getCertificate off len).wf s.hatOn fun t => t.getCertificate off len

/-- CHALLENGE (R507). -/
def execChallenge (nonce : List Byte) (s : State) : Host.Outcome State Fault Refusal :=
  s.run (Instr.challenge nonce).wf s.hatOn fun t => t.spdmChallenge nonce

/-- GET_MEASUREMENTS (R507). -/
def execGetMeasurements (index : Nat) (nonce : List Byte) (s : State) : Host.Outcome State Fault Refusal :=
  s.run (Instr.getMeasurements index nonce).wf s.hatOn fun t => t.getMeasurements index nonce

end Sys2Proof.Machine
end

