-- ==== Sys2Proof/Machine/CmdSwitch.lean ====
section
/-! DEFINITION. The commands of the switch core: one meaning each. -/

namespace Sys2Proof.Machine

/-- PACKET_HEADER_ARRIVAL (R108). -/
def execPacketHeaderArrival (q : Nat) (port : Nat) (pkt : Packet) (s : State) : Host.Outcome State Fault Refusal :=
  s.run (Instr.packetHeaderArrival q port pkt).wf (s.quadOn q) fun t => t.headerArrival q port pkt

/-- AGE_EXPIRY (R108). -/
def execAgeExpiry (q : Nat) (port : Nat) (s : State) : Host.Outcome State Fault Refusal :=
  s.run (Instr.ageExpiry q port).wf (s.quadOn q) fun t => t.ageExpiry q port

/-- BANK_ADMIT (R312). -/
def execBankAdmit (q : Nat) (input : Nat) (s : State) : Host.Outcome State Fault Refusal :=
  s.run (Instr.bankAdmit q input).wf (s.quadOn q) fun t => t.admitRow q input

/-- EGRESS_STREAM_START (R323). -/
def execEgressStreamStart (q : Nat) (output : Nat) (bank : Nat) (s : State) : Host.Outcome State Fault Refusal :=
  s.run (Instr.egressStreamStart q output bank).wf (s.quadOn q) fun t => t.streamStart q output bank

/-- PACKET_RELEASE (R324). -/
def execPacketRelease (q : Nat) (output : Nat) (s : State) : Host.Outcome State Fault Refusal :=
  s.run (Instr.packetRelease q output).wf (s.quadOn q) fun t => t.packetRelease q output

/-- FLUSH_END (R331). -/
def execFlushEnd (q : Nat) (port : Nat) (s : State) : Host.Outcome State Fault Refusal :=
  s.run (Instr.flushEnd q port).wf (s.quadOn q) fun t => t.flushEnd q port

/-- DEPTH_BROADCAST (R325). -/
def execDepthBroadcast (q : Nat) (s : State) : Host.Outcome State Fault Refusal :=
  s.run (Instr.depthBroadcast q).wf (s.quadOn q) fun t => t.depthBroadcast q

/-- MIR_CTL_WRITE (R334). -/
def execMirCtlWrite (q : Nat) (session : Nat) (value : BitVec 64) (s : State) : Host.Outcome State Fault Refusal :=
  s.run (Instr.mirCtlWrite q session value).wf (s.barQuad q) fun t => t.mirCtlWrite q session value.toNat

/-- LOW_CLR (R338). -/
def execLowClr (q : Nat) (s : State) : Host.Outcome State Fault Refusal :=
  s.run (Instr.lowClr q).wf (s.barQuad q) fun t => t.lowClr q

/-- PEAK_CLR (R338). -/
def execPeakClr (q : Nat) (output : Nat) (cls : Nat) (s : State) : Host.Outcome State Fault Refusal :=
  s.run (Instr.peakClr q output cls).wf (s.barQuad q) fun t => t.peakClr q output cls

end Sys2Proof.Machine
end

