-- ==== Sys2Proof/Machine/CmdTray.lean ====
section
/-! DEFINITION. The commands of tray control and the Yofen: one meaning each. -/

namespace Sys2Proof.Machine

/-- ADC_WINDOW (R423). -/
def execAdcWindow (codes : List Nat) (temps : List Nat) (rpms : List Nat) (s : State) :
    Host.Outcome State Fault Refusal :=
  s.run (Instr.adcWindow codes temps rpms).wf s.hatOn fun t => t.adcWindow codes temps rpms

/-- TACH_LOST (R426). -/
def execTachLost (n : Nat) (s : State) : Host.Outcome State Fault Refusal :=
  s.run (Instr.tachLost n).wf s.hatOn fun t => t.tachLost n

/-- TRAY_STEP (R427). -/
def execTrayStep (applied : List Nat) (peerLive : Bool) (s : State) : Host.Outcome State Fault Refusal :=
  s.run (Instr.trayStep applied peerLive).wf s.hatOn fun t => t.trayStep applied peerLive

/-- CAP_STEP (R429). -/
def execCapStep (s : State) : Host.Outcome State Fault Refusal :=
  s.run Instr.capStep.wf s.hatOn fun t => t.capStep

/-- PWR_ALERT_ASSERT (R431). -/
def execPwrAlertAssert (s : State) : Host.Outcome State Fault Refusal :=
  s.run Instr.pwrAlertAssert.wf s.hatOn fun t => t.alertAssert

/-- PWR_ALERT_RELEASE (R431). -/
def execPwrAlertRelease (s : State) : Host.Outcome State Fault Refusal :=
  s.run Instr.pwrAlertRelease.wf s.hatOn fun t => t.alertRelease

/-- ACC_GO (R305). -/
def execAccGo (value : BitVec 64) (s : State) : Host.Outcome State Fault Refusal :=
  s.run (Instr.accGo value).wf s.barOn fun t => t.accGo value.toNat

/-- YOFEN_KICK (R422). -/
def execYofenKick (s : State) : Host.Outcome State Fault Refusal :=
  s.run Instr.yofenKick.wf s.hatOn fun t => t.yofenKick

/-- YOFEN_WATCHDOG (R422). -/
def execYofenWatchdog (s : State) : Host.Outcome State Fault Refusal :=
  s.run Instr.yofenWatchdog.wf s.hatOn fun t => t.yofenWatchdog

/-- TRAY_CLAIM (R434). -/
def execTrayClaim (long : Bool) (s : State) : Host.Outcome State Fault Refusal :=
  s.run (Instr.trayClaim long).wf s.hatOn fun t => t.trayClaim long

/-- TRAY_OWN_CONFLICT (R434). -/
def execTrayOwnConflict (s : State) : Host.Outcome State Fault Refusal :=
  s.run Instr.trayOwnConflict.wf s.hatOn fun t => t.ownConflict

/-- OWNER_PUBLISH (R435). -/
def execOwnerPublish (heard : List Nat) (s : State) : Host.Outcome State Fault Refusal :=
  s.run (Instr.ownerPublish heard).wf s.hatOn fun t => t.ownerPublish heard

/-- CONTEST_START (R435). -/
def execContestStart (s : State) : Host.Outcome State Fault Refusal :=
  s.run Instr.contestStart.wf s.hatOn fun t => t.contestStart

/-- CONTEST_RESOLVE (R436). -/
def execContestResolve (peerPass : Bool) (s : State) : Host.Outcome State Fault Refusal :=
  s.run (Instr.contestResolve peerPass).wf s.hatOn fun t => t.contestResolve peerPass

/-- DEGRADED_CLEAR (R436). -/
def execDegradedClear (s : State) : Host.Outcome State Fault Refusal :=
  s.run Instr.degradedClear.wf s.hatOn fun t => t.degradedClear

/-- STANDBY_QUALIFY (R437). -/
def execStandbyQualify (s : State) : Host.Outcome State Fault Refusal :=
  s.run Instr.standbyQualify.wf s.hatOn fun t => t.standbyQualify

/-- TRAY_YIELD (R446). -/
def execTrayYield (s : State) : Host.Outcome State Fault Refusal :=
  s.run Instr.trayYield.wf s.barOn fun t => t.trayYield

/-- TELEMETRY_SEND (R439). -/
def execTelemetrySend (s : State) : Host.Outcome State Fault Refusal :=
  s.run Instr.telemetrySend.wf s.hatOn fun t => t.telemetrySend

/-- MANAGER_HEARTBEAT (R440). -/
def execManagerHeartbeat (m : Nat) (s : State) : Host.Outcome State Fault Refusal :=
  s.run (Instr.managerHeartbeat m).wf s.hatOn fun t => t.managerHeartbeat m

/-- MANAGER_LOST (R440). -/
def execManagerLost (m : Nat) (s : State) : Host.Outcome State Fault Refusal :=
  s.run (Instr.managerLost m).wf s.hatOn fun t => t.managerLost m

/-- AUTONOMOUS_HOLD (R440). -/
def execAutonomousHold (s : State) : Host.Outcome State Fault Refusal :=
  s.run Instr.autonomousHold.wf s.hatOn fun t => t.autonomousHold

/-- PUMP_STAGE_1 (R442). -/
def execPumpStage1 (s : State) : Host.Outcome State Fault Refusal :=
  s.run Instr.pumpStage1.wf s.hatOn fun t => t.pumpStage1

/-- PUMP_STAGE_2 (R442). -/
def execPumpStage2 (s : State) : Host.Outcome State Fault Refusal :=
  s.run Instr.pumpStage2.wf s.hatOn fun t => t.pumpStage2

/-- PUMP_STAGE_3 (R442). -/
def execPumpStage3 (s : State) : Host.Outcome State Fault Refusal :=
  s.run Instr.pumpStage3.wf s.hatOn fun t => t.pumpStage3

/-- PUMP_STAGE_CLEAR (R442). -/
def execPumpStageClear (s : State) : Host.Outcome State Fault Refusal :=
  s.run Instr.pumpStageClear.wf s.hatOn fun t => t.pumpStageClear

/-- TRAY_BUS_RECOVERY (R443). -/
def execTrayBusRecovery (s : State) : Host.Outcome State Fault Refusal :=
  s.run Instr.trayBusRecovery.wf s.hatOn fun t => t.trayBusRecovery

/-- TRAY_INJECT (R446). -/
def execTrayInject (value : BitVec 64) (s : State) : Host.Outcome State Fault Refusal :=
  s.run (Instr.trayInject value).wf s.barOn fun t => t.trayInject value.toNat

/-- YOFEN_REBOOT (R422). -/
def execYofenReboot (s : State) : Host.Outcome State Fault Refusal :=
  s.run Instr.yofenReboot.wf s.hatOn fun t => t.yofenReboot

end Sys2Proof.Machine
end

