-- ==== Sys2Proof/Machine/CmdTrig.lean ====
section
/-! DEFINITION. The commands of triggered operations: one meaning each. -/

namespace Sys2Proof.Machine

/-- REDUCE_FORWARD (R214). -/
def execReduceForward (p : Nat) (n : Nat) (s : State) : Host.Outcome State Fault Refusal :=
  s.run (Instr.reduceForward p n).wf (s.unitOn (p % 4)) fun t => t.reduceForward p n

/-- CONVERT_MULTICAST (R214). -/
def execConvertMulticast (p : Nat) (n : Nat) (s : State) : Host.Outcome State Fault Refusal :=
  s.run (Instr.convertMulticast p n).wf (s.unitOn (p % 4)) fun t => t.convertMulticast p n

/-- NORM_CONTRIBUTE (R235). -/
def execNormContribute (p : Nat) (n : Nat) (s : State) : Host.Outcome State Fault Refusal :=
  s.run (Instr.normContribute p n).wf (s.unitOn (p % 4)) fun t => t.normContribute p n

/-- UPDATE_SHARD (R214). -/
def execUpdateShard (p : Nat) (n : Nat) (s : State) : Host.Outcome State Fault Refusal :=
  s.run (Instr.updateShard p n).wf (s.unitOn (p % 4)) fun t => t.updateShard p n

/-- PUBLISH_OP (R253). -/
def execPublishOp (p : Nat) (n : Nat) (s : State) : Host.Outcome State Fault Refusal :=
  s.run (Instr.publishOp p n).wf (s.unitOn (p % 4)) fun t => t.publishOp p n

/-- SNAPSHOT_OP (R254). -/
def execSnapshotOp (p : Nat) (n : Nat) (s : State) : Host.Outcome State Fault Refusal :=
  s.run (Instr.snapshotOp p n).wf (s.unitOn (p % 4)) fun t => t.snapshotOp p n

/-- SIGNAL_HOST (R214). -/
def execSignalHost (p : Nat) (n : Nat) (s : State) : Host.Outcome State Fault Refusal :=
  s.run (Instr.signalHost p n).wf (s.unitOn (p % 4)) fun t => t.signalHost p n

/-- INCREMENT_OP (R214). -/
def execIncrementOp (p : Nat) (n : Nat) (s : State) : Host.Outcome State Fault Refusal :=
  s.run (Instr.incrementOp p n).wf (s.unitOn (p % 4)) fun t => t.incrementOp p n

/-- WAIT_EPOCH (R214). -/
def execWaitEpoch (p : Nat) (n : Nat) (s : State) : Host.Outcome State Fault Refusal :=
  s.run (Instr.waitEpoch p n).wf (s.unitOn (p % 4)) fun t => t.waitEpoch p n

/-- TRIGGER_OP_COMPLETE (R213). -/
def execTriggerOpComplete (p : Nat) (n : Nat) (s : State) : Host.Outcome State Fault Refusal :=
  s.run (Instr.triggerOpComplete p n).wf (s.unitOn (p % 4)) fun t => t.triggerOpComplete p n

end Sys2Proof.Machine
end

