-- ==== Sys2Proof/Machine/CmdUpdate.lean ====
section
/-! DEFINITION. The commands of the update engine: one meaning each. -/

namespace Sys2Proof.Machine

/-- CHUNK_HANDOFF (R234). -/
def execChunkHandoff (p : Nat) (coll : Nat) (step : Nat) (chunk : Nat) (s : State) : Host.Outcome State Fault Refusal :=
  s.run (Instr.chunkHandoff p coll step chunk).wf s.unitsOk fun t => t.handoffRow p coll step chunk

/-- UPDATE_PASS (R250). -/
def execUpdatePass (p : Nat) (shard : Nat) (chunk : Nat) (s : State) : Host.Outcome State Fault Refusal :=
  s.run (Instr.updatePass p shard chunk).wf s.unitsOk fun t => t.updatePassRow p shard chunk

/-- STEP_DECIDED (R240). -/
def execStepDecided (p : Nat) (s : State) : Host.Outcome State Fault Refusal :=
  s.run (Instr.stepDecided p).wf (s.unitOn (p % 4)) fun t => t.stepDecided p

/-- STEP_TIMER_EXPIRY (R241). -/
def execStepTimerExpiry (p : Nat) (s : State) : Host.Outcome State Fault Refusal :=
  s.run (Instr.stepTimerExpiry p).wf (s.unitOn (p % 4)) fun t => t.stepTimerExpiry p

/-- UPDATE_PROGRESS_TIMEOUT (R256). -/
def execUpdateProgressTimeout (q : Nat) (s : State) : Host.Outcome State Fault Refusal :=
  s.run (Instr.updateProgressTimeout q).wf (s.quadOn q) fun t => t.updateProgressTimeout q

/-- PUBLISH (R253). -/
def execPublish (q : Nat) (p : Nat) (entry : BitVec 512) (s : State) : Host.Outcome State Fault Refusal :=
  s.run (Instr.publish q p entry).wf (s.engineOn q 1) fun t => t.publishCmd q p entry.toNat

/-- SNAPSHOT (R254). -/
def execSnapshot (q : Nat) (p : Nat) (entry : BitVec 512) (s : State) : Host.Outcome State Fault Refusal :=
  s.run (Instr.snapshot q p entry).wf (s.engineOn q 1) fun t => t.snapshotCmd q p entry.toNat

/-- IMPORT (R255). -/
def execImport (q : Nat) (p : Nat) (entry : BitVec 512) (s : State) : Host.Outcome State Fault Refusal :=
  s.run (Instr.import_ q p entry).wf (s.engineOn q 1) fun t => t.importCmd q p entry.toNat

/-- SET_T (R255). -/
def execSetT (q : Nat) (p : Nat) (entry : BitVec 512) (s : State) : Host.Outcome State Fault Refusal :=
  s.run (Instr.setT q p entry).wf (s.engineOn q 1) fun t => t.setT q p entry.toNat

end Sys2Proof.Machine
end

