-- ==== Sys2Proof/Machine/Dispatch.lean ====
section
/-! DEFINITION. One arm per command. -/

namespace Sys2Proof.Machine

def exec (i : Instr) (s : State) : Host.Outcome State Fault Refusal :=
  match i with
  | .registerWrite fn off size value => Sys2Proof.Machine.execRegisterWrite fn off size value s
  | .splitReadLow fn off size => Sys2Proof.Machine.execSplitReadLow fn off size s
  | .seamCrcError a b => Sys2Proof.Machine.execSeamCrcError a b s
  | .seamDown a b => Sys2Proof.Machine.execSeamDown a b s
  | .knitLoad fn => Sys2Proof.Machine.execKnitLoad fn s
  | .knitAbort fn => Sys2Proof.Machine.execKnitAbort fn s
  | .knitCommit fn => Sys2Proof.Machine.execKnitCommit fn s
  | .knitFetchComplete file => Sys2Proof.Machine.execKnitFetchComplete file s
  | .groupCommit => Sys2Proof.Machine.execGroupCommit s
  | .resyncEnd => Sys2Proof.Machine.execResyncEnd s
  | .quietTimeout => Sys2Proof.Machine.execQuietTimeout s
  | .knitVoteResult => Sys2Proof.Machine.execKnitVoteResult s
  | .voteCommitTimeout => Sys2Proof.Machine.execVoteCommitTimeout s
  | .borderDrainEnd => Sys2Proof.Machine.execBorderDrainEnd s
  | .borderDrainTimeout => Sys2Proof.Machine.execBorderDrainTimeout s
  | .borderZeroizeEnd mismatch => Sys2Proof.Machine.execBorderZeroizeEnd mismatch s
  | .packetHeaderArrival q port pkt => Sys2Proof.Machine.execPacketHeaderArrival q port pkt s
  | .ageExpiry q port => Sys2Proof.Machine.execAgeExpiry q port s
  | .epochFlip p => Sys2Proof.Machine.execEpochFlip p s
  | .epochRetire p => Sys2Proof.Machine.execEpochRetire p s
  | .resultResendTimer p coll step => Sys2Proof.Machine.execResultResendTimer p coll step s
  | .cnackReceive q pkt => Sys2Proof.Machine.execCnackReceive q pkt s
  | .kegusTestWrite reg value => Sys2Proof.Machine.execKegusTestWrite reg value s
  | .contrib q pkt => Sys2Proof.Machine.execContrib q pkt s
  | .admissionRequest q p coll step chunk => Sys2Proof.Machine.execAdmissionRequest q p coll step chunk s
  | .admissionReply q p coll step chunk granted => Sys2Proof.Machine.execAdmissionReply q p coll step chunk granted s
  | .slotReadoutComplete q p coll step chunk => Sys2Proof.Machine.execSlotReadoutComplete q p coll step chunk s
  | .tier0Partial q p coll step chunk => Sys2Proof.Machine.execTier0Partial q p coll step chunk s
  | .partialDelivered q p coll step chunk => Sys2Proof.Machine.execPartialDelivered q p coll step chunk s
  | .partialReceive q pkt => Sys2Proof.Machine.execPartialReceive q pkt s
  | .resultFromRack q pkt => Sys2Proof.Machine.execResultFromRack q pkt s
  | .publishFromRack q pkt => Sys2Proof.Machine.execPublishFromRack q pkt s
  | .pagerSpill q p => Sys2Proof.Machine.execPagerSpill q p s
  | .pagerRecall q p => Sys2Proof.Machine.execPagerRecall q p s
  | .pagerSwap q p => Sys2Proof.Machine.execPagerSwap q p s
  | .pagerOpComplete q => Sys2Proof.Machine.execPagerOpComplete q s
  | .sweepEnd p => Sys2Proof.Machine.execSweepEnd p s
  | .slabLockTimeout q bank port req busy => Sys2Proof.Machine.execSlabLockTimeout q bank port req busy s
  | .ringDoorbell q p e prod => Sys2Proof.Machine.execRingDoorbell q p e prod s
  | .doorbell q pkt => Sys2Proof.Machine.execDoorbell q pkt s
  | .ringErrClear q p e => Sys2Proof.Machine.execRingErrClear q p e s
  | .cqRecordWrite p k => Sys2Proof.Machine.execCqRecordWrite p k s
  | .collective q p entry => Sys2Proof.Machine.execCollective q p entry s
  | .armStep q p entry => Sys2Proof.Machine.execArmStep q p entry s
  | .trigger q p entry => Sys2Proof.Machine.execTrigger q p entry s
  | .increment q p entry => Sys2Proof.Machine.execIncrement q p entry s
  | .abortCollective q p entry => Sys2Proof.Machine.execAbortCollective q p entry s
  | .stepReplay q p entry => Sys2Proof.Machine.execStepReplay q p entry s
  | .stepReplayEnd p => Sys2Proof.Machine.execStepReplayEnd p s
  | .warm q p entry => Sys2Proof.Machine.execWarm q p entry s
  | .done q pkt => Sys2Proof.Machine.execDone q pkt s
  | .gapNack q pkt => Sys2Proof.Machine.execGapNack q pkt s
  | .patienceExpiry p coll step => Sys2Proof.Machine.execPatienceExpiry p coll step s
  | .reduceForward p n => Sys2Proof.Machine.execReduceForward p n s
  | .convertMulticast p n => Sys2Proof.Machine.execConvertMulticast p n s
  | .normContribute p n => Sys2Proof.Machine.execNormContribute p n s
  | .updateShard p n => Sys2Proof.Machine.execUpdateShard p n s
  | .publishOp p n => Sys2Proof.Machine.execPublishOp p n s
  | .snapshotOp p n => Sys2Proof.Machine.execSnapshotOp p n s
  | .signalHost p n => Sys2Proof.Machine.execSignalHost p n s
  | .incrementOp p n => Sys2Proof.Machine.execIncrementOp p n s
  | .waitEpoch p n => Sys2Proof.Machine.execWaitEpoch p n s
  | .triggerOpComplete p n => Sys2Proof.Machine.execTriggerOpComplete p n s
  | .partialResendTimer p coll step chunk => Sys2Proof.Machine.execPartialResendTimer p coll step chunk s
  | .podHoldExpiry p coll step chunk => Sys2Proof.Machine.execPodHoldExpiry p coll step chunk s
  | .stragClear p => Sys2Proof.Machine.execStragClear p s
  | .chunkHandoff p coll step chunk => Sys2Proof.Machine.execChunkHandoff p coll step chunk s
  | .updatePass p shard chunk => Sys2Proof.Machine.execUpdatePass p shard chunk s
  | .stepDecided p => Sys2Proof.Machine.execStepDecided p s
  | .stepTimerExpiry p => Sys2Proof.Machine.execStepTimerExpiry p s
  | .updateProgressTimeout q => Sys2Proof.Machine.execUpdateProgressTimeout q s
  | .publish q p entry => Sys2Proof.Machine.execPublish q p entry s
  | .snapshot q p entry => Sys2Proof.Machine.execSnapshot q p entry s
  | .import_ q p entry => Sys2Proof.Machine.execImport q p entry s
  | .setT q p entry => Sys2Proof.Machine.execSetT q p entry s
  | .gramAcc q p entry => Sys2Proof.Machine.execGramAcc q p entry s
  | .matmul q p entry => Sys2Proof.Machine.execMatmul q p entry s
  | .nsRoot q p entry => Sys2Proof.Machine.execNsRoot q p entry s
  | .nsOrtho q p entry => Sys2Proof.Machine.execNsOrtho q p entry s
  | .apply q p entry => Sys2Proof.Machine.execApply q p entry s
  | .gramWaitRelease q p => Sys2Proof.Machine.execGramWaitRelease q p s
  | .gramUnit q p => Sys2Proof.Machine.execGramUnit q p s
  | .gramProgressTimeout q p => Sys2Proof.Machine.execGramProgressTimeout q p s
  | .mitMember pkt => Sys2Proof.Machine.execMitMember pkt s
  | .mitRow pkt => Sys2Proof.Machine.execMitRow pkt s
  | .mitColumn pkt => Sys2Proof.Machine.execMitColumn pkt s
  | .mitCourier pkt => Sys2Proof.Machine.execMitCourier pkt s
  | .mitRoundAbort c seq => Sys2Proof.Machine.execMitRoundAbort c seq s
  | .mitPeerResend c seq => Sys2Proof.Machine.execMitPeerResend c seq s
  | .mitCarryResend c seq => Sys2Proof.Machine.execMitCarryResend c seq s
  | .mitRoleSet c role => Sys2Proof.Machine.execMitRoleSet c role s
  | .noticeEnWrite value => Sys2Proof.Machine.execNoticeEnWrite value s
  | .noticeRepeat => Sys2Proof.Machine.execNoticeRepeat s
  | .bankAdmit q input => Sys2Proof.Machine.execBankAdmit q input s
  | .egressStreamStart q output bank => Sys2Proof.Machine.execEgressStreamStart q output bank s
  | .packetRelease q output => Sys2Proof.Machine.execPacketRelease q output s
  | .flushEnd q port => Sys2Proof.Machine.execFlushEnd q port s
  | .depthBroadcast q => Sys2Proof.Machine.execDepthBroadcast q s
  | .mirCtlWrite q session value => Sys2Proof.Machine.execMirCtlWrite q session value s
  | .lowClr q => Sys2Proof.Machine.execLowClr q s
  | .peakClr q output cls => Sys2Proof.Machine.execPeakClr q output cls s
  | .linkDownHoldEnd q port => Sys2Proof.Machine.execLinkDownHoldEnd q port s
  | .linkSignalDetect q port lanes => Sys2Proof.Machine.execLinkSignalDetect q port lanes s
  | .linkTrainEnd q port => Sys2Proof.Machine.execLinkTrainEnd q port s
  | .linkAlignDone q port => Sys2Proof.Machine.execLinkAlignDone q port s
  | .linkAttemptTimeout q port => Sys2Proof.Machine.execLinkAttemptTimeout q port s
  | .linkX2SlotEnd q port => Sys2Proof.Machine.execLinkX2SlotEnd q port s
  | .linkRetrainTimeout q port => Sys2Proof.Machine.execLinkRetrainTimeout q port s
  | .lcfReceive q port flit => Sys2Proof.Machine.execLcfReceive q port flit s
  | .syncReq q port vc sent => Sys2Proof.Machine.execSyncReq q port vc sent s
  | .quiet q port => Sys2Proof.Machine.execQuiet q port s
  | .quietAck q port => Sys2Proof.Machine.execQuietAck q port s
  | .retrain q port => Sys2Proof.Machine.execRetrain q port s
  | .quietIdleExpiry q port => Sys2Proof.Machine.execQuietIdleExpiry q port s
  | .linkWake q port => Sys2Proof.Machine.execLinkWake q port s
  | .peerSignalWake q port => Sys2Proof.Machine.execPeerSignalWake q port s
  | .codewordDecode q port l0 l1 l2 l3 => Sys2Proof.Machine.execCodewordDecode q port l0 l1 l2 l3 s
  | .creditStarve q port vc => Sys2Proof.Machine.execCreditStarve q port vc s
  | .laneErrorWindow q port => Sys2Proof.Machine.execLaneErrorWindow q port s
  | .degradeSwitch q port => Sys2Proof.Machine.execDegradeSwitch q port s
  | .ucwWindow q port => Sys2Proof.Machine.execUcwWindow q port s
  | .lcfLoss q port => Sys2Proof.Machine.execLcfLoss q port s
  | .linkRetrainWrite q port value => Sys2Proof.Machine.execLinkRetrainWrite q port value s
  | .linkEnWrite q port value => Sys2Proof.Machine.execLinkEnWrite q port value s
  | .linkInject q value => Sys2Proof.Machine.execLinkInject q value s
  | .patrolScrub q stack => Sys2Proof.Machine.execPatrolScrub q stack s
  | .hbmRetire q stack channel whole => Sys2Proof.Machine.execHbmRetire q stack channel whole s
  | .hbmRetireCmd q value => Sys2Proof.Machine.execHbmRetireCmd q value s
  | .spareRemapEnd q ext => Sys2Proof.Machine.execSpareRemapEnd q ext s
  | .hbmLockTimeout q stack pc req => Sys2Proof.Machine.execHbmLockTimeout q stack pc req s
  | .hbmInject q value => Sys2Proof.Machine.execHbmInject q value s
  | .parkWrite q pkt => Sys2Proof.Machine.execParkWrite q pkt s
  | .parkRead q pkt => Sys2Proof.Machine.execParkRead q pkt s
  | .parkApply q p => Sys2Proof.Machine.execParkApply q p s
  | .parkServiceFault q => Sys2Proof.Machine.execParkServiceFault q s
  | .moverStart q p entry => Sys2Proof.Machine.execMoverStart q p entry s
  | .moverPause q p c entry => Sys2Proof.Machine.execMoverPause q p c entry s
  | .moverResume q p c entry => Sys2Proof.Machine.execMoverResume q p c entry s
  | .moverAbort q p c entry => Sys2Proof.Machine.execMoverAbort q p c entry s
  | .moverErrClear q p c => Sys2Proof.Machine.execMoverErrClear q p c s
  | .move q p c host => Sys2Proof.Machine.execMove q p c host s
  | .fill q p c => Sys2Proof.Machine.execFill q p c s
  | .compare q p c host => Sys2Proof.Machine.execCompare q p c host s
  | .wait q p c => Sys2Proof.Machine.execWait q p c s
  | .waitMet q p c => Sys2Proof.Machine.execWaitMet q p c s
  | .signal q p c => Sys2Proof.Machine.execSignal q p c s
  | .link q p c => Sys2Proof.Machine.execLink q p c s
  | .end_ q p c => Sys2Proof.Machine.execEnd q p c s
  | .pauseDrainEnd q p c => Sys2Proof.Machine.execPauseDrainEnd q p c s
  | .moverRecordWrite q p c => Sys2Proof.Machine.execMoverRecordWrite q p c s
  | .moverBusError q cause => Sys2Proof.Machine.execMoverBusError q cause s
  | .moverBeatTimeout q => Sys2Proof.Machine.execMoverBeatTimeout q s
  | .moverRestart q => Sys2Proof.Machine.execMoverRestart q s
  | .eventCounterWrite q p n value => Sys2Proof.Machine.execEventCounterWrite q p n value s
  | .adcWindow codes temps rpms => Sys2Proof.Machine.execAdcWindow codes temps rpms s
  | .tachLost n => Sys2Proof.Machine.execTachLost n s
  | .trayStep applied peerLive => Sys2Proof.Machine.execTrayStep applied peerLive s
  | .capStep => Sys2Proof.Machine.execCapStep s
  | .pwrAlertAssert => Sys2Proof.Machine.execPwrAlertAssert s
  | .pwrAlertRelease => Sys2Proof.Machine.execPwrAlertRelease s
  | .accGo value => Sys2Proof.Machine.execAccGo value s
  | .yofenKick => Sys2Proof.Machine.execYofenKick s
  | .yofenWatchdog => Sys2Proof.Machine.execYofenWatchdog s
  | .trayClaim long => Sys2Proof.Machine.execTrayClaim long s
  | .trayOwnConflict => Sys2Proof.Machine.execTrayOwnConflict s
  | .ownerPublish heard => Sys2Proof.Machine.execOwnerPublish heard s
  | .contestStart => Sys2Proof.Machine.execContestStart s
  | .contestResolve peerPass => Sys2Proof.Machine.execContestResolve peerPass s
  | .degradedClear => Sys2Proof.Machine.execDegradedClear s
  | .standbyQualify => Sys2Proof.Machine.execStandbyQualify s
  | .trayYield => Sys2Proof.Machine.execTrayYield s
  | .telemetrySend => Sys2Proof.Machine.execTelemetrySend s
  | .managerHeartbeat m => Sys2Proof.Machine.execManagerHeartbeat m s
  | .managerLost m => Sys2Proof.Machine.execManagerLost m s
  | .autonomousHold => Sys2Proof.Machine.execAutonomousHold s
  | .pumpStage1 => Sys2Proof.Machine.execPumpStage1 s
  | .pumpStage2 => Sys2Proof.Machine.execPumpStage2 s
  | .pumpStage3 => Sys2Proof.Machine.execPumpStage3 s
  | .pumpStageClear => Sys2Proof.Machine.execPumpStageClear s
  | .trayBusRecovery => Sys2Proof.Machine.execTrayBusRecovery s
  | .trayInject value => Sys2Proof.Machine.execTrayInject value s
  | .cartInsert c => Sys2Proof.Machine.execCartInsert c s
  | .cartPresenceLost c => Sys2Proof.Machine.execCartPresenceLost c s
  | .cartTouch c high => Sys2Proof.Machine.execCartTouch c high s
  | .cartCuffOpen c => Sys2Proof.Machine.execCartCuffOpen c s
  | .preDrainCancel c => Sys2Proof.Machine.execPreDrainCancel c s
  | .cartButton c down => Sys2Proof.Machine.execCartButton c down s
  | .cartButtonHold c => Sys2Proof.Machine.execCartButtonHold c s
  | .trayButton => Sys2Proof.Machine.execTrayButton s
  | .trayButtonHold => Sys2Proof.Machine.execTrayButtonHold s
  | .cartDrain c => Sys2Proof.Machine.execCartDrain c s
  | .cartForce c => Sys2Proof.Machine.execCartForce c s
  | .cartRejoin c => Sys2Proof.Machine.execCartRejoin c s
  | .cartDrainComplete c => Sys2Proof.Machine.execCartDrainComplete c s
  | .cartDrainTimeout c => Sys2Proof.Machine.execCartDrainTimeout c s
  | .cartForceStop c => Sys2Proof.Machine.execCartForceStop c s
  | .cartSafe c => Sys2Proof.Machine.execCartSafe c s
  | .cartInService c => Sys2Proof.Machine.execCartInService c s
  | .vinLow => Sys2Proof.Machine.execVinLow s
  | .vinHoldupEnd => Sys2Proof.Machine.execVinHoldupEnd s
  | .vinGood => Sys2Proof.Machine.execVinGood s
  | .railTimeout => Sys2Proof.Machine.execRailTimeout s
  | .vauxLow => Sys2Proof.Machine.execVauxLow s
  | .powerRequest target => Sys2Proof.Machine.execPowerRequest target s
  | .p2QuietEnd expired => Sys2Proof.Machine.execP2QuietEnd expired s
  | .yofenIdleStop => Sys2Proof.Machine.execYofenIdleStop s
  | .engineGate q e => Sys2Proof.Machine.execEngineGate q e s
  | .engineWake q e => Sys2Proof.Machine.execEngineWake q e s
  | .warmHoldEnd q e p => Sys2Proof.Machine.execWarmHoldEnd q e p s
  | .refclkLost => Sys2Proof.Machine.execRefclkLost s
  | .refclkReturn => Sys2Proof.Machine.execRefclkReturn s
  | .refclkLossTimeout => Sys2Proof.Machine.execRefclkLossTimeout s
  | .oscCalibrate => Sys2Proof.Machine.execOscCalibrate s
  | .thermalTrip => Sys2Proof.Machine.execThermalTrip s
  | .coldReset => Sys2Proof.Machine.execColdReset s
  | .moduleReset cool => Sys2Proof.Machine.execModuleReset cool s
  | .quadrantReset q => Sys2Proof.Machine.execQuadrantReset q s
  | .partitionReset p flr => Sys2Proof.Machine.execPartitionReset p flr s
  | .perst asserted => Sys2Proof.Machine.execPerst asserted s
  | .startupStepComplete ok failed => Sys2Proof.Machine.execStartupStepComplete ok failed s
  | .loadtestRun => Sys2Proof.Machine.execLoadtestRun s
  | .loadtestPhaseEnd crcOk => Sys2Proof.Machine.execLoadtestPhaseEnd crcOk s
  | .lifecycleObject obj => Sys2Proof.Machine.execLifecycleObject obj s
  | .ownerEnrol cert => Sys2Proof.Machine.execOwnerEnrol cert s
  | .firmwareFloor => Sys2Proof.Machine.execFirmwareFloor s
  | .knitFloor => Sys2Proof.Machine.execKnitFloor s
  | .challengeRead => Sys2Proof.Machine.execChallengeRead s
  | .debugRequestD1 => Sys2Proof.Machine.execDebugRequestD1 s
  | .tokenSubmit token => Sys2Proof.Machine.execTokenSubmit token s
  | .debugRelease => Sys2Proof.Machine.execDebugRelease s
  | .grantExpiry => Sys2Proof.Machine.execGrantExpiry s
  | .bypass => Sys2Proof.Machine.execBypass s
  | .idcode => Sys2Proof.Machine.execIdcode s
  | .samplePreload bits => Sys2Proof.Machine.execSamplePreload bits s
  | .extest bits => Sys2Proof.Machine.execExtest bits s
  | .extestPulse bits => Sys2Proof.Machine.execExtestPulse bits s
  | .extestTrain bits => Sys2Proof.Machine.execExtestTrain bits s
  | .clamp => Sys2Proof.Machine.execClamp s
  | .highz => Sys2Proof.Machine.execHighz s
  | .dbgReq bit => Sys2Proof.Machine.execDbgReq bit s
  | .dbgToken token => Sys2Proof.Machine.execDbgToken token s
  | .dbgAccess bits => Sys2Proof.Machine.execDbgAccess bits s
  | .firmwareUpdate addr data => Sys2Proof.Machine.execFirmwareUpdate addr data s
  | .getVersion => Sys2Proof.Machine.execGetVersion s
  | .getCapabilities => Sys2Proof.Machine.execGetCapabilities s
  | .negotiateAlgorithms => Sys2Proof.Machine.execNegotiateAlgorithms s
  | .getDigests => Sys2Proof.Machine.execGetDigests s
  | .getCertificate off len => Sys2Proof.Machine.execGetCertificate off len s
  | .challenge nonce => Sys2Proof.Machine.execChallenge nonce s
  | .getMeasurements index nonce => Sys2Proof.Machine.execGetMeasurements index nonce s
  | .setEndpointId binding eid => Sys2Proof.Machine.execSetEndpointId binding eid s
  | .pldmSensorRead n => Sys2Proof.Machine.execPldmSensorRead n s
  | .pldmEffecterWrite n value => Sys2Proof.Machine.execPldmEffecterWrite n value s
  | .bar2Read fn off len => Sys2Proof.Machine.execBar2Read fn off len s
  | .bar2Write fn off data poisoned => Sys2Proof.Machine.execBar2Write fn off data poisoned s
  | .pf0Flr => Sys2Proof.Machine.execPf0Flr s
  | .pcieLinkDown down => Sys2Proof.Machine.execPcieLinkDown down s
  | .hostAccessFail fn user q c => Sys2Proof.Machine.execHostAccessFail fn user q c s
  | .msixUnmask fn vec => Sys2Proof.Machine.execMsixUnmask fn vec s
  | .counterClear value => Sys2Proof.Machine.execCounterClear value s
  | .tallySweep due skipped => Sys2Proof.Machine.execTallySweep due skipped s
  | .samplerCtlWrite q value => Sys2Proof.Machine.execSamplerCtlWrite q value s
  | .injectEnableWrite value => Sys2Proof.Machine.execInjectEnableWrite value s
  | .errorInject value => Sys2Proof.Machine.execErrorInject value s
  | .debugWindowAccess write off size value => Sys2Proof.Machine.execDebugWindowAccess write off size value s
  | .cartLatchClose c => Sys2Proof.Machine.execCartLatchClose c s
  | .retrainPrbsEnd q port => Sys2Proof.Machine.execRetrainPrbsEnd q port s
  | .yofenReboot => Sys2Proof.Machine.execYofenReboot s
  | .quadrantResetEnd q => Sys2Proof.Machine.execQuadrantResetEnd q s
  | .moduleResetRelease => Sys2Proof.Machine.execModuleResetRelease s
  | .ieee1588Time ns => Sys2Proof.Machine.execIeee1588Time ns s

end Sys2Proof.Machine
end

