-- ==== Sys2Proof/Machine/Package.lean ====
section
/-! DEFINITION. The package: the names of its contacts and what each one carries (R576 to R582 of
spec/21_package_and_electrical.md). -/

namespace Sys2Proof.Machine

/-! ## Names (R576) -/

def rowLetters : List String :=
  ["A", "B", "C", "D", "E", "F", "G", "H", "J", "K", "L", "M", "N", "P", "T", "U", "V", "W", "Y"]

/-- The name of row n, 1 to 96. -/
def rowName (n : Nat) : String :=
  if n ≤ 19 then rowLetters.getD (n - 1) ""
  else rowLetters.getD ((n - 20) / 19) "" ++ rowLetters.getD ((n - 20) % 19) ""

/-- The quadrant under a contact. -/
def contactQuad (row col : Nat) : Nat := 2 * b2n (decide (48 < row)) + b2n (decide (48 < col))

/-! ## What a contact carries (R577 to R580) -/

/-- What a contact carries; tx: the pair that the module transmits; pos: the P contact of its pair. -/
inductive Contact where
  | gnd
  | vin
  | lane (n : Nat) (tx pos : Bool)
  | pcie (k : Nat) (tx pos : Bool)
  | pcieRefclk (pos : Bool)
  | refclk (pos : Bool)
  | sgmii (link : Nat) (tx pos : Bool)
  | signal (name : String) (i : Nat)
  deriving DecidableEq, Repr

/-- The contacts of one lane pair: row, and column of P; N is the next. -/
def laneRow (q l : Nat) (tx : Bool) : Nat :=
  let r := l / 12
  if q < 2 then (if tx then 1 else 2) + 2 * r else (if tx then 96 else 95) - 2 * r

/-- The column of a lane's P (pos) or N contact. -/
def laneCol (q l : Nat) (pos : Bool) : Nat := (if q % 2 = 1 then 48 else 0) + 4 * (l % 12) + (if pos then 2 else 3)

/-- The middle two pads of a cell of four columns: P, N; none for the pads that are GND. -/
def cellPad (c : Nat) : Option Bool := if c % 4 = 1 then some true else if c % 4 = 2 then some false else none

/-- A contact of the outer bands (R577); q is the quadrant over it. -/
def laneContact (row col : Nat) : Contact :=
  let q := contactQuad row col
  let o := if q < 2 then row - 1 else 96 - row
  let c := (col - 1) % 48
  let l := 12 * (o / 2) + c / 4
  match cellPad c with
  | some pos => if l < 160 then .lane (160 * q + l) (o % 2 == 0) pos else .gnd
  | none => .gnd

/-- A contact of region H (R580): cells of two rows by four columns. -/
def highContact (row col : Nat) : Contact :=
  let k := 6 * ((row - 29) / 2) + (col - 25) / 4
  let up := (row - 29) % 2 == 0
  match cellPad (col - 25) with
  | none => .gnd
  | some pos =>
    if k < 16 then .pcie k up pos
    else if k = 16 then (if up then .gnd else .pcieRefclk pos)
    else if k = 17 then (if up then .gnd else .refclk pos)
    else if k < 20 then .sgmii (k - 18) up pos
    else .gnd

/-- n signals of one name. -/
def signals (n : Nat) (name : String) : List Contact := (List.range n).map fun i => .signal name i

/-- The signals of region M in their order (R579). -/
def regionM : List Contact :=
  signals 4 "VAUX_3V3"
    ++ (["TRAY_SLOT", "TRAY_OWN_OUT", "TRAY_OWN_IN", "MOD_RESET_N", "PWR_ALERT_N", "THERM_TRIP_N", "PERST_N", "TCK", "TMS", "TDI",
      "TDO", "TRST_N", "SPI_CLK", "SPI_CS_N"].map fun n => .signal n 0)
    ++ signals 4 "SPI_IO"
    ++ (["SMB_CLK", "SMB_DAT", "SMB_ALERT_N"].map fun n => .signal n 0)
    ++ ((List.range 8).flatMap fun i => [.signal "I3C_SCL" i, .signal "I3C_SDA" i])
    ++ signals 8 "CART_PRSNT_N" ++ signals 8 "CART_CUFF" ++ signals 8 "CART_TOUCH" ++ signals 8 "CART_BTN_N"
    ++ signals 8 "PWM" ++ signals 8 "TACH" ++ signals 48 "GPIO" ++ signals 16 "ADC_IN" ++ [.signal "ADC_VREF" 0]
    ++ signals 64 "RSVD"

/-- The contact at a row and a column, 1 to 96 each (R577 to R580). -/
def contactAt (row col : Nat) : Contact :=
  if row ≤ 28 || 69 ≤ row then laneContact row col
  else if row ≤ 40 && col ≤ 24 then regionM.getD (24 * (row - 29) + (col - 1)) .gnd
  else if row ≤ 40 && col ≤ 48 then highContact row col
  else if 45 ≤ row && row ≤ 52 && 43 ≤ col && col ≤ 54 then .vin
  else .gnd

/-- A contact that must be left unconnected (R582). -/
def unconnected : Contact → Bool
  | .signal n i => n == "RSVD" || (n == "ADC_IN" && (decide (i < 4) || i == 15))
  | _ => false

end Sys2Proof.Machine
end

