-- ==== Sys2Proof/Safety.lean ====
section
/-! DEFINITION. What a safe state is, runs of several steps, and the vocabulary of the frame statements: the parts of the state,
the blocks of the registers, and the memory bytes that the module's own rings occupy. -/

namespace Sys2Proof

/-- Every waiting command is well formed: its operands name units of the module. -/
def Machine.State.Safe (s : Machine.State) : Prop := ∀ i ∈ s.pending, i.wf = true

/-- A step goes on: it answers a next state. -/
def goesOn (o : Host.Outcome Machine.State Machine.Fault Machine.Refusal) : Prop := ∃ t, o = .next t

namespace Machine

/-! ## Parts of the state -/

/-- The parts of the state beside the queue and the registers. -/
inductive Part where
  | img | hbm | flash | badSectors | staging | bufs | reasm | svc | mitEgress | parkQ | movCmds | mit | notices | slots
  | slab | waits | admMsgs | pagerOp | insts | trigOps | cqWait | psBuf | handoffs | upd | errDue | errLog | hatLog | out | free
  deriving DecidableEq, Repr

/-- A part is the same in two states. -/
def State.same (s t : State) : Part → Prop
  | .img => t.img = s.img
  | .hbm => t.hbm = s.hbm
  | .flash => t.flash = s.flash
  | .badSectors => t.badSectors = s.badSectors
  | .staging => t.staging = s.staging
  | .bufs => t.bufs = s.bufs
  | .reasm => t.reasm = s.reasm
  | .svc => t.svc = s.svc
  | .mitEgress => t.mitEgress = s.mitEgress
  | .parkQ => t.parkQ = s.parkQ
  | .movCmds => t.movCmds = s.movCmds
  | .mit => t.mit = s.mit
  | .notices => t.notices = s.notices
  | .slots => t.slots = s.slots
  | .slab => t.slab = s.slab
  | .waits => t.waits = s.waits
  | .admMsgs => t.admMsgs = s.admMsgs
  | .pagerOp => t.pagerOp = s.pagerOp
  | .insts => t.insts = s.insts
  | .trigOps => t.trigOps = s.trigOps
  | .cqWait => t.cqWait = s.cqWait
  | .psBuf => t.psBuf = s.psBuf
  | .handoffs => t.handoffs = s.handoffs
  | .upd => t.upd = s.upd
  | .errDue => t.errDue = s.errDue
  | .errLog => t.errLog = s.errLog
  | .hatLog => t.hatLog = s.hatLog
  | .out => t.out = s.out
  | .free => t.free = s.free

/-! ## Blocks of registers -/

/-- The blocks of the register map (R564 to R566), and the scalar state beside the registers by the chapter that names it. -/
inductive Block where
  | knt | xpt | ldg | slt | arb | seq | upd | grm | mit | cor | lnk | hbm | prk | mov | tray | hat | sec | dbg | pci | ctrm | ctr
  | err | glb | yof
  | anatomy | knit | transport | ledger | slots | programs | update | gram | mitten | switch | link | memory | mover | trayCtl
  | people | power | security | host | observe | regmap | wheels
  deriving DecidableEq, Repr

/-- The block of each field number: that of the first row whose bound is above it. -/
def blockTable : List (Nat × Option Block) :=
  [
    (15, some .knt), (38, some .xpt), (55, some .ldg), (69, some .slt), (75, some .arb), (114, some .seq), (130, some .upd),
    (142, some .grm), (162, some .mit), (188, some .cor), (218, some .lnk), (247, some .hbm), (253, some .prk),
    (259, some .arb), (285, some .mov), (323, some .tray), (325, some .hat), (341, some .tray), (370, some .hat),
    (385, some .sec), (396, some .dbg), (407, some .pci), (411, some .ctrm), (415, some .ctr), (417, some .ctrm),
    (434, some .ctr), (444, some .err), (463, some .glb), (467, some .yof), (480, some .ctr), (495, some .err),
    (500, some .dbg), (1000, none), (1001, some .power), (1002, some .switch), (1007, some .observe), (1013, some .host),
    (1024, some .observe), (1027, some .transport), (1030, some .switch), (1031, some .transport), (1032, some .switch),
    (1035, some .anatomy), (1036, some .transport), (1037, some .observe), (1038, some .transport), (1045, some .programs),
    (1046, some .slots), (1048, some .knit), (1049, some .slots), (1052, some .programs), (1053, some .transport),
    (1059, some .ledger), (1061, some .knit), (1063, some .mitten), (1069, some .update), (1070, some .programs),
    (1077, some .update), (1080, some .security), (1082, some .programs), (1084, some .switch), (1100, some .link),
    (1101, some .mitten), (1104, some .link), (1108, some .gram), (1114, some .memory), (1115, some .knit),
    (1128, some .mover), (1134, some .knit), (1138, some .security), (1144, some .knit), (1145, some .programs),
    (1148, some .power), (1149, some .security), (1150, some .power), (1163, some .trayCtl), (1164, some .observe),
    (1173, some .trayCtl), (1174, some .power), (1175, some .people), (1176, some .power), (1178, some .people),
    (1189, some .power), (1196, some .security), (1197, some .host), (1199, some .observe), (1201, some .host),
    (1207, some .regmap), (1208, some .link), (1210, some .update), (1215, some .observe), (1220, some .switch),
    (1231, some .link), (1232, none), (1236, some .wheels), (1238, some .slots), (1241, some .knit), (1242, some .slots),
    (1244, some .transport), (1245, some .programs), (1246, some .ledger), (1247, some .update), (1248, some .gram),
    (1250, some .mitten), (1252, some .link), (1255, some .memory), (1261, some .mover), (1263, some .power),
    (1264, some .trayCtl), (1266, some .people), (1270, some .security), (1274, some .ctr), (1275, some .observe),
    (1276, none), (1279, some .link), (1283, some .observe), (1285, none), (1287, some .security)]

/-- The block of a field. -/
def Fld.block (f : Fld) : Option Block := ((blockTable.find? fun r => decide (f.id < r.1)).map Prod.snd).join

/-- From s to t nothing changes but the listed parts and registers of the listed blocks. -/
def State.touches (ps : List Part) (bs : List Block) (s t : State) : Prop :=
  t.pending = s.pending ∧ (∀ p, p ∉ ps → s.same t p) ∧
    ∀ (f : Fld) (b : Block) (ix : List Nat), f.block = some b → b ∉ bs → t.rd f ix = s.rd f ix

/-! ## Groups of registers that one operation writes, beside those of the groups before it -/

/-- The counters of an event (R538), and the note of a W1C bit that an event sets. -/
def ctrFields : List Fld :=
  [F.CTRM_VAL_COUNT, F.CTRM_VAL_OVF, F.CTR_VAL_COUNT, F.CTR_VAL_OVF, V.RAISED]

/-- An error record: its detector count, and a failed load test. -/
def errFields : List Fld :=
  [F.ERR_DET_COUNT, F.ERR_DET_OVF, V.LT_BAD]

/-- The end of a sampled event. -/
def sampleFields : List Fld :=
  [F.CTR_PS_STAT_WRAPPED, V.PS_REC, V.PS_BEG, V.PS_WAIT]

/-- A write of HBM: an injection that it fires. -/
def writeFields : List Fld :=
  [F.ERR_INJ_STAT_ARMED, F.ERR_INJ_STAT_FIRED, V.INJ_KIND]

/-- What a read of HBM reports (R376, R378). -/
def readFields : List Fld :=
  [F.HBM_ECC_CE, F.HBM_ECC_UCE, F.HBM_ECC_OVF, F.HBM_ERR_LOG_STACK, F.HBM_ERR_LOG_PC, F.HBM_ERR_LOG_PART, F.HBM_ERR_LOG_VALID,
   F.HBM_ERR_LOG_MORE, F.HBM_ERR_LOG_LINE, V.HBM_CE_SEC, V.CH_ERR, V.RET_DUE]

/-- A packet that is put into the module or discarded. -/
def packetFields : List Fld :=
  [F.XPT_DISC_COUNT, F.XPT_DISC_OVF, F.CTR_LEG_VAL_COUNT, F.CTR_LEG_VAL_OVF, V.RTR_DISC, V.PKT_UID]

/-- A vector raised. -/
def vectorFields : List Fld :=
  [F.PCI_FN_STAT_BADVEC, V.MSIX_PEND]

/-- A failed host access. -/
def hostFields : List Fld :=
  [F.PCI_FN_STAT_HOSTFAIL, F.PCI_FN_STAT_FAILS]

/-- An AER report. -/
def aerFields : List Fld :=
  [V.AER_ADV, V.AER_ERR]

/-- A completion record. -/
def recordFields : List Fld :=
  [F.SEQ_CQ_PTR_PROD, F.SEQ_CQ_LOST_COUNT, F.SEQ_CQ_LOST_OVF, V.CQ_VEC_TIME, V.CQ_VEC_DUE]

/-- The start of a unit of work of an engine. -/
def unitFields : List Fld :=
  [V.ENG_FREE, V.ENG_SLOT, V.ENG_PART, V.BANK_LEN, V.BANK_END, V.BANK_PART, V.BANK_WASTE]

/-- A Mitten round opened. -/
def roundFields : List Fld :=
  [F.MIT_CTX_SEQ, F.MIT_CTX_JOINING, F.MIT_STAT_COUNT, F.MIT_STAT_OVF, V.MIT_FIRST]

/-- Notices and withdrawals. -/
def noticeFields : List Fld :=
  [V.WITHDRAWN, V.NOTICE_SEQ, V.WITHDRAW_REASON]

/-- The failure or the end of a knit load. -/
def knitFields : List Fld :=
  [F.KNT_STATUS_STATE, F.KNT_STATUS_LAST_GROUP, F.KNT_STATUS_FAIL_GROUP, F.KNT_STATUS_FAIL_CODE, F.KNT_FAIL_FRAME_FRAME,
   F.KNT_PART_STATE_SERIAL, F.KNT_PART_STATE_GROUP, F.KNT_PART_STATE_PARTIAL, F.XPT_EPOCH_STATE, V.WAIT_FLIP, V.KNIT_QUIET,
   V.BORDER_DRAIN, V.BORDER_LOWERED, V.BORDER_QUOTA, V.EXT_MOVING, V.KNT_FN, V.KNT_GROUP, V.KNT_WAIT, V.KNT_VOTE,
   V.BORDER_PORT, V.QUIESCE, V.BORDER_WHEEL]

/-- The record of a step's flags. -/
def flagFields : List Fld :=
  [F.LDG_STEP_STEP_TAG, F.LDG_STEP_OVF, F.LDG_STEP_INV, F.LDG_STEP_SKIPPED, F.LDG_STEP_VALID, F.LDG_FIRST_COLL_ID,
   F.LDG_FIRST_CHUNK, F.LDG_FIRST_KIND, V.STEPFLG_REC]

/-- A Mover channel that fetches or ends. -/
def channelFields : List Fld :=
  [F.MOV_CH_STAT_STATE, F.MOV_CH_STAT_BUSY, F.MOV_CH_STAT_STATUS, F.MOV_CH_STAT_PC, F.MOV_CH_POS_I0, F.MOV_CH_POS_I1,
   F.MOV_CH_POS_I2, F.MOV_CH_POS_BEAT, F.MOV_CH_OFF_OFFSET, V.PS_COUNT, V.MOV_ENDW, V.MOV_DROP, V.MOV_TO_ERR, V.MOV_WAITC,
   V.MOV_DATAC, V.HBM_REQ]

/-- A Mover bus error. -/
def busFields : List Fld :=
  [F.MOV_STAT_STOPPED, F.MOV_STAT_FAULTED, F.MOV_STAT_CAUSE, F.MOV_STAT_BUSERRS, V.PAGER_STOP, V.MOV_BE1, V.MOV_BE2,
   V.ZERO_BUSERR]

/-- An object or token fetch that ends. -/
def fetchFields : List Fld :=
  [F.SEC_STATUS_BUSY, F.SEC_STATUS_RESULT, F.DBG_STATUS_BUSY, F.DBG_STATUS_RESULT, V.SEC_NOVEC]

/-- A port that goes down. -/
def portFields : List Fld :=
  [F.COR_PORT_OPEN, F.COR_PORT_FLUSHING, F.COR_PORT_FLUSHED, F.COR_QDEPTH_PEAK, F.LNK_PORT_STAT_STATE, F.LNK_PORT_STAT_LANES,
   F.LNK_PORT_STAT_DOWN_CAUSE, F.LNK_PORT_STAT_PEER_RX_OK, V.INJ_STOP, V.INGRESS_OPEN, V.LNK_LIMIT, V.LNK_COUNTDOWN,
   V.LNK_QUIET_REQ, V.LNK_LOST_BOUND, V.LNK_P2, V.LINK_SEQ, V.RX_CW, V.RX_LEFT, V.RX_LCF_BAD, V.RX_CW_RUN, V.RX_LCF_RUN,
   V.RX_OK_RUN]

/-- The Yofen started on demand. -/
def yofFields : List Fld :=
  [F.TRY_OWN_ROLE, F.HAT_YOF_RESETTING, F.GLB_SUMMARY_CORRECTED, F.GLB_SUMMARY_CONTAINED, F.GLB_SUMMARY_MODULE,
   F.GLB_SUMMARY_FATAL, F.ERR_RING_PTR_PROD, F.ERR_RING_LOST_COUNT, F.ERR_RING_LOST_OVF, V.VEC1_TIME, V.VEC1_DUE, V.KICK_NS,
   V.YOF_ON, V.YOF_BOOT_NS]

/-- An instance that aborts. -/
def instFields : List Fld :=
  [F.SEQ_ABORT_COLL_ID, F.SEQ_ABORT_STEP_TAG, F.SEQ_ABORT_MISSING, F.SEQ_ABORT_MORE, F.SEQ_ABORT_VALID,
   F.SEQ_ABORT_MAP_MISSING, V.INST_SEQ, V.INST_FIRST]

/-- Waiting work let in after a slot or a frame is free. -/
def slotFields : List Fld :=
  [F.SLT_EVENT_COUNT, F.SLT_EVENT_OVF, F.SEQ_SLOW_RANK, F.SEQ_SLOW_VALID, F.SEQ_SLOW_LAST, V.TRIG_CTR, V.TRIG_WORD,
   V.STRAG_LAST, V.STRAG_LAG_MAX, V.STRAG_LAG_SUM, V.STRAG_LAG_OVF, V.STEPFLG_OVF, V.STEPFLG_INV, V.STEPFLG_SET,
   V.STEPFLG_COLL, V.STEPFLG_CHUNK, V.STEPFLG_KIND, V.ACC_IN, V.ABORT_DUE]

/-- An optimizer step that fails. -/
def failFields : List Fld :=
  [F.UPD_PART_STEP_STATE, F.UPD_PART_STEP_OUTCOME, V.NORM_LEDGER, V.NORM_OPS, V.STEP_TIMER, V.UPD_STARTED, V.UPD_OP_DONE,
   V.LAMB_WW, V.LAMB_UU, V.GROUP_READY, V.GROUP_RATIO, V.LEDGER_SAT, V.NONFINITE_SEEN, V.IMPORTED, V.GRM_ABORT]

/-- From s to t nothing changes but the listed parts and the registers of the listed fields, at any index. -/
def State.writes (ps : List Part) (fs : List Fld) (s t : State) : Prop :=
  t.pending = s.pending ∧ (∀ p, p ∉ ps → s.same t p) ∧
    ∀ (f : Fld) (ix : List Nat), (∀ g ∈ fs, f.id ≠ g.id) → t.rd f ix = s.rd f ix

/-- From s to t the listed parts and the queue of commands keep their contents. -/
def State.keepsParts (ps : List Part) (s t : State) : Prop := t.pending = s.pending ∧ ∀ p ∈ ps, s.same t p

/-! ## Bytes of HBM that rings occupy -/

/-- The memory keys of the bytes of a placed range. -/
def placeKeys (ps : List (Loc × Nat)) : List Nat :=
  ps.flatMap fun pc => (List.range pc.2).map fun i => hbmKey pc.1.stack pc.1.dev + i

/-- The key a is a byte of some entry of a ring of function f's partition memory: base, log2 of its size, entry bytes. -/
def State.inRing (s : State) (f base log2 entry a : Nat) : Prop :=
  ∃ i ps, i < 2 ^ log2 ∧ s.place f (base + i * entry) entry = some ps ∧ a ∈ placeKeys ps

/-- A byte of an error ring that lies in HBM (R556, R557). -/
def State.inErrRing (s : State) (a : Nat) : Prop :=
  ∃ f, s.rdb F.ERR_RING_CTL_EN [f] = true ∧ s.rdb F.ERR_RING_CTL_HOST [f] = false ∧
    s.inRing f (s.rd F.ERR_RING_BASE_ADDR [f] * 32) (s.rd F.ERR_RING_CTL_LOG2SIZE [f]) 64 a

/-- A byte of a completion queue that lies in HBM: a partition's queues (R189) and its Mover channels' queues (R410). -/
def State.inCompletionQueue (s : State) (a : Nat) : Prop :=
  (∃ p k, s.rdb F.SEQ_CQ_CTL_HOST [p, k] = false ∧
    s.inRing p (s.rd F.SEQ_CQ_BASE_ADDR [p, k] * 32) (s.rd F.SEQ_CQ_CTL_LOG2SIZE [p, k]) 32 a) ∨
  ∃ q p c, s.rdb F.MOV_CQ_CTL_HOST [q, p, c] = false ∧
    s.inRing p (s.rd F.MOV_CQ_BASE_ADDR [q, p, c] * 32) (s.rd F.MOV_CQ_CTL_LOG2SIZE [q, p, c]) 32 a

/-- From s to t every byte of HBM keeps its value but those that satisfy a test. -/
def State.bytesBut (w : Nat → Prop) (s t : State) : Prop := ∀ a, ¬ w a → Mem.read a t.hbm = Mem.read a s.hbm

end Machine

end Sys2Proof
end

