-- ==== Sys2Proof/Certificates/Slice0/Obligations.lean ====
section
/-! DEFINITION. The statements for the provers: what every command does (completion), what it leaves unchanged (frames), the
invariants of every step, and rules of the spec.  `touches`, `keepsParts` and `bytesBut` stand in Sys2Proof/Safety.lean. -/

section Statements

open Sys2Proof Sys2Proof.Machine

/-- A step of a state whose queue begins with a command is exec of that command with the queue's rest. -/
def Obligations.StepRunsFrontCommand : Prop :=
  ∀ (c : Instr) (r : List Instr) (s : State), step { s with pending := c :: r } = exec c { s with pending := r }

/-- A step of an empty queue is one core cycle of 625 ps, with the cycles that the throttle skips before it (R429): the model's choice (log entries 1 and 81).
It ends the cycle in progress, with what that left for its end (log entry 63), and begins the next.  Where no debug token and no DBG_ACCESS waits, time and the cycle
counters go on and the rest of the module keeps its state but for the listed parts and blocks; where nothing waits, but for the listed fields. -/
def Obligations.IdleStepIsOneCoreCycle : Prop :=
  (∀ s : State, s.pending = [] → ∃ t, step s = .next t ∧ t.pending = []) ∧
  (∀ s t : State, s.pending = [] → step s = .next t → s.rd V.JTAG_TOKN [] = 0 → s.rd V.DBGA_REQ [] = 0 →
    t.rd V.TIME_PS [] =
      (s.rd V.TIME_PS [] + 625 * (1 + if s.pstate < 2 then s.rd F.TRY_CAP_THR [] - s.rd V.CLK [] % 256 else 0)) % 2 ^ 84 ∧
    (∀ q, q < 4 → t.rd V.CYCLE [q] =
      if s.pstate < 2 ∧ s.quadUp q = true then (s.rd V.CYCLE [q] + 1) % 2 ^ 64 else s.rd V.CYCLE [q]) ∧
    s.touches
      [.hbm, .badSectors, .staging, .bufs, .mitEgress, .movCmds, .mit, .slots, .slab, .waits, .insts, .trigOps, .cqWait,
       .psBuf, .handoffs, .upd, .errDue, .errLog, .hatLog, .out, .free]
      [.xpt, .ldg, .slt, .seq, .upd, .grm, .mit, .cor, .hbm, .mov, .pci, .ctrm, .ctr, .err, .glb, .knit, .transport, .ledger,
       .slots, .programs, .update, .gram, .mitten, .switch, .link, .memory, .mover, .trayCtl, .power, .security, .host,
       .observe, .wheels] t ∧
    (s.rdb V.ABORT_DUE [] = false → s.rdb V.ROUND_DUE [] = false → (∀ kv ∈ s.regs, kv.1.headD 0 ≠ V.RET_DUE.id) →
      (∀ q, q < 4 → s.rd V.MOV_RESTART [q] = 0) → s.errDue = [] →
      (∀ f ∈ [V.VEC1_DUE, V.CQ_VEC_DUE, V.MIR_VEC_DUE, V.MOV_VEC_DUE], ∀ ix, s.rdb f ix = false) →
      s.writes [.hbm, .badSectors, .bufs, .staging, .psBuf, .out]
        (ctrFields ++ writeFields ++ packetFields ++ vectorFields ++ hostFields ++ unitFields ++
          [F.COR_BUF_LOW, F.CTRM_SEL_EVENT, F.CTRM_SEL_PART, F.CTRM_SEL_PART_EN, F.CTRM_SEL_EN, F.CTR_SEL_EVENT,
           F.CTR_SEL_PART, F.CTR_SEL_PART_EN, F.CTR_SEL_EN, F.CTR_TALLY_STAT_SNAPS, F.CTR_TALLY_STAT_LOST,
           F.CTR_TALLY_PTR_PROD, F.CTR_LEG_CYCLE_COUNT, V.TIME_PS, V.CYCLE, V.RTR_STALL, V.MIR_SEQ, V.INJ_STOP, V.LNK_LIMIT,
           V.LNK_COUNTDOWN, V.COR_F, V.COR_ADMIT, V.LCF_CMD, V.SLOT_LENT, V.ACC_OUT, V.QUIET_FRAMES, V.CLK, V.LINK_CYC,
           V.SEL_NEXT, V.SWEEP_BANKS, V.SWEEP_PROGS, V.SWEEP_AT]) t))

/-- The state after a cold reset.  A field whose reset value the spec does not give has the one that the assumption log names (entry 3). -/
def Obligations.ResetState : Prop :=
  (∀ (f : Fld) (ix : List Nat), State.reset.rd f ix = f.reset) ∧
    State.reset.rd F.HAT_PSTATE_STATE [] = 3 ∧ State.reset.rd F.HAT_BOOT_STEP [] = 1 ∧
    State.reset.hbm = [] ∧ State.reset.flash = [] ∧ State.reset.img.mem = [] ∧ State.reset.slots = [] ∧
    State.reset.pending = [] ∧ State.reset.Safe ∧ State.reset.memWf = true

/-- Completion of the commands of the Woyth links and the seams: for each, where its operands are well formed, its unit runs and the stated condition holds, the next
state is the one written out.  Each clause names the rules that give the effect. -/
def Obligations.LinkCommandsComplete : Prop :=
  -- SEAM_CRC_ERROR (R19)
  (∀ (a b : Nat) (s : State),
      (Instr.seamCrcError a b).wf = true →
      (s.clocked && a != b) = true →
      exec (Instr.seamCrcError a b) s =
        .next ((s.bump V.SEAM_RETRY [min a b, max a b] 1).withQueue s.pending)) ∧
  -- SEAM_DOWN (R19)
  (∀ (a b : Nat) (s : State),
      (Instr.seamDown a b).wf = true →
      (s.clocked && a != b) = true →
      s.rdb V.SEAM_DOWN [min a b, max a b] = false →
      let u := (s.wr V.SEAM_DOWN [min a b, max a b] 1).err { det := 0x04, sev := 2, quad := min a b, unit := seamPort (min a b) (max a b) }
      exec (Instr.seamDown a b) s =
        .next (((u.wr V.PLANE_WITHDRAWN [] 1).withdraw u.presentDown 7).withQueue s.pending)) ∧
  -- LINK_DOWN_HOLD_END (R353)
  (∀ (q port : Nat) (s : State),
      (Instr.linkDownHoldEnd q port).wf = true →
      s.quadOn q = true →
      s.lnkState q port = 0 →
      s.portPresent q port = true →
      s.rdb F.LNK_PORT_CTL_EN [q, port] = true →
      s.cartThere q port = true →
      s.rd F.HAT_PSTATE_STATE [] < 3 →
      s.rd F.HAT_BOOT_STEP [] = 11 →
      s.rdb V.QRESET [q] = false →
      s.rdb V.WAKE_CLOSED [] = false →
      exec (Instr.linkDownHoldEnd q port) s =
        .next (((s.wr F.LNK_PORT_STAT_STATE [q, port] 1).wr F.LNK_PORT_STAT_LANES [q, port] 15).withQueue s.pending)) ∧
  -- LINK_SIGNAL_DETECT (R353)
  (∀ (q port lanes : Nat) (s : State),
      (Instr.linkSignalDetect q port lanes).wf = true →
      s.quadOn q = true →
      s.lnkState q port = 1 →
      (lanes % 16 = 15 ∨ (s.x2En q port = true ∧ bitOf lanes 0 = true ∧ lanes % 16 ≠ 1)) →
      exec (Instr.linkSignalDetect q port lanes) s =
        .next ((s.linkTrain q port 0).withQueue s.pending)) ∧
  -- LINK_TRAIN_END (R353)
  (∀ (q port : Nat) (s : State),
      (Instr.linkTrainEnd q port).wf = true →
      s.quadOn q = true →
      s.lnkState q port = 2 →
      exec (Instr.linkTrainEnd q port) s =
        .next ((((s.trainLanes q port).wr F.LNK_PORT_STAT_STATE [q, port] 3).framesStart q port).withQueue s.pending)) ∧
  -- LINK_ALIGN_DONE (R353)
  (∀ (q port : Nat) (s : State),
      (Instr.linkAlignDone q port).wf = true →
      s.quadOn q = true →
      s.lnkState q port = 3 →
      s.rateOk q port (s.rd V.LNK_ATTEMPT [q, port]) = true →
      s.rxOk q port = true →
      exec (Instr.linkAlignDone q port) s =
        .next ((s.enterUp q port).withQueue s.pending)) ∧
  (∀ (q port : Nat) (s : State),
      (Instr.linkAlignDone q port).wf = true →
      s.quadOn q = true →
      s.lnkState q port = 6 →
      s.rdb V.LNK_PRBS [q, port] = true →
      s.rxOk q port = true →
      exec (Instr.linkAlignDone q port) s =
        .next ((s.enterUp q port).withQueue s.pending)) ∧
  -- LINK_ATTEMPT_TIMEOUT (R353)
  (∀ (q port : Nat) (s : State),
      (Instr.linkAttemptTimeout q port).wf = true →
      s.quadOn q = true →
      s.lnkState q port = 3 →
      s.rd V.LNK_ATTEMPT [q, port] < 2 →
      exec (Instr.linkAttemptTimeout q port) s =
        .next ((s.linkTrain q port (s.rd V.LNK_ATTEMPT [q, port] + 1)).withQueue s.pending)) ∧
  (∀ (q port : Nat) (s : State),
      (Instr.linkAttemptTimeout q port).wf = true →
      s.quadOn q = true →
      s.lnkState q port = 3 →
      s.rd V.LNK_ATTEMPT [q, port] = 2 →
      exec (Instr.linkAttemptTimeout q port) s =
        .next ((s.linkDown q port 4).withQueue s.pending)) ∧
  -- LINK_X2_SLOT_END (R354)
  (∀ (q port : Nat) (s : State),
      (Instr.linkX2SlotEnd q port).wf = true →
      s.quadOn q = true →
      s.lnkState q port = 3 →
      s.x2En q port = true →
      s.rd V.LNK_SLOT [q, port] < 3 →
      exec (Instr.linkX2SlotEnd q port) s =
        .next (((((s.wr V.LNK_SLOT [q, port] (s.rd V.LNK_SLOT [q, port] + 1)).wr F.LNK_PORT_STAT_LANES [q, port]
          (slotLanes (s.rd V.LNK_SLOT [q, port] + 1))).rxBegin q port).framesStart q port).withQueue s.pending)) ∧
  -- LINK_RETRAIN_TIMEOUT (R353)
  (∀ (q port : Nat) (s : State),
      (Instr.linkRetrainTimeout q port).wf = true →
      s.quadOn q = true →
      s.lnkState q port = 6 →
      exec (Instr.linkRetrainTimeout q port) s =
        .next (((s.wr F.LNK_PORT_STAT_STATE [q, port] 1).wr F.LNK_PORT_STAT_PEER_RX_OK [q, port] 0).withQueue s.pending)) ∧
  -- LCF_RECEIVE (R346)
  (∀ (q port : Nat) (flit : BitVec 512) (s : State),
      (Instr.lcfReceive q port flit).wf = true →
      s.quadOn q = true →
      (s.lnkState q port = 3 ∨ s.lnkState q port = 6) →
      s.injLink q port 3 = false →
      lcfOk flit.toNat = true →
      s.rdb V.RX_LCF_BAD [q, port] = false →
      let r := ((s.wr V.RX_LCF_BAD [q, port] 0).runOf V.RX_LCF_RUN q port 4 true).runOf V.RX_OK_RUN q port 4 (bitOf flit.toNat 91)
      let u := (r.wr V.LNK_PEER_STATE [q, port] (bitsOf flit.toNat 88 3)).wr F.LNK_PORT_STAT_PEER_RX_OK [q, port] (bitsOf flit.toNat 91 1)
      let v := ((u.wr V.LNK_PEER_BAD [q, port] (bitsOf flit.toNat 92 4)).wr V.LNK_PEER_LANES [q, port] (bitsOf flit.toNat 96 4)).wr V.LNK_PEER_CTDN [q, port] (bitsOf flit.toNat 100 3)
      let x := v.regain q port (5 * v.rd V.RX_CW [q, port] - 1) flit.toNat
      exec (Instr.lcfReceive q port flit) s =
        .next (((x.setBad q port (x.rd V.LNK_OWN_BAD [q, port])).uCheck q port false).withQueue s.pending)) ∧
  (∀ (q port : Nat) (flit : BitVec 512) (s : State),
      (Instr.lcfReceive q port flit).wf = true →
      s.quadOn q = true →
      s.lnkState q port = 4 →
      s.injLink q port 3 = false →
      lcfOk flit.toNat = true →
      s.rdb V.RX_LCF_BAD [q, port] = false →
      let r := ((s.wr V.RX_LCF_BAD [q, port] 0).runOf V.RX_LCF_RUN q port 4 true).runOf V.RX_OK_RUN q port 4 (bitOf flit.toNat 91)
      let u := (r.wr V.LNK_PEER_STATE [q, port] (bitsOf flit.toNat 88 3)).wr F.LNK_PORT_STAT_PEER_RX_OK [q, port] (bitsOf flit.toNat 91 1)
      let v := ((u.wr V.LNK_PEER_BAD [q, port] (bitsOf flit.toNat 92 4)).wr V.LNK_PEER_LANES [q, port] (bitsOf flit.toNat 96 4)).wr V.LNK_PEER_CTDN [q, port] (bitsOf flit.toNat 100 3)
      let x := (v.regain q port (5 * v.rd V.RX_CW [q, port] - 1) flit.toNat).peerLimits q port flit.toNat
      exec (Instr.lcfReceive q port flit) s =
        .next (((x.setBad q port (x.rd V.LNK_OWN_BAD [q, port])).uCheck q port false).withQueue s.pending)) ∧
  (∀ (q port : Nat) (flit : BitVec 512) (s : State),
      (Instr.lcfReceive q port flit).wf = true →
      s.quadOn q = true →
      s.lnkState q port = 4 →
      s.injLink q port 3 = false →
      (lcfOk flit.toNat = false ∨ s.rdb V.RX_LCF_BAD [q, port] = true) →
      let r := ((s.wr V.RX_LCF_BAD [q, port] 0).runOf V.RX_LCF_RUN q port 4 false).runOf V.RX_OK_RUN q port 4 false
      exec (Instr.lcfReceive q port flit) s =
        .next ((r.bump F.LNK_PORT_ERR_LCF_BAD [q, port] 1).withQueue s.pending)) ∧
  -- SYNC_REQ (R351)
  (∀ (q port vc : Nat) (sent : BitVec 16) (s : State),
      (Instr.syncReq q port vc sent).wf = true →
      s.quadOn q = true →
      s.lnkState q port = 4 →
      1 ≤ (sent.toNat % 65536 + 65536 - s.rd V.LNK_RCVD [q, port, vc]) % 65536 →
      (sent.toNat % 65536 + 65536 - s.rd V.LNK_RCVD [q, port, vc]) % 65536 ≤ 32767 →
      let d := (sent.toNat % 65536 + 65536 - s.rd V.LNK_RCVD [q, port, vc]) % 65536
      exec (Instr.syncReq q port vc sent) s =
        .next ((((((s.bump V.LNK_RCVD [q, port, vc] d).bump V.LNK_LIMIT [q, port, vc] d).bump F.LNK_PORT_ERR_SYNCS [q, port] 1).countLegacy 8 1).lnkRecord q port 3 0 vc false).withQueue s.pending)) ∧
  -- QUIET (R357)
  (∀ (q port : Nat) (s : State),
      (Instr.quiet q port).wf = true →
      s.quadOn q = true →
      s.lnkState q port = 4 →
      s.rdb V.LNK_QUIET_REQ [q, port] = false →
      s.portIdle q port = true →
      s.sentIdle q port = true →
      exec (Instr.quiet q port) s =
        .next ((((s.lcfSend q port 3 0 0).goQuiet q port).wr V.QUIET_FRAMES [q, port] 3).withQueue s.pending)) ∧
  (∀ (q port : Nat) (s : State),
      (Instr.quiet q port).wf = true →
      s.quadOn q = true →
      s.lnkState q port = 4 →
      s.rdb V.LNK_QUIET_REQ [q, port] = true →
      s.portIdle q port = true →
      exec (Instr.quiet q port) s =
        .next ((s.goQuiet q port).withQueue s.pending)) ∧
  (∀ (q port : Nat) (s : State),
      (Instr.quiet q port).wf = true →
      s.quadOn q = true →
      s.lnkState q port = 4 →
      s.portIdle q port = false →
      exec (Instr.quiet q port) s =
        .next ((s.wr V.LNK_QUIET_REQ [q, port] 0).withQueue s.pending)) ∧
  -- QUIET_ACK (R357)
  (∀ (q port : Nat) (s : State),
      (Instr.quietAck q port).wf = true →
      s.quadOn q = true →
      s.lnkState q port = 4 →
      s.rdb V.LNK_QUIET_REQ [q, port] = true →
      (s.wr V.LNK_QUIET_REQ [q, port] 0).portIdle q port = true →
      exec (Instr.quietAck q port) s =
        .next (((s.wr V.LNK_QUIET_REQ [q, port] 0).goQuiet q port).withQueue s.pending)) ∧
  -- RETRAIN (R361)
  (∀ (q port : Nat) (s : State),
      (Instr.retrain q port).wf = true →
      s.quadOn q = true →
      s.lnkState q port = 4 →
      exec (Instr.retrain q port) s =
        .next ((s.linkRetrain q port 4 false).withQueue s.pending)) ∧
  -- QUIET_IDLE_EXPIRY (R356)
  (∀ (q port : Nat) (s : State),
      (Instr.quietIdleExpiry q port).wf = true →
      s.quadOn q = true →
      s.lnkState q port = 4 →
      s.quietEn q port = true →
      s.portIdle q port = true →
      exec (Instr.quietIdleExpiry q port) s =
        .next (((s.lcfSend q port 2 0 0).wr V.LNK_QUIET_REQ [q, port] 1).withQueue s.pending)) ∧
  -- LINK_WAKE (R359)
  (∀ (q port : Nat) (s : State),
      (Instr.linkWake q port).wf = true →
      s.quadOn q = true →
      s.lnkState q port = 5 →
      s.portIdle q port = false →
      s.rdb V.LNK_P2 [q, port] = false →
      let u := s.wakeUp q port
      exec (Instr.linkWake q port) s =
        .next ((u.wr V.TX_NEXT [q, port] (u.rd V.TX_NEXT [q, port] + 65)).withQueue s.pending)) ∧
  -- PEER_SIGNAL_WAKE (R359)
  (∀ (q port : Nat) (s : State),
      (Instr.peerSignalWake q port).wf = true →
      s.quadOn q = true →
      s.lnkState q port = 5 →
      exec (Instr.peerSignalWake q port) s =
        .next (((s.wr V.LNK_P2 [q, port] 0).wakeUp q port).withQueue s.pending)) ∧
  -- CODEWORD_DECODE (R347)
  (∀ (q port : Nat) (l0 l1 l2 l3 : BitVec 1360) (s : State),
      (Instr.codewordDecode q port l0 l1 l2 l3).wf = true →
      s.quadOn q = true →
      s.framed q port = true →
      s.injLink q port 2 = false →
      s.injLink q port 1 = false →
      let c := s.rd V.RX_CW [q, port]
      rsDecode (rxWord (s.lanesOf q port) (fun j => s.rdb F.LNK_LANE_POL [q, 4 * port + j]) c [l0.toNat, l1.toNat, l2.toNat, l3.toNat]) = none →
      let u := s.wr V.RX_CW [q, port] ((c + 1) % 13)
      let v := ((u.bump F.LNK_PORT_ERR_UCW [q, port] 1).bumpSat V.UCW_COUNT [q, port] 1).runOf V.RX_CW_RUN q port 64 false
      let x := if c = 0 then v.wr V.RX_LCF_BAD [q, port] 1 else v
      exec (Instr.codewordDecode q port l0 l1 l2 l3) s =
        .next ((if x.linkUp q port then x.rxDamaged q port c else x).withQueue s.pending)) ∧
  (∀ (q port : Nat) (l0 l1 l2 l3 : BitVec 1360) (w wrong : List Nat) (s : State),
      (Instr.codewordDecode q port l0 l1 l2 l3).wf = true →
      s.quadOn q = true →
      s.framed q port = true →
      s.injLink q port 2 = false →
      s.injLink q port 1 = false →
      let c := s.rd V.RX_CW [q, port]
      rsDecode (rxWord (s.lanesOf q port) (fun j => s.rdb F.LNK_LANE_POL [q, 4 * port + j]) c [l0.toNat, l1.toNat, l2.toNat, l3.toNat]) =
        some (w, wrong) →
      let u := s.wr V.RX_CW [q, port] ((c + 1) % 13)
      let v := (u.countSymbols q port wrong fun j => b2n (false && u.rd V.INJ_TARGET [] / 64 % 4 == j)).runOf V.RX_CW_RUN q port 64 true
      exec (Instr.codewordDecode q port l0 l1 l2 l3) s =
        .next ((if v.linkUp q port then v.rxFlits q port c ((symbolFlits (w.take 256)).map fun f => f.toNat) else v).withQueue
          s.pending)) ∧
  -- CREDIT_STARVE (R351)
  (∀ (q port vc : Nat) (s : State),
      (Instr.creditStarve q port vc).wf = true →
      s.quadOn q = true →
      s.starved q port vc = true →
      exec (Instr.creditStarve q port vc) s =
        .next ((s.lcfSend q port 1 vc (s.rd V.LNK_SENT [q, port, vc])).withQueue s.pending)) ∧
  -- LANE_ERROR_WINDOW (R360)
  (∀ (q port : Nat) (s : State),
      (Instr.laneErrorWindow q port).wf = true →
      s.quadOn q = true →
      (s.lanesRead q port).injLink q port 1 = false →
      exec (Instr.laneErrorWindow q port) s =
        .next ((((s.lanesRead q port).setBad q port (s.lanesBad q port)).uCheck q port false).withQueue s.pending)) ∧
  -- DEGRADE_SWITCH (R360)
  (∀ (q port : Nat) (s : State),
      (Instr.degradeSwitch q port).wf = true →
      s.quadOn q = true →
      s.lnkState q port = 4 →
      s.rd V.LNK_COUNTDOWN [q, port] = 1 →
      exec (Instr.degradeSwitch q port) s =
        .next (((((((s.wr F.LNK_PORT_STAT_LANES [q, port] (s.rd V.LNK_KEEP [q, port])).wr V.LNK_COUNTDOWN [q, port] 0)).framesBegin q port).bump F.LNK_PORT_STAT_DEGRADES [q, port] 1).lnkRecord q port 1 0 0 false).withQueue s.pending)) ∧
  -- UCW_WINDOW (R361)
  (∀ (q port : Nat) (s : State),
      (Instr.ucwWindow q port).wf = true →
      s.quadOn q = true →
      let u := s.wr V.UCW_COUNT [q, port] 0
      exec (Instr.ucwWindow q port) s =
        .next ((if u.rd F.LNK_THR_UCW_THR [q] < s.rd V.UCW_COUNT [q, port] then u.linkRetrain q port 1 false else u).withQueue
          s.pending)) ∧
  -- LCF_LOSS (R361)
  (∀ (q port : Nat) (s : State),
      (Instr.lcfLoss q port).wf = true →
      s.quadOn q = true →
      s.lnkState q port = 4 →
      exec (Instr.lcfLoss q port) s =
        .next ((s.linkRetrain q port 2 false).withQueue s.pending)) ∧
  -- LINK_RETRAIN_WRITE (R365)
  (∀ (q port : Nat) (value : BitVec 64) (s : State),
      (Instr.linkRetrainWrite q port value).wf = true →
      s.barQuad q = true →
      bitOf value.toNat 1 = true →
      s.lnkState q port = 4 →
      exec (Instr.linkRetrainWrite q port value) s =
        .next ((s.linkRetrain q port 5 false).withQueue s.pending)) ∧
  -- LINK_EN_WRITE (R365)
  (∀ (q port : Nat) (value : BitVec 64) (s : State),
      (Instr.linkEnWrite q port value).wf = true →
      s.barQuad q = true →
      value.toNat % 2 = 1 →
      exec (Instr.linkEnWrite q port value) s =
        .next ((s.hostWr F.LNK_PORT_CTL_EN [q, port] 1).withQueue s.pending)) ∧
  (∀ (q port : Nat) (value : BitVec 64) (s : State),
      (Instr.linkEnWrite q port value).wf = true →
      s.barQuad q = true →
      value.toNat % 2 = 0 →
      exec (Instr.linkEnWrite q port value) s =
        .next (((s.hostWr F.LNK_PORT_CTL_EN [q, port] 0).linkDown q port 1).withQueue s.pending)) ∧
  -- LINK_INJECT (R365)
  (∀ (q : Nat) (value : BitVec 64) (s : State),
      (Instr.linkInject q value).wf = true →
      s.barQuad q = true →
      bitOf value.toNat 11 = true →
      1 ≤ bitsOf value.toNat 8 3 →
      bitsOf value.toNat 8 3 ≤ 4 →
      let k := min 39 (bitsOf value.toNat 0 6)
      let u := ((s.wr F.LNK_INJ_PORT [q] k).wr F.LNK_INJ_LANE [q] (bitsOf value.toNat 6 2)).wr F.LNK_INJ_KIND [q] (bitsOf value.toNat 8 3)
      u.injAllowed false (u.portPart q k) false = true →
      exec (Instr.linkInject q value) s =
        .next ((u.injArm 2 0 q (u.portPart q k) (k + 64 * bitsOf value.toNat 6 2 + 256 * bitsOf value.toNat 8 3)).withQueue s.pending)) ∧
  -- RETRAIN_PRBS_END (R353)
  (∀ (q port : Nat) (s : State),
      (Instr.retrainPrbsEnd q port).wf = true →
      s.quadOn q = true →
      s.lnkState q port = 6 →
      exec (Instr.retrainPrbsEnd q port) s =
        .next (((s.wr V.LNK_PRBS [q, port] 1).framesBegin q port).withQueue s.pending))

/-- Completion of the commands of register access: for each, where its operands are well formed, its unit runs and the stated condition holds, the next
state is the one written out.  Each clause names the rules that give the effect. -/
def Obligations.RegCommandsComplete : Prop :=
  -- REGISTER_WRITE (R11)
  (∀ (fn off size : Nat) (value : BitVec 64) (s : State),
      (Instr.registerWrite fn off size value).wf = true →
      s.pciUp = true →
      badAccess off size = false →
      exec (Instr.registerWrite fn off size value) s =
        .next ((((s.countModule 0 16 0 1).bar0Touch fn).bar0Store fn off size value.toNat).withQueue s.pending)) ∧
  -- SPLIT_READ_LOW (R569)
  (∀ (fn off size : Nat) (s : State),
      (Instr.splitReadLow fn off size).wf = true →
      s.pciUp = true →
      size = 4 →
      off % 8 = 0 →
      badAccess off 4 = false →
      (¬(0x2000000 ≤ off ∧ off < 0x3000000)) →
      let b := s.countModule 0 16 0 1
      (b.rdb V.SPLIT_OK [fn] = false ∨ off ≠ b.rd V.SPLIT_OFF [fn] + 4) →
      ((b.bar0Touch fn).bar0Value fn off 4).2.1 = 0 →
      let u := (b.bar0Touch fn).bar0Value fn off 4
      exec (Instr.splitReadLow fn off size) s =
        .next (((((u.1.wr V.SPLIT_OFF [fn] off).wr V.SPLIT_HI [fn] (u.2.2 / 2 ^ 32)).wr V.SPLIT_OK [fn] 1).tlp
          (.completion fn 0 (leBytes 4 (u.2.2 % 2 ^ 32)))).withQueue s.pending)) ∧
  -- KEGUS_TEST_WRITE (R152)
  (∀ (reg : Nat) (value : BitVec 64) (s : State),
      (Instr.kegusTestWrite reg value).wf = true →
      s.barOn = true →
      reg = 0 →
      let u := s.wr F.LDG_KTEST_SEED_SEED [] value.toNat
      exec (Instr.kegusTestWrite reg value) s =
        .next ((u.wr F.LDG_KTEST_OUT_NOISE [] (kegus (u.rd F.LDG_KTEST_SEED_SEED []) (u.rd F.LDG_KTEST_IN_STEP []) (u.rd F.LDG_KTEST_IN_COLL []) (u.rd F.LDG_KTEST_POS_CHUNK []) (u.rd F.LDG_KTEST_POS_ELEM []))).withQueue s.pending)) ∧
  (∀ (reg : Nat) (value : BitVec 64) (s : State),
      (Instr.kegusTestWrite reg value).wf = true →
      s.barOn = true →
      reg = 1 →
      let u := (s.wr F.LDG_KTEST_IN_STEP [] (bitsOf value.toNat 0 32)).wr F.LDG_KTEST_IN_COLL [] (bitsOf value.toNat 32 16)
      exec (Instr.kegusTestWrite reg value) s =
        .next ((u.wr F.LDG_KTEST_OUT_NOISE [] (kegus (u.rd F.LDG_KTEST_SEED_SEED []) (u.rd F.LDG_KTEST_IN_STEP []) (u.rd F.LDG_KTEST_IN_COLL []) (u.rd F.LDG_KTEST_POS_CHUNK []) (u.rd F.LDG_KTEST_POS_ELEM []))).withQueue s.pending)) ∧
  (∀ (reg : Nat) (value : BitVec 64) (s : State),
      (Instr.kegusTestWrite reg value).wf = true →
      s.barOn = true →
      reg = 2 →
      let u := (s.wr F.LDG_KTEST_POS_CHUNK [] (bitsOf value.toNat 0 24)).wr F.LDG_KTEST_POS_ELEM [] (bitsOf value.toNat 24 9)
      exec (Instr.kegusTestWrite reg value) s =
        .next ((u.wr F.LDG_KTEST_OUT_NOISE [] (kegus (u.rd F.LDG_KTEST_SEED_SEED []) (u.rd F.LDG_KTEST_IN_STEP []) (u.rd F.LDG_KTEST_IN_COLL []) (u.rd F.LDG_KTEST_POS_CHUNK []) (u.rd F.LDG_KTEST_POS_ELEM []))).withQueue s.pending)) ∧
  -- DEBUG_WINDOW_ACCESS (R573)
  (∀ (write : Bool) (off size : Nat) (value : BitVec 64) (s : State),
      (Instr.debugWindowAccess write off size value).wf = true →
      write = true →
      exec (Instr.debugWindowAccess write off size value) s =
        .next ((s.registerWrite 0 (0x2000000 + off) size value.toNat).withQueue s.pending)) ∧
  (∀ (write : Bool) (off size : Nat) (value : BitVec 64) (s : State),
      (Instr.debugWindowAccess write off size value).wf = true →
      write = false →
      exec (Instr.debugWindowAccess write off size value) s =
        .next ((s.registerRead 0 (0x2000000 + off) size).withQueue s.pending))

/-- Completion of the commands of the switch core: for each, where its operands are well formed, its unit runs and the stated condition holds, the next
state is the one written out.  Each clause names the rules that give the effect. -/
def Obligations.SwitchCommandsComplete : Prop :=
  -- PACKET_HEADER_ARRIVAL (R108)
  (∀ (q port : Nat) (pkt : Packet) (s : State) (ds : List Dest),
      (Instr.packetHeaderArrival q port pkt).wf = true →
      s.quadOn q = true →
      s.rdb F.COR_PORT_OPEN [q, port] = true →
      s.rdb V.LNK_LOST_BOUND [q, port] = false →
      (vcCls (pkVc pkt) = .m ∨ s.stagingUse q port + pkCells pkt ≤ 24) →
      s.injLink q port 4 = false →
      pkHcrcOk pkt = true →
      (s.countIn q port pkt).arrivalRoute q port pkt = .goal ds →
      vcCls (pkVc pkt) ≠ .m →
      ds.isEmpty = false →
      let u := (s.countIn q port pkt).bump V.LNK_RCVD [q, port, pkVc pkt] (credits pkt)
      let v := (u.lostCopies ⟨q, 1, vcHop (pkVc pkt)⟩ (pkPart pkt) pkt).foldl (fun t c => t.countDiscard q port (pkPart pkt) c) u
      let x := (v.wr V.INGRESS_OPEN [q, port] (if pkPayUnits pkt = 0 then 0 else 1)).wr V.INGRESS_UID [q, port] (v.rd V.PKT_UID [])
      exec (Instr.packetHeaderArrival q port pkt) s =
        .next (((x.stage q port pkt (if port < 36 then 0 else 1) (vcHop (pkVc pkt)) x.timeNs (pkPart pkt) (x.readyAt q port pkt) ds).grant
          q port (pkVc pkt)).withQueue s.pending)) ∧
  (∀ (q port : Nat) (pkt : Packet) (s : State) (ds : List Dest),
      (Instr.packetHeaderArrival q port pkt).wf = true →
      s.quadOn q = true →
      s.rdb F.COR_PORT_OPEN [q, port] = true →
      s.rdb V.LNK_LOST_BOUND [q, port] = false →
      (vcCls (pkVc pkt) = .m ∨ s.stagingUse q port + pkCells pkt ≤ 24) →
      s.injLink q port 4 = false →
      pkHcrcOk pkt = true →
      (s.countIn q port pkt).arrivalRoute q port pkt = .goal ds →
      vcCls (pkVc pkt) = .m →
      let u := (s.countIn q port pkt).bump V.LNK_RCVD [q, port, pkVc pkt] (credits pkt)
      let v := (u.lostCopies ⟨q, 1, vcHop (pkVc pkt)⟩ (pkPart pkt) pkt).foldl (fun t c => t.countDiscard q port (pkPart pkt) c) u
      exec (Instr.packetHeaderArrival q port pkt) s =
        .next (((((v.mirror q port 0 pkt none 0 0).steer q port pkt ds).wr V.INGRESS_OPEN [q, port] 0).grant q port (pkVc pkt)).withQueue
          s.pending)) ∧
  (∀ (q port : Nat) (pkt : Packet) (s : State) (c : Cause),
      (Instr.packetHeaderArrival q port pkt).wf = true →
      s.quadOn q = true →
      s.rdb F.COR_PORT_OPEN [q, port] = true →
      s.rdb V.LNK_LOST_BOUND [q, port] = false →
      (vcCls (pkVc pkt) = .m ∨ s.stagingUse q port + pkCells pkt ≤ 24) →
      s.injLink q port 4 = false →
      pkHcrcOk pkt = true →
      (s.countIn q port pkt).arrivalRoute q port pkt = .drop c →
      let u := ((s.countIn q port pkt).bump V.LNK_RCVD [q, port, pkVc pkt] (credits pkt)).mirror q port 0 pkt (some c) 0 0
      exec (Instr.packetHeaderArrival q port pkt) s =
        .next (((u.discard q port pkt c).grant q port (pkVc pkt)).withQueue s.pending)) ∧
  -- AGE_EXPIRY (R108)
  (∀ (q port : Nat) (s : State) (r : Reas),
      (Instr.ageExpiry q port).wf = true →
      s.quadOn q = true →
      s.nextOut q port = some r →
      s.aged r = true →
      exec (Instr.ageExpiry q port) s =
        .next ((s.ageOut q port r).withQueue s.pending)) ∧
  -- BANK_ADMIT (R312)
  (∀ (q input : Nat) (s : State) (h : Held) (rest : List Held) (b : Nat),
      (Instr.bankAdmit q input).wf = true →
      s.quadOn q = true →
      s.nextHeader q input = some (h, rest) →
      s.findBank q input (pkCells h.pkt) = some b →
      s.rd V.COR_ADMIT [q] ≤ input →
      let u := (s.admitHeld q input b h rest).wr V.COR_ADMIT [q] input
      let n := (SMap.get s.bufs [q] []).length
      exec (Instr.bankAdmit q input) s =
        .next ((match (SMap.get u.bufs [q] []).getLast? with | some x => if n < (SMap.get u.bufs [q] []).length then u.sramHook q 1 (pkPart x.pkt) 0 0 else u | none => u).withQueue s.pending)) ∧
  -- EGRESS_STREAM_START (R323)
  (∀ (q output bank : Nat) (s : State) (v : Nat) (h : Held) (c : Copy),
      (Instr.egressStreamStart q output bank).wf = true →
      s.quadOn q = true →
      (s.roundEnd q output (s.eligibleVcs q output)).pickVc q output bank = some v →
      headOf (SMap.get (s.roundEnd q output (s.eligibleVcs q output)).bufs [q] []) bank output v = some (h, c) →
      (bank + s.rd V.CYCLE [q]) % 48 = output →
      s.streaming q bank output = false →
      let u := s.roundEnd q output (s.eligibleVcs q output)
      exec (Instr.egressStreamStart q output bank) s =
        .next ((u.streamOut q output v h c).withQueue s.pending)) ∧
  -- PACKET_RELEASE (R324)
  (∀ (q output : Nat) (s : State) (r : Reas),
      (Instr.packetRelease q output).wf = true →
      s.quadOn q = true →
      s.linkUp q output = true →
      s.wireFree q output = true →
      s.nextOut q output = some r →
      s.aged r = false →
      let u := (s.outTake q output r).putWire q output (s.rewrite r) r.inPort r.admitted r.since r.release r.pkt
      exec (Instr.packetRelease q output) s =
        .next ((u.injUpdate q output (clsIx (vcCls r.dest.vc))).withQueue s.pending)) ∧
  -- FLUSH_END (R331)
  (∀ (q port : Nat) (s : State),
      (Instr.flushEnd q port).wf = true →
      s.quadOn q = true →
      s.rdb F.COR_PORT_FLUSHING [q, port] = true →
      (s.wr F.COR_PORT_FLUSHING [q, port] 0).linkUp q port = false →
      exec (Instr.flushEnd q port) s =
        .next ((s.wr F.COR_PORT_FLUSHING [q, port] 0).withQueue s.pending)) ∧
  (∀ (q port : Nat) (s : State),
      (Instr.flushEnd q port).wf = true →
      s.quadOn q = true →
      s.rdb F.COR_PORT_FLUSHING [q, port] = true →
      (s.wr F.COR_PORT_FLUSHING [q, port] 0).linkUp q port = true →
      exec (Instr.flushEnd q port) s =
        .next (((s.wr F.COR_PORT_FLUSHING [q, port] 0).portOpen q port).withQueue s.pending)) ∧
  -- DEPTH_BROADCAST (R325)
  (∀ (q : Nat) (s : State),
      (Instr.depthBroadcast q).wf = true →
      s.quadOn q = true →
      exec (Instr.depthBroadcast q) s =
        .next (((List.range 4).foldl (fun t q' => if q' = q then t else (List.range 4).foldl (fun t u => (List.range 6).foldl (fun t c => t.wr V.UPDEPTH [q', 4 * q + u, c] (s.depth q (36 + u) c)) t) t) s).withQueue s.pending)) ∧
  -- MIR_CTL_WRITE (R334)
  (∀ (q session : Nat) (value : BitVec 64) (s : State),
      (Instr.mirCtlWrite q session value).wf = true →
      s.barQuad q = true →
      let v := value.toNat
      let k := bitsOf v 14 5
      let u := (((s.wr F.COR_MIR_CTL_EN [q, session] (bitsOf v 0 1)).wr F.COR_MIR_CTL_PORT [q, session] (min 47 (bitsOf v 1 6))).wr F.COR_MIR_CTL_DIR [q, session] (bitsOf v 7 1)).wr F.COR_MIR_CTL_CLASSES [q, session] (bitsOf v 8 6)
      let x := (((u.wr F.COR_MIR_CTL_K [q, session] (if 4 ≤ k ∧ k ≤ 24 then k else 24)).wr F.COR_MIR_CTL_DEST [q, session] (bitsOf v 19 2)).wr F.COR_MIR_CTL_PART [q, session] (bitsOf v 21 5)).wr F.COR_MIR_CTL_RANK [q, session] (bitsOf v 26 12)
      exec (Instr.mirCtlWrite q session value) s =
        .next ((((x.wr F.COR_MIR_CTL_LOG2SIZE [q, session] (max 4 (min 16 (bitsOf v 38 5)))).wr F.COR_MIR_CTL_VECTOR [q, session] (bitsOf v 43 11)).wr V.MIR_COUNT [q, session] 0).withQueue s.pending)) ∧
  -- LOW_CLR (R338)
  (∀ (q : Nat) (s : State),
      (Instr.lowClr q).wf = true →
      s.barQuad q = true →
      exec (Instr.lowClr q) s =
        .next ((s.wr F.COR_BUF_LOW [q] (s.freeShared q)).withQueue s.pending)) ∧
  -- PEAK_CLR (R338)
  (∀ (q output cls : Nat) (s : State),
      (Instr.peakClr q output cls).wf = true →
      s.barQuad q = true →
      exec (Instr.peakClr q output cls) s =
        .next ((s.wr F.COR_QDEPTH_PEAK [q, output, cls] (s.depth q output cls)).withQueue s.pending))

/-- Completion of the commands of knit loads and commits: for each, where its operands are well formed, its unit runs and the stated condition holds, the next
state is the one written out.  Each clause names the rules that give the effect. -/
def Obligations.KnitCommandsComplete : Prop :=
  -- KNIT_LOAD (R43)
  (∀ (fn : Nat) (s : State),
      (Instr.knitLoad fn).wf = true →
      (s.barOn && s.img.brimValid fn) = true →
      s.knitBusy = false →
      s.rdb F.TRY_STAGE_HOLD [] = false →
      s.rd F.HAT_PSTATE_STATE [] < 2 →
      (fn = 0 ∨ s.img.brimVfKnit fn = true) →
      s.hostOk fn = true →
      exec (Instr.knitLoad fn) s =
        .next ((s.knitFetching fn).withQueue s.pending)) ∧
  (∀ (fn : Nat) (s : State),
      (Instr.knitLoad fn).wf = true →
      (s.barOn && s.img.brimValid fn) = true →
      s.knitBusy = true →
      exec (Instr.knitLoad fn) s =
        .next ((s.raise F.KNT_STATUS_REFUSED [fn]).withQueue s.pending)) ∧
  -- KNIT_ABORT (R69)
  (∀ (fn : Nat) (s : State),
      (Instr.knitAbort fn).wf = true →
      (s.barOn && s.img.brimValid fn) = true →
      s.knitBusy = true →
      fn < 32 →
      s.knitFn = fn →
      exec (Instr.knitAbort fn) s =
        .next ((s.knitFail 0x0C (if s.rd F.KNT_STATUS_STATE [fn] == 4 then s.rd V.KNT_GROUP [] else 0) 0).withQueue s.pending)) ∧
  -- KNIT_COMMIT (R58)
  (∀ (fn : Nat) (s : State),
      (Instr.knitCommit fn).wf = true →
      (s.barOn && s.img.brimValid fn) = true →
      fn = 0 →
      s.knitBusy = true →
      s.rd V.KNT_WAIT [] = 10 →
      (s.voteCast 1).2 = true →
      exec (Instr.knitCommit fn) s =
        .next (((s.voteCast 1).1.wr V.KNT_WAIT [] 9).withQueue s.pending)) ∧
  -- KNIT_FETCH_COMPLETE (R43)
  (∀ (file : List Byte) (s : State),
      (Instr.knitFetchComplete file).wf = true →
      s.clocked = true →
      s.knitBusy = true →
      s.rd V.KNT_WAIT [] = 8 →
      (s.countModule 0 17 0 1).injRead s.knitFn = false →
      exec (Instr.knitFetchComplete file) s =
        .next ((((s.countModule 0 17 0 1).countModule 0 16 0 1).knitFetched file).withQueue s.pending)) ∧
  -- GROUP_COMMIT (R47)
  (∀ (s : State),
      s.clocked = true →
      s.knitBusy = true →
      s.rd V.KNT_WAIT [] = 1 →
      exec .groupCommit s =
        .next (((s.groupApply s.nowFrames).knitNext).withQueue s.pending)) ∧
  (∀ (s : State),
      s.clocked = true →
      s.knitBusy = true →
      s.rd V.KNT_WAIT [] = 2 →
      s.quietPoint ((s.nowFrames.map (·.part)).headD 0) = true →
      exec .groupCommit s =
        .next (((s.groupApply s.nowFrames).knitNext).withQueue s.pending)) ∧
  -- RESYNC_END (R49)
  (∀ (s : State),
      s.clocked = true →
      s.rdb V.KNT_COPY_FN [] = true →
      s.resyncDone.knitBusy = false →
      exec .resyncEnd s =
        .next ((s.resyncDone).withQueue s.pending)) ∧
  -- QUIET_TIMEOUT (R53)
  (∀ (s : State),
      s.clocked = true →
      s.knitBusy = true →
      (s.rd V.KNT_WAIT [] = 2 ∨ s.rd V.KNT_WAIT [] = 3 ∨ s.rd V.KNT_WAIT [] = 6) →
      exec .quietTimeout s =
        .next ((s.knitFail 0x0A (s.rd V.KNT_GROUP []) 0).withQueue s.pending)) ∧
  -- KNIT_VOTE_RESULT (R58)
  (∀ (s : State) (r : Round),
      s.clocked = true →
      s.knitBusy = true →
      s.rd V.KNT_WAIT [] = 9 →
      s.roundGet s.knitHdr.vote (s.knitHdr.change % 2 ^ 32) = some r →
      r.yes = true →
      exec .knitVoteResult s =
        .next ((s.knitPoint s.nowFrames).withQueue s.pending)) ∧
  (∀ (s : State) (r : Round),
      s.clocked = true →
      s.knitBusy = true →
      s.rd V.KNT_WAIT [] = 9 →
      s.roundGet s.knitHdr.vote (s.knitHdr.change % 2 ^ 32) = some r →
      r.st ≠ 1 →
      r.yes = false →
      exec .knitVoteResult s =
        .next ((s.knitFail 0x0D 0 0).withQueue s.pending)) ∧
  -- VOTE_COMMIT_TIMEOUT (R58)
  (∀ (s : State),
      s.clocked = true →
      s.knitBusy = true →
      s.rd V.KNT_WAIT [] = 10 →
      (s.voteCast 0).2 = true →
      exec .voteCommitTimeout s =
        .next (((s.voteCast 0).1.wr V.KNT_WAIT [] 9).withQueue s.pending)) ∧
  -- BORDER_DRAIN_END (R67)
  (∀ (s : State),
      s.clocked = true →
      s.knitBusy = true →
      s.rd V.KNT_WAIT [] = 4 →
      s.borderDrained = true →
      exec .borderDrainEnd s =
        .next (((((s.zeroMoves s.groupMoves).wr V.KNT_WAIT [] 5).wr V.KNT_TRIES [] 0).zeroWatch).withQueue s.pending)) ∧
  -- BORDER_DRAIN_TIMEOUT (R68)
  (∀ (s : State),
      s.clocked = true →
      s.knitBusy = true →
      s.rd V.KNT_WAIT [] = 4 →
      exec .borderDrainTimeout s =
        .next ((s.knitFail 0x0B (s.rd V.KNT_GROUP []) 0).withQueue s.pending)) ∧
  -- BORDER_ZEROIZE_END (R67)
  (∀ (mismatch : List (Nat × Nat)) (s : State),
      (Instr.borderZeroizeEnd mismatch).wf = true →
      s.clocked = true →
      s.knitBusy = true →
      s.rd V.KNT_WAIT [] = 5 →
      (s.badMoves s.groupMoves mismatch).isEmpty = true →
      exec (Instr.borderZeroizeEnd mismatch) s =
        .next ((s.borderApply.knitNext).withQueue s.pending)) ∧
  (∀ (mismatch : List (Nat × Nat)) (s : State),
      (Instr.borderZeroizeEnd mismatch).wf = true →
      s.clocked = true →
      s.knitBusy = true →
      s.rd V.KNT_WAIT [] = 5 →
      (s.badMoves s.groupMoves mismatch).isEmpty = false →
      s.rd V.KNT_TRIES [] = 0 →
      exec (Instr.borderZeroizeEnd mismatch) s =
        .next ((((s.zeroMoves s.groupMoves).wr V.KNT_TRIES [] 1).zeroWatch).withQueue s.pending)) ∧
  (∀ (mismatch : List (Nat × Nat)) (s : State),
      (Instr.borderZeroizeEnd mismatch).wf = true →
      s.clocked = true →
      s.knitBusy = true →
      s.rd V.KNT_WAIT [] = 5 →
      (s.badMoves s.groupMoves mismatch).isEmpty = false →
      s.rd V.KNT_TRIES [] ≠ 0 →
      let u := (s.movedExtents (s.badMoves s.groupMoves mismatch)).foldl (fun t x => t.wr V.EXT_DEAD [x.1, x.2] 1) s
      exec (Instr.borderZeroizeEnd mismatch) s =
        .next ((u.knitFail 9 (u.rd V.KNT_GROUP []) 0).withQueue s.pending)) ∧
  -- EPOCH_FLIP (R102)
  (∀ (p : Nat) (s : State),
      (Instr.epochFlip p).wf = true →
      s.clocked = true →
      s.oldBank p = false →
      s.rdb V.WAIT_FLIP [p] = true →
      exec (Instr.epochFlip p) s =
        .next ((((epochKeys p).foldl State.resyncImg s).flipNow p).withQueue s.pending)) ∧
  -- EPOCH_RETIRE (R101)
  (∀ (p : Nat) (s : State),
      (Instr.epochRetire p).wf = true →
      s.clocked = true →
      s.bankValid p (1 - s.stamp p) = true →
      s.inflight p (1 - s.stamp p) = 0 →
      ((s.wr (validFld (1 - s.stamp p)) [p] 0).wr F.XPT_EPOCH_STATE [p] (if s.rdb V.WAIT_FLIP [p] then 2 else 0)).knitBusy = false →
      let u := (s.wr (validFld (1 - s.stamp p)) [p] 0).wr F.XPT_EPOCH_STATE [p] (if s.rdb V.WAIT_FLIP [p] then 2 else 0)
      exec (Instr.epochRetire p) s =
        .next ((u).withQueue s.pending))

/-- Completion of the commands of the reduction slots: for each, where its operands are well formed, its unit runs and the stated condition holds, the next
state is the one written out.  Each clause names the rules that give the effect. -/
def Obligations.SlotCommandsComplete : Prop :=
  -- CONTRIB (R162)
  (∀ (q : Nat) (pkt : Packet) (s : State) (r : RankEntry) (e : CollE),
      (Instr.contrib q pkt).wf = true →
      s.engineOn q 0 = true →
      serviceCause pkt = none →
      contribFormatOk (pkFormat pkt) (pkNchunk pkt) (pkPayUnits pkt) (pkNarrow pkt) = true →
      (s.takeSvc q 43 pkt).img.rankEntry (pkEpoch pkt) (pkPart pkt) (dstRank (pkSrc pkt)) = some r →
      (s.takeSvc q 43 pkt).img.collValid (pkPart pkt) (pkColl pkt) = some e →
      r.acc / 36 = q →
      (s.takeSvc q 43 pkt).contribMember pkt e = true →
      exec (Instr.contrib q pkt) s =
        .next ((((s.takeSvc q 43 pkt).contribInst q r.acc pkt e).slotHook q (pkPart pkt) (pkColl pkt) (pkStep pkt)).withQueue s.pending)) ∧
  -- ADMISSION_REQUEST (R166)
  (∀ (q p coll step chunk : Nat) (s : State) (x : Slot),
      (Instr.admissionRequest q p coll step chunk).wf = true →
      (s.quadOn q && s.quadUp (crownQuad p coll chunk)) = true →
      s.admMsgs.contains ⟨false, false, q, p, coll, step, chunk⟩ = true →
      s.seamOk q (crownQuad p coll chunk) = true →
      let u := s.admTake ⟨false, false, q, p, coll, step, chunk⟩
      u.slotLook (slotKey (crownQuad p coll chunk) p coll step chunk) = some x →
      exec (Instr.admissionRequest q p coll step chunk) s =
        .next ((u.admSay ⟨true, true, q, p, coll, step, chunk⟩).withQueue s.pending)) ∧
  (∀ (q p coll step chunk : Nat) (s : State) (e : CollE) (i : Inst),
      (Instr.admissionRequest q p coll step chunk).wf = true →
      (s.quadOn q && s.quadUp (crownQuad p coll chunk)) = true →
      s.admMsgs.contains ⟨false, false, q, p, coll, step, chunk⟩ = true →
      s.seamOk q (crownQuad p coll chunk) = true →
      let u := s.admTake ⟨false, false, q, p, coll, step, chunk⟩
      u.slotLook (slotKey (crownQuad p coll chunk) p coll step chunk) = none →
      u.img.collValid p coll = some e →
      u.instGet p coll e step = some i →
      i.st = .active →
      u.holdCause (crownQuad p coll chunk) p e i = none →
      u.admits (crownQuad p coll chunk) p = true →
      let y := u.slotCreate (crownQuad p coll chunk) p coll step chunk e i true false
      exec (Instr.admissionRequest q p coll step chunk) s =
        .next ((y.admSay ⟨true, true, q, p, coll, step, chunk⟩).withQueue s.pending)) ∧
  -- ADMISSION_REPLY (R166)
  (∀ (q p coll step chunk : Nat) (granted : Bool) (s : State) (x : Slot) (e : CollE) (i : Inst),
      (Instr.admissionReply q p coll step chunk granted).wf = true →
      s.quadOn q = true →
      s.admMsgs.contains ⟨true, granted, q, p, coll, step, chunk⟩ = true →
      s.seamOk q (crownQuad p coll chunk) = true →
      granted = true →
      let u := s.admTake ⟨true, granted, q, p, coll, step, chunk⟩
      u.slotGet (slotKey q p coll step chunk) = some x →
      u.img.collValid p coll = some e →
      x.res = .pending →
      u.instGet p coll e step = some i →
      exec (Instr.admissionReply q p coll step chunk granted) s =
        .next (((u.slotCreate q p coll step chunk e i false false).settle p).withQueue s.pending)) ∧
  (∀ (q p coll step chunk : Nat) (granted : Bool) (s : State) (x : Slot) (e : CollE),
      (Instr.admissionReply q p coll step chunk granted).wf = true →
      s.quadOn q = true →
      s.admMsgs.contains ⟨true, granted, q, p, coll, step, chunk⟩ = true →
      s.seamOk q (crownQuad p coll chunk) = true →
      granted = false →
      let u := s.admTake ⟨true, granted, q, p, coll, step, chunk⟩
      u.slotGet (slotKey q p coll step chunk) = some x →
      u.img.collValid p coll = some e →
      x.res = .pending →
      exec (Instr.admissionReply q p coll step chunk granted) s =
        .next (((u.waitersOf q p coll step chunk).foldl (fun t k => t.deferred q k 1) ((u.slotDrop (slotKey q p coll step chunk)).waitDrop q p coll step chunk)).withQueue s.pending)) ∧
  -- SLOT_READOUT_COMPLETE (R172)
  (∀ (q p coll step chunk : Nat) (s : State) (x : Slot) (e : CollE) (f n : Nat),
      (Instr.slotReadoutComplete q p coll step chunk).wf = true →
      s.unitOn q = true →
      s.slotGet (slotKey q p coll step chunk) = some x →
      s.img.collValid p coll = some e →
      x.st = .closing →
      x.res = .frame f →
      x.sent = false →
      s.slotLocked q p x = false →
      s.engineOut q x = false →
      s.rdb V.ENGINE_FAULT [q, 6] = false →
      s.readoutUnit (slotKey q p coll step chunk) x = some n →
      s.unitGo q x.engine p n = true →
      let u := (s.unitStart q x.engine p n).slabBeats q f 6 p 1
      exec (Instr.slotReadoutComplete q p coll step chunk) s =
        .next ((u.readoutDone q p coll step chunk e x (rangeWord (s.ledger q f))).withQueue s.pending)) ∧
  -- TIER0_PARTIAL (R172)
  (∀ (q p coll step chunk g : Nat) (s : State) (y : Slot) (x : Slot) (e : CollE) (i : Inst),
      (Instr.tier0Partial q p coll step chunk).wf = true →
      s.engineOn (crownQuad p coll chunk) 0 = true →
      q ≠ crownQuad p coll chunk →
      let u := (s.countLocal q (60 + seamPort q (crownQuad p coll chunk)) 6 p 1).countLocal (crownQuad p coll chunk)
        (60 + seamPort (crownQuad p coll chunk) q) 7 p 1
      u.slotGet (slotKey q p coll step chunk) = some y →
      u.img.collValid p coll = some e →
      y.st = .closing →
      y.sent = true →
      y.res = .frame g →
      u.seamOk q (crownQuad p coll chunk) = true →
      u.tier0Waits q p coll step chunk = false →
      u.slotLook (slotKey (crownQuad p coll chunk) p coll step chunk) = some x →
      u.instGet p coll e step = some i →
      slotReady x = true →
      exec (Instr.tier0Partial q p coll step chunk) s =
        .next (((u.addTier0 q p coll step chunk (u.ledger q g) ⟨y.ovf, y.inv⟩ e i).slotHook (crownQuad p coll chunk) p coll step).withQueue
          s.pending)) ∧
  -- PARTIAL_DELIVERED (R172)
  (∀ (q p coll step chunk : Nat) (s : State) (y : Slot),
      (Instr.partialDelivered q p coll step chunk).wf = true →
      s.quadOn q = true →
      s.slotGet (slotKey q p coll step chunk) = some y →
      s.slotGet (slotKey (crownQuad p coll chunk) p coll step chunk) = none →
      q ≠ crownQuad p coll chunk →
      y.st = .closing →
      y.sent = true →
      exec (Instr.partialDelivered q p coll step chunk) s =
        .next (((s.slotDrop (slotKey q p coll step chunk)).settle p).withQueue s.pending)) ∧
  -- PARTIAL_RECEIVE (R598)
  (∀ (q : Nat) (pkt : Packet) (s : State) (e : CollE) (bit : Nat) (i : Inst),
      (Instr.partialReceive q pkt).wf = true →
      s.engineOn q 0 = true →
      serviceCause pkt = none →
      crownQuad (pkPart pkt) (pkColl pkt) (pkChunk pkt) = q →
      pkFormat pkt = 8 →
      (s.takeSvc q 43 pkt).img.collValid (pkPart pkt) (pkColl pkt) = some e →
      (s.takeSvc q 43 pkt).peerBit pkt = some bit →
      e.pod = true →
      e.chunkBase ≤ pkChunk pkt →
      pkChunk pkt < e.chunkBase + e.nchunk →
      (s.takeSvc q 43 pkt).recUse (pkPart pkt) (pkColl pkt) e (pkStep pkt) = .use i →
      i.st = .active →
      bitOf ((s.takeSvc q 43 pkt).expected (crownQuad (pkPart pkt) (pkColl pkt) (pkChunk pkt)) (pkPart pkt) (pkColl pkt) (pkChunk pkt) e i.bank) bit = true →
      let u := s.takeSvc q 43 pkt
      exec (Instr.partialReceive q pkt) s =
        .next (((u.partialSlot (crownQuad (pkPart pkt) (pkColl pkt) (pkChunk pkt)) pkt e i bit).slotHook q (pkPart pkt) (pkColl pkt) (pkStep pkt)).withQueue s.pending)) ∧
  -- RESULT_FROM_RACK (R172)
  (∀ (q : Nat) (pkt : Packet) (s : State),
      (Instr.resultFromRack q pkt).wf = true →
      s.unitOn q = true →
      serviceCause pkt = none →
      pkFormat pkt = 8 →
      crownQuad (pkPart pkt) (pkColl pkt) (pkChunk pkt) = q →
      exec (Instr.resultFromRack q pkt) s =
        .next (((s.takeSvc q 43 pkt).rackChunk pkt).withQueue s.pending)) ∧
  -- PUBLISH_FROM_RACK (R252)
  (∀ (q : Nat) (pkt : Packet) (s : State),
      (Instr.publishFromRack q pkt).wf = true →
      s.unitOn q = true →
      serviceCause pkt = none →
      pkFormat pkt = 1 →
      pkNchunk pkt ≤ maxChunks 1 →
      crownQuad (pkPart pkt) (pkColl pkt) (pkChunk pkt) = q →
      exec (Instr.publishFromRack q pkt) s =
        .next (((rackPieces pkt).foldl State.rackChunk (s.takeSvc q 43 pkt)).withQueue s.pending)) ∧
  -- PAGER_SPILL (R175)
  (∀ (q p : Nat) (s : State) (k : Key) (x : Slot) (n : Nat) (t : State),
      (Instr.pagerSpill q p).wf = true →
      s.unitOn q = true →
      s.pagerMay q p = true →
      s.recallNext q p = none →
      s.spillNext q p = some ((k, x), n) →
      s.spillTo q p n k x = some t →
      exec (Instr.pagerSpill q p) s =
        .next ((((t.pagerStart q p).pagerMark q (opOf k)).sltEvent q p 5).withQueue s.pending)) ∧
  -- PAGER_RECALL (R175)
  (∀ (q p : Nat) (s : State) (k : Key) (x : Slot) (f : Nat),
      (Instr.pagerRecall q p).wf = true →
      s.unitOn q = true →
      s.pagerMay q p = true →
      s.recallNext q p = some (k, x) →
      s.freeFrame q p = some f →
      let u := (s.pagerStart q p).pagerMark q (opOf k)
      exec (Instr.pagerRecall q p) s =
        .next ((((u.recordNote q p x).recallInto q p f k x (u.recordData q p x)).sltEvent q p 6).withQueue s.pending)) ∧
  -- PAGER_SWAP (R175)
  (∀ (q p : Nat) (s : State) (k : Key) (x : Slot) (kv : Key) (y : Slot) (n : Nat) (f : Nat) (t : State),
      (Instr.pagerSwap q p).wf = true →
      s.unitOn q = true →
      s.pagerMay q p = true →
      s.freeFrame q p = none →
      s.recallNext q p = some (k, x) →
      s.victim q p = some (kv, y) →
      x.res = .record n →
      y.res = .frame f →
      (s.recordNote q p x).spillTo q p n kv y = some t →
      let u := ((t.slotUnlock kv).pagerStart q p).pagerMark q (opOf k)
      exec (Instr.pagerSwap q p) s =
        .next (((u.recallInto q p f k x (s.recordData q p x)).sltEvent q p 7).withQueue s.pending)) ∧
  -- PAGER_OP_COMPLETE (R164)
  (∀ (q : Nat) (s : State) (o : PagerOp),
      (Instr.pagerOpComplete q).wf = true →
      s.unitOn q = true →
      SMap.find [q] s.pagerOp = some o →
      s.rdb V.PAGER_STOP [q] = false →
      exec (Instr.pagerOpComplete q) s =
        .next ((((s.pagerClear q).slotUnlock (slotKey q o.part o.coll o.step o.chunk)).settle o.part).withQueue s.pending)) ∧
  -- SWEEP_END (R174)
  (∀ (p : Nat) (s : State),
      (Instr.sweepEnd p).wf = true →
      s.clocked = true →
      exec (Instr.sweepEnd p) s =
        .next (((List.range 4).foldl (fun t q => if t.rdb F.SLT_SWEEP_ACTIVE [q] && t.rd F.SLT_SWEEP_PART [q] == p then t.wr F.SLT_SWEEP_ACTIVE [q] 0 else t) s).withQueue s.pending)) ∧
  -- SLAB_LOCK_TIMEOUT (R185)
  (∀ (q bank port req : Nat) (busy : List (Nat × Nat × Nat × Nat)) (s : State),
      (Instr.slabLockTimeout q bank port req busy).wf = true →
      s.quadOn q = true →
      (req = 5 ∨ req = 7) →
      exec (Instr.slabLockTimeout q bank port req busy) s =
        .next (((s.slabLockTimeout q bank port req busy).movBusError q 3).withQueue s.pending)) ∧
  (∀ (q bank port req : Nat) (busy : List (Nat × Nat × Nat × Nat)) (s : State),
      (Instr.slabLockTimeout q bank port req busy).wf = true →
      s.quadOn q = true →
      req ≠ 5 →
      req ≠ 7 →
      exec (Instr.slabLockTimeout q bank port req busy) s =
        .next ((s.slabLockTimeout q bank port req busy).withQueue s.pending))

/-- Completion of the commands of the collective sequencer: for each, where its operands are well formed, its unit runs and the stated condition holds, the next
state is the one written out.  Each clause names the rules that give the effect. -/
def Obligations.SeqCommandsComplete : Prop :=
  -- RESULT_RESEND_TIMER (R113)
  (∀ (p coll step : Nat) (s : State) (e : CollE) (i : Inst),
      (Instr.resultResendTimer p coll step).wf = true →
      s.unitOn (p % 4) = true →
      s.img.collValid p coll = some e →
      s.instGet p coll e step = some i →
      liveInst i = true →
      i.resendDue ≠ 0 →
      i.resends < s.rd F.XPT_RESEND_TRIES [] →
      let u := s.instPut p coll e { i with resends := i.resends + 1, resendDue := i.resendDue + s.rd F.XPT_RESEND_FIRST [] * 1000 * 2 ^ (i.resends + 1) }
      exec (Instr.resultResendTimer p coll step) s =
        .next (((((u.owing p e i).filter fun r => !bitOf i.done r).foldl (fun t r => (List.range e.nchunk).foldl (fun x j => if e.ckind = 1 && x.img.ownerRank p e (e.chunkBase + j) != r then x else x.resendAny p coll step (e.chunkBase + j) r e i) t) u).settle p).withQueue s.pending)) ∧
  -- CNACK_RECEIVE (R210)
  (∀ (q : Nat) (pkt : Packet) (s : State),
      (Instr.cnackReceive q pkt).wf = true →
      s.quadOn q = true →
      serviceCause pkt = none →
      exec (Instr.cnackReceive q pkt) s =
        .next ((s.takeSvc q 43 pkt).withQueue s.pending)) ∧
  -- RING_DOORBELL (R188)
  (∀ (q p e : Nat) (prod : BitVec 32) (s : State),
      (Instr.ringDoorbell q p e prod).wf = true →
      (s.barQuad q && !s.partResetting p) = true →
      s.prodOk q p e prod.toNat = true →
      exec (Instr.ringDoorbell q p e prod) s =
        .next (((s.wr F.SEQ_RING_PROD_PROD [q, p, e] prod.toNat).ringCheck q p e).withQueue s.pending)) ∧
  (∀ (q p e : Nat) (prod : BitVec 32) (s : State),
      (Instr.ringDoorbell q p e prod).wf = true →
      (s.barQuad q && !s.partResetting p) = true →
      s.prodOk q p e prod.toNat = false →
      exec (Instr.ringDoorbell q p e prod) s =
        .next ((s.raise F.SEQ_RING_CTL_DBERR [q, p, e]).withQueue s.pending)) ∧
  (∀ (q p e : Nat) (prod : BitVec 32) (s : State),
      (Instr.ringDoorbell q p e prod).wf = true →
      s.partResetting p = true →
      exec (Instr.ringDoorbell q p e prod) s = .next s) ∧
  -- DOORBELL (R189)
  (∀ (q : Nat) (pkt : Packet) (s : State) (r : RankEntry),
      (Instr.doorbell q pkt).wf = true →
      s.quadOn q = true →
      serviceCause pkt = none →
      (s.takeSvc q 45 pkt).img.rankEntry (pkEpoch pkt) (pkPart pkt) (dstRank (pkSrc pkt)) = some r →
      bitsOf (pkAddr pkt) 8 8 / 8 < 4 →
      bitsOf (pkAddr pkt) 8 8 % 8 < 5 →
      (s.takeSvc q 45 pkt).rdb F.SEQ_RING_CTL_FABRIC_DB [bitsOf (pkAddr pkt) 8 8 / 8, pkPart pkt, bitsOf (pkAddr pkt) 8 8 % 8] = true →
      let u := s.takeSvc q 45 pkt
      let n := bitsOf (pkAddr pkt) 8 8
      let prod := bitsOf (pkAddr pkt) 32 32
      exec (Instr.doorbell q pkt) s =
        .next (((u.ringDoorbell (n / 8) (pkPart pkt) (n % 8) prod).replyP q 0x24 (if u.prodOk (n / 8) (pkPart pkt) (n % 8) prod then 0 else 5) pkt []).withQueue s.pending)) ∧
  -- RING_ERR_CLEAR (R191)
  (∀ (q p e : Nat) (s : State),
      (Instr.ringErrClear q p e).wf = true →
      s.barQuad q = true →
      s.raisedNow F.SEQ_RING_CTL_ERR [q, p, e] = false →
      exec (Instr.ringErrClear q p e) s =
        .next (((s.wr F.SEQ_RING_CTL_ERR [q, p, e] 0).ringCheck q p e).withQueue s.pending)) ∧
  -- CQ_RECORD_WRITE (R194)
  (∀ (p k : Nat) (s : State) (r : Nat) (rs : List Nat),
      (Instr.cqRecordWrite p k).wf = true →
      s.quadOn (p % 4) = true →
      SMap.get s.cqWait [p, k] [] = r :: rs →
      s.cqRoom p k = true →
      exec (Instr.cqRecordWrite p k) s =
        .next ((((s.cqKeep p k rs).cqPut p k r).signalEnd p r).withQueue s.pending)) ∧
  -- COLLECTIVE (R192)
  (∀ (q p : Nat) (entry : BitVec 512) (s : State) (e : CollE),
      (Instr.collective q p entry).wf = true →
      s.unitOn q = true →
      s.ringCmd q p 0 1 entry.toNat = true →
      s.img.collValid p (bitsOf entry.toNat 64 16) = some e →
      e.cmd = true →
      s.recUse p (bitsOf entry.toNat 64 16) e (bitsOf entry.toNat 96 32) = .fresh →
      let y := entry.toNat
      let w := if e.winCmd then bitsOf y 128 10 else e.w
      let dl := s.timeNs + (if bitsOf y 160 32 = 0 then s.img.patienceMs p e else bitsOf y 160 32) * 10 ^ 6
      exec (Instr.collective q p entry) s =
        .next ((((s.cmdStart q p 0 y).instPut p (bitsOf y 64 16) e (s.instNew p e (bitsOf y 96 32) true w dl)).cmdDone q p 0 y 0).withQueue s.pending)) ∧
  -- ARM_STEP (R202)
  (∀ (q p : Nat) (entry : BitVec 512) (s : State),
      (Instr.armStep q p entry).wf = true →
      s.unitOn q = true →
      s.ringCmd q p 0 2 entry.toNat = true →
      before32 (s.rd F.SEQ_STEP_ARMED [p]) (bitsOf entry.toNat 96 32) = true →
      (((s.cmdStart q p 0 entry.toNat).wr F.SEQ_STEP_ARMED [p] (bitsOf entry.toNat 96 32)).armStanding p).img.stepProg p = 0xFFFF →
      exec (Instr.armStep q p entry) s =
        .next (((((s.cmdStart q p 0 entry.toNat).wr F.SEQ_STEP_ARMED [p] (bitsOf entry.toNat 96 32)).armStanding p).cmdDone q p 0 entry.toNat 0).withQueue s.pending)) ∧
  -- TRIGGER (R192)
  (∀ (q p : Nat) (entry : BitVec 512) (s : State),
      (Instr.trigger q p entry).wf = true →
      s.unitOn q = true →
      s.ringCmd q p 0 3 entry.toNat = true →
      bitsOf entry.toNat 64 16 < 8192 →
      let k := twCounter (s.img.trigWord p (bitsOf entry.toNat 64 16))
      exec (Instr.trigger q p entry) s =
        .next ((((s.cmdStart q p 0 entry.toNat).trigArm p (bitsOf entry.toNat 64 16) (bitsOf entry.toNat 96 32)).cmdDone q p 0 entry.toNat (if k == 255 || s.rd V.TRIG_WORD [p, k] != 0 then 7 else 0)).withQueue s.pending)) ∧
  -- INCREMENT (R211)
  (∀ (q p : Nat) (entry : BitVec 512) (s : State),
      (Instr.increment q p entry).wf = true →
      s.unitOn q = true →
      s.ringCmd q p 0 4 entry.toNat = true →
      bitsOf entry.toNat 64 8 ≠ 255 →
      exec (Instr.increment q p entry) s =
        .next ((((s.cmdStart q p 0 entry.toNat).trigAdd p (bitsOf entry.toNat 64 8) (bitsOf entry.toNat 96 32)).cmdDone q p 0 entry.toNat 0).withQueue s.pending)) ∧
  -- ABORT_COLLECTIVE (R192)
  (∀ (q p : Nat) (entry : BitVec 512) (s : State) (e : CollE),
      (Instr.abortCollective q p entry).wf = true →
      s.unitOn q = true →
      s.ringCmd q p 0 5 entry.toNat = true →
      s.img.collValid p (bitsOf entry.toNat 64 16) = some e →
      exec (Instr.abortCollective q p entry) s =
        .next ((((s.cmdStart q p 0 entry.toNat).abortEvent p (bitsOf entry.toNat 64 16) e (bitsOf entry.toNat 96 32) 2).cmdDone q p 0 entry.toNat 0).withQueue s.pending)) ∧
  -- STEP_REPLAY (R222)
  (∀ (q p : Nat) (entry : BitVec 512) (s : State),
      (Instr.stepReplay q p entry).wf = true →
      s.unitOn q = true →
      s.ringCmd q p 0 6 entry.toNat = true →
      s.rdb F.SEQ_STEP_REPLAY [p] = false →
      let u := (((s.cmdStart q p 0 entry.toNat).wr F.SEQ_STEP_REPLAY [p] 1).wr V.REPLAY_STEP [p] (bitsOf entry.toNat 96 32)).wr V.REPLAY_QUAD [p] q
      exec (Instr.stepReplay q p entry) s =
        .next ((((u.wr V.REPLAY_ENTRY [p] entry.toNat).replayReset p (bitsOf entry.toNat 96 32)).settle p).withQueue s.pending)) ∧
  -- STEP_REPLAY_END (R222)
  (∀ (p : Nat) (s : State),
      (Instr.stepReplayEnd p).wf = true →
      s.unitOn (p % 4) = true →
      s.rdb F.SEQ_STEP_REPLAY [p] = true →
      exec (Instr.stepReplayEnd p) s =
        .next (((s.wr F.SEQ_STEP_REPLAY [p] 0).cmdDone (s.rd V.REPLAY_QUAD [p]) p 0 (s.rd V.REPLAY_ENTRY [p]) 0).withQueue s.pending)) ∧
  -- WARM (R474)
  (∀ (q p : Nat) (entry : BitVec 512) (s : State),
      (Instr.warm q p entry).wf = true →
      s.unitOn q = true →
      s.ringCmd q p 0 7 entry.toNat = true →
      bitsOf entry.toNat 69 3 + bitsOf entry.toNat 76 4 + bitsOf entry.toNat 80 16 = 0 →
      bitsOf entry.toNat 96 32 ≠ 0 →
      bitsOf entry.toNat 96 32 ≤ 10000000 →
      let n := bitsOf entry.toNat 64 5
      let m := bitsOf entry.toNat 72 4
      exec (Instr.warm q p entry) s =
        .next ((((List.range 20).foldl (fun t i => if bitOf n (i % 5) && bitOf m (i / 5) then t.warmOne p (i / 5) (i % 5) (bitsOf entry.toNat 96 32) else t) (s.cmdStart q p 0 entry.toNat)).cmdDone q p 0 entry.toNat 0).withQueue s.pending)) ∧
  -- DONE (R215)
  (∀ (q : Nat) (pkt : Packet) (s : State) (e : CollE) (r : RankEntry) (i : Inst),
      (Instr.done q pkt).wf = true →
      s.unitOn q = true →
      serviceCause pkt = none →
      (s.takeSvc q 45 pkt).img.collValid (pkPart pkt) (pkColl pkt) = some e →
      (s.takeSvc q 45 pkt).img.rankEntry (pkEpoch pkt) (pkPart pkt) (dstRank (pkSrc pkt)) = some r →
      (s.takeSvc q 45 pkt).recUse (pkPart pkt) (pkColl pkt) e (pkStep pkt) = .use i →
      (s.takeSvc q 45 pkt).isReceiver (pkPart pkt) e i (dstRank (pkSrc pkt)) = true →
      leAt pkt.payload 0 3 = (s.takeSvc q 45 pkt).img.recvCount (pkPart pkt) e i (dstRank (pkSrc pkt)) →
      liveInst i = true →
      bitOf i.done (dstRank (pkSrc pkt)) = false →
      let u := s.takeSvc q 45 pkt
      exec (Instr.done q pkt) s =
        .next (((((u.instPut (pkPart pkt) (pkColl pkt) e { i with done := setBit i.done (dstRank (pkSrc pkt)) }).checkComplete (pkPart pkt) (pkColl pkt) e (pkStep pkt)).publishEnd (pkPart pkt)).settle (pkPart pkt)).withQueue s.pending)) ∧
  -- GAP_NACK (R217)
  (∀ (q : Nat) (pkt : Packet) (s : State) (e : CollE) (r : RankEntry) (i : Inst),
      (Instr.gapNack q pkt).wf = true →
      s.unitOn q = true →
      serviceCause pkt = none →
      (s.takeSvc q 45 pkt).img.collValid (pkPart pkt) (pkColl pkt) = some e →
      (s.takeSvc q 45 pkt).img.rankEntry (pkEpoch pkt) (pkPart pkt) (dstRank (pkSrc pkt)) = some r →
      (s.takeSvc q 45 pkt).instGet (pkPart pkt) (pkColl pkt) e (pkStep pkt) = some i →
      (s.takeSvc q 45 pkt).isReceiver (pkPart pkt) e i (dstRank (pkSrc pkt)) = true →
      let u := s.takeSvc q 45 pkt
      let n := min 32 (leAt pkt.payload 0 1)
      exec (Instr.gapNack q pkt) s =
        .next ((((List.range n).foldl (fun t j => let c := leAt pkt.payload (4 + 3 * j) 3; if e.chunkBase ≤ c ∧ c < e.chunkBase + e.nchunk then t.resendAny (pkPart pkt) (pkColl pkt) (pkStep pkt) c (dstRank (pkSrc pkt)) e i else t) u).settle (pkPart pkt)).withQueue s.pending)) ∧
  -- PATIENCE_EXPIRY (R220)
  (∀ (p coll step : Nat) (s : State) (e : CollE) (i : Inst),
      (Instr.patienceExpiry p coll step).wf = true →
      s.unitOn (p % 4) = true →
      s.img.collValid p coll = some e →
      s.instGet p coll e step = some i →
      i.deadline ≠ 0 →
      exec (Instr.patienceExpiry p coll step) s =
        .next ((s.abortEvent p coll e step 1).withQueue s.pending)) ∧
  -- PARTIAL_RESEND_TIMER (R210)
  (∀ (p coll step chunk : Nat) (s : State) (e : CollE) (x : Slot) (i : Inst),
      (Instr.partialResendTimer p coll step chunk).wf = true →
      s.unitOn (crownQuad p coll chunk) = true →
      s.img.collValid p coll = some e →
      s.slotGet (slotKey (crownQuad p coll chunk) p coll step chunk) = some x →
      s.instGet p coll e step = some i →
      x.st = .waiting →
      slotReady x = true →
      exec (Instr.partialResendTimer p coll step chunk) s =
        .next ((s.waitRun (crownQuad p coll chunk) p ⟨coll, step, chunk, .partialAgain⟩).withQueue s.pending)) ∧
  -- POD_HOLD_EXPIRY (R210)
  (∀ (p coll step chunk : Nat) (s : State) (e : CollE) (x : Slot) (i : Inst),
      (Instr.podHoldExpiry p coll step chunk).wf = true →
      s.unitOn (crownQuad p coll chunk) = true →
      s.img.collValid p coll = some e →
      s.slotGet (slotKey (crownQuad p coll chunk) p coll step chunk) = some x →
      x.st = .held →
      x.podSent ≠ 0 →
      s.instGet p coll e step = some i →
      i.st = .complete →
      exec (Instr.podHoldExpiry p coll step chunk) s =
        .next (((s.slotDrop (slotKey (crownQuad p coll chunk) p coll step chunk)).settle p).withQueue s.pending)) ∧
  -- STRAG_CLEAR (R223)
  (∀ (p : Nat) (s : State),
      (Instr.stragClear p).wf = true →
      s.barQuad (p % 4) = true →
      let u := s.eraseRegs fun id ix => (id == V.STRAG_LAST.id || id == V.STRAG_LAG_MAX.id || id == V.STRAG_LAG_SUM.id || id == V.STRAG_LAG_OVF.id) && ix.getD 0 99 == p
      exec (Instr.stragClear p) s =
        .next ((u.resetFields [F.SEQ_SLOW_RANK, F.SEQ_SLOW_VALID, F.SEQ_SLOW_LAST, F.SEQ_SLOW_BAD_DONE] [p]).withQueue s.pending))

/-- Completion of the commands of triggered operations: for each, where its operands are well formed, its unit runs and the stated condition holds, the next
state is the one written out.  Each clause names the rules that give the effect. -/
def Obligations.TrigCommandsComplete : Prop :=
  -- REDUCE_FORWARD (R214)
  (∀ (p n : Nat) (s : State) (o : TrigOp) (e : CollE) (i : Inst),
      (Instr.reduceForward p n).wf = true →
      s.unitOn (p % 4) = true →
      s.trigOp p n 1 = some o →
      s.img.collValid p (twColl o.word) = some e →
      s.instGet p (twColl o.word) e (twStep o.word o.ctx) = some i →
      i.st = .ready →
      e.pod = true →
      i.fwd = false →
      let sends := fun c => podSends (s.podRole i.bank p e c)
      let u := (s.instPut p (twColl o.word) e { i with fwd := true }).releaseCrowns p (twColl o.word) i.step sends
      ((u.instSlots p (twColl o.word) i.step).any fun kv =>
        kv.1.getD 0 9 == crownQuad p (twColl o.word) (kv.1.getD 4 0) && kv.2.st == .closing && sends (kv.1.getD 4 0)) = true →
      exec (Instr.reduceForward p n) s =
        .next (u.withQueue s.pending)) ∧
  (∀ (p n : Nat) (s : State) (o : TrigOp) (e : CollE) (i : Inst),
      (Instr.reduceForward p n).wf = true →
      s.unitOn (p % 4) = true →
      s.trigOp p n 1 = some o →
      s.img.collValid p (twColl o.word) = some e →
      s.instGet p (twColl o.word) e (twStep o.word o.ctx) = some i →
      i.st = .ready →
      e.pod = true →
      i.fwd = true →
      ((s.instSlots p (twColl o.word) i.step).any fun kv =>
        kv.1.getD 0 9 == crownQuad p (twColl o.word) (kv.1.getD 4 0) && kv.2.st == .closing
          && podSends (s.podRole i.bank p e (kv.1.getD 4 0))) = false →
      exec (Instr.reduceForward p n) s =
        .next ((s.trigEnd p n o false).withQueue s.pending)) ∧
  -- CONVERT_MULTICAST (R214)
  (∀ (p n : Nat) (s : State) (o : TrigOp) (e : CollE) (i k : Inst),
      (Instr.convertMulticast p n).wf = true →
      s.unitOn (p % 4) = true →
      s.trigOp p n 2 = some o →
      s.img.collValid p (twColl o.word) = some e →
      s.instGet p (twColl o.word) e (twStep o.word o.ctx) = some i →
      i.st = .ready →
      i.released = false →
      let coll := twColl o.word
      let j : Inst := { i with
        released := true, outGroup := if twEntryGroup o.word then e.group else twGroup o.word,
        outFmt := if twEntryFmt o.word then e.outFmt else twFormat o.word }
      let u := (((s.instPut p coll e j).convertCrowns p coll i.step e).releaseCrowns p coll i.step fun _ => true).settle p
      u.instGet p coll e i.step = some k →
      exec (Instr.convertMulticast p n) s =
        .next ((if k.resulted = e.nchunk then u.trigEnd p n o false else u).withQueue s.pending)) ∧
  (∀ (p n : Nat) (s : State) (o : TrigOp) (e : CollE) (i : Inst),
      (Instr.convertMulticast p n).wf = true →
      s.unitOn (p % 4) = true →
      s.trigOp p n 2 = some o →
      s.img.collValid p (twColl o.word) = some e →
      s.instGet p (twColl o.word) e (twStep o.word o.ctx) = some i →
      i.st = .ready →
      i.released = true →
      s.instGet p (twColl o.word) e i.step = some i →
      i.resulted = e.nchunk →
      exec (Instr.convertMulticast p n) s =
        .next ((s.trigEnd p n o false).withQueue s.pending)) ∧
  -- NORM_CONTRIBUTE (R235)
  (∀ (p n : Nat) (s : State) (o : TrigOp) (e : CollE) (i : Inst),
      (Instr.normContribute p n).wf = true →
      s.unitOn (p % 4) = true →
      s.trigOp p n 3 = some o →
      s.img.collValid p (twColl o.word) = some e →
      s.instGet p (twColl o.word) e (twStep o.word o.ctx) = some i →
      i.st = .ready →
      s.updState p = 1 →
      s.updStep p = twStep o.word o.ctx →
      let u := i.sides.foldl (fun t kv =>
        (t.instFlags p (twColl o.word) e i.step (kv.1.headD 0) (t.normMoved p i.w kv.2).2 false).normSum p (t.normMoved p i.w kv.2).1) s
      exec (Instr.normContribute p n) s =
        .next ((((u.bumpSat V.NORM_OPS [p] 1).trigEnd p n o false).localFinal p).withQueue s.pending)) ∧
  -- UPDATE_SHARD (R214)
  (∀ (p n : Nat) (s : State) (o : TrigOp),
      (Instr.updateShard p n).wf = true →
      s.unitOn (p % 4) = true →
      s.trigOp p n 4 = some o →
      s.updStep p = twStep o.word o.ctx →
      before32 (twStep o.word o.ctx) (s.updStep p) = false →
      s.updState p = 3 →
      s.rdb V.UPD_OP_DONE [p, twArg0 o.word % 2 ^ 16] = false →
      s.rdb V.UPD_STARTED [p, twArg0 o.word % 2 ^ 16] = false →
      s.img.optAuto p = false →
      exec (Instr.updateShard p n) s =
        .next ((s.wr V.UPD_STARTED [p, twArg0 o.word % 2 ^ 16] 1).withQueue s.pending)) ∧
  -- PUBLISH_OP (R253)
  (∀ (p n : Nat) (s : State) (o : TrigOp) (h : ShardE),
      (Instr.publishOp p n).wf = true →
      s.unitOn (p % 4) = true →
      s.trigOp p n 5 = some o →
      s.img.shardValid p (twArg0 o.word % 2 ^ 16) = some h →
      s.shardQuiet p (twArg0 o.word % 2 ^ 16) = true →
      s.rdb F.UPD_FAULT_FAULTED [h.quad] = false →
      s.rdb V.SHARD_LOST [p, twArg0 o.word % 2 ^ 16] = false →
      exec (Instr.publishOp p n) s =
        .next (((s.publishShard p (twArg0 o.word % 2 ^ 16) (twArg1 o.word) h).trigEnd p n o false).withQueue s.pending)) ∧
  -- SNAPSHOT_OP (R254)
  (∀ (p n : Nat) (s : State) (o : TrigOp) (h : ShardE),
      (Instr.snapshotOp p n).wf = true →
      s.unitOn (p % 4) = true →
      s.trigOp p n 6 = some o →
      s.img.shardValid p (twArg0 o.word % 2 ^ 16) = some h →
      s.shardQuiet p (twArg0 o.word % 2 ^ 16) = true →
      s.rdb F.UPD_FAULT_FAULTED [h.quad] = false →
      let r := s.snapshotShard p (twArg0 o.word % 2 ^ 16) (twArg1 o.word) h
      exec (Instr.snapshotOp p n) s =
        .next ((r.1.trigEnd p n o (r.2 != 0)).withQueue s.pending)) ∧
  -- SIGNAL_HOST (R214)
  (∀ (p n : Nat) (s : State) (o : TrigOp),
      (Instr.signalHost p n).wf = true →
      s.unitOn (p % 4) = true →
      s.trigOp p n 7 = some o →
      o.posted = 0 →
      let k := twArg0 o.word % 8
      let t := s.cqPost p k { kind := 4, tag := twArg1 o.word % 2 ^ 32 }
      (SMap.get t.cqWait [p, k] []).length ≤ (SMap.get s.cqWait [p, k] []).length →
      exec (Instr.signalHost p n) s =
        .next ((t.trigEnd p n o false).withQueue s.pending)) ∧
  -- INCREMENT_OP (R214)
  (∀ (p n : Nat) (s : State) (o : TrigOp),
      (Instr.incrementOp p n).wf = true →
      s.unitOn (p % 4) = true →
      s.trigOp p n 8 = some o →
      exec (Instr.incrementOp p n) s =
        .next (((s.trigEnd p n o false).trigAdd p (twArg1 o.word % 256) (twArg0 o.word % 2 ^ 32)).withQueue s.pending)) ∧
  -- WAIT_EPOCH (R214)
  (∀ (p n : Nat) (s : State) (o : TrigOp),
      (Instr.waitEpoch p n).wf = true →
      s.unitOn (p % 4) = true →
      s.trigOp p n 9 = some o →
      s.rd F.XPT_EPOCH_STATE [p] = 0 →
      s.stamp p = twArg0 o.word % 2 →
      exec (Instr.waitEpoch p n) s =
        .next ((s.trigEnd p n o false).withQueue s.pending)) ∧
  -- TRIGGER_OP_COMPLETE (R213)
  (∀ (p n : Nat) (s : State) (o : TrigOp),
      (Instr.triggerOpComplete p n).wf = true →
      s.unitOn (p % 4) = true →
      (SMap.get s.trigOps [p] [])[n]? = some o →
      o.finished = true →
      o.aborted = false →
      let u := ((s.trigDrop p n).sampleEnd [p % 4, 2, p, o.widx] 0).trigAdd p (twDoneCtr o.word) 1
      exec (Instr.triggerOpComplete p n) s =
        .next ((if twNext o.word = 0xFFFF then u else u.trigArm p (twNext o.word) o.ctx).withQueue s.pending))

/-- Completion of the commands of the update engine: for each, where its operands are well formed, its unit runs and the stated condition holds, the next
state is the one written out.  Each clause names the rules that give the effect. -/
def Obligations.UpdateCommandsComplete : Prop :=
  -- CHUNK_HANDOFF (R234)
  (∀ (p coll step chunk : Nat) (s : State) (e : CollE) (x : Handoff) (m : ShardE),
      (Instr.chunkHandoff p coll step chunk).wf = true →
      s.unitsOk = true →
      s.img.collValid p coll = some e →
      s.shardOn p e.shard = true →
      ((SMap.get s.handoffs [p] []).find? (fun h => h.coll == coll && h.step == step && h.chunk == chunk) = some x) →
      s.img.shardValid p e.shard = some m →
      s.rdb F.UPD_FAULT_FAULTED [m.quad] = false →
      s.updState p ≠ 0 →
      before32 step (s.updStep p) = false →
      before32 (s.updStep p) step = false →
      exec (Instr.chunkHandoff p coll step chunk) s =
        .next (((s.handoffDrop p x).handoffAccept p x e m).withQueue s.pending)) ∧
  (∀ (p coll step chunk : Nat) (s : State) (e : CollE) (x : Handoff) (m : ShardE),
      (Instr.chunkHandoff p coll step chunk).wf = true →
      s.unitsOk = true →
      s.img.collValid p coll = some e →
      s.shardOn p e.shard = true →
      ((SMap.get s.handoffs [p] []).find? (fun h => h.coll == coll && h.step == step && h.chunk == chunk) = some x) →
      s.img.shardValid p e.shard = some m →
      s.rdb F.UPD_FAULT_FAULTED [m.quad] = false →
      s.updState p = 0 →
      s.rdb F.UPD_PART_STEP_OUTCOME [p] = false →
      exec (Instr.chunkHandoff p coll step chunk) s =
        .next ((((s.stepOpen p step).handoffDrop p x).handoffAccept p x e m).withQueue s.pending)) ∧
  -- UPDATE_PASS (R250)
  (∀ (p shard chunk : Nat) (s : State) (h : ShardE),
      (Instr.updatePass p shard chunk).wf = true →
      s.unitsOk = true →
      s.shardOn p shard = true →
      s.img.shardValid p shard = some h →
      s.injEngine h.quad 1 = true →
      exec (Instr.updatePass p shard chunk) s =
        .next ((s.updateProgressTimeout h.quad).withQueue s.pending)) ∧
  (∀ (p shard chunk : Nat) (s : State) (h : ShardE) (c : UpdChunk) (bs : List Byte) (gs : List Nat) (z : State),
      (Instr.updatePass p shard chunk).wf = true →
      s.unitsOk = true →
      s.shardOn p shard = true →
      s.img.shardValid p shard = some h →
      s.injEngine h.quad 1 = false →
      s.updGet p shard chunk = some c →
      s.rdb F.UPD_FAULT_FAULTED [h.quad] = false →
      s.rdb V.SHARD_LOST [p, shard] = false →
      s.passReady p shard (s.img.grp p (s.img.segOf p h chunk).group) (s.img.segOf p h chunk).group c = true →
      s.unitGo h.quad 5 p passCycles = true →
      let sg := s.img.segOf p h chunk
      let g := s.img.grp p sg.group
      let t := s.unitStart h.quad 5 p passCycles
      let off := h.stateAddr + recBytes h * t.recordOf p h chunk
      (twoPass g.recipe = false ∧ g.recipe ≠ 0) →
      t.optRead p off (recBytes h) = some bs →
      t.chunkGrads p chunk h c = some gs →
      let r := recOfBytes h.layout1 bs
      let u := (t.passNote p chunk off h c).updStat p 0 1
      let xs := dropElems c.bad (u.finalElems p sg.group ((chunk - sg.start) * 512) h sg g (t.img.setup p g (t.updT p) (t.rd V.STEP_K [p])) r gs)
      u.optWrite p off (recBytesOf h.layout1 (u.img.seed p) (u.updStep p) ((u.img.coll p h.coll).chunkBase + chunk)
        (xs.map fun x => x.isSome && g.recipe != 0 && g.recipe != 3) (applyElems r xs)) = some z →
      exec (Instr.updatePass p shard chunk) s =
        .next (((z.nonFinite p shard chunk ((xs.filter (·.isNone)).length - c.bad.length)).chunkFinal p shard chunk h c).withQueue s.pending)) ∧
  (∀ (p shard chunk : Nat) (s : State) (h : ShardE) (c : UpdChunk) (bs : List Byte) (gs : List Nat),
      (Instr.updatePass p shard chunk).wf = true →
      s.unitsOk = true →
      s.shardOn p shard = true →
      s.img.shardValid p shard = some h →
      s.injEngine h.quad 1 = false →
      s.updGet p shard chunk = some c →
      s.rdb F.UPD_FAULT_FAULTED [h.quad] = false →
      s.rdb V.SHARD_LOST [p, shard] = false →
      s.passReady p shard (s.img.grp p (s.img.segOf p h chunk).group) (s.img.segOf p h chunk).group c = true →
      s.unitGo h.quad 5 p passCycles = true →
      let sg := s.img.segOf p h chunk
      let g := s.img.grp p sg.group
      let t := s.unitStart h.quad 5 p passCycles
      let off := h.stateAddr + recBytes h * t.recordOf p h chunk
      (twoPass g.recipe = true ∧ c.passes = 0) →
      t.optRead p off (recBytes h) = some bs →
      t.chunkGrads p chunk h c = some gs →
      exec (Instr.updatePass p shard chunk) s =
        .next ((((t.passNote p chunk off h c).updStat p 0 1).firstPass p shard chunk sg.group h sg g
          (t.img.setup p g (t.updT p) (t.rd V.STEP_K [p])) c (recOfBytes h.layout1 bs) gs).withQueue s.pending)) ∧
  (∀ (p shard chunk : Nat) (s : State) (h : ShardE) (c : UpdChunk),
      (Instr.updatePass p shard chunk).wf = true →
      s.unitsOk = true →
      s.shardOn p shard = true →
      s.img.shardValid p shard = some h →
      s.injEngine h.quad 1 = false →
      s.updGet p shard chunk = some c →
      s.rdb F.UPD_FAULT_FAULTED [h.quad] = false →
      s.rdb V.SHARD_LOST [p, shard] = false →
      s.passReady p shard (s.img.grp p (s.img.segOf p h chunk).group) (s.img.segOf p h chunk).group c = true →
      s.unitGo h.quad 5 p passCycles = true →
      let t := s.unitStart h.quad 5 p passCycles
      let off := h.stateAddr + recBytes h * t.recordOf p h chunk
      t.optRead p off (recBytes h) = none →
      exec (Instr.updatePass p shard chunk) s =
        .next ((((t.passNote p chunk off h c).shardLost p shard).stepFail p).withQueue s.pending)) ∧
  -- STEP_DECIDED (R240)
  (∀ (p : Nat) (s : State) (rd : Round) (m : MVal),
      (Instr.stepDecided p).wf = true →
      s.unitOn (p % 4) = true →
      s.updState p = 2 →
      s.roundGet (s.img.normCtx p) (s.updStep p) = some rd →
      rd.st = 2 →
      rd.pod = some m →
      (s.stepFlagRecord p (s.updStep p)).img.optLagged p = false →
      (bitsOf m.v 128 128 = 0 ∧ bitsOf m.v 256 128 = 0) →
      let c := clipFactor (s.img.clipNorm p) (s.img.normW p) (signed 128 (bitsOf m.v 0 128))
      let u := ((((s.stepFlagRecord p (s.updStep p)).wr F.UPD_NORM_NORM [p] c.2).wr F.UPD_CLIP_K [p] c.1).wr F.UPD_CLIP_STEP_TAG [p] (s.updStep p)).wr V.CLIP_KNOWN [p] 1
      exec (Instr.stepDecided p) s =
        .next (((((u.wr V.STEP_K [p] c.1).wr F.UPD_PART_STEP_STATE [p] 3).bump F.UPD_PART_T_T [p] 1).passesEnd p).withQueue s.pending)) ∧
  -- STEP_TIMER_EXPIRY (R241)
  (∀ (p : Nat) (s : State),
      (Instr.stepTimerExpiry p).wf = true →
      s.unitOn (p % 4) = true →
      s.updState p = 2 →
      let n := s.updStep p
      exec (Instr.stepTimerExpiry p) s =
        .next ((((s.abortRups p n).stepEnd p 3).err { det := 0x0D, sev := 1, part := p, quad := p % 4, cause := 3, addr := n }).withQueue s.pending)) ∧
  (∀ (p : Nat) (s : State),
      (Instr.stepTimerExpiry p).wf = true →
      s.unitOn (p % 4) = true →
      (s.updState p = 3 ∨ s.updState p = 4) →
      exec (Instr.stepTimerExpiry p) s =
        .next ((s.stepFail p).withQueue s.pending)) ∧
  -- UPDATE_PROGRESS_TIMEOUT (R256)
  (∀ (q : Nat) (s : State),
      (Instr.updateProgressTimeout q).wf = true →
      s.quadOn q = true →
      s.rdb F.UPD_FAULT_FAULTED [q] = false →
      s.injEngine q 1 = false →
      let u := (s.wr F.UPD_FAULT_FAULTED [q] 1).err { det := 0x0D, sev := 2, quad := q, unit := 1, cause := 1, inj := false }
      exec (Instr.updateProgressTimeout q) s =
        .next (((List.range 32).foldl (fun t p => if t.updOn p q then t.stepFail p else t) u).withQueue s.pending)) ∧
  -- PUBLISH (R253)
  (∀ (q p : Nat) (entry : BitVec 512) (s : State) (h : ShardE),
      (Instr.publish q p entry).wf = true →
      s.engineOn q 1 = true →
      s.ringCmd q p 1 1 entry.toNat = true →
      s.rdb F.UPD_FAULT_FAULTED [q] = false →
      s.img.shardValid p (bitsOf entry.toNat 64 16) = some h →
      s.shardQuiet p (bitsOf entry.toNat 64 16) = true →
      (s.cmdStart q p 1 entry.toNat).rdb V.SHARD_LOST [p, bitsOf entry.toNat 64 16] = false →
      let k := bitsOf entry.toNat 64 16
      exec (Instr.publish q p entry) s =
        .next ((((s.cmdStart q p 1 entry.toNat).publishShard p k (bitsOf entry.toNat 128 64) h).cmdDone q p 1 entry.toNat 0).withQueue s.pending)) ∧
  -- SNAPSHOT (R254)
  (∀ (q p : Nat) (entry : BitVec 512) (s : State) (h : ShardE),
      (Instr.snapshot q p entry).wf = true →
      s.engineOn q 1 = true →
      s.ringCmd q p 1 2 entry.toNat = true →
      s.rdb F.UPD_FAULT_FAULTED [q] = false →
      s.img.shardValid p (bitsOf entry.toNat 64 16) = some h →
      s.shardQuiet p (bitsOf entry.toNat 64 16) = true →
      let r := (s.cmdStart q p 1 entry.toNat).snapshotShard p (bitsOf entry.toNat 64 16) (bitsOf entry.toNat 128 64) h
      exec (Instr.snapshot q p entry) s =
        .next ((r.1.cmdDone q p 1 entry.toNat r.2).withQueue s.pending)) ∧
  -- IMPORT (R255)
  (∀ (q p : Nat) (entry : BitVec 512) (s : State) (h : ShardE),
      (Instr.import_ q p entry).wf = true →
      s.engineOn q 1 = true →
      s.ringCmd q p 1 3 entry.toNat = true →
      s.rdb F.UPD_FAULT_FAULTED [q] = false →
      s.img.shardValid p (bitsOf entry.toNat 64 16) = some h →
      let r := (s.cmdStart q p 1 entry.toNat).importShard p (bitsOf entry.toNat 64 16) (bitsOf entry.toNat 128 64) h
      exec (Instr.import_ q p entry) s =
        .next ((r.1.cmdDone q p 1 entry.toNat r.2).withQueue s.pending)) ∧
  -- SET_T (R255)
  (∀ (q p : Nat) (entry : BitVec 512) (s : State),
      (Instr.setT q p entry).wf = true →
      s.engineOn q 1 = true →
      s.ringCmd q p 1 4 entry.toNat = true →
      s.rdb F.UPD_FAULT_FAULTED [q] = false →
      (s.cmdStart q p 1 entry.toNat).updState p = 0 →
      exec (Instr.setT q p entry) s =
        .next ((((s.cmdStart q p 1 entry.toNat).wr F.UPD_PART_T_T [p] (bitsOf entry.toNat 96 32)).cmdDone q p 1 entry.toNat 0).withQueue s.pending))

/-- Completion of the commands of the Gram engine: for each, where its operands are well formed, its unit runs and the stated condition holds, the next
state is the one written out.  Each clause names the rules that give the effect. -/
def Obligations.GramCommandsComplete : Prop :=
  -- GRAM_ACC (R264)
  (∀ (q p : Nat) (entry : BitVec 512) (s : State),
      (Instr.gramAcc q p entry).wf = true →
      s.engineOn q 2 = true →
      s.ringCmd q p 2 1 entry.toNat = true →
      s.rdb F.GRM_PART_STATE [q, p] = false →
      ((s.wr F.GRM_PART_OPCODE [q, p] 1).wr F.GRM_PART_TAG [q, p] (ceTag entry.toNat)).rdb F.GRM_FAULT_FAULTED [q] = false →
      ((s.wr F.GRM_PART_OPCODE [q, p] 1).wr F.GRM_PART_TAG [q, p] (ceTag entry.toNat)).gramOk q p 1 entry.toNat = true →
      (gStaged 1 entry.toNat = false ∨ ((s.wr F.GRM_PART_OPCODE [q, p] 1).wr F.GRM_PART_TAG [q, p] (ceTag entry.toNat)).blockStaged p 1 entry.toNat = true) →
      exec (Instr.gramAcc q p entry) s =
        .next ((((s.wr F.GRM_PART_OPCODE [q, p] 1).wr F.GRM_PART_TAG [q, p] (ceTag entry.toNat)).gramRun q p 1 entry.toNat).withQueue s.pending)) ∧
  -- MATMUL (R265)
  (∀ (q p : Nat) (entry : BitVec 512) (s : State),
      (Instr.matmul q p entry).wf = true →
      s.engineOn q 2 = true →
      s.ringCmd q p 2 2 entry.toNat = true →
      s.rdb F.GRM_PART_STATE [q, p] = false →
      ((s.wr F.GRM_PART_OPCODE [q, p] 2).wr F.GRM_PART_TAG [q, p] (ceTag entry.toNat)).rdb F.GRM_FAULT_FAULTED [q] = false →
      ((s.wr F.GRM_PART_OPCODE [q, p] 2).wr F.GRM_PART_TAG [q, p] (ceTag entry.toNat)).gramOk q p 2 entry.toNat = true →
      (gStaged 2 entry.toNat = false ∨ ((s.wr F.GRM_PART_OPCODE [q, p] 2).wr F.GRM_PART_TAG [q, p] (ceTag entry.toNat)).blockStaged p 2 entry.toNat = true) →
      exec (Instr.matmul q p entry) s =
        .next ((((s.wr F.GRM_PART_OPCODE [q, p] 2).wr F.GRM_PART_TAG [q, p] (ceTag entry.toNat)).gramRun q p 2 entry.toNat).withQueue s.pending)) ∧
  -- NS_ROOT (R267)
  (∀ (q p : Nat) (entry : BitVec 512) (s : State),
      (Instr.nsRoot q p entry).wf = true →
      s.engineOn q 2 = true →
      s.ringCmd q p 2 3 entry.toNat = true →
      s.rdb F.GRM_PART_STATE [q, p] = false →
      ((s.wr F.GRM_PART_OPCODE [q, p] 3).wr F.GRM_PART_TAG [q, p] (ceTag entry.toNat)).rdb F.GRM_FAULT_FAULTED [q] = false →
      ((s.wr F.GRM_PART_OPCODE [q, p] 3).wr F.GRM_PART_TAG [q, p] (ceTag entry.toNat)).gramOk q p 3 entry.toNat = true →
      (gStaged 3 entry.toNat = false ∨ ((s.wr F.GRM_PART_OPCODE [q, p] 3).wr F.GRM_PART_TAG [q, p] (ceTag entry.toNat)).blockStaged p 3 entry.toNat = true) →
      exec (Instr.nsRoot q p entry) s =
        .next ((((s.wr F.GRM_PART_OPCODE [q, p] 3).wr F.GRM_PART_TAG [q, p] (ceTag entry.toNat)).gramRun q p 3 entry.toNat).withQueue s.pending)) ∧
  -- NS_ORTHO (R268)
  (∀ (q p : Nat) (entry : BitVec 512) (s : State),
      (Instr.nsOrtho q p entry).wf = true →
      s.engineOn q 2 = true →
      s.ringCmd q p 2 4 entry.toNat = true →
      s.rdb F.GRM_PART_STATE [q, p] = false →
      ((s.wr F.GRM_PART_OPCODE [q, p] 4).wr F.GRM_PART_TAG [q, p] (ceTag entry.toNat)).rdb F.GRM_FAULT_FAULTED [q] = false →
      ((s.wr F.GRM_PART_OPCODE [q, p] 4).wr F.GRM_PART_TAG [q, p] (ceTag entry.toNat)).gramOk q p 4 entry.toNat = true →
      (gStaged 4 entry.toNat = false ∨ ((s.wr F.GRM_PART_OPCODE [q, p] 4).wr F.GRM_PART_TAG [q, p] (ceTag entry.toNat)).blockStaged p 4 entry.toNat = true) →
      exec (Instr.nsOrtho q p entry) s =
        .next ((((s.wr F.GRM_PART_OPCODE [q, p] 4).wr F.GRM_PART_TAG [q, p] (ceTag entry.toNat)).gramRun q p 4 entry.toNat).withQueue s.pending)) ∧
  -- APPLY (R269)
  (∀ (q p : Nat) (entry : BitVec 512) (s : State),
      (Instr.apply q p entry).wf = true →
      s.engineOn q 2 = true →
      s.ringCmd q p 2 5 entry.toNat = true →
      s.rdb F.GRM_PART_STATE [q, p] = false →
      ((s.wr F.GRM_PART_OPCODE [q, p] 5).wr F.GRM_PART_TAG [q, p] (ceTag entry.toNat)).rdb F.GRM_FAULT_FAULTED [q] = false →
      ((s.wr F.GRM_PART_OPCODE [q, p] 5).wr F.GRM_PART_TAG [q, p] (ceTag entry.toNat)).gramOk q p 5 entry.toNat = true →
      (gStaged 5 entry.toNat = false ∨ ((s.wr F.GRM_PART_OPCODE [q, p] 5).wr F.GRM_PART_TAG [q, p] (ceTag entry.toNat)).blockStaged p 5 entry.toNat = true) →
      exec (Instr.apply q p entry) s =
        .next ((((s.wr F.GRM_PART_OPCODE [q, p] 5).wr F.GRM_PART_TAG [q, p] (ceTag entry.toNat)).gramRun q p 5 entry.toNat).withQueue s.pending)) ∧
  -- GRAM_WAIT_RELEASE (R270)
  (∀ (q p : Nat) (s : State),
      (Instr.gramWaitRelease q p).wf = true →
      s.engineOn q 2 = true →
      s.rd F.GRM_PART_STATE [q, p] = 1 →
      s.rdb V.GRM_ABORT [q, p] = false →
      s.rdb F.GRM_FAULT_FAULTED [q] = false →
      s.blockStaged p (ceOpcode (s.rd V.GRM_ENTRY [q, p])) (s.rd V.GRM_ENTRY [q, p]) = true →
      s.gramOk q p (ceOpcode (s.rd V.GRM_ENTRY [q, p])) (s.rd V.GRM_ENTRY [q, p]) = true →
      exec (Instr.gramWaitRelease q p) s =
        .next ((s.gramRun q p (ceOpcode (s.rd V.GRM_ENTRY [q, p])) (s.rd V.GRM_ENTRY [q, p])).withQueue s.pending)) ∧
  -- GRAM_UNIT (R272)
  (∀ (q p : Nat) (s : State),
      (Instr.gramUnit q p).wf = true →
      s.engineOn q 2 = true →
      s.injEngine q 2 = true →
      s.rdb F.GRM_FAULT_FAULTED [q] = false →
      s.rd F.GRM_PART_STATE [q, p] = 2 →
      (s.gramNext q p).isSome = true →
      exec (Instr.gramUnit q p) s =
        .next ((s.gramProgressTimeout q p).withQueue s.pending)) ∧
  (∀ (q p : Nat) (s : State) (u : Nat × GPass × (Nat × Nat) × Nat),
      (Instr.gramUnit q p).wf = true →
      s.engineOn q 2 = true →
      s.injDet 0x0A q = false →
      s.injEngine q 2 = false →
      s.gramNext q p = some u →
      let entry := s.rd V.GRM_ENTRY [q, p]
      let op := ceOpcode entry
      (gStaged op entry = true ∧ s.rdb V.GRM_ABORT [q, p] = true) →
      exec (Instr.gramUnit q p) s =
        .next ((s.gramStop q p).withQueue s.pending)) ∧
  (∀ (q p : Nat) (s : State) (u : Nat × GPass × (Nat × Nat) × Nat),
      (Instr.gramUnit q p).wf = true →
      s.engineOn q 2 = true →
      s.injDet 0x0A q = false →
      s.injEngine q 2 = false →
      s.gramNext q p = some u →
      let entry := s.rd V.GRM_ENTRY [q, p]
      let op := ceOpcode entry
      (gStaged op entry = false ∨ s.rdb V.GRM_ABORT [q, p] = false) →
      ((s.gAreas p op entry).any fun a => s.rangeLost p a.1 a.2) = false →
      s.unitGo q 6 p (s.gramCycles q p u) = true →
      let t := (s.unitStart q 6 p (s.gramCycles q p u)).wr V.HBM_REQ [] (1 + 4 * 1 + q)
      let rs := t.unitSpans p op entry u.1 u.2.1 u.2.2.1 u.2.2.2
      (rs.any fun a => t.readBad p a.1 a.2) = false →
      exec (Instr.gramUnit q p) s =
        .next ((((rs.foldl (fun t a => t.noteRead 0x09 p a.1 a.2) t).gramEffect q p u).wr V.HBM_REQ []
          ((s.unitStart q 6 p (s.gramCycles q p u)).rd V.HBM_REQ [])).withQueue s.pending)) ∧
  -- GRAM_PROGRESS_TIMEOUT (R275)
  (∀ (q p : Nat) (s : State),
      (Instr.gramProgressTimeout q p).wf = true →
      s.quadOn q = true →
      s.rdb F.GRM_FAULT_FAULTED [q] = false →
      s.rd F.GRM_PART_STATE [q, p] = 2 →
      s.injEngine q 2 = false →
      let u := (((s.wr F.GRM_FAULT_FAULTED [q] 1).wr F.GRM_FAULT_PART [q] p).wr F.GRM_FAULT_OPCODE [q] (s.rd F.GRM_PART_OPCODE [q, p])).raise F.GRM_FAULT_VALID [q]
      let x := u.err { det := 0x0D, sev := 2, quad := q, unit := 2, cause := 2, info := u.rd F.GRM_PART_OPCODE [q, p] * 2 ^ 8 + 2 * p + 1, inj := false }
      exec (Instr.gramProgressTimeout q p) s =
        .next (((List.range 32).foldl (fun t r => if t.rd F.GRM_PART_STATE [q, r] == 2 then t.gramStop q r else t) x).withQueue s.pending))

/-- Completion of the commands of the Mitten: for each, where its operands are well formed, its unit runs and the stated condition holds, the next
state is the one written out.  Each clause names the rules that give the effect. -/
def Obligations.MittenCommandsComplete : Prop :=
  -- MIT_MEMBER (R289)
  (∀ (pkt : Packet) (s : State) (e : CtxE) (r : RankEntry),
      (Instr.mitMember pkt).wf = true →
      s.unitOn (pkCtx pkt % 4) = true →
      s.laneFirst (pkCtx pkt % 4) pkt = true →
      pkPayUnits pkt = 1 →
      serviceCause pkt = none →
      s.ctxFor pkt = some e →
      s.img.rankEntry (pkEpoch pkt) (pkPart pkt) (dstRank (pkSrc pkt)) = some r →
      e.ni = true →
      bitOf (s.img.memberSet (pkPart pkt) e.set) (dstRank (pkSrc pkt)) = true →
      let u := s.takeSvc (pkCtx pkt % 4) 46 pkt
      let x := u.mitInputAt (pkCtx pkt) (pkPart pkt) (pkSeq pkt) e [1, r.acc] (pkMval pkt) (mitMemberLate (pkCtx pkt) (pkPart pkt) (dstRank (pkSrc pkt)))
      exec (Instr.mitMember pkt) s =
        .next ((if (x.roundGet (pkCtx pkt) (pkSeq pkt)).isSome then x.sramHook (pkCtx pkt % 4) 4 (pkPart pkt) (pkCtx pkt) (pkSeq pkt) else x).withQueue s.pending)) ∧
  -- MIT_ROW (R295)
  (∀ (pkt : Packet) (s : State) (e : CtxE),
      (Instr.mitRow pkt).wf = true →
      s.unitOn (pkCtx pkt % 4) = true →
      s.laneFirst (pkCtx pkt % 4) pkt = true →
      pkPayUnits pkt = 1 →
      serviceCause pkt = none →
      s.ctxFor pkt = some e →
      e.pod = true →
      pkSrcType pkt = 1 →
      dstY (pkSrc pkt) = s.myY →
      (s.rowPeers e).contains (dstX (pkSrc pkt)) = true →
      let u := s.takeSvc (pkCtx pkt % 4) 46 pkt
      let x := u.mitInputAt (pkCtx pkt) (pkPart pkt) (pkSeq pkt) e [3, dstX (pkSrc pkt)] (pkMval pkt) (mitRowLate (pkCtx pkt) (pkPart pkt) (dstX (pkSrc pkt)))
      exec (Instr.mitRow pkt) s =
        .next ((if (x.roundGet (pkCtx pkt) (pkSeq pkt)).isSome then x.sramHook (pkCtx pkt % 4) 4 (pkPart pkt) (pkCtx pkt) (pkSeq pkt) else x).withQueue s.pending)) ∧
  -- MIT_COLUMN (R295)
  (∀ (pkt : Packet) (s : State) (e : CtxE),
      (Instr.mitColumn pkt).wf = true →
      s.unitOn (pkCtx pkt % 4) = true →
      s.laneFirst (pkCtx pkt % 4) pkt = true →
      pkPayUnits pkt = 1 →
      serviceCause pkt = none →
      s.ctxFor pkt = some e →
      e.pod = true →
      pkSrcType pkt = 1 →
      dstX (pkSrc pkt) = s.myX →
      (s.colPeers e).contains (dstY (pkSrc pkt)) = true →
      let u := s.takeSvc (pkCtx pkt % 4) 46 pkt
      let x := u.mitInputAt (pkCtx pkt) (pkPart pkt) (pkSeq pkt) e [4, dstY (pkSrc pkt)] (pkMval pkt) (mitColLate (pkCtx pkt) (pkPart pkt) (dstY (pkSrc pkt)))
      exec (Instr.mitColumn pkt) s =
        .next ((if (x.roundGet (pkCtx pkt) (pkSeq pkt)).isSome then x.sramHook (pkCtx pkt % 4) 4 (pkPart pkt) (pkCtx pkt) (pkSeq pkt) else x).withQueue s.pending)) ∧
  -- MIT_COURIER (R297)
  (∀ (pkt : Packet) (s : State) (e : CtxE),
      (Instr.mitCourier pkt).wf = true →
      s.unitOn (pkCtx pkt % 4) = true →
      s.laneFirst (pkCtx pkt % 4) pkt = true →
      pkPayUnits pkt = 1 →
      serviceCause pkt = none →
      s.ctxFor pkt = some e →
      e.planes = true →
      dstRank (pkSrc pkt) = e.courier0 →
      pkSubject pkt < 18 →
      pkSubject pkt ≠ s.myPlane →
      s.roundGet (pkCtx pkt) (pkSeq pkt) = none →
      let u := s.takeSvc (pkCtx pkt % 4) 46 pkt
      let x := u.mitInputAt (pkCtx pkt) (pkPart pkt) (pkSeq pkt) e [2, pkSubject pkt] (pkMval pkt) (mitCourierLate (pkCtx pkt) (pkPart pkt) e)
      exec (Instr.mitCourier pkt) s =
        .next ((if (x.roundGet (pkCtx pkt) (pkSeq pkt)).isSome then x.sramHook (pkCtx pkt % 4) 4 (pkPart pkt) (pkCtx pkt) (pkSeq pkt) else x).withQueue s.pending)) ∧
  -- MIT_ROUND_ABORT (R292)
  (∀ (c : Nat) (seq : BitVec 32) (s : State) (p : Nat) (e : CtxE) (r : Round),
      (Instr.mitRoundAbort c seq).wf = true →
      s.unitOn (c % 4) = true →
      s.img.ctx c = some (p, e) →
      s.roundGet c seq.toNat = some r →
      r.st = 1 →
      exec (Instr.mitRoundAbort c seq) s =
        .next (((s.roundPut c { r with due := true }).wr V.ROUND_DUE [] 1).withQueue s.pending)) ∧
  -- MIT_PEER_RESEND (R296)
  (∀ (c : Nat) (seq : BitVec 32) (s : State) (p : Nat) (e : CtxE) (r : Round) (m : MVal),
      (Instr.mitPeerResend c seq).wf = true →
      s.unitOn (c % 4) = true →
      s.img.ctx c = some (p, e) →
      s.roundGet c seq.toNat = some r →
      r.st = 1 →
      r.silent = false →
      r.rack = some m →
      r.row = none →
      let l := (s.rowPeers e).filter fun x => (SMap.find [3, x] r.inputs).isNone
      exec (Instr.mitPeerResend c seq) s =
        .next (((l.foldl (fun t x => t.mitRowTo c p seq.toNat 1 x m) s).roundPut c { r with resendIv := s.nextIv r.resendIv }).withQueue s.pending)) ∧
  (∀ (c : Nat) (seq : BitVec 32) (s : State) (p : Nat) (e : CtxE) (r : Round) (m : MVal),
      (Instr.mitPeerResend c seq).wf = true →
      s.unitOn (c % 4) = true →
      s.img.ctx c = some (p, e) →
      s.roundGet c seq.toNat = some r →
      r.st = 1 →
      r.silent = false →
      r.row = some m →
      let l := (s.colPeers e).filter fun y => (SMap.find [4, y] r.inputs).isNone
      exec (Instr.mitPeerResend c seq) s =
        .next (((l.foldl (fun t y => t.mitColTo c p seq.toNat 1 y m) s).roundPut c { r with resendIv := s.nextIv r.resendIv }).withQueue s.pending)) ∧
  -- MIT_CARRY_RESEND (R297)
  (∀ (c : Nat) (seq : BitVec 32) (s : State) (p : Nat) (e : CtxE) (r : Round) (m : MVal),
      (Instr.mitCarryResend c seq).wf = true →
      s.unitOn (c % 4) = true →
      s.img.ctx c = some (p, e) →
      s.roundGet c seq.toNat = some r →
      SMap.find [5, 0] r.inputs = some m →
      r.st = 1 →
      ((e.planes && (List.range 18).any fun n => n != s.myPlane && (SMap.find [2, n] r.inputs).isNone) = true) →
      r.silent = false →
      exec (Instr.mitCarryResend c seq) s =
        .next (((s.mitCarry c p e seq.toNat 1 m).roundPut c { r with carryIv := s.nextIv r.carryIv }).withQueue s.pending)) ∧
  -- MIT_ROLE_SET (R301)
  (∀ (c role : Nat) (s : State),
      (Instr.mitRoleSet c role).wf = true →
      s.barOn = true →
      exec (Instr.mitRoleSet c role) s =
        .next ((s.wr F.MIT_CTX_ROLE [c % 4, c / 4] role).withQueue s.pending)) ∧
  -- NOTICE_EN_WRITE (R308)
  (∀ (value : Nat) (s : State),
      (Instr.noticeEnWrite value).wf = true →
      s.barOn = true →
      value ≠ 0 →
      exec (Instr.noticeEnWrite value) s =
        .next (((List.range 160).foldl (fun (t : State) i =>
          if t.linkUp (i / 40) (i % 40) && !t.rdb F.COR_PORT_OPEN [i / 40, i % 40] && !t.rdb F.COR_PORT_FLUSHING [i / 40, i % 40]
          then t.portOpen (i / 40) (i % 40) else t) (s.wr F.MIT_CTL_NOTICE_EN [] value)).withQueue s.pending)) ∧
  (∀ (s : State),
      (Instr.noticeEnWrite 0).wf = true →
      s.barOn = true →
      s.allClosed = true →
      exec (Instr.noticeEnWrite 0) s =
        .next ((s.wr F.MIT_CTL_NOTICE_EN [] 0).withQueue s.pending)) ∧
  (∀ (s : State),
      (Instr.noticeEnWrite 0).wf = true →
      s.barOn = true →
      s.allClosed = false →
      exec (Instr.noticeEnWrite 0) s = .next (s.withQueue s.pending)) ∧
  -- NOTICE_REPEAT (R302)
  (∀ (s : State) (c : NoticeCopy) (r : List NoticeCopy),
      s.clocked = true →
      s.notices = c :: r →
      exec .noticeRepeat s =
        .next ((({ s with notices := r } : State).mitOut c.quad c.port (s.noticeAgain c)).withQueue s.pending))

/-- Completion of the commands of HBM and parking: for each, where its operands are well formed, its unit runs and the stated condition holds, the next
state is the one written out.  Each clause names the rules that give the effect. -/
def Obligations.HbmCommandsComplete : Prop :=
  -- PATROL_SCRUB (R377)
  (∀ (q stack : Nat) (s : State),
      (Instr.patrolScrub q stack).wf = true →
      s.quadOn q = true →
      s.rdb F.HBM_SCRUB_EN [q] = true →
      s.rd F.HBM_STACK_STATE [q, stack] = 2 →
      s.rdb V.SCRUB_STOP [q] = false →
      let line := s.rd V.SCRUB_LINE [q, stack]
      let v := s.wr V.HBM_REQ [] (1 + 4 * 7 + q)
      let u := v.countBeat 18 (v.devOwner q stack (128 * line)) (6 * q + stack) 2
      exec (Instr.patrolScrub q stack) s =
        .next (((((List.range 4).foldl (fun t i => t.scrubSector (6 * q + stack) (4 * line + i)) u).wr V.HBM_REQ [] (s.rd V.HBM_REQ [])).scrubNext q stack).withQueue s.pending)) ∧
  -- HBM_RETIRE (R378)
  (∀ (q stack channel : Nat) (whole : Bool) (s : State),
      (Instr.hbmRetire q stack channel whole).wf = true →
      s.quadOn q = true →
      s.rd F.HBM_STACK_STATE [q, stack] ≠ 3 →
      whole = false →
      s.rd F.HBM_STACK_CH_RETIRED [q, stack] = 0 →
      let u := ((s.wr F.HBM_STACK_CH_RETIRED [q, stack] (setBit 0 channel)).wr F.HBM_STACK_MAP_MIB [q, stack] 21457).wr V.RET_CH [6 * q + stack] (setBit 0 channel)
      exec (Instr.hbmRetire q stack channel whole) s =
        .next (((((u.losePages (6 * q + stack)).wr V.ZERO_LOST [6 * q + stack] 1).err { det := 0x09, sev := 2, quad := q, unit := stack, cause := channel }).loseStack q stack).withQueue s.pending)) ∧
  (∀ (q stack channel : Nat) (whole : Bool) (s : State),
      (Instr.hbmRetire q stack channel whole).wf = true →
      s.quadOn q = true →
      s.rd F.HBM_STACK_STATE [q, stack] ≠ 3 →
      whole = true →
      let u := ((s.wr F.HBM_STACK_STATE [q, stack] 3).wr F.HBM_STACK_MAP_MIB [q, stack] 0).wr V.RET_STACK [6 * q + stack] 1
      exec (Instr.hbmRetire q stack channel whole) s =
        .next (((((u.losePages (6 * q + stack)).wr V.ZERO_LOST [6 * q + stack] 1).err { det := 0x09, sev := 2, quad := q, unit := stack, cause := 16 }).loseStack q stack).withQueue s.pending)) ∧
  -- HBM_RETIRE_CMD (R378)
  (∀ (q : Nat) (value : BitVec 64) (s : State),
      (Instr.hbmRetireCmd q value).wf = true →
      s.barQuad q = true →
      bitOf value.toNat 8 = true →
      bitsOf value.toNat 0 3 < 6 →
      exec (Instr.hbmRetireCmd q value) s =
        .next ((s.hbmRetire q (bitsOf value.toNat 0 3) (bitsOf value.toNat 3 4) (bitOf value.toNat 7)).withQueue s.pending)) ∧
  -- SPARE_REMAP_END (R381)
  (∀ (q ext : Nat) (s : State),
      (Instr.spareRemapEnd q ext).wf = true →
      s.quadOn q = true →
      s.rdb F.HBM_EXTENT_REMAPPING [q, ext] = true →
      let u := s.zeroExtent (s.img.extent q (s.img.extent q ext).spareIdx)
      exec (Instr.spareRemapEnd q ext) s =
        .next ((((u.wr F.HBM_EXTENT_REMAPPING [q, ext] 0).wr F.HBM_EXTENT_REMAPPED [q, ext] 1).wr F.HBM_EXTENT_LOST [q, ext] 0).withQueue s.pending)) ∧
  -- HBM_LOCK_TIMEOUT (R392)
  (∀ (q stack pc req : Nat) (s : State),
      (Instr.hbmLockTimeout q stack pc req).wf = true →
      s.quadOn q = true →
      (req = 6 ∨ req = 5) →
      s.injDet 0x0C q = false →
      let u := ((((s.wr F.ARB_HBM_LOG_STACK [q] stack).wr F.ARB_HBM_LOG_PC [q] pc).wr F.ARB_HBM_LOG_REQ [q] req).raise F.ARB_HBM_LOG_VALID [q]).bump F.ARB_HBM_LOG_FIRES [q] 1
      let x := u.countLocal q (94 + stack) 26 0 1
      exec (Instr.hbmLockTimeout q stack pc req) s =
        .next ((x.err { det := 0x0C, sev := 2, quad := q, unit := req, cause := 1, inj := false, info := stack + 8 * pc + 2 ^ 8 * req + 2 ^ 11 + 2 ^ 32 * x.rd F.ARB_HBM_LOG_FIRES [q] }).withQueue s.pending)) ∧
  -- HBM_INJECT (R394)
  (∀ (q : Nat) (value : BitVec 64) (s : State),
      (Instr.hbmInject q value).wf = true →
      s.barQuad q = true →
      bitOf value.toNat 38 = false →
      let u := s.hbmInjFields q value.toNat
      exec (Instr.hbmInject q value) s =
        .next ((u).withQueue s.pending)) ∧
  (∀ (q : Nat) (value : BitVec 64) (s : State),
      (Instr.hbmInject q value).wf = true →
      s.barQuad q = true →
      bitOf value.toNat 38 = true →
      bitsOf value.toNat 0 3 < 6 →
      (s.hbmInjFields q value.toNat).injAllowed false ((s.hbmInjFields q value.toNat).injTargetPart q value.toNat) false = true →
      let u := s.hbmInjFields q value.toNat
      exec (Instr.hbmInject q value) s =
        .next ((u.injArm 3 0x09 q (u.injTargetPart q value.toNat) 0).withQueue s.pending)) ∧
  -- PARK_WRITE (R384)
  (∀ (q : Nat) (pkt : Packet) (s : State) (h : Held) (ps : List (Loc × Nat)),
      (Instr.parkWrite q pkt).wf = true →
      s.quadOn q = true →
      pkOpcode pkt = 0x12 →
      serviceCause pkt = none →
      ((SMap.get s.svc [q, 45] []).find? (fun x => x.pkt == pkt)) = some h →
      s.parkTarget pkt = some ps →
      s.rdb F.PRK_QUEUE_FAULTED [q] = false →
      s.parkRoom q (pkPart pkt) = true →
      let u := s.takeSvc q 45 pkt
      let t := u.setParked q (parkInsert ⟨pkt, ps, s.rd V.CYCLE [q], h.inPort⟩ (s.parked q))
      exec (Instr.parkWrite q pkt) s =
        .next ((t.wr F.PRK_QUEUE_PEAK [q] (max (s.rd F.PRK_QUEUE_PEAK [q]) (t.parked q).length)).withQueue s.pending)) ∧
  (∀ (q : Nat) (pkt : Packet) (s : State),
      (Instr.parkWrite q pkt).wf = true →
      s.quadOn q = true →
      pkOpcode pkt = 0x12 →
      serviceCause pkt = none →
      s.parkTarget pkt = none →
      exec (Instr.parkWrite q pkt) s =
        .next ((((s.takeSvc q 45 pkt).prkStat q (pkPart pkt) 3 1).nack q pkt 5).withQueue s.pending)) ∧
  (∀ (q : Nat) (pkt : Packet) (s : State) (ps : List (Loc × Nat)),
      (Instr.parkWrite q pkt).wf = true →
      s.quadOn q = true →
      pkOpcode pkt = 0x12 →
      serviceCause pkt = none →
      s.parkTarget pkt = some ps →
      s.rdb F.PRK_QUEUE_FAULTED [q] = false →
      s.parkRoom q (pkPart pkt) = false →
      exec (Instr.parkWrite q pkt) s =
        .next ((((s.takeSvc q 45 pkt).prkStat q (pkPart pkt) 2 1).nack q pkt 7).withQueue s.pending)) ∧
  -- PARK_READ (R384)
  (∀ (q : Nat) (pkt : Packet) (s : State) (h : Held) (ps : List (Loc × Nat)),
      (Instr.parkRead q pkt).wf = true →
      s.quadOn q = true →
      pkOpcode pkt = 0x13 →
      serviceCause pkt = none →
      ((SMap.get s.svc [q, 45] []).find? (fun x => x.pkt == pkt)) = some h →
      s.parkTarget pkt = some ps →
      s.rdb F.PRK_QUEUE_FAULTED [q] = false →
      s.parkRoom q (pkPart pkt) = true →
      let u := s.takeSvc q 45 pkt
      let t := u.setParked q (parkInsert ⟨pkt, ps, s.rd V.CYCLE [q], h.inPort⟩ (s.parked q))
      exec (Instr.parkRead q pkt) s =
        .next ((t.wr F.PRK_QUEUE_PEAK [q] (max (s.rd F.PRK_QUEUE_PEAK [q]) (t.parked q).length)).withQueue s.pending)) ∧
  (∀ (q : Nat) (pkt : Packet) (s : State),
      (Instr.parkRead q pkt).wf = true →
      s.quadOn q = true →
      pkOpcode pkt = 0x13 →
      serviceCause pkt = none →
      s.parkTarget pkt = none →
      exec (Instr.parkRead q pkt) s =
        .next ((((s.takeSvc q 45 pkt).prkStat q (pkPart pkt) 3 1).nack q pkt 5).withQueue s.pending)) ∧
  (∀ (q : Nat) (pkt : Packet) (s : State) (ps : List (Loc × Nat)),
      (Instr.parkRead q pkt).wf = true →
      s.quadOn q = true →
      pkOpcode pkt = 0x13 →
      serviceCause pkt = none →
      s.parkTarget pkt = some ps →
      s.rdb F.PRK_QUEUE_FAULTED [q] = false →
      s.parkRoom q (pkPart pkt) = false →
      exec (Instr.parkRead q pkt) s =
        .next ((((s.takeSvc q 45 pkt).prkStat q (pkPart pkt) 2 1).nack q pkt 7).withQueue s.pending)) ∧
  -- PARK_APPLY (R386)
  (∀ (q p : Nat) (s : State) (k : Parked),
      (Instr.parkApply q p).wf = true →
      s.engineOn q 4 = true →
      ((s.parked q).find? (fun k => pkPart k.pkt == p) = some k) →
      s.rdb F.PRK_QUEUE_FAULTED [q] = false →
      s.unitGo q 8 p parkCycles = true →
      let t := (s.unitStart q 8 p parkCycles).wr V.HBM_REQ [] (1 + 4 * 4 + q)
      exec (Instr.parkApply q p) s =
        .next ((((t.setParked q ((t.parked q).erase k)).parkDo q k).wr V.HBM_REQ [] ((s.unitStart q 8 p parkCycles).rd V.HBM_REQ [])).withQueue s.pending)) ∧
  -- PARK_SERVICE_FAULT (R387)
  (∀ (q : Nat) (s : State),
      (Instr.parkServiceFault q).wf = true →
      s.quadOn q = true →
      (s.parked q).isEmpty = false →
      s.rdb F.PRK_QUEUE_FAULTED [q] = false →
      let u := ((s.setParked q []).wr F.PRK_QUEUE_FAULTED [q] 1).err { det := 0x0D, sev := 2, quad := q, unit := 3 }
      exec (Instr.parkServiceFault q) s =
        .next (((s.parked q).foldl (fun t k => (t.prkStat q (pkPart k.pkt) 3 1).nack q k.pkt 5) u).withQueue s.pending))

/-- Completion of the commands of the Mover: for each, where its operands are well formed, its unit runs and the stated condition holds, the next
state is the one written out.  Each clause names the rules that give the effect. -/
def Obligations.MoverCommandsComplete : Prop :=
  -- MOVER_START (R409)
  (∀ (q p : Nat) (entry : BitVec 512) (s : State),
      (Instr.moverStart q p entry).wf = true →
      s.engineOn q 3 = true →
      s.ringCmd q p 3 1 entry.toNat = true →
      bitsOf entry.toNat 64 2 ≠ 0 →
      s.rdb F.MOV_STAT_FAULTED [q] = false →
      s.rdb F.MOV_STAT_STOPPED [q] = false →
      s.movSt q p (movChan entry.toNat) = 0 →
      let c := movChan entry.toNat
      let u := (((((s.cmdStart q p 3 entry.toNat).wr V.MOV_START_E [q, p, c] entry.toNat).wr V.MOV_TAG [q, p, c] (ceTag entry.toNat)).wr V.MOV_MISM [q, p, c] 0).wr V.MOV_FIRST [q, p, c] 0).wr V.MOV_FWORD [q, p, c] 0
      exec (Instr.moverStart q p entry) s =
        .next ((((u.setMov q p c 1).eraseRegs fun f ix => f == V.MOV_WROTE.id && ix.take 3 == [q, p, c]).movFetch q p c
          (bitsOf entry.toNat 128 64)).withQueue s.pending)) ∧
  -- MOVER_PAUSE (R413)
  (∀ (q p c : Nat) (entry : BitVec 512) (s : State),
      (Instr.moverPause q p c entry).wf = true →
      s.quadOn q = true →
      s.ringCmd q p 3 2 entry.toNat = true →
      bitsOf entry.toNat 64 2 ≠ 0 →
      movChan entry.toNat = c →
      entry ≠ 0 →
      exec (Instr.moverPause q p c entry) s =
        .next ((((s.movCmdTake q p c entry.toNat).movPause q p c).movSettle q p c).withQueue s.pending)) ∧
  (∀ (q p c : Nat) (entry : BitVec 512) (s : State),
      (Instr.moverPause q p c entry).wf = true →
      s.quadOn q = true →
      entry = 0 →
      exec (Instr.moverPause q p c entry) s =
        .next (((s.movPause q p c).movSettle q p c).withQueue s.pending)) ∧
  -- MOVER_RESUME (R414)
  (∀ (q p c : Nat) (entry : BitVec 512) (s : State),
      (Instr.moverResume q p c entry).wf = true →
      s.quadOn q = true →
      s.ringCmd q p 3 3 entry.toNat = true →
      bitsOf entry.toNat 64 2 ≠ 0 →
      movChan entry.toNat = c →
      entry ≠ 0 →
      exec (Instr.moverResume q p c entry) s =
        .next ((((s.movCmdTake q p c entry.toNat).movResume q p c).movSettle q p c).withQueue s.pending)) ∧
  (∀ (q p c : Nat) (entry : BitVec 512) (s : State),
      (Instr.moverResume q p c entry).wf = true →
      s.quadOn q = true →
      entry = 0 →
      exec (Instr.moverResume q p c entry) s =
        .next (((s.movResume q p c).movSettle q p c).withQueue s.pending)) ∧
  -- MOVER_ABORT (R412)
  (∀ (q p c : Nat) (entry : BitVec 512) (s : State),
      (Instr.moverAbort q p c entry).wf = true →
      s.quadOn q = true →
      s.ringCmd q p 3 4 entry.toNat = true →
      bitsOf entry.toNat 64 2 ≠ 0 →
      movChan entry.toNat = c →
      entry ≠ 0 →
      exec (Instr.moverAbort q p c entry) s =
        .next ((((s.movCmdTake q p c entry.toNat).movAbort q p c).movSettle q p c).withQueue s.pending)) ∧
  (∀ (q p c : Nat) (entry : BitVec 512) (s : State),
      (Instr.moverAbort q p c entry).wf = true →
      s.quadOn q = true →
      entry = 0 →
      exec (Instr.moverAbort q p c entry) s =
        .next (((s.movAbort q p c).movSettle q p c).withQueue s.pending)) ∧
  -- MOVER_ERR_CLEAR (R412)
  (∀ (q p c : Nat) (s : State),
      (Instr.moverErrClear q p c).wf = true →
      s.barQuad q = true →
      s.movSt q p c = 6 →
      s.raisedNow F.MOV_CH_CTL_ERR [q, p, c] = false →
      exec (Instr.moverErrClear q p c) s =
        .next ((((s.wr F.MOV_CH_CTL_ERR [q, p, c] 0).setMov q p c 0).movSettle q p c).withQueue s.pending)) ∧
  -- MOVE (R404)
  (∀ (q p c : Nat) (host : List Byte) (s : State) (a : Nat) (b : Nat),
      (Instr.move q p c host).wf = true →
      s.engineOn q 3 = true →
      s.movAt q p c 1 = some (a, b) →
      (bitsOf a 8 2 == 1) = false →
      s.movIssue q p c = true →
      let r := (s.movUnit q p c).moveIssue q p a b 16 16 (s.movIx q p c) (s.movOff q p c) host
      exec (Instr.move q p c host) s =
        .next (((r.1.setPos q p c r.2.1.1 r.2.1.2.1 r.2.1.2.2 r.2.2.1).movAfter q p c (s.movPc q p c + 64) r.2.2.2).withQueue s.pending)) ∧
  -- FILL (R405)
  (∀ (q p c : Nat) (s : State) (a : Nat) (b : Nat) (z : State),
      (Instr.fill q p c).wf = true →
      s.engineOn q 3 = true →
      s.movAt q p c 2 = some (a, b) →
      s.movIssue q p c = true →
      let t := s.movUnit q p c
      let off := s.movOff q p c
      let n := bitsOf a 192 64
      let m := min 1024 (n - off)
      let d : Int := bitsOf a 64 64
      t.runStart p (bitsOf a 8 2) d off m n = true →
      bitsOf a 8 2 ≠ 1 →
      t.runWrite q p (bitsOf a 8 2) (d + off) ((List.range (m / 8)).flatMap fun _ => leBytes 8 (bitsOf a 128 64)) = some z →
      exec (Instr.fill q p c) s =
        .next (((z.setPos q p c 0 0 0 (off + m)).movAfter q p c (s.movPc q p c + 32) (if off + m < n then .more else .done)).withQueue s.pending)) ∧
  -- COMPARE (R405)
  (∀ (q p c : Nat) (host : List Byte) (s : State) (a : Nat) (b : Nat) (x y : List Byte),
      (Instr.compare q p c host).wf = true →
      s.engineOn q 3 = true →
      s.movAt q p c 3 = some (a, b) →
      s.movIssue q p c = true →
      bitsOf a 8 2 ≠ 1 →
      bitOf a 12 = true →
      let t := s.movUnit q p c
      let off := s.movOff q p c
      let n := bitsOf a 192 64
      let m := min 1024 (n - off)
      let d : Int := bitsOf a 64 64
      t.runStart p (bitsOf a 8 2) d off m n = true →
      t.runRead q p (bitsOf a 8 2) (d + off) m host = .ok x →
      (y = (List.range (m / 8)).flatMap fun _ => leBytes 8 (bitsOf a 128 64)) →
      let u := (t.runNote q p (bitsOf a 8 2) (d + off) m).movDiff q p c off (diffWords m x y)
      exec (Instr.compare q p c host) s =
        .next (((u.setPos q p c 0 0 0 (off + m)).movAfter q p c (s.movPc q p c + 32) (if off + m < n then .more else .done)).withQueue s.pending)) ∧
  (∀ (q p c : Nat) (host : List Byte) (s : State) (a : Nat) (b : Nat) (x y : List Byte),
      (Instr.compare q p c host).wf = true →
      s.engineOn q 3 = true →
      s.movAt q p c 3 = some (a, b) →
      s.movIssue q p c = true →
      (bitsOf a 8 2 ≠ 1 ∧ bitsOf a 10 2 ≠ 1) →
      bitOf a 12 = false →
      let t := s.movUnit q p c
      let off := s.movOff q p c
      let n := bitsOf a 192 64
      let m := min 512 (n - off)
      let d : Int := bitsOf a 64 64
      let e : Int := bitsOf a 128 64
      (t.runStart p (bitsOf a 8 2) d off m n = true ∧ t.runStart p (bitsOf a 10 2) e off m n = true) →
      t.runRead q p (bitsOf a 8 2) (d + off) m host = .ok x →
      t.runRead q p (bitsOf a 10 2) (e + off) m host = .ok y →
      let u := ((t.runNote q p (bitsOf a 8 2) (d + off) m).runNote q p (bitsOf a 10 2) (e + off) m).movDiff q p c off (diffWords m x y)
      exec (Instr.compare q p c host) s =
        .next (((u.setPos q p c 0 0 0 (off + m)).movAfter q p c (s.movPc q p c + 32) (if off + m < n then .more else .done)).withQueue s.pending)) ∧
  -- WAIT (R406)
  (∀ (q p c : Nat) (s : State) (a : Nat) (b : Nat),
      (Instr.wait q p c).wf = true →
      s.engineOn q 3 = true →
      s.movAt q p c 4 = some (a, b) →
      s.waitMet q p a = true →
      exec (Instr.wait q p c) s =
        .next ((s.movNext q p c (s.movPc q p c + 32)).withQueue s.pending)) ∧
  (∀ (q p c : Nat) (s : State) (a : Nat) (b : Nat),
      (Instr.wait q p c).wf = true →
      s.engineOn q 3 = true →
      s.movAt q p c 4 = some (a, b) →
      s.waitMet q p a = false →
      exec (Instr.wait q p c) s =
        .next ((s.setMov q p c 2).withQueue s.pending)) ∧
  -- WAIT_MET (R406)
  (∀ (q p c : Nat) (s : State),
      (Instr.waitMet q p c).wf = true →
      s.engineOn q 3 = true →
      s.movSt q p c = 2 →
      s.rdb F.MOV_STAT_STOPPED [q] = false →
      (s.movInstr q p c).2.2 = 0 →
      bitsOf (s.movInstr q p c).1 0 8 = 4 →
      s.waitMet q p (s.movInstr q p c).1 = true →
      exec (Instr.waitMet q p c) s =
        .next (((s.setMov q p c 1).movNext q p c (s.movPc q p c + 32)).withQueue s.pending)) ∧
  -- SIGNAL (R407)
  (∀ (q p c : Nat) (s : State) (a : Nat) (b : Nat),
      (Instr.signal q p c).wf = true →
      s.engineOn q 3 = true →
      s.movAt q p c 5 = some (a, b) →
      bitsOf a 8 2 = 0 →
      exec (Instr.signal q p c) s =
        .next (((s.evtAdd q p (bitsOf a 16 8) (bitsOf a 32 32)).movNext q p c (s.movPc q p c + 32)).withQueue s.pending)) ∧
  (∀ (q p c : Nat) (s : State) (a : Nat) (b : Nat),
      (Instr.signal q p c).wf = true →
      s.engineOn q 3 = true →
      s.movAt q p c 5 = some (a, b) →
      bitsOf a 8 2 = 1 →
      exec (Instr.signal q p c) s =
        .next (((s.vector p (s.rd F.MOV_CQ_CTL_VECTOR [q, p, c])).movNext q p c (s.movPc q p c + 32)).withQueue s.pending)) ∧
  (∀ (q p c : Nat) (s : State) (a : Nat) (b : Nat),
      (Instr.signal q p c).wf = true →
      s.engineOn q 3 = true →
      s.movAt q p c 5 = some (a, b) →
      bitsOf a 8 2 = 2 →
      exec (Instr.signal q p c) s =
        .next (((s.trigAdd p (bitsOf a 16 8) (bitsOf a 32 32)).movNext q p c (s.movPc q p c + 32)).withQueue s.pending)) ∧
  -- LINK (R408)
  (∀ (q p c : Nat) (s : State) (a : Nat) (b : Nat),
      (Instr.link q p c).wf = true →
      s.engineOn q 3 = true →
      s.movAt q p c 6 = some (a, b) →
      exec (Instr.link q p c) s =
        .next ((s.movNext q p c (bitsOf a 64 64)).withQueue s.pending)) ∧
  -- END (R408)
  (∀ (q p c : Nat) (s : State) (a : Nat) (b : Nat),
      (Instr.end_ q p c).wf = true →
      s.engineOn q 3 = true →
      s.movAt q p c 7 = some (a, b) →
      exec (Instr.end_ q p c) s =
        .next ((s.movEnding q p c 0 (s.movPc q p c) false).withQueue s.pending)) ∧
  -- PAUSE_DRAIN_END (R412)
  (∀ (q p c : Nat) (s : State),
      (Instr.pauseDrainEnd q p c).wf = true →
      s.quadOn q = true →
      s.movSt q p c = 3 →
      s.rdb F.MOV_STAT_STOPPED [q] = false →
      s.rdb V.MOV_DROP [q, p, c] = true →
      exec (Instr.pauseDrainEnd q p c) s =
        .next ((s.movEnding q p c 0x10 (s.movPc q p c) false).withQueue s.pending)) ∧
  (∀ (q p c : Nat) (s : State),
      (Instr.pauseDrainEnd q p c).wf = true →
      s.quadOn q = true →
      s.movSt q p c = 3 →
      s.rdb F.MOV_STAT_STOPPED [q] = false →
      s.rdb V.MOV_DROP [q, p, c] = false →
      ((s.setMov q p c 4).movSettle q p c).rdb F.MOV_CH_STAT_BUSY [q, p, c] = false →
      exec (Instr.pauseDrainEnd q p c) s =
        .next (((s.setMov q p c 4).movSettle q p c).withQueue s.pending)) ∧
  -- MOVER_RECORD_WRITE (R411)
  (∀ (q p c : Nat) (s : State),
      (Instr.moverRecordWrite q p c).wf = true →
      s.quadOn q = true →
      s.movSt q p c = 5 →
      (s.rd F.MOV_CQ_PTR_PROD [q, p, c] + 2 ^ 32 - s.rd F.MOV_CQ_PTR_CONS [q, p, c]) % 2 ^ 32 < 2 ^ s.rd F.MOV_CQ_CTL_LOG2SIZE [q, p, c] →
      exec (Instr.moverRecordWrite q p c) s =
        .next ((((s.movRecordOut q p c).movVector q p c).movRecordEnd q p c).withQueue s.pending)) ∧
  -- MOVER_BUS_ERROR (R417)
  (∀ (q cause : Nat) (s : State),
      (Instr.moverBusError q cause).wf = true →
      s.quadOn q = true →
      (s.rdb F.MOV_STAT_STOPPED [q] = false ∧ s.rdb F.MOV_STAT_FAULTED [q] = false) →
      let u := (((s.wr F.MOV_STAT_STOPPED [q] 1).wr V.PAGER_STOP [q] 1).wr F.MOV_STAT_CAUSE [q] cause).bump F.MOV_STAT_BUSERRS [q] 1
      let v := (u.wr V.MOV_BE2 [q] (u.rd V.MOV_BE1 [q])).wr V.MOV_BE1 [q] (s.timeNs + 1)
      let w := v.wr V.ZERO_BUSERR [q] (v.rd V.ZERO_BUSERR [q] + b2n (v.rd V.KNT_WAIT [] == 5))
      let x := (List.range 32).foldl (fun t p => [0, 1, 2].foldl (fun t c => t.movBusWins q p c) t) w
      exec (Instr.moverBusError q cause) s =
        .next ((if s.rd V.MOV_BE2 [q] ≠ 0 ∧ s.timeNs + 1 - s.rd V.MOV_BE2 [q] ≤ 10 ^ 9 then
          (x.wr F.MOV_STAT_FAULTED [q] 1).err { det := 0x0B, sev := 2, quad := q, cause := 0x23, info := 1 + 2 + 4 * cause } else x).withQueue s.pending)) ∧
  -- MOVER_BEAT_TIMEOUT (R417)
  (∀ (q : Nat) (s : State),
      (Instr.moverBeatTimeout q).wf = true →
      s.quadOn q = true →
      exec (Instr.moverBeatTimeout q) s =
        .next ((s.movBusError q 4).withQueue s.pending)) ∧
  -- MOVER_RESTART (R418)
  (∀ (q : Nat) (s : State),
      (Instr.moverRestart q).wf = true →
      s.quadOn q = true →
      s.rdb F.MOV_STAT_STOPPED [q] = true →
      s.rdb F.MOV_STAT_FAULTED [q] = false →
      s.injDet 0x0B q = false →
      s.rd V.MOV_RESTART [q] = 0 →
      let u := (s.err { det := 0x0B, sev := 2, quad := q, cause := 0x23, inj := false, info := 1 + 4 * s.rd F.MOV_STAT_CAUSE [q] }).wr V.PAGER_STOP [q] 0
      exec (Instr.moverRestart q) s =
        .next (((u.wr V.MOV_RESTART [q] (u.timeNs + 100001)).movRestartDue q).withQueue s.pending)) ∧
  (∀ (q : Nat) (s : State),
      (Instr.moverRestart q).wf = true →
      s.quadOn q = true →
      s.rdb F.MOV_STAT_STOPPED [q] = true →
      s.rdb F.MOV_STAT_FAULTED [q] = false →
      s.rd V.MOV_RESTART [q] ≠ 0 →
      s.pagerPending q = 0 →
      let u := (List.range 32).foldl (fun t p => [0, 1, 2].foldl (fun t c => t.movRestartCh q p c) t) s
      exec (Instr.moverRestart q) s =
        .next (((u.wr F.MOV_STAT_STOPPED [q] 0).wr V.MOV_RESTART [q] 0).withQueue s.pending)) ∧
  -- EVENT_COUNTER_WRITE (R421)
  (∀ (q p n : Nat) (value : BitVec 32) (s : State),
      (Instr.eventCounterWrite q p n value).wf = true →
      s.barQuad q = true →
      exec (Instr.eventCounterWrite q p n value) s =
        .next ((s.wr F.MOV_EVT_COUNT [q, p, n] (value.toNat + s.evtNew q p n)).withQueue s.pending))

/-- Completion of the commands of tray control: for each, where its operands are well formed, its unit runs and the stated condition holds, the next
state is the one written out.  Each clause names the rules that give the effect. -/
def Obligations.TrayCommandsComplete : Prop :=
  -- ADC_WINDOW (R423)
  (∀ (codes temps rpms : List Nat) (s : State),
      (Instr.adcWindow codes temps rpms).wf = true →
      s.hatOn = true →
      s.yofRuns = true →
      exec (Instr.adcWindow codes temps rpms) s =
        .next ((s.adcTake codes temps rpms).withQueue s.pending)) ∧
  -- TACH_LOST (R426)
  (∀ (n : Nat) (s : State),
      (Instr.tachLost n).wf = true →
      s.hatOn = true →
      s.tachDriven n = true →
      s.rdb F.TRY_TACH_LOST [n] = false →
      s.yofRuns = true →
      n < 2 →
      exec (Instr.tachLost n) s =
        .next (((s.wr F.TRY_TACH_LOST [n] 1).wr F.TRY_TACH_RPM [n] 0).withQueue s.pending)) ∧
  (∀ (n : Nat) (s : State),
      (Instr.tachLost n).wf = true →
      s.hatOn = true →
      s.tachDriven n = true →
      s.rdb F.TRY_TACH_LOST [n] = false →
      s.yofRuns = true →
      2 ≤ n →
      exec (Instr.tachLost n) s =
        .next ((((s.wr F.TRY_TACH_LOST [n] 1).wr F.TRY_TACH_RPM [n] 0).err { det := 0x11, sev := 0, unit := 16 + n }).withQueue s.pending)) ∧
  -- TRAY_STEP (R427)
  (∀ (applied : List Nat) (peerLive : Bool) (s : State),
      (Instr.trayStep applied peerLive).wf = true →
      s.hatOn = true →
      s.yofRuns = true →
      exec (Instr.trayStep applied peerLive) s =
        .next ((s.trayControl applied peerLive).withQueue s.pending)) ∧
  -- CAP_STEP (R429)
  (∀ (s : State),
      s.hatOn = true →
      s.yofRuns = true →
      exec .capStep s =
        .next ((((s.freshen.wr F.TRY_CAP_THR [] (s.capThr s.effCap.2)).wr F.TRY_CAP_SOURCE [] s.effCap.1).showEx F.TRY_CAP_CAP_W [] s.effCap.2).withQueue s.pending)) ∧
  -- PWR_ALERT_ASSERT (R431)
  (∀ (s : State),
      s.hatOn = true →
      True →
      let u := (s.wr F.TRY_ALERT_ASSERTED [] 1).wr F.TRY_CAP_THR [] (max (s.rd F.TRY_CAP_THR []) (s.rd F.TRY_ALERT_ALERT_THR []))
      exec .pwrAlertAssert s =
        .next ((u.notice 1 (u.rd F.TRY_ALERT_ALERT_LEVEL []) 0 u.presentDown).withQueue s.pending)) ∧
  -- PWR_ALERT_RELEASE (R431)
  (∀ (s : State),
      s.hatOn = true →
      s.rdb F.TRY_ALERT_ASSERTED [] = true →
      exec .pwrAlertRelease s =
        .next (((s.wr F.TRY_ALERT_ASSERTED [] 0).accNotice).withQueue s.pending)) ∧
  -- ACC_GO (R305)
  (∀ (value : BitVec 64) (s : State),
      (Instr.accGo value).wf = true →
      s.barOn = true →
      bitOf value.toNat 37 = true →
      (s.wr F.TRY_ALERT_ACC_LEVEL [] (bitsOf value.toNat 29 8)).rdb F.TRY_ALERT_ASSERTED [] = false →
      exec (Instr.accGo value) s =
        .next (((s.wr F.TRY_ALERT_ACC_LEVEL [] (bitsOf value.toNat 29 8)).accNotice).withQueue s.pending)) ∧
  -- YOFEN_KICK (R422)
  (∀ (s : State),
      s.hatOn = true →
      s.yofRuns = true →
      ((s.rd V.INJ_KIND [] = 1 ∧ s.rd V.INJ_DET [] = 0x12) = False) →
      exec .yofenKick s =
        .next (((s.wr V.KICK_NS [] s.timeNs).wr V.KICK_INJ [] 0).withQueue s.pending)) ∧
  -- YOFEN_WATCHDOG (R422)
  (∀ (s : State),
      s.hatOn = true →
      s.yofRuns = true →
      exec .yofenWatchdog s =
        .next (((s.yofenReset 0x12 0 (s.rdb V.KICK_INJ [])).wr V.KICK_INJ [] 0).withQueue s.pending)) ∧
  -- TRAY_CLAIM (R434)
  (∀ (long : Bool) (s : State),
      (Instr.trayClaim long).wf = true →
      s.hatOn = true →
      (s.wr F.TRY_OWN_PEER_LIVE [] 0).yofRuns = true →
      (s.wr F.TRY_OWN_PEER_LIVE [] 0).rd F.TRY_OWN_ROLE [] < 2 →
      ((s.wr F.TRY_OWN_PEER_LIVE [] 0).rdb F.TRY_OWN_PLAUS_OK [] || long) = true →
      exec (Instr.trayClaim long) s =
        .next (((((s.wr F.TRY_OWN_PEER_LIVE [] 0).wr F.TRY_OWN_ROLE [] 2).wr F.TRY_OWN_CONTEST [] 0).seeOwner 1).withQueue s.pending)) ∧
  -- TRAY_OWN_CONFLICT (R434)
  (∀ (s : State),
      s.hatOn = true →
      (s.wr F.TRY_OWN_PEER_LIVE [] 1).rd F.TRY_OWN_ROLE [] = 2 →
      (s.wr F.TRY_OWN_PEER_LIVE [] 1).rd F.TRY_OWN_SLOT [] = 1 →
      let u := s.wr F.TRY_OWN_PEER_LIVE [] 1
      exec .trayOwnConflict s =
        .next (((u.wr F.TRY_OWN_CONTEST [] 0).becomeStandby.seeOwner 2).withQueue s.pending)) ∧
  -- OWNER_PUBLISH (R435)
  (∀ (heard : List Nat) (s : State),
      (Instr.ownerPublish heard).wf = true →
      s.hatOn = true →
      s.yofRuns = true →
      s.rd F.TRY_OWN_ROLE [] = 2 →
      exec (Instr.ownerPublish heard) s =
        .next ((s.emit (.trayBus [s.rd V.INTEG [0], s.rd V.INTEG [1], s.rd V.INTEG [2], s.rd F.TRY_CAP_CAP_W [], s.rd F.TRY_STAGE_PUMP [], s.rd V.TRAY_SEQ [], s.rd F.TRY_OWN_PLAUS_OK []])).withQueue s.pending)) ∧
  -- CONTEST_START (R435)
  (∀ (s : State),
      s.hatOn = true →
      s.yofRuns = true →
      s.rdb F.TRY_OWN_CONTEST [] = false →
      s.rd F.TRY_OWN_ROLE [] = 2 →
      exec .contestStart s =
        .next ((((s.wr F.TRY_OWN_CONTEST [] 1).bump F.TRY_OWN_CONTESTS [] 1).err { det := 0x10, sev := 2, inj := decide (s.timeNs < s.rd V.DUTY_INJ_END []) }).withQueue s.pending)) ∧
  -- CONTEST_RESOLVE (R436)
  (∀ (peerPass : Bool) (s : State),
      (Instr.contestResolve peerPass).wf = true →
      s.hatOn = true →
      s.rdb F.TRY_OWN_CONTEST [] = true →
      s.yofRuns = true →
      s.rdb F.TRY_OWN_PLAUS_OK [] = false →
      peerPass = true →
      exec (Instr.contestResolve peerPass) s =
        .next ((((s.wr F.TRY_OWN_CONTEST [] 0).wr F.TRY_OWN_ROLE [] 3).wr F.TRY_OWN_QUALIFIED [] 0).withQueue s.pending)) ∧
  -- DEGRADED_CLEAR (R436)
  (∀ (s : State),
      s.hatOn = true →
      s.yofRuns = true →
      s.rd F.TRY_OWN_ROLE [] = 3 →
      s.rdb F.TRY_OWN_PLAUS_OK [] = true →
      exec .degradedClear s =
        .next ((s.becomeStandby).withQueue s.pending)) ∧
  -- STANDBY_QUALIFY (R437)
  (∀ (s : State),
      s.hatOn = true →
      s.yofRuns = true →
      s.rd F.TRY_OWN_ROLE [] = 1 →
      s.rdb V.INTEG_LOADED [] = true →
      s.anyDiffers = false →
      exec .standbyQualify s =
        .next ((s.wr F.TRY_OWN_QUALIFIED [] 1).withQueue s.pending)) ∧
  -- TRAY_YIELD (R446)
  (∀ (s : State),
      s.barOn = true →
      s.rd F.TRY_OWN_ROLE [] = 2 →
      exec .trayYield s =
        .next ((s.becomeStandby).withQueue s.pending)) ∧
  -- TELEMETRY_SEND (R439)
  (∀ (s : State),
      s.hatOn = true →
      s.yofRuns = true →
      s.rd F.TRY_OWN_ROLE [] = 2 →
      exec .telemetrySend s =
        .next ((s.telemetryOut).withQueue s.pending)) ∧
  -- MANAGER_HEARTBEAT (R440)
  (∀ (m : Nat) (s : State),
      (Instr.managerHeartbeat m).wf = true →
      s.hatOn = true →
      m = 0 →
      exec (Instr.managerHeartbeat m) s =
        .next (((s.wr F.TRY_STAGE_MGR_A [] 1).wr F.TRY_STAGE_HOLD [] 0).withQueue s.pending)) ∧
  (∀ (m : Nat) (s : State),
      (Instr.managerHeartbeat m).wf = true →
      s.hatOn = true →
      m = 1 →
      exec (Instr.managerHeartbeat m) s =
        .next (((s.wr F.TRY_STAGE_MGR_B [] 1).wr F.TRY_STAGE_HOLD [] 0).withQueue s.pending)) ∧
  -- MANAGER_LOST (R440)
  (∀ (m : Nat) (s : State),
      (Instr.managerLost m).wf = true →
      s.hatOn = true →
      m = 0 →
      s.rdb F.TRY_STAGE_MGR_A [] = true →
      exec (Instr.managerLost m) s =
        .next (((s.wr F.TRY_STAGE_MGR_A [] 0).err { det := 0x12, sev := 0, unit := 0 }).withQueue s.pending)) ∧
  (∀ (m : Nat) (s : State),
      (Instr.managerLost m).wf = true →
      s.hatOn = true →
      m = 1 →
      s.rdb F.TRY_STAGE_MGR_B [] = true →
      exec (Instr.managerLost m) s =
        .next (((s.wr F.TRY_STAGE_MGR_B [] 0).err { det := 0x12, sev := 0, unit := 1 }).withQueue s.pending)) ∧
  -- AUTONOMOUS_HOLD (R440)
  (∀ (s : State),
      s.hatOn = true →
      s.rdb F.TRY_STAGE_MGR_A [] = false →
      s.rdb F.TRY_STAGE_MGR_B [] = false →
      exec .autonomousHold s =
        .next ((s.wr F.TRY_STAGE_HOLD [] 1).withQueue s.pending)) ∧
  -- PUMP_STAGE_1 (R442)
  (∀ (s : State),
      s.hatOn = true →
      s.yofRuns = true →
      s.rd F.TRY_STAGE_PUMP [] = 0 →
      (s.pumpLost || s.flowLow) = true →
      exec .pumpStage1 s =
        .next (((s.wr F.TRY_STAGE_EXPORT_DONE [] 0).pumpRecord 1).withQueue s.pending)) ∧
  -- PUMP_STAGE_2 (R442)
  (∀ (s : State),
      s.hatOn = true →
      s.yofRuns = true →
      s.rd F.TRY_STAGE_PUMP [] < 2 →
      (s.tjAtLeast (s.sense 424 1) || (s.rd F.TRY_STAGE_PUMP [] == 1 && s.flowLow)) = true →
      exec .pumpStage2 s =
        .next ((s.pumpExport).withQueue s.pending)) ∧
  -- PUMP_STAGE_3 (R442)
  (∀ (s : State),
      s.hatOn = true →
      s.yofRuns = true →
      s.rd F.TRY_STAGE_PUMP [] < 3 →
      s.tjAtLeast (s.sense 425 1) = true →
      (s.pumpRecord 3).rdb F.HAT_PSTATE_BUSY [] = false →
      (s.pumpRecord 3).clocked = true →
      exec .pumpStage3 s =
        .next (((s.pumpRecord 3).stopBegin 2 2).withQueue s.pending)) ∧
  -- PUMP_STAGE_CLEAR (R442)
  (∀ (s : State),
      s.hatOn = true →
      s.yofRuns = true →
      s.pumpLost = false →
      s.flowLow = false →
      exec .pumpStageClear s =
        .next ((s.wr F.TRY_STAGE_PUMP [] 0).withQueue s.pending)) ∧
  -- TRAY_BUS_RECOVERY (R443)
  (∀ (s : State),
      s.hatOn = true →
      exec .trayBusRecovery s =
        .next ((s.emit (.pin 7 1)).withQueue s.pending)) ∧
  -- TRAY_INJECT (R446)
  (∀ (value : BitVec 64) (s : State),
      (Instr.trayInject value).wf = true →
      s.barOn = true →
      bitOf value.toNat 7 = true →
      ((s.wr F.TRY_INJ_CHANNEL [] (bitsOf value.toNat 0 4)).wr F.TRY_INJ_KIND [] (bitsOf value.toNat 4 3)).injAllowed false 0 false = true →
      bitsOf value.toNat 4 3 = 1 →
      let u := (s.wr F.TRY_INJ_CHANNEL [] (bitsOf value.toNat 0 4)).wr F.TRY_INJ_KIND [] (bitsOf value.toNat 4 3)
      exec (Instr.trayInject value) s =
        .next ((((u.wr V.ADC_INJ_CH [] (bitsOf value.toNat 0 4)).wr V.ADC_INJ_END [] (u.timeNs + 10 ^ 9)).injFired).withQueue s.pending)) ∧
  (∀ (value : BitVec 64) (s : State),
      (Instr.trayInject value).wf = true →
      s.barOn = true →
      bitOf value.toNat 7 = true →
      ((s.wr F.TRY_INJ_CHANNEL [] (bitsOf value.toNat 0 4)).wr F.TRY_INJ_KIND [] (bitsOf value.toNat 4 3)).injAllowed false 0 false = true →
      bitsOf value.toNat 4 3 = 2 →
      let u := (s.wr F.TRY_INJ_CHANNEL [] (bitsOf value.toNat 0 4)).wr F.TRY_INJ_KIND [] (bitsOf value.toNat 4 3)
      exec (Instr.trayInject value) s =
        .next (((u.wr V.HB_STOP_END [] (u.timeNs + 2 * 10 ^ 6)).injFired).withQueue s.pending)) ∧
  (∀ (value : BitVec 64) (s : State),
      (Instr.trayInject value).wf = true →
      s.barOn = true →
      bitOf value.toNat 7 = true →
      ((s.wr F.TRY_INJ_CHANNEL [] (bitsOf value.toNat 0 4)).wr F.TRY_INJ_KIND [] (bitsOf value.toNat 4 3)).injAllowed false 0 true = true →
      bitsOf value.toNat 4 3 = 3 →
      let u := (s.wr F.TRY_INJ_CHANNEL [] (bitsOf value.toNat 0 4)).wr F.TRY_INJ_KIND [] (bitsOf value.toNat 4 3)
      exec (Instr.trayInject value) s =
        .next (((u.wr V.DUTY_INJ_END [] (u.timeNs + 3 * 10 ^ 9)).injFired).withQueue s.pending)) ∧
  -- YOFEN_REBOOT (R422)
  (∀ (s : State),
      s.hatOn = true →
      s.rdb F.HAT_YOF_RESETTING [] = true →
      exec .yofenReboot s =
        .next ((s.yofenStart).withQueue s.pending))

/-- Completion of the commands of the cartridges: for each, where its operands are well formed, its unit runs and the stated condition holds, the next
state is the one written out.  Each clause names the rules that give the effect. -/
def Obligations.CartCommandsComplete : Prop :=
  -- CART_INSERT (R449)
  (∀ (c : Nat) (s : State),
      (Instr.cartInsert c).wf = true →
      s.hatOn = true →
      (s.wr F.TRY_CART_PRESENT [c] 1).cartActs c = true →
      (s.wr F.TRY_CART_PRESENT [c] 1).cart c = 0 →
      (s.wr F.TRY_CART_PRESENT [c] 1).rdb F.TRY_CART_CUFF [c] = false →
      let u := s.wr F.TRY_CART_PRESENT [c] 1
      exec (Instr.cartInsert c) s =
        .next ((u.cartTrain c).withQueue s.pending)) ∧
  -- CART_PRESENCE_LOST (R457)
  (∀ (c : Nat) (s : State),
      (Instr.cartPresenceLost c).wf = true →
      s.hatOn = true →
      ((s.wr F.TRY_CART_PRESENT [c] 0).wr V.CART_LATCH [c] 0).ownCart c = false →
      exec (Instr.cartPresenceLost c) s =
        .next (((s.wr F.TRY_CART_PRESENT [c] 0).wr V.CART_LATCH [c] 0).withQueue s.pending)) ∧
  (∀ (c : Nat) (s : State),
      (Instr.cartPresenceLost c).wf = true →
      s.hatOn = true →
      ((s.wr F.TRY_CART_PRESENT [c] 0).wr V.CART_LATCH [c] 0).ownCart c = true →
      (((List.range 40).foldl (fun t k => t.linkDown (c % 4) k 2) ((s.wr F.TRY_CART_PRESENT [c] 0).wr V.CART_LATCH [c] 0)).rdb V.GASP [] = false) →
      s.cart c = 2 →
      let u := (s.wr F.TRY_CART_PRESENT [c] 0).wr V.CART_LATCH [c] 0
      let x := (List.range 40).foldl (fun t k => t.linkDown (c % 4) k 2) u
      exec (Instr.cartPresenceLost c) s =
        .next ((((((x.setCart c 0).wr F.TRY_CART_LAST_REASON [c] 5).bump F.TRY_CART_UNDRAINED [c] 1).sendGram 3 (leBytes 8 (5 + 256 * c))).err { det := 0x18, sev := 1, quad := c % 4, unit := c, cause := 5 }).withQueue s.pending)) ∧
  -- CART_TOUCH (R449)
  (∀ (c : Nat) (high : Bool) (s : State),
      (Instr.cartTouch c high).wf = true →
      s.hatOn = true →
      (s.wr F.TRY_CART_TOUCH [c] 1).cartActs c = true →
      high = true →
      s.rdb F.TRY_CART_TOUCH [c] = false →
      (s.wr F.TRY_CART_TOUCH [c] 1).cart c = 2 →
      exec (Instr.cartTouch c high) s =
        .next (((s.wr F.TRY_CART_TOUCH [c] 1).cartWithdraw c 3 1).withQueue s.pending)) ∧
  (∀ (c : Nat) (high : Bool) (s : State),
      (Instr.cartTouch c high).wf = true →
      s.hatOn = true →
      high = false →
      exec (Instr.cartTouch c high) s =
        .next ((s.wr F.TRY_CART_TOUCH [c] 0).withQueue s.pending)) ∧
  -- CART_CUFF_OPEN (R449)
  (∀ (c : Nat) (s : State),
      (Instr.cartCuffOpen c).wf = true →
      s.hatOn = true →
      exec (Instr.cartCuffOpen c) s =
        .next (((s.wr F.TRY_CART_CUFF [c] 1).cartForceIn c 2).withQueue s.pending)) ∧
  -- PRE_DRAIN_CANCEL (R449)
  (∀ (c : Nat) (s : State),
      (Instr.preDrainCancel c).wf = true →
      s.hatOn = true →
      (s.wr F.TRY_CART_TOUCH [c] 0).cartActs c = true →
      (s.wr F.TRY_CART_TOUCH [c] 0).cart c = 3 →
      (s.wr F.TRY_CART_TOUCH [c] 0).rdb F.TRY_CART_CUFF [c] = false →
      let u := s.wr F.TRY_CART_TOUCH [c] 0
      exec (Instr.preDrainCancel c) s =
        .next (((u.restore (cartDown c) 1).setCart c 2).withQueue s.pending)) ∧
  -- CART_BUTTON (R449)
  (∀ (c : Nat) (down : Bool) (s : State),
      (Instr.cartButton c down).wf = true →
      s.hatOn = true →
      (s.wr F.TRY_CART_BTN [c] 1).cartActs c = true →
      down = true →
      s.rdb F.TRY_CART_BTN [c] = false →
      (s.wr F.TRY_CART_BTN [c] 1).cartOtherBusy c = false →
      s.cart c = 2 →
      let u := (s.wr F.TRY_CART_BTN [c] 1).wr V.CART_HELD [c] 1
      exec (Instr.cartButton c down) s =
        .next ((u.cartWithdraw c 4 3).withQueue s.pending)) ∧
  (∀ (c : Nat) (down : Bool) (s : State),
      (Instr.cartButton c down).wf = true →
      s.hatOn = true →
      (s.wr F.TRY_CART_BTN [c] 0).cartActs c = true →
      down = false →
      s.rdb F.TRY_CART_BTN [c] = true →
      (s.wr F.TRY_CART_BTN [c] 0).rdb V.CART_HELD [c] = false →
      let u := s.wr F.TRY_CART_BTN [c] 0
      exec (Instr.cartButton c down) s =
        .next ((u.cartEnable c 1).withQueue s.pending)) ∧
  -- CART_BUTTON_HOLD (R449)
  (∀ (c : Nat) (s : State),
      (Instr.cartButtonHold c).wf = true →
      s.hatOn = true →
      exec (Instr.cartButtonHold c) s =
        .next ((((s.wr F.TRY_CART_BTN [c] 1).wr V.CART_HELD [c] 1).cartForceIn c 4).withQueue s.pending)) ∧
  -- TRAY_BUTTON (R456)
  (∀ (s : State),
      s.hatOn = true →
      exec .trayButton s =
        .next ((s.hwWr F.TRY_CART_CFG_LOCATE [] (1 - s.rd F.TRY_CART_CFG_LOCATE [])).withQueue s.pending)) ∧
  -- TRAY_BUTTON_HOLD (R456)
  (∀ (s : State),
      s.hatOn = true →
      exec .trayButtonHold s =
        .next (((List.range 8).foldl (fun t c => if t.cartActs c && (t.cart c == 2 || t.cart c == 3) then t.cartWithdraw c 4 3 else t) s).withQueue s.pending)) ∧
  -- CART_DRAIN (R449)
  (∀ (c : Nat) (s : State),
      (Instr.cartDrain c).wf = true →
      s.barOn = true →
      s.cartActs c = true →
      s.cartOtherBusy c = false →
      ((s.wr V.CART_LATCH [c] 0).cart c = 2 ∨ (s.wr V.CART_LATCH [c] 0).cart c = 3) →
      exec (Instr.cartDrain c) s =
        .next (((s.wr V.CART_LATCH [c] 0).cartWithdraw c 4 6).withQueue s.pending)) ∧
  -- CART_FORCE (R449)
  (∀ (c : Nat) (s : State),
      (Instr.cartForce c).wf = true →
      s.barOn = true →
      s.cartActs c = true →
      exec (Instr.cartForce c) s =
        .next (((s.wr V.CART_LATCH [c] 0).cartForceIn c 4).withQueue s.pending)) ∧
  -- CART_REJOIN (R460)
  (∀ (c : Nat) (s : State),
      (Instr.cartRejoin c).wf = true →
      s.barOn = true →
      s.cartActs c = true →
      exec (Instr.cartRejoin c) s =
        .next ((s.cartEnable c 2).withQueue s.pending)) ∧
  -- CART_DRAIN_COMPLETE (R452)
  (∀ (c : Nat) (s : State),
      (Instr.cartDrainComplete c).wf = true →
      s.hatOn = true →
      s.cartActs c = true →
      s.cart c = 4 →
      s.cartDrained c = true →
      exec (Instr.cartDrainComplete c) s =
        .next ((s.cartStop c).withQueue s.pending)) ∧
  -- CART_DRAIN_TIMEOUT (R452)
  (∀ (c : Nat) (s : State),
      (Instr.cartDrainTimeout c).wf = true →
      s.hatOn = true →
      s.cart c = 4 →
      (s.cartActs c && s.cartDrained c) = false →
      exec (Instr.cartDrainTimeout c) s =
        .next ((s.cartForceIn c 4).withQueue s.pending)) ∧
  (∀ (c : Nat) (s : State),
      (Instr.cartDrainTimeout c).wf = true →
      s.hatOn = true →
      s.cart c = 4 →
      s.cartActs c = true →
      s.cartDrained c = true →
      exec (Instr.cartDrainTimeout c) s =
        .next ((s.cartStop c).withQueue s.pending)) ∧
  -- CART_FORCE_STOP (R449)
  (∀ (c : Nat) (s : State),
      (Instr.cartForceStop c).wf = true →
      s.hatOn = true →
      s.cartActs c = true →
      s.cart c = 5 →
      exec (Instr.cartForceStop c) s =
        .next ((s.cartStop c).withQueue s.pending)) ∧
  -- CART_SAFE (R449)
  (∀ (c : Nat) (s : State),
      (Instr.cartSafe c).wf = true →
      s.hatOn = true →
      s.cartActs c = true →
      s.cart c = 6 →
      (((List.range 40).all fun k => s.lnkState (c % 4) k == 0 && !s.rdb F.COR_PORT_FLUSHING [c % 4, k]) = true) →
      s.rdb V.CART_LATCH [c] = false →
      exec (Instr.cartSafe c) s =
        .next (((s.setCart c 7).wr V.CART_LATCH [c] 0).withQueue s.pending)) ∧
  -- CART_IN_SERVICE (R449)
  (∀ (c : Nat) (s : State),
      (Instr.cartInService c).wf = true →
      s.hatOn = true →
      s.cartActs c = true →
      s.cart c = 1 →
      (((List.range 40).all fun k => !s.portPresent (c % 4) k || s.lnkState (c % 4) k == 4 || (s.lnkState (c % 4) k == 0 && s.rd F.LNK_PORT_STAT_DOWN_CAUSE [c % 4, k] == 4)) = true) →
      exec (Instr.cartInService c) s =
        .next ((s.setCart c 2).withQueue s.pending)) ∧
  -- VIN_LOW (R458)
  (∀ (s : State),
      s.hatOn = true →
      s.rdb V.GASP [] = false →
      s.rd F.HAT_PSTATE_STATE [] < 3 →
      let u := (s.wr V.GASP [] 1).wr F.TRY_CAP_THR [] ((s.wr V.GASP [] 1).sense 437 1)
      let x := u.notice 4 0 0 u.presentDown
      exec .vinLow s =
        .next (((if x.yofRuns then x.sendGram 4 x.gaspItems else x).hatRecord { det := 0x13, sev := 3 }).withQueue s.pending)) ∧
  -- CART_LATCH_CLOSE (R460)
  (∀ (c : Nat) (s : State),
      (Instr.cartLatchClose c).wf = true →
      s.hatOn = true →
      (s.wr F.TRY_CART_CUFF [c] 0).cartActs c = true →
      (s.wr F.TRY_CART_CUFF [c] 0).cart c = 0 →
      (s.wr F.TRY_CART_CUFF [c] 0).rdb F.TRY_CART_PRESENT [c] = true →
      let u := s.wr F.TRY_CART_CUFF [c] 0
      exec (Instr.cartLatchClose c) s =
        .next ((u.cartTrain c).withQueue s.pending))

/-- Completion of the commands of power, clocks and resets: for each, where its operands are well formed, its unit runs and the stated condition holds, the next
state is the one written out.  Each clause names the rules that give the effect. -/
def Obligations.PowerCommandsComplete : Prop :=
  -- VIN_HOLDUP_END (R464)
  (∀ (s : State),
      s.hatOn = true →
      s.rdb V.GASP [] = true →
      exec .vinHoldupEnd s =
        .next ((((s.freshen.enterP3 (Config.free s.free 0 % 8)).wr V.GASP [] 0).wr V.VIN_P3 [] 1).withQueue s.pending)) ∧
  -- VIN_GOOD (R464)
  (∀ (s : State),
      s.hatOn = true →
      s.rdb V.VIN_P3 [] = true →
      s.pstate = 3 →
      s.rdb V.THERM [] = false →
      exec .vinGood s =
        .next ((s.startUp 0 false).withQueue s.pending)) ∧
  -- RAIL_TIMEOUT (R465)
  (∀ (s : State),
      s.hatOn = true →
      s.rdb V.BOOTING [] = true →
      s.rd F.HAT_BOOT_STEP [] = 4 →
      let u := (s.hatRecord { det := 0x13, sev := 2 }).enterP3 5
      exec .railTimeout s =
        .next (((u.wr F.HAT_BOOT_FAILED [] 1).wr F.HAT_BOOT_FAIL_STEP [] 4).withQueue s.pending)) ∧
  -- VAUX_LOW (R584)
  (∀ (s : State),
      s.hatOn = true →
      exec .vauxLow s =
        .next ((((s.resetKeeping flashFields false).wr V.OFF [] 1).wr V.BOOTING [] 0).withQueue s.pending)) ∧
  -- POWER_REQUEST (R467)
  (∀ (target : Nat) (s : State),
      (Instr.powerRequest target).wf = true →
      s.hatOn = true →
      s.rdb V.MRESET [] = false →
      s.rdb F.HAT_PSTATE_BUSY [] = false →
      s.pstate = 3 →
      target < 2 →
      s.rdb V.THERM [] = false →
      s.rdb V.BOOTING [] = false →
      exec (Instr.powerRequest target) s =
        .next ((s.startUp (target + 1) false).withQueue s.pending)) ∧
  (∀ (target : Nat) (s : State),
      (Instr.powerRequest target).wf = true →
      s.hatOn = true →
      s.rdb V.MRESET [] = false →
      s.rdb F.HAT_PSTATE_BUSY [] = false →
      s.pstate = 2 →
      target < 2 →
      s.rd F.TRY_STAGE_PUMP [] ≠ 3 →
      exec (Instr.powerRequest target) s =
        .next (((s.leaveP2 target).wr F.HAT_PSTATE_CAUSE [] 1).withQueue s.pending)) ∧
  (∀ (target : Nat) (s : State),
      (Instr.powerRequest target).wf = true →
      s.hatOn = true →
      s.rdb V.MRESET [] = false →
      s.rdb F.HAT_PSTATE_BUSY [] = false →
      s.pstate = 0 →
      target = 1 →
      s.rd F.TRY_STAGE_PUMP [] ≠ 3 →
      exec (Instr.powerRequest target) s =
        .next (((s.wr F.HAT_PSTATE_STATE [] 1).wr F.HAT_PSTATE_CAUSE [] 1).withQueue s.pending)) ∧
  (∀ (target : Nat) (s : State),
      (Instr.powerRequest target).wf = true →
      s.hatOn = true →
      s.rdb V.MRESET [] = false →
      s.rdb F.HAT_PSTATE_BUSY [] = false →
      (s.pstate = 0 ∨ s.pstate = 1) →
      (target = 2 ∨ target = 3) →
      exec (Instr.powerRequest target) s =
        .next ((s.stopBegin target 1).withQueue s.pending)) ∧
  -- P2_QUIET_END (R468)
  (∀ (expired : Bool) (s : State),
      (Instr.p2QuietEnd expired).wf = true →
      s.hatOn = true →
      s.rdb F.HAT_PSTATE_BUSY [] = true →
      s.clocked = true →
      (((List.range 32).all fun p => p == 0 || !s.img.brimValid p || s.quietPoint p) = true) →
      exec (Instr.p2QuietEnd expired) s =
        .next ((s.stopReached).withQueue s.pending)) ∧
  (∀ (expired : Bool) (s : State),
      (Instr.p2QuietEnd expired).wf = true →
      s.hatOn = true →
      s.rdb F.HAT_PSTATE_BUSY [] = true →
      s.clocked = true →
      (((List.range 32).all fun p => p == 0 || !s.img.brimValid p || s.quietPoint p) = false) →
      expired = true →
      exec (Instr.p2QuietEnd expired) s =
        .next ((((List.range 32).foldl (fun t p => t.stopAbort p) s).stopReached).withQueue s.pending)) ∧
  -- YOFEN_IDLE_STOP (R469)
  (∀ (s : State),
      s.hatOn = true →
      s.pstate = 2 →
      s.rdb V.YOF_ON [] = true →
      exec .yofenIdleStop s =
        .next ((s.yofStop).withQueue s.pending)) ∧
  -- ENGINE_GATE (R472)
  (∀ (q e : Nat) (s : State),
      (Instr.engineGate q e).wf = true →
      s.quadOn q = true →
      s.pstate = 1 →
      s.img.le 0x0A 4 0 (8 + 2 * e) 2 ≠ 0 →
      s.warmHeld q e = false →
      s.engineIdle q e = true →
      exec (Instr.engineGate q e) s =
        .next ((s.wr F.HAT_GATE_GATED [q] (putBits (s.rd F.HAT_GATE_GATED [q]) e 1 1)).withQueue s.pending)) ∧
  -- ENGINE_WAKE (R472)
  (∀ (q e : Nat) (s : State),
      (Instr.engineWake q e).wf = true →
      s.quadOn q = true →
      bitOf (s.rd F.HAT_GATE_GATED [q]) e = true →
      s.clocked = true →
      exec (Instr.engineWake q e) s =
        .next (((s.wr F.HAT_GATE_GATED [q] (putBits (s.rd F.HAT_GATE_GATED [q]) e 1 0)).bump F.HAT_GATE_WAKES [q] 1).withQueue s.pending)) ∧
  -- WARM_HOLD_END (R474)
  (∀ (q e p : Nat) (s : State),
      (Instr.warmHoldEnd q e p).wf = true →
      s.clocked = true →
      exec (Instr.warmHoldEnd q e p) s =
        .next (((s.wr V.WARM_NS [q, e, p] 0).warmShow q e).withQueue s.pending)) ∧
  -- REFCLK_LOST (R477)
  (∀ (s : State),
      s.hatOn = true →
      s.rdb F.HAT_CLK_REF_OK [] = true →
      let u := (s.wr F.HAT_CLK_REF_OK [] 0).raise F.HAT_CLK_TIME_FREE []
      exec .refclkLost s =
        .next (((allPorts.foldl (fun t x => t.linkRetrain x.1 x.2 0 false) u).err { det := 0x15, sev := 2 }).withQueue s.pending)) ∧
  -- REFCLK_RETURN (R477)
  (∀ (s : State),
      s.hatOn = true →
      s.rdb F.HAT_CLK_REF_OK [] = false →
      exec .refclkReturn s =
        .next ((allPorts.foldl (fun t x => t.linkRetrain x.1 x.2 0 false) (s.wr F.HAT_CLK_REF_OK [] 1)).withQueue s.pending)) ∧
  -- REFCLK_LOSS_TIMEOUT (R477)
  (∀ (s : State),
      s.hatOn = true →
      s.rdb F.HAT_CLK_REF_OK [] = false →
      s.pstate ≠ 3 →
      s.rdb F.HAT_PSTATE_BUSY [] = false →
      exec .refclkLossTimeout s =
        .next ((s.stopBegin 3 4).withQueue s.pending)) ∧
  -- OSC_CALIBRATE (R475)
  (∀ (s : State),
      s.hatOn = true →
      s.rdb F.HAT_CLK_REF_OK [] = true →
      exec .oscCalibrate s =
        .next ((s.wr F.HAT_CLK_OSC_CAL [] 1).withQueue s.pending)) ∧
  -- THERMAL_TRIP (R471)
  (∀ (s : State),
      s.hatOn = true →
      s.pstate ≠ 3 →
      exec .thermalTrip s =
        .next (((((s.hatRecord { det := 0x14, sev := 3 }).bump F.HAT_CLK_TRIPS [] 1).wr V.THERM [] 1).enterP3 3).withQueue s.pending)) ∧
  -- COLD_RESET (R478)
  (∀ (s : State),
      exec .coldReset s =
        .next ((((s.freshen.resetKeeping flashFields false).wr F.HAT_RESET_LAST [] 1).wr F.TRY_OWN_SLOT [] (Config.free s.free 0 % 2)).withQueue s.pending)) ∧
  -- MODULE_RESET (R478)
  (∀ (cool : Bool) (s : State),
      (Instr.moduleReset cool).wf = true →
      s.hatOn = true →
      s.rdb V.MRESET [] = false →
      s.rdb V.GASP [] = false →
      cool = false →
      let u := (s.levelDrop 0).resetKeeping hatFields true
      exec (Instr.moduleReset cool) s =
        .next ((((((u.wr V.MRESET [] 1).wr F.HAT_RESET_LAST [] 2).wr F.HAT_PSTATE_STATE [] 3).wr F.HAT_BOOT_STEP [] 4).wr V.BOOTING [] 0).withQueue s.pending)) ∧
  (∀ (cool : Bool) (s : State),
      (Instr.moduleReset cool).wf = true →
      s.hatOn = true →
      s.rdb V.MRESET [] = false →
      s.rdb V.GASP [] = false →
      cool = true →
      let u := ((s.levelDrop 0).resetKeeping hatFields true).wr V.THERM [] 0
      exec (Instr.moduleReset cool) s =
        .next ((((((u.wr V.MRESET [] 1).wr F.HAT_RESET_LAST [] 2).wr F.HAT_PSTATE_STATE [] 3).wr F.HAT_BOOT_STEP [] 4).wr V.BOOTING [] 0).withQueue s.pending)) ∧
  -- QUADRANT_RESET (R478)
  (∀ (q : Nat) (s : State),
      (Instr.quadrantReset q).wf = true →
      s.barOn = true →
      s.quadUp q = true →
      let u := (((s.wr V.QRESET [q] 1).wr F.HAT_RESET_LAST [] 3).abortIn q).failSteps q
      exec (Instr.quadrantReset q) s =
        .next (((((List.range 40).foldl (fun t k => t.linkDown q k 0) u).emptyQuad q).clearAt q quadFields).withQueue s.pending)) ∧
  -- PARTITION_RESET (R478)
  (∀ (p : Nat) (flr : Bool) (s : State),
      (Instr.partitionReset p flr).wf = true →
      s.barOn = true →
      flr = true →
      p ≠ 0 →
      exec (Instr.partitionReset p flr) s =
        .next ((((s.partitionReset p).fnReset p).wr F.GLB_SCRATCH_VALUE [p] 0).withQueue s.pending)) ∧
  (∀ (p : Nat) (flr : Bool) (s : State),
      (Instr.partitionReset p flr).wf = true →
      s.barOn = true →
      flr = false →
      exec (Instr.partitionReset p flr) s =
        .next ((s.partitionReset p).withQueue s.pending)) ∧
  -- STARTUP_STEP_COMPLETE (R480)
  (∀ (ok : Bool) (failed : List Nat) (s : State),
      (Instr.startupStepComplete ok failed).wf = true →
      s.hatOn = true →
      s.rdb V.BOOTING [] = true →
      s.rdb V.MRESET [] = false →
      s.rd F.HAT_BOOT_STEP [] = 4 →
      ok = true →
      let u := ((s.wr F.HAT_PSTATE_STATE [] 0).wr F.HAT_CLK_REF_OK [] 1).mitJoin
      exec (Instr.startupStepComplete ok failed) s =
        .next ((u.wr F.HAT_BOOT_STEP [] (u.rd F.HAT_BOOT_STEP [] + 1)).withQueue s.pending)) ∧
  (∀ (ok : Bool) (failed : List Nat) (s : State),
      (Instr.startupStepComplete ok failed).wf = true →
      s.hatOn = true →
      s.rdb V.BOOTING [] = true →
      s.rdb V.MRESET [] = false →
      s.rd F.HAT_BOOT_STEP [] = 6 →
      ok = true →
      exec (Instr.startupStepComplete ok failed) s =
        .next (((s.hbmUp failed).wr F.HAT_BOOT_STEP [] ((s.hbmUp failed).rd F.HAT_BOOT_STEP [] + 1)).withQueue s.pending)) ∧
  -- LOADTEST_RUN (R483)
  (∀ (s : State),
      s.barOn = true →
      s.clocked = true →
      s.allClosed = true →
      s.rdb F.HAT_LOADTEST_ACTIVE [] = false →
      10 ≤ s.rd F.HAT_BOOT_STEP [] →
      exec .loadtestRun s =
        .next (((s.wr F.HAT_BOOT_STEP [] 10).loadTestStart.wr V.REPAIR [] 1).withQueue s.pending)) ∧
  -- LOADTEST_PHASE_END (R482)
  (∀ (crcOk : Bool) (s : State),
      (Instr.loadtestPhaseEnd crcOk).wf = true →
      s.clocked = true →
      s.rdb F.HAT_LOADTEST_ACTIVE [] = true →
      crcOk = false →
      let u := (s.wr F.HAT_LOADTEST_ACTIVE [] 0).wr F.HAT_LOADTEST_FAILED [] 1
      exec (Instr.loadtestPhaseEnd crcOk) s =
        .next (((u.err { det := u.openDet, sev := 2, cause := u.rd F.HAT_LOADTEST_PHASE [] }).freshen).withQueue s.pending)) ∧
  (∀ (crcOk : Bool) (s : State),
      (Instr.loadtestPhaseEnd crcOk).wf = true →
      s.clocked = true →
      s.rdb F.HAT_LOADTEST_ACTIVE [] = true →
      (crcOk && !s.rdb V.LT_BAD [] && !exLt s.effCap.2 s.powerP && !s.tjAtLeast (s.sense 424 1)) = true →
      s.rd F.HAT_LOADTEST_PHASE [] + 1 < s.img.le 0x0A 4 0 22 1 →
      exec (Instr.loadtestPhaseEnd crcOk) s =
        .next ((s.bump F.HAT_LOADTEST_PHASE [] 1).withQueue s.pending)) ∧
  -- QUADRANT_RESET_END (R478)
  (∀ (q : Nat) (s : State),
      (Instr.quadrantResetEnd q).wf = true →
      s.barOn = true →
      s.rdb V.QRESET [q] = true →
      (s.wr V.QRESET [q] 0).rdb V.QUIESCE [q] = false →
      exec (Instr.quadrantResetEnd q) s =
        .next ((s.wr V.QRESET [q] 0).withQueue s.pending)) ∧
  -- MODULE_RESET_RELEASE (R478)
  (∀ (s : State),
      s.hatOn = true →
      s.rdb V.MRESET [] = true →
      (s.wr V.MRESET [] 0).rdb V.THERM [] = false →
      exec .moduleResetRelease s =
        .next (((s.wr V.MRESET [] 0).startUp 0 false).withQueue s.pending)) ∧
  -- IEEE_1588_TIME (R475)
  (∀ (ns : BitVec 64) (s : State),
      (Instr.ieee1588Time ns).wf = true →
      s.hatOn = true →
      s.yofRuns = true →
      exec (Instr.ieee1588Time ns) s =
        .next ((s.wr V.TIME_PS [] (ns.toNat * 1000)).withQueue s.pending))

/-- Completion of the commands of the host interface: for each, where its operands are well formed, its unit runs and the stated condition holds, the next
state is the one written out.  Each clause names the rules that give the effect. -/
def Obligations.HostCommandsComplete : Prop :=
  -- PERST (R532)
  (∀ (asserted : Bool) (s : State),
      (Instr.perst asserted).wf = true →
      asserted = false →
      (s.wr V.PERST [] 0).rdb V.YOF_ON [] = true →
      exec (Instr.perst asserted) s =
        .next (((s.wr V.PERST [] 0).pcieUp).withQueue s.pending)) ∧
  (∀ (asserted : Bool) (s : State),
      (Instr.perst asserted).wf = true →
      asserted = true →
      s.rdb F.PCI_LINK_SPEED [] = true →
      let u := (((s.bump F.PCI_LINK_DOWNS [] 1).wr V.PERST [] 1).wr F.HAT_RESET_LAST [] 5).linkOff
      exec (Instr.perst asserted) s =
        .next (((List.range 32).foldl (fun t f => t.fnReset f) (u.fetchAbort fun f => f < 32)).withQueue s.pending)) ∧
  -- SET_ENDPOINT_ID (R534)
  (∀ (binding : Nat) (eid : BitVec 8) (s : State),
      (Instr.setEndpointId binding eid).wf = true →
      s.hatOn = true →
      binding = 1 →
      s.mctpAnswers binding true = true →
      exec (Instr.setEndpointId binding eid) s =
        .next (((s.wr V.EID [binding] eid.toNat).emit (.mctp 0 [binding, eid.toNat])).withQueue s.pending)) ∧
  (∀ (binding : Nat) (eid : BitVec 8) (s : State),
      (Instr.setEndpointId binding eid).wf = true →
      s.hatOn = true →
      binding = 0 →
      s.yofDemand.mctpAnswers binding true = true →
      exec (Instr.setEndpointId binding eid) s =
        .next (((s.yofDemand.wr V.EID [binding] eid.toNat).emit (.mctp 0 [binding, eid.toNat])).withQueue s.pending)) ∧
  -- PLDM_SENSOR_READ (R535)
  (∀ (n : Nat) (s : State),
      (Instr.pldmSensorRead n).wf = true →
      s.hatOn = true →
      s.yofDemand.yofRuns = true →
      exec (Instr.pldmSensorRead n) s =
        .next ((s.yofDemand.emit (.mctp 1 [n, s.yofDemand.sensor n])).withQueue s.pending)) ∧
  -- PLDM_EFFECTER_WRITE (R535)
  (∀ (n : Nat) (value : BitVec 64) (s : State),
      (Instr.pldmEffecterWrite n value).wf = true →
      s.hatOn = true →
      n = 0 →
      s.yofDemand.yofRuns = true →
      exec (Instr.pldmEffecterWrite n value) s =
        .next ((s.yofDemand.wr F.TRY_CAP_HOST_CAP_W [] value.toNat).withQueue s.pending)) ∧
  (∀ (n : Nat) (value : BitVec 64) (s : State),
      (Instr.pldmEffecterWrite n value).wf = true →
      s.hatOn = true →
      1 ≤ n →
      n < 9 →
      s.yofDemand.yofRuns = true →
      exec (Instr.pldmEffecterWrite n value) s =
        .next ((s.yofDemand.wr F.TRY_PWM_FORCE_DUTY [n - 1] value.toNat).dutyForced.withQueue s.pending)) ∧
  (∀ (n : Nat) (value : BitVec 64) (s : State),
      (Instr.pldmEffecterWrite n value).wf = true →
      s.hatOn = true →
      n = 9 →
      s.hatOn = true →
      exec (Instr.pldmEffecterWrite n value) s =
        .next ((s.powerRequest (value.toNat % 4)).withQueue s.pending)) ∧
  (∀ (n : Nat) (value : BitVec 64) (s : State),
      (Instr.pldmEffecterWrite n value).wf = true →
      s.hatOn = true →
      10 ≤ n →
      s.yofDemand.yofRuns = true →
      (value.toNat = 1 ∨ value.toNat = 3) →
      exec (Instr.pldmEffecterWrite n value) s =
        .next ((s.yofDemand.cartCmd (n - 10) value.toNat).withQueue s.pending)) ∧
  -- BAR2_READ (R522)
  (∀ (fn off len : Nat) (s : State) (d : List Byte),
      (Instr.bar2Read fn off len).wf = true →
      s.pciUp = true →
      let u := s.countModule 0 16 0 1
      u.bar2Served fn off len = true →
      u.memRead fn (u.bar2Addr fn off) len = .ok d →
      exec (Instr.bar2Read fn off len) s =
        .next (((u.noteRead 0x09 fn (u.bar2Addr fn off) len).tlp (.completion fn 0 d)).withQueue s.pending)) ∧
  (∀ (fn off len : Nat) (s : State),
      (Instr.bar2Read fn off len).wf = true →
      s.pciUp = true →
      let u := s.countModule 0 16 0 1
      u.bar2Served fn off len = false →
      exec (Instr.bar2Read fn off len) s =
        .next ((((u.raise F.PCI_FN_STAT_BADBAR2 [fn]).tlp (.completion fn 1 [])).aer fn 0).withQueue s.pending)) ∧
  -- BAR2_WRITE (R522)
  (∀ (fn off : Nat) (data : List Byte) (poisoned : Bool) (s : State) (t z : State),
      (Instr.bar2Write fn off data poisoned).wf = true →
      s.pciUp = true →
      poisoned = false →
      let u := s.countModule 0 16 0 1
      u.bar2Served fn off data.length = true →
      u.memWrite fn (u.bar2Addr fn off) data = some t →
      (u.noteMerge fn (u.bar2Addr fn off) data.length).memWrite fn (u.bar2Addr fn off) data = some z →
      exec (Instr.bar2Write fn off data poisoned) s =
        .next ((z.hostWrote fn (u.bar2Addr fn off) data.length).withQueue s.pending)) ∧
  (∀ (fn off : Nat) (data : List Byte) (poisoned : Bool) (s : State),
      (Instr.bar2Write fn off data poisoned).wf = true →
      s.pciUp = true →
      poisoned = false →
      let u := s.countModule 0 16 0 1
      u.bar2Served fn off data.length = false →
      exec (Instr.bar2Write fn off data poisoned) s =
        .next ((u.raise F.PCI_FN_STAT_BADBAR2 [fn]).withQueue s.pending)) ∧
  -- PF0_FLR (R531)
  (∀ (s : State),
      s.pciUp = true →
      ((((s.fetchAbort fun f => f == 0).fnReset 0).wr F.GLB_SCRATCH_VALUE [0] 0).rdb F.SEC_STATUS_BUSY [] = false) →
      ((((s.fetchAbort fun f => f == 0).fnReset 0).wr F.GLB_SCRATCH_VALUE [0] 0).rd F.DBG_LEVEL_LEVEL [] = 0) →
      let u := ((s.fetchAbort fun f => f == 0).fnReset 0).wr F.GLB_SCRATCH_VALUE [0] 0
      exec .pf0Flr s =
        .next ((u.dropLatches).withQueue s.pending)) ∧
  -- PCIE_LINK_DOWN (R532)
  (∀ (down : Bool) (s : State),
      (Instr.pcieLinkDown down).wf = true →
      s.hatOn = true →
      down = true →
      s.rdb F.PCI_LINK_SPEED [] = true →
      let u := (s.linkOff.bump F.PCI_LINK_DOWNS [] 1).fetchAbort fun f => f < 32
      exec (Instr.pcieLinkDown down) s =
        .next (((u.err { det := 0x17, sev := 2 }).aer 0 2).withQueue s.pending)) ∧
  (∀ (down : Bool) (s : State),
      (Instr.pcieLinkDown down).wf = true →
      s.hatOn = true →
      down = false →
      s.rdb V.YOF_ON [] = true →
      exec (Instr.pcieLinkDown down) s =
        .next ((s.pcieUp).withQueue s.pending)) ∧
  -- HOST_ACCESS_FAIL (R527)
  (∀ (fn user q c : Nat) (s : State),
      (Instr.hostAccessFail fn user q c).wf = true →
      s.barOn = true →
      user = 1 →
      exec (Instr.hostAccessFail fn user q c) s =
        .next ((s.hostFail fn).withQueue s.pending)) ∧
  (∀ (fn user q c : Nat) (s : State),
      (Instr.hostAccessFail fn user q c).wf = true →
      s.barOn = true →
      user = 0 →
      s.movSt q fn (c - 1) = 1 →
      exec (Instr.hostAccessFail fn user q c) s =
        .next (((((s.hostFail fn).err { det := 0x17, sev := 1, part := fn }).aer fn 1).movBusError q 1).withQueue s.pending)) ∧
  -- MSIX_UNMASK (R529)
  (∀ (fn vec : Nat) (s : State),
      (Instr.msixUnmask fn vec).wf = true →
      (s.pciUp && decide (vec < msixSize fn)) = true →
      s.rdb V.MSIX_PEND [fn, vec] = true →
      ((s.wr V.MSIX_MASK [fn, vec] 0).wr V.MSIX_PEND [fn, vec] 0).hostOk fn = true →
      exec (Instr.msixUnmask fn vec) s =
        .next ((((s.wr V.MSIX_MASK [fn, vec] 0).wr V.MSIX_PEND [fn, vec] 0).tlp (.msix fn vec)).withQueue s.pending)) ∧
  (∀ (fn vec : Nat) (s : State),
      (Instr.msixUnmask fn vec).wf = true →
      (s.pciUp && decide (vec < msixSize fn)) = true →
      s.rdb V.MSIX_PEND [fn, vec] = false →
      exec (Instr.msixUnmask fn vec) s =
        .next (((s.wr V.MSIX_MASK [fn, vec] 0).wr V.MSIX_PEND [fn, vec] 0).withQueue s.pending))

/-- Completion of the commands of the security services: for each, where its operands are well formed, its unit runs and the stated condition holds, the next
state is the one written out.  Each clause names the rules that give the effect. -/
def Obligations.SecurityCommandsComplete : Prop :=
  -- LIFECYCLE_OBJECT (R500)
  (∀ (obj : List Byte) (s : State),
      (Instr.lifecycleObject obj).wf = true →
      s.barOn = true →
      s.yofDemand.yofRuns = true →
      (s.yofDemand.wr F.SEC_STATUS_BUSY [] 1).hostOk 0 = true →
      (s.yofDemand.wr F.SEC_STATUS_BUSY [] 1).injRead 0 = false →
      let u := ((s.yofDemand.wr F.SEC_STATUS_BUSY [] 1).countModule 0 17 0 1).countModule 0 16 0 1
      let o := lcObjOf obj
      let from0 := u.rd F.SEC_LC_STATE []
      let slot := if u.flashCtr 3 = 0 then 0 else 1 - u.rd V.LC_SLOT []
      let v := ((u.grantEnd 0).flashPut (lcSlotAddr slot) (obj.take 128)).wr V.LC_SLOT [] slot
      exec (Instr.lifecycleObject obj) s =
        .next ((if o.wellFormed = false ∨ sigOver (if o.issuer = 0 then u.rootKey else u.ownerKey) obj 64 = false then u.secDone 1
          else if o.device ≠ deviceId then u.secDone 2
          else if o.count ≠ u.flashCtr 3 + 1 then u.secDone 3
          else if lcStep from0 o.state o.issuer = false ∨ (from0 = 1 ∧ o.state = 2 ∧ u.ownCertOk = false) then u.secDone 4
          else match v.ctrRaise 3 o.count with
            | some z => ((z.wr F.SEC_LC_STATE [] o.state).lcEffect from0 o.state).secDone 0
            | none => v.secDone 5).withQueue s.pending)) ∧
  -- OWNER_ENROL (R501)
  (∀ (cert : List Byte) (s : State),
      (Instr.ownerEnrol cert).wf = true →
      s.barOn = true →
      s.yofDemand.yofRuns = true →
      (s.yofDemand.wr F.SEC_STATUS_BUSY [] 1).hostOk 0 = true →
      (s.yofDemand.wr F.SEC_STATUS_BUSY [] 1).injRead 0 = false →
      let u := ((s.yofDemand.wr F.SEC_STATUS_BUSY [] 1).countModule 0 17 0 1).countModule 0 16 0 1
      let lc := u.rd F.SEC_LC_STATE []
      let n := ownLen cert + 64
      let issuer := leAt cert 108 1
      let gen := leAt cert 104 4
      let v := if u.ownHeld && u.ownerKey != bytesAt cert 40 64 then (u.grantEnd 0).closeTenants.zeroizeHbm else u
      exec (Instr.ownerEnrol cert) s =
        .next ((if ownForm cert = false ∨ cert.length < n ∨
              sigOver (if issuer = 0 then u.rootKey else u.ownerKey) cert (ownLen cert) = false then u.secDone 1
          else if bytesAt cert 8 32 ≠ deviceId then u.secDone 2
          else if gen ≤ u.flashCtr 2 then u.secDone 3
          else if ¬((issuer = 0 ∧ lc = 1) ∨ (issuer = 1 ∧ lc = 2)) then u.secDone 4
          else ((v.flashPut 0x4000 (List.replicate 4096 0)).flashPut 0x4000 (cert.take n)).floorRaise 2 gen).withQueue s.pending)) ∧
  -- FIRMWARE_FLOOR (R497)
  (∀ (s : State),
      s.barOn = true →
      s.yofDemand.yofRuns = true →
      let u := s.yofDemand.wr F.SEC_STATUS_BUSY [] 1
      let v := min (leAt (u.flashBytes 0x10000 12) 8 4) (leAt (u.flashBytes 0x40000 12) 8 4)
      exec .firmwareFloor s =
        .next ((if v ≤ u.flashCtr 0 then u.secDone 0 else
          match u.ctrRaise 0 v with
          | some t => t.secDone 0
          | none => u.secDone 5).withQueue s.pending)) ∧
  -- KNIT_FLOOR (R497)
  (∀ (s : State),
      s.barOn = true →
      s.yofDemand.yofRuns = true →
      let u := s.yofDemand.wr F.SEC_STATUS_BUSY [] 1
      let v := u.rd V.BASE_SERIAL []
      exec .knitFloor s =
        .next ((if v ≤ u.flashCtr 1 then u.secDone 0 else
          match u.ctrRaise 1 v with
          | some t => t.secDone 0
          | none => u.secDone 5).withQueue s.pending)) ∧
  -- CHALLENGE_READ (R510)
  (∀ (s : State),
      s.barOn = true →
      exec .challengeRead s =
        .next ((s.registerRead 0 0x90008 8).withQueue s.pending)) ∧
  -- DEBUG_REQUEST_D1 (R508)
  (∀ (s : State),
      s.barOn = true →
      s.rd F.DBG_LEVEL_LEVEL [] = 0 →
      exec .debugRequestD1 s =
        .next (((((s.wr F.DBG_LEVEL_LEVEL [] 1).wr F.DBG_LEVEL_IFACE [] 0).grantRecord 1 0).dbgDone 0).withQueue s.pending)) ∧
  -- TOKEN_SUBMIT (R510)
  (∀ (token : List Byte) (s : State),
      (Instr.tokenSubmit token).wf = true →
      s.barOn = true →
      s.yofDemand.yofRuns = true →
      (s.yofDemand.wr F.DBG_STATUS_BUSY [] 1).hostOk 0 = true →
      (s.yofDemand.wr F.DBG_STATUS_BUSY [] 1).injRead 0 = false →
      let u := ((s.yofDemand.wr F.DBG_STATUS_BUSY [] 1).countModule 0 17 0 1).countModule 0 16 0 1
      let r := u.tokenResult token
      let level := leAt token 4 1
      let part := if level = 2 then leAt token 5 1 else 0
      let v := (((((u.wr V.CHAL_OK [] 0).wr F.DBG_LEVEL_LEVEL [] level).wr F.DBG_LEVEL_PART [] part).wr F.DBG_LEVEL_WRITE []
        (b2n (level == 3 || bitOf (leAt token 6 1) 1))).wr F.DBG_LEVEL_IFACE [] 0).wr F.DBG_LEVEL_REMAIN_S [] (leAt token 56 4)
      let w := ((v.wr V.GRANT_END [] (v.timeNs + leAt token 56 4 * 10 ^ 9)).grantRecord level part).dbgDone 0
      exec (Instr.tokenSubmit token) s =
        .next ((if r ≠ 0 then (u.wr V.CHAL_OK [] 0).dbgDone r
          else if level = 2 ∧ w.rd V.PRST_PS [part] = w.rd V.TIME_PS [] + 1 then w.grantEnd 1
          else if bitOf (leAt token 6 1) 0 = true then w.wake
          else w).withQueue s.pending)) ∧
  -- DEBUG_RELEASE (R508)
  (∀ (s : State),
      s.barOn = true →
      exec .debugRelease s =
        .next (((s.grantEnd 0).dbgDone 0).withQueue s.pending)) ∧
  -- GRANT_EXPIRY (R510)
  (∀ (s : State),
      s.hatOn = true →
      2 ≤ s.rd F.DBG_LEVEL_LEVEL [] →
      exec .grantExpiry s =
        .next ((s.grantEnd 0).withQueue s.pending)) ∧
  -- FIRMWARE_UPDATE (R496)
  (∀ (addr : Nat) (data : List Byte) (s : State),
      (Instr.firmwareUpdate addr data).wf = true →
      s.hatOn = true →
      s.pstate = 3 →
      s.rdb F.HAT_BOOT_FAILED [] = true →
      s.rdb V.BOOTING [] = false →
      0x10000 ≤ addr →
      addr + data.length ≤ 2 ^ 26 →
      exec (Instr.firmwareUpdate addr data) s =
        .next ((((s.flashPut addr data).startUp 0 false).wr F.HAT_BOOT_STEP [] 2).withQueue s.pending))

/-- Completion of the commands of the test access port: for each, where its operands are well formed, its unit runs and the stated condition holds, the next
state is the one written out.  Each clause names the rules that give the effect. -/
def Obligations.JtagCommandsComplete : Prop :=
  -- BYPASS (R511)
  (∀ (s : State),
      s.hatOn = true →
      exec .bypass s =
        .next ((s.jtagSet 0xFF true 0).withQueue s.pending)) ∧
  -- IDCODE (R511)
  (∀ (s : State),
      s.hatOn = true →
      exec .idcode s =
        .next ((s.jtagSet 0x01 true idcode).withQueue s.pending)) ∧
  -- SAMPLE_PRELOAD (R511)
  (∀ (bits : BitVec 4096) (s : State),
      (Instr.samplePreload bits).wf = true →
      s.hatOn = true →
      s.jtagD1 = true →
      exec (Instr.samplePreload bits) s =
        .next (((s.freshen.jtagSet 0x02 true (Config.free s.free 0)).wr V.JTAG_BSR [] bits.toNat).withQueue s.pending)) ∧
  -- EXTEST (R511)
  (∀ (bits : BitVec 4096) (s : State),
      (Instr.extest bits).wf = true →
      s.hatOn = true →
      s.jtagPins = true →
      exec (Instr.extest bits) s =
        .next (((s.freshen.jtagSet 0x06 true (Config.free s.free 0)).wr V.JTAG_BSR [] bits.toNat).withQueue s.pending)) ∧
  -- EXTEST_PULSE (R511)
  (∀ (bits : BitVec 4096) (s : State),
      (Instr.extestPulse bits).wf = true →
      s.hatOn = true →
      (s.jtagPins && s.clocked) = true →
      exec (Instr.extestPulse bits) s =
        .next (((s.freshen.jtagSet 0x07 true (Config.free s.free 0)).wr V.JTAG_BSR [] bits.toNat).withQueue s.pending)) ∧
  -- EXTEST_TRAIN (R511)
  (∀ (bits : BitVec 4096) (s : State),
      (Instr.extestTrain bits).wf = true →
      s.hatOn = true →
      (s.jtagPins && s.clocked) = true →
      exec (Instr.extestTrain bits) s =
        .next (((s.freshen.jtagSet 0x08 true (Config.free s.free 0)).wr V.JTAG_BSR [] bits.toNat).withQueue s.pending)) ∧
  -- CLAMP (R511)
  (∀ (s : State),
      s.hatOn = true →
      exec .clamp s =
        .next ((s.jtagSet 0x09 s.jtagPins 0).withQueue s.pending)) ∧
  -- HIGHZ (R511)
  (∀ (s : State),
      s.hatOn = true →
      exec .highz s =
        .next ((s.jtagSet 0x0A s.jtagPins 0).withQueue s.pending)) ∧
  -- DBG_REQ (R511)
  (∀ (bit : Bool) (s : State),
      (Instr.dbgReq bit).wf = true →
      s.hatOn = true →
      bit = true →
      exec (Instr.dbgReq bit) s =
        .next (((s.jtagSet 0x20 true 0).requestD1 true).withQueue s.pending)) ∧
  -- DBG_TOKEN (R511)
  (∀ (token : List Byte) (s : State),
      (Instr.dbgToken token).wf = true →
      s.hatOn = true →
      token = [] →
      exec (Instr.dbgToken token) s =
        .next ((s.challengeRead.jtagSet 0x21 true s.challengeRead.challenge).withQueue s.pending)) ∧
  (∀ (token : List Byte) (s : State),
      (Instr.dbgToken token).wf = true →
      s.hatOn = true →
      token ≠ [] →
      s.rd V.JTAG_TOKN [] = 0 →
      exec (Instr.dbgToken token) s =
        .next ((((s.jtagSet 0x21 true 0).wr V.JTAG_TOK [] (ofLE (bytesAt token 0 160))).wr V.JTAG_TOKN [] (1 + token.length)).withQueue s.pending)) ∧
  -- DBG_ACCESS (R574)
  (∀ (bits : BitVec 96) (s : State),
      (Instr.dbgAccess bits).wf = true →
      s.hatOn = true →
      s.rd F.DBG_LEVEL_LEVEL [] ≠ 0 →
      s.rdb V.DBGA_REQ [] = false →
      badAccess (bitsOf bits.toNat 0 28) (if bitOf bits.toNat 29 then 8 else 4) = false →
      s.dbgMay (bitsOf bits.toNat 0 28) (bitOf bits.toNat 28) = true →
      exec (Instr.dbgAccess bits) s =
        .next ((((s.wr V.DBGA_REQ [] (1 + bits.toNat)).wr V.DBGA_GRANT [] s.grantWord).jtagSet 0x22 true
          (s.rd V.DBGA_STATUS [] * 2 ^ 30 + s.rd V.DBGA_DATA [] * 2 ^ 32)).withQueue s.pending)) ∧
  (∀ (bits : BitVec 96) (s : State),
      (Instr.dbgAccess bits).wf = true →
      s.hatOn = true →
      s.rd F.DBG_LEVEL_LEVEL [] ≠ 0 →
      s.rdb V.DBGA_REQ [] = false →
      (badAccess (bitsOf bits.toNat 0 28) (if bitOf bits.toNat 29 then 8 else 4) = true ∨
        s.dbgMay (bitsOf bits.toNat 0 28) (bitOf bits.toNat 28) = false) →
      exec (Instr.dbgAccess bits) s =
        .next (((s.wr V.DBGA_STATUS [] 1).jtagSet 0x22 true (1 * 2 ^ 30 + s.rd V.DBGA_DATA [] * 2 ^ 32)).withQueue s.pending)) ∧
  (∀ (bits : BitVec 96) (s : State),
      (Instr.dbgAccess bits).wf = true →
      s.hatOn = true →
      s.rd F.DBG_LEVEL_LEVEL [] ≠ 0 →
      s.rdb V.DBGA_REQ [] = true →
      exec (Instr.dbgAccess bits) s =
        .next (((s.wr V.DBGA_STATUS [] 3).jtagSet 0x22 true (3 * 2 ^ 30 + s.rd V.DBGA_DATA [] * 2 ^ 32)).withQueue s.pending)) ∧
  (∀ (bits : BitVec 96) (s : State),
      (Instr.dbgAccess bits).wf = true →
      s.hatOn = true →
      s.rd F.DBG_LEVEL_LEVEL [] = 0 →
      exec (Instr.dbgAccess bits) s =
        .next ((s.jtagSet 0xFF true 0).withQueue s.pending))

/-- Completion of the commands of SPDM: for each, where its operands are well formed, its unit runs and the stated condition holds, the next
state is the one written out.  Each clause names the rules that give the effect. -/
def Obligations.SpdmCommandsComplete : Prop :=
  -- GET_VERSION (R507)
  (∀ (s : State),
      s.hatOn = true →
      s.yofDemand.yofRuns = true →
      let u := s.yofDemand
      exec .getVersion s =
        .next ((u.emit (.mctp 1280 ((Config.spdmBody 0).map fun b : Byte => b.toNat))).withQueue s.pending)) ∧
  -- GET_CAPABILITIES (R507)
  (∀ (s : State),
      s.hatOn = true →
      s.yofDemand.yofRuns = true →
      let u := s.yofDemand
      exec .getCapabilities s =
        .next ((u.emit (.mctp 1281 ((Config.spdmBody 1).map fun b : Byte => b.toNat))).withQueue s.pending)) ∧
  -- NEGOTIATE_ALGORITHMS (R507)
  (∀ (s : State),
      s.hatOn = true →
      s.yofDemand.yofRuns = true →
      let u := s.yofDemand
      exec .negotiateAlgorithms s =
        .next ((u.emit (.mctp 1282 ((Config.spdmBody 2).map fun b : Byte => b.toNat))).withQueue s.pending)) ∧
  -- GET_DIGESTS (R507)
  (∀ (s : State),
      s.hatOn = true →
      s.yofDemand.yofRuns = true →
      let u := s.yofDemand
      exec .getDigests s =
        .next ((u.emit (.mctp 1283 ((Config.sha256 u.chain).map fun b : Byte => b.toNat))).withQueue s.pending)) ∧
  -- GET_CERTIFICATE (R507)
  (∀ (off len : Nat) (s : State),
      (Instr.getCertificate off len).wf = true →
      s.hatOn = true →
      s.yofDemand.yofRuns = true →
      let u := s.yofDemand
      exec (Instr.getCertificate off len) s =
        .next ((u.emit (.mctp 1284 ((bytesAt u.chain off len).map fun b : Byte => b.toNat))).withQueue s.pending)) ∧
  -- CHALLENGE (R507)
  (∀ (nonce : List Byte) (s : State),
      (Instr.challenge nonce).wf = true →
      s.hatOn = true →
      s.yofDemand.yofRuns = true →
      let u := s.yofDemand
      let d := Config.sha256 u.chain
      exec (Instr.challenge nonce) s =
        .next (((u.emit (.mctp 1285 ((d ++ Config.ecdsaSign identityScalar u.free (d ++ nonce)).map fun b : Byte => b.toNat))).freshen).withQueue s.pending)) ∧
  -- GET_MEASUREMENTS (R507)
  (∀ (index : Nat) (nonce : List Byte) (s : State),
      (Instr.getMeasurements index nonce).wf = true →
      s.hatOn = true →
      s.yofDemand.yofRuns = true →
      let u := s.yofDemand
      let ms := if index = 0xFF then (List.range 0x31).flatMap fun i => (u.measure i).getD [] else (u.measure index).getD []
      exec (Instr.getMeasurements index nonce) s =
        .next (((u.emit (.mctp 1286 ((ms ++ Config.ecdsaSign identityScalar u.free (ms ++ nonce)).map fun b : Byte => b.toNat))).freshen).withQueue s.pending))

/-- Completion of the commands of counters, Tally, the sampler and injection: for each, where its operands are well formed, its unit runs and the stated condition holds, the next
state is the one written out.  Each clause names the rules that give the effect. -/
def Obligations.ObsCommandsComplete : Prop :=
  -- COUNTER_CLEAR (R563)
  (∀ (value : BitVec 64) (s : State),
      (Instr.counterClear value).wf = true →
      s.barOn = true →
      bitOf value.toNat 17 = true →
      bitsOf value.toNat 0 9 < 424 →
      exec (Instr.counterClear value) s =
        .next (((List.range 8).foldl (fun t i => if bitOf value.toNat (9 + i) then (t.wr (ctrAt (bitsOf value.toNat 0 9) i).1 (ctrAt (bitsOf value.toNat 0 9) i).2.2 0).lower (ctrAt (bitsOf value.toNat 0 9) i).2.1 (ctrAt (bitsOf value.toNat 0 9) i).2.2 else t) s).withQueue s.pending)) ∧
  -- TALLY_SWEEP (R548)
  (∀ (due skipped : List Nat) (s : State),
      (Instr.tallySweep due skipped).wf = true →
      s.clocked = true →
      skipped = [] →
      s.rd V.SWEEP_WAIT [] = 0 →
      s.rd V.SWEEP_PROGS [] = 0 →
      let on := fun p : Nat => s.img.brimValid p && s.obs p 0 0 3 % 2 ^ 20 != 0
      let ps := (List.range 32).filter fun p => due.contains p && on p
      ps ≠ [] →
      exec (Instr.tallySweep due skipped) s =
        .next (((((s.wr V.SWEEP_WAIT [] 0).wr V.SWEEP_PROGS [] (maskOf ps)).wr V.SWEEP_BANKS [] (maskOf (ps.flatMap s.tallyBanks))).wr V.SWEEP_AT []
          (s.rd V.CLK [] + 1)).withQueue s.pending)) ∧
  (∀ (due skipped : List Nat) (s : State),
      (Instr.tallySweep due skipped).wf = true →
      s.clocked = true →
      skipped = [] →
      s.rd V.SWEEP_WAIT [] = 0 →
      s.rd V.SWEEP_PROGS [] ≠ 0 →
      let on := fun p : Nat => s.img.brimValid p && s.obs p 0 0 3 % 2 ^ 20 != 0
      let ps := (List.range 32).filter fun p => due.contains p && on p
      exec (Instr.tallySweep due skipped) s =
        .next ((s.wr V.SWEEP_WAIT [] (maskOf ps)).withQueue s.pending)) ∧
  -- SAMPLER_CTL_WRITE (R553)
  (∀ (q : Nat) (value : BitVec 64) (s : State),
      (Instr.samplerCtlWrite q value).wf = true →
      s.barQuad q = true →
      let v := value.toNat
      let u := (((s.wr F.CTR_PS_CTL_EN [q] (bitsOf v 0 1)).wr F.CTR_PS_CTL_SOURCE [q] (bitsOf v 1 3)).wr F.CTR_PS_CTL_MODE [q] (bitsOf v 4 1)).wr F.CTR_PS_CTL_PART [q] (bitsOf v 10 5)
      let x := ((u.wr F.CTR_PS_CTL_K [q] (min 24 (bitsOf v 5 5))).wr F.CTR_PS_CTL_PART_EN [q] (bitsOf v 15 1)).wr F.CTR_PS_CTL_PORT [q] (bitsOf v 16 6)
      exec (Instr.samplerCtlWrite q value) s =
        .next ((((x.wr V.PS_COUNT [q] 0).wr F.CTR_PS_STAT_WRAPPED [q] 0).psEmpty q).withQueue s.pending)) ∧
  -- INJECT_ENABLE_WRITE (R560)
  (∀ (value : BitVec 64) (s : State),
      (Instr.injectEnableWrite value).wf = true →
      s.barOn = true →
      value.toNat % 2 = 1 →
      1 ≤ s.rd F.DBG_LEVEL_LEVEL [] →
      exec (Instr.injectEnableWrite value) s =
        .next ((s.hostWr F.ERR_INJ_CTL_EN [] 1).withQueue s.pending)) ∧
  (∀ (value : BitVec 64) (s : State),
      (Instr.injectEnableWrite value).wf = true →
      s.barOn = true →
      value.toNat % 2 = 0 →
      exec (Instr.injectEnableWrite value) s =
        .next ((s.wr F.ERR_INJ_CTL_EN [] 0).withQueue s.pending)) ∧
  -- ERROR_INJECT (R560)
  (∀ (value : BitVec 64) (s : State),
      (Instr.errorInject value).wf = true →
      s.barOn = true →
      bitOf value.toNat 17 = true →
      detInjected (bitsOf value.toNat 0 8) = true →
      bitOf value.toNat 16 = true →
      (s.injFields value.toNat).injAllowed true ((s.injFields value.toNat).injOwner (bitsOf value.toNat 0 8) (min 4 (bitsOf value.toNat 8 3)) (bitsOf value.toNat 11 5) (bitsOf value.toNat 32 32)) (detSevere (bitsOf value.toNat 0 8) (bitsOf value.toNat 32 32)) = true →
      let u := s.injFields value.toNat
      exec (Instr.errorInject value) s =
        .next (((u.raise F.ERR_INJ_STAT_FIRED []).freshen.err { det := bitsOf value.toNat 0 8, sev := u.injSeverity (bitsOf value.toNat 0 8), part := bitsOf value.toNat 11 5, quad := min 4 (bitsOf value.toNat 8 3), unit := bitsOf value.toNat 32 32, inj := true }).withQueue s.pending)) ∧
  (∀ (value : BitVec 64) (s : State),
      (Instr.errorInject value).wf = true →
      s.barOn = true →
      bitOf value.toNat 17 = true →
      detInjected (bitsOf value.toNat 0 8) = true →
      bitOf value.toNat 16 = false →
      detFull (bitsOf value.toNat 0 8) = true →
      (s.injFields value.toNat).injAllowed false ((s.injFields value.toNat).injOwner (bitsOf value.toNat 0 8) (min 4 (bitsOf value.toNat 8 3)) (bitsOf value.toNat 11 5) (bitsOf value.toNat 32 32)) (detSevere (bitsOf value.toNat 0 8) (bitsOf value.toNat 32 32)) = true →
      let u := s.injFields value.toNat
      exec (Instr.errorInject value) s =
        .next (((u.injArm 1 (bitsOf value.toNat 0 8) (min 4 (bitsOf value.toNat 8 3)) (bitsOf value.toNat 11 5) (bitsOf value.toNat 32 32)).injNow (bitsOf value.toNat 0 8) (min 4 (bitsOf value.toNat 8 3)) (bitsOf value.toNat 11 5) (bitsOf value.toNat 32 32)).withQueue s.pending))

/-- Frame of the commands of the Woyth links and the seams: what each leaves unchanged. -/
def Obligations.LinkFrame : Prop :=
  (
    let ps : List Part := []
    let fs : List Fld := [V.SEAM_RETRY]
    (∀ (a : Nat) (b : Nat) (s t : State), exec (.seamCrcError a b) s = .next t → s.writes ps fs t)) ∧
  (
    let ps : List Part := [.mitEgress, .notices, .errDue]
    let fs : List Fld := errFields ++ noticeFields ++
      [F.MIT_STAT_COUNT, F.MIT_STAT_OVF, F.CTR_VAL_COUNT, F.CTR_VAL_OVF, V.SEAM_DOWN, V.PLANE_WITHDRAWN, V.PKT_UID, V.RAISED]
    (∀ (a : Nat) (b : Nat) (s t : State), exec (.seamDown a b) s = .next t → s.writes ps fs t)) ∧
  (
    let ps : List Part := []
    let fs : List Fld := [F.LNK_PORT_STAT_STATE, F.LNK_PORT_STAT_LANES]
    (∀ (q : Nat) (port : Nat) (s t : State), exec (.linkDownHoldEnd q port) s = .next t → s.writes ps fs t)) ∧
  (
    let ps : List Part := []
    let fs : List Fld := [F.LNK_PORT_STAT_STATE, F.LNK_PORT_STAT_RATE, F.LNK_PORT_STAT_LANES, F.LNK_PORT_STAT_RX_BAD, F.LNK_PORT_STAT_PEER_RX_OK,
      F.LNK_LANE_CTLE, F.LNK_LANE_BAD, V.LNK_OWN_BAD, V.LNK_PEER_BAD, V.LNK_ATTEMPT, V.LNK_SLOT, V.LNK_LOST_BOUND, V.RX_CW,
      V.RX_LEFT, V.RX_LCF_BAD, V.RX_CW_RUN, V.RX_LCF_RUN, V.RX_OK_RUN]
    (∀ (q : Nat) (port : Nat) (lanes : Nat) (s t : State), exec (.linkSignalDetect q port lanes) s = .next t → s.writes ps fs t)) ∧
  (
    let ps : List Part := [.out, .free]
    let fs : List Fld := [F.LNK_PORT_STAT_STATE, F.LNK_LANE_CTLE, F.LNK_LANE_POL, V.LNK_COUNTDOWN, V.TX_TIME, V.TX_BASE, V.TX_NEXT, V.LCF_CMD,
      V.QUIET_FRAMES]
    (∀ (q : Nat) (port : Nat) (s t : State), exec (.linkTrainEnd q port) s = .next t → s.writes ps fs t)) ∧
  (
    let ps : List Part := [.mitEgress, .notices]
    let fs : List Fld := [F.MIT_STAT_COUNT, F.MIT_STAT_OVF, F.COR_PORT_OPEN, F.LNK_PORT_STAT_STATE, F.LNK_PORT_STAT_LANES, F.LNK_PORT_STAT_RX_BAD,
      F.LNK_LANE_BAD, F.CTR_VAL_COUNT, F.CTR_VAL_OVF, V.WITHDRAWN, V.NOTICE_SEQ, V.LNK_SENT, V.LNK_RCVD, V.LNK_LIMIT,
      V.LNK_PEER_LIMIT, V.LNK_OWN_BAD, V.PKT_UID, V.RAISED]
    (∀ (q : Nat) (port : Nat) (s t : State), exec (.linkAlignDone q port) s = .next t → s.writes ps fs t)) ∧
  (
    let ps : List Part := [.staging, .bufs, .reasm, .svc, .mitEgress, .errDue]
    let fs : List Fld := errFields ++ packetFields ++ portFields ++
      [F.LNK_PORT_STAT_RATE, F.LNK_PORT_STAT_RX_BAD, F.LNK_LANE_CTLE, F.LNK_LANE_BAD, F.CTR_VAL_COUNT, F.CTR_VAL_OVF,
       V.LNK_OWN_BAD, V.LNK_PEER_BAD, V.LNK_ATTEMPT, V.LNK_SLOT, V.RAISED]
    (∀ (q : Nat) (port : Nat) (s t : State), exec (.linkAttemptTimeout q port) s = .next t → s.writes ps fs t)) ∧
  (
    let ps : List Part := [.out]
    let fs : List Fld := [F.LNK_PORT_STAT_LANES, V.LNK_SLOT, V.LNK_COUNTDOWN, V.LNK_LOST_BOUND, V.TX_TIME, V.TX_BASE, V.TX_NEXT, V.LCF_CMD, V.RX_CW,
      V.RX_LEFT, V.RX_LCF_BAD, V.RX_CW_RUN, V.RX_LCF_RUN, V.RX_OK_RUN, V.QUIET_FRAMES]
    (∀ (q : Nat) (port : Nat) (s t : State), exec (.linkX2SlotEnd q port) s = .next t → s.writes ps fs t)) ∧
  (
    let ps : List Part := []
    let fs : List Fld := [F.LNK_PORT_STAT_STATE, F.LNK_PORT_STAT_PEER_RX_OK]
    (∀ (q : Nat) (port : Nat) (s t : State), exec (.linkRetrainTimeout q port) s = .next t → s.writes ps fs t)) ∧
  (
    let ps : List Part := [.staging, .bufs, .reasm, .svc, .mitEgress, .errDue, .out]
    let fs : List Fld := errFields ++ writeFields ++ packetFields ++ portFields ++
      [F.LNK_PORT_STAT_RX_BAD, F.LNK_PORT_STAT_RETRAINS, F.LNK_PORT_ERR_LCF_BAD, F.LNK_LANE_BAD, F.CTR_VAL_COUNT,
       F.CTR_VAL_OVF, V.LNK_PEER_LIMIT, V.LNK_OWN_BAD, V.LNK_PEER_BAD, V.LNK_SLOT, V.LNK_KEEP, V.LNK_RETRAIN1, V.LNK_RETRAIN2,
       V.LNK_PEER_STATE, V.LNK_PEER_LANES, V.LNK_PEER_CTDN, V.LNK_PRBS, V.LCF_CMD, V.UCW_COUNT, V.RAISED, V.LNK_CTDN_U]
    (∀ (q : Nat) (port : Nat) (flit : BitVec 512) (s t : State), exec (.lcfReceive q port flit) s = .next t → s.writes ps fs t)) ∧
  (
    let ps : List Part := [.errDue]
    let fs : List Fld := errFields ++
      [F.LNK_PORT_ERR_SYNCS, F.CTR_LEG_VAL_COUNT, F.CTR_LEG_VAL_OVF, V.LNK_RCVD, V.LNK_LIMIT, V.RAISED]
    (∀ (q : Nat) (port : Nat) (vc : Nat) (sent : BitVec 16) (s t : State), exec (.syncReq q port vc sent) s = .next t → s.writes ps fs t)) ∧
  (
    let ps : List Part := [.out]
    let fs : List Fld := [F.LNK_PORT_STAT_STATE, V.LNK_QUIET_REQ, V.LCF_CMD, V.QUIET_FRAMES]
    (∀ (q : Nat) (port : Nat) (s t : State), exec (.quiet q port) s = .next t → s.writes ps fs t)) ∧
  (
    let ps : List Part := []
    let fs : List Fld := [F.LNK_PORT_STAT_STATE, V.LNK_QUIET_REQ, V.QUIET_FRAMES]
    (∀ (q : Nat) (port : Nat) (s t : State), exec (.quietAck q port) s = .next t → s.writes ps fs t)) ∧
  (
    let ps : List Part := [.staging, .bufs, .reasm, .svc, .mitEgress, .errDue, .out]
    let fs : List Fld := errFields ++ packetFields ++ portFields ++
      [F.LNK_PORT_STAT_RX_BAD, F.LNK_PORT_STAT_RETRAINS, F.LNK_LANE_BAD, F.CTR_VAL_COUNT, F.CTR_VAL_OVF, V.LNK_OWN_BAD,
       V.LNK_PEER_BAD, V.LNK_SLOT, V.LNK_RETRAIN1, V.LNK_RETRAIN2, V.LNK_PRBS, V.LCF_CMD, V.UCW_COUNT, V.RAISED]
    (∀ (q : Nat) (port : Nat) (s t : State), exec (.retrain q port) s = .next t → s.writes ps fs t) ∧
    (∀ (q : Nat) (port : Nat) (s t : State), exec (.ucwWindow q port) s = .next t → s.writes ps fs t) ∧
    (∀ (q : Nat) (port : Nat) (s t : State), exec (.lcfLoss q port) s = .next t → s.writes ps fs t) ∧
    (∀ (q : Nat) (port : Nat) (value : BitVec 64) (s t : State), exec (.linkRetrainWrite q port value) s = .next t → s.writes ps fs t)) ∧
  (
    let ps : List Part := [.out]
    let fs : List Fld := [V.LNK_QUIET_REQ, V.LCF_CMD]
    (∀ (q : Nat) (port : Nat) (s t : State), exec (.quietIdleExpiry q port) s = .next t → s.writes ps fs t)) ∧
  (
    let ps : List Part := [.out]
    let fs : List Fld := [F.LNK_PORT_STAT_STATE, V.LNK_COUNTDOWN, V.LNK_LOST_BOUND, V.TX_TIME, V.TX_BASE, V.TX_NEXT, V.LCF_CMD, V.RX_CW, V.RX_LEFT,
      V.RX_LCF_BAD, V.RX_CW_RUN, V.RX_LCF_RUN, V.RX_OK_RUN, V.QUIET_FRAMES]
    (∀ (q : Nat) (port : Nat) (s t : State), exec (.linkWake q port) s = .next t → s.writes ps fs t)) ∧
  (
    let ps : List Part := [.out]
    let fs : List Fld := [F.LNK_PORT_STAT_STATE, V.LNK_COUNTDOWN, V.LNK_LOST_BOUND, V.LNK_P2, V.TX_TIME, V.TX_BASE, V.TX_NEXT, V.LCF_CMD, V.RX_CW,
      V.RX_LEFT, V.RX_LCF_BAD, V.RX_CW_RUN, V.RX_LCF_RUN, V.RX_OK_RUN, V.QUIET_FRAMES]
    (∀ (q : Nat) (port : Nat) (s t : State), exec (.peerSignalWake q port) s = .next t → s.writes ps fs t)) ∧
  (
    let ps : List Part := [.staging, .bufs, .reasm, .svc, .errDue]
    let fs : List Fld := errFields ++ writeFields ++
      [F.LNK_PORT_ERR_UCW, F.LNK_LANE_CORR_TOTAL, V.INGRESS_OPEN, V.LNK_LANE_COUNT, V.LNK_LOST_BOUND, V.RX_CW, V.RX_LEFT,
       V.RX_LCF_BAD, V.RX_CW_RUN, V.UCW_COUNT, V.RAISED]
    (∀ (q : Nat) (port : Nat) (l0 : BitVec 1360) (l1 : BitVec 1360) (l2 : BitVec 1360) (l3 : BitVec 1360) (s t : State), exec (.codewordDecode q port l0 l1 l2 l3) s = .next t → s.writes ps fs t)) ∧
  (
    let ps : List Part := [.out]
    let fs : List Fld := [V.LCF_CMD]
    (∀ (q : Nat) (port : Nat) (vc : Nat) (s t : State), exec (.creditStarve q port vc) s = .next t → s.writes ps fs t)) ∧
  (
    let ps : List Part := [.staging, .bufs, .reasm, .svc, .mitEgress, .errDue, .out]
    let fs : List Fld := errFields ++ writeFields ++ packetFields ++ portFields ++
      [F.LNK_PORT_STAT_RX_BAD, F.LNK_PORT_STAT_RETRAINS, F.LNK_LANE_BAD, F.LNK_LANE_CORR_LAST, F.CTR_VAL_COUNT, F.CTR_VAL_OVF,
       V.LNK_OWN_BAD, V.LNK_PEER_BAD, V.LNK_SLOT, V.LNK_KEEP, V.LNK_LANE_COUNT, V.LNK_RETRAIN1, V.LNK_RETRAIN2, V.LNK_PRBS,
       V.LCF_CMD, V.UCW_COUNT, V.RAISED, V.LNK_CTDN_U]
    (∀ (q : Nat) (port : Nat) (s t : State), exec (.laneErrorWindow q port) s = .next t → s.writes ps fs t)) ∧
  (
    let ps : List Part := [.errDue, .out]
    let fs : List Fld := errFields ++
      [F.LNK_PORT_STAT_LANES, F.LNK_PORT_STAT_DEGRADES, V.LNK_COUNTDOWN, V.LNK_PEER_CTDN, V.TX_TIME, V.TX_BASE, V.TX_NEXT,
       V.LCF_CMD, V.RAISED, V.QUIET_FRAMES]
    (∀ (q : Nat) (port : Nat) (s t : State), exec (.degradeSwitch q port) s = .next t → s.writes ps fs t)) ∧
  (
    let ps : List Part := [.staging, .bufs, .reasm, .svc, .mitEgress, .errDue]
    let fs : List Fld := errFields ++ packetFields ++ portFields ++
      [F.LNK_PORT_CTL_EN, F.CTR_VAL_COUNT, F.CTR_VAL_OVF, V.RAISED, V.HOST_W]
    (∀ (q : Nat) (port : Nat) (value : BitVec 64) (s t : State), exec (.linkEnWrite q port value) s = .next t → s.writes ps fs t)) ∧
  (
    let ps : List Part := []
    let fs : List Fld := [F.LNK_INJ_PORT, F.LNK_INJ_LANE, F.LNK_INJ_KIND, F.ERR_INJ_STAT_ARMED, F.ERR_INJ_STAT_REFUSED, V.INJ_KIND, V.INJ_DET,
      V.INJ_QUAD, V.INJ_PART, V.INJ_TARGET, V.RAISED]
    (∀ (q : Nat) (value : BitVec 64) (s t : State), exec (.linkInject q value) s = .next t → s.writes ps fs t)) ∧
  (
    let ps : List Part := [.out]
    let fs : List Fld := [V.LNK_COUNTDOWN, V.LNK_PRBS, V.TX_TIME, V.TX_BASE, V.TX_NEXT, V.LCF_CMD, V.QUIET_FRAMES]
    (∀ (q : Nat) (port : Nat) (s t : State), exec (.retrainPrbsEnd q port) s = .next t → s.writes ps fs t))

/-- Frame of the commands of the switch core: what each leaves unchanged. -/
def Obligations.SwitchFrame : Prop :=
  (
    let ps : List Part := [.hbm, .badSectors, .staging, .svc, .mitEgress, .out]
    let fs : List Fld := ctrFields ++ writeFields ++ packetFields ++ vectorFields ++ hostFields ++
      [F.COR_MIR_PTR_PROD, F.COR_MIR_STAT_TAKEN, F.COR_MIR_STAT_LOST, V.RTR_PKT_IN, V.RTR_FLIT_IN, V.MIR_COUNT, V.MIR_SEQ,
       V.INGRESS_OPEN, V.MIR_VEC_TIME, V.MIR_VEC_DUE, V.LNK_RCVD, V.LNK_LIMIT, V.LNK_LOST_BOUND, V.INGRESS_UID, V.HDR_NS]
    (∀ (q : Nat) (port : Nat) (pkt : Packet) (s t : State), exec (.packetHeaderArrival q port pkt) s = .next t → s.writes ps fs t)) ∧
  (
    let ps : List Part := [.reasm, .mitEgress]
    let fs : List Fld := [F.XPT_DISC_COUNT, F.XPT_DISC_OVF, F.CTR_VAL_COUNT, F.CTR_VAL_OVF, F.CTR_LEG_VAL_COUNT, F.CTR_LEG_VAL_OVF, V.RTR_DISC,
      V.INJ_STOP, V.RAISED]
    (∀ (q : Nat) (port : Nat) (s t : State), exec (.ageExpiry q port) s = .next t → s.writes ps fs t)) ∧
  (
    let ps : List Part := [.hbm, .badSectors, .staging, .bufs, .reasm, .svc, .mitEgress, .parkQ, .movCmds, .mit, .notices,
      .slots, .slab, .waits, .admMsgs, .pagerOp, .insts, .cqWait, .psBuf, .handoffs, .upd, .errDue, .out]
    let bs : List Block := [.knt, .xpt, .ldg, .slt, .arb, .seq, .upd, .grm, .mit, .cor, .lnk, .prk, .mov, .tray, .hat, .pci,
      .ctrm, .ctr, .err, .knit, .transport, .ledger, .slots, .programs, .update, .gram, .mitten, .switch, .link, .memory,
      .mover, .trayCtl, .people, .power, .security, .host, .observe, .wheels]
    (∀ (q : Nat) (input : Nat) (s t : State), exec (.bankAdmit q input) s = .next t → s.touches ps bs t)) ∧
  (
    let ps : List Part := [.hbm, .badSectors, .staging, .bufs, .reasm, .svc, .out]
    let fs : List Fld := ctrFields ++ writeFields ++ packetFields ++ vectorFields ++ hostFields ++
      [F.COR_MIR_PTR_PROD, F.COR_MIR_STAT_TAKEN, F.COR_MIR_STAT_LOST, V.ROUND_PTR, V.DEFICIT, V.MIR_COUNT, V.MIR_SEQ,
       V.MIR_VEC_TIME, V.MIR_VEC_DUE, V.LNK_RCVD, V.E2E_INJ]
    (∀ (q : Nat) (output : Nat) (bank : Nat) (s t : State), exec (.egressStreamStart q output bank) s = .next t → s.writes ps fs t)) ∧
  (
    let ps : List Part := [.hbm, .badSectors, .staging, .reasm, .mitEgress, .psBuf, .out]
    let fs : List Fld := ctrFields ++ writeFields ++ packetFields ++ vectorFields ++ hostFields ++
      [F.COR_MIR_PTR_PROD, F.COR_MIR_STAT_TAKEN, F.COR_MIR_STAT_LOST, F.CTR_PS_STAT_WRAPPED, V.RTR_PKT_OUT, V.RTR_FLIT_OUT,
       V.MIR_COUNT, V.MIR_SEQ, V.INJ_STOP, V.PS_COUNT, V.MIR_VEC_TIME, V.MIR_VEC_DUE, V.LNK_SENT, V.TX_NEXT, V.TX_FIRST,
       V.TX_PART, V.TX_RESEND]
    (∀ (q : Nat) (output : Nat) (s t : State), exec (.packetRelease q output) s = .next t → s.writes ps fs t)) ∧
  (
    let ps : List Part := [.mitEgress, .notices]
    let fs : List Fld := [F.MIT_STAT_COUNT, F.MIT_STAT_OVF, F.COR_PORT_OPEN, F.COR_PORT_FLUSHING, F.CTR_VAL_COUNT, F.CTR_VAL_OVF, V.WITHDRAWN,
      V.NOTICE_SEQ, V.PKT_UID, V.RAISED]
    (∀ (q : Nat) (port : Nat) (s t : State), exec (.flushEnd q port) s = .next t → s.writes ps fs t)) ∧
  (
    let ps : List Part := []
    let fs : List Fld := [V.UPDEPTH]
    (∀ (q : Nat) (s t : State), exec (.depthBroadcast q) s = .next t → s.writes ps fs t)) ∧
  (
    let ps : List Part := []
    let fs : List Fld := [F.COR_MIR_CTL_EN, F.COR_MIR_CTL_PORT, F.COR_MIR_CTL_DIR, F.COR_MIR_CTL_CLASSES, F.COR_MIR_CTL_K, F.COR_MIR_CTL_DEST,
      F.COR_MIR_CTL_PART, F.COR_MIR_CTL_RANK, F.COR_MIR_CTL_LOG2SIZE, F.COR_MIR_CTL_VECTOR, V.MIR_COUNT]
    (∀ (q : Nat) (session : Nat) (value : BitVec 64) (s t : State), exec (.mirCtlWrite q session value) s = .next t → s.writes ps fs t)) ∧
  (
    let ps : List Part := []
    let fs : List Fld := [F.COR_BUF_LOW]
    (∀ (q : Nat) (s t : State), exec (.lowClr q) s = .next t → s.writes ps fs t)) ∧
  (
    let ps : List Part := []
    let fs : List Fld := [F.COR_QDEPTH_PEAK]
    (∀ (q : Nat) (output : Nat) (cls : Nat) (s t : State), exec (.peakClr q output cls) s = .next t → s.writes ps fs t))

/-- Frame of the commands of knit loads and commits: what each leaves unchanged. -/
def Obligations.KnitFrame : Prop :=
  (
    let ps : List Part := [.mitEgress, .mit, .notices, .errDue, .out]
    let fs : List Fld := ctrFields ++ errFields ++ writeFields ++ packetFields ++ hostFields ++ roundFields ++ knitFields ++
      [F.KNT_STATUS_REFUSED, V.MSIX_PEND, V.WITHDRAWN, V.NOTICE_SEQ]
    (∀ (fn : Nat) (s t : State), exec (.knitLoad fn) s = .next t → s.writes ps fs t)) ∧
  (
    let ps : List Part := [.mitEgress, .mit, .notices, .errDue, .out]
    let fs : List Fld := ctrFields ++ errFields ++ writeFields ++ packetFields ++ roundFields ++ knitFields ++
      [V.MSIX_PEND, V.WITHDRAWN, V.NOTICE_SEQ]
    (∀ (fn : Nat) (s t : State), exec (.knitAbort fn) s = .next t → s.writes ps fs t) ∧
    (∀ (fn : Nat) (s t : State), exec (.knitCommit fn) s = .next t → s.writes ps fs t) ∧
    (∀ (s t : State), exec .quietTimeout s = .next t → s.writes ps fs t) ∧
    (∀ (s t : State), exec .voteCommitTimeout s = .next t → s.writes ps fs t) ∧
    (∀ (s t : State), exec .borderDrainTimeout s = .next t → s.writes ps fs t)) ∧
  (
    let ps : List Part := [.img, .hbm, .badSectors, .mitEgress, .mit, .notices, .errDue, .out]
    let fs : List Fld := ctrFields ++ errFields ++ writeFields ++ packetFields ++ hostFields ++ aerFields ++ roundFields ++ noticeFields ++ knitFields ++ busFields ++ fetchFields ++
      [F.XPT_EPOCH_STAMP, F.XPT_EPOCH_VALID_A, F.XPT_EPOCH_VALID_B, F.MOV_CH_STAT_STATE, F.MOV_CH_STAT_STATUS,
       F.SEC_KEY_KEY_GEN, F.SEC_KEY_VALID, V.MSIX_PEND, V.EXPORT_KEY, V.MOV_TO_ERR, V.BASE_APPLIED, V.KNT_AREA, V.STEP_LOADED,
       V.INJ_NOW, V.PS_WAIT, V.MOV_WAITC, V.KNT_PAGE, V.KNT_HDR]
    (∀ (file : List Byte) (s t : State), exec (.knitFetchComplete file) s = .next t → s.writes ps fs t)) ∧
  (
    let ps : List Part := [.img, .hbm, .badSectors, .staging, .bufs, .reasm, .svc, .mitEgress, .parkQ, .movCmds, .mit,
      .notices, .slots, .slab, .waits, .admMsgs, .pagerOp, .insts, .cqWait, .handoffs, .upd, .errDue, .out]
    let bs : List Block := [.knt, .xpt, .ldg, .slt, .arb, .seq, .upd, .grm, .mit, .cor, .lnk, .hbm, .prk, .mov, .tray, .hat,
      .sec, .pci, .ctrm, .ctr, .err, .knit, .transport, .ledger, .slots, .programs, .update, .gram, .mitten, .switch, .link,
      .memory, .mover, .power, .security, .host, .observe, .wheels]
    (∀ (s t : State), exec .groupCommit s = .next t → s.touches ps bs t)) ∧
  (
    let ps : List Part := [.img, .mitEgress, .mit, .notices, .errDue, .out]
    let fs : List Fld := ctrFields ++ errFields ++ writeFields ++ packetFields ++ roundFields ++ noticeFields ++ knitFields ++
      [F.KNT_STATUS_RESYNC, F.XPT_EPOCH_STAMP, F.XPT_EPOCH_VALID_A, F.XPT_EPOCH_VALID_B, F.SEC_KEY_KEY_GEN, F.SEC_KEY_VALID,
       V.MSIX_PEND, V.EXPORT_KEY, V.KNT_COPY, V.KNT_COPY_FN, V.STEP_LOADED]
    (∀ (s t : State), exec .resyncEnd s = .next t → s.writes ps fs t)) ∧
  (
    let ps : List Part := [.img, .mitEgress, .mit, .notices, .errDue, .out]
    let fs : List Fld := ctrFields ++ errFields ++ writeFields ++ packetFields ++ roundFields ++ noticeFields ++ knitFields ++
      [F.XPT_EPOCH_STAMP, F.XPT_EPOCH_VALID_A, F.XPT_EPOCH_VALID_B, V.MSIX_PEND]
    (∀ (s t : State), exec .knitVoteResult s = .next t → s.writes ps fs t)) ∧
  (
    let ps : List Part := [.hbm, .badSectors]
    let fs : List Fld := [V.ZERO_BUSERR, V.KNT_WAIT, V.KNT_TRIES, V.ZERO_LOST]
    (∀ (s t : State), exec .borderDrainEnd s = .next t → s.writes ps fs t)) ∧
  (
    let ps : List Part := [.img, .hbm, .badSectors, .staging, .bufs, .reasm, .svc, .mitEgress, .mit, .notices, .slots, .cqWait,
      .errDue, .out]
    let bs : List Block := [.knt, .xpt, .ldg, .seq, .upd, .mit, .cor, .lnk, .hbm, .tray, .sec, .pci, .ctrm, .ctr, .err, .knit,
      .transport, .programs, .update, .mitten, .switch, .link, .memory, .mover, .power, .security, .host, .observe, .wheels]
    (∀ (mismatch : List (Nat × Nat)) (s t : State), exec (.borderZeroizeEnd mismatch) s = .next t → s.touches ps bs t)) ∧
  (
    let ps : List Part := [.img, .hbm, .badSectors, .staging, .mitEgress, .mit, .notices, .slots, .cqWait, .errDue, .out]
    let fs : List Fld := ctrFields ++ errFields ++ writeFields ++ readFields ++ packetFields ++ vectorFields ++ hostFields ++ recordFields ++ roundFields ++ noticeFields ++ knitFields ++
      [F.KNT_STATUS_RESYNC, F.XPT_CTL_AGE_LIMIT, F.XPT_POD_X, F.XPT_POD_Y, F.XPT_POD_PLANE, F.XPT_EPOCH_STAMP,
       F.XPT_EPOCH_VALID_A, F.XPT_EPOCH_VALID_B, F.XPT_EPOCH_FLIPS, F.LDG_PART_CTL_OVF_POLICY, F.LDG_PART_CTL_INV_POLICY,
       F.LDG_PART_CTL_SR_EN, F.SEQ_RING_CTL_ERR, F.SEQ_STEP_ARMED, F.SEQ_SLOW_RANK, F.SEQ_SLOW_VALID, F.SEQ_SLOW_LAST,
       F.UPD_PART_T_T, F.MIT_CTX_ROLE, F.HBM_EXTENT_LOST, F.HBM_EXTENT_REMAPPING, F.HBM_EXTENT_REMAPPED, F.TRY_ALERT_ALERT_W,
       F.TRY_ALERT_ALERT_THR, F.TRY_ALERT_ALERT_LEVEL, F.SEC_LC_ZEROIZED, F.SEC_KEY_KEY_GEN, F.SEC_KEY_VALID, V.FLIP_NS,
       V.CLIP_KNOWN, V.EXPORT_KEY, V.BASE_APPLIED, V.BASE_SERIAL, V.KNT_COPY, V.KNT_COPY_FN, V.EXT_DEAD, V.STEP_LOADED,
       V.MANIFEST, V.HEAD_CYC, V.SLOT_LENT, V.SEL_NEXT, V.RWK_OLD]
    (∀ (p : Nat) (s t : State), exec (.epochFlip p) s = .next t → s.writes ps fs t)) ∧
  (
    let ps : List Part := [.img, .mitEgress, .mit, .notices, .errDue, .out]
    let fs : List Fld := ctrFields ++ errFields ++ writeFields ++ packetFields ++ roundFields ++ noticeFields ++ knitFields ++
      [F.XPT_EPOCH_STAMP, F.XPT_EPOCH_VALID_A, F.XPT_EPOCH_VALID_B, F.SEC_KEY_KEY_GEN, F.SEC_KEY_VALID, V.MSIX_PEND,
       V.EXPORT_KEY, V.STEP_LOADED]
    (∀ (p : Nat) (s t : State), exec (.epochRetire p) s = .next t → s.writes ps fs t))

/-- Frame of the commands of the reduction slots: what each leaves unchanged. -/
def Obligations.SlotFrame : Prop :=
  (
    let ps : List Part := [.hbm, .badSectors, .staging, .bufs, .reasm, .svc, .mitEgress, .parkQ, .movCmds, .mit, .notices,
      .slots, .slab, .waits, .admMsgs, .pagerOp, .insts, .trigOps, .cqWait, .psBuf, .handoffs, .upd, .errDue, .out]
    let bs : List Block := [.knt, .xpt, .ldg, .slt, .arb, .seq, .upd, .grm, .mit, .cor, .lnk, .prk, .mov, .tray, .hat, .pci,
      .ctrm, .ctr, .err, .knit, .transport, .ledger, .slots, .programs, .update, .gram, .mitten, .switch, .link, .memory,
      .mover, .trayCtl, .power, .security, .host, .observe, .wheels]
    (∀ (q : Nat) (pkt : Packet) (s t : State), exec (.contrib q pkt) s = .next t → s.touches ps bs t) ∧
    (∀ (q : Nat) (p : Nat) (coll : Nat) (step : Nat) (chunk : Nat) (s t : State), exec (.tier0Partial q p coll step chunk) s = .next t → s.touches ps bs t) ∧
    (∀ (q : Nat) (pkt : Packet) (s t : State), exec (.partialReceive q pkt) s = .next t → s.touches ps bs t)) ∧
  (
    let ps : List Part := [.slots, .slab, .admMsgs]
    let fs : List Fld := writeFields ++
      [F.SLT_EVENT_COUNT, F.SLT_EVENT_OVF, F.CTR_VAL_COUNT, F.CTR_VAL_OVF, V.RAISED, V.SLOT_SEQ]
    (∀ (q : Nat) (p : Nat) (coll : Nat) (step : Nat) (chunk : Nat) (s t : State), exec (.admissionRequest q p coll step chunk) s = .next t → s.writes ps fs t)) ∧
  (
    let ps : List Part := [.hbm, .badSectors, .staging, .slots, .slab, .waits, .admMsgs, .insts, .trigOps, .cqWait, .handoffs,
      .errDue, .out]
    let fs : List Fld := ctrFields ++ errFields ++ writeFields ++ packetFields ++ vectorFields ++ hostFields ++ recordFields ++ flagFields ++ slotFields ++
      [F.SLT_PART_USE_LAST_DEFER, V.PS_COUNT, V.PS_REC, V.PS_BEG, V.PS_WAIT, V.SLOT_SEQ, V.INST_SEQ, V.INST_FIRST]
    (∀ (q : Nat) (p : Nat) (coll : Nat) (step : Nat) (chunk : Nat) (granted : Bool) (s t : State), exec (.admissionReply q p coll step chunk granted) s = .next t → s.writes ps fs t)) ∧
  (
    let ps : List Part := [.hbm, .badSectors, .staging, .mitEgress, .mit, .slots, .insts, .trigOps, .cqWait, .handoffs,
      .errDue, .out]
    let fs : List Fld := ctrFields ++ errFields ++ writeFields ++ packetFields ++ vectorFields ++ hostFields ++ recordFields ++ unitFields ++ roundFields ++ flagFields ++
      [F.UPD_PART_STEP_STATE, V.PS_COUNT, V.TRIG_CTR, V.TRIG_WORD, V.STEPFLG_OVF, V.STEPFLG_INV, V.STEPFLG_SET, V.STEPFLG_COLL,
       V.STEPFLG_CHUNK, V.STEPFLG_KIND, V.STEP_TIMER, V.PS_REC, V.PS_BEG, V.PS_WAIT, V.INST_SEQ, V.INST_FIRST]
    (∀ (q : Nat) (p : Nat) (coll : Nat) (step : Nat) (chunk : Nat) (s t : State), exec (.slotReadoutComplete q p coll step chunk) s = .next t → s.writes ps fs t)) ∧
  (
    let ps : List Part := [.hbm, .badSectors, .staging, .slots, .slab, .waits, .insts, .trigOps, .cqWait, .handoffs, .errDue,
      .out]
    let fs : List Fld := ctrFields ++ errFields ++ writeFields ++ packetFields ++ vectorFields ++ hostFields ++ recordFields ++ flagFields ++ slotFields ++
      [V.PS_COUNT, V.PS_REC, V.PS_BEG, V.PS_WAIT, V.INST_SEQ, V.INST_FIRST]
    (∀ (q : Nat) (p : Nat) (coll : Nat) (step : Nat) (chunk : Nat) (s t : State), exec (.partialDelivered q p coll step chunk) s = .next t → s.writes ps fs t)) ∧
  (
    let ps : List Part := [.hbm, .badSectors, .staging, .svc, .slots, .slab, .waits, .insts, .trigOps, .cqWait, .handoffs,
      .errDue, .out]
    let fs : List Fld := ctrFields ++ errFields ++ writeFields ++ packetFields ++ vectorFields ++ hostFields ++ recordFields ++ flagFields ++ slotFields ++
      [V.PS_COUNT, V.E2E_INJ, V.PS_REC, V.PS_BEG, V.PS_WAIT, V.INST_SEQ, V.INST_FIRST]
    (∀ (q : Nat) (pkt : Packet) (s t : State), exec (.resultFromRack q pkt) s = .next t → s.writes ps fs t) ∧
    (∀ (q : Nat) (pkt : Packet) (s t : State), exec (.publishFromRack q pkt) s = .next t → s.writes ps fs t)) ∧
  (
    let ps : List Part := [.hbm, .badSectors, .slots, .pagerOp]
    let fs : List Fld := writeFields ++ unitFields ++
      [F.SLT_EVENT_COUNT, F.SLT_EVENT_OVF, F.CTR_VAL_COUNT, F.CTR_VAL_OVF, V.RAISED, V.HBM_REQ]
    (∀ (q : Nat) (p : Nat) (s t : State), exec (.pagerSpill q p) s = .next t → s.writes ps fs t)) ∧
  (
    let ps : List Part := [.slots, .slab, .pagerOp, .insts, .errDue]
    let fs : List Fld := errFields ++ readFields ++ unitFields ++
      [F.SLT_EVENT_COUNT, F.SLT_EVENT_OVF, F.CTR_VAL_COUNT, F.CTR_VAL_OVF, V.RAISED, V.ABORT_DUE, V.HBM_REQ]
    (∀ (q : Nat) (p : Nat) (s t : State), exec (.pagerRecall q p) s = .next t → s.writes ps fs t)) ∧
  (
    let ps : List Part := [.hbm, .badSectors, .slots, .slab, .pagerOp, .insts, .errDue]
    let fs : List Fld := errFields ++ writeFields ++ readFields ++ unitFields ++
      [F.SLT_EVENT_COUNT, F.SLT_EVENT_OVF, F.CTR_VAL_COUNT, F.CTR_VAL_OVF, V.RAISED, V.ABORT_DUE, V.HBM_REQ]
    (∀ (q : Nat) (p : Nat) (s t : State), exec (.pagerSwap q p) s = .next t → s.writes ps fs t)) ∧
  (
    let ps : List Part := [.hbm, .badSectors, .staging, .slots, .slab, .waits, .pagerOp, .insts, .trigOps, .cqWait, .handoffs,
      .errDue, .out]
    let fs : List Fld := ctrFields ++ errFields ++ writeFields ++ packetFields ++ vectorFields ++ hostFields ++ recordFields ++ flagFields ++ slotFields ++
      [V.PS_COUNT, V.PS_REC, V.PS_BEG, V.PS_WAIT, V.INST_SEQ, V.INST_FIRST]
    (∀ (q : Nat) (s t : State), exec (.pagerOpComplete q) s = .next t → s.writes ps fs t)) ∧
  (
    let ps : List Part := []
    let fs : List Fld := [F.SLT_SWEEP_ACTIVE]
    (∀ (p : Nat) (s t : State), exec (.sweepEnd p) s = .next t → s.writes ps fs t)) ∧
  (
    let ps : List Part := [.insts, .errDue]
    let fs : List Fld := errFields ++ writeFields ++ busFields ++
      [F.ARB_SLAB_LOG_BANK, F.ARB_SLAB_LOG_PORT, F.ARB_SLAB_LOG_REQ, F.ARB_SLAB_LOG_VALID, F.ARB_SLAB_LOG_FIRES,
       F.MOV_CH_STAT_STATE, F.MOV_CH_STAT_STATUS, F.CTR_VAL_COUNT, F.CTR_VAL_OVF, V.ENGINE_FAULT, V.MOV_TO_ERR, V.PS_WAIT,
       V.MOV_WAITC, V.RAISED, V.ABORT_DUE]
    (∀ (q : Nat) (bank : Nat) (port : Nat) (req : Nat) (busy : List (Nat × Nat × Nat × Nat)) (s t : State), exec (.slabLockTimeout q bank port req busy) s = .next t → s.writes ps fs t))

/-- Frame of the commands of the collective sequencer: what each leaves unchanged. -/
def Obligations.SeqFrame : Prop :=
  (
    let ps : List Part := [.hbm, .badSectors, .staging, .slots, .slab, .waits, .insts, .trigOps, .cqWait, .handoffs, .upd,
      .errDue, .out]
    let fs : List Fld := ctrFields ++ errFields ++ writeFields ++ readFields ++ packetFields ++ vectorFields ++ hostFields ++ recordFields ++ flagFields ++ slotFields ++ failFields ++
      [F.UPD_STAT_COUNT, F.UPD_STAT_OVF, F.UPD_FAULT_LOST, F.UPD_FAULT_PART, F.UPD_FAULT_SHARD, V.PS_COUNT, V.SHARD_LOST,
       V.PS_REC, V.PS_BEG, V.PS_WAIT, V.INST_SEQ, V.INST_FIRST, V.HBM_REQ]
    (∀ (p : Nat) (coll : Nat) (step : Nat) (s t : State), exec (.resultResendTimer p coll step) s = .next t → s.writes ps fs t)) ∧
  (
    let ps : List Part := [.staging, .svc, .errDue]
    let fs : List Fld := errFields ++ packetFields ++
      [F.CTR_VAL_COUNT, F.CTR_VAL_OVF, V.E2E_INJ, V.RAISED]
    (∀ (q : Nat) (pkt : Packet) (s t : State), exec (.cnackReceive q pkt) s = .next t → s.writes ps fs t)) ∧
  (
    let ps : List Part := [.hbm, .badSectors, .cqWait, .errDue, .out]
    let fs : List Fld := ctrFields ++ errFields ++ writeFields ++ readFields ++ vectorFields ++ hostFields ++ recordFields ++
      [F.SEQ_RING_CTL_ERR, F.SEQ_RING_CTL_DBERR, F.SEQ_RING_PROD_PROD, V.HEAD_CYC]
    (∀ (q : Nat) (p : Nat) (e : Nat) (prod : BitVec 32) (s t : State), exec (.ringDoorbell q p e prod) s = .next t → s.writes ps fs t)) ∧
  (
    let ps : List Part := [.hbm, .badSectors, .staging, .svc, .cqWait, .errDue, .out]
    let fs : List Fld := ctrFields ++ errFields ++ writeFields ++ readFields ++ packetFields ++ vectorFields ++ hostFields ++ recordFields ++
      [F.SEQ_RING_CTL_ERR, F.SEQ_RING_CTL_DBERR, F.SEQ_RING_PROD_PROD, V.E2E_INJ, V.HEAD_CYC]
    (∀ (q : Nat) (pkt : Packet) (s t : State), exec (.doorbell q pkt) s = .next t → s.writes ps fs t)) ∧
  (
    let ps : List Part := [.hbm, .badSectors, .cqWait, .errDue, .out]
    let fs : List Fld := ctrFields ++ errFields ++ writeFields ++ readFields ++ vectorFields ++ hostFields ++ recordFields ++
      [F.SEQ_RING_CTL_ERR, V.HEAD_CYC]
    (∀ (q : Nat) (p : Nat) (e : Nat) (s t : State), exec (.ringErrClear q p e) s = .next t → s.writes ps fs t)) ∧
  (
    let ps : List Part := [.hbm, .badSectors, .trigOps, .cqWait, .out]
    let fs : List Fld := ctrFields ++ writeFields ++ vectorFields ++ hostFields ++ recordFields
    (∀ (p : Nat) (k : Nat) (s t : State), exec (.cqRecordWrite p k) s = .next t → s.writes ps fs t)) ∧
  (
    let ps : List Part := [.hbm, .badSectors, .slots, .waits, .insts, .cqWait, .psBuf, .errDue, .out]
    let fs : List Fld := ctrFields ++ errFields ++ sampleFields ++ writeFields ++ readFields ++ vectorFields ++ hostFields ++ recordFields ++
      [F.SEQ_RING_CTL_ERR, F.SEQ_RING_CONS_CONS, V.PS_COUNT, V.HEAD_CYC]
    (∀ (q : Nat) (p : Nat) (entry : BitVec 512) (s t : State), exec (.collective q p entry) s = .next t → s.writes ps fs t)) ∧
  (
    let ps : List Part := [.hbm, .badSectors, .slots, .waits, .insts, .trigOps, .cqWait, .psBuf, .errDue, .out]
    let fs : List Fld := ctrFields ++ errFields ++ sampleFields ++ writeFields ++ readFields ++ vectorFields ++ hostFields ++ recordFields ++
      [F.SEQ_RING_CTL_ERR, F.SEQ_RING_CONS_CONS, F.SEQ_STEP_ARMED, V.PS_COUNT, V.TRIG_CTR, V.TRIG_WORD, V.TRIG_CTX, V.HEAD_CYC]
    (∀ (q : Nat) (p : Nat) (entry : BitVec 512) (s t : State), exec (.armStep q p entry) s = .next t → s.writes ps fs t)) ∧
  (
    let ps : List Part := [.hbm, .badSectors, .trigOps, .cqWait, .psBuf, .errDue, .out]
    let fs : List Fld := ctrFields ++ errFields ++ sampleFields ++ writeFields ++ readFields ++ vectorFields ++ hostFields ++ recordFields ++
      [F.SEQ_RING_CTL_ERR, F.SEQ_RING_CONS_CONS, V.PS_COUNT, V.TRIG_CTR, V.TRIG_WORD, V.TRIG_CTX, V.HEAD_CYC]
    (∀ (q : Nat) (p : Nat) (entry : BitVec 512) (s t : State), exec (.trigger q p entry) s = .next t → s.writes ps fs t)) ∧
  (
    let ps : List Part := [.hbm, .badSectors, .trigOps, .cqWait, .psBuf, .errDue, .out]
    let fs : List Fld := ctrFields ++ errFields ++ sampleFields ++ writeFields ++ readFields ++ vectorFields ++ hostFields ++ recordFields ++
      [F.SEQ_RING_CTL_ERR, F.SEQ_RING_CONS_CONS, V.PS_COUNT, V.TRIG_CTR, V.TRIG_WORD, V.HEAD_CYC]
    (∀ (q : Nat) (p : Nat) (entry : BitVec 512) (s t : State), exec (.increment q p entry) s = .next t → s.writes ps fs t)) ∧
  (
    let ps : List Part := [.hbm, .badSectors, .insts, .cqWait, .psBuf, .errDue, .out]
    let fs : List Fld := ctrFields ++ errFields ++ sampleFields ++ writeFields ++ readFields ++ vectorFields ++ hostFields ++ recordFields ++
      [F.SEQ_RING_CTL_ERR, F.SEQ_RING_CONS_CONS, V.PS_COUNT, V.HEAD_CYC, V.ABORT_DUE]
    (∀ (q : Nat) (p : Nat) (entry : BitVec 512) (s t : State), exec (.abortCollective q p entry) s = .next t → s.writes ps fs t)) ∧
  (
    let ps : List Part := [.hbm, .badSectors, .staging, .slots, .slab, .waits, .insts, .trigOps, .cqWait, .handoffs, .errDue,
      .out]
    let fs : List Fld := ctrFields ++ errFields ++ writeFields ++ readFields ++ packetFields ++ vectorFields ++ hostFields ++ recordFields ++ flagFields ++ slotFields ++
      [F.SEQ_RING_CTL_ERR, F.SEQ_RING_CONS_CONS, F.SEQ_STEP_REPLAY, V.PS_COUNT, V.REPLAY_STEP, V.REPLAY_QUAD, V.REPLAY_ENTRY,
       V.PS_REC, V.PS_BEG, V.PS_WAIT, V.HEAD_CYC, V.INST_SEQ, V.INST_FIRST]
    (∀ (q : Nat) (p : Nat) (entry : BitVec 512) (s t : State), exec (.stepReplay q p entry) s = .next t → s.writes ps fs t)) ∧
  (
    let ps : List Part := [.hbm, .badSectors, .cqWait, .psBuf, .out]
    let fs : List Fld := ctrFields ++ sampleFields ++ writeFields ++ vectorFields ++ hostFields ++ recordFields ++
      [F.SEQ_STEP_REPLAY]
    (∀ (p : Nat) (s t : State), exec (.stepReplayEnd p) s = .next t → s.writes ps fs t)) ∧
  (
    let ps : List Part := [.hbm, .badSectors, .cqWait, .psBuf, .errDue, .out]
    let fs : List Fld := ctrFields ++ errFields ++ sampleFields ++ writeFields ++ readFields ++ vectorFields ++ hostFields ++ recordFields ++
      [F.SEQ_RING_CTL_ERR, F.SEQ_RING_CONS_CONS, F.HAT_GATE_GATED, F.HAT_GATE_WARM, F.HAT_GATE_WAKES, V.PS_COUNT, V.WARM_NS,
       V.HEAD_CYC]
    (∀ (q : Nat) (p : Nat) (entry : BitVec 512) (s t : State), exec (.warm q p entry) s = .next t → s.writes ps fs t)) ∧
  (
    let ps : List Part := [.hbm, .badSectors, .staging, .svc, .slots, .slab, .waits, .insts, .trigOps, .cqWait, .handoffs,
      .upd, .errDue, .out]
    let fs : List Fld := ctrFields ++ errFields ++ writeFields ++ packetFields ++ vectorFields ++ hostFields ++ recordFields ++ flagFields ++ slotFields ++ failFields ++
      [F.SEQ_SLOW_BAD_DONE, V.PS_COUNT, V.E2E_INJ, V.PS_REC, V.PS_BEG, V.PS_WAIT, V.INST_SEQ, V.INST_FIRST]
    (∀ (q : Nat) (pkt : Packet) (s t : State), exec (.done q pkt) s = .next t → s.writes ps fs t)) ∧
  (
    let ps : List Part := [.hbm, .badSectors, .staging, .svc, .slots, .slab, .waits, .insts, .trigOps, .cqWait, .handoffs,
      .upd, .errDue, .out]
    let fs : List Fld := ctrFields ++ errFields ++ writeFields ++ readFields ++ packetFields ++ vectorFields ++ hostFields ++ recordFields ++ flagFields ++ slotFields ++ failFields ++
      [F.UPD_STAT_COUNT, F.UPD_STAT_OVF, F.UPD_FAULT_LOST, F.UPD_FAULT_PART, F.UPD_FAULT_SHARD, V.PS_COUNT, V.SHARD_LOST,
       V.E2E_INJ, V.PS_REC, V.PS_BEG, V.PS_WAIT, V.INST_SEQ, V.INST_FIRST, V.HBM_REQ]
    (∀ (q : Nat) (pkt : Packet) (s t : State), exec (.gapNack q pkt) s = .next t → s.writes ps fs t)) ∧
  (
    let ps : List Part := [.insts]
    let fs : List Fld := [V.ABORT_DUE]
    (∀ (p : Nat) (coll : Nat) (step : Nat) (s t : State), exec (.patienceExpiry p coll step) s = .next t → s.writes ps fs t)) ∧
  (
    let ps : List Part := [.hbm, .badSectors, .staging, .slots, .slab, .waits, .insts, .trigOps, .cqWait, .handoffs, .errDue,
      .out]
    let fs : List Fld := ctrFields ++ errFields ++ writeFields ++ packetFields ++ vectorFields ++ hostFields ++ recordFields ++ flagFields ++ slotFields ++
      [V.PS_COUNT, V.PS_REC, V.PS_BEG, V.PS_WAIT, V.INST_SEQ, V.INST_FIRST]
    (∀ (p : Nat) (coll : Nat) (step : Nat) (chunk : Nat) (s t : State), exec (.partialResendTimer p coll step chunk) s = .next t → s.writes ps fs t) ∧
    (∀ (p : Nat) (coll : Nat) (step : Nat) (chunk : Nat) (s t : State), exec (.podHoldExpiry p coll step chunk) s = .next t → s.writes ps fs t)) ∧
  (
    let ps : List Part := []
    let fs : List Fld := [F.SEQ_SLOW_RANK, F.SEQ_SLOW_VALID, F.SEQ_SLOW_LAST, F.SEQ_SLOW_BAD_DONE, V.STRAG_LAST, V.STRAG_LAG_MAX, V.STRAG_LAG_SUM,
      V.STRAG_LAG_OVF]
    (∀ (p : Nat) (s t : State), exec (.stragClear p) s = .next t → s.writes ps fs t))

/-- Frame of the commands of triggered operations: what each leaves unchanged. -/
def Obligations.TrigFrame : Prop :=
  (
    let ps : List Part := [.slots, .insts, .trigOps]
    let fs : List Fld := [V.PS_WAIT]
    (∀ (p : Nat) (n : Nat) (s t : State), exec (.reduceForward p n) s = .next t → s.writes ps fs t)) ∧
  (
    let ps : List Part := [.hbm, .badSectors, .staging, .slots, .slab, .waits, .insts, .trigOps, .cqWait, .handoffs, .errDue,
      .out]
    let fs : List Fld := ctrFields ++ errFields ++ writeFields ++ packetFields ++ vectorFields ++ hostFields ++ recordFields ++ flagFields ++ slotFields ++
      [V.PS_COUNT, V.PS_REC, V.PS_BEG, V.PS_WAIT, V.INST_SEQ, V.INST_FIRST]
    (∀ (p : Nat) (n : Nat) (s t : State), exec (.convertMulticast p n) s = .next t → s.writes ps fs t)) ∧
  (
    let ps : List Part := [.mitEgress, .mit, .insts, .trigOps]
    let fs : List Fld := writeFields ++ packetFields ++ roundFields ++
      [F.UPD_PART_STEP_STATE, F.CTR_VAL_COUNT, F.CTR_VAL_OVF, V.STEPFLG_OVF, V.STEPFLG_INV, V.STEPFLG_SET, V.STEPFLG_COLL,
       V.STEPFLG_CHUNK, V.STEPFLG_KIND, V.NORM_LEDGER, V.NORM_OPS, V.STEP_TIMER, V.PS_WAIT, V.RAISED]
    (∀ (p : Nat) (n : Nat) (s t : State), exec (.normContribute p n) s = .next t → s.writes ps fs t)) ∧
  (
    let ps : List Part := [.trigOps]
    let fs : List Fld := [V.UPD_STARTED, V.PS_WAIT]
    (∀ (p : Nat) (n : Nat) (s t : State), exec (.updateShard p n) s = .next t → s.writes ps fs t)) ∧
  (
    let ps : List Part := [.staging, .insts, .trigOps, .upd, .errDue]
    let fs : List Fld := errFields ++ readFields ++ packetFields ++ flagFields ++ failFields ++
      [F.UPD_STAT_COUNT, F.UPD_STAT_OVF, F.UPD_FAULT_LOST, F.UPD_FAULT_PART, F.UPD_FAULT_SHARD, F.CTR_VAL_COUNT, F.CTR_VAL_OVF,
       V.SHARD_LOST, V.PS_WAIT, V.RAISED, V.INST_SEQ, V.INST_FIRST, V.ABORT_DUE, V.PUB_OVER, V.HBM_REQ]
    (∀ (p : Nat) (n : Nat) (s t : State), exec (.publishOp p n) s = .next t → s.writes ps fs t)) ∧
  (
    let ps : List Part := [.hbm, .badSectors, .staging, .insts, .trigOps, .upd, .errDue]
    let fs : List Fld := errFields ++ writeFields ++ readFields ++ packetFields ++ flagFields ++ failFields ++
      [F.UPD_FAULT_LOST, F.UPD_FAULT_PART, F.UPD_FAULT_SHARD, F.SEC_KEY_EXHAUSTED, F.CTR_VAL_COUNT, F.CTR_VAL_OVF,
       V.SHARD_LOST, V.SNAP_SEQ, V.PS_WAIT, V.RAISED, V.ABORT_DUE, V.HBM_REQ]
    (∀ (p : Nat) (n : Nat) (s t : State), exec (.snapshotOp p n) s = .next t → s.writes ps fs t)) ∧
  (
    let ps : List Part := [.hbm, .badSectors, .trigOps, .cqWait, .out]
    let fs : List Fld := ctrFields ++ writeFields ++ vectorFields ++ hostFields ++ recordFields ++
      [V.PS_WAIT]
    (∀ (p : Nat) (n : Nat) (s t : State), exec (.signalHost p n) s = .next t → s.writes ps fs t)) ∧
  (
    let ps : List Part := [.trigOps]
    let fs : List Fld := [V.PS_COUNT, V.TRIG_CTR, V.TRIG_WORD, V.PS_REC, V.PS_BEG, V.PS_WAIT]
    (∀ (p : Nat) (n : Nat) (s t : State), exec (.incrementOp p n) s = .next t → s.writes ps fs t)) ∧
  (
    let ps : List Part := [.trigOps]
    let fs : List Fld := [V.PS_WAIT]
    (∀ (p : Nat) (n : Nat) (s t : State), exec (.waitEpoch p n) s = .next t → s.writes ps fs t)) ∧
  (
    let ps : List Part := [.trigOps, .psBuf, .errDue]
    let fs : List Fld := errFields ++ sampleFields ++
      [V.PS_COUNT, V.TRIG_CTR, V.TRIG_WORD, V.TRIG_CTX, V.RAISED]
    (∀ (p : Nat) (n : Nat) (s t : State), exec (.triggerOpComplete p n) s = .next t → s.writes ps fs t))

/-- Frame of the commands of the update engine: what each leaves unchanged. -/
def Obligations.UpdateFrame : Prop :=
  (
    let ps : List Part := [.hbm, .badSectors, .staging, .mitEgress, .mit, .slots, .slab, .waits, .insts, .trigOps, .cqWait,
      .handoffs, .upd, .errDue, .out]
    let fs : List Fld := ctrFields ++ errFields ++ writeFields ++ packetFields ++ vectorFields ++ hostFields ++ recordFields ++ roundFields ++ flagFields ++ slotFields ++
      [F.UPD_PART_STEP_STEP_TAG, F.UPD_PART_STEP_STATE, F.UPD_STAT_COUNT, F.UPD_STAT_OVF, F.UPD_FAULT_LOST, F.UPD_FAULT_PART,
       F.UPD_FAULT_SHARD, V.PS_COUNT, V.NORM_LEDGER, V.NORM_OPS, V.STEP_K, V.STEP_TIMER, V.UPD_STARTED, V.UPD_OP_DONE,
       V.SHARD_LOST, V.LAMB_WW, V.LAMB_UU, V.GROUP_READY, V.GROUP_RATIO, V.LEDGER_SAT, V.NONFINITE_SEEN, V.ENDED_STEP,
       V.ENDED_T, V.PS_REC, V.PS_BEG, V.PS_WAIT, V.INST_SEQ, V.INST_FIRST, V.HBM_REQ]
    (∀ (p : Nat) (coll : Nat) (step : Nat) (chunk : Nat) (s t : State), exec (.chunkHandoff p coll step chunk) s = .next t → s.writes ps fs t)) ∧
  (
    let ps : List Part := [.hbm, .badSectors, .staging, .insts, .upd, .errDue]
    let fs : List Fld := errFields ++ writeFields ++ readFields ++ packetFields ++ unitFields ++ flagFields ++ failFields ++
      [F.UPD_STAT_COUNT, F.UPD_STAT_OVF, F.UPD_FAULT_FAULTED, F.UPD_FAULT_LOST, F.UPD_FAULT_PART, F.UPD_FAULT_SHARD,
       F.CTR_VAL_COUNT, F.CTR_VAL_OVF, V.SHARD_LOST, V.RAISED, V.INST_SEQ, V.INST_FIRST, V.ABORT_DUE, V.HBM_REQ]
    (∀ (p : Nat) (shard : Nat) (chunk : Nat) (s t : State), exec (.updatePass p shard chunk) s = .next t → s.writes ps fs t)) ∧
  (
    let ps : List Part := [.hbm, .badSectors, .slots, .insts, .trigOps, .cqWait, .upd, .errDue, .out]
    let fs : List Fld := ctrFields ++ errFields ++ writeFields ++ vectorFields ++ hostFields ++ recordFields ++ flagFields ++ failFields ++
      [F.UPD_PART_T_T, F.UPD_NORM_NORM, F.UPD_CLIP_K, F.UPD_CLIP_STEP_TAG, F.UPD_STAT_COUNT, F.UPD_STAT_OVF, V.PS_COUNT,
       V.TRIG_CTR, V.TRIG_WORD, V.STEP_K, V.CLIP_KNOWN, V.PS_REC, V.PS_BEG, V.PS_WAIT]
    (∀ (p : Nat) (s t : State), exec (.stepDecided p) s = .next t → s.writes ps fs t)) ∧
  (
    let ps : List Part := [.insts, .upd, .errDue]
    let fs : List Fld := errFields ++ flagFields ++ failFields ++
      [V.RAISED, V.ABORT_DUE]
    (∀ (p : Nat) (s t : State), exec (.stepTimerExpiry p) s = .next t → s.writes ps fs t)) ∧
  (
    let ps : List Part := [.insts, .upd, .errDue]
    let fs : List Fld := errFields ++ writeFields ++ flagFields ++ failFields ++
      [F.UPD_FAULT_FAULTED, V.RAISED, V.ABORT_DUE]
    (∀ (q : Nat) (s t : State), exec (.updateProgressTimeout q) s = .next t → s.writes ps fs t)) ∧
  (
    let ps : List Part := [.hbm, .badSectors, .staging, .insts, .cqWait, .psBuf, .upd, .errDue, .out]
    let fs : List Fld := ctrFields ++ errFields ++ sampleFields ++ writeFields ++ readFields ++ packetFields ++ vectorFields ++ hostFields ++ recordFields ++ flagFields ++ failFields ++
      [F.SEQ_RING_CTL_ERR, F.SEQ_RING_CONS_CONS, F.UPD_STAT_COUNT, F.UPD_STAT_OVF, F.UPD_FAULT_LOST, F.UPD_FAULT_PART,
       F.UPD_FAULT_SHARD, V.PS_COUNT, V.SHARD_LOST, V.HEAD_CYC, V.INST_SEQ, V.INST_FIRST, V.ABORT_DUE, V.PUB_OVER, V.HBM_REQ]
    (∀ (q : Nat) (p : Nat) (entry : BitVec 512) (s t : State), exec (.publish q p entry) s = .next t → s.writes ps fs t)) ∧
  (
    let ps : List Part := [.hbm, .badSectors, .staging, .insts, .cqWait, .psBuf, .upd, .errDue, .out]
    let fs : List Fld := ctrFields ++ errFields ++ sampleFields ++ writeFields ++ readFields ++ packetFields ++ vectorFields ++ hostFields ++ recordFields ++ flagFields ++ failFields ++
      [F.SEQ_RING_CTL_ERR, F.SEQ_RING_CONS_CONS, F.UPD_FAULT_LOST, F.UPD_FAULT_PART, F.UPD_FAULT_SHARD, F.SEC_KEY_EXHAUSTED,
       V.PS_COUNT, V.SHARD_LOST, V.SNAP_SEQ, V.HEAD_CYC, V.ABORT_DUE, V.HBM_REQ]
    (∀ (q : Nat) (p : Nat) (entry : BitVec 512) (s t : State), exec (.snapshot q p entry) s = .next t → s.writes ps fs t)) ∧
  (
    let ps : List Part := [.hbm, .badSectors, .cqWait, .psBuf, .errDue, .out]
    let fs : List Fld := ctrFields ++ errFields ++ sampleFields ++ writeFields ++ readFields ++ vectorFields ++ hostFields ++ recordFields ++
      [F.SEQ_RING_CTL_ERR, F.SEQ_RING_CONS_CONS, V.PS_COUNT, V.SHARD_LOST, V.IMPORTED, V.HEAD_CYC, V.HBM_REQ]
    (∀ (q : Nat) (p : Nat) (entry : BitVec 512) (s t : State), exec (.import_ q p entry) s = .next t → s.writes ps fs t)) ∧
  (
    let ps : List Part := [.hbm, .badSectors, .cqWait, .psBuf, .errDue, .out]
    let fs : List Fld := ctrFields ++ errFields ++ sampleFields ++ writeFields ++ readFields ++ vectorFields ++ hostFields ++ recordFields ++
      [F.SEQ_RING_CTL_ERR, F.SEQ_RING_CONS_CONS, F.UPD_PART_T_T, V.PS_COUNT, V.HEAD_CYC]
    (∀ (q : Nat) (p : Nat) (entry : BitVec 512) (s t : State), exec (.setT q p entry) s = .next t → s.writes ps fs t))

/-- Frame of the commands of the Gram engine: what each leaves unchanged. -/
def Obligations.GramFrame : Prop :=
  (
    let ps : List Part := [.hbm, .badSectors, .cqWait, .psBuf, .upd, .errDue, .out]
    let fs : List Fld := ctrFields ++ errFields ++ sampleFields ++ writeFields ++ readFields ++ vectorFields ++ hostFields ++ recordFields ++
      [F.SEQ_RING_CTL_ERR, F.SEQ_RING_CONS_CONS, F.GRM_PART_STATE, F.GRM_PART_OPCODE, F.GRM_PART_TAG, F.GRM_PROG_DONE,
       F.GRM_PROG_TOTAL, F.GRM_STAT_COUNT, F.GRM_STAT_OVF, V.PS_COUNT, V.GRM_ENTRY, V.GRM_ABORT, V.GRM_STEP, V.GRM_NF,
       V.HEAD_CYC, V.GRM_TAINT]
    (∀ (q : Nat) (p : Nat) (entry : BitVec 512) (s t : State), exec (.gramAcc q p entry) s = .next t → s.writes ps fs t) ∧
    (∀ (q : Nat) (p : Nat) (entry : BitVec 512) (s t : State), exec (.matmul q p entry) s = .next t → s.writes ps fs t) ∧
    (∀ (q : Nat) (p : Nat) (entry : BitVec 512) (s t : State), exec (.nsRoot q p entry) s = .next t → s.writes ps fs t) ∧
    (∀ (q : Nat) (p : Nat) (entry : BitVec 512) (s t : State), exec (.nsOrtho q p entry) s = .next t → s.writes ps fs t) ∧
    (∀ (q : Nat) (p : Nat) (entry : BitVec 512) (s t : State), exec (.apply q p entry) s = .next t → s.writes ps fs t)) ∧
  (
    let ps : List Part := [.hbm, .badSectors, .cqWait, .psBuf, .upd, .errDue, .out]
    let fs : List Fld := ctrFields ++ errFields ++ sampleFields ++ writeFields ++ readFields ++ vectorFields ++ hostFields ++ recordFields ++
      [F.SEQ_RING_CTL_ERR, F.SEQ_RING_CONS_CONS, F.GRM_PART_STATE, F.GRM_PROG_DONE, F.GRM_PROG_TOTAL, F.GRM_STAT_COUNT,
       F.GRM_STAT_OVF, V.PS_COUNT, V.GRM_ENTRY, V.GRM_ABORT, V.GRM_STEP, V.GRM_NF, V.HEAD_CYC, V.GRM_TAINT]
    (∀ (q : Nat) (p : Nat) (s t : State), exec (.gramWaitRelease q p) s = .next t → s.writes ps fs t)) ∧
  (
    let ps : List Part := [.hbm, .badSectors, .staging, .bufs, .reasm, .svc, .mitEgress, .parkQ, .movCmds, .mit, .notices,
      .slots, .slab, .waits, .admMsgs, .pagerOp, .insts, .cqWait, .psBuf, .handoffs, .upd, .errDue, .out, .free]
    let bs : List Block := [.knt, .xpt, .ldg, .slt, .arb, .seq, .upd, .grm, .mit, .cor, .lnk, .hbm, .prk, .mov, .tray, .hat,
      .pci, .ctrm, .ctr, .err, .knit, .transport, .ledger, .slots, .programs, .update, .gram, .mitten, .switch, .link, .memory,
      .mover, .trayCtl, .power, .security, .host, .observe, .wheels]
    (∀ (q : Nat) (p : Nat) (s t : State), exec (.gramUnit q p) s = .next t → s.touches ps bs t)) ∧
  (
    let ps : List Part := [.hbm, .badSectors, .insts, .cqWait, .psBuf, .upd, .errDue, .out]
    let fs : List Fld := ctrFields ++ errFields ++ sampleFields ++ writeFields ++ vectorFields ++ hostFields ++ recordFields ++ flagFields ++ failFields ++
      [F.GRM_PART_STATE, F.GRM_STAT_COUNT, F.GRM_STAT_OVF, F.GRM_FAULT_FAULTED, F.GRM_FAULT_PART, F.GRM_FAULT_OPCODE,
       F.GRM_FAULT_VALID, V.GRM_ENTRY, V.ABORT_DUE, V.BANK_WASTE]
    (∀ (q : Nat) (p : Nat) (s t : State), exec (.gramProgressTimeout q p) s = .next t → s.writes ps fs t))

/-- Frame of the commands of the Mitten: what each leaves unchanged. -/
def Obligations.MittenFrame : Prop :=
  (
    let ps : List Part := [.hbm, .badSectors, .staging, .bufs, .reasm, .svc, .mitEgress, .parkQ, .movCmds, .mit, .notices,
      .slots, .slab, .waits, .admMsgs, .pagerOp, .insts, .cqWait, .psBuf, .handoffs, .upd, .errDue, .out]
    let bs : List Block := [.knt, .xpt, .ldg, .slt, .arb, .seq, .upd, .grm, .mit, .cor, .lnk, .prk, .mov, .tray, .hat, .pci,
      .ctrm, .ctr, .err, .knit, .transport, .ledger, .slots, .programs, .update, .gram, .mitten, .switch, .link, .memory,
      .mover, .trayCtl, .power, .security, .host, .observe, .wheels]
    (∀ (pkt : Packet) (s t : State), exec (.mitMember pkt) s = .next t → s.touches ps bs t) ∧
    (∀ (pkt : Packet) (s t : State), exec (.mitRow pkt) s = .next t → s.touches ps bs t) ∧
    (∀ (pkt : Packet) (s t : State), exec (.mitColumn pkt) s = .next t → s.touches ps bs t) ∧
    (∀ (pkt : Packet) (s t : State), exec (.mitCourier pkt) s = .next t → s.touches ps bs t)) ∧
  (
    let ps : List Part := [.mit]
    let fs : List Fld := [V.ROUND_DUE]
    (∀ (c : Nat) (seq : BitVec 32) (s t : State), exec (.mitRoundAbort c seq) s = .next t → s.writes ps fs t)) ∧
  (
    let ps : List Part := [.mitEgress, .mit]
    let fs : List Fld := packetFields ++
      [F.CTR_VAL_COUNT, F.CTR_VAL_OVF, V.RAISED]
    (∀ (c : Nat) (seq : BitVec 32) (s t : State), exec (.mitPeerResend c seq) s = .next t → s.writes ps fs t)) ∧
  (
    let ps : List Part := [.mitEgress, .mit]
    let fs : List Fld := writeFields ++ packetFields ++
      [F.CTR_VAL_COUNT, F.CTR_VAL_OVF, V.RAISED]
    (∀ (c : Nat) (seq : BitVec 32) (s t : State), exec (.mitCarryResend c seq) s = .next t → s.writes ps fs t)) ∧
  (
    let ps : List Part := []
    let fs : List Fld := [F.MIT_CTX_ROLE]
    (∀ (c : Nat) (role : Nat) (s t : State), exec (.mitRoleSet c role) s = .next t → s.writes ps fs t)) ∧
  (
    let ps : List Part := [.mitEgress, .notices]
    let fs : List Fld := [F.MIT_CTL_NOTICE_EN, F.MIT_STAT_COUNT, F.MIT_STAT_OVF, F.COR_PORT_OPEN, F.CTR_VAL_COUNT, F.CTR_VAL_OVF, V.WITHDRAWN,
      V.NOTICE_SEQ, V.PKT_UID, V.RAISED]
    (∀ (value : Nat) (s t : State), exec (.noticeEnWrite value) s = .next t → s.writes ps fs t)) ∧
  (
    let ps : List Part := [.mitEgress, .notices]
    let fs : List Fld := [F.CTR_VAL_COUNT, F.CTR_VAL_OVF, V.PKT_UID, V.RAISED]
    (∀ (s t : State), exec .noticeRepeat s = .next t → s.writes ps fs t))

/-- Frame of the commands of HBM and parking: what each leaves unchanged. -/
def Obligations.HbmFrame : Prop :=
  (
    let ps : List Part := [.badSectors, .errDue]
    let fs : List Fld := errFields ++ readFields ++
      [F.HBM_SCRUB_PASSES, F.CTR_VAL_COUNT, F.CTR_VAL_OVF, V.SCRUB_LINE, V.SCRUB_DONE, V.RAISED, V.HBM_REQ]
    (∀ (q : Nat) (stack : Nat) (s t : State), exec (.patrolScrub q stack) s = .next t → s.writes ps fs t)) ∧
  (
    let ps : List Part := [.hbm, .badSectors, .insts, .cqWait, .psBuf, .upd, .errDue, .out]
    let fs : List Fld := ctrFields ++ errFields ++ sampleFields ++ writeFields ++ readFields ++ vectorFields ++ hostFields ++ recordFields ++ flagFields ++ failFields ++
      [F.SEQ_RING_CTL_ERR, F.UPD_FAULT_LOST, F.UPD_FAULT_PART, F.UPD_FAULT_SHARD, F.GRM_PART_STATE, F.GRM_STAT_COUNT,
       F.GRM_STAT_OVF, F.HBM_STACK_STATE, F.HBM_STACK_CH_RETIRED, F.HBM_STACK_MAP_MIB, F.HBM_EXTENT_LOST,
       F.HBM_EXTENT_REMAPPING, V.SHARD_LOST, V.GRM_ENTRY, V.RET_CH, V.RET_STACK, V.HEAD_CYC, V.KNT_PAGE, V.ABORT_DUE,
       V.ZERO_LOST, V.BANK_WASTE]
    (∀ (q : Nat) (stack : Nat) (channel : Nat) (whole : Bool) (s t : State), exec (.hbmRetire q stack channel whole) s = .next t → s.writes ps fs t) ∧
    (∀ (q : Nat) (value : BitVec 64) (s t : State), exec (.hbmRetireCmd q value) s = .next t → s.writes ps fs t)) ∧
  (
    let ps : List Part := [.hbm, .badSectors]
    let fs : List Fld := [F.HBM_EXTENT_LOST, F.HBM_EXTENT_REMAPPING, F.HBM_EXTENT_REMAPPED]
    (∀ (q : Nat) (ext : Nat) (s t : State), exec (.spareRemapEnd q ext) s = .next t → s.writes ps fs t)) ∧
  (
    let ps : List Part := [.hbm, .badSectors, .insts, .cqWait, .psBuf, .upd, .errDue, .out]
    let fs : List Fld := ctrFields ++ errFields ++ sampleFields ++ writeFields ++ vectorFields ++ hostFields ++ recordFields ++ flagFields ++ failFields ++
      [F.GRM_PART_STATE, F.GRM_STAT_COUNT, F.GRM_STAT_OVF, F.GRM_FAULT_FAULTED, F.GRM_FAULT_PART, F.GRM_FAULT_OPCODE,
       F.GRM_FAULT_VALID, F.ARB_HBM_LOG_STACK, F.ARB_HBM_LOG_PC, F.ARB_HBM_LOG_REQ, F.ARB_HBM_LOG_VALID, F.ARB_HBM_LOG_FIRES,
       V.GRM_ENTRY, V.SCRUB_STOP, V.ABORT_DUE, V.BANK_WASTE]
    (∀ (q : Nat) (stack : Nat) (pc : Nat) (req : Nat) (s t : State), exec (.hbmLockTimeout q stack pc req) s = .next t → s.writes ps fs t)) ∧
  (
    let ps : List Part := []
    let fs : List Fld := [F.HBM_INJ_STACK, F.HBM_INJ_PC, F.HBM_INJ_LINE, F.HBM_INJ_BITS, F.ERR_INJ_STAT_ARMED, F.ERR_INJ_STAT_REFUSED, V.INJ_KIND,
      V.INJ_DET, V.INJ_QUAD, V.INJ_PART, V.INJ_TARGET, V.RAISED]
    (∀ (q : Nat) (value : BitVec 64) (s t : State), exec (.hbmInject q value) s = .next t → s.writes ps fs t)) ∧
  (
    let ps : List Part := [.staging, .svc, .parkQ, .errDue]
    let fs : List Fld := errFields ++ packetFields ++
      [F.PRK_QUEUE_PEAK, F.PRK_STAT_COUNT, F.PRK_STAT_OVF, F.CTR_VAL_COUNT, F.CTR_VAL_OVF, V.E2E_INJ, V.RAISED]
    (∀ (q : Nat) (pkt : Packet) (s t : State), exec (.parkWrite q pkt) s = .next t → s.writes ps fs t) ∧
    (∀ (q : Nat) (pkt : Packet) (s t : State), exec (.parkRead q pkt) s = .next t → s.writes ps fs t)) ∧
  (
    let ps : List Part := [.hbm, .badSectors, .staging, .parkQ, .errDue]
    let fs : List Fld := errFields ++ writeFields ++ readFields ++ packetFields ++ unitFields ++
      [F.PRK_STAT_COUNT, F.PRK_STAT_OVF, F.CTR_VAL_COUNT, F.CTR_VAL_OVF, V.RAISED, V.HBM_REQ]
    (∀ (q : Nat) (p : Nat) (s t : State), exec (.parkApply q p) s = .next t → s.writes ps fs t)) ∧
  (
    let ps : List Part := [.staging, .parkQ, .errDue]
    let fs : List Fld := errFields ++ packetFields ++
      [F.PRK_QUEUE_FAULTED, F.PRK_STAT_COUNT, F.PRK_STAT_OVF, F.CTR_VAL_COUNT, F.CTR_VAL_OVF, V.RAISED]
    (∀ (q : Nat) (s t : State), exec (.parkServiceFault q) s = .next t → s.writes ps fs t))

/-- Frame of the commands of the Mover: what each leaves unchanged. -/
def Obligations.MoverFrame : Prop :=
  (
    let ps : List Part := [.hbm, .badSectors, .cqWait, .psBuf, .errDue, .out]
    let fs : List Fld := ctrFields ++ errFields ++ sampleFields ++ writeFields ++ readFields ++ vectorFields ++ hostFields ++ recordFields ++ channelFields ++
      [F.SEQ_RING_CTL_ERR, F.SEQ_RING_CONS_CONS, F.MOV_STAT_STOPPED, F.MOV_STAT_FAULTED, V.MOV_START_E, V.MOV_TAG, V.MOV_MISM,
       V.MOV_FIRST, V.MOV_FWORD, V.HEAD_CYC, V.MOV_WROTE]
    (∀ (q : Nat) (p : Nat) (entry : BitVec 512) (s t : State), exec (.moverStart q p entry) s = .next t → s.writes ps fs t)) ∧
  (
    let ps : List Part := [.hbm, .badSectors, .movCmds, .cqWait, .psBuf, .errDue, .out]
    let fs : List Fld := ctrFields ++ errFields ++ sampleFields ++ writeFields ++ readFields ++ vectorFields ++ hostFields ++ recordFields ++
      [F.SEQ_RING_CTL_ERR, F.SEQ_RING_CONS_CONS, F.MOV_CH_STAT_STATE, F.MOV_CH_STAT_BUSY, F.MOV_CH_STAT_STATUS, V.PS_COUNT,
       V.MOV_ENDW, V.MOV_DROP, V.MOV_TO_ERR, V.HEAD_CYC, V.MOV_WAITC]
    (∀ (q : Nat) (p : Nat) (c : Nat) (entry : BitVec 512) (s t : State), exec (.moverPause q p c entry) s = .next t → s.writes ps fs t) ∧
    (∀ (q : Nat) (p : Nat) (c : Nat) (entry : BitVec 512) (s t : State), exec (.moverAbort q p c entry) s = .next t → s.writes ps fs t)) ∧
  (
    let ps : List Part := [.hbm, .badSectors, .movCmds, .cqWait, .psBuf, .errDue, .out]
    let fs : List Fld := ctrFields ++ errFields ++ sampleFields ++ writeFields ++ readFields ++ vectorFields ++ hostFields ++ recordFields ++
      [F.SEQ_RING_CTL_ERR, F.SEQ_RING_CONS_CONS, F.MOV_CH_STAT_STATE, F.MOV_CH_STAT_BUSY, V.PS_COUNT, V.HEAD_CYC, V.MOV_WAITC]
    (∀ (q : Nat) (p : Nat) (c : Nat) (entry : BitVec 512) (s t : State), exec (.moverResume q p c entry) s = .next t → s.writes ps fs t)) ∧
  (
    let ps : List Part := [.hbm, .badSectors, .movCmds, .cqWait, .psBuf, .out]
    let fs : List Fld := ctrFields ++ sampleFields ++ writeFields ++ vectorFields ++ hostFields ++ recordFields ++
      [F.MOV_CH_CTL_ERR, F.MOV_CH_STAT_STATE, V.MOV_WAITC]
    (∀ (q : Nat) (p : Nat) (c : Nat) (s t : State), exec (.moverErrClear q p c) s = .next t → s.writes ps fs t)) ∧
  (
    let ps : List Part := [.hbm, .badSectors, .mitEgress, .mit, .notices, .slab, .psBuf, .errDue, .out, .free]
    let fs : List Fld := ctrFields ++ errFields ++ sampleFields ++ writeFields ++ readFields ++ packetFields ++ hostFields ++ aerFields ++ unitFields ++ roundFields ++ knitFields ++ channelFields ++ busFields ++ fetchFields ++
      [V.MSIX_PEND, V.WITHDRAWN, V.NOTICE_SEQ, V.INJ_NOW, V.MOV_ROT]
    (∀ (q : Nat) (p : Nat) (c : Nat) (host : List Byte) (s t : State), exec (.move q p c host) s = .next t → s.writes ps fs t)) ∧
  (
    let ps : List Part := [.hbm, .badSectors, .slab, .psBuf, .errDue, .out]
    let fs : List Fld := ctrFields ++ errFields ++ sampleFields ++ writeFields ++ readFields ++ hostFields ++ unitFields ++ channelFields ++ busFields ++
      [V.MOV_ROT]
    (∀ (q : Nat) (p : Nat) (c : Nat) (s t : State), exec (.fill q p c) s = .next t → s.writes ps fs t)) ∧
  (
    let ps : List Part := [.mitEgress, .mit, .notices, .psBuf, .errDue, .out]
    let fs : List Fld := ctrFields ++ errFields ++ sampleFields ++ writeFields ++ readFields ++ packetFields ++ hostFields ++ aerFields ++ unitFields ++ roundFields ++ knitFields ++ channelFields ++ busFields ++ fetchFields ++
      [V.MSIX_PEND, V.WITHDRAWN, V.NOTICE_SEQ, V.MOV_MISM, V.MOV_FIRST, V.MOV_FWORD, V.INJ_NOW, V.MOV_ROT]
    (∀ (q : Nat) (p : Nat) (c : Nat) (host : List Byte) (s t : State), exec (.compare q p c host) s = .next t → s.writes ps fs t)) ∧
  (
    let ps : List Part := [.psBuf, .errDue]
    let fs : List Fld := errFields ++ sampleFields ++ readFields ++ channelFields ++
      [F.CTR_VAL_COUNT, F.CTR_VAL_OVF, V.RAISED]
    (∀ (q : Nat) (p : Nat) (c : Nat) (s t : State), exec (.wait q p c) s = .next t → s.writes ps fs t) ∧
    (∀ (q : Nat) (p : Nat) (c : Nat) (s t : State), exec (.waitMet q p c) s = .next t → s.writes ps fs t) ∧
    (∀ (q : Nat) (p : Nat) (c : Nat) (s t : State), exec (.link q p c) s = .next t → s.writes ps fs t)) ∧
  (
    let ps : List Part := [.trigOps, .psBuf, .errDue, .out]
    let fs : List Fld := ctrFields ++ errFields ++ sampleFields ++ readFields ++ vectorFields ++ channelFields ++
      [F.MOV_EVT_COUNT, V.TRIG_CTR, V.TRIG_WORD, V.EVT_SIG, V.EVT_SIGC]
    (∀ (q : Nat) (p : Nat) (c : Nat) (s t : State), exec (.signal q p c) s = .next t → s.writes ps fs t)) ∧
  (
    let ps : List Part := [.psBuf]
    let fs : List Fld := sampleFields ++
      [F.MOV_CH_STAT_STATE, F.MOV_CH_STAT_BUSY, F.MOV_CH_STAT_STATUS, V.MOV_ENDW, V.MOV_DROP, V.MOV_TO_ERR, V.MOV_WAITC]
    (∀ (q : Nat) (p : Nat) (c : Nat) (s t : State), exec (.end_ q p c) s = .next t → s.writes ps fs t)) ∧
  (
    let ps : List Part := [.hbm, .badSectors, .movCmds, .cqWait, .psBuf, .out]
    let fs : List Fld := ctrFields ++ sampleFields ++ writeFields ++ vectorFields ++ hostFields ++ recordFields ++
      [F.MOV_CH_STAT_STATE, F.MOV_CH_STAT_BUSY, F.MOV_CH_STAT_STATUS, V.MOV_ENDW, V.MOV_DROP, V.MOV_TO_ERR, V.MOV_WAITC]
    (∀ (q : Nat) (p : Nat) (c : Nat) (s t : State), exec (.pauseDrainEnd q p c) s = .next t → s.writes ps fs t)) ∧
  (
    let ps : List Part := [.hbm, .badSectors, .movCmds, .cqWait, .psBuf, .out]
    let fs : List Fld := ctrFields ++ sampleFields ++ writeFields ++ vectorFields ++ hostFields ++ recordFields ++
      [F.MOV_CH_CTL_ERR, F.MOV_CH_STAT_STATE, F.MOV_CH_STAT_LOSTREC, F.MOV_CQ_PTR_PROD, V.MOV_START_E, V.MOV_TO_ERR,
       V.MOV_VEC_TIME, V.MOV_VEC_DUE, V.MOV_WAITC]
    (∀ (q : Nat) (p : Nat) (c : Nat) (s t : State), exec (.moverRecordWrite q p c) s = .next t → s.writes ps fs t)) ∧
  (
    let ps : List Part := [.errDue]
    let fs : List Fld := errFields ++ busFields ++
      [F.MOV_CH_STAT_STATE, F.MOV_CH_STAT_STATUS, V.MOV_TO_ERR, V.PS_WAIT, V.MOV_WAITC, V.RAISED]
    (∀ (q : Nat) (cause : Nat) (s t : State), exec (.moverBusError q cause) s = .next t → s.writes ps fs t) ∧
    (∀ (q : Nat) (s t : State), exec (.moverBeatTimeout q) s = .next t → s.writes ps fs t)) ∧
  (
    let ps : List Part := [.hbm, .badSectors, .movCmds, .slab, .cqWait, .psBuf, .errDue, .out, .free]
    let fs : List Fld := ctrFields ++ errFields ++ sampleFields ++ writeFields ++ vectorFields ++ hostFields ++ recordFields ++
      [F.MOV_CH_CTL_ERR, F.MOV_CH_STAT_STATE, F.MOV_CH_STAT_BUSY, F.MOV_CH_STAT_STATUS, F.MOV_CH_STAT_LOSTREC,
       F.MOV_CQ_PTR_PROD, F.MOV_STAT_STOPPED, V.PAGER_STOP, V.MOV_START_E, V.MOV_ENDW, V.MOV_DROP, V.MOV_TO_ERR,
       V.MOV_VEC_TIME, V.MOV_VEC_DUE, V.MOV_WAITC, V.MOV_RESTART]
    (∀ (q : Nat) (s t : State), exec (.moverRestart q) s = .next t → s.writes ps fs t)) ∧
  (
    let ps : List Part := []
    let fs : List Fld := [F.MOV_EVT_COUNT]
    (∀ (q : Nat) (p : Nat) (n : Nat) (value : BitVec 32) (s t : State), exec (.eventCounterWrite q p n value) s = .next t → s.writes ps fs t))

/-- Frame of the commands of tray control: what each leaves unchanged. -/
def Obligations.TrayFrame : Prop :=
  (
    let ps : List Part := [.errDue, .free]
    let fs : List Fld := errFields ++
      [F.TRY_OWN_ROLE, F.TRY_OWN_QUALIFIED, F.TRY_OWN_PLAUS_OK, F.TRY_ADC_VALUE, F.TRY_ADC_CODE, F.TRY_ADC_IMPLAUS,
       F.TRY_ADC_STICKY, F.TRY_TACH_RPM, F.TRY_TACH_LOST, F.TRY_CAP_POWER_W, V.TJ, V.P_SUM, V.ADC_BAD_AT, V.ADC_REC,
       V.PLAUS_FAILED, V.TJQ, V.RAISED]
    (∀ (codes : List Nat) (temps : List Nat) (rpms : List Nat) (s t : State), exec (.adcWindow codes temps rpms) s = .next t → s.writes ps fs t)) ∧
  (
    let ps : List Part := [.errDue]
    let fs : List Fld := errFields ++
      [F.TRY_TACH_RPM, F.TRY_TACH_LOST, V.RAISED]
    (∀ (n : Nat) (s t : State), exec (.tachLost n) s = .next t → s.writes ps fs t)) ∧
  (
    let ps : List Part := [.free]
    let fs : List Fld := [F.TRY_OWN_PEER_LIVE, F.TRY_PWM_COMPUTED, F.TRY_PWM_APPLIED, V.INTEG, V.DUTY, V.PWM_OUT, V.TRAY_MS]
    (∀ (applied : List Nat) (peerLive : Bool) (s t : State), exec (.trayStep applied peerLive) s = .next t → s.writes ps fs t)) ∧
  (
    let ps : List Part := [.free]
    let fs : List Fld := [F.TRY_CAP_CAP_W, F.TRY_CAP_THR, F.TRY_CAP_SOURCE]
    (∀ (s t : State), exec .capStep s = .next t → s.writes ps fs t)) ∧
  (
    let ps : List Part := [.mitEgress, .notices]
    let fs : List Fld := [F.MIT_STAT_COUNT, F.MIT_STAT_OVF, F.TRY_CAP_THR, F.TRY_ALERT_ASSERTED, F.CTR_VAL_COUNT, F.CTR_VAL_OVF, V.NOTICE_SEQ,
      V.PKT_UID, V.RAISED]
    (∀ (s t : State), exec .pwrAlertAssert s = .next t → s.writes ps fs t)) ∧
  (
    let ps : List Part := [.mitEgress, .notices]
    let fs : List Fld := [F.MIT_STAT_COUNT, F.MIT_STAT_OVF, F.TRY_ALERT_ASSERTED, F.CTR_VAL_COUNT, F.CTR_VAL_OVF, V.NOTICE_SEQ, V.PKT_UID, V.RAISED]
    (∀ (s t : State), exec .pwrAlertRelease s = .next t → s.writes ps fs t)) ∧
  (
    let ps : List Part := [.mitEgress, .notices]
    let fs : List Fld := [F.MIT_STAT_COUNT, F.MIT_STAT_OVF, F.TRY_ALERT_ACC_LEVEL, F.CTR_VAL_COUNT, F.CTR_VAL_OVF, V.NOTICE_SEQ, V.PKT_UID, V.RAISED]
    (∀ (value : BitVec 64) (s t : State), exec (.accGo value) s = .next t → s.writes ps fs t)) ∧
  (
    let ps : List Part := []
    let fs : List Fld := writeFields ++
      [V.KICK_NS, V.KICK_INJ, V.RAISED]
    (∀ (s t : State), exec .yofenKick s = .next t → s.writes ps fs t)) ∧
  (
    let ps : List Part := [.mitEgress, .mit, .notices, .errDue, .out]
    let fs : List Fld := ctrFields ++ errFields ++ writeFields ++ packetFields ++ roundFields ++ knitFields ++
      [F.TRY_OWN_ROLE, F.TRY_OWN_QUALIFIED, F.TRY_OWN_CONTEST, F.HAT_YOF_RESETTING, F.HAT_YOF_RESETS, V.MSIX_PEND, V.WITHDRAWN,
       V.NOTICE_SEQ, V.INTEG, V.DUTY, V.KICK_INJ, V.INTEG_LOADED, V.CONTEST_HOLD]
    (∀ (s t : State), exec .yofenWatchdog s = .next t → s.writes ps fs t)) ∧
  (
    let ps : List Part := []
    let fs : List Fld := [F.TRY_OWN_ROLE, F.TRY_OWN_PEER_LIVE, F.TRY_OWN_CONTEST, F.TRY_OWN_HANDOVERS, V.OWNER_SEEN]
    (∀ (long : Bool) (s t : State), exec (.trayClaim long) s = .next t → s.writes ps fs t)) ∧
  (
    let ps : List Part := []
    let fs : List Fld := [F.TRY_OWN_ROLE, F.TRY_OWN_PEER_LIVE, F.TRY_OWN_QUALIFIED, F.TRY_OWN_CONTEST, F.TRY_OWN_HANDOVERS, V.OWNER_SEEN, V.INTEG_LOADED]
    (∀ (s t : State), exec .trayOwnConflict s = .next t → s.writes ps fs t)) ∧
  (
    let ps : List Part := [.out]
    let fs : List Fld := [F.TRY_OWN_PEER_LIVE, F.TRY_OWN_HANDOVERS, V.INTEG, V.OWNER_SEEN, V.PEER_INTEG, V.PEER_CAP, V.PEER_STAGE, V.PEER_PLAUS,
      V.INTEG_LOADED, V.TRAY_SEQ]
    (∀ (heard : List Nat) (s t : State), exec (.ownerPublish heard) s = .next t → s.writes ps fs t)) ∧
  (
    let ps : List Part := [.errDue]
    let fs : List Fld := errFields ++
      [F.TRY_OWN_CONTEST, F.TRY_OWN_CONTESTS, V.RAISED]
    (∀ (s t : State), exec .contestStart s = .next t → s.writes ps fs t)) ∧
  (
    let ps : List Part := []
    let fs : List Fld := [F.TRY_OWN_ROLE, F.TRY_OWN_QUALIFIED, F.TRY_OWN_CONTEST, V.CONTEST_HOLD]
    (∀ (peerPass : Bool) (s t : State), exec (.contestResolve peerPass) s = .next t → s.writes ps fs t)) ∧
  (
    let ps : List Part := []
    let fs : List Fld := [F.TRY_OWN_ROLE, F.TRY_OWN_QUALIFIED, V.INTEG_LOADED]
    (∀ (s t : State), exec .degradedClear s = .next t → s.writes ps fs t) ∧
    (∀ (s t : State), exec .trayYield s = .next t → s.writes ps fs t)) ∧
  (
    let ps : List Part := []
    let fs : List Fld := [F.TRY_OWN_QUALIFIED]
    (∀ (s t : State), exec .standbyQualify s = .next t → s.writes ps fs t)) ∧
  (
    let ps : List Part := [.out]
    let fs : List Fld := [V.TRAY_SEQ, V.MOD_SEQ]
    (∀ (s t : State), exec .telemetrySend s = .next t → s.writes ps fs t)) ∧
  (
    let ps : List Part := []
    let fs : List Fld := [F.TRY_STAGE_HOLD, F.TRY_STAGE_MGR_A, F.TRY_STAGE_MGR_B]
    (∀ (m : Nat) (s t : State), exec (.managerHeartbeat m) s = .next t → s.writes ps fs t)) ∧
  (
    let ps : List Part := [.errDue]
    let fs : List Fld := errFields ++
      [F.TRY_STAGE_MGR_A, F.TRY_STAGE_MGR_B, V.RAISED]
    (∀ (m : Nat) (s t : State), exec (.managerLost m) s = .next t → s.writes ps fs t)) ∧
  (
    let ps : List Part := []
    let fs : List Fld := [F.TRY_STAGE_HOLD]
    (∀ (s t : State), exec .autonomousHold s = .next t → s.writes ps fs t)) ∧
  (
    let ps : List Part := [.errDue]
    let fs : List Fld := errFields ++
      [F.TRY_STAGE_PUMP, F.TRY_STAGE_EXPORT_DONE, V.RAISED]
    (∀ (s t : State), exec .pumpStage1 s = .next t → s.writes ps fs t)) ∧
  (
    let ps : List Part := [.hbm, .badSectors, .staging, .insts, .upd, .errDue, .out]
    let fs : List Fld := errFields ++ writeFields ++ readFields ++ packetFields ++ flagFields ++ failFields ++
      [F.UPD_FAULT_LOST, F.UPD_FAULT_PART, F.UPD_FAULT_SHARD, F.TRY_STAGE_PUMP, F.TRY_STAGE_EXPORT_DONE, F.SEC_KEY_EXHAUSTED,
       F.CTR_VAL_COUNT, F.CTR_VAL_OVF, V.SHARD_LOST, V.SNAP_SEQ, V.MOD_SEQ, V.RAISED, V.ABORT_DUE, V.HBM_REQ]
    (∀ (s t : State), exec .pumpStage2 s = .next t → s.writes ps fs t)) ∧
  (
    let ps : List Part := []
    (∀ (s t : State), exec .pumpStage3 s = .next t → s.keepsParts ps t)) ∧
  (
    let ps : List Part := []
    let fs : List Fld := [F.TRY_STAGE_PUMP]
    (∀ (s t : State), exec .pumpStageClear s = .next t → s.writes ps fs t)) ∧
  (
    let ps : List Part := [.out]
    let fs : List Fld := []
    (∀ (s t : State), exec .trayBusRecovery s = .next t → s.writes ps fs t)) ∧
  (
    let ps : List Part := []
    let fs : List Fld := writeFields ++
      [F.TRY_INJ_CHANNEL, F.TRY_INJ_KIND, F.ERR_INJ_STAT_REFUSED, V.ADC_INJ_CH, V.ADC_INJ_END, V.DUTY_INJ_END, V.HB_STOP_END,
       V.RAISED]
    (∀ (value : BitVec 64) (s t : State), exec (.trayInject value) s = .next t → s.writes ps fs t)) ∧
  (
    let ps : List Part := [.hbm, .badSectors, .out]
    let fs : List Fld := ctrFields ++ writeFields ++ hostFields ++ yofFields ++
      [V.MSIX_PEND]
    (∀ (s t : State), exec .yofenReboot s = .next t → s.writes ps fs t))

/-- Frame of the commands of the cartridges: what each leaves unchanged. -/
def Obligations.CartFrame : Prop :=
  (
    let ps : List Part := []
    let fs : List Fld := [F.LNK_PORT_CTL_EN, F.TRY_CART_STATE, F.TRY_CART_PRESENT, V.CART_LATCH, V.LED, V.LED_FLASH]
    (∀ (c : Nat) (s t : State), exec (.cartInsert c) s = .next t → s.writes ps fs t)) ∧
  (
    let ps : List Part := [.staging, .bufs, .reasm, .svc, .mitEgress, .errDue, .out]
    let fs : List Fld := errFields ++ packetFields ++ portFields ++
      [F.TRY_CART_STATE, F.TRY_CART_PRESENT, F.TRY_CART_LAST_REASON, F.TRY_CART_UNDRAINED, F.CTR_VAL_COUNT, F.CTR_VAL_OVF,
       V.MOD_SEQ, V.CART_LATCH, V.LED, V.LED_FLASH, V.RAISED]
    (∀ (c : Nat) (s t : State), exec (.cartPresenceLost c) s = .next t → s.writes ps fs t)) ∧
  (
    let ps : List Part := [.mitEgress, .notices]
    let fs : List Fld := noticeFields ++
      [F.MIT_STAT_COUNT, F.MIT_STAT_OVF, F.TRY_CART_STATE, F.TRY_CART_TOUCH, F.TRY_CART_LAST_REASON, F.CTR_VAL_COUNT,
       F.CTR_VAL_OVF, V.LED, V.LED_FLASH, V.PKT_UID, V.RAISED]
    (∀ (c : Nat) (high : Bool) (s t : State), exec (.cartTouch c high) s = .next t → s.writes ps fs t)) ∧
  (
    let ps : List Part := [.mitEgress, .notices]
    let fs : List Fld := noticeFields ++
      [F.MIT_STAT_COUNT, F.MIT_STAT_OVF, F.TRY_CART_STATE, F.TRY_CART_CUFF, F.TRY_CART_LAST_REASON, F.CTR_VAL_COUNT,
       F.CTR_VAL_OVF, V.LED, V.LED_FLASH, V.PKT_UID, V.RAISED]
    (∀ (c : Nat) (s t : State), exec (.cartCuffOpen c) s = .next t → s.writes ps fs t)) ∧
  (
    let ps : List Part := [.mitEgress, .notices]
    let fs : List Fld := [F.MIT_STAT_COUNT, F.MIT_STAT_OVF, F.TRY_CART_STATE, F.TRY_CART_TOUCH, F.CTR_VAL_COUNT, F.CTR_VAL_OVF, V.WITHDRAWN,
      V.NOTICE_SEQ, V.LED, V.LED_FLASH, V.PKT_UID, V.RAISED]
    (∀ (c : Nat) (s t : State), exec (.preDrainCancel c) s = .next t → s.writes ps fs t)) ∧
  (
    let ps : List Part := [.mitEgress, .notices]
    let fs : List Fld := noticeFields ++
      [F.MIT_STAT_COUNT, F.MIT_STAT_OVF, F.LNK_PORT_CTL_EN, F.TRY_CART_STATE, F.TRY_CART_BTN, F.TRY_CART_REFUSED,
       F.TRY_CART_LAST_REASON, F.CTR_VAL_COUNT, F.CTR_VAL_OVF, V.CART_LATCH, V.LED, V.LED_FLASH, V.PKT_UID, V.RAISED,
       V.CART_HELD]
    (∀ (c : Nat) (down : Bool) (s t : State), exec (.cartButton c down) s = .next t → s.writes ps fs t)) ∧
  (
    let ps : List Part := [.mitEgress, .notices]
    let fs : List Fld := noticeFields ++
      [F.MIT_STAT_COUNT, F.MIT_STAT_OVF, F.TRY_CART_STATE, F.TRY_CART_BTN, F.TRY_CART_LAST_REASON, F.CTR_VAL_COUNT,
       F.CTR_VAL_OVF, V.LED, V.LED_FLASH, V.PKT_UID, V.RAISED, V.CART_HELD]
    (∀ (c : Nat) (s t : State), exec (.cartButtonHold c) s = .next t → s.writes ps fs t)) ∧
  (
    let ps : List Part := []
    let fs : List Fld := [F.TRY_CART_CFG_LOCATE]
    (∀ (s t : State), exec .trayButton s = .next t → s.writes ps fs t)) ∧
  (
    let ps : List Part := [.mitEgress, .notices]
    let fs : List Fld := noticeFields ++
      [F.MIT_STAT_COUNT, F.MIT_STAT_OVF, F.TRY_CART_STATE, F.TRY_CART_LAST_REASON, F.CTR_VAL_COUNT, F.CTR_VAL_OVF, V.LED,
       V.LED_FLASH, V.PKT_UID, V.RAISED]
    (∀ (s t : State), exec .trayButtonHold s = .next t → s.writes ps fs t)) ∧
  (
    let ps : List Part := [.mitEgress, .notices]
    let fs : List Fld := noticeFields ++
      [F.MIT_STAT_COUNT, F.MIT_STAT_OVF, F.TRY_CART_STATE, F.TRY_CART_REFUSED, F.TRY_CART_LAST_REASON, F.CTR_VAL_COUNT,
       F.CTR_VAL_OVF, V.CART_LATCH, V.LED, V.LED_FLASH, V.PKT_UID, V.RAISED]
    (∀ (c : Nat) (s t : State), exec (.cartDrain c) s = .next t → s.writes ps fs t)) ∧
  (
    let ps : List Part := [.mitEgress, .notices]
    let fs : List Fld := noticeFields ++
      [F.MIT_STAT_COUNT, F.MIT_STAT_OVF, F.TRY_CART_STATE, F.TRY_CART_LAST_REASON, F.CTR_VAL_COUNT, F.CTR_VAL_OVF,
       V.CART_LATCH, V.LED, V.LED_FLASH, V.PKT_UID, V.RAISED]
    (∀ (c : Nat) (s t : State), exec (.cartForce c) s = .next t → s.writes ps fs t)) ∧
  (
    let ps : List Part := []
    let fs : List Fld := [F.LNK_PORT_CTL_EN, F.TRY_CART_STATE, V.CART_LATCH, V.LED, V.LED_FLASH]
    (∀ (c : Nat) (s t : State), exec (.cartRejoin c) s = .next t → s.writes ps fs t) ∧
    (∀ (c : Nat) (s t : State), exec (.cartSafe c) s = .next t → s.writes ps fs t)) ∧
  (
    let ps : List Part := [.staging, .bufs, .reasm, .svc, .mitEgress, .errDue]
    let fs : List Fld := errFields ++ packetFields ++ portFields ++
      [F.LNK_PORT_CTL_EN, F.TRY_CART_STATE, F.TRY_CART_DRAINS, F.CTR_VAL_COUNT, F.CTR_VAL_OVF, V.LED, V.LED_FLASH, V.RAISED]
    (∀ (c : Nat) (s t : State), exec (.cartDrainComplete c) s = .next t → s.writes ps fs t) ∧
    (∀ (c : Nat) (s t : State), exec (.cartForceStop c) s = .next t → s.writes ps fs t)) ∧
  (
    let ps : List Part := [.staging, .bufs, .reasm, .svc, .mitEgress, .notices, .errDue]
    let fs : List Fld := errFields ++ packetFields ++ noticeFields ++ portFields ++
      [F.MIT_STAT_COUNT, F.MIT_STAT_OVF, F.LNK_PORT_CTL_EN, F.TRY_CART_STATE, F.TRY_CART_LAST_REASON, F.TRY_CART_DRAINS,
       F.CTR_VAL_COUNT, F.CTR_VAL_OVF, V.LED, V.LED_FLASH, V.RAISED]
    (∀ (c : Nat) (s t : State), exec (.cartDrainTimeout c) s = .next t → s.writes ps fs t)) ∧
  (
    let ps : List Part := []
    let fs : List Fld := [F.TRY_CART_STATE, V.LED, V.LED_FLASH]
    (∀ (c : Nat) (s t : State), exec (.cartInService c) s = .next t → s.writes ps fs t)) ∧
  (
    let ps : List Part := [.mitEgress, .notices, .errDue, .out]
    let fs : List Fld := [F.MIT_STAT_COUNT, F.MIT_STAT_OVF, F.TRY_CAP_THR, F.CTR_VAL_COUNT, F.CTR_VAL_OVF, F.ERR_DET_COUNT, F.ERR_DET_OVF, V.NOTICE_SEQ,
      V.MOD_SEQ, V.GASP, V.PKT_UID, V.RAISED]
    (∀ (s t : State), exec .vinLow s = .next t → s.writes ps fs t)) ∧
  (
    let ps : List Part := []
    let fs : List Fld := [F.LNK_PORT_CTL_EN, F.TRY_CART_STATE, F.TRY_CART_CUFF, V.CART_LATCH, V.LED, V.LED_FLASH]
    (∀ (c : Nat) (s t : State), exec (.cartLatchClose c) s = .next t → s.writes ps fs t))

/-- Frame of the commands of power, clocks and resets: what each leaves unchanged. -/
def Obligations.PowerFrame : Prop :=
  (
    let ps : List Part := []
    (∀ (s t : State), exec .vinHoldupEnd s = .next t → s.keepsParts ps t) ∧
    (∀ (s t : State), exec .railTimeout s = .next t → s.keepsParts ps t) ∧
    (∀ (s t : State), exec .vauxLow s = .next t → s.keepsParts ps t) ∧
    (∀ (target : Nat) (s t : State), exec (.powerRequest target) s = .next t → s.keepsParts ps t) ∧
    (∀ (expired : Bool) (s t : State), exec (.p2QuietEnd expired) s = .next t → s.keepsParts ps t) ∧
    (∀ (s t : State), exec .refclkLossTimeout s = .next t → s.keepsParts ps t) ∧
    (∀ (s t : State), exec .thermalTrip s = .next t → s.keepsParts ps t) ∧
    (∀ (s t : State), exec .coldReset s = .next t → s.keepsParts ps t) ∧
    (∀ (cool : Bool) (s t : State), exec (.moduleReset cool) s = .next t → s.keepsParts ps t) ∧
    (∀ (p : Nat) (flr : Bool) (s t : State), exec (.partitionReset p flr) s = .next t → s.keepsParts ps t) ∧
    (∀ (ok : Bool) (failed : List Nat) (s t : State), exec (.startupStepComplete ok failed) s = .next t → s.keepsParts ps t)) ∧
  (
    let ps : List Part := []
    let fs : List Fld := [F.HAT_BOOT_STEP, F.HAT_BOOT_FAILED, F.HAT_BOOT_FAIL_STEP, V.OPEN_TO, V.BOOTING, V.BOOT_NS, V.VIN_P3, V.WAKE_BOOT, V.REPAIR]
    (∀ (s t : State), exec .vinGood s = .next t → s.writes ps fs t)) ∧
  (
    let ps : List Part := []
    let fs : List Fld := [F.TRY_OWN_ROLE, F.TRY_OWN_QUALIFIED, F.TRY_OWN_CONTEST, V.INTEG, V.DUTY, V.INTEG_LOADED, V.CONTEST_HOLD, V.YOF_ON]
    (∀ (s t : State), exec .yofenIdleStop s = .next t → s.writes ps fs t)) ∧
  (
    let ps : List Part := []
    let fs : List Fld := [F.HAT_GATE_GATED]
    (∀ (q : Nat) (e : Nat) (s t : State), exec (.engineGate q e) s = .next t → s.writes ps fs t)) ∧
  (
    let ps : List Part := []
    let fs : List Fld := [F.HAT_GATE_GATED, F.HAT_GATE_WAKES]
    (∀ (q : Nat) (e : Nat) (s t : State), exec (.engineWake q e) s = .next t → s.writes ps fs t)) ∧
  (
    let ps : List Part := []
    let fs : List Fld := [F.HAT_GATE_WARM, V.WARM_NS]
    (∀ (q : Nat) (e : Nat) (p : Nat) (s t : State), exec (.warmHoldEnd q e p) s = .next t → s.writes ps fs t)) ∧
  (
    let ps : List Part := [.staging, .bufs, .reasm, .svc, .mitEgress, .errDue, .out]
    let fs : List Fld := errFields ++ packetFields ++ portFields ++
      [F.LNK_PORT_STAT_RX_BAD, F.LNK_PORT_STAT_RETRAINS, F.LNK_LANE_BAD, F.HAT_CLK_REF_OK, F.HAT_CLK_TIME_FREE,
       F.CTR_VAL_COUNT, F.CTR_VAL_OVF, V.LNK_OWN_BAD, V.LNK_PEER_BAD, V.LNK_SLOT, V.LNK_RETRAIN1, V.LNK_RETRAIN2, V.LNK_PRBS,
       V.LCF_CMD, V.UCW_COUNT, V.RAISED]
    (∀ (s t : State), exec .refclkLost s = .next t → s.writes ps fs t)) ∧
  (
    let ps : List Part := [.staging, .bufs, .reasm, .svc, .mitEgress, .errDue, .out]
    let fs : List Fld := errFields ++ packetFields ++ portFields ++
      [F.LNK_PORT_STAT_RX_BAD, F.LNK_PORT_STAT_RETRAINS, F.LNK_LANE_BAD, F.HAT_CLK_REF_OK, F.CTR_VAL_COUNT, F.CTR_VAL_OVF,
       V.LNK_OWN_BAD, V.LNK_PEER_BAD, V.LNK_SLOT, V.LNK_RETRAIN1, V.LNK_RETRAIN2, V.LNK_PRBS, V.LCF_CMD, V.UCW_COUNT, V.RAISED]
    (∀ (s t : State), exec .refclkReturn s = .next t → s.writes ps fs t)) ∧
  (
    let ps : List Part := []
    let fs : List Fld := [F.HAT_CLK_OSC_CAL]
    (∀ (s t : State), exec .oscCalibrate s = .next t → s.writes ps fs t)) ∧
  (
    let ps : List Part := [.hbm, .badSectors, .staging, .bufs, .reasm, .svc, .mitEgress, .parkQ, .movCmds, .mit, .notices,
      .slots, .slab, .waits, .admMsgs, .pagerOp, .insts, .cqWait, .handoffs, .upd, .errDue, .out]
    let bs : List Block := [.xpt, .ldg, .slt, .arb, .seq, .upd, .grm, .cor, .lnk, .prk, .mov, .hat, .pci, .ctrm, .ctr, .err,
      .transport, .ledger, .slots, .programs, .update, .gram, .switch, .link, .memory, .mover, .power, .security, .host,
      .observe, .wheels]
    (∀ (q : Nat) (s t : State), exec (.quadrantReset q) s = .next t → s.touches ps bs t)) ∧
  (
    let ps : List Part := []
    let fs : List Fld := [F.HAT_BOOT_STEP, F.HAT_LOADTEST_ACTIVE, F.HAT_LOADTEST_FAILED, F.HAT_LOADTEST_PHASE, V.LT_BAD, V.REPAIR]
    (∀ (s t : State), exec .loadtestRun s = .next t → s.writes ps fs t)) ∧
  (
    let ps : List Part := [.errDue, .free]
    let fs : List Fld := errFields ++
      [F.MIT_CTX_ROLE, F.MIT_CTX_JOINING, F.LNK_PORT_CTL_EN, F.LNK_PORT_STAT_STATE, F.LNK_PORT_STAT_LANES, F.TRY_CART_STATE,
       F.HAT_PSTATE_STATE, F.HAT_BOOT_STEP, F.HAT_BOOT_ELAPSED_MS, F.HAT_LOADTEST_ACTIVE, F.HAT_LOADTEST_FAILED,
       F.HAT_LOADTEST_PHASE, V.MIT_FIRST, V.CART_LATCH, V.LED, V.LED_FLASH, V.BOOTING, V.RAISED, V.REPAIR]
    (∀ (crcOk : Bool) (s t : State), exec (.loadtestPhaseEnd crcOk) s = .next t → s.writes ps fs t)) ∧
  (
    let ps : List Part := [.mitEgress, .notices]
    let fs : List Fld := [F.MIT_STAT_COUNT, F.MIT_STAT_OVF, F.CTR_VAL_COUNT, F.CTR_VAL_OVF, V.WITHDRAWN, V.NOTICE_SEQ, V.QUIESCE, V.QRESET, V.PKT_UID,
      V.RAISED]
    (∀ (q : Nat) (s t : State), exec (.quadrantResetEnd q) s = .next t → s.writes ps fs t)) ∧
  (
    let ps : List Part := []
    let fs : List Fld := [F.HAT_BOOT_STEP, F.HAT_BOOT_FAILED, F.HAT_BOOT_FAIL_STEP, V.MRESET, V.OPEN_TO, V.BOOTING, V.BOOT_NS, V.VIN_P3, V.WAKE_BOOT,
      V.REPAIR]
    (∀ (s t : State), exec .moduleResetRelease s = .next t → s.writes ps fs t)) ∧
  (
    let ps : List Part := []
    let fs : List Fld := [V.TIME_PS]
    (∀ (ns : BitVec 64) (s t : State), exec (.ieee1588Time ns) s = .next t → s.writes ps fs t))

/-- Frame of the commands of the host interface and register access: what each leaves unchanged. -/
def Obligations.HostFrame : Prop :=
  (
    let ps : List Part := [.mitEgress, .mit, .notices, .errDue, .out, .free]
    let fs : List Fld := ctrFields ++ errFields ++ writeFields ++ packetFields ++ aerFields ++ roundFields ++ knitFields ++
      [F.HAT_RESET_LAST, F.PCI_LINK_SPEED, F.PCI_LINK_WIDTH, F.PCI_LINK_FLIT, F.PCI_LINK_DOWNS, F.PCI_APER_BASE, V.MSIX_MASK,
       V.MSIX_PEND, V.BME, V.PERST, V.WITHDRAWN, V.NOTICE_SEQ]
    (∀ (asserted : Bool) (s t : State), exec (.perst asserted) s = .next t → s.writes ps fs t)) ∧
  (
    let ps : List Part := [.hbm, .badSectors, .out]
    let fs : List Fld := ctrFields ++ writeFields ++ hostFields ++ yofFields ++
      [V.MSIX_PEND, V.EID]
    (∀ (binding : Nat) (eid : BitVec 8) (s t : State), exec (.setEndpointId binding eid) s = .next t → s.writes ps fs t)) ∧
  (
    let ps : List Part := [.hbm, .badSectors, .out]
    let fs : List Fld := ctrFields ++ writeFields ++ hostFields ++ yofFields ++
      [V.MSIX_PEND]
    (∀ (n : Nat) (s t : State), exec (.pldmSensorRead n) s = .next t → s.writes ps fs t)) ∧
  (
    let ps : List Part := []
    (∀ (n : Nat) (value : BitVec 64) (s t : State), exec (.pldmEffecterWrite n value) s = .next t → s.keepsParts ps t) ∧
    (∀ (s t : State), exec .pf0Flr s = .next t → s.keepsParts ps t) ∧
    (∀ (fn : Nat) (off : Nat) (size : Nat) (value : BitVec 64) (s t : State), exec (.registerWrite fn off size value) s = .next t → s.keepsParts ps t) ∧
    (∀ (write : Bool) (off : Nat) (size : Nat) (value : BitVec 64) (s t : State), exec (.debugWindowAccess write off size value) s = .next t → s.keepsParts ps t)) ∧
  (
    let ps : List Part := [.errDue, .out]
    let fs : List Fld := ctrFields ++ errFields ++ readFields ++ aerFields ++
      [F.PCI_FN_STAT_BADBAR2]
    (∀ (fn : Nat) (off : Nat) (len : Nat) (s t : State), exec (.bar2Read fn off len) s = .next t → s.writes ps fs t)) ∧
  (
    let ps : List Part := [.hbm, .badSectors, .errDue, .out, .free]
    let fs : List Fld := ctrFields ++ errFields ++ writeFields ++ readFields ++ aerFields ++
      [F.PCI_FN_STAT_BADBAR2, V.GRM_TAINT, V.MOV_WROTE]
    (∀ (fn : Nat) (off : Nat) (data : List Byte) (poisoned : Bool) (s t : State), exec (.bar2Write fn off data poisoned) s = .next t → s.writes ps fs t)) ∧
  (
    let ps : List Part := [.mitEgress, .mit, .notices, .errDue, .out, .free]
    let fs : List Fld := ctrFields ++ errFields ++ writeFields ++ packetFields ++ aerFields ++ roundFields ++ knitFields ++
      [F.PCI_LINK_SPEED, F.PCI_LINK_WIDTH, F.PCI_LINK_FLIT, F.PCI_LINK_DOWNS, V.MSIX_PEND, V.WITHDRAWN, V.NOTICE_SEQ]
    (∀ (down : Bool) (s t : State), exec (.pcieLinkDown down) s = .next t → s.writes ps fs t)) ∧
  (
    let ps : List Part := [.mitEgress, .mit, .notices, .errDue, .out]
    let fs : List Fld := ctrFields ++ errFields ++ writeFields ++ packetFields ++ hostFields ++ aerFields ++ roundFields ++ knitFields ++ busFields ++ fetchFields ++
      [F.MOV_CH_STAT_STATE, F.MOV_CH_STAT_STATUS, V.MSIX_PEND, V.WITHDRAWN, V.NOTICE_SEQ, V.MOV_TO_ERR, V.PS_WAIT, V.MOV_WAITC]
    (∀ (fn : Nat) (user : Nat) (q : Nat) (c : Nat) (s t : State), exec (.hostAccessFail fn user q c) s = .next t → s.writes ps fs t)) ∧
  (
    let ps : List Part := [.out]
    let fs : List Fld := [F.CTRM_VAL_COUNT, F.CTRM_VAL_OVF, V.MSIX_MASK, V.MSIX_PEND, V.RAISED]
    (∀ (fn : Nat) (vec : Nat) (s t : State), exec (.msixUnmask fn vec) s = .next t → s.writes ps fs t)) ∧
  (
    let ps : List Part := [.hbm, .badSectors, .errDue, .out, .free]
    let fs : List Fld := ctrFields ++ errFields ++ writeFields ++ readFields ++ hostFields ++ aerFields ++ yofFields ++
      [F.PCI_FN_STAT_BADACC, F.DBG_CHAL_CHAL, V.MSIX_PEND, V.CHAL_OK, V.SPLIT_OFF, V.SPLIT_HI, V.SPLIT_OK]
    (∀ (fn : Nat) (off : Nat) (size : Nat) (s t : State), exec (.splitReadLow fn off size) s = .next t → s.writes ps fs t)) ∧
  (
    let ps : List Part := []
    let fs : List Fld := [F.LDG_KTEST_SEED_SEED, F.LDG_KTEST_IN_STEP, F.LDG_KTEST_IN_COLL, F.LDG_KTEST_POS_CHUNK, F.LDG_KTEST_POS_ELEM,
      F.LDG_KTEST_OUT_NOISE]
    (∀ (reg : Nat) (value : BitVec 64) (s t : State), exec (.kegusTestWrite reg value) s = .next t → s.writes ps fs t))

/-- Frame of the commands of the security services, the test access port and SPDM: what each leaves unchanged. -/
def Obligations.SecurityFrame : Prop :=
  (
    let ps : List Part := []
    (∀ (obj : List Byte) (s t : State), exec (.lifecycleObject obj) s = .next t → s.keepsParts ps t) ∧
    (∀ (cert : List Byte) (s t : State), exec (.ownerEnrol cert) s = .next t → s.keepsParts ps t) ∧
    (∀ (token : List Byte) (s t : State), exec (.tokenSubmit token) s = .next t → s.keepsParts ps t) ∧
    (∀ (s t : State), exec .debugRelease s = .next t → s.keepsParts ps t) ∧
    (∀ (s t : State), exec .grantExpiry s = .next t → s.keepsParts ps t) ∧
    (∀ (token : List Byte) (s t : State), exec (.dbgToken token) s = .next t → s.keepsParts ps t)) ∧
  (
    let ps : List Part := [.hbm, .badSectors, .out]
    let fs : List Fld := ctrFields ++ writeFields ++ hostFields ++ yofFields ++
      [F.SEC_LC_COUNT, F.SEC_STATUS_BUSY, F.SEC_STATUS_RESULT, F.SEC_FLOOR_FW, F.SEC_FLOOR_KNIT, F.SEC_BOOT_EPOCH,
       F.SEC_BOOT_OWNER_GEN, V.MSIX_PEND, V.FLASH_CTR, V.FLASH_SEQ, V.FLASH_KEYED, V.SEC_NOVEC, V.FLASH_KEY]
    (∀ (s t : State), exec .firmwareFloor s = .next t → s.writes ps fs t) ∧
    (∀ (s t : State), exec .knitFloor s = .next t → s.writes ps fs t)) ∧
  (
    let ps : List Part := [.hbm, .badSectors, .errDue, .out, .free]
    let fs : List Fld := ctrFields ++ errFields ++ writeFields ++ readFields ++ hostFields ++ aerFields ++ yofFields ++
      [F.PCI_FN_STAT_BADACC, F.DBG_CHAL_CHAL, V.MSIX_PEND, V.CHAL_OK, V.SPLIT_OFF, V.SPLIT_HI, V.SPLIT_OK]
    (∀ (s t : State), exec .challengeRead s = .next t → s.writes ps fs t)) ∧
  (
    let ps : List Part := [.errDue, .out]
    let fs : List Fld := errFields ++
      [F.DBG_LEVEL_LEVEL, F.DBG_LEVEL_IFACE, F.DBG_STATUS_BUSY, F.DBG_STATUS_RESULT, F.CTRM_VAL_COUNT, F.CTRM_VAL_OVF,
       V.MSIX_PEND, V.RAISED]
    (∀ (s t : State), exec .debugRequestD1 s = .next t → s.writes ps fs t)) ∧
  (
    let ps : List Part := [.flash]
    let fs : List Fld := [F.HAT_BOOT_STEP, F.HAT_BOOT_FAILED, F.HAT_BOOT_FAIL_STEP, V.OPEN_TO, V.BOOTING, V.BOOT_NS, V.VIN_P3, V.WAKE_BOOT, V.REPAIR]
    (∀ (addr : Nat) (data : List Byte) (s t : State), exec (.firmwareUpdate addr data) s = .next t → s.writes ps fs t)) ∧
  (
    let ps : List Part := [.out]
    let fs : List Fld := [V.JTAG_IR]
    (∀ (s t : State), exec .bypass s = .next t → s.writes ps fs t) ∧
    (∀ (s t : State), exec .idcode s = .next t → s.writes ps fs t) ∧
    (∀ (s t : State), exec .clamp s = .next t → s.writes ps fs t) ∧
    (∀ (s t : State), exec .highz s = .next t → s.writes ps fs t)) ∧
  (
    let ps : List Part := [.out, .free]
    let fs : List Fld := [V.JTAG_IR, V.JTAG_BSR]
    (∀ (bits : BitVec 4096) (s t : State), exec (.samplePreload bits) s = .next t → s.writes ps fs t) ∧
    (∀ (bits : BitVec 4096) (s t : State), exec (.extest bits) s = .next t → s.writes ps fs t) ∧
    (∀ (bits : BitVec 4096) (s t : State), exec (.extestPulse bits) s = .next t → s.writes ps fs t) ∧
    (∀ (bits : BitVec 4096) (s t : State), exec (.extestTrain bits) s = .next t → s.writes ps fs t)) ∧
  (
    let ps : List Part := [.errDue, .out]
    let fs : List Fld := errFields ++
      [F.DBG_LEVEL_LEVEL, F.DBG_LEVEL_IFACE, F.DBG_STATUS_BUSY, F.DBG_STATUS_RESULT, F.CTRM_VAL_COUNT, F.CTRM_VAL_OVF,
       V.MSIX_PEND, V.JTAG_IR, V.RAISED]
    (∀ (bit : Bool) (s t : State), exec (.dbgReq bit) s = .next t → s.writes ps fs t)) ∧
  (
    let ps : List Part := [.out]
    let fs : List Fld := [V.JTAG_IR, V.DBGA_STATUS, V.DBGA_REQ, V.DBGA_GRANT]
    (∀ (bits : BitVec 96) (s t : State), exec (.dbgAccess bits) s = .next t → s.writes ps fs t)) ∧
  (
    let ps : List Part := [.hbm, .badSectors, .out]
    let fs : List Fld := ctrFields ++ writeFields ++ hostFields ++ yofFields ++
      [V.MSIX_PEND]
    (∀ (s t : State), exec .getVersion s = .next t → s.writes ps fs t) ∧
    (∀ (s t : State), exec .getCapabilities s = .next t → s.writes ps fs t) ∧
    (∀ (s t : State), exec .negotiateAlgorithms s = .next t → s.writes ps fs t) ∧
    (∀ (s t : State), exec .getDigests s = .next t → s.writes ps fs t) ∧
    (∀ (off : Nat) (len : Nat) (s t : State), exec (.getCertificate off len) s = .next t → s.writes ps fs t)) ∧
  (
    let ps : List Part := [.hbm, .badSectors, .out, .free]
    let fs : List Fld := ctrFields ++ writeFields ++ hostFields ++ yofFields ++
      [V.MSIX_PEND]
    (∀ (nonce : List Byte) (s t : State), exec (.challenge nonce) s = .next t → s.writes ps fs t) ∧
    (∀ (index : Nat) (nonce : List Byte) (s t : State), exec (.getMeasurements index nonce) s = .next t → s.writes ps fs t))

/-- Frame of the commands of counters, Tally, the sampler and injection: what each leaves unchanged. -/
def Obligations.ObsFrame : Prop :=
  (
    let ps : List Part := []
    let fs : List Fld := [F.CTRM_VAL_COUNT, F.CTRM_VAL_OVF, F.CTR_VAL_COUNT, F.CTR_VAL_OVF]
    (∀ (value : BitVec 64) (s t : State), exec (.counterClear value) s = .next t → s.writes ps fs t)) ∧
  (
    let ps : List Part := []
    let fs : List Fld := [F.CTRM_VAL_COUNT, F.CTRM_VAL_OVF, F.CTR_TALLY_STAT_SKIPPED, V.RAISED, V.SWEEP_BANKS, V.SWEEP_PROGS, V.SWEEP_AT, V.SWEEP_WAIT]
    (∀ (due : List Nat) (skipped : List Nat) (s t : State), exec (.tallySweep due skipped) s = .next t → s.writes ps fs t)) ∧
  (
    let ps : List Part := [.psBuf]
    let fs : List Fld := sampleFields ++
      [F.CTR_PS_CTL_EN, F.CTR_PS_CTL_SOURCE, F.CTR_PS_CTL_MODE, F.CTR_PS_CTL_K, F.CTR_PS_CTL_PART, F.CTR_PS_CTL_PART_EN,
       F.CTR_PS_CTL_PORT, V.PS_COUNT]
    (∀ (q : Nat) (value : BitVec 64) (s t : State), exec (.samplerCtlWrite q value) s = .next t → s.writes ps fs t)) ∧
  (
    let ps : List Part := []
    let fs : List Fld := [F.ERR_INJ_CTL_EN, V.HOST_W]
    (∀ (value : BitVec 64) (s t : State), exec (.injectEnableWrite value) s = .next t → s.writes ps fs t)) ∧
  (
    let ps : List Part := [.hbm, .badSectors, .staging, .bufs, .reasm, .svc, .mitEgress, .parkQ, .movCmds, .mit, .notices,
      .slots, .slab, .waits, .admMsgs, .pagerOp, .insts, .cqWait, .psBuf, .handoffs, .upd, .errDue, .out, .free]
    let bs : List Block := [.knt, .xpt, .ldg, .slt, .arb, .seq, .upd, .grm, .mit, .cor, .lnk, .prk, .mov, .tray, .hat, .pci,
      .ctrm, .ctr, .err, .anatomy, .knit, .transport, .ledger, .slots, .programs, .update, .gram, .mitten, .switch, .link,
      .memory, .mover, .trayCtl, .power, .security, .host, .observe, .wheels]
    (∀ (value : BitVec 64) (s t : State), exec (.errorInject value) s = .next t → s.touches ps bs t))

/-- No command ends a run, whatever its operands and the state; one whose operands name no unit of the module changes nothing (log entry 4). -/
def Obligations.EveryCommandAnswers : Prop :=
  ∀ (c : Instr) (s : State), (∃ t, exec c s = .next t ∧ t.pending = s.pending) ∧ (c.wf = false → exec c s = .next s)

/-- Runs of any length go on from every state, not only from reset; each step takes one command, and well-formed commands stay so. -/
def Obligations.RunsNeverStop : Prop :=
  ∀ (n : Nat) (s : State), ∃ t : State, core.run n s = .next t ∧ t.pending = s.pending.drop n ∧ (s.Safe → t.Safe)

/-- The canonical form of memory under each memory operation. -/
def Obligations.MemoryOperationsKeepForm : Prop :=
  ∀ s : State, s.memWf = true →
    (∀ (stack dev : Nat) (bs : List Byte), (s.devWrite stack dev bs).memWf = true) ∧
    (∀ (part a : Nat) (bs : List Byte) (t : State), s.memWrite part a bs = some t → t.memWf = true) ∧
    (∀ (stack base n : Nat), (s.zeroDev stack base n).memWf = true) ∧
    (∀ (a : Nat) (bs : List Byte), (s.flashPut a bs).memWf = true) ∧
    (∀ (bank region quad part off : Nat) (bs : List Byte),
      { s with img := s.img.put bank region quad part off bs }.memWf = true)

/-- A read after a write gives the bytes written, and every other byte keeps its value. -/
def Obligations.DeviceWriteIsExact : Prop :=
  ∀ (stack dev : Nat) (bs : List Byte) (s : State),
    (∀ (i : Nat) (h : i < bs.length), Mem.read (hbmKey stack dev + i) (s.devWrite stack dev bs).hbm = bs[i]) ∧
    s.bytesBut (fun a => hbmKey stack dev ≤ a ∧ a < hbmKey stack dev + bs.length) (s.devWrite stack dev bs) ∧
    s.writes [.hbm, .badSectors] (writeFields ++ [V.RAISED]) (s.devWrite stack dev bs)

/-- The canonical form of the three memories is an invariant of every step. -/
def Obligations.MemoryFormKept : Prop :=
  ∀ s t : State, s.memWf = true → step s = .next t → t.memWf = true

/-- Every byte of HBM keeps its value under these commands, which start the Yofen on demand or boot it, but the bytes of error rings that take the
Hatband's records; and in the cycle's end, which writes the records of the cycle, but those and the bytes of completion queues. -/
def Obligations.ErrorRecordsStayInTheirRings : Prop :=
  (∀ (fn : Nat) (off : Nat) (size : Nat) (s t : State), exec (.splitReadLow fn off size) s = .next t → s.bytesBut s.inErrRing t) ∧
  (∀ (s t : State), exec .firmwareFloor s = .next t → s.bytesBut s.inErrRing t) ∧
  (∀ (s t : State), exec .knitFloor s = .next t → s.bytesBut s.inErrRing t) ∧
  (∀ (s t : State), exec .challengeRead s = .next t → s.bytesBut s.inErrRing t) ∧
  (∀ (s t : State), exec .getVersion s = .next t → s.bytesBut s.inErrRing t) ∧
  (∀ (s t : State), exec .getCapabilities s = .next t → s.bytesBut s.inErrRing t) ∧
  (∀ (s t : State), exec .negotiateAlgorithms s = .next t → s.bytesBut s.inErrRing t) ∧
  (∀ (s t : State), exec .getDigests s = .next t → s.bytesBut s.inErrRing t) ∧
  (∀ (off : Nat) (len : Nat) (s t : State), exec (.getCertificate off len) s = .next t → s.bytesBut s.inErrRing t) ∧
  (∀ (nonce : List Byte) (s t : State), exec (.challenge nonce) s = .next t → s.bytesBut s.inErrRing t) ∧
  (∀ (index : Nat) (nonce : List Byte) (s t : State), exec (.getMeasurements index nonce) s = .next t → s.bytesBut s.inErrRing t) ∧
  (∀ (binding : Nat) (eid : BitVec 8) (s t : State), exec (.setEndpointId binding eid) s = .next t → s.bytesBut s.inErrRing t) ∧
  (∀ (n : Nat) (s t : State), exec (.pldmSensorRead n) s = .next t → s.bytesBut s.inErrRing t) ∧
  (∀ (s t : State), exec .yofenReboot s = .next t → s.bytesBut s.inErrRing t) ∧
  (∀ s t : State, s.pending = [] → s.rd V.JTAG_TOKN [] = 0 → s.rd V.DBGA_REQ [] = 0 → (∀ q, q < 4 → s.rd V.MOV_RESTART [q] = 0) →
    s.rd V.SWEEP_PROGS [] = 0 → step s = .next t → s.bytesBut (fun a => s.inErrRing a ∨ s.inCompletionQueue a) t)

/-- Every byte of HBM keeps its value under these commands but the bytes of completion queues. -/
def Obligations.CompletionRecordsStayInTheirQueues : Prop :=
  (∀ (p : Nat) (coll : Nat) (step : Nat) (s t : State), exec (.resultResendTimer p coll step) s = .next t → s.bytesBut s.inCompletionQueue t) ∧
  (∀ (q : Nat) (pkt : Packet) (s t : State), exec (.contrib q pkt) s = .next t → s.bytesBut s.inCompletionQueue t) ∧
  (∀ (q : Nat) (p : Nat) (coll : Nat) (step : Nat) (chunk : Nat) (granted : Bool) (s t : State), exec (.admissionReply q p coll step chunk granted) s = .next t → s.bytesBut s.inCompletionQueue t) ∧
  (∀ (q : Nat) (p : Nat) (coll : Nat) (step : Nat) (chunk : Nat) (s t : State), exec (.slotReadoutComplete q p coll step chunk) s = .next t → s.bytesBut s.inCompletionQueue t) ∧
  (∀ (q : Nat) (p : Nat) (coll : Nat) (step : Nat) (chunk : Nat) (s t : State), exec (.tier0Partial q p coll step chunk) s = .next t → s.bytesBut s.inCompletionQueue t) ∧
  (∀ (q : Nat) (p : Nat) (coll : Nat) (step : Nat) (chunk : Nat) (s t : State), exec (.partialDelivered q p coll step chunk) s = .next t → s.bytesBut s.inCompletionQueue t) ∧
  (∀ (q : Nat) (pkt : Packet) (s t : State), exec (.partialReceive q pkt) s = .next t → s.bytesBut s.inCompletionQueue t) ∧
  (∀ (q : Nat) (pkt : Packet) (s t : State), exec (.resultFromRack q pkt) s = .next t → s.bytesBut s.inCompletionQueue t) ∧
  (∀ (q : Nat) (pkt : Packet) (s t : State), exec (.publishFromRack q pkt) s = .next t → s.bytesBut s.inCompletionQueue t) ∧
  (∀ (q : Nat) (s t : State), exec (.pagerOpComplete q) s = .next t → s.bytesBut s.inCompletionQueue t) ∧
  (∀ (q : Nat) (p : Nat) (e : Nat) (prod : BitVec 32) (s t : State), exec (.ringDoorbell q p e prod) s = .next t → s.bytesBut s.inCompletionQueue t) ∧
  (∀ (q : Nat) (pkt : Packet) (s t : State), exec (.doorbell q pkt) s = .next t → s.bytesBut s.inCompletionQueue t) ∧
  (∀ (q : Nat) (p : Nat) (e : Nat) (s t : State), exec (.ringErrClear q p e) s = .next t → s.bytesBut s.inCompletionQueue t) ∧
  (∀ (p : Nat) (k : Nat) (s t : State), exec (.cqRecordWrite p k) s = .next t → s.bytesBut s.inCompletionQueue t) ∧
  (∀ (q : Nat) (p : Nat) (entry : BitVec 512) (s t : State), exec (.collective q p entry) s = .next t → s.bytesBut s.inCompletionQueue t) ∧
  (∀ (q : Nat) (p : Nat) (entry : BitVec 512) (s t : State), exec (.armStep q p entry) s = .next t → s.bytesBut s.inCompletionQueue t) ∧
  (∀ (q : Nat) (p : Nat) (entry : BitVec 512) (s t : State), exec (.trigger q p entry) s = .next t → s.bytesBut s.inCompletionQueue t) ∧
  (∀ (q : Nat) (p : Nat) (entry : BitVec 512) (s t : State), exec (.increment q p entry) s = .next t → s.bytesBut s.inCompletionQueue t) ∧
  (∀ (q : Nat) (p : Nat) (entry : BitVec 512) (s t : State), exec (.abortCollective q p entry) s = .next t → s.bytesBut s.inCompletionQueue t) ∧
  (∀ (q : Nat) (p : Nat) (entry : BitVec 512) (s t : State), exec (.stepReplay q p entry) s = .next t → s.bytesBut s.inCompletionQueue t) ∧
  (∀ (p : Nat) (s t : State), exec (.stepReplayEnd p) s = .next t → s.bytesBut s.inCompletionQueue t) ∧
  (∀ (q : Nat) (p : Nat) (entry : BitVec 512) (s t : State), exec (.warm q p entry) s = .next t → s.bytesBut s.inCompletionQueue t) ∧
  (∀ (q : Nat) (pkt : Packet) (s t : State), exec (.done q pkt) s = .next t → s.bytesBut s.inCompletionQueue t) ∧
  (∀ (q : Nat) (pkt : Packet) (s t : State), exec (.gapNack q pkt) s = .next t → s.bytesBut s.inCompletionQueue t) ∧
  (∀ (p : Nat) (n : Nat) (s t : State), exec (.convertMulticast p n) s = .next t → s.bytesBut s.inCompletionQueue t) ∧
  (∀ (p : Nat) (n : Nat) (s t : State), exec (.signalHost p n) s = .next t → s.bytesBut s.inCompletionQueue t) ∧
  (∀ (p : Nat) (coll : Nat) (step : Nat) (chunk : Nat) (s t : State), exec (.partialResendTimer p coll step chunk) s = .next t → s.bytesBut s.inCompletionQueue t) ∧
  (∀ (p : Nat) (coll : Nat) (step : Nat) (chunk : Nat) (s t : State), exec (.podHoldExpiry p coll step chunk) s = .next t → s.bytesBut s.inCompletionQueue t) ∧
  (∀ (p : Nat) (s t : State), exec (.stepDecided p) s = .next t → s.bytesBut s.inCompletionQueue t) ∧
  (∀ (q : Nat) (p : Nat) (entry : BitVec 512) (s t : State), exec (.publish q p entry) s = .next t → s.bytesBut s.inCompletionQueue t) ∧
  (∀ (q : Nat) (p : Nat) (entry : BitVec 512) (s t : State), exec (.setT q p entry) s = .next t → s.bytesBut s.inCompletionQueue t) ∧
  (∀ (q : Nat) (p : Nat) (entry : BitVec 512) (s t : State), exec (.gramAcc q p entry) s = .next t → s.bytesBut s.inCompletionQueue t) ∧
  (∀ (q : Nat) (p : Nat) (entry : BitVec 512) (s t : State), exec (.matmul q p entry) s = .next t → s.bytesBut s.inCompletionQueue t) ∧
  (∀ (q : Nat) (p : Nat) (entry : BitVec 512) (s t : State), exec (.nsRoot q p entry) s = .next t → s.bytesBut s.inCompletionQueue t) ∧
  (∀ (q : Nat) (p : Nat) (entry : BitVec 512) (s t : State), exec (.nsOrtho q p entry) s = .next t → s.bytesBut s.inCompletionQueue t) ∧
  (∀ (q : Nat) (p : Nat) (entry : BitVec 512) (s t : State), exec (.apply q p entry) s = .next t → s.bytesBut s.inCompletionQueue t) ∧
  (∀ (q : Nat) (p : Nat) (s t : State), exec (.gramWaitRelease q p) s = .next t → s.bytesBut s.inCompletionQueue t) ∧
  (∀ (q : Nat) (p : Nat) (s t : State), exec (.gramProgressTimeout q p) s = .next t → s.bytesBut s.inCompletionQueue t) ∧
  (∀ (pkt : Packet) (s t : State), exec (.mitMember pkt) s = .next t → s.bytesBut s.inCompletionQueue t) ∧
  (∀ (pkt : Packet) (s t : State), exec (.mitRow pkt) s = .next t → s.bytesBut s.inCompletionQueue t) ∧
  (∀ (pkt : Packet) (s t : State), exec (.mitColumn pkt) s = .next t → s.bytesBut s.inCompletionQueue t) ∧
  (∀ (pkt : Packet) (s t : State), exec (.mitCourier pkt) s = .next t → s.bytesBut s.inCompletionQueue t) ∧
  (∀ (q : Nat) (stack : Nat) (channel : Nat) (whole : Bool) (s t : State), exec (.hbmRetire q stack channel whole) s = .next t → s.bytesBut s.inCompletionQueue t) ∧
  (∀ (q : Nat) (value : BitVec 64) (s t : State), exec (.hbmRetireCmd q value) s = .next t → s.bytesBut s.inCompletionQueue t) ∧
  (∀ (q : Nat) (stack : Nat) (pc : Nat) (req : Nat) (s t : State), exec (.hbmLockTimeout q stack pc req) s = .next t → s.bytesBut s.inCompletionQueue t) ∧
  (∀ (q : Nat) (p : Nat) (entry : BitVec 512) (s t : State), exec (.moverStart q p entry) s = .next t → s.bytesBut s.inCompletionQueue t) ∧
  (∀ (q : Nat) (p : Nat) (c : Nat) (entry : BitVec 512) (s t : State), exec (.moverPause q p c entry) s = .next t → s.bytesBut s.inCompletionQueue t) ∧
  (∀ (q : Nat) (p : Nat) (c : Nat) (entry : BitVec 512) (s t : State), exec (.moverResume q p c entry) s = .next t → s.bytesBut s.inCompletionQueue t) ∧
  (∀ (q : Nat) (p : Nat) (c : Nat) (entry : BitVec 512) (s t : State), exec (.moverAbort q p c entry) s = .next t → s.bytesBut s.inCompletionQueue t) ∧
  (∀ (q : Nat) (p : Nat) (c : Nat) (s t : State), exec (.moverErrClear q p c) s = .next t → s.bytesBut s.inCompletionQueue t) ∧
  (∀ (q : Nat) (p : Nat) (c : Nat) (s t : State), exec (.pauseDrainEnd q p c) s = .next t → s.bytesBut s.inCompletionQueue t) ∧
  (∀ (q : Nat) (s t : State), exec (.quadrantReset q) s = .next t → s.bytesBut s.inCompletionQueue t) ∧
  (∀ (value : BitVec 64) (s t : State), exec (.errorInject value) s = .next t → s.bytesBut s.inCompletionQueue t) ∧
  (∀ (q : Nat) (p : Nat) (c : Nat) (s t : State), exec (.moverRecordWrite q p c) s = .next t → s.bytesBut s.inCompletionQueue t)

/-- The address that BAR2_WRITE stores to is the one its meaning computes. -/
def Obligations.HostWriteStaysInPlace : Prop :=
  ∀ (fn off : Nat) (data : List Byte) (poisoned : Bool) (s t : State), exec (.bar2Write fn off data poisoned) s = .next t →
    s.bytesBut (fun a => ∃ ps, s.place fn (s.bar2Addr fn off) data.length = some ps ∧ poisoned = false ∧ a ∈ placeKeys ps) t

/-- Whole-machine rule over every command: who may change boot flash. -/
def Obligations.BootFlashChangesOnlyByItsCommands : Prop :=
  let writes : Instr → Bool := fun
    | .firmwareUpdate .. => true
    | .lifecycleObject .. => true
    | .ownerEnrol .. => true
    | .startupStepComplete .. => true
    | _ => false
  ∀ (c : Instr) (s t : State), writes c = false → exec c s = .next t → t.flash = s.flash

/-- The rollback floors (counters 0 and 1 of R493): who may raise them, and to what.  A floor never falls; RESULT 0 says that it is at its value. -/
def Obligations.FloorsRiseOnlyBySecCmd : Prop :=
  let secCmd : Instr → Bool := fun
    | .firmwareFloor => true
    | .knitFloor => true
    | .registerWrite .. => true
    | .debugWindowAccess .. => true
    | _ => false
  (∀ (c : Instr) (s t : State), secCmd c = false → exec c s = .next t →
    t.rd V.FLASH_CTR [0] = s.rd V.FLASH_CTR [0] ∧ t.rd V.FLASH_CTR [1] = s.rd V.FLASH_CTR [1]) ∧
  (∀ s : State, s.barOn = true → s.yofDemand.yofRuns = true → ∃ t, exec .firmwareFloor s = .next t ∧
    let floor := max (s.rd V.FLASH_CTR [0]) (min (leAt (s.flashBytes 0x10000 12) 8 4) (leAt (s.flashBytes 0x40000 12) 8 4))
    (t.rd V.FLASH_CTR [0] = s.rd V.FLASH_CTR [0] ∨ t.rd V.FLASH_CTR [0] = floor) ∧
    (t.rd F.SEC_STATUS_RESULT [] = 0 → t.rd V.FLASH_CTR [0] = floor) ∧
    t.rd V.FLASH_CTR [1] = s.rd V.FLASH_CTR [1]) ∧
  (∀ s : State, s.barOn = true → s.yofDemand.yofRuns = true → s.rd V.BASE_SERIAL [] < 2 ^ 32 → ∃ t, exec .knitFloor s = .next t ∧
    let floor := max (s.rd V.FLASH_CTR [1]) (s.rd V.BASE_SERIAL [])
    (t.rd V.FLASH_CTR [1] = s.rd V.FLASH_CTR [1] ∨ t.rd V.FLASH_CTR [1] = floor) ∧
    (t.rd F.SEC_STATUS_RESULT [] = 0 → t.rd V.FLASH_CTR [1] = floor) ∧
    t.rd V.FLASH_CTR [0] = s.rd V.FLASH_CTR [0])

/-- R45.  V.KNT_FN names the function whose load runs. -/
def Obligations.LoadWhileALoadRuns : Prop :=
  ∀ (fn : Nat) (s : State), (Instr.knitLoad fn).wf = true → s.barOn = true → s.img.brimValid fn = true →
    s.rdb V.KNT_FN [] = true → s.rd F.KNT_STATUS_STATE [s.knitFn] ∈ [1, 2, 3, 4] →
    ∃ t, exec (.knitLoad fn) s = .next t ∧ t.rd F.KNT_STATUS_REFUSED [fn] = 1 ∧ s.writes [] [F.KNT_STATUS_REFUSED, V.RAISED] t

/-- R414, for commands from the ring (a nonzero entry) and from MOV_CH_CTL (entry 0). -/
def Obligations.PauseAndResume : Prop :=
  let taken : State → Nat → Nat → Nat → Nat → Nat → Prop := fun s q p c op entry =>
    entry = 0 ∨ (s.ringCmd q p 3 op entry = true ∧ bitsOf entry 64 2 ≠ 0 ∧ movChan entry = c)
  (∀ (q p c : Nat) (entry : BitVec 512) (s : State), (Instr.moverResume q p c entry).wf = true → s.quadOn q = true →
    taken s q p c 3 entry.toNat → s.rd F.MOV_CH_STAT_STATE [q, p, c] = 3 →
    ∃ t, exec (.moverResume q p c entry) s = .next t ∧
      t.rd F.MOV_CH_STAT_BUSY [q, p, c] = 1 ∧ t.rd F.MOV_CH_STAT_STATE [q, p, c] = 3) ∧
  (∀ (q p c : Nat) (s : State), (Instr.pauseDrainEnd q p c).wf = true → s.quadOn q = true →
    s.rdb F.MOV_STAT_STOPPED [q] = false → s.rd F.MOV_CH_STAT_STATE [q, p, c] = 3 → s.rdb V.MOV_DROP [q, p, c] = false →
    s.rdb F.MOV_CH_STAT_BUSY [q, p, c] = true →
    ∃ t, exec (.pauseDrainEnd q p c) s = .next t ∧ t.rd F.MOV_CH_STAT_BUSY [q, p, c] = 0 ∧
      (t.rd F.MOV_CH_STAT_STATE [q, p, c] = 1 ∨ t.rd F.MOV_CH_STAT_STATE [q, p, c] = 2)) ∧
  (∀ (q p c : Nat) (entry : BitVec 512) (s : State), (Instr.moverPause q p c entry).wf = true → s.quadOn q = true →
    taken s q p c 2 entry.toNat → s.rd F.MOV_CH_STAT_STATE [q, p, c] ∈ [0, 4] →
    ∃ t, exec (.moverPause q p c entry) s = .next t ∧
      ∀ (f : Fld) (ix : List Nat), f.block = some .mov → t.rd f ix = s.rd f ix)

/-- R143: both test vectors, every round.  The initial words and round keys of vector 2 are those that the spec gives. -/
def Obligations.KegusTestVectors : Prop :=
  let rounds : Nat × Nat → Nat → Nat → List (Nat × Nat) := fun xy a b =>
    let r0 := kegusRound xy (0x9E3779B9, 7, a)
    let r1 := kegusRound r0 (0x3C6EF372, 13, b)
    let r2 := kegusRound r1 (0xDAA66D2B, 17, a)
    [r0, r1, r2, kegusRound r2 (0x78DDE6E4, 25, b)]
  rounds (0, 0) 0 0 = [(0x9E3779B9, 0x9E3779B9), (0x78DDE6E4, 0x97EAD522), (0xEB6F2931, 0x412A06E4), (0xA57716F9, 0x6DF542F4)] ∧
    kegus 0 0 0 0 0 = 0x6DF542F4 ∧
    rounds (0x38A, 0x3802) 0x2B 0x25 =
      [(0x9E37B56E, 0x9E2BB445), (0x78D25D00, 0x0E5AEEE0), (0x61D3B920, 0xBC13A5BE), (0x96C545E7, 0xEBBD6289)] ∧
    kegus 0x0000000700000001 907 0x0012 28 5 = 0xEBBD6289

/-- R123. -/
def Obligations.ConvertedInputsAreLimited : Prop :=
  ∀ (x : Ex) (w : Int),
    (toLedger x w).1.natAbs ≤ 2 ^ 115 - 1 ∧
    (2 ^ 115 - 1 < roundAt x (w - 100) .rne →
      (toLedger x w).1 = (if x.neg then -(2 ^ 115 - 1 : Int) else 2 ^ 115 - 1) ∧ (toLedger x w).2.ovf = true) ∧
    (roundAt x (w - 100) .rne ≤ 2 ^ 115 - 1 →
      (toLedger x w).1.natAbs = roundAt x (w - 100) .rne ∧ (toLedger x w).2.ovf = false)

/-- The two cases and the saturation of R147, with rounding said by its property and not by the routine. -/
def Obligations.WindowMove : Prop :=
  ∀ l w w' : Int,
    (w' ≤ w → -(2 ^ 127 : Int) ≤ l * 2 ^ (w - w').toNat → l * 2 ^ (w - w').toNat < 2 ^ 127 →
      moveWindow l w w' = (l * 2 ^ (w - w').toNat, false)) ∧
    (w' ≤ w → 2 ^ 127 ≤ l * 2 ^ (w - w').toNat → moveWindow l w w' = (2 ^ 127 - 1, true)) ∧
    (w' ≤ w → l * 2 ^ (w - w').toNat < -(2 ^ 127 : Int) → moveWindow l w w' = (-(2 ^ 127 : Int), true)) ∧
    (w < w' → -(2 ^ 127 : Int) ≤ l → l < 2 ^ 127 →
      ∃ m : Nat, moveWindow l w w' = (if l < 0 then -(m : Int) else m, false) ∧
        2 * m * 2 ^ (w' - w).toNat ≤ 2 * l.natAbs + 2 ^ (w' - w).toNat ∧
        2 * l.natAbs ≤ 2 * m * 2 ^ (w' - w).toNat + 2 ^ (w' - w).toNat ∧
        ((2 * l.natAbs = 2 * m * 2 ^ (w' - w).toNat + 2 ^ (w' - w).toNat ∨
          2 * l.natAbs + 2 ^ (w' - w).toNat = 2 * m * 2 ^ (w' - w).toNat) → m % 2 = 0))

/-- The effective cap of R428 over its table of active caps. -/
def Obligations.EffectiveCapIsTheLeast : Prop :=
  ∀ (s : State) (vin : Ex), decodeFloat fmtFp32 (s.adc 0) = some vin → vin.neg = false →
    let whole : Nat → Ex := fun n => ⟨false, n, 1⟩
    let forty : Ex := { vin with n := 40 * vin.n }
    let policy : Ex := whole (s.img.le 0x0A 4 0 0 2 % 4096)
    let host : Ex := whole (s.rd F.TRY_CAP_HOST_CAP_W [])
    let alert : Ex := whole (s.rd F.TRY_ALERT_ALERT_W [])
    let cap := s.effCap.2
    exLt (whole 2000) cap = false ∧ exLt forty cap = false ∧ exLt policy cap = false ∧
      (s.rdb F.TRY_CAP_HOST_CAP_W [] = true → exLt host cap = false) ∧
      (s.rdb F.TRY_STAGE_PUMP [] = true → exLt (whole 600) cap = false) ∧
      (s.rdb F.TRY_ALERT_ASSERTED [] = true → exLt alert cap = false) ∧
      (cap = whole 2000 ∨ cap = forty ∨ cap = policy ∨ (s.rdb F.TRY_CAP_HOST_CAP_W [] = true ∧ cap = host) ∨
        (s.rdb F.TRY_STAGE_PUMP [] = true ∧ cap = whole 600) ∨ (s.rdb F.TRY_ALERT_ASSERTED [] = true ∧ cap = alert))

/-- The access codes of R11 and the ranges of R594, for one field of a register without an action of its own; of a W1C bit that an event sets in the cycle in
which software writes 1, the event wins (R15). -/
def Obligations.FieldAccess : Prop :=
  ∀ (s : State) (h : RegHit) (w : RegWrite) (r : FieldRow),
    (∀ (f : Fld) (ix : List Nat), (f.id, ix) ≠ (r.fld.id, h.ix) → f.id ≠ V.HOST_W.id → (s.fieldWrite h w r).rd f ix = s.rd f ix) ∧
    (w.covers r = false → s.fieldWrite h w r = s) ∧
    (r.acc = .ro → s.fieldWrite h w r = s) ∧
    (r.acc = .rw → w.lo ≤ r.lo → r.lo + r.fld.w ≤ w.hi → 0 < r.fld.w → r.range = none →
      (s.fieldWrite h w r).rd r.fld h.ix = bitsOf w.v (r.lo - w.lo) r.fld.w) ∧
    (∀ lo hi, r.acc = .rw → w.lo ≤ r.lo → r.lo + r.fld.w ≤ w.hi → 0 < r.fld.w → r.range = some (lo, hi) → hi < 2 ^ r.fld.w →
      lo ≤ hi → (s.fieldWrite h w r).rd r.fld h.ix = max lo (min hi (bitsOf w.v (r.lo - w.lo) r.fld.w))) ∧
    (r.acc = .w1c → w.covers r = true → bitsOf w.bits r.lo r.fld.w ≠ 0 → (s.fieldWrite h w r).rd r.fld h.ix =
      if s.rd V.RAISED (r.fld.id :: h.ix) = s.rd V.TIME_PS [] + 1 then s.rd r.fld h.ix else 0) ∧
    (r.acc = .w1c → bitsOf w.bits r.lo r.fld.w = 0 → s.fieldWrite h w r = s) ∧
    (r.acc = .w1s → w.covers r = true → r.fld.w = 1 → bitsOf w.bits r.lo r.fld.w ≠ 0 →
      (s.fieldWrite h w r).rd r.fld h.ix = 1) ∧
    (r.acc = .w1s → bitsOf w.bits r.lo r.fld.w = 0 → s.fieldWrite h w r = s)

/-- The contacts of every lane of every port, as R577 places them: the pair that the module transmits and the one that it receives.  No other contact of
the package carries the lane. -/
def Obligations.EveryLaneHasItsContacts : Prop :=
  (∀ (q l : Nat) (tx pos : Bool), q < 4 → l < 160 → contactAt (laneRow q l tx) (laneCol q l pos) = .lane (160 * q + l) tx pos) ∧
  (∀ (row col n : Nat) (tx pos : Bool), 1 ≤ row → row ≤ 96 → 1 ≤ col → col ≤ 96 → contactAt row col = .lane n tx pos →
    n < 640 ∧ row = laneRow (n / 160) (n % 160) tx ∧ col = laneCol (n / 160) (n % 160) pos)

/-- R12. -/
def Obligations.HostWriteOfAKnitField : Prop :=
  ∀ (s : State) (h : RegHit) (w : RegWrite),
    (∀ r : FieldRow, r.acc = .rwk → s.fieldWrite h w r = s) ∧
    ((∀ r ∈ h.row.fields, r.acc = .rwk) → s.plainWrite h w = s)

end Statements
end

