-- ==== Sys2Proof/Laws/Exec.lean ====
section
/-! SUPPORT. What exec does with each command: its run (Sys2Proof/Machine/Rows.lean) with its guard and its operation. -/

namespace Sys2Proof.Machine

/-- A run of well-formed operands on a unit that is up answers the operation's state with the queue kept. -/
theorem State.run_goes {s t : State} {ok up : Bool} {f : State → State} (h : ok = true) (g : up = true) (e : f s = t) :
    s.run ok up f = .next (t.withQueue s.pending) := by simp [State.run, h, g, e]

/-- A run on a unit that is not up changes nothing. -/
theorem State.run_off {s : State} {ok up : Bool} {f : State → State} (h : ok = true) (g : up = false) :
    s.run ok up f = .next s := by simp [State.run, h, g]

/-- A run of operands that name no unit of the module changes nothing. -/
theorem State.run_none {s : State} {ok up : Bool} {f : State → State} (h : ok = false) :
    s.run ok up f = .next s := by simp [State.run, h]

/-- Everything a run can do. -/
theorem State.run_cases (s : State) (ok up : Bool) (f : State → State) :
    ((ok && up) = false ∧ s.run ok up f = .next s) ∨
      ((ok && up) = true ∧ s.run ok up f = .next ((f s).withQueue s.pending)) := by
  cases ok <;> cases up <;> simp [State.run]

theorem exec_registerWrite (fn : Nat) (off : Nat) (size : Nat) (value : BitVec 64) (s : State) : exec (.registerWrite fn off size value) s =
    s.run (Instr.registerWrite fn off size value).wf true fun t => t.registerWrite fn off size value.toNat := rfl
theorem exec_splitReadLow (fn : Nat) (off : Nat) (size : Nat) (s : State) : exec (.splitReadLow fn off size) s =
    s.run (Instr.splitReadLow fn off size).wf true fun t => t.registerRead fn off size := rfl
theorem exec_seamCrcError (a : Nat) (b : Nat) (s : State) : exec (.seamCrcError a b) s =
    s.run (Instr.seamCrcError a b).wf (s.clocked && a != b) fun t => t.seamCrc a b := rfl
theorem exec_seamDown (a : Nat) (b : Nat) (s : State) : exec (.seamDown a b) s =
    s.run (Instr.seamDown a b).wf (s.clocked && a != b) fun t => t.seamDown a b := rfl
theorem exec_knitLoad (fn : Nat) (s : State) : exec (.knitLoad fn) s =
    s.run (Instr.knitLoad fn).wf (s.barOn && s.img.brimValid fn) fun t => t.knitLoad fn := rfl
theorem exec_knitAbort (fn : Nat) (s : State) : exec (.knitAbort fn) s =
    s.run (Instr.knitAbort fn).wf (s.barOn && s.img.brimValid fn) fun t => t.knitAbort fn := rfl
theorem exec_knitCommit (fn : Nat) (s : State) : exec (.knitCommit fn) s =
    s.run (Instr.knitCommit fn).wf (s.barOn && s.img.brimValid fn) fun t => t.knitCommit fn := rfl
theorem exec_knitFetchComplete (file : List Byte) (s : State) : exec (.knitFetchComplete file) s =
    s.run (Instr.knitFetchComplete file).wf s.clocked fun t => t.fetchDone file := rfl
theorem exec_groupCommit (s : State) : exec .groupCommit s =
    s.run Instr.groupCommit.wf s.clocked fun t => t.groupCommit := rfl
theorem exec_resyncEnd (s : State) : exec .resyncEnd s =
    s.run Instr.resyncEnd.wf s.clocked fun t => t.resyncEnd := rfl
theorem exec_quietTimeout (s : State) : exec .quietTimeout s =
    s.run Instr.quietTimeout.wf s.clocked fun t => t.quietTimeout := rfl
theorem exec_knitVoteResult (s : State) : exec .knitVoteResult s =
    s.run Instr.knitVoteResult.wf s.clocked fun t => t.knitVoteResult := rfl
theorem exec_voteCommitTimeout (s : State) : exec .voteCommitTimeout s =
    s.run Instr.voteCommitTimeout.wf s.clocked fun t => t.voteCommitTimeout := rfl
theorem exec_borderDrainEnd (s : State) : exec .borderDrainEnd s =
    s.run Instr.borderDrainEnd.wf s.clocked fun t => t.borderDrainEnd := rfl
theorem exec_borderDrainTimeout (s : State) : exec .borderDrainTimeout s =
    s.run Instr.borderDrainTimeout.wf s.clocked fun t => t.borderDrainTimeout := rfl
theorem exec_borderZeroizeEnd (mismatch : List (Nat × Nat)) (s : State) : exec (.borderZeroizeEnd mismatch) s =
    s.run (Instr.borderZeroizeEnd mismatch).wf s.clocked fun t => t.borderZeroizeEnd mismatch := rfl
theorem exec_packetHeaderArrival (q : Nat) (port : Nat) (pkt : Packet) (s : State) : exec (.packetHeaderArrival q port pkt) s =
    s.run (Instr.packetHeaderArrival q port pkt).wf (s.quadOn q) fun t => t.headerArrival q port pkt := rfl
theorem exec_ageExpiry (q : Nat) (port : Nat) (s : State) : exec (.ageExpiry q port) s =
    s.run (Instr.ageExpiry q port).wf (s.quadOn q) fun t => t.ageExpiry q port := rfl
theorem exec_epochFlip (p : Nat) (s : State) : exec (.epochFlip p) s =
    s.run (Instr.epochFlip p).wf s.clocked fun t => t.epochFlip p := rfl
theorem exec_epochRetire (p : Nat) (s : State) : exec (.epochRetire p) s =
    s.run (Instr.epochRetire p).wf s.clocked fun t => t.epochRetire p := rfl
theorem exec_resultResendTimer (p : Nat) (coll : Nat) (step : Nat) (s : State) : exec (.resultResendTimer p coll step) s =
    s.run (Instr.resultResendTimer p coll step).wf (s.unitOn (p % 4)) fun t => t.resultResendTimer p coll step := rfl
theorem exec_cnackReceive (q : Nat) (pkt : Packet) (s : State) : exec (.cnackReceive q pkt) s =
    s.run (Instr.cnackReceive q pkt).wf (s.quadOn q) fun t => t.cnackReceive q pkt := rfl
theorem exec_kegusTestWrite (reg : Nat) (value : BitVec 64) (s : State) : exec (.kegusTestWrite reg value) s =
    s.run (Instr.kegusTestWrite reg value).wf s.barOn fun t => t.kegusTestWrite reg value.toNat := rfl
theorem exec_contrib (q : Nat) (pkt : Packet) (s : State) : exec (.contrib q pkt) s =
    s.run (Instr.contrib q pkt).wf (s.engineOn q 0) fun t => t.contribRow q pkt := rfl
theorem exec_admissionRequest (q : Nat) (p : Nat) (coll : Nat) (step : Nat) (chunk : Nat) (s : State) : exec (.admissionRequest q p coll step chunk) s =
    s.run (Instr.admissionRequest q p coll step chunk).wf (s.quadOn q && s.quadUp (crownQuad p coll chunk)) fun t => t.admissionRequest q p coll step chunk := rfl
theorem exec_admissionReply (q : Nat) (p : Nat) (coll : Nat) (step : Nat) (chunk : Nat) (granted : Bool) (s : State) : exec (.admissionReply q p coll step chunk granted) s =
    s.run (Instr.admissionReply q p coll step chunk granted).wf (s.quadOn q) fun t => t.admissionReply q p coll step chunk granted := rfl
theorem exec_slotReadoutComplete (q : Nat) (p : Nat) (coll : Nat) (step : Nat) (chunk : Nat) (s : State) : exec (.slotReadoutComplete q p coll step chunk) s =
    s.run (Instr.slotReadoutComplete q p coll step chunk).wf (s.unitOn q) fun t => t.slotReadoutComplete q p coll step chunk := rfl
theorem exec_tier0Partial (q : Nat) (p : Nat) (coll : Nat) (step : Nat) (chunk : Nat) (s : State) : exec (.tier0Partial q p coll step chunk) s =
    s.run (Instr.tier0Partial q p coll step chunk).wf (s.engineOn (crownQuad p coll chunk) 0) fun t => t.tier0Row q p coll step chunk := rfl
theorem exec_partialDelivered (q : Nat) (p : Nat) (coll : Nat) (step : Nat) (chunk : Nat) (s : State) : exec (.partialDelivered q p coll step chunk) s =
    s.run (Instr.partialDelivered q p coll step chunk).wf (s.quadOn q) fun t => t.partialDelivered q p coll step chunk := rfl
theorem exec_partialReceive (q : Nat) (pkt : Packet) (s : State) : exec (.partialReceive q pkt) s =
    s.run (Instr.partialReceive q pkt).wf (s.engineOn q 0) fun t => t.partialRow q pkt := rfl
theorem exec_resultFromRack (q : Nat) (pkt : Packet) (s : State) : exec (.resultFromRack q pkt) s =
    s.run (Instr.resultFromRack q pkt).wf (s.unitOn q) fun t => t.resultFromRack q pkt := rfl
theorem exec_publishFromRack (q : Nat) (pkt : Packet) (s : State) : exec (.publishFromRack q pkt) s =
    s.run (Instr.publishFromRack q pkt).wf (s.unitOn q) fun t => t.publishFromRack q pkt := rfl
theorem exec_pagerSpill (q : Nat) (p : Nat) (s : State) : exec (.pagerSpill q p) s =
    s.run (Instr.pagerSpill q p).wf (s.unitOn q) fun t => t.pagerSpill q p := rfl
theorem exec_pagerRecall (q : Nat) (p : Nat) (s : State) : exec (.pagerRecall q p) s =
    s.run (Instr.pagerRecall q p).wf (s.unitOn q) fun t => t.pagerRecall q p := rfl
theorem exec_pagerSwap (q : Nat) (p : Nat) (s : State) : exec (.pagerSwap q p) s =
    s.run (Instr.pagerSwap q p).wf (s.unitOn q) fun t => t.pagerSwap q p := rfl
theorem exec_pagerOpComplete (q : Nat) (s : State) : exec (.pagerOpComplete q) s =
    s.run (Instr.pagerOpComplete q).wf (s.unitOn q) fun t => t.pagerOpComplete q := rfl
theorem exec_sweepEnd (p : Nat) (s : State) : exec (.sweepEnd p) s =
    s.run (Instr.sweepEnd p).wf s.clocked fun t => t.sweepEnd p := rfl
theorem exec_slabLockTimeout (q : Nat) (bank : Nat) (port : Nat) (req : Nat) (busy : List (Nat × Nat × Nat × Nat)) (s : State) : exec (.slabLockTimeout q bank port req busy) s =
    s.run (Instr.slabLockTimeout q bank port req busy).wf (s.quadOn q) fun t => t.slabTimeout q bank port req busy := rfl
theorem exec_ringDoorbell (q : Nat) (p : Nat) (e : Nat) (prod : BitVec 32) (s : State) : exec (.ringDoorbell q p e prod) s =
    s.run (Instr.ringDoorbell q p e prod).wf (s.barQuad q && !s.partResetting p) fun t => t.ringDoorbell q p e prod.toNat := rfl
theorem exec_doorbell (q : Nat) (pkt : Packet) (s : State) : exec (.doorbell q pkt) s =
    s.run (Instr.doorbell q pkt).wf (s.quadOn q) fun t => t.doorbell q pkt := rfl
theorem exec_ringErrClear (q : Nat) (p : Nat) (e : Nat) (s : State) : exec (.ringErrClear q p e) s =
    s.run (Instr.ringErrClear q p e).wf (s.barQuad q) fun t => t.ringErrClear q p e := rfl
theorem exec_cqRecordWrite (p : Nat) (k : Nat) (s : State) : exec (.cqRecordWrite p k) s =
    s.run (Instr.cqRecordWrite p k).wf (s.quadOn (p % 4)) fun t => t.cqRecordWrite p k := rfl
theorem exec_collective (q : Nat) (p : Nat) (entry : BitVec 512) (s : State) : exec (.collective q p entry) s =
    s.run (Instr.collective q p entry).wf (s.unitOn q) fun t => t.collective q p entry.toNat := rfl
theorem exec_armStep (q : Nat) (p : Nat) (entry : BitVec 512) (s : State) : exec (.armStep q p entry) s =
    s.run (Instr.armStep q p entry).wf (s.unitOn q) fun t => t.armStep q p entry.toNat := rfl
theorem exec_trigger (q : Nat) (p : Nat) (entry : BitVec 512) (s : State) : exec (.trigger q p entry) s =
    s.run (Instr.trigger q p entry).wf (s.unitOn q) fun t => t.triggerCmd q p entry.toNat := rfl
theorem exec_increment (q : Nat) (p : Nat) (entry : BitVec 512) (s : State) : exec (.increment q p entry) s =
    s.run (Instr.increment q p entry).wf (s.unitOn q) fun t => t.incrementCmd q p entry.toNat := rfl
theorem exec_abortCollective (q : Nat) (p : Nat) (entry : BitVec 512) (s : State) : exec (.abortCollective q p entry) s =
    s.run (Instr.abortCollective q p entry).wf (s.unitOn q) fun t => t.abortCollective q p entry.toNat := rfl
theorem exec_stepReplay (q : Nat) (p : Nat) (entry : BitVec 512) (s : State) : exec (.stepReplay q p entry) s =
    s.run (Instr.stepReplay q p entry).wf (s.unitOn q) fun t => t.stepReplay q p entry.toNat := rfl
theorem exec_stepReplayEnd (p : Nat) (s : State) : exec (.stepReplayEnd p) s =
    s.run (Instr.stepReplayEnd p).wf (s.unitOn (p % 4)) fun t => t.stepReplayEnd p := rfl
theorem exec_warm (q : Nat) (p : Nat) (entry : BitVec 512) (s : State) : exec (.warm q p entry) s =
    s.run (Instr.warm q p entry).wf (s.unitOn q) fun t => t.warm q p entry.toNat := rfl
theorem exec_done (q : Nat) (pkt : Packet) (s : State) : exec (.done q pkt) s =
    s.run (Instr.done q pkt).wf (s.unitOn q) fun t => t.doneCmd q pkt := rfl
theorem exec_gapNack (q : Nat) (pkt : Packet) (s : State) : exec (.gapNack q pkt) s =
    s.run (Instr.gapNack q pkt).wf (s.unitOn q) fun t => t.gapNack q pkt := rfl
theorem exec_patienceExpiry (p : Nat) (coll : Nat) (step : Nat) (s : State) : exec (.patienceExpiry p coll step) s =
    s.run (Instr.patienceExpiry p coll step).wf (s.unitOn (p % 4)) fun t => t.patienceExpiry p coll step := rfl
theorem exec_reduceForward (p : Nat) (n : Nat) (s : State) : exec (.reduceForward p n) s =
    s.run (Instr.reduceForward p n).wf (s.unitOn (p % 4)) fun t => t.reduceForward p n := rfl
theorem exec_convertMulticast (p : Nat) (n : Nat) (s : State) : exec (.convertMulticast p n) s =
    s.run (Instr.convertMulticast p n).wf (s.unitOn (p % 4)) fun t => t.convertMulticast p n := rfl
theorem exec_normContribute (p : Nat) (n : Nat) (s : State) : exec (.normContribute p n) s =
    s.run (Instr.normContribute p n).wf (s.unitOn (p % 4)) fun t => t.normContribute p n := rfl
theorem exec_updateShard (p : Nat) (n : Nat) (s : State) : exec (.updateShard p n) s =
    s.run (Instr.updateShard p n).wf (s.unitOn (p % 4)) fun t => t.updateShard p n := rfl
theorem exec_publishOp (p : Nat) (n : Nat) (s : State) : exec (.publishOp p n) s =
    s.run (Instr.publishOp p n).wf (s.unitOn (p % 4)) fun t => t.publishOp p n := rfl
theorem exec_snapshotOp (p : Nat) (n : Nat) (s : State) : exec (.snapshotOp p n) s =
    s.run (Instr.snapshotOp p n).wf (s.unitOn (p % 4)) fun t => t.snapshotOp p n := rfl
theorem exec_signalHost (p : Nat) (n : Nat) (s : State) : exec (.signalHost p n) s =
    s.run (Instr.signalHost p n).wf (s.unitOn (p % 4)) fun t => t.signalHost p n := rfl
theorem exec_incrementOp (p : Nat) (n : Nat) (s : State) : exec (.incrementOp p n) s =
    s.run (Instr.incrementOp p n).wf (s.unitOn (p % 4)) fun t => t.incrementOp p n := rfl
theorem exec_waitEpoch (p : Nat) (n : Nat) (s : State) : exec (.waitEpoch p n) s =
    s.run (Instr.waitEpoch p n).wf (s.unitOn (p % 4)) fun t => t.waitEpoch p n := rfl
theorem exec_triggerOpComplete (p : Nat) (n : Nat) (s : State) : exec (.triggerOpComplete p n) s =
    s.run (Instr.triggerOpComplete p n).wf (s.unitOn (p % 4)) fun t => t.triggerOpComplete p n := rfl
theorem exec_partialResendTimer (p : Nat) (coll : Nat) (step : Nat) (chunk : Nat) (s : State) : exec (.partialResendTimer p coll step chunk) s =
    s.run (Instr.partialResendTimer p coll step chunk).wf (s.unitOn (crownQuad p coll chunk)) fun t => t.partialResendTimer p coll step chunk := rfl
theorem exec_podHoldExpiry (p : Nat) (coll : Nat) (step : Nat) (chunk : Nat) (s : State) : exec (.podHoldExpiry p coll step chunk) s =
    s.run (Instr.podHoldExpiry p coll step chunk).wf (s.unitOn (crownQuad p coll chunk)) fun t => t.podHoldExpiry p coll step chunk := rfl
theorem exec_stragClear (p : Nat) (s : State) : exec (.stragClear p) s =
    s.run (Instr.stragClear p).wf (s.barQuad (p % 4)) fun t => t.stragClear p := rfl
theorem exec_chunkHandoff (p : Nat) (coll : Nat) (step : Nat) (chunk : Nat) (s : State) : exec (.chunkHandoff p coll step chunk) s =
    s.run (Instr.chunkHandoff p coll step chunk).wf s.unitsOk fun t => t.handoffRow p coll step chunk := rfl
theorem exec_updatePass (p : Nat) (shard : Nat) (chunk : Nat) (s : State) : exec (.updatePass p shard chunk) s =
    s.run (Instr.updatePass p shard chunk).wf s.unitsOk fun t => t.updatePassRow p shard chunk := rfl
theorem exec_stepDecided (p : Nat) (s : State) : exec (.stepDecided p) s =
    s.run (Instr.stepDecided p).wf (s.unitOn (p % 4)) fun t => t.stepDecided p := rfl
theorem exec_stepTimerExpiry (p : Nat) (s : State) : exec (.stepTimerExpiry p) s =
    s.run (Instr.stepTimerExpiry p).wf (s.unitOn (p % 4)) fun t => t.stepTimerExpiry p := rfl
theorem exec_updateProgressTimeout (q : Nat) (s : State) : exec (.updateProgressTimeout q) s =
    s.run (Instr.updateProgressTimeout q).wf (s.quadOn q) fun t => t.updateProgressTimeout q := rfl
theorem exec_publish (q : Nat) (p : Nat) (entry : BitVec 512) (s : State) : exec (.publish q p entry) s =
    s.run (Instr.publish q p entry).wf (s.engineOn q 1) fun t => t.publishCmd q p entry.toNat := rfl
theorem exec_snapshot (q : Nat) (p : Nat) (entry : BitVec 512) (s : State) : exec (.snapshot q p entry) s =
    s.run (Instr.snapshot q p entry).wf (s.engineOn q 1) fun t => t.snapshotCmd q p entry.toNat := rfl
theorem exec_import (q : Nat) (p : Nat) (entry : BitVec 512) (s : State) : exec (.import_ q p entry) s =
    s.run (Instr.import_ q p entry).wf (s.engineOn q 1) fun t => t.importCmd q p entry.toNat := rfl
theorem exec_setT (q : Nat) (p : Nat) (entry : BitVec 512) (s : State) : exec (.setT q p entry) s =
    s.run (Instr.setT q p entry).wf (s.engineOn q 1) fun t => t.setT q p entry.toNat := rfl
theorem exec_gramAcc (q : Nat) (p : Nat) (entry : BitVec 512) (s : State) : exec (.gramAcc q p entry) s =
    s.run (Instr.gramAcc q p entry).wf (s.engineOn q 2) fun t => t.gramCmd q p 1 entry.toNat := rfl
theorem exec_matmul (q : Nat) (p : Nat) (entry : BitVec 512) (s : State) : exec (.matmul q p entry) s =
    s.run (Instr.matmul q p entry).wf (s.engineOn q 2) fun t => t.gramCmd q p 2 entry.toNat := rfl
theorem exec_nsRoot (q : Nat) (p : Nat) (entry : BitVec 512) (s : State) : exec (.nsRoot q p entry) s =
    s.run (Instr.nsRoot q p entry).wf (s.engineOn q 2) fun t => t.gramCmd q p 3 entry.toNat := rfl
theorem exec_nsOrtho (q : Nat) (p : Nat) (entry : BitVec 512) (s : State) : exec (.nsOrtho q p entry) s =
    s.run (Instr.nsOrtho q p entry).wf (s.engineOn q 2) fun t => t.gramCmd q p 4 entry.toNat := rfl
theorem exec_apply (q : Nat) (p : Nat) (entry : BitVec 512) (s : State) : exec (.apply q p entry) s =
    s.run (Instr.apply q p entry).wf (s.engineOn q 2) fun t => t.gramCmd q p 5 entry.toNat := rfl
theorem exec_gramWaitRelease (q : Nat) (p : Nat) (s : State) : exec (.gramWaitRelease q p) s =
    s.run (Instr.gramWaitRelease q p).wf (s.engineOn q 2) fun t => t.gramWaitRelease q p := rfl
theorem exec_gramUnit (q : Nat) (p : Nat) (s : State) : exec (.gramUnit q p) s =
    s.run (Instr.gramUnit q p).wf (s.engineOn q 2) fun t => t.gramRow q p := rfl
theorem exec_gramProgressTimeout (q : Nat) (p : Nat) (s : State) : exec (.gramProgressTimeout q p) s =
    s.run (Instr.gramProgressTimeout q p).wf (s.quadOn q) fun t => t.gramProgressTimeout q p := rfl
theorem exec_mitMember (pkt : Packet) (s : State) : exec (.mitMember pkt) s =
    s.run (Instr.mitMember pkt).wf (s.unitOn (pkCtx pkt % 4)) fun t => t.mitRow1 pkt State.mitMember := rfl
theorem exec_mitRow (pkt : Packet) (s : State) : exec (.mitRow pkt) s =
    s.run (Instr.mitRow pkt).wf (s.unitOn (pkCtx pkt % 4)) fun t => t.mitRow1 pkt State.mitRowIn := rfl
theorem exec_mitColumn (pkt : Packet) (s : State) : exec (.mitColumn pkt) s =
    s.run (Instr.mitColumn pkt).wf (s.unitOn (pkCtx pkt % 4)) fun t => t.mitRow1 pkt State.mitColumnIn := rfl
theorem exec_mitCourier (pkt : Packet) (s : State) : exec (.mitCourier pkt) s =
    s.run (Instr.mitCourier pkt).wf (s.unitOn (pkCtx pkt % 4)) fun t => t.mitRow1 pkt State.mitCourier := rfl
theorem exec_mitRoundAbort (c : Nat) (seq : BitVec 32) (s : State) : exec (.mitRoundAbort c seq) s =
    s.run (Instr.mitRoundAbort c seq).wf (s.unitOn (c % 4)) fun t => t.mitRoundAbort c seq.toNat := rfl
theorem exec_mitPeerResend (c : Nat) (seq : BitVec 32) (s : State) : exec (.mitPeerResend c seq) s =
    s.run (Instr.mitPeerResend c seq).wf (s.unitOn (c % 4)) fun t => t.mitPeerResend c seq.toNat := rfl
theorem exec_mitCarryResend (c : Nat) (seq : BitVec 32) (s : State) : exec (.mitCarryResend c seq) s =
    s.run (Instr.mitCarryResend c seq).wf (s.unitOn (c % 4)) fun t => t.mitCarryResend c seq.toNat := rfl
theorem exec_mitRoleSet (c : Nat) (role : Nat) (s : State) : exec (.mitRoleSet c role) s =
    s.run (Instr.mitRoleSet c role).wf s.barOn fun t => t.mitRoleSet c role := rfl
theorem exec_noticeEnWrite (value : Nat) (s : State) : exec (.noticeEnWrite value) s =
    s.run (Instr.noticeEnWrite value).wf s.barOn fun t => t.noticeEnWrite value := rfl
theorem exec_noticeRepeat (s : State) : exec .noticeRepeat s =
    s.run Instr.noticeRepeat.wf s.clocked fun t => t.noticeRepeat := rfl
theorem exec_bankAdmit (q : Nat) (input : Nat) (s : State) : exec (.bankAdmit q input) s =
    s.run (Instr.bankAdmit q input).wf (s.quadOn q) fun t => t.admitRow q input := rfl
theorem exec_egressStreamStart (q : Nat) (output : Nat) (bank : Nat) (s : State) : exec (.egressStreamStart q output bank) s =
    s.run (Instr.egressStreamStart q output bank).wf (s.quadOn q) fun t => t.streamStart q output bank := rfl
theorem exec_packetRelease (q : Nat) (output : Nat) (s : State) : exec (.packetRelease q output) s =
    s.run (Instr.packetRelease q output).wf (s.quadOn q) fun t => t.packetRelease q output := rfl
theorem exec_flushEnd (q : Nat) (port : Nat) (s : State) : exec (.flushEnd q port) s =
    s.run (Instr.flushEnd q port).wf (s.quadOn q) fun t => t.flushEnd q port := rfl
theorem exec_depthBroadcast (q : Nat) (s : State) : exec (.depthBroadcast q) s =
    s.run (Instr.depthBroadcast q).wf (s.quadOn q) fun t => t.depthBroadcast q := rfl
theorem exec_mirCtlWrite (q : Nat) (session : Nat) (value : BitVec 64) (s : State) : exec (.mirCtlWrite q session value) s =
    s.run (Instr.mirCtlWrite q session value).wf (s.barQuad q) fun t => t.mirCtlWrite q session value.toNat := rfl
theorem exec_lowClr (q : Nat) (s : State) : exec (.lowClr q) s =
    s.run (Instr.lowClr q).wf (s.barQuad q) fun t => t.lowClr q := rfl
theorem exec_peakClr (q : Nat) (output : Nat) (cls : Nat) (s : State) : exec (.peakClr q output cls) s =
    s.run (Instr.peakClr q output cls).wf (s.barQuad q) fun t => t.peakClr q output cls := rfl
theorem exec_linkDownHoldEnd (q : Nat) (port : Nat) (s : State) : exec (.linkDownHoldEnd q port) s =
    s.run (Instr.linkDownHoldEnd q port).wf (s.quadOn q) fun t => t.downHoldEnd q port := rfl
theorem exec_linkSignalDetect (q : Nat) (port : Nat) (lanes : Nat) (s : State) : exec (.linkSignalDetect q port lanes) s =
    s.run (Instr.linkSignalDetect q port lanes).wf (s.quadOn q) fun t => t.signalDetect q port lanes := rfl
theorem exec_linkTrainEnd (q : Nat) (port : Nat) (s : State) : exec (.linkTrainEnd q port) s =
    s.run (Instr.linkTrainEnd q port).wf (s.quadOn q) fun t => t.trainEnd q port := rfl
theorem exec_linkAlignDone (q : Nat) (port : Nat) (s : State) : exec (.linkAlignDone q port) s =
    s.run (Instr.linkAlignDone q port).wf (s.quadOn q) fun t => t.alignDone q port := rfl
theorem exec_linkAttemptTimeout (q : Nat) (port : Nat) (s : State) : exec (.linkAttemptTimeout q port) s =
    s.run (Instr.linkAttemptTimeout q port).wf (s.quadOn q) fun t => t.attemptTimeout q port := rfl
theorem exec_linkX2SlotEnd (q : Nat) (port : Nat) (s : State) : exec (.linkX2SlotEnd q port) s =
    s.run (Instr.linkX2SlotEnd q port).wf (s.quadOn q) fun t => t.x2SlotEnd q port := rfl
theorem exec_linkRetrainTimeout (q : Nat) (port : Nat) (s : State) : exec (.linkRetrainTimeout q port) s =
    s.run (Instr.linkRetrainTimeout q port).wf (s.quadOn q) fun t => t.retrainTimeout q port := rfl
theorem exec_lcfReceive (q : Nat) (port : Nat) (flit : BitVec 512) (s : State) : exec (.lcfReceive q port flit) s =
    s.run (Instr.lcfReceive q port flit).wf (s.quadOn q) fun t => t.lcfReceive q port flit.toNat := rfl
theorem exec_syncReq (q : Nat) (port : Nat) (vc : Nat) (sent : BitVec 16) (s : State) : exec (.syncReq q port vc sent) s =
    s.run (Instr.syncReq q port vc sent).wf (s.quadOn q) fun t => t.syncReq q port vc sent.toNat := rfl
theorem exec_quiet (q : Nat) (port : Nat) (s : State) : exec (.quiet q port) s =
    s.run (Instr.quiet q port).wf (s.quadOn q) fun t => t.quietReq q port := rfl
theorem exec_quietAck (q : Nat) (port : Nat) (s : State) : exec (.quietAck q port) s =
    s.run (Instr.quietAck q port).wf (s.quadOn q) fun t => t.quietAck q port := rfl
theorem exec_retrain (q : Nat) (port : Nat) (s : State) : exec (.retrain q port) s =
    s.run (Instr.retrain q port).wf (s.quadOn q) fun t => t.peerRetrain q port := rfl
theorem exec_quietIdleExpiry (q : Nat) (port : Nat) (s : State) : exec (.quietIdleExpiry q port) s =
    s.run (Instr.quietIdleExpiry q port).wf (s.quadOn q) fun t => t.quietIdle q port := rfl
theorem exec_linkWake (q : Nat) (port : Nat) (s : State) : exec (.linkWake q port) s =
    s.run (Instr.linkWake q port).wf (s.quadOn q) fun t => t.linkWake q port := rfl
theorem exec_peerSignalWake (q : Nat) (port : Nat) (s : State) : exec (.peerSignalWake q port) s =
    s.run (Instr.peerSignalWake q port).wf (s.quadOn q) fun t => t.peerWake q port := rfl
theorem exec_codewordDecode (q : Nat) (port : Nat) (l0 l1 l2 l3 : BitVec 1360) (s : State) : exec (.codewordDecode q port l0 l1 l2 l3) s =
    s.run (Instr.codewordDecode q port l0 l1 l2 l3).wf (s.quadOn q)
      fun t => t.codeword q port [l0.toNat, l1.toNat, l2.toNat, l3.toNat] := rfl
theorem exec_creditStarve (q : Nat) (port : Nat) (vc : Nat) (s : State) : exec (.creditStarve q port vc) s =
    s.run (Instr.creditStarve q port vc).wf (s.quadOn q) fun t => t.creditStarve q port vc := rfl
theorem exec_laneErrorWindow (q : Nat) (port : Nat) (s : State) : exec (.laneErrorWindow q port) s =
    s.run (Instr.laneErrorWindow q port).wf (s.quadOn q) fun t => t.laneWindow q port := rfl
theorem exec_degradeSwitch (q : Nat) (port : Nat) (s : State) : exec (.degradeSwitch q port) s =
    s.run (Instr.degradeSwitch q port).wf (s.quadOn q) fun t => t.degradeSwitch q port := rfl
theorem exec_ucwWindow (q : Nat) (port : Nat) (s : State) : exec (.ucwWindow q port) s =
    s.run (Instr.ucwWindow q port).wf (s.quadOn q) fun t => t.ucwWindow q port := rfl
theorem exec_lcfLoss (q : Nat) (port : Nat) (s : State) : exec (.lcfLoss q port) s =
    s.run (Instr.lcfLoss q port).wf (s.quadOn q) fun t => t.lcfLoss q port := rfl
theorem exec_linkRetrainWrite (q : Nat) (port : Nat) (value : BitVec 64) (s : State) : exec (.linkRetrainWrite q port value) s =
    s.run (Instr.linkRetrainWrite q port value).wf (s.barQuad q) fun t => t.retrainWrite q port value.toNat := rfl
theorem exec_linkEnWrite (q : Nat) (port : Nat) (value : BitVec 64) (s : State) : exec (.linkEnWrite q port value) s =
    s.run (Instr.linkEnWrite q port value).wf (s.barQuad q) fun t => t.enWrite q port value.toNat := rfl
theorem exec_linkInject (q : Nat) (value : BitVec 64) (s : State) : exec (.linkInject q value) s =
    s.run (Instr.linkInject q value).wf (s.barQuad q) fun t => t.linkInject q value.toNat := rfl
theorem exec_patrolScrub (q : Nat) (stack : Nat) (s : State) : exec (.patrolScrub q stack) s =
    s.run (Instr.patrolScrub q stack).wf (s.quadOn q) fun t => t.patrolScrub q stack := rfl
theorem exec_hbmRetire (q : Nat) (stack : Nat) (channel : Nat) (whole : Bool) (s : State) : exec (.hbmRetire q stack channel whole) s =
    s.run (Instr.hbmRetire q stack channel whole).wf (s.quadOn q) fun t => t.hbmRetire q stack channel whole := rfl
theorem exec_hbmRetireCmd (q : Nat) (value : BitVec 64) (s : State) : exec (.hbmRetireCmd q value) s =
    s.run (Instr.hbmRetireCmd q value).wf (s.barQuad q) fun t => t.hbmRetireCmd q value.toNat := rfl
theorem exec_spareRemapEnd (q : Nat) (ext : Nat) (s : State) : exec (.spareRemapEnd q ext) s =
    s.run (Instr.spareRemapEnd q ext).wf (s.quadOn q) fun t => t.spareRemapEnd q ext := rfl
theorem exec_hbmLockTimeout (q : Nat) (stack : Nat) (pc : Nat) (req : Nat) (s : State) : exec (.hbmLockTimeout q stack pc req) s =
    s.run (Instr.hbmLockTimeout q stack pc req).wf (s.quadOn q) fun t => t.hbmLockTimeout q stack pc req := rfl
theorem exec_hbmInject (q : Nat) (value : BitVec 64) (s : State) : exec (.hbmInject q value) s =
    s.run (Instr.hbmInject q value).wf (s.barQuad q) fun t => t.hbmInject q value.toNat := rfl
theorem exec_parkWrite (q : Nat) (pkt : Packet) (s : State) : exec (.parkWrite q pkt) s =
    s.run (Instr.parkWrite q pkt).wf (s.quadOn q) fun t => t.parkWrite q pkt := rfl
theorem exec_parkRead (q : Nat) (pkt : Packet) (s : State) : exec (.parkRead q pkt) s =
    s.run (Instr.parkRead q pkt).wf (s.quadOn q) fun t => t.parkRead q pkt := rfl
theorem exec_parkApply (q : Nat) (p : Nat) (s : State) : exec (.parkApply q p) s =
    s.run (Instr.parkApply q p).wf (s.engineOn q 4) fun t => t.parkApply q p := rfl
theorem exec_parkServiceFault (q : Nat) (s : State) : exec (.parkServiceFault q) s =
    s.run (Instr.parkServiceFault q).wf (s.quadOn q) fun t => t.parkServiceFault q := rfl
theorem exec_moverStart (q : Nat) (p : Nat) (entry : BitVec 512) (s : State) : exec (.moverStart q p entry) s =
    s.run (Instr.moverStart q p entry).wf (s.engineOn q 3) fun t => t.movStart q p entry.toNat := rfl
theorem exec_moverPause (q : Nat) (p : Nat) (c : Nat) (entry : BitVec 512) (s : State) : exec (.moverPause q p c entry) s =
    s.run (Instr.moverPause q p c entry).wf (s.quadOn q) fun t => t.movPauseCmd q p c entry.toNat := rfl
theorem exec_moverResume (q : Nat) (p : Nat) (c : Nat) (entry : BitVec 512) (s : State) : exec (.moverResume q p c entry) s =
    s.run (Instr.moverResume q p c entry).wf (s.quadOn q) fun t => t.movResumeCmd q p c entry.toNat := rfl
theorem exec_moverAbort (q : Nat) (p : Nat) (c : Nat) (entry : BitVec 512) (s : State) : exec (.moverAbort q p c entry) s =
    s.run (Instr.moverAbort q p c entry).wf (s.quadOn q) fun t => t.movAbortCmd q p c entry.toNat := rfl
theorem exec_moverErrClear (q : Nat) (p : Nat) (c : Nat) (s : State) : exec (.moverErrClear q p c) s =
    s.run (Instr.moverErrClear q p c).wf (s.barQuad q) fun t => t.movErrClear q p c := rfl
theorem exec_move (q : Nat) (p : Nat) (c : Nat) (host : List Byte) (s : State) : exec (.move q p c host) s =
    s.run (Instr.move q p c host).wf (s.engineOn q 3) fun t => t.moveRow q p c host := rfl
theorem exec_fill (q : Nat) (p : Nat) (c : Nat) (s : State) : exec (.fill q p c) s =
    s.run (Instr.fill q p c).wf (s.engineOn q 3) fun t => t.movFill q p c := rfl
theorem exec_compare (q : Nat) (p : Nat) (c : Nat) (host : List Byte) (s : State) : exec (.compare q p c host) s =
    s.run (Instr.compare q p c host).wf (s.engineOn q 3) fun t => t.compareRow q p c host := rfl
theorem exec_wait (q : Nat) (p : Nat) (c : Nat) (s : State) : exec (.wait q p c) s =
    s.run (Instr.wait q p c).wf (s.engineOn q 3) fun t => t.movWait q p c := rfl
theorem exec_waitMet (q : Nat) (p : Nat) (c : Nat) (s : State) : exec (.waitMet q p c) s =
    s.run (Instr.waitMet q p c).wf (s.engineOn q 3) fun t => t.movWaitMet q p c := rfl
theorem exec_signal (q : Nat) (p : Nat) (c : Nat) (s : State) : exec (.signal q p c) s =
    s.run (Instr.signal q p c).wf (s.engineOn q 3) fun t => t.movSignal q p c := rfl
theorem exec_link (q : Nat) (p : Nat) (c : Nat) (s : State) : exec (.link q p c) s =
    s.run (Instr.link q p c).wf (s.engineOn q 3) fun t => t.movLink q p c := rfl
theorem exec_end (q : Nat) (p : Nat) (c : Nat) (s : State) : exec (.end_ q p c) s =
    s.run (Instr.end_ q p c).wf (s.engineOn q 3) fun t => t.movEnd q p c := rfl
theorem exec_pauseDrainEnd (q : Nat) (p : Nat) (c : Nat) (s : State) : exec (.pauseDrainEnd q p c) s =
    s.run (Instr.pauseDrainEnd q p c).wf (s.quadOn q) fun t => t.movDrainEnd q p c := rfl
theorem exec_moverRecordWrite (q : Nat) (p : Nat) (c : Nat) (s : State) : exec (.moverRecordWrite q p c) s =
    s.run (Instr.moverRecordWrite q p c).wf (s.quadOn q) fun t => t.movRecordWrite q p c := rfl
theorem exec_moverBusError (q : Nat) (cause : Nat) (s : State) : exec (.moverBusError q cause) s =
    s.run (Instr.moverBusError q cause).wf (s.quadOn q) fun t => t.movBusErrorCmd q cause := rfl
theorem exec_moverBeatTimeout (q : Nat) (s : State) : exec (.moverBeatTimeout q) s =
    s.run (Instr.moverBeatTimeout q).wf (s.quadOn q) fun t => t.movBeatTimeout q := rfl
theorem exec_moverRestart (q : Nat) (s : State) : exec (.moverRestart q) s =
    s.run (Instr.moverRestart q).wf (s.quadOn q) fun t => t.movRestart q := rfl
theorem exec_eventCounterWrite (q : Nat) (p : Nat) (n : Nat) (value : BitVec 32) (s : State) : exec (.eventCounterWrite q p n value) s =
    s.run (Instr.eventCounterWrite q p n value).wf (s.barQuad q) fun t => t.evtWrite q p n value.toNat := rfl
theorem exec_adcWindow (codes : List Nat) (temps : List Nat) (rpms : List Nat) (s : State) : exec (.adcWindow codes temps rpms) s =
    s.run (Instr.adcWindow codes temps rpms).wf s.hatOn fun t => t.adcWindow codes temps rpms := rfl
theorem exec_tachLost (n : Nat) (s : State) : exec (.tachLost n) s =
    s.run (Instr.tachLost n).wf s.hatOn fun t => t.tachLost n := rfl
theorem exec_trayStep (applied : List Nat) (peerLive : Bool) (s : State) : exec (.trayStep applied peerLive) s =
    s.run (Instr.trayStep applied peerLive).wf s.hatOn fun t => t.trayStep applied peerLive := rfl
theorem exec_capStep (s : State) : exec .capStep s =
    s.run Instr.capStep.wf s.hatOn fun t => t.capStep := rfl
theorem exec_pwrAlertAssert (s : State) : exec .pwrAlertAssert s =
    s.run Instr.pwrAlertAssert.wf s.hatOn fun t => t.alertAssert := rfl
theorem exec_pwrAlertRelease (s : State) : exec .pwrAlertRelease s =
    s.run Instr.pwrAlertRelease.wf s.hatOn fun t => t.alertRelease := rfl
theorem exec_accGo (value : BitVec 64) (s : State) : exec (.accGo value) s =
    s.run (Instr.accGo value).wf s.barOn fun t => t.accGo value.toNat := rfl
theorem exec_yofenKick (s : State) : exec .yofenKick s =
    s.run Instr.yofenKick.wf s.hatOn fun t => t.yofenKick := rfl
theorem exec_yofenWatchdog (s : State) : exec .yofenWatchdog s =
    s.run Instr.yofenWatchdog.wf s.hatOn fun t => t.yofenWatchdog := rfl
theorem exec_trayClaim (long : Bool) (s : State) : exec (.trayClaim long) s =
    s.run (Instr.trayClaim long).wf s.hatOn fun t => t.trayClaim long := rfl
theorem exec_trayOwnConflict (s : State) : exec .trayOwnConflict s =
    s.run Instr.trayOwnConflict.wf s.hatOn fun t => t.ownConflict := rfl
theorem exec_ownerPublish (heard : List Nat) (s : State) : exec (.ownerPublish heard) s =
    s.run (Instr.ownerPublish heard).wf s.hatOn fun t => t.ownerPublish heard := rfl
theorem exec_contestStart (s : State) : exec .contestStart s =
    s.run Instr.contestStart.wf s.hatOn fun t => t.contestStart := rfl
theorem exec_contestResolve (peerPass : Bool) (s : State) : exec (.contestResolve peerPass) s =
    s.run (Instr.contestResolve peerPass).wf s.hatOn fun t => t.contestResolve peerPass := rfl
theorem exec_degradedClear (s : State) : exec .degradedClear s =
    s.run Instr.degradedClear.wf s.hatOn fun t => t.degradedClear := rfl
theorem exec_standbyQualify (s : State) : exec .standbyQualify s =
    s.run Instr.standbyQualify.wf s.hatOn fun t => t.standbyQualify := rfl
theorem exec_trayYield (s : State) : exec .trayYield s =
    s.run Instr.trayYield.wf s.barOn fun t => t.trayYield := rfl
theorem exec_telemetrySend (s : State) : exec .telemetrySend s =
    s.run Instr.telemetrySend.wf s.hatOn fun t => t.telemetrySend := rfl
theorem exec_managerHeartbeat (m : Nat) (s : State) : exec (.managerHeartbeat m) s =
    s.run (Instr.managerHeartbeat m).wf s.hatOn fun t => t.managerHeartbeat m := rfl
theorem exec_managerLost (m : Nat) (s : State) : exec (.managerLost m) s =
    s.run (Instr.managerLost m).wf s.hatOn fun t => t.managerLost m := rfl
theorem exec_autonomousHold (s : State) : exec .autonomousHold s =
    s.run Instr.autonomousHold.wf s.hatOn fun t => t.autonomousHold := rfl
theorem exec_pumpStage1 (s : State) : exec .pumpStage1 s =
    s.run Instr.pumpStage1.wf s.hatOn fun t => t.pumpStage1 := rfl
theorem exec_pumpStage2 (s : State) : exec .pumpStage2 s =
    s.run Instr.pumpStage2.wf s.hatOn fun t => t.pumpStage2 := rfl
theorem exec_pumpStage3 (s : State) : exec .pumpStage3 s =
    s.run Instr.pumpStage3.wf s.hatOn fun t => t.pumpStage3 := rfl
theorem exec_pumpStageClear (s : State) : exec .pumpStageClear s =
    s.run Instr.pumpStageClear.wf s.hatOn fun t => t.pumpStageClear := rfl
theorem exec_trayBusRecovery (s : State) : exec .trayBusRecovery s =
    s.run Instr.trayBusRecovery.wf s.hatOn fun t => t.trayBusRecovery := rfl
theorem exec_trayInject (value : BitVec 64) (s : State) : exec (.trayInject value) s =
    s.run (Instr.trayInject value).wf s.barOn fun t => t.trayInject value.toNat := rfl
theorem exec_cartInsert (c : Nat) (s : State) : exec (.cartInsert c) s =
    s.run (Instr.cartInsert c).wf s.hatOn fun t => t.cartInsert c := rfl
theorem exec_cartPresenceLost (c : Nat) (s : State) : exec (.cartPresenceLost c) s =
    s.run (Instr.cartPresenceLost c).wf s.hatOn fun t => t.cartLost c := rfl
theorem exec_cartTouch (c : Nat) (high : Bool) (s : State) : exec (.cartTouch c high) s =
    s.run (Instr.cartTouch c high).wf s.hatOn fun t => t.cartTouch c high := rfl
theorem exec_cartCuffOpen (c : Nat) (s : State) : exec (.cartCuffOpen c) s =
    s.run (Instr.cartCuffOpen c).wf s.hatOn fun t => t.cartCuffOpen c := rfl
theorem exec_preDrainCancel (c : Nat) (s : State) : exec (.preDrainCancel c) s =
    s.run (Instr.preDrainCancel c).wf s.hatOn fun t => t.preDrainCancel c := rfl
theorem exec_cartButton (c : Nat) (down : Bool) (s : State) : exec (.cartButton c down) s =
    s.run (Instr.cartButton c down).wf s.hatOn fun t => t.cartButton c down := rfl
theorem exec_cartButtonHold (c : Nat) (s : State) : exec (.cartButtonHold c) s =
    s.run (Instr.cartButtonHold c).wf s.hatOn fun t => t.cartButtonHold c := rfl
theorem exec_trayButton (s : State) : exec .trayButton s =
    s.run Instr.trayButton.wf s.hatOn fun t => t.trayButton := rfl
theorem exec_trayButtonHold (s : State) : exec .trayButtonHold s =
    s.run Instr.trayButtonHold.wf s.hatOn fun t => t.trayButtonHold := rfl
theorem exec_cartDrain (c : Nat) (s : State) : exec (.cartDrain c) s =
    s.run (Instr.cartDrain c).wf s.barOn fun t => t.cartDrain c := rfl
theorem exec_cartForce (c : Nat) (s : State) : exec (.cartForce c) s =
    s.run (Instr.cartForce c).wf s.barOn fun t => t.cartForce c := rfl
theorem exec_cartRejoin (c : Nat) (s : State) : exec (.cartRejoin c) s =
    s.run (Instr.cartRejoin c).wf s.barOn fun t => t.cartRejoin c := rfl
theorem exec_cartDrainComplete (c : Nat) (s : State) : exec (.cartDrainComplete c) s =
    s.run (Instr.cartDrainComplete c).wf s.hatOn fun t => t.cartDrainComplete c := rfl
theorem exec_cartDrainTimeout (c : Nat) (s : State) : exec (.cartDrainTimeout c) s =
    s.run (Instr.cartDrainTimeout c).wf s.hatOn fun t => t.cartDrainTimeout c := rfl
theorem exec_cartForceStop (c : Nat) (s : State) : exec (.cartForceStop c) s =
    s.run (Instr.cartForceStop c).wf s.hatOn fun t => t.cartForceStop c := rfl
theorem exec_cartSafe (c : Nat) (s : State) : exec (.cartSafe c) s =
    s.run (Instr.cartSafe c).wf s.hatOn fun t => t.cartSafe c := rfl
theorem exec_cartInService (c : Nat) (s : State) : exec (.cartInService c) s =
    s.run (Instr.cartInService c).wf s.hatOn fun t => t.cartInService c := rfl
theorem exec_vinLow (s : State) : exec .vinLow s =
    s.run Instr.vinLow.wf s.hatOn fun t => t.vinLow := rfl
theorem exec_vinHoldupEnd (s : State) : exec .vinHoldupEnd s =
    s.run Instr.vinHoldupEnd.wf s.hatOn fun t => t.vinHoldupEnd := rfl
theorem exec_vinGood (s : State) : exec .vinGood s =
    s.run Instr.vinGood.wf s.hatOn fun t => t.vinGood := rfl
theorem exec_railTimeout (s : State) : exec .railTimeout s =
    s.run Instr.railTimeout.wf s.hatOn fun t => t.railTimeout := rfl
theorem exec_vauxLow (s : State) : exec .vauxLow s =
    s.run Instr.vauxLow.wf s.hatOn fun t => t.vauxLow := rfl
theorem exec_powerRequest (target : Nat) (s : State) : exec (.powerRequest target) s =
    s.run (Instr.powerRequest target).wf s.hatOn fun t => t.powerRequest target := rfl
theorem exec_p2QuietEnd (expired : Bool) (s : State) : exec (.p2QuietEnd expired) s =
    s.run (Instr.p2QuietEnd expired).wf s.hatOn fun t => t.p2QuietEnd expired := rfl
theorem exec_yofenIdleStop (s : State) : exec .yofenIdleStop s =
    s.run Instr.yofenIdleStop.wf s.hatOn fun t => t.yofenIdleStop := rfl
theorem exec_engineGate (q : Nat) (e : Nat) (s : State) : exec (.engineGate q e) s =
    s.run (Instr.engineGate q e).wf (s.quadOn q) fun t => t.gateRow q e := rfl
theorem exec_engineWake (q : Nat) (e : Nat) (s : State) : exec (.engineWake q e) s =
    s.run (Instr.engineWake q e).wf (s.quadOn q) fun t => t.engineWake q e := rfl
theorem exec_warmHoldEnd (q : Nat) (e : Nat) (p : Nat) (s : State) : exec (.warmHoldEnd q e p) s =
    s.run (Instr.warmHoldEnd q e p).wf s.clocked fun t => t.warmHoldEnd q e p := rfl
theorem exec_refclkLost (s : State) : exec .refclkLost s =
    s.run Instr.refclkLost.wf s.hatOn fun t => t.refclkLost := rfl
theorem exec_refclkReturn (s : State) : exec .refclkReturn s =
    s.run Instr.refclkReturn.wf s.hatOn fun t => t.refclkReturn := rfl
theorem exec_refclkLossTimeout (s : State) : exec .refclkLossTimeout s =
    s.run Instr.refclkLossTimeout.wf s.hatOn fun t => t.refclkTimeout := rfl
theorem exec_oscCalibrate (s : State) : exec .oscCalibrate s =
    s.run Instr.oscCalibrate.wf s.hatOn fun t => t.oscCalibrate := rfl
theorem exec_thermalTrip (s : State) : exec .thermalTrip s =
    s.run Instr.thermalTrip.wf s.hatOn fun t => t.thermalTrip := rfl
theorem exec_coldReset (s : State) : exec .coldReset s =
    s.run Instr.coldReset.wf true fun t => t.coldReset := rfl
theorem exec_moduleReset (cool : Bool) (s : State) : exec (.moduleReset cool) s =
    s.run (Instr.moduleReset cool).wf s.hatOn fun t => t.moduleReset cool := rfl
theorem exec_quadrantReset (q : Nat) (s : State) : exec (.quadrantReset q) s =
    s.run (Instr.quadrantReset q).wf s.barOn fun t => t.quadReset q := rfl
theorem exec_partitionReset (p : Nat) (flr : Bool) (s : State) : exec (.partitionReset p flr) s =
    s.run (Instr.partitionReset p flr).wf s.barOn fun t => t.partReset p flr := rfl
theorem exec_perst (asserted : Bool) (s : State) : exec (.perst asserted) s =
    s.run (Instr.perst asserted).wf true fun t => t.perst asserted := rfl
theorem exec_startupStepComplete (ok : Bool) (failed : List Nat) (s : State) : exec (.startupStepComplete ok failed) s =
    s.run (Instr.startupStepComplete ok failed).wf s.hatOn fun t => t.startupStep ok failed := rfl
theorem exec_loadtestRun (s : State) : exec .loadtestRun s =
    s.run Instr.loadtestRun.wf s.barOn fun t => t.loadtestRun := rfl
theorem exec_loadtestPhaseEnd (crcOk : Bool) (s : State) : exec (.loadtestPhaseEnd crcOk) s =
    s.run (Instr.loadtestPhaseEnd crcOk).wf s.clocked fun t => t.loadtestPhase crcOk := rfl
theorem exec_lifecycleObject (obj : List Byte) (s : State) : exec (.lifecycleObject obj) s =
    s.run (Instr.lifecycleObject obj).wf s.barOn fun t => t.secFetched fun u => u.lifecycleObject obj := rfl
theorem exec_ownerEnrol (cert : List Byte) (s : State) : exec (.ownerEnrol cert) s =
    s.run (Instr.ownerEnrol cert).wf s.barOn fun t => t.secFetched fun u => u.ownerEnrol cert := rfl
theorem exec_firmwareFloor (s : State) : exec .firmwareFloor s =
    s.run Instr.firmwareFloor.wf s.barOn fun t => t.secPlain fun u => u.firmwareFloor := rfl
theorem exec_knitFloor (s : State) : exec .knitFloor s =
    s.run Instr.knitFloor.wf s.barOn fun t => t.secPlain fun u => u.knitFloor := rfl
theorem exec_challengeRead (s : State) : exec .challengeRead s =
    s.run Instr.challengeRead.wf s.barOn fun t => t.chalRead := rfl
theorem exec_debugRequestD1 (s : State) : exec .debugRequestD1 s =
    s.run Instr.debugRequestD1.wf s.barOn fun t => t.requestD1 false := rfl
theorem exec_tokenSubmit (token : List Byte) (s : State) : exec (.tokenSubmit token) s =
    s.run (Instr.tokenSubmit token).wf s.barOn fun t => t.tokenFetched token := rfl
theorem exec_debugRelease (s : State) : exec .debugRelease s =
    s.run Instr.debugRelease.wf s.barOn fun t => t.debugRelease := rfl
theorem exec_grantExpiry (s : State) : exec .grantExpiry s =
    s.run Instr.grantExpiry.wf s.hatOn fun t => t.grantExpiry := rfl
theorem exec_bypass (s : State) : exec .bypass s =
    s.run Instr.bypass.wf s.hatOn fun t => t.jtagBypass := rfl
theorem exec_idcode (s : State) : exec .idcode s =
    s.run Instr.idcode.wf s.hatOn fun t => t.jtagIdcode := rfl
theorem exec_samplePreload (bits : BitVec 4096) (s : State) : exec (.samplePreload bits) s =
    s.run (Instr.samplePreload bits).wf s.hatOn fun t => t.jtagSample bits.toNat := rfl
theorem exec_extest (bits : BitVec 4096) (s : State) : exec (.extest bits) s =
    s.run (Instr.extest bits).wf s.hatOn fun t => t.jtagExtest bits.toNat := rfl
theorem exec_extestPulse (bits : BitVec 4096) (s : State) : exec (.extestPulse bits) s =
    s.run (Instr.extestPulse bits).wf s.hatOn fun t => t.jtagPulse bits.toNat := rfl
theorem exec_extestTrain (bits : BitVec 4096) (s : State) : exec (.extestTrain bits) s =
    s.run (Instr.extestTrain bits).wf s.hatOn fun t => t.jtagTrain bits.toNat := rfl
theorem exec_clamp (s : State) : exec .clamp s =
    s.run Instr.clamp.wf s.hatOn fun t => t.jtagClamp := rfl
theorem exec_highz (s : State) : exec .highz s =
    s.run Instr.highz.wf s.hatOn fun t => t.jtagHighz := rfl
theorem exec_dbgReq (bit : Bool) (s : State) : exec (.dbgReq bit) s =
    s.run (Instr.dbgReq bit).wf s.hatOn fun t => t.jtagReq bit := rfl
theorem exec_dbgToken (token : List Byte) (s : State) : exec (.dbgToken token) s =
    s.run (Instr.dbgToken token).wf s.hatOn fun t => t.jtagToken token := rfl
theorem exec_dbgAccess (bits : BitVec 96) (s : State) : exec (.dbgAccess bits) s =
    s.run (Instr.dbgAccess bits).wf s.hatOn fun t => t.dbgAccess bits.toNat := rfl
theorem exec_firmwareUpdate (addr : Nat) (data : List Byte) (s : State) : exec (.firmwareUpdate addr data) s =
    s.run (Instr.firmwareUpdate addr data).wf s.hatOn fun t => t.firmwareUpdate addr data := rfl
theorem exec_getVersion (s : State) : exec .getVersion s =
    s.run Instr.getVersion.wf s.hatOn fun t => t.getVersion := rfl
theorem exec_getCapabilities (s : State) : exec .getCapabilities s =
    s.run Instr.getCapabilities.wf s.hatOn fun t => t.getCapabilities := rfl
theorem exec_negotiateAlgorithms (s : State) : exec .negotiateAlgorithms s =
    s.run Instr.negotiateAlgorithms.wf s.hatOn fun t => t.negotiateAlgorithms := rfl
theorem exec_getDigests (s : State) : exec .getDigests s =
    s.run Instr.getDigests.wf s.hatOn fun t => t.getDigests := rfl
theorem exec_getCertificate (off : Nat) (len : Nat) (s : State) : exec (.getCertificate off len) s =
    s.run (Instr.getCertificate off len).wf s.hatOn fun t => t.getCertificate off len := rfl
theorem exec_challenge (nonce : List Byte) (s : State) : exec (.challenge nonce) s =
    s.run (Instr.challenge nonce).wf s.hatOn fun t => t.spdmChallenge nonce := rfl
theorem exec_getMeasurements (index : Nat) (nonce : List Byte) (s : State) : exec (.getMeasurements index nonce) s =
    s.run (Instr.getMeasurements index nonce).wf s.hatOn fun t => t.getMeasurements index nonce := rfl
theorem exec_setEndpointId (binding : Nat) (eid : BitVec 8) (s : State) : exec (.setEndpointId binding eid) s =
    s.run (Instr.setEndpointId binding eid).wf s.hatOn fun t => t.setEid binding eid.toNat := rfl
theorem exec_pldmSensorRead (n : Nat) (s : State) : exec (.pldmSensorRead n) s =
    s.run (Instr.pldmSensorRead n).wf s.hatOn fun t => t.pldmRead n := rfl
theorem exec_pldmEffecterWrite (n : Nat) (value : BitVec 64) (s : State) : exec (.pldmEffecterWrite n value) s =
    s.run (Instr.pldmEffecterWrite n value).wf s.hatOn fun t => t.pldmWrite n value.toNat := rfl
theorem exec_bar2Read (fn : Nat) (off : Nat) (len : Nat) (s : State) : exec (.bar2Read fn off len) s =
    s.run (Instr.bar2Read fn off len).wf s.pciUp fun t => t.bar2Read fn off len := rfl
theorem exec_bar2Write (fn : Nat) (off : Nat) (data : List Byte) (poisoned : Bool) (s : State) : exec (.bar2Write fn off data poisoned) s =
    s.run (Instr.bar2Write fn off data poisoned).wf s.pciUp fun t => t.bar2Write fn off data poisoned := rfl
theorem exec_pf0Flr (s : State) : exec .pf0Flr s =
    s.run Instr.pf0Flr.wf s.pciUp fun t => t.pf0Flr := rfl
theorem exec_pcieLinkDown (down : Bool) (s : State) : exec (.pcieLinkDown down) s =
    s.run (Instr.pcieLinkDown down).wf s.hatOn fun t => t.pcieLinkDown down := rfl
theorem exec_hostAccessFail (fn : Nat) (user : Nat) (q : Nat) (c : Nat) (s : State) : exec (.hostAccessFail fn user q c) s =
    s.run (Instr.hostAccessFail fn user q c).wf s.barOn fun t => t.hostAccessFail fn user q c := rfl
theorem exec_msixUnmask (fn : Nat) (vec : Nat) (s : State) : exec (.msixUnmask fn vec) s =
    s.run (Instr.msixUnmask fn vec).wf (s.pciUp && decide (vec < msixSize fn)) fun t => t.msixUnmask fn vec := rfl
theorem exec_counterClear (value : BitVec 64) (s : State) : exec (.counterClear value) s =
    s.run (Instr.counterClear value).wf s.barOn fun t => t.counterClear value.toNat := rfl
theorem exec_tallySweep (due : List Nat) (skipped : List Nat) (s : State) : exec (.tallySweep due skipped) s =
    s.run (Instr.tallySweep due skipped).wf s.clocked fun t => t.tallySweep due skipped := rfl
theorem exec_samplerCtlWrite (q : Nat) (value : BitVec 64) (s : State) : exec (.samplerCtlWrite q value) s =
    s.run (Instr.samplerCtlWrite q value).wf (s.barQuad q) fun t => t.samplerCtl q value.toNat := rfl
theorem exec_injectEnableWrite (value : BitVec 64) (s : State) : exec (.injectEnableWrite value) s =
    s.run (Instr.injectEnableWrite value).wf s.barOn fun t => t.injectEnable value.toNat := rfl
theorem exec_errorInject (value : BitVec 64) (s : State) : exec (.errorInject value) s =
    s.run (Instr.errorInject value).wf s.barOn fun t => t.errorInject value.toNat := rfl
theorem exec_debugWindowAccess (write : Bool) (off : Nat) (size : Nat) (value : BitVec 64) (s : State) : exec (.debugWindowAccess write off size value) s =
    s.run (Instr.debugWindowAccess write off size value).wf true fun t => t.debugWindow write off size value.toNat := rfl
theorem exec_cartLatchClose (c : Nat) (s : State) : exec (.cartLatchClose c) s =
    s.run (Instr.cartLatchClose c).wf s.hatOn fun t => t.cartLatchClose c := rfl
theorem exec_retrainPrbsEnd (q : Nat) (port : Nat) (s : State) : exec (.retrainPrbsEnd q port) s =
    s.run (Instr.retrainPrbsEnd q port).wf (s.quadOn q) fun t => t.retrainPrbsEnd q port := rfl
theorem exec_yofenReboot (s : State) : exec .yofenReboot s =
    s.run Instr.yofenReboot.wf s.hatOn fun t => t.yofenReboot := rfl
theorem exec_quadrantResetEnd (q : Nat) (s : State) : exec (.quadrantResetEnd q) s =
    s.run (Instr.quadrantResetEnd q).wf s.barOn fun t => t.quadResetEnd q := rfl
theorem exec_moduleResetRelease (s : State) : exec .moduleResetRelease s =
    s.run Instr.moduleResetRelease.wf s.hatOn fun t => t.moduleRelease := rfl
theorem exec_ieee1588Time (ns : BitVec 64) (s : State) : exec (.ieee1588Time ns) s =
    s.run (Instr.ieee1588Time ns).wf s.hatOn fun t => t.ieee1588 ns.toNat := rfl

end Sys2Proof.Machine
end

