-- ==== Sys2Proof/Laws/Maps.lean ====
section
/-! SUPPORT. Sparse data and byte memory: a read after a write, writes elsewhere, and the canonical form. -/

namespace Sys2Proof.Machine

/-! ## Sparse data -/

@[simp] theorem SMap.find_set_same {V : Type} (k : Key) (v : V) (m : SMap V) : SMap.find k (SMap.set k v m) = some v := by
  induction m with
  | nil => simp [SMap.set, SMap.find]
  | cons x r ih =>
    by_cases h : k = x.1
    · simp [SMap.set, SMap.find, h]
    · by_cases g : keyLt k x.1 = true <;> simp [SMap.set, SMap.find, h, g, ih]

theorem SMap.find_set_other {V : Type} {j k : Key} (h : j ≠ k) (v : V) (m : SMap V) :
    SMap.find j (SMap.set k v m) = SMap.find j m := by
  induction m with
  | nil => simp [SMap.set, SMap.find, h]
  | cons x r ih =>
    by_cases e : k = x.1
    · have hj : j ≠ x.1 := fun c => h (c.trans e.symm)
      simp [SMap.set, SMap.find, ← e, h]
    · by_cases g : keyLt k x.1 = true
      · simp [SMap.set, SMap.find, e, g, h]
      · simp [SMap.set, SMap.find, e, g, ih]

@[simp] theorem SMap.get_set_same {V : Type} (k : Key) (v d : V) (m : SMap V) : SMap.get (SMap.set k v m) k d = v := by
  simp [SMap.get]

theorem SMap.get_set_other {V : Type} {j k : Key} (h : j ≠ k) (v d : V) (m : SMap V) :
    SMap.get (SMap.set k v m) j d = SMap.get m j d := by simp [SMap.get, SMap.find_set_other h]

/-- The later of two writes of one key counts. -/
@[simp] theorem SMap.set_set {V : Type} (k : Key) (v w : V) (m : SMap V) : SMap.set k v (SMap.set k w m) = SMap.set k v m := by
  induction m with
  | nil => simp [SMap.set]
  | cons x r ih =>
    by_cases h : k = x.1
    · simp [SMap.set, h]
    · by_cases g : keyLt k x.1 = true <;> simp [SMap.set, h, g, ih]

@[simp] theorem SMap.find_erase_same {V : Type} (k : Key) (m : SMap V) : SMap.find k (SMap.erase k m) = none := by
  induction m with
  | nil => rfl
  | cons x r ih => by_cases e : k = x.1 <;> simp [SMap.erase, SMap.find, e]
                   · exact e ▸ ih
                   · exact ih

theorem SMap.find_erase_other {V : Type} {j k : Key} (h : j ≠ k) (m : SMap V) :
    SMap.find j (SMap.erase k m) = SMap.find j m := by
  induction m with
  | nil => rfl
  | cons x r ih =>
    by_cases e : k = x.1
    · have hj : j ≠ x.1 := fun c => h (c.trans e.symm)
      simp [SMap.erase, SMap.find, ← e, h, ih]
    · by_cases g : j = x.1 <;> simp [SMap.erase, SMap.find, e, g, ih]

/-! ## Byte memory -/

theorem Mem.read_insert_same (a : Nat) (b : Byte) (m : Mem) : Mem.read a (Mem.insert a b m) = b := by
  induction m with
  | nil => simp [Mem.insert, Mem.read]
  | cons x r ih =>
    by_cases h : a = x.1
    · simp [Mem.insert, Mem.read, h]
    · by_cases g : a < x.1 <;> simp [Mem.insert, Mem.read, h, g, ih]

theorem Mem.read_insert_other {a c : Nat} (h : c ≠ a) (b : Byte) (m : Mem) : Mem.read c (Mem.insert a b m) = Mem.read c m := by
  induction m with
  | nil => simp [Mem.insert, Mem.read, h]
  | cons x r ih =>
    by_cases e : a = x.1
    · simp [Mem.insert, Mem.read, ← e, h]
    · by_cases g : a < x.1 <;> simp [Mem.insert, Mem.read, e, g, h, ih]

theorem Mem.read_remove_same (a : Nat) (m : Mem) : Mem.read a (Mem.remove a m) = Mem.blank := by
  induction m with
  | nil => rfl
  | cons x r ih => by_cases e : a = x.1 <;> simp [Mem.remove, Mem.read, e]
                   · exact e ▸ ih
                   · exact ih

theorem Mem.read_remove_other {a c : Nat} (h : c ≠ a) (m : Mem) : Mem.read c (Mem.remove a m) = Mem.read c m := by
  induction m with
  | nil => rfl
  | cons x r ih =>
    by_cases e : a = x.1
    · simp [Mem.remove, Mem.read, ← e, h, ih]
    · by_cases g : c = x.1 <;> simp [Mem.remove, Mem.read, e, g, ih]

/-- A read after a write of the same byte. -/
@[simp] theorem Mem.read_write_same (a : Nat) (b : Byte) (m : Mem) : Mem.read a (Mem.write a b m) = b := by
  unfold Mem.write
  split
  · next h => rw [Mem.read_remove_same, h]
  · exact Mem.read_insert_same a b m

/-- A write leaves every other byte alone. -/
theorem Mem.read_write_other {a c : Nat} (h : c ≠ a) (b : Byte) (m : Mem) : Mem.read c (Mem.write a b m) = Mem.read c m := by
  unfold Mem.write
  split
  · exact Mem.read_remove_other h m
  · exact Mem.read_insert_other h b m

/-- A run of bytes written leaves every byte outside it alone. -/
theorem Mem.read_writeN_other (bs : List Byte) :
    ∀ (a c : Nat) (m : Mem), c < a ∨ a + bs.length ≤ c → Mem.read c (Mem.writeN a bs m) = Mem.read c m := by
  induction bs with
  | nil => intro a c m _; rfl
  | cons b r ih =>
    intro a c m h
    simp only [List.length_cons] at h
    rw [Mem.writeN, ih (a + 1) c _ (by omega), Mem.read_write_other (by omega)]

theorem Mem.wfFrom_mono {lo hi : Nat} (h : lo ≤ hi) (m : Mem) (w : Mem.wfFrom hi m = true) : Mem.wfFrom lo m = true := by
  cases m with
  | nil => rfl
  | cons x r => simp [Mem.wfFrom] at *; exact ⟨⟨by omega, w.1.2⟩, w.2⟩

theorem Mem.wfFrom_insert (a : Nat) (b : Byte) (hb : b ≠ Mem.blank) :
    ∀ (lo : Nat) (m : Mem), lo ≤ a → Mem.wfFrom lo m = true → Mem.wfFrom lo (Mem.insert a b m) = true := by
  intro lo m
  induction m generalizing lo with
  | nil => intro h _; simp [Mem.insert, Mem.wfFrom, h, hb]
  | cons x r ih =>
    intro h w
    simp only [Mem.wfFrom, Bool.and_eq_true, decide_eq_true_eq] at w
    by_cases e : a = x.1
    · subst e; simp [Mem.insert, Mem.wfFrom, h, hb, w.2]
    · by_cases g : a < x.1
      · simp [Mem.insert, Mem.wfFrom, e, g, h, hb, w.1.2, w.2]
      · simp only [Mem.insert, if_neg e, if_neg g, Mem.wfFrom, Bool.and_eq_true, decide_eq_true_eq]
        exact ⟨w.1, ih (x.1 + 1) (by omega) w.2⟩

theorem Mem.wfFrom_remove (a : Nat) : ∀ (lo : Nat) (m : Mem), Mem.wfFrom lo m = true → Mem.wfFrom lo (Mem.remove a m) = true := by
  intro lo m
  induction m generalizing lo with
  | nil => intro _; rfl
  | cons x r ih =>
    intro w
    simp only [Mem.wfFrom, Bool.and_eq_true, decide_eq_true_eq] at w
    by_cases e : a = x.1
    · simp only [Mem.remove, if_pos e]
      exact Mem.wfFrom_mono (by omega) _ (ih (x.1 + 1) w.2)
    · simp only [Mem.remove, if_neg e, Mem.wfFrom, Bool.and_eq_true, decide_eq_true_eq]
      exact ⟨w.1, ih (x.1 + 1) w.2⟩

/-- A write keeps the canonical form. -/
theorem Mem.wf_write (a : Nat) (b : Byte) (m : Mem) (w : m.wf = true) : (Mem.write a b m).wf = true := by
  unfold Mem.write
  split
  · exact Mem.wfFrom_remove a 0 m w
  · next h => exact Mem.wfFrom_insert a b h 0 m (Nat.zero_le a) w

/-- A run of bytes written keeps the canonical form. -/
theorem Mem.wf_writeN (bs : List Byte) : ∀ (a : Nat) (m : Mem), m.wf = true → (Mem.writeN a bs m).wf = true := by
  induction bs with
  | nil => intro a m w; exact w
  | cons b r ih => intro a m w; exact ih (a + 1) _ (Mem.wf_write a b m w)

theorem Mem.wfFrom_filter (t : Host.Cell → Bool) :
    ∀ (lo : Nat) (m : Mem), Mem.wfFrom lo m = true → Mem.wfFrom lo (m.filter t) = true := by
  intro lo m
  induction m generalizing lo with
  | nil => intro _; rfl
  | cons x r ih =>
    intro w
    simp only [Mem.wfFrom, Bool.and_eq_true, decide_eq_true_eq] at w
    by_cases e : t x = true
    · simp only [List.filter_cons_of_pos e, Mem.wfFrom, Bool.and_eq_true, decide_eq_true_eq]
      exact ⟨w.1, ih (x.1 + 1) w.2⟩
    · simp only [List.filter_cons_of_neg e]
      exact Mem.wfFrom_mono (by omega) _ (ih (x.1 + 1) w.2)

/-- Cells removed by a test leave the canonical form. -/
theorem Mem.wf_filter (t : Host.Cell → Bool) (m : Mem) (w : m.wf = true) : Mem.wf (m.filter t) = true :=
  Mem.wfFrom_filter t 0 m w

end Sys2Proof.Machine
end

