-- ==== Sys2Proof/Laws/State.lean ====
section
/-! SUPPORT. State: what each update of it does to each of its fields. -/

namespace Sys2Proof.Machine

/-! ## One lemma per field and update -/

@[simp] theorem State.pending_wr (s : State) (f : Fld) (ix : List Nat) (n : Nat) : (s.wr f ix n).pending = s.pending := rfl
@[simp] theorem State.img_wr (s : State) (f : Fld) (ix : List Nat) (n : Nat) : (s.wr f ix n).img = s.img := rfl
@[simp] theorem State.hbm_wr (s : State) (f : Fld) (ix : List Nat) (n : Nat) : (s.wr f ix n).hbm = s.hbm := rfl
@[simp] theorem State.flash_wr (s : State) (f : Fld) (ix : List Nat) (n : Nat) : (s.wr f ix n).flash = s.flash := rfl
@[simp] theorem State.badSectors_wr (s : State) (f : Fld) (ix : List Nat) (n : Nat) : (s.wr f ix n).badSectors = s.badSectors := rfl
@[simp] theorem State.staging_wr (s : State) (f : Fld) (ix : List Nat) (n : Nat) : (s.wr f ix n).staging = s.staging := rfl
@[simp] theorem State.bufs_wr (s : State) (f : Fld) (ix : List Nat) (n : Nat) : (s.wr f ix n).bufs = s.bufs := rfl
@[simp] theorem State.reasm_wr (s : State) (f : Fld) (ix : List Nat) (n : Nat) : (s.wr f ix n).reasm = s.reasm := rfl
@[simp] theorem State.svc_wr (s : State) (f : Fld) (ix : List Nat) (n : Nat) : (s.wr f ix n).svc = s.svc := rfl
@[simp] theorem State.mitEgress_wr (s : State) (f : Fld) (ix : List Nat) (n : Nat) : (s.wr f ix n).mitEgress = s.mitEgress := rfl
@[simp] theorem State.parkQ_wr (s : State) (f : Fld) (ix : List Nat) (n : Nat) : (s.wr f ix n).parkQ = s.parkQ := rfl
@[simp] theorem State.movCmds_wr (s : State) (f : Fld) (ix : List Nat) (n : Nat) : (s.wr f ix n).movCmds = s.movCmds := rfl
@[simp] theorem State.mit_wr (s : State) (f : Fld) (ix : List Nat) (n : Nat) : (s.wr f ix n).mit = s.mit := rfl
@[simp] theorem State.notices_wr (s : State) (f : Fld) (ix : List Nat) (n : Nat) : (s.wr f ix n).notices = s.notices := rfl
@[simp] theorem State.slots_wr (s : State) (f : Fld) (ix : List Nat) (n : Nat) : (s.wr f ix n).slots = s.slots := rfl
@[simp] theorem State.slab_wr (s : State) (f : Fld) (ix : List Nat) (n : Nat) : (s.wr f ix n).slab = s.slab := rfl
@[simp] theorem State.waits_wr (s : State) (f : Fld) (ix : List Nat) (n : Nat) : (s.wr f ix n).waits = s.waits := rfl
@[simp] theorem State.admMsgs_wr (s : State) (f : Fld) (ix : List Nat) (n : Nat) : (s.wr f ix n).admMsgs = s.admMsgs := rfl
@[simp] theorem State.pagerOp_wr (s : State) (f : Fld) (ix : List Nat) (n : Nat) : (s.wr f ix n).pagerOp = s.pagerOp := rfl
@[simp] theorem State.insts_wr (s : State) (f : Fld) (ix : List Nat) (n : Nat) : (s.wr f ix n).insts = s.insts := rfl
@[simp] theorem State.trigOps_wr (s : State) (f : Fld) (ix : List Nat) (n : Nat) : (s.wr f ix n).trigOps = s.trigOps := rfl
@[simp] theorem State.cqWait_wr (s : State) (f : Fld) (ix : List Nat) (n : Nat) : (s.wr f ix n).cqWait = s.cqWait := rfl
@[simp] theorem State.psBuf_wr (s : State) (f : Fld) (ix : List Nat) (n : Nat) : (s.wr f ix n).psBuf = s.psBuf := rfl
@[simp] theorem State.handoffs_wr (s : State) (f : Fld) (ix : List Nat) (n : Nat) : (s.wr f ix n).handoffs = s.handoffs := rfl
@[simp] theorem State.upd_wr (s : State) (f : Fld) (ix : List Nat) (n : Nat) : (s.wr f ix n).upd = s.upd := rfl
@[simp] theorem State.errDue_wr (s : State) (f : Fld) (ix : List Nat) (n : Nat) : (s.wr f ix n).errDue = s.errDue := rfl
@[simp] theorem State.errLog_wr (s : State) (f : Fld) (ix : List Nat) (n : Nat) : (s.wr f ix n).errLog = s.errLog := rfl
@[simp] theorem State.hatLog_wr (s : State) (f : Fld) (ix : List Nat) (n : Nat) : (s.wr f ix n).hatLog = s.hatLog := rfl
@[simp] theorem State.out_wr (s : State) (f : Fld) (ix : List Nat) (n : Nat) : (s.wr f ix n).out = s.out := rfl
@[simp] theorem State.free_wr (s : State) (f : Fld) (ix : List Nat) (n : Nat) : (s.wr f ix n).free = s.free := rfl

@[simp] theorem State.pending_emit (s : State) (o : Out) : (s.emit o).pending = s.pending := rfl
@[simp] theorem State.regs_emit (s : State) (o : Out) : (s.emit o).regs = s.regs := rfl
@[simp] theorem State.img_emit (s : State) (o : Out) : (s.emit o).img = s.img := rfl
@[simp] theorem State.hbm_emit (s : State) (o : Out) : (s.emit o).hbm = s.hbm := rfl
@[simp] theorem State.flash_emit (s : State) (o : Out) : (s.emit o).flash = s.flash := rfl
@[simp] theorem State.badSectors_emit (s : State) (o : Out) : (s.emit o).badSectors = s.badSectors := rfl
@[simp] theorem State.staging_emit (s : State) (o : Out) : (s.emit o).staging = s.staging := rfl
@[simp] theorem State.bufs_emit (s : State) (o : Out) : (s.emit o).bufs = s.bufs := rfl
@[simp] theorem State.reasm_emit (s : State) (o : Out) : (s.emit o).reasm = s.reasm := rfl
@[simp] theorem State.svc_emit (s : State) (o : Out) : (s.emit o).svc = s.svc := rfl
@[simp] theorem State.mitEgress_emit (s : State) (o : Out) : (s.emit o).mitEgress = s.mitEgress := rfl
@[simp] theorem State.parkQ_emit (s : State) (o : Out) : (s.emit o).parkQ = s.parkQ := rfl
@[simp] theorem State.movCmds_emit (s : State) (o : Out) : (s.emit o).movCmds = s.movCmds := rfl
@[simp] theorem State.mit_emit (s : State) (o : Out) : (s.emit o).mit = s.mit := rfl
@[simp] theorem State.notices_emit (s : State) (o : Out) : (s.emit o).notices = s.notices := rfl
@[simp] theorem State.slots_emit (s : State) (o : Out) : (s.emit o).slots = s.slots := rfl
@[simp] theorem State.slab_emit (s : State) (o : Out) : (s.emit o).slab = s.slab := rfl
@[simp] theorem State.waits_emit (s : State) (o : Out) : (s.emit o).waits = s.waits := rfl
@[simp] theorem State.admMsgs_emit (s : State) (o : Out) : (s.emit o).admMsgs = s.admMsgs := rfl
@[simp] theorem State.pagerOp_emit (s : State) (o : Out) : (s.emit o).pagerOp = s.pagerOp := rfl
@[simp] theorem State.insts_emit (s : State) (o : Out) : (s.emit o).insts = s.insts := rfl
@[simp] theorem State.trigOps_emit (s : State) (o : Out) : (s.emit o).trigOps = s.trigOps := rfl
@[simp] theorem State.cqWait_emit (s : State) (o : Out) : (s.emit o).cqWait = s.cqWait := rfl
@[simp] theorem State.psBuf_emit (s : State) (o : Out) : (s.emit o).psBuf = s.psBuf := rfl
@[simp] theorem State.handoffs_emit (s : State) (o : Out) : (s.emit o).handoffs = s.handoffs := rfl
@[simp] theorem State.upd_emit (s : State) (o : Out) : (s.emit o).upd = s.upd := rfl
@[simp] theorem State.errDue_emit (s : State) (o : Out) : (s.emit o).errDue = s.errDue := rfl
@[simp] theorem State.errLog_emit (s : State) (o : Out) : (s.emit o).errLog = s.errLog := rfl
@[simp] theorem State.hatLog_emit (s : State) (o : Out) : (s.emit o).hatLog = s.hatLog := rfl
@[simp] theorem State.free_emit (s : State) (o : Out) : (s.emit o).free = s.free := rfl

@[simp] theorem State.pending_freshen (s : State) : (s.freshen).pending = s.pending := rfl
@[simp] theorem State.regs_freshen (s : State) : (s.freshen).regs = s.regs := rfl
@[simp] theorem State.img_freshen (s : State) : (s.freshen).img = s.img := rfl
@[simp] theorem State.hbm_freshen (s : State) : (s.freshen).hbm = s.hbm := rfl
@[simp] theorem State.flash_freshen (s : State) : (s.freshen).flash = s.flash := rfl
@[simp] theorem State.badSectors_freshen (s : State) : (s.freshen).badSectors = s.badSectors := rfl
@[simp] theorem State.staging_freshen (s : State) : (s.freshen).staging = s.staging := rfl
@[simp] theorem State.bufs_freshen (s : State) : (s.freshen).bufs = s.bufs := rfl
@[simp] theorem State.reasm_freshen (s : State) : (s.freshen).reasm = s.reasm := rfl
@[simp] theorem State.svc_freshen (s : State) : (s.freshen).svc = s.svc := rfl
@[simp] theorem State.mitEgress_freshen (s : State) : (s.freshen).mitEgress = s.mitEgress := rfl
@[simp] theorem State.parkQ_freshen (s : State) : (s.freshen).parkQ = s.parkQ := rfl
@[simp] theorem State.movCmds_freshen (s : State) : (s.freshen).movCmds = s.movCmds := rfl
@[simp] theorem State.mit_freshen (s : State) : (s.freshen).mit = s.mit := rfl
@[simp] theorem State.notices_freshen (s : State) : (s.freshen).notices = s.notices := rfl
@[simp] theorem State.slots_freshen (s : State) : (s.freshen).slots = s.slots := rfl
@[simp] theorem State.slab_freshen (s : State) : (s.freshen).slab = s.slab := rfl
@[simp] theorem State.waits_freshen (s : State) : (s.freshen).waits = s.waits := rfl
@[simp] theorem State.admMsgs_freshen (s : State) : (s.freshen).admMsgs = s.admMsgs := rfl
@[simp] theorem State.pagerOp_freshen (s : State) : (s.freshen).pagerOp = s.pagerOp := rfl
@[simp] theorem State.insts_freshen (s : State) : (s.freshen).insts = s.insts := rfl
@[simp] theorem State.trigOps_freshen (s : State) : (s.freshen).trigOps = s.trigOps := rfl
@[simp] theorem State.cqWait_freshen (s : State) : (s.freshen).cqWait = s.cqWait := rfl
@[simp] theorem State.psBuf_freshen (s : State) : (s.freshen).psBuf = s.psBuf := rfl
@[simp] theorem State.handoffs_freshen (s : State) : (s.freshen).handoffs = s.handoffs := rfl
@[simp] theorem State.upd_freshen (s : State) : (s.freshen).upd = s.upd := rfl
@[simp] theorem State.errDue_freshen (s : State) : (s.freshen).errDue = s.errDue := rfl
@[simp] theorem State.errLog_freshen (s : State) : (s.freshen).errLog = s.errLog := rfl
@[simp] theorem State.hatLog_freshen (s : State) : (s.freshen).hatLog = s.hatLog := rfl
@[simp] theorem State.out_freshen (s : State) : (s.freshen).out = s.out := rfl

@[simp] theorem State.regs_withQueue (s : State) (l : List Instr) : (s.withQueue l).regs = s.regs := rfl
@[simp] theorem State.img_withQueue (s : State) (l : List Instr) : (s.withQueue l).img = s.img := rfl
@[simp] theorem State.hbm_withQueue (s : State) (l : List Instr) : (s.withQueue l).hbm = s.hbm := rfl
@[simp] theorem State.flash_withQueue (s : State) (l : List Instr) : (s.withQueue l).flash = s.flash := rfl
@[simp] theorem State.badSectors_withQueue (s : State) (l : List Instr) : (s.withQueue l).badSectors = s.badSectors := rfl
@[simp] theorem State.staging_withQueue (s : State) (l : List Instr) : (s.withQueue l).staging = s.staging := rfl
@[simp] theorem State.bufs_withQueue (s : State) (l : List Instr) : (s.withQueue l).bufs = s.bufs := rfl
@[simp] theorem State.reasm_withQueue (s : State) (l : List Instr) : (s.withQueue l).reasm = s.reasm := rfl
@[simp] theorem State.svc_withQueue (s : State) (l : List Instr) : (s.withQueue l).svc = s.svc := rfl
@[simp] theorem State.mitEgress_withQueue (s : State) (l : List Instr) : (s.withQueue l).mitEgress = s.mitEgress := rfl
@[simp] theorem State.parkQ_withQueue (s : State) (l : List Instr) : (s.withQueue l).parkQ = s.parkQ := rfl
@[simp] theorem State.movCmds_withQueue (s : State) (l : List Instr) : (s.withQueue l).movCmds = s.movCmds := rfl
@[simp] theorem State.mit_withQueue (s : State) (l : List Instr) : (s.withQueue l).mit = s.mit := rfl
@[simp] theorem State.notices_withQueue (s : State) (l : List Instr) : (s.withQueue l).notices = s.notices := rfl
@[simp] theorem State.slots_withQueue (s : State) (l : List Instr) : (s.withQueue l).slots = s.slots := rfl
@[simp] theorem State.slab_withQueue (s : State) (l : List Instr) : (s.withQueue l).slab = s.slab := rfl
@[simp] theorem State.waits_withQueue (s : State) (l : List Instr) : (s.withQueue l).waits = s.waits := rfl
@[simp] theorem State.admMsgs_withQueue (s : State) (l : List Instr) : (s.withQueue l).admMsgs = s.admMsgs := rfl
@[simp] theorem State.pagerOp_withQueue (s : State) (l : List Instr) : (s.withQueue l).pagerOp = s.pagerOp := rfl
@[simp] theorem State.insts_withQueue (s : State) (l : List Instr) : (s.withQueue l).insts = s.insts := rfl
@[simp] theorem State.trigOps_withQueue (s : State) (l : List Instr) : (s.withQueue l).trigOps = s.trigOps := rfl
@[simp] theorem State.cqWait_withQueue (s : State) (l : List Instr) : (s.withQueue l).cqWait = s.cqWait := rfl
@[simp] theorem State.psBuf_withQueue (s : State) (l : List Instr) : (s.withQueue l).psBuf = s.psBuf := rfl
@[simp] theorem State.handoffs_withQueue (s : State) (l : List Instr) : (s.withQueue l).handoffs = s.handoffs := rfl
@[simp] theorem State.upd_withQueue (s : State) (l : List Instr) : (s.withQueue l).upd = s.upd := rfl
@[simp] theorem State.errDue_withQueue (s : State) (l : List Instr) : (s.withQueue l).errDue = s.errDue := rfl
@[simp] theorem State.errLog_withQueue (s : State) (l : List Instr) : (s.withQueue l).errLog = s.errLog := rfl
@[simp] theorem State.hatLog_withQueue (s : State) (l : List Instr) : (s.withQueue l).hatLog = s.hatLog := rfl
@[simp] theorem State.out_withQueue (s : State) (l : List Instr) : (s.withQueue l).out = s.out := rfl
@[simp] theorem State.free_withQueue (s : State) (l : List Instr) : (s.withQueue l).free = s.free := rfl

@[simp] theorem State.regs_wr (s : State) (f : Fld) (ix : List Nat) (n : Nat) :
    (s.wr f ix n).regs = SMap.set (f.id :: ix) (n % 2 ^ f.w) s.regs := rfl
@[simp] theorem State.out_emit (s : State) (o : Out) : (s.emit o).out = s.out ++ [o] := rfl
@[simp] theorem State.free_freshen (s : State) : s.freshen.free = s.free + 1 := rfl
@[simp] theorem State.pending_withQueue (s : State) (l : List Instr) : (s.withQueue l).pending = l := rfl
@[simp] theorem State.withQueue_self (s : State) : s.withQueue s.pending = s := rfl

/-! ## Registers -/

/-- A field read after a write of it: the value cut to its width. -/
@[simp] theorem State.rd_wr_same (s : State) (f : Fld) (ix : List Nat) (n : Nat) : (s.wr f ix n).rd f ix = n % 2 ^ f.w := by
  simp [State.rd]

/-- A write leaves every field at another key alone. -/
theorem State.rd_wr_other {f g : Fld} {ix jx : List Nat} (h : g.id :: jx ≠ f.id :: ix) (s : State) (n : Nat) :
    (s.wr f ix n).rd g jx = s.rd g jx := by simp [State.rd, SMap.get_set_other h]

/-- A write of one field leaves every field of another number alone. -/
theorem State.rd_wr_ne {f g : Fld} (h : g.id ≠ f.id) (s : State) (ix jx : List Nat) (n : Nat) :
    (s.wr f ix n).rd g jx = s.rd g jx := State.rd_wr_other (fun e => h (List.cons.inj e).1) s n

@[simp] theorem State.rd_emit (s : State) (o : Out) (f : Fld) (ix : List Nat) : (s.emit o).rd f ix = s.rd f ix := rfl
@[simp] theorem State.rd_freshen (s : State) (f : Fld) (ix : List Nat) : s.freshen.rd f ix = s.rd f ix := rfl
@[simp] theorem State.rd_withQueue (s : State) (l : List Instr) (f : Fld) (ix : List Nat) :
    (s.withQueue l).rd f ix = s.rd f ix := rfl

/-- Every field is at its reset value after a reset of the module. -/
@[simp] theorem State.rd_reset (f : Fld) (ix : List Nat) : State.reset.rd f ix = f.reset := rfl

/-! ## Memories -/

theorem State.memWf_reset : State.reset.memWf = true := rfl
@[simp] theorem State.memWf_wr (s : State) (f : Fld) (ix : List Nat) (n : Nat) : (s.wr f ix n).memWf = s.memWf := rfl
@[simp] theorem State.memWf_emit (s : State) (o : Out) : (s.emit o).memWf = s.memWf := rfl
@[simp] theorem State.memWf_freshen (s : State) : s.freshen.memWf = s.memWf := rfl
@[simp] theorem State.memWf_withQueue (s : State) (l : List Instr) : (s.withQueue l).memWf = s.memWf := rfl

end Sys2Proof.Machine
end

