-- ==== Sys2Proof/Laws/Kept.lean ====
section
/-! SUPPORT. What the shared operations of Sys2Proof/Machine/Ops.lean leave unchanged: the lemmas that build `touches` and the canonical form
of the memories up, and one `touches` lemma for each operation.  `touches ps bs s t` is stated of a later state t, so that the lemmas chain: each takes the
claim for the operation's argument and gives it for its result. -/

namespace Sys2Proof.Machine

variable {ps : List Part} {bs : List Block} {s t : State}

/-! ## Building `touches` up -/

theorem State.touches_refl : s.touches ps bs s :=
  ⟨rfl, fun p _ => by cases p <;> rfl, fun _ _ _ _ _ => rfl⟩

/-- What two steps in turn leave unchanged. -/
theorem State.touches_trans {u : State} (h : s.touches ps bs t) (k : t.touches ps bs u) : s.touches ps bs u := by
  refine ⟨k.1.trans h.1, fun p hp => ?_, fun f b ix hb hn => (k.2.2 f b ix hb hn).trans (h.2.2 f b ix hb hn)⟩
  have a := k.2.1 p hp
  have c := h.2.1 p hp
  cases p <;> simp only [State.same] at * <;> rw [a, c]

/-- More parts and blocks may change. -/
theorem State.touches_mono {qs : List Part} {cs : List Block} (h : s.touches ps bs t) (hp : ∀ p ∈ ps, p ∈ qs) (hb : ∀ b ∈ bs, b ∈ cs) :
    s.touches qs cs t :=
  ⟨h.1, fun p n => h.2.1 p fun m => n (hp p m), fun f b ix e n => h.2.2 f b ix e fun m => n (hb b m)⟩

/-- Two fields of one number lie in one block. -/
theorem Fld.block_of_id {f g : Fld} (h : g.id = f.id) : g.block = f.block := by simp [Fld.block, h]

/-- A store to a field of a block that may change. -/
theorem State.touches_wr {f : Fld} {ix : List Nat} {n : Nat} (b : Block) (hb : f.block = some b) (hm : b ∈ bs) (h : s.touches ps bs t) :
    s.touches ps bs (t.wr f ix n) := by
  refine ⟨h.1, fun p hp => ?_, fun g c jx hc hn => ?_⟩
  · have a := h.2.1 p hp
    cases p <;> exact a
  · have ne : g.id ≠ f.id := fun e => hn (by
      have := Fld.block_of_id e
      rw [hc, hb] at this
      exact (Option.some.inj this) ▸ hm)
    rw [State.rd_wr_ne ne]
    exact h.2.2 g c jx hc hn

theorem State.touches_emit {o : Out} (hp : Part.out ∈ ps) (h : s.touches ps bs t) : s.touches ps bs (t.emit o) := by
  refine ⟨h.1, fun p hn => ?_, h.2.2⟩
  have a := h.2.1 p hn
  cases p <;> first | exact absurd hp hn | exact a

theorem State.touches_freshen (hp : Part.free ∈ ps) (h : s.touches ps bs t) : s.touches ps bs t.freshen := by
  refine ⟨h.1, fun p hn => ?_, h.2.2⟩
  have a := h.2.1 p hn
  cases p <;> first | exact absurd hp hn | exact a

/-- A loop whose every turn keeps what it may keep. -/
theorem State.touches_foldl {α : Type} {g : State → α → State} (l : List α) (H : ∀ u x, s.touches ps bs u → s.touches ps bs (g u x)) :
    ∀ t, s.touches ps bs t → s.touches ps bs (l.foldl g t) := by
  induction l with
  | nil => exact fun _ h => h
  | cons a r ih => exact fun t h => ih _ (H t a h)

/-! ## Stores and counts -/

/-- A store to a field that lies in no block. -/
theorem State.touches_free {f : Fld} {ix : List Nat} {n : Nat} (hb : f.block = none) (h : s.touches ps bs t) : s.touches ps bs (t.wr f ix n) := by
  refine ⟨h.1, fun p hp => ?_, fun g c jx hc hn => ?_⟩
  · have a := h.2.1 p hp
    cases p <;> exact a
  · have ne : g.id ≠ f.id := fun e => by
      have := Fld.block_of_id e
      rw [hc, hb] at this
      cases this
    rw [State.rd_wr_ne ne]
    exact h.2.2 g c jx hc hn

theorem State.touches_raise {f : Fld} {ix : List Nat} (b : Block) (hb : f.block = some b) (hm : b ∈ bs) (h : s.touches ps bs t) :
    s.touches ps bs (t.raise f ix) := touches_free rfl (touches_wr b hb hm h)

theorem State.touches_lower {f : Fld} {ix : List Nat} (b : Block) (hb : f.block = some b) (hm : b ∈ bs) (h : s.touches ps bs t) :
    s.touches ps bs (t.lower f ix) := by
  unfold State.lower
  split
  · exact h
  · exact touches_wr b hb hm h

theorem State.touches_bump {f : Fld} {ix : List Nat} {n : Nat} (b : Block) (hb : f.block = some b) (hm : b ∈ bs) (h : s.touches ps bs t) :
    s.touches ps bs (t.bump f ix n) := touches_wr b hb hm h

theorem State.touches_bumpSat {f : Fld} {ix : List Nat} {n : Nat} (b : Block) (hb : f.block = some b) (hm : b ∈ bs) (h : s.touches ps bs t) :
    s.touches ps bs (t.bumpSat f ix n) := touches_wr b hb hm h

theorem State.touches_bumpOvf {f g : Fld} {ix : List Nat} {n : Nat} (b : Block) (hb : f.block = some b) (hg : g.block = some b) (hm : b ∈ bs)
    (h : s.touches ps bs t) : s.touches ps bs (t.bumpOvf f g ix n) := by
  unfold State.bumpOvf
  dsimp only
  split
  · exact touches_wr b hb hm h
  · exact touches_raise b hg hm (touches_wr b hb hm h)

theorem State.touches_countModule {m code part n : Nat} (hm : Block.ctrm ∈ bs) (h : s.touches ps bs t) :
    s.touches ps bs (t.countModule m code part n) := by
  refine touches_foldl _ (fun u x hu => ?_) t h
  split
  · exact touches_bumpOvf .ctrm rfl rfl hm hu
  · exact hu

theorem State.touches_countLocal {q b code part n : Nat} (hm : Block.ctr ∈ bs) (h : s.touches ps bs t) :
    s.touches ps bs (t.countLocal q b code part n) := by
  refine touches_foldl _ (fun u x hu => ?_) t h
  split
  · exact touches_bumpOvf .ctr rfl rfl hm hu
  · exact hu

theorem State.touches_countLegacy {code n : Nat} (hm : Block.ctr ∈ bs) (h : s.touches ps bs t) :
    s.touches ps bs (t.countLegacy code n) := by
  refine touches_foldl _ (fun u x hu => ?_) t h
  split
  · exact touches_bumpOvf .ctr rfl rfl hm hu
  · exact hu

theorem State.touches_countGrant {q l r x part n : Nat} (hm : Block.ctr ∈ bs) (h : s.touches ps bs t) :
    s.touches ps bs (t.countGrant q l r x part n) := by
  unfold State.countGrant
  split
  · exact touches_countLocal hm h
  · exact touches_countLocal hm (touches_countLocal hm (touches_countLocal hm h))

theorem State.touches_countBeat {code part stack n : Nat} (hm : Block.ctr ∈ bs) (h : s.touches ps bs t) :
    s.touches ps bs (t.countBeat code part stack n) := by
  unfold State.countBeat
  split
  · exact h
  · exact touches_countGrant hm (touches_countLocal hm h)

theorem State.touches_countBeats {code part : Nat} {l : List (Loc × Nat)} (hm : Block.ctr ∈ bs) (h : s.touches ps bs t) :
    s.touches ps bs (t.countBeats code part l) := by
  refine touches_foldl _ (fun u x hu => ?_) t h
  split
  · exact hu
  · exact touches_countBeat hm hu

/-- A TLP sent is an effect, and is counted. -/
theorem State.touches_tlp {o : Out} (ho : Part.out ∈ ps) (hm : Block.ctrm ∈ bs) (h : s.touches ps bs t) : s.touches ps bs (t.tlp o) :=
  touches_countModule hm (touches_emit ho h)

/-! ## Writes of HBM -/

/-- The injection flags of a write lie in the error block and the observation state. -/
theorem State.touches_injFired (he : Block.err ∈ bs) (ho : Block.observe ∈ bs) (h : s.touches ps bs t) : s.touches ps bs t.injFired :=
  touches_raise .err rfl he (touches_wr .err rfl he (touches_wr .observe rfl ho h))

/-- A state with other HBM bytes and bad sectors. -/
theorem State.touches_hbm {m : Mem} {k : SMap Nat} (hp : Part.hbm ∈ ps) (hq : Part.badSectors ∈ ps) (h : s.touches ps bs t) :
    s.touches ps bs { t with hbm := m, badSectors := k } := by
  refine ⟨h.1, fun p hn => ?_, h.2.2⟩
  have a := h.2.1 p hn
  cases p <;> first | exact absurd hp hn | exact absurd hq hn | exact a

theorem State.touches_injFlip {stack dev : Nat} (hp : Part.hbm ∈ ps) (hq : Part.badSectors ∈ ps) (he : Block.err ∈ bs)
    (ho : Block.observe ∈ bs) (h : s.touches ps bs t) : s.touches ps bs (t.injFlip stack dev) := by
  unfold State.injFlip
  dsimp only
  refine touches_injFired he ho ?_
  split
  · exact touches_hbm hp hq h
  · exact h

theorem State.touches_devWrite {stack dev : Nat} {d : List Byte} (hp : Part.hbm ∈ ps) (hq : Part.badSectors ∈ ps) (he : Block.err ∈ bs)
    (ho : Block.observe ∈ bs) (h : s.touches ps bs t) : s.touches ps bs (t.devWrite stack dev d) := by
  unfold State.devWrite
  dsimp only
  split
  · exact h
  · split
    · exact touches_injFlip hp hq he ho (touches_hbm hp hq h)
    · exact touches_hbm hp hq h

theorem State.touches_writePlaces (hp : Part.hbm ∈ ps) (hq : Part.badSectors ∈ ps) (he : Block.err ∈ bs) (ho : Block.observe ∈ bs)
    (l : List (Loc × Nat)) : ∀ (d : List Byte) (t : State), s.touches ps bs t → s.touches ps bs (t.writePlaces l d) := by
  induction l with
  | nil => exact fun _ _ h => h
  | cons a r ih => exact fun d t h => ih _ _ (touches_devWrite hp hq he ho h)

theorem State.touches_memWrite {part a : Nat} {d : List Byte} {u : State} (hp : Part.hbm ∈ ps) (hq : Part.badSectors ∈ ps)
    (he : Block.err ∈ bs) (ho : Block.observe ∈ bs) (hc : Block.ctr ∈ bs) (h : s.touches ps bs t) (e : t.memWrite part a d = some u) :
    s.touches ps bs u := by
  unfold State.memWrite at e
  split at e
  · cases e
  · split at e
    · cases e
      exact touches_countBeats hc (touches_writePlaces hp hq he ho _ _ _ h)
    · cases e

theorem State.touches_ringWrite {f base log2 prod : Nat} {host : Bool} {d : List Byte} {u : State} (hp : Part.hbm ∈ ps)
    (hq : Part.badSectors ∈ ps) (hx : Part.out ∈ ps) (he : Block.err ∈ bs) (ho : Block.observe ∈ bs) (hc : Block.ctr ∈ bs)
    (hn : Block.ctrm ∈ bs) (h : s.touches ps bs t) (e : t.ringWrite f base host log2 prod d = some u) : s.touches ps bs u := by
  unfold State.ringWrite at e
  dsimp only at e
  split at e
  · split at e
    · have k := touches_tlp (o := .hostWrite f (base + prod % 2 ^ log2 * d.length) d) hx hn h
      rw [Option.some.inj e] at k
      exact k
    · cases e
  · exact touches_memWrite hp hq he ho hc h e

/-! ## Interrupts and host accesses -/

theorem State.touches_hostFail {f : Nat} (hm : Block.pci ∈ bs) (hn : Block.ctrm ∈ bs) (h : s.touches ps bs t) :
    s.touches ps bs (t.hostFail f) :=
  touches_countModule hn (touches_bump .pci rfl hm (touches_raise .pci rfl hm h))

theorem State.touches_aer {f kind : Nat} (ho : Part.out ∈ ps) (hm : Block.host ∈ bs) (h : s.touches ps bs t) :
    s.touches ps bs (t.aer f kind) := by
  have k : s.touches ps bs ((t.wr V.AER_ERR [f] (setBit (t.rd V.AER_ERR [f]) kind)).emit (.aer f kind)) :=
    touches_emit ho (touches_wr .host rfl hm h)
  unfold State.aer
  dsimp only
  split
  · exact touches_wr .host rfl hm k
  · exact k

theorem State.touches_msix {f v : Nat} (ho : Part.out ∈ ps) (hm : Block.host ∈ bs) (hn : Block.ctrm ∈ bs) (h : s.touches ps bs t) :
    s.touches ps bs (t.msix f v) := by
  unfold State.msix
  split
  · exact touches_wr .host rfl hm h
  · split
    · exact touches_tlp ho hn h
    · exact h

theorem State.touches_vector {f v : Nat} (ho : Part.out ∈ ps) (hm : Block.host ∈ bs) (hn : Block.ctrm ∈ bs) (hp : Block.pci ∈ bs) (h : s.touches ps bs t) :
    s.touches ps bs (t.vector f v) := by
  unfold State.vector
  split
  · exact touches_raise .pci rfl hp h
  · exact touches_msix ho hm hn h

theorem State.touches_raiseVec1 {f : Nat} (ho : Part.out ∈ ps) (hm : Block.host ∈ bs) (hn : Block.ctrm ∈ bs) (hv : Block.observe ∈ bs) (h : s.touches ps bs t) :
    s.touches ps bs (t.raiseVec1 f) := by
  unfold State.raiseVec1
  split
  · exact touches_wr .observe rfl hv (touches_wr .observe rfl hv (touches_msix ho hm hn h))
  · exact touches_wr .observe rfl hv h

/-! ## Error records -/

/-- The parts and blocks that a detection may change: the detections of the cycle, the registers of the error block, and the load test. -/
def errParts : List Part := [.errDue]
def errBlocks : List Block := [.err, .power]

/-- The parts and blocks that the records of a cycle may change: the rings in HBM, the module's logs, the effects, and the registers of the
error block, the summaries, the counters, and the state of the tray link. -/
def recordParts : List Part := [.hbm, .badSectors, .errDue, .errLog, .hatLog, .out]
def recordBlocks : List Block := [.ctrm, .ctr, .err, .glb, .pci, .trayCtl, .power, .host, .observe]

theorem State.touches_ceNote {det quad : Nat} (hv : Block.observe ∈ bs) (h : s.touches ps bs t) : s.touches ps bs (t.ceNote det quad) := by
  unfold State.ceNote
  split
  · exact touches_wr .observe rfl hv (touches_wr .observe rfl hv h)
  · exact touches_bump .observe rfl hv h

theorem State.touches_sendGram {kind : Nat} {items : List Byte} (ho : Part.out ∈ ps) (hm : Block.trayCtl ∈ bs) (h : s.touches ps bs t) :
    s.touches ps bs (t.sendGram kind items) := by
  unfold State.sendGram
  dsimp only
  split
  · exact touches_emit ho (touches_emit ho h)
  · exact touches_bump .trayCtl rfl hm (touches_emit ho (touches_emit ho h))

theorem summaryFld_block (n : Nat) : (summaryFld n).block = some .glb := by
  unfold summaryFld
  split <;> rfl

theorem State.touches_errToRing {f sev rcd : Nat} (h : s.touches recordParts recordBlocks t) :
    s.touches recordParts recordBlocks (t.errToRing f sev rcd) := by
  have k : s.touches recordParts recordBlocks (t.raise (summaryFld sev) [f]) := touches_raise .glb (summaryFld_block sev) (by decide) h
  unfold State.errToRing
  dsimp only
  generalize t.raise (summaryFld sev) [f] = u at k
  have lost : s.touches recordParts recordBlocks ((u.bumpOvf F.ERR_RING_LOST_COUNT F.ERR_RING_LOST_OVF [f] 1).countModule 2 17 0 1) :=
    touches_countModule (by decide) (touches_bumpOvf .err rfl rfl (by decide) k)
  split
  · split
    · exact lost
    · split
      · next v e =>
        exact touches_raiseVec1 (by decide) (by decide) (by decide) (by decide) (touches_countModule (by decide) (touches_bump .err rfl (by decide)
          (touches_ringWrite (by decide) (by decide) (by decide) (by decide) (by decide) (by decide) (by decide) k e)))
      · split
        · exact touches_hostFail (by decide) (by decide) lost
        · exact lost
  · exact k

/-- Another log of records of a severity. -/
theorem State.touches_errLog {l : List Nat} (h : s.touches recordParts recordBlocks t) : s.touches recordParts recordBlocks { t with errLog := l } := by
  refine ⟨h.1, fun p hn => ?_, h.2.2⟩
  have a := h.2.1 p hn
  cases p <;> first | exact absurd (by decide) hn | exact a

theorem State.touches_hatLog {l : List Nat} (h : s.touches recordParts recordBlocks t) : s.touches recordParts recordBlocks { t with hatLog := l } := by
  refine ⟨h.1, fun p hn => ?_, h.2.2⟩
  have a := h.2.1 p hn
  cases p <;> first | exact absurd (by decide) hn | exact a

theorem State.touches_errDeliver {e : ErrInfo} {rcd : Nat} (h : s.touches recordParts recordBlocks t) :
    s.touches recordParts recordBlocks (t.errDeliver e rcd) := by
  have k : s.touches recordParts recordBlocks ((t.errRings e).foldl (fun u f =>
      u.errToRing f e.sev (if f = 0 && e.part != 0 && u.rd F.DBG_LEVEL_LEVEL [] == 0 then errRedact rcd else rcd)) t) :=
    touches_foldl _ (fun _ _ hu => touches_errToRing hu) t h
  unfold State.errDeliver
  dsimp only
  generalize (t.errRings e).foldl _ t = u at k
  have g : s.touches recordParts recordBlocks (({ u with errLog := (rcd :: u.errLog).take 256 } : State).sendGram 3 (leBytes 64 rcd)) :=
    touches_sendGram (by decide) (by decide) (touches_errLog k)
  have m : s.touches recordParts recordBlocks (if e.sev < 2 then u else
      if e.det = 0x17 then ({ u with errLog := (rcd :: u.errLog).take 256 } : State).sendGram 3 (leBytes 64 rcd)
      else (({ u with errLog := (rcd :: u.errLog).take 256 } : State).sendGram 3 (leBytes 64 rcd)).aer 0 (if e.sev = 3 then 2 else 1)) := by
    split
    · exact k
    · split
      · exact g
      · exact touches_aer (by decide) (by decide) g
  have fin : ∀ v : State, s.touches recordParts recordBlocks v →
      s.touches recordParts recordBlocks (if e.sev = 3 then { v with hatLog := (rcd :: v.hatLog).take 64 } else v) := by
    intro v hv
    split
    · exact touches_hatLog hv
    · exact hv
  exact fin _ m

theorem State.touches_errDue {l : List ErrInfo} (hd : Part.errDue ∈ ps) (h : s.touches ps bs t) : s.touches ps bs { t with errDue := l } := by
  refine ⟨h.1, fun p hn => ?_, h.2.2⟩
  have a := h.2.1 p hn
  cases p <;> first | exact absurd hd hn | exact a

/-- A detection changes the list of the cycle's detections and the registers of error reporting, and nothing else. -/
theorem State.touches_err {e : ErrInfo} (h : s.touches errParts errBlocks t) : s.touches errParts errBlocks (t.err e) := by
  unfold State.err
  dsimp only
  have k := touches_bumpOvf (n := 1) (ix := [e.det]) (f := F.ERR_DET_COUNT) (g := F.ERR_DET_OVF) .err rfl rfl (by decide) h
  generalize t.bumpOvf F.ERR_DET_COUNT F.ERR_DET_OVF [e.det] 1 = u at k
  refine touches_errDue (by decide) ?_
  split
  · exact touches_wr .power rfl (by decide) k
  · exact k

theorem State.touches_errWrite {e : ErrInfo} (h : s.touches recordParts recordBlocks t) :
    s.touches recordParts recordBlocks (t.errWrite e) := by
  have k : ∀ u : State, s.touches recordParts recordBlocks u → s.touches recordParts recordBlocks (u.bump V.ERR_SEQ [] 1) :=
    fun _ hu => touches_bump .observe rfl (by decide) hu
  unfold State.errWrite
  split
  · exact h
  · dsimp only
    have c : s.touches recordParts recordBlocks (if e.sev = 0 then t.ceNote e.det e.quad else t) := by
      split
      · exact touches_ceNote (by decide) h
      · exact h
    split
    · exact touches_hatLog (k _ c)
    · exact touches_errDeliver (k _ c)

/-- The end of a cycle writes the records of its detections: the error rings, the logs and the registers of error reporting, and nothing
else. -/
theorem State.touches_errFlush (h : s.touches recordParts recordBlocks t) : s.touches recordParts recordBlocks t.errFlush :=
  touches_foldl _ (fun _ _ hu => touches_errWrite hu) _ (touches_errDue (by decide) h)

/-! ## The canonical form -/

/-- A state whose three memories are those of another has their form. -/
theorem State.memWf_of_same (hb : t.hbm = s.hbm) (hf : t.flash = s.flash) (hi : t.img = s.img) (h : s.memWf = true) : t.memWf = true := by
  unfold State.memWf at *
  rw [hb, hf, hi]
  exact h

/-- What leaves HBM, flash and images alone keeps the form. -/
theorem State.memWf_of_touches (h : s.touches ps bs t) (a : Part.hbm ∉ ps) (b : Part.flash ∉ ps) (c : Part.img ∉ ps)
    (w : s.memWf = true) : t.memWf = true :=
  memWf_of_same (h.2.1 _ a) (h.2.1 _ b) (h.2.1 _ c) w

/-- A loop whose every turn keeps the form. -/
theorem State.memWf_foldl {α : Type} {g : State → α → State} (l : List α) (H : ∀ u x, u.memWf = true → (g u x).memWf = true) :
    ∀ t : State, t.memWf = true → (l.foldl g t).memWf = true := by
  induction l with
  | nil => exact fun _ h => h
  | cons a r ih => exact fun t h => ih _ (H t a h)

end Sys2Proof.Machine
end

