-- ==== Sys2Proof/Tests/Slice0.lean ====
section
/-! SUPPORT. The model's own tests: small states, the witnesses of the statements' hypotheses, and one-step runs. -/

namespace Sys2Proof.Machine

set_option maxRecDepth 4000
set_option Elab.async false

/-- Fields stored one after the other. -/
def State.w (s : State) (l : List (Fld × List Nat × Nat)) : State := l.foldl (fun t x => t.wr x.1 x.2.1 x.2.2) s

/-- Bytes of bank 0 of a knit image. -/
def State.i (s : State) (region quad part off : Nat) (bs : List Byte) : State :=
  { s with img := s.img.put 0 region quad part off bs }

/-- A module in P0 whose port 0 of quadrant 0 is present, with X2 and QUIET allowed, rates 0 to 2 and no cartridge. -/
def base : State :=
  (State.reset.i 1 0 0 64 [0x71, 0, 0, 0, 8, 0, 0, 0]).w [(F.HAT_PSTATE_STATE, [], 0)]

/-- A header-only packet on VC 0. -/
def pk0 : Packet := ⟨0, [], 0, false⟩

/-- An LCF whose marker and check are right. -/
def goodLcf : BitVec 512 :=
  BitVec.ofNat 512 (0x0FF033CCA55AF00F + 2 ^ 480 * crc32c (leBytes 60 0x0FF033CCA55AF00F))

/-- pk0 ready to be sent on downlink 0 of quadrant 0. -/
def reas0 : Reas := { pkt := pk0, dest := ⟨0, 0, 2, 0, 0⟩, origin := 0, inPort := 0, release := 0, arrive := 0, admitted := 0 }

/-- A port that is UP with a packet for VC 0 and no credit. -/
def starvedState : State := { base.w [(F.LNK_PORT_STAT_STATE, [0, 0], 4)] with mitEgress := [([0, 0], [reas0])] }

/-! ## A partition with memory, ranks, a collective, a shard and Mitten contexts -/

/-- base with partition 1: 4 slots in quadrant 0 and 64 MiB of HBM with a spill region. -/
def smallLab : State :=
  { base with
    img := { base.img with
      mem := [(1073741888, 113), (1073741892, 8), (5368709120, 1), (5368709121, 1), (5368709122, 1), (5368709126, 64),
        (5372903424, 3), (5372903429, 4), (5372903433, 4), (15569256512, 31), (15569256544, 4)] } }

/-- The bytes that are not zero of the PORT and HBM images of lab, by key: port 0, the stack extents of quadrant 0 and partition 1's region
extents, one of each kind. -/
def lowBytes : Mem :=
  [(1073741888, 113), (1073741892, 8), (5368709120, 1), (5368709121, 1), (5368709122, 1), (5368709126, 64), (5368709136, 1),
   (5368709138, 1), (5368709140, 64), (5368709142, 64)] ++
  [(5372903424, 1), (5372903429, 4), (5372903433, 4), (5372903440, 3), (5372903445, 8), (5372903449, 4), (5372903456, 5),
   (5372903461, 12), (5372903465, 4), (5372903472, 7), (5372903477, 16), (5372903481, 4)]

/-- Its RANK, COLL and OPT images: ranks 0 and 1, collective 0, three Mitten contexts, shard 0. -/
def midBytes : Mem :=
  [(6983516161, 128), (6983516165, 129), (9131003904, 3), (9131003907, 16), (9131003911, 4), (9131003912, 4), (9131327488, 3),
   (9131458560, 5), (9132048384, 129), (9132048448, 3), (9132048468, 3), (9132048469, 3), (9132048512, 13), (10205200384, 1),
   (10205200396, 4)]

/-- Its BRIM image: partition 1, valid, with its pod, knit and parking bits, 100 slots a quadrant, Mitten contexts 8 to 23. -/
def brimBytes : Mem :=
  [(15569256512, 31), (15569256520, 1), (15569256544, 100), (15569256546, 100), (15569256548, 100), (15569256550, 100),
   (15569256552, 8), (15569256554, 16), (15569256556, 8)]

/-- base with partition 1: downlink 0, 100 slots a quadrant, Mitten contexts 8 to 23, 8 ranks (rank 0 on downlink 0 of this rack,
rank 1 one rack to the east), 64 MiB of HBM with a region of each kind, one collective, one shard, three contexts. -/
def lab : State := { base with img := { base.img with mem := lowBytes ++ (midBytes ++ brimBytes) } }

/-- The keys of those bytes are those of image writes. -/
theorem test_lab_keys :
    (midBytes.map Prod.fst).take 3 = [imgKey 0 6 4 1 1, imgKey 0 6 4 1 5, imgKey 0 8 4 1 0x1000] ∧ imgKey 0 0x0E 4 0 64 = 15569256512 := by
  decide +kernel

/-- A slot that is OPEN in frame 0, and an ACTIVE instance of step 0. -/
def slot0 : Slot :=
  { members := 0, st := .opened, ovf := false, inv := false, unarmed := false, crown := false, podnew := false, locked := false,
    range := 0, w := 0, engine := 0, wasted := 0, lastRank := 0, tFirst := 0, tLast := 0, touch := 0, res := .frame 0, side := 0,
    peerParts := 0, resultParts := 0, sent := false, resendIv := 0, podSent := 0 }

def inst0 : Inst := { instNone with st := .active, armed := true }

/-- A state that holds the instance of step 0 of collective 0 of partition 1. -/
def State.inst (s : State) (i : Inst) : State := { s with insts := [(instKey 1 0 (lab.img.coll 1 0) 0, i)] }

/-- lab with slots. -/
def State.slotted (s : State) (l : List (Key × Slot)) : State := { s with slots := l }

/-- A packet of partition 1 made by its source. -/
def pk (opcode vc units dstType srcType dst src opspec : Nat) (payload : List Byte) : Packet :=
  pkSealSource ⟨BitVec.ofNat 256 (mkHdr opcode vc 0 1 units dstType srcType dst src 0 opspec), payload, 0, false⟩

/-- 64 B units of zeros after some bytes. -/
def units (n : Nat) (bs : List Byte) : List Byte := bs ++ List.replicate (64 * n - bs.length) 0

def pkContrib : Packet := pk 0x30 6 8 2 0 0 0 (3 * 2 ^ 74) (units 8 [])
def pkPartial : Packet := pk 0x31 6 0 2 1 0 1 (8 * 2 ^ 74) []
def pkPublish : Packet := pk 0x34 6 0 2 1 0 1 (2 ^ 74) []
def pkDoor : Packet := pk 0x14 0 0 2 0 0 0 0 []
def pkDone : Packet := pk 0x32 6 1 2 0 0 0 0 (units 1 [4])
def pkMitNi : Packet := pk 0x50 12 1 2 0 0 0 8 (units 1 [1])
def pkMitRow : Packet := pk 0x50 12 1 2 1 0 1 9 (units 1 [1])
def pkMitCol : Packet := pk 0x50 12 1 2 1 0 8 9 (units 1 [1])
def pkMitCour : Packet := pk 0x50 12 1 2 0 0 0 (10 + 2 ^ 19) (units 1 [1])
def pkPark : Packet := pk 0x12 0 1 2 0 0 0 0 (units 1 [1])
def pkParkR : Packet := pk 0x13 0 0 2 0 0 0 (2 ^ 64) []

/-- A completed round with a result of zero. -/
def round2 : Round :=
  { seq := 0, st := 2, silent := false, deadline := 0, inputs := [], rack := none, row := none, pod := some ⟨0, false, false⟩,
    resendIv := 0, carryIv := 0 }

/-- A knit that waits for its vote: partition 0 has context 0, a Flags context with SELF. -/
def voteState (w : Nat) : State :=
  (((base.i 0x0E 4 0 40 [0, 0, 8, 0]).i 8 4 0 0x100000 [73])).w [(V.KNT_FN, [], 1), (V.KNT_WAIT, [], w)]

/-- smallLab with a collective and 100 slots a quadrant. -/
def collLab : State :=
  { base with
    img := { base.img with
      mem := smallLab.img.mem.take 9 ++ [(9131003904, 3), (9131003907, 16), (9131003911, 4), (9131003912, 4), (15569256512, 31),
        (15569256544, 100), (15569256546, 100), (15569256548, 100), (15569256550, 100)] } }

/-! ## Rings, the pager, triggers and the update engine -/

/-- lab with a ring of engine e in quadrant 0 whose head is an entry at partition address 0. -/
def ringLab (e entry : Nat) : State :=
  { lab.w [(F.SEQ_RING_CTL_EN, [0, 1, e], 1), (F.SEQ_RING_CTL_LOG2SIZE, [0, 1, e], 4), (F.SEQ_RING_PROD_PROD, [0, 1, e], 1)]
    with hbm := Mem.writeN 0 (leBytes 64 entry) [] }

def spillLab : State :=
  { smallLab.w [(F.SLT_PAGER_CTL_LOW_WATER, [0], 4)] with slots := [([0, 1, 0, 0, 0], slot0)] }

def recallLab : State :=
  { smallLab with slots := [([0, 1, 0, 0, 0], { slot0 with res := .record 0 })], waits := [([0, 1], [⟨0, 0, 0, .resend 0⟩])] }

/-- recallLab with every frame taken. -/
def swapLab : State :=
  { recallLab with slots := [([0, 1, 0, 0, 0], { slot0 with res := .record 0 }), ([0, 1, 0, 1, 0], slot0),
      ([0, 1, 0, 2, 0], { slot0 with res := .frame 1, touch := 1 }), ([0, 1, 0, 3, 0], { slot0 with res := .frame 2, touch := 1 }),
      ([0, 1, 1, 0, 0], { slot0 with res := .frame 3, touch := 1 })] }.w [(V.CYCLE, [0], 2048)]

def trigOp0 (op : Nat) : TrigOp := { widx := 0, word := op, ctx := 0, counter := 0, finished := false, aborted := false }
def trigLab (op : Nat) : State := { lab.inst { inst0 with st := .ready } with trigOps := [([1], [trigOp0 op])] }
def trigLab2 (op : Nat) : State :=
  { lab.inst { inst0 with st := .ready, released := true, resulted := 4 } with trigOps := [([1], [trigOp0 op])] }

def hand0 : Handoff := { coll := 0, step := 0, chunk := 0, grads := [], ovf := false, inv := false, side := 0, window := 0, waited := false }
def handLab : State := { lab with handoffs := [([1], [hand0])] }

/-! ## Gram commands: descriptors of small matrices in the optimizer region -/

/-- A descriptor: rows, columns, format, pitch, at a 4 KiB page of the region. -/
def desc (page r c fmt pitch : Nat) : Nat := (1024 + page) * 4096 + r * 2 ^ 64 + c * 2 ^ 80 + fmt * 2 ^ 93 + pitch * 2 ^ 96
def gAcc : BitVec 512 := BitVec.ofNat 512 (1 + desc 0 16 16 0 64 * 2 ^ 64 + desc 1 16 16 0 64 * 2 ^ 192 + 2 ^ 323)
def gMat : BitVec 512 :=
  BitVec.ofNat 512 (2 + desc 0 16 16 0 64 * 2 ^ 64 + desc 1 16 16 0 64 * 2 ^ 192 + desc 2 16 16 0 64 * 2 ^ 320 + 2 ^ 480 + 2 ^ 483)
def gRoot : BitVec 512 :=
  BitVec.ofNat 512 (3 + desc 0 16 16 0 64 * 2 ^ 64 + desc 1 16 16 0 64 * 2 ^ 192 + 1026 * 4096 * 2 ^ 320 + 2 ^ 416 + 2 ^ 424)
def gOrtho : BitVec 512 :=
  BitVec.ofNat 512 (4 + desc 0 16 16 0 64 * 2 ^ 64 + desc 1 16 16 0 64 * 2 ^ 192 + 1026 * 4096 * 2 ^ 320 + 1030 * 4096 * 2 ^ 384
    + 2 ^ 448 + 2 ^ 459)

/-- A staged 2 by 512 block of shard 1's gradients with its scratch, and a state whose step has staged them: the shard's one
segment is in a group of the matrix recipe. -/
def gPass0 : GPass :=
  { rows := 16, cols := 16, k := 16, sym := false, scale := false, scaleBytes := 0, extra := 0, srcA := 4, srcB := 4, zero := true }
def gApply : BitVec 512 := BitVec.ofNat 512 (5 + 2 ^ 64 + 2 ^ 80 + (2 * 2 ^ 64 + 512 * 2 ^ 80 + 2048 * 2 ^ 96) * 2 ^ 128 + 1044 * 4096 * 2 ^ 384)
def staged0 : UpdChunk :=
  { grads := [], staged := true, passes := 0, finished := false, dir := false, ovf := false, inv := false, norm := 0, bad := [] }
def applyLab : State :=
  let s := (ringLab 2 gApply.toNat).w [(F.UPD_PART_STEP_STATE, [1], 3)]
  let s := s.i 9 4 1 0x70040 (leBytes 32 (1 + 8 + 2 ^ 48 + 4 * 2 ^ 96 + 2 ^ 20 * 2 ^ 128 + 2 ^ 16 * 2 ^ 192))
  { (s.i 9 4 1 0 [6]) with upd := [([1, 1, 0], staged0), ([1, 1, 1], staged0), ([1, 1, 2], staged0), ([1, 1, 3], staged0)] }

/-! ## Mover channels -/

/-- Channel 1 of partition 1 in quadrant 0 RUNNING at partition address 0, where one or two instruction words stand. -/
def movLab (a b : Nat) : State :=
  { lab.w [(F.MOV_CH_STAT_STATE, [0, 1, 0], 1)] with hbm := Mem.writeN 0 (leBytes 32 a ++ leBytes 32 b) [] }

/-- MOVE of one 64 B run from 0x1000 to 0x2000, FILL of 64 B at 0x1000, COMPARE of 64 B at 0x1000 with zero. -/
def mvMove : Nat := 1 + 0x1000 * 2 ^ 64 + 0x2000 * 2 ^ 128 + 64 * 2 ^ 192
def mvMove2 : Nat := 1 + 2 ^ 16 + 2 ^ 32
def mvFill : Nat := 2 + 0x1000 * 2 ^ 64 + 64 * 2 ^ 192
/-- COMPARE of 64 B at 0x1000 with 64 B at 0x2000. -/
def mvComp2 : Nat := 3 + 0x1000 * 2 ^ 64 + 0x2000 * 2 ^ 128 + 64 * 2 ^ 192
def mvComp : Nat := 3 + 2 ^ 12 + 0x1000 * 2 ^ 64 + 64 * 2 ^ 192

/-! ## The switch -/

def pkUp : Packet := pk 0x20 4 0 0 0 0 1 0 []
def pkMit : Packet := pk 0x50 13 1 2 1 0 1 9 (units 1 [1])
def pkAged : Packet := pkSealSource (pkSet pkUp 80 16 0xFFFF)

/-- lab with uplink 0 open and RANK and ROUTE bank 0 of partition 1 valid. -/
def routed : State := lab.w [(F.COR_PORT_OPEN, [0, 36], 1), (F.COR_PORT_OPEN, [0, 0], 1), (F.LNK_PORT_STAT_STATE, [0, 0], 4), (F.XPT_EPOCH_VALID_A, [1], 1)]

/-- A copy for an output, and a packet in a core: from downlink 0, for downlink 0. -/
def copy0 (out : Nat) : Copy := { out := out, dests := [⟨0, out, 2, 0, 0⟩], release := 0, cmark := false }
def held0 : Held := { pkt := pk0, inPort := 0, origin := 0, hop := 0, arrive := 0, admitted := 0, bank := 0, copies := [copy0 0] }
def reasmState : State := { base with reasm := [([0, 0], [reas0])] }

/-! ## The tray, the cartridges, the host link, JTAG -/

/-- The Yofen running and the host link up. -/
def yof : State := base.w [(V.YOF_ON, [], 1), (F.PCI_LINK_SPEED, [], 1)]

/-- The tray's owner, with pumps and fans driven. -/
def yofOwner : State :=
  yof.w ([(F.TRY_OWN_ROLE, [], 2)] ++ (List.range 8).map fun i => (F.TRY_PWM_APPLIED, [i], 0xFFFF))

/-- Cartridge 0 present in a state. -/
def cartLab (st : Nat) : State := base.w [(F.TRY_CART_STATE, [0], st)]

/-- Pins usable by JTAG: D1 and every external port closed. -/
def jtagLab : State := base.w [(F.DBG_LEVEL_LEVEL, [], 1)]

/-- A load test in its first phase of four, far below every limit. -/
def loadLab : State := ((base.i 10 4 0 22 [4]).i 11 4 0 424 [100]).w [(F.HAT_LOADTEST_ACTIVE, [], 1)]

/-- What port lane j carries for the first codeword of a frame of zeros, lanes 0 to 3 in use. -/
def zeroLane (j : Nat) : BitVec 1360 := BitVec.ofNat 1360 (txLane [0, 1, 2, 3] 0 (List.replicate 5 0) j)

/-- A border group that gives an extent of partition 0 to partition 1: its one frame is staged, and its image in the shadow bank. -/
def borderLab : State :=
  let s := (base.i 5 0 0 0 [1, 0, 1, 0, 0, 0, 64, 0]).w [(V.KNT_FN, [], 1), (V.KNT_WAIT, [], 5), (V.KNT_GROUP, [], 1), (V.BASE_APPLIED, [], 1),
    (V.KNT_HDR, [], 2 ^ 96 + 2 ^ 128), (V.KNT_PAGE, [1], 1)]
  { s with img := s.img.put 1 5 0 0 0 [1, 1, 1, 0, 0, 0, 64, 0], hbm := Mem.writeN 0 [0, 0, 0, 0x28, 1, 0, 8, 0, 3] [] }

/-- Wheel w of a quadrant with slots of 4,096 cycles, the slot in progress lent to partition p. -/
def State.lentTo (s : State) (q w p : Nat) : State := (s.i 4 q 0 (264 * w + 1) [12]).w [(V.SLOT_LENT, [q, w], p + 1)]

/-- The Mover wheel of quadrant 0 in a pager slot of partition 1. -/
def State.pagerSlot (s : State) : State := (s.i 4 0 0 1849 [12]).i 4 0 0 1856 [65]

/-- lab with its step UPDATING, shard 0 started with a chunk of no gradients, a recipe for group 0, and the update engine lent. -/
def updLab (recipe : Nat) : State :=
  let s := ((lab.i 9 4 1 0 [recipe]).lentTo 0 5 1).w [(F.UPD_PART_STEP_STATE, [1], 3), (V.UPD_STARTED, [1, 0], 1)]
  { s with upd := [([1, 0, 0], { staged0 with staged := false })] }

/-- The same with the extents of quadrant 0 LOST. -/
def updLost : State := (updLab 1).w [(F.HBM_EXTENT_LOST, [0, 0], 1), (F.HBM_EXTENT_LOST, [0, 1], 1)]

/-- A command RUNNING in the Gram engine of quadrant 0, whose wheel is lent to partition 1. -/
def gramLab (entry : BitVec 512) : State :=
  (lab.lentTo 0 6 1).w [(F.GRM_PART_STATE, [0, 1], 2), (V.GRM_ENTRY, [0, 1], entry.toNat)]

/-- A request that waits in the parking queue of quadrant 0, and a full queue. -/
def parked0 : Parked := ⟨pkPark, (lab.parkTarget pkPark).getD [], 0, 0⟩
def parkLab : State := ({ lab with parkQ := [([0], [parked0])] } : State).lentTo 0 8 1
def parkFull : State := { lab with parkQ := [([0], List.replicate 256 ⟨pkPark, [], 0, 0⟩)] }

/-- movLab with the Mover wheel of quadrant 0 lent to partition 1. -/
def movLent (a b : Nat) : State := (movLab a b).lentTo 0 7 1

/-! ## WellFormed: for each check of Instr.wf an ill-formed term that it refuses -/

/-- A packet whose payload is longer than its PAY_UNITS of 0. -/
def pkBad : Packet := ⟨0, [1], 0, false⟩

theorem test_wf_refuses_link :
    ((([
      .seamCrcError 4 0, .seamCrcError 0 4, .seamDown 4 0, .seamDown 0 4, .linkDownHoldEnd 4 0, .linkDownHoldEnd 0 40,
      .linkSignalDetect 4 0 0, .linkSignalDetect 0 40 0, .linkSignalDetect 0 0 16, .linkTrainEnd 4 0, .linkTrainEnd 0 40,
      .linkAlignDone 4 0, .linkAlignDone 0 40, .linkAttemptTimeout 4 0, .linkAttemptTimeout 0 40, .linkX2SlotEnd 4 0,
      .linkX2SlotEnd 0 40, .linkRetrainTimeout 4 0, .linkRetrainTimeout 0 40, .lcfReceive 4 0 0, .lcfReceive 0 40 0, .syncReq 4 0 0 0,
      .syncReq 0 40 0 0, .syncReq 0 0 16 0, .quiet 4 0, .quiet 0 40, .quietAck 4 0, .quietAck 0 40, .retrain 4 0, .retrain 0 40,
      .quietIdleExpiry 4 0, .quietIdleExpiry 0 40, .linkWake 4 0, .linkWake 0 40, .peerSignalWake 4 0, .peerSignalWake 0 40,
      .codewordDecode 4 0 0 0 0 0, .codewordDecode 0 40 0 0 0 0] : List Instr) ++
    ([
      .creditStarve 4 0 0, .creditStarve 0 40 0, .creditStarve 0 0 16, .laneErrorWindow 4 0, .laneErrorWindow 0 40, .degradeSwitch 4 0,
      .degradeSwitch 0 40, .ucwWindow 4 0, .ucwWindow 0 40, .lcfLoss 4 0, .lcfLoss 0 40, .linkRetrainWrite 4 0 0,
      .linkRetrainWrite 0 40 0, .linkEnWrite 4 0 0, .linkEnWrite 0 40 0, .linkInject 4 0, .retrainPrbsEnd 4 0, .retrainPrbsEnd 0 40] : List Instr)).all fun c => !c.wf) = true := by
  decide +kernel

theorem test_wf_refuses_switch :
    ((([
      .packetHeaderArrival 4 0 pk0, .packetHeaderArrival 0 40 pk0, .packetHeaderArrival 0 0 pkBad, .ageExpiry 4 0, .ageExpiry 0 40,
      .bankAdmit 4 0, .bankAdmit 0 48, .egressStreamStart 4 0 0, .egressStreamStart 0 48 0, .egressStreamStart 0 0 48,
      .packetRelease 4 0, .packetRelease 0 40, .flushEnd 4 0, .flushEnd 0 40, .depthBroadcast 4, .mirCtlWrite 4 0 0, .mirCtlWrite 0 4 0,
      .lowClr 4, .peakClr 4 0 0, .peakClr 0 48 0, .peakClr 0 0 6] : List Instr)).all fun c => !c.wf) = true := by
  decide +kernel

theorem test_wf_refuses_knit :
    ((([
      .knitLoad 32, .knitAbort 32, .knitCommit 32, .borderZeroizeEnd [(4, 0)], .borderZeroizeEnd [(0, 64)], .epochFlip 32, .epochRetire 32] : List Instr)).all fun c => !c.wf) = true := by
  decide +kernel

theorem test_wf_refuses_slot :
    ((([
      .contrib 4 pk0, .contrib 0 pkBad, .admissionRequest 4 0 0 0 0, .admissionRequest 0 32 0 0 0, .admissionRequest 0 0 (2 ^ 16) 0 0,
      .admissionRequest 0 0 0 (2 ^ 32) 0, .admissionRequest 0 0 0 0 (2 ^ 24), .admissionReply 4 0 0 0 0 false,
      .admissionReply 0 32 0 0 0 false, .admissionReply 0 0 (2 ^ 16) 0 0 false, .admissionReply 0 0 0 (2 ^ 32) 0 false,
      .admissionReply 0 0 0 0 (2 ^ 24) false, .slotReadoutComplete 4 0 0 0 0, .slotReadoutComplete 0 32 0 0 0,
      .slotReadoutComplete 0 0 (2 ^ 16) 0 0, .slotReadoutComplete 0 0 0 (2 ^ 32) 0, .slotReadoutComplete 0 0 0 0 (2 ^ 24),
      .tier0Partial 4 0 0 0 0, .tier0Partial 0 32 0 0 0, .tier0Partial 0 0 (2 ^ 16) 0 0, .tier0Partial 0 0 0 (2 ^ 32) 0,
      .tier0Partial 0 0 0 0 (2 ^ 24), .partialDelivered 4 0 0 0 0, .partialDelivered 0 32 0 0 0, .partialDelivered 0 0 (2 ^ 16) 0 0,
      .partialDelivered 0 0 0 (2 ^ 32) 0, .partialDelivered 0 0 0 0 (2 ^ 24), .partialReceive 4 pk0, .partialReceive 0 pkBad,
      .resultFromRack 4 pk0, .resultFromRack 0 pkBad, .publishFromRack 4 pk0, .publishFromRack 0 pkBad, .pagerSpill 4 0,
      .pagerSpill 0 32, .pagerRecall 4 0, .pagerRecall 0 32, .pagerSwap 4 0, .pagerSwap 0 32, .pagerOpComplete 4] : List Instr) ++
    ([
      .sweepEnd 32, .slabLockTimeout 4 0 0 0 [], .slabLockTimeout 0 128 0 0 [], .slabLockTimeout 0 0 2 0 [], .slabLockTimeout 0 0 0 8 [],
      .slabLockTimeout 0 0 0 0 [(32, 0, 0, 0)], .slabLockTimeout 0 0 0 0 [(0, 2 ^ 16, 0, 0)],
      .slabLockTimeout 0 0 0 0 [(0, 0, 2 ^ 32, 0)], .slabLockTimeout 0 0 0 0 [(0, 0, 0, 2 ^ 24)]] : List Instr)).all fun c => !c.wf) = true := by
  decide +kernel

theorem test_wf_refuses_seq :
    ((([
      .resultResendTimer 32 0 0, .resultResendTimer 0 (2 ^ 16) 0, .resultResendTimer 0 0 (2 ^ 32), .cnackReceive 4 pk0,
      .cnackReceive 0 pkBad, .ringDoorbell 4 0 0 0, .ringDoorbell 0 32 0 0, .ringDoorbell 0 0 5 0, .doorbell 4 pk0, .doorbell 0 pkBad,
      .ringErrClear 4 0 0, .ringErrClear 0 32 0, .ringErrClear 0 0 5, .cqRecordWrite 32 0, .cqRecordWrite 0 8, .collective 4 0 0,
      .collective 0 32 0, .armStep 4 0 0, .armStep 0 32 0, .trigger 4 0 0, .trigger 0 32 0, .increment 4 0 0, .increment 0 32 0,
      .abortCollective 4 0 0, .abortCollective 0 32 0, .stepReplay 4 0 0, .stepReplay 0 32 0, .stepReplayEnd 32, .warm 4 0 0,
      .warm 0 32 0, .done 4 pk0, .done 0 pkBad, .gapNack 4 pk0, .gapNack 0 pkBad, .patienceExpiry 32 0 0, .patienceExpiry 0 (2 ^ 16) 0,
      .patienceExpiry 0 0 (2 ^ 32), .partialResendTimer 32 0 0 0, .partialResendTimer 0 (2 ^ 16) 0 0, .partialResendTimer 0 0 (2 ^ 32) 0] : List Instr) ++
    ([
      .partialResendTimer 0 0 0 (2 ^ 24), .podHoldExpiry 32 0 0 0, .podHoldExpiry 0 (2 ^ 16) 0 0, .podHoldExpiry 0 0 (2 ^ 32) 0,
      .podHoldExpiry 0 0 0 (2 ^ 24), .stragClear 32] : List Instr)).all fun c => !c.wf) = true := by
  decide +kernel

theorem test_wf_refuses_trig :
    ((([
      .reduceForward 32 0, .reduceForward 0 256, .convertMulticast 32 0, .convertMulticast 0 256, .normContribute 32 0,
      .normContribute 0 256, .updateShard 32 0, .updateShard 0 256, .publishOp 32 0, .publishOp 0 256, .snapshotOp 32 0,
      .snapshotOp 0 256, .signalHost 32 0, .signalHost 0 256, .incrementOp 32 0, .incrementOp 0 256, .waitEpoch 32 0, .waitEpoch 0 256,
      .triggerOpComplete 32 0, .triggerOpComplete 0 256] : List Instr)).all fun c => !c.wf) = true := by
  decide +kernel

theorem test_wf_refuses_update :
    ((([
      .chunkHandoff 32 0 0 0, .chunkHandoff 0 (2 ^ 16) 0 0, .chunkHandoff 0 0 (2 ^ 32) 0, .chunkHandoff 0 0 0 (2 ^ 24),
      .updatePass 32 0 0, .updatePass 0 4096 0, .updatePass 0 0 (2 ^ 24), .stepDecided 32, .stepTimerExpiry 32, .updateProgressTimeout 4,
      .publish 4 0 0, .publish 0 32 0, .snapshot 4 0 0, .snapshot 0 32 0, .import_ 4 0 0, .import_ 0 32 0, .setT 4 0 0, .setT 0 32 0] : List Instr)).all fun c => !c.wf) = true := by
  decide +kernel

theorem test_wf_refuses_gram :
    ((([
      .gramAcc 4 0 0, .gramAcc 0 32 0, .matmul 4 0 0, .matmul 0 32 0, .nsRoot 4 0 0, .nsRoot 0 32 0, .nsOrtho 4 0 0, .nsOrtho 0 32 0,
      .apply 4 0 0, .apply 0 32 0, .gramWaitRelease 4 0, .gramWaitRelease 0 32, .gramUnit 4 0, .gramUnit 0 32, .gramProgressTimeout 4 0,
      .gramProgressTimeout 0 32] : List Instr)).all fun c => !c.wf) = true := by
  decide +kernel

theorem test_wf_refuses_mitten :
    ((([
      .mitMember pkBad, .mitRow pkBad, .mitColumn pkBad, .mitCourier pkBad, .mitRoundAbort 1024 0, .mitPeerResend 1024 0,
      .mitCarryResend 1024 0, .mitRoleSet 1024 0, .mitRoleSet 0 2, .noticeEnWrite 2] : List Instr)).all fun c => !c.wf) = true := by
  decide +kernel

theorem test_wf_refuses_hbm :
    ((([
      .patrolScrub 4 0, .patrolScrub 0 6, .hbmRetire 4 0 0 false, .hbmRetire 0 6 0 false, .hbmRetire 0 0 16 false, .hbmRetireCmd 4 0,
      .spareRemapEnd 4 0, .spareRemapEnd 0 64, .hbmLockTimeout 4 0 0 0, .hbmLockTimeout 0 6 0 0, .hbmLockTimeout 0 0 32 0,
      .hbmLockTimeout 0 0 0 8, .hbmInject 4 0, .parkWrite 4 pk0, .parkWrite 0 pkBad, .parkRead 4 pk0, .parkRead 0 pkBad, .parkApply 4 0,
      .parkApply 0 32, .parkServiceFault 4] : List Instr)).all fun c => !c.wf) = true := by
  decide +kernel

theorem test_wf_refuses_mover :
    ((([
      .moverStart 4 0 0, .moverStart 0 32 0, .moverPause 4 0 0 0, .moverPause 0 32 0 0, .moverPause 0 0 3 0, .moverResume 4 0 0 0,
      .moverResume 0 32 0 0, .moverResume 0 0 3 0, .moverAbort 4 0 0 0, .moverAbort 0 32 0 0, .moverAbort 0 0 3 0, .moverErrClear 4 0 0,
      .moverErrClear 0 32 0, .moverErrClear 0 0 3, .move 4 0 0 [], .move 0 32 0 [], .move 0 0 3 [], .fill 4 0 0, .fill 0 32 0,
      .fill 0 0 3, .compare 4 0 0 [], .compare 0 32 0 [], .compare 0 0 3 [], .wait 4 0 0, .wait 0 32 0, .wait 0 0 3, .waitMet 4 0 0,
      .waitMet 0 32 0, .waitMet 0 0 3, .signal 4 0 0, .signal 0 32 0, .signal 0 0 3, .link 4 0 0, .link 0 32 0, .link 0 0 3, .end_ 4 0 0,
      .end_ 0 32 0, .end_ 0 0 3, .pauseDrainEnd 4 0 0, .pauseDrainEnd 0 32 0] : List Instr) ++
    ([
      .pauseDrainEnd 0 0 3, .moverRecordWrite 4 0 0, .moverRecordWrite 0 32 0, .moverRecordWrite 0 0 3, .moverBusError 4 0,
      .moverBusError 0 8, .moverBeatTimeout 4, .moverRestart 4, .eventCounterWrite 4 0 0 0, .eventCounterWrite 0 32 0 0,
      .eventCounterWrite 0 0 16 0] : List Instr)).all fun c => !c.wf) = true := by
  decide +kernel

theorem test_wf_refuses_tray :
    ((([
      .adcWindow (List.replicate 159 0) (List.replicate 64 0) (List.replicate 8 0),
      .adcWindow (List.replicate 160 (2 ^ 16)) (List.replicate 64 0) (List.replicate 8 0),
      .adcWindow (List.replicate 160 0) (List.replicate 63 0) (List.replicate 8 0),
      .adcWindow (List.replicate 160 0) (List.replicate 64 (2 ^ 32)) (List.replicate 8 0),
      .adcWindow (List.replicate 160 0) (List.replicate 64 0) (List.replicate 7 0),
      .adcWindow (List.replicate 160 0) (List.replicate 64 0) (List.replicate 8 (2 ^ 16)), .tachLost 8,
      .trayStep (List.replicate 7 0) false, .trayStep (List.replicate 8 (2 ^ 16)) false, .ownerPublish (List.replicate 6 0),
      .ownerPublish (List.replicate 7 (2 ^ 64)), .managerHeartbeat 2, .managerLost 2] : List Instr)).all fun c => !c.wf) = true := by
  decide +kernel

theorem test_wf_refuses_cart :
    ((([
      .cartInsert 8, .cartPresenceLost 8, .cartTouch 8 false, .cartCuffOpen 8, .preDrainCancel 8, .cartButton 8 false, .cartButtonHold 8,
      .cartDrain 8, .cartForce 8, .cartRejoin 8, .cartDrainComplete 8, .cartDrainTimeout 8, .cartForceStop 8, .cartSafe 8,
      .cartInService 8, .cartLatchClose 8] : List Instr)).all fun c => !c.wf) = true := by
  decide +kernel

theorem test_wf_refuses_power :
    ((([
      .powerRequest 4, .engineGate 4 0, .engineGate 0 5, .engineWake 4 0, .engineWake 0 5, .warmHoldEnd 4 0 0, .warmHoldEnd 0 5 0,
      .warmHoldEnd 0 0 32, .quadrantReset 4, .partitionReset 32 false, .startupStepComplete false [24], .quadrantResetEnd 4] : List Instr)).all fun c => !c.wf) = true := by
  decide +kernel

theorem test_wf_refuses_security :
    ((([
      .firmwareUpdate (2 ^ 26) []] : List Instr)).all fun c => !c.wf) = true := by
  decide +kernel

theorem test_wf_refuses_host :
    ((([
      .setEndpointId 2 0, .pldmSensorRead 42, .pldmEffecterWrite 18 0, .bar2Read 32 0 0, .bar2Read 0 (2 ^ 36) 0, .bar2Read 0 0 4097,
      .bar2Write 32 0 [] false, .bar2Write 0 (2 ^ 36) [] false, .hostAccessFail 32 0 0 0, .hostAccessFail 0 5 0 0,
      .hostAccessFail 0 0 4 0, .hostAccessFail 0 0 0 4, .msixUnmask 32 0, .msixUnmask 0 512] : List Instr)).all fun c => !c.wf) = true := by
  decide +kernel

theorem test_wf_refuses_obs :
    ((([
      .tallySweep [32] [], .tallySweep [] [32], .samplerCtlWrite 4 0] : List Instr)).all fun c => !c.wf) = true := by
  decide +kernel

theorem test_wf_refuses_reg :
    ((([
      .registerWrite 32 0 0 0, .registerWrite 0 (2 ^ 28) 0 0, .registerWrite 0 0 16 0, .splitReadLow 32 0 0, .splitReadLow 0 (2 ^ 28) 0,
      .splitReadLow 0 0 16, .kegusTestWrite 3 0, .debugWindowAccess false (2 ^ 24) 0 0, .debugWindowAccess false 0 16 0] : List Instr)).all fun c => !c.wf) = true := by
  decide +kernel

theorem test_wf_refuses_spdm :
    ((([
      .getCertificate (2 ^ 16) 0, .getCertificate 0 (2 ^ 16), .getMeasurements 256 []] : List Instr)).all fun c => !c.wf) = true := by
  decide +kernel

/-! ## One-step runs against the spec's own examples -/

/-- A field after one command, none where the command stops. -/
def got (c : Instr) (s : State) (f : Fld) (ix : List Nat) : Option Nat :=
  match exec c s with
  | .next t => some (t.rd f ix)
  | _ => none

/-- R77: the check value of the string "123456789". -/
theorem test_crc32c_check_value :
    crc32c ([0x31, 0x32, 0x33, 0x34, 0x35, 0x36, 0x37, 0x38, 0x39].map (BitVec.ofNat 8)) = 0xE3069283 := by
  decide +kernel

/-- The second vector of R143, read from LDG_KTEST_OUT after the write of its last input. -/
theorem test_kegus_vector_two :
    got (.kegusTestWrite 2 (28 + 5 * 2 ^ 24)) (State.reset.w [(F.HAT_PSTATE_STATE, [], 0), (F.LDG_KTEST_SEED_SEED, [], 0x0000000700000001),
      (F.LDG_KTEST_IN_STEP, [], 907), (F.LDG_KTEST_IN_COLL, [], 0x0012)]) F.LDG_KTEST_OUT_NOISE [] = some 0xEBBD6289 := by
  decide +kernel

/-- The table of inputs at W = −12 (spec/04_ledger_arithmetic.md, Choosing a window): 4.0, −2^−9, a value that rounds up, one that
ties to even, one that saturates. -/
theorem test_inputs_at_window_minus_12 :
    [0x4080, 0xBB00, 0x0740, 0x0700, 0x4180].map (fun b => (inputValue 1 b 0).map fun x => toLedger x (-12)) =
      [some (2 ^ 114, ⟨false, false⟩), some (-2 ^ 103, ⟨false, false⟩), some (1, ⟨false, false⟩), some (0, ⟨false, false⟩),
       some (2 ^ 115 - 1, ⟨true, false⟩)] := by
  decide +kernel

/-- The widths of the example of R146: 600 · 2^112 has 123 bits, 2^52 has 54. -/
theorem test_ledger_widths : ledgerWidth (600 * 2 ^ 112) = 123 ∧ ledgerWidth (2 ^ 52) = 54 := by
  decide +kernel

/-- The example of an overflow: 15 · 2^111 − 1 at W = −12 is 7.5 in BF16; and of stochastic rounding: 2^100 + 2^91 at W = 0 rounds up
with the noise of vector two and down to nearest even. -/
theorem test_output_rounding :
    toFloat fmtBf16 (resultValue .sum (-12) 4 (15 * 2 ^ 111 - 1)) .rne = (0x40F0, false) ∧
      toFloat fmtBf16 (resultValue .sum 0 1 (2 ^ 100 + 2 ^ 91)) (.sr 0xEBBD6289) = (0x3F81, false) ∧
      toFloat fmtBf16 (resultValue .sum 0 1 (2 ^ 100 + 2 ^ 91)) .rne = (0x3F80, false) := by
  decide +kernel

/-- The side ledger of 1.0 at W = 32 is 2^36. -/
theorem test_side_ledger : sideLedger 32 [⟨false, 1, 1⟩] = (2 ^ 36, false) := by
  decide +kernel

/-- The worked step of AdamW (spec/07_update_engine.md): the clip factor and norm, then the new master, M and V. -/
theorem test_adamw_step :
    clipFactor 0x3F800000 40 (2 ^ 62) = (0x3F000000, 0x4000000000000000) ∧
      adamw ⟨mul32 0x3A800000 0x3F800000, 0x3F000000, biasCorr 0x3F600000 1, biasCorr 0x3F7E0000 1⟩
        { (grpOfBits 0) with
          recipe := 1, bias := true, clip := true, beta1 := 0x3F600000, beta2 := 0x3F7E0000, eps := 0x35800000, wd := 0x3D800000,
          lrMult := 0x3F800000 } 0x3F9A3D71 0 0 0x3F400000 = some (0x3F9A1B08, 0x3D400000, 0x3A900000) := by
  decide +kernel

/-- The parking example (spec/12_hbm_and_parking.md): two elements of a block of mode 1, its scale byte, and what is read back. -/
theorem test_park_mode_one :
    (parkBlock ([0x4040, 0x3DCD] ++ List.replicate 30 0)).1.take 3 = [0x7C, 0x55, 0] ∧
      (parkBlock ([0x4040, 0x3DCD] ++ List.replicate 30 0)).2.1 = 0x78 ∧
      [parkElem 0x7C 0x78, parkElem 0x55 0x78] = [0x4040, 0x3DD0] := by
  decide +kernel

/-- The addresses of the example of R567: the ring producer of Q2 by its three names is one register. -/
theorem test_bar0_addresses :
    let s : State := base.i 0x0E 4 0 (64 * 6) [1]
    let ix : Place → Option (List Nat × List Nat) := fun
      | .reg _ h => some (h.row.fields.map fun r => r.fld.id, h.ix)
      | _ => none
    ix (s.bar0Place 0 0x06040610) = some ([F.SEQ_RING_PROD_PROD.id], [2, 6, 0]) ∧
      ix (s.bar0Place 6 0x2C0010) = ix (s.bar0Place 0 0x06040610) ∧ ix (s.bar0Place 0 0x096C0010) = ix (s.bar0Place 0 0x06040610) ∧
      ix (s.bar0Place 6 0x2A0100) = ix (s.bar0Place 0 0x06020130) := by
  decide +kernel

/-- The nonce and the AAD of the snapshot example (spec/17_security_and_debug.md). -/
theorem test_snapshot_nonce :
    (base.w [(F.XPT_POD_PLANE, [], 11)]).nonce 1 8 3 0 8000 0 (shardOfBits 0) =
        [0x02, 0x0B, 0xFF, 0x00, 0x40, 0x1F, 0x00, 0x00, 0x03, 0x00, 0x00, 0x00] ∧
      (base.snapHeader 8 3 (shardOfBits 0) 8000).take 12 = [0x4B, 0x53, 0x4E, 0x50, 0x03, 0, 0, 0, 0x40, 0x1F, 0, 0] := by
  decide +kernel

/-- R519: an access of 8 B at an address that 8 does not divide sets BADACC. -/
theorem test_bad_access : got (.registerWrite 0 0x1004 8 5) yof F.PCI_FN_STAT_BADACC [0] = some 1 := by
  decide +kernel

/-- R43: in P2 a load fails with code 0x0F. -/
theorem test_load_in_p2 :
    got (.knitLoad 0) (base.w [(F.HAT_PSTATE_STATE, [], 2), (F.PCI_LINK_SPEED, [], 1)]) F.KNT_STATUS_FAIL_CODE [0] = some 0x0F := by
  decide +kernel

/-- A command whose operand names no value of the register changes nothing. -/
theorem test_no_such_value : exec (.noticeEnWrite 2) base = .next base := rfl

/-! ## Witnesses of the completion statements: one state and operands for every clause that has hypotheses -/

theorem witness_LinkCommandsComplete :
    (let a : Nat := 0;
      let b : Nat := 3;
      let s : State := base;
      (Instr.seamCrcError a b).wf = true ∧ (s.clocked && a != b) = true) ∧
    (let a : Nat := 2;
      let b : Nat := 1;
      let s : State := base;
      (Instr.seamDown a b).wf = true ∧ (s.clocked && a != b) = true ∧ s.rdb V.SEAM_DOWN [min a b, max a b] = false) ∧
    (let q : Nat := 0;
      let port : Nat := 0;
      let s : State := base.w [(F.LNK_PORT_CTL_EN, [0, 0], 1), (F.HAT_BOOT_STEP, [], 11)];
      (Instr.linkDownHoldEnd q port).wf = true ∧ s.quadOn q = true ∧ s.lnkState q port = 0 ∧ s.portPresent q port = true ∧ s.rdb F.LNK_PORT_CTL_EN [q, port] = true ∧ s.cartThere q port = true ∧ s.rd F.HAT_PSTATE_STATE [] < 3 ∧ s.rd F.HAT_BOOT_STEP [] = 11 ∧ s.rdb V.QRESET [q] = false ∧ s.rdb V.WAKE_CLOSED [] = false) ∧
    (let q : Nat := 0;
      let port : Nat := 0;
      let lanes : Nat := 3;
      let s : State := base.w [(F.LNK_PORT_STAT_STATE, [0, 0], 1)];
      (Instr.linkSignalDetect q port lanes).wf = true ∧ s.quadOn q = true ∧ s.lnkState q port = 1 ∧ (lanes % 16 = 15 ∨ (s.x2En q port = true ∧ bitOf lanes 0 = true ∧ lanes % 16 ≠ 1))) ∧
    (let q : Nat := 0;
      let port : Nat := 39;
      let s : State := base.w [(F.LNK_PORT_STAT_STATE, [0, 39], 2)];
      (Instr.linkTrainEnd q port).wf = true ∧ s.quadOn q = true ∧ s.lnkState q port = 2) ∧
    (let q : Nat := 0;
      let port : Nat := 0;
      let s : State := base.w [(F.LNK_PORT_STAT_STATE, [0, 0], 3), (V.RX_CW_RUN, [0, 0], 64), (V.RX_LCF_RUN, [0, 0], 4), (V.RX_OK_RUN, [0, 0], 4)];
      (Instr.linkAlignDone q port).wf = true ∧ s.quadOn q = true ∧ s.lnkState q port = 3 ∧ s.rateOk q port (s.rd V.LNK_ATTEMPT [q, port]) = true ∧ s.rxOk q port = true) ∧
    (let q : Nat := 0;
      let port : Nat := 0;
      let s : State := base.w [(F.LNK_PORT_STAT_STATE, [0, 0], 6), (V.RX_CW_RUN, [0, 0], 64), (V.RX_LCF_RUN, [0, 0], 4), (V.RX_OK_RUN, [0, 0], 4), (V.LNK_PRBS, [0, 0], 1)];
      (Instr.linkAlignDone q port).wf = true ∧ s.quadOn q = true ∧ s.lnkState q port = 6 ∧ s.rdb V.LNK_PRBS [q, port] = true ∧ s.rxOk q port = true) ∧
    (let q : Nat := 0;
      let port : Nat := 0;
      let s : State := base.w [(F.LNK_PORT_STAT_STATE, [0, 0], 3), (V.LNK_ATTEMPT, [0, 0], 1)];
      (Instr.linkAttemptTimeout q port).wf = true ∧ s.quadOn q = true ∧ s.lnkState q port = 3 ∧ s.rd V.LNK_ATTEMPT [q, port] < 2) ∧
    (let q : Nat := 0;
      let port : Nat := 0;
      let s : State := base.w [(F.LNK_PORT_STAT_STATE, [0, 0], 3), (V.LNK_ATTEMPT, [0, 0], 2)];
      (Instr.linkAttemptTimeout q port).wf = true ∧ s.quadOn q = true ∧ s.lnkState q port = 3 ∧ s.rd V.LNK_ATTEMPT [q, port] = 2) ∧
    (let q : Nat := 0;
      let port : Nat := 0;
      let s : State := base.w [(F.LNK_PORT_STAT_STATE, [0, 0], 3), (V.LNK_SLOT, [0, 0], 2)];
      (Instr.linkX2SlotEnd q port).wf = true ∧ s.quadOn q = true ∧ s.lnkState q port = 3 ∧ s.x2En q port = true ∧ s.rd V.LNK_SLOT [q, port] < 3) ∧
    (let q : Nat := 3;
      let port : Nat := 39;
      let s : State := base.w [(F.LNK_PORT_STAT_STATE, [3, 39], 6)];
      (Instr.linkRetrainTimeout q port).wf = true ∧ s.quadOn q = true ∧ s.lnkState q port = 6) ∧
    (let q : Nat := 0;
      let port : Nat := 0;
      let flit : BitVec 512 := goodLcf;
      let s : State := base.w [(F.LNK_PORT_STAT_STATE, [0, 0], 3)];
      (Instr.lcfReceive q port flit).wf = true ∧ s.quadOn q = true ∧ (s.lnkState q port = 3 ∨ s.lnkState q port = 6) ∧ s.injLink q port 3 = false ∧ lcfOk flit.toNat = true ∧ s.rdb V.RX_LCF_BAD [q, port] = false) ∧
    (let q : Nat := 0;
      let port : Nat := 0;
      let flit : BitVec 512 := goodLcf;
      let s : State := base.w [(F.LNK_PORT_STAT_STATE, [0, 0], 4)];
      (Instr.lcfReceive q port flit).wf = true ∧ s.quadOn q = true ∧ s.lnkState q port = 4 ∧ s.injLink q port 3 = false ∧ lcfOk flit.toNat = true ∧ s.rdb V.RX_LCF_BAD [q, port] = false) ∧
    (let q : Nat := 0;
      let port : Nat := 0;
      let flit : BitVec 512 := 1;
      let s : State := base.w [(F.LNK_PORT_STAT_STATE, [0, 0], 4)];
      (Instr.lcfReceive q port flit).wf = true ∧ s.quadOn q = true ∧ s.lnkState q port = 4 ∧ s.injLink q port 3 = false ∧ (lcfOk flit.toNat = false ∨ s.rdb V.RX_LCF_BAD [q, port] = true)) ∧
    (let q : Nat := 0;
      let port : Nat := 0;
      let vc : Nat := 15;
      let sent : BitVec 16 := 32767;
      let s : State := base.w [(F.LNK_PORT_STAT_STATE, [0, 0], 4)];
      (Instr.syncReq q port vc sent).wf = true ∧ s.quadOn q = true ∧ s.lnkState q port = 4 ∧ 1 ≤ (sent.toNat % 65536 + 65536 - s.rd V.LNK_RCVD [q, port, vc]) % 65536 ∧ (sent.toNat % 65536 + 65536 - s.rd V.LNK_RCVD [q, port, vc]) % 65536 ≤ 32767) ∧
    (let q : Nat := 0;
      let port : Nat := 0;
      let s : State := base.w [(F.LNK_PORT_STAT_STATE, [0, 0], 4)];
      (Instr.quiet q port).wf = true ∧ s.quadOn q = true ∧ s.lnkState q port = 4 ∧ s.rdb V.LNK_QUIET_REQ [q, port] = false ∧ s.portIdle q port = true ∧ s.sentIdle q port = true) := by
  refine ⟨?_, ?_, ?_, ?_, ?_, ?_, ?_, ?_, ?_, ?_, ?_, ?_, ?_, ?_, ?_, ?_⟩ <;> decide +kernel

theorem witness_LinkCommandsComplete_2 :
    (let q : Nat := 0;
      let port : Nat := 0;
      let s : State := base.w [(F.LNK_PORT_STAT_STATE, [0, 0], 4), (V.LNK_QUIET_REQ, [0, 0], 1)];
      (Instr.quiet q port).wf = true ∧ s.quadOn q = true ∧ s.lnkState q port = 4 ∧ s.rdb V.LNK_QUIET_REQ [q, port] = true ∧ s.portIdle q port = true) ∧
    (let q : Nat := 0;
      let port : Nat := 0;
      let s : State := starvedState;
      (Instr.quiet q port).wf = true ∧ s.quadOn q = true ∧ s.lnkState q port = 4 ∧ s.portIdle q port = false) ∧
    (let q : Nat := 0;
      let port : Nat := 0;
      let s : State := base.w [(F.LNK_PORT_STAT_STATE, [0, 0], 4), (V.LNK_QUIET_REQ, [0, 0], 1)];
      (Instr.quietAck q port).wf = true ∧ s.quadOn q = true ∧ s.lnkState q port = 4 ∧ s.rdb V.LNK_QUIET_REQ [q, port] = true ∧ (s.wr V.LNK_QUIET_REQ [q, port] 0).portIdle q port = true) ∧
    (let q : Nat := 0;
      let port : Nat := 0;
      let s : State := base.w [(F.LNK_PORT_STAT_STATE, [0, 0], 4)];
      (Instr.retrain q port).wf = true ∧ s.quadOn q = true ∧ s.lnkState q port = 4) ∧
    (let q : Nat := 0;
      let port : Nat := 0;
      let s : State := base.w [(F.LNK_PORT_STAT_STATE, [0, 0], 4)];
      (Instr.quietIdleExpiry q port).wf = true ∧ s.quadOn q = true ∧ s.lnkState q port = 4 ∧ s.quietEn q port = true ∧ s.portIdle q port = true) ∧
    (let q : Nat := 0;
      let port : Nat := 0;
      let s : State := { base.w [(F.LNK_PORT_STAT_STATE, [0, 0], 5)] with mitEgress := [([0, 0], [reas0])] };
      (Instr.linkWake q port).wf = true ∧ s.quadOn q = true ∧ s.lnkState q port = 5 ∧ s.portIdle q port = false ∧ s.rdb V.LNK_P2 [q, port] = false) ∧
    (let q : Nat := 3;
      let port : Nat := 39;
      let s : State := base.w [(F.LNK_PORT_STAT_STATE, [3, 39], 5)];
      (Instr.peerSignalWake q port).wf = true ∧ s.quadOn q = true ∧ s.lnkState q port = 5) ∧
    (let q : Nat := 0;
      let port : Nat := 0;
      let l0 : BitVec 1360 := BitVec.ofNat 1360 (2 ^ 1300 - 1);
      let l1 : BitVec 1360 := 5;
      let l2 : BitVec 1360 := 7;
      let l3 : BitVec 1360 := 0;
      let s : State := base.w [(F.LNK_PORT_STAT_STATE, [0, 0], 4)];
      (Instr.codewordDecode q port l0 l1 l2 l3).wf = true ∧ s.quadOn q = true ∧ s.framed q port = true ∧ s.injLink q port 2 = false ∧ s.injLink q port 1 = false ∧
      (let c := s.rd V.RX_CW [q, port]
      (rsDecode (rxWord (s.lanesOf q port) (fun j => s.rdb F.LNK_LANE_POL [q, 4 * port + j]) c [l0.toNat, l1.toNat, l2.toNat, l3.toNat]) = none))) ∧
    (let q : Nat := 0;
      let port : Nat := 0;
      let l0 : BitVec 1360 := zeroLane 0;
      let l1 : BitVec 1360 := zeroLane 1;
      let l2 : BitVec 1360 := zeroLane 2;
      let l3 : BitVec 1360 := zeroLane 3;
      let w : List Nat := List.replicate 272 0;
      let wrong : List Nat := [];
      let s : State := base.w [(F.LNK_PORT_STAT_STATE, [0, 0], 4)];
      (Instr.codewordDecode q port l0 l1 l2 l3).wf = true ∧ s.quadOn q = true ∧ s.framed q port = true ∧ s.injLink q port 2 = false ∧ s.injLink q port 1 = false ∧
      (let c := s.rd V.RX_CW [q, port]
      (rsDecode (rxWord (s.lanesOf q port) (fun j => s.rdb F.LNK_LANE_POL [q, 4 * port + j]) c [l0.toNat, l1.toNat, l2.toNat, l3.toNat]) =
        some (w, wrong)))) ∧
    (let q : Nat := 0;
      let port : Nat := 0;
      let vc : Nat := 2;
      let s : State := starvedState;
      (Instr.creditStarve q port vc).wf = true ∧ s.quadOn q = true ∧ s.starved q port vc = true) ∧
    (let q : Nat := 0;
      let port : Nat := 39;
      let s : State := base;
      (Instr.laneErrorWindow q port).wf = true ∧ s.quadOn q = true ∧ (s.lanesRead q port).injLink q port 1 = false) ∧
    (let q : Nat := 0;
      let port : Nat := 0;
      let s : State := base.w [(F.LNK_PORT_STAT_STATE, [0, 0], 4), (V.LNK_COUNTDOWN, [0, 0], 1)];
      (Instr.degradeSwitch q port).wf = true ∧ s.quadOn q = true ∧ s.lnkState q port = 4 ∧ s.rd V.LNK_COUNTDOWN [q, port] = 1) ∧
    (let q : Nat := 0;
      let port : Nat := 0;
      let s : State := base.w [(F.LNK_PORT_STAT_STATE, [0, 0], 5)];
      (Instr.ucwWindow q port).wf = true ∧ s.quadOn q = true) ∧
    (let q : Nat := 0;
      let port : Nat := 0;
      let s : State := base.w [(F.LNK_PORT_STAT_STATE, [0, 0], 4)];
      (Instr.lcfLoss q port).wf = true ∧ s.quadOn q = true ∧ s.lnkState q port = 4) ∧
    (let q : Nat := 0;
      let port : Nat := 0;
      let value : BitVec 64 := 2;
      let s : State := base.w [(F.LNK_PORT_STAT_STATE, [0, 0], 4)];
      (Instr.linkRetrainWrite q port value).wf = true ∧ s.barQuad q = true ∧ bitOf value.toNat 1 = true ∧ s.lnkState q port = 4) ∧
    (let q : Nat := 0;
      let port : Nat := 0;
      let value : BitVec 64 := 1;
      let s : State := base;
      (Instr.linkEnWrite q port value).wf = true ∧ s.barQuad q = true ∧ value.toNat % 2 = 1) := by
  refine ⟨?_, ?_, ?_, ?_, ?_, ?_, ?_, ?_, ?_, ?_, ?_, ?_, ?_, ?_, ?_, ?_⟩ <;> decide +kernel

theorem witness_LinkCommandsComplete_3 :
    (let q : Nat := 0;
      let port : Nat := 0;
      let value : BitVec 64 := 2;
      let s : State := base;
      (Instr.linkEnWrite q port value).wf = true ∧ s.barQuad q = true ∧ value.toNat % 2 = 0) ∧
    (let q : Nat := 0;
      let value : BitVec 64 := 0x927;
      let s : State := base.w [(F.ERR_INJ_CTL_EN, [], 1)];
      (Instr.linkInject q value).wf = true ∧ s.barQuad q = true ∧ bitOf value.toNat 11 = true ∧ 1 ≤ bitsOf value.toNat 8 3 ∧ bitsOf value.toNat 8 3 ≤ 4 ∧
      (let k := min 39 (bitsOf value.toNat 0 6)
      let u := ((s.wr F.LNK_INJ_PORT [q] k).wr F.LNK_INJ_LANE [q] (bitsOf value.toNat 6 2)).wr F.LNK_INJ_KIND [q] (bitsOf value.toNat 8 3)
      u.injAllowed false (u.portPart q k) false = true)) ∧
    (let q : Nat := 0;
      let port : Nat := 0;
      let s : State := base.w [(F.LNK_PORT_STAT_STATE, [0, 0], 6)];
      (Instr.retrainPrbsEnd q port).wf = true ∧ s.quadOn q = true ∧ s.lnkState q port = 6) := by
  refine ⟨?_, ?_, ?_⟩ <;> decide +kernel

theorem witness_RegCommandsComplete :
    (let fn : Nat := 0;
      let off : Nat := 0x1000;
      let size : Nat := 8;
      let value : BitVec 64 := 5;
      let s : State := base.w [(F.PCI_LINK_SPEED, [], 1)];
      (Instr.registerWrite fn off size value).wf = true ∧ s.pciUp = true ∧ badAccess off size = false) ∧
    (let fn : Nat := 0;
      let off : Nat := 0x8;
      let size : Nat := 4;
      let s : State := base.w [(F.PCI_LINK_SPEED, [], 1)];
      (Instr.splitReadLow fn off size).wf = true ∧ s.pciUp = true ∧ size = 4 ∧ off % 8 = 0 ∧ badAccess off 4 = false ∧ (¬(0x2000000 ≤ off ∧ off < 0x3000000)) ∧
      (let b := s.countModule 0 16 0 1
      (b.rdb V.SPLIT_OK [fn] = false ∨ off ≠ b.rd V.SPLIT_OFF [fn] + 4) ∧ ((b.bar0Touch fn).bar0Value fn off 4).2.1 = 0)) ∧
    (let reg : Nat := 0;
      let value : BitVec 64 := 7;
      let s : State := base;
      (Instr.kegusTestWrite reg value).wf = true ∧ s.barOn = true ∧ reg = 0) ∧
    (let reg : Nat := 1;
      let value : BitVec 64 := 7;
      let s : State := base;
      (Instr.kegusTestWrite reg value).wf = true ∧ s.barOn = true ∧ reg = 1) ∧
    (let reg : Nat := 2;
      let value : BitVec 64 := 7;
      let s : State := base;
      (Instr.kegusTestWrite reg value).wf = true ∧ s.barOn = true ∧ reg = 2) ∧
    (let write : Bool := true;
      let off : Nat := 0;
      let size : Nat := 8;
      let value : BitVec 64 := 5;
      let s : State := base.w [(F.PCI_LINK_SPEED, [], 1)];
      (Instr.debugWindowAccess write off size value).wf = true ∧ write = true) ∧
    (let write : Bool := false;
      let off : Nat := 0xFFFFF8;
      let size : Nat := 8;
      let value : BitVec 64 := 0;
      let s : State := base.w [(F.PCI_LINK_SPEED, [], 1)];
      (Instr.debugWindowAccess write off size value).wf = true ∧ write = false) := by
  refine ⟨?_, ?_, ?_, ?_, ?_, ?_, ?_⟩ <;> decide +kernel

theorem witness_SwitchCommandsComplete :
    (let q : Nat := 0;
      let port : Nat := 36;
      let pkt : Packet := pkUp;
      let s : State := routed;
      let ds : List Dest := [(⟨0, 0, 4, 0, 0⟩ : Dest)];
      (Instr.packetHeaderArrival q port pkt).wf = true ∧ s.quadOn q = true ∧ s.rdb F.COR_PORT_OPEN [q, port] = true ∧ s.rdb V.LNK_LOST_BOUND [q, port] = false ∧ (vcCls (pkVc pkt) = .m ∨ s.stagingUse q port + pkCells pkt ≤ 24) ∧ s.injLink q port 4 = false ∧ pkHcrcOk pkt = true ∧ (s.countIn q port pkt).arrivalRoute q port pkt = .goal ds ∧ vcCls (pkVc pkt) ≠ .m ∧ ds.isEmpty = false) ∧
    (let q : Nat := 0;
      let port : Nat := 36;
      let pkt : Packet := pkMit;
      let s : State := routed;
      let ds : List Dest := [(⟨1, 46, 13, 0, 0⟩ : Dest)];
      (Instr.packetHeaderArrival q port pkt).wf = true ∧ s.quadOn q = true ∧ s.rdb F.COR_PORT_OPEN [q, port] = true ∧ s.rdb V.LNK_LOST_BOUND [q, port] = false ∧ (vcCls (pkVc pkt) = .m ∨ s.stagingUse q port + pkCells pkt ≤ 24) ∧ s.injLink q port 4 = false ∧ pkHcrcOk pkt = true ∧ (s.countIn q port pkt).arrivalRoute q port pkt = .goal ds ∧ vcCls (pkVc pkt) = .m) ∧
    (let q : Nat := 0;
      let port : Nat := 36;
      let pkt : Packet := pkAged;
      let s : State := routed;
      let c : Cause := Cause.age;
      (Instr.packetHeaderArrival q port pkt).wf = true ∧ s.quadOn q = true ∧ s.rdb F.COR_PORT_OPEN [q, port] = true ∧ s.rdb V.LNK_LOST_BOUND [q, port] = false ∧ (vcCls (pkVc pkt) = .m ∨ s.stagingUse q port + pkCells pkt ≤ 24) ∧ s.injLink q port 4 = false ∧ pkHcrcOk pkt = true ∧ (s.countIn q port pkt).arrivalRoute q port pkt = .drop c) ∧
    (let q : Nat := 0;
      let port : Nat := 0;
      let s : State := reasmState.w [(F.XPT_CTL_AGE_LIMIT, [], 0)];
      let r : Reas := reas0;
      (Instr.ageExpiry q port).wf = true ∧ s.quadOn q = true ∧ s.nextOut q port = some r ∧ s.aged r = true) ∧
    (let q : Nat := 0;
      let input : Nat := 0;
      let s : State := { base with staging := [([0, 0], [held0])] };
      let h : Held := held0;
      let rest : List Held := ([] : List Held);
      let b : Nat := 1;
      (Instr.bankAdmit q input).wf = true ∧ s.quadOn q = true ∧ s.nextHeader q input = some (h, rest) ∧ s.findBank q input (pkCells h.pkt) = some b ∧ s.rd V.COR_ADMIT [q] ≤ input) ∧
    (let q : Nat := 0;
      let output : Nat := 47;
      let bank : Nat := 0;
      let s : State := { (base.i 2 0 0 8 [1, 1, 1]).w [(V.CYCLE, [0], 47)] with bufs := [([0], [{ held0 with copies := [copy0 47] }])] };
      let v : Nat := 2;
      let h : Held := { held0 with copies := [copy0 47] };
      let c : Copy := copy0 47;
      (Instr.egressStreamStart q output bank).wf = true ∧ s.quadOn q = true ∧ (s.roundEnd q output (s.eligibleVcs q output)).pickVc q output bank = some v ∧ headOf (SMap.get (s.roundEnd q output (s.eligibleVcs q output)).bufs [q] []) bank output v = some (h, c) ∧ (bank + s.rd V.CYCLE [q]) % 48 = output ∧ s.streaming q bank output = false) ∧
    (let q : Nat := 0;
      let output : Nat := 0;
      let s : State := reasmState.w [(F.LNK_PORT_STAT_STATE, [0, 0], 4), (F.XPT_CTL_AGE_LIMIT, [], 1000)];
      let r : Reas := reas0;
      (Instr.packetRelease q output).wf = true ∧ s.quadOn q = true ∧ s.linkUp q output = true ∧ s.wireFree q output = true ∧ s.nextOut q output = some r ∧ s.aged r = false) ∧
    (let q : Nat := 0;
      let port : Nat := 0;
      let s : State := base.w [(F.COR_PORT_FLUSHING, [0, 0], 1)];
      (Instr.flushEnd q port).wf = true ∧ s.quadOn q = true ∧ s.rdb F.COR_PORT_FLUSHING [q, port] = true ∧ (s.wr F.COR_PORT_FLUSHING [q, port] 0).linkUp q port = false) ∧
    (let q : Nat := 0;
      let port : Nat := 0;
      let s : State := base.w [(F.COR_PORT_FLUSHING, [0, 0], 1), (F.LNK_PORT_STAT_STATE, [0, 0], 4)];
      (Instr.flushEnd q port).wf = true ∧ s.quadOn q = true ∧ s.rdb F.COR_PORT_FLUSHING [q, port] = true ∧ (s.wr F.COR_PORT_FLUSHING [q, port] 0).linkUp q port = true) ∧
    (let q : Nat := 3;
      let s : State := base;
      (Instr.depthBroadcast q).wf = true ∧ s.quadOn q = true) ∧
    (let q : Nat := 0;
      let session : Nat := 3;
      let value : BitVec 64 := 1;
      let s : State := base;
      (Instr.mirCtlWrite q session value).wf = true ∧ s.barQuad q = true) ∧
    (let q : Nat := 0;
      let s : State := base;
      (Instr.lowClr q).wf = true ∧ s.barQuad q = true) ∧
    (let q : Nat := 0;
      let output : Nat := 47;
      let cls : Nat := 5;
      let s : State := base;
      (Instr.peakClr q output cls).wf = true ∧ s.barQuad q = true) := by
  refine ⟨?_, ?_, ?_, ?_, ?_, ?_, ?_, ?_, ?_, ?_, ?_, ?_, ?_⟩ <;> decide +kernel

theorem witness_KnitCommandsComplete :
    (let fn : Nat := 0;
      let s : State := base.w [(F.PCI_LINK_SPEED, [], 1)];
      (Instr.knitLoad fn).wf = true ∧ (s.barOn && s.img.brimValid fn) = true ∧ s.knitBusy = false ∧ s.rdb F.TRY_STAGE_HOLD [] = false ∧ s.rd F.HAT_PSTATE_STATE [] < 2 ∧ (fn = 0 ∨ s.img.brimVfKnit fn = true) ∧ s.hostOk fn = true) ∧
    (let fn : Nat := 0;
      let s : State := base.w [(V.KNT_FN, [], 1)];
      (Instr.knitLoad fn).wf = true ∧ (s.barOn && s.img.brimValid fn) = true ∧ s.knitBusy = true) ∧
    (let fn : Nat := 0;
      let s : State := base.w [(V.KNT_FN, [], 1)];
      (Instr.knitAbort fn).wf = true ∧ (s.barOn && s.img.brimValid fn) = true ∧ s.knitBusy = true ∧ fn < 32 ∧ s.knitFn = fn) ∧
    (let fn : Nat := 0;
      let s : State := voteState 10;
      (Instr.knitCommit fn).wf = true ∧ (s.barOn && s.img.brimValid fn) = true ∧ fn = 0 ∧ s.knitBusy = true ∧ s.rd V.KNT_WAIT [] = 10 ∧ (s.voteCast 1).2 = true) ∧
    (let file : List Byte := [];
      let s : State := base.w [(V.KNT_FN, [], 1), (V.KNT_WAIT, [], 8)];
      (Instr.knitFetchComplete file).wf = true ∧ s.clocked = true ∧ s.knitBusy = true ∧ s.rd V.KNT_WAIT [] = 8 ∧ (s.countModule 0 17 0 1).injRead s.knitFn = false) ∧
    (let s : State := base.w [(V.KNT_FN, [], 1), (V.KNT_WAIT, [], 1)];
      s.clocked = true ∧ s.knitBusy = true ∧ s.rd V.KNT_WAIT [] = 1) ∧
    (let s : State := base.w [(V.KNT_FN, [], 1), (V.KNT_WAIT, [], 2)];
      s.clocked = true ∧ s.knitBusy = true ∧ s.rd V.KNT_WAIT [] = 2 ∧ s.quietPoint ((s.nowFrames.map (·.part)).headD 0) = true) ∧
    (let s : State := base.w [(V.KNT_COPY_FN, [], 1)];
      s.clocked = true ∧ s.rdb V.KNT_COPY_FN [] = true ∧ s.resyncDone.knitBusy = false) ∧
    (let s : State := base.w [(V.KNT_FN, [], 1), (V.KNT_WAIT, [], 2)];
      s.clocked = true ∧ s.knitBusy = true ∧ (s.rd V.KNT_WAIT [] = 2 ∨ s.rd V.KNT_WAIT [] = 3 ∨ s.rd V.KNT_WAIT [] = 6)) ∧
    (let s : State := { base.w [(V.KNT_FN, [], 1), (V.KNT_WAIT, [], 9)] with mit := [([0, 0], { round2 with pod := some ⟨1, false, false⟩ })] };
      let r : Round := { round2 with pod := some ⟨1, false, false⟩ };
      s.clocked = true ∧ s.knitBusy = true ∧ s.rd V.KNT_WAIT [] = 9 ∧ s.roundGet s.knitHdr.vote (s.knitHdr.change % 2 ^ 32) = some r ∧ r.yes = true) ∧
    (let s : State := { base.w [(V.KNT_FN, [], 1), (V.KNT_WAIT, [], 9)] with mit := [([0, 0], round2)] };
      let r : Round := round2;
      s.clocked = true ∧ s.knitBusy = true ∧ s.rd V.KNT_WAIT [] = 9 ∧ s.roundGet s.knitHdr.vote (s.knitHdr.change % 2 ^ 32) = some r ∧ r.st ≠ 1 ∧ r.yes = false) ∧
    (let s : State := voteState 10;
      s.clocked = true ∧ s.knitBusy = true ∧ s.rd V.KNT_WAIT [] = 10 ∧ (s.voteCast 0).2 = true) ∧
    (let s : State := base.w [(V.KNT_FN, [], 1), (V.KNT_WAIT, [], 4)];
      s.clocked = true ∧ s.knitBusy = true ∧ s.rd V.KNT_WAIT [] = 4 ∧ s.borderDrained = true) ∧
    (let s : State := base.w [(V.KNT_FN, [], 1), (V.KNT_WAIT, [], 4)];
      s.clocked = true ∧ s.knitBusy = true ∧ s.rd V.KNT_WAIT [] = 4) ∧
    (let mismatch : List (Nat × Nat) := [(0, 0)];
      let s : State := base.w [(V.KNT_FN, [], 1), (V.KNT_WAIT, [], 5)];
      (Instr.borderZeroizeEnd mismatch).wf = true ∧ s.clocked = true ∧ s.knitBusy = true ∧ s.rd V.KNT_WAIT [] = 5 ∧ (s.badMoves s.groupMoves mismatch).isEmpty = true) ∧
    (let mismatch : List (Nat × Nat) := [(0, 0)];
      let s : State := borderLab;
      (Instr.borderZeroizeEnd mismatch).wf = true ∧ s.clocked = true ∧ s.knitBusy = true ∧ s.rd V.KNT_WAIT [] = 5 ∧ (s.badMoves s.groupMoves mismatch).isEmpty = false ∧ s.rd V.KNT_TRIES [] = 0) := by
  refine ⟨?_, ?_, ?_, ?_, ?_, ?_, ?_, ?_, ?_, ?_, ?_, ?_, ?_, ?_, ?_, ?_⟩ <;> decide +kernel

theorem witness_KnitCommandsComplete_2 :
    (let mismatch : List (Nat × Nat) := [(0, 0)];
      let s : State := borderLab.w [(V.KNT_TRIES, [], 1)];
      (Instr.borderZeroizeEnd mismatch).wf = true ∧ s.clocked = true ∧ s.knitBusy = true ∧ s.rd V.KNT_WAIT [] = 5 ∧ (s.badMoves s.groupMoves mismatch).isEmpty = false ∧ s.rd V.KNT_TRIES [] ≠ 0) ∧
    (let p : Nat := 0;
      let s : State := base.w [(V.WAIT_FLIP, [0], 1)];
      (Instr.epochFlip p).wf = true ∧ s.clocked = true ∧ s.oldBank p = false ∧ s.rdb V.WAIT_FLIP [p] = true) ∧
    (let p : Nat := 0;
      let s : State := base.w [(F.XPT_EPOCH_VALID_B, [0], 1)];
      (Instr.epochRetire p).wf = true ∧ s.clocked = true ∧ s.bankValid p (1 - s.stamp p) = true ∧ s.inflight p (1 - s.stamp p) = 0 ∧ ((s.wr (validFld (1 - s.stamp p)) [p] 0).wr F.XPT_EPOCH_STATE [p] (if s.rdb V.WAIT_FLIP [p] then 2 else 0)).knitBusy = false) := by
  refine ⟨?_, ?_, ?_⟩ <;> decide +kernel

theorem witness_SlotCommandsComplete :
    (let q : Nat := 0;
      let pkt : Packet := pkContrib;
      let s : State := lab;
      let r : RankEntry := lab.img.rankRaw 0 1 0;
      let e : CollE := lab.img.coll 1 0;
      (Instr.contrib q pkt).wf = true ∧ s.engineOn q 0 = true ∧ serviceCause pkt = none ∧ contribFormatOk (pkFormat pkt) (pkNchunk pkt) (pkPayUnits pkt) (pkNarrow pkt) = true ∧ (s.takeSvc q 43 pkt).img.rankEntry (pkEpoch pkt) (pkPart pkt) (dstRank (pkSrc pkt)) = some r ∧ (s.takeSvc q 43 pkt).img.collValid (pkPart pkt) (pkColl pkt) = some e ∧ r.acc / 36 = q ∧ (s.takeSvc q 43 pkt).contribMember pkt e = true) ∧
    (let q : Nat := 0;
      let p : Nat := 1;
      let coll : Nat := 0;
      let step : Nat := 0;
      let chunk : Nat := 0;
      let s : State := { lab with admMsgs := [⟨false, false, 0, 1, 0, 0, 0⟩], slots := [([1, 1, 0, 0, 0], { slot0 with dset := 34 })] };
      let x : Slot := { slot0 with dset := 34 };
      (Instr.admissionRequest q p coll step chunk).wf = true ∧ (s.quadOn q && s.quadUp (crownQuad p coll chunk)) = true ∧ s.admMsgs.contains ⟨false, false, q, p, coll, step, chunk⟩ = true ∧ s.seamOk q (crownQuad p coll chunk) = true ∧
      (let u := s.admTake ⟨false, false, q, p, coll, step, chunk⟩
      u.slotLook (slotKey (crownQuad p coll chunk) p coll step chunk) = some x)) ∧
    (let q : Nat := 0;
      let p : Nat := 1;
      let coll : Nat := 0;
      let step : Nat := 0;
      let chunk : Nat := 0;
      let s : State := { collLab with admMsgs := [⟨false, false, 0, 1, 0, 0, 0⟩], insts := [(instKey 1 0 (collLab.img.coll 1 0) 0, inst0)] };
      let e : CollE := collLab.img.coll 1 0;
      let i : Inst := inst0;
      (Instr.admissionRequest q p coll step chunk).wf = true ∧ (s.quadOn q && s.quadUp (crownQuad p coll chunk)) = true ∧ s.admMsgs.contains ⟨false, false, q, p, coll, step, chunk⟩ = true ∧ s.seamOk q (crownQuad p coll chunk) = true ∧
      (let u := s.admTake ⟨false, false, q, p, coll, step, chunk⟩
      u.slotLook (slotKey (crownQuad p coll chunk) p coll step chunk) = none ∧ u.img.collValid p coll = some e ∧ u.instGet p coll e step = some i ∧ i.st = .active ∧ u.holdCause (crownQuad p coll chunk) p e i = none ∧ u.admits (crownQuad p coll chunk) p = true)) ∧
    (let q : Nat := 0;
      let p : Nat := 1;
      let coll : Nat := 0;
      let step : Nat := 0;
      let chunk : Nat := 0;
      let granted : Bool := true;
      let s : State := { lab with admMsgs := [⟨true, true, 0, 1, 0, 0, 0⟩], slots := [([0, 1, 0, 0, 0], { slot0 with res := .pending })], insts := [(instKey 1 0 (lab.img.coll 1 0) 0, inst0)] };
      let x : Slot := { slot0 with res := .pending };
      let e : CollE := lab.img.coll 1 0;
      let i : Inst := inst0;
      (Instr.admissionReply q p coll step chunk granted).wf = true ∧ s.quadOn q = true ∧ s.admMsgs.contains ⟨true, granted, q, p, coll, step, chunk⟩ = true ∧ s.seamOk q (crownQuad p coll chunk) = true ∧ granted = true ∧
      (let u := s.admTake ⟨true, granted, q, p, coll, step, chunk⟩
      u.slotGet (slotKey q p coll step chunk) = some x ∧ u.img.collValid p coll = some e ∧ x.res = .pending ∧ u.instGet p coll e step = some i)) ∧
    (let q : Nat := 0;
      let p : Nat := 1;
      let coll : Nat := 0;
      let step : Nat := 0;
      let chunk : Nat := 0;
      let granted : Bool := false;
      let s : State := { lab with admMsgs := [⟨true, false, 0, 1, 0, 0, 0⟩], slots := [([0, 1, 0, 0, 0], { slot0 with res := .pending })] };
      let x : Slot := { slot0 with res := .pending };
      let e : CollE := lab.img.coll 1 0;
      (Instr.admissionReply q p coll step chunk granted).wf = true ∧ s.quadOn q = true ∧ s.admMsgs.contains ⟨true, granted, q, p, coll, step, chunk⟩ = true ∧ s.seamOk q (crownQuad p coll chunk) = true ∧ granted = false ∧
      (let u := s.admTake ⟨true, granted, q, p, coll, step, chunk⟩
      u.slotGet (slotKey q p coll step chunk) = some x ∧ u.img.collValid p coll = some e ∧ x.res = .pending)) ∧
    (let q : Nat := 0;
      let p : Nat := 1;
      let coll : Nat := 0;
      let step : Nat := 0;
      let chunk : Nat := 0;
      let s : State := ({ lab with slots := [([0, 1, 0, 0, 0], { slot0 with st := .closing })] } : State).lentTo 0 0 1;
      let x : Slot := { slot0 with st := .closing };
      let e : CollE := lab.img.coll 1 0;
      let f : Nat := 0;
      let n : Nat := 8;
      (Instr.slotReadoutComplete q p coll step chunk).wf = true ∧ s.unitOn q = true ∧ s.slotGet (slotKey q p coll step chunk) = some x ∧ s.img.collValid p coll = some e ∧ x.st = .closing ∧ x.res = .frame f ∧ x.sent = false ∧ s.slotLocked q p x = false ∧ s.engineOut q x = false ∧ s.rdb V.ENGINE_FAULT [q, 6] = false ∧ s.readoutUnit (slotKey q p coll step chunk) x = some n ∧ s.unitGo q x.engine p n = true) ∧
    (let q : Nat := 0;
      let p : Nat := 1;
      let coll : Nat := 0;
      let step : Nat := 0;
      let chunk : Nat := 0;
      let g : Nat := 0;
      let s : State := { lab with slots := [([0, 1, 0, 0, 0], { slot0 with st := .closing, sent := true }), ([1, 1, 0, 0, 0], { slot0 with dset := 34 })], insts := [(instKey 1 0 (lab.img.coll 1 0) 0, inst0)] };
      let y : Slot := { slot0 with st := .closing, sent := true };
      let x : Slot := { slot0 with dset := 34 };
      let e : CollE := lab.img.coll 1 0;
      let i : Inst := inst0;
      (Instr.tier0Partial q p coll step chunk).wf = true ∧ s.engineOn (crownQuad p coll chunk) 0 = true ∧ q ≠ crownQuad p coll chunk ∧
      (let u := (s.countLocal q (60 + seamPort q (crownQuad p coll chunk)) 6 p 1).countLocal (crownQuad p coll chunk)
        (60 + seamPort (crownQuad p coll chunk) q) 7 p 1
      u.slotGet (slotKey q p coll step chunk) = some y ∧ u.img.collValid p coll = some e ∧ y.st = .closing ∧ y.sent = true ∧ y.res = .frame g ∧ u.seamOk q (crownQuad p coll chunk) = true ∧ u.tier0Waits q p coll step chunk = false ∧ u.slotLook (slotKey (crownQuad p coll chunk) p coll step chunk) = some x ∧ u.instGet p coll e step = some i ∧ slotReady x = true)) ∧
    (let q : Nat := 0;
      let p : Nat := 1;
      let coll : Nat := 0;
      let step : Nat := 0;
      let chunk : Nat := 0;
      let s : State := { lab with slots := [([0, 1, 0, 0, 0], { slot0 with st := .closing, sent := true })] };
      let y : Slot := { slot0 with st := .closing, sent := true };
      (Instr.partialDelivered q p coll step chunk).wf = true ∧ s.quadOn q = true ∧ s.slotGet (slotKey q p coll step chunk) = some y ∧ s.slotGet (slotKey (crownQuad p coll chunk) p coll step chunk) = none ∧ q ≠ crownQuad p coll chunk ∧ y.st = .closing ∧ y.sent = true) ∧
    (let q : Nat := 1;
      let pkt : Packet := pkPartial;
      let s : State := { lab with insts := [(instKey 1 0 (lab.img.coll 1 0) 0, inst0)] };
      let e : CollE := lab.img.coll 1 0;
      let bit : Nat := 176;
      let i : Inst := inst0;
      (Instr.partialReceive q pkt).wf = true ∧ s.engineOn q 0 = true ∧ serviceCause pkt = none ∧ crownQuad (pkPart pkt) (pkColl pkt) (pkChunk pkt) = q ∧ pkFormat pkt = 8 ∧ (s.takeSvc q 43 pkt).img.collValid (pkPart pkt) (pkColl pkt) = some e ∧ (s.takeSvc q 43 pkt).peerBit pkt = some bit ∧ e.pod = true ∧ e.chunkBase ≤ pkChunk pkt ∧ pkChunk pkt < e.chunkBase + e.nchunk ∧ (s.takeSvc q 43 pkt).recUse (pkPart pkt) (pkColl pkt) e (pkStep pkt) = .use i ∧ i.st = .active ∧ bitOf ((s.takeSvc q 43 pkt).expected (crownQuad (pkPart pkt) (pkColl pkt) (pkChunk pkt)) (pkPart pkt) (pkColl pkt) (pkChunk pkt) e i.bank) bit = true) ∧
    (let q : Nat := 1;
      let pkt : Packet := pkPartial;
      let s : State := { lab with slots := [([1, 1, 0, 0, 0], { slot0 with st := .waiting })], insts := [(instKey 1 0 (lab.img.coll 1 0) 0, inst0)] };
      (Instr.resultFromRack q pkt).wf = true ∧ s.unitOn q = true ∧ serviceCause pkt = none ∧ pkFormat pkt = 8 ∧ crownQuad (pkPart pkt) (pkColl pkt) (pkChunk pkt) = q) ∧
    (let q : Nat := 1;
      let pkt : Packet := pkPublish;
      let s : State := { lab with slots := [([1, 1, 0, 0, 0], { slot0 with st := .waiting })], insts := [(instKey 1 0 (lab.img.coll 1 0) 0, inst0)] };
      (Instr.publishFromRack q pkt).wf = true ∧ s.unitOn q = true ∧ serviceCause pkt = none ∧ pkFormat pkt = 1 ∧ pkNchunk pkt ≤ maxChunks 1 ∧ crownQuad (pkPart pkt) (pkColl pkt) (pkChunk pkt) = q) ∧
    (let q : Nat := 0;
      let p : Nat := 1;
      let s : State := spillLab.pagerSlot;
      let k : Key := [0, 1, 0, 0, 0];
      let x : Slot := slot0;
      let n : Nat := 0;
      let t : State := (spillLab.pagerSlot.spillTo 0 1 0 [0, 1, 0, 0, 0] slot0).getD smallLab;
      (Instr.pagerSpill q p).wf = true ∧ s.unitOn q = true ∧ s.pagerMay q p = true ∧ s.recallNext q p = none ∧ s.spillNext q p = some ((k, x), n) ∧ s.spillTo q p n k x = some t) ∧
    (let q : Nat := 0;
      let p : Nat := 1;
      let s : State := recallLab.pagerSlot;
      let k : Key := [0, 1, 0, 0, 0];
      let x : Slot := { slot0 with res := .record 0 };
      let f : Nat := 0;
      (Instr.pagerRecall q p).wf = true ∧ s.unitOn q = true ∧ s.pagerMay q p = true ∧ s.recallNext q p = some (k, x) ∧ s.freeFrame q p = some f) ∧
    (let q : Nat := 0;
      let p : Nat := 1;
      let s : State := swapLab.pagerSlot;
      let k : Key := [0, 1, 0, 0, 0];
      let x : Slot := { slot0 with res := .record 0 };
      let kv : Key := [0, 1, 0, 1, 0];
      let y : Slot := slot0;
      let n : Nat := 0;
      let f : Nat := 0;
      let t : State := ((swapLab.pagerSlot.recordNote 0 1 { slot0 with res := .record 0 }).spillTo 0 1 0 [0, 1, 0, 1, 0] slot0).getD smallLab;
      (Instr.pagerSwap q p).wf = true ∧ s.unitOn q = true ∧ s.pagerMay q p = true ∧ s.freeFrame q p = none ∧ s.recallNext q p = some (k, x) ∧ s.victim q p = some (kv, y) ∧ x.res = .record n ∧ y.res = .frame f ∧ (s.recordNote q p x).spillTo q p n kv y = some t) ∧
    (let q : Nat := 0;
      let s : State := { lab with pagerOp := [([0], ⟨1, 0, 0, 0⟩)], slots := [([0, 1, 0, 0, 0], { slot0 with locked := true })] };
      let o : PagerOp := (⟨1, 0, 0, 0⟩ : PagerOp);
      (Instr.pagerOpComplete q).wf = true ∧ s.unitOn q = true ∧ SMap.find [q] s.pagerOp = some o ∧ s.rdb V.PAGER_STOP [q] = false) ∧
    (let p : Nat := 1;
      let s : State := base;
      (Instr.sweepEnd p).wf = true ∧ s.clocked = true) := by
  refine ⟨?_, ?_, ?_, ?_, ?_, ?_, ?_, ?_, ?_, ?_, ?_, ?_, ?_, ?_, ?_, ?_⟩ <;> decide +kernel

theorem witness_SlotCommandsComplete_2 :
    (let q : Nat := 0;
      let bank : Nat := 127;
      let port : Nat := 1;
      let req : Nat := 7;
      let busy : List (Nat × Nat × Nat × Nat) := [];
      let s : State := base;
      (Instr.slabLockTimeout q bank port req busy).wf = true ∧ s.quadOn q = true ∧ (req = 5 ∨ req = 7)) ∧
    (let q : Nat := 0;
      let bank : Nat := 127;
      let port : Nat := 1;
      let req : Nat := 3;
      let busy : List (Nat × Nat × Nat × Nat) := [];
      let s : State := base;
      (Instr.slabLockTimeout q bank port req busy).wf = true ∧ s.quadOn q = true ∧ req ≠ 5 ∧ req ≠ 7) := by
  refine ⟨?_, ?_⟩ <;> decide +kernel

theorem witness_SeqCommandsComplete :
    (let p : Nat := 1;
      let coll : Nat := 0;
      let step : Nat := 0;
      let s : State := { lab.w [(F.XPT_RESEND_TRIES, [], 1)] with insts := [(instKey 1 0 (lab.img.coll 1 0) 0, { inst0 with resendDue := 1 })] };
      let e : CollE := lab.img.coll 1 0;
      let i : Inst := { inst0 with resendDue := 1 };
      (Instr.resultResendTimer p coll step).wf = true ∧ s.unitOn (p % 4) = true ∧ s.img.collValid p coll = some e ∧ s.instGet p coll e step = some i ∧ liveInst i = true ∧ i.resendDue ≠ 0 ∧ i.resends < s.rd F.XPT_RESEND_TRIES []) ∧
    (let q : Nat := 0;
      let pkt : Packet := pkPartial;
      let s : State := lab;
      (Instr.cnackReceive q pkt).wf = true ∧ s.quadOn q = true ∧ serviceCause pkt = none) ∧
    (let q : Nat := 0;
      let p : Nat := 1;
      let e : Nat := 4;
      let prod : BitVec 32 := 0;
      let s : State := base;
      (Instr.ringDoorbell q p e prod).wf = true ∧ (s.barQuad q && !s.partResetting p) = true ∧ s.prodOk q p e prod.toNat = true) ∧
    (let q : Nat := 0;
      let p : Nat := 1;
      let e : Nat := 4;
      let prod : BitVec 32 := 0xFFFFFFFF;
      let s : State := base;
      (Instr.ringDoorbell q p e prod).wf = true ∧ (s.barQuad q && !s.partResetting p) = true ∧ s.prodOk q p e prod.toNat = false) ∧
    (let q : Nat := 0;
      let p : Nat := 1;
      let e : Nat := 0;
      let prod : BitVec 32 := 0;
      let s : State := base.w [(F.SLT_SWEEP_ACTIVE, [0], 1), (F.SLT_SWEEP_PART, [0], 1)];
      (Instr.ringDoorbell q p e prod).wf = true ∧ s.partResetting p = true) ∧
    (let q : Nat := 0;
      let pkt : Packet := pkDoor;
      let s : State := lab.w [(F.SEQ_RING_CTL_FABRIC_DB, [0, 1, 0], 1)];
      let r : RankEntry := lab.img.rankRaw 0 1 0;
      (Instr.doorbell q pkt).wf = true ∧ s.quadOn q = true ∧ serviceCause pkt = none ∧ (s.takeSvc q 45 pkt).img.rankEntry (pkEpoch pkt) (pkPart pkt) (dstRank (pkSrc pkt)) = some r ∧ bitsOf (pkAddr pkt) 8 8 / 8 < 4 ∧ bitsOf (pkAddr pkt) 8 8 % 8 < 5 ∧ (s.takeSvc q 45 pkt).rdb F.SEQ_RING_CTL_FABRIC_DB [bitsOf (pkAddr pkt) 8 8 / 8, pkPart pkt, bitsOf (pkAddr pkt) 8 8 % 8] = true) ∧
    (let q : Nat := 3;
      let p : Nat := 31;
      let e : Nat := 4;
      let s : State := base;
      (Instr.ringErrClear q p e).wf = true ∧ s.barQuad q = true ∧ s.raisedNow F.SEQ_RING_CTL_ERR [q, p, e] = false) ∧
    (let p : Nat := 1;
      let k : Nat := 0;
      let s : State := { lab with cqWait := [([1, 0], [7])] };
      let r : Nat := 7;
      let rs : List Nat := ([] : List Nat);
      (Instr.cqRecordWrite p k).wf = true ∧ s.quadOn (p % 4) = true ∧ SMap.get s.cqWait [p, k] [] = r :: rs ∧ s.cqRoom p k = true) ∧
    (let q : Nat := 0;
      let p : Nat := 1;
      let entry : BitVec 512 := 1;
      let s : State := ringLab 0 1;
      let e : CollE := lab.img.coll 1 0;
      (Instr.collective q p entry).wf = true ∧ s.unitOn q = true ∧ s.ringCmd q p 0 1 entry.toNat = true ∧ s.img.collValid p (bitsOf entry.toNat 64 16) = some e ∧ e.cmd = true ∧ s.recUse p (bitsOf entry.toNat 64 16) e (bitsOf entry.toNat 96 32) = .fresh) ∧
    (let q : Nat := 0;
      let p : Nat := 1;
      let entry : BitVec 512 := (2 + 5 * 2 ^ 96);
      let s : State := (ringLab 0 (2 + 5 * 2 ^ 96)).i 8 4 1 12 [0xFF, 0xFF];
      (Instr.armStep q p entry).wf = true ∧ s.unitOn q = true ∧ s.ringCmd q p 0 2 entry.toNat = true ∧ before32 (s.rd F.SEQ_STEP_ARMED [p]) (bitsOf entry.toNat 96 32) = true ∧ (((s.cmdStart q p 0 entry.toNat).wr F.SEQ_STEP_ARMED [p] (bitsOf entry.toNat 96 32)).armStanding p).img.stepProg p = 0xFFFF) ∧
    (let q : Nat := 0;
      let p : Nat := 1;
      let entry : BitVec 512 := 3;
      let s : State := ringLab 0 3;
      (Instr.trigger q p entry).wf = true ∧ s.unitOn q = true ∧ s.ringCmd q p 0 3 entry.toNat = true ∧ bitsOf entry.toNat 64 16 < 8192) ∧
    (let q : Nat := 0;
      let p : Nat := 1;
      let entry : BitVec 512 := 4;
      let s : State := ringLab 0 4;
      (Instr.increment q p entry).wf = true ∧ s.unitOn q = true ∧ s.ringCmd q p 0 4 entry.toNat = true ∧ bitsOf entry.toNat 64 8 ≠ 255) ∧
    (let q : Nat := 0;
      let p : Nat := 1;
      let entry : BitVec 512 := 5;
      let s : State := { ringLab 0 5 with insts := [(instKey 1 0 (lab.img.coll 1 0) 0, inst0)] };
      let e : CollE := lab.img.coll 1 0;
      (Instr.abortCollective q p entry).wf = true ∧ s.unitOn q = true ∧ s.ringCmd q p 0 5 entry.toNat = true ∧ s.img.collValid p (bitsOf entry.toNat 64 16) = some e) ∧
    (let q : Nat := 0;
      let p : Nat := 1;
      let entry : BitVec 512 := 6;
      let s : State := ringLab 0 6;
      (Instr.stepReplay q p entry).wf = true ∧ s.unitOn q = true ∧ s.ringCmd q p 0 6 entry.toNat = true ∧ s.rdb F.SEQ_STEP_REPLAY [p] = false) ∧
    (let p : Nat := 31;
      let s : State := base.w [(F.SEQ_STEP_REPLAY, [31], 1)];
      (Instr.stepReplayEnd p).wf = true ∧ s.unitOn (p % 4) = true ∧ s.rdb F.SEQ_STEP_REPLAY [p] = true) ∧
    (let q : Nat := 0;
      let p : Nat := 1;
      let entry : BitVec 512 := (7 + 2 ^ 96);
      let s : State := ringLab 0 (7 + 2 ^ 96);
      (Instr.warm q p entry).wf = true ∧ s.unitOn q = true ∧ s.ringCmd q p 0 7 entry.toNat = true ∧ bitsOf entry.toNat 69 3 + bitsOf entry.toNat 76 4 + bitsOf entry.toNat 80 16 = 0 ∧ bitsOf entry.toNat 96 32 ≠ 0 ∧ bitsOf entry.toNat 96 32 ≤ 10000000) := by
  refine ⟨?_, ?_, ?_, ?_, ?_, ?_, ?_, ?_, ?_, ?_, ?_, ?_, ?_, ?_, ?_, ?_⟩ <;> decide +kernel

theorem witness_SeqCommandsComplete_2 :
    (let q : Nat := 1;
      let pkt : Packet := pkDone;
      let s : State := { lab with insts := [(instKey 1 0 (lab.img.coll 1 0) 0, inst0)] };
      let e : CollE := lab.img.coll 1 0;
      let r : RankEntry := lab.img.rankRaw 0 1 0;
      let i : Inst := inst0;
      (Instr.done q pkt).wf = true ∧ s.unitOn q = true ∧ serviceCause pkt = none ∧ (s.takeSvc q 45 pkt).img.collValid (pkPart pkt) (pkColl pkt) = some e ∧ (s.takeSvc q 45 pkt).img.rankEntry (pkEpoch pkt) (pkPart pkt) (dstRank (pkSrc pkt)) = some r ∧ (s.takeSvc q 45 pkt).recUse (pkPart pkt) (pkColl pkt) e (pkStep pkt) = .use i ∧ (s.takeSvc q 45 pkt).isReceiver (pkPart pkt) e i (dstRank (pkSrc pkt)) = true ∧ leAt pkt.payload 0 3 = (s.takeSvc q 45 pkt).img.recvCount (pkPart pkt) e i (dstRank (pkSrc pkt)) ∧ liveInst i = true ∧ bitOf i.done (dstRank (pkSrc pkt)) = false) ∧
    (let q : Nat := 1;
      let pkt : Packet := pkDone;
      let s : State := { lab with insts := [(instKey 1 0 (lab.img.coll 1 0) 0, inst0)] };
      let e : CollE := lab.img.coll 1 0;
      let r : RankEntry := lab.img.rankRaw 0 1 0;
      let i : Inst := inst0;
      (Instr.gapNack q pkt).wf = true ∧ s.unitOn q = true ∧ serviceCause pkt = none ∧ (s.takeSvc q 45 pkt).img.collValid (pkPart pkt) (pkColl pkt) = some e ∧ (s.takeSvc q 45 pkt).img.rankEntry (pkEpoch pkt) (pkPart pkt) (dstRank (pkSrc pkt)) = some r ∧ (s.takeSvc q 45 pkt).instGet (pkPart pkt) (pkColl pkt) e (pkStep pkt) = some i ∧ (s.takeSvc q 45 pkt).isReceiver (pkPart pkt) e i (dstRank (pkSrc pkt)) = true) ∧
    (let p : Nat := 1;
      let coll : Nat := 0;
      let step : Nat := 0;
      let s : State := { lab with insts := [(instKey 1 0 (lab.img.coll 1 0) 0, { inst0 with deadline := 1 })] };
      let e : CollE := lab.img.coll 1 0;
      let i : Inst := { inst0 with deadline := 1 };
      (Instr.patienceExpiry p coll step).wf = true ∧ s.unitOn (p % 4) = true ∧ s.img.collValid p coll = some e ∧ s.instGet p coll e step = some i ∧ i.deadline ≠ 0) ∧
    (let p : Nat := 1;
      let coll : Nat := 0;
      let step : Nat := 0;
      let chunk : Nat := 0;
      let s : State := { lab with slots := [([1, 1, 0, 0, 0], { slot0 with st := .waiting })], insts := [(instKey 1 0 (lab.img.coll 1 0) 0, inst0)] };
      let e : CollE := lab.img.coll 1 0;
      let x : Slot := { slot0 with st := .waiting };
      let i : Inst := inst0;
      (Instr.partialResendTimer p coll step chunk).wf = true ∧ s.unitOn (crownQuad p coll chunk) = true ∧ s.img.collValid p coll = some e ∧ s.slotGet (slotKey (crownQuad p coll chunk) p coll step chunk) = some x ∧ s.instGet p coll e step = some i ∧ x.st = .waiting ∧ slotReady x = true) ∧
    (let p : Nat := 1;
      let coll : Nat := 0;
      let step : Nat := 0;
      let chunk : Nat := 0;
      let s : State := { lab with slots := [([1, 1, 0, 0, 0], { slot0 with st := .held, podSent := 1 })], insts := [(instKey 1 0 (lab.img.coll 1 0) 0, { inst0 with st := .complete })] };
      let e : CollE := lab.img.coll 1 0;
      let x : Slot := { slot0 with st := .held, podSent := 1 };
      let i : Inst := { inst0 with st := .complete };
      (Instr.podHoldExpiry p coll step chunk).wf = true ∧ s.unitOn (crownQuad p coll chunk) = true ∧ s.img.collValid p coll = some e ∧ s.slotGet (slotKey (crownQuad p coll chunk) p coll step chunk) = some x ∧ x.st = .held ∧ x.podSent ≠ 0 ∧ s.instGet p coll e step = some i ∧ i.st = .complete) ∧
    (let p : Nat := 31;
      let s : State := base;
      (Instr.stragClear p).wf = true ∧ s.barQuad (p % 4) = true) := by
  refine ⟨?_, ?_, ?_, ?_, ?_, ?_⟩ <;> decide +kernel

theorem witness_TrigCommandsComplete :
    (let p : Nat := 1;
      let n : Nat := 0;
      let s : State := (trigLab 1).slotted [([2, 1, 0, 0, 1], { slot0 with st := .closing })];
      let o : TrigOp := trigOp0 1;
      let e : CollE := lab.img.coll 1 0;
      let i : Inst := { inst0 with st := .ready };
      (Instr.reduceForward p n).wf = true ∧ s.unitOn (p % 4) = true ∧ s.trigOp p n 1 = some o ∧ s.img.collValid p (twColl o.word) = some e ∧ s.instGet p (twColl o.word) e (twStep o.word o.ctx) = some i ∧ i.st = .ready ∧ e.pod = true ∧ i.fwd = false ∧
      (let sends := fun c => podSends (s.podRole i.bank p e c)
      let u := (s.instPut p (twColl o.word) e { i with fwd := true }).releaseCrowns p (twColl o.word) i.step sends
      (((u.instSlots p (twColl o.word) i.step).any fun kv =>
        kv.1.getD 0 9 == crownQuad p (twColl o.word) (kv.1.getD 4 0) && kv.2.st == .closing && sends (kv.1.getD 4 0)) = true))) ∧
    (let p : Nat := 1;
      let n : Nat := 0;
      let s : State := { trigLab 1 with insts := [(instKey 1 0 (lab.img.coll 1 0) 0, { inst0 with st := .ready, fwd := true })] };
      let o : TrigOp := trigOp0 1;
      let e : CollE := lab.img.coll 1 0;
      let i : Inst := { inst0 with st := .ready, fwd := true };
      (Instr.reduceForward p n).wf = true ∧ s.unitOn (p % 4) = true ∧ s.trigOp p n 1 = some o ∧ s.img.collValid p (twColl o.word) = some e ∧ s.instGet p (twColl o.word) e (twStep o.word o.ctx) = some i ∧ i.st = .ready ∧ e.pod = true ∧ i.fwd = true ∧ (((s.instSlots p (twColl o.word) i.step).any fun kv =>
        kv.1.getD 0 9 == crownQuad p (twColl o.word) (kv.1.getD 4 0) && kv.2.st == .closing
          && podSends (s.podRole i.bank p e (kv.1.getD 4 0))) = false)) ∧
    (let p : Nat := 1;
      let n : Nat := 0;
      let s : State := trigLab 2;
      let o : TrigOp := trigOp0 2;
      let e : CollE := lab.img.coll 1 0;
      let i : Inst := { inst0 with st := .ready };
      let k : Inst := { inst0 with st := .ready, released := true, outGroup := 0, outFmt := 0 };
      (Instr.convertMulticast p n).wf = true ∧ s.unitOn (p % 4) = true ∧ s.trigOp p n 2 = some o ∧ s.img.collValid p (twColl o.word) = some e ∧ s.instGet p (twColl o.word) e (twStep o.word o.ctx) = some i ∧ i.st = .ready ∧ i.released = false ∧
      (let coll := twColl o.word
      let j : Inst := { i with
        released := true, outGroup := if twEntryGroup o.word then e.group else twGroup o.word,
        outFmt := if twEntryFmt o.word then e.outFmt else twFormat o.word }
      let u := (((s.instPut p coll e j).convertCrowns p coll i.step e).releaseCrowns p coll i.step fun _ => true).settle p
      u.instGet p coll e i.step = some k)) ∧
    (let p : Nat := 1;
      let n : Nat := 0;
      let s : State := trigLab2 2;
      let o : TrigOp := trigOp0 2;
      let e : CollE := lab.img.coll 1 0;
      let i : Inst := { inst0 with st := .ready, released := true, resulted := 4 };
      (Instr.convertMulticast p n).wf = true ∧ s.unitOn (p % 4) = true ∧ s.trigOp p n 2 = some o ∧ s.img.collValid p (twColl o.word) = some e ∧ s.instGet p (twColl o.word) e (twStep o.word o.ctx) = some i ∧ i.st = .ready ∧ i.released = true ∧ s.instGet p (twColl o.word) e i.step = some i ∧ i.resulted = e.nchunk) ∧
    (let p : Nat := 1;
      let n : Nat := 0;
      let s : State := (trigLab 3).w [(F.UPD_PART_STEP_STATE, [1], 1)];
      let o : TrigOp := trigOp0 3;
      let e : CollE := lab.img.coll 1 0;
      let i : Inst := { inst0 with st := .ready };
      (Instr.normContribute p n).wf = true ∧ s.unitOn (p % 4) = true ∧ s.trigOp p n 3 = some o ∧ s.img.collValid p (twColl o.word) = some e ∧ s.instGet p (twColl o.word) e (twStep o.word o.ctx) = some i ∧ i.st = .ready ∧ s.updState p = 1 ∧ s.updStep p = twStep o.word o.ctx) ∧
    (let p : Nat := 1;
      let n : Nat := 0;
      let s : State := (trigLab 4).w [(F.UPD_PART_STEP_STATE, [1], 3)];
      let o : TrigOp := trigOp0 4;
      (Instr.updateShard p n).wf = true ∧ s.unitOn (p % 4) = true ∧ s.trigOp p n 4 = some o ∧ s.updStep p = twStep o.word o.ctx ∧ before32 (twStep o.word o.ctx) (s.updStep p) = false ∧ s.updState p = 3 ∧ s.rdb V.UPD_OP_DONE [p, twArg0 o.word % 2 ^ 16] = false ∧ s.rdb V.UPD_STARTED [p, twArg0 o.word % 2 ^ 16] = false ∧ s.img.optAuto p = false) ∧
    (let p : Nat := 1;
      let n : Nat := 0;
      let s : State := trigLab 5;
      let o : TrigOp := trigOp0 5;
      let h : ShardE := lab.img.shard 1 0;
      (Instr.publishOp p n).wf = true ∧ s.unitOn (p % 4) = true ∧ s.trigOp p n 5 = some o ∧ s.img.shardValid p (twArg0 o.word % 2 ^ 16) = some h ∧ s.shardQuiet p (twArg0 o.word % 2 ^ 16) = true ∧ s.rdb F.UPD_FAULT_FAULTED [h.quad] = false ∧ s.rdb V.SHARD_LOST [p, twArg0 o.word % 2 ^ 16] = false) ∧
    (let p : Nat := 1;
      let n : Nat := 0;
      let s : State := trigLab 6;
      let o : TrigOp := trigOp0 6;
      let h : ShardE := lab.img.shard 1 0;
      (Instr.snapshotOp p n).wf = true ∧ s.unitOn (p % 4) = true ∧ s.trigOp p n 6 = some o ∧ s.img.shardValid p (twArg0 o.word % 2 ^ 16) = some h ∧ s.shardQuiet p (twArg0 o.word % 2 ^ 16) = true ∧ s.rdb F.UPD_FAULT_FAULTED [h.quad] = false) ∧
    (let p : Nat := 1;
      let n : Nat := 0;
      let s : State := trigLab 7;
      let o : TrigOp := trigOp0 7;
      (Instr.signalHost p n).wf = true ∧ s.unitOn (p % 4) = true ∧ s.trigOp p n 7 = some o ∧ o.posted = 0 ∧
      (let k := twArg0 o.word % 8
      let t := s.cqPost p k { kind := 4, tag := twArg1 o.word % 2 ^ 32 }
      (SMap.get t.cqWait [p, k] []).length ≤ (SMap.get s.cqWait [p, k] []).length)) ∧
    (let p : Nat := 1;
      let n : Nat := 0;
      let s : State := trigLab 8;
      let o : TrigOp := trigOp0 8;
      (Instr.incrementOp p n).wf = true ∧ s.unitOn (p % 4) = true ∧ s.trigOp p n 8 = some o) ∧
    (let p : Nat := 1;
      let n : Nat := 0;
      let s : State := trigLab 9;
      let o : TrigOp := trigOp0 9;
      (Instr.waitEpoch p n).wf = true ∧ s.unitOn (p % 4) = true ∧ s.trigOp p n 9 = some o ∧ s.rd F.XPT_EPOCH_STATE [p] = 0 ∧ s.stamp p = twArg0 o.word % 2) ∧
    (let p : Nat := 1;
      let n : Nat := 0;
      let s : State := { lab with trigOps := [([1], [{ trigOp0 9 with finished := true }])] };
      let o : TrigOp := { trigOp0 9 with finished := true };
      (Instr.triggerOpComplete p n).wf = true ∧ s.unitOn (p % 4) = true ∧ (SMap.get s.trigOps [p] [])[n]? = some o ∧ o.finished = true ∧ o.aborted = false) := by
  refine ⟨?_, ?_, ?_, ?_, ?_, ?_, ?_, ?_, ?_, ?_, ?_, ?_⟩ <;> decide +kernel

theorem witness_UpdateCommandsComplete :
    (let p : Nat := 1;
      let coll : Nat := 0;
      let step : Nat := 0;
      let chunk : Nat := 0;
      let s : State := handLab.w [(F.UPD_PART_STEP_STATE, [1], 1)];
      let e : CollE := lab.img.coll 1 0;
      let x : Handoff := hand0;
      let m : ShardE := lab.img.shard 1 0;
      (Instr.chunkHandoff p coll step chunk).wf = true ∧ s.unitsOk = true ∧ s.img.collValid p coll = some e ∧ s.shardOn p e.shard = true ∧ ((SMap.get s.handoffs [p] []).find? (fun h => h.coll == coll && h.step == step && h.chunk == chunk) = some x) ∧ s.img.shardValid p e.shard = some m ∧ s.rdb F.UPD_FAULT_FAULTED [m.quad] = false ∧ s.updState p ≠ 0 ∧ before32 step (s.updStep p) = false ∧ before32 (s.updStep p) step = false) ∧
    (let p : Nat := 1;
      let coll : Nat := 0;
      let step : Nat := 0;
      let chunk : Nat := 0;
      let s : State := handLab;
      let e : CollE := lab.img.coll 1 0;
      let x : Handoff := hand0;
      let m : ShardE := lab.img.shard 1 0;
      (Instr.chunkHandoff p coll step chunk).wf = true ∧ s.unitsOk = true ∧ s.img.collValid p coll = some e ∧ s.shardOn p e.shard = true ∧ ((SMap.get s.handoffs [p] []).find? (fun h => h.coll == coll && h.step == step && h.chunk == chunk) = some x) ∧ s.img.shardValid p e.shard = some m ∧ s.rdb F.UPD_FAULT_FAULTED [m.quad] = false ∧ s.updState p = 0 ∧ s.rdb F.UPD_PART_STEP_OUTCOME [p] = false) ∧
    (let p : Nat := 1;
      let shard : Nat := 0;
      let chunk : Nat := 0;
      let s : State := lab.w [(V.INJ_KIND, [], 1), (V.INJ_DET, [], 13), (V.INJ_TARGET, [], 1)];
      let h : ShardE := lab.img.shard 1 0;
      (Instr.updatePass p shard chunk).wf = true ∧ s.unitsOk = true ∧ s.shardOn p shard = true ∧ s.img.shardValid p shard = some h ∧ s.injEngine h.quad 1 = true) ∧
    (let p : Nat := 1;
      let shard : Nat := 0;
      let chunk : Nat := 0;
      let s : State := updLab 1;
      let h : ShardE := lab.img.shard 1 0;
      let c : UpdChunk := { staged0 with staged := false };
      let bs : List Byte := List.replicate 6144 0;
      let gs : List Nat := [];
      let z : State := (let h := lab.img.shard 1 0
    let t := (updLab 1).unitStart 0 5 1 passCycles
    let u := (t.passNote 1 0 0 h { staged0 with staged := false }).updStat 1 0 1
    (u.optWrite 1 0 (recBytesOf h.layout1 (u.img.seed 1) (u.updStep 1) 0 [] (recOfBytes h.layout1 (List.replicate 6144 0)))).getD base);
      (Instr.updatePass p shard chunk).wf = true ∧ s.unitsOk = true ∧ s.shardOn p shard = true ∧ s.img.shardValid p shard = some h ∧ s.injEngine h.quad 1 = false ∧ s.updGet p shard chunk = some c ∧ s.rdb F.UPD_FAULT_FAULTED [h.quad] = false ∧ s.rdb V.SHARD_LOST [p, shard] = false ∧ s.passReady p shard (s.img.grp p (s.img.segOf p h chunk).group) (s.img.segOf p h chunk).group c = true ∧ s.unitGo h.quad 5 p passCycles = true ∧
      (let sg := s.img.segOf p h chunk
      let g := s.img.grp p sg.group
      let t := s.unitStart h.quad 5 p passCycles
      let off := h.stateAddr + recBytes h * t.recordOf p h chunk
      (twoPass g.recipe = false ∧ g.recipe ≠ 0) ∧ t.optRead p off (recBytes h) = some bs ∧ t.chunkGrads p chunk h c = some gs ∧
      (let r := recOfBytes h.layout1 bs
      let u := (t.passNote p chunk off h c).updStat p 0 1
      let xs := dropElems c.bad (u.finalElems p sg.group ((chunk - sg.start) * 512) h sg g (t.img.setup p g (t.updT p) (t.rd V.STEP_K [p])) r gs)
      (u.optWrite p off (recBytesOf h.layout1 (u.img.seed p) (u.updStep p) ((u.img.coll p h.coll).chunkBase + chunk)
        (xs.map fun x => x.isSome && g.recipe != 0 && g.recipe != 3) (applyElems r xs)) = some z)))) ∧
    (let p : Nat := 1;
      let shard : Nat := 0;
      let chunk : Nat := 0;
      let s : State := updLab 3;
      let h : ShardE := lab.img.shard 1 0;
      let c : UpdChunk := { staged0 with staged := false };
      let bs : List Byte := List.replicate 6144 0;
      let gs : List Nat := [];
      (Instr.updatePass p shard chunk).wf = true ∧ s.unitsOk = true ∧ s.shardOn p shard = true ∧ s.img.shardValid p shard = some h ∧ s.injEngine h.quad 1 = false ∧ s.updGet p shard chunk = some c ∧ s.rdb F.UPD_FAULT_FAULTED [h.quad] = false ∧ s.rdb V.SHARD_LOST [p, shard] = false ∧ s.passReady p shard (s.img.grp p (s.img.segOf p h chunk).group) (s.img.segOf p h chunk).group c = true ∧ s.unitGo h.quad 5 p passCycles = true ∧
      (let sg := s.img.segOf p h chunk
      let g := s.img.grp p sg.group
      let t := s.unitStart h.quad 5 p passCycles
      let off := h.stateAddr + recBytes h * t.recordOf p h chunk
      (twoPass g.recipe = true ∧ c.passes = 0) ∧ t.optRead p off (recBytes h) = some bs ∧ t.chunkGrads p chunk h c = some gs)) ∧
    (let p : Nat := 1;
      let shard : Nat := 0;
      let chunk : Nat := 0;
      let s : State := updLost;
      let h : ShardE := lab.img.shard 1 0;
      let c : UpdChunk := { staged0 with staged := false };
      (Instr.updatePass p shard chunk).wf = true ∧ s.unitsOk = true ∧ s.shardOn p shard = true ∧ s.img.shardValid p shard = some h ∧ s.injEngine h.quad 1 = false ∧ s.updGet p shard chunk = some c ∧ s.rdb F.UPD_FAULT_FAULTED [h.quad] = false ∧ s.rdb V.SHARD_LOST [p, shard] = false ∧ s.passReady p shard (s.img.grp p (s.img.segOf p h chunk).group) (s.img.segOf p h chunk).group c = true ∧ s.unitGo h.quad 5 p passCycles = true ∧
      (let t := s.unitStart h.quad 5 p passCycles
      let off := h.stateAddr + recBytes h * t.recordOf p h chunk
      t.optRead p off (recBytes h) = none)) ∧
    (let p : Nat := 1;
      let s : State := { lab.w [(F.UPD_PART_STEP_STATE, [1], 2)] with mit := [([0, 0], round2)] };
      let rd : Round := round2;
      let m : MVal := (⟨0, false, false⟩ : MVal);
      (Instr.stepDecided p).wf = true ∧ s.unitOn (p % 4) = true ∧ s.updState p = 2 ∧ s.roundGet (s.img.normCtx p) (s.updStep p) = some rd ∧ rd.st = 2 ∧ rd.pod = some m ∧ (s.stepFlagRecord p (s.updStep p)).img.optLagged p = false ∧ (bitsOf m.v 128 128 = 0 ∧ bitsOf m.v 256 128 = 0)) ∧
    (let p : Nat := 1;
      let s : State := lab.w [(F.UPD_PART_STEP_STATE, [1], 2)];
      (Instr.stepTimerExpiry p).wf = true ∧ s.unitOn (p % 4) = true ∧ s.updState p = 2) ∧
    (let p : Nat := 1;
      let s : State := lab.w [(F.UPD_PART_STEP_STATE, [1], 4)];
      (Instr.stepTimerExpiry p).wf = true ∧ s.unitOn (p % 4) = true ∧ (s.updState p = 3 ∨ s.updState p = 4)) ∧
    (let q : Nat := 3;
      let s : State := base;
      (Instr.updateProgressTimeout q).wf = true ∧ s.quadOn q = true ∧ s.rdb F.UPD_FAULT_FAULTED [q] = false ∧ s.injEngine q 1 = false) ∧
    (let q : Nat := 0;
      let p : Nat := 1;
      let entry : BitVec 512 := 1;
      let s : State := ringLab 1 1;
      let h : ShardE := lab.img.shard 1 0;
      (Instr.publish q p entry).wf = true ∧ s.engineOn q 1 = true ∧ s.ringCmd q p 1 1 entry.toNat = true ∧ s.rdb F.UPD_FAULT_FAULTED [q] = false ∧ s.img.shardValid p (bitsOf entry.toNat 64 16) = some h ∧ s.shardQuiet p (bitsOf entry.toNat 64 16) = true ∧ (s.cmdStart q p 1 entry.toNat).rdb V.SHARD_LOST [p, bitsOf entry.toNat 64 16] = false) ∧
    (let q : Nat := 0;
      let p : Nat := 1;
      let entry : BitVec 512 := 2;
      let s : State := ringLab 1 2;
      let h : ShardE := lab.img.shard 1 0;
      (Instr.snapshot q p entry).wf = true ∧ s.engineOn q 1 = true ∧ s.ringCmd q p 1 2 entry.toNat = true ∧ s.rdb F.UPD_FAULT_FAULTED [q] = false ∧ s.img.shardValid p (bitsOf entry.toNat 64 16) = some h ∧ s.shardQuiet p (bitsOf entry.toNat 64 16) = true) ∧
    (let q : Nat := 0;
      let p : Nat := 1;
      let entry : BitVec 512 := 3;
      let s : State := ringLab 1 3;
      let h : ShardE := lab.img.shard 1 0;
      (Instr.import_ q p entry).wf = true ∧ s.engineOn q 1 = true ∧ s.ringCmd q p 1 3 entry.toNat = true ∧ s.rdb F.UPD_FAULT_FAULTED [q] = false ∧ s.img.shardValid p (bitsOf entry.toNat 64 16) = some h) ∧
    (let q : Nat := 0;
      let p : Nat := 1;
      let entry : BitVec 512 := 4;
      let s : State := ringLab 1 4;
      (Instr.setT q p entry).wf = true ∧ s.engineOn q 1 = true ∧ s.ringCmd q p 1 4 entry.toNat = true ∧ s.rdb F.UPD_FAULT_FAULTED [q] = false ∧ (s.cmdStart q p 1 entry.toNat).updState p = 0) := by
  refine ⟨?_, ?_, ?_, ?_, ?_, ?_, ?_, ?_, ?_, ?_, ?_, ?_, ?_, ?_⟩ <;> decide +kernel

theorem witness_GramCommandsComplete :
    (let q : Nat := 0;
      let p : Nat := 1;
      let entry : BitVec 512 := gAcc;
      let s : State := ringLab 2 gAcc.toNat;
      (Instr.gramAcc q p entry).wf = true ∧ s.engineOn q 2 = true ∧ s.ringCmd q p 2 1 entry.toNat = true ∧ s.rdb F.GRM_PART_STATE [q, p] = false ∧ ((s.wr F.GRM_PART_OPCODE [q, p] 1).wr F.GRM_PART_TAG [q, p] (ceTag entry.toNat)).rdb F.GRM_FAULT_FAULTED [q] = false ∧ ((s.wr F.GRM_PART_OPCODE [q, p] 1).wr F.GRM_PART_TAG [q, p] (ceTag entry.toNat)).gramOk q p 1 entry.toNat = true ∧ (gStaged 1 entry.toNat = false ∨ ((s.wr F.GRM_PART_OPCODE [q, p] 1).wr F.GRM_PART_TAG [q, p] (ceTag entry.toNat)).blockStaged p 1 entry.toNat = true)) ∧
    (let q : Nat := 0;
      let p : Nat := 1;
      let entry : BitVec 512 := gMat;
      let s : State := ringLab 2 gMat.toNat;
      (Instr.matmul q p entry).wf = true ∧ s.engineOn q 2 = true ∧ s.ringCmd q p 2 2 entry.toNat = true ∧ s.rdb F.GRM_PART_STATE [q, p] = false ∧ ((s.wr F.GRM_PART_OPCODE [q, p] 2).wr F.GRM_PART_TAG [q, p] (ceTag entry.toNat)).rdb F.GRM_FAULT_FAULTED [q] = false ∧ ((s.wr F.GRM_PART_OPCODE [q, p] 2).wr F.GRM_PART_TAG [q, p] (ceTag entry.toNat)).gramOk q p 2 entry.toNat = true ∧ (gStaged 2 entry.toNat = false ∨ ((s.wr F.GRM_PART_OPCODE [q, p] 2).wr F.GRM_PART_TAG [q, p] (ceTag entry.toNat)).blockStaged p 2 entry.toNat = true)) ∧
    (let q : Nat := 0;
      let p : Nat := 1;
      let entry : BitVec 512 := gRoot;
      let s : State := ringLab 2 gRoot.toNat;
      (Instr.nsRoot q p entry).wf = true ∧ s.engineOn q 2 = true ∧ s.ringCmd q p 2 3 entry.toNat = true ∧ s.rdb F.GRM_PART_STATE [q, p] = false ∧ ((s.wr F.GRM_PART_OPCODE [q, p] 3).wr F.GRM_PART_TAG [q, p] (ceTag entry.toNat)).rdb F.GRM_FAULT_FAULTED [q] = false ∧ ((s.wr F.GRM_PART_OPCODE [q, p] 3).wr F.GRM_PART_TAG [q, p] (ceTag entry.toNat)).gramOk q p 3 entry.toNat = true ∧ (gStaged 3 entry.toNat = false ∨ ((s.wr F.GRM_PART_OPCODE [q, p] 3).wr F.GRM_PART_TAG [q, p] (ceTag entry.toNat)).blockStaged p 3 entry.toNat = true)) ∧
    (let q : Nat := 0;
      let p : Nat := 1;
      let entry : BitVec 512 := gOrtho;
      let s : State := ringLab 2 gOrtho.toNat;
      (Instr.nsOrtho q p entry).wf = true ∧ s.engineOn q 2 = true ∧ s.ringCmd q p 2 4 entry.toNat = true ∧ s.rdb F.GRM_PART_STATE [q, p] = false ∧ ((s.wr F.GRM_PART_OPCODE [q, p] 4).wr F.GRM_PART_TAG [q, p] (ceTag entry.toNat)).rdb F.GRM_FAULT_FAULTED [q] = false ∧ ((s.wr F.GRM_PART_OPCODE [q, p] 4).wr F.GRM_PART_TAG [q, p] (ceTag entry.toNat)).gramOk q p 4 entry.toNat = true ∧ (gStaged 4 entry.toNat = false ∨ ((s.wr F.GRM_PART_OPCODE [q, p] 4).wr F.GRM_PART_TAG [q, p] (ceTag entry.toNat)).blockStaged p 4 entry.toNat = true)) ∧
    (let q : Nat := 0;
      let p : Nat := 1;
      let entry : BitVec 512 := gApply;
      let s : State := applyLab;
      (Instr.apply q p entry).wf = true ∧ s.engineOn q 2 = true ∧ s.ringCmd q p 2 5 entry.toNat = true ∧ s.rdb F.GRM_PART_STATE [q, p] = false ∧ ((s.wr F.GRM_PART_OPCODE [q, p] 5).wr F.GRM_PART_TAG [q, p] (ceTag entry.toNat)).rdb F.GRM_FAULT_FAULTED [q] = false ∧ ((s.wr F.GRM_PART_OPCODE [q, p] 5).wr F.GRM_PART_TAG [q, p] (ceTag entry.toNat)).gramOk q p 5 entry.toNat = true ∧ (gStaged 5 entry.toNat = false ∨ ((s.wr F.GRM_PART_OPCODE [q, p] 5).wr F.GRM_PART_TAG [q, p] (ceTag entry.toNat)).blockStaged p 5 entry.toNat = true)) ∧
    (let q : Nat := 0;
      let p : Nat := 1;
      let s : State := applyLab.w [(F.GRM_PART_STATE, [0, 1], 1), (V.GRM_ENTRY, [0, 1], gApply.toNat)];
      (Instr.gramWaitRelease q p).wf = true ∧ s.engineOn q 2 = true ∧ s.rd F.GRM_PART_STATE [q, p] = 1 ∧ s.rdb V.GRM_ABORT [q, p] = false ∧ s.rdb F.GRM_FAULT_FAULTED [q] = false ∧ s.blockStaged p (ceOpcode (s.rd V.GRM_ENTRY [q, p])) (s.rd V.GRM_ENTRY [q, p]) = true ∧ s.gramOk q p (ceOpcode (s.rd V.GRM_ENTRY [q, p])) (s.rd V.GRM_ENTRY [q, p]) = true) ∧
    (let q : Nat := 0;
      let p : Nat := 1;
      let s : State := (gramLab gMat).w [(V.INJ_KIND, [], 1), (V.INJ_DET, [], 13), (V.INJ_TARGET, [], 2)];
      (Instr.gramUnit q p).wf = true ∧ s.engineOn q 2 = true ∧ s.injEngine q 2 = true ∧ s.rdb F.GRM_FAULT_FAULTED [q] = false ∧ s.rd F.GRM_PART_STATE [q, p] = 2 ∧ (s.gramNext q p).isSome = true) ∧
    (let q : Nat := 0;
      let p : Nat := 1;
      let s : State := (gramLab (gAcc + 2 ^ 322)).w [(V.GRM_ABORT, [0, 1], 1)];
      let u : Nat × GPass × (Nat × Nat) × Nat := ((((gramLab (gAcc + 2 ^ 322)).gramNext 0 1).getD (0, gPass0, (0, 0), 0)));
      (Instr.gramUnit q p).wf = true ∧ s.engineOn q 2 = true ∧ s.injDet 0x0A q = false ∧ s.injEngine q 2 = false ∧ s.gramNext q p = some u ∧
      (let entry := s.rd V.GRM_ENTRY [q, p]
      let op := ceOpcode entry
      (gStaged op entry = true ∧ s.rdb V.GRM_ABORT [q, p] = true))) ∧
    (let q : Nat := 0;
      let p : Nat := 1;
      let s : State := gramLab gMat;
      let u : Nat × GPass × (Nat × Nat) × Nat := (0, gPass0, (0, 0), 0);
      (Instr.gramUnit q p).wf = true ∧ s.engineOn q 2 = true ∧ s.injDet 0x0A q = false ∧ s.injEngine q 2 = false ∧ s.gramNext q p = some u ∧
      (let entry := s.rd V.GRM_ENTRY [q, p]
      let op := ceOpcode entry
      (gStaged op entry = false ∨ s.rdb V.GRM_ABORT [q, p] = false) ∧ (((s.gAreas p op entry).any fun a => s.rangeLost p a.1 a.2) = false) ∧ s.unitGo q 6 p (s.gramCycles q p u) = true ∧
      (let t := (s.unitStart q 6 p (s.gramCycles q p u)).wr V.HBM_REQ [] (1 + 4 * 1 + q)
      let rs := t.unitSpans p op entry u.1 u.2.1 u.2.2.1 u.2.2.2
      ((rs.any fun a => t.readBad p a.1 a.2) = false)))) ∧
    (let q : Nat := 0;
      let p : Nat := 1;
      let s : State := lab.w [(F.GRM_PART_STATE, [0, 1], 2)];
      (Instr.gramProgressTimeout q p).wf = true ∧ s.quadOn q = true ∧ s.rdb F.GRM_FAULT_FAULTED [q] = false ∧ s.rd F.GRM_PART_STATE [q, p] = 2 ∧ s.injEngine q 2 = false) := by
  refine ⟨?_, ?_, ?_, ?_, ?_, ?_, ?_, ?_, ?_, ?_⟩ <;> decide +kernel

theorem witness_MittenCommandsComplete :
    (let pkt : Packet := pkMitNi;
      let s : State := lab;
      let e : CtxE := lab.img.ctxEntry 1 0;
      let r : RankEntry := lab.img.rankRaw 0 1 0;
      (Instr.mitMember pkt).wf = true ∧ s.unitOn (pkCtx pkt % 4) = true ∧ s.laneFirst (pkCtx pkt % 4) pkt = true ∧ pkPayUnits pkt = 1 ∧ serviceCause pkt = none ∧ s.ctxFor pkt = some e ∧ s.img.rankEntry (pkEpoch pkt) (pkPart pkt) (dstRank (pkSrc pkt)) = some r ∧ e.ni = true ∧ bitOf (s.img.memberSet (pkPart pkt) e.set) (dstRank (pkSrc pkt)) = true) ∧
    (let pkt : Packet := pkMitRow;
      let s : State := lab;
      let e : CtxE := lab.img.ctxEntry 1 1;
      (Instr.mitRow pkt).wf = true ∧ s.unitOn (pkCtx pkt % 4) = true ∧ s.laneFirst (pkCtx pkt % 4) pkt = true ∧ pkPayUnits pkt = 1 ∧ serviceCause pkt = none ∧ s.ctxFor pkt = some e ∧ e.pod = true ∧ pkSrcType pkt = 1 ∧ dstY (pkSrc pkt) = s.myY ∧ (s.rowPeers e).contains (dstX (pkSrc pkt)) = true) ∧
    (let pkt : Packet := pkMitCol;
      let s : State := lab;
      let e : CtxE := lab.img.ctxEntry 1 1;
      (Instr.mitColumn pkt).wf = true ∧ s.unitOn (pkCtx pkt % 4) = true ∧ s.laneFirst (pkCtx pkt % 4) pkt = true ∧ pkPayUnits pkt = 1 ∧ serviceCause pkt = none ∧ s.ctxFor pkt = some e ∧ e.pod = true ∧ pkSrcType pkt = 1 ∧ dstX (pkSrc pkt) = s.myX ∧ (s.colPeers e).contains (dstY (pkSrc pkt)) = true) ∧
    (let pkt : Packet := pkMitCour;
      let s : State := lab;
      let e : CtxE := lab.img.ctxEntry 1 2;
      (Instr.mitCourier pkt).wf = true ∧ s.unitOn (pkCtx pkt % 4) = true ∧ s.laneFirst (pkCtx pkt % 4) pkt = true ∧ pkPayUnits pkt = 1 ∧ serviceCause pkt = none ∧ s.ctxFor pkt = some e ∧ e.planes = true ∧ dstRank (pkSrc pkt) = e.courier0 ∧ pkSubject pkt < 18 ∧ pkSubject pkt ≠ s.myPlane ∧ s.roundGet (pkCtx pkt) (pkSeq pkt) = none) ∧
    (let c : Nat := 9;
      let seq : BitVec 32 := 0;
      let s : State := { lab with mit := [([9, 0], { round2 with st := 1 })] };
      let p : Nat := 1;
      let e : CtxE := lab.img.ctxEntry 1 1;
      let r : Round := { round2 with st := 1 };
      (Instr.mitRoundAbort c seq).wf = true ∧ s.unitOn (c % 4) = true ∧ s.img.ctx c = some (p, e) ∧ s.roundGet c seq.toNat = some r ∧ r.st = 1) ∧
    (let c : Nat := 9;
      let seq : BitVec 32 := 0;
      let s : State := { lab with mit := [([9, 0], { round2 with st := 1, pod := none, rack := some ⟨0, false, false⟩ })] };
      let p : Nat := 1;
      let e : CtxE := lab.img.ctxEntry 1 1;
      let r : Round := { round2 with st := 1, pod := none, rack := some ⟨0, false, false⟩ };
      let m : MVal := (⟨0, false, false⟩ : MVal);
      (Instr.mitPeerResend c seq).wf = true ∧ s.unitOn (c % 4) = true ∧ s.img.ctx c = some (p, e) ∧ s.roundGet c seq.toNat = some r ∧ r.st = 1 ∧ r.silent = false ∧ r.rack = some m ∧ r.row = none) ∧
    (let c : Nat := 9;
      let seq : BitVec 32 := 0;
      let s : State := { lab with mit := [([9, 0], { round2 with st := 1, pod := none, row := some ⟨0, false, false⟩ })] };
      let p : Nat := 1;
      let e : CtxE := lab.img.ctxEntry 1 1;
      let r : Round := { round2 with st := 1, pod := none, row := some ⟨0, false, false⟩ };
      let m : MVal := (⟨0, false, false⟩ : MVal);
      (Instr.mitPeerResend c seq).wf = true ∧ s.unitOn (c % 4) = true ∧ s.img.ctx c = some (p, e) ∧ s.roundGet c seq.toNat = some r ∧ r.st = 1 ∧ r.silent = false ∧ r.row = some m) ∧
    (let c : Nat := 10;
      let seq : BitVec 32 := 0;
      let s : State := { lab with mit := [([10, 0], { round2 with st := 1, inputs := [([5, 0], ⟨0, false, false⟩)] })] };
      let p : Nat := 1;
      let e : CtxE := lab.img.ctxEntry 1 2;
      let r : Round := { round2 with st := 1, inputs := [([5, 0], ⟨0, false, false⟩)] };
      let m : MVal := (⟨0, false, false⟩ : MVal);
      (Instr.mitCarryResend c seq).wf = true ∧ s.unitOn (c % 4) = true ∧ s.img.ctx c = some (p, e) ∧ s.roundGet c seq.toNat = some r ∧ SMap.find [5, 0] r.inputs = some m ∧ r.st = 1 ∧ ((e.planes && (List.range 18).any fun n => n != s.myPlane && (SMap.find [2, n] r.inputs).isNone) = true) ∧ r.silent = false) ∧
    (let c : Nat := 1023;
      let role : Nat := 1;
      let s : State := base;
      (Instr.mitRoleSet c role).wf = true ∧ s.barOn = true) ∧
    (let value : Nat := 1;
      let s : State := base;
      (Instr.noticeEnWrite value).wf = true ∧ s.barOn = true ∧ value ≠ 0) ∧
    (let s : State := base;
      (Instr.noticeEnWrite 0).wf = true ∧ s.barOn = true ∧ s.allClosed = true) ∧
    (let s : State := base.w [(F.COR_PORT_OPEN, [0, 0], 1)];
      (Instr.noticeEnWrite 0).wf = true ∧ s.barOn = true ∧ s.allClosed = false) ∧
    (let s : State := { base with notices := [⟨0, 0, pk0⟩] };
      let c : NoticeCopy := (⟨0, 0, pk0⟩ : NoticeCopy);
      let r : List NoticeCopy := ([] : List NoticeCopy);
      s.clocked = true ∧ s.notices = c :: r) := by
  refine ⟨?_, ?_, ?_, ?_, ?_, ?_, ?_, ?_, ?_, ?_, ?_, ?_, ?_⟩ <;> decide +kernel

theorem witness_HbmCommandsComplete :
    (let q : Nat := 0;
      let stack : Nat := 5;
      let s : State := base.w [(F.HBM_SCRUB_EN, [0], 1), (F.HBM_STACK_STATE, [0, 5], 2)];
      (Instr.patrolScrub q stack).wf = true ∧ s.quadOn q = true ∧ s.rdb F.HBM_SCRUB_EN [q] = true ∧ s.rd F.HBM_STACK_STATE [q, stack] = 2 ∧ s.rdb V.SCRUB_STOP [q] = false) ∧
    (let q : Nat := 0;
      let stack : Nat := 5;
      let channel : Nat := 15;
      let whole : Bool := false;
      let s : State := base;
      (Instr.hbmRetire q stack channel whole).wf = true ∧ s.quadOn q = true ∧ s.rd F.HBM_STACK_STATE [q, stack] ≠ 3 ∧ whole = false ∧ s.rd F.HBM_STACK_CH_RETIRED [q, stack] = 0) ∧
    (let q : Nat := 0;
      let stack : Nat := 5;
      let channel : Nat := 0;
      let whole : Bool := true;
      let s : State := base;
      (Instr.hbmRetire q stack channel whole).wf = true ∧ s.quadOn q = true ∧ s.rd F.HBM_STACK_STATE [q, stack] ≠ 3 ∧ whole = true) ∧
    (let q : Nat := 0;
      let value : BitVec 64 := 0x105;
      let s : State := base;
      (Instr.hbmRetireCmd q value).wf = true ∧ s.barQuad q = true ∧ bitOf value.toNat 8 = true ∧ bitsOf value.toNat 0 3 < 6) ∧
    (let q : Nat := 0;
      let ext : Nat := 63;
      let s : State := base.w [(F.HBM_EXTENT_REMAPPING, [0, 63], 1)];
      (Instr.spareRemapEnd q ext).wf = true ∧ s.quadOn q = true ∧ s.rdb F.HBM_EXTENT_REMAPPING [q, ext] = true) ∧
    (let q : Nat := 0;
      let stack : Nat := 5;
      let pc : Nat := 31;
      let req : Nat := 6;
      let s : State := base;
      (Instr.hbmLockTimeout q stack pc req).wf = true ∧ s.quadOn q = true ∧ (req = 6 ∨ req = 5) ∧ s.injDet 0x0C q = false) ∧
    (let q : Nat := 0;
      let value : BitVec 64 := 0xFFF;
      let s : State := base;
      (Instr.hbmInject q value).wf = true ∧ s.barQuad q = true ∧ bitOf value.toNat 38 = false) ∧
    (let q : Nat := 0;
      let value : BitVec 64 := (2 ^ 38);
      let s : State := base.w [(F.ERR_INJ_CTL_EN, [], 1)];
      (Instr.hbmInject q value).wf = true ∧ s.barQuad q = true ∧ bitOf value.toNat 38 = true ∧ bitsOf value.toNat 0 3 < 6 ∧ (s.hbmInjFields q value.toNat).injAllowed false ((s.hbmInjFields q value.toNat).injTargetPart q value.toNat) false = true) ∧
    (let q : Nat := 0;
      let pkt : Packet := pkPark;
      let s : State := { lab with svc := [([0, 45], [{ held0 with pkt := pkPark }])] };
      let h : Held := { held0 with pkt := pkPark };
      let ps : List (Loc × Nat) := (lab.parkTarget pkPark).getD [];
      (Instr.parkWrite q pkt).wf = true ∧ s.quadOn q = true ∧ pkOpcode pkt = 0x12 ∧ serviceCause pkt = none ∧ (((SMap.get s.svc [q, 45] []).find? (fun x => x.pkt == pkt)) = some h) ∧ s.parkTarget pkt = some ps ∧ s.rdb F.PRK_QUEUE_FAULTED [q] = false ∧ s.parkRoom q (pkPart pkt) = true) ∧
    (let q : Nat := 0;
      let pkt : Packet := pkPark;
      let s : State := smallLab;
      (Instr.parkWrite q pkt).wf = true ∧ s.quadOn q = true ∧ pkOpcode pkt = 0x12 ∧ serviceCause pkt = none ∧ s.parkTarget pkt = none) ∧
    (let q : Nat := 0;
      let pkt : Packet := pkPark;
      let s : State := parkFull;
      let ps : List (Loc × Nat) := (lab.parkTarget pkPark).getD [];
      (Instr.parkWrite q pkt).wf = true ∧ s.quadOn q = true ∧ pkOpcode pkt = 0x12 ∧ serviceCause pkt = none ∧ s.parkTarget pkt = some ps ∧ s.rdb F.PRK_QUEUE_FAULTED [q] = false ∧ s.parkRoom q (pkPart pkt) = false) ∧
    (let q : Nat := 0;
      let pkt : Packet := pkParkR;
      let s : State := { lab with svc := [([0, 45], [{ held0 with pkt := pkParkR }])] };
      let h : Held := { held0 with pkt := pkParkR };
      let ps : List (Loc × Nat) := (lab.parkTarget pkParkR).getD [];
      (Instr.parkRead q pkt).wf = true ∧ s.quadOn q = true ∧ pkOpcode pkt = 0x13 ∧ serviceCause pkt = none ∧ (((SMap.get s.svc [q, 45] []).find? (fun x => x.pkt == pkt)) = some h) ∧ s.parkTarget pkt = some ps ∧ s.rdb F.PRK_QUEUE_FAULTED [q] = false ∧ s.parkRoom q (pkPart pkt) = true) ∧
    (let q : Nat := 0;
      let pkt : Packet := pkParkR;
      let s : State := smallLab;
      (Instr.parkRead q pkt).wf = true ∧ s.quadOn q = true ∧ pkOpcode pkt = 0x13 ∧ serviceCause pkt = none ∧ s.parkTarget pkt = none) ∧
    (let q : Nat := 0;
      let pkt : Packet := pkParkR;
      let s : State := parkFull;
      let ps : List (Loc × Nat) := (lab.parkTarget pkParkR).getD [];
      (Instr.parkRead q pkt).wf = true ∧ s.quadOn q = true ∧ pkOpcode pkt = 0x13 ∧ serviceCause pkt = none ∧ s.parkTarget pkt = some ps ∧ s.rdb F.PRK_QUEUE_FAULTED [q] = false ∧ s.parkRoom q (pkPart pkt) = false) ∧
    (let q : Nat := 0;
      let p : Nat := 1;
      let s : State := parkLab;
      let k : Parked := parked0;
      (Instr.parkApply q p).wf = true ∧ s.engineOn q 4 = true ∧ ((s.parked q).find? (fun k => pkPart k.pkt == p) = some k) ∧ s.rdb F.PRK_QUEUE_FAULTED [q] = false ∧ s.unitGo q 8 p parkCycles = true) ∧
    (let q : Nat := 0;
      let s : State := parkLab;
      (Instr.parkServiceFault q).wf = true ∧ s.quadOn q = true ∧ (s.parked q).isEmpty = false ∧ s.rdb F.PRK_QUEUE_FAULTED [q] = false) := by
  refine ⟨?_, ?_, ?_, ?_, ?_, ?_, ?_, ?_, ?_, ?_, ?_, ?_, ?_, ?_, ?_, ?_⟩ <;> decide +kernel

theorem witness_MoverCommandsComplete :
    (let q : Nat := 0;
      let p : Nat := 1;
      let entry : BitVec 512 := (1 + 2 ^ 64);
      let s : State := ringLab 3 (1 + 2 ^ 64);
      (Instr.moverStart q p entry).wf = true ∧ s.engineOn q 3 = true ∧ s.ringCmd q p 3 1 entry.toNat = true ∧ bitsOf entry.toNat 64 2 ≠ 0 ∧ s.rdb F.MOV_STAT_FAULTED [q] = false ∧ s.rdb F.MOV_STAT_STOPPED [q] = false ∧ s.movSt q p (movChan entry.toNat) = 0) ∧
    (let q : Nat := 0;
      let p : Nat := 1;
      let c : Nat := 0;
      let entry : BitVec 512 := (2 + 2 ^ 64);
      let s : State := ringLab 3 (2 + 2 ^ 64);
      (Instr.moverPause q p c entry).wf = true ∧ s.quadOn q = true ∧ s.ringCmd q p 3 2 entry.toNat = true ∧ bitsOf entry.toNat 64 2 ≠ 0 ∧ movChan entry.toNat = c ∧ entry ≠ 0) ∧
    (let q : Nat := 0;
      let p : Nat := 1;
      let c : Nat := 2;
      let entry : BitVec 512 := 0;
      let s : State := base;
      (Instr.moverPause q p c entry).wf = true ∧ s.quadOn q = true ∧ entry = 0) ∧
    (let q : Nat := 0;
      let p : Nat := 1;
      let c : Nat := 0;
      let entry : BitVec 512 := (3 + 2 ^ 64);
      let s : State := ringLab 3 (3 + 2 ^ 64);
      (Instr.moverResume q p c entry).wf = true ∧ s.quadOn q = true ∧ s.ringCmd q p 3 3 entry.toNat = true ∧ bitsOf entry.toNat 64 2 ≠ 0 ∧ movChan entry.toNat = c ∧ entry ≠ 0) ∧
    (let q : Nat := 0;
      let p : Nat := 1;
      let c : Nat := 2;
      let entry : BitVec 512 := 0;
      let s : State := base;
      (Instr.moverResume q p c entry).wf = true ∧ s.quadOn q = true ∧ entry = 0) ∧
    (let q : Nat := 0;
      let p : Nat := 1;
      let c : Nat := 0;
      let entry : BitVec 512 := (4 + 2 ^ 64);
      let s : State := ringLab 3 (4 + 2 ^ 64);
      (Instr.moverAbort q p c entry).wf = true ∧ s.quadOn q = true ∧ s.ringCmd q p 3 4 entry.toNat = true ∧ bitsOf entry.toNat 64 2 ≠ 0 ∧ movChan entry.toNat = c ∧ entry ≠ 0) ∧
    (let q : Nat := 0;
      let p : Nat := 1;
      let c : Nat := 2;
      let entry : BitVec 512 := 0;
      let s : State := base;
      (Instr.moverAbort q p c entry).wf = true ∧ s.quadOn q = true ∧ entry = 0) ∧
    (let q : Nat := 0;
      let p : Nat := 1;
      let c : Nat := 2;
      let s : State := base.w [(F.MOV_CH_STAT_STATE, [0, 1, 2], 6)];
      (Instr.moverErrClear q p c).wf = true ∧ s.barQuad q = true ∧ s.movSt q p c = 6 ∧ s.raisedNow F.MOV_CH_CTL_ERR [q, p, c] = false) ∧
    (let q : Nat := 0;
      let p : Nat := 1;
      let c : Nat := 0;
      let host : List Byte := [];
      let s : State := movLent mvMove mvMove2;
      let a : Nat := mvMove;
      let b : Nat := mvMove2;
      (Instr.move q p c host).wf = true ∧ s.engineOn q 3 = true ∧ s.movAt q p c 1 = some (a, b) ∧ (bitsOf a 8 2 == 1) = false ∧ s.movIssue q p c = true) ∧
    (let q : Nat := 0;
      let p : Nat := 1;
      let c : Nat := 0;
      let s : State := movLent mvFill 0;
      let a : Nat := mvFill;
      let b : Nat := 0;
      let z : State := (((movLent mvFill 0).movUnit 0 1 0).runWrite 0 1 0 0x1000 (List.replicate 64 0)).getD base;
      (Instr.fill q p c).wf = true ∧ s.engineOn q 3 = true ∧ s.movAt q p c 2 = some (a, b) ∧ s.movIssue q p c = true ∧
      (let t := s.movUnit q p c
      let off := s.movOff q p c
      let n := bitsOf a 192 64
      let m := min 1024 (n - off)
      let d : Int := bitsOf a 64 64
      t.runStart p (bitsOf a 8 2) d off m n = true ∧ bitsOf a 8 2 ≠ 1 ∧ (t.runWrite q p (bitsOf a 8 2) (d + off) ((List.range (m / 8)).flatMap fun _ => leBytes 8 (bitsOf a 128 64)) = some z))) ∧
    (let q : Nat := 0;
      let p : Nat := 1;
      let c : Nat := 0;
      let host : List Byte := [];
      let s : State := movLent mvComp 0;
      let a : Nat := mvComp;
      let b : Nat := 0;
      let x : List Byte := List.replicate 64 0;
      let y : List Byte := List.replicate 64 0;
      (Instr.compare q p c host).wf = true ∧ s.engineOn q 3 = true ∧ s.movAt q p c 3 = some (a, b) ∧ s.movIssue q p c = true ∧ bitsOf a 8 2 ≠ 1 ∧ bitOf a 12 = true ∧
      (let t := s.movUnit q p c
      let off := s.movOff q p c
      let n := bitsOf a 192 64
      let m := min 1024 (n - off)
      let d : Int := bitsOf a 64 64
      t.runStart p (bitsOf a 8 2) d off m n = true ∧ t.runRead q p (bitsOf a 8 2) (d + off) m host = .ok x ∧ (y = (List.range (m / 8)).flatMap fun _ => leBytes 8 (bitsOf a 128 64)))) ∧
    (let q : Nat := 0;
      let p : Nat := 1;
      let c : Nat := 0;
      let host : List Byte := [];
      let s : State := movLent mvComp2 0;
      let a : Nat := mvComp2;
      let b : Nat := 0;
      let x : List Byte := List.replicate 64 0;
      let y : List Byte := List.replicate 64 0;
      (Instr.compare q p c host).wf = true ∧ s.engineOn q 3 = true ∧ s.movAt q p c 3 = some (a, b) ∧ s.movIssue q p c = true ∧ (bitsOf a 8 2 ≠ 1 ∧ bitsOf a 10 2 ≠ 1) ∧ bitOf a 12 = false ∧
      (let t := s.movUnit q p c
      let off := s.movOff q p c
      let n := bitsOf a 192 64
      let m := min 512 (n - off)
      let d : Int := bitsOf a 64 64
      let e : Int := bitsOf a 128 64
      (t.runStart p (bitsOf a 8 2) d off m n = true ∧ t.runStart p (bitsOf a 10 2) e off m n = true) ∧ t.runRead q p (bitsOf a 8 2) (d + off) m host = .ok x ∧ t.runRead q p (bitsOf a 10 2) (e + off) m host = .ok y)) ∧
    (let q : Nat := 0;
      let p : Nat := 1;
      let c : Nat := 0;
      let s : State := movLab 4 0;
      let a : Nat := 4;
      let b : Nat := 0;
      (Instr.wait q p c).wf = true ∧ s.engineOn q 3 = true ∧ s.movAt q p c 4 = some (a, b) ∧ s.waitMet q p a = true) ∧
    (let q : Nat := 0;
      let p : Nat := 1;
      let c : Nat := 0;
      let s : State := movLab (4 + 5 * 2 ^ 32) 0;
      let a : Nat := (4 + 5 * 2 ^ 32);
      let b : Nat := 0;
      (Instr.wait q p c).wf = true ∧ s.engineOn q 3 = true ∧ s.movAt q p c 4 = some (a, b) ∧ s.waitMet q p a = false) ∧
    (let q : Nat := 0;
      let p : Nat := 1;
      let c : Nat := 0;
      let s : State := (movLab 4 0).w [(F.MOV_CH_STAT_STATE, [0, 1, 0], 2)];
      (Instr.waitMet q p c).wf = true ∧ s.engineOn q 3 = true ∧ s.movSt q p c = 2 ∧ s.rdb F.MOV_STAT_STOPPED [q] = false ∧ (s.movInstr q p c).2.2 = 0 ∧ bitsOf (s.movInstr q p c).1 0 8 = 4 ∧ s.waitMet q p (s.movInstr q p c).1 = true) ∧
    (let q : Nat := 0;
      let p : Nat := 1;
      let c : Nat := 0;
      let s : State := movLab (5 + 2 ^ 32) 0;
      let a : Nat := (5 + 2 ^ 32);
      let b : Nat := 0;
      (Instr.signal q p c).wf = true ∧ s.engineOn q 3 = true ∧ s.movAt q p c 5 = some (a, b) ∧ bitsOf a 8 2 = 0) := by
  refine ⟨?_, ?_, ?_, ?_, ?_, ?_, ?_, ?_, ?_, ?_, ?_, ?_, ?_, ?_, ?_, ?_⟩ <;> decide +kernel

theorem witness_MoverCommandsComplete_2 :
    (let q : Nat := 0;
      let p : Nat := 1;
      let c : Nat := 0;
      let s : State := movLab (5 + 2 ^ 8) 0;
      let a : Nat := (5 + 2 ^ 8);
      let b : Nat := 0;
      (Instr.signal q p c).wf = true ∧ s.engineOn q 3 = true ∧ s.movAt q p c 5 = some (a, b) ∧ bitsOf a 8 2 = 1) ∧
    (let q : Nat := 0;
      let p : Nat := 1;
      let c : Nat := 0;
      let s : State := movLab (5 + 2 ^ 9) 0;
      let a : Nat := (5 + 2 ^ 9);
      let b : Nat := 0;
      (Instr.signal q p c).wf = true ∧ s.engineOn q 3 = true ∧ s.movAt q p c 5 = some (a, b) ∧ bitsOf a 8 2 = 2) ∧
    (let q : Nat := 0;
      let p : Nat := 1;
      let c : Nat := 0;
      let s : State := movLab 6 0;
      let a : Nat := 6;
      let b : Nat := 0;
      (Instr.link q p c).wf = true ∧ s.engineOn q 3 = true ∧ s.movAt q p c 6 = some (a, b)) ∧
    (let q : Nat := 0;
      let p : Nat := 1;
      let c : Nat := 0;
      let s : State := movLab 7 0;
      let a : Nat := 7;
      let b : Nat := 0;
      (Instr.end_ q p c).wf = true ∧ s.engineOn q 3 = true ∧ s.movAt q p c 7 = some (a, b)) ∧
    (let q : Nat := 0;
      let p : Nat := 1;
      let c : Nat := 0;
      let s : State := base.w [(F.MOV_CH_STAT_STATE, [0, 1, 0], 3), (V.MOV_DROP, [0, 1, 0], 1)];
      (Instr.pauseDrainEnd q p c).wf = true ∧ s.quadOn q = true ∧ s.movSt q p c = 3 ∧ s.rdb F.MOV_STAT_STOPPED [q] = false ∧ s.rdb V.MOV_DROP [q, p, c] = true) ∧
    (let q : Nat := 0;
      let p : Nat := 1;
      let c : Nat := 0;
      let s : State := base.w [(F.MOV_CH_STAT_STATE, [0, 1, 0], 3)];
      (Instr.pauseDrainEnd q p c).wf = true ∧ s.quadOn q = true ∧ s.movSt q p c = 3 ∧ s.rdb F.MOV_STAT_STOPPED [q] = false ∧ s.rdb V.MOV_DROP [q, p, c] = false ∧ ((s.setMov q p c 4).movSettle q p c).rdb F.MOV_CH_STAT_BUSY [q, p, c] = false) ∧
    (let q : Nat := 0;
      let p : Nat := 1;
      let c : Nat := 0;
      let s : State := base.w [(F.MOV_CH_STAT_STATE, [0, 1, 0], 5)];
      (Instr.moverRecordWrite q p c).wf = true ∧ s.quadOn q = true ∧ s.movSt q p c = 5 ∧ (s.rd F.MOV_CQ_PTR_PROD [q, p, c] + 2 ^ 32 - s.rd F.MOV_CQ_PTR_CONS [q, p, c]) % 2 ^ 32 < 2 ^ s.rd F.MOV_CQ_CTL_LOG2SIZE [q, p, c]) ∧
    (let q : Nat := 0;
      let cause : Nat := 5;
      let s : State := base;
      (Instr.moverBusError q cause).wf = true ∧ s.quadOn q = true ∧ (s.rdb F.MOV_STAT_STOPPED [q] = false ∧ s.rdb F.MOV_STAT_FAULTED [q] = false)) ∧
    (let q : Nat := 3;
      let s : State := base;
      (Instr.moverBeatTimeout q).wf = true ∧ s.quadOn q = true) ∧
    (let q : Nat := 0;
      let s : State := base.w [(F.MOV_STAT_STOPPED, [0], 1)];
      (Instr.moverRestart q).wf = true ∧ s.quadOn q = true ∧ s.rdb F.MOV_STAT_STOPPED [q] = true ∧ s.rdb F.MOV_STAT_FAULTED [q] = false ∧ s.injDet 0x0B q = false ∧ s.rd V.MOV_RESTART [q] = 0) ∧
    (let q : Nat := 0;
      let s : State := base.w [(F.MOV_STAT_STOPPED, [0], 1), (V.MOV_RESTART, [0], 1)];
      (Instr.moverRestart q).wf = true ∧ s.quadOn q = true ∧ s.rdb F.MOV_STAT_STOPPED [q] = true ∧ s.rdb F.MOV_STAT_FAULTED [q] = false ∧ s.rd V.MOV_RESTART [q] ≠ 0 ∧ s.pagerPending q = 0) ∧
    (let q : Nat := 3;
      let p : Nat := 31;
      let n : Nat := 15;
      let value : BitVec 32 := 0xFFFFFFFF;
      let s : State := base;
      (Instr.eventCounterWrite q p n value).wf = true ∧ s.barQuad q = true) := by
  refine ⟨?_, ?_, ?_, ?_, ?_, ?_, ?_, ?_, ?_, ?_, ?_, ?_⟩ <;> decide +kernel

theorem witness_TrayCommandsComplete :
    (let codes : List Nat := (List.replicate 160 0);
      let temps : List Nat := (List.replicate 64 0);
      let rpms : List Nat := (List.replicate 8 0);
      let s : State := yof;
      (Instr.adcWindow codes temps rpms).wf = true ∧ s.hatOn = true ∧ s.yofRuns = true) ∧
    (let n : Nat := 1;
      let s : State := yofOwner;
      (Instr.tachLost n).wf = true ∧ s.hatOn = true ∧ s.tachDriven n = true ∧ s.rdb F.TRY_TACH_LOST [n] = false ∧ s.yofRuns = true ∧ n < 2) ∧
    (let n : Nat := 7;
      let s : State := yofOwner;
      (Instr.tachLost n).wf = true ∧ s.hatOn = true ∧ s.tachDriven n = true ∧ s.rdb F.TRY_TACH_LOST [n] = false ∧ s.yofRuns = true ∧ 2 ≤ n) ∧
    (let applied : List Nat := (List.replicate 8 0);
      let peerLive : Bool := true;
      let s : State := yof;
      (Instr.trayStep applied peerLive).wf = true ∧ s.hatOn = true ∧ s.yofRuns = true) ∧
    (let s : State := yof;
      s.hatOn = true ∧ s.yofRuns = true) ∧
    (let s : State := base;
      s.hatOn = true ∧ True) ∧
    (let s : State := base.w [(F.TRY_ALERT_ASSERTED, [], 1)];
      s.hatOn = true ∧ s.rdb F.TRY_ALERT_ASSERTED [] = true) ∧
    (let value : BitVec 64 := (2 ^ 37);
      let s : State := base;
      (Instr.accGo value).wf = true ∧ s.barOn = true ∧ bitOf value.toNat 37 = true ∧ (s.wr F.TRY_ALERT_ACC_LEVEL [] (bitsOf value.toNat 29 8)).rdb F.TRY_ALERT_ASSERTED [] = false) ∧
    (let s : State := yof;
      s.hatOn = true ∧ s.yofRuns = true ∧ ((s.rd V.INJ_KIND [] = 1 ∧ s.rd V.INJ_DET [] = 0x12) = False)) ∧
    (let s : State := yof;
      s.hatOn = true ∧ s.yofRuns = true) ∧
    (let long : Bool := true;
      let s : State := yof;
      (Instr.trayClaim long).wf = true ∧ s.hatOn = true ∧ (s.wr F.TRY_OWN_PEER_LIVE [] 0).yofRuns = true ∧ (s.wr F.TRY_OWN_PEER_LIVE [] 0).rd F.TRY_OWN_ROLE [] < 2 ∧ ((s.wr F.TRY_OWN_PEER_LIVE [] 0).rdb F.TRY_OWN_PLAUS_OK [] || long) = true) ∧
    (let s : State := yofOwner.w [(F.TRY_OWN_SLOT, [], 1)];
      s.hatOn = true ∧ (s.wr F.TRY_OWN_PEER_LIVE [] 1).rd F.TRY_OWN_ROLE [] = 2 ∧ (s.wr F.TRY_OWN_PEER_LIVE [] 1).rd F.TRY_OWN_SLOT [] = 1) ∧
    (let heard : List Nat := (List.replicate 7 0);
      let s : State := yofOwner;
      (Instr.ownerPublish heard).wf = true ∧ s.hatOn = true ∧ s.yofRuns = true ∧ s.rd F.TRY_OWN_ROLE [] = 2) ∧
    (let s : State := yofOwner;
      s.hatOn = true ∧ s.yofRuns = true ∧ s.rdb F.TRY_OWN_CONTEST [] = false ∧ s.rd F.TRY_OWN_ROLE [] = 2) ∧
    (let peerPass : Bool := true;
      let s : State := yofOwner.w [(F.TRY_OWN_CONTEST, [], 1), (F.TRY_OWN_PLAUS_OK, [], 0)];
      (Instr.contestResolve peerPass).wf = true ∧ s.hatOn = true ∧ s.rdb F.TRY_OWN_CONTEST [] = true ∧ s.yofRuns = true ∧ s.rdb F.TRY_OWN_PLAUS_OK [] = false ∧ peerPass = true) ∧
    (let s : State := yof.w [(F.TRY_OWN_ROLE, [], 3), (F.TRY_OWN_PLAUS_OK, [], 1)];
      s.hatOn = true ∧ s.yofRuns = true ∧ s.rd F.TRY_OWN_ROLE [] = 3 ∧ s.rdb F.TRY_OWN_PLAUS_OK [] = true) := by
  refine ⟨?_, ?_, ?_, ?_, ?_, ?_, ?_, ?_, ?_, ?_, ?_, ?_, ?_, ?_, ?_, ?_⟩ <;> decide +kernel

theorem witness_TrayCommandsComplete_2 :
    (let s : State := yof.w [(F.TRY_OWN_ROLE, [], 1), (V.INTEG_LOADED, [], 1)];
      s.hatOn = true ∧ s.yofRuns = true ∧ s.rd F.TRY_OWN_ROLE [] = 1 ∧ s.rdb V.INTEG_LOADED [] = true ∧ s.anyDiffers = false) ∧
    (let s : State := yofOwner;
      s.barOn = true ∧ s.rd F.TRY_OWN_ROLE [] = 2) ∧
    (let s : State := yofOwner;
      s.hatOn = true ∧ s.yofRuns = true ∧ s.rd F.TRY_OWN_ROLE [] = 2) ∧
    (let m : Nat := 0;
      let s : State := base;
      (Instr.managerHeartbeat m).wf = true ∧ s.hatOn = true ∧ m = 0) ∧
    (let m : Nat := 1;
      let s : State := base;
      (Instr.managerHeartbeat m).wf = true ∧ s.hatOn = true ∧ m = 1) ∧
    (let m : Nat := 0;
      let s : State := base.w [(F.TRY_STAGE_MGR_A, [], 1)];
      (Instr.managerLost m).wf = true ∧ s.hatOn = true ∧ m = 0 ∧ s.rdb F.TRY_STAGE_MGR_A [] = true) ∧
    (let m : Nat := 1;
      let s : State := base.w [(F.TRY_STAGE_MGR_B, [], 1)];
      (Instr.managerLost m).wf = true ∧ s.hatOn = true ∧ m = 1 ∧ s.rdb F.TRY_STAGE_MGR_B [] = true) ∧
    (let s : State := base;
      s.hatOn = true ∧ s.rdb F.TRY_STAGE_MGR_A [] = false ∧ s.rdb F.TRY_STAGE_MGR_B [] = false) ∧
    (let s : State := yofOwner.w [(F.TRY_TACH_LOST, [0], 1)];
      s.hatOn = true ∧ s.yofRuns = true ∧ s.rd F.TRY_STAGE_PUMP [] = 0 ∧ (s.pumpLost || s.flowLow) = true) ∧
    (let s : State := yofOwner.w [(F.TRY_STAGE_PUMP, [], 1)];
      s.hatOn = true ∧ s.yofRuns = true ∧ s.rd F.TRY_STAGE_PUMP [] < 2 ∧ (s.tjAtLeast (s.sense 424 1) || (s.rd F.TRY_STAGE_PUMP [] == 1 && s.flowLow)) = true) ∧
    (let s : State := yofOwner.w [(F.TRY_STAGE_PUMP, [], 2)];
      s.hatOn = true ∧ s.yofRuns = true ∧ s.rd F.TRY_STAGE_PUMP [] < 3 ∧ s.tjAtLeast (s.sense 425 1) = true ∧ (s.pumpRecord 3).rdb F.HAT_PSTATE_BUSY [] = false ∧ (s.pumpRecord 3).clocked = true) ∧
    (let s : State := yof;
      s.hatOn = true ∧ s.yofRuns = true ∧ s.pumpLost = false ∧ s.flowLow = false) ∧
    (let s : State := base;
      s.hatOn = true) ∧
    (let value : BitVec 64 := 0x90;
      let s : State := base.w [(F.ERR_INJ_CTL_EN, [], 1)];
      (Instr.trayInject value).wf = true ∧ s.barOn = true ∧ bitOf value.toNat 7 = true ∧ ((s.wr F.TRY_INJ_CHANNEL [] (bitsOf value.toNat 0 4)).wr F.TRY_INJ_KIND [] (bitsOf value.toNat 4 3)).injAllowed false 0 false = true ∧ bitsOf value.toNat 4 3 = 1) ∧
    (let value : BitVec 64 := 0xA0;
      let s : State := base.w [(F.ERR_INJ_CTL_EN, [], 1)];
      (Instr.trayInject value).wf = true ∧ s.barOn = true ∧ bitOf value.toNat 7 = true ∧ ((s.wr F.TRY_INJ_CHANNEL [] (bitsOf value.toNat 0 4)).wr F.TRY_INJ_KIND [] (bitsOf value.toNat 4 3)).injAllowed false 0 false = true ∧ bitsOf value.toNat 4 3 = 2) ∧
    (let value : BitVec 64 := 0xB0;
      let s : State := base.w [(F.ERR_INJ_CTL_EN, [], 1)];
      (Instr.trayInject value).wf = true ∧ s.barOn = true ∧ bitOf value.toNat 7 = true ∧ ((s.wr F.TRY_INJ_CHANNEL [] (bitsOf value.toNat 0 4)).wr F.TRY_INJ_KIND [] (bitsOf value.toNat 4 3)).injAllowed false 0 true = true ∧ bitsOf value.toNat 4 3 = 3) := by
  refine ⟨?_, ?_, ?_, ?_, ?_, ?_, ?_, ?_, ?_, ?_, ?_, ?_, ?_, ?_, ?_, ?_⟩ <;> decide +kernel

theorem witness_TrayCommandsComplete_3 :
    (let s : State := base.w [(F.HAT_YOF_RESETTING, [], 1)];
      s.hatOn = true ∧ s.rdb F.HAT_YOF_RESETTING [] = true) := by
  decide +kernel

theorem witness_CartCommandsComplete :
    (let c : Nat := 0;
      let s : State := cartLab 0;
      (Instr.cartInsert c).wf = true ∧ s.hatOn = true ∧ (s.wr F.TRY_CART_PRESENT [c] 1).cartActs c = true ∧ (s.wr F.TRY_CART_PRESENT [c] 1).cart c = 0 ∧ (s.wr F.TRY_CART_PRESENT [c] 1).rdb F.TRY_CART_CUFF [c] = false) ∧
    (let c : Nat := 7;
      let s : State := cartLab 0;
      (Instr.cartPresenceLost c).wf = true ∧ s.hatOn = true ∧ ((s.wr F.TRY_CART_PRESENT [c] 0).wr V.CART_LATCH [c] 0).ownCart c = false) ∧
    (let c : Nat := 0;
      let s : State := cartLab 2;
      (Instr.cartPresenceLost c).wf = true ∧ s.hatOn = true ∧ ((s.wr F.TRY_CART_PRESENT [c] 0).wr V.CART_LATCH [c] 0).ownCart c = true ∧ (((List.range 40).foldl (fun t k => t.linkDown (c % 4) k 2) ((s.wr F.TRY_CART_PRESENT [c] 0).wr V.CART_LATCH [c] 0)).rdb V.GASP [] = false) ∧ s.cart c = 2) ∧
    (let c : Nat := 0;
      let high : Bool := true;
      let s : State := cartLab 2;
      (Instr.cartTouch c high).wf = true ∧ s.hatOn = true ∧ (s.wr F.TRY_CART_TOUCH [c] 1).cartActs c = true ∧ high = true ∧ s.rdb F.TRY_CART_TOUCH [c] = false ∧ (s.wr F.TRY_CART_TOUCH [c] 1).cart c = 2) ∧
    (let c : Nat := 0;
      let high : Bool := false;
      let s : State := cartLab 2;
      (Instr.cartTouch c high).wf = true ∧ s.hatOn = true ∧ high = false) ∧
    (let c : Nat := 0;
      let s : State := cartLab 2;
      (Instr.cartCuffOpen c).wf = true ∧ s.hatOn = true) ∧
    (let c : Nat := 0;
      let s : State := cartLab 3;
      (Instr.preDrainCancel c).wf = true ∧ s.hatOn = true ∧ (s.wr F.TRY_CART_TOUCH [c] 0).cartActs c = true ∧ (s.wr F.TRY_CART_TOUCH [c] 0).cart c = 3 ∧ (s.wr F.TRY_CART_TOUCH [c] 0).rdb F.TRY_CART_CUFF [c] = false) ∧
    (let c : Nat := 0;
      let down : Bool := true;
      let s : State := cartLab 2;
      (Instr.cartButton c down).wf = true ∧ s.hatOn = true ∧ (s.wr F.TRY_CART_BTN [c] 1).cartActs c = true ∧ down = true ∧ s.rdb F.TRY_CART_BTN [c] = false ∧ (s.wr F.TRY_CART_BTN [c] 1).cartOtherBusy c = false ∧ s.cart c = 2) ∧
    (let c : Nat := 0;
      let down : Bool := false;
      let s : State := (cartLab 7).w [(F.TRY_CART_BTN, [0], 1)];
      (Instr.cartButton c down).wf = true ∧ s.hatOn = true ∧ (s.wr F.TRY_CART_BTN [c] 0).cartActs c = true ∧ down = false ∧ s.rdb F.TRY_CART_BTN [c] = true ∧ (s.wr F.TRY_CART_BTN [c] 0).rdb V.CART_HELD [c] = false) ∧
    (let c : Nat := 0;
      let s : State := cartLab 2;
      (Instr.cartButtonHold c).wf = true ∧ s.hatOn = true) ∧
    (let s : State := base;
      s.hatOn = true) ∧
    (let s : State := base;
      s.hatOn = true) ∧
    (let c : Nat := 0;
      let s : State := cartLab 3;
      (Instr.cartDrain c).wf = true ∧ s.barOn = true ∧ s.cartActs c = true ∧ s.cartOtherBusy c = false ∧ ((s.wr V.CART_LATCH [c] 0).cart c = 2 ∨ (s.wr V.CART_LATCH [c] 0).cart c = 3)) ∧
    (let c : Nat := 0;
      let s : State := cartLab 2;
      (Instr.cartForce c).wf = true ∧ s.barOn = true ∧ s.cartActs c = true) ∧
    (let c : Nat := 0;
      let s : State := cartLab 7;
      (Instr.cartRejoin c).wf = true ∧ s.barOn = true ∧ s.cartActs c = true) ∧
    (let c : Nat := 0;
      let s : State := cartLab 4;
      (Instr.cartDrainComplete c).wf = true ∧ s.hatOn = true ∧ s.cartActs c = true ∧ s.cart c = 4 ∧ s.cartDrained c = true) := by
  refine ⟨?_, ?_, ?_, ?_, ?_, ?_, ?_, ?_, ?_, ?_, ?_, ?_, ?_, ?_, ?_, ?_⟩ <;> decide +kernel

theorem witness_CartCommandsComplete_2 :
    (let c : Nat := 0;
      let s : State := (cartLab 4).w [(V.GASP, [], 1)];
      (Instr.cartDrainTimeout c).wf = true ∧ s.hatOn = true ∧ s.cart c = 4 ∧ (s.cartActs c && s.cartDrained c) = false) ∧
    (let c : Nat := 0;
      let s : State := cartLab 4;
      (Instr.cartDrainTimeout c).wf = true ∧ s.hatOn = true ∧ s.cart c = 4 ∧ s.cartActs c = true ∧ s.cartDrained c = true) ∧
    (let c : Nat := 0;
      let s : State := cartLab 5;
      (Instr.cartForceStop c).wf = true ∧ s.hatOn = true ∧ s.cartActs c = true ∧ s.cart c = 5) ∧
    (let c : Nat := 0;
      let s : State := cartLab 6;
      (Instr.cartSafe c).wf = true ∧ s.hatOn = true ∧ s.cartActs c = true ∧ s.cart c = 6 ∧ (((List.range 40).all fun k => s.lnkState (c % 4) k == 0 && !s.rdb F.COR_PORT_FLUSHING [c % 4, k]) = true) ∧ s.rdb V.CART_LATCH [c] = false) ∧
    (let c : Nat := 0;
      let s : State := (cartLab 1).w [(F.LNK_PORT_STAT_STATE, [0, 0], 4)];
      (Instr.cartInService c).wf = true ∧ s.hatOn = true ∧ s.cartActs c = true ∧ s.cart c = 1 ∧ (((List.range 40).all fun k => !s.portPresent (c % 4) k || s.lnkState (c % 4) k == 4 || (s.lnkState (c % 4) k == 0 && s.rd F.LNK_PORT_STAT_DOWN_CAUSE [c % 4, k] == 4)) = true)) ∧
    (let s : State := base;
      s.hatOn = true ∧ s.rdb V.GASP [] = false ∧ s.rd F.HAT_PSTATE_STATE [] < 3) ∧
    (let c : Nat := 0;
      let s : State := (cartLab 0).w [(F.TRY_CART_PRESENT, [0], 1)];
      (Instr.cartLatchClose c).wf = true ∧ s.hatOn = true ∧ (s.wr F.TRY_CART_CUFF [c] 0).cartActs c = true ∧ (s.wr F.TRY_CART_CUFF [c] 0).cart c = 0 ∧ (s.wr F.TRY_CART_CUFF [c] 0).rdb F.TRY_CART_PRESENT [c] = true) := by
  refine ⟨?_, ?_, ?_, ?_, ?_, ?_, ?_⟩ <;> decide +kernel

theorem witness_PowerCommandsComplete :
    (let s : State := base.w [(V.GASP, [], 1)];
      s.hatOn = true ∧ s.rdb V.GASP [] = true) ∧
    (let s : State := State.reset.w [(V.VIN_P3, [], 1)];
      s.hatOn = true ∧ s.rdb V.VIN_P3 [] = true ∧ s.pstate = 3 ∧ s.rdb V.THERM [] = false) ∧
    (let s : State := base.w [(V.BOOTING, [], 1), (F.HAT_BOOT_STEP, [], 4)];
      s.hatOn = true ∧ s.rdb V.BOOTING [] = true ∧ s.rd F.HAT_BOOT_STEP [] = 4) ∧
    (let s : State := base;
      s.hatOn = true) ∧
    (let target : Nat := 1;
      let s : State := State.reset.w [(V.BOOTING, [], 0)];
      (Instr.powerRequest target).wf = true ∧ s.hatOn = true ∧ s.rdb V.MRESET [] = false ∧ s.rdb F.HAT_PSTATE_BUSY [] = false ∧ s.pstate = 3 ∧ target < 2 ∧ s.rdb V.THERM [] = false ∧ s.rdb V.BOOTING [] = false) ∧
    (let target : Nat := 0;
      let s : State := base.w [(F.HAT_PSTATE_STATE, [], 2)];
      (Instr.powerRequest target).wf = true ∧ s.hatOn = true ∧ s.rdb V.MRESET [] = false ∧ s.rdb F.HAT_PSTATE_BUSY [] = false ∧ s.pstate = 2 ∧ target < 2 ∧ s.rd F.TRY_STAGE_PUMP [] ≠ 3) ∧
    (let target : Nat := 1;
      let s : State := base;
      (Instr.powerRequest target).wf = true ∧ s.hatOn = true ∧ s.rdb V.MRESET [] = false ∧ s.rdb F.HAT_PSTATE_BUSY [] = false ∧ s.pstate = 0 ∧ target = 1 ∧ s.rd F.TRY_STAGE_PUMP [] ≠ 3) ∧
    (let target : Nat := 3;
      let s : State := base;
      (Instr.powerRequest target).wf = true ∧ s.hatOn = true ∧ s.rdb V.MRESET [] = false ∧ s.rdb F.HAT_PSTATE_BUSY [] = false ∧ (s.pstate = 0 ∨ s.pstate = 1) ∧ (target = 2 ∨ target = 3)) ∧
    (let expired : Bool := false;
      let s : State := base.w [(F.HAT_PSTATE_BUSY, [], 1)];
      (Instr.p2QuietEnd expired).wf = true ∧ s.hatOn = true ∧ s.rdb F.HAT_PSTATE_BUSY [] = true ∧ s.clocked = true ∧ (((List.range 32).all fun p => p == 0 || !s.img.brimValid p || s.quietPoint p) = true)) ∧
    (let expired : Bool := true;
      let s : State := lab.w [(F.HAT_PSTATE_BUSY, [], 1), (F.UPD_PART_STEP_STATE, [1], 1)];
      (Instr.p2QuietEnd expired).wf = true ∧ s.hatOn = true ∧ s.rdb F.HAT_PSTATE_BUSY [] = true ∧ s.clocked = true ∧ (((List.range 32).all fun p => p == 0 || !s.img.brimValid p || s.quietPoint p) = false) ∧ expired = true) ∧
    (let s : State := base.w [(F.HAT_PSTATE_STATE, [], 2), (V.YOF_ON, [], 1)];
      s.hatOn = true ∧ s.pstate = 2 ∧ s.rdb V.YOF_ON [] = true) ∧
    (let q : Nat := 0;
      let e : Nat := 4;
      let s : State := (base.i 10 4 0 16 [1]).w [(F.HAT_PSTATE_STATE, [], 1)];
      (Instr.engineGate q e).wf = true ∧ s.quadOn q = true ∧ s.pstate = 1 ∧ s.img.le 0x0A 4 0 (8 + 2 * e) 2 ≠ 0 ∧ s.warmHeld q e = false ∧ s.engineIdle q e = true) ∧
    (let q : Nat := 0;
      let e : Nat := 4;
      let s : State := base.w [(F.HAT_GATE_GATED, [0], 16)];
      (Instr.engineWake q e).wf = true ∧ s.quadOn q = true ∧ bitOf (s.rd F.HAT_GATE_GATED [q]) e = true ∧ s.clocked = true) ∧
    (let q : Nat := 3;
      let e : Nat := 4;
      let p : Nat := 31;
      let s : State := base;
      (Instr.warmHoldEnd q e p).wf = true ∧ s.clocked = true) ∧
    (let s : State := base.w [(F.HAT_CLK_REF_OK, [], 1)];
      s.hatOn = true ∧ s.rdb F.HAT_CLK_REF_OK [] = true) ∧
    (let s : State := base.w [(F.HAT_CLK_REF_OK, [], 0)];
      s.hatOn = true ∧ s.rdb F.HAT_CLK_REF_OK [] = false) := by
  refine ⟨?_, ?_, ?_, ?_, ?_, ?_, ?_, ?_, ?_, ?_, ?_, ?_, ?_, ?_, ?_, ?_⟩ <;> decide +kernel

theorem witness_PowerCommandsComplete_2 :
    (let s : State := base.w [(F.HAT_CLK_REF_OK, [], 0)];
      s.hatOn = true ∧ s.rdb F.HAT_CLK_REF_OK [] = false ∧ s.pstate ≠ 3 ∧ s.rdb F.HAT_PSTATE_BUSY [] = false) ∧
    (let s : State := base.w [(F.HAT_CLK_REF_OK, [], 1)];
      s.hatOn = true ∧ s.rdb F.HAT_CLK_REF_OK [] = true) ∧
    (let s : State := base;
      s.hatOn = true ∧ s.pstate ≠ 3) ∧
    (let cool : Bool := false;
      let s : State := base;
      (Instr.moduleReset cool).wf = true ∧ s.hatOn = true ∧ s.rdb V.MRESET [] = false ∧ s.rdb V.GASP [] = false ∧ cool = false) ∧
    (let cool : Bool := true;
      let s : State := base;
      (Instr.moduleReset cool).wf = true ∧ s.hatOn = true ∧ s.rdb V.MRESET [] = false ∧ s.rdb V.GASP [] = false ∧ cool = true) ∧
    (let q : Nat := 3;
      let s : State := base;
      (Instr.quadrantReset q).wf = true ∧ s.barOn = true ∧ s.quadUp q = true) ∧
    (let p : Nat := 31;
      let flr : Bool := true;
      let s : State := base;
      (Instr.partitionReset p flr).wf = true ∧ s.barOn = true ∧ flr = true ∧ p ≠ 0) ∧
    (let p : Nat := 0;
      let flr : Bool := false;
      let s : State := base;
      (Instr.partitionReset p flr).wf = true ∧ s.barOn = true ∧ flr = false) ∧
    (let ok : Bool := true;
      let failed : List Nat := [];
      let s : State := State.reset.w [(V.BOOTING, [], 1), (F.HAT_BOOT_STEP, [], 4)];
      (Instr.startupStepComplete ok failed).wf = true ∧ s.hatOn = true ∧ s.rdb V.BOOTING [] = true ∧ s.rdb V.MRESET [] = false ∧ s.rd F.HAT_BOOT_STEP [] = 4 ∧ ok = true) ∧
    (let ok : Bool := true;
      let failed : List Nat := [];
      let s : State := State.reset.w [(V.BOOTING, [], 1), (F.HAT_BOOT_STEP, [], 6)];
      (Instr.startupStepComplete ok failed).wf = true ∧ s.hatOn = true ∧ s.rdb V.BOOTING [] = true ∧ s.rdb V.MRESET [] = false ∧ s.rd F.HAT_BOOT_STEP [] = 6 ∧ ok = true) ∧
    (let s : State := base.w [(F.HAT_BOOT_STEP, [], 11)];
      s.barOn = true ∧ s.clocked = true ∧ s.allClosed = true ∧ s.rdb F.HAT_LOADTEST_ACTIVE [] = false ∧ 10 ≤ s.rd F.HAT_BOOT_STEP []) ∧
    (let crcOk : Bool := false;
      let s : State := base.w [(F.HAT_LOADTEST_ACTIVE, [], 1)];
      (Instr.loadtestPhaseEnd crcOk).wf = true ∧ s.clocked = true ∧ s.rdb F.HAT_LOADTEST_ACTIVE [] = true ∧ crcOk = false) ∧
    (let crcOk : Bool := true;
      let s : State := loadLab;
      (Instr.loadtestPhaseEnd crcOk).wf = true ∧ s.clocked = true ∧ s.rdb F.HAT_LOADTEST_ACTIVE [] = true ∧ (crcOk && !s.rdb V.LT_BAD [] && !exLt s.effCap.2 s.powerP && !s.tjAtLeast (s.sense 424 1)) = true ∧ s.rd F.HAT_LOADTEST_PHASE [] + 1 < s.img.le 0x0A 4 0 22 1) ∧
    (let q : Nat := 0;
      let s : State := base.w [(V.QRESET, [0], 1)];
      (Instr.quadrantResetEnd q).wf = true ∧ s.barOn = true ∧ s.rdb V.QRESET [q] = true ∧ (s.wr V.QRESET [q] 0).rdb V.QUIESCE [q] = false) ∧
    (let s : State := base.w [(V.MRESET, [], 1)];
      s.hatOn = true ∧ s.rdb V.MRESET [] = true ∧ (s.wr V.MRESET [] 0).rdb V.THERM [] = false) ∧
    (let ns : BitVec 64 := 5;
      let s : State := yof;
      (Instr.ieee1588Time ns).wf = true ∧ s.hatOn = true ∧ s.yofRuns = true) := by
  refine ⟨?_, ?_, ?_, ?_, ?_, ?_, ?_, ?_, ?_, ?_, ?_, ?_, ?_, ?_, ?_, ?_⟩ <;> decide +kernel

theorem witness_HostCommandsComplete :
    (let asserted : Bool := false;
      let s : State := yof;
      (Instr.perst asserted).wf = true ∧ asserted = false ∧ (s.wr V.PERST [] 0).rdb V.YOF_ON [] = true) ∧
    (let asserted : Bool := true;
      let s : State := yof;
      (Instr.perst asserted).wf = true ∧ asserted = true ∧ s.rdb F.PCI_LINK_SPEED [] = true) ∧
    (let binding : Nat := 1;
      let eid : BitVec 8 := 7;
      let s : State := base;
      (Instr.setEndpointId binding eid).wf = true ∧ s.hatOn = true ∧ binding = 1 ∧ s.mctpAnswers binding true = true) ∧
    (let binding : Nat := 0;
      let eid : BitVec 8 := 7;
      let s : State := yof;
      (Instr.setEndpointId binding eid).wf = true ∧ s.hatOn = true ∧ binding = 0 ∧ s.yofDemand.mctpAnswers binding true = true) ∧
    (let n : Nat := 41;
      let s : State := yof;
      (Instr.pldmSensorRead n).wf = true ∧ s.hatOn = true ∧ s.yofDemand.yofRuns = true) ∧
    (let n : Nat := 0;
      let value : BitVec 64 := 500;
      let s : State := yof;
      (Instr.pldmEffecterWrite n value).wf = true ∧ s.hatOn = true ∧ n = 0 ∧ s.yofDemand.yofRuns = true) ∧
    (let n : Nat := 8;
      let value : BitVec 64 := 500;
      let s : State := yof;
      (Instr.pldmEffecterWrite n value).wf = true ∧ s.hatOn = true ∧ 1 ≤ n ∧ n < 9 ∧ s.yofDemand.yofRuns = true) ∧
    (let n : Nat := 9;
      let value : BitVec 64 := 1;
      let s : State := base;
      (Instr.pldmEffecterWrite n value).wf = true ∧ s.hatOn = true ∧ n = 9 ∧ s.hatOn = true) ∧
    (let n : Nat := 17;
      let value : BitVec 64 := 3;
      let s : State := yof;
      (Instr.pldmEffecterWrite n value).wf = true ∧ s.hatOn = true ∧ 10 ≤ n ∧ s.yofDemand.yofRuns = true ∧ (value.toNat = 1 ∨ value.toNat = 3)) ∧
    (let fn : Nat := 1;
      let off : Nat := 0;
      let len : Nat := 8;
      let s : State := smallLab.w [(F.PCI_LINK_SPEED, [], 1)];
      let d : List Byte := ([0, 0, 0, 0, 0, 0, 0, 0] : List Byte);
      (Instr.bar2Read fn off len).wf = true ∧ s.pciUp = true ∧
      (let u := s.countModule 0 16 0 1
      u.bar2Served fn off len = true ∧ u.memRead fn (u.bar2Addr fn off) len = .ok d)) ∧
    (let fn : Nat := 2;
      let off : Nat := 0;
      let len : Nat := 8;
      let s : State := smallLab.w [(F.PCI_LINK_SPEED, [], 1)];
      (Instr.bar2Read fn off len).wf = true ∧ s.pciUp = true ∧
      (let u := s.countModule 0 16 0 1
      u.bar2Served fn off len = false)) ∧
    (let fn : Nat := 1;
      let off : Nat := 0;
      let data : List Byte := [1, 2, 3, 4];
      let poisoned : Bool := false;
      let s : State := smallLab.w [(F.PCI_LINK_SPEED, [], 1)];
      let t : State := (((smallLab.w [(F.PCI_LINK_SPEED, [], 1)]).countModule 0 16 0 1).memWrite 1 (((smallLab.w [(F.PCI_LINK_SPEED, [], 1)]).countModule 0 16 0 1).bar2Addr 1 0) [1, 2, 3, 4]).getD smallLab;
      let z : State := ((((smallLab.w [(F.PCI_LINK_SPEED, [], 1)]).countModule 0 16 0 1).noteMerge 1 (((smallLab.w [(F.PCI_LINK_SPEED, [], 1)]).countModule 0 16 0 1).bar2Addr 1 0) 4).memWrite 1 (((smallLab.w [(F.PCI_LINK_SPEED, [], 1)]).countModule 0 16 0 1).bar2Addr 1 0) [1, 2, 3, 4]).getD smallLab;
      (Instr.bar2Write fn off data poisoned).wf = true ∧ s.pciUp = true ∧ poisoned = false ∧
      (let u := s.countModule 0 16 0 1
      u.bar2Served fn off data.length = true ∧ u.memWrite fn (u.bar2Addr fn off) data = some t ∧ (u.noteMerge fn (u.bar2Addr fn off) data.length).memWrite fn (u.bar2Addr fn off) data = some z)) ∧
    (let fn : Nat := 2;
      let off : Nat := 0;
      let data : List Byte := [1, 2, 3, 4];
      let poisoned : Bool := false;
      let s : State := smallLab.w [(F.PCI_LINK_SPEED, [], 1)];
      (Instr.bar2Write fn off data poisoned).wf = true ∧ s.pciUp = true ∧ poisoned = false ∧
      (let u := s.countModule 0 16 0 1
      u.bar2Served fn off data.length = false)) ∧
    (let s : State := base.w [(F.PCI_LINK_SPEED, [], 1)];
      s.pciUp = true ∧ ((((s.fetchAbort fun f => f == 0).fnReset 0).wr F.GLB_SCRATCH_VALUE [0] 0).rdb F.SEC_STATUS_BUSY [] = false) ∧ ((((s.fetchAbort fun f => f == 0).fnReset 0).wr F.GLB_SCRATCH_VALUE [0] 0).rd F.DBG_LEVEL_LEVEL [] = 0)) ∧
    (let down : Bool := true;
      let s : State := yof;
      (Instr.pcieLinkDown down).wf = true ∧ s.hatOn = true ∧ down = true ∧ s.rdb F.PCI_LINK_SPEED [] = true) ∧
    (let down : Bool := false;
      let s : State := yof;
      (Instr.pcieLinkDown down).wf = true ∧ s.hatOn = true ∧ down = false ∧ s.rdb V.YOF_ON [] = true) := by
  refine ⟨?_, ?_, ?_, ?_, ?_, ?_, ?_, ?_, ?_, ?_, ?_, ?_, ?_, ?_, ?_, ?_⟩ <;> decide +kernel

theorem witness_HostCommandsComplete_2 :
    (let fn : Nat := 31;
      let user : Nat := 1;
      let q : Nat := 0;
      let c : Nat := 0;
      let s : State := base;
      (Instr.hostAccessFail fn user q c).wf = true ∧ s.barOn = true ∧ user = 1) ∧
    (let fn : Nat := 1;
      let user : Nat := 0;
      let q : Nat := 0;
      let c : Nat := 1;
      let s : State := base.w [(F.MOV_CH_STAT_STATE, [0, 1, 0], 1)];
      (Instr.hostAccessFail fn user q c).wf = true ∧ s.barOn = true ∧ user = 0 ∧ s.movSt q fn (c - 1) = 1) ∧
    (let fn : Nat := 1;
      let vec : Nat := 47;
      let s : State := base.w [(F.PCI_LINK_SPEED, [], 1), (V.MSIX_PEND, [1, 47], 1)];
      (Instr.msixUnmask fn vec).wf = true ∧ (s.pciUp && decide (vec < msixSize fn)) = true ∧ s.rdb V.MSIX_PEND [fn, vec] = true ∧ ((s.wr V.MSIX_MASK [fn, vec] 0).wr V.MSIX_PEND [fn, vec] 0).hostOk fn = true) ∧
    (let fn : Nat := 0;
      let vec : Nat := 511;
      let s : State := base.w [(F.PCI_LINK_SPEED, [], 1)];
      (Instr.msixUnmask fn vec).wf = true ∧ (s.pciUp && decide (vec < msixSize fn)) = true ∧ s.rdb V.MSIX_PEND [fn, vec] = false) := by
  refine ⟨?_, ?_, ?_, ?_⟩ <;> decide +kernel

theorem witness_SecurityCommandsComplete :
    (let obj : List Byte := [];
      let s : State := yof;
      (Instr.lifecycleObject obj).wf = true ∧ s.barOn = true ∧ s.yofDemand.yofRuns = true ∧ (s.yofDemand.wr F.SEC_STATUS_BUSY [] 1).hostOk 0 = true ∧ (s.yofDemand.wr F.SEC_STATUS_BUSY [] 1).injRead 0 = false) ∧
    (let cert : List Byte := [];
      let s : State := yof;
      (Instr.ownerEnrol cert).wf = true ∧ s.barOn = true ∧ s.yofDemand.yofRuns = true ∧ (s.yofDemand.wr F.SEC_STATUS_BUSY [] 1).hostOk 0 = true ∧ (s.yofDemand.wr F.SEC_STATUS_BUSY [] 1).injRead 0 = false) ∧
    (let s : State := yof;
      s.barOn = true ∧ s.yofDemand.yofRuns = true) ∧
    (let s : State := yof;
      s.barOn = true ∧ s.yofDemand.yofRuns = true) ∧
    (let s : State := base;
      s.barOn = true) ∧
    (let s : State := base;
      s.barOn = true ∧ s.rd F.DBG_LEVEL_LEVEL [] = 0) ∧
    (let token : List Byte := [];
      let s : State := yof;
      (Instr.tokenSubmit token).wf = true ∧ s.barOn = true ∧ s.yofDemand.yofRuns = true ∧ (s.yofDemand.wr F.DBG_STATUS_BUSY [] 1).hostOk 0 = true ∧ (s.yofDemand.wr F.DBG_STATUS_BUSY [] 1).injRead 0 = false) ∧
    (let s : State := base;
      s.barOn = true) ∧
    (let s : State := base.w [(F.DBG_LEVEL_LEVEL, [], 2)];
      s.hatOn = true ∧ 2 ≤ s.rd F.DBG_LEVEL_LEVEL []) ∧
    (let addr : Nat := 0x10000;
      let data : List Byte := [1];
      let s : State := State.reset.w [(V.BOOTING, [], 0), (F.HAT_BOOT_FAILED, [], 1)];
      (Instr.firmwareUpdate addr data).wf = true ∧ s.hatOn = true ∧ s.pstate = 3 ∧ s.rdb F.HAT_BOOT_FAILED [] = true ∧ s.rdb V.BOOTING [] = false ∧ 0x10000 ≤ addr ∧ addr + data.length ≤ 2 ^ 26) := by
  refine ⟨?_, ?_, ?_, ?_, ?_, ?_, ?_, ?_, ?_, ?_⟩ <;> decide +kernel

theorem witness_JtagCommandsComplete :
    (let s : State := base;
      s.hatOn = true) ∧
    (let s : State := base;
      s.hatOn = true) ∧
    (let bits : BitVec 4096 := 5;
      let s : State := base.w [(F.DBG_LEVEL_LEVEL, [], 1)];
      (Instr.samplePreload bits).wf = true ∧ s.hatOn = true ∧ s.jtagD1 = true) ∧
    (let bits : BitVec 4096 := 5;
      let s : State := jtagLab;
      (Instr.extest bits).wf = true ∧ s.hatOn = true ∧ s.jtagPins = true) ∧
    (let bits : BitVec 4096 := 5;
      let s : State := jtagLab;
      (Instr.extestPulse bits).wf = true ∧ s.hatOn = true ∧ (s.jtagPins && s.clocked) = true) ∧
    (let bits : BitVec 4096 := 5;
      let s : State := jtagLab;
      (Instr.extestTrain bits).wf = true ∧ s.hatOn = true ∧ (s.jtagPins && s.clocked) = true) ∧
    (let s : State := jtagLab;
      s.hatOn = true) ∧
    (let s : State := jtagLab;
      s.hatOn = true) ∧
    (let bit : Bool := true;
      let s : State := base;
      (Instr.dbgReq bit).wf = true ∧ s.hatOn = true ∧ bit = true) ∧
    (let token : List Byte := [];
      let s : State := base;
      (Instr.dbgToken token).wf = true ∧ s.hatOn = true ∧ token = []) ∧
    (let token : List Byte := [1];
      let s : State := base;
      (Instr.dbgToken token).wf = true ∧ s.hatOn = true ∧ token ≠ [] ∧ s.rd V.JTAG_TOKN [] = 0) ∧
    (let bits : BitVec 96 := (2 ^ 28);
      let s : State := base.w [(F.DBG_LEVEL_LEVEL, [], 3)];
      (Instr.dbgAccess bits).wf = true ∧ s.hatOn = true ∧ s.rd F.DBG_LEVEL_LEVEL [] ≠ 0 ∧ s.rdb V.DBGA_REQ [] = false ∧ badAccess (bitsOf bits.toNat 0 28) (if bitOf bits.toNat 29 then 8 else 4) = false ∧ s.dbgMay (bitsOf bits.toNat 0 28) (bitOf bits.toNat 28) = true) ∧
    (let bits : BitVec 96 := 1;
      let s : State := base.w [(F.DBG_LEVEL_LEVEL, [], 3)];
      (Instr.dbgAccess bits).wf = true ∧ s.hatOn = true ∧ s.rd F.DBG_LEVEL_LEVEL [] ≠ 0 ∧ s.rdb V.DBGA_REQ [] = false ∧ (badAccess (bitsOf bits.toNat 0 28) (if bitOf bits.toNat 29 then 8 else 4) = true ∨
        s.dbgMay (bitsOf bits.toNat 0 28) (bitOf bits.toNat 28) = false)) ∧
    (let bits : BitVec 96 := 0;
      let s : State := base.w [(F.DBG_LEVEL_LEVEL, [], 3), (V.DBGA_REQ, [], 1)];
      (Instr.dbgAccess bits).wf = true ∧ s.hatOn = true ∧ s.rd F.DBG_LEVEL_LEVEL [] ≠ 0 ∧ s.rdb V.DBGA_REQ [] = true) ∧
    (let bits : BitVec 96 := 0;
      let s : State := base;
      (Instr.dbgAccess bits).wf = true ∧ s.hatOn = true ∧ s.rd F.DBG_LEVEL_LEVEL [] = 0) := by
  refine ⟨?_, ?_, ?_, ?_, ?_, ?_, ?_, ?_, ?_, ?_, ?_, ?_, ?_, ?_, ?_⟩ <;> decide +kernel

theorem witness_SpdmCommandsComplete :
    (let s : State := yof;
      s.hatOn = true ∧ s.yofDemand.yofRuns = true) ∧
    (let s : State := yof;
      s.hatOn = true ∧ s.yofDemand.yofRuns = true) ∧
    (let s : State := yof;
      s.hatOn = true ∧ s.yofDemand.yofRuns = true) ∧
    (let s : State := yof;
      s.hatOn = true ∧ s.yofDemand.yofRuns = true) ∧
    (let off : Nat := 0;
      let len : Nat := 16;
      let s : State := yof;
      (Instr.getCertificate off len).wf = true ∧ s.hatOn = true ∧ s.yofDemand.yofRuns = true) ∧
    (let nonce : List Byte := [1];
      let s : State := yof;
      (Instr.challenge nonce).wf = true ∧ s.hatOn = true ∧ s.yofDemand.yofRuns = true) ∧
    (let index : Nat := 255;
      let nonce : List Byte := [1];
      let s : State := yof;
      (Instr.getMeasurements index nonce).wf = true ∧ s.hatOn = true ∧ s.yofDemand.yofRuns = true) := by
  refine ⟨?_, ?_, ?_, ?_, ?_, ?_, ?_⟩ <;> decide +kernel

theorem witness_ObsCommandsComplete :
    (let value : BitVec 64 := (2 ^ 17 + 423);
      let s : State := base;
      (Instr.counterClear value).wf = true ∧ s.barOn = true ∧ bitOf value.toNat 17 = true ∧ bitsOf value.toNat 0 9 < 424) ∧
    (let due : List Nat := [1];
      let skipped : List Nat := [];
      let s : State := lab.i 13 0 1 0 [0, 16];
      (Instr.tallySweep due skipped).wf = true ∧ s.clocked = true ∧ skipped = [] ∧ s.rd V.SWEEP_WAIT [] = 0 ∧ s.rd V.SWEEP_PROGS [] = 0 ∧
      (let on := fun p : Nat => s.img.brimValid p && s.obs p 0 0 3 % 2 ^ 20 != 0
      let ps := (List.range 32).filter fun p => due.contains p && on p
      ps ≠ [])) ∧
    (let due : List Nat := [1];
      let skipped : List Nat := [];
      let s : State := base.w [(V.SWEEP_PROGS, [], 1)];
      (Instr.tallySweep due skipped).wf = true ∧ s.clocked = true ∧ skipped = [] ∧ s.rd V.SWEEP_WAIT [] = 0 ∧ s.rd V.SWEEP_PROGS [] ≠ 0) ∧
    (let q : Nat := 0;
      let value : BitVec 64 := 0;
      let s : State := base;
      (Instr.samplerCtlWrite q value).wf = true ∧ s.barQuad q = true) ∧
    (let value : BitVec 64 := 1;
      let s : State := base.w [(F.DBG_LEVEL_LEVEL, [], 1)];
      (Instr.injectEnableWrite value).wf = true ∧ s.barOn = true ∧ value.toNat % 2 = 1 ∧ 1 ≤ s.rd F.DBG_LEVEL_LEVEL []) ∧
    (let value : BitVec 64 := 0;
      let s : State := base;
      (Instr.injectEnableWrite value).wf = true ∧ s.barOn = true ∧ value.toNat % 2 = 0) ∧
    (let value : BitVec 64 := (2 ^ 17 + 2 ^ 16 + 0x13);
      let s : State := base.w [(F.ERR_INJ_CTL_EN, [], 1)];
      (Instr.errorInject value).wf = true ∧ s.barOn = true ∧ bitOf value.toNat 17 = true ∧ detInjected (bitsOf value.toNat 0 8) = true ∧ bitOf value.toNat 16 = true ∧ (s.injFields value.toNat).injAllowed true ((s.injFields value.toNat).injOwner (bitsOf value.toNat 0 8) (min 4 (bitsOf value.toNat 8 3)) (bitsOf value.toNat 11 5) (bitsOf value.toNat 32 32)) (detSevere (bitsOf value.toNat 0 8) (bitsOf value.toNat 32 32)) = true) ∧
    (let value : BitVec 64 := (2 ^ 17 + 5);
      let s : State := base.w [(F.ERR_INJ_CTL_EN, [], 1)];
      (Instr.errorInject value).wf = true ∧ s.barOn = true ∧ bitOf value.toNat 17 = true ∧ detInjected (bitsOf value.toNat 0 8) = true ∧ bitOf value.toNat 16 = false ∧ detFull (bitsOf value.toNat 0 8) = true ∧ (s.injFields value.toNat).injAllowed false ((s.injFields value.toNat).injOwner (bitsOf value.toNat 0 8) (min 4 (bitsOf value.toNat 8 3)) (bitsOf value.toNat 11 5) (bitsOf value.toNat 32 32)) (detSevere (bitsOf value.toNat 0 8) (bitsOf value.toNat 32 32)) = true) := by
  refine ⟨?_, ?_, ?_, ?_, ?_, ?_, ?_, ?_⟩ <;> decide +kernel

/-! ## Witnesses of the frames: every command of each family answers a next state on a small state -/

def answers (c : Instr) (s : State) : Bool :=
  match exec c s with
  | .next _ => true
  | _ => false

theorem witness_LinkFrame : (([
      .seamCrcError 0 0, .seamDown 0 0, .linkDownHoldEnd 0 0, .linkSignalDetect 0 0 0, .linkTrainEnd 0 0, .linkAlignDone 0 0,
      .linkAttemptTimeout 0 0, .linkX2SlotEnd 0 0, .linkRetrainTimeout 0 0, .lcfReceive 0 0 0, .syncReq 0 0 0 0, .quiet 0 0,
      .quietAck 0 0, .retrain 0 0, .quietIdleExpiry 0 0, .linkWake 0 0, .peerSignalWake 0 0,
      .codewordDecode 0 0 0 0 0 0, .creditStarve 0 0 0, .laneErrorWindow 0 0, .degradeSwitch 0 0,
      .ucwWindow 0 0, .lcfLoss 0 0, .linkRetrainWrite 0 0 0, .linkEnWrite 0 0 0, .linkInject 0 0, .retrainPrbsEnd 0 0] : List Instr).all fun c => answers c base) = true := by
  decide +kernel

theorem witness_SwitchFrame : (([
      .packetHeaderArrival 0 0 pk0, .ageExpiry 0 0, .bankAdmit 0 0, .egressStreamStart 0 0 0, .packetRelease 0 0, .flushEnd 0 0,
      .depthBroadcast 0, .mirCtlWrite 0 0 0, .lowClr 0, .peakClr 0 0 0] : List Instr).all fun c => answers c base) = true := by
  decide +kernel

theorem witness_KnitFrame : (([
      .knitLoad 0, .knitAbort 0, .knitCommit 0, .knitFetchComplete [], .groupCommit, .resyncEnd, .quietTimeout, .knitVoteResult,
      .voteCommitTimeout, .borderDrainEnd, .borderDrainTimeout, .borderZeroizeEnd [], .epochFlip 0, .epochRetire 0] : List Instr).all fun c => answers c base) = true := by
  decide +kernel

theorem witness_SlotFrame : (([
      .contrib 0 pk0, .admissionRequest 0 0 0 0 0, .admissionReply 0 0 0 0 0 false, .slotReadoutComplete 0 0 0 0 0,
      .tier0Partial 0 0 0 0 0, .partialDelivered 0 0 0 0 0, .partialReceive 0 pk0, .resultFromRack 0 pk0, .publishFromRack 0 pk0,
      .pagerSpill 0 0, .pagerRecall 0 0, .pagerSwap 0 0, .pagerOpComplete 0, .sweepEnd 0, .slabLockTimeout 0 0 0 0 []] : List Instr).all fun c => answers c base) = true := by
  decide +kernel

theorem witness_SeqFrame : (([
      .resultResendTimer 0 0 0, .cnackReceive 0 pk0, .ringDoorbell 0 0 0 0, .doorbell 0 pk0, .ringErrClear 0 0 0, .cqRecordWrite 0 0,
      .collective 0 0 0, .armStep 0 0 0, .trigger 0 0 0, .increment 0 0 0, .abortCollective 0 0 0, .stepReplay 0 0 0, .stepReplayEnd 0,
      .warm 0 0 0, .done 0 pk0, .gapNack 0 pk0, .patienceExpiry 0 0 0, .partialResendTimer 0 0 0 0, .podHoldExpiry 0 0 0 0, .stragClear 0] : List Instr).all fun c => answers c base) = true := by
  decide +kernel

theorem witness_TrigFrame : (([
      .reduceForward 0 0, .convertMulticast 0 0, .normContribute 0 0, .updateShard 0 0, .publishOp 0 0, .snapshotOp 0 0, .signalHost 0 0,
      .incrementOp 0 0, .waitEpoch 0 0, .triggerOpComplete 0 0] : List Instr).all fun c => answers c base) = true := by
  decide +kernel

theorem witness_UpdateFrame : (([
      .chunkHandoff 0 0 0 0, .updatePass 0 0 0, .stepDecided 0, .stepTimerExpiry 0, .updateProgressTimeout 0, .publish 0 0 0,
      .snapshot 0 0 0, .import_ 0 0 0, .setT 0 0 0] : List Instr).all fun c => answers c base) = true := by
  decide +kernel

theorem witness_GramFrame : (([
      .gramAcc 0 0 0, .matmul 0 0 0, .nsRoot 0 0 0, .nsOrtho 0 0 0, .apply 0 0 0, .gramWaitRelease 0 0, .gramUnit 0 0,
      .gramProgressTimeout 0 0] : List Instr).all fun c => answers c base) = true := by
  decide +kernel

theorem witness_MittenFrame : (([
      .mitMember pk0, .mitRow pk0, .mitColumn pk0, .mitCourier pk0, .mitRoundAbort 0 0, .mitPeerResend 0 0, .mitCarryResend 0 0,
      .mitRoleSet 0 0, .noticeEnWrite 0, .noticeRepeat] : List Instr).all fun c => answers c base) = true := by
  decide +kernel

theorem witness_HbmFrame : (([
      .patrolScrub 0 0, .hbmRetire 0 0 0 false, .hbmRetireCmd 0 0, .spareRemapEnd 0 0, .hbmLockTimeout 0 0 0 0, .hbmInject 0 0,
      .parkWrite 0 pk0, .parkRead 0 pk0, .parkApply 0 0, .parkServiceFault 0] : List Instr).all fun c => answers c base) = true := by
  decide +kernel

theorem witness_MoverFrame : (([
      .moverStart 0 0 0, .moverPause 0 0 0 0, .moverResume 0 0 0 0, .moverAbort 0 0 0 0, .moverErrClear 0 0 0, .move 0 0 0 [],
      .fill 0 0 0, .compare 0 0 0 [], .wait 0 0 0, .waitMet 0 0 0, .signal 0 0 0, .link 0 0 0, .end_ 0 0 0, .pauseDrainEnd 0 0 0,
      .moverRecordWrite 0 0 0, .moverBusError 0 0, .moverBeatTimeout 0, .moverRestart 0, .eventCounterWrite 0 0 0 0] : List Instr).all fun c => answers c base) = true := by
  decide +kernel

theorem witness_TrayFrame : (([
      .adcWindow (List.replicate 160 0) (List.replicate 64 0) (List.replicate 8 0), .tachLost 0, .trayStep (List.replicate 8 0) false,
      .capStep, .pwrAlertAssert, .pwrAlertRelease, .accGo 0, .yofenKick, .yofenWatchdog, .trayClaim false, .trayOwnConflict,
      .ownerPublish (List.replicate 7 0), .contestStart, .contestResolve false, .degradedClear, .standbyQualify, .trayYield,
      .telemetrySend, .managerHeartbeat 0, .managerLost 0, .autonomousHold, .pumpStage1, .pumpStage2, .pumpStage3, .pumpStageClear,
      .trayBusRecovery, .trayInject 0, .yofenReboot] : List Instr).all fun c => answers c base) = true := by
  decide +kernel

theorem witness_CartFrame : (([
      .cartInsert 0, .cartPresenceLost 0, .cartTouch 0 false, .cartCuffOpen 0, .preDrainCancel 0, .cartButton 0 false, .cartButtonHold 0,
      .trayButton, .trayButtonHold, .cartDrain 0, .cartForce 0, .cartRejoin 0, .cartDrainComplete 0, .cartDrainTimeout 0,
      .cartForceStop 0, .cartSafe 0, .cartInService 0, .vinLow, .cartLatchClose 0] : List Instr).all fun c => answers c base) = true := by
  decide +kernel

theorem witness_PowerFrame : (([
      .vinHoldupEnd, .vinGood, .railTimeout, .vauxLow, .powerRequest 0, .p2QuietEnd false, .yofenIdleStop, .engineGate 0 0,
      .engineWake 0 0, .warmHoldEnd 0 0 0, .refclkLost, .refclkReturn, .refclkLossTimeout, .oscCalibrate, .thermalTrip, .coldReset,
      .moduleReset false, .quadrantReset 0, .partitionReset 0 false, .startupStepComplete false [], .loadtestRun,
      .loadtestPhaseEnd false, .quadrantResetEnd 0, .moduleResetRelease, .ieee1588Time 0] : List Instr).all fun c => answers c base) = true := by
  decide +kernel

theorem witness_SecurityFrame : (([
      .lifecycleObject [], .ownerEnrol [], .firmwareFloor, .knitFloor, .challengeRead, .debugRequestD1, .tokenSubmit [], .debugRelease,
      .grantExpiry, .bypass, .idcode, .samplePreload 0, .extest 0, .extestPulse 0, .extestTrain 0, .clamp, .highz, .dbgReq false,
      .dbgToken [], .dbgAccess 0, .firmwareUpdate 0 [], .getVersion, .getCapabilities, .negotiateAlgorithms, .getDigests,
      .getCertificate 0 0, .challenge [], .getMeasurements 0 []] : List Instr).all fun c => answers c base) = true := by
  decide +kernel

theorem witness_HostFrame : (([
      .registerWrite 0 0 0 0, .splitReadLow 0 0 0, .kegusTestWrite 0 0, .perst false, .setEndpointId 0 0, .pldmSensorRead 0,
      .pldmEffecterWrite 0 0, .bar2Read 0 0 0, .bar2Write 0 0 [] false, .pf0Flr, .pcieLinkDown false, .hostAccessFail 0 0 0 0,
      .msixUnmask 0 0, .debugWindowAccess false 0 0 0] : List Instr).all fun c => answers c base) = true := by
  decide +kernel

theorem witness_ObsFrame : (([
      .counterClear 0, .tallySweep [] [], .samplerCtlWrite 0 0, .injectEnableWrite 0, .errorInject 0] : List Instr).all fun c => answers c base) = true := by
  decide +kernel

/-! ## Witnesses of the other statements -/

/-- IdleStepIsOneCoreCycle: after a cold reset nothing waits for the cycle's end. -/
theorem witness_IdleStepIsOneCoreCycle :
    let s := State.reset
    (s.pending = [] ∧ ∃ t, step s = .next t) ∧ (s.rd V.JTAG_TOKN [] = 0 ∧ s.rd V.DBGA_REQ [] = 0) ∧
      s.rdb V.ABORT_DUE [] = false ∧ s.rdb V.ROUND_DUE [] = false ∧ (∀ kv ∈ s.regs, kv.1.headD 0 ≠ V.RET_DUE.id) ∧
      (∀ q, q < 4 → s.rd V.MOV_RESTART [q] = 0) ∧ s.errDue = [] ∧ s.rd V.SWEEP_PROGS [] = 0 ∧
      ∀ f ∈ [V.VEC1_DUE, V.CQ_VEC_DUE, V.MIR_VEC_DUE, V.MOV_VEC_DUE], ∀ ix, s.rdb f ix = false := by
  refine ⟨⟨rfl, _, rfl⟩, ⟨rfl, rfl⟩, rfl, rfl, fun kv h => (by cases h), fun q _ => rfl, rfl, rfl, ?_⟩
  intro f h ix
  simp only [List.mem_cons, List.not_mem_nil, or_false] at h
  rcases h with rfl | rfl | rfl | rfl <;> rfl

/-- RunsNeverStop and MemoryFormKept: a queue of one well-formed command, memories of the form, a step. -/
theorem witness_queues :
    (∀ i ∈ ({ base with pending := [.noticeRepeat] } : State).pending, i.wf = true) ∧ base.memWf = true ∧ ∃ t, step base = .next t := by
  refine ⟨?_, ?_, _, rfl⟩ <;> decide +kernel

/-- EveryCommandAnswers: the greatest well-formed operands, and the least ill-formed ones. -/
theorem witness_EveryCommandAnswers :
    (Instr.syncReq 3 39 15 0xFFFF).wf = true ∧ (Instr.syncReq 4 39 15 0xFFFF).wf = false ∧
      (Instr.syncReq 3 40 15 0).wf = false ∧ (Instr.syncReq 3 39 16 0).wf = false := by
  decide +kernel

/-- MemoryOperationsKeepForm: a memory of the form, and a write that is served. -/
theorem witness_MemoryOperationsKeepForm : base.memWf = true ∧ (smallLab.memWrite 1 0 [1]).isSome = true := by
  decide +kernel

/-- DeviceWriteIsExact: the last byte of a write, and an address beside it. -/
theorem witness_DeviceWriteIsExact :
    let bs : List Byte := [1, 2]
    (1 < bs.length) ∧ ¬ (hbmKey 0 0 ≤ 2 ∧ 2 < hbmKey 0 0 + bs.length) ∧ (hbmKey 0 0 ≤ 1 ∧ 1 < hbmKey 0 0 + bs.length) := by
  decide +kernel

/-- The ring statements: no ring is enabled, so that every address lies outside the error rings. -/
theorem witness_ErrorRecordsStayInTheirRings : (∃ t, exec .firmwareFloor base = .next t) ∧ ¬ base.inErrRing 0 := by
  refine ⟨⟨_, rfl⟩, ?_⟩
  rintro ⟨f, h, -⟩
  simp [State.rdb, State.rd, base, State.w, State.i, State.wr, State.reset, SMap.find, SMap.set, F.HAT_PSTATE_STATE,
    F.ERR_RING_CTL_EN, SMap.get] at h

theorem witness_CompletionRecordsStayInTheirQueues : ∃ t, exec (.stepDecided 1) base = .next t := ⟨_, rfl⟩

/-- HostWriteStaysInPlace: a write that is served. -/
theorem witness_HostWriteStaysInPlace :
    (∃ t, exec (.bar2Write 1 0 [1] false) smallLab = .next t) ∧ (smallLab.place 1 (smallLab.bar2Addr 1 0) 1).isSome = true := by
  refine ⟨⟨_, rfl⟩, ?_⟩
  decide +kernel

/-- BootFlashChangesOnlyByItsCommands and the first clause of FloorsRiseOnlyBySecCmd. -/
theorem witness_other_commands : ∃ t, exec .coldReset base = .next t := ⟨_, rfl⟩

/-- FloorsRiseOnlyBySecCmd: the Yofen serves commands; the greatest serial of a base is held. -/
theorem witness_FloorsRiseOnlyBySecCmd :
    let s := yof.w [(V.BASE_SERIAL, [], 2 ^ 32 - 1)]
    (yof.barOn = true ∧ yof.yofDemand.yofRuns = true) ∧
      (s.barOn = true ∧ s.yofDemand.yofRuns = true ∧ s.rd V.BASE_SERIAL [] < 2 ^ 32) := by
  decide +kernel

/-- LoadWhileALoadRuns: a load of function 1 is STAGED, and PF0 asks for one. -/
theorem witness_LoadWhileALoadRuns :
    let s : State := (base.i 0x0E 4 0 0 [1]).w [(F.PCI_LINK_SPEED, [], 1), (V.KNT_FN, [], 2), (F.KNT_STATUS_STATE, [1], 4)]
    (Instr.knitLoad 0).wf = true ∧ s.barOn = true ∧ s.img.brimValid 0 = true ∧ s.rdb V.KNT_FN [] = true ∧
      s.rd F.KNT_STATUS_STATE [s.knitFn] ∈ [1, 2, 3, 4] := by
  decide +kernel

/-- PauseAndResume: a RESUME of a channel PAUSING by the register bit and by a ring entry, a drain that ends with the RESUME latched, and a
PAUSE of a channel that is IDLE. -/
theorem witness_PauseAndResume :
    let s : State := lab.w [(F.MOV_CH_STAT_STATE, [3, 31, 2], 3), (F.MOV_CH_STAT_BUSY, [3, 31, 2], 1)]
    let r : State := (ringLab 3 (3 + 2 * 2 ^ 64)).w [(F.MOV_CH_STAT_STATE, [0, 1, 1], 3)]
    ((Instr.moverResume 3 31 2 0).wf = true ∧ s.quadOn 3 = true ∧ s.rd F.MOV_CH_STAT_STATE [3, 31, 2] = 3) ∧
      ((Instr.moverResume 0 1 1 (BitVec.ofNat 512 (3 + 2 * 2 ^ 64))).wf = true ∧ r.quadOn 0 = true ∧
        r.ringCmd 0 1 3 3 (3 + 2 * 2 ^ 64) = true ∧ bitsOf (3 + 2 * 2 ^ 64) 64 2 ≠ 0 ∧ movChan (3 + 2 * 2 ^ 64) = 1 ∧
        r.rd F.MOV_CH_STAT_STATE [0, 1, 1] = 3) ∧
      ((Instr.pauseDrainEnd 3 31 2).wf = true ∧ s.rdb F.MOV_STAT_STOPPED [3] = false ∧ s.rdb V.MOV_DROP [3, 31, 2] = false ∧
        s.rdb F.MOV_CH_STAT_BUSY [3, 31, 2] = true) ∧
      ((Instr.moverPause 3 31 0 0).wf = true ∧ s.rd F.MOV_CH_STAT_STATE [3, 31, 0] ∈ [0, 4]) := by
  decide +kernel

/-- ConvertedInputsAreLimited: the greatest input that is not limited, and the least that is. -/
theorem witness_ConvertedInputsAreLimited :
    roundAt ⟨false, 2 ^ 115 - 1, 1⟩ (100 - 100) .rne ≤ 2 ^ 115 - 1 ∧ 2 ^ 115 - 1 < roundAt ⟨true, 2 ^ 115, 1⟩ (100 - 100) .rne := by
  decide +kernel

/-- WindowMove: a value that fits just, one above and one below the range, and a tie of a move to a coarser window. -/
theorem witness_WindowMove :
    ((0 : Int) ≤ 1 ∧ (-(2 ^ 127) : Int) ≤ -(2 ^ 126) * 2 ^ (1 : Int).toNat ∧ (-(2 ^ 126) : Int) * 2 ^ (1 : Int).toNat < 2 ^ 127) ∧
      (2 ^ 127 : Int) ≤ 2 ^ 126 * 2 ^ (1 : Int).toNat ∧ (-(2 ^ 126) - 1 : Int) * 2 ^ (1 : Int).toNat < -(2 ^ 127) ∧
      ((0 : Int) < 1 ∧ (-(2 ^ 127) : Int) ≤ 3 ∧ (3 : Int) < 2 ^ 127 ∧ moveWindow 3 0 1 = (2, false)) := by
  decide +kernel

/-- EffectiveCapIsTheLeast: 44 V, with a host cap, stage 1 of the pump response and a PSU alert. -/
theorem witness_EffectiveCapIsTheLeast :
    let s : State := base.w [(F.TRY_ADC_VALUE, [0], 0x42300000), (F.TRY_CAP_HOST_CAP_W, [], 1500), (F.TRY_STAGE_PUMP, [], 1),
      (F.TRY_ALERT_ASSERTED, [], 1), (F.TRY_ALERT_ALERT_W, [], 900)]
    (decodeFloat fmtFp32 (s.adc 0)).isSome = true ∧ (∀ x ∈ decodeFloat fmtFp32 (s.adc 0), x.neg = false) ∧
      s.rdb F.TRY_CAP_HOST_CAP_W [] = true ∧ s.rdb F.TRY_STAGE_PUMP [] = true ∧ s.rdb F.TRY_ALERT_ASSERTED [] = true := by
  decide +kernel

/-- FieldAccess: a whole RW field, one with a range, and W1C, W1S and RO fields, under writes that cover them. -/
theorem witness_FieldAccess :
    let w : RegWrite := ⟨2 ^ 64 - 1, 0, 64⟩
    let rw : FieldRow := ⟨16, F.XPT_CTL_DEFER_RETRY, .rw, none⟩
    let rg : FieldRow := ⟨0, F.XPT_RESEND_FIRST, .rw, some (10, 1000)⟩
    let bc : FieldRow := ⟨0, F.PCI_FN_STAT_BADACC, .w1c, none⟩
    let bs : FieldRow := ⟨0, F.PCI_FN_STAT_BADACC, .w1s, none⟩
    (w.covers { rw with lo := 64 } = false) ∧ (w.lo ≤ rw.lo ∧ rw.lo + rw.fld.w ≤ w.hi ∧ 0 < rw.fld.w) ∧
      (w.lo ≤ rg.lo ∧ rg.lo + rg.fld.w ≤ w.hi ∧ 0 < rg.fld.w ∧ 1000 < 2 ^ rg.fld.w) ∧
      (w.covers bc = true ∧ bitsOf w.bits bc.lo bc.fld.w ≠ 0) ∧ bitsOf (⟨0, 0, 64⟩ : RegWrite).bits bc.lo bc.fld.w = 0 ∧
      (w.covers bs = true ∧ bs.fld.w = 1 ∧ bitsOf w.bits bs.lo bs.fld.w ≠ 0) ∧
      (base.rd V.RAISED (bc.fld.id :: [0]) ≠ base.rd V.TIME_PS [] + 1 ∧
        (base.raise F.PCI_FN_STAT_BADACC [0]).rd V.RAISED (bc.fld.id :: [0]) = base.rd V.TIME_PS [] + 1) := by
  decide +kernel

/-- EveryLaneHasItsContacts: the last lane of the last quadrant, and the contact that carries its transmitted pair. -/
theorem witness_EveryLaneHasItsContacts :
    (1 ≤ laneRow 3 159 true ∧ laneRow 3 159 true ≤ 96 ∧ 1 ≤ laneCol 3 159 true ∧ laneCol 3 159 true ≤ 96) ∧
      contactAt (laneRow 3 159 true) (laneCol 3 159 true) = .lane 639 true true := by
  decide +kernel

/-- HostWriteOfAKnitField: a register whose fields are all RW-K. -/
theorem witness_HostWriteOfAKnitField :
    ∀ r ∈ ([⟨0, F.XPT_POD_X, .rwk, none⟩, ⟨3, F.XPT_POD_Y, .rwk, none⟩, ⟨8, F.XPT_POD_PLANE, .rwk, none⟩] : List FieldRow), r.acc = .rwk := by
  decide +kernel

end Sys2Proof.Machine
end

section
/-! SUPPORT. Host writes that leave the state as it was: a field's access code and the fold over a register's fields (R12). -/

namespace Sys2Proof.Machine

/-- The host has no effect on an RW-K field (the table of R11), whichever bits its write covers. -/
@[simp] theorem State.fieldWrite_rwk {r : FieldRow} (s : State) (h : RegHit) (w : RegWrite) (hr : r.acc = .rwk) :
    s.fieldWrite h w r = s := by
  unfold State.fieldWrite
  split
  · rfl
  · rw [hr]

/-- A register whose fields each pass the write by passes it by as a whole: the state is `s` again before every field. -/
theorem State.plainWrite_eq_self {s : State} {h : RegHit} {w : RegWrite}
    (H : ∀ r ∈ h.row.fields, s.fieldWrite h w r = s) : s.plainWrite h w = s :=
  List.foldlRecOn (motive := (· = s)) h.row.fields (fun t r => t.fieldWrite h w r) rfl
    fun _ ht r hr => by rw [ht, H r hr]

/-- Settles O59: one field by its access code, a register by the fold over its fields. -/
theorem hostWriteOfAKnitField : Obligations.HostWriteOfAKnitField := by
  intro s h w
  constructor
  · intro r hr
    exact s.fieldWrite_rwk h w hr
  · intro H
    exact State.plainWrite_eq_self fun r hr => s.fieldWrite_rwk h w (H r hr)

end Sys2Proof.Machine
end

section
/-! SUPPORT. A KNIT_LOAD while a load runs (R45): what the raising of a W1C bit reads and leaves unchanged. -/

namespace Sys2Proof.Machine

section Writes

variable {ps : List Part} {fs : List Fld} {s t : State}

/-! ## Building `writes` up -/

theorem State.writes_refl : s.writes ps fs s :=
  ⟨rfl, fun p _ => by cases p <;> rfl, fun _ _ _ => rfl⟩

/-- A store to a listed field. -/
theorem State.writes_wr {f : Fld} {ix : List Nat} {n : Nat} (hf : f ∈ fs) (h : s.writes ps fs t) : s.writes ps fs (t.wr f ix n) := by
  obtain ⟨hq, hp, hr⟩ := h
  refine ⟨hq, fun p hn => ?_, fun g jx hg => ?_⟩
  · have hsame := hp p hn
    cases p <;> exact hsame
  · rw [State.rd_wr_ne (hg f hf)]
    exact hr g jx hg

/-- An event that sets a listed W1C bit, with the note of its cycle. -/
theorem State.writes_raise {f : Fld} {ix : List Nat} (hf : f ∈ fs) (hn : V.RAISED ∈ fs) (h : s.writes ps fs t) :
    s.writes ps fs (t.raise f ix) := writes_wr hn (writes_wr hf h)

end Writes

/-! ## The raised bit -/

/-- A bit that an event sets reads 1: the note of the cycle lies in a field of its own. -/
theorem State.rd_raise_same {f : Fld} (hf : f.id ≠ V.RAISED.id) (hw : f.w = 1) (s : State) (ix : List Nat) : (s.raise f ix).rd f ix = 1 := by
  rw [State.raise, State.rd_wr_ne hf, State.rd_wr_same, hw, Nat.pow_one, Nat.one_mod]

/-- An event that sets a bit leaves the queue of commands alone. -/
@[simp] theorem State.raise_withQueue (s : State) (f : Fld) (ix : List Nat) : (s.raise f ix).withQueue s.pending = s.raise f ix := rfl

/-! ## KNIT_LOAD while a load runs -/

theorem State.knitLoad_of_knitBusy {s : State} (h : s.knitBusy = true) (fn : Nat) : s.knitLoad fn = s.raise F.KNT_STATUS_REFUSED [fn] :=
  if_pos h

/-- KNIT_LOAD from a function whose BAR0 is served, while a load runs: only REFUSED of that function is raised. -/
theorem exec_knitLoad_of_knitBusy {fn : Nat} {s : State} (hwf : (Instr.knitLoad fn).wf = true) (hbar : s.barOn = true)
    (hval : s.img.brimValid fn = true) (hbusy : s.knitBusy = true) :
    exec (.knitLoad fn) s = .next (s.raise F.KNT_STATUS_REFUSED [fn]) := by
  have hup : (s.barOn && s.img.brimValid fn) = true := by rw [hbar, hval]; rfl
  rw [exec_knitLoad, State.run_goes (f := (·.knitLoad fn)) hwf hup (State.knitLoad_of_knitBusy hbusy fn), State.raise_withQueue]

/-- Settles O51: while V.KNT_FN names a function, a load runs (`knitBusy`), and KNIT_LOAD is the raising of REFUSED alone. -/
theorem loadWhileALoadRuns : Obligations.LoadWhileALoadRuns := by
  intro fn s hwf hbar hval hbusy _
  refine ⟨s.raise F.KNT_STATUS_REFUSED [fn], exec_knitLoad_of_knitBusy hwf hbar hval hbusy, ?_, ?_⟩
  · exact State.rd_raise_same (by decide) rfl s [fn]
  · exact State.writes_raise (by simp) (by simp) State.writes_refl

end Sys2Proof.Machine
end

section
/-! SUPPORT. Conversion into the ledger and its input limit (R123, R129), and the rounds of Kegus with its test vectors (R142, R143). -/

namespace Sys2Proof.Machine

/-! ## The input limit -/

/-- A rounded magnitude within the limit enters the ledger with its sign and sets no flag. -/
theorem toLedger_of_le {x : Ex} {w : Int} (h : roundAt x (w - 100) .rne ≤ ledgerLimit) :
    toLedger x w = (if x.neg then -(roundAt x (w - 100) .rne : Int) else roundAt x (w - 100) .rne, flg0) := by
  simp [toLedger, flg0, Nat.not_lt.mpr h]

/-- A larger one is replaced by the limit, with the sign of the input and the overflow flag. -/
theorem toLedger_of_lt {x : Ex} {w : Int} (h : ledgerLimit < roundAt x (w - 100) .rne) :
    toLedger x w = (if x.neg then -(ledgerLimit : Int) else ledgerLimit, ⟨true, false⟩) := by
  simp [toLedger, h]

theorem natAbs_ite_neg (b : Bool) (m : Nat) : (if b then -(m : Int) else m).natAbs = m := by
  cases b
  · exact Int.natAbs_natCast m
  · exact Int.natAbs_neg m

/-- The limit read as an integer. -/
theorem ledgerLimit_cast : (ledgerLimit : Int) = 2 ^ 115 - 1 := by decide

/-- Both cases of R123 in one: the magnitude in the ledger is the rounded one or the limit, whichever is smaller. -/
theorem toLedger_natAbs (x : Ex) (w : Int) : (toLedger x w).1.natAbs = min (roundAt x (w - 100) .rne) ledgerLimit := by
  rcases le_or_gt (roundAt x (w - 100) .rne) ledgerLimit with h | h
  · rw [toLedger_of_le h, natAbs_ite_neg, Nat.min_eq_left h]
  · rw [toLedger_of_lt h, natAbs_ite_neg, Nat.min_eq_right h.le]

/-- Settles O54: the magnitude is a minimum with the limit, and the flag says which of the two it is. -/
theorem convertedInputsAreLimited : Obligations.ConvertedInputsAreLimited := by
  intro x w
  refine ⟨?_, fun hcut => ⟨?_, ?_⟩, fun hfits => ⟨?_, ?_⟩⟩
  · exact (toLedger_natAbs x w).trans_le (Nat.min_le_right _ _)
  · rw [toLedger_of_lt hcut, ledgerLimit_cast]
  · rw [toLedger_of_lt hcut]
  · exact (toLedger_natAbs x w).trans (Nat.min_eq_left hfits)
  · rw [toLedger_of_le hfits, flg0]

/-! ## Kegus -/

/-- R142 by its rounds: from the initial words x and y, with the round keys a and b, the output is the y of round 3. -/
theorem kegus_eq_rounds {seed step coll chunk elem x y a b : Nat}
    (hx : (step % 2 ^ 32) ^^^ (seed % 2 ^ 32) = x)
    (hy : (chunk % 2 ^ 23 * 512 + elem) ^^^ (seed / 2 ^ 32 % 2 ^ 32) = y)
    (ha : (seed / 2 ^ 32 % 2 ^ 32 + (coll * 2 + chunk / 2 ^ 23 % 2)) % 2 ^ 32 = a)
    (hb : (seed % 2 ^ 32 + (coll * 2 + chunk / 2 ^ 23 % 2)) % 2 ^ 32 = b) :
    kegus seed step coll chunk elem =
      (kegusRound (kegusRound (kegusRound (kegusRound (x, y) (0x9E3779B9, 7, a)) (0x3C6EF372, 13, b)) (0xDAA66D2B, 17, a))
        (0x78DDE6E4, 25, b)).2 := by
  subst hx hy ha hb
  rfl

/-- Settles O53: the tables are evaluated round by round, and each output is the y of round 3 from the initial words and round keys that
R143 names. -/
theorem kegusTestVectors : Obligations.KegusTestVectors := by
  unfold Obligations.KegusTestVectors
  intro rounds
  refine ⟨?table1, ?output1, ?table2, ?output2⟩
  case table1 => decide
  case output1 => rw [kegus_eq_rounds (x := 0) (y := 0) (a := 0) (b := 0)] <;> decide
  case table2 => decide
  case output2 => rw [kegus_eq_rounds (x := 0x38A) (y := 0x3802) (a := 0x2B) (b := 0x25)] <;> decide

end Sys2Proof.Machine
end

section
/-! SUPPORT. PAUSE and RESUME of a Mover channel (R414): a command that a ring gives and that completes changes no Mover register, and what
the operations of a channel do to its STATE and BUSY. -/

namespace Sys2Proof.Machine

/-! ## Entries removed from sparse data -/

/-- A key that the test of a removal passes by keeps its value. -/
theorem SMap.find_eraseIf_of_kept {V : Type} {p : Key → V → Bool} {k : Key} (hk : ∀ v, p k v = false) (m : SMap V) :
    SMap.find k (SMap.eraseIf p m) = SMap.find k m := by
  induction m with
  | nil => rfl
  | cons x r ih =>
    unfold SMap.eraseIf at ih ⊢
    by_cases e : k = x.1
    · simp [SMap.find, ← e, hk]
    · by_cases hp : p x.1 x.2 = true <;> simp [SMap.find, hp, e, ih]

section Touches

variable {ps : List Part} {bs : List Block} {s t : State}

/-- Entries removed of one field, in a block that may change. -/
theorem State.touches_eraseIf {p : Key → Nat → Bool} {f : Fld} (b : Block) (hb : f.block = some b) (hm : b ∈ bs)
    (hp : ∀ i ix v, i ≠ f.id → p (i :: ix) v = false) (h : s.touches ps bs t) :
    s.touches ps bs { t with regs := SMap.eraseIf p t.regs } := by
  refine touches_trans h ⟨rfl, fun r _ => by cases r <;> rfl, fun g c ix hc hn => ?_⟩
  have hne : g.id ≠ f.id := fun e => hn (by
    rw [Fld.block_of_id e, hb] at hc
    exact Option.some.inj hc ▸ hm)
  simp only [State.rd, SMap.get, SMap.find_eraseIf_of_kept fun v => hp g.id ix v hne]

theorem State.touches_cqWait {m : SMap (List Nat)} (hm : Part.cqWait ∈ ps) (h : s.touches ps bs t) :
    s.touches ps bs { t with cqWait := m } := by
  refine touches_trans h ⟨rfl, fun r hn => ?_, fun _ _ _ _ _ => rfl⟩
  cases r
  case cqWait => exact absurd hm hn
  all_goals rfl

theorem State.touches_psBuf {m : SMap (List Nat)} (hm : Part.psBuf ∈ ps) (h : s.touches ps bs t) :
    s.touches ps bs { t with psBuf := m } := by
  refine touches_trans h ⟨rfl, fun r hn => ?_, fun _ _ _ _ _ => rfl⟩
  cases r
  case psBuf => exact absurd hm hn
  all_goals rfl

theorem State.touches_movCmds {m : SMap (List Nat)} (hm : Part.movCmds ∈ ps) (h : s.touches ps bs t) :
    s.touches ps bs { t with movCmds := m } := by
  refine touches_trans h ⟨rfl, fun r hn => ?_, fun _ _ _ _ _ => rfl⟩
  cases r
  case movCmds => exact absurd hm hn
  all_goals rfl

end Touches

/-! ## What the start and the completion of a ring's command may change -/

/-- The parts: the reads of the ring's entries report errors, the sampler watches, and a completion record is written or waits. -/
def commandParts : List Part := [.hbm, .badSectors, .errDue, .out, .cqWait, .psBuf, .movCmds]

/-- The blocks: those of the rings, the sampler and the counters, of a read and a write of HBM, of an error record and of a vector.  None is
the Mover's. -/
def commandBlocks : List Block := [.seq, .programs, .hbm, .memory, .ctr, .ctrm, .err, .power, .pci, .host, .observe]

section Commands

variable {s t : State}

/-- A detection is within what a command may change. -/
theorem State.touches_commandErr {e : ErrInfo} (h : s.touches commandParts commandBlocks t) :
    s.touches commandParts commandBlocks (t.err e) :=
  touches_trans h (touches_mono (touches_err touches_refl) (by decide) (by decide))

/-! ### Reads of partition memory (R376, R378) -/

theorem State.touches_channelNote {kind stack line : Nat} (h : s.touches commandParts commandBlocks t) :
    s.touches commandParts commandBlocks (t.channelNote kind stack line) := by
  unfold State.channelNote
  extract_lets ch mine u v n met
  have hu : s.touches commandParts commandBlocks u :=
    touches_eraseIf (f := V.CH_ERR) .memory rfl (by decide) (fun i ix _ hi => by simp [mine, hi]) h
  have hv : s.touches commandParts commandBlocks v := touches_bump .memory rfl (by decide) hu
  split
  · exact touches_wr .memory rfl (by decide) hv
  · exact hv

theorem State.touches_noteSector {det part stack sector : Nat} (h : s.touches commandParts commandBlocks t) :
    s.touches commandParts commandBlocks (t.noteSector det part stack sector) := by
  unfold State.noteSector
  extract_lets q l line u v w
  have hu : s.touches commandParts commandBlocks u := touches_countLocal (by decide) (touches_bumpOvf .hbm rfl rfl (by decide) h)
  have hv : s.touches commandParts commandBlocks v := by
    unfold v
    split
    · exact touches_wr .hbm rfl (by decide) hu
    · exact touches_raise .hbm rfl (by decide) hu
  have hw : s.touches commandParts commandBlocks w := touches_wr .hbm rfl (by decide) (touches_wr .hbm rfl (by decide)
    (touches_wr .hbm rfl (by decide) (touches_wr .hbm rfl (by decide) hv)))
  exact touches_commandErr (touches_channelNote hw)

theorem State.touches_noteCorrected {part stack sector : Nat} (h : s.touches commandParts commandBlocks t) :
    s.touches commandParts commandBlocks (t.noteCorrected part stack sector) := by
  unfold State.noteCorrected
  extract_lets q l u sec
  have hu : s.touches commandParts commandBlocks u :=
    touches_channelNote (touches_countLocal (by decide) (touches_bumpOvf .hbm rfl rfl (by decide) h))
  split
  · exact hu
  · exact touches_commandErr (touches_wr .memory rfl (by decide) hu)

theorem State.touches_noteOne {det part : Nat} {k : List Nat} (h : s.touches commandParts commandBlocks t) :
    s.touches commandParts commandBlocks (t.noteOne det part k) := by
  unfold State.noteOne
  split
  · exact touches_noteSector h
  · split
    · exact touches_noteCorrected h
    · exact h

theorem State.touches_noteRead {det part a n : Nat} (h : s.touches commandParts commandBlocks t) :
    s.touches commandParts commandBlocks (t.noteRead det part a n) := by
  unfold State.noteRead
  split
  · exact h
  · split
    · exact h
    · exact touches_foldl _ (fun _ _ hu => touches_noteOne hu) _ (touches_countBeats (by decide) h)

/-! ### The sampler (R553, R554) -/

theorem State.touches_samplePut {q rcd : Nat} (h : s.touches commandParts commandBlocks t) :
    s.touches commandParts commandBlocks (t.samplePut q rcd) := by
  unfold State.samplePut
  dsimp only
  split
  · exact touches_psBuf (by decide) h
  · split
    · exact touches_wr .ctr rfl (by decide) (touches_psBuf (by decide) h)
    · exact h

theorem State.touches_sampleBegin {source part unit id addr wait : Nat} {key : List Nat} (h : s.touches commandParts commandBlocks t) :
    s.touches commandParts commandBlocks (t.sampleBegin source part key unit id addr wait) := by
  have obs : ∀ {f : Fld} {ix : List Nat} {n : Nat} {u : State}, f.block = some .observe → s.touches commandParts commandBlocks u →
      s.touches commandParts commandBlocks (u.wr f ix n) := fun hf => touches_wr .observe hf (by decide)
  unfold State.sampleBegin
  dsimp only
  split
  · split
    · exact obs rfl (obs rfl (obs rfl (obs rfl h)))
    · exact obs rfl h
  · exact h

theorem State.touches_sampleEnd {key : List Nat} {status : Nat} (h : s.touches commandParts commandBlocks t) :
    s.touches commandParts commandBlocks (t.sampleEnd key status) := by
  unfold State.sampleEnd
  dsimp only
  split
  · exact h
  · exact touches_wr .observe rfl (by decide) (touches_wr .observe rfl (by decide)
      (touches_wr .observe rfl (by decide) (touches_samplePut h)))

/-! ### Completion records (R193, R194) -/

theorem State.touches_cqLost {p k : Nat} (h : s.touches commandParts commandBlocks t) :
    s.touches commandParts commandBlocks (t.cqLost p k) := touches_bumpOvf .seq rfl rfl (by decide) h

theorem State.touches_cqVector {p k : Nat} (h : s.touches commandParts commandBlocks t) :
    s.touches commandParts commandBlocks (t.cqVector p k) := by
  unfold State.cqVector
  split
  · exact touches_wr .programs rfl (by decide) (touches_wr .programs rfl (by decide)
      (touches_vector (by decide) (by decide) (by decide) (by decide) h))
  · exact touches_wr .programs rfl (by decide) h

theorem State.touches_cqPut {p k rcd : Nat} (h : s.touches commandParts commandBlocks t) :
    s.touches commandParts commandBlocks (t.cqPut p k rcd) := by
  unfold State.cqPut
  dsimp only
  split
  · next u e =>
    exact touches_cqVector (touches_bump .seq rfl (by decide) (touches_ringWrite (by decide) (by decide) (by decide) (by decide)
      (by decide) (by decide) (by decide) h e))
  · split
    · exact touches_cqLost (touches_hostFail (by decide) (by decide) h)
    · exact touches_cqLost h

theorem State.touches_cqPost {p k : Nat} {r : CqRec} (h : s.touches commandParts commandBlocks t) :
    s.touches commandParts commandBlocks (t.cqPost p k r) := by
  unfold State.cqPost
  dsimp only
  split
  · exact touches_cqLost h
  · split
    · exact touches_cqPut h
    · split
      · exact touches_cqWait (by decide) h
      · exact touches_cqLost h

/-! ### Rings (R190, R191) -/

theorem State.touches_ringStop {q p e status tag : Nat} (h : s.touches commandParts commandBlocks t) :
    s.touches commandParts commandBlocks (t.ringStop q p e status tag) :=
  touches_commandErr (touches_cqPost (touches_raise .seq rfl (by decide) h))

theorem State.touches_ringCheck {q p e : Nat} (h : s.touches commandParts commandBlocks t) :
    s.touches commandParts commandBlocks (t.ringCheck q p e) := by
  unfold State.ringCheck
  split
  · extract_lets u
    have hu : s.touches commandParts commandBlocks u := by
      unfold u
      split
      · exact touches_wr .observe rfl (by decide) (touches_noteRead h)
      · exact h
    split
    · exact touches_ringStop hu
    · split
      · exact hu
      · exact touches_ringStop hu
  · exact h

theorem State.touches_cmdStart {q p e entry : Nat} (h : s.touches commandParts commandBlocks t) :
    s.touches commandParts commandBlocks (t.cmdStart q p e entry) :=
  touches_ringCheck (touches_sampleBegin (touches_wr .observe rfl (by decide) (touches_bump .seq rfl (by decide) h)))

theorem State.touches_cmdDone {q p e entry status : Nat} (h : s.touches commandParts commandBlocks t) :
    s.touches commandParts commandBlocks (t.cmdDone q p e entry status) := by
  unfold State.cmdDone
  dsimp only
  split
  · exact touches_cqPost (touches_sampleEnd h)
  · exact touches_sampleEnd h

/-! ### The waiting commands of a channel (R409) -/

theorem State.touches_movCmdTake {q p c entry : Nat} (h : s.touches commandParts commandBlocks t) :
    s.touches commandParts commandBlocks (t.movCmdTake q p c entry) := touches_movCmds (by decide) (touches_cmdStart h)

theorem State.touches_movSettle {q p c : Nat} (h : s.touches commandParts commandBlocks t) :
    s.touches commandParts commandBlocks (t.movSettle q p c) :=
  touches_foldl _ (fun _ _ hu => touches_cmdDone hu) _ (touches_movCmds (by decide) h)

end Commands

/-! ## A Mover register through a command -/

/-- What a command may change holds no Mover register. -/
theorem State.rd_of_touches_command {s t : State} {f : Fld} (h : s.touches commandParts commandBlocks t) (hf : f.block = some .mov)
    (ix : List Nat) : t.rd f ix = s.rd f ix := h.2.2 f .mov ix hf (by decide)

theorem State.rd_movCmdTake {f : Fld} (hf : f.block = some .mov) (s : State) (q p c entry : Nat) (ix : List Nat) :
    (s.movCmdTake q p c entry).rd f ix = s.rd f ix := rd_of_touches_command (touches_movCmdTake touches_refl) hf ix

theorem State.rd_movSettle {f : Fld} (hf : f.block = some .mov) (s : State) (q p c : Nat) (ix : List Nat) :
    (s.movSettle q p c).rd f ix = s.rd f ix := rd_of_touches_command (touches_movSettle touches_refl) hf ix

/-! ## STATE and BUSY of a channel -/

/-- The state that a channel is given, cut to the field's 3 bits. -/
@[simp] theorem State.rd_setMov_state (s : State) (q p c st : Nat) :
    (s.setMov q p c st).rd F.MOV_CH_STAT_STATE [q, p, c] = st % 8 := rd_wr_same ..

/-- A new channel state leaves every other Mover register alone: beside STATE it writes only the sampler's count of waiting. -/
theorem State.rd_setMov_ne {f : Fld} (hf : f.block = some .mov) (hne : f.id ≠ F.MOV_CH_STAT_STATE.id) (s : State) (q p c st : Nat)
    (ix : List Nat) : (s.setMov q p c st).rd f ix = s.rd f ix := by
  have obs : ∀ {g : Fld}, g.block = some .observe → f.id ≠ g.id := fun hg e => by
    rw [Fld.block_of_id e, hg] at hf
    cases hf
  unfold State.setMov State.sampleWait
  dsimp only
  rw [rd_wr_ne hne]
  split_ifs <;> simp only [rd_wr_ne (obs (g := V.PS_WAIT) rfl), rd_wr_ne (obs (g := V.MOV_WAITC) rfl)]

/-- A PAUSED channel that continues runs, or waits at an unmet WAIT. -/
theorem State.movContinue_cases (s : State) (q p c : Nat) :
    s.movContinue q p c = s.setMov q p c 2 ∨ s.movContinue q p c = s.setMov q p c 1 := ite_eq_or_eq ..

/-- No instruction of a channel that is not RUNNING is executed. -/
theorem State.movAt_of_not_running {s : State} {q p c : Nat} (h : s.movSt q p c ≠ 1) (op : Nat) : s.movAt q p c op = none := by
  simp [State.movAt, State.movRuns, h]

/-- PAUSE of a channel neither RUNNING nor WAITING does nothing. -/
theorem State.movPause_of_not_active {s : State} {q p c : Nat} (h1 : s.movSt q p c ≠ 1) (h2 : s.movSt q p c ≠ 2) :
    s.movPause q p c = s := by
  simp [State.movPause, movAt_of_not_running h1, h1, h2]

/-- RESUME of a PAUSING channel is latched in BUSY. -/
theorem State.movResume_of_pausing {s : State} {q p c : Nat} (h : s.movSt q p c = 3) :
    s.movResume q p c = s.wr F.MOV_CH_STAT_BUSY [q, p, c] 1 := by
  simp [State.movResume, h]

/-- The drain of a channel with a RESUME latched and no ABORT pending ends in PAUSED, which the RESUME leaves at once. -/
theorem State.movDrainEnd_of_latched {s : State} {q p c : Nat} (hrun : s.rdb F.MOV_STAT_STOPPED [q] = false) (hst : s.movSt q p c = 3)
    (hdrop : s.rdb V.MOV_DROP [q, p, c] = false) (hbusy : s.rdb F.MOV_CH_STAT_BUSY [q, p, c] = true) :
    s.movDrainEnd q p c =
      (((((s.setMov q p c 4).movSettle q p c).wr F.MOV_CH_STAT_BUSY [q, p, c] 0).movContinue q p c).movSettle q p c) := by
  have hb : ((s.setMov q p c 4).movSettle q p c).rdb F.MOV_CH_STAT_BUSY [q, p, c] = true := by
    rw [State.rdb, rd_movSettle rfl, rd_setMov_ne rfl (by decide)]
    exact hbusy
  simp [State.movDrainEnd, hrun, hst, hdrop, hb]

/-! ## A command of the ring or of MOV_CH_CTL -/

/-- A command that is taken acts on a state with the same Mover registers, and settles. -/
theorem State.movCommand_of_taken {s : State} {q p c op entry : Nat} (f : State → State)
    (h : entry = 0 ∨ (s.ringCmd q p 3 op entry = true ∧ bitsOf entry 64 2 ≠ 0 ∧ movChan entry = c)) :
    ∃ u : State, s.movCommand q p c op entry f = (f u).movSettle q p c ∧
      ∀ (g : Fld) (ix : List Nat), g.block = some .mov → u.rd g ix = s.rd g ix := by
  by_cases h0 : entry = 0
  · exact ⟨s, by simp [State.movCommand, h0], fun _ _ _ => rfl⟩
  · obtain ⟨hring, hchan, hc⟩ := h.resolve_left h0
    exact ⟨s.movCmdTake q p c entry, by simp [State.movCommand, h0, hring, hchan, hc],
      fun _ ix hg => rd_movCmdTake hg s q p c entry ix⟩

/-- Settles O52: a taken command acts on the same Mover registers (`movCommand_of_taken`), so that each clause turns on what the channel's
operation does in the state given: latch BUSY, continue, or nothing. -/
theorem pauseAndResume : Obligations.PauseAndResume := by
  unfold Obligations.PauseAndResume
  intro taken
  refine ⟨?latched, ?applied, ?ignored⟩
  case latched =>
    intro q p c entry s hwf hon htaken hst
    obtain ⟨u, hrun, hmov⟩ := State.movCommand_of_taken (·.movResume q p c) htaken
    have hu : u.movSt q p c = 3 := (hmov _ _ rfl).trans hst
    rw [State.movResume_of_pausing hu] at hrun
    refine ⟨_, State.run_goes (f := (·.movResumeCmd q p c entry.toNat)) hwf hon hrun, ?_, ?_⟩
    · rw [State.rd_withQueue, State.rd_movSettle rfl, State.rd_wr_same]
      rfl
    · rw [State.rd_withQueue, State.rd_movSettle rfl, State.rd_wr_ne (by decide)]
      exact hu
  case applied =>
    intro q p c s hwf hon hgo hst hdrop hbusy
    refine ⟨_, State.run_goes (f := (·.movDrainEnd q p c)) hwf hon (State.movDrainEnd_of_latched hgo hst hdrop hbusy), ?_⟩
    simp only [State.rd_withQueue, State.rd_movSettle (f := F.MOV_CH_STAT_BUSY) rfl, State.rd_movSettle (f := F.MOV_CH_STAT_STATE) rfl]
    generalize (s.setMov q p c 4).movSettle q p c = u
    obtain hwait | hrun := State.movContinue_cases (u.wr F.MOV_CH_STAT_BUSY [q, p, c] 0) q p c
    · rw [hwait, State.rd_setMov_ne rfl (by decide), State.rd_wr_same, State.rd_setMov_state]
      exact ⟨rfl, .inr rfl⟩
    · rw [hrun, State.rd_setMov_ne rfl (by decide), State.rd_wr_same, State.rd_setMov_state]
      exact ⟨rfl, .inl rfl⟩
  case ignored =>
    intro q p c entry s hwf hon htaken hst
    obtain ⟨u, hrun, hmov⟩ := State.movCommand_of_taken (·.movPause q p c) htaken
    have hu : u.movSt q p c ∈ [0, 4] := by
      rw [State.movSt, hmov _ _ rfl]
      exact hst
    have h1 : u.movSt q p c ≠ 1 := fun e => by simp [e] at hu
    have h2 : u.movSt q p c ≠ 2 := fun e => by simp [e] at hu
    rw [State.movPause_of_not_active h1 h2] at hrun
    refine ⟨_, State.run_goes (f := (·.movPauseCmd q p c entry.toNat)) hwf hon hrun, fun f ix hf => ?_⟩
    rw [State.rd_withQueue, State.rd_movSettle hf]
    exact hmov f ix hf

end Sys2Proof.Machine
end

section
/-! SUPPORT. Answers, the reset state and the memory operations: every command is a run of its own operation, and the operations over HBM keep the
form of the memories. -/

namespace Sys2Proof.Machine

set_option Elab.async false

/-- Every command is the run of an operation of its own, on its own well-formedness. -/
theorem exec_eq_run (c : Instr) (s : State) : ∃ (up : Bool) (f : State → State), exec c s = s.run c.wf up f := by
  cases c with
  | registerWrite => exact ⟨_, _, exec_registerWrite ..⟩
  | splitReadLow => exact ⟨_, _, exec_splitReadLow ..⟩
  | seamCrcError => exact ⟨_, _, exec_seamCrcError ..⟩
  | seamDown => exact ⟨_, _, exec_seamDown ..⟩
  | knitLoad => exact ⟨_, _, exec_knitLoad ..⟩
  | knitAbort => exact ⟨_, _, exec_knitAbort ..⟩
  | knitCommit => exact ⟨_, _, exec_knitCommit ..⟩
  | knitFetchComplete => exact ⟨_, _, exec_knitFetchComplete ..⟩
  | groupCommit => exact ⟨_, _, exec_groupCommit ..⟩
  | resyncEnd => exact ⟨_, _, exec_resyncEnd ..⟩
  | quietTimeout => exact ⟨_, _, exec_quietTimeout ..⟩
  | knitVoteResult => exact ⟨_, _, exec_knitVoteResult ..⟩
  | voteCommitTimeout => exact ⟨_, _, exec_voteCommitTimeout ..⟩
  | borderDrainEnd => exact ⟨_, _, exec_borderDrainEnd ..⟩
  | borderDrainTimeout => exact ⟨_, _, exec_borderDrainTimeout ..⟩
  | borderZeroizeEnd => exact ⟨_, _, exec_borderZeroizeEnd ..⟩
  | packetHeaderArrival => exact ⟨_, _, exec_packetHeaderArrival ..⟩
  | ageExpiry => exact ⟨_, _, exec_ageExpiry ..⟩
  | epochFlip => exact ⟨_, _, exec_epochFlip ..⟩
  | epochRetire => exact ⟨_, _, exec_epochRetire ..⟩
  | resultResendTimer => exact ⟨_, _, exec_resultResendTimer ..⟩
  | cnackReceive => exact ⟨_, _, exec_cnackReceive ..⟩
  | kegusTestWrite => exact ⟨_, _, exec_kegusTestWrite ..⟩
  | contrib => exact ⟨_, _, exec_contrib ..⟩
  | admissionRequest => exact ⟨_, _, exec_admissionRequest ..⟩
  | admissionReply => exact ⟨_, _, exec_admissionReply ..⟩
  | slotReadoutComplete => exact ⟨_, _, exec_slotReadoutComplete ..⟩
  | tier0Partial => exact ⟨_, _, exec_tier0Partial ..⟩
  | partialDelivered => exact ⟨_, _, exec_partialDelivered ..⟩
  | partialReceive => exact ⟨_, _, exec_partialReceive ..⟩
  | resultFromRack => exact ⟨_, _, exec_resultFromRack ..⟩
  | publishFromRack => exact ⟨_, _, exec_publishFromRack ..⟩
  | pagerSpill => exact ⟨_, _, exec_pagerSpill ..⟩
  | pagerRecall => exact ⟨_, _, exec_pagerRecall ..⟩
  | pagerSwap => exact ⟨_, _, exec_pagerSwap ..⟩
  | pagerOpComplete => exact ⟨_, _, exec_pagerOpComplete ..⟩
  | sweepEnd => exact ⟨_, _, exec_sweepEnd ..⟩
  | slabLockTimeout => exact ⟨_, _, exec_slabLockTimeout ..⟩
  | ringDoorbell => exact ⟨_, _, exec_ringDoorbell ..⟩
  | doorbell => exact ⟨_, _, exec_doorbell ..⟩
  | ringErrClear => exact ⟨_, _, exec_ringErrClear ..⟩
  | cqRecordWrite => exact ⟨_, _, exec_cqRecordWrite ..⟩
  | collective => exact ⟨_, _, exec_collective ..⟩
  | armStep => exact ⟨_, _, exec_armStep ..⟩
  | trigger => exact ⟨_, _, exec_trigger ..⟩
  | increment => exact ⟨_, _, exec_increment ..⟩
  | abortCollective => exact ⟨_, _, exec_abortCollective ..⟩
  | stepReplay => exact ⟨_, _, exec_stepReplay ..⟩
  | stepReplayEnd => exact ⟨_, _, exec_stepReplayEnd ..⟩
  | warm => exact ⟨_, _, exec_warm ..⟩
  | done => exact ⟨_, _, exec_done ..⟩
  | gapNack => exact ⟨_, _, exec_gapNack ..⟩
  | patienceExpiry => exact ⟨_, _, exec_patienceExpiry ..⟩
  | reduceForward => exact ⟨_, _, exec_reduceForward ..⟩
  | convertMulticast => exact ⟨_, _, exec_convertMulticast ..⟩
  | normContribute => exact ⟨_, _, exec_normContribute ..⟩
  | updateShard => exact ⟨_, _, exec_updateShard ..⟩
  | publishOp => exact ⟨_, _, exec_publishOp ..⟩
  | snapshotOp => exact ⟨_, _, exec_snapshotOp ..⟩
  | signalHost => exact ⟨_, _, exec_signalHost ..⟩
  | incrementOp => exact ⟨_, _, exec_incrementOp ..⟩
  | waitEpoch => exact ⟨_, _, exec_waitEpoch ..⟩
  | triggerOpComplete => exact ⟨_, _, exec_triggerOpComplete ..⟩
  | partialResendTimer => exact ⟨_, _, exec_partialResendTimer ..⟩
  | podHoldExpiry => exact ⟨_, _, exec_podHoldExpiry ..⟩
  | stragClear => exact ⟨_, _, exec_stragClear ..⟩
  | chunkHandoff => exact ⟨_, _, exec_chunkHandoff ..⟩
  | updatePass => exact ⟨_, _, exec_updatePass ..⟩
  | stepDecided => exact ⟨_, _, exec_stepDecided ..⟩
  | stepTimerExpiry => exact ⟨_, _, exec_stepTimerExpiry ..⟩
  | updateProgressTimeout => exact ⟨_, _, exec_updateProgressTimeout ..⟩
  | publish => exact ⟨_, _, exec_publish ..⟩
  | snapshot => exact ⟨_, _, exec_snapshot ..⟩
  | import_ => exact ⟨_, _, exec_import ..⟩
  | setT => exact ⟨_, _, exec_setT ..⟩
  | gramAcc => exact ⟨_, _, exec_gramAcc ..⟩
  | matmul => exact ⟨_, _, exec_matmul ..⟩
  | nsRoot => exact ⟨_, _, exec_nsRoot ..⟩
  | nsOrtho => exact ⟨_, _, exec_nsOrtho ..⟩
  | apply => exact ⟨_, _, exec_apply ..⟩
  | gramWaitRelease => exact ⟨_, _, exec_gramWaitRelease ..⟩
  | gramUnit => exact ⟨_, _, exec_gramUnit ..⟩
  | gramProgressTimeout => exact ⟨_, _, exec_gramProgressTimeout ..⟩
  | mitMember => exact ⟨_, _, exec_mitMember ..⟩
  | mitRow => exact ⟨_, _, exec_mitRow ..⟩
  | mitColumn => exact ⟨_, _, exec_mitColumn ..⟩
  | mitCourier => exact ⟨_, _, exec_mitCourier ..⟩
  | mitRoundAbort => exact ⟨_, _, exec_mitRoundAbort ..⟩
  | mitPeerResend => exact ⟨_, _, exec_mitPeerResend ..⟩
  | mitCarryResend => exact ⟨_, _, exec_mitCarryResend ..⟩
  | mitRoleSet => exact ⟨_, _, exec_mitRoleSet ..⟩
  | noticeEnWrite => exact ⟨_, _, exec_noticeEnWrite ..⟩
  | noticeRepeat => exact ⟨_, _, exec_noticeRepeat ..⟩
  | bankAdmit => exact ⟨_, _, exec_bankAdmit ..⟩
  | egressStreamStart => exact ⟨_, _, exec_egressStreamStart ..⟩
  | packetRelease => exact ⟨_, _, exec_packetRelease ..⟩
  | flushEnd => exact ⟨_, _, exec_flushEnd ..⟩
  | depthBroadcast => exact ⟨_, _, exec_depthBroadcast ..⟩
  | mirCtlWrite => exact ⟨_, _, exec_mirCtlWrite ..⟩
  | lowClr => exact ⟨_, _, exec_lowClr ..⟩
  | peakClr => exact ⟨_, _, exec_peakClr ..⟩
  | linkDownHoldEnd => exact ⟨_, _, exec_linkDownHoldEnd ..⟩
  | linkSignalDetect => exact ⟨_, _, exec_linkSignalDetect ..⟩
  | linkTrainEnd => exact ⟨_, _, exec_linkTrainEnd ..⟩
  | linkAlignDone => exact ⟨_, _, exec_linkAlignDone ..⟩
  | linkAttemptTimeout => exact ⟨_, _, exec_linkAttemptTimeout ..⟩
  | linkX2SlotEnd => exact ⟨_, _, exec_linkX2SlotEnd ..⟩
  | linkRetrainTimeout => exact ⟨_, _, exec_linkRetrainTimeout ..⟩
  | lcfReceive => exact ⟨_, _, exec_lcfReceive ..⟩
  | syncReq => exact ⟨_, _, exec_syncReq ..⟩
  | quiet => exact ⟨_, _, exec_quiet ..⟩
  | quietAck => exact ⟨_, _, exec_quietAck ..⟩
  | retrain => exact ⟨_, _, exec_retrain ..⟩
  | quietIdleExpiry => exact ⟨_, _, exec_quietIdleExpiry ..⟩
  | linkWake => exact ⟨_, _, exec_linkWake ..⟩
  | peerSignalWake => exact ⟨_, _, exec_peerSignalWake ..⟩
  | codewordDecode => exact ⟨_, _, exec_codewordDecode ..⟩
  | creditStarve => exact ⟨_, _, exec_creditStarve ..⟩
  | laneErrorWindow => exact ⟨_, _, exec_laneErrorWindow ..⟩
  | degradeSwitch => exact ⟨_, _, exec_degradeSwitch ..⟩
  | ucwWindow => exact ⟨_, _, exec_ucwWindow ..⟩
  | lcfLoss => exact ⟨_, _, exec_lcfLoss ..⟩
  | linkRetrainWrite => exact ⟨_, _, exec_linkRetrainWrite ..⟩
  | linkEnWrite => exact ⟨_, _, exec_linkEnWrite ..⟩
  | linkInject => exact ⟨_, _, exec_linkInject ..⟩
  | patrolScrub => exact ⟨_, _, exec_patrolScrub ..⟩
  | hbmRetire => exact ⟨_, _, exec_hbmRetire ..⟩
  | hbmRetireCmd => exact ⟨_, _, exec_hbmRetireCmd ..⟩
  | spareRemapEnd => exact ⟨_, _, exec_spareRemapEnd ..⟩
  | hbmLockTimeout => exact ⟨_, _, exec_hbmLockTimeout ..⟩
  | hbmInject => exact ⟨_, _, exec_hbmInject ..⟩
  | parkWrite => exact ⟨_, _, exec_parkWrite ..⟩
  | parkRead => exact ⟨_, _, exec_parkRead ..⟩
  | parkApply => exact ⟨_, _, exec_parkApply ..⟩
  | parkServiceFault => exact ⟨_, _, exec_parkServiceFault ..⟩
  | moverStart => exact ⟨_, _, exec_moverStart ..⟩
  | moverPause => exact ⟨_, _, exec_moverPause ..⟩
  | moverResume => exact ⟨_, _, exec_moverResume ..⟩
  | moverAbort => exact ⟨_, _, exec_moverAbort ..⟩
  | moverErrClear => exact ⟨_, _, exec_moverErrClear ..⟩
  | move => exact ⟨_, _, exec_move ..⟩
  | fill => exact ⟨_, _, exec_fill ..⟩
  | compare => exact ⟨_, _, exec_compare ..⟩
  | wait => exact ⟨_, _, exec_wait ..⟩
  | waitMet => exact ⟨_, _, exec_waitMet ..⟩
  | signal => exact ⟨_, _, exec_signal ..⟩
  | link => exact ⟨_, _, exec_link ..⟩
  | end_ => exact ⟨_, _, exec_end ..⟩
  | pauseDrainEnd => exact ⟨_, _, exec_pauseDrainEnd ..⟩
  | moverRecordWrite => exact ⟨_, _, exec_moverRecordWrite ..⟩
  | moverBusError => exact ⟨_, _, exec_moverBusError ..⟩
  | moverBeatTimeout => exact ⟨_, _, exec_moverBeatTimeout ..⟩
  | moverRestart => exact ⟨_, _, exec_moverRestart ..⟩
  | eventCounterWrite => exact ⟨_, _, exec_eventCounterWrite ..⟩
  | adcWindow => exact ⟨_, _, exec_adcWindow ..⟩
  | tachLost => exact ⟨_, _, exec_tachLost ..⟩
  | trayStep => exact ⟨_, _, exec_trayStep ..⟩
  | capStep => exact ⟨_, _, exec_capStep ..⟩
  | pwrAlertAssert => exact ⟨_, _, exec_pwrAlertAssert ..⟩
  | pwrAlertRelease => exact ⟨_, _, exec_pwrAlertRelease ..⟩
  | accGo => exact ⟨_, _, exec_accGo ..⟩
  | yofenKick => exact ⟨_, _, exec_yofenKick ..⟩
  | yofenWatchdog => exact ⟨_, _, exec_yofenWatchdog ..⟩
  | trayClaim => exact ⟨_, _, exec_trayClaim ..⟩
  | trayOwnConflict => exact ⟨_, _, exec_trayOwnConflict ..⟩
  | ownerPublish => exact ⟨_, _, exec_ownerPublish ..⟩
  | contestStart => exact ⟨_, _, exec_contestStart ..⟩
  | contestResolve => exact ⟨_, _, exec_contestResolve ..⟩
  | degradedClear => exact ⟨_, _, exec_degradedClear ..⟩
  | standbyQualify => exact ⟨_, _, exec_standbyQualify ..⟩
  | trayYield => exact ⟨_, _, exec_trayYield ..⟩
  | telemetrySend => exact ⟨_, _, exec_telemetrySend ..⟩
  | managerHeartbeat => exact ⟨_, _, exec_managerHeartbeat ..⟩
  | managerLost => exact ⟨_, _, exec_managerLost ..⟩
  | autonomousHold => exact ⟨_, _, exec_autonomousHold ..⟩
  | pumpStage1 => exact ⟨_, _, exec_pumpStage1 ..⟩
  | pumpStage2 => exact ⟨_, _, exec_pumpStage2 ..⟩
  | pumpStage3 => exact ⟨_, _, exec_pumpStage3 ..⟩
  | pumpStageClear => exact ⟨_, _, exec_pumpStageClear ..⟩
  | trayBusRecovery => exact ⟨_, _, exec_trayBusRecovery ..⟩
  | trayInject => exact ⟨_, _, exec_trayInject ..⟩
  | cartInsert => exact ⟨_, _, exec_cartInsert ..⟩
  | cartPresenceLost => exact ⟨_, _, exec_cartPresenceLost ..⟩
  | cartTouch => exact ⟨_, _, exec_cartTouch ..⟩
  | cartCuffOpen => exact ⟨_, _, exec_cartCuffOpen ..⟩
  | preDrainCancel => exact ⟨_, _, exec_preDrainCancel ..⟩
  | cartButton => exact ⟨_, _, exec_cartButton ..⟩
  | cartButtonHold => exact ⟨_, _, exec_cartButtonHold ..⟩
  | trayButton => exact ⟨_, _, exec_trayButton ..⟩
  | trayButtonHold => exact ⟨_, _, exec_trayButtonHold ..⟩
  | cartDrain => exact ⟨_, _, exec_cartDrain ..⟩
  | cartForce => exact ⟨_, _, exec_cartForce ..⟩
  | cartRejoin => exact ⟨_, _, exec_cartRejoin ..⟩
  | cartDrainComplete => exact ⟨_, _, exec_cartDrainComplete ..⟩
  | cartDrainTimeout => exact ⟨_, _, exec_cartDrainTimeout ..⟩
  | cartForceStop => exact ⟨_, _, exec_cartForceStop ..⟩
  | cartSafe => exact ⟨_, _, exec_cartSafe ..⟩
  | cartInService => exact ⟨_, _, exec_cartInService ..⟩
  | vinLow => exact ⟨_, _, exec_vinLow ..⟩
  | vinHoldupEnd => exact ⟨_, _, exec_vinHoldupEnd ..⟩
  | vinGood => exact ⟨_, _, exec_vinGood ..⟩
  | railTimeout => exact ⟨_, _, exec_railTimeout ..⟩
  | vauxLow => exact ⟨_, _, exec_vauxLow ..⟩
  | powerRequest => exact ⟨_, _, exec_powerRequest ..⟩
  | p2QuietEnd => exact ⟨_, _, exec_p2QuietEnd ..⟩
  | yofenIdleStop => exact ⟨_, _, exec_yofenIdleStop ..⟩
  | engineGate => exact ⟨_, _, exec_engineGate ..⟩
  | engineWake => exact ⟨_, _, exec_engineWake ..⟩
  | warmHoldEnd => exact ⟨_, _, exec_warmHoldEnd ..⟩
  | refclkLost => exact ⟨_, _, exec_refclkLost ..⟩
  | refclkReturn => exact ⟨_, _, exec_refclkReturn ..⟩
  | refclkLossTimeout => exact ⟨_, _, exec_refclkLossTimeout ..⟩
  | oscCalibrate => exact ⟨_, _, exec_oscCalibrate ..⟩
  | thermalTrip => exact ⟨_, _, exec_thermalTrip ..⟩
  | coldReset => exact ⟨_, _, exec_coldReset ..⟩
  | moduleReset => exact ⟨_, _, exec_moduleReset ..⟩
  | quadrantReset => exact ⟨_, _, exec_quadrantReset ..⟩
  | partitionReset => exact ⟨_, _, exec_partitionReset ..⟩
  | perst => exact ⟨_, _, exec_perst ..⟩
  | startupStepComplete => exact ⟨_, _, exec_startupStepComplete ..⟩
  | loadtestRun => exact ⟨_, _, exec_loadtestRun ..⟩
  | loadtestPhaseEnd => exact ⟨_, _, exec_loadtestPhaseEnd ..⟩
  | lifecycleObject => exact ⟨_, _, exec_lifecycleObject ..⟩
  | ownerEnrol => exact ⟨_, _, exec_ownerEnrol ..⟩
  | firmwareFloor => exact ⟨_, _, exec_firmwareFloor ..⟩
  | knitFloor => exact ⟨_, _, exec_knitFloor ..⟩
  | challengeRead => exact ⟨_, _, exec_challengeRead ..⟩
  | debugRequestD1 => exact ⟨_, _, exec_debugRequestD1 ..⟩
  | tokenSubmit => exact ⟨_, _, exec_tokenSubmit ..⟩
  | debugRelease => exact ⟨_, _, exec_debugRelease ..⟩
  | grantExpiry => exact ⟨_, _, exec_grantExpiry ..⟩
  | bypass => exact ⟨_, _, exec_bypass ..⟩
  | idcode => exact ⟨_, _, exec_idcode ..⟩
  | samplePreload => exact ⟨_, _, exec_samplePreload ..⟩
  | extest => exact ⟨_, _, exec_extest ..⟩
  | extestPulse => exact ⟨_, _, exec_extestPulse ..⟩
  | extestTrain => exact ⟨_, _, exec_extestTrain ..⟩
  | clamp => exact ⟨_, _, exec_clamp ..⟩
  | highz => exact ⟨_, _, exec_highz ..⟩
  | dbgReq => exact ⟨_, _, exec_dbgReq ..⟩
  | dbgToken => exact ⟨_, _, exec_dbgToken ..⟩
  | dbgAccess => exact ⟨_, _, exec_dbgAccess ..⟩
  | firmwareUpdate => exact ⟨_, _, exec_firmwareUpdate ..⟩
  | getVersion => exact ⟨_, _, exec_getVersion ..⟩
  | getCapabilities => exact ⟨_, _, exec_getCapabilities ..⟩
  | negotiateAlgorithms => exact ⟨_, _, exec_negotiateAlgorithms ..⟩
  | getDigests => exact ⟨_, _, exec_getDigests ..⟩
  | getCertificate => exact ⟨_, _, exec_getCertificate ..⟩
  | challenge => exact ⟨_, _, exec_challenge ..⟩
  | getMeasurements => exact ⟨_, _, exec_getMeasurements ..⟩
  | setEndpointId => exact ⟨_, _, exec_setEndpointId ..⟩
  | pldmSensorRead => exact ⟨_, _, exec_pldmSensorRead ..⟩
  | pldmEffecterWrite => exact ⟨_, _, exec_pldmEffecterWrite ..⟩
  | bar2Read => exact ⟨_, _, exec_bar2Read ..⟩
  | bar2Write => exact ⟨_, _, exec_bar2Write ..⟩
  | pf0Flr => exact ⟨_, _, exec_pf0Flr ..⟩
  | pcieLinkDown => exact ⟨_, _, exec_pcieLinkDown ..⟩
  | hostAccessFail => exact ⟨_, _, exec_hostAccessFail ..⟩
  | msixUnmask => exact ⟨_, _, exec_msixUnmask ..⟩
  | counterClear => exact ⟨_, _, exec_counterClear ..⟩
  | tallySweep => exact ⟨_, _, exec_tallySweep ..⟩
  | samplerCtlWrite => exact ⟨_, _, exec_samplerCtlWrite ..⟩
  | injectEnableWrite => exact ⟨_, _, exec_injectEnableWrite ..⟩
  | errorInject => exact ⟨_, _, exec_errorInject ..⟩
  | debugWindowAccess => exact ⟨_, _, exec_debugWindowAccess ..⟩
  | cartLatchClose => exact ⟨_, _, exec_cartLatchClose ..⟩
  | retrainPrbsEnd => exact ⟨_, _, exec_retrainPrbsEnd ..⟩
  | yofenReboot => exact ⟨_, _, exec_yofenReboot ..⟩
  | quadrantResetEnd => exact ⟨_, _, exec_quadrantResetEnd ..⟩
  | moduleResetRelease => exact ⟨_, _, exec_moduleResetRelease ..⟩
  | ieee1588Time => exact ⟨_, _, exec_ieee1588Time ..⟩

/-- A command answers a next state with the queue of the state before it. -/
theorem exec_answers (c : Instr) (s : State) : ∃ t, exec c s = .next t ∧ t.pending = s.pending := by
  obtain ⟨up, f, e⟩ := exec_eq_run c s
  rw [e]
  rcases s.run_cases c.wf up f with ⟨-, h⟩ | ⟨-, h⟩
  · exact ⟨s, h, rfl⟩
  · exact ⟨_, h, rfl⟩

/-- Settles O41: every command is a run, which answers a next state and changes nothing on operands that name no unit. -/
theorem everyCommandAnswers : Obligations.EveryCommandAnswers := by
  intro c s
  refine ⟨exec_answers c s, fun h => ?_⟩
  obtain ⟨up, f, e⟩ := exec_eq_run c s
  rw [e, State.run_none h]

/-- Settles O1. -/
theorem stepRunsFrontCommand : Obligations.StepRunsFrontCommand := fun _ _ _ => rfl

/-- Settles O3: the state after reset holds nothing, so every field reads its reset value and the memories are canonical. -/
theorem resetState : Obligations.ResetState :=
  ⟨State.rd_reset, State.rd_reset _ _, State.rd_reset _ _, rfl, rfl, rfl, rfl, rfl, (by intro i h; cases h), State.memWf_reset⟩

end Sys2Proof.Machine
end

section
/-! SUPPORT. The move between windows (R147) and the least of the active caps (R428). -/

namespace Sys2Proof.Machine

set_option Elab.async false

/-! ## Windows -/

theorem sat128_of_fits {l : Int} (h : -(2 ^ 127 : Int) ≤ l) (k : l < 2 ^ 127) : sat128 l = (l, false) := by
  rw [sat128, if_neg (by omega), if_neg (by omega)]

theorem sat128_of_above {l : Int} (h : 2 ^ 127 ≤ l) : sat128 l = (2 ^ 127 - 1, true) := if_pos h

theorem sat128_of_below {l : Int} (h : l < -(2 ^ 127 : Int)) : sat128 l = (-(2 ^ 127 : Int), true) := by
  rw [sat128, if_neg (by omega), if_pos h]

/-- Rounding to the nearest is within half a divisor, and even in a tie. -/
theorem roundInt_rne (n d : Nat) (hd : 0 < d) :
    2 * (roundInt n d .rne * d) ≤ 2 * n + d ∧ 2 * n ≤ 2 * (roundInt n d .rne * d) + d ∧
      ((2 * n = 2 * (roundInt n d .rne * d) + d ∨ 2 * n + d = 2 * (roundInt n d .rne * d)) → roundInt n d .rne % 2 = 0) := by
  have hdiv := Nat.div_add_mod' n d
  have hlt := Nat.mod_lt n hd
  simp only [roundInt, Bool.or_eq_true, decide_eq_true_eq, Bool.and_eq_true, beq_iff_eq]
  split
  · rw [Nat.add_mul, Nat.one_mul]
    omega
  · omega

/-- What is rounded by 2 or more fits again. -/
theorem roundInt_fits {n d : Nat} (hn : n ≤ 2 ^ 127) (hd : 2 ≤ d) : roundInt n d .rne < 2 ^ 127 := by
  obtain ⟨h, -, -⟩ := roundInt_rne n d (by omega)
  have := Nat.mul_le_mul_left (roundInt n d .rne) hd
  by_contra hc
  have h2 : 2 ^ 127 * d ≤ roundInt n d .rne * d := Nat.mul_le_mul_right d (by omega)
  omega

/-- Settles O55: downward the product is exact before it saturates; upward the quotient is rounded and is never too large. -/
theorem windowMove : Obligations.WindowMove := by
  intro l w w'
  refine ⟨fun hw h k => ?_, fun hw h => ?_, fun hw h => ?_, fun hw h k => ?_⟩
  · rw [moveWindow, if_pos hw, sat128_of_fits h k]
  · rw [moveWindow, if_pos hw, sat128_of_above h]
  · rw [moveWindow, if_pos hw, sat128_of_below h]
  · have hd : 2 ≤ 2 ^ (w' - w).toNat :=
      calc 2 = 2 ^ 1 := rfl
        _ ≤ 2 ^ (w' - w).toNat := Nat.pow_le_pow_right (by decide) (by omega)
    obtain ⟨hle, hge, heven⟩ := roundInt_rne l.natAbs (2 ^ (w' - w).toNat) (by omega)
    have hfit := roundInt_fits (n := l.natAbs) (by omega) hd
    refine ⟨roundInt l.natAbs (2 ^ (w' - w).toNat) .rne, ?_, ?_, ?_, ?_⟩
    · rw [moveWindow, if_neg (by omega)]
      exact sat128_of_fits (by split <;> omega) (by split <;> omega)
    · rwa [Nat.mul_assoc]
    · rwa [Nat.mul_assoc]
    · rwa [Nat.mul_assoc]

/-! ## Caps -/

/-- The value of an exact number. -/
def Ex.toRat (x : Ex) : ℚ := exNum x / x.d

theorem exLt_iff {x y : Ex} (hx : 0 < x.d) (hy : 0 < y.d) : exLt x y = true ↔ x.toRat < y.toRat := by
  have hx' : (0 : ℚ) < x.d := by exact_mod_cast hx
  have hy' : (0 : ℚ) < y.d := by exact_mod_cast hy
  rw [exLt, decide_eq_true_eq, Ex.toRat, Ex.toRat, div_lt_div_iff₀ hx' hy']
  exact_mod_cast Iff.rfl

/-- No number is below another that is no greater. -/
theorem exLt_eq_false_iff {x y : Ex} (hx : 0 < x.d) (hy : 0 < y.d) : exLt x y = false ↔ y.toRat ≤ x.toRat := by
  rw [← Bool.not_eq_true, exLt_iff hx hy, not_lt]

/-- The lesser of two, as the fold over the caps keeps it. -/
def lesser (a b : Nat × Ex) : Nat × Ex := if exLt b.2 a.2 then b else a

theorem lesser_cases (a b : Nat × Ex) : lesser a b = a ∨ lesser a b = b := by
  unfold lesser
  split
  · exact .inr rfl
  · exact .inl rfl

theorem lesser_toRat_le {a b : Nat × Ex} (ha : 0 < a.2.d) (hb : 0 < b.2.d) :
    (lesser a b).2.toRat ≤ a.2.toRat ∧ (lesser a b).2.toRat ≤ b.2.toRat := by
  unfold lesser
  split
  · next h => exact ⟨((exLt_iff hb ha).1 h).le, le_rfl⟩
  · next h => exact ⟨le_rfl, (exLt_eq_false_iff hb ha).1 (Bool.not_eq_true _ ▸ h)⟩

/-- The fold answers a member that is no greater than any. -/
theorem foldl_lesser (l : List (Nat × Ex)) : ∀ c : Nat × Ex, 0 < c.2.d → (∀ x ∈ l, 0 < x.2.d) →
    l.foldl lesser c ∈ c :: l ∧ ∀ x ∈ c :: l, (l.foldl lesser c).2.toRat ≤ x.2.toRat := by
  induction l with
  | nil => exact fun c _ _ => ⟨List.mem_singleton_self c, fun x hx => (List.mem_singleton.1 hx) ▸ le_rfl⟩
  | cons b r ih =>
    intro c hc hl
    have hb : 0 < b.2.d := hl b (.head _)
    have hm : 0 < (lesser c b).2.d := by
      rcases lesser_cases c b with e | e <;> rw [e] <;> assumption
    obtain ⟨hmem, hle⟩ := ih (lesser c b) hm fun x hx => hl x (.tail _ hx)
    obtain ⟨hlec, hleb⟩ := lesser_toRat_le hc hb
    have hfirst := hle _ (.head _)
    refine ⟨?_, fun x hx => ?_⟩
    · rw [List.foldl_cons]
      rcases List.mem_cons.1 hmem with h | h
      · rw [h]
        rcases lesser_cases c b with e | e <;> simp [e]
      · exact .tail _ (.tail _ h)
    · rcases List.mem_cons.1 hx with rfl | hx
      · exact hfirst.trans hlec
      rcases List.mem_cons.1 hx with rfl | hx
      · exact hfirst.trans hleb
      · exact hle x (.tail _ hx)

/-- The effective cap is one of the active caps, and no greater than any. -/
theorem State.effCap_least {s : State} (h : ∀ x ∈ s.caps, 0 < x.2.d) :
    s.effCap ∈ s.caps ∧ ∀ x ∈ s.caps, s.effCap.2.toRat ≤ x.2.toRat := by
  obtain ⟨c, r, e⟩ : ∃ c r, s.caps = c :: r := ⟨_, _, rfl⟩
  have heff : s.effCap = r.foldl lesser c := by
    unfold State.effCap
    rw [e]
    rfl
  rw [heff, e]
  exact foldl_lesser r c (h c (e ▸ .head _)) fun x hx => h x (e ▸ .tail _ hx)

theorem exScale_d_pos {x : Ex} (h : 0 < x.d) (k : Int) : 0 < (exScale x k).d := by
  unfold exScale
  split
  · exact h
  · exact Nat.mul_pos h (Nat.two_pow_pos _)

/-- A number that a format decodes has a denominator. -/
theorem decodeFloat_d_pos {f : Fmt} {bits : Nat} {x : Ex} (h : decodeFloat f bits = some x) : 0 < x.d := by
  unfold decodeFloat at h
  dsimp only at h
  generalize (if f.e4m3 then _ else _ : Bool) = special at h
  split at h
  · cases h
  · split at h <;> cases h <;> exact exScale_d_pos Nat.one_pos _

/-- A whole number of watts. -/
def wholeWatts (n : Nat) : Ex := ⟨false, n, 1⟩

/-- The power of 40 A at VIN. -/
def fortyAmps (vin : Ex) : Ex := { vin with n := 40 * vin.n }

/-- The cap of the module: the lesser of 2,000 W and 40 A at VIN. -/
def moduleCap (vin : Ex) : Ex :=
  if exLt (fortyAmps vin) (wholeWatts 2000) then fortyAmps vin else wholeWatts 2000

/-- The active caps where VIN is a number that is not negative. -/
theorem State.mem_caps {s : State} {vin : Ex} (hv : decodeFloat fmtFp32 (s.adc 0) = some vin) (hn : vin.neg = false) (x : Nat × Ex) :
    x ∈ s.caps ↔ x = (0, moduleCap vin) ∨ x = (1, wholeWatts (s.img.le 0x0A 4 0 0 2 % 4096)) ∨
      (s.rdb F.TRY_CAP_HOST_CAP_W [] = true ∧ x = (2, wholeWatts (s.rd F.TRY_CAP_HOST_CAP_W []))) ∨
      (s.rdb F.TRY_STAGE_PUMP [] = true ∧ x = (3, wholeWatts 600)) ∨
      (s.rdb F.TRY_ALERT_ASSERTED [] = true ∧ x = (4, wholeWatts (s.rd F.TRY_ALERT_ALERT_W []))) := by
  simp only [State.caps, hv, hn, Option.getD_some, List.mem_append, List.mem_cons, List.not_mem_nil, or_false, Bool.false_eq_true, if_false,
    List.mem_ite_nil_right, or_assoc, moduleCap, wholeWatts, fortyAmps]

theorem moduleCap_cases (vin : Ex) : moduleCap vin = fortyAmps vin ∨ moduleCap vin = wholeWatts 2000 := by
  unfold moduleCap
  split
  · exact .inl rfl
  · exact .inr rfl

theorem moduleCap_le {vin : Ex} (h : 0 < vin.d) :
    (moduleCap vin).toRat ≤ (wholeWatts 2000).toRat ∧ (moduleCap vin).toRat ≤ (fortyAmps vin).toRat := by
  have hle := lesser_toRat_le (a := (0, wholeWatts 2000)) (b := (0, fortyAmps vin)) Nat.one_pos h
  have he : (lesser (0, wholeWatts 2000) (0, fortyAmps vin)).2 = moduleCap vin := by
    rw [lesser, moduleCap, apply_ite Prod.snd]
  rwa [he] at hle

/-- Settles O56: the fold over the active caps answers one that is no greater than any; the module's own is the lesser of its two limits. -/
theorem effectiveCapIsTheLeast : Obligations.EffectiveCapIsTheLeast := by
  unfold Obligations.EffectiveCapIsTheLeast
  intro s vin hv hn whole forty policy host alert cap
  have hvd : 0 < vin.d := decodeFloat_d_pos hv
  have hmod : 0 < (moduleCap vin).d := by
    rcases moduleCap_cases vin with e | e <;> rw [e]
    · exact hvd
    · exact Nat.one_pos
  have hpos : ∀ x ∈ s.caps, 0 < x.2.d := by
    intro x hx
    rcases (State.mem_caps hv hn x).1 hx with rfl | rfl | ⟨-, rfl⟩ | ⟨-, rfl⟩ | ⟨-, rfl⟩
    · exact hmod
    all_goals exact Nat.one_pos
  obtain ⟨hmem, hle⟩ := State.effCap_least hpos
  have hcap : 0 < cap.d := hpos s.effCap hmem
  have hbelow : ∀ {y : Ex} (n : Nat), 0 < y.d → (n, y) ∈ s.caps → exLt y cap = false := fun n hy hm =>
    (exLt_eq_false_iff hy hcap).2 (hle (n, _) hm)
  have hmodule : cap.toRat ≤ (moduleCap vin).toRat := hle (0, moduleCap vin) ((State.mem_caps hv hn _).2 (.inl rfl))
  obtain ⟨hle2000, hleForty⟩ := moduleCap_le hvd
  refine ⟨?_, ?_, ?_, fun h => ?_, fun h => ?_, fun h => ?_, ?_⟩
  · exact (exLt_eq_false_iff Nat.one_pos hcap).2 (hmodule.trans hle2000)
  · exact (exLt_eq_false_iff (x := fortyAmps vin) hvd hcap).2 (hmodule.trans hleForty)
  · exact hbelow 1 Nat.one_pos ((State.mem_caps hv hn _).2 (.inr (.inl rfl)))
  · exact hbelow 2 Nat.one_pos ((State.mem_caps hv hn _).2 (.inr (.inr (.inl ⟨h, rfl⟩))))
  · exact hbelow 3 Nat.one_pos ((State.mem_caps hv hn _).2 (.inr (.inr (.inr (.inl ⟨h, rfl⟩)))))
  · exact hbelow 4 Nat.one_pos ((State.mem_caps hv hn _).2 (.inr (.inr (.inr (.inr ⟨h, rfl⟩)))))
  · rcases (State.mem_caps hv hn _).1 hmem with e | e | ⟨h, e⟩ | ⟨h, e⟩ | ⟨h, e⟩
    · rcases moduleCap_cases vin with k | k
      · exact .inr (.inl ((congrArg Prod.snd e).trans k))
      · exact .inl ((congrArg Prod.snd e).trans k)
    · exact .inr (.inr (.inl (congrArg Prod.snd e)))
    · exact .inr (.inr (.inr (.inl ⟨h, congrArg Prod.snd e⟩)))
    · exact .inr (.inr (.inr (.inr (.inl ⟨h, congrArg Prod.snd e⟩))))
    · exact .inr (.inr (.inr (.inr (.inr ⟨h, congrArg Prod.snd e⟩))))

end Sys2Proof.Machine
end

section
/-! SUPPORT. A host write of one register field (R11, R15, R594), and the contacts of the lanes (R577). -/

namespace Sys2Proof.Machine

set_option Elab.async false

/-! ## Bits put into a register -/

/-- The bits below a place, and those of a range of it, split a number. -/
theorem bitsOf_putBits {x lo w v l n : Nat} (hlo : lo ≤ l) (hhi : l + n ≤ lo + w) :
    bitsOf (putBits x lo w v) l n = bitsOf v (l - lo) n := by
  refine Nat.eq_of_testBit_eq fun i => ?_
  have hput : putBits x lo w v = x % 2 ^ lo + 2 ^ lo * (v % 2 ^ w + 2 ^ w * (x / 2 ^ lo / 2 ^ w)) := by
    have hx := Nat.div_add_mod x (2 ^ lo)
    have hd := Nat.div_add_mod (x / 2 ^ lo) (2 ^ w)
    simp only [putBits, bitsOf]
    generalize x / 2 ^ lo = d at *
    generalize hr : x % 2 ^ lo = r at *
    generalize d / 2 ^ w = e at *
    generalize d % 2 ^ w = m at *
    subst hd
    subst hx
    simp only [Nat.mul_add]
    rw [Nat.mul_comm m, Nat.mul_comm (v % 2 ^ w)]
    omega
  by_cases hi : i < n
  · have h1 : x % 2 ^ lo < 2 ^ lo := Nat.mod_lt _ (Nat.two_pow_pos _)
    have h2 : v % 2 ^ w < 2 ^ w := Nat.mod_lt _ (Nat.two_pow_pos _)
    simp only [bitsOf, Nat.testBit_mod_two_pow, Nat.testBit_div_two_pow, hput, hi, decide_true, Bool.true_and]
    rw [Nat.add_comm (x % 2 ^ lo), Nat.testBit_two_pow_mul_add _ h1, if_neg (by omega), Nat.add_comm (v % 2 ^ w),
      Nat.testBit_two_pow_mul_add _ h2, if_pos (by omega), Nat.testBit_mod_two_pow, decide_eq_true (by omega), Bool.true_and]
    congr 1
    omega
  · simp [bitsOf, Nat.testBit_mod_two_pow, hi]

/-! ## One field -/

section

variable {s : State} {h : RegHit} {w : RegWrite} {r : FieldRow}

theorem RegWrite.covers_of_within (hlo : w.lo ≤ r.lo) (hhi : r.lo + r.fld.w ≤ w.hi) (hw : 0 < r.fld.w) : w.covers r = true := by
  simp only [covers, Bool.and_eq_true, decide_eq_true_eq]
  omega

theorem State.fieldWrite_uncovered (hc : w.covers r = false) : s.fieldWrite h w r = s := by simp [fieldWrite, hc]

theorem State.fieldWrite_ro (ha : r.acc = .ro) : s.fieldWrite h w r = s := by simp [fieldWrite, ha]

theorem State.fieldWrite_rw (ha : r.acc = .rw) (hc : w.covers r = true) :
    s.fieldWrite h w r = s.hostWr r.fld h.ix (clampTo r.range (s.fieldNew h w r)) := by simp [fieldWrite, ha, hc]

theorem State.fieldWrite_w1c (ha : r.acc = .w1c) (hc : w.covers r = true) :
    s.fieldWrite h w r = if bitsOf w.bits r.lo r.fld.w = 0 then s else s.lower r.fld h.ix := by
  by_cases hb : bitsOf w.bits r.lo r.fld.w = 0 <;> simp [fieldWrite, fieldNew, ha, hc, hb]

theorem State.fieldWrite_w1s (ha : r.acc = .w1s) (hc : w.covers r = true) :
    s.fieldWrite h w r = if bitsOf w.bits r.lo r.fld.w = 0 then s else s.wr r.fld h.ix 1 := by
  by_cases hb : bitsOf w.bits r.lo r.fld.w = 0 <;> simp [fieldWrite, fieldNew, ha, hc, hb]

/-- A written field that is covered whole takes the written bits. -/
theorem State.fieldNew_rw (ha : r.acc = .rw) (hlo : w.lo ≤ r.lo) (hhi : r.lo + r.fld.w ≤ w.hi) :
    s.fieldNew h w r = bitsOf w.v (r.lo - w.lo) r.fld.w := by
  rw [fieldNew, ha]
  exact bitsOf_putBits hlo (by omega)

theorem bitsOf_lt (x lo w : Nat) : bitsOf x lo w < 2 ^ w := Nat.mod_lt _ (Nat.two_pow_pos w)

/-- A field that the host writes holds the value, and its note lies in a field of its own. -/
theorem State.rd_hostWr_same {f : Fld} {ix : List Nat} {v : Nat} (hv : v < 2 ^ f.w) : (s.hostWr f ix v).rd f ix = v := by
  rw [hostWr, rd_wr_other (by simp), rd_wr_same, Nat.mod_eq_of_lt hv]

theorem State.rd_hostWr_other {f g : Fld} {ix jx : List Nat} {v : Nat} (hk : (g.id, jx) ≠ (f.id, ix)) (hg : g.id ≠ V.HOST_W.id) :
    (s.hostWr f ix v).rd g jx = s.rd g jx := by
  rw [hostWr, rd_wr_ne hg, rd_wr_other (by simpa using hk)]

/-- A bit that an event sets in the cycle of the write stays. -/
theorem State.rd_lower_same {f : Fld} {ix : List Nat} :
    (s.lower f ix).rd f ix = if s.rd V.RAISED (f.id :: ix) = s.rd V.TIME_PS [] + 1 then s.rd f ix else 0 := by
  unfold lower raisedNow
  by_cases hr : s.rd V.RAISED (f.id :: ix) = s.rd V.TIME_PS [] + 1 <;> simp [hr]

theorem State.rd_lower_other {f g : Fld} {ix jx : List Nat} (hk : (g.id, jx) ≠ (f.id, ix)) : (s.lower f ix).rd g jx = s.rd g jx := by
  unfold lower
  split
  · rfl
  · exact rd_wr_other (by simpa using hk) ..

/-- A write of one field leaves the others alone, beside the note of the cycle. -/
theorem State.rd_fieldWrite_other {f : Fld} {ix : List Nat} (hk : (f.id, ix) ≠ (r.fld.id, h.ix)) (hf : f.id ≠ V.HOST_W.id) :
    (s.fieldWrite h w r).rd f ix = s.rd f ix := by
  cases hc : w.covers r
  · rw [fieldWrite_uncovered hc]
  cases ha : r.acc
  case rw => rw [fieldWrite_rw ha hc, rd_hostWr_other hk hf]
  case w1c =>
    rw [fieldWrite_w1c ha hc]
    split
    · rfl
    · exact rd_lower_other hk
  case w1s =>
    rw [fieldWrite_w1s ha hc]
    split
    · rfl
    · exact rd_wr_other (by simpa using hk) ..
  all_goals simp [fieldWrite, ha]

end

/-- Settles O57: by the access code of the field, with the bits that a write puts into its register. -/
theorem fieldAccess : Obligations.FieldAccess := by
  intro s h w r
  refine ⟨fun f ix hk hf => State.rd_fieldWrite_other hk hf, State.fieldWrite_uncovered, State.fieldWrite_ro, fun ha hlo hhi hw hr => ?_,
    fun lo hi ha hlo hhi hw hr hmax hle => ?_, fun ha hc hb => ?_, fun ha hb => ?_, fun ha hc hw hb => ?_, fun ha hb => ?_⟩
  · rw [State.fieldWrite_rw ha (RegWrite.covers_of_within hlo hhi hw), State.fieldNew_rw ha hlo hhi, hr]
    exact State.rd_hostWr_same (bitsOf_lt ..)
  · rw [State.fieldWrite_rw ha (RegWrite.covers_of_within hlo hhi hw), State.fieldNew_rw ha hlo hhi, hr]
    exact State.rd_hostWr_same (by simp only [clampTo]; omega)
  · rw [State.fieldWrite_w1c ha hc, if_neg hb, State.rd_lower_same]
  · cases hc : w.covers r
    · exact State.fieldWrite_uncovered hc
    · rw [State.fieldWrite_w1c ha hc, if_pos hb]
  · rw [State.fieldWrite_w1s ha hc, if_neg hb, State.rd_wr_same, hw, Nat.pow_one, Nat.one_mod]
  · cases hc : w.covers r
    · exact State.fieldWrite_uncovered hc
    · rw [State.fieldWrite_w1s ha hc, if_pos hb]

/-! ## Contacts -/

/-- Rows from the edge of the package, in the half of the contact's quadrant. -/
def edgeRow (row col : Nat) : Nat := if contactQuad row col < 2 then row - 1 else 96 - row

/-- The lane of a cell of the outer bands: two rows by four columns for each. -/
def cellLane (row col : Nat) : Nat := 12 * (edgeRow row col / 2) + (col - 1) % 48 / 4

/-- A contact of the outer bands carries a lane where it is one of the middle two pads of its cell. -/
theorem laneContact_eq_lane {row col n : Nat} {tx pos : Bool} : laneContact row col = .lane n tx pos ↔
    cellPad ((col - 1) % 48) = some pos ∧ cellLane row col < 160 ∧ n = 160 * contactQuad row col + cellLane row col ∧
      tx = (edgeRow row col % 2 == 0) := by
  have hcell : laneContact row col = match cellPad ((col - 1) % 48) with
      | some p => if cellLane row col < 160 then .lane (160 * contactQuad row col + cellLane row col) (edgeRow row col % 2 == 0) p else .gnd
      | none => .gnd := rfl
  rw [hcell]
  cases cellPad ((col - 1) % 48) with
  | none => simp
  | some p =>
    by_cases hl : cellLane row col < 160
    · simp only [hl, if_true, Contact.lane.injEq, Option.some.injEq, true_and]
      exact ⟨fun ⟨a, b, c⟩ => ⟨c, a.symm, b.symm⟩, fun ⟨c, a, b⟩ => ⟨a.symm, b.symm, c⟩⟩
    · simp [hl]

theorem cellPad_eq_some {c : Nat} {pos : Bool} : cellPad c = some pos ↔ c % 4 = if pos then 1 else 2 := by
  unfold cellPad
  cases pos <;> split <;> simp_all

/-- Where the quadrants lie: two of them in the upper half, and the odd ones to the right. -/
theorem contactQuad_eq {row col q : Nat} (hq : q < 4) :
    contactQuad row col = q ↔ (48 < row ↔ 2 ≤ q) ∧ (48 < col ↔ q % 2 = 1) := by
  unfold contactQuad b2n
  by_cases hr : 48 < row <;> by_cases hc : 48 < col <;>
    simp only [hr, hc, decide_true, decide_false, if_true, Bool.false_eq_true, if_false, true_iff, false_iff] <;> omega

theorem contactQuad_lt (row col : Nat) : contactQuad row col < 4 := by
  unfold contactQuad b2n
  split <;> split <;> omega

/-- The contact at a place of the outer bands. -/
theorem contactAt_band {row col : Nat} (h : row ≤ 28 ∨ 69 ≤ row) : contactAt row col = laneContact row col := by
  rw [contactAt, if_pos (by simpa using h)]

/-- The contact at the place of a lane, in either half of the package. -/
theorem contactAt_lane {q l : Nat} (tx pos : Bool) (hq : q < 4) (hl : l < 160) :
    contactAt (laneRow q l tx) (laneCol q l pos) = .lane (160 * q + l) tx pos := by
  have hrow : (q < 2 ∧ laneRow q l tx = (if tx then 1 else 2) + 2 * (l / 12)) ∨ (2 ≤ q ∧ laneRow q l tx = (if tx then 96 else 95) - 2 * (l / 12)) := by
    unfold laneRow
    dsimp only
    split <;> omega
  have hcol : laneCol q l pos = (if q % 2 = 1 then 48 else 0) + 4 * (l % 12) + (if pos then 2 else 3) := rfl
  have hquad : contactQuad (laneRow q l tx) (laneCol q l pos) = q := by
    rw [contactQuad_eq hq]
    split at hcol <;> cases tx <;> cases pos <;> simp only [if_true, Bool.false_eq_true, if_false] at hrow hcol <;> omega
  have hedge : edgeRow (laneRow q l tx) (laneCol q l pos) = 2 * (l / 12) + if tx then 0 else 1 := by
    rw [edgeRow, hquad]
    cases tx <;> simp only [if_true, Bool.false_eq_true, if_false] at hrow ⊢ <;> split <;> omega
  have hcell : (laneCol q l pos - 1) % 48 = 4 * (l % 12) + if pos then 1 else 2 := by
    rw [hcol]
    cases pos <;> simp only [if_true, Bool.false_eq_true, if_false] <;> split <;> omega
  have hlane : cellLane (laneRow q l tx) (laneCol q l pos) = l := by
    rw [cellLane, hedge, hcell]
    cases tx <;> cases pos <;> simp only [if_true, Bool.false_eq_true, if_false] <;> omega
  rw [contactAt_band (by cases tx <;> simp only [if_true, Bool.false_eq_true, if_false] at hrow <;> omega), laneContact_eq_lane, hlane, hquad, hedge,
    cellPad_eq_some, hcell]
  refine ⟨?_, hl, rfl, ?_⟩
  · cases pos <;> simp only [if_true, Bool.false_eq_true, if_false] <;> omega
  · cases tx <;> simp

/-- A contact that carries a lane of a port. -/
def Contact.isLane : Contact → Bool
  | .lane .. => true
  | _ => false

theorem regionM_no_lane : ∀ c ∈ regionM, c.isLane = false := by decide +kernel

theorem highContact_no_lane (row col : Nat) : (highContact row col).isLane = false := by
  unfold highContact
  dsimp only
  cases cellPad (col - 25) with
  | none => rfl
  | some p =>
    dsimp only
    repeat' split
    all_goals rfl

/-- Only the contacts of the outer bands carry lanes: those of regions M and H are supplies, signals and other links. -/
theorem contactAt_eq_lane {row col n : Nat} {tx pos : Bool} (h : contactAt row col = .lane n tx pos) : laneContact row col = .lane n tx pos := by
  by_cases hb : row ≤ 28 ∨ 69 ≤ row
  · rwa [contactAt_band hb] at h
  · have hno : (contactAt row col).isLane = false := by
      rw [contactAt, if_neg (by simpa using hb)]
      split
      · rw [List.getD_eq_getElem?_getD]
        cases he : regionM[24 * (row - 29) + (col - 1)]? with
        | none => rfl
        | some c => exact regionM_no_lane c (List.mem_of_getElem? he)
      split
      · exact highContact_no_lane row col
      split <;> rfl
    rw [h] at hno
    cases hno

/-- Settles O58: a lane's place is computed back from the contact's row and column, cell by cell. -/
theorem everyLaneHasItsContacts : Obligations.EveryLaneHasItsContacts := by
  refine ⟨fun q l tx pos hq hl => contactAt_lane tx pos hq hl, fun row col n tx pos hr1 hr2 hc1 hc2 h => ?_⟩
  obtain ⟨hpad, hlt, hn, htx⟩ := laneContact_eq_lane.1 (contactAt_eq_lane h)
  have hq := contactQuad_lt row col
  obtain ⟨hup, hright⟩ := (contactQuad_eq hq).1 rfl
  rw [cellPad_eq_some] at hpad
  have hdiv : n / 160 = contactQuad row col := by omega
  have hmod : n % 160 = cellLane row col := by omega
  have hlane : cellLane row col = 12 * (edgeRow row col / 2) + (col - 1) % 48 / 4 := rfl
  rw [hdiv, hmod]
  refine ⟨by omega, ?_, ?_⟩
  · have hedge : edgeRow row col = if contactQuad row col < 2 then row - 1 else 96 - row := rfl
    have htop : cellLane row col / 12 = edgeRow row col / 2 := by omega
    rw [laneRow, htop]
    have hodd : edgeRow row col % 2 = if tx then 0 else 1 := by
      rw [htx]
      rcases Nat.mod_two_eq_zero_or_one (edgeRow row col) with e | e <;> simp [e]
    by_cases hu : contactQuad row col < 2 <;> simp only [hu, if_true, if_false] at hedge ⊢ <;> cases tx <;>
      simp only [if_true, Bool.false_eq_true, if_false] at hodd ⊢ <;> omega
  · have hleft : cellLane row col % 12 = (col - 1) % 48 / 4 := by omega
    rw [laneCol, hleft]
    cases pos <;> simp only [if_true, Bool.false_eq_true, if_false] at hpad ⊢ <;> split <;> omega

end Sys2Proof.Machine
end

section
/-! SUPPORT. What the gates of the operations pass: services, units and registers that a count leaves alone. -/

namespace Sys2Proof.Machine

set_option Elab.async false

/-- A packet without damage reaches its service. -/
theorem State.atService_of_sound {s : State} {k : Packet} (q port : Nat) (f : State → State) (h : serviceCause k = none) :
    s.atService q port k f = f (s.takeSvc q port k) := by simp [State.atService, h]

/-- Work that its unit may begin. -/
theorem State.unit_of_unitGo {s : State} {q w p n : Nat} (f : State → State) (h : s.unitGo q w p n = true) :
    s.unit q w p n f = f (s.unitStart q w p n) := if_pos h

end Sys2Proof.Machine
end

section
/-! SUPPORT. Completion of the commands of the Woyth links and the seams: what each operation answers in the cases that its statement names. -/

namespace Sys2Proof.Machine

set_option Elab.async false

/-- The effect of SEAM_DOWN (R19). -/
theorem State.seamDown_eq {a b : Nat} {s : State} (hSeamDown : s.rdb V.SEAM_DOWN [min a b, max a b] = false) :
    let u := (s.wr V.SEAM_DOWN [min a b, max a b] 1).err { det := 0x04, sev := 2, quad := min a b, unit := seamPort (min a b) (max a b) }
    s.seamDown a b =
      ((u.wr V.PLANE_WITHDRAWN [] 1).withdraw u.presentDown 7) := by
  intro u
  simp [State.seamDown, hSeamDown, u]

/-- The effect of LINK_DOWN_HOLD_END (R353). -/
theorem State.downHoldEnd_eq {q port : Nat} {s : State} (hLnkState : s.lnkState q port = 0) (hPortPresent : s.portPresent q port = true)
    (hLnkPortCtlEn : s.rdb F.LNK_PORT_CTL_EN [q, port] = true) (hCartThere : s.cartThere q port = true) (hHatPstateState : s.rd
    F.HAT_PSTATE_STATE [] < 3) (hHatBootStep : s.rd F.HAT_BOOT_STEP [] = 11) (hQreset : s.rdb V.QRESET [q] = false) (hWakeClosed : s.rdb
    V.WAKE_CLOSED [] = false) :
    s.downHoldEnd q port =
      ((s.wr F.LNK_PORT_STAT_STATE [q, port] 1).wr F.LNK_PORT_STAT_LANES [q, port] 15) := by
  simp [State.downHoldEnd, State.setLnk, hLnkState, hPortPresent, hLnkPortCtlEn, hCartThere, hHatPstateState, hHatBootStep, hQreset, hWakeClosed]

/-- The effect of LINK_SIGNAL_DETECT (R353). -/
theorem State.signalDetect_eq {q port lanes : Nat} {s : State} (hLnkState : s.lnkState q port = 1) (hX2En : (lanes % 16 = 15 ∨ (s.x2En q
    port = true ∧ bitOf lanes 0 = true ∧ lanes % 16 ≠ 1))) :
    s.signalDetect q port lanes =
      (s.linkTrain q port 0) := by
  rcases hX2En with h | ⟨hx, hb, hl⟩
  · simp [State.signalDetect, hLnkState, h]
  · simp [State.signalDetect, hLnkState, hx, hb, hl]

/-- The effect of LINK_TRAIN_END (R353). -/
theorem State.trainEnd_eq {q port : Nat} {s : State} (hLnkState : s.lnkState q port = 2) :
    s.trainEnd q port =
      (((s.trainLanes q port).wr F.LNK_PORT_STAT_STATE [q, port] 3).framesStart q port) := by
  simp [State.trainEnd, State.setLnk, hLnkState]

/-- The effect of LINK_ALIGN_DONE (R353). -/
theorem State.alignDone_of_lnkState_3_lnkAttempt {q port : Nat} {s : State} (hLnkState : s.lnkState q port = 3) (hLnkAttempt : s.rateOk q
    port (s.rd V.LNK_ATTEMPT [q, port]) = true) (hRxOk : s.rxOk q port = true) :
    s.alignDone q port =
      (s.enterUp q port) := by
  simp [State.alignDone, hLnkState, hLnkAttempt, hRxOk]

theorem State.alignDone_of_lnkState_6_lnkPrbs {q port : Nat} {s : State} (hLnkState : s.lnkState q port = 6) (hLnkPrbs : s.rdb V.LNK_PRBS
    [q, port] = true) (hRxOk : s.rxOk q port = true) :
    s.alignDone q port =
      (s.enterUp q port) := by
  simp [State.alignDone, hLnkState, hLnkPrbs, hRxOk]

/-- The effect of LINK_ATTEMPT_TIMEOUT (R353). -/
theorem State.attemptTimeout_of_attempt_left {q port : Nat} {s : State} (hLnkState : s.lnkState q port = 3) (hLnkAttempt : s.rd
    V.LNK_ATTEMPT [q, port] < 2) :
    s.attemptTimeout q port =
      (s.linkTrain q port (s.rd V.LNK_ATTEMPT [q, port] + 1)) := by
  simp [State.attemptTimeout, hLnkState, hLnkAttempt]

theorem State.attemptTimeout_of_last_attempt {q port : Nat} {s : State} (hLnkState : s.lnkState q port = 3) (hLnkAttempt : s.rd
    V.LNK_ATTEMPT [q, port] = 2) :
    s.attemptTimeout q port =
      (s.linkDown q port 4) := by
  simp [State.attemptTimeout, hLnkState, hLnkAttempt]

/-- The effect of LINK_X2_SLOT_END (R354). -/
theorem State.x2SlotEnd_eq {q port : Nat} {s : State} (hLnkState : s.lnkState q port = 3) (hX2En : s.x2En q port = true) (hLnkSlot : s.rd
    V.LNK_SLOT [q, port] < 3) :
    s.x2SlotEnd q port =
      ((((s.wr V.LNK_SLOT [q, port] (s.rd V.LNK_SLOT [q, port] + 1)).wr F.LNK_PORT_STAT_LANES [q, port]
          (slotLanes (s.rd V.LNK_SLOT [q, port] + 1))).rxBegin q port).framesStart q port) := by
  simp [State.x2SlotEnd, hLnkState, hX2En, hLnkSlot]

/-- The effect of LINK_RETRAIN_TIMEOUT (R353). -/
theorem State.retrainTimeout_eq {q port : Nat} {s : State} (hLnkState : s.lnkState q port = 6) :
    s.retrainTimeout q port =
      ((s.wr F.LNK_PORT_STAT_STATE [q, port] 1).wr F.LNK_PORT_STAT_PEER_RX_OK [q, port] 0) := by
  simp [State.retrainTimeout, State.setLnk, hLnkState]

/-- The effect of LCF_RECEIVE (R346). -/
theorem State.lcfReceive_of_lnkState_or_lcfOk_not_rxLcfBad {q port : Nat} {flit : BitVec 512} {s : State} (hLnkState : (s.lnkState q port =
    3 ∨ s.lnkState q port = 6)) (hInjLink : s.injLink q port 3 = false) (hLcfOk : lcfOk flit.toNat = true) (hRxLcfBad : s.rdb V.RX_LCF_BAD
    [q, port] = false) :
    let r := ((s.wr V.RX_LCF_BAD [q, port] 0).runOf V.RX_LCF_RUN q port 4 true).runOf V.RX_OK_RUN q port 4 (bitOf flit.toNat 91)
    let u := (r.wr V.LNK_PEER_STATE [q, port] (bitsOf flit.toNat 88 3)).wr F.LNK_PORT_STAT_PEER_RX_OK [q, port] (bitsOf flit.toNat 91 1)
    let v := ((u.wr V.LNK_PEER_BAD [q, port] (bitsOf flit.toNat 92 4)).wr V.LNK_PEER_LANES [q, port] (bitsOf flit.toNat 96 4)).wr V.LNK_PEER_CTDN [q, port] (bitsOf flit.toNat 100 3)
    let x := v.regain q port (5 * v.rd V.RX_CW [q, port] - 1) flit.toNat
    s.lcfReceive q port flit.toNat =
      ((x.setBad q port (x.rd V.LNK_OWN_BAD [q, port])).uCheck q port false) := by
  rcases hLnkState with h | h <;> simp [State.lcfReceive, h, hInjLink, hLcfOk, hRxLcfBad]

theorem State.lcfReceive_of_lnkState_4_lcfOk_not_rxLcfBad {q port : Nat} {flit : BitVec 512} {s : State} (hLnkState : s.lnkState q port =
    4) (hInjLink : s.injLink q port 3 = false) (hLcfOk : lcfOk flit.toNat = true) (hRxLcfBad : s.rdb V.RX_LCF_BAD [q, port] = false) :
    let r := ((s.wr V.RX_LCF_BAD [q, port] 0).runOf V.RX_LCF_RUN q port 4 true).runOf V.RX_OK_RUN q port 4 (bitOf flit.toNat 91)
    let u := (r.wr V.LNK_PEER_STATE [q, port] (bitsOf flit.toNat 88 3)).wr F.LNK_PORT_STAT_PEER_RX_OK [q, port] (bitsOf flit.toNat 91 1)
    let v := ((u.wr V.LNK_PEER_BAD [q, port] (bitsOf flit.toNat 92 4)).wr V.LNK_PEER_LANES [q, port] (bitsOf flit.toNat 96 4)).wr V.LNK_PEER_CTDN [q, port] (bitsOf flit.toNat 100 3)
    let x := (v.regain q port (5 * v.rd V.RX_CW [q, port] - 1) flit.toNat).peerLimits q port flit.toNat
    s.lcfReceive q port flit.toNat =
      ((x.setBad q port (x.rd V.LNK_OWN_BAD [q, port])).uCheck q port false) := by
  intro r u v x
  simp [State.lcfReceive, hLnkState, hInjLink, hLcfOk, hRxLcfBad, r, u, v, x]

theorem State.lcfReceive_of_lnkState_4_rxLcfBad_or {q port : Nat} {flit : BitVec 512} {s : State} (hLnkState : s.lnkState q port = 4)
    (hInjLink : s.injLink q port 3 = false) (hRxLcfBad : (lcfOk flit.toNat = false ∨ s.rdb V.RX_LCF_BAD [q, port] = true)) :
    let r := ((s.wr V.RX_LCF_BAD [q, port] 0).runOf V.RX_LCF_RUN q port 4 false).runOf V.RX_OK_RUN q port 4 false
    s.lcfReceive q port flit.toNat =
      (r.bump F.LNK_PORT_ERR_LCF_BAD [q, port] 1) := by
  have hok : (lcfOk flit.toNat && !s.rdb V.RX_LCF_BAD [q, port]) = false := by
    rcases hRxLcfBad with h | h <;> simp [h]
  simp [State.lcfReceive, hLnkState, hInjLink, hok]

/-- The effect of SYNC_REQ (R351). -/
theorem State.syncReq_eq {q port vc : Nat} {sent : BitVec 16} {s : State} (hLnkState : s.lnkState q port = 4) (hLnkRcvd : 1 ≤ (sent.toNat %
    65536 + 65536 - s.rd V.LNK_RCVD [q, port, vc]) % 65536) (hLnkRcvd2 : (sent.toNat % 65536 + 65536 - s.rd V.LNK_RCVD [q, port, vc]) %
    65536 ≤ 32767) :
    let d := (sent.toNat % 65536 + 65536 - s.rd V.LNK_RCVD [q, port, vc]) % 65536
    s.syncReq q port vc sent.toNat =
      (((((s.bump V.LNK_RCVD [q, port, vc] d).bump V.LNK_LIMIT [q, port, vc] d).bump F.LNK_PORT_ERR_SYNCS [q, port] 1).countLegacy 8 1).lnkRecord q port 3 0 vc false) := by
  intro d
  simp [State.syncReq, hLnkState, hLnkRcvd, hLnkRcvd2, d]

/-- The effect of QUIET (R357). -/
theorem State.quietReq_of_not_lnkQuietReq_portIdle_sentIdle {q port : Nat} {s : State} (hLnkState : s.lnkState q port = 4) (hLnkQuietReq :
    s.rdb V.LNK_QUIET_REQ [q, port] = false) (hPortIdle : s.portIdle q port = true) (hSentIdle : s.sentIdle q port = true) :
    s.quietReq q port =
      (((s.lcfSend q port 3 0 0).goQuiet q port).wr V.QUIET_FRAMES [q, port] 3) := by
  simp [State.quietReq, hLnkState, hLnkQuietReq, hPortIdle, hSentIdle]

theorem State.quietReq_of_lnkQuietReq_portIdle {q port : Nat} {s : State} (hLnkState : s.lnkState q port = 4) (hLnkQuietReq : s.rdb
    V.LNK_QUIET_REQ [q, port] = true) (hPortIdle : s.portIdle q port = true) :
    s.quietReq q port =
      (s.goQuiet q port) := by
  simp [State.quietReq, hLnkState, hLnkQuietReq, hPortIdle]

theorem State.quietReq_of_not_portIdle {q port : Nat} {s : State} (hLnkState : s.lnkState q port = 4) (hPortIdle : s.portIdle q port =
    false) :
    s.quietReq q port =
      (s.wr V.LNK_QUIET_REQ [q, port] 0) := by
  simp [State.quietReq, hLnkState, hPortIdle]

/-- The effect of QUIET_ACK (R357). -/
theorem State.quietAck_eq {q port : Nat} {s : State} (hLnkState : s.lnkState q port = 4) (hLnkQuietReq : s.rdb V.LNK_QUIET_REQ [q, port] =
    true) (hLnkQuietReq2 : (s.wr V.LNK_QUIET_REQ [q, port] 0).portIdle q port = true) :
    s.quietAck q port =
      ((s.wr V.LNK_QUIET_REQ [q, port] 0).goQuiet q port) := by
  simp [State.quietAck, hLnkState, hLnkQuietReq, hLnkQuietReq2]

/-- The effect of QUIET_IDLE_EXPIRY (R356). -/
theorem State.quietIdle_eq {q port : Nat} {s : State} (hLnkState : s.lnkState q port = 4) (hQuietEn : s.quietEn q port = true) (hPortIdle :
    s.portIdle q port = true) :
    s.quietIdle q port =
      ((s.lcfSend q port 2 0 0).wr V.LNK_QUIET_REQ [q, port] 1) := by
  simp [State.quietIdle, hLnkState, hQuietEn, hPortIdle]

/-- The effect of LINK_WAKE (R359). -/
theorem State.linkWake_eq {q port : Nat} {s : State} (hLnkState : s.lnkState q port = 5) (hPortIdle : s.portIdle q port = false) (hLnkP2 :
    s.rdb V.LNK_P2 [q, port] = false) :
    let u := s.wakeUp q port
    s.linkWake q port =
      (u.wr V.TX_NEXT [q, port] (u.rd V.TX_NEXT [q, port] + 65)) := by
  intro u
  simp [State.linkWake, hLnkState, hPortIdle, hLnkP2, u]

/-- The effect of PEER_SIGNAL_WAKE (R359). -/
theorem State.peerWake_eq {q port : Nat} {s : State} (hLnkState : s.lnkState q port = 5) :
    s.peerWake q port =
      ((s.wr V.LNK_P2 [q, port] 0).wakeUp q port) := by
  simp [State.peerWake, hLnkState]

/-- The effect of CODEWORD_DECODE (R347). -/
theorem State.codeword_of_lnkLanePol_none {q port : Nat} {l0 l1 l2 l3 : BitVec 1360} {s : State} (hFramed : s.framed q port = true)
    (hInjLink : s.injLink q port 2 = false) (hInjLink2 : s.injLink q port 1 = false) :
    let c := s.rd V.RX_CW [q, port]
    rsDecode (rxWord (s.lanesOf q port) (fun j => s.rdb F.LNK_LANE_POL [q, 4 * port + j]) c [l0.toNat, l1.toNat, l2.toNat, l3.toNat]) = none →
    let u := s.wr V.RX_CW [q, port] ((c + 1) % 13)
    let v := ((u.bump F.LNK_PORT_ERR_UCW [q, port] 1).bumpSat V.UCW_COUNT [q, port] 1).runOf V.RX_CW_RUN q port 64 false
    let x := if c = 0 then v.wr V.RX_LCF_BAD [q, port] 1 else v
    s.codeword q port [l0.toNat, l1.toNat, l2.toNat, l3.toNat] =
      (if x.linkUp q port then x.rxDamaged q port c else x) := by
  intro c hLnkLanePol u v x
  simp [State.codeword, hFramed, hInjLink, hInjLink2, hLnkLanePol, c, u, v, x]

theorem State.codeword_of_lnkLanePol_some {q port : Nat} {l0 l1 l2 l3 : BitVec 1360} {w wrong : List Nat} {s : State} (hFramed : s.framed q
    port = true) (hInjLink : s.injLink q port 2 = false) (hInjLink2 : s.injLink q port 1 = false) :
    let c := s.rd V.RX_CW [q, port]
    rsDecode (rxWord (s.lanesOf q port) (fun j => s.rdb F.LNK_LANE_POL [q, 4 * port + j]) c [l0.toNat, l1.toNat, l2.toNat, l3.toNat]) =
        some (w, wrong) →
    let u := s.wr V.RX_CW [q, port] ((c + 1) % 13)
    let v := (u.countSymbols q port wrong fun j => b2n (false && u.rd V.INJ_TARGET [] / 64 % 4 == j)).runOf V.RX_CW_RUN q port 64 true
    s.codeword q port [l0.toNat, l1.toNat, l2.toNat, l3.toNat] =
      (if v.linkUp q port then v.rxFlits q port c ((symbolFlits (w.take 256)).map fun f => f.toNat) else v) := by
  intro c hLnkLanePol u v
  simp [State.codeword, hFramed, hInjLink, hInjLink2, hLnkLanePol, c, u, v]

/-- The effect of CREDIT_STARVE (R351). -/
theorem State.creditStarve_eq {q port vc : Nat} {s : State} (hStarved : s.starved q port vc = true) :
    s.creditStarve q port vc =
      (s.lcfSend q port 1 vc (s.rd V.LNK_SENT [q, port, vc])) := by
  simp [State.creditStarve, hStarved]

/-- The effect of LANE_ERROR_WINDOW (R360). -/
theorem State.laneWindow_eq {q port : Nat} {s : State} (hLanesRead : (s.lanesRead q port).injLink q port 1 = false) :
    s.laneWindow q port =
      (((s.lanesRead q port).setBad q port (s.lanesBad q port)).uCheck q port false) := by
  simp [State.laneWindow, hLanesRead]

/-- The effect of DEGRADE_SWITCH (R360). -/
theorem State.degradeSwitch_eq {q port : Nat} {s : State} (hLnkState : s.lnkState q port = 4) (hLnkCountdown : s.rd V.LNK_COUNTDOWN [q,
    port] = 1) :
    s.degradeSwitch q port =
      ((((((s.wr F.LNK_PORT_STAT_LANES [q, port] (s.rd V.LNK_KEEP [q, port])).wr V.LNK_COUNTDOWN [q, port] 0)).framesBegin q port).bump F.LNK_PORT_STAT_DEGRADES [q, port] 1).lnkRecord q port 1 0 0 false) := by
  simp [State.degradeSwitch, hLnkState, hLnkCountdown]

/-- The effect of LCF_LOSS (R361). -/
theorem State.lcfLoss_eq {q port : Nat} {s : State} (hLnkState : s.lnkState q port = 4) :
    s.lcfLoss q port =
      (s.linkRetrain q port 2 false) := by
  simp [State.lcfLoss, hLnkState]

/-- The effect of LINK_RETRAIN_WRITE (R365). -/
theorem State.retrainWrite_eq {q port : Nat} {value : BitVec 64} {s : State} (hBitOf : bitOf value.toNat 1 = true) :
    s.retrainWrite q port value.toNat =
      (s.linkRetrain q port 5 false) := by
  simp [State.retrainWrite, hBitOf]

/-- The effect of LINK_EN_WRITE (R365). -/
theorem State.enWrite_of_value_1 {q port : Nat} {value : BitVec 64} {s : State} (hValue : value.toNat % 2 = 1) :
    s.enWrite q port value.toNat =
      (s.hostWr F.LNK_PORT_CTL_EN [q, port] 1) := by
  simp [State.enWrite, hValue]

theorem State.enWrite_of_value_0 {q port : Nat} {value : BitVec 64} {s : State} (hValue : value.toNat % 2 = 0) :
    s.enWrite q port value.toNat =
      ((s.hostWr F.LNK_PORT_CTL_EN [q, port] 0).linkDown q port 1) := by
  simp [State.enWrite, hValue]

/-- The effect of LINK_INJECT (R365). -/
theorem State.linkInject_eq {q : Nat} {value : BitVec 64} {s : State} (hBitOf : bitOf value.toNat 11 = true) (hBitsOf : 1 ≤ bitsOf
    value.toNat 8 3) (hBitsOf2 : bitsOf value.toNat 8 3 ≤ 4) :
    let k := min 39 (bitsOf value.toNat 0 6)
    let u := ((s.wr F.LNK_INJ_PORT [q] k).wr F.LNK_INJ_LANE [q] (bitsOf value.toNat 6 2)).wr F.LNK_INJ_KIND [q] (bitsOf value.toNat 8 3)
    u.injAllowed false (u.portPart q k) false = true →
    s.linkInject q value.toNat =
      (u.injArm 2 0 q (u.portPart q k) (k + 64 * bitsOf value.toNat 6 2 + 256 * bitsOf value.toNat 8 3)) := by
  intro k u hInjAllowed
  simp [State.linkInject, hBitOf, hBitsOf, hBitsOf2, hInjAllowed, k, u]

/-- The effect of RETRAIN_PRBS_END (R353). -/
theorem State.retrainPrbsEnd_eq {q port : Nat} {s : State} (hLnkState : s.lnkState q port = 6) :
    s.retrainPrbsEnd q port =
      ((s.wr V.LNK_PRBS [q, port] 1).framesBegin q port) := by
  simp [State.retrainPrbsEnd, hLnkState]

/-- Settles O4: every clause is the run of its command, whose operation answers the state that the clause writes out. -/
theorem linkCommandsComplete : Obligations.LinkCommandsComplete := by
  refine ⟨?_, ?_, ?_, ?_, ?_, ?_, ?_, ?_, ?_, ?_, ?_, ?_, ?_, ?_, ?_, ?_, ?_, ?_, ?_, ?_, ?_, ?_, ?_, ?_, ?_, ?_, ?_, ?_, ?_, ?_, ?_, ?_, ?_, ?_, ?_⟩
  · intro a b s hwf hup
    exact (exec_seamCrcError ..).trans (State.run_goes hwf hup rfl)
  · intro a b s hwf hup hSeamDown _
    exact (exec_seamDown ..).trans (State.run_goes hwf hup (State.seamDown_eq hSeamDown))
  · intro q port s hwf hup hLnkState hPortPresent hLnkPortCtlEn hCartThere hHatPstateState hHatBootStep hQreset hWakeClosed
    exact (exec_linkDownHoldEnd ..).trans (State.run_goes hwf hup (State.downHoldEnd_eq hLnkState hPortPresent hLnkPortCtlEn hCartThere
        hHatPstateState hHatBootStep hQreset hWakeClosed))
  · intro q port lanes s hwf hup hLnkState hX2En
    exact (exec_linkSignalDetect ..).trans (State.run_goes hwf hup (State.signalDetect_eq hLnkState hX2En))
  · intro q port s hwf hup hLnkState
    exact (exec_linkTrainEnd ..).trans (State.run_goes hwf hup (State.trainEnd_eq hLnkState))
  · intro q port s hwf hup hLnkState hLnkAttempt hRxOk
    exact (exec_linkAlignDone ..).trans (State.run_goes hwf hup (State.alignDone_of_lnkState_3_lnkAttempt hLnkState hLnkAttempt hRxOk))
  · intro q port s hwf hup hLnkState hLnkPrbs hRxOk
    exact (exec_linkAlignDone ..).trans (State.run_goes hwf hup (State.alignDone_of_lnkState_6_lnkPrbs hLnkState hLnkPrbs hRxOk))
  · intro q port s hwf hup hLnkState hLnkAttempt
    exact (exec_linkAttemptTimeout ..).trans (State.run_goes hwf hup (State.attemptTimeout_of_attempt_left hLnkState hLnkAttempt))
  · intro q port s hwf hup hLnkState hLnkAttempt
    exact (exec_linkAttemptTimeout ..).trans (State.run_goes hwf hup (State.attemptTimeout_of_last_attempt hLnkState hLnkAttempt))
  · intro q port s hwf hup hLnkState hX2En hLnkSlot
    exact (exec_linkX2SlotEnd ..).trans (State.run_goes hwf hup (State.x2SlotEnd_eq hLnkState hX2En hLnkSlot))
  · intro q port s hwf hup hLnkState
    exact (exec_linkRetrainTimeout ..).trans (State.run_goes hwf hup (State.retrainTimeout_eq hLnkState))
  · intro q port flit s hwf hup hLnkState hInjLink hLcfOk hRxLcfBad _ _ _ _
    exact (exec_lcfReceive ..).trans (State.run_goes hwf hup (State.lcfReceive_of_lnkState_or_lcfOk_not_rxLcfBad hLnkState hInjLink hLcfOk hRxLcfBad))
  · intro q port flit s hwf hup hLnkState hInjLink hLcfOk hRxLcfBad _ _ _ _
    exact (exec_lcfReceive ..).trans (State.run_goes hwf hup (State.lcfReceive_of_lnkState_4_lcfOk_not_rxLcfBad hLnkState hInjLink hLcfOk hRxLcfBad))
  · intro q port flit s hwf hup hLnkState hInjLink hRxLcfBad _
    exact (exec_lcfReceive ..).trans (State.run_goes hwf hup (State.lcfReceive_of_lnkState_4_rxLcfBad_or hLnkState hInjLink hRxLcfBad))
  · intro q port vc sent s hwf hup hLnkState hLnkRcvd hLnkRcvd2 _
    exact (exec_syncReq ..).trans (State.run_goes hwf hup (State.syncReq_eq hLnkState hLnkRcvd hLnkRcvd2))
  · intro q port s hwf hup hLnkState hLnkQuietReq hPortIdle hSentIdle
    exact (exec_quiet ..).trans (State.run_goes hwf hup (State.quietReq_of_not_lnkQuietReq_portIdle_sentIdle hLnkState hLnkQuietReq hPortIdle
        hSentIdle))
  · intro q port s hwf hup hLnkState hLnkQuietReq hPortIdle
    exact (exec_quiet ..).trans (State.run_goes hwf hup (State.quietReq_of_lnkQuietReq_portIdle hLnkState hLnkQuietReq hPortIdle))
  · intro q port s hwf hup hLnkState hPortIdle
    exact (exec_quiet ..).trans (State.run_goes hwf hup (State.quietReq_of_not_portIdle hLnkState hPortIdle))
  · intro q port s hwf hup hLnkState hLnkQuietReq hLnkQuietReq2
    exact (exec_quietAck ..).trans (State.run_goes hwf hup (State.quietAck_eq hLnkState hLnkQuietReq hLnkQuietReq2))
  · intro q port s hwf hup _
    exact (exec_retrain ..).trans (State.run_goes hwf hup rfl)
  · intro q port s hwf hup hLnkState hQuietEn hPortIdle
    exact (exec_quietIdleExpiry ..).trans (State.run_goes hwf hup (State.quietIdle_eq hLnkState hQuietEn hPortIdle))
  · intro q port s hwf hup hLnkState hPortIdle hLnkP2 _
    exact (exec_linkWake ..).trans (State.run_goes hwf hup (State.linkWake_eq hLnkState hPortIdle hLnkP2))
  · intro q port s hwf hup hLnkState
    exact (exec_peerSignalWake ..).trans (State.run_goes hwf hup (State.peerWake_eq hLnkState))
  · intro q port l0 l1 l2 l3 s hwf hup hFramed hInjLink hInjLink2 _ hLnkLanePol _ _ _
    exact (exec_codewordDecode ..).trans (State.run_goes hwf hup (State.codeword_of_lnkLanePol_none hFramed hInjLink hInjLink2 hLnkLanePol))
  · intro q port l0 l1 l2 l3 w wrong s hwf hup hFramed hInjLink hInjLink2 _ hLnkLanePol _ _
    exact (exec_codewordDecode ..).trans (State.run_goes hwf hup (State.codeword_of_lnkLanePol_some hFramed hInjLink hInjLink2 hLnkLanePol))
  · intro q port vc s hwf hup hStarved
    exact (exec_creditStarve ..).trans (State.run_goes hwf hup (State.creditStarve_eq hStarved))
  · intro q port s hwf hup hLanesRead
    exact (exec_laneErrorWindow ..).trans (State.run_goes hwf hup (State.laneWindow_eq hLanesRead))
  · intro q port s hwf hup hLnkState hLnkCountdown
    exact (exec_degradeSwitch ..).trans (State.run_goes hwf hup (State.degradeSwitch_eq hLnkState hLnkCountdown))
  · intro q port s hwf hup _
    exact (exec_ucwWindow ..).trans (State.run_goes hwf hup rfl)
  · intro q port s hwf hup hLnkState
    exact (exec_lcfLoss ..).trans (State.run_goes hwf hup (State.lcfLoss_eq hLnkState))
  · intro q port value s hwf hup hBitOf _
    exact (exec_linkRetrainWrite ..).trans (State.run_goes hwf hup (State.retrainWrite_eq hBitOf))
  · intro q port value s hwf hup hValue
    exact (exec_linkEnWrite ..).trans (State.run_goes hwf hup (State.enWrite_of_value_1 hValue))
  · intro q port value s hwf hup hValue
    exact (exec_linkEnWrite ..).trans (State.run_goes hwf hup (State.enWrite_of_value_0 hValue))
  · intro q value s hwf hup hBitOf hBitsOf hBitsOf2 _ _ hInjAllowed
    exact (exec_linkInject ..).trans (State.run_goes hwf hup (State.linkInject_eq hBitOf hBitsOf hBitsOf2 hInjAllowed))
  · intro q port s hwf hup hLnkState
    exact (exec_retrainPrbsEnd ..).trans (State.run_goes hwf hup (State.retrainPrbsEnd_eq hLnkState))

end Sys2Proof.Machine
end

section
/-! SUPPORT. Completion of the commands of register access: what each operation answers in the cases that its statement names. -/

namespace Sys2Proof.Machine

set_option Elab.async false

/-- The effect of REGISTER_WRITE (R11). -/
theorem State.registerWrite_eq {fn off size : Nat} {value : BitVec 64} {s : State} (hPciUp : s.pciUp = true) (hBadAccess : badAccess off
    size = false) :
    s.registerWrite fn off size value.toNat =
      (((s.countModule 0 16 0 1).bar0Touch fn).bar0Store fn off size value.toNat) := by
  simp [State.registerWrite, hPciUp, hBadAccess]

/-- The effect of SPLIT_READ_LOW (R569). -/
theorem State.registerRead_eq {fn off size : Nat} {s : State} (hPciUp : s.pciUp = true) (hSize : size = 4) (hOff : off % 8 = 0) (hBadAccess
    : badAccess off 4 = false) (hX2000000 : (¬(0x2000000 ≤ off ∧ off < 0x3000000))) :
    let b := s.countModule 0 16 0 1
    (b.rdb V.SPLIT_OK [fn] = false ∨ off ≠ b.rd V.SPLIT_OFF [fn] + 4) →
    ((b.bar0Touch fn).bar0Value fn off 4).2.1 = 0 →
    let u := (b.bar0Touch fn).bar0Value fn off 4
    s.registerRead fn off size =
      ((((u.1.wr V.SPLIT_OFF [fn] off).wr V.SPLIT_HI [fn] (u.2.2 / 2 ^ 32)).wr V.SPLIT_OK [fn] 1).tlp
          (.completion fn 0 (leBytes 4 (u.2.2 % 2 ^ 32)))) := by
  intro b hsplit hst u
  have hheld : (b.rdb V.SPLIT_OK [fn] && (4 == 4 && off == b.rd V.SPLIT_OFF [fn] + 4)) = false := by
    rcases hsplit with h | h <;> simp [h]
  have hwin : (fn == 0 && (decide (0x2000000 ≤ off) && decide (off < 0x3000000))) = false := by
    rw [← Bool.decide_and, decide_eq_false hX2000000, Bool.and_false]
  have hload : b.bar0Load fn off 4 = (((u.1.wr V.SPLIT_OFF [fn] off).wr V.SPLIT_HI [fn] (u.2.2 / 2 ^ 32)).wr V.SPLIT_OK [fn] 1, 0, u.2.2 % 2 ^ 32) := by
    simp only [State.bar0Load, Bool.and_assoc, hheld, hwin, Bool.false_eq_true, if_false]
    simp [hst, hOff, u]
  subst hSize
  simp only [State.registerRead, hPciUp, Bool.not_true, Bool.false_eq_true, if_false, hBadAccess]
  rw [hload]
  exact if_neg (fun h => h rfl)

/-- The effect of KEGUS_TEST_WRITE (R152). -/
theorem State.kegusTestWrite_of_reg_0 {reg : Nat} {value : BitVec 64} {s : State} (hReg : reg = 0) :
    let u := s.wr F.LDG_KTEST_SEED_SEED [] value.toNat
    s.kegusTestWrite reg value.toNat =
      (u.wr F.LDG_KTEST_OUT_NOISE [] (kegus (u.rd F.LDG_KTEST_SEED_SEED []) (u.rd F.LDG_KTEST_IN_STEP []) (u.rd F.LDG_KTEST_IN_COLL []) (u.rd F.LDG_KTEST_POS_CHUNK []) (u.rd F.LDG_KTEST_POS_ELEM []))) := by
  intro u
  simp [State.kegusTestWrite, hReg, u]

theorem State.kegusTestWrite_of_reg_1 {reg : Nat} {value : BitVec 64} {s : State} (hReg : reg = 1) :
    let u := (s.wr F.LDG_KTEST_IN_STEP [] (bitsOf value.toNat 0 32)).wr F.LDG_KTEST_IN_COLL [] (bitsOf value.toNat 32 16)
    s.kegusTestWrite reg value.toNat =
      (u.wr F.LDG_KTEST_OUT_NOISE [] (kegus (u.rd F.LDG_KTEST_SEED_SEED []) (u.rd F.LDG_KTEST_IN_STEP []) (u.rd F.LDG_KTEST_IN_COLL []) (u.rd F.LDG_KTEST_POS_CHUNK []) (u.rd F.LDG_KTEST_POS_ELEM []))) := by
  intro u
  simp [State.kegusTestWrite, hReg, u]

theorem State.kegusTestWrite_of_position {reg : Nat} {value : BitVec 64} {s : State} (hReg : reg = 2) :
    let u := (s.wr F.LDG_KTEST_POS_CHUNK [] (bitsOf value.toNat 0 24)).wr F.LDG_KTEST_POS_ELEM [] (bitsOf value.toNat 24 9)
    s.kegusTestWrite reg value.toNat =
      (u.wr F.LDG_KTEST_OUT_NOISE [] (kegus (u.rd F.LDG_KTEST_SEED_SEED []) (u.rd F.LDG_KTEST_IN_STEP []) (u.rd F.LDG_KTEST_IN_COLL []) (u.rd F.LDG_KTEST_POS_CHUNK []) (u.rd F.LDG_KTEST_POS_ELEM []))) := by
  intro u
  simp [State.kegusTestWrite, hReg, u]

/-- The effect of DEBUG_WINDOW_ACCESS (R573). -/
theorem State.debugWindow_of_write {write : Bool} {off size : Nat} {value : BitVec 64} {s : State} (hWrite : write = true) :
    s.debugWindow write off size value.toNat =
      (s.registerWrite 0 (0x2000000 + off) size value.toNat) := by
  simp [State.debugWindow, hWrite]

theorem State.debugWindow_of_not_write {write : Bool} {off size : Nat} {value : BitVec 64} {s : State} (hWrite : write = false) :
    s.debugWindow write off size value.toNat =
      (s.registerRead 0 (0x2000000 + off) size) := by
  simp [State.debugWindow, hWrite]

/-- Settles O5: every clause is the run of its command, whose operation answers the state that the clause writes out. -/
theorem regCommandsComplete : Obligations.RegCommandsComplete := by
  refine ⟨?_, ?_, ?_, ?_, ?_, ?_, ?_⟩
  · intro fn off size value s hwf hPciUp hBadAccess
    exact (exec_registerWrite ..).trans (State.run_goes hwf rfl (State.registerWrite_eq hPciUp hBadAccess))
  · intro fn off size s hwf hPciUp hSize hOff hBadAccess hX2000000 _ hSplitOk hBar0Touch _
    exact (exec_splitReadLow ..).trans (State.run_goes hwf rfl (State.registerRead_eq hPciUp hSize hOff hBadAccess hX2000000 hSplitOk hBar0Touch))
  · intro reg value s hwf hup hReg _
    exact (exec_kegusTestWrite ..).trans (State.run_goes hwf hup (State.kegusTestWrite_of_reg_0 hReg))
  · intro reg value s hwf hup hReg _
    exact (exec_kegusTestWrite ..).trans (State.run_goes hwf hup (State.kegusTestWrite_of_reg_1 hReg))
  · intro reg value s hwf hup hReg _
    exact (exec_kegusTestWrite ..).trans (State.run_goes hwf hup (State.kegusTestWrite_of_position hReg))
  · intro write off size value s hwf hWrite
    exact (exec_debugWindowAccess ..).trans (State.run_goes hwf rfl (State.debugWindow_of_write hWrite))
  · intro write off size value s hwf hWrite
    exact (exec_debugWindowAccess ..).trans (State.run_goes hwf rfl (State.debugWindow_of_not_write hWrite))

end Sys2Proof.Machine
end

section
/-! SUPPORT. Completion of the commands of the switch core: what each operation answers in the cases that its statement names. -/

namespace Sys2Proof.Machine

set_option Elab.async false

/-- The effect of PACKET_HEADER_ARRIVAL (R108). -/
theorem State.headerArrival_of_staged {q port : Nat} {pkt : Packet} {s : State} {ds : List Dest} (hCorPortOpen : s.rdb
    F.COR_PORT_OPEN [q, port] = true) (hLnkLostBound : s.rdb V.LNK_LOST_BOUND [q, port] = false) (hM : (vcCls (pkVc pkt) = .m ∨
    s.stagingUse q port + pkCells pkt ≤ 24)) (hInjLink : s.injLink q port 4 = false) (hPkHcrcOk : pkHcrcOk pkt = true) (hCountIn :
    (s.countIn q port pkt).arrivalRoute q port pkt = .goal ds) (hM2 : vcCls (pkVc pkt) ≠ .m) (hIsEmpty : ds.isEmpty = false) :
    let u := (s.countIn q port pkt).bump V.LNK_RCVD [q, port, pkVc pkt] (credits pkt)
    let v := (u.lostCopies ⟨q, 1, vcHop (pkVc pkt)⟩ (pkPart pkt) pkt).foldl (fun t c => t.countDiscard q port (pkPart pkt) c) u
    let x := (v.wr V.INGRESS_OPEN [q, port] (if pkPayUnits pkt = 0 then 0 else 1)).wr V.INGRESS_UID [q, port] (v.rd V.PKT_UID [])
    s.headerArrival q port pkt =
      ((x.stage q port pkt (if port < 36 then 0 else 1) (vcHop (pkVc pkt)) x.timeNs (pkPart pkt) (x.readyAt q port pkt) ds).grant
          q port (pkVc pkt)) := by
  have hroom : ¬(vcCls (pkVc pkt) ≠ .m ∧ 24 < s.stagingUse q port + pkCells pkt) := by
    rintro ⟨hc, hn⟩
    rcases hM with h | h
    · exact hc h
    · omega
  simp only [State.headerArrival, hCorPortOpen, hLnkLostBound, Bool.not_true, Bool.or_self, Bool.false_eq_true, if_false,
    ← Bool.decide_and, decide_eq_true_eq, hroom, hInjLink, hPkHcrcOk, hCountIn, hM2, hIsEmpty]

theorem State.headerArrival_of_class_m {q port : Nat} {pkt : Packet} {s : State} {ds : List Dest} (hCorPortOpen : s.rdb F.COR_PORT_OPEN
    [q, port] = true) (hLnkLostBound : s.rdb V.LNK_LOST_BOUND [q, port] = false) (hInjLink : s.injLink q port 4 = false) (hPkHcrcOk :
    pkHcrcOk pkt = true) (hCountIn : (s.countIn q port pkt).arrivalRoute q port pkt = .goal ds) (hM2 : vcCls (pkVc pkt) = .m) :
    let u := (s.countIn q port pkt).bump V.LNK_RCVD [q, port, pkVc pkt] (credits pkt)
    let v := (u.lostCopies ⟨q, 1, vcHop (pkVc pkt)⟩ (pkPart pkt) pkt).foldl (fun t c => t.countDiscard q port (pkPart pkt) c) u
    s.headerArrival q port pkt =
      ((((v.mirror q port 0 pkt none 0 0).steer q port pkt ds).wr V.INGRESS_OPEN [q, port] 0).grant q port (pkVc pkt)) := by
  intro u v
  simp [State.headerArrival, hCorPortOpen, hLnkLostBound, hInjLink, hPkHcrcOk, hCountIn, hM2, u, v]

theorem State.headerArrival_of_countIn {q port : Nat} {pkt : Packet} {s : State} {c : Cause} (hCorPortOpen : s.rdb F.COR_PORT_OPEN [q,
    port] = true) (hLnkLostBound : s.rdb V.LNK_LOST_BOUND [q, port] = false) (hM : (vcCls (pkVc pkt) = .m ∨ s.stagingUse q port + pkCells
    pkt ≤ 24)) (hInjLink : s.injLink q port 4 = false) (hPkHcrcOk : pkHcrcOk pkt = true) (hCountIn : (s.countIn q port pkt).arrivalRoute q
    port pkt = .drop c) :
    let u := ((s.countIn q port pkt).bump V.LNK_RCVD [q, port, pkVc pkt] (credits pkt)).mirror q port 0 pkt (some c) 0 0
    s.headerArrival q port pkt =
      ((u.discard q port pkt c).grant q port (pkVc pkt)) := by
  have hroom : ¬(vcCls (pkVc pkt) ≠ .m ∧ 24 < s.stagingUse q port + pkCells pkt) := by
    rintro ⟨hc, hn⟩
    rcases hM with h | h
    · exact hc h
    · omega
  simp only [State.headerArrival, hCorPortOpen, hLnkLostBound, Bool.not_true, Bool.or_self, Bool.false_eq_true, if_false,
    ← Bool.decide_and, decide_eq_true_eq, hroom, hInjLink, hPkHcrcOk, hCountIn]

/-- The effect of AGE_EXPIRY (R108). -/
theorem State.ageExpiry_eq {q port : Nat} {s : State} {r : Reas} (hNextOut : s.nextOut q port = some r) (hAged : s.aged r = true) :
    s.ageExpiry q port =
      (s.ageOut q port r) := by
  simp [State.ageExpiry, hNextOut, hAged]

/-- The effect of BANK_ADMIT (R312). -/
theorem State.admitRow_eq {q input : Nat} {s : State} {h : Held} {rest : List Held} {b : Nat} (hNextHeader : s.nextHeader q input = some
    (h, rest)) (hFindBank : s.findBank q input (pkCells h.pkt) = some b) (hCorAdmit : s.rd V.COR_ADMIT [q] ≤ input) :
    let u := (s.admitHeld q input b h rest).wr V.COR_ADMIT [q] input
    let n := (SMap.get s.bufs [q] []).length
    s.admitRow q input =
      (match (SMap.get u.bufs [q] []).getLast? with | some x => if n < (SMap.get u.bufs [q] []).length then u.sramHook q 1 (pkPart x.pkt) 0 0 else u | none => u) := by
  have hadmit : s.bankAdmit q input = (s.admitHeld q input b h rest).wr V.COR_ADMIT [q] input := by
    simp only [State.bankAdmit, hCorAdmit.not_gt, if_false, hNextHeader, hFindBank]
  simp only [State.admitRow, hadmit] <;> rfl

/-- The effect of EGRESS_STREAM_START (R323). -/
theorem State.streamStart_eq {q output bank : Nat} {s : State} {v : Nat} {h : Held} {c : Copy} (hRoundEnd : (s.roundEnd q output
    (s.eligibleVcs q output)).pickVc q output bank = some v) (hGet : headOf (SMap.get (s.roundEnd q output (s.eligibleVcs q output)).bufs
    [q] []) bank output v = some (h, c)) (hCycle : (bank + s.rd V.CYCLE [q]) % 48 = output) (hStreaming : s.streaming q bank output =
    false) :
    let u := s.roundEnd q output (s.eligibleVcs q output)
    s.streamStart q output bank =
      (u.streamOut q output v h c) := by
  intro u
  simp [State.streamStart, hRoundEnd, hGet, hCycle, hStreaming, u]

/-- The effect of PACKET_RELEASE (R324). -/
theorem State.packetRelease_eq {q output : Nat} {s : State} {r : Reas} (hLinkUp : s.linkUp q output = true) (hWireFree : s.wireFree q
    output = true) (hNextOut : s.nextOut q output = some r) (hAged : s.aged r = false) :
    let u := (s.outTake q output r).putWire q output (s.rewrite r) r.inPort r.admitted r.since r.release r.pkt
    s.packetRelease q output =
      (u.injUpdate q output (clsIx (vcCls r.dest.vc))) := by
  intro u
  simp [State.packetRelease, hLinkUp, hWireFree, hNextOut, hAged, u]

/-- The effect of FLUSH_END (R331). -/
theorem State.flushEnd_of_not_corPortFlushing {q port : Nat} {s : State} (hCorPortFlushing : s.rdb F.COR_PORT_FLUSHING [q, port] = true)
    (hCorPortFlushing2 : (s.wr F.COR_PORT_FLUSHING [q, port] 0).linkUp q port = false) :
    s.flushEnd q port =
      (s.wr F.COR_PORT_FLUSHING [q, port] 0) := by
  simp [State.flushEnd, hCorPortFlushing, hCorPortFlushing2]

theorem State.flushEnd_of_corPortFlushing {q port : Nat} {s : State} (hCorPortFlushing : s.rdb F.COR_PORT_FLUSHING [q, port] = true)
    (hCorPortFlushing2 : (s.wr F.COR_PORT_FLUSHING [q, port] 0).linkUp q port = true) :
    s.flushEnd q port =
      ((s.wr F.COR_PORT_FLUSHING [q, port] 0).portOpen q port) := by
  simp [State.flushEnd, hCorPortFlushing, hCorPortFlushing2]

/-- The effect of MIR_CTL_WRITE (R334). -/
theorem State.mirCtlWrite_eq {q session : Nat} {value : BitVec 64} {s : State} :
    let v := value.toNat
    let k := bitsOf v 14 5
    let u := (((s.wr F.COR_MIR_CTL_EN [q, session] (bitsOf v 0 1)).wr F.COR_MIR_CTL_PORT [q, session] (min 47 (bitsOf v 1 6))).wr F.COR_MIR_CTL_DIR [q, session] (bitsOf v 7 1)).wr F.COR_MIR_CTL_CLASSES [q, session] (bitsOf v 8 6)
    let x := (((u.wr F.COR_MIR_CTL_K [q, session] (if 4 ≤ k ∧ k ≤ 24 then k else 24)).wr F.COR_MIR_CTL_DEST [q, session] (bitsOf v 19 2)).wr F.COR_MIR_CTL_PART [q, session] (bitsOf v 21 5)).wr F.COR_MIR_CTL_RANK [q, session] (bitsOf v 26 12)
    s.mirCtlWrite q session value.toNat =
      (((x.wr F.COR_MIR_CTL_LOG2SIZE [q, session] (max 4 (min 16 (bitsOf v 38 5)))).wr F.COR_MIR_CTL_VECTOR [q, session] (bitsOf v 43 11)).wr V.MIR_COUNT [q, session] 0) := by
  intro v k u x
  simp [State.mirCtlWrite, v, k, u, x]

/-- Settles O6: every clause is the run of its command, whose operation answers the state that the clause writes out. -/
theorem switchCommandsComplete : Obligations.SwitchCommandsComplete := by
  refine ⟨?_, ?_, ?_, ?_, ?_, ?_, ?_, ?_, ?_, ?_, ?_, ?_, ?_⟩
  · intro q port pkt s ds hwf hup hCorPortOpen hLnkLostBound hM hInjLink hPkHcrcOk hCountIn hM2 hIsEmpty _ _ _
    exact (exec_packetHeaderArrival ..).trans (State.run_goes hwf hup (State.headerArrival_of_staged hCorPortOpen hLnkLostBound hM
        hInjLink hPkHcrcOk hCountIn hM2 hIsEmpty))
  · intro q port pkt s ds hwf hup hCorPortOpen hLnkLostBound _ hInjLink hPkHcrcOk hCountIn hM2 _ _
    exact (exec_packetHeaderArrival ..).trans (State.run_goes hwf hup (State.headerArrival_of_class_m hCorPortOpen hLnkLostBound hInjLink
        hPkHcrcOk hCountIn hM2))
  · intro q port pkt s c hwf hup hCorPortOpen hLnkLostBound hM hInjLink hPkHcrcOk hCountIn _
    exact (exec_packetHeaderArrival ..).trans (State.run_goes hwf hup (State.headerArrival_of_countIn hCorPortOpen hLnkLostBound hM hInjLink
        hPkHcrcOk hCountIn))
  · intro q port s r hwf hup hNextOut hAged
    exact (exec_ageExpiry ..).trans (State.run_goes hwf hup (State.ageExpiry_eq hNextOut hAged))
  · intro q input s h rest b hwf hup hNextHeader hFindBank hCorAdmit _ _
    exact (exec_bankAdmit ..).trans (State.run_goes hwf hup (State.admitRow_eq hNextHeader hFindBank hCorAdmit))
  · intro q output bank s v h c hwf hup hRoundEnd hGet hCycle hStreaming _
    exact (exec_egressStreamStart ..).trans (State.run_goes hwf hup (State.streamStart_eq hRoundEnd hGet hCycle hStreaming))
  · intro q output s r hwf hup hLinkUp hWireFree hNextOut hAged _
    exact (exec_packetRelease ..).trans (State.run_goes hwf hup (State.packetRelease_eq hLinkUp hWireFree hNextOut hAged))
  · intro q port s hwf hup hCorPortFlushing hCorPortFlushing2
    exact (exec_flushEnd ..).trans (State.run_goes hwf hup (State.flushEnd_of_not_corPortFlushing hCorPortFlushing hCorPortFlushing2))
  · intro q port s hwf hup hCorPortFlushing hCorPortFlushing2
    exact (exec_flushEnd ..).trans (State.run_goes hwf hup (State.flushEnd_of_corPortFlushing hCorPortFlushing hCorPortFlushing2))
  · intro q s hwf hup
    exact (exec_depthBroadcast ..).trans (State.run_goes hwf hup rfl)
  · intro q session value s hwf hup _ _ _ _
    exact (exec_mirCtlWrite ..).trans (State.run_goes hwf hup State.mirCtlWrite_eq)
  · intro q s hwf hup
    exact (exec_lowClr ..).trans (State.run_goes hwf hup rfl)
  · intro q output cls s hwf hup
    exact (exec_peakClr ..).trans (State.run_goes hwf hup rfl)

end Sys2Proof.Machine
end

section
/-! SUPPORT. Completion of the commands of knit loads and commits: what each operation answers in the cases that its statement names. -/

namespace Sys2Proof.Machine

set_option Elab.async false

/-- The start of a load writes only the status of its function and what names the load. -/
theorem State.rd_knitFetching {f : Fld} (hf : ∀ g ∈ [F.KNT_STATUS_LAST_GROUP, F.KNT_STATUS_FAIL_GROUP, F.KNT_STATUS_FAIL_CODE,
    F.KNT_FAIL_FRAME_FRAME, F.KNT_STATUS_STATE, V.KNT_FN, V.KNT_WAIT], f.id ≠ g.id) (s : State) (fn : Nat) (ix : List Nat) :
    (s.knitFetching fn).rd f ix = s.rd f ix := by
  simp only [List.mem_cons, List.not_mem_nil, or_false, forall_eq_or_imp, forall_eq] at hf
  obtain ⟨h1, h2, h3, h4, h5, h6, h7⟩ := hf
  simp only [knitFetching, rd_wr_ne h1, rd_wr_ne h2, rd_wr_ne h3, rd_wr_ne h4, rd_wr_ne h5, rd_wr_ne h6, rd_wr_ne h7]

/-- The effect of KNIT_LOAD (R43). -/
theorem State.knitLoad_of_served {fn : Nat} {s : State} (hKnitBusy : s.knitBusy = false)
    (hTryStageHold : s.rdb F.TRY_STAGE_HOLD [] = false) (hHatPstateState : s.rd F.HAT_PSTATE_STATE [] < 2) (hImg : (fn = 0 ∨
    s.img.brimVfKnit fn = true)) (hHostOk : s.hostOk fn = true) :
    s.knitLoad fn =
      (s.knitFetching fn) := by
  have hst : ¬2 ≤ (s.knitFetching fn).rd F.HAT_PSTATE_STATE [] := by
    rw [State.rd_knitFetching (by decide)]
    omega
  have hhold : (s.knitFetching fn).rdb F.TRY_STAGE_HOLD [] = false := by rwa [State.rdb, State.rd_knitFetching (by decide)]
  have himg : (fn ≠ 0 && !(s.knitFetching fn).img.brimVfKnit fn) = false := by
    change (fn ≠ 0 && !s.img.brimVfKnit fn) = false
    rcases hImg with h | h <;> simp [h]
  have hhost : (s.knitFetching fn).hostOk fn = true := by
    rw [State.hostOk, State.rdb, State.rdb, State.rdb, State.rd_knitFetching (by decide), State.rd_knitFetching (by decide),
      State.rd_knitFetching (by decide)]
    exact hHostOk
  simp only [State.knitLoad, hKnitBusy, Bool.false_eq_true, if_false, hhold, hst, himg, hhost, Bool.not_true]

/-- The effect of KNIT_ABORT (R69). -/
theorem State.knitAbort_eq {fn : Nat} {s : State} (hKnitBusy : s.knitBusy = true) (hFn : fn < 32) (hKnitFn : s.knitFn = fn) :
    s.knitAbort fn =
      (s.knitFail 0x0C (if s.rd F.KNT_STATUS_STATE [fn] == 4 then s.rd V.KNT_GROUP [] else 0) 0) := by
  simp [State.knitAbort, hKnitBusy, hFn, hKnitFn]

/-- The effect of KNIT_COMMIT (R58). -/
theorem State.knitCommit_eq {fn : Nat} {s : State} (hFn : fn = 0) (hKnitBusy : s.knitBusy = true) (hKntWait : s.rd V.KNT_WAIT [] = 10)
    (hVoteCast : (s.voteCast 1).2 = true) :
    s.knitCommit fn =
      ((s.voteCast 1).1.wr V.KNT_WAIT [] 9) := by
  simp [State.knitCommit, State.knitVote, hFn, hKnitBusy, hKntWait, hVoteCast]

/-- The effect of KNIT_FETCH_COMPLETE (R43). -/
theorem State.fetchDone_eq {file : List Byte} {s : State} (hKnitBusy : s.knitBusy = true) (hKntWait : s.rd V.KNT_WAIT [] = 8) (hCountModule
    : (s.countModule 0 17 0 1).injRead s.knitFn = false) :
    s.fetchDone file =
      (((s.countModule 0 17 0 1).countModule 0 16 0 1).knitFetched file) := by
  simp [State.fetchDone, State.readGate, hKnitBusy, hKntWait, hCountModule]

/-- The effect of GROUP_COMMIT (R47). -/
theorem State.groupCommit_of_kntWait_1 {s : State} (hKnitBusy : s.knitBusy = true) (hKntWait : s.rd V.KNT_WAIT [] = 1) :
    s.groupCommit =
      ((s.groupApply s.nowFrames).knitNext) := by
  simp [State.groupCommit, hKnitBusy, hKntWait]

theorem State.groupCommit_of_kntWait_2_quietPoint {s : State} (hKnitBusy : s.knitBusy = true) (hKntWait : s.rd V.KNT_WAIT [] = 2)
    (hQuietPoint : s.quietPoint ((s.nowFrames.map (·.part)).headD 0) = true) :
    s.groupCommit =
      ((s.groupApply s.nowFrames).knitNext) := by
  simp only [State.groupCommit, hKnitBusy, hKntWait, hQuietPoint, Bool.not_true, Bool.false_eq_true, if_false, if_true]

/-- The effect of RESYNC_END (R49). -/
theorem State.resyncEnd_eq {s : State} (hKntCopyFn : s.rdb V.KNT_COPY_FN [] = true) (hResyncDone : s.resyncDone.knitBusy = false) :
    s.resyncEnd =
      (s.resyncDone) := by
  simp [State.resyncEnd, hKntCopyFn, hResyncDone]

/-- The effect of QUIET_TIMEOUT (R53). -/
theorem State.quietTimeout_eq {s : State} (hKnitBusy : s.knitBusy = true) (hKntWait : (s.rd V.KNT_WAIT [] = 2 ∨ s.rd V.KNT_WAIT [] = 3 ∨
    s.rd V.KNT_WAIT [] = 6)) :
    s.quietTimeout =
      (s.knitFail 0x0A (s.rd V.KNT_GROUP []) 0) := by
  rcases hKntWait with h | h | h <;> simp [State.quietTimeout, hKnitBusy, h]

/-- The effect of KNIT_VOTE_RESULT (R58). -/
theorem State.knitVoteResult_of_yes {s : State} {r : Round} (hKnitBusy : s.knitBusy = true) (hKntWait : s.rd V.KNT_WAIT [] = 9) (hRoundGet
    : s.roundGet s.knitHdr.vote (s.knitHdr.change % 2 ^ 32) = some r) (hYes : r.yes = true) :
    s.knitVoteResult =
      (s.knitPoint s.nowFrames) := by
  have hround : s.voteRound = some r := hRoundGet
  have hst : r.st = 2 := by
    simp only [Round.yes, Bool.and_eq_true, beq_iff_eq] at hYes
    exact hYes.1
  simp [State.knitVoteResult, State.voteDone, hKnitBusy, hKntWait, hround, hst, hYes]

theorem State.knitVoteResult_of_st_ne_not_yes {s : State} {r : Round} (hKnitBusy : s.knitBusy = true) (hKntWait : s.rd V.KNT_WAIT [] = 9)
    (hRoundGet : s.roundGet s.knitHdr.vote (s.knitHdr.change % 2 ^ 32) = some r) (hSt : r.st ≠ 1) (hYes : r.yes = false) :
    s.knitVoteResult =
      (s.knitFail 0x0D 0 0) := by
  have hround : s.voteRound = some r := hRoundGet
  simp [State.knitVoteResult, State.voteDone, hKnitBusy, hKntWait, hround, hSt, hYes]

/-- The effect of VOTE_COMMIT_TIMEOUT (R58). -/
theorem State.voteCommitTimeout_eq {s : State} (hKnitBusy : s.knitBusy = true) (hKntWait : s.rd V.KNT_WAIT [] = 10) (hVoteCast :
    (s.voteCast 0).2 = true) :
    s.voteCommitTimeout =
      ((s.voteCast 0).1.wr V.KNT_WAIT [] 9) := by
  simp [State.voteCommitTimeout, State.knitVote, hKnitBusy, hKntWait, hVoteCast]

/-- The effect of BORDER_DRAIN_END (R67). -/
theorem State.borderDrainEnd_eq {s : State} (hKnitBusy : s.knitBusy = true) (hKntWait : s.rd V.KNT_WAIT [] = 4) (hBorderDrained :
    s.borderDrained = true) :
    s.borderDrainEnd =
      ((((s.zeroMoves s.groupMoves).wr V.KNT_WAIT [] 5).wr V.KNT_TRIES [] 0).zeroWatch) := by
  simp [State.borderDrainEnd, hKnitBusy, hKntWait, hBorderDrained]

/-- The effect of BORDER_DRAIN_TIMEOUT (R68). -/
theorem State.borderDrainTimeout_eq {s : State} (hKnitBusy : s.knitBusy = true) (hKntWait : s.rd V.KNT_WAIT [] = 4) :
    s.borderDrainTimeout =
      (s.knitFail 0x0B (s.rd V.KNT_GROUP []) 0) := by
  simp [State.borderDrainTimeout, hKnitBusy, hKntWait]

/-- The effect of BORDER_ZEROIZE_END (R67). -/
theorem State.borderZeroizeEnd_of_badMoves {mismatch : List (Nat × Nat)} {s : State} (hKnitBusy : s.knitBusy = true) (hKntWait : s.rd
    V.KNT_WAIT [] = 5) (hBadMoves : (s.badMoves s.groupMoves mismatch).isEmpty = true) :
    s.borderZeroizeEnd mismatch =
      (s.borderApply.knitNext) := by
  simp [State.borderZeroizeEnd, hKnitBusy, hKntWait, hBadMoves]

theorem State.borderZeroizeEnd_of_not_badMoves_kntTries_0 {mismatch : List (Nat × Nat)} {s : State} (hKnitBusy : s.knitBusy = true)
    (hKntWait : s.rd V.KNT_WAIT [] = 5) (hBadMoves : (s.badMoves s.groupMoves mismatch).isEmpty = false) (hKntTries : s.rd V.KNT_TRIES [] =
    0) :
    s.borderZeroizeEnd mismatch =
      (((s.zeroMoves s.groupMoves).wr V.KNT_TRIES [] 1).zeroWatch) := by
  simp [State.borderZeroizeEnd, hKnitBusy, hKntWait, hBadMoves, hKntTries]

theorem State.borderZeroizeEnd_of_not_badMoves_kntTries_ne {mismatch : List (Nat × Nat)} {s : State} (hKnitBusy : s.knitBusy = true)
    (hKntWait : s.rd V.KNT_WAIT [] = 5) (hBadMoves : (s.badMoves s.groupMoves mismatch).isEmpty = false) (hKntTries : s.rd V.KNT_TRIES [] ≠
    0) :
    let u := (s.movedExtents (s.badMoves s.groupMoves mismatch)).foldl (fun t x => t.wr V.EXT_DEAD [x.1, x.2] 1) s
    s.borderZeroizeEnd mismatch =
      (u.knitFail 9 (u.rd V.KNT_GROUP []) 0) := by
  intro u
  simp [State.borderZeroizeEnd, hKnitBusy, hKntWait, hBadMoves, hKntTries, u]

/-- The effect of EPOCH_FLIP (R102). -/
theorem State.epochFlip_eq {p : Nat} {s : State} (hOldBank : s.oldBank p = false) (hWaitFlip : s.rdb V.WAIT_FLIP [p] = true) :
    s.epochFlip p =
      (((epochKeys p).foldl State.resyncImg s).flipNow p) := by
  simp [State.epochFlip, hOldBank, hWaitFlip]

/-- The effect of EPOCH_RETIRE (R101). -/
theorem State.epochRetire_eq {p : Nat} {s : State} (hBankValid : s.bankValid p (1 - s.stamp p) = true) (hInflight : s.inflight p (1 -
    s.stamp p) = 0) (hXptEpochState : ((s.wr (validFld (1 - s.stamp p)) [p] 0).wr F.XPT_EPOCH_STATE [p] (if s.rdb V.WAIT_FLIP [p] then 2
    else 0)).knitBusy = false) :
    let u := (s.wr (validFld (1 - s.stamp p)) [p] 0).wr F.XPT_EPOCH_STATE [p] (if s.rdb V.WAIT_FLIP [p] then 2 else 0)
    s.epochRetire p =
      (u) := by
  intro u
  simp [State.epochRetire, hBankValid, hInflight, hXptEpochState, u]

/-- Settles O7: every clause is the run of its command, whose operation answers the state that the clause writes out. -/
theorem knitCommandsComplete : Obligations.KnitCommandsComplete := by
  refine ⟨?_, ?_, ?_, ?_, ?_, ?_, ?_, ?_, ?_, ?_, ?_, ?_, ?_, ?_, ?_, ?_, ?_, ?_, ?_⟩
  · intro fn s hwf hup hKnitBusy hTryStageHold hHatPstateState hImg hHostOk
    exact (exec_knitLoad ..).trans (State.run_goes hwf hup (State.knitLoad_of_served hKnitBusy
        hTryStageHold hHatPstateState hImg hHostOk))
  · intro fn s hwf hup hKnitBusy
    exact (exec_knitLoad ..).trans (State.run_goes hwf hup (State.knitLoad_of_knitBusy hKnitBusy fn))
  · intro fn s hwf hup hKnitBusy hFn hKnitFn
    exact (exec_knitAbort ..).trans (State.run_goes hwf hup (State.knitAbort_eq hKnitBusy hFn hKnitFn))
  · intro fn s hwf hup hFn hKnitBusy hKntWait hVoteCast
    exact (exec_knitCommit ..).trans (State.run_goes hwf hup (State.knitCommit_eq hFn hKnitBusy hKntWait hVoteCast))
  · intro file s hwf hup hKnitBusy hKntWait hCountModule
    exact (exec_knitFetchComplete ..).trans (State.run_goes hwf hup (State.fetchDone_eq hKnitBusy hKntWait hCountModule))
  · intro s hup hKnitBusy hKntWait
    exact (exec_groupCommit ..).trans (State.run_goes rfl hup (State.groupCommit_of_kntWait_1 hKnitBusy hKntWait))
  · intro s hup hKnitBusy hKntWait hQuietPoint
    exact (exec_groupCommit ..).trans (State.run_goes rfl hup (State.groupCommit_of_kntWait_2_quietPoint hKnitBusy hKntWait hQuietPoint))
  · intro s hup hKntCopyFn hResyncDone
    exact (exec_resyncEnd ..).trans (State.run_goes rfl hup (State.resyncEnd_eq hKntCopyFn hResyncDone))
  · intro s hup hKnitBusy hKntWait
    exact (exec_quietTimeout ..).trans (State.run_goes rfl hup (State.quietTimeout_eq hKnitBusy hKntWait))
  · intro s r hup hKnitBusy hKntWait hRoundGet hYes
    exact (exec_knitVoteResult ..).trans (State.run_goes rfl hup (State.knitVoteResult_of_yes hKnitBusy hKntWait hRoundGet hYes))
  · intro s r hup hKnitBusy hKntWait hRoundGet hSt hYes
    exact (exec_knitVoteResult ..).trans (State.run_goes rfl hup (State.knitVoteResult_of_st_ne_not_yes hKnitBusy hKntWait hRoundGet hSt hYes))
  · intro s hup hKnitBusy hKntWait hVoteCast
    exact (exec_voteCommitTimeout ..).trans (State.run_goes rfl hup (State.voteCommitTimeout_eq hKnitBusy hKntWait hVoteCast))
  · intro s hup hKnitBusy hKntWait hBorderDrained
    exact (exec_borderDrainEnd ..).trans (State.run_goes rfl hup (State.borderDrainEnd_eq hKnitBusy hKntWait hBorderDrained))
  · intro s hup hKnitBusy hKntWait
    exact (exec_borderDrainTimeout ..).trans (State.run_goes rfl hup (State.borderDrainTimeout_eq hKnitBusy hKntWait))
  · intro mismatch s hwf hup hKnitBusy hKntWait hBadMoves
    exact (exec_borderZeroizeEnd ..).trans (State.run_goes hwf hup (State.borderZeroizeEnd_of_badMoves hKnitBusy hKntWait hBadMoves))
  · intro mismatch s hwf hup hKnitBusy hKntWait hBadMoves hKntTries
    exact (exec_borderZeroizeEnd ..).trans (State.run_goes hwf hup (State.borderZeroizeEnd_of_not_badMoves_kntTries_0 hKnitBusy hKntWait hBadMoves
        hKntTries))
  · intro mismatch s hwf hup hKnitBusy hKntWait hBadMoves hKntTries _
    exact (exec_borderZeroizeEnd ..).trans (State.run_goes hwf hup (State.borderZeroizeEnd_of_not_badMoves_kntTries_ne hKnitBusy hKntWait hBadMoves
        hKntTries))
  · intro p s hwf hup hOldBank hWaitFlip
    exact (exec_epochFlip ..).trans (State.run_goes hwf hup (State.epochFlip_eq hOldBank hWaitFlip))
  · intro p s hwf hup hBankValid hInflight hXptEpochState _
    exact (exec_epochRetire ..).trans (State.run_goes hwf hup (State.epochRetire_eq hBankValid hInflight hXptEpochState))

end Sys2Proof.Machine
end

section
/-! SUPPORT. Completion of the commands of the reduction slots: what each operation answers in the cases that its statement names. -/

namespace Sys2Proof.Machine

set_option Elab.async false

/-- The effect of CONTRIB (R162). -/
theorem State.contribRow_eq {q : Nat} {pkt : Packet} {s : State} {r : RankEntry} {e : CollE} (hServiceCause : serviceCause pkt = none)
    (hContribFormatOk : contribFormatOk (pkFormat pkt) (pkNchunk pkt) (pkPayUnits pkt) (pkNarrow pkt) = true) (hTakeSvc : (s.takeSvc q 43
    pkt).img.rankEntry (pkEpoch pkt) (pkPart pkt) (dstRank (pkSrc pkt)) = some r) (hTakeSvc2 : (s.takeSvc q 43 pkt).img.collValid (pkPart
    pkt) (pkColl pkt) = some e) (hAcc : r.acc / 36 = q) (hTakeSvc3 : (s.takeSvc q 43 pkt).contribMember pkt e = true) :
    s.contribRow q pkt =
      (((s.takeSvc q 43 pkt).contribInst q r.acc pkt e).slotHook q (pkPart pkt) (pkColl pkt) (pkStep pkt)) := by
  have hstep : s.contrib q pkt = (s.takeSvc q 43 pkt).contribInst q r.acc pkt e := by
    simp [State.contrib, State.atService_of_sound q 43 _ hServiceCause, hContribFormatOk, hTakeSvc, hTakeSvc2, hAcc, hTakeSvc3]
  rw [State.contribRow, hstep]

/-- The effect of ADMISSION_REQUEST (R166). -/
theorem State.admissionRequest_of_slotLook_some {q p coll step chunk : Nat} {s : State} {x : Slot} (hAdmMsgs : s.admMsgs.contains ⟨false,
    false, q, p, coll, step, chunk⟩ = true) (hSeamOk : s.seamOk q (crownQuad p coll chunk) = true) :
    let u := s.admTake ⟨false, false, q, p, coll, step, chunk⟩
    u.slotLook (slotKey (crownQuad p coll chunk) p coll step chunk) = some x →
    s.admissionRequest q p coll step chunk =
      (u.admSay ⟨true, true, q, p, coll, step, chunk⟩) := by
  intro u hlook
  simp only [State.admissionRequest, hAdmMsgs, hSeamOk, Bool.not_true, Bool.or_self, Bool.false_eq_true, if_false, u] at hlook ⊢
  simp [hlook]

theorem State.admissionRequest_of_admits {q p coll step chunk : Nat} {s : State} {e : CollE} {i : Inst}
    (hAdmMsgs : s.admMsgs.contains ⟨false, false, q, p, coll, step, chunk⟩ = true) (hSeamOk : s.seamOk q (crownQuad p coll chunk) = true) :
    let u := s.admTake ⟨false, false, q, p, coll, step, chunk⟩
    u.slotLook (slotKey (crownQuad p coll chunk) p coll step chunk) = none →
    u.img.collValid p coll = some e →
    u.instGet p coll e step = some i →
    i.st = .active →
    u.holdCause (crownQuad p coll chunk) p e i = none →
    u.admits (crownQuad p coll chunk) p = true →
    let y := u.slotCreate (crownQuad p coll chunk) p coll step chunk e i true false
    s.admissionRequest q p coll step chunk =
      (y.admSay ⟨true, true, q, p, coll, step, chunk⟩) := by
  intro u hlook hcoll hinst hst hhold hadmits y
  simp only [State.admissionRequest, hAdmMsgs, hSeamOk, Bool.not_true, Bool.or_self, Bool.false_eq_true, if_false, u,
    y] at hlook hcoll hinst hhold hadmits ⊢
  simp [hlook, hcoll, hinst, hst, hhold, hadmits]

/-- The effect of ADMISSION_REPLY (R166). -/
theorem State.admissionReply_of_granted_instGet_some {q p coll step chunk : Nat} {granted : Bool} {s : State} {x : Slot} {e : CollE} {i :
    Inst} (hAdmMsgs : s.admMsgs.contains ⟨true, granted, q, p, coll, step, chunk⟩ = true) (hSeamOk : s.seamOk q (crownQuad p coll chunk) =
    true) (hGranted : granted = true) :
    let u := s.admTake ⟨true, granted, q, p, coll, step, chunk⟩
    u.slotGet (slotKey q p coll step chunk) = some x →
    u.img.collValid p coll = some e →
    x.res = .pending →
    u.instGet p coll e step = some i →
    s.admissionReply q p coll step chunk granted =
      ((u.slotCreate q p coll step chunk e i false false).settle p) := by
  subst hGranted
  intro u hslot hcoll hres hinst
  simp only [State.admissionReply, hAdmMsgs, hSeamOk, Bool.not_true, Bool.or_self, Bool.false_eq_true, if_false, u] at hslot hcoll hinst ⊢
  simp [hslot, hcoll, hres, hinst]

theorem State.admissionReply_of_not_granted {q p coll step chunk : Nat} {granted : Bool} {s : State} {x : Slot} {e : CollE} (hAdmMsgs :
    s.admMsgs.contains ⟨true, granted, q, p, coll, step, chunk⟩ = true) (hSeamOk : s.seamOk q (crownQuad p coll chunk) = true) (hGranted :
    granted = false) :
    let u := s.admTake ⟨true, granted, q, p, coll, step, chunk⟩
    u.slotGet (slotKey q p coll step chunk) = some x →
    u.img.collValid p coll = some e →
    x.res = .pending →
    s.admissionReply q p coll step chunk granted =
      ((u.waitersOf q p coll step chunk).foldl (fun t k => t.deferred q k 1) ((u.slotDrop (slotKey q p coll step chunk)).waitDrop q p coll step chunk)) := by
  subst hGranted
  intro u hslot hcoll hres
  simp only [State.admissionReply, hAdmMsgs, hSeamOk, Bool.not_true, Bool.or_self, Bool.false_eq_true, if_false, u] at hslot hcoll ⊢
  simp [hslot, hcoll, hres]

/-- The effect of SLOT_READOUT_COMPLETE (R172). -/
theorem State.slotReadoutComplete_eq {q p coll step chunk : Nat} {s : State} {x : Slot} {e : CollE} {f n : Nat} (hSlotGet : s.slotGet
    (slotKey q p coll step chunk) = some x) (hImg : s.img.collValid p coll = some e) (hSt : x.st = .closing) (hRes : x.res = .frame f)
    (hSent : x.sent = false) (hSlotLocked : s.slotLocked q p x = false) (hEngineOut : s.engineOut q x = false) (hEngineFault : s.rdb
    V.ENGINE_FAULT [q, 6] = false) (hReadoutUnit : s.readoutUnit (slotKey q p coll step chunk) x = some n) (hUnitGo : s.unitGo q x.engine p
    n = true) :
    let u := (s.unitStart q x.engine p n).slabBeats q f 6 p 1
    s.slotReadoutComplete q p coll step chunk =
      (u.readoutDone q p coll step chunk e x (rangeWord (s.ledger q f))) := by
  simp [State.slotReadoutComplete, State.unit, hSlotGet, hImg, hSt, hRes, hSent, hSlotLocked, hEngineOut, hEngineFault, hReadoutUnit, hUnitGo]

/-- The effect of TIER0_PARTIAL (R172). -/
theorem State.tier0Row_eq {q p coll step chunk g : Nat} {s : State} {y : Slot} {x : Slot} {e : CollE} {i : Inst} (hQ : q ≠ crownQuad p coll
    chunk) :
    let u := (s.countLocal q (60 + seamPort q (crownQuad p coll chunk)) 6 p 1).countLocal (crownQuad p coll chunk)
        (60 + seamPort (crownQuad p coll chunk) q) 7 p 1
    u.slotGet (slotKey q p coll step chunk) = some y →
    u.img.collValid p coll = some e →
    y.st = .closing →
    y.sent = true →
    y.res = .frame g →
    u.seamOk q (crownQuad p coll chunk) = true →
    u.tier0Waits q p coll step chunk = false →
    u.slotLook (slotKey (crownQuad p coll chunk) p coll step chunk) = some x →
    u.instGet p coll e step = some i →
    slotReady x = true →
    s.tier0Row q p coll step chunk =
      ((u.addTier0 q p coll step chunk (u.ledger q g) ⟨y.ovf, y.inv⟩ e i).slotHook (crownQuad p coll chunk) p coll step) := by
  intro u hslot hcoll hst hsent hres hseam hwaits hlook hinst hready
  have hstep : u.tier0Partial q p coll step chunk = u.addTier0 q p coll step chunk (u.ledger q g) ⟨y.ovf, y.inv⟩ e i := by
    simp [State.tier0Partial, hslot, hcoll, hst, hsent, hres, hQ, hseam, hwaits, hlook, hinst, hready]
  simp only [State.tier0Row, hQ, if_false]
  rw [hstep]

/-- The effect of PARTIAL_DELIVERED (R172). -/
theorem State.partialDelivered_eq {q p coll step chunk : Nat} {s : State} {y : Slot} (hSlotGet : s.slotGet (slotKey q p coll step chunk) =
    some y) (hSlotGet2 : s.slotGet (slotKey (crownQuad p coll chunk) p coll step chunk) = none) (hQ : q ≠ crownQuad p coll chunk) (hSt :
    y.st = .closing) (hSent : y.sent = true) :
    s.partialDelivered q p coll step chunk =
      ((s.slotDrop (slotKey q p coll step chunk)).settle p) := by
  simp [State.partialDelivered, hSlotGet, hSlotGet2, hQ, hSt, hSent]

/-- The effect of PARTIAL_RECEIVE (R598). -/
theorem State.partialRow_eq {q : Nat} {pkt : Packet} {s : State} {e : CollE} {bit : Nat} {i : Inst} (hServiceCause : serviceCause pkt =
    none) (hCrownQuad : crownQuad (pkPart pkt) (pkColl pkt) (pkChunk pkt) = q) (hPkFormat : pkFormat pkt = 8) (hTakeSvc : (s.takeSvc q 43
    pkt).img.collValid (pkPart pkt) (pkColl pkt) = some e) (hTakeSvc2 : (s.takeSvc q 43 pkt).peerBit pkt = some bit) (hPod : e.pod = true)
    (hChunkBase : e.chunkBase ≤ pkChunk pkt) (hChunkBase2 : pkChunk pkt < e.chunkBase + e.nchunk) (hTakeSvc3 : (s.takeSvc q 43 pkt).recUse
    (pkPart pkt) (pkColl pkt) e (pkStep pkt) = .use i) (hSt : i.st = .active) (hTakeSvc4 : bitOf ((s.takeSvc q 43 pkt).expected (crownQuad
    (pkPart pkt) (pkColl pkt) (pkChunk pkt)) (pkPart pkt) (pkColl pkt) (pkChunk pkt) e i.bank) bit = true) :
    let u := s.takeSvc q 43 pkt
    s.partialRow q pkt =
      ((u.partialSlot (crownQuad (pkPart pkt) (pkColl pkt) (pkChunk pkt)) pkt e i bit).slotHook q (pkPart pkt) (pkColl pkt) (pkStep pkt)) := by
  rw [hCrownQuad] at hTakeSvc4
  have hstep : s.partialReceive q pkt = (s.takeSvc q 43 pkt).partialSlot (crownQuad (pkPart pkt) (pkColl pkt) (pkChunk pkt)) pkt e i bit := by
    simp [State.partialReceive, State.atService_of_sound q 43 _ hServiceCause, hCrownQuad, hPkFormat, hTakeSvc, hTakeSvc2, hPod,
      hChunkBase.not_gt, hChunkBase2.not_ge, hTakeSvc3, hSt, hTakeSvc4]
  rw [State.partialRow, hstep]

/-- The effect of RESULT_FROM_RACK (R172). -/
theorem State.resultFromRack_eq {q : Nat} {pkt : Packet} {s : State} (hServiceCause : serviceCause pkt = none) (hPkFormat : pkFormat pkt =
    8) (hCrownQuad : crownQuad (pkPart pkt) (pkColl pkt) (pkChunk pkt) = q) :
    s.resultFromRack q pkt =
      ((s.takeSvc q 43 pkt).rackChunk pkt) := by
  simp [State.resultFromRack, State.rackPart, rackPieces, State.atService_of_sound q 43 _ hServiceCause, hPkFormat, hCrownQuad]

/-- The effect of PUBLISH_FROM_RACK (R252). -/
theorem State.publishFromRack_eq {q : Nat} {pkt : Packet} {s : State} (hServiceCause : serviceCause pkt = none) (hPkFormat : pkFormat pkt =
    1) (hPkNchunk : pkNchunk pkt ≤ maxChunks 1) (hCrownQuad : crownQuad (pkPart pkt) (pkColl pkt) (pkChunk pkt) = q) :
    s.publishFromRack q pkt =
      ((rackPieces pkt).foldl State.rackChunk (s.takeSvc q 43 pkt)) := by
  simp [State.publishFromRack, State.rackPart, State.atService_of_sound q 43 _ hServiceCause, hPkFormat, hPkNchunk, hCrownQuad]

/-- The effect of PAGER_SPILL (R175). -/
theorem State.pagerSpill_eq {q p : Nat} {s : State} {k : Key} {x : Slot} {n : Nat} {t : State} (hPagerMay : s.pagerMay q p = true)
    (hRecallNext : s.recallNext q p = none) (hSpillNext : s.spillNext q p = some ((k, x), n)) (hSpillTo : s.spillTo q p n k x = some t) :
    s.pagerSpill q p =
      (((t.pagerStart q p).pagerMark q (opOf k)).sltEvent q p 5) := by
  simp [State.pagerSpill, hPagerMay, hRecallNext, hSpillNext, hSpillTo]

/-- The effect of PAGER_RECALL (R175). -/
theorem State.pagerRecall_eq {q p : Nat} {s : State} {k : Key} {x : Slot} {f : Nat} (hPagerMay : s.pagerMay q p = true) (hRecallNext :
    s.recallNext q p = some (k, x)) (hFreeFrame : s.freeFrame q p = some f) :
    let u := (s.pagerStart q p).pagerMark q (opOf k)
    s.pagerRecall q p =
      (((u.recordNote q p x).recallInto q p f k x (u.recordData q p x)).sltEvent q p 6) := by
  intro u
  simp [State.pagerRecall, hPagerMay, hRecallNext, hFreeFrame, u]

/-- The effect of PAGER_SWAP (R175). -/
theorem State.pagerSwap_eq {q p : Nat} {s : State} {k : Key} {x : Slot} {kv : Key} {y : Slot} {n : Nat} {f : Nat} {t : State} (hPagerMay :
    s.pagerMay q p = true) (hFreeFrame : s.freeFrame q p = none) (hRecallNext : s.recallNext q p = some (k, x)) (hVictim : s.victim q p =
    some (kv, y)) (hRes : x.res = .record n) (hRes2 : y.res = .frame f) (hRecordNote : (s.recordNote q p x).spillTo q p n kv y = some t) :
    let u := ((t.slotUnlock kv).pagerStart q p).pagerMark q (opOf k)
    s.pagerSwap q p =
      ((u.recallInto q p f k x (s.recordData q p x)).sltEvent q p 7) := by
  intro u
  simp [State.pagerSwap, hPagerMay, hFreeFrame, hRecallNext, hVictim, hRes, hRes2, hRecordNote, u]

/-- The effect of PAGER_OP_COMPLETE (R164). -/
theorem State.pagerOpComplete_eq {q : Nat} {s : State} {o : PagerOp} (hFind : SMap.find [q] s.pagerOp = some o) (hPagerStop : s.rdb
    V.PAGER_STOP [q] = false) :
    s.pagerOpComplete q =
      (((s.pagerClear q).slotUnlock (slotKey q o.part o.coll o.step o.chunk)).settle o.part) := by
  simp [State.pagerOpComplete, hFind, hPagerStop]

/-- The effect of SLAB_LOCK_TIMEOUT (R185). -/
theorem State.slabTimeout_of_req_or {q bank port req : Nat} {busy : List (Nat × Nat × Nat × Nat)} {s : State} (hReq : (req = 5 ∨ req = 7)) :
    s.slabTimeout q bank port req busy =
      ((s.slabLockTimeout q bank port req busy).movBusError q 3) := by
  simp [State.slabTimeout, hReq]

theorem State.slabTimeout_of_req_ne_req_ne {q bank port req : Nat} {busy : List (Nat × Nat × Nat × Nat)} {s : State} (hReq : req ≠ 5)
    (hReq2 : req ≠ 7) :
    s.slabTimeout q bank port req busy =
      (s.slabLockTimeout q bank port req busy) := by
  simp [State.slabTimeout, hReq, hReq2]

/-- Settles O8: every clause is the run of its command, whose operation answers the state that the clause writes out. -/
theorem slotCommandsComplete : Obligations.SlotCommandsComplete := by
  refine ⟨?_, ?_, ?_, ?_, ?_, ?_, ?_, ?_, ?_, ?_, ?_, ?_, ?_, ?_, ?_, ?_, ?_, ?_⟩
  · intro q pkt s r e hwf hup hServiceCause hContribFormatOk hTakeSvc hTakeSvc2 hAcc hTakeSvc3
    exact (exec_contrib ..).trans (State.run_goes hwf hup (State.contribRow_eq hServiceCause hContribFormatOk hTakeSvc hTakeSvc2 hAcc hTakeSvc3))
  · intro q p coll step chunk s x hwf hup hAdmMsgs hSeamOk _ hSlotLook
    exact (exec_admissionRequest ..).trans (State.run_goes hwf hup (State.admissionRequest_of_slotLook_some hAdmMsgs hSeamOk hSlotLook))
  · intro q p coll step chunk s e i hwf hup hAdmMsgs hSeamOk _ hSlotLook hImg hInstGet hSt hHoldCause hAdmits _
    exact (exec_admissionRequest ..).trans (State.run_goes hwf hup (State.admissionRequest_of_admits hAdmMsgs hSeamOk
        hSlotLook hImg hInstGet hSt hHoldCause hAdmits))
  · intro q p coll step chunk granted s x e i hwf hup hAdmMsgs hSeamOk hGranted _ hSlotGet hImg hRes hInstGet
    exact (exec_admissionReply ..).trans (State.run_goes hwf hup (State.admissionReply_of_granted_instGet_some hAdmMsgs hSeamOk hGranted hSlotGet
        hImg hRes hInstGet))
  · intro q p coll step chunk granted s x e hwf hup hAdmMsgs hSeamOk hGranted _ hSlotGet hImg hRes
    exact (exec_admissionReply ..).trans (State.run_goes hwf hup (State.admissionReply_of_not_granted hAdmMsgs hSeamOk hGranted hSlotGet hImg hRes))
  · intro q p coll step chunk s x e f n hwf hup hSlotGet hImg hSt hRes hSent hSlotLocked hEngineOut hEngineFault hReadoutUnit hUnitGo _
    exact (exec_slotReadoutComplete ..).trans (State.run_goes hwf hup (State.slotReadoutComplete_eq hSlotGet hImg hSt hRes hSent hSlotLocked
        hEngineOut hEngineFault hReadoutUnit hUnitGo))
  · intro q p coll step chunk g s y x e i hwf hup hQ _ hSlotGet hImg hSt hSent hRes hSeamOk hTier0Waits hSlotLook hInstGet hSlotReady
    exact (exec_tier0Partial ..).trans (State.run_goes hwf hup (State.tier0Row_eq hQ hSlotGet hImg hSt hSent hRes hSeamOk hTier0Waits hSlotLook
        hInstGet hSlotReady))
  · intro q p coll step chunk s y hwf hup hSlotGet hSlotGet2 hQ hSt hSent
    exact (exec_partialDelivered ..).trans (State.run_goes hwf hup (State.partialDelivered_eq hSlotGet hSlotGet2 hQ hSt hSent))
  · intro q pkt s e bit i hwf hup hServiceCause hCrownQuad hPkFormat hTakeSvc hTakeSvc2 hPod hChunkBase hChunkBase2 hTakeSvc3 hSt hTakeSvc4 _
    exact (exec_partialReceive ..).trans (State.run_goes hwf hup (State.partialRow_eq hServiceCause hCrownQuad hPkFormat hTakeSvc hTakeSvc2 hPod
        hChunkBase hChunkBase2 hTakeSvc3 hSt hTakeSvc4))
  · intro q pkt s hwf hup hServiceCause hPkFormat hCrownQuad
    exact (exec_resultFromRack ..).trans (State.run_goes hwf hup (State.resultFromRack_eq hServiceCause hPkFormat hCrownQuad))
  · intro q pkt s hwf hup hServiceCause hPkFormat hPkNchunk hCrownQuad
    exact (exec_publishFromRack ..).trans (State.run_goes hwf hup (State.publishFromRack_eq hServiceCause hPkFormat hPkNchunk hCrownQuad))
  · intro q p s k x n t hwf hup hPagerMay hRecallNext hSpillNext hSpillTo
    exact (exec_pagerSpill ..).trans (State.run_goes hwf hup (State.pagerSpill_eq hPagerMay hRecallNext hSpillNext hSpillTo))
  · intro q p s k x f hwf hup hPagerMay hRecallNext hFreeFrame _
    exact (exec_pagerRecall ..).trans (State.run_goes hwf hup (State.pagerRecall_eq hPagerMay hRecallNext hFreeFrame))
  · intro q p s k x kv y n f t hwf hup hPagerMay hFreeFrame hRecallNext hVictim hRes hRes2 hRecordNote _
    exact (exec_pagerSwap ..).trans (State.run_goes hwf hup (State.pagerSwap_eq hPagerMay hFreeFrame hRecallNext hVictim hRes hRes2 hRecordNote))
  · intro q s o hwf hup hFind hPagerStop
    exact (exec_pagerOpComplete ..).trans (State.run_goes hwf hup (State.pagerOpComplete_eq hFind hPagerStop))
  · intro p s hwf hup
    exact (exec_sweepEnd ..).trans (State.run_goes hwf hup rfl)
  · intro q bank port req busy s hwf hup hReq
    exact (exec_slabLockTimeout ..).trans (State.run_goes hwf hup (State.slabTimeout_of_req_or hReq))
  · intro q bank port req busy s hwf hup hReq hReq2
    exact (exec_slabLockTimeout ..).trans (State.run_goes hwf hup (State.slabTimeout_of_req_ne_req_ne hReq hReq2))

end Sys2Proof.Machine
end

section
/-! SUPPORT. Completion of the commands of the collective sequencer: what each operation answers in the cases that its statement names. -/

namespace Sys2Proof.Machine

set_option Elab.async false

/-- The effect of RESULT_RESEND_TIMER (R113). -/
theorem State.resultResendTimer_eq {p coll step : Nat} {s : State} {e : CollE} {i : Inst} (hImg : s.img.collValid p coll = some e)
    (hInstGet : s.instGet p coll e step = some i) (hLiveInst : liveInst i = true) (hResendDue : i.resendDue ≠ 0) (hXptResendTries :
    i.resends < s.rd F.XPT_RESEND_TRIES []) :
    let u := s.instPut p coll e { i with resends := i.resends + 1, resendDue := i.resendDue + s.rd F.XPT_RESEND_FIRST [] * 1000 * 2 ^ (i.resends + 1) }
    s.resultResendTimer p coll step =
      ((((u.owing p e i).filter fun r => !bitOf i.done r).foldl (fun t r => (List.range e.nchunk).foldl (fun x j => if e.ckind = 1 && x.img.ownerRank p e (e.chunkBase + j) != r then x else x.resendAny p coll step (e.chunkBase + j) r e i) t) u).settle p) := by
  intro u
  simp [State.resultResendTimer, hImg, hInstGet, hLiveInst, hResendDue, hXptResendTries, u]

/-- The effect of CNACK_RECEIVE (R210). -/
theorem State.cnackReceive_eq {q : Nat} {pkt : Packet} {s : State} (hServiceCause : serviceCause pkt = none) :
    s.cnackReceive q pkt =
      (s.takeSvc q 43 pkt) := by
  exact State.atService_of_sound q 43 _ hServiceCause

/-- The effect of RING_DOORBELL (R188). -/
theorem State.ringDoorbell_of_prodOk {q p e : Nat} {prod : BitVec 32} {s : State} (hProdOk : s.prodOk q p e prod.toNat = true) :
    s.ringDoorbell q p e prod.toNat =
      ((s.wr F.SEQ_RING_PROD_PROD [q, p, e] prod.toNat).ringCheck q p e) := by
  simp [State.ringDoorbell, hProdOk]

theorem State.ringDoorbell_of_not_prodOk {q p e : Nat} {prod : BitVec 32} {s : State} (hProdOk : s.prodOk q p e prod.toNat = false) :
    s.ringDoorbell q p e prod.toNat =
      (s.raise F.SEQ_RING_CTL_DBERR [q, p, e]) := by
  simp [State.ringDoorbell, hProdOk]

/-- The effect of DOORBELL (R189). -/
theorem State.doorbell_eq {q : Nat} {pkt : Packet} {s : State} {r : RankEntry} (hServiceCause : serviceCause pkt = none) (hTakeSvc :
    (s.takeSvc q 45 pkt).img.rankEntry (pkEpoch pkt) (pkPart pkt) (dstRank (pkSrc pkt)) = some r) (hBitsOf : bitsOf (pkAddr pkt) 8 8 / 8 <
    4) (hBitsOf2 : bitsOf (pkAddr pkt) 8 8 % 8 < 5) (hSeqRingCtlFabricDb : (s.takeSvc q 45 pkt).rdb F.SEQ_RING_CTL_FABRIC_DB [bitsOf
    (pkAddr pkt) 8 8 / 8, pkPart pkt, bitsOf (pkAddr pkt) 8 8 % 8] = true) :
    let u := s.takeSvc q 45 pkt
    let n := bitsOf (pkAddr pkt) 8 8
    let prod := bitsOf (pkAddr pkt) 32 32
    s.doorbell q pkt =
      ((u.ringDoorbell (n / 8) (pkPart pkt) (n % 8) prod).replyP q 0x24 (if u.prodOk (n / 8) (pkPart pkt) (n % 8) prod then 0 else 5) pkt []) := by
  rw [State.doorbell, State.atService_of_sound q 45 _ hServiceCause]
  simp [hTakeSvc, hBitsOf, hBitsOf2, hSeqRingCtlFabricDb]

/-- The effect of RING_ERR_CLEAR (R191). -/
theorem State.ringErrClear_eq {q p e : Nat} {s : State} (hSeqRingCtlErr : s.raisedNow F.SEQ_RING_CTL_ERR [q, p, e] = false) :
    s.ringErrClear q p e =
      ((s.wr F.SEQ_RING_CTL_ERR [q, p, e] 0).ringCheck q p e) := by
  simp [State.ringErrClear, hSeqRingCtlErr]

/-- The effect of CQ_RECORD_WRITE (R194). -/
theorem State.cqRecordWrite_eq {p k : Nat} {s : State} {r : Nat} {rs : List Nat} (hGet : SMap.get s.cqWait [p, k] [] = r :: rs) (hCqRoom :
    s.cqRoom p k = true) :
    s.cqRecordWrite p k =
      (((s.cqKeep p k rs).cqPut p k r).signalEnd p r) := by
  simp [State.cqRecordWrite, hGet, hCqRoom]

/-- The effect of COLLECTIVE (R192). -/
theorem State.collective_eq {q p : Nat} {entry : BitVec 512} {s : State} {e : CollE} (hRingCmd : s.ringCmd q p 0 1 entry.toNat = true)
    (hImg : s.img.collValid p (bitsOf entry.toNat 64 16) = some e) (hCmd : e.cmd = true) (hRecUse : s.recUse p (bitsOf entry.toNat 64 16) e
    (bitsOf entry.toNat 96 32) = .fresh) :
    let y := entry.toNat
    let w := if e.winCmd then bitsOf y 128 10 else e.w
    let dl := s.timeNs + (if bitsOf y 160 32 = 0 then s.img.patienceMs p e else bitsOf y 160 32) * 10 ^ 6
    s.collective q p entry.toNat =
      (((s.cmdStart q p 0 y).instPut p (bitsOf y 64 16) e (s.instNew p e (bitsOf y 96 32) true w dl)).cmdDone q p 0 y 0) := by
  intro y w dl
  simp [State.collective, hRingCmd, hImg, hCmd, hRecUse, y, w, dl]

/-- The effect of ARM_STEP (R202). -/
theorem State.armStep_eq {q p : Nat} {entry : BitVec 512} {s : State} (hRingCmd : s.ringCmd q p 0 2 entry.toNat = true) (hSeqStepArmed :
    before32 (s.rd F.SEQ_STEP_ARMED [p]) (bitsOf entry.toNat 96 32) = true) (hSeqStepArmed2 : (((s.cmdStart q p 0 entry.toNat).wr
    F.SEQ_STEP_ARMED [p] (bitsOf entry.toNat 96 32)).armStanding p).img.stepProg p = 0xFFFF) :
    s.armStep q p entry.toNat =
      ((((s.cmdStart q p 0 entry.toNat).wr F.SEQ_STEP_ARMED [p] (bitsOf entry.toNat 96 32)).armStanding p).cmdDone q p 0 entry.toNat 0) := by
  simp [State.armStep, hRingCmd, hSeqStepArmed, hSeqStepArmed2]

/-- The effect of TRIGGER (R192). -/
theorem State.triggerCmd_eq {q p : Nat} {entry : BitVec 512} {s : State} (hRingCmd : s.ringCmd q p 0 3 entry.toNat = true) (hBitsOf :
    bitsOf entry.toNat 64 16 < 8192) :
    let k := twCounter (s.img.trigWord p (bitsOf entry.toNat 64 16))
    s.triggerCmd q p entry.toNat =
      (((s.cmdStart q p 0 entry.toNat).trigArm p (bitsOf entry.toNat 64 16) (bitsOf entry.toNat 96 32)).cmdDone q p 0 entry.toNat (if k == 255 || s.rd V.TRIG_WORD [p, k] != 0 then 7 else 0)) := by
  intro k
  simp [State.triggerCmd, hRingCmd, hBitsOf, k]

/-- The effect of INCREMENT (R211). -/
theorem State.incrementCmd_eq {q p : Nat} {entry : BitVec 512} {s : State} (hRingCmd : s.ringCmd q p 0 4 entry.toNat = true) (hBitsOf :
    bitsOf entry.toNat 64 8 ≠ 255) :
    s.incrementCmd q p entry.toNat =
      (((s.cmdStart q p 0 entry.toNat).trigAdd p (bitsOf entry.toNat 64 8) (bitsOf entry.toNat 96 32)).cmdDone q p 0 entry.toNat 0) := by
  simp [State.incrementCmd, hRingCmd, hBitsOf]

/-- The effect of ABORT_COLLECTIVE (R192). -/
theorem State.abortCollective_eq {q p : Nat} {entry : BitVec 512} {s : State} {e : CollE} (hRingCmd : s.ringCmd q p 0 5 entry.toNat = true)
    (hImg : s.img.collValid p (bitsOf entry.toNat 64 16) = some e) :
    s.abortCollective q p entry.toNat =
      (((s.cmdStart q p 0 entry.toNat).abortEvent p (bitsOf entry.toNat 64 16) e (bitsOf entry.toNat 96 32) 2).cmdDone q p 0 entry.toNat 0) := by
  simp [State.abortCollective, hRingCmd, hImg]

/-- The effect of STEP_REPLAY (R222). -/
theorem State.stepReplay_eq {q p : Nat} {entry : BitVec 512} {s : State} (hRingCmd : s.ringCmd q p 0 6 entry.toNat = true) (hSeqStepReplay
    : s.rdb F.SEQ_STEP_REPLAY [p] = false) :
    let u := (((s.cmdStart q p 0 entry.toNat).wr F.SEQ_STEP_REPLAY [p] 1).wr V.REPLAY_STEP [p] (bitsOf entry.toNat 96 32)).wr V.REPLAY_QUAD [p] q
    s.stepReplay q p entry.toNat =
      (((u.wr V.REPLAY_ENTRY [p] entry.toNat).replayReset p (bitsOf entry.toNat 96 32)).settle p) := by
  intro u
  simp [State.stepReplay, hRingCmd, hSeqStepReplay, u]

/-- The effect of STEP_REPLAY_END (R222). -/
theorem State.stepReplayEnd_eq {p : Nat} {s : State} (hSeqStepReplay : s.rdb F.SEQ_STEP_REPLAY [p] = true) :
    s.stepReplayEnd p =
      ((s.wr F.SEQ_STEP_REPLAY [p] 0).cmdDone (s.rd V.REPLAY_QUAD [p]) p 0 (s.rd V.REPLAY_ENTRY [p]) 0) := by
  simp [State.stepReplayEnd, hSeqStepReplay]

/-- The effect of WARM (R474). -/
theorem State.warm_eq {q p : Nat} {entry : BitVec 512} {s : State} (hRingCmd : s.ringCmd q p 0 7 entry.toNat = true) (hBitsOf : bitsOf
    entry.toNat 69 3 + bitsOf entry.toNat 76 4 + bitsOf entry.toNat 80 16 = 0) (hBitsOf2 : bitsOf entry.toNat 96 32 ≠ 0) (hBitsOf3 : bitsOf
    entry.toNat 96 32 ≤ 10000000) :
    let n := bitsOf entry.toNat 64 5
    let m := bitsOf entry.toNat 72 4
    s.warm q p entry.toNat =
      (((List.range 20).foldl (fun t i => if bitOf n (i % 5) && bitOf m (i / 5) then t.warmOne p (i / 5) (i % 5) (bitsOf entry.toNat 96 32) else t) (s.cmdStart q p 0 entry.toNat)).cmdDone q p 0 entry.toNat 0) := by
  intro n m
  simp [State.warm, hRingCmd, hBitsOf, hBitsOf2, hBitsOf3, n, m]

/-- The effect of DONE (R215). -/
theorem State.doneCmd_eq {q : Nat} {pkt : Packet} {s : State} {e : CollE} {r : RankEntry} {i : Inst} (hServiceCause : serviceCause pkt =
    none) (hTakeSvc : (s.takeSvc q 45 pkt).img.collValid (pkPart pkt) (pkColl pkt) = some e) (hTakeSvc2 : (s.takeSvc q 45
    pkt).img.rankEntry (pkEpoch pkt) (pkPart pkt) (dstRank (pkSrc pkt)) = some r) (hTakeSvc3 : (s.takeSvc q 45 pkt).recUse (pkPart pkt)
    (pkColl pkt) e (pkStep pkt) = .use i) (hTakeSvc4 : (s.takeSvc q 45 pkt).isReceiver (pkPart pkt) e i (dstRank (pkSrc pkt)) = true)
    (hPayload : leAt pkt.payload 0 3 = (s.takeSvc q 45 pkt).img.recvCount (pkPart pkt) e i (dstRank (pkSrc pkt))) (hLiveInst : liveInst i =
    true) (hDone : bitOf i.done (dstRank (pkSrc pkt)) = false) :
    let u := s.takeSvc q 45 pkt
    s.doneCmd q pkt =
      ((((u.instPut (pkPart pkt) (pkColl pkt) e { i with done := setBit i.done (dstRank (pkSrc pkt)) }).checkComplete (pkPart pkt) (pkColl pkt) e (pkStep pkt)).publishEnd (pkPart pkt)).settle (pkPart pkt)) := by
  rw [State.doneCmd, State.atService_of_sound q 45 _ hServiceCause]
  simp [hTakeSvc, hTakeSvc2, hTakeSvc3, hTakeSvc4, hPayload, hLiveInst, hDone]

/-- The effect of GAP_NACK (R217). -/
theorem State.gapNack_eq {q : Nat} {pkt : Packet} {s : State} {e : CollE} {r : RankEntry} {i : Inst} (hServiceCause : serviceCause pkt =
    none) (hTakeSvc : (s.takeSvc q 45 pkt).img.collValid (pkPart pkt) (pkColl pkt) = some e) (hTakeSvc2 : (s.takeSvc q 45
    pkt).img.rankEntry (pkEpoch pkt) (pkPart pkt) (dstRank (pkSrc pkt)) = some r) (hTakeSvc3 : (s.takeSvc q 45 pkt).instGet (pkPart pkt)
    (pkColl pkt) e (pkStep pkt) = some i) (hTakeSvc4 : (s.takeSvc q 45 pkt).isReceiver (pkPart pkt) e i (dstRank (pkSrc pkt)) = true) :
    let u := s.takeSvc q 45 pkt
    let n := min 32 (leAt pkt.payload 0 1)
    s.gapNack q pkt =
      (((List.range n).foldl (fun t j => let c := leAt pkt.payload (4 + 3 * j) 3; if e.chunkBase ≤ c ∧ c < e.chunkBase + e.nchunk then t.resendAny (pkPart pkt) (pkColl pkt) (pkStep pkt) c (dstRank (pkSrc pkt)) e i else t) u).settle (pkPart pkt)) := by
  rw [State.gapNack, State.atService_of_sound q 45 _ hServiceCause]
  simp [hTakeSvc, hTakeSvc2, hTakeSvc3, hTakeSvc4]

/-- The effect of PATIENCE_EXPIRY (R220). -/
theorem State.patienceExpiry_eq {p coll step : Nat} {s : State} {e : CollE} {i : Inst} (hImg : s.img.collValid p coll = some e) (hInstGet :
    s.instGet p coll e step = some i) (hDeadline : i.deadline ≠ 0) :
    s.patienceExpiry p coll step =
      (s.abortEvent p coll e step 1) := by
  simp [State.patienceExpiry, hImg, hInstGet, hDeadline]

/-- The effect of PARTIAL_RESEND_TIMER (R210). -/
theorem State.partialResendTimer_eq {p coll step chunk : Nat} {s : State} {e : CollE} {x : Slot} {i : Inst} (hImg : s.img.collValid p coll
    = some e) (hSlotGet : s.slotGet (slotKey (crownQuad p coll chunk) p coll step chunk) = some x) (hInstGet : s.instGet p coll e step =
    some i) (hSt : x.st = .waiting) (hSlotReady : slotReady x = true) :
    s.partialResendTimer p coll step chunk =
      (s.waitRun (crownQuad p coll chunk) p ⟨coll, step, chunk, .partialAgain⟩) := by
  simp [State.partialResendTimer, hImg, hSlotGet, hInstGet, hSt, hSlotReady]

/-- The effect of POD_HOLD_EXPIRY (R210). -/
theorem State.podHoldExpiry_eq {p coll step chunk : Nat} {s : State} {e : CollE} {x : Slot} {i : Inst} (hImg : s.img.collValid p coll =
    some e) (hSlotGet : s.slotGet (slotKey (crownQuad p coll chunk) p coll step chunk) = some x) (hSt : x.st = .held) (hPodSent : x.podSent
    ≠ 0) (hInstGet : s.instGet p coll e step = some i) (hSt2 : i.st = .complete) :
    s.podHoldExpiry p coll step chunk =
      ((s.slotDrop (slotKey (crownQuad p coll chunk) p coll step chunk)).settle p) := by
  simp [State.podHoldExpiry, hImg, hSlotGet, hSt, hPodSent, hInstGet, hSt2]

/-- Settles O9: every clause is the run of its command, whose operation answers the state that the clause writes out. -/
theorem seqCommandsComplete : Obligations.SeqCommandsComplete := by
  refine ⟨?_, ?_, ?_, ?_, ?_, ?_, ?_, ?_, ?_, ?_, ?_, ?_, ?_, ?_, ?_, ?_, ?_, ?_, ?_, ?_, ?_, ?_⟩
  · intro p coll step s e i hwf hup hImg hInstGet hLiveInst hResendDue hXptResendTries _
    exact (exec_resultResendTimer ..).trans (State.run_goes hwf hup (State.resultResendTimer_eq hImg hInstGet hLiveInst hResendDue hXptResendTries))
  · intro q pkt s hwf hup hServiceCause
    exact (exec_cnackReceive ..).trans (State.run_goes hwf hup (State.cnackReceive_eq hServiceCause))
  · intro q p e prod s hwf hup hProdOk
    exact (exec_ringDoorbell ..).trans (State.run_goes hwf hup (State.ringDoorbell_of_prodOk hProdOk))
  · intro q p e prod s hwf hup hProdOk
    exact (exec_ringDoorbell ..).trans (State.run_goes hwf hup (State.ringDoorbell_of_not_prodOk hProdOk))
  · intro q p e prod s hwf hres
    exact (exec_ringDoorbell ..).trans (State.run_off hwf (by simp [hres]))
  · intro q pkt s r hwf hup hServiceCause hTakeSvc hBitsOf hBitsOf2 hSeqRingCtlFabricDb _ _ _
    exact (exec_doorbell ..).trans (State.run_goes hwf hup (State.doorbell_eq hServiceCause hTakeSvc hBitsOf hBitsOf2 hSeqRingCtlFabricDb))
  · intro q p e s hwf hup hSeqRingCtlErr
    exact (exec_ringErrClear ..).trans (State.run_goes hwf hup (State.ringErrClear_eq hSeqRingCtlErr))
  · intro p k s r rs hwf hup hGet hCqRoom
    exact (exec_cqRecordWrite ..).trans (State.run_goes hwf hup (State.cqRecordWrite_eq hGet hCqRoom))
  · intro q p entry s e hwf hup hRingCmd hImg hCmd hRecUse _ _ _
    exact (exec_collective ..).trans (State.run_goes hwf hup (State.collective_eq hRingCmd hImg hCmd hRecUse))
  · intro q p entry s hwf hup hRingCmd hSeqStepArmed hSeqStepArmed2
    exact (exec_armStep ..).trans (State.run_goes hwf hup (State.armStep_eq hRingCmd hSeqStepArmed hSeqStepArmed2))
  · intro q p entry s hwf hup hRingCmd hBitsOf _
    exact (exec_trigger ..).trans (State.run_goes hwf hup (State.triggerCmd_eq hRingCmd hBitsOf))
  · intro q p entry s hwf hup hRingCmd hBitsOf
    exact (exec_increment ..).trans (State.run_goes hwf hup (State.incrementCmd_eq hRingCmd hBitsOf))
  · intro q p entry s e hwf hup hRingCmd hImg
    exact (exec_abortCollective ..).trans (State.run_goes hwf hup (State.abortCollective_eq hRingCmd hImg))
  · intro q p entry s hwf hup hRingCmd hSeqStepReplay _
    exact (exec_stepReplay ..).trans (State.run_goes hwf hup (State.stepReplay_eq hRingCmd hSeqStepReplay))
  · intro p s hwf hup hSeqStepReplay
    exact (exec_stepReplayEnd ..).trans (State.run_goes hwf hup (State.stepReplayEnd_eq hSeqStepReplay))
  · intro q p entry s hwf hup hRingCmd hBitsOf hBitsOf2 hBitsOf3 _ _
    exact (exec_warm ..).trans (State.run_goes hwf hup (State.warm_eq hRingCmd hBitsOf hBitsOf2 hBitsOf3))
  · intro q pkt s e r i hwf hup hServiceCause hTakeSvc hTakeSvc2 hTakeSvc3 hTakeSvc4 hPayload hLiveInst hDone _
    exact (exec_done ..).trans (State.run_goes hwf hup (State.doneCmd_eq hServiceCause hTakeSvc hTakeSvc2 hTakeSvc3 hTakeSvc4 hPayload hLiveInst
        hDone))
  · intro q pkt s e r i hwf hup hServiceCause hTakeSvc hTakeSvc2 hTakeSvc3 hTakeSvc4 _ _
    exact (exec_gapNack ..).trans (State.run_goes hwf hup (State.gapNack_eq hServiceCause hTakeSvc hTakeSvc2 hTakeSvc3 hTakeSvc4))
  · intro p coll step s e i hwf hup hImg hInstGet hDeadline
    exact (exec_patienceExpiry ..).trans (State.run_goes hwf hup (State.patienceExpiry_eq hImg hInstGet hDeadline))
  · intro p coll step chunk s e x i hwf hup hImg hSlotGet hInstGet hSt hSlotReady
    exact (exec_partialResendTimer ..).trans (State.run_goes hwf hup (State.partialResendTimer_eq hImg hSlotGet hInstGet hSt hSlotReady))
  · intro p coll step chunk s e x i hwf hup hImg hSlotGet hSt hPodSent hInstGet hSt2
    exact (exec_podHoldExpiry ..).trans (State.run_goes hwf hup (State.podHoldExpiry_eq hImg hSlotGet hSt hPodSent hInstGet hSt2))
  · intro p s hwf hup _
    exact (exec_stragClear ..).trans (State.run_goes hwf hup rfl)

end Sys2Proof.Machine
end

section
/-! SUPPORT. Completion of the commands of triggered operations: what each operation answers in the cases that its statement names. -/

namespace Sys2Proof.Machine

set_option Elab.async false

/-- A triggered operation of kind `op` whose collective is valid and whose step is ready does its own work. -/
theorem State.trigInst_of_ready {s : State} {p n op : Nat} {o : TrigOp} {e : CollE} {i : Inst} (f : State → TrigOp → Nat → CollE → Inst → State)
    (hTrigOp : s.trigOp p n op = some o) (hImg : s.img.collValid p (twColl o.word) = some e)
    (hInstGet : s.instGet p (twColl o.word) e (twStep o.word o.ctx) = some i) (hSt : i.st = .ready) :
    s.trigInst p n op f = f s o (twColl o.word) e i := by
  simp [State.trigInst, hTrigOp, hImg, hInstGet, hSt]

/-- The effect of REDUCE_FORWARD (R214). -/
theorem State.reduceForward_of_not_fwd_instSlots {p n : Nat} {s : State} {o : TrigOp} {e : CollE} {i : Inst} (hTrigOp : s.trigOp p n 1 =
    some o) (hImg : s.img.collValid p (twColl o.word) = some e) (hInstGet : s.instGet p (twColl o.word) e (twStep o.word o.ctx) = some i)
    (hSt : i.st = .ready) (hPod : e.pod = true) (hFwd : i.fwd = false) :
    let sends := fun c => podSends (s.podRole i.bank p e c)
    let u := (s.instPut p (twColl o.word) e { i with fwd := true }).releaseCrowns p (twColl o.word) i.step sends
    ((u.instSlots p (twColl o.word) i.step).any fun kv =>
        kv.1.getD 0 9 == crownQuad p (twColl o.word) (kv.1.getD 4 0) && kv.2.st == .closing && sends (kv.1.getD 4 0)) = true →
    s.reduceForward p n =
      u := by
  intro _ _ hInstSlots
  rw [State.reduceForward, State.trigInst_of_ready _ hTrigOp hImg hInstGet hSt]
  simp only [hPod, hFwd, Bool.not_true, Bool.false_eq_true, if_false]
  exact if_pos hInstSlots

theorem State.reduceForward_of_fwd_not_instSlots {p n : Nat} {s : State} {o : TrigOp} {e : CollE} {i : Inst} (hTrigOp : s.trigOp p n 1 =
    some o) (hImg : s.img.collValid p (twColl o.word) = some e) (hInstGet : s.instGet p (twColl o.word) e (twStep o.word o.ctx) = some i)
    (hSt : i.st = .ready) (hPod : e.pod = true) (hFwd : i.fwd = true) (hInstSlots : ((s.instSlots p (twColl o.word) i.step).any fun kv =>
          kv.1.getD 0 9 == crownQuad p (twColl o.word) (kv.1.getD 4 0) && kv.2.st == .closing
          && podSends (s.podRole i.bank p e
    (kv.1.getD 4 0))) = false) :
    s.reduceForward p n =
      (s.trigEnd p n o false) := by
  rw [State.reduceForward, State.trigInst_of_ready _ hTrigOp hImg hInstGet hSt]
  simp only [hPod, hFwd, Bool.not_true, Bool.false_eq_true, if_false, if_true]
  exact if_neg (by rw [hInstSlots]; exact Bool.false_ne_true)

/-- The effect of CONVERT_MULTICAST (R214). -/
theorem State.convertMulticast_of_not_released_instGet_some {p n : Nat} {s : State} {o : TrigOp} {e : CollE} {i k : Inst} (hTrigOp :
    s.trigOp p n 2 = some o) (hImg : s.img.collValid p (twColl o.word) = some e) (hInstGet : s.instGet p (twColl o.word) e (twStep o.word
    o.ctx) = some i) (hSt : i.st = .ready) (hReleased : i.released = false) :
    let coll := twColl o.word
    let j : Inst := { i with
        released := true, outGroup := if twEntryGroup o.word then e.group else twGroup o.word,
        outFmt := if twEntryFmt o.word then e.outFmt else twFormat o.word }
    let u := (((s.instPut p coll e j).convertCrowns p coll i.step e).releaseCrowns p coll i.step fun _ => true).settle p
    u.instGet p coll e i.step = some k →
    s.convertMulticast p n =
      (if k.resulted = e.nchunk then u.trigEnd p n o false else u) := by
  intro _ _ _ hInstGet2
  rw [State.convertMulticast, State.trigInst_of_ready _ hTrigOp hImg hInstGet hSt]
  simp only [hReleased, Bool.false_eq_true, if_false]
  rw [hInstGet2]

theorem State.convertMulticast_of_all_resulted {p n : Nat} {s : State} {o : TrigOp} {e : CollE} {i : Inst} (hTrigOp :
    s.trigOp p n 2 = some o) (hImg : s.img.collValid p (twColl o.word) = some e) (hInstGet : s.instGet p (twColl o.word) e (twStep o.word
    o.ctx) = some i) (hSt : i.st = .ready) (hReleased : i.released = true) (hInstGet2 : s.instGet p (twColl o.word) e i.step = some i)
    (hResulted : i.resulted = e.nchunk) :
    s.convertMulticast p n =
      (s.trigEnd p n o false) := by
  rw [State.convertMulticast, State.trigInst_of_ready _ hTrigOp hImg hInstGet hSt]
  simp only [hReleased, if_true, hInstGet2, hResulted]

/-- The effect of NORM_CONTRIBUTE (R235). -/
theorem State.normContribute_eq {p n : Nat} {s : State} {o : TrigOp} {e : CollE} {i : Inst} (hTrigOp : s.trigOp p n 3 = some o) (hImg :
    s.img.collValid p (twColl o.word) = some e) (hInstGet : s.instGet p (twColl o.word) e (twStep o.word o.ctx) = some i) (hSt : i.st =
    .ready) (hUpdState : s.updState p = 1) (hUpdStep : s.updStep p = twStep o.word o.ctx) :
    let u := i.sides.foldl (fun t kv =>
        (t.instFlags p (twColl o.word) e i.step (kv.1.headD 0) (t.normMoved p i.w kv.2).2 false).normSum p (t.normMoved p i.w kv.2).1) s
    s.normContribute p n =
      (((u.bumpSat V.NORM_OPS [p] 1).trigEnd p n o false).localFinal p) := by
  intro _
  rw [State.normContribute, State.trigInst_of_ready _ hTrigOp hImg hInstGet hSt]
  simp only [hUpdState, hUpdStep, decide_true, Bool.and_self, if_true] <;> rfl

/-- The effect of UPDATE_SHARD (R214). -/
theorem State.updateShard_eq {p n : Nat} {s : State} {o : TrigOp} (hTrigOp : s.trigOp p n 4 = some o) (hUpdStep : s.updStep p = twStep
    o.word o.ctx) (hWord : before32 (twStep o.word o.ctx) (s.updStep p) = false) (hUpdState : s.updState p = 3) (hUpdOpDone : s.rdb
    V.UPD_OP_DONE [p, twArg0 o.word % 2 ^ 16] = false) (hUpdStarted : s.rdb V.UPD_STARTED [p, twArg0 o.word % 2 ^ 16] = false) (hImg :
    s.img.optAuto p = false) :
    s.updateShard p n =
      (s.wr V.UPD_STARTED [p, twArg0 o.word % 2 ^ 16] 1) := by
  simp only [State.updateShard, hTrigOp]
  simp only [hUpdStep] at hWord
  generalize twArg0 o.word % 2 ^ 16 = k at hUpdOpDone hUpdStarted ⊢
  simp [hWord, hUpdStep, hUpdState, hUpdOpDone, hUpdStarted, hImg]

/-- The effect of PUBLISH_OP (R253). -/
theorem State.publishOp_eq {p n : Nat} {s : State} {o : TrigOp} {h : ShardE} (hTrigOp : s.trigOp p n 5 = some o) (hImg : s.img.shardValid p
    (twArg0 o.word % 2 ^ 16) = some h) (hShardQuiet : s.shardQuiet p (twArg0 o.word % 2 ^ 16) = true) (hUpdFaultFaulted : s.rdb
    F.UPD_FAULT_FAULTED [h.quad] = false) (hShardLost : s.rdb V.SHARD_LOST [p, twArg0 o.word % 2 ^ 16] = false) :
    s.publishOp p n =
      ((s.publishShard p (twArg0 o.word % 2 ^ 16) (twArg1 o.word) h).trigEnd p n o false) := by
  simp only [State.publishOp, hTrigOp, hImg, hShardQuiet, hUpdFaultFaulted, hShardLost, Bool.not_true, Bool.or_self, Bool.false_eq_true, if_false]

/-- The effect of SNAPSHOT_OP (R254). -/
theorem State.snapshotOp_eq {p n : Nat} {s : State} {o : TrigOp} {h : ShardE} (hTrigOp : s.trigOp p n 6 = some o) (hImg : s.img.shardValid
    p (twArg0 o.word % 2 ^ 16) = some h) (hShardQuiet : s.shardQuiet p (twArg0 o.word % 2 ^ 16) = true) (hUpdFaultFaulted : s.rdb
    F.UPD_FAULT_FAULTED [h.quad] = false) :
    let r := s.snapshotShard p (twArg0 o.word % 2 ^ 16) (twArg1 o.word) h
    s.snapshotOp p n =
      (r.1.trigEnd p n o (r.2 != 0)) := by
  intro _
  simp only [State.snapshotOp, hTrigOp, hImg, hShardQuiet, hUpdFaultFaulted, Bool.not_true, Bool.or_self, Bool.false_eq_true, if_false] <;> rfl

/-- The effect of SIGNAL_HOST (R214). -/
theorem State.signalHost_eq {p n : Nat} {s : State} {o : TrigOp} (hTrigOp : s.trigOp p n 7 = some o) (hPosted : o.posted = 0) :
    let k := twArg0 o.word % 8
    let t := s.cqPost p k { kind := 4, tag := twArg1 o.word % 2 ^ 32 }
    (SMap.get t.cqWait [p, k] []).length ≤ (SMap.get s.cqWait [p, k] []).length →
    s.signalHost p n =
      (t.trigEnd p n o false) := by
  intro _ _ hGet
  simp only [State.signalHost, hTrigOp, hPosted, ne_eq, not_true_eq_false, if_false]
  exact if_neg (Nat.not_lt.2 hGet)

/-- The effect of INCREMENT_OP (R214). -/
theorem State.incrementOp_eq {p n : Nat} {s : State} {o : TrigOp} (hTrigOp : s.trigOp p n 8 = some o) :
    s.incrementOp p n =
      ((s.trigEnd p n o false).trigAdd p (twArg1 o.word % 256) (twArg0 o.word % 2 ^ 32)) := by
  simp only [State.incrementOp, hTrigOp]

/-- The effect of WAIT_EPOCH (R214). -/
theorem State.waitEpoch_eq {p n : Nat} {s : State} {o : TrigOp} (hTrigOp : s.trigOp p n 9 = some o) (hXptEpochState : s.rd
    F.XPT_EPOCH_STATE [p] = 0) (hStamp : s.stamp p = twArg0 o.word % 2) :
    s.waitEpoch p n =
      (s.trigEnd p n o false) := by
  simp [State.waitEpoch, hTrigOp, hXptEpochState, hStamp]

/-- The effect of TRIGGER_OP_COMPLETE (R213). -/
theorem State.triggerOpComplete_eq {p n : Nat} {s : State} {o : TrigOp} (hGet : (SMap.get s.trigOps [p] [])[n]? = some o) (hFinished :
    o.finished = true) (hAborted : o.aborted = false) :
    let u := ((s.trigDrop p n).sampleEnd [p % 4, 2, p, o.widx] 0).trigAdd p (twDoneCtr o.word) 1
    s.triggerOpComplete p n =
      (if twNext o.word = 0xFFFF then u else u.trigArm p (twNext o.word) o.ctx) := by
  intro u
  simp [State.triggerOpComplete, hGet, hFinished, hAborted, u]

/-- Settles O10: every clause is the run of its command, whose operation answers the state that the clause writes out. -/
theorem trigCommandsComplete : Obligations.TrigCommandsComplete := by
  refine ⟨?_, ?_, ?_, ?_, ?_, ?_, ?_, ?_, ?_, ?_, ?_, ?_⟩
  · intro p n s o e i hwf hup hTrigOp hImg hInstGet hSt hPod hFwd _ _ hInstSlots
    exact (exec_reduceForward ..).trans (State.run_goes hwf hup (State.reduceForward_of_not_fwd_instSlots hTrigOp hImg hInstGet hSt hPod hFwd
        hInstSlots))
  · intro p n s o e i hwf hup hTrigOp hImg hInstGet hSt hPod hFwd hInstSlots
    exact (exec_reduceForward ..).trans (State.run_goes hwf hup (State.reduceForward_of_fwd_not_instSlots hTrigOp hImg hInstGet hSt hPod hFwd
        hInstSlots))
  · intro p n s o e i k hwf hup hTrigOp hImg hInstGet hSt hReleased _ _ _ hInstGet2
    exact (exec_convertMulticast ..).trans (State.run_goes hwf hup (State.convertMulticast_of_not_released_instGet_some hTrigOp hImg hInstGet hSt
        hReleased hInstGet2))
  · intro p n s o e i hwf hup hTrigOp hImg hInstGet hSt hReleased hInstGet2 hResulted
    exact (exec_convertMulticast ..).trans (State.run_goes hwf hup (State.convertMulticast_of_all_resulted hTrigOp hImg hInstGet
        hSt hReleased hInstGet2 hResulted))
  · intro p n s o e i hwf hup hTrigOp hImg hInstGet hSt hUpdState hUpdStep _
    exact (exec_normContribute ..).trans (State.run_goes hwf hup (State.normContribute_eq hTrigOp hImg hInstGet hSt hUpdState hUpdStep))
  · intro p n s o hwf hup hTrigOp hUpdStep hWord hUpdState hUpdOpDone hUpdStarted hImg
    exact (exec_updateShard ..).trans (State.run_goes hwf hup (State.updateShard_eq hTrigOp hUpdStep hWord hUpdState hUpdOpDone hUpdStarted hImg))
  · intro p n s o h hwf hup hTrigOp hImg hShardQuiet hUpdFaultFaulted hShardLost
    exact (exec_publishOp ..).trans (State.run_goes hwf hup (State.publishOp_eq hTrigOp hImg hShardQuiet hUpdFaultFaulted hShardLost))
  · intro p n s o h hwf hup hTrigOp hImg hShardQuiet hUpdFaultFaulted _
    exact (exec_snapshotOp ..).trans (State.run_goes hwf hup (State.snapshotOp_eq hTrigOp hImg hShardQuiet hUpdFaultFaulted))
  · intro p n s o hwf hup hTrigOp hPosted _ _ hGet
    exact (exec_signalHost ..).trans (State.run_goes hwf hup (State.signalHost_eq hTrigOp hPosted hGet))
  · intro p n s o hwf hup hTrigOp
    exact (exec_incrementOp ..).trans (State.run_goes hwf hup (State.incrementOp_eq hTrigOp))
  · intro p n s o hwf hup hTrigOp hXptEpochState hStamp
    exact (exec_waitEpoch ..).trans (State.run_goes hwf hup (State.waitEpoch_eq hTrigOp hXptEpochState hStamp))
  · intro p n s o hwf hup hGet hFinished hAborted _
    exact (exec_triggerOpComplete ..).trans (State.run_goes hwf hup (State.triggerOpComplete_eq hGet hFinished hAborted))

end Sys2Proof.Machine
end

section
/-! SUPPORT. Completion of the commands of the update engine: what each operation answers in the cases that its statement names. -/

namespace Sys2Proof.Machine

set_option Elab.async false

/-- A pass of a shard's chunk that its unit may begin. -/
theorem State.updatePassRow_of_on {s : State} {p k i : Nat} {h : ShardE} (hon : s.shardOn p k = true) (hv : s.img.shardValid p k = some h)
    (hinj : s.injEngine h.quad 1 = false) : s.updatePassRow p k i = s.updatePass p k i := by
  simp [State.updatePassRow, State.updatePassCmd, hon, hv, hinj]

/-- A command of the update ring that is taken. -/
theorem State.shardCmd_of_taken {s : State} {q p op entry : Nat} {quiet : Bool} {h : ShardE} (run : State → Nat → ShardE → State × Nat)
    (hring : s.ringCmd q p 1 op entry = true) (hfault : s.rdb F.UPD_FAULT_FAULTED [q] = false)
    (hv : s.img.shardValid p (bitsOf entry 64 16) = some h) (hquiet : (quiet && !s.shardQuiet p (bitsOf entry 64 16)) = false) :
    s.shardCmd q p op entry quiet run =
      (run (s.cmdStart q p 1 entry) (bitsOf entry 64 16) h).1.cmdDone q p 1 entry (run (s.cmdStart q p 1 entry) (bitsOf entry 64 16) h).2 := by
  simp [State.shardCmd, hring, hfault, hv, hquiet]

/-- The effect of CHUNK_HANDOFF (R234). -/
theorem State.handoffRow_of_updState_ne_not_updStep_not_updStep {p coll step chunk : Nat} {s : State} {e : CollE} {x : Handoff} {m :
    ShardE} (hImg : s.img.collValid p coll = some e) (hShardOn : s.shardOn p e.shard = true) (hGet : ((SMap.get s.handoffs [p] []).find?
    (fun h => h.coll == coll && h.step == step && h.chunk == chunk) = some x)) (hImg2 : s.img.shardValid p e.shard = some m)
    (hUpdFaultFaulted : s.rdb F.UPD_FAULT_FAULTED [m.quad] = false) (hUpdState : s.updState p ≠ 0) (hUpdStep : before32 step (s.updStep p)
    = false) (hUpdStep2 : before32 (s.updStep p) step = false) :
    s.handoffRow p coll step chunk =
      ((s.handoffDrop p x).handoffAccept p x e m) := by
  simp [State.handoffRow, State.chunkHandoff, hImg, hShardOn, hGet, hImg2, hUpdFaultFaulted, hUpdState, hUpdStep, hUpdStep2]

theorem State.handoffRow_of_updState_0_not_updPartStepOutcome {p coll step chunk : Nat} {s : State} {e : CollE} {x : Handoff} {m : ShardE}
    (hImg : s.img.collValid p coll = some e) (hShardOn : s.shardOn p e.shard = true) (hGet : ((SMap.get s.handoffs [p] []).find? (fun h =>
    h.coll == coll && h.step == step && h.chunk == chunk) = some x)) (hImg2 : s.img.shardValid p e.shard = some m) (hUpdFaultFaulted :
    s.rdb F.UPD_FAULT_FAULTED [m.quad] = false) (hUpdState : s.updState p = 0) (hUpdPartStepOutcome : s.rdb F.UPD_PART_STEP_OUTCOME [p] =
    false) :
    s.handoffRow p coll step chunk =
      (((s.stepOpen p step).handoffDrop p x).handoffAccept p x e m) := by
  simp [State.handoffRow, State.chunkHandoff, hImg, hShardOn, hGet, hImg2, hUpdFaultFaulted, hUpdState, hUpdPartStepOutcome]

/-- The effect of UPDATE_PASS (R250). -/
theorem State.updatePassRow_of_injEngine {p shard chunk : Nat} {s : State} {h : ShardE} (hShardOn : s.shardOn p shard = true) (hImg :
    s.img.shardValid p shard = some h) (hInjEngine : s.injEngine h.quad 1 = true) :
    s.updatePassRow p shard chunk =
      (s.updateProgressTimeout h.quad) := by
  simp [State.updatePassRow, State.updatePassCmd, hShardOn, hImg, hInjEngine]

theorem State.updatePassRow_of_last_pass {p shard chunk : Nat} {s : State} {h : ShardE}
    {c : UpdChunk} {bs : List Byte} {gs : List Nat} {z : State} (hShardOn : s.shardOn p shard = true) (hImg : s.img.shardValid p shard =
    some h) (hInjEngine : s.injEngine h.quad 1 = false) (hUpdGet : s.updGet p shard chunk = some c) (hUpdFaultFaulted : s.rdb
    F.UPD_FAULT_FAULTED [h.quad] = false) (hShardLost : s.rdb V.SHARD_LOST [p, shard] = false) (hPassReady : s.passReady p shard (s.img.grp
    p (s.img.segOf p h chunk).group) (s.img.segOf p h chunk).group c = true) (hUnitGo : s.unitGo h.quad 5 p passCycles = true) :
    let sg := s.img.segOf p h chunk
    let g := s.img.grp p sg.group
    let t := s.unitStart h.quad 5 p passCycles
    let off := h.stateAddr + recBytes h * t.recordOf p h chunk
    (twoPass g.recipe = false ∧ g.recipe ≠ 0) →
    t.optRead p off (recBytes h) = some bs →
    t.chunkGrads p chunk h c = some gs →
    let r := recOfBytes h.layout1 bs
    let u := (t.passNote p chunk off h c).updStat p 0 1
    let xs := dropElems c.bad (u.finalElems p sg.group ((chunk - sg.start) * 512) h sg g (t.img.setup p g (t.updT p) (t.rd V.STEP_K [p])) r gs)
    u.optWrite p off (recBytesOf h.layout1 (u.img.seed p) (u.updStep p) ((u.img.coll p h.coll).chunkBase + chunk)
        (xs.map fun x => x.isSome && g.recipe != 0 && g.recipe != 3) (applyElems r xs)) = some z →
    s.updatePassRow p shard chunk =
      ((z.nonFinite p shard chunk ((xs.filter (·.isNone)).length - c.bad.length)).chunkFinal p shard chunk h c) := by
  intro sg g t off hrecipe hread hgrads r u xs hwrite
  rw [State.updatePassRow_of_on hShardOn hImg hInjEngine]
  obtain ⟨htwo, hzero⟩ := hrecipe
  have hthree : g.recipe ≠ 3 := fun e => by simp [twoPass, e] at htwo
  have hready : (s.rdb F.UPD_FAULT_FAULTED [h.quad] || s.rdb V.SHARD_LOST [p, shard] ||
      !s.passReady p shard g sg.group c) = false := by simp [hUpdFaultFaulted, hShardLost, hPassReady, g, sg]
  simp only [sg, g, t, off, r, u, xs] at htwo hzero hthree hready hread hgrads hwrite ⊢
  simp only [State.updatePass, hImg, hUpdGet, hready, State.unit, hUnitGo, hread, hgrads, htwo, hzero, hthree, Bool.false_and, Bool.false_eq_true,
    if_false, if_true, hwrite]

theorem State.updatePassRow_of_first_pass {p shard chunk : Nat} {s : State} {h : ShardE}
    {c : UpdChunk} {bs : List Byte} {gs : List Nat} (hShardOn : s.shardOn p shard = true) (hImg : s.img.shardValid p shard = some h)
    (hInjEngine : s.injEngine h.quad 1 = false) (hUpdGet : s.updGet p shard chunk = some c) (hUpdFaultFaulted : s.rdb F.UPD_FAULT_FAULTED
    [h.quad] = false) (hShardLost : s.rdb V.SHARD_LOST [p, shard] = false) (hPassReady : s.passReady p shard (s.img.grp p (s.img.segOf p h
    chunk).group) (s.img.segOf p h chunk).group c = true) (hUnitGo : s.unitGo h.quad 5 p passCycles = true) :
    let sg := s.img.segOf p h chunk
    let g := s.img.grp p sg.group
    let t := s.unitStart h.quad 5 p passCycles
    let off := h.stateAddr + recBytes h * t.recordOf p h chunk
    (twoPass g.recipe = true ∧ c.passes = 0) →
    t.optRead p off (recBytes h) = some bs →
    t.chunkGrads p chunk h c = some gs →
    s.updatePassRow p shard chunk =
      (((t.passNote p chunk off h c).updStat p 0 1).firstPass p shard chunk sg.group h sg g
          (t.img.setup p g (t.updT p) (t.rd V.STEP_K [p])) c (recOfBytes h.layout1 bs) gs) := by
  intro sg g t off hrecipe hread hgrads
  rw [State.updatePassRow_of_on hShardOn hImg hInjEngine]
  simp only [sg, g, t, off] at hrecipe hread hgrads ⊢
  simp [State.updatePass, State.unit, hImg, hUpdGet, hUpdFaultFaulted, hShardLost, hPassReady, hUnitGo, hrecipe, hread, hgrads]

theorem State.updatePassRow_of_record_lost {p shard chunk : Nat} {s : State} {h : ShardE}
    {c : UpdChunk} (hShardOn : s.shardOn p shard = true) (hImg : s.img.shardValid p shard = some h) (hInjEngine : s.injEngine h.quad 1 =
    false) (hUpdGet : s.updGet p shard chunk = some c) (hUpdFaultFaulted : s.rdb F.UPD_FAULT_FAULTED [h.quad] = false) (hShardLost : s.rdb
    V.SHARD_LOST [p, shard] = false) (hPassReady : s.passReady p shard (s.img.grp p (s.img.segOf p h chunk).group) (s.img.segOf p h
    chunk).group c = true) (hUnitGo : s.unitGo h.quad 5 p passCycles = true) :
    let t := s.unitStart h.quad 5 p passCycles
    let off := h.stateAddr + recBytes h * t.recordOf p h chunk
    t.optRead p off (recBytes h) = none →
    s.updatePassRow p shard chunk =
      (((t.passNote p chunk off h c).shardLost p shard).stepFail p) := by
  intro t off hread
  rw [State.updatePassRow_of_on hShardOn hImg hInjEngine]
  simp only [t, off] at hread ⊢
  simp [State.updatePass, State.unit, hImg, hUpdGet, hUpdFaultFaulted, hShardLost, hPassReady, hUnitGo, hread]

/-- The effect of STEP_DECIDED (R240). -/
theorem State.stepDecided_eq {p : Nat} {s : State} {rd : Round} {m : MVal} (hUpdState : s.updState p = 2) (hRoundGet : s.roundGet
    (s.img.normCtx p) (s.updStep p) = some rd) (hSt : rd.st = 2) (hPod : rd.pod = some m) (hStepFlagRecord : (s.stepFlagRecord p (s.updStep
    p)).img.optLagged p = false) (hV : (bitsOf m.v 128 128 = 0 ∧ bitsOf m.v 256 128 = 0)) :
    let c := clipFactor (s.img.clipNorm p) (s.img.normW p) (signed 128 (bitsOf m.v 0 128))
    let u := ((((s.stepFlagRecord p (s.updStep p)).wr F.UPD_NORM_NORM [p] c.2).wr F.UPD_CLIP_K [p] c.1).wr F.UPD_CLIP_STEP_TAG [p] (s.updStep p)).wr V.CLIP_KNOWN [p] 1
    s.stepDecided p =
      ((((u.wr V.STEP_K [p] c.1).wr F.UPD_PART_STEP_STATE [p] 3).bump F.UPD_PART_T_T [p] 1).passesEnd p) := by
  intro c u
  simp [State.stepDecided, hUpdState, hRoundGet, hSt, hPod, hStepFlagRecord, hV, c, u]

/-- The effect of STEP_TIMER_EXPIRY (R241). -/
theorem State.stepTimerExpiry_of_undecided {p : Nat} {s : State} (hUpdState : s.updState p = 2) :
    let n := s.updStep p
    s.stepTimerExpiry p =
      (((s.abortRups p n).stepEnd p 3).err { det := 0x0D, sev := 1, part := p, quad := p % 4, cause := 3, addr := n }) := by
  intro n
  simp [State.stepTimerExpiry, hUpdState, n]

theorem State.stepTimerExpiry_of_updState_or {p : Nat} {s : State} (hUpdState : (s.updState p = 3 ∨ s.updState p = 4)) :
    s.stepTimerExpiry p =
      (s.stepFail p) := by
  rcases hUpdState with h | h <;> simp [State.stepTimerExpiry, h]

/-- The effect of UPDATE_PROGRESS_TIMEOUT (R256). -/
theorem State.updateProgressTimeout_eq {q : Nat} {s : State} (hUpdFaultFaulted : s.rdb F.UPD_FAULT_FAULTED [q] = false) (hInjEngine :
    s.injEngine q 1 = false) :
    let u := (s.wr F.UPD_FAULT_FAULTED [q] 1).err { det := 0x0D, sev := 2, quad := q, unit := 1, cause := 1, inj := false }
    s.updateProgressTimeout q =
      ((List.range 32).foldl (fun t p => if t.updOn p q then t.stepFail p else t) u) := by
  intro u
  simp [State.updateProgressTimeout, hUpdFaultFaulted, hInjEngine, u]

/-- The effect of PUBLISH (R253). -/
theorem State.publishCmd_eq {q p : Nat} {entry : BitVec 512} {s : State} {h : ShardE} (hRingCmd : s.ringCmd q p 1 1 entry.toNat = true)
    (hUpdFaultFaulted : s.rdb F.UPD_FAULT_FAULTED [q] = false) (hImg : s.img.shardValid p (bitsOf entry.toNat 64 16) = some h) (hShardQuiet
    : s.shardQuiet p (bitsOf entry.toNat 64 16) = true) (hShardLost : (s.cmdStart q p 1 entry.toNat).rdb V.SHARD_LOST [p, bitsOf
    entry.toNat 64 16] = false) :
    let k := bitsOf entry.toNat 64 16
    s.publishCmd q p entry.toNat =
      (((s.cmdStart q p 1 entry.toNat).publishShard p k (bitsOf entry.toNat 128 64) h).cmdDone q p 1 entry.toNat 0) := by
  rw [State.publishCmd, State.shardCmd_of_taken _ hRingCmd hUpdFaultFaulted hImg (by simp [hShardQuiet])]
  simp [hShardLost]

/-- The effect of SNAPSHOT (R254). -/
theorem State.snapshotCmd_eq {q p : Nat} {entry : BitVec 512} {s : State} {h : ShardE} (hRingCmd : s.ringCmd q p 1 2 entry.toNat = true)
    (hUpdFaultFaulted : s.rdb F.UPD_FAULT_FAULTED [q] = false) (hImg : s.img.shardValid p (bitsOf entry.toNat 64 16) = some h) (hShardQuiet
    : s.shardQuiet p (bitsOf entry.toNat 64 16) = true) :
    let r := (s.cmdStart q p 1 entry.toNat).snapshotShard p (bitsOf entry.toNat 64 16) (bitsOf entry.toNat 128 64) h
    s.snapshotCmd q p entry.toNat =
      (r.1.cmdDone q p 1 entry.toNat r.2) := by
  exact State.shardCmd_of_taken _ hRingCmd hUpdFaultFaulted hImg (by simp [hShardQuiet])

/-- The effect of IMPORT (R255). -/
theorem State.importCmd_eq {q p : Nat} {entry : BitVec 512} {s : State} {h : ShardE} (hRingCmd : s.ringCmd q p 1 3 entry.toNat = true)
    (hUpdFaultFaulted : s.rdb F.UPD_FAULT_FAULTED [q] = false) (hImg : s.img.shardValid p (bitsOf entry.toNat 64 16) = some h) :
    let r := (s.cmdStart q p 1 entry.toNat).importShard p (bitsOf entry.toNat 64 16) (bitsOf entry.toNat 128 64) h
    s.importCmd q p entry.toNat =
      (r.1.cmdDone q p 1 entry.toNat r.2) := by
  exact State.shardCmd_of_taken _ hRingCmd hUpdFaultFaulted hImg rfl

/-- The effect of SET_T (R255). -/
theorem State.setT_eq {q p : Nat} {entry : BitVec 512} {s : State} (hRingCmd : s.ringCmd q p 1 4 entry.toNat = true) (hUpdFaultFaulted :
    s.rdb F.UPD_FAULT_FAULTED [q] = false) (hCmdStart : (s.cmdStart q p 1 entry.toNat).updState p = 0) :
    s.setT q p entry.toNat =
      (((s.cmdStart q p 1 entry.toNat).wr F.UPD_PART_T_T [p] (bitsOf entry.toNat 96 32)).cmdDone q p 1 entry.toNat 0) := by
  simp [State.setT, hRingCmd, hUpdFaultFaulted, hCmdStart]

/-- Settles O11: every clause is the run of its command, whose operation answers the state that the clause writes out. -/
theorem updateCommandsComplete : Obligations.UpdateCommandsComplete := by
  refine ⟨?_, ?_, ?_, ?_, ?_, ?_, ?_, ?_, ?_, ?_, ?_, ?_, ?_, ?_⟩
  · intro p coll step chunk s e x m hwf hup hImg hShardOn hGet hImg2 hUpdFaultFaulted hUpdState hUpdStep hUpdStep2
    exact (exec_chunkHandoff ..).trans (State.run_goes hwf hup (State.handoffRow_of_updState_ne_not_updStep_not_updStep hImg hShardOn hGet hImg2
        hUpdFaultFaulted hUpdState hUpdStep hUpdStep2))
  · intro p coll step chunk s e x m hwf hup hImg hShardOn hGet hImg2 hUpdFaultFaulted hUpdState hUpdPartStepOutcome
    exact (exec_chunkHandoff ..).trans (State.run_goes hwf hup (State.handoffRow_of_updState_0_not_updPartStepOutcome hImg hShardOn hGet hImg2
        hUpdFaultFaulted hUpdState hUpdPartStepOutcome))
  · intro p shard chunk s h hwf hup hShardOn hImg hInjEngine
    exact (exec_updatePass ..).trans (State.run_goes hwf hup (State.updatePassRow_of_injEngine hShardOn hImg hInjEngine))
  · intro p shard chunk s h c bs gs z hwf hup hShardOn hImg hInjEngine hUpdGet hUpdFaultFaulted hShardLost hPassReady hUnitGo _ _ _ _ hRecipe
      hOptRead hChunkGrads _ _ _ hOptWrite
    exact (exec_updatePass ..).trans (State.run_goes hwf hup (State.updatePassRow_of_last_pass
        hShardOn hImg hInjEngine hUpdGet hUpdFaultFaulted hShardLost hPassReady hUnitGo hRecipe hOptRead hChunkGrads hOptWrite))
  · intro p shard chunk s h c bs gs hwf hup hShardOn hImg hInjEngine hUpdGet hUpdFaultFaulted hShardLost hPassReady hUnitGo _ _ _ _ hRecipe hOptRead
      hChunkGrads
    exact (exec_updatePass ..).trans (State.run_goes hwf hup (State.updatePassRow_of_first_pass
        hShardOn hImg hInjEngine hUpdGet hUpdFaultFaulted hShardLost hPassReady hUnitGo hRecipe hOptRead hChunkGrads))
  · intro p shard chunk s h c hwf hup hShardOn hImg hInjEngine hUpdGet hUpdFaultFaulted hShardLost hPassReady hUnitGo _ _ hOptRead
    exact (exec_updatePass ..).trans (State.run_goes hwf hup (State.updatePassRow_of_record_lost
        hShardOn hImg hInjEngine hUpdGet hUpdFaultFaulted hShardLost hPassReady hUnitGo hOptRead))
  · intro p s rd m hwf hup hUpdState hRoundGet hSt hPod hStepFlagRecord hV _ _
    exact (exec_stepDecided ..).trans (State.run_goes hwf hup (State.stepDecided_eq hUpdState hRoundGet hSt hPod hStepFlagRecord hV))
  · intro p s hwf hup hUpdState _
    exact (exec_stepTimerExpiry ..).trans (State.run_goes hwf hup (State.stepTimerExpiry_of_undecided hUpdState))
  · intro p s hwf hup hUpdState
    exact (exec_stepTimerExpiry ..).trans (State.run_goes hwf hup (State.stepTimerExpiry_of_updState_or hUpdState))
  · intro q s hwf hup hUpdFaultFaulted hInjEngine _
    exact (exec_updateProgressTimeout ..).trans (State.run_goes hwf hup (State.updateProgressTimeout_eq hUpdFaultFaulted hInjEngine))
  · intro q p entry s h hwf hup hRingCmd hUpdFaultFaulted hImg hShardQuiet hShardLost _
    exact (exec_publish ..).trans (State.run_goes hwf hup (State.publishCmd_eq hRingCmd hUpdFaultFaulted hImg hShardQuiet hShardLost))
  · intro q p entry s h hwf hup hRingCmd hUpdFaultFaulted hImg hShardQuiet _
    exact (exec_snapshot ..).trans (State.run_goes hwf hup (State.snapshotCmd_eq hRingCmd hUpdFaultFaulted hImg hShardQuiet))
  · intro q p entry s h hwf hup hRingCmd hUpdFaultFaulted hImg _
    exact (exec_import ..).trans (State.run_goes hwf hup (State.importCmd_eq hRingCmd hUpdFaultFaulted hImg))
  · intro q p entry s hwf hup hRingCmd hUpdFaultFaulted hCmdStart
    exact (exec_setT ..).trans (State.run_goes hwf hup (State.setT_eq hRingCmd hUpdFaultFaulted hCmdStart))

end Sys2Proof.Machine
end

section
/-! SUPPORT. Completion of the commands of the Gram engine: what each operation answers in the cases that its statement names. -/

namespace Sys2Proof.Machine

set_option Elab.async false

/-- An injection of another detector leaves an engine's write alone. -/
theorem State.sramHook_of_not_injDet {s : State} {q : Nat} (h : s.injDet 0x0A q = false) (m p a b : Nat) : s.sramHook q m p a b = s := by
  simp [State.sramHook, h]

/-- The effect of GRAM_ACC, MATMUL, NS_ROOT, NS_ORTHO and APPLY (R264 to R269): an accepted command whose block is not waited for starts. -/
theorem State.gramCmd_of_ready {q p op entry : Nat} {s : State} (hRingCmd : s.ringCmd q p 2 op entry = true) (hIdle : s.rdb
    F.GRM_PART_STATE [q, p] = false) :
    let u := (s.wr F.GRM_PART_OPCODE [q, p] op).wr F.GRM_PART_TAG [q, p] (ceTag entry)
    u.rdb F.GRM_FAULT_FAULTED [q] = false →
    u.gramOk q p op entry = true →
    (gStaged op entry = false ∨ u.blockStaged p op entry = true) →
    s.gramCmd q p op entry = u.gramRun q p op entry := by
  intro u hfault hok hready
  simp [State.gramCmd, hRingCmd, hIdle, hfault, hok, hready, u]

/-- The effect of GRAM_WAIT_RELEASE (R270). -/
theorem State.gramWaitRelease_eq {q p : Nat} {s : State} (hGrmPartState : s.rd F.GRM_PART_STATE [q, p] = 1) (hGrmAbort : s.rdb V.GRM_ABORT
    [q, p] = false) (hGrmFaultFaulted : s.rdb F.GRM_FAULT_FAULTED [q] = false) (hGrmEntry : s.blockStaged p (ceOpcode (s.rd V.GRM_ENTRY [q,
    p])) (s.rd V.GRM_ENTRY [q, p]) = true) (hGrmEntry2 : s.gramOk q p (ceOpcode (s.rd V.GRM_ENTRY [q, p])) (s.rd V.GRM_ENTRY [q, p]) =
    true) :
    s.gramWaitRelease q p =
      (s.gramRun q p (ceOpcode (s.rd V.GRM_ENTRY [q, p])) (s.rd V.GRM_ENTRY [q, p])) := by
  simp [State.gramWaitRelease, hGrmPartState, hGrmAbort, hGrmFaultFaulted, hGrmEntry, hGrmEntry2]

/-- The effect of GRAM_UNIT (R272). -/
theorem State.gramRow_of_injEngine {q p : Nat} {s : State} (hInjEngine : s.injEngine q 2 =
    true) (hGramNext :
    (s.gramNext q p).isSome = true) :
    s.gramRow q p =
      (s.gramProgressTimeout q p) := by
  obtain ⟨u, hu⟩ := Option.isSome_iff_exists.1 hGramNext
  simp [State.gramRow, State.gramStarts, State.gramUnit, hu, hInjEngine]

theorem State.gramRow_of_abort {q p : Nat} {s : State} {u : Nat × GPass × (Nat × Nat) × Nat}
    (hInjDet : s.injDet 0x0A q = false) (hInjEngine : s.injEngine q 2 = false) (hGramNext : s.gramNext q p = some u) :
    let entry := s.rd V.GRM_ENTRY [q, p]
    let op := ceOpcode entry
    (gStaged op entry = true ∧ s.rdb V.GRM_ABORT [q, p] = true) →
    s.gramRow q p =
      (s.gramStop q p) := by
  intro entry op habort
  simp only [State.gramRow, State.sramHook_of_not_injDet hInjDet, ite_self]
  simp only [State.gramUnit, hGramNext, hInjEngine, Bool.false_eq_true, if_false, entry, op] at habort ⊢
  simp [habort]

theorem State.gramRow_of_unitGo {q p : Nat} {s : State} {u : Nat × GPass × (Nat × Nat) × Nat}
    (hInjDet : s.injDet 0x0A q = false) (hInjEngine : s.injEngine q 2 = false) (hGramNext : s.gramNext q p = some u) :
    let entry := s.rd V.GRM_ENTRY [q, p]
    let op := ceOpcode entry
    (gStaged op entry = false ∨ s.rdb V.GRM_ABORT [q, p] = false) →
    ((s.gAreas p op entry).any fun a => s.rangeLost p a.1 a.2) = false →
    s.unitGo q 6 p (s.gramCycles q p u) = true →
    let t := (s.unitStart q 6 p (s.gramCycles q p u)).wr V.HBM_REQ [] (1 + 4 * 1 + q)
    let rs := t.unitSpans p op entry u.1 u.2.1 u.2.2.1 u.2.2.2
    (rs.any fun a => t.readBad p a.1 a.2) = false →
    s.gramRow q p =
      (((rs.foldl (fun t a => t.noteRead 0x09 p a.1 a.2) t).gramEffect q p u).wr V.HBM_REQ []
          ((s.unitStart q 6 p (s.gramCycles q p u)).rd V.HBM_REQ [])) := by
  intro entry op habort hareas hgo t rs hread
  have hgoes : (gStaged op entry && s.rdb V.GRM_ABORT [q, p]) = false := by
    rcases habort with h | h <;> simp [h]
  have hnone : (rs.find? fun a => t.readBad p a.1 a.2) = none := by
    simpa using hread
  simp only [entry, op] at hgoes hareas
  simp only [State.gramRow, State.sramHook_of_not_injDet hInjDet, ite_self]
  simp only [State.gramUnit, hGramNext, hInjEngine, Bool.false_eq_true, if_false, hgoes, hareas, State.unit_of_unitGo _ hgo, State.asReq]
  rw [hnone]

/-- The effect of GRAM_PROGRESS_TIMEOUT (R275). -/
theorem State.gramProgressTimeout_eq {q p : Nat} {s : State} (hGrmFaultFaulted : s.rdb F.GRM_FAULT_FAULTED [q] = false) (hGrmPartState :
    s.rd F.GRM_PART_STATE [q, p] = 2) (hInjEngine : s.injEngine q 2 = false) :
    let u := (((s.wr F.GRM_FAULT_FAULTED [q] 1).wr F.GRM_FAULT_PART [q] p).wr F.GRM_FAULT_OPCODE [q] (s.rd F.GRM_PART_OPCODE [q, p])).raise F.GRM_FAULT_VALID [q]
    let x := u.err { det := 0x0D, sev := 2, quad := q, unit := 2, cause := 2, info := u.rd F.GRM_PART_OPCODE [q, p] * 2 ^ 8 + 2 * p + 1, inj := false }
    s.gramProgressTimeout q p =
      ((List.range 32).foldl (fun t r => if t.rd F.GRM_PART_STATE [q, r] == 2 then t.gramStop q r else t) x) := by
  intro u x
  simp [State.gramProgressTimeout, hGrmFaultFaulted, hGrmPartState, hInjEngine, u, x]

/-- Settles O12: every clause is the run of its command, whose operation answers the state that the clause writes out. -/
theorem gramCommandsComplete : Obligations.GramCommandsComplete := by
  refine ⟨?_, ?_, ?_, ?_, ?_, ?_, ?_, ?_, ?_, ?_⟩
  · intro q p entry s hwf hup hRingCmd hGrmPartState hGrmPartOpcode hGrmPartOpcode2 hGrmPartOpcode3
    exact (exec_gramAcc ..).trans (State.run_goes hwf hup (State.gramCmd_of_ready hRingCmd hGrmPartState hGrmPartOpcode hGrmPartOpcode2
        hGrmPartOpcode3))
  · intro q p entry s hwf hup hRingCmd hGrmPartState hGrmPartOpcode hGrmPartOpcode2 hGrmPartOpcode3
    exact (exec_matmul ..).trans (State.run_goes hwf hup (State.gramCmd_of_ready hRingCmd hGrmPartState hGrmPartOpcode hGrmPartOpcode2
        hGrmPartOpcode3))
  · intro q p entry s hwf hup hRingCmd hGrmPartState hGrmPartOpcode hGrmPartOpcode2 hGrmPartOpcode3
    exact (exec_nsRoot ..).trans (State.run_goes hwf hup (State.gramCmd_of_ready hRingCmd hGrmPartState hGrmPartOpcode hGrmPartOpcode2
        hGrmPartOpcode3))
  · intro q p entry s hwf hup hRingCmd hGrmPartState hGrmPartOpcode hGrmPartOpcode2 hGrmPartOpcode3
    exact (exec_nsOrtho ..).trans (State.run_goes hwf hup (State.gramCmd_of_ready hRingCmd hGrmPartState hGrmPartOpcode hGrmPartOpcode2
        hGrmPartOpcode3))
  · intro q p entry s hwf hup hRingCmd hGrmPartState hGrmPartOpcode hGrmPartOpcode2 hGrmPartOpcode3
    exact (exec_apply ..).trans (State.run_goes hwf hup (State.gramCmd_of_ready hRingCmd hGrmPartState hGrmPartOpcode hGrmPartOpcode2
        hGrmPartOpcode3))
  · intro q p s hwf hup hGrmPartState hGrmAbort hGrmFaultFaulted hGrmEntry hGrmEntry2
    exact (exec_gramWaitRelease ..).trans (State.run_goes hwf hup (State.gramWaitRelease_eq hGrmPartState hGrmAbort hGrmFaultFaulted hGrmEntry
        hGrmEntry2))
  · intro q p s hwf hup hInjEngine _ _ hGramNext
    exact (exec_gramUnit ..).trans (State.run_goes hwf hup (State.gramRow_of_injEngine hInjEngine hGramNext))
  · intro q p s u hwf hup hInjDet hInjEngine hGramNext _ _ hGrmAbort
    exact (exec_gramUnit ..).trans (State.run_goes hwf hup (State.gramRow_of_abort hInjDet hInjEngine
        hGramNext hGrmAbort))
  · intro q p s u hwf hup hInjDet hInjEngine hGramNext _ _ hGrmAbort hGAreas hUnitGo _ _ hAny
    exact (exec_gramUnit ..).trans (State.run_goes hwf hup (State.gramRow_of_unitGo hInjDet hInjEngine
        hGramNext hGrmAbort hGAreas hUnitGo hAny))
  · intro q p s hwf hup hGrmFaultFaulted hGrmPartState hInjEngine _ _
    exact (exec_gramProgressTimeout ..).trans (State.run_goes hwf hup (State.gramProgressTimeout_eq hGrmFaultFaulted hGrmPartState hInjEngine))

end Sys2Proof.Machine
end

section
/-! SUPPORT. Completion of the commands of the Mitten: what each operation answers in the cases that its statement names. -/

namespace Sys2Proof.Machine

set_option Elab.async false

/-- A packet that is the first of its lane, of the right length and without damage, reaches the combiner. -/
theorem State.atCombiner_of_first {s : State} {k : Packet} (f : State → State) (hfirst : s.laneFirst (pkCtx k % 4) k = true)
    (hunits : pkPayUnits k = 1) (hcause : serviceCause k = none) : s.atCombiner k f = f (s.takeSvc (pkCtx k % 4) 46 k) := by
  simp [State.atCombiner, hfirst, hunits, hcause]

/-- The effect of MIT_MEMBER (R289). -/
theorem State.mitRow1_of_img_some_ni_img {pkt : Packet} {s : State} {e : CtxE} {r : RankEntry} (hLaneFirst : s.laneFirst (pkCtx pkt % 4)
    pkt = true) (hPkPayUnits : pkPayUnits pkt = 1) (hServiceCause : serviceCause pkt = none) (hCtxFor : s.ctxFor pkt = some e) (hImg :
    s.img.rankEntry (pkEpoch pkt) (pkPart pkt) (dstRank (pkSrc pkt)) = some r) (hNi : e.ni = true) (hImg2 : bitOf (s.img.memberSet (pkPart
    pkt) e.set) (dstRank (pkSrc pkt)) = true) :
    let u := s.takeSvc (pkCtx pkt % 4) 46 pkt
    let x := u.mitInputAt (pkCtx pkt) (pkPart pkt) (pkSeq pkt) e [1, r.acc] (pkMval pkt) (mitMemberLate (pkCtx pkt) (pkPart pkt) (dstRank (pkSrc pkt)))
    s.mitRow1 pkt State.mitMember =
      (if (x.roundGet (pkCtx pkt) (pkSeq pkt)).isSome then x.sramHook (pkCtx pkt % 4) 4 (pkPart pkt) (pkCtx pkt) (pkSeq pkt) else x) := by
  intro u x
  have hctx : u.ctxFor pkt = some e := hCtxFor
  have hrank : u.img.rankEntry (pkEpoch pkt) (pkPart pkt) (dstRank (pkSrc pkt)) = some r := hImg
  have hset : bitOf (u.img.memberSet (pkPart pkt) e.set) (dstRank (pkSrc pkt)) = true := hImg2
  have hstep : s.mitMember pkt = x := by
    rw [State.mitMember, State.atCombiner_of_first _ hLaneFirst hPkPayUnits hServiceCause]
    simp only [u, x] at *
    simp [hctx, hrank, hset, hNi]
  simp only [State.mitRow1, hstep]

/-- The effect of MIT_ROW (R295). -/
theorem State.mitRow1_of_pod_pkSrcType_1_myY_rowPeers {pkt : Packet} {s : State} {e : CtxE} (hLaneFirst : s.laneFirst (pkCtx pkt % 4) pkt =
    true) (hPkPayUnits : pkPayUnits pkt = 1) (hServiceCause : serviceCause pkt = none) (hCtxFor : s.ctxFor pkt = some e) (hPod : e.pod =
    true) (hPkSrcType : pkSrcType pkt = 1) (hMyY : dstY (pkSrc pkt) = s.myY) (hRowPeers : (s.rowPeers e).contains (dstX (pkSrc pkt)) =
    true) :
    let u := s.takeSvc (pkCtx pkt % 4) 46 pkt
    let x := u.mitInputAt (pkCtx pkt) (pkPart pkt) (pkSeq pkt) e [3, dstX (pkSrc pkt)] (pkMval pkt) (mitRowLate (pkCtx pkt) (pkPart pkt) (dstX (pkSrc pkt)))
    s.mitRow1 pkt State.mitRowIn =
      (if (x.roundGet (pkCtx pkt) (pkSeq pkt)).isSome then x.sramHook (pkCtx pkt % 4) 4 (pkPart pkt) (pkCtx pkt) (pkSeq pkt) else x) := by
  intro u x
  have hctx : u.ctxFor pkt = some e := hCtxFor
  have hy : dstY (pkSrc pkt) = u.myY := hMyY
  have hpeer : (u.rowPeers e).contains (dstX (pkSrc pkt)) = true := hRowPeers
  have hstep : s.mitRowIn pkt = x := by
    rw [State.mitRowIn, State.atCombiner_of_first _ hLaneFirst hPkPayUnits hServiceCause]
    simp only [u, x] at *
    simp [hctx, hPod, hPkSrcType, hy, List.contains_iff_mem.1 hpeer]
  simp only [State.mitRow1, hstep]

/-- The effect of MIT_COLUMN (R295). -/
theorem State.mitRow1_of_pod_pkSrcType_1_myX_colPeers {pkt : Packet} {s : State} {e : CtxE} (hLaneFirst : s.laneFirst (pkCtx pkt % 4) pkt =
    true) (hPkPayUnits : pkPayUnits pkt = 1) (hServiceCause : serviceCause pkt = none) (hCtxFor : s.ctxFor pkt = some e) (hPod : e.pod =
    true) (hPkSrcType : pkSrcType pkt = 1) (hMyX : dstX (pkSrc pkt) = s.myX) (hColPeers : (s.colPeers e).contains (dstY (pkSrc pkt)) =
    true) :
    let u := s.takeSvc (pkCtx pkt % 4) 46 pkt
    let x := u.mitInputAt (pkCtx pkt) (pkPart pkt) (pkSeq pkt) e [4, dstY (pkSrc pkt)] (pkMval pkt) (mitColLate (pkCtx pkt) (pkPart pkt) (dstY (pkSrc pkt)))
    s.mitRow1 pkt State.mitColumnIn =
      (if (x.roundGet (pkCtx pkt) (pkSeq pkt)).isSome then x.sramHook (pkCtx pkt % 4) 4 (pkPart pkt) (pkCtx pkt) (pkSeq pkt) else x) := by
  intro u x
  have hctx : u.ctxFor pkt = some e := hCtxFor
  have hx : dstX (pkSrc pkt) = u.myX := hMyX
  have hpeer : (u.colPeers e).contains (dstY (pkSrc pkt)) = true := hColPeers
  have hstep : s.mitColumnIn pkt = x := by
    rw [State.mitColumnIn, State.atCombiner_of_first _ hLaneFirst hPkPayUnits hServiceCause]
    simp only [u, x] at *
    simp [hctx, hPod, hPkSrcType, hx, List.contains_iff_mem.1 hpeer]
  simp only [State.mitRow1, hstep]

/-- The effect of MIT_COURIER (R297). -/
theorem State.mitRow1_of_planes_courier_pkSubject_lt_myPlane_ne {pkt : Packet} {s : State} {e : CtxE} (hLaneFirst : s.laneFirst (pkCtx pkt
    % 4) pkt = true) (hPkPayUnits : pkPayUnits pkt = 1) (hServiceCause : serviceCause pkt = none) (hCtxFor : s.ctxFor pkt = some e)
    (hPlanes : e.planes = true) (hCourier0 : dstRank (pkSrc pkt) = e.courier0) (hPkSubject : pkSubject pkt < 18) (hMyPlane : pkSubject pkt
    ≠ s.myPlane) (hRoundGet : s.roundGet (pkCtx pkt) (pkSeq pkt) = none) :
    let u := s.takeSvc (pkCtx pkt % 4) 46 pkt
    let x := u.mitInputAt (pkCtx pkt) (pkPart pkt) (pkSeq pkt) e [2, pkSubject pkt] (pkMval pkt) (mitCourierLate (pkCtx pkt) (pkPart pkt) e)
    s.mitRow1 pkt State.mitCourier =
      (if (x.roundGet (pkCtx pkt) (pkSeq pkt)).isSome then x.sramHook (pkCtx pkt % 4) 4 (pkPart pkt) (pkCtx pkt) (pkSeq pkt) else x) := by
  intro u x
  have hctx : u.ctxFor pkt = some e := hCtxFor
  have hplane : pkSubject pkt ≠ u.myPlane := hMyPlane
  have hround : u.roundGet (pkCtx pkt) (pkSeq pkt) = none := hRoundGet
  have hstep : s.mitCourier pkt = x := by
    rw [State.mitCourier, State.atCombiner_of_first _ hLaneFirst hPkPayUnits hServiceCause]
    simp only [u, x] at *
    simp [hctx, hPlanes, hCourier0, Nat.not_le.2 hPkSubject, hplane, hround]
  simp only [State.mitRow1, hstep]

/-- The effect of MIT_ROUND_ABORT (R292). -/
theorem State.mitRoundAbort_eq {c : Nat} {seq : BitVec 32} {s : State} {p : Nat} {e : CtxE} {r : Round} (hImg : s.img.ctx c = some (p, e))
    (hRoundGet : s.roundGet c seq.toNat = some r) (hSt : r.st = 1) :
    s.mitRoundAbort c seq.toNat =
      ((s.roundPut c { r with due := true }).wr V.ROUND_DUE [] 1) := by
  simp [State.mitRoundAbort, hImg, hRoundGet, hSt]

/-- The effect of MIT_PEER_RESEND (R296). -/
theorem State.mitPeerResend_of_rack_some_row_none {c : Nat} {seq : BitVec 32} {s : State} {p : Nat} {e : CtxE} {r : Round} {m : MVal} (hImg
    : s.img.ctx c = some (p, e)) (hRoundGet : s.roundGet c seq.toNat = some r) (hSt : r.st = 1) (hSilent : r.silent = false) (hRack :
    r.rack = some m) (hRow : r.row = none) :
    let l := (s.rowPeers e).filter fun x => (SMap.find [3, x] r.inputs).isNone
    s.mitPeerResend c seq.toNat =
      ((l.foldl (fun t x => t.mitRowTo c p seq.toNat 1 x m) s).roundPut c { r with resendIv := s.nextIv r.resendIv }) := by
  intro l
  simp [State.mitPeerResend, hImg, hRoundGet, hSt, hSilent, hRack, hRow, l]

theorem State.mitPeerResend_of_row_some {c : Nat} {seq : BitVec 32} {s : State} {p : Nat} {e : CtxE} {r : Round} {m : MVal} (hImg :
    s.img.ctx c = some (p, e)) (hRoundGet : s.roundGet c seq.toNat = some r) (hSt : r.st = 1) (hSilent : r.silent = false) (hRow : r.row =
    some m) :
    let l := (s.colPeers e).filter fun y => (SMap.find [4, y] r.inputs).isNone
    s.mitPeerResend c seq.toNat =
      ((l.foldl (fun t y => t.mitColTo c p seq.toNat 1 y m) s).roundPut c { r with resendIv := s.nextIv r.resendIv }) := by
  intro l
  simp [State.mitPeerResend, hImg, hRoundGet, hSt, hSilent, hRow, l]

/-- The effect of MIT_CARRY_RESEND (R297). -/
theorem State.mitCarryResend_eq {c : Nat} {seq : BitVec 32} {s : State} {p : Nat} {e : CtxE} {r : Round} {m : MVal} (hImg : s.img.ctx c =
    some (p, e)) (hRoundGet : s.roundGet c seq.toNat = some r) (hFind : SMap.find [5, 0] r.inputs = some m) (hSt : r.st = 1) (hPlanes :
    ((e.planes && (List.range 18).any fun n => n != s.myPlane && (SMap.find [2, n] r.inputs).isNone) = true)) (hSilent : r.silent = false)
    :
    s.mitCarryResend c seq.toNat =
      ((s.mitCarry c p e seq.toNat 1 m).roundPut c { r with carryIv := s.nextIv r.carryIv }) := by
  simp [State.mitCarryResend, hImg, hRoundGet, hFind, hSt, hPlanes, hSilent]

/-- The effect of NOTICE_EN_WRITE (R308). -/
theorem State.noticeEnWrite_of_value_ne {value : Nat} {s : State} (hValue : value ≠ 0) :
    s.noticeEnWrite value =
      ((List.range 160).foldl (fun (t : State) i =>
          if t.linkUp (i / 40) (i % 40) && !t.rdb F.COR_PORT_OPEN [i / 40, i % 40] && !t.rdb F.COR_PORT_FLUSHING [i / 40, i % 40]
          then t.portOpen (i / 40) (i % 40) else t) (s.wr F.MIT_CTL_NOTICE_EN [] value)) := by
  simp [State.noticeEnWrite, hValue]

theorem State.noticeEnWrite_of_allClosed {s : State} (hAllClosed : s.allClosed = true) :
    s.noticeEnWrite 0 =
      (s.wr F.MIT_CTL_NOTICE_EN [] 0) := by
  simp [State.noticeEnWrite, hAllClosed]

theorem State.noticeEnWrite_of_not_allClosed {s : State} (hAllClosed : s.allClosed = false) :
    s.noticeEnWrite 0 =
      s := by
  simp [State.noticeEnWrite, hAllClosed]

/-- The effect of NOTICE_REPEAT (R302). -/
theorem State.noticeRepeat_eq {s : State} {c : NoticeCopy} {r : List NoticeCopy} (hNotices : s.notices = c :: r) :
    s.noticeRepeat =
      (({ s with notices := r } : State).mitOut c.quad c.port (s.noticeAgain c)) := by
  simp only [State.noticeRepeat, hNotices]

/-- Settles O13: every clause is the run of its command, whose operation answers the state that the clause writes out. -/
theorem mittenCommandsComplete : Obligations.MittenCommandsComplete := by
  refine ⟨?_, ?_, ?_, ?_, ?_, ?_, ?_, ?_, ?_, ?_, ?_, ?_, ?_⟩
  · intro pkt s e r hwf hup hLaneFirst hPkPayUnits hServiceCause hCtxFor hImg hNi hImg2 _ _
    exact (exec_mitMember ..).trans (State.run_goes hwf hup (State.mitRow1_of_img_some_ni_img hLaneFirst hPkPayUnits hServiceCause hCtxFor hImg hNi
        hImg2))
  · intro pkt s e hwf hup hLaneFirst hPkPayUnits hServiceCause hCtxFor hPod hPkSrcType hMyY hRowPeers _ _
    exact (exec_mitRow ..).trans (State.run_goes hwf hup (State.mitRow1_of_pod_pkSrcType_1_myY_rowPeers hLaneFirst hPkPayUnits hServiceCause hCtxFor
        hPod hPkSrcType hMyY hRowPeers))
  · intro pkt s e hwf hup hLaneFirst hPkPayUnits hServiceCause hCtxFor hPod hPkSrcType hMyX hColPeers _ _
    exact (exec_mitColumn ..).trans (State.run_goes hwf hup (State.mitRow1_of_pod_pkSrcType_1_myX_colPeers hLaneFirst hPkPayUnits hServiceCause
        hCtxFor hPod hPkSrcType hMyX hColPeers))
  · intro pkt s e hwf hup hLaneFirst hPkPayUnits hServiceCause hCtxFor hPlanes hCourier0 hPkSubject hMyPlane hRoundGet _ _
    exact (exec_mitCourier ..).trans (State.run_goes hwf hup (State.mitRow1_of_planes_courier_pkSubject_lt_myPlane_ne hLaneFirst hPkPayUnits
        hServiceCause hCtxFor hPlanes hCourier0 hPkSubject hMyPlane hRoundGet))
  · intro c seq s p e r hwf hup hImg hRoundGet hSt
    exact (exec_mitRoundAbort ..).trans (State.run_goes hwf hup (State.mitRoundAbort_eq hImg hRoundGet hSt))
  · intro c seq s p e r m hwf hup hImg hRoundGet hSt hSilent hRack hRow _
    exact (exec_mitPeerResend ..).trans (State.run_goes hwf hup (State.mitPeerResend_of_rack_some_row_none hImg hRoundGet hSt hSilent hRack hRow))
  · intro c seq s p e r m hwf hup hImg hRoundGet hSt hSilent hRow _
    exact (exec_mitPeerResend ..).trans (State.run_goes hwf hup (State.mitPeerResend_of_row_some hImg hRoundGet hSt hSilent hRow))
  · intro c seq s p e r m hwf hup hImg hRoundGet hFind hSt hPlanes hSilent
    exact (exec_mitCarryResend ..).trans (State.run_goes hwf hup (State.mitCarryResend_eq hImg hRoundGet hFind hSt hPlanes hSilent))
  · intro c role s hwf hup
    exact (exec_mitRoleSet ..).trans (State.run_goes hwf hup rfl)
  · intro value s hwf hup hValue
    exact (exec_noticeEnWrite ..).trans (State.run_goes hwf hup (State.noticeEnWrite_of_value_ne hValue))
  · intro s hwf hup hAllClosed
    exact (exec_noticeEnWrite ..).trans (State.run_goes hwf hup (State.noticeEnWrite_of_allClosed hAllClosed))
  · intro s hwf hup hAllClosed
    exact (exec_noticeEnWrite ..).trans (State.run_goes hwf hup (State.noticeEnWrite_of_not_allClosed hAllClosed))
  · intro s c r hup hNotices
    exact (exec_noticeRepeat ..).trans (State.run_goes rfl hup (State.noticeRepeat_eq hNotices))

end Sys2Proof.Machine
end

section
/-! SUPPORT. Completion of the commands of HBM and parking: what each operation answers in the cases that its statement names. -/

namespace Sys2Proof.Machine

set_option Elab.async false

/-- The owner of a device address depends on the images and the remapped extents alone. -/
theorem State.devOwner_wr {s : State} {f : Fld} {ix : List Nat} {n : Nat} (h : f.id ≠ F.HBM_EXTENT_REMAPPED.id) (q l dev : Nat) :
    (s.wr f ix n).devOwner q l dev = s.devOwner q l dev := by
  have hext : (s.wr f ix n).extentOf q = s.extentOf q := by
    funext e
    simp only [extentOf, rdb, rd_wr_ne h.symm, img_wr] <;> rfl
  simp only [devOwner, hext]

/-- A request that leaves the service finds the same place. -/
theorem State.parkTarget_takeSvc (s : State) (q port : Nat) (k k' : Packet) : (s.takeSvc q port k).parkTarget k' = s.parkTarget k' := rfl

/-- The effect of PATROL_SCRUB (R377). -/
theorem State.patrolScrub_eq {q stack : Nat} {s : State} (hHbmScrubEn : s.rdb F.HBM_SCRUB_EN [q] = true) (hHbmStackState : s.rd
    F.HBM_STACK_STATE [q, stack] = 2) (hScrubStop : s.rdb V.SCRUB_STOP [q] = false) :
    let line := s.rd V.SCRUB_LINE [q, stack]
    let v := s.wr V.HBM_REQ [] (1 + 4 * 7 + q)
    let u := v.countBeat 18 (v.devOwner q stack (128 * line)) (6 * q + stack) 2
    s.patrolScrub q stack =
      ((((List.range 4).foldl (fun t i => t.scrubSector (6 * q + stack) (4 * line + i)) u).wr V.HBM_REQ [] (s.rd V.HBM_REQ [])).scrubNext q stack) := by
  intro line v u
  simp only [State.patrolScrub, hHbmScrubEn, hHbmStackState, hScrubStop, Bool.not_true, ne_eq, not_true_eq_false, decide_false, Bool.or_self,
    Bool.false_eq_true, if_false, State.asReq, u, v, line, State.devOwner_wr (f := V.HBM_REQ) (by decide)]

/-- The effect of HBM_RETIRE (R378). -/
theorem State.hbmRetire_of_first_channel {q stack channel : Nat} {whole : Bool} {s : State} (hHbmStackState : s.rd
    F.HBM_STACK_STATE [q, stack] ≠ 3) (hWhole : whole = false) (hHbmStackChRetired : s.rd F.HBM_STACK_CH_RETIRED [q, stack] = 0) :
    let u := ((s.wr F.HBM_STACK_CH_RETIRED [q, stack] (setBit 0 channel)).wr F.HBM_STACK_MAP_MIB [q, stack] 21457).wr V.RET_CH [6 * q + stack] (setBit 0 channel)
    s.hbmRetire q stack channel whole =
      ((((u.losePages (6 * q + stack)).wr V.ZERO_LOST [6 * q + stack] 1).err { det := 0x09, sev := 2, quad := q, unit := stack, cause := channel }).loseStack q stack) := by
  simp [State.hbmRetire, hHbmStackState, hWhole, hHbmStackChRetired, bitOf]

theorem State.hbmRetire_of_whole {q stack channel : Nat} {whole : Bool} {s : State} (hHbmStackState : s.rd F.HBM_STACK_STATE [q, stack] ≠
    3) (hWhole : whole = true) :
    let u := ((s.wr F.HBM_STACK_STATE [q, stack] 3).wr F.HBM_STACK_MAP_MIB [q, stack] 0).wr V.RET_STACK [6 * q + stack] 1
    s.hbmRetire q stack channel whole =
      ((((u.losePages (6 * q + stack)).wr V.ZERO_LOST [6 * q + stack] 1).err { det := 0x09, sev := 2, quad := q, unit := stack, cause := 16 }).loseStack q stack) := by
  intro u
  simp [State.hbmRetire, hHbmStackState, hWhole, u]

/-- The effect of HBM_RETIRE_CMD (R378). -/
theorem State.hbmRetireCmd_eq {q : Nat} {value : BitVec 64} {s : State} (hBitOf : bitOf value.toNat 8 = true) (hBitsOf : bitsOf value.toNat
    0 3 < 6) :
    s.hbmRetireCmd q value.toNat =
      (s.hbmRetire q (bitsOf value.toNat 0 3) (bitsOf value.toNat 3 4) (bitOf value.toNat 7)) := by
  simp [State.hbmRetireCmd, hBitOf, hBitsOf]

/-- The effect of SPARE_REMAP_END (R381). -/
theorem State.spareRemapEnd_eq {q ext : Nat} {s : State} (hHbmExtentRemapping : s.rdb F.HBM_EXTENT_REMAPPING [q, ext] = true) :
    let u := s.zeroExtent (s.img.extent q (s.img.extent q ext).spareIdx)
    s.spareRemapEnd q ext =
      (((u.wr F.HBM_EXTENT_REMAPPING [q, ext] 0).wr F.HBM_EXTENT_REMAPPED [q, ext] 1).wr F.HBM_EXTENT_LOST [q, ext] 0) := by
  intro u
  simp [State.spareRemapEnd, hHbmExtentRemapping, u]

/-- The effect of HBM_LOCK_TIMEOUT (R392). -/
theorem State.hbmLockTimeout_eq {q stack pc req : Nat} {s : State} (hReq : (req = 6 ∨ req = 5)) (hInjDet : s.injDet 0x0C q = false) :
    let u := ((((s.wr F.ARB_HBM_LOG_STACK [q] stack).wr F.ARB_HBM_LOG_PC [q] pc).wr F.ARB_HBM_LOG_REQ [q] req).raise F.ARB_HBM_LOG_VALID [q]).bump F.ARB_HBM_LOG_FIRES [q] 1
    let x := u.countLocal q (94 + stack) 26 0 1
    s.hbmLockTimeout q stack pc req =
      (x.err { det := 0x0C, sev := 2, quad := q, unit := req, cause := 1, inj := false, info := stack + 8 * pc + 2 ^ 8 * req + 2 ^ 11 + 2 ^ 32 * x.rd F.ARB_HBM_LOG_FIRES [q] }) := by
  rcases hReq with rfl | rfl <;> simp [State.hbmLockTimeout, hInjDet]

/-- The effect of HBM_INJECT (R394). -/
theorem State.hbmInject_of_not_bitOf {q : Nat} {value : BitVec 64} {s : State} (hBitOf : bitOf value.toNat 38 = false) :
    let u := s.hbmInjFields q value.toNat
    s.hbmInject q value.toNat =
      (u) := by
  intro u
  simp [State.hbmInject, hBitOf, u]

theorem State.hbmInject_of_bitOf_bitsOf_lt_hbmInjFields {q : Nat} {value : BitVec 64} {s : State} (hBitOf : bitOf value.toNat 38 = true)
    (hBitsOf : bitsOf value.toNat 0 3 < 6) (hHbmInjFields : (s.hbmInjFields q value.toNat).injAllowed false ((s.hbmInjFields q
    value.toNat).injTargetPart q value.toNat) false = true) :
    let u := s.hbmInjFields q value.toNat
    s.hbmInject q value.toNat =
      (u.injArm 3 0x09 q (u.injTargetPart q value.toNat) 0) := by
  intro u
  simp [State.hbmInject, hBitOf, hBitsOf, hHbmInjFields, u]

/-! An arrival at the parking service (R384): admitted, out of bounds, or refused for want of room. -/

theorem State.parkIn_of_parkRoom {q : Nat} {pkt : Packet} {s : State} {h : Held} {ps : List (Loc × Nat)} (hServiceCause : serviceCause
    pkt = none) (hGet : ((SMap.get s.svc [q, 45] []).find? (fun x => x.pkt == pkt)) = some h) (hParkTarget : s.parkTarget pkt = some ps)
    (hPrkQueueFaulted : s.rdb F.PRK_QUEUE_FAULTED [q] = false) (hParkRoom : s.parkRoom q (pkPart pkt) = true) :
    let t := (s.takeSvc q 45 pkt).setParked q (parkInsert ⟨pkt, ps, s.rd V.CYCLE [q], h.inPort⟩ (s.parked q))
    s.parkIn q pkt = t.wr F.PRK_QUEUE_PEAK [q] (max (s.rd F.PRK_QUEUE_PEAK [q]) (t.parked q).length) := by
  have hfault : (s.takeSvc q 45 pkt).rdb F.PRK_QUEUE_FAULTED [q] = false := hPrkQueueFaulted
  have hroom : (s.takeSvc q 45 pkt).parkRoom q (pkPart pkt) = true := hParkRoom
  simp [State.parkIn, State.atService, hServiceCause, State.parkTarget_takeSvc, hParkTarget, hfault, hroom, hGet] <;> rfl

theorem State.parkIn_of_parkTarget_none {q : Nat} {pkt : Packet} {s : State} (hServiceCause : serviceCause pkt = none) (hParkTarget :
    s.parkTarget pkt = none) :
    s.parkIn q pkt = ((s.takeSvc q 45 pkt).prkStat q (pkPart pkt) 3 1).nack q pkt 5 := by
  simp [State.parkIn, State.atService, hServiceCause, State.parkTarget_takeSvc, hParkTarget]

theorem State.parkIn_of_not_parkRoom {q : Nat} {pkt : Packet} {s : State} {ps : List (Loc × Nat)} (hServiceCause : serviceCause pkt =
    none) (hParkTarget : s.parkTarget pkt = some ps) (hPrkQueueFaulted : s.rdb F.PRK_QUEUE_FAULTED [q] = false) (hParkRoom : s.parkRoom q
    (pkPart pkt) = false) :
    s.parkIn q pkt = ((s.takeSvc q 45 pkt).prkStat q (pkPart pkt) 2 1).nack q pkt 7 := by
  have hfault : (s.takeSvc q 45 pkt).rdb F.PRK_QUEUE_FAULTED [q] = false := hPrkQueueFaulted
  have hroom : (s.takeSvc q 45 pkt).parkRoom q (pkPart pkt) = false := hParkRoom
  simp [State.parkIn, State.atService, hServiceCause, State.parkTarget_takeSvc, hParkTarget, hfault, hroom]

/-- PARK_WRITE is an arrival at the parking service. -/
theorem State.parkWrite_eq_parkIn {q : Nat} {pkt : Packet} {s : State} (h : pkOpcode pkt = 0x12) : s.parkWrite q pkt = s.parkIn q pkt :=
  if_pos h

/-- PARK_READ is an arrival at the parking service. -/
theorem State.parkRead_eq_parkIn {q : Nat} {pkt : Packet} {s : State} (h : pkOpcode pkt = 0x13) : s.parkRead q pkt = s.parkIn q pkt :=
  if_pos h

/-- The effect of PARK_APPLY (R386). -/
theorem State.parkApply_eq {q p : Nat} {s : State} {k : Parked} (hParked : ((s.parked q).find? (fun k => pkPart k.pkt == p) = some k))
    (hPrkQueueFaulted : s.rdb F.PRK_QUEUE_FAULTED [q] = false) (hUnitGo : s.unitGo q 8 p parkCycles = true) :
    let t := (s.unitStart q 8 p parkCycles).wr V.HBM_REQ [] (1 + 4 * 4 + q)
    s.parkApply q p =
      (((t.setParked q ((t.parked q).erase k)).parkDo q k).wr V.HBM_REQ [] ((s.unitStart q 8 p parkCycles).rd V.HBM_REQ [])) := by
  simp [State.parkApply, State.unit, State.asReq, hParked, hPrkQueueFaulted, hUnitGo]

/-- The effect of PARK_SERVICE_FAULT (R387). -/
theorem State.parkServiceFault_eq {q : Nat} {s : State} (hParked : (s.parked q).isEmpty = false) (hPrkQueueFaulted : s.rdb
    F.PRK_QUEUE_FAULTED [q] = false) :
    let u := ((s.setParked q []).wr F.PRK_QUEUE_FAULTED [q] 1).err { det := 0x0D, sev := 2, quad := q, unit := 3 }
    s.parkServiceFault q =
      ((s.parked q).foldl (fun t k => (t.prkStat q (pkPart k.pkt) 3 1).nack q k.pkt 5) u) := by
  intro u
  simp [State.parkServiceFault, hParked, hPrkQueueFaulted, u]

/-- Settles O14: every clause is the run of its command, whose operation answers the state that the clause writes out. -/
theorem hbmCommandsComplete : Obligations.HbmCommandsComplete := by
  refine ⟨?_, ?_, ?_, ?_, ?_, ?_, ?_, ?_, ?_, ?_, ?_, ?_, ?_, ?_, ?_, ?_⟩
  · intro q stack s hwf hup hHbmScrubEn hHbmStackState hScrubStop _ _ _
    exact (exec_patrolScrub ..).trans (State.run_goes hwf hup (State.patrolScrub_eq hHbmScrubEn hHbmStackState hScrubStop))
  · intro q stack channel whole s hwf hup hHbmStackState hWhole hHbmStackChRetired _
    exact (exec_hbmRetire ..).trans (State.run_goes hwf hup (State.hbmRetire_of_first_channel hHbmStackState hWhole
        hHbmStackChRetired))
  · intro q stack channel whole s hwf hup hHbmStackState hWhole _
    exact (exec_hbmRetire ..).trans (State.run_goes hwf hup (State.hbmRetire_of_whole hHbmStackState hWhole))
  · intro q value s hwf hup hBitOf hBitsOf
    exact (exec_hbmRetireCmd ..).trans (State.run_goes hwf hup (State.hbmRetireCmd_eq hBitOf hBitsOf))
  · intro q ext s hwf hup hHbmExtentRemapping _
    exact (exec_spareRemapEnd ..).trans (State.run_goes hwf hup (State.spareRemapEnd_eq hHbmExtentRemapping))
  · intro q stack pc req s hwf hup hReq hInjDet _ _
    exact (exec_hbmLockTimeout ..).trans (State.run_goes hwf hup (State.hbmLockTimeout_eq hReq hInjDet))
  · intro q value s hwf hup hBitOf _
    exact (exec_hbmInject ..).trans (State.run_goes hwf hup (State.hbmInject_of_not_bitOf hBitOf))
  · intro q value s hwf hup hBitOf hBitsOf hHbmInjFields _
    exact (exec_hbmInject ..).trans (State.run_goes hwf hup (State.hbmInject_of_bitOf_bitsOf_lt_hbmInjFields hBitOf hBitsOf hHbmInjFields))
  · intro q pkt s h ps hwf hup hPkOpcode hServiceCause hGet hParkTarget hPrkQueueFaulted hParkRoom _ _
    exact (exec_parkWrite ..).trans (State.run_goes hwf hup ((State.parkWrite_eq_parkIn hPkOpcode).trans
        (State.parkIn_of_parkRoom hServiceCause hGet hParkTarget hPrkQueueFaulted hParkRoom)))
  · intro q pkt s hwf hup hPkOpcode hServiceCause hParkTarget
    exact (exec_parkWrite ..).trans (State.run_goes hwf hup ((State.parkWrite_eq_parkIn hPkOpcode).trans
        (State.parkIn_of_parkTarget_none hServiceCause hParkTarget)))
  · intro q pkt s ps hwf hup hPkOpcode hServiceCause hParkTarget hPrkQueueFaulted hParkRoom
    exact (exec_parkWrite ..).trans (State.run_goes hwf hup ((State.parkWrite_eq_parkIn hPkOpcode).trans
        (State.parkIn_of_not_parkRoom hServiceCause hParkTarget hPrkQueueFaulted hParkRoom)))
  · intro q pkt s h ps hwf hup hPkOpcode hServiceCause hGet hParkTarget hPrkQueueFaulted hParkRoom _ _
    exact (exec_parkRead ..).trans (State.run_goes hwf hup ((State.parkRead_eq_parkIn hPkOpcode).trans
        (State.parkIn_of_parkRoom hServiceCause hGet hParkTarget hPrkQueueFaulted hParkRoom)))
  · intro q pkt s hwf hup hPkOpcode hServiceCause hParkTarget
    exact (exec_parkRead ..).trans (State.run_goes hwf hup ((State.parkRead_eq_parkIn hPkOpcode).trans
        (State.parkIn_of_parkTarget_none hServiceCause hParkTarget)))
  · intro q pkt s ps hwf hup hPkOpcode hServiceCause hParkTarget hPrkQueueFaulted hParkRoom
    exact (exec_parkRead ..).trans (State.run_goes hwf hup ((State.parkRead_eq_parkIn hPkOpcode).trans
        (State.parkIn_of_not_parkRoom hServiceCause hParkTarget hPrkQueueFaulted hParkRoom)))
  · intro q p s k hwf hup hParked hPrkQueueFaulted hUnitGo _
    exact (exec_parkApply ..).trans (State.run_goes hwf hup (State.parkApply_eq hParked hPrkQueueFaulted hUnitGo))
  · intro q s hwf hup hParked hPrkQueueFaulted _
    exact (exec_parkServiceFault ..).trans (State.run_goes hwf hup (State.parkServiceFault_eq hParked hPrkQueueFaulted))

end Sys2Proof.Machine
end

section
/-! SUPPORT. Completion of the commands of the Mover: what each operation answers in the cases that its statement names. -/

namespace Sys2Proof.Machine

set_option Elab.async false

theorem toNat_ne_zero_of_ne_zero {n : Nat} {x : BitVec n} (h : x ≠ 0) : x.toNat ≠ 0 := fun e =>
  h (BitVec.eq_of_toNat_eq (by simpa using e))

/-- The effect of MOVER_START (R409). -/
theorem State.movStart_eq {q p : Nat} {entry : BitVec 512} {s : State} (hRingCmd : s.ringCmd q p 3 1 entry.toNat = true) (hBitsOf : bitsOf
    entry.toNat 64 2 ≠ 0) (hMovStatFaulted : s.rdb F.MOV_STAT_FAULTED [q] = false) (hMovStatStopped : s.rdb F.MOV_STAT_STOPPED [q] = false)
    (hMovSt : s.movSt q p (movChan entry.toNat) = 0) :
    let c := movChan entry.toNat
    let u := (((((s.cmdStart q p 3 entry.toNat).wr V.MOV_START_E [q, p, c] entry.toNat).wr V.MOV_TAG [q, p, c] (ceTag entry.toNat)).wr V.MOV_MISM [q, p, c] 0).wr V.MOV_FIRST [q, p, c] 0).wr V.MOV_FWORD [q, p, c] 0
    s.movStart q p entry.toNat =
      (((u.setMov q p c 1).eraseRegs fun f ix => f == V.MOV_WROTE.id && ix.take 3 == [q, p, c]).movFetch q p c
          (bitsOf entry.toNat 128 64)) := by
  intro c u
  simp [State.movStart, hRingCmd, hBitsOf, hMovStatFaulted, hMovStatStopped, hMovSt, c, u]

/-- The effect of MOVER_PAUSE (R413). -/
theorem State.movPauseCmd_of_ringCmd_bitsOf_ne_movChan_entry_ne {q p c : Nat} {entry : BitVec 512} {s : State} (hRingCmd : s.ringCmd q p 3
    2 entry.toNat = true) (hBitsOf : bitsOf entry.toNat 64 2 ≠ 0) (hMovChan : movChan entry.toNat = c) (hEntry : entry ≠ 0) :
    s.movPauseCmd q p c entry.toNat =
      (((s.movCmdTake q p c entry.toNat).movPause q p c).movSettle q p c) := by
  have h0 : entry.toNat ≠ 0 := toNat_ne_zero_of_ne_zero hEntry
  simp [State.movPauseCmd, State.movCommand, h0, hRingCmd, hBitsOf, hMovChan]

theorem State.movPauseCmd_of_entry_0 {q p c : Nat} {entry : BitVec 512} {s : State} (hEntry : entry = 0) :
    s.movPauseCmd q p c entry.toNat =
      ((s.movPause q p c).movSettle q p c) := by
  simp [State.movPauseCmd, State.movCommand, hEntry]

/-- The effect of MOVER_RESUME (R414). -/
theorem State.movResumeCmd_of_paired {q p c : Nat} {entry : BitVec 512} {s : State} (hRingCmd : s.ringCmd q p 3
    3 entry.toNat = true) (hBitsOf : bitsOf entry.toNat 64 2 ≠ 0) (hMovChan : movChan entry.toNat = c) (hEntry : entry ≠ 0) :
    s.movResumeCmd q p c entry.toNat =
      (((s.movCmdTake q p c entry.toNat).movResume q p c).movSettle q p c) := by
  have h0 : entry.toNat ≠ 0 := toNat_ne_zero_of_ne_zero hEntry
  simp [State.movResumeCmd, State.movCommand, h0, hRingCmd, hBitsOf, hMovChan]

theorem State.movResumeCmd_of_entry_0 {q p c : Nat} {entry : BitVec 512} {s : State} (hEntry : entry = 0) :
    s.movResumeCmd q p c entry.toNat =
      ((s.movResume q p c).movSettle q p c) := by
  simp [State.movResumeCmd, State.movCommand, hEntry]

/-- The effect of MOVER_ABORT (R412). -/
theorem State.movAbortCmd_of_ringCmd_bitsOf_ne_movChan_entry_ne {q p c : Nat} {entry : BitVec 512} {s : State} (hRingCmd : s.ringCmd q p 3
    4 entry.toNat = true) (hBitsOf : bitsOf entry.toNat 64 2 ≠ 0) (hMovChan : movChan entry.toNat = c) (hEntry : entry ≠ 0) :
    s.movAbortCmd q p c entry.toNat =
      (((s.movCmdTake q p c entry.toNat).movAbort q p c).movSettle q p c) := by
  have h0 : entry.toNat ≠ 0 := toNat_ne_zero_of_ne_zero hEntry
  simp [State.movAbortCmd, State.movCommand, h0, hRingCmd, hBitsOf, hMovChan]

theorem State.movAbortCmd_of_entry_0 {q p c : Nat} {entry : BitVec 512} {s : State} (hEntry : entry = 0) :
    s.movAbortCmd q p c entry.toNat =
      ((s.movAbort q p c).movSettle q p c) := by
  simp [State.movAbortCmd, State.movCommand, hEntry]

/-- The effect of MOVER_ERR_CLEAR (R412). -/
theorem State.movErrClear_eq {q p c : Nat} {s : State} (hMovSt : s.movSt q p c = 6) (hMovChCtlErr : s.raisedNow F.MOV_CH_CTL_ERR [q, p, c]
    = false) :
    s.movErrClear q p c =
      (((s.wr F.MOV_CH_CTL_ERR [q, p, c] 0).setMov q p c 0).movSettle q p c) := by
  simp [State.movErrClear, hMovSt, hMovChCtlErr]

/-- The effect of MOVE (R404). -/
theorem State.moveRow_eq {q p c : Nat} {host : List Byte} {s : State} {a : Nat} {b : Nat} (hMovAt : s.movAt q p c 1 = some (a, b)) (hBitsOf
    : (bitsOf a 8 2 == 1) = false) (hMovIssue : s.movIssue q p c = true) :
    let r := (s.movUnit q p c).moveIssue q p a b 16 16 (s.movIx q p c) (s.movOff q p c) host
    s.moveRow q p c host =
      ((r.1.setPos q p c r.2.1.1 r.2.1.2.1 r.2.1.2.2 r.2.2.1).movAfter q p c (s.movPc q p c + 64) r.2.2.2) := by
  have hhost : s.movReadsHost q p c 1 = false := by simp [State.movReadsHost, hMovAt, hBitsOf]
  simp [State.moveRow, State.movMove, hhost, hMovAt, hMovIssue]

/-- The effect of FILL (R405). -/
theorem State.movFill_eq {q p c : Nat} {s : State} {a : Nat} {b : Nat} {z : State} (hMovAt : s.movAt q p c 2 = some (a, b)) (hMovIssue :
    s.movIssue q p c = true) :
    let t := s.movUnit q p c
    let off := s.movOff q p c
    let n := bitsOf a 192 64
    let m := min 1024 (n - off)
    let d : Int := bitsOf a 64 64
    t.runStart p (bitsOf a 8 2) d off m n = true →
    bitsOf a 8 2 ≠ 1 →
    t.runWrite q p (bitsOf a 8 2) (d + off) ((List.range (m / 8)).flatMap fun _ => leBytes 8 (bitsOf a 128 64)) = some z →
    s.movFill q p c =
      ((z.setPos q p c 0 0 0 (off + m)).movAfter q p c (s.movPc q p c + 32) (if off + m < n then .more else .done)) := by
  intro t off n m d hRunStart hBitsOf hRunWrite
  simp [State.movFill, hMovAt, hMovIssue, hRunStart, hBitsOf, hRunWrite, t, off, n, m, d]

/-- The effect of COMPARE (R405). -/
theorem State.compareRow_of_bitsOf_ne_bitOf_runStart_range {q p c : Nat} {host : List Byte} {s : State} {a : Nat} {b : Nat} {x y : List
    Byte} (hMovAt : s.movAt q p c 3 = some (a, b)) (hMovIssue : s.movIssue q p c = true) (hBitsOf : bitsOf a 8 2 ≠ 1) (hBitOf : bitOf a 12
    = true) :
    let t := s.movUnit q p c
    let off := s.movOff q p c
    let n := bitsOf a 192 64
    let m := min 1024 (n - off)
    let d : Int := bitsOf a 64 64
    t.runStart p (bitsOf a 8 2) d off m n = true →
    t.runRead q p (bitsOf a 8 2) (d + off) m host = .ok x →
    (y = (List.range (m / 8)).flatMap fun _ => leBytes 8 (bitsOf a 128 64)) →
    let u := (t.runNote q p (bitsOf a 8 2) (d + off) m).movDiff q p c off (diffWords m x y)
    s.compareRow q p c host =
      ((u.setPos q p c 0 0 0 (off + m)).movAfter q p c (s.movPc q p c + 32) (if off + m < n then .more else .done)) := by
  intro t off n m d hstart hread hconst u
  have hhost : s.movReadsHost q p c 3 = false := by simp [State.movReadsHost, hMovAt, hBitsOf, hBitOf]
  have hstep : s.compareRow q p c host = s.movCompare q p c host := by simp only [State.compareRow, hhost, Bool.false_eq_true, if_false]
  rw [hstep]
  simp only [t, off, n, m, d, u] at hstart hread hconst ⊢
  simp [State.movCompare, hMovAt, hMovIssue, hBitOf, hstart, hread, hconst]

theorem State.compareRow_of_read {q p c : Nat} {host : List Byte} {s : State} {a : Nat} {b : Nat} {x y :
    List Byte} (hMovAt : s.movAt q p c 3 = some (a, b)) (hMovIssue : s.movIssue q p c = true) (hBitsOf : (bitsOf a 8 2 ≠ 1 ∧ bitsOf a 10 2
    ≠ 1)) (hBitOf : bitOf a 12 = false) :
    let t := s.movUnit q p c
    let off := s.movOff q p c
    let n := bitsOf a 192 64
    let m := min 512 (n - off)
    let d : Int := bitsOf a 64 64
    let e : Int := bitsOf a 128 64
    (t.runStart p (bitsOf a 8 2) d off m n = true ∧ t.runStart p (bitsOf a 10 2) e off m n = true) →
    t.runRead q p (bitsOf a 8 2) (d + off) m host = .ok x →
    t.runRead q p (bitsOf a 10 2) (e + off) m host = .ok y →
    let u := ((t.runNote q p (bitsOf a 8 2) (d + off) m).runNote q p (bitsOf a 10 2) (e + off) m).movDiff q p c off (diffWords m x y)
    s.compareRow q p c host =
      ((u.setPos q p c 0 0 0 (off + m)).movAfter q p c (s.movPc q p c + 32) (if off + m < n then .more else .done)) := by
  intro t off n m d e hstart hx hy u
  have hhost : s.movReadsHost q p c 3 = false := by simp [State.movReadsHost, hMovAt, hBitsOf]
  have hstep : s.compareRow q p c host = s.movCompare q p c host := by simp only [State.compareRow, hhost, Bool.false_eq_true, if_false]
  rw [hstep]
  simp only [t, off, n, m, d, e, u] at hstart hx hy ⊢
  simp [State.movCompare, hMovAt, hMovIssue, hBitOf, hBitsOf, hstart, hx, hy]

/-- The effect of WAIT (R406). -/
theorem State.movWait_of_waitMet {q p c : Nat} {s : State} {a : Nat} {b : Nat} (hMovAt : s.movAt q p c 4 = some (a, b)) (hWaitMet :
    s.waitMet q p a = true) :
    s.movWait q p c =
      (s.movNext q p c (s.movPc q p c + 32)) := by
  simp [State.movWait, hMovAt, hWaitMet]

theorem State.movWait_of_not_waitMet {q p c : Nat} {s : State} {a : Nat} {b : Nat} (hMovAt : s.movAt q p c 4 = some (a, b)) (hWaitMet :
    s.waitMet q p a = false) :
    s.movWait q p c =
      (s.setMov q p c 2) := by
  simp [State.movWait, hMovAt, hWaitMet]

/-- The effect of WAIT_MET (R406). -/
theorem State.movWaitMet_eq {q p c : Nat} {s : State} (hMovSt : s.movSt q p c = 2) (hMovStatStopped : s.rdb F.MOV_STAT_STOPPED [q] = false)
    (hMovInstr : (s.movInstr q p c).2.2 = 0) (hMovInstr2 : bitsOf (s.movInstr q p c).1 0 8 = 4) (hWaitMet : s.waitMet q p (s.movInstr q p
    c).1 = true) :
    s.movWaitMet q p c =
      ((s.setMov q p c 1).movNext q p c (s.movPc q p c + 32)) := by
  simp [State.movWaitMet, hMovSt, hMovStatStopped, hMovInstr, hMovInstr2, hWaitMet]

/-- The effect of SIGNAL (R407). -/
theorem State.movSignal_of_bitsOf_0 {q p c : Nat} {s : State} {a : Nat} {b : Nat} (hMovAt : s.movAt q p c 5 = some (a, b)) (hBitsOf :
    bitsOf a 8 2 = 0) :
    s.movSignal q p c =
      ((s.evtAdd q p (bitsOf a 16 8) (bitsOf a 32 32)).movNext q p c (s.movPc q p c + 32)) := by
  simp only [State.movSignal, hMovAt, hBitsOf]

theorem State.movSignal_of_bitsOf_1 {q p c : Nat} {s : State} {a : Nat} {b : Nat} (hMovAt : s.movAt q p c 5 = some (a, b)) (hBitsOf :
    bitsOf a 8 2 = 1) :
    s.movSignal q p c =
      ((s.vector p (s.rd F.MOV_CQ_CTL_VECTOR [q, p, c])).movNext q p c (s.movPc q p c + 32)) := by
  simp only [State.movSignal, hMovAt, hBitsOf]

theorem State.movSignal_of_trigger {q p c : Nat} {s : State} {a : Nat} {b : Nat} (hMovAt : s.movAt q p c 5 = some (a, b)) (hBitsOf :
    bitsOf a 8 2 = 2) :
    s.movSignal q p c =
      ((s.trigAdd p (bitsOf a 16 8) (bitsOf a 32 32)).movNext q p c (s.movPc q p c + 32)) := by
  simp only [State.movSignal, hMovAt, hBitsOf]

/-- The effect of LINK (R408). -/
theorem State.movLink_eq {q p c : Nat} {s : State} {a : Nat} {b : Nat} (hMovAt : s.movAt q p c 6 = some (a, b)) :
    s.movLink q p c =
      (s.movNext q p c (bitsOf a 64 64)) := by
  simp only [State.movLink, hMovAt]

/-- The effect of END (R408). -/
theorem State.movEnd_eq {q p c : Nat} {s : State} {a : Nat} {b : Nat} (hMovAt : s.movAt q p c 7 = some (a, b)) :
    s.movEnd q p c =
      (s.movEnding q p c 0 (s.movPc q p c) false) := by
  simp only [State.movEnd, hMovAt]

/-- The effect of PAUSE_DRAIN_END (R412). -/
theorem State.movDrainEnd_of_movDrop {q p c : Nat} {s : State} (hMovSt : s.movSt q p c = 3) (hMovStatStopped : s.rdb F.MOV_STAT_STOPPED [q]
    = false) (hMovDrop : s.rdb V.MOV_DROP [q, p, c] = true) :
    s.movDrainEnd q p c =
      (s.movEnding q p c 0x10 (s.movPc q p c) false) := by
  simp [State.movDrainEnd, hMovSt, hMovStatStopped, hMovDrop]

theorem State.movDrainEnd_of_not_movDrop_not_movChStatBusy {q p c : Nat} {s : State} (hMovSt : s.movSt q p c = 3) (hMovStatStopped : s.rdb
    F.MOV_STAT_STOPPED [q] = false) (hMovDrop : s.rdb V.MOV_DROP [q, p, c] = false) (hMovChStatBusy : ((s.setMov q p c 4).movSettle q p
    c).rdb F.MOV_CH_STAT_BUSY [q, p, c] = false) :
    s.movDrainEnd q p c =
      ((s.setMov q p c 4).movSettle q p c) := by
  simp [State.movDrainEnd, hMovSt, hMovStatStopped, hMovDrop, hMovChStatBusy]

/-- The effect of MOVER_RECORD_WRITE (R411). -/
theorem State.movRecordWrite_eq {q p c : Nat} {s : State} (hMovSt : s.movSt q p c = 5) (hMovCqPtrProd : (s.rd F.MOV_CQ_PTR_PROD [q, p, c] +
    2 ^ 32 - s.rd F.MOV_CQ_PTR_CONS [q, p, c]) % 2 ^ 32 < 2 ^ s.rd F.MOV_CQ_CTL_LOG2SIZE [q, p, c]) :
    s.movRecordWrite q p c =
      (((s.movRecordOut q p c).movVector q p c).movRecordEnd q p c) := by
  simp only [State.movRecordWrite, hMovSt, hMovCqPtrProd, decide_true, Bool.not_true, ne_eq, not_true_eq_false, decide_false, Bool.or_self,
    Bool.false_eq_true, if_false]

/-- The effect of MOVER_BUS_ERROR (R417). -/
theorem State.movBusErrorCmd_eq {q cause : Nat} {s : State} (hMovStatStopped : (s.rdb F.MOV_STAT_STOPPED [q] = false ∧ s.rdb
    F.MOV_STAT_FAULTED [q] = false)) :
    let u := (((s.wr F.MOV_STAT_STOPPED [q] 1).wr V.PAGER_STOP [q] 1).wr F.MOV_STAT_CAUSE [q] cause).bump F.MOV_STAT_BUSERRS [q] 1
    let v := (u.wr V.MOV_BE2 [q] (u.rd V.MOV_BE1 [q])).wr V.MOV_BE1 [q] (s.timeNs + 1)
    let w := v.wr V.ZERO_BUSERR [q] (v.rd V.ZERO_BUSERR [q] + b2n (v.rd V.KNT_WAIT [] == 5))
    let x := (List.range 32).foldl (fun t p => [0, 1, 2].foldl (fun t c => t.movBusWins q p c) t) w
    s.movBusErrorCmd q cause =
      (if s.rd V.MOV_BE2 [q] ≠ 0 ∧ s.timeNs + 1 - s.rd V.MOV_BE2 [q] ≤ 10 ^ 9 then
          (x.wr F.MOV_STAT_FAULTED [q] 1).err { det := 0x0B, sev := 2, quad := q, cause := 0x23, info := 1 + 2 + 4 * cause } else x) := by
  simp [State.movBusErrorCmd, State.movBusError, hMovStatStopped.1, hMovStatStopped.2]

/-- The effect of MOVER_RESTART (R418). -/
theorem State.movRestart_of_not_injDet_movRestart_0 {q : Nat} {s : State} (hMovStatStopped : s.rdb F.MOV_STAT_STOPPED [q] = true)
    (hMovStatFaulted : s.rdb F.MOV_STAT_FAULTED [q] = false) (hInjDet : s.injDet 0x0B q = false) (hMovRestart : s.rd V.MOV_RESTART [q] = 0)
    :
    let u := (s.err { det := 0x0B, sev := 2, quad := q, cause := 0x23, inj := false, info := 1 + 4 * s.rd F.MOV_STAT_CAUSE [q] }).wr V.PAGER_STOP [q] 0
    s.movRestart q =
      ((u.wr V.MOV_RESTART [q] (u.timeNs + 100001)).movRestartDue q) := by
  intro u
  simp [State.movRestart, hMovStatStopped, hMovStatFaulted, hInjDet, hMovRestart, u]

theorem State.movRestart_of_movRestart_ne_pagerPending_0 {q : Nat} {s : State} (hMovStatStopped : s.rdb F.MOV_STAT_STOPPED [q] = true)
    (hMovStatFaulted : s.rdb F.MOV_STAT_FAULTED [q] = false) (hMovRestart : s.rd V.MOV_RESTART [q] ≠ 0) (hPagerPending : s.pagerPending q =
    0) :
    let u := (List.range 32).foldl (fun t p => [0, 1, 2].foldl (fun t c => t.movRestartCh q p c) t) s
    s.movRestart q =
      ((u.wr F.MOV_STAT_STOPPED [q] 0).wr V.MOV_RESTART [q] 0) := by
  intro u
  simp [State.movRestart, State.movRestartDue, State.movRestartAll, hMovStatStopped, hMovStatFaulted, hMovRestart, hPagerPending, u]

/-- Settles O15: every clause is the run of its command, whose operation answers the state that the clause writes out. -/
theorem moverCommandsComplete : Obligations.MoverCommandsComplete := by
  refine ⟨?_, ?_, ?_, ?_, ?_, ?_, ?_, ?_, ?_, ?_, ?_, ?_, ?_, ?_, ?_, ?_, ?_, ?_, ?_, ?_, ?_, ?_, ?_, ?_, ?_, ?_, ?_, ?_⟩
  · intro q p entry s hwf hup hRingCmd hBitsOf hMovStatFaulted hMovStatStopped hMovSt _ _
    exact (exec_moverStart ..).trans (State.run_goes hwf hup (State.movStart_eq hRingCmd hBitsOf hMovStatFaulted hMovStatStopped hMovSt))
  · intro q p c entry s hwf hup hRingCmd hBitsOf hMovChan hEntry
    exact (exec_moverPause ..).trans (State.run_goes hwf hup (State.movPauseCmd_of_ringCmd_bitsOf_ne_movChan_entry_ne hRingCmd hBitsOf hMovChan
        hEntry))
  · intro q p c entry s hwf hup hEntry
    exact (exec_moverPause ..).trans (State.run_goes hwf hup (State.movPauseCmd_of_entry_0 hEntry))
  · intro q p c entry s hwf hup hRingCmd hBitsOf hMovChan hEntry
    exact (exec_moverResume ..).trans (State.run_goes hwf hup (State.movResumeCmd_of_paired hRingCmd hBitsOf hMovChan
        hEntry))
  · intro q p c entry s hwf hup hEntry
    exact (exec_moverResume ..).trans (State.run_goes hwf hup (State.movResumeCmd_of_entry_0 hEntry))
  · intro q p c entry s hwf hup hRingCmd hBitsOf hMovChan hEntry
    exact (exec_moverAbort ..).trans (State.run_goes hwf hup (State.movAbortCmd_of_ringCmd_bitsOf_ne_movChan_entry_ne hRingCmd hBitsOf hMovChan
        hEntry))
  · intro q p c entry s hwf hup hEntry
    exact (exec_moverAbort ..).trans (State.run_goes hwf hup (State.movAbortCmd_of_entry_0 hEntry))
  · intro q p c s hwf hup hMovSt hMovChCtlErr
    exact (exec_moverErrClear ..).trans (State.run_goes hwf hup (State.movErrClear_eq hMovSt hMovChCtlErr))
  · intro q p c host s a b hwf hup hMovAt hBitsOf hMovIssue _
    exact (exec_move ..).trans (State.run_goes hwf hup (State.moveRow_eq hMovAt hBitsOf hMovIssue))
  · intro q p c s a b z hwf hup hMovAt hMovIssue _ _ _ _ _ hRunStart hBitsOf hRunWrite
    exact (exec_fill ..).trans (State.run_goes hwf hup (State.movFill_eq hMovAt hMovIssue hRunStart hBitsOf hRunWrite))
  · intro q p c host s a b x y hwf hup hMovAt hMovIssue hBitsOf hBitOf _ _ _ _ _ hRunStart hRunRead hRange _
    exact (exec_compare ..).trans (State.run_goes hwf hup (State.compareRow_of_bitsOf_ne_bitOf_runStart_range hMovAt hMovIssue hBitsOf hBitOf
        hRunStart hRunRead hRange))
  · intro q p c host s a b x y hwf hup hMovAt hMovIssue hBitsOf hBitOf _ _ _ _ _ _ hRunStart hRunRead hRunRead2 _
    exact (exec_compare ..).trans (State.run_goes hwf hup (State.compareRow_of_read hMovAt hMovIssue hBitsOf hBitOf
        hRunStart hRunRead hRunRead2))
  · intro q p c s a b hwf hup hMovAt hWaitMet
    exact (exec_wait ..).trans (State.run_goes hwf hup (State.movWait_of_waitMet hMovAt hWaitMet))
  · intro q p c s a b hwf hup hMovAt hWaitMet
    exact (exec_wait ..).trans (State.run_goes hwf hup (State.movWait_of_not_waitMet hMovAt hWaitMet))
  · intro q p c s hwf hup hMovSt hMovStatStopped hMovInstr hMovInstr2 hWaitMet
    exact (exec_waitMet ..).trans (State.run_goes hwf hup (State.movWaitMet_eq hMovSt hMovStatStopped hMovInstr hMovInstr2 hWaitMet))
  · intro q p c s a b hwf hup hMovAt hBitsOf
    exact (exec_signal ..).trans (State.run_goes hwf hup (State.movSignal_of_bitsOf_0 hMovAt hBitsOf))
  · intro q p c s a b hwf hup hMovAt hBitsOf
    exact (exec_signal ..).trans (State.run_goes hwf hup (State.movSignal_of_bitsOf_1 hMovAt hBitsOf))
  · intro q p c s a b hwf hup hMovAt hBitsOf
    exact (exec_signal ..).trans (State.run_goes hwf hup (State.movSignal_of_trigger hMovAt hBitsOf))
  · intro q p c s a b hwf hup hMovAt
    exact (exec_link ..).trans (State.run_goes hwf hup (State.movLink_eq hMovAt))
  · intro q p c s a b hwf hup hMovAt
    exact (exec_end ..).trans (State.run_goes hwf hup (State.movEnd_eq hMovAt))
  · intro q p c s hwf hup hMovSt hMovStatStopped hMovDrop
    exact (exec_pauseDrainEnd ..).trans (State.run_goes hwf hup (State.movDrainEnd_of_movDrop hMovSt hMovStatStopped hMovDrop))
  · intro q p c s hwf hup hMovSt hMovStatStopped hMovDrop hMovChStatBusy
    exact (exec_pauseDrainEnd ..).trans (State.run_goes hwf hup (State.movDrainEnd_of_not_movDrop_not_movChStatBusy hMovSt hMovStatStopped hMovDrop
        hMovChStatBusy))
  · intro q p c s hwf hup hMovSt hMovCqPtrProd
    exact (exec_moverRecordWrite ..).trans (State.run_goes hwf hup (State.movRecordWrite_eq hMovSt hMovCqPtrProd))
  · intro q cause s hwf hup hMovStatStopped _ _ _ _
    exact (exec_moverBusError ..).trans (State.run_goes hwf hup (State.movBusErrorCmd_eq hMovStatStopped))
  · intro q s hwf hup
    exact (exec_moverBeatTimeout ..).trans (State.run_goes hwf hup rfl)
  · intro q s hwf hup hMovStatStopped hMovStatFaulted hInjDet hMovRestart _
    exact (exec_moverRestart ..).trans (State.run_goes hwf hup (State.movRestart_of_not_injDet_movRestart_0 hMovStatStopped hMovStatFaulted hInjDet
        hMovRestart))
  · intro q s hwf hup hMovStatStopped hMovStatFaulted hMovRestart hPagerPending _
    exact (exec_moverRestart ..).trans (State.run_goes hwf hup (State.movRestart_of_movRestart_ne_pagerPending_0 hMovStatStopped hMovStatFaulted
        hMovRestart hPagerPending))
  · intro q p n value s hwf hup
    exact (exec_eventCounterWrite ..).trans (State.run_goes hwf hup rfl)

end Sys2Proof.Machine
end

section
/-! SUPPORT. Completion of the commands of tray control: what each operation answers in the cases that its statement names. -/

namespace Sys2Proof.Machine

set_option Elab.async false

/-- The effect of ADC_WINDOW (R423). -/
theorem State.adcWindow_eq {codes temps rpms : List Nat} {s : State} (hYofRuns : s.yofRuns = true) :
    s.adcWindow codes temps rpms =
      (s.adcTake codes temps rpms) := by
  simp [State.adcWindow, hYofRuns]

/-- The effect of TACH_LOST (R426). -/
theorem State.tachLost_of_n_lt {n : Nat} {s : State} (hTachDriven : s.tachDriven n = true) (hTryTachLost : s.rdb F.TRY_TACH_LOST [n] =
    false) (hYofRuns : s.yofRuns = true) (hN : n < 2) :
    s.tachLost n =
      ((s.wr F.TRY_TACH_LOST [n] 1).wr F.TRY_TACH_RPM [n] 0) := by
  simp [State.tachLost, hTachDriven, hTryTachLost, hYofRuns, hN]

theorem State.tachLost_of_n_le {n : Nat} {s : State} (hTachDriven : s.tachDriven n = true) (hTryTachLost : s.rdb F.TRY_TACH_LOST [n] =
    false) (hYofRuns : s.yofRuns = true) (hN : 2 ≤ n) :
    s.tachLost n =
      (((s.wr F.TRY_TACH_LOST [n] 1).wr F.TRY_TACH_RPM [n] 0).err { det := 0x11, sev := 0, unit := 16 + n }) := by
  have hlt : ¬n < 2 := by omega
  simp only [State.tachLost, hTachDriven, hTryTachLost, hYofRuns, Bool.not_true, Bool.or_self, Bool.false_eq_true, if_false, hlt]

/-- The effect of TRAY_STEP (R427). -/
theorem State.trayStep_eq {applied : List Nat} {peerLive : Bool} {s : State} (hYofRuns : s.yofRuns = true) :
    s.trayStep applied peerLive =
      (s.trayControl applied peerLive) := by
  simp [State.trayStep, hYofRuns]

/-- The effect of CAP_STEP (R429). -/
theorem State.capStep_eq {s : State} (hYofRuns : s.yofRuns = true) :
    s.capStep =
      (((s.freshen.wr F.TRY_CAP_THR [] (s.capThr s.effCap.2)).wr F.TRY_CAP_SOURCE [] s.effCap.1).showEx F.TRY_CAP_CAP_W [] s.effCap.2) := by
  simp [State.capStep, hYofRuns]

/-- The effect of PWR_ALERT_RELEASE (R431). -/
theorem State.alertRelease_eq {s : State} (hTryAlertAsserted : s.rdb F.TRY_ALERT_ASSERTED [] = true) :
    s.alertRelease =
      ((s.wr F.TRY_ALERT_ASSERTED [] 0).accNotice) := by
  simp [State.alertRelease, hTryAlertAsserted]

/-- The effect of ACC_GO (R305). -/
theorem State.accGo_eq {value : BitVec 64} {s : State} (hBitOf : bitOf value.toNat 37 = true) (hTryAlertAccLevel : (s.wr
    F.TRY_ALERT_ACC_LEVEL [] (bitsOf value.toNat 29 8)).rdb F.TRY_ALERT_ASSERTED [] = false) :
    s.accGo value.toNat =
      ((s.wr F.TRY_ALERT_ACC_LEVEL [] (bitsOf value.toNat 29 8)).accNotice) := by
  simp [State.accGo, hBitOf, hTryAlertAccLevel]

/-- The effect of YOFEN_KICK (R422). -/
theorem State.yofenKick_eq {s : State} (hYofRuns : s.yofRuns = true) (hInjKind : ((s.rd V.INJ_KIND [] = 1 ∧ s.rd V.INJ_DET [] = 0x12) =
    False)) :
    s.yofenKick =
      ((s.wr V.KICK_NS [] s.timeNs).wr V.KICK_INJ [] 0) := by
  simp [State.yofenKick, hYofRuns, hInjKind]

/-- The effect of YOFEN_WATCHDOG (R422). -/
theorem State.yofenWatchdog_eq {s : State} (hYofRuns : s.yofRuns = true) :
    s.yofenWatchdog =
      ((s.yofenReset 0x12 0 (s.rdb V.KICK_INJ [])).wr V.KICK_INJ [] 0) := by
  simp [State.yofenWatchdog, hYofRuns]

/-- The effect of TRAY_CLAIM (R434). -/
theorem State.trayClaim_eq {long : Bool} {s : State} (hTryOwnPeerLive : (s.wr F.TRY_OWN_PEER_LIVE [] 0).yofRuns = true) (hTryOwnPeerLive2 :
    (s.wr F.TRY_OWN_PEER_LIVE [] 0).rd F.TRY_OWN_ROLE [] < 2) (hTryOwnPeerLive3 : ((s.wr F.TRY_OWN_PEER_LIVE [] 0).rdb F.TRY_OWN_PLAUS_OK
    [] || long) = true) :
    s.trayClaim long =
      ((((s.wr F.TRY_OWN_PEER_LIVE [] 0).wr F.TRY_OWN_ROLE [] 2).wr F.TRY_OWN_CONTEST [] 0).seeOwner 1) := by
  simp [State.trayClaim, hTryOwnPeerLive, hTryOwnPeerLive2, hTryOwnPeerLive3]

/-- The effect of TRAY_OWN_CONFLICT (R434). -/
theorem State.ownConflict_eq {s : State} (hTryOwnPeerLive : (s.wr F.TRY_OWN_PEER_LIVE [] 1).rd F.TRY_OWN_ROLE [] = 2) (hTryOwnPeerLive2 :
    (s.wr F.TRY_OWN_PEER_LIVE [] 1).rd F.TRY_OWN_SLOT [] = 1) :
    let u := s.wr F.TRY_OWN_PEER_LIVE [] 1
    s.ownConflict =
      ((u.wr F.TRY_OWN_CONTEST [] 0).becomeStandby.seeOwner 2) := by
  intro u
  simp [State.ownConflict, hTryOwnPeerLive, hTryOwnPeerLive2, u]

/-- The effect of OWNER_PUBLISH (R435). -/
theorem State.ownerPublish_eq {heard : List Nat} {s : State} (hYofRuns : s.yofRuns = true) (hTryOwnRole : s.rd F.TRY_OWN_ROLE [] = 2) :
    s.ownerPublish heard =
      (s.emit (.trayBus [s.rd V.INTEG [0], s.rd V.INTEG [1], s.rd V.INTEG [2], s.rd F.TRY_CAP_CAP_W [], s.rd F.TRY_STAGE_PUMP [], s.rd V.TRAY_SEQ [], s.rd F.TRY_OWN_PLAUS_OK []])) := by
  simp [State.ownerPublish, hYofRuns, hTryOwnRole]

/-- The effect of CONTEST_START (R435). -/
theorem State.contestStart_eq {s : State} (hYofRuns : s.yofRuns = true) (hTryOwnContest : s.rdb F.TRY_OWN_CONTEST [] = false) (hTryOwnRole
    : s.rd F.TRY_OWN_ROLE [] = 2) :
    s.contestStart =
      (((s.wr F.TRY_OWN_CONTEST [] 1).bump F.TRY_OWN_CONTESTS [] 1).err { det := 0x10, sev := 2, inj := decide (s.timeNs < s.rd V.DUTY_INJ_END []) }) := by
  simp [State.contestStart, hYofRuns, hTryOwnContest, hTryOwnRole]

/-- The effect of CONTEST_RESOLVE (R436). -/
theorem State.contestResolve_eq {peerPass : Bool} {s : State} (hTryOwnContest : s.rdb F.TRY_OWN_CONTEST [] = true) (hYofRuns : s.yofRuns =
    true) (hTryOwnPlausOk : s.rdb F.TRY_OWN_PLAUS_OK [] = false) (hPeerPass : peerPass = true) :
    s.contestResolve peerPass =
      (((s.wr F.TRY_OWN_CONTEST [] 0).wr F.TRY_OWN_ROLE [] 3).wr F.TRY_OWN_QUALIFIED [] 0) := by
  simp [State.contestResolve, hTryOwnContest, hYofRuns, hTryOwnPlausOk, hPeerPass]

/-- The effect of DEGRADED_CLEAR (R436). -/
theorem State.degradedClear_eq {s : State} (hYofRuns : s.yofRuns = true) (hTryOwnRole : s.rd F.TRY_OWN_ROLE [] = 3) (hTryOwnPlausOk : s.rdb
    F.TRY_OWN_PLAUS_OK [] = true) :
    s.degradedClear =
      (s.becomeStandby) := by
  simp [State.degradedClear, hYofRuns, hTryOwnRole, hTryOwnPlausOk]

/-- The effect of STANDBY_QUALIFY (R437). -/
theorem State.standbyQualify_eq {s : State} (hYofRuns : s.yofRuns = true) (hTryOwnRole : s.rd F.TRY_OWN_ROLE [] = 1) (hIntegLoaded : s.rdb
    V.INTEG_LOADED [] = true) (hAnyDiffers : s.anyDiffers = false) :
    s.standbyQualify =
      (s.wr F.TRY_OWN_QUALIFIED [] 1) := by
  simp [State.standbyQualify, hYofRuns, hTryOwnRole, hIntegLoaded, hAnyDiffers]

/-- The effect of TRAY_YIELD (R446). -/
theorem State.trayYield_eq {s : State} (hTryOwnRole : s.rd F.TRY_OWN_ROLE [] = 2) :
    s.trayYield =
      (s.becomeStandby) := by
  simp [State.trayYield, hTryOwnRole]

/-- The effect of TELEMETRY_SEND (R439). -/
theorem State.telemetrySend_eq {s : State} (hYofRuns : s.yofRuns = true) :
    s.telemetrySend =
      (s.telemetryOut) := by
  simp [State.telemetrySend, hYofRuns]

/-- The effect of MANAGER_HEARTBEAT (R440). -/
theorem State.managerHeartbeat_of_m_0 {m : Nat} {s : State} (hM : m = 0) :
    s.managerHeartbeat m =
      ((s.wr F.TRY_STAGE_MGR_A [] 1).wr F.TRY_STAGE_HOLD [] 0) := by
  simp [State.managerHeartbeat, hM]

theorem State.managerHeartbeat_of_m_1 {m : Nat} {s : State} (hM : m = 1) :
    s.managerHeartbeat m =
      ((s.wr F.TRY_STAGE_MGR_B [] 1).wr F.TRY_STAGE_HOLD [] 0) := by
  simp [State.managerHeartbeat, hM]

/-- The effect of MANAGER_LOST (R440). -/
theorem State.managerLost_of_m_0_tryStageMgrA {m : Nat} {s : State} (hM : m = 0) (hTryStageMgrA : s.rdb F.TRY_STAGE_MGR_A [] = true) :
    s.managerLost m =
      ((s.wr F.TRY_STAGE_MGR_A [] 0).err { det := 0x12, sev := 0, unit := 0 }) := by
  simp [State.managerLost, hM, hTryStageMgrA]

theorem State.managerLost_of_m_1_tryStageMgrB {m : Nat} {s : State} (hM : m = 1) (hTryStageMgrB : s.rdb F.TRY_STAGE_MGR_B [] = true) :
    s.managerLost m =
      ((s.wr F.TRY_STAGE_MGR_B [] 0).err { det := 0x12, sev := 0, unit := 1 }) := by
  simp [State.managerLost, hM, hTryStageMgrB]

/-- The effect of AUTONOMOUS_HOLD (R440). -/
theorem State.autonomousHold_eq {s : State} (hTryStageMgrA : s.rdb F.TRY_STAGE_MGR_A [] = false) (hTryStageMgrB : s.rdb F.TRY_STAGE_MGR_B
    [] = false) :
    s.autonomousHold =
      (s.wr F.TRY_STAGE_HOLD [] 1) := by
  simp [State.autonomousHold, hTryStageMgrA, hTryStageMgrB]

/-- The effect of PUMP_STAGE_1 (R442). -/
theorem State.pumpStage1_eq {s : State} (hYofRuns : s.yofRuns = true) (hTryStagePump : s.rd F.TRY_STAGE_PUMP [] = 0) (hPumpLost :
    (s.pumpLost || s.flowLow) = true) :
    s.pumpStage1 =
      ((s.wr F.TRY_STAGE_EXPORT_DONE [] 0).pumpRecord 1) := by
  simp [State.pumpStage1, hYofRuns, hTryStagePump, hPumpLost]

/-- The effect of PUMP_STAGE_2 (R442). -/
theorem State.pumpStage2_eq {s : State} (hYofRuns : s.yofRuns = true) (hTryStagePump : s.rd F.TRY_STAGE_PUMP [] < 2) (hTryStagePump2 :
    (s.tjAtLeast (s.sense 424 1) || (s.rd F.TRY_STAGE_PUMP [] == 1 && s.flowLow)) = true) :
    s.pumpStage2 =
      (s.pumpExport) := by
  simp [State.pumpStage2, hYofRuns, hTryStagePump, hTryStagePump2]

/-- The effect of PUMP_STAGE_3 (R442). -/
theorem State.pumpStage3_eq {s : State} (hYofRuns : s.yofRuns = true) (hTryStagePump : s.rd F.TRY_STAGE_PUMP [] < 3) (hTjAtLeast :
    s.tjAtLeast (s.sense 425 1) = true) (hHatPstateBusy : (s.pumpRecord 3).rdb F.HAT_PSTATE_BUSY [] = false) (hPumpRecord : (s.pumpRecord
    3).clocked = true) :
    s.pumpStage3 =
      ((s.pumpRecord 3).stopBegin 2 2) := by
  simp [State.pumpStage3, hYofRuns, hTryStagePump, hTjAtLeast, hHatPstateBusy, hPumpRecord]

/-- The effect of PUMP_STAGE_CLEAR (R442). -/
theorem State.pumpStageClear_eq {s : State} (hYofRuns : s.yofRuns = true) (hPumpLost : s.pumpLost = false) (hFlowLow : s.flowLow = false) :
    s.pumpStageClear =
      (s.wr F.TRY_STAGE_PUMP [] 0) := by
  simp [State.pumpStageClear, hYofRuns, hPumpLost, hFlowLow]

/-- The effect of TRAY_INJECT (R446). -/
theorem State.trayInject_of_tryInjChannel_bitsOf_1 {value : BitVec 64} {s : State} (hBitOf : bitOf value.toNat 7 = true) (hTryInjChannel :
    ((s.wr F.TRY_INJ_CHANNEL [] (bitsOf value.toNat 0 4)).wr F.TRY_INJ_KIND [] (bitsOf value.toNat 4 3)).injAllowed false 0 false = true)
    (hBitsOf : bitsOf value.toNat 4 3 = 1) :
    let u := (s.wr F.TRY_INJ_CHANNEL [] (bitsOf value.toNat 0 4)).wr F.TRY_INJ_KIND [] (bitsOf value.toNat 4 3)
    s.trayInject value.toNat =
      (((u.wr V.ADC_INJ_CH [] (bitsOf value.toNat 0 4)).wr V.ADC_INJ_END [] (u.timeNs + 10 ^ 9)).injFired) := by
  simp only [hBitsOf] at hTryInjChannel ⊢
  simp [State.trayInject, hBitOf, hBitsOf, hTryInjChannel]

theorem State.trayInject_of_heartbeat {value : BitVec 64} {s : State} (hBitOf : bitOf value.toNat 7 = true) (hTryInjChannel :
    ((s.wr F.TRY_INJ_CHANNEL [] (bitsOf value.toNat 0 4)).wr F.TRY_INJ_KIND [] (bitsOf value.toNat 4 3)).injAllowed false 0 false = true)
    (hBitsOf : bitsOf value.toNat 4 3 = 2) :
    let u := (s.wr F.TRY_INJ_CHANNEL [] (bitsOf value.toNat 0 4)).wr F.TRY_INJ_KIND [] (bitsOf value.toNat 4 3)
    s.trayInject value.toNat =
      ((u.wr V.HB_STOP_END [] (u.timeNs + 2 * 10 ^ 6)).injFired) := by
  simp only [hBitsOf] at hTryInjChannel ⊢
  simp [State.trayInject, hBitOf, hBitsOf, hTryInjChannel]

theorem State.trayInject_of_duty {value : BitVec 64} {s : State} (hBitOf : bitOf value.toNat 7 = true) (hTryInjChannel :
    ((s.wr F.TRY_INJ_CHANNEL [] (bitsOf value.toNat 0 4)).wr F.TRY_INJ_KIND [] (bitsOf value.toNat 4 3)).injAllowed false 0 true = true)
    (hBitsOf : bitsOf value.toNat 4 3 = 3) :
    let u := (s.wr F.TRY_INJ_CHANNEL [] (bitsOf value.toNat 0 4)).wr F.TRY_INJ_KIND [] (bitsOf value.toNat 4 3)
    s.trayInject value.toNat =
      ((u.wr V.DUTY_INJ_END [] (u.timeNs + 3 * 10 ^ 9)).injFired) := by
  simp only [hBitsOf] at hTryInjChannel ⊢
  simp [State.trayInject, hBitOf, hBitsOf, hTryInjChannel]

/-- The effect of YOFEN_REBOOT (R422). -/
theorem State.yofenReboot_eq {s : State} (hHatYofResetting : s.rdb F.HAT_YOF_RESETTING [] = true) :
    s.yofenReboot =
      (s.yofenStart) := by
  simp [State.yofenReboot, hHatYofResetting]

/-- Settles O16: every clause is the run of its command, whose operation answers the state that the clause writes out. -/
theorem trayCommandsComplete : Obligations.TrayCommandsComplete := by
  refine ⟨?_, ?_, ?_, ?_, ?_, ?_, ?_, ?_, ?_, ?_, ?_, ?_, ?_, ?_, ?_, ?_, ?_, ?_, ?_, ?_, ?_, ?_, ?_, ?_, ?_, ?_, ?_, ?_, ?_, ?_, ?_, ?_, ?_⟩
  · intro codes temps rpms s hwf hup hYofRuns
    exact (exec_adcWindow ..).trans (State.run_goes hwf hup (State.adcWindow_eq hYofRuns))
  · intro n s hwf hup hTachDriven hTryTachLost hYofRuns hN
    exact (exec_tachLost ..).trans (State.run_goes hwf hup (State.tachLost_of_n_lt hTachDriven hTryTachLost hYofRuns hN))
  · intro n s hwf hup hTachDriven hTryTachLost hYofRuns hN
    exact (exec_tachLost ..).trans (State.run_goes hwf hup (State.tachLost_of_n_le hTachDriven hTryTachLost hYofRuns hN))
  · intro applied peerLive s hwf hup hYofRuns
    exact (exec_trayStep ..).trans (State.run_goes hwf hup (State.trayStep_eq hYofRuns))
  · intro s hup hYofRuns
    exact (exec_capStep ..).trans (State.run_goes rfl hup (State.capStep_eq hYofRuns))
  · intro s hup _ _
    exact (exec_pwrAlertAssert ..).trans (State.run_goes rfl hup rfl)
  · intro s hup hTryAlertAsserted
    exact (exec_pwrAlertRelease ..).trans (State.run_goes rfl hup (State.alertRelease_eq hTryAlertAsserted))
  · intro value s hwf hup hBitOf hTryAlertAccLevel
    exact (exec_accGo ..).trans (State.run_goes hwf hup (State.accGo_eq hBitOf hTryAlertAccLevel))
  · intro s hup hYofRuns hInjKind
    exact (exec_yofenKick ..).trans (State.run_goes rfl hup (State.yofenKick_eq hYofRuns hInjKind))
  · intro s hup hYofRuns
    exact (exec_yofenWatchdog ..).trans (State.run_goes rfl hup (State.yofenWatchdog_eq hYofRuns))
  · intro long s hwf hup hTryOwnPeerLive hTryOwnPeerLive2 hTryOwnPeerLive3
    exact (exec_trayClaim ..).trans (State.run_goes hwf hup (State.trayClaim_eq hTryOwnPeerLive hTryOwnPeerLive2 hTryOwnPeerLive3))
  · intro s hup hTryOwnPeerLive hTryOwnPeerLive2 _
    exact (exec_trayOwnConflict ..).trans (State.run_goes rfl hup (State.ownConflict_eq hTryOwnPeerLive hTryOwnPeerLive2))
  · intro heard s hwf hup hYofRuns hTryOwnRole
    exact (exec_ownerPublish ..).trans (State.run_goes hwf hup (State.ownerPublish_eq hYofRuns hTryOwnRole))
  · intro s hup hYofRuns hTryOwnContest hTryOwnRole
    exact (exec_contestStart ..).trans (State.run_goes rfl hup (State.contestStart_eq hYofRuns hTryOwnContest hTryOwnRole))
  · intro peerPass s hwf hup hTryOwnContest hYofRuns hTryOwnPlausOk hPeerPass
    exact (exec_contestResolve ..).trans (State.run_goes hwf hup (State.contestResolve_eq hTryOwnContest hYofRuns hTryOwnPlausOk hPeerPass))
  · intro s hup hYofRuns hTryOwnRole hTryOwnPlausOk
    exact (exec_degradedClear ..).trans (State.run_goes rfl hup (State.degradedClear_eq hYofRuns hTryOwnRole hTryOwnPlausOk))
  · intro s hup hYofRuns hTryOwnRole hIntegLoaded hAnyDiffers
    exact (exec_standbyQualify ..).trans (State.run_goes rfl hup (State.standbyQualify_eq hYofRuns hTryOwnRole hIntegLoaded hAnyDiffers))
  · intro s hup hTryOwnRole
    exact (exec_trayYield ..).trans (State.run_goes rfl hup (State.trayYield_eq hTryOwnRole))
  · intro s hup hYofRuns _
    exact (exec_telemetrySend ..).trans (State.run_goes rfl hup (State.telemetrySend_eq hYofRuns))
  · intro m s hwf hup hM
    exact (exec_managerHeartbeat ..).trans (State.run_goes hwf hup (State.managerHeartbeat_of_m_0 hM))
  · intro m s hwf hup hM
    exact (exec_managerHeartbeat ..).trans (State.run_goes hwf hup (State.managerHeartbeat_of_m_1 hM))
  · intro m s hwf hup hM hTryStageMgrA
    exact (exec_managerLost ..).trans (State.run_goes hwf hup (State.managerLost_of_m_0_tryStageMgrA hM hTryStageMgrA))
  · intro m s hwf hup hM hTryStageMgrB
    exact (exec_managerLost ..).trans (State.run_goes hwf hup (State.managerLost_of_m_1_tryStageMgrB hM hTryStageMgrB))
  · intro s hup hTryStageMgrA hTryStageMgrB
    exact (exec_autonomousHold ..).trans (State.run_goes rfl hup (State.autonomousHold_eq hTryStageMgrA hTryStageMgrB))
  · intro s hup hYofRuns hTryStagePump hPumpLost
    exact (exec_pumpStage1 ..).trans (State.run_goes rfl hup (State.pumpStage1_eq hYofRuns hTryStagePump hPumpLost))
  · intro s hup hYofRuns hTryStagePump hTryStagePump2
    exact (exec_pumpStage2 ..).trans (State.run_goes rfl hup (State.pumpStage2_eq hYofRuns hTryStagePump hTryStagePump2))
  · intro s hup hYofRuns hTryStagePump hTjAtLeast hHatPstateBusy hPumpRecord
    exact (exec_pumpStage3 ..).trans (State.run_goes rfl hup (State.pumpStage3_eq hYofRuns hTryStagePump hTjAtLeast hHatPstateBusy hPumpRecord))
  · intro s hup hYofRuns hPumpLost hFlowLow
    exact (exec_pumpStageClear ..).trans (State.run_goes rfl hup (State.pumpStageClear_eq hYofRuns hPumpLost hFlowLow))
  · intro s hup
    exact (exec_trayBusRecovery ..).trans (State.run_goes rfl hup rfl)
  · intro value s hwf hup hBitOf hTryInjChannel hBitsOf _
    exact (exec_trayInject ..).trans (State.run_goes hwf hup (State.trayInject_of_tryInjChannel_bitsOf_1 hBitOf hTryInjChannel hBitsOf))
  · intro value s hwf hup hBitOf hTryInjChannel hBitsOf _
    exact (exec_trayInject ..).trans (State.run_goes hwf hup (State.trayInject_of_heartbeat hBitOf hTryInjChannel hBitsOf))
  · intro value s hwf hup hBitOf hTryInjChannel hBitsOf _
    exact (exec_trayInject ..).trans (State.run_goes hwf hup (State.trayInject_of_duty hBitOf hTryInjChannel hBitsOf))
  · intro s hup hHatYofResetting
    exact (exec_yofenReboot ..).trans (State.run_goes rfl hup (State.yofenReboot_eq hHatYofResetting))

end Sys2Proof.Machine
end

section
/-! SUPPORT. Completion of the commands of the cartridges: what each operation answers in the cases that its statement names. -/

namespace Sys2Proof.Machine

set_option Elab.async false

/-- The effect of CART_INSERT (R449). -/
theorem State.cartInsert_eq {c : Nat} {s : State} (hTryCartPresent : (s.wr F.TRY_CART_PRESENT [c] 1).cartActs c = true) (hTryCartPresent2 :
    (s.wr F.TRY_CART_PRESENT [c] 1).cart c = 0) (hTryCartPresent3 : (s.wr F.TRY_CART_PRESENT [c] 1).rdb F.TRY_CART_CUFF [c] = false) :
    let u := s.wr F.TRY_CART_PRESENT [c] 1
    s.cartInsert c =
      (u.cartTrain c) := by
  intro u
  simp [State.cartInsert, hTryCartPresent, hTryCartPresent2, hTryCartPresent3, u]

/-- The effect of CART_PRESENCE_LOST (R457). -/
theorem State.cartLost_of_not_tryCartPresent {c : Nat} {s : State} (hTryCartPresent : ((s.wr F.TRY_CART_PRESENT [c] 0).wr V.CART_LATCH [c]
    0).ownCart c = false) :
    s.cartLost c =
      ((s.wr F.TRY_CART_PRESENT [c] 0).wr V.CART_LATCH [c] 0) := by
  simp [State.cartLost, hTryCartPresent]

theorem State.cartLost_of_inService {c : Nat} {s : State} (hTryCartPresent : ((s.wr F.TRY_CART_PRESENT [c] 0).wr
    V.CART_LATCH [c] 0).ownCart c = true) (hTryCartPresent2 : (((List.range 40).foldl (fun t k => t.linkDown (c % 4) k 2) ((s.wr
    F.TRY_CART_PRESENT [c] 0).wr V.CART_LATCH [c] 0)).rdb V.GASP [] = false)) (hCart : s.cart c = 2) :
    let u := (s.wr F.TRY_CART_PRESENT [c] 0).wr V.CART_LATCH [c] 0
    let x := (List.range 40).foldl (fun t k => t.linkDown (c % 4) k 2) u
    s.cartLost c =
      (((((x.setCart c 0).wr F.TRY_CART_LAST_REASON [c] 5).bump F.TRY_CART_UNDRAINED [c] 1).sendGram 3 (leBytes 8 (5 + 256 * c))).err { det := 0x18, sev := 1, quad := c % 4, unit := c, cause := 5 }) := by
  intro u x
  simp [State.cartLost, hTryCartPresent, hTryCartPresent2, hCart, u, x]

/-- The effect of CART_TOUCH (R449). -/
theorem State.cartTouch_of_rise_inService {c : Nat} {high : Bool} {s : State} (hTryCartTouch : (s.wr
    F.TRY_CART_TOUCH [c] 1).cartActs c = true) (hHigh : high = true) (hTryCartTouch2 : s.rdb F.TRY_CART_TOUCH [c] = false) (hTryCartTouch3
    : (s.wr F.TRY_CART_TOUCH [c] 1).cart c = 2) :
    s.cartTouch c high =
      ((s.wr F.TRY_CART_TOUCH [c] 1).cartWithdraw c 3 1) := by
  simp [State.cartTouch, b2n, hTryCartTouch, hHigh, hTryCartTouch2, hTryCartTouch3]

theorem State.cartTouch_of_not_high {c : Nat} {high : Bool} {s : State} (hHigh : high = false) :
    s.cartTouch c high =
      (s.wr F.TRY_CART_TOUCH [c] 0) := by
  simp [State.cartTouch, b2n, hHigh]

/-- The effect of PRE_DRAIN_CANCEL (R449). -/
theorem State.preDrainCancel_eq {c : Nat} {s : State} (hTryCartTouch : (s.wr F.TRY_CART_TOUCH [c] 0).cartActs c = true) (hTryCartTouch2 :
    (s.wr F.TRY_CART_TOUCH [c] 0).cart c = 3) (hTryCartTouch3 : (s.wr F.TRY_CART_TOUCH [c] 0).rdb F.TRY_CART_CUFF [c] = false) :
    let u := s.wr F.TRY_CART_TOUCH [c] 0
    s.preDrainCancel c =
      ((u.restore (cartDown c) 1).setCart c 2) := by
  intro u
  simp [State.preDrainCancel, hTryCartTouch, hTryCartTouch2, hTryCartTouch3, u]

/-- The effect of CART_BUTTON (R449). -/
theorem State.cartButton_of_down_inService {c : Nat} {down : Bool} {s : State} (hTryCartBtn : (s.wr
    F.TRY_CART_BTN [c] 1).cartActs c = true) (hDown : down = true) (hTryCartBtn2 : s.rdb F.TRY_CART_BTN [c] = false) (hTryCartBtn3 : (s.wr
    F.TRY_CART_BTN [c] 1).cartOtherBusy c = false) (hCart : s.cart c = 2) :
    let u := (s.wr F.TRY_CART_BTN [c] 1).wr V.CART_HELD [c] 1
    s.cartButton c down =
      (u.cartWithdraw c 4 3) := by
  simp [State.cartButton, b2n, hTryCartBtn, hDown, hTryCartBtn2, hTryCartBtn3, hCart]

theorem State.cartButton_of_up_not_held {c : Nat} {down : Bool} {s : State} (hTryCartBtn : (s.wr
    F.TRY_CART_BTN [c] 0).cartActs c = true) (hDown : down = false) (hTryCartBtn2 : s.rdb F.TRY_CART_BTN [c] = true) (hTryCartBtn3 : (s.wr
    F.TRY_CART_BTN [c] 0).rdb V.CART_HELD [c] = false) :
    let u := s.wr F.TRY_CART_BTN [c] 0
    s.cartButton c down =
      (u.cartEnable c 1) := by
  simp [State.cartButton, b2n, hTryCartBtn, hDown, hTryCartBtn2, hTryCartBtn3]

/-- The effect of CART_DRAIN (R449). -/
theorem State.cartDrain_eq {c : Nat} {s : State} (hCartActs : s.cartActs c = true) (hCartOtherBusy : s.cartOtherBusy c = false) (hCartLatch
    : ((s.wr V.CART_LATCH [c] 0).cart c = 2 ∨ (s.wr V.CART_LATCH [c] 0).cart c = 3)) :
    s.cartDrain c =
      ((s.wr V.CART_LATCH [c] 0).cartWithdraw c 4 6) := by
  simp [State.cartDrain, hCartActs, hCartOtherBusy, hCartLatch]

/-- The effect of CART_FORCE (R449). -/
theorem State.cartForce_eq {c : Nat} {s : State} (hCartActs : s.cartActs c = true) :
    s.cartForce c =
      ((s.wr V.CART_LATCH [c] 0).cartForceIn c 4) := by
  simp [State.cartForce, hCartActs]

/-- The effect of CART_REJOIN (R460). -/
theorem State.cartRejoin_eq {c : Nat} {s : State} (hCartActs : s.cartActs c = true) :
    s.cartRejoin c =
      (s.cartEnable c 2) := by
  simp [State.cartRejoin, hCartActs]

/-- The effect of CART_DRAIN_COMPLETE (R452). -/
theorem State.cartDrainComplete_eq {c : Nat} {s : State} (hCartActs : s.cartActs c = true) (hCart : s.cart c = 4) (hCartDrained :
    s.cartDrained c = true) :
    s.cartDrainComplete c =
      (s.cartStop c) := by
  simp [State.cartDrainComplete, hCartActs, hCart, hCartDrained]

/-- The effect of CART_DRAIN_TIMEOUT (R452). -/
theorem State.cartDrainTimeout_of_not_cartActs {c : Nat} {s : State} (hCart : s.cart c = 4) (hCartActs : (s.cartActs c && s.cartDrained c)
    = false) :
    s.cartDrainTimeout c =
      (s.cartForceIn c 4) := by
  simp [State.cartDrainTimeout, hCart, hCartActs]

theorem State.cartDrainTimeout_of_cartActs_cartDrained {c : Nat} {s : State} (hCart : s.cart c = 4) (hCartActs : s.cartActs c = true)
    (hCartDrained : s.cartDrained c = true) :
    s.cartDrainTimeout c =
      (s.cartStop c) := by
  simp [State.cartDrainTimeout, hCart, hCartActs, hCartDrained]

/-- The effect of CART_FORCE_STOP (R449). -/
theorem State.cartForceStop_eq {c : Nat} {s : State} (hCartActs : s.cartActs c = true) (hCart : s.cart c = 5) :
    s.cartForceStop c =
      (s.cartStop c) := by
  simp [State.cartForceStop, hCartActs, hCart]

/-- The effect of CART_SAFE (R449). -/
theorem State.cartSafe_eq {c : Nat} {s : State} (hCartActs : s.cartActs c = true) (hCart : s.cart c = 6) (hCorPortFlushing : (((List.range
    40).all fun k => s.lnkState (c % 4) k == 0 && !s.rdb F.COR_PORT_FLUSHING [c % 4, k]) = true)) (hCartLatch : s.rdb V.CART_LATCH [c] =
    false) :
    s.cartSafe c =
      ((s.setCart c 7).wr V.CART_LATCH [c] 0) := by
  simp [State.cartSafe, hCartActs, hCart, hCorPortFlushing, hCartLatch]

/-- The effect of CART_IN_SERVICE (R449). -/
theorem State.cartInService_eq {c : Nat} {s : State} (hCartActs : s.cartActs c = true) (hCart : s.cart c = 1) (hLnkPortStatDownCause :
    (((List.range 40).all fun k => !s.portPresent (c % 4) k || s.lnkState (c % 4) k == 4 || (s.lnkState (c % 4) k == 0 && s.rd
    F.LNK_PORT_STAT_DOWN_CAUSE [c % 4, k] == 4)) = true)) :
    s.cartInService c =
      (s.setCart c 2) := by
  simp [State.cartInService, hCartActs, hCart, hLnkPortStatDownCause]

/-- The effect of VIN_LOW (R458). -/
theorem State.vinLow_eq {s : State} (hGasp : s.rdb V.GASP [] = false) (hHatPstateState : s.rd F.HAT_PSTATE_STATE [] < 3) :
    let u := (s.wr V.GASP [] 1).wr F.TRY_CAP_THR [] ((s.wr V.GASP [] 1).sense 437 1)
    let x := u.notice 4 0 0 u.presentDown
    s.vinLow =
      ((if x.yofRuns then x.sendGram 4 x.gaspItems else x).hatRecord { det := 0x13, sev := 3 }) := by
  simp [State.vinLow, hGasp, hHatPstateState.not_ge, State.sense] <;> rfl

/-- The effect of CART_LATCH_CLOSE (R460). -/
theorem State.cartLatchClose_eq {c : Nat} {s : State} (hTryCartCuff : (s.wr F.TRY_CART_CUFF [c] 0).cartActs c = true) (hTryCartCuff2 :
    (s.wr F.TRY_CART_CUFF [c] 0).cart c = 0) (hTryCartCuff3 : (s.wr F.TRY_CART_CUFF [c] 0).rdb F.TRY_CART_PRESENT [c] = true) :
    let u := s.wr F.TRY_CART_CUFF [c] 0
    s.cartLatchClose c =
      (u.cartTrain c) := by
  intro u
  simp [State.cartLatchClose, hTryCartCuff, hTryCartCuff2, hTryCartCuff3, u]

/-- Settles O17: every clause is the run of its command, whose operation answers the state that the clause writes out. -/
theorem cartCommandsComplete : Obligations.CartCommandsComplete := by
  refine ⟨?_, ?_, ?_, ?_, ?_, ?_, ?_, ?_, ?_, ?_, ?_, ?_, ?_, ?_, ?_, ?_, ?_, ?_, ?_, ?_, ?_, ?_, ?_⟩
  · intro c s hwf hup hTryCartPresent hTryCartPresent2 hTryCartPresent3 _
    exact (exec_cartInsert ..).trans (State.run_goes hwf hup (State.cartInsert_eq hTryCartPresent hTryCartPresent2 hTryCartPresent3))
  · intro c s hwf hup hTryCartPresent
    exact (exec_cartPresenceLost ..).trans (State.run_goes hwf hup (State.cartLost_of_not_tryCartPresent hTryCartPresent))
  · intro c s hwf hup hTryCartPresent hTryCartPresent2 hCart _ _
    exact (exec_cartPresenceLost ..).trans (State.run_goes hwf hup (State.cartLost_of_inService hTryCartPresent
        hTryCartPresent2 hCart))
  · intro c high s hwf hup hTryCartTouch hHigh hTryCartTouch2 hTryCartTouch3
    exact (exec_cartTouch ..).trans (State.run_goes hwf hup (State.cartTouch_of_rise_inService hTryCartTouch hHigh
        hTryCartTouch2 hTryCartTouch3))
  · intro c high s hwf hup hHigh
    exact (exec_cartTouch ..).trans (State.run_goes hwf hup (State.cartTouch_of_not_high hHigh))
  · intro c s hwf hup
    exact (exec_cartCuffOpen ..).trans (State.run_goes hwf hup rfl)
  · intro c s hwf hup hTryCartTouch hTryCartTouch2 hTryCartTouch3 _
    exact (exec_preDrainCancel ..).trans (State.run_goes hwf hup (State.preDrainCancel_eq hTryCartTouch hTryCartTouch2 hTryCartTouch3))
  · intro c down s hwf hup hTryCartBtn hDown hTryCartBtn2 hTryCartBtn3 hCart _
    exact (exec_cartButton ..).trans (State.run_goes hwf hup (State.cartButton_of_down_inService hTryCartBtn hDown
        hTryCartBtn2 hTryCartBtn3 hCart))
  · intro c down s hwf hup hTryCartBtn hDown hTryCartBtn2 hTryCartBtn3 _
    exact (exec_cartButton ..).trans (State.run_goes hwf hup (State.cartButton_of_up_not_held hTryCartBtn hDown
        hTryCartBtn2 hTryCartBtn3))
  · intro c s hwf hup
    exact (exec_cartButtonHold ..).trans (State.run_goes hwf hup rfl)
  · intro s hup
    exact (exec_trayButton ..).trans (State.run_goes rfl hup rfl)
  · intro s hup
    exact (exec_trayButtonHold ..).trans (State.run_goes rfl hup rfl)
  · intro c s hwf hup hCartActs hCartOtherBusy hCartLatch
    exact (exec_cartDrain ..).trans (State.run_goes hwf hup (State.cartDrain_eq hCartActs hCartOtherBusy hCartLatch))
  · intro c s hwf hup hCartActs
    exact (exec_cartForce ..).trans (State.run_goes hwf hup (State.cartForce_eq hCartActs))
  · intro c s hwf hup hCartActs
    exact (exec_cartRejoin ..).trans (State.run_goes hwf hup (State.cartRejoin_eq hCartActs))
  · intro c s hwf hup hCartActs hCart hCartDrained
    exact (exec_cartDrainComplete ..).trans (State.run_goes hwf hup (State.cartDrainComplete_eq hCartActs hCart hCartDrained))
  · intro c s hwf hup hCart hCartActs
    exact (exec_cartDrainTimeout ..).trans (State.run_goes hwf hup (State.cartDrainTimeout_of_not_cartActs hCart hCartActs))
  · intro c s hwf hup hCart hCartActs hCartDrained
    exact (exec_cartDrainTimeout ..).trans (State.run_goes hwf hup (State.cartDrainTimeout_of_cartActs_cartDrained hCart hCartActs hCartDrained))
  · intro c s hwf hup hCartActs hCart
    exact (exec_cartForceStop ..).trans (State.run_goes hwf hup (State.cartForceStop_eq hCartActs hCart))
  · intro c s hwf hup hCartActs hCart hCorPortFlushing hCartLatch
    exact (exec_cartSafe ..).trans (State.run_goes hwf hup (State.cartSafe_eq hCartActs hCart hCorPortFlushing hCartLatch))
  · intro c s hwf hup hCartActs hCart hLnkPortStatDownCause
    exact (exec_cartInService ..).trans (State.run_goes hwf hup (State.cartInService_eq hCartActs hCart hLnkPortStatDownCause))
  · intro s hup hGasp hHatPstateState _ _
    exact (exec_vinLow ..).trans (State.run_goes rfl hup (State.vinLow_eq hGasp hHatPstateState))
  · intro c s hwf hup hTryCartCuff hTryCartCuff2 hTryCartCuff3 _
    exact (exec_cartLatchClose ..).trans (State.run_goes hwf hup (State.cartLatchClose_eq hTryCartCuff hTryCartCuff2 hTryCartCuff3))

end Sys2Proof.Machine
end

section
/-! SUPPORT. Completion of the commands of power, clocks and resets: what each operation answers in the cases that its statement names. -/

namespace Sys2Proof.Machine

set_option Elab.async false

/-- The effect of VIN_HOLDUP_END (R464). -/
theorem State.vinHoldupEnd_eq {s : State} (hGasp : s.rdb V.GASP [] = true) :
    s.vinHoldupEnd =
      (((s.freshen.enterP3 (Config.free s.free 0 % 8)).wr V.GASP [] 0).wr V.VIN_P3 [] 1) := by
  simp [State.vinHoldupEnd, hGasp]

/-- The effect of VIN_GOOD (R464). -/
theorem State.vinGood_eq {s : State} (hVinP3 : s.rdb V.VIN_P3 [] = true) (hPstate : s.pstate = 3) (hTherm : s.rdb V.THERM [] = false) :
    s.vinGood =
      (s.startUp 0 false) := by
  simp [State.vinGood, hVinP3, hPstate, hTherm]

/-- The effect of RAIL_TIMEOUT (R465). -/
theorem State.railTimeout_eq {s : State} (hBooting : s.rdb V.BOOTING [] = true) (hHatBootStep : s.rd F.HAT_BOOT_STEP [] = 4) :
    let u := (s.hatRecord { det := 0x13, sev := 2 }).enterP3 5
    s.railTimeout =
      ((u.wr F.HAT_BOOT_FAILED [] 1).wr F.HAT_BOOT_FAIL_STEP [] 4) := by
  intro u
  simp [State.railTimeout, hBooting, hHatBootStep, u]

/-- The effect of POWER_REQUEST (R467). -/
theorem State.powerRequest_of_off {target : Nat} {s : State} (hMreset : s.rdb V.MRESET [] = false)
    (hHatPstateBusy : s.rdb F.HAT_PSTATE_BUSY [] = false) (hPstate : s.pstate = 3) (hTarget : target < 2) (hTherm : s.rdb V.THERM [] =
    false) (hBooting : s.rdb V.BOOTING [] = false) :
    s.powerRequest target =
      (s.startUp (target + 1) false) := by
  have h3 : target ≠ 3 := by omega
  have h2 : target ≠ 2 := by omega
  simp [State.powerRequest, hMreset, hHatPstateBusy, hPstate, hTherm, hBooting, h3, h2]

theorem State.powerRequest_of_retention {target : Nat} {s : State} (hMreset : s.rdb V.MRESET [] = false)
    (hHatPstateBusy : s.rdb F.HAT_PSTATE_BUSY [] = false) (hPstate : s.pstate = 2) (hTarget : target < 2) (hTryStagePump : s.rd
    F.TRY_STAGE_PUMP [] ≠ 3) :
    s.powerRequest target =
      ((s.leaveP2 target).wr F.HAT_PSTATE_CAUSE [] 1) := by
  have h2 : 2 ≠ target := by omega
  simp [State.powerRequest, hMreset, hHatPstateBusy, hPstate, hTarget, hTryStagePump, h2]

theorem State.powerRequest_of_pstate_0_target_1_tryStagePump_ne {target : Nat} {s : State} (hMreset : s.rdb V.MRESET [] = false)
    (hHatPstateBusy : s.rdb F.HAT_PSTATE_BUSY [] = false) (hPstate : s.pstate = 0) (hTarget : target = 1) (hTryStagePump : s.rd
    F.TRY_STAGE_PUMP [] ≠ 3) :
    s.powerRequest target =
      ((s.wr F.HAT_PSTATE_STATE [] 1).wr F.HAT_PSTATE_CAUSE [] 1) := by
  simp [State.powerRequest, hMreset, hHatPstateBusy, hPstate, hTarget, hTryStagePump]

theorem State.powerRequest_of_pstate_or_target_or {target : Nat} {s : State} (hMreset : s.rdb V.MRESET [] = false) (hHatPstateBusy : s.rdb
    F.HAT_PSTATE_BUSY [] = false) (hPstate : (s.pstate = 0 ∨ s.pstate = 1)) (hTarget : (target = 2 ∨ target = 3)) :
    s.powerRequest target =
      (s.stopBegin target 1) := by
  have hst : s.pstate ≠ 3 := by omega
  have hne : s.pstate ≠ target := by omega
  have hlt : ¬target < 2 := by omega
  simp only [State.powerRequest, hMreset, hHatPstateBusy, Bool.false_eq_true, if_false, hst, hne, hlt]

/-- The effect of P2_QUIET_END (R468). -/
theorem State.p2QuietEnd_of_range {expired : Bool} {s : State} (hHatPstateBusy : s.rdb F.HAT_PSTATE_BUSY [] = true) (hClocked : s.clocked =
    true) (hRange : (((List.range 32).all fun p => p == 0 || !s.img.brimValid p || s.quietPoint p) = true)) :
    s.p2QuietEnd expired =
      (s.stopReached) := by
  simp [State.p2QuietEnd, hHatPstateBusy, hClocked, hRange]

theorem State.p2QuietEnd_of_range_expired {expired : Bool} {s : State} (hHatPstateBusy : s.rdb F.HAT_PSTATE_BUSY [] = true) (hClocked :
    s.clocked = true) (hRange : (((List.range 32).all fun p => p == 0 || !s.img.brimValid p || s.quietPoint p) = false)) (hExpired :
    expired = true) :
    s.p2QuietEnd expired =
      (((List.range 32).foldl (fun t p => t.stopAbort p) s).stopReached) := by
  simp [State.p2QuietEnd, hHatPstateBusy, hClocked, hRange, hExpired]

/-- The effect of YOFEN_IDLE_STOP (R469). -/
theorem State.yofenIdleStop_eq {s : State} (hPstate : s.pstate = 2) (hYofOn : s.rdb V.YOF_ON [] = true) :
    s.yofenIdleStop =
      (s.yofStop) := by
  simp [State.yofenIdleStop, hPstate, hYofOn]

/-- The effect of ENGINE_GATE (R472). -/
theorem State.gateRow_eq {q e : Nat} {s : State} (hPstate : s.pstate = 1) (hImg : s.img.le 0x0A 4 0 (8 + 2 * e) 2 ≠ 0) (hWarmHeld :
    s.warmHeld q e = false) (hEngineIdle : s.engineIdle q e = true) :
    s.gateRow q e =
      (s.wr F.HAT_GATE_GATED [q] (putBits (s.rd F.HAT_GATE_GATED [q]) e 1 1)) := by
  simp [State.gateRow, State.engineGate, hPstate, hImg, hWarmHeld, hEngineIdle]

/-- The effect of ENGINE_WAKE (R472). -/
theorem State.engineWake_eq {q e : Nat} {s : State} (hHatGateGated : bitOf (s.rd F.HAT_GATE_GATED [q]) e = true) (hClocked : s.clocked =
    true) :
    s.engineWake q e =
      ((s.wr F.HAT_GATE_GATED [q] (putBits (s.rd F.HAT_GATE_GATED [q]) e 1 0)).bump F.HAT_GATE_WAKES [q] 1) := by
  simp [State.engineWake, hHatGateGated, hClocked]

/-- The effect of REFCLK_LOST (R477). -/
theorem State.refclkLost_eq {s : State} (hHatClkRefOk : s.rdb F.HAT_CLK_REF_OK [] = true) :
    let u := (s.wr F.HAT_CLK_REF_OK [] 0).raise F.HAT_CLK_TIME_FREE []
    s.refclkLost =
      ((allPorts.foldl (fun t x => t.linkRetrain x.1 x.2 0 false) u).err { det := 0x15, sev := 2 }) := by
  intro u
  simp [State.refclkLost, hHatClkRefOk, u]

/-- The effect of REFCLK_RETURN (R477). -/
theorem State.refclkReturn_eq {s : State} (hHatClkRefOk : s.rdb F.HAT_CLK_REF_OK [] = false) :
    s.refclkReturn =
      (allPorts.foldl (fun t x => t.linkRetrain x.1 x.2 0 false) (s.wr F.HAT_CLK_REF_OK [] 1)) := by
  simp [State.refclkReturn, hHatClkRefOk]

/-- The effect of REFCLK_LOSS_TIMEOUT (R477). -/
theorem State.refclkTimeout_eq {s : State} (hHatClkRefOk : s.rdb F.HAT_CLK_REF_OK [] = false) (hPstate : s.pstate ≠ 3) (hHatPstateBusy :
    s.rdb F.HAT_PSTATE_BUSY [] = false) :
    s.refclkTimeout =
      (s.stopBegin 3 4) := by
  simp [State.refclkTimeout, hHatClkRefOk, hPstate, hHatPstateBusy]

/-- The effect of OSC_CALIBRATE (R475). -/
theorem State.oscCalibrate_eq {s : State} (hHatClkRefOk : s.rdb F.HAT_CLK_REF_OK [] = true) :
    s.oscCalibrate =
      (s.wr F.HAT_CLK_OSC_CAL [] 1) := by
  simp [State.oscCalibrate, hHatClkRefOk]

/-- The effect of THERMAL_TRIP (R471). -/
theorem State.thermalTrip_eq {s : State} (hPstate : s.pstate ≠ 3) :
    s.thermalTrip =
      ((((s.hatRecord { det := 0x14, sev := 3 }).bump F.HAT_CLK_TRIPS [] 1).wr V.THERM [] 1).enterP3 3) := by
  simp [State.thermalTrip, hPstate]

/-- The effect of MODULE_RESET (R478). -/
theorem State.moduleReset_of_not_cool {cool : Bool} {s : State} (hMreset : s.rdb V.MRESET [] = false) (hGasp : s.rdb V.GASP [] = false)
    (hCool : cool = false) :
    let u := (s.levelDrop 0).resetKeeping hatFields true
    s.moduleReset cool =
      (((((u.wr V.MRESET [] 1).wr F.HAT_RESET_LAST [] 2).wr F.HAT_PSTATE_STATE [] 3).wr F.HAT_BOOT_STEP [] 4).wr V.BOOTING [] 0) := by
  intro u
  simp [State.moduleReset, hMreset, hGasp, hCool, u]

theorem State.moduleReset_of_cool {cool : Bool} {s : State} (hMreset : s.rdb V.MRESET [] = false) (hGasp : s.rdb V.GASP [] = false) (hCool
    : cool = true) :
    let u := ((s.levelDrop 0).resetKeeping hatFields true).wr V.THERM [] 0
    s.moduleReset cool =
      (((((u.wr V.MRESET [] 1).wr F.HAT_RESET_LAST [] 2).wr F.HAT_PSTATE_STATE [] 3).wr F.HAT_BOOT_STEP [] 4).wr V.BOOTING [] 0) := by
  intro u
  simp [State.moduleReset, hMreset, hGasp, hCool, u]

/-- The effect of QUADRANT_RESET (R478). -/
theorem State.quadReset_eq {q : Nat} {s : State} (hQuadUp : s.quadUp q = true) :
    let u := (((s.wr V.QRESET [q] 1).wr F.HAT_RESET_LAST [] 3).abortIn q).failSteps q
    s.quadReset q =
      ((((List.range 40).foldl (fun t k => t.linkDown q k 0) u).emptyQuad q).clearAt q quadFields) := by
  intro u
  simp [State.quadReset, hQuadUp, u]

/-- The effect of PARTITION_RESET (R478). -/
theorem State.partReset_of_flr_p_ne {p : Nat} {flr : Bool} {s : State} (hFlr : flr = true) (hP : p ≠ 0) :
    s.partReset p flr =
      (((s.partitionReset p).fnReset p).wr F.GLB_SCRATCH_VALUE [p] 0) := by
  simp [State.partReset, hFlr, hP]

theorem State.partReset_of_not_flr {p : Nat} {flr : Bool} {s : State} (hFlr : flr = false) :
    s.partReset p flr =
      (s.partitionReset p) := by
  simp [State.partReset, hFlr]

/-- The effect of STARTUP_STEP_COMPLETE (R480). -/
theorem State.startupStep_of_step_four {ok : Bool} {failed : List Nat} {s : State} (hBooting : s.rdb V.BOOTING [] = true) (hMreset :
    s.rdb V.MRESET [] = false) (hHatBootStep : s.rd F.HAT_BOOT_STEP [] = 4) (hOk : ok = true) :
    let u := ((s.wr F.HAT_PSTATE_STATE [] 0).wr F.HAT_CLK_REF_OK [] 1).mitJoin
    s.startupStep ok failed =
      (u.wr F.HAT_BOOT_STEP [] (u.rd F.HAT_BOOT_STEP [] + 1)) := by
  intro u
  simp [State.startupStep, hBooting, hMreset, hHatBootStep, hOk, u]

theorem State.startupStep_of_step_six {ok : Bool} {failed : List Nat} {s : State} (hBooting : s.rdb V.BOOTING [] = true) (hMreset :
    s.rdb V.MRESET [] = false) (hHatBootStep : s.rd F.HAT_BOOT_STEP [] = 6) (hOk : ok = true) :
    s.startupStep ok failed =
      ((s.hbmUp failed).wr F.HAT_BOOT_STEP [] ((s.hbmUp failed).rd F.HAT_BOOT_STEP [] + 1)) := by
  simp [State.startupStep, hBooting, hMreset, hHatBootStep, hOk]

/-- The effect of LOADTEST_RUN (R483). -/
theorem State.loadtestRun_eq {s : State} (hClocked : s.clocked = true) (hAllClosed : s.allClosed = true) (hHatLoadtestActive : s.rdb
    F.HAT_LOADTEST_ACTIVE [] = false) (hHatBootStep : 10 ≤ s.rd F.HAT_BOOT_STEP []) :
    s.loadtestRun =
      ((s.wr F.HAT_BOOT_STEP [] 10).loadTestStart.wr V.REPAIR [] 1) := by
  simp [State.loadtestRun, hClocked, hAllClosed, hHatLoadtestActive, hHatBootStep]

/-- The effect of LOADTEST_PHASE_END (R482). -/
theorem State.loadtestPhase_of_not_crcOk {crcOk : Bool} {s : State} (hHatLoadtestActive : s.rdb F.HAT_LOADTEST_ACTIVE [] = true) (hCrcOk :
    crcOk = false) :
    let u := (s.wr F.HAT_LOADTEST_ACTIVE [] 0).wr F.HAT_LOADTEST_FAILED [] 1
    s.loadtestPhase crcOk =
      ((u.err { det := u.openDet, sev := 2, cause := u.rd F.HAT_LOADTEST_PHASE [] }).freshen) := by
  intro u
  simp [State.loadtestPhase, hHatLoadtestActive, hCrcOk, u]

theorem State.loadtestPhase_of_ltBad_hatLoadtestPhase_lt {crcOk : Bool} {s : State} (hHatLoadtestActive : s.rdb F.HAT_LOADTEST_ACTIVE [] =
    true) (hLtBad : (crcOk && !s.rdb V.LT_BAD [] && !exLt s.effCap.2 s.powerP && !s.tjAtLeast (s.sense 424 1)) = true) (hHatLoadtestPhase :
    s.rd F.HAT_LOADTEST_PHASE [] + 1 < s.img.le 0x0A 4 0 22 1) :
    s.loadtestPhase crcOk =
      (s.bump F.HAT_LOADTEST_PHASE [] 1) := by
  simp [State.loadtestPhase, hHatLoadtestActive, hLtBad, hHatLoadtestPhase]

/-- The effect of QUADRANT_RESET_END (R478). -/
theorem State.quadResetEnd_eq {q : Nat} {s : State} (hQreset : s.rdb V.QRESET [q] = true) (hQreset2 : (s.wr V.QRESET [q] 0).rdb V.QUIESCE
    [q] = false) :
    s.quadResetEnd q =
      (s.wr V.QRESET [q] 0) := by
  simp [State.quadResetEnd, hQreset, hQreset2]

/-- The effect of MODULE_RESET_RELEASE (R478). -/
theorem State.moduleRelease_eq {s : State} (hMreset : s.rdb V.MRESET [] = true) (hMreset2 : (s.wr V.MRESET [] 0).rdb V.THERM [] = false) :
    s.moduleRelease =
      ((s.wr V.MRESET [] 0).startUp 0 false) := by
  simp [State.moduleRelease, hMreset, hMreset2]

/-- The effect of IEEE_1588_TIME (R475). -/
theorem State.ieee1588_eq {ns : BitVec 64} {s : State} (hYofRuns : s.yofRuns = true) :
    s.ieee1588 ns.toNat =
      (s.wr V.TIME_PS [] (ns.toNat * 1000)) := by
  simp [State.ieee1588, hYofRuns]

/-- Settles O18: every clause is the run of its command, whose operation answers the state that the clause writes out. -/
theorem powerCommandsComplete : Obligations.PowerCommandsComplete := by
  refine ⟨?_, ?_, ?_, ?_, ?_, ?_, ?_, ?_, ?_, ?_, ?_, ?_, ?_, ?_, ?_, ?_, ?_, ?_, ?_, ?_, ?_, ?_, ?_, ?_, ?_, ?_, ?_, ?_, ?_, ?_, ?_, ?_, ?_⟩
  · intro s hup hGasp
    exact (exec_vinHoldupEnd ..).trans (State.run_goes rfl hup (State.vinHoldupEnd_eq hGasp))
  · intro s hup hVinP3 hPstate hTherm
    exact (exec_vinGood ..).trans (State.run_goes rfl hup (State.vinGood_eq hVinP3 hPstate hTherm))
  · intro s hup hBooting hHatBootStep _
    exact (exec_railTimeout ..).trans (State.run_goes rfl hup (State.railTimeout_eq hBooting hHatBootStep))
  · intro s hup
    exact (exec_vauxLow ..).trans (State.run_goes rfl hup rfl)
  · intro target s hwf hup hMreset hHatPstateBusy hPstate hTarget hTherm hBooting
    exact (exec_powerRequest ..).trans (State.run_goes hwf hup (State.powerRequest_of_off hMreset hHatPstateBusy
        hPstate hTarget hTherm hBooting))
  · intro target s hwf hup hMreset hHatPstateBusy hPstate hTarget hTryStagePump
    exact (exec_powerRequest ..).trans (State.run_goes hwf hup (State.powerRequest_of_retention hMreset hHatPstateBusy
        hPstate hTarget hTryStagePump))
  · intro target s hwf hup hMreset hHatPstateBusy hPstate hTarget hTryStagePump
    exact (exec_powerRequest ..).trans (State.run_goes hwf hup (State.powerRequest_of_pstate_0_target_1_tryStagePump_ne hMreset hHatPstateBusy
        hPstate hTarget hTryStagePump))
  · intro target s hwf hup hMreset hHatPstateBusy hPstate hTarget
    exact (exec_powerRequest ..).trans (State.run_goes hwf hup (State.powerRequest_of_pstate_or_target_or hMreset hHatPstateBusy hPstate hTarget))
  · intro expired s hwf hup hHatPstateBusy hClocked hRange
    exact (exec_p2QuietEnd ..).trans (State.run_goes hwf hup (State.p2QuietEnd_of_range hHatPstateBusy hClocked hRange))
  · intro expired s hwf hup hHatPstateBusy hClocked hRange hExpired
    exact (exec_p2QuietEnd ..).trans (State.run_goes hwf hup (State.p2QuietEnd_of_range_expired hHatPstateBusy hClocked hRange hExpired))
  · intro s hup hPstate hYofOn
    exact (exec_yofenIdleStop ..).trans (State.run_goes rfl hup (State.yofenIdleStop_eq hPstate hYofOn))
  · intro q e s hwf hup hPstate hImg hWarmHeld hEngineIdle
    exact (exec_engineGate ..).trans (State.run_goes hwf hup (State.gateRow_eq hPstate hImg hWarmHeld hEngineIdle))
  · intro q e s hwf hup hHatGateGated hClocked
    exact (exec_engineWake ..).trans (State.run_goes hwf hup (State.engineWake_eq hHatGateGated hClocked))
  · intro q e p s hwf hup
    exact (exec_warmHoldEnd ..).trans (State.run_goes hwf hup rfl)
  · intro s hup hHatClkRefOk _
    exact (exec_refclkLost ..).trans (State.run_goes rfl hup (State.refclkLost_eq hHatClkRefOk))
  · intro s hup hHatClkRefOk
    exact (exec_refclkReturn ..).trans (State.run_goes rfl hup (State.refclkReturn_eq hHatClkRefOk))
  · intro s hup hHatClkRefOk hPstate hHatPstateBusy
    exact (exec_refclkLossTimeout ..).trans (State.run_goes rfl hup (State.refclkTimeout_eq hHatClkRefOk hPstate hHatPstateBusy))
  · intro s hup hHatClkRefOk
    exact (exec_oscCalibrate ..).trans (State.run_goes rfl hup (State.oscCalibrate_eq hHatClkRefOk))
  · intro s hup hPstate
    exact (exec_thermalTrip ..).trans (State.run_goes rfl hup (State.thermalTrip_eq hPstate))
  · intro s
    exact (exec_coldReset ..).trans (State.run_goes rfl rfl rfl)
  · intro cool s hwf hup hMreset hGasp hCool _
    exact (exec_moduleReset ..).trans (State.run_goes hwf hup (State.moduleReset_of_not_cool hMreset hGasp hCool))
  · intro cool s hwf hup hMreset hGasp hCool _
    exact (exec_moduleReset ..).trans (State.run_goes hwf hup (State.moduleReset_of_cool hMreset hGasp hCool))
  · intro q s hwf hup hQuadUp _
    exact (exec_quadrantReset ..).trans (State.run_goes hwf hup (State.quadReset_eq hQuadUp))
  · intro p flr s hwf hup hFlr hP
    exact (exec_partitionReset ..).trans (State.run_goes hwf hup (State.partReset_of_flr_p_ne hFlr hP))
  · intro p flr s hwf hup hFlr
    exact (exec_partitionReset ..).trans (State.run_goes hwf hup (State.partReset_of_not_flr hFlr))
  · intro ok failed s hwf hup hBooting hMreset hHatBootStep hOk _
    exact (exec_startupStepComplete ..).trans (State.run_goes hwf hup (State.startupStep_of_step_four hBooting hMreset hHatBootStep hOk))
  · intro ok failed s hwf hup hBooting hMreset hHatBootStep hOk
    exact (exec_startupStepComplete ..).trans (State.run_goes hwf hup (State.startupStep_of_step_six hBooting hMreset hHatBootStep hOk))
  · intro s hup hClocked hAllClosed hHatLoadtestActive hHatBootStep
    exact (exec_loadtestRun ..).trans (State.run_goes rfl hup (State.loadtestRun_eq hClocked hAllClosed hHatLoadtestActive hHatBootStep))
  · intro crcOk s hwf hup hHatLoadtestActive hCrcOk _
    exact (exec_loadtestPhaseEnd ..).trans (State.run_goes hwf hup (State.loadtestPhase_of_not_crcOk hHatLoadtestActive hCrcOk))
  · intro crcOk s hwf hup hHatLoadtestActive hLtBad hHatLoadtestPhase
    exact (exec_loadtestPhaseEnd ..).trans (State.run_goes hwf hup (State.loadtestPhase_of_ltBad_hatLoadtestPhase_lt hHatLoadtestActive hLtBad
        hHatLoadtestPhase))
  · intro q s hwf hup hQreset hQreset2
    exact (exec_quadrantResetEnd ..).trans (State.run_goes hwf hup (State.quadResetEnd_eq hQreset hQreset2))
  · intro s hup hMreset hMreset2
    exact (exec_moduleResetRelease ..).trans (State.run_goes rfl hup (State.moduleRelease_eq hMreset hMreset2))
  · intro ns s hwf hup hYofRuns
    exact (exec_ieee1588Time ..).trans (State.run_goes hwf hup (State.ieee1588_eq hYofRuns))

end Sys2Proof.Machine
end

section
/-! SUPPORT. Completion of the commands of the host interface: what each operation answers in the cases that its statement names. -/

namespace Sys2Proof.Machine

set_option Elab.async false

/-- The effect of PERST (R532). -/
theorem State.perst_of_not_asserted_perst {asserted : Bool} {s : State} (hAsserted : asserted = false) (hPerst : (s.wr V.PERST [] 0).rdb
    V.YOF_ON [] = true) :
    s.perst asserted =
      ((s.wr V.PERST [] 0).pcieUp) := by
  simp [State.perst, hAsserted, hPerst]

theorem State.perst_of_asserted_pciLinkSpeed {asserted : Bool} {s : State} (hAsserted : asserted = true) (hPciLinkSpeed : s.rdb
    F.PCI_LINK_SPEED [] = true) :
    let u := (((s.bump F.PCI_LINK_DOWNS [] 1).wr V.PERST [] 1).wr F.HAT_RESET_LAST [] 5).linkOff
    s.perst asserted =
      ((List.range 32).foldl (fun t f => t.fnReset f) (u.fetchAbort fun f => f < 32)) := by
  intro u
  simp [State.perst, hAsserted, hPciLinkSpeed, u]

/-- The effect of SET_ENDPOINT_ID (R534). -/
theorem State.setEid_of_binding_1_mctpAnswers {binding : Nat} {eid : BitVec 8} {s : State} (hBinding : binding = 1) (hMctpAnswers :
    s.mctpAnswers binding true = true) :
    s.setEid binding eid.toNat =
      ((s.wr V.EID [binding] eid.toNat).emit (.mctp 0 [binding, eid.toNat])) := by
  subst hBinding
  simp [State.setEid, hMctpAnswers]

theorem State.setEid_of_binding_0_yofDemand {binding : Nat} {eid : BitVec 8} {s : State} (hBinding : binding = 0) (hYofDemand :
    s.yofDemand.mctpAnswers binding true = true) :
    s.setEid binding eid.toNat =
      ((s.yofDemand.wr V.EID [binding] eid.toNat).emit (.mctp 0 [binding, eid.toNat])) := by
  subst hBinding
  simp [State.setEid, hYofDemand]

/-- The effect of PLDM_SENSOR_READ (R535). -/
theorem State.pldmRead_eq {n : Nat} {s : State} (hYofDemand : s.yofDemand.yofRuns = true) :
    s.pldmRead n =
      (s.yofDemand.emit (.mctp 1 [n, s.yofDemand.sensor n])) := by
  simp [State.pldmRead, hYofDemand]

/-- The effect of PLDM_EFFECTER_WRITE (R535). -/
theorem State.pldmWrite_of_n_0_yofDemand {n : Nat} {value : BitVec 64} {s : State} (hN : n = 0) (hYofDemand : s.yofDemand.yofRuns = true) :
    s.pldmWrite n value.toNat =
      (s.yofDemand.wr F.TRY_CAP_HOST_CAP_W [] value.toNat) := by
  simp [State.pldmWrite, hN, hYofDemand]

theorem State.pldmWrite_of_n_le_n2_lt_yofDemand {n : Nat} {value : BitVec 64} {s : State} (hN : 1 ≤ n) (hN2 : n < 9) (hYofDemand :
    s.yofDemand.yofRuns = true) :
    s.pldmWrite n value.toNat =
      (s.yofDemand.wr F.TRY_PWM_FORCE_DUTY [n - 1] value.toNat).dutyForced := by
  have h9 : n ≠ 9 := by omega
  have h0 : n ≠ 0 := by omega
  simp [State.pldmWrite, h9, h0, hN2, hYofDemand]

theorem State.pldmWrite_of_power_state {n : Nat} {value : BitVec 64} {s : State} (hHatOn : s.hatOn = true) (hN : n = 9) :
    s.pldmWrite n value.toNat =
      (s.powerRequest (value.toNat % 4)) := by
  simp [State.pldmWrite, hN, hHatOn]

theorem State.pldmWrite_of_n_le_yofDemand_value_or {n : Nat} {value : BitVec 64} {s : State} (hN : 10 ≤ n) (hYofDemand :
    s.yofDemand.yofRuns = true) (hValue : (value.toNat = 1 ∨ value.toNat = 3)) :
    s.pldmWrite n value.toNat =
      (s.yofDemand.cartCmd (n - 10) value.toNat) := by
  have h9 : n ≠ 9 := by omega
  have h0 : n ≠ 0 := by omega
  have hlt : ¬n < 9 := by omega
  simp [State.pldmWrite, h9, h0, hlt, hYofDemand, hValue]

/-- The effect of BAR2_READ (R522). -/
theorem State.bar2Read_of_bar2Served_memRead {fn off len : Nat} {s : State} {d : List Byte} :
    let u := s.countModule 0 16 0 1
    u.bar2Served fn off len = true →
    u.memRead fn (u.bar2Addr fn off) len = .ok d →
    s.bar2Read fn off len =
      ((u.noteRead 0x09 fn (u.bar2Addr fn off) len).tlp (.completion fn 0 d)) := by
  intro u hBar2Served hMemRead
  simp [State.bar2Read, hBar2Served, hMemRead, u]

theorem State.bar2Read_of_not_bar2Served {fn off len : Nat} {s : State} :
    let u := s.countModule 0 16 0 1
    u.bar2Served fn off len = false →
    s.bar2Read fn off len =
      (((u.raise F.PCI_FN_STAT_BADBAR2 [fn]).tlp (.completion fn 1 [])).aer fn 0) := by
  intro u hBar2Served
  simp [State.bar2Read, hBar2Served, u]

/-- The effect of BAR2_WRITE (R522). -/
theorem State.bar2Write_of_stored {fn off : Nat} {data : List Byte} {poisoned : Bool} {s : State} {t z :
    State} (hPoisoned : poisoned = false) :
    let u := s.countModule 0 16 0 1
    u.bar2Served fn off data.length = true →
    u.memWrite fn (u.bar2Addr fn off) data = some t →
    (u.noteMerge fn (u.bar2Addr fn off) data.length).memWrite fn (u.bar2Addr fn off) data = some z →
    s.bar2Write fn off data poisoned =
      (z.hostWrote fn (u.bar2Addr fn off) data.length) := by
  intro u hBar2Served hMemWrite hNoteMerge
  simp [State.bar2Write, hPoisoned, hBar2Served, hMemWrite, hNoteMerge, u]

theorem State.bar2Write_of_not_bar2Served {fn off : Nat} {data : List Byte} {poisoned : Bool} {s : State} (hPoisoned : poisoned = false) :
    let u := s.countModule 0 16 0 1
    u.bar2Served fn off data.length = false →
    s.bar2Write fn off data poisoned =
      (u.raise F.PCI_FN_STAT_BADBAR2 [fn]) := by
  intro u hBar2Served
  simp [State.bar2Write, hPoisoned, hBar2Served, u]

/-- The effect of PF0_FLR (R531). -/
theorem State.pf0Flr_eq {s : State} (hGlbScratchValue : ((((s.fetchAbort fun f => f == 0).fnReset 0).wr F.GLB_SCRATCH_VALUE [0] 0).rdb
    F.SEC_STATUS_BUSY [] = false)) (hGlbScratchValue2 : ((((s.fetchAbort fun f => f == 0).fnReset 0).wr F.GLB_SCRATCH_VALUE [0] 0).rd
    F.DBG_LEVEL_LEVEL [] = 0)) :
    let u := ((s.fetchAbort fun f => f == 0).fnReset 0).wr F.GLB_SCRATCH_VALUE [0] 0
    s.pf0Flr =
      (u.dropLatches) := by
  intro u
  simp [State.pf0Flr, hGlbScratchValue, hGlbScratchValue2, u]

/-- The effect of PCIE_LINK_DOWN (R532). -/
theorem State.pcieLinkDown_of_down_pciLinkSpeed {down : Bool} {s : State} (hDown : down = true) (hPciLinkSpeed : s.rdb F.PCI_LINK_SPEED []
    = true) :
    let u := (s.linkOff.bump F.PCI_LINK_DOWNS [] 1).fetchAbort fun f => f < 32
    s.pcieLinkDown down =
      ((u.err { det := 0x17, sev := 2 }).aer 0 2) := by
  intro u
  simp [State.pcieLinkDown, hDown, hPciLinkSpeed, u]

theorem State.pcieLinkDown_of_not_down_yofOn {down : Bool} {s : State} (hDown : down = false) (hYofOn : s.rdb V.YOF_ON [] = true) :
    s.pcieLinkDown down =
      (s.pcieUp) := by
  simp [State.pcieLinkDown, hDown, hYofOn]

/-- The effect of HOST_ACCESS_FAIL (R527). -/
theorem State.hostAccessFail_of_user_1 {fn user q c : Nat} {s : State} (hUser : user = 1) :
    s.hostAccessFail fn user q c =
      (s.hostFail fn) := by
  simp only [State.hostAccessFail, hUser]

theorem State.hostAccessFail_of_user_0_movSt_1 {fn user q c : Nat} {s : State} (hUser : user = 0) (hMovSt : s.movSt q fn (c - 1) = 1) :
    s.hostAccessFail fn user q c =
      ((((s.hostFail fn).err { det := 0x17, sev := 1, part := fn }).aer fn 1).movBusError q 1) := by
  simp [State.hostAccessFail, hUser, hMovSt]

/-- The effect of MSIX_UNMASK (R529). -/
theorem State.msixUnmask_of_msixPend_msixMask {fn vec : Nat} {s : State} (hMsixPend : s.rdb V.MSIX_PEND [fn, vec] = true) (hMsixMask :
    ((s.wr V.MSIX_MASK [fn, vec] 0).wr V.MSIX_PEND [fn, vec] 0).hostOk fn = true) :
    s.msixUnmask fn vec =
      (((s.wr V.MSIX_MASK [fn, vec] 0).wr V.MSIX_PEND [fn, vec] 0).tlp (.msix fn vec)) := by
  simp [State.msixUnmask, hMsixPend, hMsixMask]

theorem State.msixUnmask_of_not_msixPend {fn vec : Nat} {s : State} (hMsixPend : s.rdb V.MSIX_PEND [fn, vec] = false) :
    s.msixUnmask fn vec =
      ((s.wr V.MSIX_MASK [fn, vec] 0).wr V.MSIX_PEND [fn, vec] 0) := by
  simp [State.msixUnmask, hMsixPend]

/-- Settles O19: every clause is the run of its command, whose operation answers the state that the clause writes out. -/
theorem hostCommandsComplete : Obligations.HostCommandsComplete := by
  refine ⟨?_, ?_, ?_, ?_, ?_, ?_, ?_, ?_, ?_, ?_, ?_, ?_, ?_, ?_, ?_, ?_, ?_, ?_, ?_, ?_⟩
  · intro asserted s hwf hAsserted hPerst
    exact (exec_perst ..).trans (State.run_goes hwf rfl (State.perst_of_not_asserted_perst hAsserted hPerst))
  · intro asserted s hwf hAsserted hPciLinkSpeed _
    exact (exec_perst ..).trans (State.run_goes hwf rfl (State.perst_of_asserted_pciLinkSpeed hAsserted hPciLinkSpeed))
  · intro binding eid s hwf hup hBinding hMctpAnswers
    exact (exec_setEndpointId ..).trans (State.run_goes hwf hup (State.setEid_of_binding_1_mctpAnswers hBinding hMctpAnswers))
  · intro binding eid s hwf hup hBinding hYofDemand
    exact (exec_setEndpointId ..).trans (State.run_goes hwf hup (State.setEid_of_binding_0_yofDemand hBinding hYofDemand))
  · intro n s hwf hup hYofDemand
    exact (exec_pldmSensorRead ..).trans (State.run_goes hwf hup (State.pldmRead_eq hYofDemand))
  · intro n value s hwf hup hN hYofDemand
    exact (exec_pldmEffecterWrite ..).trans (State.run_goes hwf hup (State.pldmWrite_of_n_0_yofDemand hN hYofDemand))
  · intro n value s hwf hup hN hN2 hYofDemand
    exact (exec_pldmEffecterWrite ..).trans (State.run_goes hwf hup (State.pldmWrite_of_n_le_n2_lt_yofDemand hN hN2 hYofDemand))
  · intro n value s hwf hHatOn hN hup
    exact (exec_pldmEffecterWrite ..).trans (State.run_goes hwf hup (State.pldmWrite_of_power_state hHatOn hN))
  · intro n value s hwf hup hN hYofDemand hValue
    exact (exec_pldmEffecterWrite ..).trans (State.run_goes hwf hup (State.pldmWrite_of_n_le_yofDemand_value_or hN hYofDemand hValue))
  · intro fn off len s d hwf hup _ hBar2Served hMemRead
    exact (exec_bar2Read ..).trans (State.run_goes hwf hup (State.bar2Read_of_bar2Served_memRead hBar2Served hMemRead))
  · intro fn off len s hwf hup _ hBar2Served
    exact (exec_bar2Read ..).trans (State.run_goes hwf hup (State.bar2Read_of_not_bar2Served hBar2Served))
  · intro fn off data poisoned s t z hwf hup hPoisoned _ hBar2Served hMemWrite hNoteMerge
    exact (exec_bar2Write ..).trans (State.run_goes hwf hup (State.bar2Write_of_stored hPoisoned hBar2Served
        hMemWrite hNoteMerge))
  · intro fn off data poisoned s hwf hup hPoisoned _ hBar2Served
    exact (exec_bar2Write ..).trans (State.run_goes hwf hup (State.bar2Write_of_not_bar2Served hPoisoned hBar2Served))
  · intro s hup hGlbScratchValue hGlbScratchValue2 _
    exact (exec_pf0Flr ..).trans (State.run_goes rfl hup (State.pf0Flr_eq hGlbScratchValue hGlbScratchValue2))
  · intro down s hwf hup hDown hPciLinkSpeed _
    exact (exec_pcieLinkDown ..).trans (State.run_goes hwf hup (State.pcieLinkDown_of_down_pciLinkSpeed hDown hPciLinkSpeed))
  · intro down s hwf hup hDown hYofOn
    exact (exec_pcieLinkDown ..).trans (State.run_goes hwf hup (State.pcieLinkDown_of_not_down_yofOn hDown hYofOn))
  · intro fn user q c s hwf hup hUser
    exact (exec_hostAccessFail ..).trans (State.run_goes hwf hup (State.hostAccessFail_of_user_1 hUser))
  · intro fn user q c s hwf hup hUser hMovSt
    exact (exec_hostAccessFail ..).trans (State.run_goes hwf hup (State.hostAccessFail_of_user_0_movSt_1 hUser hMovSt))
  · intro fn vec s hwf hup hMsixPend hMsixMask
    exact (exec_msixUnmask ..).trans (State.run_goes hwf hup (State.msixUnmask_of_msixPend_msixMask hMsixPend hMsixMask))
  · intro fn vec s hwf hup hMsixPend
    exact (exec_msixUnmask ..).trans (State.run_goes hwf hup (State.msixUnmask_of_not_msixPend hMsixPend))

end Sys2Proof.Machine
end

section
/-! SUPPORT. Completion of the commands of the security services: what each operation answers in the cases that its statement names. -/

namespace Sys2Proof.Machine

set_option Elab.async false

/-- A command of the security services, once the Yofen runs. -/
theorem State.secPlain_of_yofRuns {s : State} (run : State → State) (h : s.yofDemand.yofRuns = true) :
    s.secPlain run = run (s.yofDemand.wr F.SEC_STATUS_BUSY [] 1) := by simp [State.secPlain, h]

/-- A count of an event leaves every register of another block alone. -/
theorem State.rd_countModule {f : Fld} {b : Block} (hb : f.block = some b) (hn : b ≠ .ctrm) (s : State) (m code part n : Nat) (ix : List Nat) :
    (s.countModule m code part n).rd f ix = s.rd f ix :=
  (touches_countModule (ps := []) (List.mem_singleton_self _) touches_refl).2.2 f b ix hb fun h => hn (List.mem_singleton.1 h)

/-- A host read that no injection fails. -/
theorem State.readGate_of_not_injRead {s : State} {f : Nat} (user q c : Nat) (done : State → State) (h : s.injRead f = false) :
    s.readGate f user q c done = done ((s.countModule 0 17 0 1).countModule 0 16 0 1) := by
  have hkept : (s.countModule 0 17 0 1).injRead f = s.injRead f := by
    simp only [State.injRead, State.rd_countModule (f := V.INJ_KIND) rfl (by decide), State.rd_countModule (f := V.INJ_DET) rfl (by decide),
      State.rd_countModule (f := V.INJ_TARGET) rfl (by decide)]
  simp only [State.readGate, hkept, h, Bool.false_eq_true, if_false]

/-- A command that fetches its object from the host, once the Yofen runs and the host answers. -/
theorem State.secFetched_of_hostOk {s : State} (run : State → State) (h : s.yofDemand.yofRuns = true)
    (hhost : (s.yofDemand.wr F.SEC_STATUS_BUSY [] 1).hostOk 0 = true) (hinj : (s.yofDemand.wr F.SEC_STATUS_BUSY [] 1).injRead 0 = false) :
    s.secFetched run = run (((s.yofDemand.wr F.SEC_STATUS_BUSY [] 1).countModule 0 17 0 1).countModule 0 16 0 1) := by
  simp [State.secFetched, h, hhost, State.readGate_of_not_injRead _ _ _ _ hinj]

/-- A floor that already stands there. -/
theorem State.floorRaise_of_le {s : State} {i v : Nat} (h : v ≤ s.flashCtr i) : s.floorRaise i v = s.secDone 0 := if_pos h

/-- A floor that the flash raises. -/
theorem State.floorRaise_of_some {s t : State} {i v : Nat} (h : ¬v ≤ s.flashCtr i) (e : s.ctrRaise i v = some t) :
    s.floorRaise i v = t.secDone 0 := by simp only [State.floorRaise, if_neg h, e]

/-- A floor that the flash does not raise. -/
theorem State.floorRaise_of_none {s : State} {i v : Nat} (h : ¬v ≤ s.flashCtr i) (e : s.ctrRaise i v = none) :
    s.floorRaise i v = s.secDone 5 := by simp only [State.floorRaise, if_neg h, e]

section

variable {s : State} {obj : List Byte}

/-- The state in which a life-cycle object that passes its checks raises its counter. -/
def State.lcStored (s : State) (obj : List Byte) : State :=
  ((s.grantEnd 0).flashPut (lcSlotAddr (if s.flashCtr 3 = 0 then 0 else 1 - s.rd V.LC_SLOT [])) (obj.take 128)).wr V.LC_SLOT []
    (if s.flashCtr 3 = 0 then 0 else 1 - s.rd V.LC_SLOT [])

/-- The checks of a life-cycle object in their order, and what follows them. -/
def State.lcChecked (s done : State) (obj : List Byte) : State :=
  if (lcObjOf obj).wellFormed = false ∨ sigOver (if (lcObjOf obj).issuer = 0 then s.rootKey else s.ownerKey) obj 64 = false then s.secDone 1
  else if (lcObjOf obj).device ≠ deviceId then s.secDone 2
  else if (lcObjOf obj).count ≠ s.flashCtr 3 + 1 then s.secDone 3
  else if lcStep (s.rd F.SEC_LC_STATE []) (lcObjOf obj).state (lcObjOf obj).issuer = false ∨
    (s.rd F.SEC_LC_STATE [] = 1 ∧ (lcObjOf obj).state = 2 ∧ s.ownCertOk = false) then s.secDone 4
  else done

theorem State.lifecycleObject_of_ctrRaise_some {z : State} (e : (s.lcStored obj).ctrRaise 3 (lcObjOf obj).count = some z) :
    s.lifecycleObject obj =
      s.lcChecked (((z.wr F.SEC_LC_STATE [] (lcObjOf obj).state).lcEffect (s.rd F.SEC_LC_STATE []) (lcObjOf obj).state).secDone 0) obj := by
  unfold State.lcStored at e
  simp only [State.lifecycleObject, State.lcChecked, Bool.or_eq_true, Bool.not_eq_true', bne_iff_ne, Bool.and_eq_true, beq_iff_eq, and_assoc, e]

theorem State.lifecycleObject_of_ctrRaise_none (e : (s.lcStored obj).ctrRaise 3 (lcObjOf obj).count = none) :
    s.lifecycleObject obj = s.lcChecked ((s.lcStored obj).secDone 5) obj := by
  unfold State.lcStored at e
  simp only [State.lifecycleObject, State.lcChecked, State.lcStored, Bool.or_eq_true, Bool.not_eq_true', bne_iff_ne, Bool.and_eq_true, beq_iff_eq,
    and_assoc, e]

end

/-- The effect of OWNER_ENROL (R501). -/
theorem State.secFetched_ownerEnrol {cert : List Byte} {s : State} (hYofDemand : s.yofDemand.yofRuns = true) (hSecStatusBusy :
    (s.yofDemand.wr F.SEC_STATUS_BUSY [] 1).hostOk 0 = true) (hSecStatusBusy2 : (s.yofDemand.wr F.SEC_STATUS_BUSY [] 1).injRead 0 = false)
    :
    let u := ((s.yofDemand.wr F.SEC_STATUS_BUSY [] 1).countModule 0 17 0 1).countModule 0 16 0 1
    let lc := u.rd F.SEC_LC_STATE []
    let n := ownLen cert + 64
    let issuer := leAt cert 108 1
    let gen := leAt cert 104 4
    let v := if u.ownHeld && u.ownerKey != bytesAt cert 40 64 then (u.grantEnd 0).closeTenants.zeroizeHbm else u
    (s.secFetched fun u => u.ownerEnrol cert) =
      (if ownForm cert = false ∨ cert.length < n ∨
              sigOver (if issuer = 0 then u.rootKey else u.ownerKey) cert (ownLen cert) = false then u.secDone 1
          else if bytesAt cert 8 32 ≠ deviceId then u.secDone 2
          else if gen ≤ u.flashCtr 2 then u.secDone 3
          else if ¬((issuer = 0 ∧ lc = 1) ∨ (issuer = 1 ∧ lc = 2)) then u.secDone 4
          else ((v.flashPut 0x4000 (List.replicate 4096 0)).flashPut 0x4000 (cert.take n)).floorRaise 2 gen) := by
  intro u lc n issuer gen v
  rw [State.secFetched_of_hostOk _ hYofDemand hSecStatusBusy hSecStatusBusy2]
  change u.ownerEnrol cert = _
  clear_value u
  exact if_congr (by simp [or_assoc, n, issuer]) rfl (if_congr (by simp) rfl (if_congr Iff.rfl rfl (if_congr (by simp [lc, issuer, imp_iff_not_or]) rfl rfl)))

/-- The effect of DEBUG_REQUEST_D1 (R508). -/
theorem State.requestD1_eq {s : State} (hDbgLevelLevel : s.rd F.DBG_LEVEL_LEVEL [] = 0) :
    s.requestD1 false =
      ((((s.wr F.DBG_LEVEL_LEVEL [] 1).wr F.DBG_LEVEL_IFACE [] 0).grantRecord 1 0).dbgDone 0) := by
  simp [State.requestD1, b2n, hDbgLevelLevel]

/-- The effect of TOKEN_SUBMIT (R510). -/
theorem State.tokenFetched_eq {token : List Byte} {s : State} (hYofDemand : s.yofDemand.yofRuns = true) (hDbgStatusBusy : (s.yofDemand.wr
    F.DBG_STATUS_BUSY [] 1).hostOk 0 = true) (hDbgStatusBusy2 : (s.yofDemand.wr F.DBG_STATUS_BUSY [] 1).injRead 0 = false) :
    let u := ((s.yofDemand.wr F.DBG_STATUS_BUSY [] 1).countModule 0 17 0 1).countModule 0 16 0 1
    let r := u.tokenResult token
    let level := leAt token 4 1
    let part := if level = 2 then leAt token 5 1 else 0
    let v := (((((u.wr V.CHAL_OK [] 0).wr F.DBG_LEVEL_LEVEL [] level).wr F.DBG_LEVEL_PART [] part).wr F.DBG_LEVEL_WRITE []
        (b2n (level == 3 || bitOf (leAt token 6 1) 1))).wr F.DBG_LEVEL_IFACE [] 0).wr F.DBG_LEVEL_REMAIN_S [] (leAt token 56 4)
    let w := ((v.wr V.GRANT_END [] (v.timeNs + leAt token 56 4 * 10 ^ 9)).grantRecord level part).dbgDone 0
    s.tokenFetched token =
      (if r ≠ 0 then (u.wr V.CHAL_OK [] 0).dbgDone r
          else if level = 2 ∧ w.rd V.PRST_PS [part] = w.rd V.TIME_PS [] + 1 then w.grantEnd 1
          else if bitOf (leAt token 6 1) 0 = true then w.wake
          else w) := by
  intro u r level part v w
  have hsubmit : s.tokenFetched token = u.tokenSubmit token false := by
    simp [State.tokenFetched, hYofDemand, hDbgStatusBusy, State.readGate_of_not_injRead _ _ _ _ hDbgStatusBusy2, u]
  rw [hsubmit]
  clear_value u
  have hzero : b2n false = 0 := rfl
  have htime : v.timeNs = (((((u.wr V.CHAL_OK [] 0).wr F.DBG_LEVEL_LEVEL [] level).wr F.DBG_LEVEL_PART [] part).wr F.DBG_LEVEL_WRITE []
      (b2n (level == 3 || bitOf (leAt token 6 1) 1))).wr F.DBG_LEVEL_IFACE [] 0).timeNs := by
    simp only [State.timeNs, v, State.rd_wr_ne (f := F.DBG_LEVEL_REMAIN_S) (g := V.TIME_PS) (by decide)]
  simp only [State.tokenSubmit, hzero, w, htime]
  refine if_congr Iff.rfl rfl (if_congr ?_ rfl rfl)
  simp only [Bool.and_eq_true, decide_eq_true_eq, level, part, v]

/-- The effect of GRANT_EXPIRY (R510). -/
theorem State.grantExpiry_eq {s : State} (hDbgLevelLevel : 2 ≤ s.rd F.DBG_LEVEL_LEVEL []) :
    s.grantExpiry =
      (s.grantEnd 0) := by
  simp [State.grantExpiry, hDbgLevelLevel]

/-- The effect of FIRMWARE_UPDATE (R496). -/
theorem State.firmwareUpdate_eq {addr : Nat} {data : List Byte} {s : State} (hPstate : s.pstate = 3) (hHatBootFailed : s.rdb
    F.HAT_BOOT_FAILED [] = true) (hBooting : s.rdb V.BOOTING [] = false) (hX10000 : 0x10000 ≤ addr) (hLength : addr + data.length ≤ 2 ^ 26)
    :
    s.firmwareUpdate addr data =
      (((s.flashPut addr data).startUp 0 false).wr F.HAT_BOOT_STEP [] 2) := by
  simp [State.firmwareUpdate, hPstate, hHatBootFailed, hBooting, hX10000]
  omega

/-- Settles O20: every clause is the run of its command, whose operation answers the state that the clause writes out. -/
theorem securityCommandsComplete : Obligations.SecurityCommandsComplete := by
  refine ⟨?_, ?_, ?_, ?_, ?_, ?_, ?_, ?_, ?_, ?_⟩
  · intro obj s hwf hup hrun hhost hinj u o from0 slot v
    refine (exec_lifecycleObject ..).trans (State.run_goes hwf hup ?_)
    rw [State.secFetched_of_hostOk _ hrun hhost hinj]
    cases e : v.ctrRaise 3 o.count with
    | some z => exact State.lifecycleObject_of_ctrRaise_some e
    | none => exact State.lifecycleObject_of_ctrRaise_none e
  · intro cert s hwf hup hYofDemand hSecStatusBusy hSecStatusBusy2 _ _ _ _ _ _
    exact (exec_ownerEnrol ..).trans (State.run_goes hwf hup (State.secFetched_ownerEnrol hYofDemand hSecStatusBusy hSecStatusBusy2))
  · intro s hup hrun u v
    refine (exec_firmwareFloor ..).trans (State.run_goes rfl hup ?_)
    rw [State.secPlain_of_yofRuns _ hrun]
    by_cases h : v ≤ u.flashCtr 0
    · rw [if_pos h]
      exact State.floorRaise_of_le h
    · rw [if_neg h]
      cases e : u.ctrRaise 0 v with
      | some t => exact State.floorRaise_of_some h e
      | none => exact State.floorRaise_of_none h e
  · intro s hup hrun u v
    refine (exec_knitFloor ..).trans (State.run_goes rfl hup ?_)
    rw [State.secPlain_of_yofRuns _ hrun]
    by_cases h : v ≤ u.flashCtr 1
    · rw [if_pos h]
      exact State.floorRaise_of_le h
    · rw [if_neg h]
      cases e : u.ctrRaise 1 v with
      | some t => exact State.floorRaise_of_some h e
      | none => exact State.floorRaise_of_none h e
  · intro s hup
    exact (exec_challengeRead ..).trans (State.run_goes rfl hup rfl)
  · intro s hup hDbgLevelLevel
    exact (exec_debugRequestD1 ..).trans (State.run_goes rfl hup (State.requestD1_eq hDbgLevelLevel))
  · intro token s hwf hup hYofDemand hDbgStatusBusy hDbgStatusBusy2 _ _ _ _ _ _
    exact (exec_tokenSubmit ..).trans (State.run_goes hwf hup (State.tokenFetched_eq hYofDemand hDbgStatusBusy hDbgStatusBusy2))
  · intro s hup
    exact (exec_debugRelease ..).trans (State.run_goes rfl hup rfl)
  · intro s hup hDbgLevelLevel
    exact (exec_grantExpiry ..).trans (State.run_goes rfl hup (State.grantExpiry_eq hDbgLevelLevel))
  · intro addr data s hwf hup hPstate hHatBootFailed hBooting hX10000 hLength
    exact (exec_firmwareUpdate ..).trans (State.run_goes hwf hup (State.firmwareUpdate_eq hPstate hHatBootFailed hBooting hX10000 hLength))

end Sys2Proof.Machine
end

section
/-! SUPPORT. Completion of the commands of the test access port: what each operation answers in the cases that its statement names. -/

namespace Sys2Proof.Machine

set_option Elab.async false

/-- The effect of SAMPLE_PRELOAD (R511). -/
theorem State.jtagSample_eq {bits : BitVec 4096} {s : State} (hJtagD1 : s.jtagD1 = true) :
    s.jtagSample bits.toNat =
      ((s.freshen.jtagSet 0x02 true (Config.free s.free 0)).wr V.JTAG_BSR [] bits.toNat) := by
  simp [State.jtagSample, hJtagD1]

/-- The effect of EXTEST (R511). -/
theorem State.jtagExtest_eq {bits : BitVec 4096} {s : State} (hJtagPins : s.jtagPins = true) :
    s.jtagExtest bits.toNat =
      ((s.freshen.jtagSet 0x06 true (Config.free s.free 0)).wr V.JTAG_BSR [] bits.toNat) := by
  simp [State.jtagExtest, hJtagPins]

/-- The effect of EXTEST_PULSE (R511). -/
theorem State.jtagPulse_eq {bits : BitVec 4096} {s : State} (hJtagPins : (s.jtagPins && s.clocked) = true) :
    s.jtagPulse bits.toNat =
      ((s.freshen.jtagSet 0x07 true (Config.free s.free 0)).wr V.JTAG_BSR [] bits.toNat) := by
  simp [State.jtagPulse, State.jtagLanes, hJtagPins]

/-- The effect of EXTEST_TRAIN (R511). -/
theorem State.jtagTrain_eq {bits : BitVec 4096} {s : State} (hJtagPins : (s.jtagPins && s.clocked) = true) :
    s.jtagTrain bits.toNat =
      ((s.freshen.jtagSet 0x08 true (Config.free s.free 0)).wr V.JTAG_BSR [] bits.toNat) := by
  simp [State.jtagTrain, State.jtagLanes, hJtagPins]

/-- The effect of DBG_REQ (R511). -/
theorem State.jtagReq_eq {bit : Bool} {s : State} (hBit : bit = true) :
    s.jtagReq bit =
      ((s.jtagSet 0x20 true 0).requestD1 true) := by
  simp [State.jtagReq, hBit]

/-- The effect of DBG_TOKEN (R511). -/
theorem State.jtagToken_of_token {token : List Byte} {s : State} (hToken : token = []) :
    s.jtagToken token =
      (s.challengeRead.jtagSet 0x21 true s.challengeRead.challenge) := by
  simp [State.jtagToken, hToken]

theorem State.jtagToken_of_token_ne_jtagTokn_0 {token : List Byte} {s : State} (hToken : token ≠ []) (hJtagTokn : s.rd V.JTAG_TOKN [] = 0) :
    s.jtagToken token =
      (((s.jtagSet 0x21 true 0).wr V.JTAG_TOK [] (ofLE (bytesAt token 0 160))).wr V.JTAG_TOKN [] (1 + token.length)) := by
  have hwait : (s.jtagSet 0x21 true 0).rd V.JTAG_TOKN [] = 0 := (State.rd_wr_ne (by decide) ..).trans hJtagTokn
  simp [State.jtagToken, State.jtagTokenDue, hToken, hwait]

/-- The effect of DBG_ACCESS (R574). -/
theorem State.dbgAccess_of_dbgMay {bits : BitVec 96} {s : State} (hDbgLevelLevel : s.rd
    F.DBG_LEVEL_LEVEL [] ≠ 0) (hDbgaReq : s.rdb V.DBGA_REQ [] = false) (hBadAccess : badAccess (bitsOf bits.toNat 0 28) (if bitOf
    bits.toNat 29 then 8 else 4) = false) (hDbgMay : s.dbgMay (bitsOf bits.toNat 0 28) (bitOf bits.toNat 28) = true) :
    s.dbgAccess bits.toNat =
      (((s.wr V.DBGA_REQ [] (1 + bits.toNat)).wr V.DBGA_GRANT [] s.grantWord).jtagSet 0x22 true
          (s.rd V.DBGA_STATUS [] * 2 ^ 30 + s.rd V.DBGA_DATA [] * 2 ^ 32)) := by
  simp [State.dbgAccess, hDbgLevelLevel, hDbgaReq, hBadAccess, hDbgMay]

theorem State.dbgAccess_of_dbgLevelLevel_ne_not_dbgaReq_dbgMay {bits : BitVec 96} {s : State} (hDbgLevelLevel : s.rd F.DBG_LEVEL_LEVEL [] ≠
    0) (hDbgaReq : s.rdb V.DBGA_REQ [] = false) (hDbgMay : (badAccess (bitsOf bits.toNat 0 28) (if bitOf bits.toNat 29 then 8 else 4) =
    true ∨
        s.dbgMay (bitsOf bits.toNat 0 28) (bitOf bits.toNat 28) = false)) :
    s.dbgAccess bits.toNat =
      ((s.wr V.DBGA_STATUS [] 1).jtagSet 0x22 true (1 * 2 ^ 30 + s.rd V.DBGA_DATA [] * 2 ^ 32)) := by
  simp [State.dbgAccess, State.dbgaShow, hDbgLevelLevel, hDbgaReq, hDbgMay]

theorem State.dbgAccess_of_dbgLevelLevel_ne_dbgaReq {bits : BitVec 96} {s : State} (hDbgLevelLevel : s.rd F.DBG_LEVEL_LEVEL [] ≠ 0)
    (hDbgaReq : s.rdb V.DBGA_REQ [] = true) :
    s.dbgAccess bits.toNat =
      ((s.wr V.DBGA_STATUS [] 3).jtagSet 0x22 true (3 * 2 ^ 30 + s.rd V.DBGA_DATA [] * 2 ^ 32)) := by
  simp [State.dbgAccess, State.dbgaShow, hDbgLevelLevel, hDbgaReq]

theorem State.dbgAccess_of_dbgLevelLevel_0 {bits : BitVec 96} {s : State} (hDbgLevelLevel : s.rd F.DBG_LEVEL_LEVEL [] = 0) :
    s.dbgAccess bits.toNat =
      (s.jtagSet 0xFF true 0) := by
  simp [State.dbgAccess, State.jtagBypass, hDbgLevelLevel]

/-- Settles O21: every clause is the run of its command, whose operation answers the state that the clause writes out. -/
theorem jtagCommandsComplete : Obligations.JtagCommandsComplete := by
  refine ⟨?_, ?_, ?_, ?_, ?_, ?_, ?_, ?_, ?_, ?_, ?_, ?_, ?_, ?_, ?_⟩
  · intro s hup
    exact (exec_bypass ..).trans (State.run_goes rfl hup rfl)
  · intro s hup
    exact (exec_idcode ..).trans (State.run_goes rfl hup rfl)
  · intro bits s hwf hup hJtagD1
    exact (exec_samplePreload ..).trans (State.run_goes hwf hup (State.jtagSample_eq hJtagD1))
  · intro bits s hwf hup hJtagPins
    exact (exec_extest ..).trans (State.run_goes hwf hup (State.jtagExtest_eq hJtagPins))
  · intro bits s hwf hup hJtagPins
    exact (exec_extestPulse ..).trans (State.run_goes hwf hup (State.jtagPulse_eq hJtagPins))
  · intro bits s hwf hup hJtagPins
    exact (exec_extestTrain ..).trans (State.run_goes hwf hup (State.jtagTrain_eq hJtagPins))
  · intro s hup
    exact (exec_clamp ..).trans (State.run_goes rfl hup rfl)
  · intro s hup
    exact (exec_highz ..).trans (State.run_goes rfl hup rfl)
  · intro bit s hwf hup hBit
    exact (exec_dbgReq ..).trans (State.run_goes hwf hup (State.jtagReq_eq hBit))
  · intro token s hwf hup hToken
    exact (exec_dbgToken ..).trans (State.run_goes hwf hup (State.jtagToken_of_token hToken))
  · intro token s hwf hup hToken hJtagTokn
    exact (exec_dbgToken ..).trans (State.run_goes hwf hup (State.jtagToken_of_token_ne_jtagTokn_0 hToken hJtagTokn))
  · intro bits s hwf hup hDbgLevelLevel hDbgaReq hBadAccess hDbgMay
    exact (exec_dbgAccess ..).trans (State.run_goes hwf hup (State.dbgAccess_of_dbgMay hDbgLevelLevel
        hDbgaReq hBadAccess hDbgMay))
  · intro bits s hwf hup hDbgLevelLevel hDbgaReq hDbgMay
    exact (exec_dbgAccess ..).trans (State.run_goes hwf hup (State.dbgAccess_of_dbgLevelLevel_ne_not_dbgaReq_dbgMay hDbgLevelLevel hDbgaReq hDbgMay))
  · intro bits s hwf hup hDbgLevelLevel hDbgaReq
    exact (exec_dbgAccess ..).trans (State.run_goes hwf hup (State.dbgAccess_of_dbgLevelLevel_ne_dbgaReq hDbgLevelLevel hDbgaReq))
  · intro bits s hwf hup hDbgLevelLevel
    exact (exec_dbgAccess ..).trans (State.run_goes hwf hup (State.dbgAccess_of_dbgLevelLevel_0 hDbgLevelLevel))

end Sys2Proof.Machine
end

section
/-! SUPPORT. Completion of the commands of SPDM: what each operation answers in the cases that its statement names. -/

namespace Sys2Proof.Machine

set_option Elab.async false

/-- An SPDM request, once the Yofen runs: its response. -/
theorem State.spdm_of_yofRuns {s : State} (req : Nat) (body : State → List Byte) (h : s.yofDemand.yofRuns = true) :
    s.spdm req body = s.yofDemand.emit (.mctp (0x500 + req) ((body s.yofDemand).map fun b : Byte => b.toNat)) := if_pos h

/-- The effect of GET_VERSION (R507). -/
theorem State.getVersion_eq {s : State} (hYofDemand : s.yofDemand.yofRuns = true) :
    let u := s.yofDemand
    s.getVersion =
      (u.emit (.mctp 1280 ((Config.spdmBody 0).map fun b : Byte => b.toNat))) := by
  exact State.spdm_of_yofRuns _ _ hYofDemand

/-- The effect of GET_CAPABILITIES (R507). -/
theorem State.getCapabilities_eq {s : State} (hYofDemand : s.yofDemand.yofRuns = true) :
    let u := s.yofDemand
    s.getCapabilities =
      (u.emit (.mctp 1281 ((Config.spdmBody 1).map fun b : Byte => b.toNat))) := by
  exact State.spdm_of_yofRuns _ _ hYofDemand

/-- The effect of NEGOTIATE_ALGORITHMS (R507). -/
theorem State.negotiateAlgorithms_eq {s : State} (hYofDemand : s.yofDemand.yofRuns = true) :
    let u := s.yofDemand
    s.negotiateAlgorithms =
      (u.emit (.mctp 1282 ((Config.spdmBody 2).map fun b : Byte => b.toNat))) := by
  exact State.spdm_of_yofRuns _ _ hYofDemand

/-- The effect of GET_DIGESTS (R507). -/
theorem State.getDigests_eq {s : State} (hYofDemand : s.yofDemand.yofRuns = true) :
    let u := s.yofDemand
    s.getDigests =
      (u.emit (.mctp 1283 ((Config.sha256 u.chain).map fun b : Byte => b.toNat))) := by
  exact State.spdm_of_yofRuns _ _ hYofDemand

/-- The effect of GET_CERTIFICATE (R507). -/
theorem State.getCertificate_eq {off len : Nat} {s : State} (hYofDemand : s.yofDemand.yofRuns = true) :
    let u := s.yofDemand
    s.getCertificate off len =
      (u.emit (.mctp 1284 ((bytesAt u.chain off len).map fun b : Byte => b.toNat))) := by
  exact State.spdm_of_yofRuns _ _ hYofDemand

/-- The effect of CHALLENGE (R507). -/
theorem State.spdmChallenge_eq {nonce : List Byte} {s : State} (hYofDemand : s.yofDemand.yofRuns = true) :
    let u := s.yofDemand
    let d := Config.sha256 u.chain
    s.spdmChallenge nonce =
      ((u.emit (.mctp 1285 ((d ++ Config.ecdsaSign identityScalar u.free (d ++ nonce)).map fun b : Byte => b.toNat))).freshen) := by
  simp only [State.spdmChallenge, State.spdm_of_yofRuns _ _ hYofDemand]

/-- The effect of GET_MEASUREMENTS (R507). -/
theorem State.getMeasurements_eq {index : Nat} {nonce : List Byte} {s : State} (hYofDemand : s.yofDemand.yofRuns = true) :
    let u := s.yofDemand
    let ms := if index = 0xFF then (List.range 0x31).flatMap fun i => (u.measure i).getD [] else (u.measure index).getD []
    s.getMeasurements index nonce =
      ((u.emit (.mctp 1286 ((ms ++ Config.ecdsaSign identityScalar u.free (ms ++ nonce)).map fun b : Byte => b.toNat))).freshen) := by
  simp only [State.getMeasurements, State.spdm_of_yofRuns _ _ hYofDemand]

/-- Settles O22: every clause is the run of its command, whose operation answers the state that the clause writes out. -/
theorem spdmCommandsComplete : Obligations.SpdmCommandsComplete := by
  refine ⟨?_, ?_, ?_, ?_, ?_, ?_, ?_⟩
  · intro s hup hYofDemand _
    exact (exec_getVersion ..).trans (State.run_goes rfl hup (State.getVersion_eq hYofDemand))
  · intro s hup hYofDemand _
    exact (exec_getCapabilities ..).trans (State.run_goes rfl hup (State.getCapabilities_eq hYofDemand))
  · intro s hup hYofDemand _
    exact (exec_negotiateAlgorithms ..).trans (State.run_goes rfl hup (State.negotiateAlgorithms_eq hYofDemand))
  · intro s hup hYofDemand _
    exact (exec_getDigests ..).trans (State.run_goes rfl hup (State.getDigests_eq hYofDemand))
  · intro off len s hwf hup hYofDemand _
    exact (exec_getCertificate ..).trans (State.run_goes hwf hup (State.getCertificate_eq hYofDemand))
  · intro nonce s hwf hup hYofDemand _ _
    exact (exec_challenge ..).trans (State.run_goes hwf hup (State.spdmChallenge_eq hYofDemand))
  · intro index nonce s hwf hup hYofDemand _ _
    exact (exec_getMeasurements ..).trans (State.run_goes hwf hup (State.getMeasurements_eq hYofDemand))

end Sys2Proof.Machine
end

section
/-! SUPPORT. Completion of the commands of counters, Tally, the sampler and injection: what each operation answers in the cases that its statement names. -/

namespace Sys2Proof.Machine

set_option Elab.async false

theorem onesOf_zero (n : Nat) : onesOf n 0 = [] := by simp [onesOf, bitOf]

/-- The members of a filtered list, picked out of the list again. -/
theorem filter_contains_filter (l : List Nat) (f : Nat → Bool) : (l.filter fun p => (l.filter f).contains p) = l.filter f := by
  refine List.filter_congr fun x hx => ?_
  rw [Bool.eq_iff_iff, List.contains_iff_mem, List.mem_filter, and_iff_right hx]

/-- With no partition skipped and none waiting from before, the partitions that are due stay. -/
theorem State.tallySweep_of_none_waits {s : State} (due : List Nat) (h : s.rd V.SWEEP_WAIT [] = 0) :
    let ps := (List.range 32).filter fun p => due.contains p && (s.img.brimValid p && s.obs p 0 0 3 % 2 ^ 20 != 0)
    s.tallySweep due [] =
      if s.rd V.SWEEP_PROGS [] ≠ 0 then s.wr V.SWEEP_WAIT [] (maskOf ps)
      else if ps.isEmpty then s
      else (((s.wr V.SWEEP_WAIT [] 0).wr V.SWEEP_PROGS [] (maskOf ps)).wr V.SWEEP_BANKS [] (maskOf (ps.flatMap s.tallyBanks))).wr V.SWEEP_AT []
        (s.rd V.CLK [] + 1) := by
  intro ps
  have hskip : ((List.range 32).filter fun p => ([] : List Nat).contains p && (s.img.brimValid p && s.obs p 0 0 3 % 2 ^ 20 != 0)) = [] := by
    simp
  have hold : ps.filter ([] : List Nat).contains = [] := by simp
  have hall : ((List.range 32).filter fun p => ps.contains p || ([] : List Nat).contains p) = ps := by
    simp only [List.contains_nil, Bool.or_false]
    exact filter_contains_filter _ _
  simp only [tallySweep, hskip, List.foldl_nil, h, onesOf_zero]
  rw [hold, hall]
  rfl

/-- The effect of COUNTER_CLEAR (R563). -/
theorem State.counterClear_eq {value : BitVec 64} {s : State} (hBitOf : bitOf value.toNat 17 = true) (hBitsOf : bitsOf value.toNat 0 9 <
    424) :
    s.counterClear value.toNat =
      ((List.range 8).foldl (fun t i => if bitOf value.toNat (9 + i) then (t.wr (ctrAt (bitsOf value.toNat 0 9) i).1 (ctrAt (bitsOf value.toNat 0 9) i).2.2 0).lower (ctrAt (bitsOf value.toNat 0 9) i).2.1 (ctrAt (bitsOf value.toNat 0 9) i).2.2 else t) s) := by
  simp [State.counterClear, hBitOf, hBitsOf]

/-- The effect of TALLY_SWEEP (R548). -/
theorem State.tallySweep_of_sweepProgs_0_ps_ne {due skipped : List Nat} {s : State} (hSkipped : skipped = []) (hSweepWait : s.rd
    V.SWEEP_WAIT [] = 0) (hSweepProgs : s.rd V.SWEEP_PROGS [] = 0) :
    let on := fun p : Nat => s.img.brimValid p && s.obs p 0 0 3 % 2 ^ 20 != 0
    let ps := (List.range 32).filter fun p => due.contains p && on p
    ps ≠ [] →
    s.tallySweep due skipped =
      ((((s.wr V.SWEEP_WAIT [] 0).wr V.SWEEP_PROGS [] (maskOf ps)).wr V.SWEEP_BANKS [] (maskOf (ps.flatMap s.tallyBanks))).wr V.SWEEP_AT []
          (s.rd V.CLK [] + 1)) := by
  intro on ps hps
  rw [hSkipped, State.tallySweep_of_none_waits due hSweepWait, if_neg (by simpa using hSweepProgs), if_neg fun he => hps (List.isEmpty_iff.1 he)]

theorem State.tallySweep_of_sweepProgs_ne {due skipped : List Nat} {s : State} (hSkipped : skipped = []) (hSweepWait : s.rd V.SWEEP_WAIT []
    = 0) (hSweepProgs : s.rd V.SWEEP_PROGS [] ≠ 0) :
    let on := fun p : Nat => s.img.brimValid p && s.obs p 0 0 3 % 2 ^ 20 != 0
    let ps := (List.range 32).filter fun p => due.contains p && on p
    s.tallySweep due skipped =
      (s.wr V.SWEEP_WAIT [] (maskOf ps)) := by
  rw [hSkipped, State.tallySweep_of_none_waits due hSweepWait, if_pos hSweepProgs]

/-- The effect of INJECT_ENABLE_WRITE (R560). -/
theorem State.injectEnable_of_value_1_dbgLevelLevel_le {value : BitVec 64} {s : State} (hValue : value.toNat % 2 = 1) (hDbgLevelLevel : 1 ≤
    s.rd F.DBG_LEVEL_LEVEL []) :
    s.injectEnable value.toNat =
      (s.hostWr F.ERR_INJ_CTL_EN [] 1) := by
  simp [State.injectEnable, hValue, hDbgLevelLevel]

theorem State.injectEnable_of_value_0 {value : BitVec 64} {s : State} (hValue : value.toNat % 2 = 0) :
    s.injectEnable value.toNat =
      (s.wr F.ERR_INJ_CTL_EN [] 0) := by
  simp [State.injectEnable, hValue]

/-- The effect of ERROR_INJECT (R560). -/
theorem State.errorInject_of_bitOf_injFields {value : BitVec 64} {s : State} (hBitOf : bitOf value.toNat 17 = true) (hDetInjected :
    detInjected (bitsOf value.toNat 0 8) = true) (hBitOf2 : bitOf value.toNat 16 = true) (hInjFields : (s.injFields value.toNat).injAllowed
    true ((s.injFields value.toNat).injOwner (bitsOf value.toNat 0 8) (min 4 (bitsOf value.toNat 8 3)) (bitsOf value.toNat 11 5) (bitsOf
    value.toNat 32 32)) (detSevere (bitsOf value.toNat 0 8) (bitsOf value.toNat 32 32)) = true) :
    let u := s.injFields value.toNat
    s.errorInject value.toNat =
      ((u.raise F.ERR_INJ_STAT_FIRED []).freshen.err { det := bitsOf value.toNat 0 8, sev := u.injSeverity (bitsOf value.toNat 0 8), part := bitsOf value.toNat 11 5, quad := min 4 (bitsOf value.toNat 8 3), unit := bitsOf value.toNat 32 32, inj := true }) := by
  intro u
  simp [State.errorInject, hBitOf, hDetInjected, hBitOf2, hInjFields, u]

theorem State.errorInject_of_not_bitOf_detFull_injFields {value : BitVec 64} {s : State} (hBitOf : bitOf value.toNat 17 = true)
    (hDetInjected : detInjected (bitsOf value.toNat 0 8) = true) (hBitOf2 : bitOf value.toNat 16 = false) (hDetFull : detFull (bitsOf
    value.toNat 0 8) = true) (hInjFields : (s.injFields value.toNat).injAllowed false ((s.injFields value.toNat).injOwner (bitsOf
    value.toNat 0 8) (min 4 (bitsOf value.toNat 8 3)) (bitsOf value.toNat 11 5) (bitsOf value.toNat 32 32)) (detSevere (bitsOf value.toNat
    0 8) (bitsOf value.toNat 32 32)) = true) :
    let u := s.injFields value.toNat
    s.errorInject value.toNat =
      ((u.injArm 1 (bitsOf value.toNat 0 8) (min 4 (bitsOf value.toNat 8 3)) (bitsOf value.toNat 11 5) (bitsOf value.toNat 32 32)).injNow (bitsOf value.toNat 0 8) (min 4 (bitsOf value.toNat 8 3)) (bitsOf value.toNat 11 5) (bitsOf value.toNat 32 32)) := by
  intro u
  simp [State.errorInject, hBitOf, hDetInjected, hBitOf2, hDetFull, hInjFields, u]

/-- Settles O23: every clause is the run of its command, whose operation answers the state that the clause writes out. -/
theorem obsCommandsComplete : Obligations.ObsCommandsComplete := by
  refine ⟨?_, ?_, ?_, ?_, ?_, ?_, ?_, ?_⟩
  · intro value s hwf hup hBitOf hBitsOf
    exact (exec_counterClear ..).trans (State.run_goes hwf hup (State.counterClear_eq hBitOf hBitsOf))
  · intro due skipped s hwf hup hSkipped hSweepWait hSweepProgs _ _ hPs
    exact (exec_tallySweep ..).trans (State.run_goes hwf hup (State.tallySweep_of_sweepProgs_0_ps_ne hSkipped hSweepWait hSweepProgs hPs))
  · intro due skipped s hwf hup hSkipped hSweepWait hSweepProgs _ _
    exact (exec_tallySweep ..).trans (State.run_goes hwf hup (State.tallySweep_of_sweepProgs_ne hSkipped hSweepWait hSweepProgs))
  · intro q value s hwf hup _ _ _
    exact (exec_samplerCtlWrite ..).trans (State.run_goes hwf hup rfl)
  · intro value s hwf hup hValue hDbgLevelLevel
    exact (exec_injectEnableWrite ..).trans (State.run_goes hwf hup (State.injectEnable_of_value_1_dbgLevelLevel_le hValue hDbgLevelLevel))
  · intro value s hwf hup hValue
    exact (exec_injectEnableWrite ..).trans (State.run_goes hwf hup (State.injectEnable_of_value_0 hValue))
  · intro value s hwf hup hBitOf hDetInjected hBitOf2 hInjFields _
    exact (exec_errorInject ..).trans (State.run_goes hwf hup (State.errorInject_of_bitOf_injFields hBitOf hDetInjected hBitOf2 hInjFields))
  · intro value s hwf hup hBitOf hDetInjected hBitOf2 hDetFull hInjFields _
    exact (exec_errorInject ..).trans (State.run_goes hwf hup (State.errorInject_of_not_bitOf_detFull_injFields hBitOf hDetInjected hBitOf2 hDetFull
        hInjFields))

end Sys2Proof.Machine
end

section
/-! SUPPORT. What an operation may change, as a scope: a set of parts of the state, of register fields and of rings.  `State.Within M s t` says
that from s to t nothing outside the scope M changes, that the memories keep their form, and that HBM changes only within the rings that M names. -/

namespace Sys2Proof.Machine

set_option Elab.async false

/-! ## Scopes -/

/-- A set of parts, fields and rings, one bit for each: the field of number i has bit 2 i, and the odd bits stand for the parts and the rings. -/
abbrev Scope := Nat

/-- The bytes of completion queues. -/
def cqBytes : Scope := 2 ^ 3

/-- The bytes of error rings. -/
def ringBytes : Scope := 2 ^ 5

/-- The rollback floors: counters 0 and 1 of boot flash (R493). -/
def floorCtrs : Scope := 2 ^ 63

/-- The registers at large. -/
def anyReg : Scope := 2 ^ 65

/-- The bits of a part.  HBM has three: bytes at large, bytes of completion queues and bytes of error rings. -/
def Part.bits : Part → Scope
  | .hbm => 2 ^ 1 ||| cqBytes ||| ringBytes
  | .img => 2 ^ 7 | .flash => 2 ^ 9 | .badSectors => 2 ^ 11 | .staging => 2 ^ 13 | .bufs => 2 ^ 15 | .reasm => 2 ^ 17 | .svc => 2 ^ 19
  | .mitEgress => 2 ^ 21 | .parkQ => 2 ^ 23 | .movCmds => 2 ^ 25 | .mit => 2 ^ 27 | .notices => 2 ^ 29 | .slots => 2 ^ 31 | .slab => 2 ^ 33
  | .waits => 2 ^ 35 | .admMsgs => 2 ^ 37 | .pagerOp => 2 ^ 39 | .insts => 2 ^ 41 | .trigOps => 2 ^ 43 | .cqWait => 2 ^ 45
  | .psBuf => 2 ^ 47 | .handoffs => 2 ^ 49 | .upd => 2 ^ 51 | .errDue => 2 ^ 53 | .errLog => 2 ^ 55 | .hatLog => 2 ^ 57 | .out => 2 ^ 59
  | .free => 2 ^ 61

/-- The bits of a field; those of the flash counters hold the floors. -/
def Fld.bits (f : Fld) : Scope := 2 ^ (2 * f.id) ||| bif f.id == V.FLASH_CTR.id then floorCtrs else 0

/-- Every field of the model, and the registers at large; not the floors. -/
def everyField : Scope := (2 ^ 2600 - 1) / 3 ||| anyReg

/-- The scope of parts and fields. -/
def scope (ps : List Part) (fs : List Fld) : Scope :=
  fs.foldr (fun f m => f.bits ||| m) (ps.foldr (fun p m => p.bits ||| m) 0)

/-- A scope lies within another. -/
def Scope.le (a b : Scope) : Bool := a &&& b == a

/-- Two scopes share nothing. -/
def Scope.apart (a b : Scope) : Bool := a &&& b == 0

/-- The fields that say where the bytes of rings lie: the mapping of extents, and the bases, sizes and places of the rings. -/
def placeFields : List Fld :=
  [F.HBM_EXTENT_REMAPPED, F.SEQ_CQ_CTL_HOST, F.SEQ_CQ_CTL_LOG2SIZE, F.SEQ_CQ_BASE_ADDR, F.MOV_CQ_CTL_HOST, F.MOV_CQ_CTL_LOG2SIZE,
   F.MOV_CQ_BASE_ADDR, F.ERR_RING_CTL_EN, F.ERR_RING_CTL_HOST, F.ERR_RING_CTL_LOG2SIZE, F.ERR_RING_BASE_ADDR]

/-- What decides where the bytes of rings lie, and HBM bytes at large: a scope apart from it keeps every byte outside its rings. -/
def placeScope : Scope := scope [.img] placeFields ||| 2 ^ 1 ||| anyReg

namespace Scope

variable {a b c : Scope}

theorem le_iff : a.le b = true ↔ a &&& b = a := by simp [le]

theorem apart_iff : a.apart b = true ↔ a &&& b = 0 := by simp [apart]

theorem le_refl : a.le a = true := le_iff.2 (Nat.and_self a)

theorem le_trans (h : a.le b = true) (k : b.le c = true) : a.le c = true := by
  rw [le_iff] at *
  rw [← h, Nat.land_assoc, k]

/-- A scope that lies within a part of another. -/
theorem part (h : b.le c = true) (k : a.le b = true := by decide +kernel) : a.le c = true := le_trans k h

theorem apart_comm : a.apart b = b.apart a := by simp [apart, Nat.land_comm]

theorem apart_of_le (h : a.le b = true) (k : b.apart c = true) : a.apart c = true := by
  rw [le_iff] at h
  rw [apart_iff] at *
  rw [← h, Nat.land_assoc, k, Nat.and_zero]

theorem not_apart_of_le (h : a.le b = true) (k : a.apart c = false) : b.apart c = false := by
  cases hb : b.apart c
  · rfl
  · rw [apart_of_le h hb] at k
    cases k

/-- A bit of one of two scopes that share nothing is none of the other. -/
theorem apart_bit (h : a.apart b = true) {i : Nat} (hb : b.testBit i = true) : a.testBit i = false := by
  rw [apart_iff] at h
  simpa [hb] using congrArg (Nat.testBit · i) h

theorem apart_of_bits (h : ∀ i, b.testBit i = true → a.testBit i = false) : a.apart b = true := by
  rw [apart_iff]
  refine Nat.eq_of_testBit_eq fun i => ?_
  cases hb : b.testBit i <;> simp [hb]
  exact h i hb

theorem testBit_of_le (h : a.le b = true) {i : Nat} (ha : a.testBit i = true) : b.testBit i = true := by
  rw [le_iff] at h
  rw [← h] at ha
  simp only [Nat.testBit_and, Bool.and_eq_true] at ha
  exact ha.2

/-- Members of a list whose scopes are joined. -/
theorem testBit_foldr {α : Type} (f : α → Scope) (l : List α) (z : Scope) (i : Nat) :
    (l.foldr (fun x m => f x ||| m) z).testBit i = (l.any (fun x => (f x).testBit i) || z.testBit i) := by
  induction l with
  | nil => rfl
  | cons x r ih => simp only [List.foldr_cons, Nat.testBit_or, List.any_cons, ih, Bool.or_assoc]

theorem testBit_scope (ps : List Part) (fs : List Fld) (i : Nat) :
    (scope ps fs).testBit i = (fs.any (fun f => f.bits.testBit i) || ps.any (fun p => p.bits.testBit i)) := by
  simp only [scope, testBit_foldr, Nat.zero_testBit, Bool.or_false]

end Scope

/-! ## Within a scope -/

/-- From s to t the queue is kept, nothing changes but the parts and the fields of M, the memories keep their form, and, where M lies apart from what
says where rings lie, every byte of HBM outside the rings that M names keeps its value. -/
structure State.Within (M : Scope) (s t : State) : Prop where
  queue : t.pending = s.pending
  parts : ∀ p : Part, M.apart p.bits = true → s.same t p
  regs : M.apart anyReg = true → ∀ (f : Fld) (ix : List Nat), M.apart f.bits = true → t.rd f ix = s.rd f ix
  floors : M.apart floorCtrs = true → ∀ i, i < 2 → t.rd V.FLASH_CTR [i] = s.rd V.FLASH_CTR [i]
  form : s.memWf = true → t.memWf = true
  bytes : M.apart placeScope = true →
    s.bytesBut (fun a => (M.apart cqBytes = false ∧ s.inCompletionQueue a) ∨ (M.apart ringBytes = false ∧ s.inErrRing a)) t

variable {M N : Scope} {s t u : State}

namespace State

theorem same_refl (s : State) (p : Part) : s.same s p := by cases p <;> rfl

theorem same_trans {p : Part} (h : s.same t p) (k : t.same u p) : s.same u p := by
  cases p <;> exact Eq.trans k h

theorem bytesBut_of_hbm {w : Nat → Prop} (h : t.hbm = s.hbm) : s.bytesBut w t := fun _ _ => by rw [h]

/-! ### The places of rings depend on the images and on the fields listed -/

theorem place_congr (hi : t.img = s.img) (hr : ∀ ix, t.rd F.HBM_EXTENT_REMAPPED ix = s.rd F.HBM_EXTENT_REMAPPED ix) (p a n : Nat) :
    t.place p a n = s.place p a n := by
  have hext : t.extentOf = s.extentOf := by
    funext q e
    simp only [extentOf, hi, rdb, hr]
    rfl
  simp only [place, locate, extents, hext]

section Places

variable (hi : t.img = s.img) (hf : ∀ f ∈ placeFields, ∀ ix, t.rd f ix = s.rd f ix)

include hi hf

theorem inRing_congr (f base log2 entry a : Nat) : t.inRing f base log2 entry a ↔ s.inRing f base log2 entry a := by
  simp only [inRing, place_congr hi (hf F.HBM_EXTENT_REMAPPED (by simp [placeFields]))]

theorem inErrRing_congr (a : Nat) : t.inErrRing a ↔ s.inErrRing a := by
  simp only [inErrRing, rdb, inRing_congr hi hf, hf F.ERR_RING_CTL_EN (by simp [placeFields]), hf F.ERR_RING_CTL_HOST (by simp [placeFields]),
    hf F.ERR_RING_BASE_ADDR (by simp [placeFields]), hf F.ERR_RING_CTL_LOG2SIZE (by simp [placeFields])]

theorem inCompletionQueue_congr (a : Nat) : t.inCompletionQueue a ↔ s.inCompletionQueue a := by
  simp only [inCompletionQueue, rdb, inRing_congr hi hf, hf F.SEQ_CQ_CTL_HOST (by simp [placeFields]),
    hf F.SEQ_CQ_BASE_ADDR (by simp [placeFields]), hf F.SEQ_CQ_CTL_LOG2SIZE (by simp [placeFields]),
    hf F.MOV_CQ_CTL_HOST (by simp [placeFields]), hf F.MOV_CQ_BASE_ADDR (by simp [placeFields]),
    hf F.MOV_CQ_CTL_LOG2SIZE (by simp [placeFields])]

end Places

namespace Within

theorem refl : s.Within M s :=
  ⟨rfl, fun p _ => s.same_refl p, fun _ _ _ _ => rfl, fun _ _ _ => rfl, id, fun _ => bytesBut_of_hbm rfl⟩

theorem bits_of_placed : ∀ f ∈ placeFields, f.bits.le placeScope = true := by decide +kernel

theorem img_of_placed (h : s.Within M t) (k : M.apart placeScope = true) : t.img = s.img :=
  h.parts .img (Scope.apart_comm.trans (Scope.apart_of_le (b := placeScope) (by decide +kernel) (Scope.apart_comm.trans k)))

theorem rd_of_placed (h : s.Within M t) (k : M.apart placeScope = true) (f : Fld) (hf : f ∈ placeFields) (ix : List Nat) :
    t.rd f ix = s.rd f ix :=
  h.regs (Scope.apart_comm.trans (Scope.apart_of_le (b := placeScope) (by decide +kernel) (Scope.apart_comm.trans k))) f ix (Scope.apart_comm.trans (Scope.apart_of_le (bits_of_placed f hf) (Scope.apart_comm.trans k)))

theorem trans (h : s.Within M t) (k : t.Within M u) : s.Within M u where
  queue := k.queue.trans h.queue
  parts p hp := same_trans (h.parts p hp) (k.parts p hp)
  regs hM f ix hf := (k.regs hM f ix hf).trans (h.regs hM f ix hf)
  floors hM i hi := (k.floors hM i hi).trans (h.floors hM i hi)
  form w := k.form (h.form w)
  bytes hM a ha := by
    refine (k.bytes hM a fun hw => ha ?_).trans (h.bytes hM a ha)
    dsimp only at hw
    rwa [inCompletionQueue_congr (h.img_of_placed hM) (h.rd_of_placed hM), inErrRing_congr (h.img_of_placed hM) (h.rd_of_placed hM)] at hw

/-- A greater scope. -/
theorem mono (h : s.Within N t) (hm : N.le M = true) : s.Within M t where
  queue := h.queue
  parts p hp := h.parts p (Scope.apart_of_le hm hp)
  regs hM f ix hf := h.regs (Scope.apart_of_le hm hM) f ix (Scope.apart_of_le hm hf)
  floors hM := h.floors (Scope.apart_of_le hm hM)
  form := h.form
  bytes hM a ha := h.bytes (Scope.apart_of_le hm hM) a fun hw => ha
    (hw.imp (fun x => ⟨Scope.not_apart_of_le hm x.1, x.2⟩) (fun x => ⟨Scope.not_apart_of_le hm x.1, x.2⟩))

/-- An operation within a scope of its own, after what lies within a greater one.  The proof for the operation begins at the state it is applied to. -/
theorem andThen (h : s.Within M t) (hm : N.le M = true) (k : t.Within N t → t.Within N u) : s.Within M u :=
  h.trans ((k refl).mono hm)

theorem ite {c : Prop} [Decidable c] {a b : State} (h : s.Within M a) (k : s.Within M b) : s.Within M (if c then a else b) := by
  split <;> assumption

theorem dite {c : Prop} [Decidable c] {a : c → State} {b : ¬c → State} (h : ∀ e, s.Within M (a e)) (k : ∀ e, s.Within M (b e)) :
    s.Within M (if e : c then a e else b e) := by
  split
  · exact h _
  · exact k _

/-- A loop whose every turn stays within. -/
theorem foldl {α : Type} {g : State → α → State} {l : List α} (h : s.Within M t) (H : ∀ u x, s.Within M u → s.Within M (g u x)) :
    s.Within M (l.foldl g t) := by
  induction l generalizing t with
  | nil => exact h
  | cons a r ih => exact ih (H t a h)

/-- A loop whose every turn, for a member of the list, stays within. -/
theorem foldl_mem {α : Type} {g : State → α → State} {l : List α} (h : s.Within M t)
    (H : ∀ u x, x ∈ l → s.Within M u → s.Within M (g u x)) : s.Within M (l.foldl g t) := by
  induction l generalizing t with
  | nil => exact h
  | cons a r ih => exact ih (H t a (.head _) h) fun u x hx => H u x (.tail _ hx)

/-- A loop over a state and a running value. -/
theorem foldl_fst {α β : Type} {g : State × β → α → State × β} {l : List α} {b : β} (h : s.Within M t)
    (H : ∀ u x, s.Within M u.1 → s.Within M (g u x).1) : s.Within M (l.foldl g (t, b)).1 := by
  induction l generalizing t b with
  | nil => exact h
  | cons a r ih => exact ih (H (t, b) a h)

/-- The first of a pair that is named. -/
theorem of_fst {α : Type} {p : State × α} {x : α} (h : s.Within M p.1) (e : p = (u, x)) : s.Within M u := by
  subst e
  exact h

theorem of_some {v : State} (h : s.Within M v) (e : some v = some u) : s.Within M u := Option.some.inj e ▸ h

theorem getD {o : Option State} (h : s.Within M t) (H : ∀ u, o = some u → s.Within M u) : s.Within M (o.getD t) := by
  cases o with
  | none => exact h
  | some u => exact H u rfl

/-! ### Single parts -/

/-- What keeps the registers, the queue and the memories, and the parts outside a scope, stays within it. -/
theorem of_parts (h : s.Within M t) (hq : u.pending = t.pending) (hr : u.regs = t.regs) (hm : u.hbm = t.hbm) (hf : u.flash = t.flash) (hi : u.img = t.img)
    (hp : ∀ p : Part, M.apart p.bits = true → t.same u p) : s.Within M u :=
  h.trans ⟨hq, hp, fun _ f ix _ => by rw [rd, rd, hr], fun _ i _ => by rw [rd, rd, hr], memWf_of_same hm hf hi, fun _ => bytesBut_of_hbm hm⟩

end Within
end State

/-- A part whose bits a scope holds is not one that the scope lies apart from. -/
theorem Part.not_apart {p : Part} (hp : p.bits.le M = true) (k : M.apart p.bits = true) : False := by
  rw [Scope.le_iff] at hp
  rw [Scope.apart_iff, Nat.land_comm, hp] at k
  cases p <;> revert k <;> decide +kernel

namespace State.Within

/-- A change of several parts at once. -/
theorem manyParts (h : s.Within M t) (ps : List Part)
    (k : u.pending = t.pending ∧ u.regs = t.regs ∧ u.hbm = t.hbm ∧ u.flash = t.flash ∧ u.img = t.img := by exact ⟨rfl, rfl, rfl, rfl, rfl⟩)
    (hp : ∀ p, p ∉ ps → t.same u p := by intro p hp; cases p <;> simp at hp <;> exact rfl)
    (hm : (scope ps []).le M = true := by decide +kernel) : s.Within M u := by
  obtain ⟨hq, hr, hb, hf, hi⟩ := k
  refine h.of_parts hq hr hb hf hi fun p ha => hp p fun hmem => ?_
  refine Part.not_apart (Scope.le_trans ?_ hm) ha
  rw [Scope.le_iff]
  refine Nat.eq_of_testBit_eq fun i => ?_
  rw [Nat.testBit_and, Scope.testBit_scope]
  cases hbit : p.bits.testBit i
  · rfl
  · rw [List.any_eq_true.2 ⟨p, hmem, hbit⟩, Bool.or_true]
    rfl

theorem badSectors {x : SMap Nat} (h : s.Within M t) (hp : Part.badSectors.bits.le M = true := by decide +kernel) : s.Within M { t with badSectors := x } :=
  h.of_parts rfl rfl rfl rfl rfl fun p k => by
    cases p
    case badSectors => exact (Part.not_apart hp k).elim
    all_goals rfl

theorem staging {x : SMap (List Held)} (h : s.Within M t) (hp : Part.staging.bits.le M = true := by decide +kernel) : s.Within M { t with staging := x } :=
  h.of_parts rfl rfl rfl rfl rfl fun p k => by
    cases p
    case staging => exact (Part.not_apart hp k).elim
    all_goals rfl

theorem bufs {x : SMap (List Held)} (h : s.Within M t) (hp : Part.bufs.bits.le M = true := by decide +kernel) : s.Within M { t with bufs := x } :=
  h.of_parts rfl rfl rfl rfl rfl fun p k => by
    cases p
    case bufs => exact (Part.not_apart hp k).elim
    all_goals rfl

theorem reasm {x : SMap (List Reas)} (h : s.Within M t) (hp : Part.reasm.bits.le M = true := by decide +kernel) : s.Within M { t with reasm := x } :=
  h.of_parts rfl rfl rfl rfl rfl fun p k => by
    cases p
    case reasm => exact (Part.not_apart hp k).elim
    all_goals rfl

theorem svc {x : SMap (List Held)} (h : s.Within M t) (hp : Part.svc.bits.le M = true := by decide +kernel) : s.Within M { t with svc := x } :=
  h.of_parts rfl rfl rfl rfl rfl fun p k => by
    cases p
    case svc => exact (Part.not_apart hp k).elim
    all_goals rfl

theorem mitEgress {x : SMap (List Reas)} (h : s.Within M t) (hp : Part.mitEgress.bits.le M = true := by decide +kernel) : s.Within M { t with mitEgress := x } :=
  h.of_parts rfl rfl rfl rfl rfl fun p k => by
    cases p
    case mitEgress => exact (Part.not_apart hp k).elim
    all_goals rfl

theorem parkQ {x : SMap (List Parked)} (h : s.Within M t) (hp : Part.parkQ.bits.le M = true := by decide +kernel) : s.Within M { t with parkQ := x } :=
  h.of_parts rfl rfl rfl rfl rfl fun p k => by
    cases p
    case parkQ => exact (Part.not_apart hp k).elim
    all_goals rfl

theorem movCmds {x : SMap (List Nat)} (h : s.Within M t) (hp : Part.movCmds.bits.le M = true := by decide +kernel) : s.Within M { t with movCmds := x } :=
  h.of_parts rfl rfl rfl rfl rfl fun p k => by
    cases p
    case movCmds => exact (Part.not_apart hp k).elim
    all_goals rfl

theorem mit {x : SMap Round} (h : s.Within M t) (hp : Part.mit.bits.le M = true := by decide +kernel) : s.Within M { t with mit := x } :=
  h.of_parts rfl rfl rfl rfl rfl fun p k => by
    cases p
    case mit => exact (Part.not_apart hp k).elim
    all_goals rfl

theorem notices {x : List NoticeCopy} (h : s.Within M t) (hp : Part.notices.bits.le M = true := by decide +kernel) : s.Within M { t with notices := x } :=
  h.of_parts rfl rfl rfl rfl rfl fun p k => by
    cases p
    case notices => exact (Part.not_apart hp k).elim
    all_goals rfl

theorem slots {x : SMap Slot} (h : s.Within M t) (hp : Part.slots.bits.le M = true := by decide +kernel) : s.Within M { t with slots := x } :=
  h.of_parts rfl rfl rfl rfl rfl fun p k => by
    cases p
    case slots => exact (Part.not_apart hp k).elim
    all_goals rfl

theorem slab {x : SMap Nat} (h : s.Within M t) (hp : Part.slab.bits.le M = true := by decide +kernel) : s.Within M { t with slab := x } :=
  h.of_parts rfl rfl rfl rfl rfl fun p k => by
    cases p
    case slab => exact (Part.not_apart hp k).elim
    all_goals rfl

theorem waits {x : SMap (List WaitItem)} (h : s.Within M t) (hp : Part.waits.bits.le M = true := by decide +kernel) : s.Within M { t with waits := x } :=
  h.of_parts rfl rfl rfl rfl rfl fun p k => by
    cases p
    case waits => exact (Part.not_apart hp k).elim
    all_goals rfl

theorem admMsgs {x : List AdmMsg} (h : s.Within M t) (hp : Part.admMsgs.bits.le M = true := by decide +kernel) : s.Within M { t with admMsgs := x } :=
  h.of_parts rfl rfl rfl rfl rfl fun p k => by
    cases p
    case admMsgs => exact (Part.not_apart hp k).elim
    all_goals rfl

theorem pagerOp {x : SMap PagerOp} (h : s.Within M t) (hp : Part.pagerOp.bits.le M = true := by decide +kernel) : s.Within M { t with pagerOp := x } :=
  h.of_parts rfl rfl rfl rfl rfl fun p k => by
    cases p
    case pagerOp => exact (Part.not_apart hp k).elim
    all_goals rfl

theorem insts {x : SMap Inst} (h : s.Within M t) (hp : Part.insts.bits.le M = true := by decide +kernel) : s.Within M { t with insts := x } :=
  h.of_parts rfl rfl rfl rfl rfl fun p k => by
    cases p
    case insts => exact (Part.not_apart hp k).elim
    all_goals rfl

theorem trigOps {x : SMap (List TrigOp)} (h : s.Within M t) (hp : Part.trigOps.bits.le M = true := by decide +kernel) : s.Within M { t with trigOps := x } :=
  h.of_parts rfl rfl rfl rfl rfl fun p k => by
    cases p
    case trigOps => exact (Part.not_apart hp k).elim
    all_goals rfl

theorem cqWait {x : SMap (List Nat)} (h : s.Within M t) (hp : Part.cqWait.bits.le M = true := by decide +kernel) : s.Within M { t with cqWait := x } :=
  h.of_parts rfl rfl rfl rfl rfl fun p k => by
    cases p
    case cqWait => exact (Part.not_apart hp k).elim
    all_goals rfl

theorem psBuf {x : SMap (List Nat)} (h : s.Within M t) (hp : Part.psBuf.bits.le M = true := by decide +kernel) : s.Within M { t with psBuf := x } :=
  h.of_parts rfl rfl rfl rfl rfl fun p k => by
    cases p
    case psBuf => exact (Part.not_apart hp k).elim
    all_goals rfl

theorem handoffs {x : SMap (List Handoff)} (h : s.Within M t) (hp : Part.handoffs.bits.le M = true := by decide +kernel) : s.Within M { t with handoffs := x } :=
  h.of_parts rfl rfl rfl rfl rfl fun p k => by
    cases p
    case handoffs => exact (Part.not_apart hp k).elim
    all_goals rfl

theorem upd {x : SMap UpdChunk} (h : s.Within M t) (hp : Part.upd.bits.le M = true := by decide +kernel) : s.Within M { t with upd := x } :=
  h.of_parts rfl rfl rfl rfl rfl fun p k => by
    cases p
    case upd => exact (Part.not_apart hp k).elim
    all_goals rfl

theorem errDue {x : List ErrInfo} (h : s.Within M t) (hp : Part.errDue.bits.le M = true := by decide +kernel) : s.Within M { t with errDue := x } :=
  h.of_parts rfl rfl rfl rfl rfl fun p k => by
    cases p
    case errDue => exact (Part.not_apart hp k).elim
    all_goals rfl

theorem errLog {x : List Nat} (h : s.Within M t) (hp : Part.errLog.bits.le M = true := by decide +kernel) : s.Within M { t with errLog := x } :=
  h.of_parts rfl rfl rfl rfl rfl fun p k => by
    cases p
    case errLog => exact (Part.not_apart hp k).elim
    all_goals rfl

theorem hatLog {x : List Nat} (h : s.Within M t) (hp : Part.hatLog.bits.le M = true := by decide +kernel) : s.Within M { t with hatLog := x } :=
  h.of_parts rfl rfl rfl rfl rfl fun p k => by
    cases p
    case hatLog => exact (Part.not_apart hp k).elim
    all_goals rfl

theorem out {x : List Out} (h : s.Within M t) (hp : Part.out.bits.le M = true := by decide +kernel) : s.Within M { t with out := x } :=
  h.of_parts rfl rfl rfl rfl rfl fun p k => by
    cases p
    case out => exact (Part.not_apart hp k).elim
    all_goals rfl

theorem free {x : Nat} (h : s.Within M t) (hp : Part.free.bits.le M = true := by decide +kernel) : s.Within M { t with free := x } :=
  h.of_parts rfl rfl rfl rfl rfl fun p k => by
    cases p
    case free => exact (Part.not_apart hp k).elim
    all_goals rfl

end State.Within

end Sys2Proof.Machine
end

section
/-! SUPPORT. The stores to registers, memories and images, and what each keeps within a scope. -/

namespace Sys2Proof.Machine

set_option Elab.async false

variable {M N : Scope} {s t u : State}

namespace State.Within

/-! ### Registers -/

/-- A change of the registers alone, which keeps every field that the scope does not hold. -/
theorem of_regs {m : SMap Nat} (h : s.Within M t)
    (hr : M.apart anyReg = true → ∀ (f : Fld) (ix : List Nat), M.apart f.bits = true → ({ t with regs := m } : State).rd f ix = t.rd f ix)
    (hf : M.apart floorCtrs = true → ∀ i, i < 2 → ({ t with regs := m } : State).rd V.FLASH_CTR [i] = t.rd V.FLASH_CTR [i]) :
    s.Within M { t with regs := m } :=
  h.trans ⟨rfl, fun p _ => by cases p <;> rfl, hr, hf, id, fun _ => bytesBut_of_hbm rfl⟩

/-- The bit of a field's number. -/
theorem bit_of_bits (f : Fld) : f.bits.testBit (2 * f.id) = true := by
  rw [Fld.bits, Nat.testBit_or, Nat.testBit_two_pow_self, Bool.true_or]

/-- A field whose bit a scope holds is not one that the scope lies apart from. -/
theorem ne_of_apart {f g : Fld} (hf : M.testBit (2 * f.id) = true) (k : M.apart g.bits = true) : g.id ≠ f.id := by
  intro e
  rw [Scope.apart_bit k (i := 2 * f.id) (e ▸ bit_of_bits g)] at hf
  cases hf

/-- A scope with the floors' field is not one that lies apart from the floors. -/
theorem floors_of_apart {f : Fld} (hf : f.bits.le M = true) (k : M.apart floorCtrs = true) : f.id ≠ V.FLASH_CTR.id := by
  intro e
  have hb : f.bits.testBit 63 = true := by
    rw [Fld.bits, e, Nat.testBit_or, Bool.or_eq_true]
    exact .inr (by decide)
  have := Scope.testBit_of_le hf hb
  rw [Scope.apart_bit k (by decide)] at this
  cases this

/-- A store to a field that the scope holds. -/
theorem wr {f : Fld} {ix : List Nat} {n : Nat} (h : s.Within M t) (hf : f.bits.le M = true := by decide +kernel) : s.Within M (t.wr f ix n) :=
  h.of_regs (fun _ _ _ k => rd_wr_ne (ne_of_apart (Scope.testBit_of_le hf (bit_of_bits f)) k) ..)
    (fun k _ _ => rd_wr_ne (floors_of_apart hf k).symm ..)

/-- A store to a counter of boot flash that is no floor. -/
theorem wr_flashCtr {i n : Nat} (h : s.Within M t) (hi : 2 ≤ i) (hf : M.testBit (2 * V.FLASH_CTR.id) = true := by decide +kernel) :
    s.Within M (t.wr V.FLASH_CTR [i] n) :=
  h.of_regs (fun _ _ _ k => rd_wr_ne (ne_of_apart hf k) ..)
    (fun _ j hj => rd_wr_other (f := V.FLASH_CTR) (g := V.FLASH_CTR) (by simp only [ne_eq, List.cons.injEq, true_and, and_true]; omega) ..)

theorem raise {f : Fld} {ix : List Nat} (h : s.Within M t) (hf : f.bits.le M = true := by decide +kernel)
    (hr : V.RAISED.bits.le M = true := by decide +kernel) : s.Within M (t.raise f ix) := (h.wr hf).wr hr

theorem lower {f : Fld} {ix : List Nat} (h : s.Within M t) (hf : f.bits.le M = true := by decide +kernel) : s.Within M (t.lower f ix) :=
  ite h (h.wr hf)

theorem hostWr {f : Fld} {ix : List Nat} {v : Nat} (h : s.Within M t) (hf : f.bits.le M = true := by decide +kernel)
    (hr : V.HOST_W.bits.le M = true := by decide +kernel) : s.Within M (t.hostWr f ix v) := (h.wr hf).wr hr

theorem hwWr {f : Fld} {ix : List Nat} {v : Nat} (h : s.Within M t) (hf : f.bits.le M = true := by decide +kernel) : s.Within M (t.hwWr f ix v) :=
  ite h (h.wr hf)

theorem wrK {f : Fld} {ix : List Nat} {v : Nat} (h : s.Within M t) (hf : f.bits.le M = true := by decide +kernel)
    (hr : V.RWK_OLD.bits.le M = true := by decide +kernel) : s.Within M (t.wrK f ix v) := (ite h (h.wr hr)).wr hf

theorem bump {f : Fld} {ix : List Nat} {n : Nat} (h : s.Within M t) (hf : f.bits.le M = true := by decide +kernel) : s.Within M (t.bump f ix n) :=
  h.wr hf

theorem bumpSat {f : Fld} {ix : List Nat} {n : Nat} (h : s.Within M t) (hf : f.bits.le M = true := by decide +kernel) :
    s.Within M (t.bumpSat f ix n) := h.wr hf

theorem bumpOvf {f ovf : Fld} {ix : List Nat} {n : Nat} (h : s.Within M t) (hf : f.bits.le M = true := by decide +kernel)
    (ho : ovf.bits.le M = true := by decide +kernel) (hr : V.RAISED.bits.le M = true := by decide +kernel) : s.Within M (t.bumpOvf f ovf ix n) :=
  ite (h.wr hf) ((h.wr hf).raise ho hr)

theorem bits_le_scope {f : Fld} {ps : List Part} {fs : List Fld} (hf : f ∈ fs) : f.bits.le (scope ps fs) = true := by
  rw [Scope.le_iff]
  refine Nat.eq_of_testBit_eq fun i => ?_
  rw [Nat.testBit_and, Scope.testBit_scope]
  cases hb : f.bits.testBit i
  · rfl
  · rw [List.any_eq_true.2 ⟨f, hf, hb⟩]
    rfl

/-- A store to some field, in a scope of the registers at large with the floors. -/
theorem wrAny {f : Fld} {ix : List Nat} {n : Nat} (h : s.Within M t) (ha : (anyReg ||| floorCtrs).le M = true := by decide +kernel) :
    s.Within M (t.wr f ix n) := by
  have apart : ∀ a, a ≠ 0 → a.le (anyReg ||| floorCtrs) = true → M.apart a ≠ true := fun a hne hle k => by
    have := Scope.le_trans hle ha
    rw [Scope.le_iff] at this
    rw [Scope.apart_iff, Nat.land_comm, this] at k
    exact hne k
  exact h.of_regs (fun k => absurd k (apart _ (by decide) (by decide +kernel))) (fun k => absurd k (apart _ (by decide) (by decide +kernel)))

/-- A store to one of a list of fields that the scope holds. -/
theorem wrMem {f : Fld} {ix : List Nat} {n : Nat} (h : s.Within M t) (fs : List Fld) (hm : f ∈ fs)
    (hf : (scope [] fs).le M = true := by decide +kernel) : s.Within M (t.wr f ix n) := h.wr (Scope.le_trans (bits_le_scope hm) hf)

theorem resetFields {fs : List Fld} {ix : List Nat} (h : s.Within M t) (hf : (scope [] fs).le M = true := by decide +kernel) :
    s.Within M (t.resetFields fs ix) := by
  unfold State.resetFields
  have H : ∀ gs : List Fld, (∀ g ∈ gs, g ∈ fs) → ∀ v, s.Within M v → s.Within M (gs.foldl (fun t f => t.wr f ix f.reset) v) := by
    intro gs
    induction gs with
    | nil => exact fun _ _ hv => hv
    | cons g r ih =>
      exact fun hg v hv => ih (fun x hx => hg x (.tail _ hx)) _ (hv.wr (Scope.le_trans (bits_le_scope (hg g (.head _))) hf))
  exact H fs (fun _ hg => hg) t h

/-- A field at an index whose key the test of a removal passes by keeps its value. -/
theorem rd_eraseIf {p : Key → Nat → Bool} {f : Fld} {ix : List Nat} (hp : ∀ v, p (f.id :: ix) v = false) :
    ({ t with regs := SMap.eraseIf p t.regs } : State).rd f ix = t.rd f ix := by
  simp only [rd, SMap.get, SMap.find_eraseIf_of_kept hp]

/-- Entries removed whose field numbers are those of a list. -/
theorem eraseIf {p : Key → Nat → Bool} (fs : List Fld) (h : s.Within M t) (hp : ∀ k v, p k v = true → ∃ f ∈ fs, k.head? = some f.id)
    (hf : (scope [] fs).le M = true := by decide +kernel) : s.Within M { t with regs := SMap.eraseIf p t.regs } := by
  have pass : ∀ (g : Fld) (ix : List Nat), (∀ f ∈ fs, g.id ≠ f.id) → ∀ v, p (g.id :: ix) v = false := fun g ix hg v => by
    cases e : p (g.id :: ix) v
    · rfl
    · obtain ⟨f, hm, hk⟩ := hp _ _ e
      exact absurd (Option.some.inj hk) (hg f hm)
  refine h.of_regs (fun _ g ix k => rd_eraseIf (pass g ix fun f hm => ?_)) (fun k i _ => rd_eraseIf (pass _ _ fun f hm => ?_))
  · exact ne_of_apart (Scope.testBit_of_le (Scope.le_trans (bits_le_scope hm) hf) (bit_of_bits f)) k
  · exact (floors_of_apart (Scope.le_trans (bits_le_scope hm) hf) k).symm

/-- Entries removed by a test that passes by every field but those of a list. -/
theorem eraseRegs {p : Nat → List Nat → Bool} (fs : List Fld) (h : s.Within M t) (hp : ∀ i ix, (∀ f ∈ fs, i ≠ f.id) → p i ix = false)
    (hf : (scope [] fs).le M = true := by decide +kernel) : s.Within M (t.eraseRegs p) := by
  refine h.eraseIf fs (fun k v e => ?_) hf
  cases k with
  | nil => cases e
  | cons i ix =>
    by_contra hn
    push Not at hn
    exact Bool.eq_false_iff.1 (hp i ix fun f hm hi => hn f hm (congrArg some hi)) e

theorem clearAt {q : Nat} {fs : List Fld} (h : s.Within M t) (hf : (scope [] fs).le M = true := by decide +kernel) : s.Within M (t.clearAt q fs) :=
  h.eraseRegs fs (fun i ix hn => by
    rw [Bool.and_eq_false_iff, Bool.eq_false_iff]
    exact .inl fun e => by
      obtain ⟨f, hm, hi⟩ := List.mem_map.1 (List.contains_iff_mem.1 e)
      exact hn f hm hi.symm) hf

theorem emit {o : Out} (h : s.Within M t) (hp : Part.out.bits.le M = true := by decide +kernel) : s.Within M (t.emit o) := h.out hp

theorem freshen (h : s.Within M t) (hp : Part.free.bits.le M = true := by decide +kernel) : s.Within M t.freshen := h.free hp

theorem runOf {f : Fld} {q k bound : Nat} {more : Bool} (h : s.Within M t) (hf : f.bits.le M = true := by decide +kernel) :
    s.Within M (t.runOf f q k bound more) := h.wr hf

theorem showEx {f : Fld} {ix : List Nat} {x : Ex} (h : s.Within M t) (hf : f.bits.le M = true := by decide +kernel)
    (hp : Part.free.bits.le M = true := by decide +kernel) : s.Within M (t.showEx f ix x) := (h.freshen hp).wr hf

theorem show32 {f : Fld} {ix : List Nat} {v k : Nat} (h : s.Within M t) (hf : f.bits.le M = true := by decide +kernel)
    (hp : Part.free.bits.le M = true := by decide +kernel) : s.Within M (t.show32 f ix v k) := by
  unfold State.show32
  split
  · exact h.showEx hf hp
  · exact h.wr hf

theorem ledgerAdd {f : Fld} {ix : List Nat} {x : Int} (h : s.Within M t) (hf : f.bits.le M = true := by decide +kernel) :
    s.Within M (t.ledgerAdd f ix x).1 := h.wr hf

/-! ### Images and memories -/

/-- A change of images: a scope that holds them says nothing of the places of rings. -/
theorem img {x : Images} (h : s.Within M t) (hx : t.img.mem.wf = true → x.mem.wf = true) (hp : Part.img.bits.le M = true := by decide +kernel) :
    s.Within M { t with img := x } := by
  refine h.trans ⟨rfl, fun p k => ?_, fun _ _ _ _ => rfl, fun _ _ _ => rfl, fun w => ?_, fun k => ?_⟩
  · cases p
    case img => exact (Part.not_apart hp k).elim
    all_goals rfl
  · simp only [memWf, Bool.and_eq_true] at w ⊢
    exact ⟨w.1, hx w.2⟩
  · exact (Part.not_apart hp (Scope.apart_comm.trans (Scope.apart_of_le (b := placeScope) (by decide +kernel) (Scope.apart_comm.trans k)))).elim

/-- A change of boot flash. -/
theorem flash {x : Mem} (h : s.Within M t) (hx : t.flash.wf = true → x.wf = true) (hp : Part.flash.bits.le M = true := by decide +kernel) :
    s.Within M { t with flash := x } := by
  refine h.trans ⟨rfl, fun p k => ?_, fun _ _ _ _ => rfl, fun _ _ _ => rfl, fun w => ?_, fun _ => bytesBut_of_hbm rfl⟩
  · cases p
    case flash => exact (Part.not_apart hp k).elim
    all_goals rfl
  · simp only [memWf, Bool.and_eq_true] at w ⊢
    exact ⟨⟨w.1.1, hx w.1.2⟩, w.2⟩

theorem flashPut {a : Nat} {bs : List Byte} (h : s.Within M t) (hp : Part.flash.bits.le M = true := by decide +kernel) :
    s.Within M (t.flashPut a bs) := h.flash (Mem.wf_writeN bs a _) hp

/-- A change of HBM bytes that the places of rings hold. -/
theorem hbmRing {x : Mem} (h : s.Within M t) (hp : ∀ p : Part, p = .hbm → M.apart p.bits = false) (hx : t.hbm.wf = true → x.wf = true)
    (hb : ∀ a, ¬((M.apart cqBytes = false ∧ t.inCompletionQueue a) ∨ (M.apart ringBytes = false ∧ t.inErrRing a)) → Mem.read a x = Mem.read a t.hbm) :
    s.Within M { t with hbm := x } := by
  refine h.trans ⟨rfl, fun p k => ?_, fun _ _ _ _ => rfl, fun _ _ _ => rfl, fun w => ?_, fun _ => hb⟩
  · cases p
    case hbm =>
      rw [hp _ rfl] at k
      cases k
    all_goals rfl
  · simp only [memWf, Bool.and_eq_true] at w ⊢
    exact ⟨⟨hx w.1.1, w.1.2⟩, w.2⟩

/-- A change of HBM bytes at large. -/
theorem hbm {x : Mem} (h : s.Within M t) (hx : t.hbm.wf = true → x.wf = true) (hp : Part.hbm.bits.le M = true := by decide +kernel) :
    s.Within M { t with hbm := x } := by
  refine h.trans ⟨rfl, fun p k => ?_, fun _ _ _ _ => rfl, fun _ _ _ => rfl, fun w => ?_, fun k => ?_⟩
  · cases p
    case hbm => exact (Part.not_apart hp k).elim
    all_goals rfl
  · simp only [memWf, Bool.and_eq_true] at w ⊢
    exact ⟨⟨hx w.1.1, w.1.2⟩, w.2⟩
  · have := Scope.apart_of_le (Scope.le_trans (a := 2 ^ 1) (by decide +kernel) hp) k
    exact absurd this (by decide +kernel)

end State.Within

end Sys2Proof.Machine
end

section
/-! SUPPORT. What each operation of the model may change: for each, a scope put together from the scopes of the operations that it calls, and the
lemma that the operation stays within it. -/

namespace Sys2Proof.Machine

set_option Elab.async false

variable {M N : Scope} {s t u : State}

namespace State

def injUpdateScope : Scope := scope [] [V.INJ_STOP]

theorem Within.injUpdate {q o c : Nat} (h : s.Within M t) (hm : injUpdateScope.le M = true := by decide +kernel) :
    s.Within M (t.injUpdate q o c) := by
  refine h.andThen hm fun h => ?_
  unfold State.injUpdate
  extract_lets
  exact .ite h.wr (.ite h.wr h)

/-- What extending shared credits may change. -/
def extendScope : Scope := scope [] [V.LNK_LIMIT]

theorem Within.extend {q k v n : Nat} (h : s.Within M t) (hm : extendScope.le M = true := by decide +kernel) : s.Within M (t.extend q k v n) := by
  induction n generalizing t with
  | zero => exact h
  | succ n ih =>
    unfold State.extend
    exact .ite (ih (h.bump (Scope.part hm))) h

def grantScope : Scope := scope [] [V.LNK_LIMIT] ||| extendScope

theorem Within.grant {q k v : Nat} (h : s.Within M t) (hm : grantScope.le M = true := by decide +kernel) : s.Within M (t.grant q k v) := by
  refine h.andThen hm fun h => ?_
  unfold State.grant
  extract_lets _ _ s1
  have hs1 : t.Within grantScope s1 := .ite h.bump h
  exact .ite h (.ite (.ite h (.ite h.bump h)) hs1.extend)

def stageScope : Scope := scope [.staging] [V.PKT_UID]

theorem Within.stage {q i : Nat} {k : Packet} {origin hop arrive sender : Nat} {ready : List Nat} {ds : List Dest} (h : s.Within M t)
    (hm : stageScope.le M = true := by decide +kernel) : s.Within M (t.stage q i k origin hop arrive sender ready ds) := by
  refine h.andThen hm fun h => ?_
  unfold State.stage
  extract_lets _ _ _ s1
  have hs1 : t.Within stageScope s1 := h.wr
  exact hs1.staging

def countLocalScope : Scope := scope [] [F.CTR_VAL_COUNT, F.CTR_VAL_OVF, V.RAISED]

theorem Within.countLocal {q b code part n : Nat} (h : s.Within M t) (hm : countLocalScope.le M = true := by decide +kernel) :
    s.Within M (t.countLocal q b code part n) := by
  refine h.andThen hm fun h => ?_
  unfold State.countLocal
  exact h.foldl (fun _ _ hu => .ite hu.bumpOvf hu)

def countLegacyScope : Scope := scope [] [F.CTR_LEG_VAL_COUNT, F.CTR_LEG_VAL_OVF, V.RAISED]

theorem Within.countLegacy {code n : Nat} (h : s.Within M t) (hm : countLegacyScope.le M = true := by decide +kernel) :
    s.Within M (t.countLegacy code n) := by
  refine h.andThen hm fun h => ?_
  unfold State.countLegacy
  exact h.foldl (fun _ _ hu => .ite hu.bumpOvf hu)

def countDiscardScope : Scope := scope [] [F.XPT_DISC_COUNT, F.XPT_DISC_OVF, V.RTR_DISC] ||| countLocalScope ||| countLegacyScope

theorem Within.countDiscard {q port part : Nat} {c : Cause} (h : s.Within M t) (hm : countDiscardScope.le M = true := by decide +kernel) :
    s.Within M (t.countDiscard q port part c) := by
  refine h.andThen hm fun h => ?_
  unfold State.countDiscard
  extract_lets s1 s2 s3 s4
  have hs1 : t.Within countDiscardScope s1 := h.bumpOvf
  have hs2 : t.Within countDiscardScope s2 := .ite hs1.countLocal hs1
  have hs3 : t.Within countDiscardScope s3 := .ite hs2.bump hs2
  have hs4 : t.Within countDiscardScope s4 := hs3.countLegacy
  exact .ite hs4.countLegacy hs4

def sendScope : Scope := countDiscardScope ||| stageScope

theorem Within.send {q port sender : Nat} {k : Packet} (h : s.Within M t) (hm : sendScope.le M = true := by decide +kernel) :
    s.Within M (t.send q port sender k) := by
  refine h.andThen hm fun h => ?_
  unfold State.send
  extract_lets s1 s2
  have hs1 : t.Within sendScope s1 := h.foldl (fun _ _ hu => hu.countDiscard)
  have hs2 : t.Within sendScope s2 := .ite hs1.countLocal hs1
  split
  · exact .ite hs2 hs2.stage
  · exact h.countDiscard

def nackScope : Scope := sendScope

theorem Within.nack {q : Nat} {k : Packet} {code : Nat} (h : s.Within M t) (hm : nackScope.le M = true := by decide +kernel) :
    s.Within M (t.nack q k code) := by
  refine h.andThen hm fun h => ?_
  unfold State.nack
  exact .ite h.send h

def discardScope : Scope := nackScope

theorem Within.discard {q port : Nat} {k : Packet} {c : Cause} (h : s.Within M t) (hm : discardScope.le M = true := by decide +kernel) :
    s.Within M (t.discard q port k c) := by
  refine h.andThen hm fun h => ?_
  unfold State.discard
  extract_lets s1
  have hs1 : t.Within discardScope s1 := h.countDiscard
  split
  · exact hs1.nack
  · exact hs1

def mitPutScope : Scope := scope [.mitEgress] [V.PKT_UID] ||| countLocalScope

theorem Within.mitPut {k : Packet} {origin inPort sender : Nat} {d : Dest} (h : s.Within M t)
    (hm : mitPutScope.le M = true := by decide +kernel) : s.Within M (t.mitPut k origin inPort sender d) := by
  refine h.andThen hm fun h => ?_
  unfold State.mitPut
  extract_lets _ _ s1 s2
  have hs1 : t.Within mitPutScope s1 := h.wr
  have hs2 : t.Within mitPutScope s2 := .ite hs1.countLocal hs1
  exact hs2.mitEgress

def flushMitScope : Scope := scope [] [F.COR_PORT_FLUSHED] ||| mitPutScope ||| discardScope

theorem Within.flushMit {q k : Nat} {r : Reas} (h : s.Within M t) (hm : flushMitScope.le M = true := by decide +kernel) :
    s.Within M (t.flushMit q k r) := by
  refine h.andThen hm fun h => ?_
  unfold State.flushMit
  extract_lets s1
  have hs1 : t.Within flushMitScope s1 := h.bump
  split
  · exact hs1.countDiscard
  · split
    · exact .ite hs1.mitPut hs1.discard
    · exact hs1.discard

def linkedScope : Scope := scope [] [F.COR_QDEPTH_PEAK] ||| injUpdateScope

theorem Within.linked {q o c : Nat} (h : s.Within M t) (hm : linkedScope.le M = true := by decide +kernel) : s.Within M (t.linked q o c)
    := by
  refine h.andThen hm fun h => ?_
  unfold State.linked
  extract_lets _ s1
  have hs1 : t.Within linkedScope s1 := .ite h.wr h
  exact hs1.injUpdate

def relinkScope : Scope := scope [.bufs] [V.LINK_SEQ] ||| linkedScope

theorem Within.relink {q : Nat} {h' : Held} {c : Copy} (h : s.Within M t) (hm : relinkScope.le M = true := by decide +kernel) :
    s.Within M (t.relink q h' c) := by
  refine h.andThen hm fun h => ?_
  unfold State.relink
  extract_lets _ _ _ s1
  have hs1 : t.Within relinkScope s1 := h.wr
  exact hs1.bufs.linked

def flushOneScope : Scope := scope [] [F.COR_PORT_FLUSHED] ||| discardScope

theorem Within.flushOne {q k : Nat} {h' : Held} {c : Copy} (h : s.Within M t) (hm : flushOneScope.le M = true := by decide +kernel) :
    s.Within M ((t.flushOne q k h' c).1) := by
  refine h.andThen hm fun h => ?_
  unfold State.flushOne
  extract_lets counted
  have hcounted : t.Within flushOneScope counted := h.bump
  split
  · dsimp only
    exact hcounted.countDiscard
  · split
    · exact hcounted
    · dsimp only
      exact hcounted.discard

def mapPacketScope : Scope := scope [.staging, .bufs, .reasm, .svc] []

theorem Within.mapPacket {u' : Nat} {f : Packet → Packet} {g : List Nat → List Nat} (h : s.Within M t)
    (hm : mapPacketScope.le M = true := by decide +kernel) : s.Within M (t.mapPacket u' f g) := by
  refine h.andThen hm fun h => ?_
  unfold State.mapPacket
  extract_lets
  exact h.manyParts [.staging, .bufs, .reasm, .svc]

def cutIngressScope : Scope := scope [] [V.INGRESS_OPEN] ||| mapPacketScope

theorem Within.cutIngress {q k : Nat} (h : s.Within M t) (hm : cutIngressScope.le M = true := by decide +kernel) :
    s.Within M (t.cutIngress q k) := by
  refine h.andThen hm fun h => ?_
  unfold State.cutIngress
  extract_lets
  exact .ite h.wr.mapPacket h

def portFlushScope : Scope := scope [] [F.COR_PORT_FLUSHING, F.COR_PORT_OPEN] ||| cutIngressScope ||| flushOneScope ||| relinkScope
  ||| flushMitScope ||| grantScope

theorem Within.portFlush {q k : Nat} (h : s.Within M t) (hm : portFlushScope.le M = true := by decide +kernel) :
    s.Within M (t.portFlush q k) := by
  refine h.andThen hm fun h => ?_
  unfold State.portFlush
  extract_lets s1 _ _ _ s2 s3 s4 s5
  have hs1 : t.Within portFlushScope s1 := h.wr.wr.cutIngress
  have hs2 : t.Within portFlushScope s2 := hs1.manyParts [.bufs, .reasm, .mitEgress]
  have hs3 : t.Within portFlushScope s3 := by
    unfold s3
    refine hs2.foldl fun _ _ hu4 => by
      split
      · next u _ e =>
          have hu5 : t.Within portFlushScope u := hu4.flushOne.of_fst e
          exact hu5.relink
      · next u e =>
          have hu6 : t.Within portFlushScope u := hu4.flushOne.of_fst e
          exact hu6
  have hs4 : t.Within portFlushScope s4 := hs3.foldl (fun _ _ hu3 => hu3.flushMit)
  have hs5 : t.Within portFlushScope s5 := hs4.foldl (fun _ _ hu2 => hu2.grant)
  exact hs5.foldl (fun _ _ hu => hu.injUpdate)

def rxBeginScope : Scope := scope [] [V.RX_CW, V.RX_LEFT, V.RX_LCF_BAD, V.RX_CW_RUN, V.RX_LCF_RUN, V.RX_OK_RUN, V.LNK_LOST_BOUND]

theorem Within.rxBegin {q k : Nat} (h : s.Within M t) (hm : rxBeginScope.le M = true := by decide +kernel) : s.Within M (t.rxBegin q k)
    := by
  refine h.andThen hm fun h => ?_
  unfold State.rxBegin
  exact h.foldl_mem fun _ _ hx hu =>
    hu.wrMem [V.RX_CW, V.RX_LEFT, V.RX_LCF_BAD, V.RX_CW_RUN, V.RX_LCF_RUN, V.RX_OK_RUN, V.LNK_LOST_BOUND] hx

def errScope : Scope := scope [.errDue] [F.ERR_DET_COUNT, F.ERR_DET_OVF, V.RAISED, V.LT_BAD]

theorem Within.err {e0 : ErrInfo} (h : s.Within M t) (hm : errScope.le M = true := by decide +kernel) : s.Within M (t.err e0) := by
  refine h.andThen hm fun h => ?_
  unfold State.err
  extract_lets _ s1 s2
  have hs1 : t.Within errScope s1 := h.bumpOvf
  have hs2 : t.Within errScope s2 := .ite hs1.wr hs1
  exact hs2.errDue

def lnkRecordScope : Scope := errScope

theorem Within.lnkRecord {q k det sev cause : Nat} {inj : Bool} (h : s.Within M t) (hm : lnkRecordScope.le M = true := by decide +kernel) :
    s.Within M (t.lnkRecord q k det sev cause inj) := by
  refine h.andThen hm fun h => ?_
  unfold State.lnkRecord
  exact h.err

def setLnkScope : Scope := scope [] [F.LNK_PORT_STAT_STATE]

theorem Within.setLnk {q k st : Nat} (h : s.Within M t) (hm : setLnkScope.le M = true := by decide +kernel) : s.Within M (t.setLnk q k st)
    := by
  refine h.andThen hm fun h => ?_
  unfold State.setLnk
  exact h.wr

def linkDownScope : Scope := scope [] [F.LNK_PORT_STAT_PEER_RX_OK, F.LNK_PORT_STAT_DOWN_CAUSE, V.LNK_QUIET_REQ, V.LNK_COUNTDOWN,
  F.LNK_PORT_STAT_LANES, V.LNK_P2] ||| setLnkScope ||| lnkRecordScope ||| rxBeginScope ||| portFlushScope

theorem Within.linkDown {q k cause : Nat} (h : s.Within M t) (hm : linkDownScope.le M = true := by decide +kernel) :
    s.Within M (t.linkDown q k cause) := by
  refine h.andThen hm fun h => ?_
  unfold State.linkDown
  extract_lets _ s1 s2 s3 s4
  have hs1 : t.Within linkDownScope s1 := h.setLnk.wr.wr
  have hs2 : t.Within linkDownScope s2 := .ite hs1.lnkRecord hs1
  have hs3 : t.Within linkDownScope s3 := hs2.wr.wr.wr
  have hs4 : t.Within linkDownScope s4 := hs3.rxBegin.wr
  exact .ite h (.ite hs4.portFlush hs4)

def mitOutScope : Scope := mitPutScope

theorem Within.mitOut {q port : Nat} {k : Packet} (h : s.Within M t) (hm : mitOutScope.le M = true := by decide +kernel) :
    s.Within M (t.mitOut q port k) := by
  refine h.andThen hm fun h => ?_
  unfold State.mitOut
  exact h.mitPut

def noticeOnScope : Scope := scope [.notices] [] ||| mitOutScope

theorem Within.noticeOn {kind level reason ports seq n : Nat} (h : s.Within M t) (hm : noticeOnScope.le M = true := by decide +kernel) :
    s.Within M (t.noticeOn kind level reason ports seq n) := by
  refine h.andThen hm fun h => ?_
  unfold State.noticeOn
  extract_lets _ _ t1
  have ht1 : t.Within noticeOnScope t1 := h.mitOut
  exact ht1.notices

def noticeScope : Scope := scope [] [V.NOTICE_SEQ, F.MIT_STAT_COUNT, F.MIT_STAT_OVF] ||| noticeOnScope

theorem Within.notice {kind level reason : Nat} {ns : List Nat} (h : s.Within M t) (hm : noticeScope.le M = true := by decide +kernel) :
    s.Within M (t.notice kind level reason ns) := by
  refine h.andThen hm fun h => ?_
  unfold State.notice
  extract_lets _ _ _ s1
  have hs1 : t.Within noticeScope s1 := h.foldl (fun _ _ hu => hu.noticeOn)
  exact .ite h (.ite h hs1.bumpOvf.wr)

def restoreScope : Scope := scope [] [V.WITHDRAWN] ||| noticeScope

theorem Within.restore {ns : List Nat} {reason : Nat} (h : s.Within M t) (hm : restoreScope.le M = true := by decide +kernel) :
    s.Within M (t.restore ns reason) := by
  refine h.andThen hm fun h => ?_
  unfold State.restore
  extract_lets
  exact (h.foldl (fun _ _ hu => hu.wr)).notice

def frameBeginScope : Scope := scope [.out] [V.LCF_CMD, V.QUIET_FRAMES, V.LNK_COUNTDOWN]

theorem Within.frameBegin {q k n : Nat} (h : s.Within M t) (hm : frameBeginScope.le M = true := by decide +kernel) :
    s.Within M (t.frameBegin q k n) := by
  refine h.andThen hm fun h => ?_
  unfold State.frameBegin
  extract_lets s1 s2
  have hs1 : t.Within frameBeginScope s1 := h.emit.wr
  have hs2 : t.Within frameBeginScope s2 := .ite hs1.wr hs1
  exact .ite hs2.wr hs2

def framesBeginScope : Scope := scope [] [V.TX_NEXT, V.TX_BASE, V.TX_TIME] ||| frameBeginScope

theorem Within.framesBegin {q k : Nat} (h : s.Within M t) (hm : framesBeginScope.le M = true := by decide +kernel) :
    s.Within M (t.framesBegin q k) := by
  refine h.andThen hm fun h => ?_
  unfold State.framesBegin
  extract_lets
  exact h.wr.wr.wr.frameBegin

def wakeUpScope : Scope := framesBeginScope ||| rxBeginScope ||| setLnkScope

theorem Within.wakeUp {q k : Nat} (h : s.Within M t) (hm : wakeUpScope.le M = true := by decide +kernel) : s.Within M (t.wakeUp q k) := by
  refine h.andThen hm fun h => ?_
  unfold State.wakeUp
  exact h.setLnk.wr.rxBegin.framesBegin

def countModuleScope : Scope := scope [] [F.CTRM_VAL_COUNT, F.CTRM_VAL_OVF, V.RAISED]

theorem Within.countModule {m code part n : Nat} (h : s.Within M t) (hm : countModuleScope.le M = true := by decide +kernel) :
    s.Within M (t.countModule m code part n) := by
  refine h.andThen hm fun h => ?_
  unfold State.countModule
  exact h.foldl (fun _ _ hu => .ite hu.bumpOvf hu)

def hostFailScope : Scope := scope [] [F.PCI_FN_STAT_FAILS, F.PCI_FN_STAT_HOSTFAIL] ||| countModuleScope

theorem Within.hostFail {f : Nat} (h : s.Within M t) (hm : hostFailScope.le M = true := by decide +kernel) : s.Within M (t.hostFail f)
    := by
  refine h.andThen hm fun h => ?_
  unfold State.hostFail
  exact h.raise.bump.countModule

def tlpScope : Scope := scope [.out] [] ||| countModuleScope

theorem Within.tlp {o : Out} (h : s.Within M t) (hm : tlpScope.le M = true := by decide +kernel) : s.Within M (t.tlp o) := by
  refine h.andThen hm fun h => ?_
  unfold State.tlp
  exact h.emit.countModule

def msixScope : Scope := scope [] [V.MSIX_PEND] ||| tlpScope

theorem Within.msix {f v : Nat} (h : s.Within M t) (hm : msixScope.le M = true := by decide +kernel) : s.Within M (t.msix f v) := by
  refine h.andThen hm fun h => ?_
  unfold State.msix
  exact .ite h.wr (.ite h.tlp h)

def raiseVec1Scope : Scope := scope [] [V.VEC1_DUE, V.VEC1_TIME] ||| msixScope

theorem Within.raiseVec1 {f : Nat} (h : s.Within M t) (hm : raiseVec1Scope.le M = true := by decide +kernel) : s.Within M (t.raiseVec1 f)
    := by
  refine h.andThen hm fun h => ?_
  unfold State.raiseVec1
  exact .ite h.msix.wr.wr h.wr

def injFiredScope : Scope := scope [] [F.ERR_INJ_STAT_FIRED, V.RAISED, F.ERR_INJ_STAT_ARMED, V.INJ_KIND]

theorem Within.injFired (h : s.Within M t) (hm : injFiredScope.le M = true := by decide +kernel) : s.Within M (t.injFired) := by
  refine h.andThen hm fun h => ?_
  unfold State.injFired
  exact h.wr.wr.raise

def injFlipScope : Scope := scope [.badSectors] [] ||| injFiredScope

theorem Within.injFlip {stack dev : Nat} (h : s.Within M t) (hm : injFlipScope.le M = true := by decide +kernel) :
    s.Within M (t.injFlip stack dev) := by
  refine h.andThen hm fun h => ?_
  unfold State.injFlip
  extract_lets
  exact (Within.ite h.badSectors h).injFired

/-- A byte of HBM that lies in one of the rings that a scope names. -/
def ringByte (M : Scope) (s : State) (a : Nat) : Prop :=
  (M.apart cqBytes = false ∧ s.inCompletionQueue a) ∨ (M.apart ringBytes = false ∧ s.inErrRing a)

/-- What a write into a ring may change beside the bytes. -/
def storeScope : Scope := injFlipScope

/-- A change of HBM bytes, all of them in rings of the state that the chain begins at. -/
theorem Within.hbmIn {x : Mem} (h : s.Within M t) (hp : M.apart Part.hbm.bits = false) (hx : t.hbm.wf = true → x.wf = true)
    (hb : M.apart placeScope = true → ∀ a, ¬ ringByte M s a → Mem.read a x = Mem.read a t.hbm) : s.Within M { t with hbm := x } := by
  obtain ⟨hqueue, hparts, hregs, hfloors, hform, hbytes⟩ := h
  refine ⟨hqueue, fun p k => ?_, hregs, hfloors, fun w => ?_, fun k a ha => (hb k a ha).trans (hbytes k a ha)⟩
  · have hsame := hparts p k
    cases p
    case hbm =>
      rw [hp] at k
      cases k
    all_goals exact hsame
  · have w := hform w
    simp only [memWf, Bool.and_eq_true] at w ⊢
    exact ⟨⟨hx w.1.1, w.1.2⟩, w.2⟩

theorem Within.devWriteIn {stack dev : Nat} {bs : List Byte} (h : s.Within M t) (hp : M.apart Part.hbm.bits = false)
    (hs : storeScope.le M = true) (hb : M.apart placeScope = true → ∀ i, i < bs.length → ringByte M s (hbmKey stack dev + i)) :
    s.Within M (t.devWrite stack dev bs) := by
  unfold State.devWrite
  extract_lets stored _ _ clean
  have hstored : s.Within M stored := by
    refine h.hbmIn hp (Mem.wf_writeN bs _ _) fun k a ha => Mem.read_writeN_other bs _ a _ ?_
    by_contra hin
    rw [not_or, not_lt, not_le] at hin
    refine ha ?_
    have := hb k (a - hbmKey stack dev) (by omega)
    rwa [Nat.add_sub_cancel' hin.1] at this
  have hclean : s.Within M clean := hstored.badSectors (Scope.le_trans (by decide +kernel) hs)
  exact .ite h (.ite (hclean.injFlip hs) hclean)

/-- What a device write may change. -/
def devWriteScope : Scope := scope [.hbm] [] ||| storeScope

theorem Within.devWrite {stack dev : Nat} {bs : List Byte} (h : s.Within M t) (hm : devWriteScope.le M = true := by decide +kernel) :
    s.Within M (t.devWrite stack dev bs) :=
  h.andThen hm fun h => h.devWriteIn (by decide +kernel) (by decide +kernel) fun k => absurd k (by decide +kernel)

theorem Within.writePlacesIn {l : List (Loc × Nat)} {bs : List Byte} (h : s.Within M t) (hp : M.apart Part.hbm.bits = false)
    (hs : storeScope.le M = true) (hb : M.apart placeScope = true → ∀ a ∈ placeKeys l, ringByte M s a) : s.Within M (t.writePlaces l bs) := by
  induction l generalizing t bs with
  | nil => exact h
  | cons pc r ih =>
    unfold State.writePlaces
    have hcons : ∀ a, a ∈ placeKeys (pc :: r) ↔ (∃ i, i < pc.2 ∧ hbmKey pc.1.stack pc.1.dev + i = a) ∨ a ∈ placeKeys r := fun a => by
      simp only [placeKeys, List.flatMap_cons, List.mem_append, List.mem_map, List.mem_range]
    refine ih (h.devWriteIn hp hs fun k i hi => hb k _ ((hcons _).2 (.inl ⟨i, ?_, rfl⟩))) fun k a ha => hb k a ((hcons a).2 (.inr ha))
    rw [List.length_take] at hi
    omega

def writePlacesScope : Scope := devWriteScope

theorem Within.writePlaces {l : List (Loc × Nat)} {bs : List Byte} (h : s.Within M t) (hm : writePlacesScope.le M = true := by decide +kernel) :
    s.Within M (t.writePlaces l bs) :=
  h.andThen hm fun h => h.writePlacesIn (by decide +kernel) (by decide +kernel) fun k => absurd k (by decide +kernel)

def countGrantScope : Scope := countLocalScope

theorem Within.countGrant {q l r x part n : Nat} (h : s.Within M t) (hm : countGrantScope.le M = true := by decide +kernel) :
    s.Within M (t.countGrant q l r x part n) := by
  refine h.andThen hm fun h => ?_
  unfold State.countGrant
  exact .ite h.countLocal h.countLocal.countLocal.countLocal

def countBeatScope : Scope := countGrantScope

theorem Within.countBeat {code part stack n : Nat} (h : s.Within M t) (hm : countBeatScope.le M = true := by decide +kernel) :
    s.Within M (t.countBeat code part stack n) := by
  refine h.andThen hm fun h => ?_
  unfold State.countBeat
  extract_lets
  exact .ite h h.countLocal.countGrant

def countBeatsScope : Scope := countBeatScope

theorem Within.countBeats {code part : Nat} {ps : List (Loc × Nat)} (h : s.Within M t)
    (hm : countBeatsScope.le M = true := by decide +kernel) : s.Within M (t.countBeats code part ps) := by
  refine h.andThen hm fun h => ?_
  unfold State.countBeats
  exact h.foldl (fun _ _ hu => .ite hu hu.countBeat)

/-- What a write into a ring in HBM may change beside the bytes. -/
def memStoreScope : Scope := storeScope ||| countBeatsScope

theorem Within.memWriteIn {part a : Nat} {bs : List Byte} (h : s.Within M t) (hp : M.apart Part.hbm.bits = false) (hs : memStoreScope.le M = true)
    (hb : M.apart placeScope = true → ∀ ps, t.place part a bs.length = some ps → ∀ a ∈ placeKeys ps, ringByte M s a)
    (e : t.memWrite part a bs = some u) : s.Within M u := by
  unfold State.memWrite at e
  split at e
  · cases e
  · next ps hplace =>
    split at e
    · exact Within.of_some ((h.writePlacesIn hp (Scope.le_trans (by decide +kernel) hs) fun k => hb k ps hplace).countBeats
        (Scope.le_trans (by decide +kernel) hs)) e
    · cases e

def memWriteScope : Scope := scope [.hbm] [] ||| memStoreScope

theorem Within.memWrite {part a : Nat} {bs : List Byte} (h : s.Within M t) (hm : memWriteScope.le M = true := by decide +kernel)
    (e : t.memWrite part a bs = some u) : s.Within M u :=
  h.andThen hm fun h => h.memWriteIn (by decide +kernel) (by decide +kernel) (fun k => absurd k (by decide +kernel)) e

/-- What a record written to a ring may change beside the bytes. -/
def ringStoreScope : Scope := memStoreScope ||| tlpScope

theorem Within.ringWriteIn {f base log2 prod : Nat} {host : Bool} {bs : List Byte} (h : s.Within M t) (hp : M.apart Part.hbm.bits = false)
    (hs : ringStoreScope.le M = true)
    (hb : M.apart placeScope = true → host = false → ∀ ps, t.place f (base + prod % 2 ^ log2 * bs.length) bs.length = some ps →
      ∀ a ∈ placeKeys ps, ringByte M s a) (e : t.ringWrite f base host log2 prod bs = some u) : s.Within M u := by
  unfold State.ringWrite at e
  dsimp only at e
  split at e
  · split at e
    · exact Within.of_some (h.tlp (Scope.le_trans (by decide +kernel) hs)) e
    · cases e
  · next hhost => exact h.memWriteIn hp (Scope.le_trans (by decide +kernel) hs) (fun k => hb k (Bool.eq_false_iff.2 hhost)) e

/-- A record written to a ring in host memory is a TLP. -/
theorem Within.ringWriteHost {f base log2 prod : Nat} {bs : List Byte} (h : s.Within M t) (hm : tlpScope.le M = true := by decide +kernel)
    (e : t.ringWrite f base true log2 prod bs = some u) : s.Within M u := by
  unfold State.ringWrite at e
  dsimp only at e
  rw [if_pos rfl] at e
  split at e
  · exact Within.of_some (h.tlp hm) e
  · cases e

def ringWriteScope : Scope := scope [.hbm] [] ||| ringStoreScope

theorem Within.ringWrite {f base log2 prod : Nat} {host : Bool} {bs : List Byte} (h : s.Within M t)
    (hm : ringWriteScope.le M = true := by decide +kernel) (e : t.ringWrite f base host log2 prod bs = some u) : s.Within M u :=
  h.andThen hm fun h => h.ringWriteIn (by decide +kernel) (by decide +kernel) (fun k => absurd k (by decide +kernel)) e

@[simp] theorem length_leBytes (n x : Nat) : (leBytes n x).length = n := by
  induction n generalizing x with
  | zero => rfl
  | succ n ih => simp [leBytes, ih]

theorem Within.summaryFld {n : Nat} {ix : List Nat}
    (h : s.Within M t) (hm : (scope [] [F.GLB_SUMMARY_CORRECTED, F.GLB_SUMMARY_CONTAINED, F.GLB_SUMMARY_MODULE, F.GLB_SUMMARY_FATAL, V.RAISED]).le M = true) :
    s.Within M (t.raise (summaryFld n) ix) := by
  unfold Machine.summaryFld
  split <;> exact h.raise (Scope.part hm) (Scope.part hm)

/-- What a record directed to an error ring may change. -/
def errToRingScope : Scope :=
  ringBytes ||| scope [] [F.GLB_SUMMARY_CORRECTED, F.GLB_SUMMARY_CONTAINED, F.GLB_SUMMARY_MODULE, F.GLB_SUMMARY_FATAL, F.ERR_RING_LOST_COUNT,
    F.ERR_RING_LOST_OVF, F.ERR_RING_PTR_PROD, V.RAISED] ||| ringStoreScope ||| raiseVec1Scope ||| hostFailScope

theorem Within.errToRing {f sev rcd : Nat} (h : s.Within M t) (hm : errToRingScope.le M = true := by decide +kernel) :
    s.Within M (t.errToRing f sev rcd) := by
  refine h.andThen hm fun h => ?_
  unfold State.errToRing
  extract_lets u log2 prod lost
  have hu : t.Within _ u := h.summaryFld (by decide +kernel)
  have hlost : t.Within _ lost := hu.bumpOvf.countModule
  split
  · next hen =>
    split
    · exact hlost
    · split
      · next v e =>
        refine (hu.ringWriteIn (by decide +kernel) (by decide +kernel) (fun k hhost ps hplace a ha => ?_) e).bump.countModule.raiseVec1
        rw [length_leBytes] at hplace
        refine .inr ⟨by decide +kernel, ?_⟩
        rw [← inErrRing_congr (hu.img_of_placed k) (hu.rd_of_placed k)]
        exact ⟨f, hen, hhost, prod % 2 ^ log2, ps, Nat.mod_lt _ (by positivity), hplace, ha⟩
      · exact .ite hlost.hostFail hlost
  · exact hu

def yofenStartScope : Scope := scope [] [F.HAT_YOF_RESETTING, V.YOF_ON, F.TRY_OWN_ROLE, V.YOF_BOOT_NS, V.KICK_NS] ||| errToRingScope

theorem Within.yofenStart (h : s.Within M t) (hm : yofenStartScope.le M = true := by decide +kernel) : s.Within M (t.yofenStart) := by
  refine h.andThen hm fun h => ?_
  unfold State.yofenStart
  extract_lets s1 s2 s3
  have hs1 : t.Within yofenStartScope s1 := h.wr.wr
  have hs2 : t.Within yofenStartScope s2 := hs1.wr
  have hs3 : t.Within yofenStartScope s3 := hs2.wr.wr
  exact hs3.foldl (fun _ _ hu => hu.errToRing)

def leaveP2Scope : Scope := scope [] [F.HAT_PSTATE_STATE, F.HAT_GATE_GATED, V.LNK_P2, V.P2_DEFER] ||| yofenStartScope ||| wakeUpScope
  ||| restoreScope

theorem Within.leaveP2 {goal : Nat} (h : s.Within M t) (hm : leaveP2Scope.le M = true := by decide +kernel) : s.Within M (t.leaveP2 goal)
    := by
  refine h.andThen hm fun h => ?_
  unfold State.leaveP2
  extract_lets s1 s2 s3 s4
  have hs1 : t.Within leaveP2Scope s1 := h.wr
  have hs2 : t.Within leaveP2Scope s2 := hs1.foldl (fun _ _ hu2 => hu2.wr)
  have hs3 : t.Within leaveP2Scope s3 := .ite hs2 hs2.yofenStart
  have hs4 : t.Within leaveP2Scope s4 := hs3.foldl (fun _ _ hu => .ite hu.wakeUp.wr hu)
  exact (Within.ite hs4 hs4.restore).wr

def startUpScope : Scope := scope [] [V.OPEN_TO, F.HAT_BOOT_STEP, V.BOOTING, V.REPAIR, V.VIN_P3, V.WAKE_BOOT, V.BOOT_NS,
  F.HAT_BOOT_FAIL_STEP, F.HAT_BOOT_FAILED]

theorem Within.startUp {openTo : Nat} {wake : Bool} (h : s.Within M t) (hm : startUpScope.le M = true := by decide +kernel) :
    s.Within M (t.startUp openTo wake) := by
  refine h.andThen hm fun h => ?_
  unfold State.startUp
  extract_lets s1
  have hs1 : t.Within startUpScope s1 := h.wr.wr.wr
  exact hs1.wr.wr.wr.wr.wr.wr

def wakeScope : Scope := scope [] [F.DBG_LEVEL_WAKE, V.WOKE_FROM, V.WAKE_CLOSED] ||| startUpScope ||| leaveP2Scope ||| linkDownScope

theorem Within.wake (h : s.Within M t) (hm : wakeScope.le M = true := by decide +kernel) : s.Within M (t.wake) := by
  refine h.andThen hm fun h => ?_
  unfold State.wake
  extract_lets _ s1 s2
  have hs1 : t.Within wakeScope s1 := h.wr.wr
  have hs2 : t.Within wakeScope s2 := hs1.wr
  exact .ite h (.ite hs1.startUp ((hs2.foldl (fun _ _ hu => hu.linkDown)).leaveP2))

def aerScope : Scope := scope [.out] [V.AER_ERR, V.AER_ADV]

theorem Within.aer {f kind : Nat} (h : s.Within M t) (hm : aerScope.le M = true := by decide +kernel) : s.Within M (t.aer f kind) := by
  refine h.andThen hm fun h => ?_
  unfold State.aer
  extract_lets s1
  have hs1 : t.Within aerScope s1 := h.wr.emit
  exact .ite hs1.wr hs1

def sendGramScope : Scope := scope [.out] [V.MOD_SEQ]

theorem Within.sendGram {kind : Nat} {items : List Byte} (h : s.Within M t) (hm : sendGramScope.le M = true := by decide +kernel) :
    s.Within M (t.sendGram kind items) := by
  refine h.andThen hm fun h => ?_
  unfold State.sendGram
  extract_lets _ _ _ s1
  have hs1 : t.Within sendGramScope s1 := h.emit.emit
  exact .ite hs1 hs1.bump

def errDeliverScope : Scope := scope [.errLog, .hatLog] [] ||| errToRingScope ||| sendGramScope ||| aerScope

theorem Within.errDeliver {e' : ErrInfo} {rcd : Nat} (h : s.Within M t) (hm : errDeliverScope.le M = true := by decide +kernel) :
    s.Within M (t.errDeliver e' rcd) := by
  refine h.andThen hm fun h => ?_
  unfold State.errDeliver
  extract_lets s11 s2 s23
  have hs11 : t.Within errDeliverScope s11 := h.foldl (fun _ _ hu => hu.errToRing)
  have hs2 : t.Within errDeliverScope s2 := hs11.errLog.sendGram
  have hs23 : t.Within errDeliverScope s23 := .ite hs11 (.ite hs2 hs2.aer)
  exact .ite hs23.hatLog hs23

def ceNoteScope : Scope := scope [] [V.CE_COUNT, V.CE_SEC]

theorem Within.ceNote {det quad : Nat} (h : s.Within M t) (hm : ceNoteScope.le M = true := by decide +kernel) :
    s.Within M (t.ceNote det quad) := by
  refine h.andThen hm fun h => ?_
  unfold State.ceNote
  exact .ite h.wr.wr h.bump

def errWriteScope : Scope := scope [] [V.ERR_SEQ] ||| ceNoteScope ||| errDeliverScope

theorem Within.errWrite {e' : ErrInfo} (h : s.Within M t) (hm : errWriteScope.le M = true := by decide +kernel) :
    s.Within M (t.errWrite e') := by
  refine h.andThen hm fun h => ?_
  unfold State.errWrite
  extract_lets s1 _ s2
  have hs1 : t.Within errWriteScope s1 := .ite h.ceNote h
  have hs2 : t.Within errWriteScope s2 := hs1.bump
  exact .ite h (.ite hs2.hatLog hs2.errDeliver)

def errFlushScope : Scope := scope [.errDue] [] ||| errWriteScope

theorem Within.errFlush (h : s.Within M t) (hm : errFlushScope.le M = true := by decide +kernel) : s.Within M (t.errFlush) := by
  refine h.andThen hm fun h => ?_
  unfold State.errFlush
  exact h.errDue.foldl (fun _ _ hu => hu.errWrite)

/-- What a reset that keeps the counters of boot flash may change: all but boot flash. -/
def resetKeepingScope : Scope :=
  everyField ||| scope [.img, .hbm, .badSectors, .staging, .bufs, .reasm, .svc, .mitEgress, .parkQ, .movCmds, .mit, .notices, .slots, .slab, .waits,
    .admMsgs, .pagerOp, .insts, .trigOps, .cqWait, .psBuf, .handoffs, .upd, .errDue, .errLog, .hatLog, .out, .free] []

theorem Within.resetKeeping {fs : List Fld} {log : Bool} (h : s.Within M t) (hm : resetKeepingScope.le M = true := by decide +kernel)
    (hk : V.FLASH_CTR ∈ fs := by simp [flashFields, hatFields, p3Fields]) : s.Within M (t.resetKeeping fs log) := by
  refine h.andThen hm fun h => ?_
  unfold State.resetKeeping
  have hflush : t.Within resetKeepingScope t.errFlush := h.errFlush
  refine hflush.trans ⟨rfl, fun p k => ?_, fun k => absurd k (by decide +kernel), fun _ i _ => ?_, fun w => ?_, fun k => absurd k (by decide +kernel)⟩
  · cases p
    case flash => rfl
    all_goals exact absurd k (by decide +kernel)
  · refine Within.rd_eraseIf (t := t.errFlush) fun v => ?_
    simp only [List.getD_cons_zero, Bool.not_eq_false', List.contains_iff_mem, List.mem_map]
    exact ⟨_, hk, rfl⟩
  · simp only [memWf, Bool.and_eq_true] at w ⊢
    exact ⟨⟨rfl, w.1.2⟩, rfl⟩

def enterP3Scope : Scope := scope [] [V.BOOTING, F.HAT_PSTATE_CAUSE, F.HAT_PSTATE_STATE, F.LNK_PORT_STAT_DOWN_CAUSE] ||| resetKeepingScope

theorem Within.enterP3 {cause : Nat} (h : s.Within M t) (hm : enterP3Scope.le M = true := by decide +kernel) : s.Within M (t.enterP3 cause)
    := by
  refine h.andThen hm fun h => ?_
  unfold State.enterP3
  extract_lets s1 s2
  have hs1 : t.Within enterP3Scope s1 := h.resetKeeping
  have hs2 : t.Within enterP3Scope s2 := hs1.wr.wr.wr
  exact hs2.foldl (fun _ _ hu => hu.wr)

def withdrawScope : Scope := scope [] [V.WITHDRAW_REASON, V.WITHDRAWN] ||| noticeScope

theorem Within.withdraw {ns : List Nat} {reason : Nat} (h : s.Within M t) (hm : withdrawScope.le M = true := by decide +kernel) :
    s.Within M (t.withdraw ns reason) := by
  refine h.andThen hm fun h => ?_
  unfold State.withdraw
  extract_lets _ s1
  have hs1 : t.Within withdrawScope s1 := h.foldl (fun _ _ hu => hu.wr.wr)
  exact hs1.notice

def stopBeginScope : Scope := scope [] [F.HAT_PSTATE_PENDING, V.PCAUSE, V.PTARGET, F.HAT_PSTATE_BUSY, V.P2_DEFER] ||| enterP3Scope
  ||| withdrawScope

theorem Within.stopBegin {goal cause : Nat} (h : s.Within M t) (hm : stopBeginScope.le M = true := by decide +kernel) :
    s.Within M (t.stopBegin goal cause) := by
  refine h.andThen hm fun h => ?_
  unfold State.stopBegin
  extract_lets s1
  have hs1 : t.Within stopBeginScope s1 := h.wr.wr.wr.wr
  exact .ite h.enterP3 hs1.withdraw.wr

def injLevelScope : Scope := scope [] [F.ERR_INJ_CTL_EN]

theorem Within.injLevel (h : s.Within M t) (hm : injLevelScope.le M = true := by decide +kernel) : s.Within M (t.injLevel) := by
  refine h.andThen hm fun h => ?_
  unfold State.injLevel
  exact .ite h.hwWr h

def levelDropScope : Scope := scope [] [F.DBG_LEVEL_IFACE, F.DBG_LEVEL_WRITE, F.DBG_LEVEL_PART, F.DBG_LEVEL_LEVEL, F.ERR_INJ_STAT_ARMED,
  V.INJ_KIND, V.GRANT_END, F.DBG_LEVEL_REMAIN_S] ||| errScope ||| injLevelScope

theorem Within.levelDrop {lv : Nat} (h : s.Within M t) (hm : levelDropScope.le M = true := by decide +kernel) : s.Within M (t.levelDrop lv)
    := by
  refine h.andThen hm fun h => ?_
  unfold State.levelDrop
  extract_lets _ s1 s2 s3
  have hs1 : t.Within levelDropScope s1 := h.err
  have hs2 : t.Within levelDropScope s2 := hs1.wr.wr.wr.wr
  have hs3 : t.Within levelDropScope s3 := .ite hs2.wr.wr hs2
  exact .ite h hs3.wr.wr.injLevel

def grantEndScope : Scope := scope [] [F.DBG_LEVEL_WAKE, V.WAKE_CLOSED] ||| levelDropScope ||| stopBeginScope

theorem Within.grantEnd {lv : Nat} (h : s.Within M t) (hm : grantEndScope.le M = true := by decide +kernel) : s.Within M (t.grantEnd lv)
    := by
  refine h.andThen hm fun h => ?_
  unfold State.grantEnd
  extract_lets _ s1 s2
  have hs1 : t.Within grantEndScope s1 := h.levelDrop.wr
  have hs2 : t.Within grantEndScope s2 := hs1.wr
  exact .ite (.ite hs2.stopBegin (.ite hs2.enterP3 hs2)) hs1

def grantRecordScope : Scope := errScope

theorem Within.grantRecord {level part : Nat} (h : s.Within M t) (hm : grantRecordScope.le M = true := by decide +kernel) :
    s.Within M (t.grantRecord level part) := by
  refine h.andThen hm fun h => ?_
  unfold State.grantRecord
  exact h.err

def dbgDoneScope : Scope := scope [] [F.DBG_STATUS_RESULT, F.DBG_STATUS_BUSY] ||| msixScope

theorem Within.dbgDone {result : Nat} (h : s.Within M t) (hm : dbgDoneScope.le M = true := by decide +kernel) :
    s.Within M (t.dbgDone result) := by
  refine h.andThen hm fun h => ?_
  unfold State.dbgDone
  extract_lets _ s1
  have hs1 : t.Within dbgDoneScope s1 := h.wr.wr
  exact .ite hs1.msix hs1

def tokenSubmitScope : Scope := scope [] [V.CHAL_OK] ||| dbgDoneScope ||| grantRecordScope ||| grantEndScope ||| wakeScope

theorem Within.tokenSubmit {bs : List Byte} {jtag : Bool} (h : s.Within M t) (hm : tokenSubmitScope.le M = true := by decide +kernel) :
    s.Within M (t.tokenSubmit bs jtag) := by
  refine h.andThen hm fun h => ?_
  unfold State.tokenSubmit
  extract_lets _ s1 _ _ _ _ s2 s3 s4
  have hs1 : t.Within tokenSubmitScope s1 := h.wr
  have hs2 : t.Within tokenSubmitScope s2 := hs1.wr.wr.wr.wr
  have hs3 : t.Within tokenSubmitScope s3 := hs2.wr.wr
  have hs4 : t.Within tokenSubmitScope s4 := hs3.grantRecord.dbgDone
  exact .ite hs1.dbgDone (.ite hs4.grantEnd (.ite hs4.wake hs4))

def jtagTokenDueScope : Scope := scope [] [V.JTAG_TOK, V.JTAG_TOKN] ||| tokenSubmitScope

theorem Within.jtagTokenDue (h : s.Within M t) (hm : jtagTokenDueScope.le M = true := by decide +kernel) : s.Within M (t.jtagTokenDue)
    := by
  refine h.andThen hm fun h => ?_
  unfold State.jtagTokenDue
  extract_lets
  exact .ite h h.wr.wr.tokenSubmit

def challengeReadScope : Scope := scope [.free] [V.CHAL_OK, F.DBG_CHAL_CHAL]

theorem Within.challengeRead (h : s.Within M t) (hm : challengeReadScope.le M = true := by decide +kernel) : s.Within M (t.challengeRead)
    := by
  refine h.andThen hm fun h => ?_
  unfold State.challengeRead
  extract_lets
  exact h.freshen.wr.wr.wr

def slabSpanScope : Scope := countLocalScope

theorem Within.slabSpan {q a n part : Nat} (h : s.Within M t) (hm : slabSpanScope.le M = true := by decide +kernel) :
    s.Within M (t.slabSpan q a n part) := by
  refine h.andThen hm fun h => ?_
  unfold State.slabSpan
  exact h.foldl (fun _ _ hu => hu.countLocal)

def channelNoteScope : Scope := scope [] [V.CH_ERR, V.RET_DUE]

theorem Within.channelNote {kind stack line : Nat} (h : s.Within M t) (hm : channelNoteScope.le M = true := by decide +kernel) :
    s.Within M (t.channelNote kind stack line) := by
  refine h.andThen hm fun h => ?_
  unfold State.channelNote
  extract_lets ch mine u v n met
  have hu : t.Within _ u := h.eraseIf [V.CH_ERR] fun k n e => by
    cases k with
    | nil => simp [mine] at e
    | cons i ix => exact ⟨_, .head _, by simp [mine] at e; simp [e]⟩
  have hv : t.Within _ v := hu.bump
  exact .ite hv.wr hv

def noteCorrectedScope : Scope := scope [] [F.HBM_ECC_CE, F.HBM_ECC_OVF, V.HBM_CE_SEC] ||| channelNoteScope ||| countLocalScope
  ||| errScope

theorem Within.noteCorrected {part stack sector : Nat} (h : s.Within M t) (hm : noteCorrectedScope.le M = true := by decide +kernel) :
    s.Within M (t.noteCorrected part stack sector) := by
  refine h.andThen hm fun h => ?_
  unfold State.noteCorrected
  extract_lets _ _ s1
  have hs1 : t.Within noteCorrectedScope s1 := h.bumpOvf.countLocal.channelNote
  exact .ite hs1 hs1.wr.err

def noteSectorScope : Scope := scope [] [F.HBM_ECC_UCE, F.HBM_ECC_OVF, F.HBM_ERR_LOG_MORE, F.HBM_ERR_LOG_VALID, F.HBM_ERR_LOG_LINE,
  F.HBM_ERR_LOG_PART, F.HBM_ERR_LOG_PC, F.HBM_ERR_LOG_STACK] ||| countLocalScope ||| errScope ||| channelNoteScope

theorem Within.noteSector {det part stack sector : Nat} (h : s.Within M t) (hm : noteSectorScope.le M = true := by decide +kernel) :
    s.Within M (t.noteSector det part stack sector) := by
  refine h.andThen hm fun h => ?_
  unfold State.noteSector
  extract_lets _ _ _ s1 s2 s3
  have hs1 : t.Within noteSectorScope s1 := h.bumpOvf.countLocal
  have hs2 : t.Within noteSectorScope s2 := .ite hs1.wr hs1.raise
  have hs3 : t.Within noteSectorScope s3 := hs2.wr.wr.wr.wr
  exact hs3.channelNote.err

def noteOneScope : Scope := noteSectorScope ||| noteCorrectedScope

theorem Within.noteOne {det part : Nat} {k : List Nat} (h : s.Within M t) (hm : noteOneScope.le M = true := by decide +kernel) :
    s.Within M (t.noteOne det part k) := by
  refine h.andThen hm fun h => ?_
  unfold State.noteOne
  exact .ite h.noteSector (.ite h.noteCorrected h)

def notePlacesScope : Scope := noteOneScope ||| countBeatsScope

theorem Within.notePlaces {det part : Nat} {ps : List (Loc × Nat)} (h : s.Within M t)
    (hm : notePlacesScope.le M = true := by decide +kernel) : s.Within M (t.notePlaces det part ps) := by
  refine h.andThen hm fun h => ?_
  unfold State.notePlaces
  exact h.countBeats.foldl (fun _ _ hu => hu.noteOne)

def noteReadScope : Scope := notePlacesScope

theorem Within.noteRead {det part a n : Nat} (h : s.Within M t) (hm : noteReadScope.le M = true := by decide +kernel) :
    s.Within M (t.noteRead det part a n) := by
  refine h.andThen hm fun h => ?_
  unfold State.noteRead
  split
  · exact h
  · exact .ite h h.notePlaces

def windowReadScope : Scope := scope [.free] [] ||| noteReadScope ||| slabSpanScope

theorem Within.windowRead {off n : Nat} (h : s.Within M t) (hm : windowReadScope.le M = true := by decide +kernel) :
    s.Within M ((t.windowRead off n).1) := by
  refine h.andThen hm fun h => ?_
  unfold State.windowRead
  extract_lets
  split
  · exact h
  · split
    · split <;> exact h.noteRead
    · exact h.slabSpan
    · exact h.freshen

def bar0ValueScope : Scope := windowReadScope ||| challengeReadScope

theorem Within.bar0Value {f o n : Nat} (h : s.Within M t) (hm : bar0ValueScope.le M = true := by decide +kernel) :
    s.Within M ((t.bar0Value f o n).1) := by
  refine h.andThen hm fun h => ?_
  unfold State.bar0Value
  extract_lets _ s1
  have hs1 : t.Within bar0ValueScope s1 := h.challengeRead
  split
  · exact h
  · exact h
  · exact h.windowRead
  · split
    · exact h
    · split
      · exact hs1
      · exact h

def yofDemandScope : Scope := yofenStartScope

theorem Within.yofDemand (h : s.Within M t) (hm : yofDemandScope.le M = true := by decide +kernel) : s.Within M (t.yofDemand) := by
  refine h.andThen hm fun h => ?_
  unfold State.yofDemand
  exact .ite h.yofenStart h

def bar0TouchScope : Scope := scope [] [V.SPLIT_OK] ||| yofDemandScope

theorem Within.bar0Touch {f : Nat} (h : s.Within M t) (hm : bar0TouchScope.le M = true := by decide +kernel) : s.Within M (t.bar0Touch f)
    := by
  refine h.andThen hm fun h => ?_
  unfold State.bar0Touch
  exact h.yofDemand.wr

def bar0LoadScope : Scope := scope [] [V.SPLIT_HI, V.SPLIT_OFF] ||| bar0TouchScope ||| bar0ValueScope

theorem Within.bar0Load {f o n : Nat} (h : s.Within M t) (hm : bar0LoadScope.le M = true := by decide +kernel) :
    s.Within M ((t.bar0Load f o n).1) := by
  refine h.andThen hm fun h => ?_
  unfold State.bar0Load
  extract_lets _ _ s1
  have hs1 : t.Within bar0LoadScope s1 := h.bar0Touch
  split
  · exact hs1
  · split
    · next u _ _ e =>
        have hu : t.Within bar0LoadScope u := hs1.bar0Value.of_fst e
        split
        · exact hu
        · split
          · exact hu
          · split
            · exact hu
            · exact hu.wr.wr.wr

def injArmScope : Scope := scope [] [F.ERR_INJ_STAT_ARMED, V.INJ_TARGET, V.INJ_PART, V.INJ_QUAD, V.INJ_DET, V.INJ_KIND]

theorem Within.injArm {kind det quad part target : Nat} (h : s.Within M t) (hm : injArmScope.le M = true := by decide +kernel) :
    s.Within M (t.injArm kind det quad part target) := by
  refine h.andThen hm fun h => ?_
  unfold State.injArm
  exact h.wr.wr.wr.wr.wr.wr

def sampleWaitScope : Scope := scope [] [V.PS_WAIT]

theorem Within.sampleWait {key : List Nat} {n : Nat} (h : s.Within M t) (hm : sampleWaitScope.le M = true := by decide +kernel) :
    s.Within M (t.sampleWait key n) := by
  refine h.andThen hm fun h => ?_
  unfold State.sampleWait
  exact .ite h h.wr

def setMovScope : Scope := scope [] [V.MOV_WAITC, F.MOV_CH_STAT_STATE] ||| sampleWaitScope

theorem Within.setMov {q p c st : Nat} (h : s.Within M t) (hm : setMovScope.le M = true := by decide +kernel) :
    s.Within M (t.setMov q p c st) := by
  refine h.andThen hm fun h => ?_
  unfold State.setMov
  extract_lets _ s1 s2
  have hs1 : t.Within setMovScope s1 := .ite h.sampleWait h
  have hs2 : t.Within setMovScope s2 := .ite hs1.wr hs1
  exact hs2.wr

def movBusWinsScope : Scope := scope [] [F.MOV_CH_STAT_STATUS, V.MOV_TO_ERR] ||| setMovScope

theorem Within.movBusWins {q p c : Nat} (h : s.Within M t) (hm : movBusWinsScope.le M = true := by decide +kernel) :
    s.Within M (t.movBusWins q p c) := by
  refine h.andThen hm fun h => ?_
  unfold State.movBusWins
  exact .ite h.setMov.wr.wr h

def movBusErrorScope : Scope := scope [] [F.MOV_STAT_BUSERRS, F.MOV_STAT_CAUSE, V.PAGER_STOP, F.MOV_STAT_STOPPED, V.MOV_BE1, V.MOV_BE2,
  V.ZERO_BUSERR, F.MOV_STAT_FAULTED] ||| movBusWinsScope ||| errScope

theorem Within.movBusError {q cause : Nat} (h : s.Within M t) (hm : movBusErrorScope.le M = true := by decide +kernel) :
    s.Within M (t.movBusError q cause) := by
  refine h.andThen hm fun h => ?_
  unfold State.movBusError
  extract_lets _ _ s1 s2 s3 s4
  have hs1 : t.Within movBusErrorScope s1 := h.wr.wr.wr.bump
  have hs2 : t.Within movBusErrorScope s2 := hs1.wr.wr
  have hs3 : t.Within movBusErrorScope s3 := hs2.wr
  have hs4 : t.Within movBusErrorScope s4 := hs3.foldl (fun _ _ hu => hu.foldl (fun _ _ hu2 => hu2.movBusWins))
  exact .ite h (.ite hs4.wr.err hs4)

def hatRecordScope : Scope := scope [.errDue] [F.ERR_DET_COUNT, F.ERR_DET_OVF, V.RAISED]

theorem Within.hatRecord {e' : ErrInfo} (h : s.Within M t) (hm : hatRecordScope.le M = true := by decide +kernel) :
    s.Within M (t.hatRecord e') := by
  refine h.andThen hm fun h => ?_
  unfold State.hatRecord
  extract_lets s1
  have hs1 : t.Within hatRecordScope s1 := h.bumpOvf
  exact hs1.errDue

def knitStateScope : Scope := scope [] [F.KNT_STATUS_STATE] ||| msixScope

theorem Within.knitState {st : Nat} (h : s.Within M t) (hm : knitStateScope.le M = true := by decide +kernel) : s.Within M (t.knitState st)
    := by
  refine h.andThen hm fun h => ?_
  unfold State.knitState
  extract_lets s1
  have hs1 : t.Within knitStateScope s1 := h.wr
  exact .ite hs1.msix hs1

def knitIdleScope : Scope := scope [] [V.KNT_GROUP, V.KNT_VOTE, V.KNT_WAIT, V.KNT_FN]

theorem Within.knitIdle (h : s.Within M t) (hm : knitIdleScope.le M = true := by decide +kernel) : s.Within M (t.knitIdle) := by
  refine h.andThen hm fun h => ?_
  unfold State.knitIdle
  exact h.wr.wr.wr.wr

def partStateScope : Scope := scope [] [F.KNT_PART_STATE_PARTIAL, F.KNT_PART_STATE_GROUP, F.KNT_PART_STATE_SERIAL]

theorem Within.partState {p serial group part : Nat} (h : s.Within M t) (hm : partStateScope.le M = true := by decide +kernel) :
    s.Within M (t.partState p serial group part) := by
  refine h.andThen hm fun h => ?_
  unfold State.partState
  exact h.wr.wr.wr

def knitReleaseScope : Scope := scope [] [F.XPT_EPOCH_STATE, V.KNIT_QUIET, V.BORDER_PORT, V.BORDER_LOWERED, V.BORDER_QUOTA, V.EXT_MOVING,
  V.BORDER_WHEEL, V.BORDER_DRAIN, V.QUIESCE] ||| restoreScope

theorem Within.knitRelease (h : s.Within M t) (hm : knitReleaseScope.le M = true := by decide +kernel) : s.Within M (t.knitRelease) := by
  refine h.andThen hm fun h => ?_
  unfold State.knitRelease
  extract_lets _ s1 s2 s3
  have hs1 : t.Within knitReleaseScope s1 := .ite h.wr h
  have hs2 : t.Within knitReleaseScope s2 := hs1.eraseRegs ([V.KNIT_QUIET, V.BORDER_PORT, V.BORDER_LOWERED, V.BORDER_QUOTA, V.EXT_MOVING, V.BORDER_WHEEL]) (fun _ _ hn => by simp only [List.forall_mem_cons] at hn; simp [hn])
  have hs3 : t.Within knitReleaseScope s3 := hs2.wr
  exact hs3.foldl (fun _ _ hu => .ite hu.wr.restore hu)

def mitToRankScope : Scope := mitPutScope ||| countDiscardScope

theorem Within.mitToRank {q p rank : Nat} {k : Packet} (h : s.Within M t) (hm : mitToRankScope.le M = true := by decide +kernel) :
    s.Within M (t.mitToRank q p rank k) := by
  refine h.andThen hm fun h => ?_
  unfold State.mitToRank
  split
  · split
    · split
      · exact h.foldl (fun _ _ hu => .ite hu.mitPut hu.countDiscard)
      · exact h.countDiscard
    · exact h
  · exact h.countDiscard

def mitCarryScope : Scope := mitToRankScope ||| injFiredScope

theorem Within.mitCarry {c p : Nat} {e' : CtxE} {seq resend : Nat} {m : MVal} (h : s.Within M t)
    (hm : mitCarryScope.le M = true := by decide +kernel) : s.Within M (t.mitCarry c p e' seq resend m) := by
  refine h.andThen hm fun h => ?_
  unfold State.mitCarry
  extract_lets _ _ _ t1
  have ht1 : t.Within mitCarryScope t1 := h.mitToRank.mitToRank
  exact .ite ht1.injFired ht1

def roundPutScope : Scope := scope [.mit] []

theorem Within.roundPut {c : Nat} {r : Round} (h : s.Within M t) (hm : roundPutScope.le M = true := by decide +kernel) :
    s.Within M (t.roundPut c r) := by
  refine h.andThen hm fun h => ?_
  unfold State.roundPut
  exact h.mit

def mitStatScope : Scope := scope [] [F.MIT_STAT_COUNT, F.MIT_STAT_OVF] ||| countLocalScope

theorem Within.mitStat {c k : Nat} (h : s.Within M t) (hm : mitStatScope.le M = true := by decide +kernel) : s.Within M (t.mitStat c k)
    := by
  refine h.andThen hm fun h => ?_
  unfold State.mitStat
  exact h.bumpOvf.countLocal

def roundOpenScope : Scope := scope [] [F.MIT_CTX_SEQ, V.MIT_FIRST, F.MIT_CTX_JOINING] ||| roundPutScope

theorem Within.roundOpen {c seq p : Nat} {e' : CtxE} (h : s.Within M t) (hm : roundOpenScope.le M = true := by decide +kernel) :
    s.Within M (t.roundOpen c seq p e') := by
  refine h.andThen hm fun h => ?_
  unfold State.roundOpen
  extract_lets _ _ _ s1 s2
  have hs1 : t.Within roundOpenScope s1 := h.wr
  have hs2 : t.Within roundOpenScope s2 := .ite (.ite hs1.wr hs1.wr.wr) hs1
  exact hs2.roundPut

def mitSendResultScope : Scope := mitToRankScope

theorem Within.mitSendResult {c p : Nat} {e' : CtxE} {seq aborted : Nat} {m : MVal} (h : s.Within M t)
    (hm : mitSendResultScope.le M = true := by decide +kernel) : s.Within M (t.mitSendResult c p e' seq aborted m) := by
  refine h.andThen hm fun h => ?_
  unfold State.mitSendResult
  extract_lets
  exact .ite h (.ite (h.foldl (fun _ _ hu => hu.mitToRank)) h)

def mitPodScope : Scope := mitStatScope ||| mitSendResultScope

theorem Within.mitPod {c p : Nat} {e' : CtxE} {r : Round} (h : s.Within M t) (hm : mitPodScope.le M = true := by decide +kernel) :
    s.Within M ((t.mitPod c p e' r).1) := by
  refine h.andThen hm fun h => ?_
  unfold State.mitPod
  extract_lets stat fin
  have hstat : t.Within mitPodScope stat := h.mitStat
  split
  · have hfin : ∀ m, t.Within mitPodScope (fin m).1 := fun _ => .ite hstat hstat.mitSendResult
    split
    · exact hfin _
    · split
      · exact h
      · exact hfin _
  · exact h

def mitToPairScope : Scope := mitOutScope ||| countDiscardScope

theorem Within.mitToPair {q u' : Nat} {k : Packet} (h : s.Within M t) (hm : mitToPairScope.le M = true := by decide +kernel) :
    s.Within M (t.mitToPair q u' k) := by
  refine h.andThen hm fun h => ?_
  unfold State.mitToPair
  extract_lets
  exact .ite h (.ite h.mitOut h.countDiscard)

def mitColToScope : Scope := mitToPairScope

theorem Within.mitColTo {c p seq resend y : Nat} {m : MVal} (h : s.Within M t) (hm : mitColToScope.le M = true := by decide +kernel) :
    s.Within M (t.mitColTo c p seq resend y m) := by
  refine h.andThen hm fun h => ?_
  unfold State.mitColTo
  exact h.mitToPair

def mitRowScope : Scope := mitColToScope

theorem Within.mitRow {c p : Nat} {e' : CtxE} {r : Round} (h : s.Within M t) (hm : mitRowScope.le M = true := by decide +kernel) :
    s.Within M ((t.mitRow c p e' r).1) := by
  refine h.andThen hm fun h => ?_
  unfold State.mitRow
  split
  · split
    · exact h
    · split
      · exact h
      · extract_lets _ s1
        have hs1 : t.Within mitRowScope s1 := .ite h (h.foldl (fun _ _ hu => hu.mitColTo))
        exact hs1
  · exact h

def mitRowToScope : Scope := mitToPairScope

theorem Within.mitRowTo {c p seq resend x : Nat} {m : MVal} (h : s.Within M t) (hm : mitRowToScope.le M = true := by decide +kernel) :
    s.Within M (t.mitRowTo c p seq resend x m) := by
  refine h.andThen hm fun h => ?_
  unfold State.mitRowTo
  exact h.mitToPair

def mitRackScope : Scope := mitRowToScope

theorem Within.mitRack {c p : Nat} {e' : CtxE} {r : Round} (h : s.Within M t) (hm : mitRackScope.le M = true := by decide +kernel) :
    s.Within M ((t.mitRack c p e' r).1) := by
  refine h.andThen hm fun h => ?_
  unfold State.mitRack
  split
  · exact h
  · split
    · exact h
    · extract_lets _ s1
      have hs1 : t.Within mitRackScope s1 := .ite h (h.foldl (fun _ _ hu => hu.mitRowTo))
      exact hs1

def mitAdvanceScope : Scope := mitRackScope ||| mitRowScope ||| mitPodScope ||| roundPutScope

theorem Within.mitAdvance {c p seq : Nat} {e' : CtxE} (h : s.Within M t) (hm : mitAdvanceScope.le M = true := by decide +kernel) :
    s.Within M (t.mitAdvance c p seq e') := by
  refine h.andThen hm fun h => ?_
  unfold State.mitAdvance
  split
  · exact h
  · split
    · next u _ e =>
        have hu : t.Within mitAdvanceScope u := h.mitRack.of_fst e
        split
        · next u _ e =>
            have hu2 : t.Within mitAdvanceScope u := hu.mitRow.of_fst e
            split
            · next u _ e =>
                have hu3 : t.Within mitAdvanceScope u := hu2.mitPod.of_fst e
                exact hu3.roundPut

def mitAddScope : Scope := mitAdvanceScope

theorem Within.mitAdd {c p seq : Nat} {e' : CtxE} {who : Key} {m : MVal} (h : s.Within M t)
    (hm : mitAddScope.le M = true := by decide +kernel) : s.Within M (t.mitAdd c p seq e' who m) := by
  refine h.andThen hm fun h => ?_
  unfold State.mitAdd
  split
  · exact h
  · split
    · exact h.mitStat
    · exact h.roundPut.mitAdvance

def mitInputAtScope : Scope := roundOpenScope ||| mitAddScope ||| mitStatScope

theorem Within.mitInputAt {c p seq : Nat} {e : CtxE} {who : Key} {m : MVal} {answer : State → Round → State} (h : s.Within M t)
    (H : ∀ u r, s.Within M u → s.Within M (answer u r)) (hm : mitInputAtScope.le M = true := by decide +kernel) :
    s.Within M (t.mitInputAt c p seq e who m answer) := by
  unfold State.mitInputAt
  split
  · exact (h.roundOpen (Scope.part hm)).mitAdd (Scope.part hm)
  · exact h.mitAdd (Scope.part hm)
  · split
    · exact H _ _ h
    · exact h
  · exact h.mitStat (Scope.part hm)
  · exact h.mitStat (Scope.part hm)

def mitSelfScope : Scope := mitInputAtScope ||| mitCarryScope

theorem Within.mitSelf {c p seq : Nat} {e' : CtxE} {m : MVal} (h : s.Within M t) (hm : mitSelfScope.le M = true := by decide +kernel) :
    s.Within M (t.mitSelf c p seq e' m) := by
  refine h.andThen hm fun h => ?_
  unfold State.mitSelf
  extract_lets s1
  have hs1 : t.Within mitSelfScope s1 := h.mitInputAt (fun _ _ hu => hu)
  split
  · split
    · exact .ite hs1.mitCarry.roundPut hs1
    · exact hs1
  · exact hs1

def voteCastScope : Scope := scope [] [V.KNT_VOTE] ||| mitSelfScope

theorem Within.voteCast {v : Nat} (h : s.Within M t) (hm : voteCastScope.le M = true := by decide +kernel) : s.Within M ((t.voteCast v).1)
    := by
  refine h.andThen hm fun h => ?_
  unfold State.voteCast
  extract_lets
  split
  · split
    · exact h.wr.mitSelf
    · exact h.wr
  · exact h.wr

def knitFailScope : Scope := scope [] [F.KNT_STATUS_FAIL_CODE, F.KNT_STATUS_FAIL_GROUP, F.KNT_STATUS_LAST_GROUP, F.KNT_FAIL_FRAME_FRAME]
  ||| voteCastScope ||| knitReleaseScope ||| partStateScope ||| errScope ||| knitIdleScope ||| knitStateScope

theorem Within.knitFail {code group frame : Nat} (h : s.Within M t) (hm : knitFailScope.le M = true := by decide +kernel) :
    s.Within M (t.knitFail code group frame) := by
  refine h.andThen hm fun h => ?_
  unfold State.knitFail
  extract_lets _ _ _ s1 s2 s3 s4 s5 s6
  have hs1 : t.Within knitFailScope s1 := .ite h.voteCast h
  have hs2 : t.Within knitFailScope s2 := hs1.knitRelease
  have hs3 : t.Within knitFailScope s3 := .ite hs2 hs2.partState
  have hs4 : t.Within knitFailScope s4 := hs3.wr.wr.wr
  have hs5 : t.Within knitFailScope s5 := hs4.wr
  have hs6 : t.Within knitFailScope s6 := hs5.err
  exact hs6.knitState.knitIdle

def knitYofenResetScope : Scope := knitFailScope

theorem Within.knitYofenReset (h : s.Within M t) (hm : knitYofenResetScope.le M = true := by decide +kernel) :
    s.Within M (t.knitYofenReset) := by
  refine h.andThen hm fun h => ?_
  unfold State.knitYofenReset
  exact .ite h.knitFail h

def yofenLostScope : Scope := scope [] [V.INTEG, V.DUTY, V.INTEG_LOADED, V.CONTEST_HOLD, F.TRY_OWN_CONTEST, F.TRY_OWN_QUALIFIED,
  F.TRY_OWN_ROLE] ||| knitYofenResetScope

theorem Within.yofenLost (h : s.Within M t) (hm : yofenLostScope.le M = true := by decide +kernel) : s.Within M (t.yofenLost) := by
  refine h.andThen hm fun h => ?_
  unfold State.yofenLost
  extract_lets s1 s2
  have hs1 : t.Within yofenLostScope s1 := h.knitYofenReset
  have hs2 : t.Within yofenLostScope s2 := hs1.eraseRegs ([V.INTEG, V.DUTY, V.INTEG_LOADED, V.CONTEST_HOLD]) (fun _ _ hn => by simp only [List.forall_mem_cons] at hn; simp [hn])
  exact hs2.wr.wr.wr

def yofenResetScope : Scope := scope [] [F.HAT_YOF_RESETS, F.HAT_YOF_RESETTING] ||| hatRecordScope ||| yofenLostScope

theorem Within.yofenReset {det unit : Nat} {inj : Bool} (h : s.Within M t) (hm : yofenResetScope.le M = true := by decide +kernel) :
    s.Within M (t.yofenReset det unit inj) := by
  refine h.andThen hm fun h => ?_
  unfold State.yofenReset
  extract_lets s1 s2
  have hs1 : t.Within yofenResetScope s1 := h.bump
  have hs2 : t.Within yofenResetScope s2 := hs1.hatRecord
  exact hs2.wr.yofenLost

def mitRoundAbortScope : Scope := scope [] [V.ROUND_DUE] ||| roundPutScope

theorem Within.mitRoundAbort {c seq : Nat} (h : s.Within M t) (hm : mitRoundAbortScope.le M = true := by decide +kernel) :
    s.Within M (t.mitRoundAbort c seq) := by
  refine h.andThen hm fun h => ?_
  unfold State.mitRoundAbort
  split
  · exact .ite h h.roundPut.wr
  · exact h

def instPutScope : Scope := scope [.insts] []

theorem Within.instPut {p coll : Nat} {e' : CollE} {i : Inst} (h : s.Within M t) (hm : instPutScope.le M = true := by decide +kernel) :
    s.Within M (t.instPut p coll e' i) := by
  refine h.andThen hm fun h => ?_
  unfold State.instPut
  exact h.insts

def abortEventScope : Scope := scope [] [V.ABORT_DUE] ||| instPutScope

theorem Within.abortEvent {p coll : Nat} {e' : CollE} {step reason : Nat} (h : s.Within M t)
    (hm : abortEventScope.le M = true := by decide +kernel) : s.Within M (t.abortEvent p coll e' step reason) := by
  refine h.andThen hm fun h => ?_
  unfold State.abortEvent
  split
  · exact .ite h.instPut.wr h
  · exact h

def abortRupsScope : Scope := abortEventScope

theorem Within.abortRups {p step : Nat} (h : s.Within M t) (hm : abortRupsScope.le M = true := by decide +kernel) :
    s.Within M (t.abortRups p step) := by
  refine h.andThen hm fun h => ?_
  unfold State.abortRups
  exact h.foldl (fun _ _ hu => hu.abortEvent)

def updClearScope : Scope := scope [.upd] [V.UPD_STARTED, V.UPD_OP_DONE, V.GROUP_READY, V.GROUP_RATIO, V.LAMB_WW, V.LAMB_UU, V.LEDGER_SAT,
  V.NONFINITE_SEEN, V.STEP_TIMER, V.NORM_OPS, V.NORM_LEDGER]

theorem Within.updClear {p : Nat} (h : s.Within M t) (hm : updClearScope.le M = true := by decide +kernel) : s.Within M (t.updClear p)
    := by
  refine h.andThen hm fun h => ?_
  unfold State.updClear
  extract_lets clr s1
  have hs1 : t.Within updClearScope s1 := h.upd
  exact hs1.wr.wr.wr.foldl_mem fun _ _ hx hu => hu.eraseRegs
    [V.UPD_STARTED, V.UPD_OP_DONE, V.GROUP_READY, V.GROUP_RATIO, V.LAMB_WW, V.LAMB_UU, V.LEDGER_SAT, V.NONFINITE_SEEN] fun _ _ hn => by simp [hn _ hx]

def stepFlagRecordScope : Scope := scope [] [F.LDG_STEP_SKIPPED, F.LDG_STEP_VALID, F.LDG_STEP_INV, F.LDG_STEP_OVF, F.LDG_STEP_STEP_TAG,
  F.LDG_FIRST_KIND, F.LDG_FIRST_CHUNK, F.LDG_FIRST_COLL_ID, V.STEPFLG_REC] ||| errScope

theorem Within.stepFlagRecord {p step : Nat} (h : s.Within M t) (hm : stepFlagRecordScope.le M = true := by decide +kernel) :
    s.Within M (t.stepFlagRecord p step) := by
  refine h.andThen hm fun h => ?_
  unfold State.stepFlagRecord
  extract_lets _ _ _ _ _ _ s1 s2 s3
  have hs1 : t.Within stepFlagRecordScope s1 := .ite h h.wr
  have hs2 : t.Within stepFlagRecordScope s2 := hs1.wr.wr.wr.wr
  have hs3 : t.Within stepFlagRecordScope s3 := .ite h (.ite hs2 hs2.wr.wr.wr)
  exact .ite hs3 hs3.wr.err

def stepEndGramScope : Scope := scope [] [V.GRM_ABORT]

theorem Within.stepEndGram {p outcome : Nat} (h : s.Within M t) (hm : stepEndGramScope.le M = true := by decide +kernel) :
    s.Within M (t.stepEndGram p outcome) := by
  refine h.andThen hm fun h => ?_
  unfold State.stepEndGram
  refine h.foldl fun _ _ hu => by
    extract_lets
    exact .ite hu.wr hu

def stepEndScope : Scope := scope [] [V.IMPORTED, F.UPD_PART_STEP_OUTCOME, F.UPD_PART_STEP_STATE] ||| stepEndGramScope
  ||| stepFlagRecordScope ||| updClearScope

theorem Within.stepEnd {p outcome : Nat} (h : s.Within M t) (hm : stepEndScope.le M = true := by decide +kernel) :
    s.Within M (t.stepEnd p outcome) := by
  refine h.andThen hm fun h => ?_
  unfold State.stepEnd
  extract_lets s1 s2
  have hs1 : t.Within stepEndScope s1 := h.stepEndGram
  have hs2 : t.Within stepEndScope s2 := hs1.eraseRegs [V.IMPORTED] (fun _ _ hn => by simp only [List.forall_mem_cons] at hn; simp [hn])
  exact hs2.updClear.wr.wr.stepFlagRecord

def stepFailScope : Scope := stepEndScope ||| abortRupsScope

theorem Within.stepFail {p : Nat} (h : s.Within M t) (hm : stepFailScope.le M = true := by decide +kernel) : s.Within M (t.stepFail p)
    := by
  refine h.andThen hm fun h => ?_
  unfold State.stepFail
  extract_lets
  exact h.abortRups.stepEnd.err

def bankWasteScope : Scope := scope [] [V.BANK_WASTE]

theorem Within.bankWaste {q b p : Nat} (h : s.Within M t) (hm : bankWasteScope.le M = true := by decide +kernel) :
    s.Within M (t.bankWaste q b p) := by
  refine h.andThen hm fun h => ?_
  unfold State.bankWaste
  exact .ite h.wr h

def cqLostScope : Scope := scope [] [F.SEQ_CQ_LOST_COUNT, F.SEQ_CQ_LOST_OVF, V.RAISED]

theorem Within.cqLost {p k : Nat} (h : s.Within M t) (hm : cqLostScope.le M = true := by decide +kernel) : s.Within M (t.cqLost p k) := by
  refine h.andThen hm fun h => ?_
  unfold State.cqLost
  exact h.bumpOvf

def vectorScope : Scope := scope [] [F.PCI_FN_STAT_BADVEC] ||| msixScope

theorem Within.vector {f v : Nat} (h : s.Within M t) (hm : vectorScope.le M = true := by decide +kernel) : s.Within M (t.vector f v) := by
  refine h.andThen hm fun h => ?_
  unfold State.vector
  exact .ite h.raise h.msix

def cqVectorScope : Scope := scope [] [V.CQ_VEC_DUE, V.CQ_VEC_TIME] ||| vectorScope

theorem Within.cqVector {p k : Nat} (h : s.Within M t) (hm : cqVectorScope.le M = true := by decide +kernel) : s.Within M (t.cqVector p k)
    := by
  refine h.andThen hm fun h => ?_
  unfold State.cqVector
  exact .ite h.vector.wr.wr h.wr

/-- What a completion record written to its queue may change. -/
def cqPutScope : Scope := cqBytes ||| scope [] [F.SEQ_CQ_PTR_PROD] ||| ringStoreScope ||| cqVectorScope ||| hostFailScope ||| cqLostScope

theorem Within.cqPut {p k rcd : Nat} (h : s.Within M t) (hm : cqPutScope.le M = true := by decide +kernel) : s.Within M (t.cqPut p k rcd) := by
  refine h.andThen hm fun h => ?_
  unfold State.cqPut
  extract_lets log2 prod
  split
  · next v e =>
    refine (h.ringWriteIn (by decide +kernel) (by decide +kernel) (fun _ hhost ps hplace a ha => ?_) e).bump.cqVector
    rw [length_leBytes] at hplace
    exact .inl ⟨by decide +kernel, .inl ⟨p, k, hhost, prod % 2 ^ log2, ps, Nat.mod_lt _ (by positivity), hplace, ha⟩⟩
  · exact .ite h.hostFail.cqLost h.cqLost

def cqPostScope : Scope := scope [.cqWait] [] ||| cqPutScope

theorem Within.cqPost {p k : Nat} {r : CqRec} (h : s.Within M t) (hm : cqPostScope.le M = true := by decide +kernel) :
    s.Within M (t.cqPost p k r) := by
  refine h.andThen hm fun h => ?_
  unfold State.cqPost
  extract_lets
  exact .ite h.cqLost (.ite h.cqPut (.ite h.cqWait h.cqLost))

def samplePutScope : Scope := scope [.psBuf] [F.CTR_PS_STAT_WRAPPED]

theorem Within.samplePut {q rcd : Nat} (h : s.Within M t) (hm : samplePutScope.le M = true := by decide +kernel) :
    s.Within M (t.samplePut q rcd) := by
  refine h.andThen hm fun h => ?_
  unfold State.samplePut
  extract_lets
  exact .ite h.psBuf (.ite h.psBuf.wr h)

def sampleEndScope : Scope := scope [] [V.PS_WAIT, V.PS_BEG, V.PS_REC] ||| samplePutScope

theorem Within.sampleEnd {key : List Nat} {status : Nat} (h : s.Within M t) (hm : sampleEndScope.le M = true := by decide +kernel) :
    s.Within M (t.sampleEnd key status) := by
  refine h.andThen hm fun h => ?_
  unfold State.sampleEnd
  extract_lets
  exact .ite h h.samplePut.wr.wr.wr

def cmdDoneScope : Scope := sampleEndScope ||| cqPostScope

theorem Within.cmdDone {q p e' entry status : Nat} (h : s.Within M t) (hm : cmdDoneScope.le M = true := by decide +kernel) :
    s.Within M (t.cmdDone q p e' entry status) := by
  refine h.andThen hm fun h => ?_
  unfold State.cmdDone
  extract_lets s1
  have hs1 : t.Within cmdDoneScope s1 := h.sampleEnd
  exact .ite hs1.cqPost hs1

def grmStatScope : Scope := scope [] [F.GRM_STAT_COUNT, F.GRM_STAT_OVF] ||| countLocalScope

theorem Within.grmStat {q p c n : Nat} (h : s.Within M t) (hm : grmStatScope.le M = true := by decide +kernel) :
    s.Within M (t.grmStat q p c n) := by
  refine h.andThen hm fun h => ?_
  unfold State.grmStat
  exact h.bumpOvf.countLocal

def gramEndScope : Scope := scope [] [V.GRM_ABORT, V.GRM_ENTRY, F.GRM_PART_STATE] ||| grmStatScope ||| cmdDoneScope

theorem Within.gramEnd {q p entry status : Nat} (h : s.Within M t) (hm : gramEndScope.le M = true := by decide +kernel) :
    s.Within M (t.gramEnd q p entry status) := by
  refine h.andThen hm fun h => ?_
  unfold State.gramEnd
  extract_lets s1 s2
  have hs1 : t.Within gramEndScope s1 := h.grmStat
  have hs2 : t.Within gramEndScope s2 := hs1.wr.wr.wr
  exact hs2.cmdDone

def gramStopScope : Scope := gramEndScope ||| bankWasteScope ||| stepFailScope

theorem Within.gramStop {q p : Nat} (h : s.Within M t) (hm : gramStopScope.le M = true := by decide +kernel) : s.Within M (t.gramStop q p)
    := by
  refine h.andThen hm fun h => ?_
  unfold State.gramStop
  extract_lets _ s'1
  have hs'1 : t.Within gramStopScope s'1 := h.bankWaste.gramEnd
  exact .ite hs'1.stepFail hs'1

def emptyQuadScope : Scope := scope [.staging, .bufs, .reasm, .svc, .mitEgress, .parkQ, .movCmds, .mit, .notices, .slots, .slab, .waits,
  .admMsgs, .pagerOp] []

theorem Within.emptyQuad {q : Nat} (h : s.Within M t) (hm : emptyQuadScope.le M = true := by decide +kernel) : s.Within M (t.emptyQuad q)
    := by
  refine h.andThen hm fun h => ?_
  unfold State.emptyQuad
  extract_lets
  exact h.manyParts [.staging, .bufs, .reasm, .svc, .mitEgress, .parkQ, .movCmds, .mit, .notices, .slots, .slab, .waits, .admMsgs, .pagerOp]

def stepFlagsSettleScope : Scope := stepFlagRecordScope

theorem Within.stepFlagsSettle {p step : Nat} (h : s.Within M t) (hm : stepFlagsSettleScope.le M = true := by decide +kernel) :
    s.Within M (t.stepFlagsSettle p step) := by
  refine h.andThen hm fun h => ?_
  unfold State.stepFlagsSettle
  extract_lets
  exact .ite h h.stepFlagRecord

def instSendScope : Scope := scope [] [V.INST_SEQ, V.INST_FIRST] ||| instPutScope

theorem Within.instSend {p coll : Nat} {e' : CollE} {step : Nat} {what : Key} (h : s.Within M t)
    (hm : instSendScope.le M = true := by decide +kernel) : s.Within M ((t.instSend p coll e' step what).1) := by
  refine h.andThen hm fun h => ?_
  unfold State.instSend
  extract_lets
  split
  · extract_lets
    split <;> exact h.instPut
  · split
    · exact h
    · exact h.wr.wr

def instPacketScope : Scope := instSendScope ||| sendScope

theorem Within.instPacket
    {q port op p coll step : Nat} {e' : CollE} {chunk fmt : Nat} {cls : Cls} {dest : To} {resend flags : Nat} {c : Piece}
    (h : s.Within M t) (hm : instPacketScope.le M = true := by decide +kernel) :
    s.Within M (t.instPacket q port op p coll step e' chunk fmt cls dest resend flags c) := by
  refine h.andThen hm fun h => ?_
  unfold State.instPacket
  extract_lets pl go
  have hgo : ∀ part dt dst mark, t.Within instPacketScope (go part dt dst mark) := fun _ _ _ _ => by
    dsimp only [go]
    exact h.instSend.send
  split
  · exact .ite (hgo ..) h
  · exact hgo ..
  · exact hgo ..

def sendAbortScope : Scope := instPacketScope

theorem Within.sendAbort {p coll : Nat} {e' : CollE} {i : Inst} {reason missing : Nat} (h : s.Within M t)
    (hm : sendAbortScope.le M = true := by decide +kernel) : s.Within M (t.sendAbort p coll e' i reason missing) := by
  refine h.andThen hm fun h => ?_
  unfold State.sendAbort
  extract_lets
  exact .ite (h.foldl (fun _ _ hu => hu.instPacket)) h.instPacket

def handoffsDropScope : Scope := scope [.handoffs] []

theorem Within.handoffsDrop {p coll step : Nat} (h : s.Within M t) (hm : handoffsDropScope.le M = true := by decide +kernel) :
    s.Within M (t.handoffsDrop p coll step) := by
  refine h.andThen hm fun h => ?_
  unfold State.handoffsDrop
  extract_lets
  exact h.handoffs

def slotPutScope : Scope := scope [.slots] []

theorem Within.slotPut {k : Key} {x : Slot} (h : s.Within M t) (hm : slotPutScope.le M = true := by decide +kernel) :
    s.Within M (t.slotPut k x) := by
  refine h.andThen hm fun h => ?_
  unfold State.slotPut
  exact h.slots

def dirFillScope : Scope := slotPutScope

theorem Within.dirFill {q p n hole j : Nat} (h : s.Within M t) (hm : dirFillScope.le M = true := by decide +kernel) :
    s.Within M (t.dirFill q p n hole j) := by
  induction n generalizing t hole j with
  | zero => exact h
  | succ n ih =>
    unfold State.dirFill
    dsimp only
    split
    · exact .ite (ih (h.slotPut hm)) (h.slotPut hm)
    · exact .ite (ih h) h

def slotDropScope : Scope := scope [.slots] [] ||| dirFillScope

theorem Within.slotDrop {k : Key} (h : s.Within M t) (hm : slotDropScope.le M = true := by decide +kernel) : s.Within M (t.slotDrop k)
    := by
  refine h.andThen hm fun h => ?_
  unfold State.slotDrop
  extract_lets _ _ t1
  have ht1 : t.Within slotDropScope t1 := h.slots
  split
  · exact h
  · exact .ite ht1.dirFill ht1

def instAbortScope : Scope := scope [] [F.SEQ_ABORT_MORE, F.SEQ_ABORT_VALID, F.SEQ_ABORT_MISSING, F.SEQ_ABORT_STEP_TAG,
  F.SEQ_ABORT_COLL_ID, F.SEQ_ABORT_MAP_MISSING] ||| slotDropScope ||| handoffsDropScope ||| sendAbortScope ||| cqPostScope
  ||| stepFlagsSettleScope

theorem Within.instAbort {p coll : Nat} {e' : CollE} {i : Inst} {reason : Nat} (h : s.Within M t)
    (hm : instAbortScope.le M = true := by decide +kernel) : s.Within M (t.instAbort p coll e' i reason) := by
  refine h.andThen hm fun h => ?_
  unfold State.instAbort
  extract_lets _ _ _ s1 s2 s3 s4 s5 s6 s7 s8
  have hs1 : t.Within instAbortScope s1 := h.instPut
  have hs2 : t.Within instAbortScope s2 := hs1.foldl (fun _ _ hu2 => hu2.slotDrop)
  have hs3 : t.Within instAbortScope s3 := hs2.handoffsDrop
  have hs4 : t.Within instAbortScope s4 := hs3.sendAbort
  have hs5 : t.Within instAbortScope s5 := .ite hs4.wr hs4
  have hs6 : t.Within instAbortScope s6 := hs5.wr.wr.wr.raise
  have hs7 : t.Within instAbortScope s7 := hs6.foldl (fun _ _ hu => hu.wr)
  have hs8 : t.Within instAbortScope s8 := .ite hs7.cqPost hs7
  exact hs8.err.stepFlagsSettle

def abortInScope : Scope := instAbortScope

theorem Within.abortIn {q : Nat} (h : s.Within M t) (hm : abortInScope.le M = true := by decide +kernel) : s.Within M (t.abortIn q) := by
  refine h.andThen hm fun h => ?_
  unfold State.abortIn
  extract_lets
  refine h.foldl fun _ _ hu => by
    split
    · split
      · exact .ite hu hu.instAbort
      · exact hu
    · exact hu

def failStepsScope : Scope := stepFailScope

theorem Within.failSteps {q : Nat} (h : s.Within M t) (hm : failStepsScope.le M = true := by decide +kernel) : s.Within M (t.failSteps q)
    := by
  refine h.andThen hm fun h => ?_
  unfold State.failSteps
  exact h.foldl (fun _ _ hu => .ite hu.stepFail hu)

def quadResetScope : Scope := scope [] [F.HAT_RESET_LAST, V.QRESET] ||| scope [] quadFields ||| failStepsScope ||| abortInScope
  ||| linkDownScope ||| emptyQuadScope

theorem Within.quadReset {q : Nat} (h : s.Within M t) (hm : quadResetScope.le M = true := by decide +kernel) : s.Within M (t.quadReset q)
    := by
  refine h.andThen hm fun h => ?_
  unfold State.quadReset
  extract_lets s1 s2 s3
  have hs1 : t.Within quadResetScope s1 := h.wr.wr
  have hs2 : t.Within quadResetScope s2 := hs1.abortIn.failSteps
  have hs3 : t.Within quadResetScope s3 := hs2.foldl (fun _ _ hu => hu.linkDown)
  exact .ite h hs3.emptyQuad.clearAt

def stompLastScope : Scope := scope [.bufs] []

theorem Within.stompLast {q : Nat} (h : s.Within M t) (hm : stompLastScope.le M = true := by decide +kernel) : s.Within M (t.stompLast q)
    := by
  refine h.andThen hm fun h => ?_
  unfold State.stompLast
  extract_lets
  split
  · extract_lets
    exact h.bufs
  · exact h

def sramFireScope : Scope := stompLastScope ||| quadResetScope ||| gramStopScope ||| mitRoundAbortScope ||| yofenResetScope

theorem Within.sramFire {q m p a b : Nat} {double : Bool} (h : s.Within M t) (hm : sramFireScope.le M = true := by decide +kernel) :
    s.Within M (t.sramFire q m p a b double) := by
  refine h.andThen hm fun h => ?_
  unfold State.sramFire
  extract_lets
  split
  · exact h.err
  · split
    · split
      · split
        · exact h.err.instAbort
        · exact h.err
      · exact h.err
    · exact h.err.stompLast
    · exact h.err.quadReset
    · exact .ite h.err.gramStop h.err
    · exact h.err.mitRoundAbort
    · exact .ite h.yofenReset h
    · exact h.hatRecord
    · exact h

def injPatienceScope : Scope := mitRoundAbortScope ||| instAbortScope

theorem Within.injPatience {p target : Nat} (h : s.Within M t) (hm : injPatienceScope.le M = true := by decide +kernel) :
    s.Within M (t.injPatience p target) := by
  refine h.andThen hm fun h => ?_
  unfold State.injPatience
  extract_lets
  split
  · split
    · exact h.mitRoundAbort
    · exact h
  · split
    · exact h.instAbort
    · exact h

def seamDownScope : Scope := scope [] [V.SEAM_DOWN, V.PLANE_WITHDRAWN] ||| errScope ||| withdrawScope

theorem Within.seamDown {a b : Nat} (h : s.Within M t) (hm : seamDownScope.le M = true := by decide +kernel) : s.Within M (t.seamDown a b)
    := by
  refine h.andThen hm fun h => ?_
  unfold State.seamDown
  extract_lets s1 s2
  have hs1 : t.Within seamDownScope s1 := h.wr
  have hs2 : t.Within seamDownScope s2 := hs1.err
  exact .ite h hs2.wr.withdraw

def injWithScope : Scope := scope [] [V.INJ_NOW] ||| injFiredScope

theorem Within.injWith {f : State → State} (h : s.Within M t) (H : ∀ u, s.Within M u → s.Within M (f u))
    (hm : injWithScope.le M = true := by decide +kernel) : s.Within M (t.injWith f) :=
  (H _ ((h.injFired (Scope.part hm)).wr (Scope.part hm))).wr (Scope.part hm)

def injNowScope : Scope := injWithScope ||| seamDownScope ||| injPatienceScope ||| sramFireScope ||| movBusErrorScope

theorem Within.injNow {det q p target : Nat} (h : s.Within M t) (hm : injNowScope.le M = true := by decide +kernel) :
    s.Within M (t.injNow det q p target) := by
  refine h.andThen hm fun h => ?_
  unfold State.injNow
  split
  · exact .ite (h.injWith (fun _ hu => hu.seamDown)) h
  · exact h.injWith (fun _ hu2 => hu2.injPatience)
  · exact .ite (h.injWith (fun _ hu3 => hu3.sramFire)) h
  · exact .ite h.wr.movBusError.wr h
  · exact h

def injRefusedScope : Scope := scope [] [F.ERR_INJ_STAT_REFUSED, V.RAISED]

theorem Within.injRefused (h : s.Within M t) (hm : injRefusedScope.le M = true := by decide +kernel) : s.Within M (t.injRefused) := by
  refine h.andThen hm fun h => ?_
  unfold State.injRefused
  exact h.raise

def injFieldsScope : Scope := scope [] [F.ERR_INJ_TARGET, F.ERR_INJ_RECORD_ONLY, F.ERR_INJ_PART, F.ERR_INJ_QUAD, F.ERR_INJ_DET]

theorem Within.injFields {v : Nat} (h : s.Within M t) (hm : injFieldsScope.le M = true := by decide +kernel) : s.Within M (t.injFields v)
    := by
  refine h.andThen hm fun h => ?_
  unfold State.injFields
  exact h.wr.wr.wr.wr.wr

def errorInjectScope : Scope := scope [.free] [] ||| injFieldsScope ||| injRefusedScope ||| injNowScope ||| injArmScope

theorem Within.errorInject {v : Nat} (h : s.Within M t) (hm : errorInjectScope.le M = true := by decide +kernel) :
    s.Within M (t.errorInject v) := by
  refine h.andThen hm fun h => ?_
  unfold State.errorInject
  extract_lets _ _ _ _ _ s1
  have hs1 : t.Within errorInjectScope s1 := h.injFields
  exact .ite hs1 (.ite hs1.injRefused (.ite hs1.raise.freshen.err hs1.injArm.injNow))

def injectEnableScope : Scope := scope [] [F.ERR_INJ_CTL_EN, V.HOST_W]

theorem Within.injectEnable {v : Nat} (h : s.Within M t) (hm : injectEnableScope.le M = true := by decide +kernel) :
    s.Within M (t.injectEnable v) := by
  refine h.andThen hm fun h => ?_
  unfold State.injectEnable
  exact .ite h.wr (.ite h.hostWr h)

def counterClearScope : Scope := scope [] [F.CTR_VAL_COUNT, F.CTR_VAL_OVF, F.CTRM_VAL_COUNT, F.CTRM_VAL_OVF]

theorem Within.counterClear {v : Nat} (h : s.Within M t) (hm : counterClearScope.le M = true := by decide +kernel) :
    s.Within M (t.counterClear v) := by
  refine h.andThen hm fun h => ?_
  unfold State.counterClear
  extract_lets bank
  refine .ite h (h.foldl fun u i hu => .ite ?_ hu)
  extract_lets c
  have hcount : c.1 ∈ [F.CTR_VAL_COUNT, F.CTRM_VAL_COUNT] := by
    unfold c ctrAt
    split <;> simp
  have hovf : c.2.1 ∈ [F.CTR_VAL_OVF, F.CTRM_VAL_OVF] := by
    unfold c ctrAt
    split <;> simp
  have hw := hu.wrMem _ hcount (ix := c.2.2) (n := 0)
  exact .ite hw (hw.wrMem _ hovf)

def selectWriteScope : Scope := scope [] [V.SEL_NEXT]

theorem Within.selectWrite {ix : List Nat} {w : RegWrite} (h : s.Within M t) (hm : selectWriteScope.le M = true := by decide +kernel) :
    s.Within M (t.selectWrite ix w) := by
  refine h.andThen hm fun h => ?_
  unfold State.selectWrite
  exact .ite h.wr h

def debugReleaseScope : Scope := dbgDoneScope ||| grantEndScope

theorem Within.debugRelease (h : s.Within M t) (hm : debugReleaseScope.le M = true := by decide +kernel) : s.Within M (t.debugRelease)
    := by
  refine h.andThen hm fun h => ?_
  unfold State.debugRelease
  exact h.grantEnd.dbgDone

def requestD1Scope : Scope := scope [] [F.DBG_LEVEL_IFACE, F.DBG_LEVEL_LEVEL] ||| grantRecordScope ||| dbgDoneScope

theorem Within.requestD1 {jtag : Bool} (h : s.Within M t) (hm : requestD1Scope.le M = true := by decide +kernel) :
    s.Within M (t.requestD1 jtag) := by
  refine h.andThen hm fun h => ?_
  unfold State.requestD1
  extract_lets s1
  have hs1 : t.Within requestD1Scope s1 := .ite h.wr.wr.grantRecord h
  exact hs1.dbgDone

def dbgCmdScope : Scope := requestD1Scope ||| debugReleaseScope

theorem Within.dbgCmd {v : Nat} (h : s.Within M t) (hm : dbgCmdScope.le M = true := by decide +kernel) : s.Within M (t.dbgCmd v) := by
  refine h.andThen hm fun h => ?_
  unfold State.dbgCmd
  extract_lets s1
  have hs1 : t.Within dbgCmdScope s1 := h.wr
  split
  · exact h
  · split
    · exact h.requestD1
    · exact .ite hs1 hs1.hostFail.dbgDone
    · exact h.debugRelease
    · exact h

def showCountersScope : Scope := scope [] [F.SEC_BOOT_EPOCH, F.SEC_LC_COUNT, F.SEC_BOOT_OWNER_GEN, F.SEC_FLOOR_KNIT, F.SEC_FLOOR_FW]

theorem Within.showCounters (h : s.Within M t) (hm : showCountersScope.le M = true := by decide +kernel) : s.Within M (t.showCounters)
    := by
  refine h.andThen hm fun h => ?_
  unfold State.showCounters
  exact h.wr.wr.wr.wr.wr

def flashCmdScope : Scope := scope [] [V.FLASH_KEYED, V.FLASH_KEY, V.FLASH_SEQ, V.FLASH_CTR]

theorem Within.flashCmd {op : Nat} {req : List Byte} (h : s.Within M t) (hm : flashCmdScope.le M = true := by decide +kernel) :
    s.Within M ((t.flashCmd op req).1) := by
  refine h.andThen hm fun h => ?_
  unfold State.flashCmd
  extract_lets
  split
  · split
    · exact h
    · exact h.wr.wr
  · exact h
  · exact .ite h.wr.bump h
  · exact h
  · exact h

def ctrRaiseScope : Scope := flashCmdScope ||| showCountersScope

theorem Within.ctrRaise {i v : Nat} (h : s.Within M t) (hm : ctrRaiseScope.le M = true := by decide +kernel) (e : t.ctrRaise i v = some u) :
    s.Within M u := by
  refine h.andThen hm fun h => ?_
  unfold State.ctrRaise at e
  dsimp only at e
  split at e
  · exact Within.of_some (h.flashCmd.showCounters) e
  · cases e

/-- What the raise of a counter beside the floors may change. -/
def highRaiseScope : Scope := 2 ^ (2 * V.FLASH_CTR.id) ||| scope [] [V.FLASH_SEQ] ||| showCountersScope

/-- An increment command of a counter beside the floors. -/
theorem Within.flashCmd_high {req : List Byte} (h : s.Within M t) (hi : 2 ≤ leAt req 0 1) (hm : highRaiseScope.le M = true) :
    s.Within M (t.flashCmd 0xA2 req).1 := by
  unfold State.flashCmd
  exact .ite ((h.wr_flashCtr hi (Scope.testBit_of_le hm (by decide +kernel))).bump (Scope.part hm)) h

theorem leAt_leBytes_one (i : Nat) (l : List Byte) : leAt (leBytes 1 i ++ l) 0 1 = i % 256 := by
  simp [leAt, leBytes, bytesAt, ofLE]

/-- The raise of a counter beside the floors. -/
theorem Within.ctrRaise_high {i v : Nat} (h : s.Within M t) (hi : 2 ≤ i % 256) (hm : highRaiseScope.le M = true := by decide +kernel)
    (e : t.ctrRaise i v = some u) : s.Within M u := by
  unfold State.ctrRaise at e
  dsimp only at e
  split at e
  · refine Within.of_some ((h.flashCmd_high ?_ hm).showCounters (Scope.le_trans (by decide +kernel) hm)) e
    rw [List.append_assoc, List.append_assoc, leAt_leBytes_one]
    exact hi
  · cases e

def secDoneScope : Scope := scope [] [V.SEC_NOVEC, F.SEC_STATUS_RESULT, F.SEC_STATUS_BUSY] ||| msixScope

theorem Within.secDone {result : Nat} (h : s.Within M t) (hm : secDoneScope.le M = true := by decide +kernel) :
    s.Within M (t.secDone result) := by
  refine h.andThen hm fun h => ?_
  unfold State.secDone
  extract_lets _ _ s1
  have hs1 : t.Within secDoneScope s1 := h.wr.wr.wr
  exact .ite hs1.msix hs1

def floorRaiseScope : Scope := ctrRaiseScope ||| secDoneScope

theorem Within.floorRaise {i v : Nat} (h : s.Within M t) (hm : floorRaiseScope.le M = true := by decide +kernel) : s.Within M (t.floorRaise i v) := by
  refine h.andThen hm fun h => ?_
  unfold State.floorRaise
  refine .ite h.secDone ?_
  split
  · next u e => exact (h.ctrRaise (e := e)).secDone
  · exact h.secDone

/-- What the raise of a counter beside the floors by SEC_CMD may change. -/
def floorRaiseHighScope : Scope := highRaiseScope ||| secDoneScope

theorem Within.floorRaise_high {i v : Nat} (h : s.Within M t) (hi : 2 ≤ i % 256) (hm : floorRaiseHighScope.le M = true := by decide +kernel) :
    s.Within M (t.floorRaise i v) := by
  refine h.andThen hm fun h => ?_
  unfold State.floorRaise
  refine .ite h.secDone ?_
  split
  · next u e => exact (h.ctrRaise_high hi (e := e)).secDone
  · exact h.secDone

def knitFloorScope : Scope := floorRaiseScope

theorem Within.knitFloor (h : s.Within M t) (hm : knitFloorScope.le M = true := by decide +kernel) : s.Within M (t.knitFloor) := by
  refine h.andThen hm fun h => ?_
  unfold State.knitFloor
  exact h.floorRaise

def firmwareFloorScope : Scope := floorRaiseScope

theorem Within.firmwareFloor (h : s.Within M t) (hm : firmwareFloorScope.le M = true := by decide +kernel) : s.Within M (t.firmwareFloor)
    := by
  refine h.andThen hm fun h => ?_
  unfold State.firmwareFloor
  exact h.floorRaise

def secCmdScope : Scope := hostFailScope ||| firmwareFloorScope ||| knitFloorScope

theorem Within.secCmd {v : Nat} (h : s.Within M t) (hm : secCmdScope.le M = true := by decide +kernel) : s.Within M (t.secCmd v) := by
  refine h.andThen hm fun h => ?_
  unfold State.secCmd
  extract_lets s1
  have hs1 : t.Within secCmdScope s1 := h.wr
  split
  · exact h
  · split
    · exact .ite hs1 hs1.hostFail.secDone
    · exact .ite hs1 hs1.hostFail.secDone
    · exact h.wr.firmwareFloor
    · exact h.wr.knitFloor
    · exact h

def ledUpdateScope : Scope := scope [] [V.LED_FLASH, V.LED]

theorem Within.ledUpdate {c : Nat} (h : s.Within M t) (hm : ledUpdateScope.le M = true := by decide +kernel) : s.Within M (t.ledUpdate c)
    := by
  refine h.andThen hm fun h => ?_
  unfold State.ledUpdate
  exact .ite h.wr.wr h

def ledAllScope : Scope := ledUpdateScope

theorem Within.ledAll (h : s.Within M t) (hm : ledAllScope.le M = true := by decide +kernel) : s.Within M (t.ledAll) := by
  refine h.andThen hm fun h => ?_
  unfold State.ledAll
  exact h.foldl (fun _ _ hu => hu.ledUpdate)

def setCartScope : Scope := scope [] [F.TRY_CART_STATE] ||| ledUpdateScope

theorem Within.setCart {c st : Nat} (h : s.Within M t) (hm : setCartScope.le M = true := by decide +kernel) : s.Within M (t.setCart c st)
    := by
  refine h.andThen hm fun h => ?_
  unfold State.setCart
  exact h.wr.ledUpdate

def cartTrainScope : Scope := scope [] [F.LNK_PORT_CTL_EN, V.CART_LATCH] ||| setCartScope

theorem Within.cartTrain {c : Nat} (h : s.Within M t) (hm : cartTrainScope.le M = true := by decide +kernel) : s.Within M (t.cartTrain c)
    := by
  refine h.andThen hm fun h => ?_
  unfold State.cartTrain
  exact (h.wr.foldl (fun _ _ hu => .ite hu.hwWr hu)).setCart

def cartEnableScope : Scope := cartTrainScope

theorem Within.cartEnable {c who : Nat} (h : s.Within M t) (hm : cartEnableScope.le M = true := by decide +kernel) :
    s.Within M (t.cartEnable c who) := by
  refine h.andThen hm fun h => ?_
  unfold State.cartEnable
  exact .ite h.cartTrain (.ite h.wr h)

def cartRejoinScope : Scope := cartEnableScope

theorem Within.cartRejoin {c : Nat} (h : s.Within M t) (hm : cartRejoinScope.le M = true := by decide +kernel) :
    s.Within M (t.cartRejoin c) := by
  refine h.andThen hm fun h => ?_
  unfold State.cartRejoin
  exact .ite h.cartEnable h

def cartWithdrawScope : Scope := scope [] [F.TRY_CART_LAST_REASON] ||| setCartScope ||| withdrawScope

theorem Within.cartWithdraw {c st reason : Nat} (h : s.Within M t) (hm : cartWithdrawScope.le M = true := by decide +kernel) :
    s.Within M (t.cartWithdraw c st reason) := by
  refine h.andThen hm fun h => ?_
  unfold State.cartWithdraw
  exact h.wr.withdraw.setCart

def cartForceInScope : Scope := cartWithdrawScope

theorem Within.cartForceIn {c reason : Nat} (h : s.Within M t) (hm : cartForceInScope.le M = true := by decide +kernel) :
    s.Within M (t.cartForceIn c reason) := by
  refine h.andThen hm fun h => ?_
  unfold State.cartForceIn
  exact .ite h.cartWithdraw h

def cartForceScope : Scope := scope [] [V.CART_LATCH] ||| cartForceInScope

theorem Within.cartForce {c : Nat} (h : s.Within M t) (hm : cartForceScope.le M = true := by decide +kernel) : s.Within M (t.cartForce c)
    := by
  refine h.andThen hm fun h => ?_
  unfold State.cartForce
  exact .ite h.wr.cartForceIn h

def cartRefuseScope : Scope := scope [] [V.LED_FLASH, F.TRY_CART_REFUSED, V.RAISED]

theorem Within.cartRefuse {c : Nat} (h : s.Within M t) (hm : cartRefuseScope.le M = true := by decide +kernel) :
    s.Within M (t.cartRefuse c) := by
  refine h.andThen hm fun h => ?_
  unfold State.cartRefuse
  exact h.raise.wr

def cartDrainScope : Scope := scope [] [V.CART_LATCH] ||| cartRefuseScope ||| cartWithdrawScope

theorem Within.cartDrain {c : Nat} (h : s.Within M t) (hm : cartDrainScope.le M = true := by decide +kernel) : s.Within M (t.cartDrain c)
    := by
  refine h.andThen hm fun h => ?_
  unfold State.cartDrain
  extract_lets s1
  have hs1 : t.Within cartDrainScope s1 := h.wr
  exact .ite h (.ite h.cartRefuse (.ite hs1.cartWithdraw hs1))

def cartCmdScope : Scope := cartDrainScope ||| cartForceScope ||| cartRejoinScope

theorem Within.cartCmd {c op : Nat} (h : s.Within M t) (hm : cartCmdScope.le M = true := by decide +kernel) : s.Within M (t.cartCmd c op)
    := by
  refine h.andThen hm fun h => ?_
  unfold State.cartCmd
  split
  · exact h.cartDrain
  · exact h.cartForce
  · exact h.cartRejoin
  · exact h

def trayInjectScope : Scope := scope [] [F.TRY_INJ_KIND, F.TRY_INJ_CHANNEL, V.ADC_INJ_END, V.ADC_INJ_CH, V.HB_STOP_END, V.DUTY_INJ_END]
  ||| injRefusedScope ||| injFiredScope

theorem Within.trayInject {v : Nat} (h : s.Within M t) (hm : trayInjectScope.le M = true := by decide +kernel) :
    s.Within M (t.trayInject v) := by
  refine h.andThen hm fun h => ?_
  unfold State.trayInject
  extract_lets kind put
  have hput : t.Within trayInjectScope put := h.wr.wr
  clear_value put kind
  refine .ite hput (.ite hput.injRefused ?_)
  split
  · exact hput.wr.wr.injFired
  · exact hput.wr.injFired
  · exact hput.wr.injFired
  · exact hput

def accNoticeScope : Scope := noticeScope

theorem Within.accNotice (h : s.Within M t) (hm : accNoticeScope.le M = true := by decide +kernel) : s.Within M (t.accNotice) := by
  refine h.andThen hm fun h => ?_
  unfold State.accNotice
  exact h.notice

def accGoScope : Scope := scope [] [F.TRY_ALERT_ACC_LEVEL] ||| accNoticeScope

theorem Within.accGo {v : Nat} (h : s.Within M t) (hm : accGoScope.le M = true := by decide +kernel) : s.Within M (t.accGo v) := by
  refine h.andThen hm fun h => ?_
  unfold State.accGo
  extract_lets s1
  have hs1 : t.Within accGoScope s1 := h.wr
  exact .ite hs1.accNotice hs1

def dutyOutScope : Scope := scope [] [V.PWM_OUT]

theorem Within.dutyOut {i : Nat} (h : s.Within M t) (hm : dutyOutScope.le M = true := by decide +kernel) : s.Within M (t.dutyOut i) := by
  refine h.andThen hm fun h => ?_
  unfold State.dutyOut
  extract_lets
  exact h.wr

def dutyForcedScope : Scope := dutyOutScope

theorem Within.dutyForced (h : s.Within M t) (hm : dutyForcedScope.le M = true := by decide +kernel) : s.Within M (t.dutyForced) := by
  refine h.andThen hm fun h => ?_
  unfold State.dutyForced
  exact .ite (h.foldl (fun _ _ hu => hu.dutyOut)) h

def becomeStandbyScope : Scope := scope [] [V.INTEG_LOADED, F.TRY_OWN_QUALIFIED, F.TRY_OWN_ROLE]

theorem Within.becomeStandby (h : s.Within M t) (hm : becomeStandbyScope.le M = true := by decide +kernel) : s.Within M (t.becomeStandby)
    := by
  refine h.andThen hm fun h => ?_
  unfold State.becomeStandby
  exact h.wr.wr.wr

def trayYieldScope : Scope := becomeStandbyScope

theorem Within.trayYield (h : s.Within M t) (hm : trayYieldScope.le M = true := by decide +kernel) : s.Within M (t.trayYield) := by
  refine h.andThen hm fun h => ?_
  unfold State.trayYield
  exact .ite h.becomeStandby h

def loadTestStartScope : Scope := scope [] [V.LT_BAD, F.HAT_LOADTEST_PHASE, F.HAT_LOADTEST_FAILED, F.HAT_LOADTEST_ACTIVE]

theorem Within.loadTestStart (h : s.Within M t) (hm : loadTestStartScope.le M = true := by decide +kernel) : s.Within M (t.loadTestStart)
    := by
  refine h.andThen hm fun h => ?_
  unfold State.loadTestStart
  exact h.wr.wr.wr.wr

def loadtestRunScope : Scope := scope [] [V.REPAIR, F.HAT_BOOT_STEP] ||| loadTestStartScope

theorem Within.loadtestRun (h : s.Within M t) (hm : loadtestRunScope.le M = true := by decide +kernel) : s.Within M (t.loadtestRun) := by
  refine h.andThen hm fun h => ?_
  unfold State.loadtestRun
  exact .ite h.wr.loadTestStart.wr h

def fnResetScope : Scope := scope [] [V.MSIX_MASK, V.MSIX_PEND, V.BME, V.AER_ADV, V.AER_ERR, F.PCI_APER_BASE]

theorem Within.fnReset {f : Nat} (h : s.Within M t) (hm : fnResetScope.le M = true := by decide +kernel) : s.Within M (t.fnReset f) := by
  refine h.andThen hm fun h => ?_
  unfold State.fnReset
  exact h.wr.eraseRegs ([V.MSIX_MASK, V.MSIX_PEND, V.BME, V.AER_ADV, V.AER_ERR]) (fun _ _ hn => by simp only [List.forall_mem_cons] at hn; simp [hn])

def warmShowScope : Scope := scope [] [F.HAT_GATE_WARM]

theorem Within.warmShow {q e' : Nat} (h : s.Within M t) (hm : warmShowScope.le M = true := by decide +kernel) :
    s.Within M (t.warmShow q e') := by
  refine h.andThen hm fun h => ?_
  unfold State.warmShow
  extract_lets
  exact h.wr

def partClearScope : Scope := scope [.insts, .trigOps, .handoffs] [V.WARM_NS, V.TRIG_CTR, V.TRIG_WORD, V.TRIG_CTX, F.SEQ_STEP_REPLAY,
  V.REPLAY_STEP, V.REPLAY_QUAD, V.REPLAY_ENTRY, V.INST_SEQ, V.INST_FIRST, V.STEPFLG_OVF, V.STEPFLG_INV, V.STEPFLG_REC, V.PUB_OVER,
  F.GRM_PART_STATE, F.GRM_PART_OPCODE, F.GRM_PART_TAG, F.GRM_PROG_DONE, F.GRM_PROG_TOTAL, V.GRM_ENTRY, V.GRM_ABORT, V.GRM_STEP, V.GRM_NF,
  V.GRM_TAINT, F.SEQ_RING_CTL_EN, F.SEQ_RING_CTL_ERR, F.SEQ_RING_CTL_DBERR, F.SEQ_RING_PROD_PROD, F.SEQ_RING_CONS_CONS, V.HEAD_CYC,
  V.MOV_WAITC, V.PS_REC, V.PS_BEG, V.PS_WAIT]

theorem Within.partClear {p : Nat} (h : s.Within M t) (hm : partClearScope.le M = true := by decide +kernel) : s.Within M (t.partClear p)
    := by
  refine h.andThen hm fun h => ?_
  unfold State.partClear
  extract_lets s1 first second third
  have hs1 : t.Within partClearScope s1 := h.manyParts [.insts, .trigOps, .handoffs]
  exact hs1.eraseRegs [V.TRIG_CTR, V.TRIG_WORD, V.TRIG_CTX, F.SEQ_STEP_REPLAY, V.REPLAY_STEP, V.REPLAY_QUAD,
      V.REPLAY_ENTRY, V.INST_SEQ, V.INST_FIRST, V.STEPFLG_OVF, V.STEPFLG_INV, V.STEPFLG_REC, V.PUB_OVER, F.GRM_PART_STATE, F.GRM_PART_OPCODE,
      F.GRM_PART_TAG, F.GRM_PROG_DONE, F.GRM_PROG_TOTAL, V.GRM_ENTRY, V.GRM_ABORT, V.GRM_STEP, V.GRM_NF, V.GRM_TAINT, F.SEQ_RING_CTL_EN,
      F.SEQ_RING_CTL_ERR, F.SEQ_RING_CTL_DBERR, F.SEQ_RING_PROD_PROD, F.SEQ_RING_CONS_CONS, V.HEAD_CYC, V.MOV_WAITC, V.PS_REC, V.PS_BEG,
      V.PS_WAIT, V.WARM_NS] fun _ _ hn => by
    simp only [List.forall_mem_cons] at hn
    simp [first, second, third, hn]

def mitEmptyScope : Scope := scope [.mit] []

theorem Within.mitEmpty {own : Nat → Bool} (h : s.Within M t) (hm : mitEmptyScope.le M = true := by decide +kernel) :
    s.Within M (t.mitEmpty own) := by
  refine h.andThen hm fun h => ?_
  unfold State.mitEmpty
  exact h.mit

def movResetScope : Scope := scope [.movCmds] [F.MOV_CH_CTL_ERR, V.MOV_TO_ERR, V.MOV_DROP, V.MOV_START_E, F.MOV_CH_STAT_BUSY,
  F.MOV_EVT_COUNT, V.MOV_WROTE, V.EVT_SIG, V.MOV_ROT] ||| setMovScope

theorem Within.movReset {p : Nat} (h : s.Within M t) (hm : movResetScope.le M = true := by decide +kernel) : s.Within M (t.movReset p)
    := by
  refine h.andThen hm fun h => ?_
  unfold State.movReset
  extract_lets s1 s2 s3
  have hs1 : t.Within movResetScope s1 := h.foldl (fun _ _ hu3 => hu3.foldl (fun _ _ hu4 => hu4.setMov.wr.wr.wr.wr.wr))
  have hs2 : t.Within movResetScope s2 := hs1.foldl (fun _ _ hu => hu.foldl (fun _ _ hu2 => hu2.wr))
  have hs3 : t.Within movResetScope s3 := hs2.eraseRegs ([V.MOV_WROTE, V.EVT_SIG, V.MOV_ROT]) (fun _ _ hn => by simp only [List.forall_mem_cons] at hn; simp [hn])
  exact hs3.movCmds

def setParkedScope : Scope := scope [.parkQ] []

theorem Within.setParked {q : Nat} {l : List Parked} (h : s.Within M t) (hm : setParkedScope.le M = true := by decide +kernel) :
    s.Within M (t.setParked q l) := by
  refine h.andThen hm fun h => ?_
  unfold State.setParked
  exact h.parkQ

def parkResetScope : Scope := setParkedScope

theorem Within.parkReset {p : Nat} (h : s.Within M t) (hm : parkResetScope.le M = true := by decide +kernel) : s.Within M (t.parkReset p)
    := by
  refine h.andThen hm fun h => ?_
  unfold State.parkReset
  exact h.foldl (fun _ _ hu => hu.setParked)

def knitPartResetScope : Scope := knitFailScope

theorem Within.knitPartReset {p : Nat} (h : s.Within M t) (hm : knitPartResetScope.le M = true := by decide +kernel) :
    s.Within M (t.knitPartReset p) := by
  refine h.andThen hm fun h => ?_
  unfold State.knitPartReset
  exact .ite h.knitFail h

def sweepPartScope : Scope := scope [.slots, .waits, .admMsgs] [V.ACC_IN, V.ACC_OUT, F.SLT_SWEEP_ACTIVE, F.SLT_SWEEP_PART]

theorem Within.sweepPart {p : Nat} (h : s.Within M t) (hm : sweepPartScope.le M = true := by decide +kernel) : s.Within M (t.sweepPart p)
    := by
  refine h.andThen hm fun h => ?_
  unfold State.sweepPart
  extract_lets s1 s2
  have hs1 : t.Within sweepPartScope s1 := h.manyParts [.slots, .waits, .admMsgs]
  have hs2 : t.Within sweepPartScope s2 := hs1.eraseRegs ([V.ACC_IN, V.ACC_OUT]) (fun _ _ hn => by simp only [List.forall_mem_cons] at hn; simp [hn])
  exact hs2.foldl (fun _ _ hu => hu.wr.wr)

def partitionResetScope : Scope := scope [] [V.PRST_PS, F.HAT_RESET_LAST, F.UPD_PART_STEP_STATE] ||| sweepPartScope ||| knitPartResetScope
  ||| updClearScope ||| parkResetScope ||| movResetScope ||| mitEmptyScope ||| partClearScope ||| warmShowScope ||| grantEndScope

theorem Within.partitionReset {p : Nat} (h : s.Within M t) (hm : partitionResetScope.le M = true := by decide +kernel) :
    s.Within M (t.partitionReset p) := by
  refine h.andThen hm fun h => ?_
  unfold State.partitionReset
  extract_lets s1 s2 s3 s4 s5
  have hs1 : t.Within partitionResetScope s1 := h.wr.wr
  have hs2 : t.Within partitionResetScope s2 := hs1.knitPartReset.sweepPart
  have hs3 : t.Within partitionResetScope s3 := hs2.updClear.wr
  have hs4 : t.Within partitionResetScope s4 := hs3.partClear.mitEmpty.movReset.parkReset
  have hs5 : t.Within partitionResetScope s5 := hs4.foldl (fun _ _ hu => hu.warmShow)
  exact .ite h (.ite hs5.grantEnd hs5)

def partResetScope : Scope := scope [] [F.GLB_SCRATCH_VALUE] ||| partitionResetScope ||| fnResetScope

theorem Within.partReset {p : Nat} {flr : Bool} (h : s.Within M t) (hm : partResetScope.le M = true := by decide +kernel) :
    s.Within M (t.partReset p flr) := by
  refine h.andThen hm fun h => ?_
  unfold State.partReset
  extract_lets s1
  have hs1 : t.Within partResetScope s1 := h.partitionReset
  exact .ite hs1.fnReset.wr hs1

def moduleResetScope : Scope := scope [] [V.THERM, F.HAT_PSTATE_STATE, F.HAT_RESET_LAST, V.MRESET, V.BOOTING, F.HAT_BOOT_STEP]
  ||| levelDropScope ||| resetKeepingScope

theorem Within.moduleReset {cool : Bool} (h : s.Within M t) (hm : moduleResetScope.le M = true := by decide +kernel) :
    s.Within M (t.moduleReset cool) := by
  refine h.andThen hm fun h => ?_
  unfold State.moduleReset
  extract_lets s1 s2 s3 s4
  have hs1 : t.Within moduleResetScope s1 := h.levelDrop
  have hs2 : t.Within moduleResetScope s2 := hs1.resetKeeping
  have hs3 : t.Within moduleResetScope s3 := .ite hs2.wr hs2
  have hs4 : t.Within moduleResetScope s4 := hs3.wr.wr.wr
  exact .ite h hs4.wr.wr

def resetCmdScope : Scope := moduleResetScope ||| quadResetScope ||| partResetScope

theorem Within.resetCmd {v : Nat} (h : s.Within M t) (hm : resetCmdScope.le M = true := by decide +kernel) : s.Within M (t.resetCmd v)
    := by
  refine h.andThen hm fun h => ?_
  unfold State.resetCmd
  split
  · exact h
  · split
    · exact h.moduleReset
    · exact h.quadReset
    · exact h.partReset
    · exact h

def powerRequestScope : Scope := scope [] [F.HAT_PSTATE_REFUSED, V.PEND_TO] ||| startUpScope ||| leaveP2Scope ||| stopBeginScope

theorem Within.powerRequest {goal : Nat} (h : s.Within M t) (hm : powerRequestScope.le M = true := by decide +kernel) :
    s.Within M (t.powerRequest goal) := by
  refine h.andThen hm fun h => ?_
  unfold State.powerRequest
  extract_lets _ refused1 s2
  have hrefused1 : t.Within powerRequestScope refused1 := h.raise
  have hs2 : t.Within powerRequestScope s2 := h.wr.wr
  split
  · exact h
  · split
    · exact .ite (.ite hrefused1 h.wr.wr) ((Within.ite h.wr h).wr)
    · split
      · exact .ite h (.ite hrefused1 (.ite h.wr h.startUp))
      · exact .ite h (.ite (.ite hrefused1 (.ite h.leaveP2.wr (.ite (hs2.foldl (fun _ _ hu => hu.wr)) hs2))) h.stopBegin)

def kegusTestWriteScope : Scope := scope [] [F.LDG_KTEST_SEED_SEED, F.LDG_KTEST_IN_COLL, F.LDG_KTEST_IN_STEP, F.LDG_KTEST_POS_ELEM,
  F.LDG_KTEST_POS_CHUNK, F.LDG_KTEST_OUT_NOISE]

theorem Within.kegusTestWrite {r v : Nat} (h : s.Within M t) (hm : kegusTestWriteScope.le M = true := by decide +kernel) :
    s.Within M (t.kegusTestWrite r v) := by
  refine h.andThen hm fun h => ?_
  unfold State.kegusTestWrite
  extract_lets s1
  have hs1 : t.Within kegusTestWriteScope s1 := by
    unfold s1
    split
    · exact h.wr
    · exact h.wr.wr
    · exact h.wr.wr
  exact hs1.wr

def injSweepScope : Scope := injUpdateScope

theorem Within.injSweep (h : s.Within M t) (hm : injSweepScope.le M = true := by decide +kernel) : s.Within M (t.injSweep) := by
  refine h.andThen hm fun h => ?_
  unfold State.injSweep
  exact h.foldl (fun _ _ hu => hu.foldl (fun _ _ hu2 => hu2.foldl (fun _ _ hu3 => hu3.injUpdate)))

/-- What a host write to a field, named by its address, may change: any register. -/
def fieldWriteScope : Scope := anyReg ||| floorCtrs

theorem Within.fieldWrite {h' : RegHit} {w : RegWrite} {r : FieldRow} (h : s.Within M t) (hm : fieldWriteScope.le M = true := by decide +kernel) :
    s.Within M (t.fieldWrite h' w r) := by
  unfold State.fieldWrite
  refine .ite h ?_
  split
  · exact (h.wrAny hm).wrAny hm
  · exact .ite (.ite h (h.wrAny hm)) h
  · exact .ite (h.wrAny hm) h
  · exact h
  · exact h
  · exact h

def plainWriteScope : Scope := fieldWriteScope

theorem Within.plainWrite {h' : RegHit} {w : RegWrite} (h : s.Within M t) (hm : plainWriteScope.le M = true := by decide +kernel) :
    s.Within M (t.plainWrite h' w) := by
  refine h.andThen hm fun h => ?_
  unfold State.plainWrite
  exact h.foldl (fun _ _ hu => hu.fieldWrite)

def knitVoteScope : Scope := knitFailScope

theorem Within.knitVote {v : Nat} (h : s.Within M t) (hm : knitVoteScope.le M = true := by decide +kernel) : s.Within M (t.knitVote v)
    := by
  refine h.andThen hm fun h => ?_
  unfold State.knitVote
  split
  · split
    · next u _ e =>
        have hu : t.Within knitVoteScope u := h.voteCast.of_fst e
        exact .ite hu.wr hu.knitFail
  · exact h

def knitCommitScope : Scope := knitVoteScope

theorem Within.knitCommit {f : Nat} (h : s.Within M t) (hm : knitCommitScope.le M = true := by decide +kernel) :
    s.Within M (t.knitCommit f) := by
  refine h.andThen hm fun h => ?_
  unfold State.knitCommit
  exact .ite h.knitVote h

def knitAbortScope : Scope := knitFailScope

theorem Within.knitAbort {f : Nat} (h : s.Within M t) (hm : knitAbortScope.le M = true := by decide +kernel) : s.Within M (t.knitAbort f)
    := by
  refine h.andThen hm fun h => ?_
  unfold State.knitAbort
  exact .ite h.knitFail h

def knitFetchingScope : Scope := scope [] [F.KNT_STATUS_FAIL_CODE, F.KNT_STATUS_FAIL_GROUP, F.KNT_STATUS_LAST_GROUP, V.KNT_WAIT, V.KNT_FN,
  F.KNT_STATUS_STATE, F.KNT_FAIL_FRAME_FRAME]

theorem Within.knitFetching {f : Nat} (h : s.Within M t) (hm : knitFetchingScope.le M = true := by decide +kernel) :
    s.Within M (t.knitFetching f) := by
  refine h.andThen hm fun h => ?_
  unfold State.knitFetching
  extract_lets s1
  have hs1 : t.Within knitFetchingScope s1 := h.wr.wr.wr
  exact hs1.wr.wr.wr.wr

def knitLoadScope : Scope := scope [] [F.KNT_STATUS_REFUSED] ||| knitFetchingScope ||| knitFailScope ||| hostFailScope

theorem Within.knitLoad {f : Nat} (h : s.Within M t) (hm : knitLoadScope.le M = true := by decide +kernel) : s.Within M (t.knitLoad f)
    := by
  refine h.andThen hm fun h => ?_
  unfold State.knitLoad
  extract_lets s1
  have hs1 : t.Within knitLoadScope s1 := h.knitFetching
  exact .ite h.raise (.ite hs1.knitFail (.ite hs1.knitFail (.ite hs1.knitFail (.ite hs1.hostFail.knitFail hs1))))

def moduleWriteScope : Scope := scope [] [F.XPT_INJ_THR_OFF] ||| knitLoadScope ||| knitAbortScope ||| knitCommitScope ||| plainWriteScope
  ||| injSweepScope ||| kegusTestWriteScope ||| powerRequestScope ||| resetCmdScope ||| loadtestRunScope ||| trayYieldScope
  ||| dutyForcedScope ||| accGoScope ||| trayInjectScope ||| cartCmdScope ||| ledAllScope ||| secCmdScope ||| dbgCmdScope
  ||| selectWriteScope ||| counterClearScope ||| injectEnableScope ||| errorInjectScope

theorem Within.moduleWrite {h' : RegHit} {w : RegWrite} {m : Nat} (h : s.Within M t)
    (hm : moduleWriteScope.le M = true := by decide +kernel) : s.Within M (t.moduleWrite h' w m) := by
  refine h.andThen hm fun h => ?_
  unfold State.moduleWrite
  extract_lets _ s1
  have hs1 : t.Within moduleWriteScope s1 := h.plainWrite
  split
  · split
    · exact h.knitLoad
    · exact h.knitAbort
    · exact h.knitCommit
    · exact h
  · exact hs1.wr.injSweep
  · exact h.kegusTestWrite
  · exact h.kegusTestWrite
  · exact h.kegusTestWrite
  · exact .ite h.powerRequest h
  · exact h.resetCmd
  · exact .ite h.loadtestRun h
  · exact .ite h.trayYield h
  · exact h.plainWrite.dutyForced
  · exact h.accGo
  · exact h.trayInject
  · exact .ite h.cartCmd h
  · exact h.plainWrite.ledAll
  · exact h.secCmd
  · exact h.dbgCmd
  · exact h.selectWrite
  · exact h.counterClear
  · exact h.injectEnable
  · exact h.errorInject
  · exact h.plainWrite

def psEmptyScope : Scope := scope [.psBuf] [V.PS_REC, V.PS_BEG, V.PS_WAIT]

theorem Within.psEmpty {q : Nat} (h : s.Within M t) (hm : psEmptyScope.le M = true := by decide +kernel) : s.Within M (t.psEmpty q) := by
  refine h.andThen hm fun h => ?_
  unfold State.psEmpty
  extract_lets s1
  have hs1 : t.Within psEmptyScope s1 := h.eraseRegs ([V.PS_REC, V.PS_BEG, V.PS_WAIT]) (fun _ _ hn => by simp only [List.forall_mem_cons] at hn; simp [hn])
  exact hs1.psBuf

def samplerCtlScope : Scope := scope [] [F.CTR_PS_CTL_PART, F.CTR_PS_CTL_MODE, F.CTR_PS_CTL_SOURCE, F.CTR_PS_CTL_EN, F.CTR_PS_CTL_K,
  F.CTR_PS_CTL_PORT, F.CTR_PS_CTL_PART_EN, F.CTR_PS_STAT_WRAPPED, V.PS_COUNT] ||| psEmptyScope

theorem Within.samplerCtl {q v : Nat} (h : s.Within M t) (hm : samplerCtlScope.le M = true := by decide +kernel) :
    s.Within M (t.samplerCtl q v) := by
  refine h.andThen hm fun h => ?_
  unfold State.samplerCtl
  extract_lets s1 s2 s3
  have hs1 : t.Within samplerCtlScope s1 := h.wr.wr.wr.wr
  have hs2 : t.Within samplerCtlScope s2 := hs1.wr
  have hs3 : t.Within samplerCtlScope s3 := hs2.wr.wr
  exact hs3.wr.wr.psEmpty

def evtWriteScope : Scope := scope [] [F.MOV_EVT_COUNT]

theorem Within.evtWrite {q p k v : Nat} (h : s.Within M t) (hm : evtWriteScope.le M = true := by decide +kernel) :
    s.Within M (t.evtWrite q p k v) := by
  refine h.andThen hm fun h => ?_
  unfold State.evtWrite
  exact h.wr

def movSettleScope : Scope := scope [.movCmds] [] ||| cmdDoneScope

theorem Within.movSettle {q p c : Nat} (h : s.Within M t) (hm : movSettleScope.le M = true := by decide +kernel) :
    s.Within M (t.movSettle q p c) := by
  refine h.andThen hm fun h => ?_
  unfold State.movSettle
  extract_lets _ _ _ s1
  have hs1 : t.Within movSettleScope s1 := h.movCmds
  exact hs1.foldl (fun _ _ hu => hu.cmdDone)

def movErrClearScope : Scope := scope [] [F.MOV_CH_CTL_ERR] ||| movSettleScope ||| setMovScope

theorem Within.movErrClear {q p c : Nat} (h : s.Within M t) (hm : movErrClearScope.le M = true := by decide +kernel) :
    s.Within M (t.movErrClear q p c) := by
  refine h.andThen hm fun h => ?_
  unfold State.movErrClear
  exact .ite h.wr.setMov.movSettle h

def movEndingScope : Scope := scope [] [F.MOV_CH_STAT_BUSY, V.MOV_DROP, V.MOV_TO_ERR, V.MOV_ENDW, F.MOV_CH_STAT_STATUS] ||| sampleEndScope
  ||| setMovScope

theorem Within.movEnding {q p c status word : Nat} {toErr : Bool} (h : s.Within M t) (hm : movEndingScope.le M = true := by decide +kernel)
    : s.Within M (t.movEnding q p c status word toErr) := by
  refine h.andThen hm fun h => ?_
  unfold State.movEnding
  extract_lets s1
  have hs1 : t.Within movEndingScope s1 := h.setMov.sampleEnd
  exact hs1.wr.wr.wr.wr.wr

def movAbortScope : Scope := movEndingScope

theorem Within.movAbort {q p c : Nat} (h : s.Within M t) (hm : movAbortScope.le M = true := by decide +kernel) :
    s.Within M (t.movAbort q p c) := by
  refine h.andThen hm fun h => ?_
  unfold State.movAbort
  extract_lets
  exact .ite h.setMov.wr.wr (.ite h.movEnding h)

def ringTakeScope : Scope := scope [] [V.HEAD_CYC, F.SEQ_RING_CONS_CONS]

theorem Within.ringTake {q p e' : Nat} (h : s.Within M t) (hm : ringTakeScope.le M = true := by decide +kernel) :
    s.Within M (t.ringTake q p e') := by
  refine h.andThen hm fun h => ?_
  unfold State.ringTake
  exact h.bump.wr

def sampleBeginScope : Scope := scope [] [V.PS_COUNT, V.PS_WAIT, V.PS_BEG, V.PS_REC]

theorem Within.sampleBegin {source part : Nat} {key : List Nat} {unit id addr wait : Nat} (h : s.Within M t)
    (hm : sampleBeginScope.le M = true := by decide +kernel) : s.Within M (t.sampleBegin source part key unit id addr wait) := by
  refine h.andThen hm fun h => ?_
  unfold State.sampleBegin
  extract_lets _ _ s1
  have hs1 : t.Within sampleBeginScope s1 := h.wr
  exact .ite (.ite hs1.wr.wr.wr hs1) h

def ringStopScope : Scope := scope [] [F.SEQ_RING_CTL_ERR] ||| cqPostScope ||| errScope

theorem Within.ringStop {q p e' status tag : Nat} (h : s.Within M t) (hm : ringStopScope.le M = true := by decide +kernel) :
    s.Within M (t.ringStop q p e' status tag) := by
  refine h.andThen hm fun h => ?_
  unfold State.ringStop
  extract_lets s1 s2
  have hs1 : t.Within ringStopScope s1 := h.raise
  have hs2 : t.Within ringStopScope s2 := hs1.cqPost
  exact hs2.err

def ringCheckScope : Scope := scope [] [V.HEAD_CYC] ||| noteReadScope ||| ringStopScope

theorem Within.ringCheck {q p e' : Nat} (h : s.Within M t) (hm : ringCheckScope.le M = true := by decide +kernel) :
    s.Within M (t.ringCheck q p e') := by
  refine h.andThen hm fun h => ?_
  unfold State.ringCheck
  extract_lets s1
  have hs1 : t.Within ringCheckScope s1 := .ite h.noteRead.wr h
  split
  · split
    · exact hs1.ringStop
    · exact .ite hs1 hs1.ringStop
  · exact h

def cmdStartScope : Scope := ringCheckScope ||| sampleBeginScope ||| ringTakeScope

theorem Within.cmdStart {q p e' entry : Nat} (h : s.Within M t) (hm : cmdStartScope.le M = true := by decide +kernel) :
    s.Within M (t.cmdStart q p e' entry) := by
  refine h.andThen hm fun h => ?_
  unfold State.cmdStart
  extract_lets
  exact h.ringTake.sampleBegin.ringCheck

def movCmdTakeScope : Scope := scope [.movCmds] [] ||| cmdStartScope

theorem Within.movCmdTake {q p c entry : Nat} (h : s.Within M t) (hm : movCmdTakeScope.le M = true := by decide +kernel) :
    s.Within M (t.movCmdTake q p c entry) := by
  refine h.andThen hm fun h => ?_
  unfold State.movCmdTake
  extract_lets s1
  have hs1 : t.Within movCmdTakeScope s1 := h.cmdStart
  exact hs1.movCmds

def movCommandScope : Scope := movSettleScope ||| ringStopScope ||| movCmdTakeScope

theorem Within.movCommand {q p c op entry : Nat} {f : State → State} (h : s.Within M t) (H : ∀ u, s.Within M u → s.Within M (f u))
    (hm : movCommandScope.le M = true := by decide +kernel) : s.Within M (t.movCommand q p c op entry f) :=
  .ite ((H _ h).movSettle (Scope.part hm)) (.ite h (.ite (h.ringStop (Scope.part hm)) (.ite h
    ((H _ (h.movCmdTake (Scope.part hm))).movSettle (Scope.part hm)))))

def movAbortCmdScope : Scope := movCommandScope ||| movAbortScope

theorem Within.movAbortCmd {q p c entry : Nat} (h : s.Within M t) (hm : movAbortCmdScope.le M = true := by decide +kernel) :
    s.Within M (t.movAbortCmd q p c entry) := by
  refine h.andThen hm fun h => ?_
  unfold State.movAbortCmd
  exact h.movCommand (fun _ hu => hu.movAbort)

def movContinueScope : Scope := setMovScope

theorem Within.movContinue {q p c : Nat} (h : s.Within M t) (hm : movContinueScope.le M = true := by decide +kernel) :
    s.Within M (t.movContinue q p c) := by
  refine h.andThen hm fun h => ?_
  unfold State.movContinue
  extract_lets
  exact .ite h.setMov h.setMov

def movResumeScope : Scope := scope [] [F.MOV_CH_STAT_BUSY] ||| movContinueScope

theorem Within.movResume {q p c : Nat} (h : s.Within M t) (hm : movResumeScope.le M = true := by decide +kernel) :
    s.Within M (t.movResume q p c) := by
  refine h.andThen hm fun h => ?_
  unfold State.movResume
  extract_lets
  exact .ite h.movContinue (.ite h.wr h)

def movResumeCmdScope : Scope := movCommandScope ||| movResumeScope

theorem Within.movResumeCmd {q p c entry : Nat} (h : s.Within M t) (hm : movResumeCmdScope.le M = true := by decide +kernel) :
    s.Within M (t.movResumeCmd q p c entry) := by
  refine h.andThen hm fun h => ?_
  unfold State.movResumeCmd
  exact h.movCommand (fun _ hu => hu.movResume)

def movEndScope : Scope := movEndingScope

theorem Within.movEnd {q p c : Nat} (h : s.Within M t) (hm : movEndScope.le M = true := by decide +kernel) : s.Within M (t.movEnd q p c)
    := by
  refine h.andThen hm fun h => ?_
  unfold State.movEnd
  split
  · exact h
  · exact h.movEnding

def movPauseScope : Scope := movEndScope

theorem Within.movPause {q p c : Nat} (h : s.Within M t) (hm : movPauseScope.le M = true := by decide +kernel) :
    s.Within M (t.movPause q p c) := by
  refine h.andThen hm fun h => ?_
  unfold State.movPause
  extract_lets
  exact .ite h.movEnd (.ite h.setMov (.ite h.setMov h))

def movPauseCmdScope : Scope := movCommandScope ||| movPauseScope

theorem Within.movPauseCmd {q p c entry : Nat} (h : s.Within M t) (hm : movPauseCmdScope.le M = true := by decide +kernel) :
    s.Within M (t.movPauseCmd q p c entry) := by
  refine h.andThen hm fun h => ?_
  unfold State.movPauseCmd
  exact h.movCommand (fun _ hu => hu.movPause)

def movCtlScope : Scope := movPauseCmdScope ||| movResumeCmdScope ||| movAbortCmdScope ||| movErrClearScope

theorem Within.movCtl {ix : List Nat} {m : Nat} (h : s.Within M t) (hm : movCtlScope.le M = true := by decide +kernel) :
    s.Within M (t.movCtl ix m) := by
  refine h.andThen hm fun h => ?_
  unfold State.movCtl
  extract_lets _ _ _ s1 s2 s3
  have hs1 : t.Within movCtlScope s1 := .ite h.movPauseCmd h
  have hs2 : t.Within movCtlScope s2 := .ite hs1.movResumeCmd hs1
  have hs3 : t.Within movCtlScope s3 := .ite hs2.movAbortCmd hs2
  exact .ite hs3.movErrClear hs3

def hbmInjFieldsScope : Scope := scope [] [F.HBM_INJ_BITS, F.HBM_INJ_LINE, F.HBM_INJ_PC, F.HBM_INJ_STACK]

theorem Within.hbmInjFields {q v : Nat} (h : s.Within M t) (hm : hbmInjFieldsScope.le M = true := by decide +kernel) :
    s.Within M (t.hbmInjFields q v) := by
  refine h.andThen hm fun h => ?_
  unfold State.hbmInjFields
  exact h.wr.wr.wr.wr

def hbmInjectScope : Scope := hbmInjFieldsScope ||| injRefusedScope ||| injArmScope

theorem Within.hbmInject {q v : Nat} (h : s.Within M t) (hm : hbmInjectScope.le M = true := by decide +kernel) :
    s.Within M (t.hbmInject q v) := by
  refine h.andThen hm fun h => ?_
  unfold State.hbmInject
  extract_lets s1
  have hs1 : t.Within hbmInjectScope s1 := h.hbmInjFields
  exact .ite hs1 (.ite hs1.injRefused hs1.injArm)

def losePagesScope : Scope := scope [] [V.KNT_PAGE]

theorem Within.losePages {stack : Nat} (h : s.Within M t) (hm : losePagesScope.le M = true := by decide +kernel) : s.Within M (t.losePages stack) := by
  refine h.andThen hm fun h => ?_
  unfold State.losePages
  exact h.eraseIf [V.KNT_PAGE] fun k n e => by
    cases k with
    | nil => simp [V.KNT_PAGE] at e
    | cons i ix => exact ⟨_, .head _, by simp at e; simp [e]⟩

def memoryAbortScope : Scope := abortEventScope

theorem Within.memoryAbort {p coll step : Nat} (h : s.Within M t) (hm : memoryAbortScope.le M = true := by decide +kernel) :
    s.Within M (t.memoryAbort p coll step) := by
  refine h.andThen hm fun h => ?_
  unfold State.memoryAbort
  split
  · split
    · exact h.abortEvent
    · exact h
  · exact h

def loseRecordsScope : Scope := memoryAbortScope

theorem Within.loseRecords {q p : Nat} (h : s.Within M t) (hm : loseRecordsScope.le M = true := by decide +kernel) :
    s.Within M (t.loseRecords q p) := by
  refine h.andThen hm fun h => ?_
  unfold State.loseRecords
  exact h.foldl (fun _ _ hu => hu.memoryAbort)

def loseGramScope : Scope := gramStopScope

theorem Within.loseGram {q p : Nat} (h : s.Within M t) (hm : loseGramScope.le M = true := by decide +kernel) : s.Within M (t.loseGram q p)
    := by
  refine h.andThen hm fun h => ?_
  unfold State.loseGram
  extract_lets
  exact .ite h.err.gramStop h

def ringChecksScope : Scope := ringCheckScope

theorem Within.ringChecks {p : Nat} (h : s.Within M t) (hm : ringChecksScope.le M = true := by decide +kernel) :
    s.Within M (t.ringChecks p) := by
  refine h.andThen hm fun h => ?_
  unfold State.ringChecks
  exact h.foldl (fun _ _ hu => hu.foldl (fun _ _ hu2 => hu2.ringCheck))

def shardLostScope : Scope := scope [] [F.UPD_FAULT_SHARD, F.UPD_FAULT_PART, F.UPD_FAULT_LOST, V.SHARD_LOST] ||| errScope

theorem Within.shardLost {p k : Nat} (h : s.Within M t) (hm : shardLostScope.le M = true := by decide +kernel) :
    s.Within M (t.shardLost p k) := by
  refine h.andThen hm fun h => ?_
  unfold State.shardLost
  extract_lets _ s1
  have hs1 : t.Within shardLostScope s1 := h.wr.raise.wr.wr
  exact hs1.err

def loseShardsScope : Scope := shardLostScope ||| stepFailScope

theorem Within.loseShards {p : Nat} (h : s.Within M t) (hm : loseShardsScope.le M = true := by decide +kernel) :
    s.Within M (t.loseShards p) := by
  refine h.andThen hm fun h => ?_
  unfold State.loseShards
  extract_lets _ s1
  have hs1 : t.Within loseShardsScope s1 := h.foldl (fun _ _ hu => hu.shardLost)
  exact .ite h (.ite hs1 hs1.stepFail)

def loseForScope : Scope := loseShardsScope ||| ringChecksScope ||| loseGramScope ||| loseRecordsScope

theorem Within.loseFor {q p : Nat} (h : s.Within M t) (hm : loseForScope.le M = true := by decide +kernel) : s.Within M (t.loseFor q p)
    := by
  refine h.andThen hm fun h => ?_
  unfold State.loseFor
  extract_lets s1 s2
  have hs1 : t.Within loseForScope s1 := h.err
  have hs2 : t.Within loseForScope s2 := hs1.loseShards
  exact (hs2.foldl (fun _ _ hu => hu.loseRecords.loseGram)).ringChecks

def loseExtentScope : Scope := scope [] [F.HBM_EXTENT_LOST, F.HBM_EXTENT_REMAPPING]

theorem Within.loseExtent {q e' : Nat} (h : s.Within M t) (hm : loseExtentScope.le M = true := by decide +kernel) :
    s.Within M (t.loseExtent q e') := by
  refine h.andThen hm fun h => ?_
  unfold State.loseExtent
  extract_lets s1
  have hs1 : t.Within loseExtentScope s1 := h.wr
  exact .ite hs1.wr hs1

def dropRemapsScope : Scope := scope [] [F.HBM_EXTENT_REMAPPING]

theorem Within.dropRemaps {q : Nat} (h : s.Within M t) (hm : dropRemapsScope.le M = true := by decide +kernel) :
    s.Within M (t.dropRemaps q) := by
  refine h.andThen hm fun h => ?_
  unfold State.dropRemaps
  exact h.foldl (fun _ _ hu => .ite hu.wr hu)

def loseStackScope : Scope := dropRemapsScope ||| loseExtentScope ||| loseForScope

theorem Within.loseStack {q l : Nat} (h : s.Within M t) (hm : loseStackScope.le M = true := by decide +kernel) :
    s.Within M (t.loseStack q l) := by
  refine h.andThen hm fun h => ?_
  unfold State.loseStack
  extract_lets _ s1 s2 s3
  have hs1 : t.Within loseStackScope s1 := h.foldl (fun _ _ hu3 => hu3.wr)
  have hs2 : t.Within loseStackScope s2 := hs1.dropRemaps
  have hs3 : t.Within loseStackScope s3 := hs2.foldl (fun _ _ hu2 => hu2.loseExtent)
  exact hs3.foldl (fun _ _ hu => hu.loseFor)

def hbmRetireScope : Scope := scope [] [V.RET_STACK, F.HBM_STACK_MAP_MIB, F.HBM_STACK_STATE, V.ZERO_LOST, V.RET_CH, F.HBM_STACK_CH_RETIRED]
  ||| loseStackScope ||| losePagesScope

theorem Within.hbmRetire {q l ch : Nat} {whole : Bool} (h : s.Within M t) (hm : hbmRetireScope.le M = true := by decide +kernel) :
    s.Within M (t.hbmRetire q l ch whole) := by
  refine h.andThen hm fun h => ?_
  unfold State.hbmRetire
  extract_lets _ s1 s2
  have hs1 : t.Within hbmRetireScope s1 := h.wr.wr.wr
  have hs2 : t.Within hbmRetireScope s2 := h.wr.wr.wr
  exact .ite h (.ite hs1.losePages.wr.err.loseStack hs2.losePages.wr.err.loseStack)

def hbmRetireCmdScope : Scope := hbmRetireScope

theorem Within.hbmRetireCmd {q v : Nat} (h : s.Within M t) (hm : hbmRetireCmdScope.le M = true := by decide +kernel) :
    s.Within M (t.hbmRetireCmd q v) := by
  refine h.andThen hm fun h => ?_
  unfold State.hbmRetireCmd
  exact .ite h.hbmRetire h

def mitRoleSetScope : Scope := scope [] [F.MIT_CTX_ROLE]

theorem Within.mitRoleSet {c role : Nat} (h : s.Within M t) (hm : mitRoleSetScope.le M = true := by decide +kernel) :
    s.Within M (t.mitRoleSet c role) := by
  refine h.andThen hm fun h => ?_
  unfold State.mitRoleSet
  exact h.wr

def openNoticesScope : Scope := scope [] [V.WITHDRAWN] ||| noticeScope

theorem Within.openNotices {q k : Nat} (h : s.Within M t) (hm : openNoticesScope.le M = true := by decide +kernel) :
    s.Within M (t.openNotices q k) := by
  refine h.andThen hm fun h => ?_
  unfold State.openNotices
  extract_lets _ s1
  have hs1 : t.Within openNoticesScope s1 := .ite h.wr.notice h
  exact .ite h hs1.notice

def portOpenScope : Scope := scope [] [F.COR_PORT_OPEN] ||| openNoticesScope

theorem Within.portOpen {q k : Nat} (h : s.Within M t) (hm : portOpenScope.le M = true := by decide +kernel) : s.Within M (t.portOpen q k)
    := by
  refine h.andThen hm fun h => ?_
  unfold State.portOpen
  exact .ite h.wr.openNotices h

def noticeEnWriteScope : Scope := scope [] [F.MIT_CTL_NOTICE_EN] ||| portOpenScope

theorem Within.noticeEnWrite {v : Nat} (h : s.Within M t) (hm : noticeEnWriteScope.le M = true := by decide +kernel) :
    s.Within M (t.noticeEnWrite v) := by
  refine h.andThen hm fun h => ?_
  unfold State.noticeEnWrite
  extract_lets s1
  have hs1 : t.Within noticeEnWriteScope s1 := h.wr
  split
  · exact h
  · split
    · exact hs1
    · refine hs1.foldl fun _ _ hu => by
        extract_lets
        exact .ite hu.portOpen hu

def stragClearScope : Scope := scope [] [V.STRAG_LAST, V.STRAG_LAG_MAX, V.STRAG_LAG_SUM, V.STRAG_LAG_OVF, F.SEQ_SLOW_RANK,
  F.SEQ_SLOW_VALID, F.SEQ_SLOW_LAST, F.SEQ_SLOW_BAD_DONE]

theorem Within.stragClear {p : Nat} (h : s.Within M t) (hm : stragClearScope.le M = true := by decide +kernel) :
    s.Within M (t.stragClear p) := by
  refine h.andThen hm fun h => ?_
  unfold State.stragClear
  extract_lets s1
  have hs1 : t.Within stragClearScope s1 := h.eraseRegs ([V.STRAG_LAST, V.STRAG_LAG_MAX, V.STRAG_LAG_SUM, V.STRAG_LAG_OVF]) (fun _ _ hn => by simp only [List.forall_mem_cons] at hn; simp [hn])
  exact hs1.resetFields

def validWriteScope : Scope := plainWriteScope

theorem Within.validWrite {h' : RegHit} {w : RegWrite} {valid : Fld} {bit : Nat} {more : Fld} (h : s.Within M t)
    (hm : validWriteScope.le M = true := by decide +kernel) : s.Within M (t.validWrite h' w valid bit more) := by
  refine h.andThen hm fun h => ?_
  unfold State.validWrite
  extract_lets put
  have hput : t.Within validWriteScope put := h.plainWrite
  exact .ite hput.wrAny hput

def ringDoorbellScope : Scope := scope [] [F.SEQ_RING_PROD_PROD, F.SEQ_RING_CTL_DBERR] ||| ringCheckScope

theorem Within.ringDoorbell {q p e' prod : Nat} (h : s.Within M t) (hm : ringDoorbellScope.le M = true := by decide +kernel) :
    s.Within M (t.ringDoorbell q p e' prod) := by
  refine h.andThen hm fun h => ?_
  unfold State.ringDoorbell
  exact .ite h.wr.ringCheck h.raise

def ringErrClearScope : Scope := ringCheckScope

theorem Within.ringErrClear {q p e' : Nat} (h : s.Within M t) (hm : ringErrClearScope.le M = true := by decide +kernel) :
    s.Within M (t.ringErrClear q p e') := by
  refine h.andThen hm fun h => ?_
  unfold State.ringErrClear
  exact .ite h h.wr.ringCheck

def ringCtlScope : Scope := plainWriteScope ||| ringErrClearScope

theorem Within.ringCtl {h' : RegHit} {w : RegWrite} (h : s.Within M t) (hm : ringCtlScope.le M = true := by decide +kernel) :
    s.Within M (t.ringCtl h' w) := by
  refine h.andThen hm fun h => ?_
  unfold State.ringCtl
  extract_lets _ _ _ _ _ _ s1
  have hs1 : t.Within ringCtlScope s1 := h.plainWrite.wr
  exact .ite hs1.ringErrClear (.ite hs1.ringCheck hs1)

def linkInjectScope : Scope := scope [] [F.LNK_INJ_KIND, F.LNK_INJ_LANE, F.LNK_INJ_PORT] ||| injRefusedScope ||| injArmScope

theorem Within.linkInject {q v : Nat} (h : s.Within M t) (hm : linkInjectScope.le M = true := by decide +kernel) :
    s.Within M (t.linkInject q v) := by
  refine h.andThen hm fun h => ?_
  unfold State.linkInject
  extract_lets _ _ s1
  have hs1 : t.Within linkInjectScope s1 := h.wr.wr.wr
  exact .ite hs1 (.ite hs1.injRefused (.ite hs1.injArm hs1))

def lcfSendScope : Scope := scope [.out] [V.LCF_CMD]

theorem Within.lcfSend {q k cmd arg sent : Nat} (h : s.Within M t) (hm : lcfSendScope.le M = true := by decide +kernel) :
    s.Within M (t.lcfSend q k cmd arg sent) := by
  refine h.andThen hm fun h => ?_
  unfold State.lcfSend
  exact h.wr.emit

def setBadScope : Scope := scope [] [F.LNK_PORT_STAT_RX_BAD, V.LNK_OWN_BAD, F.LNK_LANE_BAD]

theorem Within.setBad {q k own : Nat} (h : s.Within M t) (hm : setBadScope.le M = true := by decide +kernel) :
    s.Within M (t.setBad q k own) := by
  refine h.andThen hm fun h => ?_
  unfold State.setBad
  extract_lets s1
  have hs1 : t.Within setBadScope s1 := h.wr.wr
  exact hs1.foldl (fun _ _ hu => hu.wr)

def linkRetrainScope : Scope := scope [] [F.LNK_PORT_STAT_RETRAINS, V.LNK_RETRAIN1, V.LNK_RETRAIN2, V.UCW_COUNT, V.LNK_SLOT, V.LNK_PRBS,
  V.LNK_PEER_BAD] ||| setBadScope ||| lcfSendScope ||| linkDownScope

theorem Within.linkRetrain {q k cause : Nat} {inj : Bool} (h : s.Within M t) (hm : linkRetrainScope.le M = true := by decide +kernel) :
    s.Within M (t.linkRetrain q k cause inj) := by
  refine h.andThen hm fun h => ?_
  unfold State.linkRetrain
  extract_lets _ _ s1 s2 s3 s4 s5 s6 s7 s8
  have hs1 : t.Within linkRetrainScope s1 := h.bump.countLegacy
  have hs2 : t.Within linkRetrainScope s2 := hs1.wr.wr
  have hs3 : t.Within linkRetrainScope s3 := hs2.cutIngress.rxBegin
  have hs4 : t.Within linkRetrainScope s4 := hs3.setLnk.wr.wr
  have hs5 : t.Within linkRetrainScope s5 := hs4.wr.wr.wr
  have hs6 : t.Within linkRetrainScope s6 := hs5.wr.setBad.wr
  have hs7 : t.Within linkRetrainScope s7 := hs6.lcfSend
  have hs8 : t.Within linkRetrainScope s8 := hs7.lnkRecord
  exact .ite (.ite hs8.linkDown hs8) h

def retrainWriteScope : Scope := linkRetrainScope

theorem Within.retrainWrite {q k v : Nat} (h : s.Within M t) (hm : retrainWriteScope.le M = true := by decide +kernel) :
    s.Within M (t.retrainWrite q k v) := by
  refine h.andThen hm fun h => ?_
  unfold State.retrainWrite
  exact .ite h.linkRetrain h

def enWriteScope : Scope := scope [] [F.LNK_PORT_CTL_EN, V.HOST_W] ||| linkDownScope

theorem Within.enWrite {q k v : Nat} (h : s.Within M t) (hm : enWriteScope.le M = true := by decide +kernel) : s.Within M (t.enWrite q k v)
    := by
  refine h.andThen hm fun h => ?_
  unfold State.enWrite
  extract_lets s1
  have hs1 : t.Within enWriteScope s1 := h.hostWr
  exact .ite hs1.linkDown hs1

def mirCtlWriteScope : Scope := scope [] [F.COR_MIR_CTL_CLASSES, F.COR_MIR_CTL_DIR, F.COR_MIR_CTL_PORT, F.COR_MIR_CTL_EN,
  F.COR_MIR_CTL_RANK, F.COR_MIR_CTL_PART, F.COR_MIR_CTL_DEST, F.COR_MIR_CTL_K, V.MIR_COUNT, F.COR_MIR_CTL_VECTOR, F.COR_MIR_CTL_LOG2SIZE]

theorem Within.mirCtlWrite {q i v : Nat} (h : s.Within M t) (hm : mirCtlWriteScope.le M = true := by decide +kernel) :
    s.Within M (t.mirCtlWrite q i v) := by
  refine h.andThen hm fun h => ?_
  unfold State.mirCtlWrite
  extract_lets _ s1 s2
  have hs1 : t.Within mirCtlWriteScope s1 := h.wr.wr.wr.wr
  have hs2 : t.Within mirCtlWriteScope s2 := hs1.wr.wr.wr.wr
  exact hs2.wr.wr.wr

def peakClrScope : Scope := scope [] [F.COR_QDEPTH_PEAK]

theorem Within.peakClr {q o c : Nat} (h : s.Within M t) (hm : peakClrScope.le M = true := by decide +kernel) : s.Within M (t.peakClr q o c)
    := by
  refine h.andThen hm fun h => ?_
  unfold State.peakClr
  exact h.wr

def lowClrScope : Scope := scope [] [F.COR_BUF_LOW]

theorem Within.lowClr {q : Nat} (h : s.Within M t) (hm : lowClrScope.le M = true := by decide +kernel) : s.Within M (t.lowClr q) := by
  refine h.andThen hm fun h => ?_
  unfold State.lowClr
  exact h.wr

def quadWriteScope : Scope := scope [] [F.SEQ_ABORT_VALID, F.SEQ_ABORT_MORE, F.SEQ_STRAG_SEL_PART, F.MIT_ABORT_VALID, F.MIT_ABORT_MORE,
  F.PRK_QUEUE_PEAK, F.CTR_PS_READ_INDEX] ||| lowClrScope ||| peakClrScope ||| mirCtlWriteScope ||| enWriteScope ||| retrainWriteScope
  ||| linkInjectScope ||| ringCtlScope ||| ringDoorbellScope ||| validWriteScope ||| stragClearScope ||| noticeEnWriteScope
  ||| mitRoleSetScope ||| hbmRetireCmdScope ||| hbmInjectScope ||| movCtlScope ||| evtWriteScope ||| selectWriteScope ||| samplerCtlScope

theorem Within.quadWrite {f : Nat} {h' : RegHit} {w : RegWrite} {m : Nat} (h : s.Within M t)
    (hm : quadWriteScope.le M = true := by decide +kernel) : s.Within M (t.quadWrite f h' w m) := by
  refine h.andThen hm fun h => ?_
  unfold State.quadWrite
  extract_lets _ _ _ _ s1 s2 _ _ s3
  have hs1 : t.Within quadWriteScope s1 := .ite h.enWrite h
  have hs2 : t.Within quadWriteScope s2 := h.plainWrite
  have hs3 : t.Within quadWriteScope s3 := h.plainWrite.wr
  split
  · exact .ite h.lowClr h
  · exact .ite h.peakClr h
  · exact h.mirCtlWrite
  · exact hs1.retrainWrite
  · exact h.linkInject
  · exact h.ringCtl
  · exact .ite h.ringDoorbell h
  · exact h.validWrite
  · exact .ite hs2 hs2.wr
  · exact .ite h.lower h
  · exact .ite h.stragClear h
  · exact .ite hs3.noticeEnWrite hs3
  · exact .ite h.mitRoleSet h
  · exact h.validWrite
  · exact h.validWrite
  · exact h.hbmRetireCmd
  · exact h.hbmInject
  · exact .ite h.wr h
  · exact h.movCtl
  · exact .ite h.evtWrite h
  · exact h.selectWrite
  · exact h.samplerCtl
  · exact .ite h.wr h
  · exact h.plainWrite

def slabWriteScope : Scope := scope [.slab] []

theorem Within.slabWrite {q a : Nat} {bs : List Byte} (h : s.Within M t) (hm : slabWriteScope.le M = true := by decide +kernel) :
    s.Within M (t.slabWrite q a bs) := by
  refine h.andThen hm fun h => ?_
  unfold State.slabWrite
  exact h.slab

def lockedBeatsScope : Scope := countBeatScope

theorem Within.lockedBeats {part stack : Nat} (h : s.Within M t) (hm : lockedBeatsScope.le M = true := by decide +kernel) :
    s.Within M (t.lockedBeats part stack) := by
  refine h.andThen hm fun h => ?_
  unfold State.lockedBeats
  exact h.countBeat.countLocal

def noteMergeScope : Scope := lockedBeatsScope ||| noteOneScope

theorem Within.noteMerge {part a n : Nat} (h : s.Within M t) (hm : noteMergeScope.le M = true := by decide +kernel) :
    s.Within M (t.noteMerge part a n) := by
  refine h.andThen hm fun h => ?_
  unfold State.noteMerge
  split
  · exact .ite (h.foldl (fun _ _ hu => hu.noteOne.lockedBeats)) h
  · exact h

def gramTaintScope : Scope := scope [] [V.GRM_TAINT]

theorem Within.gramTaint {p a n : Nat} (h : s.Within M t) (hm : gramTaintScope.le M = true := by decide +kernel) :
    s.Within M (t.gramTaint p a n) := by
  refine h.andThen hm fun h => ?_
  unfold State.gramTaint
  refine h.foldl fun _ _ hu => by
    extract_lets
    exact .ite hu.wr hu

def movTaintScope : Scope := scope [.free] [V.MOV_WROTE]

theorem Within.movTaint {p a n : Nat} (h : s.Within M t) (hm : movTaintScope.le M = true := by decide +kernel) :
    s.Within M (t.movTaint p a n) := by
  refine h.andThen hm fun h => ?_
  unfold State.movTaint
  extract_lets
  exact h.free.foldl (fun _ _ hu => .ite hu (hu.foldl (fun _ _ hu2 => hu2.wr)))

def hostWroteScope : Scope := movTaintScope ||| gramTaintScope

theorem Within.hostWrote {p a n : Nat} (h : s.Within M t) (hm : hostWroteScope.le M = true := by decide +kernel) :
    s.Within M (t.hostWrote p a n) := by
  refine h.andThen hm fun h => ?_
  unfold State.hostWrote
  exact h.gramTaint.movTaint

def windowWriteScope : Scope := hostWroteScope ||| memWriteScope ||| noteMergeScope ||| slabWriteScope ||| slabSpanScope

theorem Within.windowWrite {off n v : Nat} (h : s.Within M t) (hm : windowWriteScope.le M = true := by decide +kernel) :
    s.Within M (t.windowWrite off n v) := by
  refine h.andThen hm fun h => ?_
  unfold State.windowWrite
  extract_lets
  split
  · exact h
  · split
    · exact (h.getD fun _ e => h.noteMerge.memWrite (e := e)).hostWrote
    · exact h.slabSpan.slabWrite
    · exact h

def bar0StoreScope : Scope := windowWriteScope ||| quadWriteScope ||| moduleWriteScope

theorem Within.bar0Store {f o n v : Nat} (h : s.Within M t) (hm : bar0StoreScope.le M = true := by decide +kernel) :
    s.Within M (t.bar0Store f o n v) := by
  refine h.andThen hm fun h => ?_
  unfold State.bar0Store
  extract_lets
  split
  · exact h
  · exact h
  · exact h.windowWrite
  · extract_lets
    exact .ite h (.ite h (.ite h.quadWrite h.moduleWrite))

def dbgaRunScope : Scope := scope [] [V.DBGA_STATUS, V.DBGA_DATA] ||| bar0StoreScope ||| bar0LoadScope

theorem Within.dbgaRun {bits : Nat} (h : s.Within M t) (hm : dbgaRunScope.le M = true := by decide +kernel) : s.Within M (t.dbgaRun bits)
    := by
  refine h.andThen hm fun h => ?_
  unfold State.dbgaRun
  extract_lets
  split
  · exact h.bar0Touch.bar0Store.wr
  · split
    · next u _ _ e =>
        have hu : t.Within dbgaRunScope u := h.bar0Load.of_fst e
        exact hu.wr.wr

def grantPutScope : Scope := scope [] [F.DBG_LEVEL_WRITE, F.DBG_LEVEL_PART, F.DBG_LEVEL_LEVEL]

theorem Within.grantPut {x : Nat} (h : s.Within M t) (hm : grantPutScope.le M = true := by decide +kernel) : s.Within M (t.grantPut x)
    := by
  refine h.andThen hm fun h => ?_
  unfold State.grantPut
  exact h.wr.wr.wr

def underGrantScope : Scope := grantPutScope

theorem Within.underGrant {x : Nat} {f : State → State} (h : s.Within M t) (H : ∀ u, s.Within M u → s.Within M (f u))
    (hm : underGrantScope.le M = true := by decide +kernel) : s.Within M (t.underGrant x f) :=
  .ite ((H _ (h.grantPut hm)).grantPut hm) (H _ (h.grantPut hm))

def dbgAccessDueScope : Scope := scope [] [V.DBGA_REQ] ||| underGrantScope ||| dbgaRunScope

theorem Within.dbgAccessDue (h : s.Within M t) (hm : dbgAccessDueScope.le M = true := by decide +kernel) : s.Within M (t.dbgAccessDue)
    := by
  refine h.andThen hm fun h => ?_
  unfold State.dbgAccessDue
  extract_lets
  exact .ite h (h.wr.underGrant (fun _ hu => hu.dbgaRun))

def sendResultScope : Scope := instPacketScope

theorem Within.sendResult {q p coll step chunk : Nat} {e' : CollE} {i : Inst} {flags : Nat} {bs : List Byte} (h : s.Within M t)
    (hm : sendResultScope.le M = true := by decide +kernel) : s.Within M (t.sendResult q p coll step chunk e' i flags bs) := by
  refine h.andThen hm fun h => ?_
  unfold State.sendResult
  extract_lets
  exact .ite (.ite h (h.foldl (fun _ _ hu => hu.instPacket))) (h.foldl (fun _ _ hu2 => hu2.instPacket))

def trigTestScope : Scope := scope [.trigOps] [V.TRIG_WORD, V.TRIG_CTR] ||| sampleBeginScope

theorem Within.trigTest {p k : Nat} (h : s.Within M t) (hm : trigTestScope.le M = true := by decide +kernel) : s.Within M (t.trigTest p k)
    := by
  refine h.andThen hm fun h => ?_
  unfold State.trigTest
  extract_lets _ _ _ s1 _ s2
  have hs1 : t.Within trigTestScope s1 := h.wr.wr
  have hs2 : t.Within trigTestScope s2 := hs1.trigOps
  exact .ite h (.ite hs2.sampleBegin h)

def trigAddScope : Scope := trigTestScope

theorem Within.trigAdd {p k n : Nat} (h : s.Within M t) (hm : trigAddScope.le M = true := by decide +kernel) : s.Within M (t.trigAdd p k n)
    := by
  refine h.andThen hm fun h => ?_
  unfold State.trigAdd
  exact .ite h.bumpSat.trigTest h

def instCompleteScope : Scope := instPutScope ||| slotDropScope ||| cqPostScope ||| stepFlagsSettleScope ||| trigAddScope

theorem Within.instComplete {p coll : Nat} {e' : CollE} {i : Inst} (h : s.Within M t)
    (hm : instCompleteScope.le M = true := by decide +kernel) : s.Within M (t.instComplete p coll e' i) := by
  refine h.andThen hm fun h => ?_
  unfold State.instComplete
  extract_lets s1 s2 s3
  have hs1 : t.Within instCompleteScope s1 := h.instPut
  have hs2 : t.Within instCompleteScope s2 := hs1.foldl (fun _ _ hu => .ite hu.slotDrop hu)
  have hs3 : t.Within instCompleteScope s3 := .ite hs2.cqPost hs2
  exact hs3.trigAdd.stepFlagsSettle

def checkCompleteScope : Scope := instCompleteScope

theorem Within.checkComplete {p coll : Nat} {e' : CollE} {step : Nat} (h : s.Within M t)
    (hm : checkCompleteScope.le M = true := by decide +kernel) : s.Within M (t.checkComplete p coll e' step) := by
  refine h.andThen hm fun h => ?_
  unfold State.checkComplete
  split
  · exact h
  · exact .ite h.instComplete h

def checkReadyScope : Scope := checkCompleteScope

theorem Within.checkReady {p coll : Nat} {e' : CollE} {step : Nat} (h : s.Within M t)
    (hm : checkReadyScope.le M = true := by decide +kernel) : s.Within M (t.checkReady p coll e' step) := by
  refine h.andThen hm fun h => ?_
  unfold State.checkReady
  split
  · exact h
  · extract_lets
    exact .ite h.instPut.trigAdd.checkComplete h.checkComplete

def chunkResultedScope : Scope := checkReadyScope

theorem Within.chunkResulted {p coll : Nat} {e' : CollE} {step : Nat} (h : s.Within M t)
    (hm : chunkResultedScope.le M = true := by decide +kernel) : s.Within M (t.chunkResulted p coll e' step) := by
  refine h.andThen hm fun h => ?_
  unfold State.chunkResulted
  split
  · exact h
  · exact h.instPut.checkReady

def instFlagsScope : Scope := scope [] [V.STEPFLG_OVF, V.STEPFLG_INV, V.STEPFLG_KIND, V.STEPFLG_CHUNK, V.STEPFLG_COLL, V.STEPFLG_SET]
  ||| instPutScope

theorem Within.instFlags {p coll : Nat} {e' : CollE} {step chunk : Nat} {ovf inv : Bool} (h : s.Within M t)
    (hm : instFlagsScope.le M = true := by decide +kernel) : s.Within M (t.instFlags p coll e' step chunk ovf inv) := by
  refine h.andThen hm fun h => ?_
  unfold State.instFlags
  split
  · exact h
  · extract_lets s1 s2 s3
    have hs1 : t.Within instFlagsScope s1 := h.instPut
    have hs2 : t.Within instFlagsScope s2 := hs1.wr
    have hs3 : t.Within instFlagsScope s3 := hs2.wr
    exact .ite h (.ite hs3 hs3.wr.wr.wr.wr)

def handoffScope : Scope := scope [.handoffs] []

theorem Within.handoff {p coll step chunk : Nat} {e' : CollE} {x : Slot} {ls : List ℤ} (h : s.Within M t)
    (hm : handoffScope.le M = true := by decide +kernel) : s.Within M (t.handoff p coll step chunk e' x ls) := by
  refine h.andThen hm fun h => ?_
  unfold State.handoff
  extract_lets
  split
  · extract_lets
    exact h.handoffs

def crownResultScope : Scope := handoffScope ||| slotPutScope ||| instFlagsScope ||| chunkResultedScope ||| sendResultScope

theorem Within.crownResult {p coll step chunk : Nat} {e' : CollE} {i : Inst} {x : Slot} {f : Nat} (h : s.Within M t)
    (hm : crownResultScope.le M = true := by decide +kernel) : s.Within M (t.crownResult p coll step chunk e' i x f) := by
  refine h.andThen hm fun h => ?_
  unfold State.crownResult
  extract_lets
  split
  · exact h.slotPut.handoff
  · split
    · extract_lets _ s1 s2 s3
      have hs1 : t.Within crownResultScope s1 := h.slotPut
      have hs2 : t.Within crownResultScope s2 := hs1.instFlags
      have hs3 : t.Within crownResultScope s3 := by
        unfold s3
        split
        · exact hs2.instPut
        · exact hs2
      exact hs3.sendResult.chunkResulted

def convertHeldScope : Scope := crownResultScope

theorem Within.convertHeld {p coll step chunk : Nat} {e' : CollE} {i : Inst} (h : s.Within M t)
    (hm : convertHeldScope.le M = true := by decide +kernel) : s.Within M (t.convertHeld p coll step chunk e' i) := by
  refine h.andThen hm fun h => ?_
  unfold State.convertHeld
  split
  · exact h
  · split
    · exact .ite h.crownResult h
    · exact h

def tryCloseScope : Scope := slotPutScope

theorem Within.tryClose {q p coll step chunk : Nat} {e' : CollE} {bank : Nat} (h : s.Within M t)
    (hm : tryCloseScope.le M = true := by decide +kernel) : s.Within M (t.tryClose q p coll step chunk e' bank) := by
  refine h.andThen hm fun h => ?_
  unfold State.tryClose
  extract_lets
  split
  · exact h
  · exact .ite h.slotPut h

def toRacksScope : Scope := instPacketScope

theorem Within.toRacks
    {q port op p coll step : Nat} {e' : CollE} {chunk fmt : Nat} {cls : Cls} {resend flags : Nat} {cs : List Piece} {racks : List (Nat × Nat)}
    (h : s.Within M t) (hm : toRacksScope.le M = true := by decide +kernel) :
    s.Within M (t.toRacks q port op p coll step e' chunk fmt cls resend flags cs racks) := by
  refine h.andThen hm fun h => ?_
  unfold State.toRacks
  exact h.foldl (fun _ _ hu => hu.foldl (fun _ _ hu2 => hu2.instPacket))

def sendPartialScope : Scope := toRacksScope ||| slotPutScope

theorem Within.sendPartial {p coll step chunk : Nat} {e' : CollE} {x : Slot} {f tx ty resend : Nat} (h : s.Within M t)
    (hm : sendPartialScope.le M = true := by decide +kernel) : s.Within M (t.sendPartial p coll step chunk e' x f tx ty resend) := by
  refine h.andThen hm fun h => ?_
  unfold State.sendPartial
  extract_lets _ s1
  have hs1 : t.Within sendPartialScope s1 := h.toRacks
  exact hs1.slotPut

def resendChunkScope : Scope := slotPutScope ||| instPacketScope

theorem Within.resendChunk {q p coll step chunk rank : Nat} {e' : CollE} {i : Inst} (h : s.Within M t)
    (hm : resendChunkScope.le M = true := by decide +kernel) : s.Within M (t.resendChunk q p coll step chunk rank e' i) := by
  refine h.andThen hm fun h => ?_
  unfold State.resendChunk
  extract_lets
  split
  · exact h
  · extract_lets s1
    have hs1 : t.Within resendChunkScope s1 := h.slotPut
    split
    · extract_lets
      exact .ite h (.ite (.ite hs1.instPacket hs1) (hs1.foldl (fun _ _ hu => hu.instPacket)))
    · exact h

def resultToRacksScope : Scope := toRacksScope ||| slotPutScope

theorem Within.resultToRacks {p coll step chunk : Nat} {e' : CollE} {x : Slot} {f resend : Nat} {racks : List (Nat × Nat)}
    (h : s.Within M t) (hm : resultToRacksScope.le M = true := by decide +kernel) :
    s.Within M (t.resultToRacks p coll step chunk e' x f resend racks) := by
  refine h.andThen hm fun h => ?_
  unfold State.resultToRacks
  extract_lets _ _ s1
  have hs1 : t.Within resultToRacksScope s1 := h.toRacks
  split
  · exact h
  · split
    · exact hs1.slotPut
    · exact hs1

def publishToRacksScope : Scope := toRacksScope

theorem Within.publishToRacks
    {q port p coll step chunk : Nat} {e' : CollE} {resend flags : Nat} {hi : List Byte} {racks : List (Nat × Nat)} (h : s.Within M t)
    (hm : publishToRacksScope.le M = true := by decide +kernel) :
    s.Within M (t.publishToRacks q port p coll step chunk e' resend flags hi racks) := by
  refine h.andThen hm fun h => ?_
  unfold State.publishToRacks
  exact h.toRacks

def sltEventScope : Scope := scope [] [F.SLT_EVENT_COUNT, F.SLT_EVENT_OVF] ||| countLocalScope

theorem Within.sltEvent {q p c : Nat} (h : s.Within M t) (hm : sltEventScope.le M = true := by decide +kernel) :
    s.Within M (t.sltEvent q p c) := by
  refine h.andThen hm fun h => ?_
  unfold State.sltEvent
  exact h.bumpOvf.countLocal

def wastedOnScope : Scope := sltEventScope ||| slotPutScope

theorem Within.wastedOn {k : Key} {x : Slot} (h : s.Within M t) (hm : wastedOnScope.le M = true := by decide +kernel) :
    s.Within M (t.wastedOn k x) := by
  refine h.andThen hm fun h => ?_
  unfold State.wastedOn
  exact h.slotPut.sltEvent

def writeResultScope : Scope := scope [.slab] [] ||| wastedOnScope ||| publishToRacksScope ||| resultToRacksScope ||| crownResultScope

theorem Within.writeResult {k : Packet} {e' : CollE} {i : Inst} (h : s.Within M t) (hm : writeResultScope.le M = true := by decide +kernel)
    : s.Within M (t.writeResult k e' i) := by
  refine h.andThen hm fun h => ?_
  unfold State.writeResult
  extract_lets
  split
  · exact h.sltEvent
  · extract_lets
    split
    · extract_lets _ s1 s2 s3 _ t4 s5 s6
      have hs1 : t.Within writeResultScope s1 := h.slab.slotPut
      have hs2 : t.Within writeResultScope s2 := hs1.instFlags
      have hs3 : t.Within writeResultScope s3 := hs2.slotPut
      have ht4 : t.Within writeResultScope t4 := hs3.publishToRacks
      have hs5 : t.Within writeResultScope s5 := by
        unfold s5
        split
        · split
          · exact ht4.slotPut
          · exact ht4
        · exact hs3
      have hs6 : t.Within writeResultScope s6 := .ite hs3.resultToRacks hs3
      split
      · exact h.wastedOn
      · split
        · exact hs2
        · split
          · exact hs5.instPacket
          · split
            · exact .ite hs6.slotPut hs6.crownResult
            · exact hs6
    · exact h.wastedOn

def slabBeatsScope : Scope := countLocalScope

theorem Within.slabBeats {q f r part n : Nat} (h : s.Within M t) (hm : slabBeatsScope.le M = true := by decide +kernel) :
    s.Within M (t.slabBeats q f r part n) := by
  refine h.andThen hm fun h => ?_
  unfold State.slabBeats
  exact h.foldl (fun _ _ hu => hu.countLocal)

def accGiveScope : Scope := scope [] [V.ACC_IN]

theorem Within.accGive {q p : Nat} {x : Slot} (h : s.Within M t) (hm : accGiveScope.le M = true := by decide +kernel) :
    s.Within M ((t.accGive q p x).1) := by
  refine h.andThen hm fun h => ?_
  unfold State.accGive
  extract_lets
  exact h.wr

def startPatienceScope : Scope := instPutScope

theorem Within.startPatience {p coll : Nat} {e' : CollE} {step : Nat} (h : s.Within M t)
    (hm : startPatienceScope.le M = true := by decide +kernel) : s.Within M (t.startPatience p coll e' step) := by
  refine h.andThen hm fun h => ?_
  unfold State.startPatience
  split
  · exact .ite h.instPut h
  · exact h

def addPartialScope : Scope := scope [.slab] [] ||| wastedOnScope ||| startPatienceScope ||| abortEventScope ||| accGiveScope
  ||| slabBeatsScope ||| instFlagsScope ||| tryCloseScope

theorem Within.addPartial {k : Packet} {e' : CollE} {i : Inst} {bit : Nat} (h : s.Within M t)
    (hm : addPartialScope.le M = true := by decide +kernel) : s.Within M (t.addPartial k e' i bit) := by
  refine h.andThen hm fun h => ?_
  unfold State.addPartial
  extract_lets _ _ _ _ s1
  have hs1 : t.Within addPartialScope s1 := h.startPatience
  split
  · exact h
  · extract_lets
    split
    · extract_lets
      split
      · exact h.wastedOn
      · split
        · exact hs1.slotPut.abortEvent
        · split
          · next u _ e =>
              have hu : t.Within addPartialScope u := hs1.accGive.of_fst e
              extract_lets s2 s3
              have hs2 : t.Within addPartialScope s2 := hu.slab.slabBeats.slotPut.sltEvent
              have hs3 : t.Within addPartialScope s3 := hs2.instFlags
              exact hs3.tryClose
    · exact h

def partialIntoScope : Scope := publishToRacksScope ||| resultToRacksScope ||| addPartialScope

theorem Within.partialInto {k : Packet} {e' : CollE} {i : Inst} {bit : Nat} (h : s.Within M t)
    (hm : partialIntoScope.le M = true := by decide +kernel) : s.Within M (t.partialInto k e' i bit) := by
  refine h.andThen hm fun h => ?_
  unfold State.partialInto
  extract_lets
  split
  · exact h
  · extract_lets s1
    have hs1 : t.Within partialIntoScope s1 := h.wastedOn
    split
    · extract_lets s2
      have hs2 : t.Within partialIntoScope s2 := hs1.publishToRacks
      split
      · split
        · exact hs2.slotPut
        · exact hs2
      · exact hs1.resultToRacks
    · exact h.addPartial

def putLedgerScope : Scope := scope [.slab] []

theorem Within.putLedger {q f : Nat} {ls : List ℤ} (h : s.Within M t) (hm : putLedgerScope.le M = true := by decide +kernel) :
    s.Within M (t.putLedger q f ls) := by
  refine h.andThen hm fun h => ?_
  unfold State.putLedger
  exact h.slab

def addTier0Scope : Scope := wastedOnScope ||| startPatienceScope ||| abortEventScope ||| accGiveScope ||| tryCloseScope ||| putLedgerScope
  ||| slabBeatsScope

theorem Within.addTier0 {src p coll step chunk : Nat} {gs : List ℤ} {fl : Flg} {e' : CollE} {i : Inst} (h : s.Within M t)
    (hm : addTier0Scope.le M = true := by decide +kernel) : s.Within M (t.addTier0 src p coll step chunk gs fl e' i) := by
  refine h.andThen hm fun h => ?_
  unfold State.addTier0
  extract_lets _ _ s1
  have hs1 : t.Within addTier0Scope s1 := h.startPatience
  split
  · exact h
  · extract_lets
    split
    · extract_lets
      split
      · exact h.wastedOn
      · split
        · exact hs1.slotPut.abortEvent
        · split
          · next u _ e =>
              have hu : t.Within addTier0Scope u := hs1.accGive.of_fst e
              exact hu.slabBeats.putLedger.slotPut.sltEvent.tryClose
    · exact h

def slowestScope : Scope := scope [] [F.SEQ_SLOW_LAST, F.SEQ_SLOW_VALID, F.SEQ_SLOW_RANK]

theorem Within.slowest {p : Nat} (h : s.Within M t) (hm : slowestScope.le M = true := by decide +kernel) : s.Within M (t.slowest p) := by
  refine h.andThen hm fun h => ?_
  unfold State.slowest
  extract_lets
  split
  · extract_lets
    exact .ite h h.wr.wr.wr

def stragglerScope : Scope := scope [] [V.STRAG_LAG_SUM, V.STRAG_LAG_OVF, V.RAISED, V.STRAG_LAG_MAX, V.STRAG_LAST] ||| slowestScope

theorem Within.straggler {p coll acc lag : Nat} {e' : CollE} {last : Bool} (h : s.Within M t)
    (hm : stragglerScope.le M = true := by decide +kernel) : s.Within M (t.straggler p coll acc lag e' last) := by
  refine h.andThen hm fun h => ?_
  unfold State.straggler
  extract_lets s1
  have hs1 : t.Within stragglerScope s1 := by
    unfold s1
    refine h.foldl fun _ _ hu => by
      extract_lets t2 t3
      have ht2 : t.Within stragglerScope t2 := hu.bumpOvf
      have ht3 : t.Within stragglerScope t3 := .ite ht2.wr ht2
      exact .ite ht3.bumpSat ht3
  exact .ite hs1.slowest hs1

def admitChunkScope : Scope := wastedOnScope ||| startPatienceScope ||| abortEventScope ||| accGiveScope ||| slabBeatsScope
  ||| putLedgerScope ||| instFlagsScope ||| stragglerScope ||| tryCloseScope

theorem Within.admitChunk {q : Nat} {pk : Packet} {chunk : Nat} {e' : CollE} {i : Inst} {acc : Nat} (h : s.Within M t)
    (hm : admitChunkScope.le M = true := by decide +kernel) : s.Within M (t.admitChunk q pk chunk e' i acc) := by
  refine h.andThen hm fun h => ?_
  unfold State.admitChunk
  extract_lets _ _ _ _ s1
  have hs1 : t.Within admitChunkScope s1 := h.startPatience
  split
  · exact h
  · extract_lets
    split
    · split
      · exact h.wastedOn
      · split
        · exact hs1.slotPut.abortEvent
        · split
          · split
            · next u _ e =>
                have hu : t.Within admitChunkScope u := hs1.accGive.of_fst e
                extract_lets s2 s3 s4 _ s5
                have hs2 : t.Within admitChunkScope s2 := hu.slabBeats
                have hs3 : t.Within admitChunkScope s3 := hs2.putLedger.slotPut.sltEvent
                have hs4 : t.Within admitChunkScope s4 := hs3.instFlags
                have hs5 : t.Within admitChunkScope s5 := hs4.straggler
                exact hs5.tryClose
    · exact h

def waitRunScope : Scope := admitChunkScope ||| addTier0Scope ||| partialIntoScope ||| writeResultScope ||| resendChunkScope
  ||| sendPartialScope ||| convertHeldScope

theorem Within.waitRun {q p : Nat} {w : WaitItem} (h : s.Within M t) (hm : waitRunScope.le M = true := by decide +kernel) :
    s.Within M (t.waitRun q p w) := by
  refine h.andThen hm fun h => ?_
  unfold State.waitRun
  split
  · exact h
  · split
    · exact h
    · split
      · split
        · exact h.admitChunk
        · exact h
      · exact h.addTier0
      · exact .ite h.partialInto h.writeResult
      · exact h.resendChunk
      · split
        · split
          · exact h.sendPartial
          · exact h
        · exact h
      · exact h.tryClose
      · exact h.convertHeld

def giveFrameScope : Scope := slotPutScope ||| putLedgerScope

theorem Within.giveFrame {q p : Nat} {k : Key} {x : Slot} {op : COp} (h : s.Within M t)
    (hm : giveFrameScope.le M = true := by decide +kernel) : s.Within M (t.giveFrame q p k x op) := by
  refine h.andThen hm fun h => ?_
  unfold State.giveFrame
  split
  · exact h.putLedger.slotPut
  · exact h.slotPut

def fillNScope : Scope := giveFrameScope

theorem Within.fillN {n q p : Nat} (h : s.Within M t) (hm : fillNScope.le M = true := by decide +kernel) : s.Within M (State.fillN n t q p) := by
  induction n generalizing t with
  | zero => exact h
  | succ n ih =>
    unfold State.fillN
    split
    · split
      · exact ih (h.giveFrame hm)
      · exact h
    · exact h

def fillFramesScope : Scope := fillNScope

theorem Within.fillFrames {q p : Nat} (h : s.Within M t) (hm : fillFramesScope.le M = true := by decide +kernel) :
    s.Within M (t.fillFrames q p) := by
  refine h.andThen hm fun h => ?_
  unfold State.fillFrames
  exact h.fillN

def settleOnceScope : Scope := scope [.waits] [] ||| fillFramesScope ||| waitRunScope

theorem Within.settleOnce {q p : Nat} (h : s.Within M t) (hm : settleOnceScope.le M = true := by decide +kernel) : s.Within M (t.settleOnce q p) := by
  refine h.andThen hm fun h => ?_
  unfold State.settleOnce
  have hrun : t.Within settleOnceScope (((SMap.get (t.fillFrames q p).waits [q, p] []).foldl (fun (t : State × List WaitItem) w =>
      if t.1.waitReady q p w then (t.1.waitRun q p w, t.2) else (t.1, t.2 ++ [w])) (t.fillFrames q p, [])).1) := by
    refine Within.foldl_fst h.fillFrames fun u w hu => ?_
    split
    · exact hu.waitRun
    · exact hu
  exact hrun.waits

def settleNScope : Scope := settleOnceScope

theorem Within.settleN {n p : Nat} (h : s.Within M t) (hm : settleNScope.le M = true := by decide +kernel) : s.Within M (State.settleN n t p) := by
  induction n generalizing t with
  | zero => exact h
  | succ n ih =>
    unfold State.settleN
    exact ih (h.foldl fun _ _ hu => hu.settleOnce hm)

def settleScope : Scope := settleNScope

theorem Within.settle {p : Nat} (h : s.Within M t) (hm : settleScope.le M = true := by decide +kernel) : s.Within M (t.settle p) := by
  refine h.andThen hm fun h => ?_
  unfold State.settle
  exact .ite h h.settleN

def abortsDueScope : Scope := scope [] [V.ABORT_DUE] ||| settleScope ||| instAbortScope

theorem Within.abortsDue (h : s.Within M t) (hm : abortsDueScope.le M = true := by decide +kernel) : s.Within M (t.abortsDue) := by
  refine h.andThen hm fun h => ?_
  unfold State.abortsDue
  split
  · refine h.wr.foldl fun _ _ hu => by
      extract_lets
      split
      · split
        · exact .ite hu.instAbort.settle hu
        · exact hu
      · exact hu
  · exact h

def mitAbortScope : Scope := scope [] [F.MIT_ABORT_MORE, F.MIT_ABORT_VALID, F.MIT_ABORT_MISSING, F.MIT_ABORT_SEQ, F.MIT_ABORT_KIND,
  F.MIT_ABORT_CTX] ||| mitStatScope ||| roundPutScope ||| mitSendResultScope ||| errScope

theorem Within.mitAbort {c p : Nat} {e' : CtxE} {r : Round} {seq : Nat} (h : s.Within M t)
    (hm : mitAbortScope.le M = true := by decide +kernel) : s.Within M (t.mitAbort c p e' r seq) := by
  refine h.andThen hm fun h => ?_
  unfold State.mitAbort
  extract_lets
  split
  · extract_lets _ s1 s2 s3 s4
    have hs1 : t.Within mitAbortScope s1 := h.roundPut.mitStat
    have hs2 : t.Within mitAbortScope s2 := .ite hs1.wr hs1
    have hs3 : t.Within mitAbortScope s3 := hs2.wr.wr.wr.wr.raise
    have hs4 : t.Within mitAbortScope s4 := .ite hs3 hs3.mitSendResult
    exact hs4.err

def roundsDueScope : Scope := scope [] [V.ROUND_DUE] ||| mitAbortScope

theorem Within.roundsDue (h : s.Within M t) (hm : roundsDueScope.le M = true := by decide +kernel) : s.Within M (t.roundsDue) := by
  refine h.andThen hm fun h => ?_
  unfold State.roundsDue
  split
  · refine h.wr.foldl fun _ _ hu => by
      extract_lets
      split
      · exact .ite hu.mitAbort hu
      · exact hu
  · exact h

def retiresDueScope : Scope := hbmRetireScope

theorem Within.retiresDue (h : s.Within M t) (hm : retiresDueScope.le M = true := by decide +kernel) : s.Within M (t.retiresDue) := by
  refine h.andThen hm fun h => ?_
  unfold State.retiresDue
  extract_lets _ s1
  have hs1 : t.Within retiresDueScope s1 := h.eraseRegs [V.RET_DUE] (fun _ _ hn => by simp only [List.forall_mem_cons] at hn; simp [hn])
  exact hs1.foldl (fun _ _ hu => hu.hbmRetire)

def runWriteScope : Scope := tlpScope ||| slabSpanScope ||| slabWriteScope ||| memWriteScope

theorem Within.runWrite {q p space : Nat} {a : Int} {bs : List Byte} (h : s.Within M t) (hm : runWriteScope.le M = true := by decide +kernel)
    (e : t.runWrite q p space a bs = some u) : s.Within M u := by
  refine h.andThen hm fun h => ?_
  unfold State.runWrite at e
  split at e
  · exact Within.of_some (h.tlp) e
  · split at e
    · exact Within.of_some (h.slabSpan.slabWrite) e
    · exact h.memWrite (e := e)

def bytesUnspecifiedScope : Scope := scope [.free] [] ||| runWriteScope

theorem Within.bytesUnspecified {q p space : Nat} {a : ℤ} {n : Nat} (h : s.Within M t)
    (hm : bytesUnspecifiedScope.le M = true := by decide +kernel) : s.Within M (t.bytesUnspecified q p space a n) := by
  refine h.andThen hm fun h => ?_
  unfold State.bytesUnspecified
  extract_lets t1
  have ht1 : t.Within bytesUnspecifiedScope t1 := h.getD fun _ e => h.runWrite (e := e)
  exact .ite h ht1.free

def runUnspecifiedScope : Scope := bytesUnspecifiedScope

theorem Within.runUnspecified {q p space : Nat} {d : ℤ} {off n : Nat} (h : s.Within M t)
    (hm : runUnspecifiedScope.le M = true := by decide +kernel) : s.Within M (t.runUnspecified q p space d off n) := by
  refine h.andThen hm fun h => ?_
  unfold State.runUnspecified
  exact .ite h h.bytesUnspecified

def restUnspecifiedScope : Scope := runUnspecifiedScope

theorem Within.restUnspecified {q p c : Nat} (h : s.Within M t) (hm : restUnspecifiedScope.le M = true := by decide +kernel) :
    s.Within M (t.restUnspecified q p c) := by
  refine h.andThen hm fun h => ?_
  unfold State.restUnspecified
  extract_lets
  exact .ite h (.ite (h.foldl (fun _ _ hu => hu.runUnspecified)) (.ite h.runUnspecified h))

/-- What a channel's record written to its queue may change. -/
def movRecordOutScope : Scope := cqBytes ||| scope [] [F.MOV_CQ_PTR_PROD, F.MOV_CH_STAT_LOSTREC] ||| ringStoreScope ||| hostFailScope

theorem Within.movRecordOut {q p c : Nat} (h : s.Within M t) (hm : movRecordOutScope.le M = true := by decide +kernel) :
    s.Within M (t.movRecordOut q p c) := by
  refine h.andThen hm fun h => ?_
  unfold State.movRecordOut
  extract_lets log2 prod host
  split
  · next v e =>
    refine (h.ringWriteIn (by decide +kernel) (by decide +kernel) (fun _ hhost ps hplace a ha => ?_) e).bump.wr
    have hlen : (t.movRecordBytes q p c prod log2).length = 32 := by simp [movRecordBytes]
    rw [hlen] at hplace
    exact .inl ⟨by decide +kernel, .inr ⟨q, p, c, hhost, prod % 2 ^ log2, ps, Nat.mod_lt _ (by positivity), hplace, ha⟩⟩
  · exact (Within.ite h.hostFail h).wr

def movVectorScope : Scope := scope [] [V.MOV_VEC_DUE, V.MOV_VEC_TIME] ||| vectorScope

theorem Within.movVector {q p c : Nat} (h : s.Within M t) (hm : movVectorScope.le M = true := by decide +kernel) :
    s.Within M (t.movVector q p c) := by
  refine h.andThen hm fun h => ?_
  unfold State.movVector
  exact .ite h.vector.wr.wr h.wr

def movRecordEndScope : Scope := scope [] [F.MOV_CH_CTL_ERR, V.MOV_TO_ERR, V.MOV_START_E] ||| setMovScope ||| movSettleScope

theorem Within.movRecordEnd {q p c : Nat} (h : s.Within M t) (hm : movRecordEndScope.le M = true := by decide +kernel) :
    s.Within M (t.movRecordEnd q p c) := by
  refine h.andThen hm fun h => ?_
  unfold State.movRecordEnd
  extract_lets _ _ s1 s2 s3
  have hs1 : t.Within movRecordEndScope s1 := .ite h.setMov.raise h.setMov
  have hs2 : t.Within movRecordEndScope s2 := hs1.wr.wr
  have hs3 : t.Within movRecordEndScope s3 := .ite hs2 hs2.cmdDone
  exact hs3.movSettle

def movRecordWriteScope : Scope := movRecordEndScope ||| movVectorScope ||| movRecordOutScope

theorem Within.movRecordWrite {q p c : Nat} (h : s.Within M t) (hm : movRecordWriteScope.le M = true := by decide +kernel) :
    s.Within M (t.movRecordWrite q p c) := by
  refine h.andThen hm fun h => ?_
  unfold State.movRecordWrite
  extract_lets
  exact .ite h h.movRecordOut.movVector.movRecordEnd

def movRestartChScope : Scope := movRecordWriteScope ||| movEndingScope ||| restUnspecifiedScope

theorem Within.movRestartCh {q p c : Nat} (h : s.Within M t) (hm : movRestartChScope.le M = true := by decide +kernel) :
    s.Within M (t.movRestartCh q p c) := by
  refine h.andThen hm fun h => ?_
  unfold State.movRestartCh
  extract_lets
  exact .ite h.restUnspecified.movEnding.movRecordWrite h

def movRestartAllScope : Scope := scope [] [V.MOV_RESTART, F.MOV_STAT_STOPPED] ||| movRestartChScope

theorem Within.movRestartAll {q : Nat} (h : s.Within M t) (hm : movRestartAllScope.le M = true := by decide +kernel) :
    s.Within M (t.movRestartAll q) := by
  refine h.andThen hm fun h => ?_
  unfold State.movRestartAll
  extract_lets s1
  have hs1 : t.Within movRestartAllScope s1 := h.foldl (fun _ _ hu => hu.foldl (fun _ _ hu2 => hu2.movRestartCh))
  exact hs1.wr.wr

def movRestartDueScope : Scope := movRestartAllScope

theorem Within.movRestartDue {q : Nat} (h : s.Within M t) (hm : movRestartDueScope.le M = true := by decide +kernel) :
    s.Within M (t.movRestartDue q) := by
  refine h.andThen hm fun h => ?_
  unfold State.movRestartDue
  extract_lets
  exact .ite h.movRestartAll h

def selectsDueScope : Scope := scope [] [V.SEL_NEXT, F.CTR_SEL_EVENT, F.CTR_SEL_PART, F.CTR_SEL_PART_EN, F.CTR_SEL_EN, F.CTRM_SEL_EVENT,
  F.CTRM_SEL_PART, F.CTRM_SEL_PART_EN, F.CTRM_SEL_EN]

theorem Within.selectsDue (h : s.Within M t) (hm : selectsDueScope.le M = true := by decide +kernel) : s.Within M (t.selectsDue) := by
  refine h.andThen hm fun h => ?_
  unfold State.selectsDue
  refine h.foldl fun u ix hu => ?_
  extract_lets x put v
  have hv : t.Within selectsDueScope v := by
    dsimp only [v, put]
    split
    · exact hu.wr.wr.wr.wr
    · exact hu.wr.wr.wr.wr
  exact hv.wr

def frameClockScope : Scope := frameBeginScope

theorem Within.frameClock {q : Nat} (h : s.Within M t) (hm : frameClockScope.le M = true := by decide +kernel) :
    s.Within M (t.frameClock q) := by
  refine h.andThen hm fun h => ?_
  unfold State.frameClock
  refine h.foldl fun _ _ hu => by
    extract_lets
    exact .ite hu.frameBegin hu

def linkCycleScope : Scope := scope [] [V.LINK_CYC] ||| frameClockScope

theorem Within.linkCycle {q : Nat} (h : s.Within M t) (hm : linkCycleScope.le M = true := by decide +kernel) : s.Within M (t.linkCycle q)
    := by
  refine h.andThen hm fun h => ?_
  unfold State.linkCycle
  exact .ite h.bump.frameClock h

def tallyPacketScope : Scope := scope [.psBuf] [V.MIR_SEQ] ||| sendScope

theorem Within.tallyPacket {p : Nat} (h : s.Within M t) (hm : tallyPacketScope.le M = true := by decide +kernel) :
    s.Within M (t.tallyPacket p) := by
  refine h.andThen hm fun h => ?_
  unfold State.tallyPacket
  extract_lets
  exact .ite h h.psBuf.bump.send

def tallyEndScope : Scope := scope [] [F.CTR_TALLY_STAT_SNAPS] ||| tallyPacketScope ||| vectorScope

theorem Within.tallyEnd {p : Nat} (h : s.Within M t) (hm : tallyEndScope.le M = true := by decide +kernel) : s.Within M (t.tallyEnd p)
    := by
  refine h.andThen hm fun h => ?_
  unfold State.tallyEnd
  extract_lets s1
  have hs1 : t.Within tallyEndScope s1 := .ite h.tallyPacket h.vector
  exact hs1.bump.countModule

def tallyPutScope : Scope := scope [] [F.CTR_TALLY_STAT_LOST, F.CTR_TALLY_PTR_PROD] ||| ringWriteScope ||| hostFailScope

theorem Within.tallyPut {f : Nat} {rcd : List Byte} (h : s.Within M t) (hm : tallyPutScope.le M = true := by decide +kernel) :
    s.Within M (t.tallyPut f rcd) := by
  refine h.andThen hm fun h => ?_
  unfold State.tallyPut
  extract_lets lost1
  have hlost1 : t.Within tallyPutScope lost1 := h.bump
  split
  · exact hlost1
  · split
    · next u e =>
        have hu : t.Within tallyPutScope u := h.ringWrite (e := e)
        exact hu.bump
    · exact .ite hlost1.hostFail hlost1

def tallyRecordScope : Scope := tallyPacketScope ||| tallyPutScope

theorem Within.tallyRecord {p : Nat} {rcd : List Byte} (h : s.Within M t) (hm : tallyRecordScope.le M = true := by decide +kernel) :
    s.Within M (t.tallyRecord p rcd) := by
  refine h.andThen hm fun h => ?_
  unfold State.tallyRecord
  extract_lets _ s1
  have hs1 : t.Within tallyRecordScope s1 := h.psBuf
  exact .ite (.ite hs1 hs1.tallyPacket) h.tallyPut

def tallyLatchScope : Scope := tallyRecordScope

theorem Within.tallyLatch {bank : Nat} (h : s.Within M t) (hm : tallyLatchScope.le M = true := by decide +kernel) :
    s.Within M (t.tallyLatch bank) := by
  refine h.andThen hm fun h => ?_
  unfold State.tallyLatch
  refine h.foldl fun _ _ hu => by
    extract_lets _ t1
    have ht1 : t.Within tallyLatchScope t1 := hu.tallyRecord
    exact .ite ht1.tallyRecord ht1

def sweepCycleScope : Scope := scope [] [V.SWEEP_AT, V.SWEEP_BANKS, V.SWEEP_PROGS] ||| tallyLatchScope ||| tallyEndScope

theorem Within.sweepCycle (h : s.Within M t) (hm : sweepCycleScope.le M = true := by decide +kernel) : s.Within M (t.sweepCycle) := by
  refine h.andThen hm fun h => ?_
  unfold State.sweepCycle
  split
  · exact h
  · split
    · exact h.tallyLatch.wr.wr
    · exact (h.foldl (fun _ _ hu => hu.tallyEnd)).wr

def slotClassScope : Scope := scope [] [V.RTR_STALL] ||| countLocalScope

theorem Within.slotClass {q k n : Nat} (h : s.Within M t) (hm : slotClassScope.le M = true := by decide +kernel) :
    s.Within M (t.slotClass q k n) := by
  refine h.andThen hm fun h => ?_
  unfold State.slotClass
  extract_lets
  exact .ite h.countLocal (.ite h.countLocal (.ite h.countLocal (h.countLocal.bump.foldl (fun _ _ hu => hu.countLocal))))

def slotClassesScope : Scope := slotClassScope

theorem Within.slotClasses {q : Nat} (h : s.Within M t) (hm : slotClassesScope.le M = true := by decide +kernel) :
    s.Within M (t.slotClasses q) := by
  refine h.andThen hm fun h => ?_
  unfold State.slotClasses
  refine h.foldl fun _ _ hu => by
    extract_lets
    exact .ite (hu.foldl (fun _ _ hu2 => hu2.slotClass)) hu

def ctrCycleScope : Scope := scope [] [F.CTR_VAL_COUNT, F.CTR_VAL_OVF, V.RAISED]

theorem Within.ctrCycle {q b i : Nat} {skipped : Bool} (h : s.Within M t) (hm : ctrCycleScope.le M = true := by decide +kernel) :
    s.Within M (t.ctrCycle q b i skipped) := by
  refine h.andThen hm fun h => ?_
  unfold State.ctrCycle
  extract_lets
  split
  · exact .ite h.bumpOvf h
  · split
    · split
      · exact .ite (.ite h.bumpOvf h) h
      · exact h
    · exact h

def countCycleScope : Scope := scope [] [F.CTRM_VAL_COUNT, F.CTRM_VAL_OVF] ||| ctrCycleScope ||| slotClassesScope

theorem Within.countCycle {skipped : Bool} (h : s.Within M t) (hm : countCycleScope.le M = true := by decide +kernel) :
    s.Within M (t.countCycle skipped) := by
  refine h.andThen hm fun h => ?_
  unfold State.countCycle
  extract_lets s1 s2
  have hs1 : t.Within countCycleScope s1 := h.foldl (fun _ _ hu3 => .ite hu3.ctrCycle hu3)
  have hs2 : t.Within countCycleScope s2 := hs1.foldl (fun _ _ hu2 => .ite hu2.bumpOvf hu2)
  exact hs2.foldl (fun _ _ hu => .ite hu.slotClasses hu)

def clockCycleScope : Scope := scope [] [V.CLK, F.CTR_LEG_CYCLE_COUNT, V.TIME_PS] ||| selectsDueScope ||| countCycleScope
  ||| sweepCycleScope ||| linkCycleScope

theorem Within.clockCycle {skipped : Bool} (h : s.Within M t) (hm : clockCycleScope.le M = true := by decide +kernel) :
    s.Within M (t.clockCycle skipped) := by
  refine h.andThen hm fun h => ?_
  unfold State.clockCycle
  extract_lets s1
  have hs1 : t.Within clockCycleScope s1 := h.countCycle.selectsDue
  exact (hs1.bump.bump.bump.foldl (fun _ _ hu => hu.linkCycle)).sweepCycle

def bankEndsScope : Scope := scope [] [V.BANK_LEN] ||| countLocalScope

theorem Within.bankEnds {q : Nat} (h : s.Within M t) (hm : bankEndsScope.le M = true := by decide +kernel) : s.Within M (t.bankEnds q)
    := by
  refine h.andThen hm fun h => ?_
  unfold State.bankEnds
  refine h.foldl fun _ _ hu => by
    extract_lets _ _ t1
    have ht1 : t.Within bankEndsScope t1 := hu.wr
    exact .ite (.ite ht1.countLocal ht1.countLocal.countLocal) hu

def engineTakeScope : Scope := scope [] [V.ENG_PART, V.ENG_SLOT, V.ENG_FREE]

theorem Within.engineTake {q w p n : Nat} (h : s.Within M t) (hm : engineTakeScope.le M = true := by decide +kernel) :
    s.Within M (t.engineTake q w p n) := by
  refine h.andThen hm fun h => ?_
  unfold State.engineTake
  exact h.wr.wr.wr

def bankStartScope : Scope := scope [] [V.BANK_WASTE, V.BANK_PART, V.BANK_END, V.BANK_LEN] ||| countLocalScope

theorem Within.bankStart {q b p n : Nat} (h : s.Within M t) (hm : bankStartScope.le M = true := by decide +kernel) :
    s.Within M (t.bankStart q b p n) := by
  refine h.andThen hm fun h => ?_
  unfold State.bankStart
  exact h.wr.wr.wr.wr.countLocal

def unitStartScope : Scope := bankStartScope ||| engineTakeScope

theorem Within.unitStart {q w p n : Nat} (h : s.Within M t) (hm : unitStartScope.le M = true := by decide +kernel) :
    s.Within M (t.unitStart q w p n) := by
  refine h.andThen hm fun h => ?_
  unfold State.unitStart
  exact h.engineTake.bankStart

def unitScope : Scope := unitStartScope

theorem Within.unit {q w p n : Nat} {f : State → State} (h : s.Within M t) (H : ∀ u, s.Within M u → s.Within M (f u))
    (hm : unitScope.le M = true := by decide +kernel) : s.Within M (t.unit q w p n f) := .ite (H _ (h.unitStart hm)) h

def accTickScope : Scope := scope [] [V.ACC_OUT] ||| unitScope

theorem Within.accTick {q : Nat} (h : s.Within M t) (hm : accTickScope.le M = true := by decide +kernel) : s.Within M (t.accTick q) := by
  refine h.andThen hm fun h => ?_
  unfold State.accTick
  refine h.foldl fun _ _ hu => by
    extract_lets
    exact .ite (hu.unit (fun _ hu2 => hu2.bump)) hu

def lendScope : Scope := scope [] [V.SLOT_LENT]

theorem Within.lend {q w : Nat} {next : State → Nat → Option Nat} (h : s.Within M t) (hm : lendScope.le M = true := by decide +kernel) :
    s.Within M (t.lend q w next) := h.wr (Scope.part hm)

def slotStartScope : Scope := lendScope

theorem Within.slotStart {q w : Nat} {next : State → Nat → Option Nat} (h : s.Within M t) (hm : slotStartScope.le M = true := by decide +kernel) :
    s.Within M (t.slotStart q w next) := .ite (h.lend hm) h

def wheelCycleScope : Scope := slotStartScope ||| accTickScope

theorem Within.wheelCycle {q : Nat} (h : s.Within M t) (hm : wheelCycleScope.le M = true := by decide +kernel) :
    s.Within M (t.wheelCycle q) := by
  refine h.andThen hm fun h => ?_
  unfold State.wheelCycle
  extract_lets s1
  have hs1 : t.Within wheelCycleScope s1 := h.foldl (fun _ _ hu => hu.slotStart)
  exact .ite hs1.accTick hs1

def noteFreeScope : Scope := scope [] [V.COR_F, F.COR_BUF_LOW]

theorem Within.noteFree {q : Nat} (h : s.Within M t) (hm : noteFreeScope.le M = true := by decide +kernel) : s.Within M (t.noteFree q)
    := by
  refine h.andThen hm fun h => ?_
  unfold State.noteFree
  extract_lets _ s1
  have hs1 : t.Within noteFreeScope s1 := h.wr
  exact .ite hs1.wr hs1

def coreCycleScope : Scope := scope [.bufs] [] ||| grantScope ||| noteFreeScope ||| injUpdateScope

theorem Within.coreCycle {q : Nat} (h : s.Within M t) (hm : coreCycleScope.le M = true := by decide +kernel) : s.Within M (t.coreCycle q)
    := by
  refine h.andThen hm fun h => ?_
  unfold State.coreCycle
  extract_lets _ _ _ _ _ _ s1 s2
  have hs1 : t.Within coreCycleScope s1 := .ite h h.bufs
  have hs2 : t.Within coreCycleScope s2 := hs1.foldl (fun _ _ hu2 => hu2.grant)
  exact (hs2.foldl (fun _ _ hu => hu.injUpdate)).noteFree

def quadCycleScope : Scope := scope [] [V.COR_ADMIT, V.CYCLE] ||| coreCycleScope ||| wheelCycleScope ||| bankEndsScope

theorem Within.quadCycle {q : Nat} (h : s.Within M t) (hm : quadCycleScope.le M = true := by decide +kernel) : s.Within M (t.quadCycle q)
    := by
  refine h.andThen hm fun h => ?_
  unfold State.quadCycle
  exact .ite h.bump.wr.bankEnds.wheelCycle.coreCycle h

def advanceScope : Scope := quadCycleScope ||| clockCycleScope

theorem Within.advance (h : s.Within M t) (hm : advanceScope.le M = true := by decide +kernel) : s.Within M (t.advance) := by
  refine h.andThen hm fun h => ?_
  unfold State.advance
  exact .ite (((h.foldl (fun _ _ hu => hu.clockCycle)).clockCycle).foldl (fun _ _ hu2 => hu2.quadCycle)) h.selectsDue.bump

def mirVectorScope : Scope := scope [] [V.MIR_VEC_DUE, V.MIR_VEC_TIME] ||| vectorScope

theorem Within.mirVector {q i : Nat} (h : s.Within M t) (hm : mirVectorScope.le M = true := by decide +kernel) :
    s.Within M (t.mirVector q i) := by
  refine h.andThen hm fun h => ?_
  unfold State.mirVector
  exact .ite h.vector.wr.wr h.wr

def dueVectorScope : Scope := raiseVec1Scope ||| cqVectorScope ||| mirVectorScope ||| movVectorScope

theorem Within.dueVector {k : List Nat} (h : s.Within M t) (hm : dueVectorScope.le M = true := by decide +kernel) :
    s.Within M (t.dueVector k) := by
  refine h.andThen hm fun h => ?_
  unfold State.dueVector
  extract_lets
  exact .ite h.raiseVec1 (.ite h.cqVector (.ite h.mirVector (.ite h.movVector h)))

def dueVectorsScope : Scope := dueVectorScope

theorem Within.dueVectors (h : s.Within M t) (hm : dueVectorsScope.le M = true := by decide +kernel) : s.Within M (t.dueVectors) := by
  refine h.andThen hm fun h => ?_
  unfold State.dueVectors
  extract_lets
  exact h.foldl (fun _ _ hu => hu.dueVector)

def tickScope : Scope := dueVectorsScope ||| advanceScope ||| movRestartDueScope ||| retiresDueScope ||| roundsDueScope ||| abortsDueScope
  ||| dbgAccessDueScope ||| jtagTokenDueScope

theorem Within.tick (h : s.Within M t) (hm : tickScope.le M = true := by decide +kernel) : s.Within M (t.tick) := by
  refine h.andThen hm fun h => ?_
  unfold State.tick
  exact (((h.jtagTokenDue.dbgAccessDue.abortsDue.roundsDue.retiresDue.foldl (fun _ _ hu => hu.movRestartDue)).errFlush).advance).dueVectors

def ieee1588Scope : Scope := scope [] [V.TIME_PS]

theorem Within.ieee1588 {ns : Nat} (h : s.Within M t) (hm : ieee1588Scope.le M = true := by decide +kernel) : s.Within M (t.ieee1588 ns)
    := by
  refine h.andThen hm fun h => ?_
  unfold State.ieee1588
  exact .ite h.wr h

def moduleReleaseScope : Scope := scope [] [V.MRESET] ||| startUpScope

theorem Within.moduleRelease (h : s.Within M t) (hm : moduleReleaseScope.le M = true := by decide +kernel) : s.Within M (t.moduleRelease)
    := by
  refine h.andThen hm fun h => ?_
  unfold State.moduleRelease
  extract_lets s1
  have hs1 : t.Within moduleReleaseScope s1 := h.wr
  exact .ite h (.ite hs1 hs1.startUp)

def quadResetEndScope : Scope := scope [] [V.QRESET, V.QUIESCE] ||| restoreScope

theorem Within.quadResetEnd {q : Nat} (h : s.Within M t) (hm : quadResetEndScope.le M = true := by decide +kernel) :
    s.Within M (t.quadResetEnd q) := by
  refine h.andThen hm fun h => ?_
  unfold State.quadResetEnd
  extract_lets s1
  have hs1 : t.Within quadResetEndScope s1 := h.wr
  exact .ite (.ite hs1.wr.restore hs1) h

def yofenRebootScope : Scope := yofenStartScope

theorem Within.yofenReboot (h : s.Within M t) (hm : yofenRebootScope.le M = true := by decide +kernel) : s.Within M (t.yofenReboot) := by
  refine h.andThen hm fun h => ?_
  unfold State.yofenReboot
  exact .ite h.yofenStart h

def retrainPrbsEndScope : Scope := scope [] [V.LNK_PRBS] ||| framesBeginScope

theorem Within.retrainPrbsEnd {q k : Nat} (h : s.Within M t) (hm : retrainPrbsEndScope.le M = true := by decide +kernel) :
    s.Within M (t.retrainPrbsEnd q k) := by
  refine h.andThen hm fun h => ?_
  unfold State.retrainPrbsEnd
  exact .ite h.wr.framesBegin h

def cartLatchCloseScope : Scope := scope [] [F.TRY_CART_CUFF] ||| cartTrainScope

theorem Within.cartLatchClose {c : Nat} (h : s.Within M t) (hm : cartLatchCloseScope.le M = true := by decide +kernel) :
    s.Within M (t.cartLatchClose c) := by
  refine h.andThen hm fun h => ?_
  unfold State.cartLatchClose
  extract_lets s1
  have hs1 : t.Within cartLatchCloseScope s1 := h.wr
  exact .ite hs1.cartTrain hs1

def registerReadScope : Scope := scope [] [F.PCI_FN_STAT_BADACC] ||| aerScope ||| bar0LoadScope

theorem Within.registerRead {f o n : Nat} (h : s.Within M t) (hm : registerReadScope.le M = true := by decide +kernel) :
    s.Within M (t.registerRead f o n) := by
  refine h.andThen hm fun h => ?_
  unfold State.registerRead
  extract_lets s1
  have hs1 : t.Within registerReadScope s1 := h.countModule
  split
  · exact h
  · split
    · exact hs1.bar0Touch.raise.tlp.aer
    · split
      · next u _ _ e =>
          have hu : t.Within registerReadScope u := hs1.bar0Load.of_fst e
          exact .ite hu.tlp.aer hu.tlp

def registerWriteScope : Scope := scope [] [F.PCI_FN_STAT_BADACC] ||| bar0TouchScope ||| bar0StoreScope

theorem Within.registerWrite {f o n v : Nat} (h : s.Within M t) (hm : registerWriteScope.le M = true := by decide +kernel) :
    s.Within M (t.registerWrite f o n v) := by
  refine h.andThen hm fun h => ?_
  unfold State.registerWrite
  extract_lets s1
  have hs1 : t.Within registerWriteScope s1 := h.countModule.bar0Touch
  exact .ite h (.ite hs1.raise hs1.bar0Store)

def debugWindowScope : Scope := registerWriteScope ||| registerReadScope

theorem Within.debugWindow {write : Bool} {o n v : Nat} (h : s.Within M t) (hm : debugWindowScope.le M = true := by decide +kernel) :
    s.Within M (t.debugWindow write o n v) := by
  refine h.andThen hm fun h => ?_
  unfold State.debugWindow
  exact .ite h.registerWrite h.registerRead

def tallySkipScope : Scope := scope [] [F.CTR_TALLY_STAT_SKIPPED] ||| countModuleScope

theorem Within.tallySkip {p : Nat} (h : s.Within M t) (hm : tallySkipScope.le M = true := by decide +kernel) : s.Within M (t.tallySkip p)
    := by
  refine h.andThen hm fun h => ?_
  unfold State.tallySkip
  exact h.bump.countModule

def tallySweepScope : Scope := scope [] [V.SWEEP_WAIT, V.SWEEP_AT, V.SWEEP_BANKS, V.SWEEP_PROGS] ||| tallySkipScope

theorem Within.tallySweep {due skipped : List Nat} (h : s.Within M t) (hm : tallySweepScope.le M = true := by decide +kernel) :
    s.Within M (t.tallySweep due skipped) := by
  refine h.andThen hm fun h => ?_
  unfold State.tallySweep
  extract_lets _ _ s1 _ s2
  have hs1 : t.Within tallySweepScope s1 := h.foldl (fun _ _ hu2 => hu2.tallySkip)
  have hs2 : t.Within tallySweepScope s2 := hs1.foldl (fun _ _ hu => hu.tallySkip)
  exact .ite hs2.wr (.ite hs2 hs2.wr.wr.wr.wr)

def msixUnmaskScope : Scope := scope [] [V.MSIX_PEND, V.MSIX_MASK] ||| tlpScope

theorem Within.msixUnmask {f v : Nat} (h : s.Within M t) (hm : msixUnmaskScope.le M = true := by decide +kernel) :
    s.Within M (t.msixUnmask f v) := by
  refine h.andThen hm fun h => ?_
  unfold State.msixUnmask
  extract_lets _ s1
  have hs1 : t.Within msixUnmaskScope s1 := h.wr.wr
  exact .ite hs1.tlp hs1

def fetchAbortScope : Scope := knitFailScope

theorem Within.fetchAbort {who : Nat → Bool} (h : s.Within M t) (hm : fetchAbortScope.le M = true := by decide +kernel) :
    s.Within M (t.fetchAbort who) := by
  refine h.andThen hm fun h => ?_
  unfold State.fetchAbort
  exact .ite h.knitFail h

def hostAccessFailScope : Scope := aerScope ||| hostFailScope ||| movBusErrorScope ||| fetchAbortScope ||| secDoneScope ||| dbgDoneScope

theorem Within.hostAccessFail {f user q c : Nat} (h : s.Within M t) (hm : hostAccessFailScope.le M = true := by decide +kernel) :
    s.Within M (t.hostAccessFail f user q c) := by
  refine h.andThen hm fun h => ?_
  unfold State.hostAccessFail
  extract_lets
  split
  · exact .ite h.hostFail.err.aer.movBusError h
  · exact h.hostFail
  · exact .ite h.hostFail.err.aer.fetchAbort h
  · exact .ite h.hostFail.err.aer.secDone h
  · exact .ite h.hostFail.err.aer.dbgDone h
  · exact h

def pcieUpScope : Scope := scope [.free] [F.PCI_LINK_FLIT, F.PCI_LINK_SPEED, F.PCI_LINK_WIDTH]

theorem Within.pcieUp (h : s.Within M t) (hm : pcieUpScope.le M = true := by decide +kernel) : s.Within M (t.pcieUp) := by
  refine h.andThen hm fun h => ?_
  unfold State.pcieUp
  extract_lets _ _ s1
  have hs1 : t.Within pcieUpScope s1 := h.freshen.wr.wr
  exact .ite h hs1.wr

def linkOffScope : Scope := scope [] [F.PCI_LINK_FLIT, F.PCI_LINK_WIDTH, F.PCI_LINK_SPEED]

theorem Within.linkOff (h : s.Within M t) (hm : linkOffScope.le M = true := by decide +kernel) : s.Within M (t.linkOff) := by
  refine h.andThen hm fun h => ?_
  unfold State.linkOff
  exact h.wr.wr.wr

def pcieLinkDownScope : Scope := scope [] [F.PCI_LINK_DOWNS] ||| fetchAbortScope ||| linkOffScope ||| aerScope ||| pcieUpScope

theorem Within.pcieLinkDown {down : Bool} (h : s.Within M t) (hm : pcieLinkDownScope.le M = true := by decide +kernel) :
    s.Within M (t.pcieLinkDown down) := by
  refine h.andThen hm fun h => ?_
  unfold State.pcieLinkDown
  extract_lets s1
  have hs1 : t.Within pcieLinkDownScope s1 := h.linkOff.bump.fetchAbort
  exact .ite (.ite h hs1.err.aer) (.ite h.pcieUp h)

def dropLatchesScope : Scope := scope [] [V.CART_LATCH, F.MOV_CH_STAT_BUSY, F.HAT_PSTATE_PENDING]

theorem Within.dropLatches (h : s.Within M t) (hm : dropLatchesScope.le M = true := by decide +kernel) : s.Within M (t.dropLatches) := by
  refine h.andThen hm fun h => ?_
  unfold State.dropLatches
  extract_lets s1 s2
  have hs1 : t.Within dropLatchesScope s1 := h.foldl (fun _ _ hu2 => .ite hu2.wr hu2)
  have hs2 : t.Within dropLatchesScope s2 := hs1.foldl (fun _ _ hu => hu.wr)
  exact hs2.wr

def pf0FlrScope : Scope := scope [] [F.GLB_SCRATCH_VALUE, V.SEC_NOVEC] ||| fnResetScope ||| fetchAbortScope ||| grantEndScope
  ||| dropLatchesScope

theorem Within.pf0Flr (h : s.Within M t) (hm : pf0FlrScope.le M = true := by decide +kernel) : s.Within M (t.pf0Flr) := by
  refine h.andThen hm fun h => ?_
  unfold State.pf0Flr
  extract_lets s1 s2 s3
  have hs1 : t.Within pf0FlrScope s1 := h.fetchAbort.fnReset.wr
  have hs2 : t.Within pf0FlrScope s2 := .ite hs1.wr hs1
  have hs3 : t.Within pf0FlrScope s3 := .ite hs2.grantEnd hs2
  exact hs3.dropLatches

def bar2WriteScope : Scope := scope [] [F.PCI_FN_STAT_BADBAR2] ||| countModuleScope ||| aerScope ||| memWriteScope ||| hostWroteScope
  ||| noteMergeScope

theorem Within.bar2Write {f off : Nat} {bs : List Byte} {poisoned : Bool} (h : s.Within M t)
    (hm : bar2WriteScope.le M = true := by decide +kernel) : s.Within M (t.bar2Write f off bs poisoned) := by
  refine h.andThen hm fun h => ?_
  unfold State.bar2Write
  extract_lets s1
  have hs1 : t.Within bar2WriteScope s1 := h.countModule
  split
  · exact hs1.err.aer
  · split
    · exact hs1.raise
    · split
      · next u e =>
          have hu : t.Within bar2WriteScope u := hs1.memWrite (e := e)
          exact (hs1.getD fun _ e => hs1.noteMerge.memWrite (e := e)).hostWrote
      · exact hs1

def bar2ReadScope : Scope := scope [] [F.PCI_FN_STAT_BADBAR2] ||| aerScope ||| tlpScope ||| noteReadScope

theorem Within.bar2Read {f off n : Nat} (h : s.Within M t) (hm : bar2ReadScope.le M = true := by decide +kernel) :
    s.Within M (t.bar2Read f off n) := by
  refine h.andThen hm fun h => ?_
  unfold State.bar2Read
  extract_lets s1
  have hs1 : t.Within bar2ReadScope s1 := h.countModule
  split
  · exact hs1.raise.tlp.aer
  · split
    · exact hs1.noteRead.tlp
    · exact hs1.noteRead.tlp.aer

def pldmWriteScope : Scope := scope [] [F.TRY_CAP_HOST_CAP_W, F.TRY_PWM_FORCE_DUTY] ||| powerRequestScope ||| yofDemandScope
  ||| dutyForcedScope ||| cartCmdScope

theorem Within.pldmWrite {i v : Nat} (h : s.Within M t) (hm : pldmWriteScope.le M = true := by decide +kernel) :
    s.Within M (t.pldmWrite i v) := by
  refine h.andThen hm fun h => ?_
  unfold State.pldmWrite
  extract_lets s1
  have hs1 : t.Within pldmWriteScope s1 := h.yofDemand
  exact .ite (.ite h.powerRequest h) (.ite hs1 (.ite hs1.wr (.ite hs1.wr.dutyForced (.ite hs1.cartCmd hs1))))

def pldmReadScope : Scope := yofDemandScope

theorem Within.pldmRead {i : Nat} (h : s.Within M t) (hm : pldmReadScope.le M = true := by decide +kernel) : s.Within M (t.pldmRead i)
    := by
  refine h.andThen hm fun h => ?_
  unfold State.pldmRead
  extract_lets s1
  have hs1 : t.Within pldmReadScope s1 := h.yofDemand
  exact .ite hs1.emit hs1

def setEidScope : Scope := scope [] [V.EID] ||| yofDemandScope

theorem Within.setEid {b eid : Nat} (h : s.Within M t) (hm : setEidScope.le M = true := by decide +kernel) : s.Within M (t.setEid b eid)
    := by
  refine h.andThen hm fun h => ?_
  unfold State.setEid
  extract_lets s1
  have hs1 : t.Within setEidScope s1 := .ite h.yofDemand h
  exact .ite hs1.wr.emit hs1

def spdmScope : Scope := scope [.out] [] ||| yofDemandScope

theorem Within.spdm {req : Nat} {body : State → List Byte} (h : s.Within M t) (hm : spdmScope.le M = true := by decide +kernel) :
    s.Within M (t.spdm req body) :=
  h.andThen hm fun h => .ite h.yofDemand.emit h.yofDemand

def getMeasurementsScope : Scope := scope [.free] [] ||| spdmScope

theorem Within.getMeasurements {index : Nat} {nonce : List Byte} (h : s.Within M t)
    (hm : getMeasurementsScope.le M = true := by decide +kernel) : s.Within M (t.getMeasurements index nonce) := by
  refine h.andThen hm fun h => ?_
  unfold State.getMeasurements
  extract_lets t1
  have ht1 : t.Within getMeasurementsScope t1 := h.spdm
  exact ht1.freshen

def spdmChallengeScope : Scope := scope [.free] [] ||| spdmScope

theorem Within.spdmChallenge {nonce : List Byte} (h : s.Within M t) (hm : spdmChallengeScope.le M = true := by decide +kernel) :
    s.Within M (t.spdmChallenge nonce) := by
  refine h.andThen hm fun h => ?_
  unfold State.spdmChallenge
  extract_lets t1
  have ht1 : t.Within spdmChallengeScope t1 := h.spdm
  exact ht1.freshen

def getCertificateScope : Scope := spdmScope

theorem Within.getCertificate {off n : Nat} (h : s.Within M t) (hm : getCertificateScope.le M = true := by decide +kernel) :
    s.Within M (t.getCertificate off n) := by
  refine h.andThen hm fun h => ?_
  unfold State.getCertificate
  exact h.spdm

def getDigestsScope : Scope := spdmScope

theorem Within.getDigests (h : s.Within M t) (hm : getDigestsScope.le M = true := by decide +kernel) : s.Within M (t.getDigests) := by
  refine h.andThen hm fun h => ?_
  unfold State.getDigests
  exact h.spdm

def negotiateAlgorithmsScope : Scope := spdmScope

theorem Within.negotiateAlgorithms (h : s.Within M t) (hm : negotiateAlgorithmsScope.le M = true := by decide +kernel) :
    s.Within M (t.negotiateAlgorithms) := by
  refine h.andThen hm fun h => ?_
  unfold State.negotiateAlgorithms
  exact h.spdm

def getCapabilitiesScope : Scope := spdmScope

theorem Within.getCapabilities (h : s.Within M t) (hm : getCapabilitiesScope.le M = true := by decide +kernel) :
    s.Within M (t.getCapabilities) := by
  refine h.andThen hm fun h => ?_
  unfold State.getCapabilities
  exact h.spdm

def getVersionScope : Scope := spdmScope

theorem Within.getVersion (h : s.Within M t) (hm : getVersionScope.le M = true := by decide +kernel) : s.Within M (t.getVersion) := by
  refine h.andThen hm fun h => ?_
  unfold State.getVersion
  exact h.spdm

def firmwareUpdateScope : Scope := scope [.flash] [] ||| startUpScope

theorem Within.firmwareUpdate {addr : Nat} {bs : List Byte} (h : s.Within M t) (hm : firmwareUpdateScope.le M = true := by decide +kernel)
    : s.Within M (t.firmwareUpdate addr bs) := by
  refine h.andThen hm fun h => ?_
  unfold State.firmwareUpdate
  extract_lets s1
  have hs1 : t.Within firmwareUpdateScope s1 := h.flashPut.startUp
  exact .ite hs1.wr h

def jtagSetScope : Scope := scope [.out] [V.JTAG_IR]

theorem Within.jtagSet {op : Nat} {ok : Bool} {value : Nat} (h : s.Within M t) (hm : jtagSetScope.le M = true := by decide +kernel) :
    s.Within M (t.jtagSet op ok value) := by
  refine h.andThen hm fun h => ?_
  unfold State.jtagSet
  exact .ite h.wr.emit h.wr.emit

def dbgaShowScope : Scope := scope [] [V.DBGA_STATUS] ||| jtagSetScope

theorem Within.dbgaShow {st : Nat} (h : s.Within M t) (hm : dbgaShowScope.le M = true := by decide +kernel) : s.Within M (t.dbgaShow st)
    := by
  refine h.andThen hm fun h => ?_
  unfold State.dbgaShow
  exact h.wr.jtagSet

def jtagBypassScope : Scope := jtagSetScope

theorem Within.jtagBypass (h : s.Within M t) (hm : jtagBypassScope.le M = true := by decide +kernel) : s.Within M (t.jtagBypass) := by
  refine h.andThen hm fun h => ?_
  unfold State.jtagBypass
  exact h.jtagSet

def dbgAccessScope : Scope := scope [] [V.DBGA_GRANT, V.DBGA_REQ] ||| jtagBypassScope ||| dbgaShowScope

theorem Within.dbgAccess {bits : Nat} (h : s.Within M t) (hm : dbgAccessScope.le M = true := by decide +kernel) :
    s.Within M (t.dbgAccess bits) := by
  refine h.andThen hm fun h => ?_
  unfold State.dbgAccess
  exact .ite h.jtagBypass (.ite h.dbgaShow (.ite h.dbgaShow h.wr.wr.jtagSet))

def jtagTokenScope : Scope := challengeReadScope ||| jtagSetScope ||| jtagTokenDueScope

theorem Within.jtagToken {bs : List Byte} (h : s.Within M t) (hm : jtagTokenScope.le M = true := by decide +kernel) :
    s.Within M (t.jtagToken bs) := by
  refine h.andThen hm fun h => ?_
  unfold State.jtagToken
  extract_lets s1 s2
  have hs1 : t.Within jtagTokenScope s1 := h.challengeRead
  have hs2 : t.Within jtagTokenScope s2 := h.jtagSet.jtagTokenDue
  exact .ite hs1.jtagSet hs2.wr.wr

def jtagReqScope : Scope := jtagSetScope ||| requestD1Scope

theorem Within.jtagReq {bit : Bool} (h : s.Within M t) (hm : jtagReqScope.le M = true := by decide +kernel) : s.Within M (t.jtagReq bit)
    := by
  refine h.andThen hm fun h => ?_
  unfold State.jtagReq
  extract_lets s1
  have hs1 : t.Within jtagReqScope s1 := h.jtagSet
  exact .ite hs1.requestD1 hs1

def jtagHighzScope : Scope := jtagSetScope

theorem Within.jtagHighz (h : s.Within M t) (hm : jtagHighzScope.le M = true := by decide +kernel) : s.Within M (t.jtagHighz) := by
  refine h.andThen hm fun h => ?_
  unfold State.jtagHighz
  exact h.jtagSet

def jtagClampScope : Scope := jtagSetScope

theorem Within.jtagClamp (h : s.Within M t) (hm : jtagClampScope.le M = true := by decide +kernel) : s.Within M (t.jtagClamp) := by
  refine h.andThen hm fun h => ?_
  unfold State.jtagClamp
  exact h.jtagSet

def jtagLanesScope : Scope := scope [.free] [V.JTAG_BSR] ||| jtagSetScope

theorem Within.jtagLanes {op bits : Nat} (h : s.Within M t) (hm : jtagLanesScope.le M = true := by decide +kernel) :
    s.Within M (t.jtagLanes op bits) := by
  refine h.andThen hm fun h => ?_
  unfold State.jtagLanes
  extract_lets _ t1
  have ht1 : t.Within jtagLanesScope t1 := h.freshen.jtagSet
  exact .ite ht1.wr ht1

def jtagTrainScope : Scope := jtagLanesScope

theorem Within.jtagTrain {bits : Nat} (h : s.Within M t) (hm : jtagTrainScope.le M = true := by decide +kernel) :
    s.Within M (t.jtagTrain bits) := by
  refine h.andThen hm fun h => ?_
  unfold State.jtagTrain
  exact h.jtagLanes

def jtagPulseScope : Scope := jtagLanesScope

theorem Within.jtagPulse {bits : Nat} (h : s.Within M t) (hm : jtagPulseScope.le M = true := by decide +kernel) :
    s.Within M (t.jtagPulse bits) := by
  refine h.andThen hm fun h => ?_
  unfold State.jtagPulse
  exact h.jtagLanes

def jtagExtestScope : Scope := scope [.free] [V.JTAG_BSR] ||| jtagSetScope

theorem Within.jtagExtest {bits : Nat} (h : s.Within M t) (hm : jtagExtestScope.le M = true := by decide +kernel) :
    s.Within M (t.jtagExtest bits) := by
  refine h.andThen hm fun h => ?_
  unfold State.jtagExtest
  extract_lets t1
  have ht1 : t.Within jtagExtestScope t1 := h.freshen.jtagSet
  exact .ite ht1.wr ht1

def jtagSampleScope : Scope := scope [.free] [V.JTAG_BSR] ||| jtagSetScope

theorem Within.jtagSample {bits : Nat} (h : s.Within M t) (hm : jtagSampleScope.le M = true := by decide +kernel) :
    s.Within M (t.jtagSample bits) := by
  refine h.andThen hm fun h => ?_
  unfold State.jtagSample
  extract_lets t1
  have ht1 : t.Within jtagSampleScope t1 := h.freshen.jtagSet
  exact .ite ht1.wr ht1

def jtagIdcodeScope : Scope := jtagSetScope

theorem Within.jtagIdcode (h : s.Within M t) (hm : jtagIdcodeScope.le M = true := by decide +kernel) : s.Within M (t.jtagIdcode) := by
  refine h.andThen hm fun h => ?_
  unfold State.jtagIdcode
  exact h.jtagSet

def grantExpiryScope : Scope := grantEndScope

theorem Within.grantExpiry (h : s.Within M t) (hm : grantExpiryScope.le M = true := by decide +kernel) : s.Within M (t.grantExpiry) := by
  refine h.andThen hm fun h => ?_
  unfold State.grantExpiry
  exact .ite h.grantEnd h

def readGateScope : Scope := countModuleScope ||| injWithScope ||| hostAccessFailScope

theorem Within.readGate {f user q c : Nat} {done : State → State} (h : s.Within M t) (H : ∀ u, s.Within M u → s.Within M (done u))
    (hm : readGateScope.le M = true := by decide +kernel) : s.Within M (t.readGate f user q c done) := by
  have hc : s.Within M (t.countModule 0 17 0 1) := h.countModule (Scope.part hm)
  unfold State.readGate
  dsimp only
  split
  · exact hc.injWith (fun _ hu => hu.hostAccessFail (Scope.part hm)) (Scope.part hm)
  · exact H _ (hc.countModule (Scope.part hm))

def tokenFetchedScope : Scope := yofDemandScope ||| readGateScope ||| tokenSubmitScope

theorem Within.tokenFetched {bs : List Byte} (h : s.Within M t) (hm : tokenFetchedScope.le M = true := by decide +kernel) :
    s.Within M (t.tokenFetched bs) := by
  refine h.andThen hm fun h => ?_
  unfold State.tokenFetched
  extract_lets s1 s2
  have hs1 : t.Within tokenFetchedScope s1 := h.yofDemand
  have hs2 : t.Within tokenFetchedScope s2 := hs1.wr
  exact .ite hs1 (.ite (hs2.readGate (fun _ hu => hu.tokenSubmit)) hs2.hostFail.dbgDone)

def chalReadScope : Scope := registerReadScope

theorem Within.chalRead (h : s.Within M t) (hm : chalReadScope.le M = true := by decide +kernel) : s.Within M (t.chalRead) := by
  refine h.andThen hm fun h => ?_
  unfold State.chalRead
  exact h.registerRead

def secPlainScope : Scope := scope [] [F.SEC_STATUS_BUSY] ||| yofDemandScope

theorem Within.secPlain {run : State → State} (h : s.Within M t) (H : ∀ u, s.Within M u → s.Within M (run u))
    (hm : secPlainScope.le M = true := by decide +kernel) : s.Within M (t.secPlain run) := by
  have hy : s.Within M t.yofDemand := h.yofDemand (Scope.part hm)
  exact .ite hy (H _ (hy.wr (Scope.part hm)))

def keyEraseScope : Scope := scope [] [V.EXPORT_KEY, F.SEC_KEY_VALID, F.SEC_KEY_KEY_GEN]

theorem Within.keyErase {p : Nat} (h : s.Within M t) (hm : keyEraseScope.le M = true := by decide +kernel) : s.Within M (t.keyErase p)
    := by
  refine h.andThen hm fun h => ?_
  unfold State.keyErase
  exact h.wr.wr.wr

/-- The images that the reset of a partition's configuration wipes. -/
theorem Within.wipeConfig {keep : List (Nat × Nat × Nat)} {p : Nat} (h : s.Within M t) (hm : (scope [.img] []).le M = true) :
    s.Within M ((configKeys p).foldl (fun t k =>
      let b := t.shadowBank k.1 k.2.1 k.2.2
      let t := { t with img := t.img.wipe (1 - b) k.1 k.2.1 k.2.2 }
      if keep.contains k then t else { t with img := t.img.wipe b k.1 k.2.1 k.2.2 }) t) := by
  refine h.foldl fun u k hu => ?_
  have h1 : s.Within M { u with img := u.img.wipe (1 - u.shadowBank k.1 k.2.1 k.2.2) k.1 k.2.1 k.2.2 } := hu.img (Mem.wf_filter _ _) (Scope.part hm)
  exact .ite h1 (h1.img (Mem.wf_filter _ _) (Scope.part hm))

def dropConfigScope : Scope :=
  scope [.img] [F.XPT_EPOCH_STAMP, F.XPT_EPOCH_VALID_A, F.XPT_EPOCH_VALID_B, V.STEP_LOADED] ||| partStateScope ||| keyEraseScope

theorem Within.dropConfig {keep : List (Nat × Nat × Nat)} {p : Nat} (h : s.Within M t) (hm : dropConfigScope.le M = true := by decide +kernel) :
    s.Within M (t.dropConfig keep p) := by
  refine h.andThen hm fun h => ?_
  have hk := ((h.wipeConfig (keep := keep) (p := p) (by decide +kernel)).partState (p := p) (serial := 0) (group := 0) (part := 0)).keyErase (p := p)
  exact (Within.ite hk hk.wr).wr.wr.wr

def dropTenantsScope : Scope := dropConfigScope

theorem Within.dropTenants (h : s.Within M t) (hm : dropTenantsScope.le M = true := by decide +kernel) : s.Within M (t.dropTenants) := by
  refine h.andThen hm fun h => ?_
  unfold State.dropTenants
  exact h.foldl (fun _ _ hu => hu.dropConfig)

def closeTenantsScope : Scope := scope [.img] [] ||| partitionResetScope ||| dropTenantsScope

theorem Within.closeTenants (h : s.Within M t) (hm : closeTenantsScope.le M = true := by decide +kernel) : s.Within M t.closeTenants := by
  refine h.andThen hm fun h => ?_
  unfold State.closeTenants
  exact (h.foldl fun _ _ hu => hu.partitionReset).dropTenants.foldl fun _ _ hu => hu.img fun w => Mem.wf_writeN _ _ _ (Mem.wf_writeN _ _ _ w)

def zeroizeHbmScope : Scope := scope [.hbm, .badSectors] []

theorem Within.zeroizeHbm (h : s.Within M t) (hm : zeroizeHbmScope.le M = true := by decide +kernel) : s.Within M t.zeroizeHbm :=
  h.andThen hm fun h => (h.hbm (x := []) fun _ => rfl).badSectors

def ownerEnrolScope : Scope := scope [.flash] [] ||| floorRaiseHighScope ||| grantEndScope ||| closeTenantsScope ||| zeroizeHbmScope ||| secDoneScope

theorem Within.ownerEnrol {bs : List Byte} (h : s.Within M t) (hm : ownerEnrolScope.le M = true := by decide +kernel) :
    s.Within M (t.ownerEnrol bs) := by
  refine h.andThen hm fun h => ?_
  unfold State.ownerEnrol
  extract_lets _ _ _ _ closed stored
  have hclosed : t.Within _ closed := .ite h.grantEnd.closeTenants.zeroizeHbm h
  exact .ite h.secDone (.ite h.secDone (.ite h.secDone (.ite h.secDone (hclosed.flashPut.flashPut.floorRaise_high (by decide)))))

def secFetchedScope : Scope := secPlainScope ||| readGateScope ||| hostFailScope ||| secDoneScope

theorem Within.secFetched {run : State → State} (h : s.Within M t) (H : ∀ u, s.Within M u → s.Within M (run u))
    (hm : secFetchedScope.le M = true := by decide +kernel) : s.Within M (t.secFetched run) := by
  have hy : s.Within M t.yofDemand := h.yofDemand (Scope.part hm)
  have hb : s.Within M (t.yofDemand.wr F.SEC_STATUS_BUSY [] 1) := hy.wr (Scope.part hm)
  exact .ite hy (.ite (hb.readGate H (Scope.part hm)) ((hb.hostFail (Scope.part hm)).secDone (Scope.part hm)))

def lcEffectScope : Scope := scope [.flash] [F.SEC_LC_ZEROIZED, V.RET_CH, V.RET_STACK] ||| zeroizeHbmScope ||| closeTenantsScope

theorem Within.lcEffect {from0 goal : Nat} (h : s.Within M t) (hm : lcEffectScope.le M = true := by decide +kernel) :
    s.Within M (t.lcEffect from0 goal) := by
  refine h.andThen hm fun h => ?_
  unfold State.lcEffect
  extract_lets closed erased
  have hclosed : t.Within lcEffectScope closed := h.closeTenants.zeroizeHbm
  have herased : t.Within lcEffectScope erased := hclosed.foldl fun _ _ hu => hu.keyErase
  split
  · exact h.flashPut
  · exact .ite herased.flashPut.wr (.ite (h.eraseRegs [V.RET_CH, V.RET_STACK] fun _ _ hn => by
      simp only [List.forall_mem_cons] at hn
      simp [hn]) h)

def lifecycleObjectScope : Scope :=
  scope [.flash] [F.SEC_LC_STATE, V.LC_SLOT] ||| highRaiseScope ||| grantEndScope ||| lcEffectScope ||| secDoneScope

theorem Within.lifecycleObject {bs : List Byte} (h : s.Within M t) (hm : lifecycleObjectScope.le M = true := by decide +kernel) :
    s.Within M (t.lifecycleObject bs) := by
  refine h.andThen hm fun h => ?_
  unfold State.lifecycleObject
  extract_lets _ _ _ ended stored
  have hstored : t.Within _ stored := h.grantEnd.flashPut.wr
  refine .ite h.secDone (.ite h.secDone (.ite h.secDone (.ite h.secDone ?_)))
  split
  · next u e => exact (hstored.ctrRaise_high (by decide) (e := e)).wr.lcEffect.secDone
  · exact hstored.secDone

def downHoldEndScope : Scope := scope [] [F.LNK_PORT_STAT_LANES] ||| setLnkScope

theorem Within.downHoldEnd {q k : Nat} (h : s.Within M t) (hm : downHoldEndScope.le M = true := by decide +kernel) :
    s.Within M (t.downHoldEnd q k) := by
  refine h.andThen hm fun h => ?_
  unfold State.downHoldEnd
  exact .ite h.setLnk.wr h

def portsDetectScope : Scope := downHoldEndScope

theorem Within.portsDetect {q : Nat} (h : s.Within M t) (hm : portsDetectScope.le M = true := by decide +kernel) :
    s.Within M (t.portsDetect q) := by
  refine h.andThen hm fun h => ?_
  unfold State.portsDetect
  exact h.foldl (fun _ _ hu => hu.downHoldEnd)

def mitJoinScope : Scope := scope [] [V.MIT_FIRST, F.MIT_CTX_JOINING, F.MIT_CTX_ROLE]

theorem Within.mitJoin (h : s.Within M t) (hm : mitJoinScope.le M = true := by decide +kernel) : s.Within M (t.mitJoin) := by
  refine h.andThen hm fun h => ?_
  unfold State.mitJoin
  exact h.foldl (fun _ _ hu => hu.wr.wr.wr)

def openModuleScope : Scope := scope [] [V.BOOTING, F.HAT_PSTATE_STATE, F.HAT_BOOT_STEP, F.HAT_BOOT_ELAPSED_MS, V.REPAIR] ||| mitJoinScope
  ||| cartTrainScope ||| portsDetectScope

theorem Within.openModule (h : s.Within M t) (hm : openModuleScope.le M = true := by decide +kernel) : s.Within M (t.openModule) := by
  refine h.andThen hm fun h => ?_
  unfold State.openModule
  extract_lets _ s1 s2 s3 s4
  have hs1 : t.Within openModuleScope s1 := h.wr.wr.wr
  have hs2 : t.Within openModuleScope s2 := hs1.wr
  have hs3 : t.Within openModuleScope s3 := .ite hs2.mitJoin.wr hs2
  have hs4 : t.Within openModuleScope s4 := hs3.foldl (fun _ _ hu2 => .ite hu2.cartTrain hu2)
  exact hs4.foldl (fun _ _ hu => hu.portsDetect)

def loadtestPhaseScope : Scope := scope [.free] [F.HAT_LOADTEST_FAILED, F.HAT_LOADTEST_ACTIVE, F.HAT_LOADTEST_PHASE] ||| errScope
  ||| openModuleScope

theorem Within.loadtestPhase {crcOk : Bool} (h : s.Within M t) (hm : loadtestPhaseScope.le M = true := by decide +kernel) :
    s.Within M (t.loadtestPhase crcOk) := by
  refine h.andThen hm fun h => ?_
  unfold State.loadtestPhase
  extract_lets _ s1
  have hs1 : t.Within loadtestPhaseScope s1 := h.wr.wr
  exact .ite h (.ite hs1.err.freshen (.ite h.bump h.wr.openModule))

def switchImgScope : Scope := scope [.img] []

theorem Within.switchImg {k : Nat × Nat × Nat} (h : s.Within M t) (hm : switchImgScope.le M = true := by decide +kernel) :
    s.Within M (t.switchImg k) := .ite h (h.img id (Scope.part hm))

def candidateScope : Scope := scope [] [F.XPT_EPOCH_VALID_A, F.XPT_EPOCH_VALID_B, F.XPT_EPOCH_STAMP] ||| switchImgScope

theorem Within.candidate {fs : List Frame} (h : s.Within M t) (hm : candidateScope.le M = true := by decide +kernel) :
    s.Within M (t.candidate fs) := by
  refine h.andThen hm fun h => ?_
  unfold State.candidate
  extract_lets ks flipped
  have hflipped : t.Within candidateScope flipped := h.foldl (fun _ _ hu => hu.switchImg)
  split
  · exact hflipped.wr.wrMem [F.XPT_EPOCH_VALID_A, F.XPT_EPOCH_VALID_B] (by split <;> simp)
  · exact hflipped

def borderStartScope : Scope :=
  scope [] [V.BORDER_WHEEL, V.BORDER_PORT, V.BORDER_LOWERED, V.BORDER_QUOTA, V.EXT_MOVING, V.BORDER_DRAIN, V.KNT_WAIT]

theorem Within.borderStart {new : State} {base : Bool} {qs : List Nat} (h : s.Within M t) (hm : borderStartScope.le M = true := by decide +kernel) :
    s.Within M (t.borderStart new base qs) := by
  refine h.andThen hm fun h => ?_
  unfold State.borderStart
  extract_lets wheels ports lowered moving
  have hwheels : t.Within _ wheels := h.foldl fun _ _ hu => hu.wr
  have hports : t.Within _ ports := hwheels.foldl fun _ _ hu => hu.wr
  have hlowered : t.Within _ lowered := hports.foldl fun _ _ hu => .ite hu.wr.wr hu
  have hmoving : t.Within _ moving := hlowered.foldl fun _ _ hu => hu.wr
  exact hmoving.wr.wr

def knitPointScope : Scope := scope [] [F.KNT_STATUS_STATE, V.KNIT_QUIET, V.QUIESCE] ||| borderStartScope ||| candidateScope
  ||| withdrawScope

theorem Within.knitPoint {fs : List Frame} (h : s.Within M t) (hm : knitPointScope.le M = true := by decide +kernel) :
    s.Within M (t.knitPoint fs) := by
  refine h.andThen hm fun h => ?_
  unfold State.knitPoint
  extract_lets _ _ s1
  have hs1 : t.Within knitPointScope s1 := h.wr
  split
  · exact hs1.wr
  · exact (Within.ite hs1 hs1.wr).wr
  · exact hs1.wr
  · exact hs1.borderStart
  · exact (hs1.foldl (fun _ _ hu => hu.wr.withdraw)).wr

def knitStagedScope : Scope := knitFailScope

theorem Within.knitStaged (h : s.Within M t) (hm : knitStagedScope.le M = true := by decide +kernel) : s.Within M (t.knitStaged) := by
  refine h.andThen hm fun h => ?_
  unfold State.knitStaged
  extract_lets s1
  have hs1 : t.Within knitStagedScope s1 := h.wr
  split
  · exact hs1.wr
  · split
    · next u _ e =>
        have hu : t.Within knitStagedScope u := hs1.voteCast.of_fst e
        exact .ite hu.wr hu.knitFail

def dropAllScope : Scope := dropConfigScope

theorem Within.dropAll {keep : List (Nat × Nat × Nat)} (h : s.Within M t) (hm : dropAllScope.le M = true := by decide +kernel) :
    s.Within M (t.dropAll keep) := by
  refine h.andThen hm fun h => ?_
  unfold State.dropAll
  exact h.foldl (fun _ _ hu => hu.dropConfig)

def frameWriteScope : Scope := scope [.img] []

theorem Within.frameWrite {f : Frame} (h : s.Within M t) (hm : frameWriteScope.le M = true := by decide +kernel) : s.Within M (t.frameWrite f) :=
  h.foldl fun _ _ hu => hu.img (Mem.wf_writeN _ _ _) (Scope.part hm)

def resyncImgScope : Scope := scope [.img] []

theorem copyBank_wf {v : Images} (src dst region quad part : Nat) (w : v.mem.wf = true) : (v.copyBank src dst region quad part).mem.wf = true := by
  unfold Images.copyBank
  refine List.foldlRecOn (motive := fun x : Images => x.mem.wf = true) _ _ (Mem.wf_filter _ _ w) fun _ hx c _ => Mem.wf_writeN _ _ _ hx

theorem Within.resyncImg {k : Nat × Nat × Nat} (h : s.Within M t) (hm : resyncImgScope.le M = true := by decide +kernel) :
    s.Within M (t.resyncImg k) := h.img (copyBank_wf _ _ _ _ _) (Scope.part hm)

def shadowReadyScope : Scope := resyncImgScope

theorem Within.shadowReady {fs : List Frame} {base : Bool} (h : s.Within M t) (hm : shadowReadyScope.le M = true := by decide +kernel) :
    s.Within M (t.shadowReady fs base) :=
  h.foldl fun _ _ hu => .ite (hu.img (Mem.wf_filter _ _) (Scope.part hm)) (hu.resyncImg hm)

def knitStageScope : Scope := shadowReadyScope ||| frameWriteScope ||| dropAllScope ||| knitStagedScope ||| knitPointScope

theorem Within.knitStage {g : Nat} (h : s.Within M t) (hm : knitStageScope.le M = true := by decide +kernel) : s.Within M (t.knitStage g)
    := by
  refine h.andThen hm fun h => ?_
  unfold State.knitStage
  extract_lets s1 _ s2
  have hs1 : t.Within knitStageScope s1 := h.wr
  have hs2 : t.Within knitStageScope s2 := hs1.wr
  split
  · exact hs1.knitFail
  · extract_lets _ s3 s4
    have hs3 : t.Within knitStageScope s3 := hs1.shadowReady
    have hs4 : t.Within knitStageScope s4 := hs3.foldl (fun _ _ hu => hu.frameWrite)
    exact .ite (.ite (.ite hs2.wr hs2) hs2) (.ite hs4.knitFail (.ite hs4.knitStaged hs4.knitPoint))

def resyncDoneScope : Scope := scope [] [V.KNT_COPY_FN, V.KNT_COPY, F.KNT_STATUS_RESYNC] ||| resyncImgScope

theorem Within.resyncDone (h : s.Within M t) (hm : resyncDoneScope.le M = true := by decide +kernel) : s.Within M (t.resyncDone) := by
  refine h.andThen hm fun h => ?_
  unfold State.resyncDone
  extract_lets _ s1
  have hs1 : t.Within resyncDoneScope s1 := h.foldl (fun _ _ hu => hu.resyncImg)
  exact (hs1.eraseRegs ([V.KNT_COPY, F.KNT_STATUS_RESYNC]) (fun _ _ hn => by simp only [List.forall_mem_cons] at hn; simp [hn])).wr

def resyncEndScope : Scope := resyncDoneScope ||| knitStageScope

theorem Within.resyncEnd (h : s.Within M t) (hm : resyncEndScope.le M = true := by decide +kernel) : s.Within M (t.resyncEnd) := by
  refine h.andThen hm fun h => ?_
  unfold State.resyncEnd
  extract_lets s1
  have hs1 : t.Within resyncEndScope s1 := h.resyncDone
  exact .ite (.ite hs1.knitStage hs1) h

def epochRetireScope : Scope := knitStageScope

theorem Within.epochRetire {p : Nat} (h : s.Within M t) (hm : epochRetireScope.le M = true := by decide +kernel) :
    s.Within M (t.epochRetire p) := by
  refine h.andThen hm fun h => ?_
  unfold State.epochRetire
  extract_lets b freed
  have hfreed : t.Within epochRetireScope freed := (h.wrMem [F.XPT_EPOCH_VALID_A, F.XPT_EPOCH_VALID_B] (by unfold validFld; split <;> simp)).wr
  exact .ite (.ite hfreed.knitStage hfreed) h

def knitDoneScope : Scope := scope [] [V.MANIFEST, V.BASE_APPLIED, F.SEC_LC_ZEROIZED] ||| partStateScope ||| knitIdleScope
  ||| knitStateScope

theorem Within.knitDone (h : s.Within M t) (hm : knitDoneScope.le M = true := by decide +kernel) : s.Within M (t.knitDone) := by
  refine h.andThen hm fun h => ?_
  unfold State.knitDone
  extract_lets _ s1 s2 s3 s4 _ s5
  have hs1 : t.Within knitDoneScope s1 := .ite h.wr h
  have hs2 : t.Within knitDoneScope s2 := hs1.partState
  have hs3 : t.Within knitDoneScope s3 := .ite hs2.wr hs2
  have hs4 : t.Within knitDoneScope s4 := .ite hs3.wr hs3
  have hs5 : t.Within knitDoneScope s5 := .ite (hs4.foldl (fun _ _ hu => hu.partState)) hs4
  exact hs5.knitState.knitIdle

def knitNextScope : Scope := knitDoneScope ||| knitStageScope

theorem Within.knitNext (h : s.Within M t) (hm : knitNextScope.le M = true := by decide +kernel) : s.Within M (t.knitNext) := by
  refine h.andThen hm fun h => ?_
  unfold State.knitNext
  extract_lets
  exact .ite h.knitDone h.knitStage

def restampPortScope : Scope := scope [.staging] [] ||| countDiscardScope

theorem Within.restampPort {p b q i : Nat} (h : s.Within M t) (hm : restampPortScope.le M = true := by decide +kernel) :
    s.Within M (t.restampPort p b q i) := by
  refine h.andThen hm fun h => ?_
  unfold State.restampPort
  extract_lets l mine again lost keep
  split
  · exact h
  · have hlost : ∀ u x, t.Within restampPortScope u → t.Within restampPortScope (lost u x) := fun u x hu => by
      dsimp only [lost]
      split
      · exact hu.foldl fun _ _ hv => hv.countDiscard
      · exact hu.countDiscard
    exact h.staging.foldl hlost

def restampAllScope : Scope := scope [.mitEgress] [] ||| restampPortScope

theorem Within.restampAll {p b : Nat} (h : s.Within M t) (hm : restampAllScope.le M = true := by decide +kernel) :
    s.Within M (t.restampAll p b) := by
  refine h.andThen hm fun h => ?_
  unfold State.restampAll
  extract_lets s1
  have hs1 : t.Within restampAllScope s1 := h.foldl (fun _ _ hu => hu.restampPort)
  exact hs1.mitEgress

def flipNowScope : Scope := scope [] [F.XPT_EPOCH_FLIPS, F.XPT_EPOCH_VALID_A, F.XPT_EPOCH_VALID_B, F.XPT_EPOCH_STAMP, V.FLIP_NS,
  F.XPT_EPOCH_STATE, V.WAIT_FLIP] ||| slowestScope ||| restampAllScope ||| noticeScope

theorem Within.flipNow {p : Nat} (h : s.Within M t) (hm : flipNowScope.le M = true := by decide +kernel) : s.Within M (t.flipNow p) := by
  refine h.andThen hm fun h => ?_
  unfold State.flipNow
  extract_lets b s1 s2 s3
  have hs1 : t.Within flipNowScope s1 := (h.wr.wrMem [F.XPT_EPOCH_VALID_A, F.XPT_EPOCH_VALID_B] (by unfold validFld; split <;> simp)).bump
  have hs2 : t.Within flipNowScope s2 := hs1.wr.wr
  have hs3 : t.Within flipNowScope s3 := hs2.restampAll.slowest
  exact hs3.wr.notice

def borderFlipScope : Scope := flipNowScope ||| resyncImgScope

theorem Within.borderFlip {p : Nat} (h : s.Within M t) (hm : borderFlipScope.le M = true := by decide +kernel) :
    s.Within M (t.borderFlip p) := by
  refine h.andThen hm fun h => ?_
  unfold State.borderFlip
  exact .ite h (.ite h.wr.wr ((h.foldl (fun _ _ hu => hu.resyncImg)).flipNow))

def loadSelectsScope : Scope := scope [] [V.SEL_NEXT]

theorem Within.loadSelects (h : s.Within M t) (hm : loadSelectsScope.le M = true := by decide +kernel) : s.Within M (t.loadSelects) := by
  refine h.andThen hm fun h => ?_
  unfold State.loadSelects
  extract_lets _ s1
  have hs1 : t.Within loadSelectsScope s1 := h.foldl (fun _ _ hu3 => hu3.foldl (fun _ _ hu4 => hu4.foldl (fun _ _ hu5 => hu5.wr)))
  exact hs1.foldl (fun _ _ hu => hu.foldl (fun _ _ hu2 => hu2.wr))

def keyTakeScope : Scope := keyEraseScope

theorem Within.keyTake {p : Nat} {e' : List Byte} (h : s.Within M t) (hm : keyTakeScope.le M = true := by decide +kernel) :
    s.Within M (t.keyTake p e') := by
  refine h.andThen hm fun h => ?_
  unfold State.keyTake
  split
  · exact h.keyErase
  · split
    · exact h.wr.wr.wr
    · exact h

def loadOptScope : Scope := scope [] [F.LDG_PART_CTL_SR_EN, V.RWK_OLD, F.LDG_PART_CTL_INV_POLICY, F.LDG_PART_CTL_OVF_POLICY,
  F.UPD_PART_T_T, V.CLIP_KNOWN]

theorem Within.loadOpt {fs : List Frame} {p : Nat} (h : s.Within M t) (hm : loadOptScope.le M = true := by decide +kernel) :
    s.Within M (t.loadOpt fs p) := by
  refine h.andThen hm fun h => ?_
  unfold State.loadOpt
  extract_lets _ s1 s2
  have hs1 : t.Within loadOptScope s1 := h.wrK.wrK.wrK
  have hs2 : t.Within loadOptScope s2 := .ite hs1.wr hs1
  exact .ite hs2.wr hs2

def loadCollScope : Scope := scope [] [F.SEQ_STEP_ARMED, V.STEP_LOADED] ||| mitRoleSetScope

theorem Within.loadColl {fs : List Frame} {p : Nat} (h : s.Within M t) (hm : loadCollScope.le M = true := by decide +kernel) :
    s.Within M (t.loadColl fs p) := by
  refine h.andThen hm fun h => ?_
  unfold State.loadColl
  extract_lets _ s1
  have hs1 : t.Within loadCollScope s1 := .ite h h.wr.wr
  refine hs1.foldl fun _ _ hu => by
    extract_lets
    exact .ite (.ite hu.mitRoleSet (.ite hu.mitRoleSet hu)) hu

def allRingsScope : Scope := ringChecksScope

theorem Within.allRings (h : s.Within M t) (hm : allRingsScope.le M = true := by decide +kernel) : s.Within M (t.allRings) := by
  refine h.andThen hm fun h => ?_
  unfold State.allRings
  exact h.foldl (fun _ _ hu => hu.ringChecks)

def loadModuleScope : Scope := scope [] [F.XPT_POD_PLANE, V.RWK_OLD, F.XPT_POD_Y, F.XPT_POD_X, F.XPT_CTL_AGE_LIMIT, F.HBM_EXTENT_LOST,
  F.HBM_EXTENT_REMAPPING, F.HBM_EXTENT_REMAPPED, V.SLOT_LENT, F.TRY_ALERT_ALERT_LEVEL, F.TRY_ALERT_ALERT_THR, F.TRY_ALERT_ALERT_W]
  ||| allRingsScope

theorem Within.loadModule {fs : List Frame} (h : s.Within M t) (hm : loadModuleScope.le M = true := by decide +kernel) :
    s.Within M (t.loadModule fs) := by
  refine h.andThen hm fun h => ?_
  unfold State.loadModule
  extract_lets _ s1 s2 _ s3
  have hs1 : t.Within loadModuleScope s1 := .ite h.wrK.wrK.wrK.wrK h
  have hs2 : t.Within loadModuleScope s2 := by
    unfold s2
    split
    · exact (hs1.eraseRegs ([F.HBM_EXTENT_LOST, F.HBM_EXTENT_REMAPPING, F.HBM_EXTENT_REMAPPED]) (fun _ _ hn => by simp only [List.forall_mem_cons] at hn; simp [hn])).allRings
    · exact hs1
  have hs3 : t.Within loadModuleScope s3 := hs2.eraseRegs [V.SLOT_LENT] (fun _ _ hn => by simp only [List.forall_mem_cons] at hn; simp [hn])
  exact .ite hs3.wrK.wrK.wrK hs3

def commitLoadsScope : Scope := loadModuleScope ||| loadCollScope ||| loadOptScope ||| keyTakeScope ||| loadSelectsScope

theorem Within.commitLoads {fs : List Frame} (h : s.Within M t) (hm : commitLoadsScope.le M = true := by decide +kernel) :
    s.Within M (t.commitLoads fs) := by
  refine h.andThen hm fun h => ?_
  unfold State.commitLoads
  extract_lets _ s1 s2 s3 s4
  have hs1 : t.Within commitLoadsScope s1 := h.loadModule
  have hs2 : t.Within commitLoadsScope s2 := hs1.foldl (fun _ _ hu3 => hu3.loadColl)
  have hs3 : t.Within commitLoadsScope s3 := hs2.foldl (fun _ _ hu2 => hu2.loadOpt)
  have hs4 : t.Within commitLoadsScope s4 := hs3.foldl (fun _ _ hu => hu.keyTake)
  exact .ite hs4.loadSelects hs4

def dirRebuildScope : Scope := slotPutScope

theorem Within.dirRebuild {q p : Nat} (h : s.Within M t) (hm : dirRebuildScope.le M = true := by decide +kernel) :
    s.Within M (t.dirRebuild q p) := by
  refine h.andThen hm fun h => ?_
  unfold State.dirRebuild
  refine h.slots.foldl fun _ _ hu => by
    extract_lets
    exact hu.slotPut

def quotaDirsScope : Scope := dirRebuildScope

theorem Within.quotaDirs {old : Images} (h : s.Within M t) (hm : quotaDirsScope.le M = true := by decide +kernel) :
    s.Within M (t.quotaDirs old) := by
  refine h.andThen hm fun h => ?_
  unfold State.quotaDirs
  exact h.foldl (fun _ _ hu => hu.foldl (fun _ _ hu2 => .ite hu2 hu2.dirRebuild))

def zeroDevScope : Scope := scope [.hbm, .badSectors] []

theorem Within.zeroDev {stack base n : Nat} (h : s.Within M t) (hm : zeroDevScope.le M = true := by decide +kernel) :
    s.Within M (t.zeroDev stack base n) :=
  h.andThen hm fun h => (h.hbm (Mem.wf_filter _ _)).badSectors

def zeroExtentScope : Scope := zeroDevScope

theorem Within.zeroExtent {x : Extent} (h : s.Within M t) (hm : zeroExtentScope.le M = true := by decide +kernel) :
    s.Within M (t.zeroExtent x) := by
  refine h.andThen hm fun h => ?_
  unfold State.zeroExtent
  exact h.foldl (fun _ _ hu => hu.zeroDev)

def spareRemapEndScope : Scope := scope [] [F.HBM_EXTENT_LOST, F.HBM_EXTENT_REMAPPED, F.HBM_EXTENT_REMAPPING] ||| zeroExtentScope

theorem Within.spareRemapEnd {q e' : Nat} (h : s.Within M t) (hm : spareRemapEndScope.le M = true := by decide +kernel) :
    s.Within M (t.spareRemapEnd q e') := by
  refine h.andThen hm fun h => ?_
  unfold State.spareRemapEnd
  extract_lets s1
  have hs1 : t.Within spareRemapEndScope s1 := h.zeroExtent
  exact .ite h hs1.wr.wr.wr

def remapsEndScope : Scope := spareRemapEndScope

theorem Within.remapsEnd (h : s.Within M t) (hm : remapsEndScope.le M = true := by decide +kernel) : s.Within M (t.remapsEnd) := by
  refine h.andThen hm fun h => ?_
  unfold State.remapsEnd
  exact h.foldl (fun _ _ hu => hu.spareRemapEnd)

def groupApplyScope : Scope := scope [] [V.EXT_DEAD, V.BASE_SERIAL, V.KNT_COPY, V.KNT_COPY_FN, F.KNT_STATUS_RESYNC, V.KNT_WAIT,
  F.KNT_STATUS_LAST_GROUP] ||| knitReleaseScope ||| remapsEndScope ||| dropAllScope ||| quotaDirsScope ||| commitLoadsScope
  ||| switchImgScope

theorem Within.groupApply {fs : List Frame} (h : s.Within M t) (hm : groupApplyScope.le M = true := by decide +kernel) :
    s.Within M (t.groupApply fs) := by
  refine h.andThen hm fun h => ?_
  unfold State.groupApply
  extract_lets _ _ _ s1 s2 s3 _ s4 _ s5 s6
  have hs1 : t.Within groupApplyScope s1 := h.knitRelease
  have hs2 : t.Within groupApplyScope s2 := .ite hs1.remapsEnd hs1
  have hs3 : t.Within groupApplyScope s3 := .ite (hs2.dropAll.wr.eraseRegs [V.EXT_DEAD] (fun _ _ hn => by simp only [List.forall_mem_cons] at hn; simp [hn])) hs2
  have hs4 : t.Within groupApplyScope s4 := ((hs3.foldl (fun _ _ hu2 => hu2.switchImg)).commitLoads).quotaDirs
  have hs5 : t.Within groupApplyScope s5 := hs4.foldl (fun _ _ hu => hu.wr)
  have hs6 : t.Within groupApplyScope s6 := .ite hs5 hs5.wr.wr
  exact hs6.wr.wr

def ownedOutScope : Scope := countDiscardScope

theorem Within.ownedOut {ports : List Nat} {q : Nat} {l : List Reas} (h : s.Within M t)
    (hm : ownedOutScope.le M = true := by decide +kernel) : s.Within M ((t.ownedOut ports q l).1) := by
  refine h.andThen hm fun h => ?_
  unfold State.ownedOut
  refine Within.foldl_fst h fun u r hu => ?_
  split
  · dsimp only
    exact hu.countDiscard
  · exact hu

def ownedHeldScope : Scope := countDiscardScope

theorem Within.ownedHeld {ports : List Nat} {q : Nat} {l : List Held} (h : s.Within M t)
    (hm : ownedHeldScope.le M = true := by decide +kernel) : s.Within M ((t.ownedHeld ports q l).1) := by
  refine h.andThen hm fun h => ?_
  unfold State.ownedHeld
  refine Within.foldl_fst h fun _ _ hu => by
    split <;> exact hu.foldl (fun _ _ hu2 => hu2.countDiscard)

def expelScope : Scope := scope [.staging, .bufs, .reasm, .mitEgress] [] ||| ownedHeldScope ||| ownedOutScope

theorem Within.expel {ports : List Nat} (h : s.Within M t) (hm : expelScope.le M = true := by decide +kernel) : s.Within M (t.expel ports)
    := by
  refine h.andThen hm fun h => ?_
  unfold State.expel
  extract_lets s1 s2 s3
  have hs1 : t.Within expelScope s1 := by
    unfold s1
    refine h.foldl fun _ _ hu7 => by
      split
      · next u _ e =>
          have hu8 : t.Within expelScope u := hu7.ownedHeld.of_fst e
          exact hu8.staging
  have hs2 : t.Within expelScope s2 := by
    unfold s2
    refine hs1.foldl fun _ _ hu5 => by
      split
      · next u _ e =>
          have hu6 : t.Within expelScope u := hu5.ownedHeld.of_fst e
          exact hu6.bufs
  have hs3 : t.Within expelScope s3 := by
    unfold s3
    refine hs2.foldl fun _ _ hu3 => by
      split
      · next u _ e =>
          have hu4 : t.Within expelScope u := hu3.ownedOut.of_fst e
          exact hu4.reasm
  refine hs3.foldl fun _ _ hu => by
    split
    · next u _ e =>
        have hu2 : t.Within expelScope u := hu.ownedOut.of_fst e
        exact hu2.mitEgress

def borderApplyScope : Scope := candidateScope ||| expelScope ||| mitEmptyScope ||| groupApplyScope ||| downHoldEndScope ||| linkDownScope
  ||| borderFlipScope

theorem Within.borderApply (h : s.Within M t) (hm : borderApplyScope.le M = true := by decide +kernel) : s.Within M (t.borderApply) := by
  refine h.andThen hm fun h => ?_
  unfold State.borderApply
  extract_lets _ _ _ _ _ s2 s3
  have hs2 : t.Within borderApplyScope s2 := h.groupApply.mitEmpty.expel
  have hs3 : t.Within borderApplyScope s3 := by
    unfold s3
    refine hs2.foldl fun _ _ hu2 => by
      extract_lets
      exact .ite hu2.downHoldEnd hu2.linkDown
  exact hs3.foldl (fun _ _ hu => hu.borderFlip)

def voteDoneScope : Scope := knitPointScope ||| knitFailScope

theorem Within.voteDone {yes : Bool} (h : s.Within M t) (hm : voteDoneScope.le M = true := by decide +kernel) : s.Within M (t.voteDone yes)
    := by
  refine h.andThen hm fun h => ?_
  unfold State.voteDone
  exact .ite h.knitPoint h.knitFail

def bootVoteScope : Scope := voteDoneScope

theorem Within.bootVote (h : s.Within M t) (hm : bootVoteScope.le M = true := by decide +kernel) : s.Within M (t.bootVote) := by
  refine h.andThen hm fun h => ?_
  unfold State.bootVote
  split
  · exact h.voteDone
  · exact h.voteCast.knitFail
  · exact h

def bootGroupsScope : Scope := bootVoteScope ||| groupApplyScope ||| flipNowScope ||| borderApplyScope ||| resyncEndScope ||| epochRetireScope ||| knitNextScope

theorem Within.bootGroups {n : Nat} (h : s.Within M t) (hm : bootGroupsScope.le M = true := by decide +kernel) : s.Within M (t.bootGroups n) := by
  induction n generalizing t with
  | zero => exact h
  | succ n ih =>
    unfold State.bootGroups
    extract_lets voted fs p moved next
    have hvoted : s.Within M voted := h.bootVote (Scope.part hm)
    have hmoved : s.Within M moved := by
      unfold moved
      refine .ite hvoted ?_
      split
      · exact hvoted
      · exact hvoted
      · exact (hvoted.groupApply (Scope.part hm)).flipNow (Scope.part hm)
      · exact hvoted.borderApply (Scope.part hm)
      · exact hvoted.groupApply (Scope.part hm)
    exact .ite (ih (((hmoved.resyncEnd (Scope.part hm)).epochRetire (Scope.part hm)).knitNext (Scope.part hm))) hmoved

def stagePagesScope : Scope := scope [] [V.KNT_PAGE] ||| devWriteScope ||| countBeatScope

theorem Within.stagePages {l : List (List Byte)} {i : Nat} (h : s.Within M t) (hm : stagePagesScope.le M = true := by decide +kernel) :
    s.Within M (t.stagePages i l) := by
  induction l generalizing t i with
  | nil => exact h
  | cons pg r ih =>
    unfold State.stagePages
    refine ih ?_
    split
    · exact ((h.devWrite (Scope.part hm)).countBeat (Scope.part hm)).wr (Scope.part hm)
    · exact h

def stageKnitScope : Scope := scope [] [V.KNT_AREA, V.KNT_HDR, V.KNT_PAGE] ||| stagePagesScope

theorem Within.stageKnit {bs : List Byte} (h : s.Within M t) (hm : stageKnitScope.le M = true := by decide +kernel) :
    s.Within M (t.stageKnit bs) := by
  refine h.andThen hm fun h => ?_
  unfold State.stageKnit
  extract_lets s1 s2
  have hs1 : t.Within stageKnitScope s1 := h.wr
  have hs2 : t.Within stageKnitScope s2 := (hs1.eraseRegs [V.KNT_PAGE] (fun _ _ hn => by simp only [List.forall_mem_cons] at hn; simp [hn])).wr
  exact hs2.stagePages

def knitBootScope : Scope := stageKnitScope ||| bootGroupsScope ||| knitStageScope

theorem Within.knitBoot {bs : List Byte} (h : s.Within M t) (hm : knitBootScope.le M = true := by decide +kernel) :
    s.Within M ((t.knitBoot bs).1) := by
  refine h.andThen hm fun h => ?_
  unfold State.knitBoot
  extract_lets s1 s2 s3 s4
  have hs1 : t.Within knitBootScope s1 := h.wr.wr.wr
  have hs2 : t.Within knitBootScope s2 := hs1.stageKnit
  have hs3 : t.Within knitBootScope s3 := .ite hs2.wr hs2
  have hs4 : t.Within knitBootScope s4 := by
    unfold s4
    split
    · exact hs3.knitFail
    · exact hs3.knitStage.bootGroups
  exact hs4

def bootPartsScope : Scope := knitBootScope ||| dropConfigScope

theorem Within.bootParts {n o : Nat} (h : s.Within M t) (hm : bootPartsScope.le M = true := by decide +kernel) : s.Within M (t.bootParts n o) := by
  induction n generalizing t o with
  | zero => exact h
  | succ n ih =>
    unfold State.bootParts
    split
    · exact ih (.ite ((h.knitBoot (Scope.part hm)).dropConfig (Scope.part hm)) (h.knitBoot (Scope.part hm)))
    · exact h

def zeroTenantsScope : Scope := zeroExtentScope

theorem Within.zeroTenants (h : s.Within M t) (hm : zeroTenantsScope.le M = true := by decide +kernel) : s.Within M (t.zeroTenants) := by
  refine h.andThen hm fun h => ?_
  unfold State.zeroTenants
  refine h.foldl fun _ _ hu => by
    extract_lets
    exact .ite hu.zeroExtent hu

def bootTenantsScope : Scope := zeroTenantsScope ||| bootPartsScope

theorem Within.bootTenants (h : s.Within M t) (hm : bootTenantsScope.le M = true := by decide +kernel) : s.Within M (t.bootTenants) := by
  refine h.andThen hm fun h => ?_
  unfold State.bootTenants
  extract_lets s1
  have hs1 : t.Within bootTenantsScope s1 := h.zeroTenants
  split
  · exact hs1.bootParts
  · exact hs1

def bootBaseScope : Scope := scope [] [V.BASE_SERIAL] ||| knitBootScope

theorem Within.bootBase (h : s.Within M t) (hm : bootBaseScope.le M = true := by decide +kernel) : s.Within M ((t.bootBase).1) := by
  refine h.andThen hm fun h => ?_
  unfold State.bootBase
  split
  · split
    · next u _ e =>
        have hu : t.Within bootBaseScope u := h.knitBoot.of_fst e
        split
        · exact hu
        · exact hu.wr
  · exact h

def hbmUpScope : Scope := hbmRetireScope

theorem Within.hbmUp {failed : List Nat} (h : s.Within M t) (hm : hbmUpScope.le M = true := by decide +kernel) :
    s.Within M (t.hbmUp failed) := by
  refine h.andThen hm fun h => ?_
  unfold State.hbmUp
  refine h.foldl fun _ _ hu => by
    extract_lets _ _ _ t1
    have ht1 : t.Within hbmUpScope t1 := hu.wr.wr.wr
    exact .ite hu.wr.wr (.ite ht1.hbmRetire ht1)

def bootVerifyScope : Scope := highRaiseScope

theorem Within.bootVerify (h : s.Within M t) (hm : bootVerifyScope.le M = true := by decide +kernel) (e : t.bootVerify = some u) : s.Within M u := by
  unfold State.bootVerify at e
  dsimp only at e
  split at e
  · cases e
  · rw [Option.bind_eq_some_iff] at e
    obtain ⟨v, hv, e⟩ := e
    split at e
    · cases e
    · cases e
      split at hv
      · exact h.ctrRaise_high (by decide) hm hv
      · cases hv
        exact h

def bootFailScope : Scope := scope [] [F.HAT_BOOT_FAIL_STEP, F.HAT_BOOT_FAILED] ||| enterP3Scope ||| hatRecordScope

theorem Within.bootFail (h : s.Within M t) (hm : bootFailScope.le M = true := by decide +kernel) : s.Within M (t.bootFail) := by
  refine h.andThen hm fun h => ?_
  unfold State.bootFail
  extract_lets _ _ s1
  have hs1 : t.Within bootFailScope s1 := h.hatRecord.freshen.enterP3
  exact hs1.wr.wr

def lcFinishScope : Scope := scope [.flash] [F.SEC_LC_ZEROIZED, V.RET_CH, V.RET_STACK]

theorem Within.lcFinish {from0 goal : Nat} (h : s.Within M t) (hm : lcFinishScope.le M = true := by decide +kernel) :
    s.Within M (t.lcFinish from0 goal) := by
  refine h.andThen hm fun h => ?_
  unfold State.lcFinish
  split
  · exact h.flashPut
  · split
    · exact h.flashPut.wr
    · exact .ite (h.eraseRegs ([V.RET_CH, V.RET_STACK]) (fun _ _ hn => by simp only [List.forall_mem_cons] at hn; simp [hn])) h

def lcResolveScope : Scope := highRaiseScope ||| scope [] [F.SEC_LC_STATE, V.LC_SLOT] ||| lcFinishScope

theorem Within.lcResolve (h : s.Within M t) (hm : lcResolveScope.le M = true := by decide +kernel) (e : t.lcResolve = some u) : s.Within M u := by
  refine h.andThen hm fun h => ?_
  unfold State.lcResolve at e
  extract_lets obj ok best at e
  clear_value best
  have held : ∀ i : Nat, ∀ v : State, t.Within lcResolveScope v →
      t.Within lcResolveScope ((v.wr F.SEC_LC_STATE [] (obj i).state).wr V.LC_SLOT [] i) := fun _ _ hv => hv.wr.wr
  split at e
  · exact Within.of_some (h.wr) e
  · split at e
    · cases e
    · extract_lets at e
      split at e
      · exact Within.of_some (held _ _ h) e
      · split at e
        · rw [Option.map_eq_some_iff] at e
          obtain ⟨v, hv, rfl⟩ := e
          exact (held _ _ (h.ctrRaise_high (by decide) (e := hv))).lcFinish
        · cases e

def bootRomScope : Scope := scope [.free] [V.FLASH_KEY, V.FLASH_KEYED] ||| showCountersScope ||| lcResolveScope

/-- A key write of boot flash raises no counter. -/
theorem Within.flashCmd_key {req : List Byte} (h : s.Within M t) (hm : (scope [] [V.FLASH_KEY, V.FLASH_KEYED]).le M = true := by decide +kernel) :
    s.Within M (t.flashCmd 0xA0 req).1 := by
  change s.Within M (if t.rdb V.FLASH_KEYED [] then (t, _) else (_, _)).1
  split
  · exact h
  · exact (h.wr (Scope.part hm)).wr (Scope.part hm)

theorem Within.bootRom (h : s.Within M t) (hm : bootRomScope.le M = true := by decide +kernel) (e : t.bootRom = some u) : s.Within M u := by
  refine h.andThen hm fun h => ?_
  unfold State.bootRom at e
  extract_lets blank keyed at e
  have hkeyed : t.Within _ keyed := .ite h h.flashCmd_key
  split at e
  · cases e
  · split at e
    · cases e
    · split at e
      · exact hkeyed.freshen.showCounters.lcResolve (e := e)
      · cases e

def startupStepScope : Scope :=
  scope [] [F.HAT_BOOT_STEP, F.HAT_PSTATE_STATE, F.HAT_CLK_REF_OK, V.REPAIR, V.BOOTING, V.WAKE_CLOSED] ||| bootRomScope ||| bootVerifyScope |||
    bootFailScope ||| mitJoinScope ||| yofenStartScope ||| pcieUpScope ||| hbmUpScope ||| bootBaseScope ||| bootTenantsScope ||| loadTestStartScope

theorem Within.startupStep {ok : Bool} {failed : List Nat} (h : s.Within M t) (hm : startupStepScope.le M = true := by decide +kernel) :
    s.Within M (t.startupStep ok failed) := by
  refine h.andThen hm fun h => ?_
  unfold State.startupStep
  extract_lets next tenants
  have hnext : ∀ v : State, t.Within startupStepScope v → t.Within startupStepScope (next v) := fun _ hv => hv.wr
  have htenants : t.Within _ tenants := h.bootTenants
  refine .ite h ?_
  split
  · exact hnext _ h.wr
  · split
    · next u e =>
      split at e
      · exact hnext _ (h.bootRom (e := e))
      · cases e
    · exact h.bootFail
  · split
    · next u e =>
      split at e
      · exact hnext _ (h.bootVerify (e := e))
      · cases e
    · exact h.bootFail
  · exact .ite (hnext _ h.wr.wr.mitJoin) h.bootFail
  · exact .ite (hnext _ h.yofenStart.pcieUp) h.bootFail
  · exact .ite (hnext _ h.hbmUp) h.bootFail
  · exact .ite (hnext _ h) h.bootFail
  · refine .ite (hnext _ h) ?_
    have hbase : t.Within startupStepScope t.bootBase.1 := h.bootBase
    dsimp only
    exact .ite (hnext _ hbase) hbase
  · exact .ite htenants.wr.wr.wr (hnext _ htenants).loadTestStart
  · exact h

def perstScope : Scope := scope [] [F.PCI_LINK_DOWNS, F.HAT_RESET_LAST, V.PERST] ||| fetchAbortScope ||| linkOffScope ||| fnResetScope
  ||| pcieUpScope

theorem Within.perst {asserted : Bool} (h : s.Within M t) (hm : perstScope.le M = true := by decide +kernel) :
    s.Within M (t.perst asserted) := by
  refine h.andThen hm fun h => ?_
  unfold State.perst
  extract_lets s1 s2 s3
  have hs1 : t.Within perstScope s1 := .ite h.bump h
  have hs2 : t.Within perstScope s2 := hs1.wr.wr.linkOff.fetchAbort
  have hs3 : t.Within perstScope s3 := h.wr
  exact .ite (hs2.foldl (fun _ _ hu => hu.fnReset)) (.ite hs3.pcieUp hs3)

def coldResetScope : Scope := scope [] [F.TRY_OWN_SLOT, F.HAT_RESET_LAST] ||| resetKeepingScope

theorem Within.coldReset (h : s.Within M t) (hm : coldResetScope.le M = true := by decide +kernel) : s.Within M (t.coldReset) := by
  refine h.andThen hm fun h => ?_
  unfold State.coldReset
  exact h.freshen.resetKeeping.wr.wr

def thermalTripScope : Scope := scope [] [V.THERM, F.HAT_CLK_TRIPS] ||| hatRecordScope ||| enterP3Scope

theorem Within.thermalTrip (h : s.Within M t) (hm : thermalTripScope.le M = true := by decide +kernel) : s.Within M (t.thermalTrip) := by
  refine h.andThen hm fun h => ?_
  unfold State.thermalTrip
  extract_lets s1
  have hs1 : t.Within thermalTripScope s1 := h.hatRecord
  exact .ite h hs1.bump.wr.enterP3

def oscCalibrateScope : Scope := scope [] [F.HAT_CLK_OSC_CAL]

theorem Within.oscCalibrate (h : s.Within M t) (hm : oscCalibrateScope.le M = true := by decide +kernel) : s.Within M (t.oscCalibrate)
    := by
  refine h.andThen hm fun h => ?_
  unfold State.oscCalibrate
  exact .ite h.wr h

def refclkTimeoutScope : Scope := stopBeginScope

theorem Within.refclkTimeout (h : s.Within M t) (hm : refclkTimeoutScope.le M = true := by decide +kernel) : s.Within M (t.refclkTimeout)
    := by
  refine h.andThen hm fun h => ?_
  unfold State.refclkTimeout
  exact .ite h (.ite h.wr.wr.wr h.stopBegin)

def refclkReturnScope : Scope := scope [] [F.HAT_CLK_REF_OK] ||| linkRetrainScope

theorem Within.refclkReturn (h : s.Within M t) (hm : refclkReturnScope.le M = true := by decide +kernel) : s.Within M (t.refclkReturn)
    := by
  refine h.andThen hm fun h => ?_
  unfold State.refclkReturn
  exact .ite h (h.wr.foldl (fun _ _ hu => hu.linkRetrain))

def refclkLostScope : Scope := scope [] [F.HAT_CLK_TIME_FREE, F.HAT_CLK_REF_OK] ||| linkRetrainScope

theorem Within.refclkLost (h : s.Within M t) (hm : refclkLostScope.le M = true := by decide +kernel) : s.Within M (t.refclkLost) := by
  refine h.andThen hm fun h => ?_
  unfold State.refclkLost
  extract_lets s1 s2
  have hs1 : t.Within refclkLostScope s1 := h.wr.raise
  have hs2 : t.Within refclkLostScope s2 := hs1.foldl (fun _ _ hu => hu.linkRetrain)
  exact .ite h hs2.err

def warmHoldEndScope : Scope := scope [] [V.WARM_NS] ||| warmShowScope

theorem Within.warmHoldEnd {q e' p : Nat} (h : s.Within M t) (hm : warmHoldEndScope.le M = true := by decide +kernel) :
    s.Within M (t.warmHoldEnd q e' p) := by
  refine h.andThen hm fun h => ?_
  unfold State.warmHoldEnd
  exact h.wr.warmShow

def engineWakeScope : Scope := scope [] [F.HAT_GATE_WAKES, F.HAT_GATE_GATED]

theorem Within.engineWake {q e' : Nat} (h : s.Within M t) (hm : engineWakeScope.le M = true := by decide +kernel) :
    s.Within M (t.engineWake q e') := by
  refine h.andThen hm fun h => ?_
  unfold State.engineWake
  exact .ite h.wr.bump h

def engineGateScope : Scope := scope [] [F.HAT_GATE_GATED]

theorem Within.engineGate {q e' : Nat} (h : s.Within M t) (hm : engineGateScope.le M = true := by decide +kernel) :
    s.Within M (t.engineGate q e') := by
  refine h.andThen hm fun h => ?_
  unfold State.engineGate
  exact .ite h.wr h

def gateRowScope : Scope := engineGateScope

theorem Within.gateRow {q e' : Nat} (h : s.Within M t) (hm : gateRowScope.le M = true := by decide +kernel) : s.Within M (t.gateRow q e')
    := by
  refine h.andThen hm fun h => ?_
  unfold State.gateRow
  exact .ite h.engineGate h

def yofStopScope : Scope := scope [] [V.INTEG, V.DUTY, V.INTEG_LOADED, V.CONTEST_HOLD, F.TRY_OWN_CONTEST, F.TRY_OWN_QUALIFIED,
  F.TRY_OWN_ROLE, V.YOF_ON]

theorem Within.yofStop (h : s.Within M t) (hm : yofStopScope.le M = true := by decide +kernel) : s.Within M (t.yofStop) := by
  refine h.andThen hm fun h => ?_
  unfold State.yofStop
  extract_lets s1
  have hs1 : t.Within yofStopScope s1 := h.eraseRegs ([V.INTEG, V.DUTY, V.INTEG_LOADED, V.CONTEST_HOLD]) (fun _ _ hn => by simp only [List.forall_mem_cons] at hn; simp [hn])
  exact hs1.wr.wr.wr.wr

def yofenIdleStopScope : Scope := yofStopScope

theorem Within.yofenIdleStop (h : s.Within M t) (hm : yofenIdleStopScope.le M = true := by decide +kernel) : s.Within M (t.yofenIdleStop)
    := by
  refine h.andThen hm fun h => ?_
  unfold State.yofenIdleStop
  exact .ite h.yofStop h

def stopAbortScope : Scope := instAbortScope ||| stepFailScope

theorem Within.stopAbort {p : Nat} (h : s.Within M t) (hm : stopAbortScope.le M = true := by decide +kernel) : s.Within M (t.stopAbort p)
    := by
  refine h.andThen hm fun h => ?_
  unfold State.stopAbort
  extract_lets s1
  have hs1 : t.Within stopAbortScope s1 := by
    unfold s1
    refine h.foldl fun _ _ hu => by
      extract_lets
      split
      · split
        · exact .ite hu hu.instAbort
        · exact hu
      · exact hu
  split
  · exact hs1.stepEnd
  · exact hs1.stepEnd
  · exact hs1.stepFail
  · exact hs1.stepFail
  · exact hs1

def sweepEndScope : Scope := scope [] [F.SLT_SWEEP_ACTIVE]

theorem Within.sweepEnd {p : Nat} (h : s.Within M t) (hm : sweepEndScope.le M = true := by decide +kernel) : s.Within M (t.sweepEnd p)
    := by
  refine h.andThen hm fun h => ?_
  unfold State.sweepEnd
  exact h.foldl (fun _ _ hu => .ite hu.wr hu)

def stopReachedScope : Scope := scope [] [F.HAT_PSTATE_PENDING, F.HAT_PSTATE_BUSY] ||| sweepEndScope ||| sweepPartScope ||| enterP3Scope
  ||| startUpScope ||| cutIngressScope ||| yofStopScope ||| leaveP2Scope

theorem Within.stopReached (h : s.Within M t) (hm : stopReachedScope.le M = true := by decide +kernel) : s.Within M (t.stopReached) := by
  refine h.andThen hm fun h => ?_
  unfold State.stopReached
  extract_lets swept s2 goal cause pend want s3 s4 s5 s6 s7
  have hswept : t.Within stopReachedScope swept := h.foldl fun _ _ hu => hu.sweepPart.sweepEnd
  have hclear : ∀ v, t.Within stopReachedScope v → t.Within stopReachedScope { v with slab := [], pagerOp := [] } :=
    fun _ hv => hv.manyParts [.slab, .pagerOp]
  have hs2 : t.Within stopReachedScope s2 := hclear _ hswept
  have hs3 : t.Within stopReachedScope s3 := hs2.wr.wr
  have hs4 : t.Within stopReachedScope s4 := hs3.enterP3
  have hs5 : t.Within stopReachedScope s5 := hs3.foldl fun _ _ hu => .ite hu.cutIngress.setLnk.wr hu
  have hs6 : t.Within stopReachedScope s6 := hs5.foldl fun _ _ hu => hu.wr
  have hs7 : t.Within stopReachedScope s7 := hs6.wr.wr.yofStop
  exact .ite (.ite hs4.startUp hs4) (.ite hs7.leaveP2 hs7)

def p2QuietEndScope : Scope := stopReachedScope ||| stopAbortScope

theorem Within.p2QuietEnd {expired : Bool} (h : s.Within M t) (hm : p2QuietEndScope.le M = true := by decide +kernel) :
    s.Within M (t.p2QuietEnd expired) := by
  refine h.andThen hm fun h => ?_
  unfold State.p2QuietEnd
  exact .ite h (.ite h.stopReached (.ite ((h.foldl (fun _ _ hu => hu.stopAbort)).stopReached) h))

def vauxLowScope : Scope := scope [] [V.BOOTING, V.OFF] ||| resetKeepingScope

theorem Within.vauxLow (h : s.Within M t) (hm : vauxLowScope.le M = true := by decide +kernel) : s.Within M (t.vauxLow) := by
  refine h.andThen hm fun h => ?_
  unfold State.vauxLow
  exact h.resetKeeping.wr.wr

def railTimeoutScope : Scope := scope [] [F.HAT_BOOT_FAIL_STEP, F.HAT_BOOT_FAILED] ||| enterP3Scope ||| hatRecordScope

theorem Within.railTimeout (h : s.Within M t) (hm : railTimeoutScope.le M = true := by decide +kernel) : s.Within M (t.railTimeout) := by
  refine h.andThen hm fun h => ?_
  unfold State.railTimeout
  exact .ite h.hatRecord.enterP3.wr.wr h

def vinGoodScope : Scope := startUpScope

theorem Within.vinGood (h : s.Within M t) (hm : vinGoodScope.le M = true := by decide +kernel) : s.Within M (t.vinGood) := by
  refine h.andThen hm fun h => ?_
  unfold State.vinGood
  exact .ite h.startUp h

def vinHoldupEndScope : Scope := scope [] [V.GASP, V.VIN_P3] ||| enterP3Scope

theorem Within.vinHoldupEnd (h : s.Within M t) (hm : vinHoldupEndScope.le M = true := by decide +kernel) : s.Within M (t.vinHoldupEnd)
    := by
  refine h.andThen hm fun h => ?_
  unfold State.vinHoldupEnd
  extract_lets s1
  have hs1 : t.Within vinHoldupEndScope s1 := h.freshen.enterP3.wr
  exact .ite hs1.wr h

def vinLowScope : Scope := scope [] [F.TRY_CAP_THR, V.GASP] ||| noticeScope ||| sendGramScope ||| hatRecordScope

theorem Within.vinLow (h : s.Within M t) (hm : vinLowScope.le M = true := by decide +kernel) : s.Within M (t.vinLow) := by
  refine h.andThen hm fun h => ?_
  unfold State.vinLow
  extract_lets s1 s2 s3
  have hs1 : t.Within vinLowScope s1 := h.wr.wr
  have hs2 : t.Within vinLowScope s2 := hs1.notice
  have hs3 : t.Within vinLowScope s3 := .ite hs2.sendGram hs2
  exact .ite h hs3.hatRecord

def cartInServiceScope : Scope := setCartScope

theorem Within.cartInService {c : Nat} (h : s.Within M t) (hm : cartInServiceScope.le M = true := by decide +kernel) :
    s.Within M (t.cartInService c) := by
  refine h.andThen hm fun h => ?_
  unfold State.cartInService
  exact .ite h.setCart h

def cartSafeScope : Scope := cartEnableScope

theorem Within.cartSafe {c : Nat} (h : s.Within M t) (hm : cartSafeScope.le M = true := by decide +kernel) : s.Within M (t.cartSafe c)
    := by
  refine h.andThen hm fun h => ?_
  unfold State.cartSafe
  extract_lets _ s1
  have hs1 : t.Within cartSafeScope s1 := h.setCart.wr
  exact .ite (.ite hs1.cartEnable hs1) h

def enDropScope : Scope := scope [] [F.LNK_PORT_CTL_EN] ||| linkDownScope

theorem Within.enDrop {q k : Nat} (h : s.Within M t) (hm : enDropScope.le M = true := by decide +kernel) : s.Within M (t.enDrop q k) := by
  refine h.andThen hm fun h => ?_
  unfold State.enDrop
  exact h.hwWr.linkDown

def cartStopScope : Scope := scope [] [F.TRY_CART_DRAINS] ||| setCartScope ||| enDropScope

theorem Within.cartStop {c : Nat} (h : s.Within M t) (hm : cartStopScope.le M = true := by decide +kernel) : s.Within M (t.cartStop c)
    := by
  refine h.andThen hm fun h => ?_
  unfold State.cartStop
  exact (h.bump.foldl (fun _ _ hu => hu.enDrop)).setCart

def cartForceStopScope : Scope := cartStopScope

theorem Within.cartForceStop {c : Nat} (h : s.Within M t) (hm : cartForceStopScope.le M = true := by decide +kernel) :
    s.Within M (t.cartForceStop c) := by
  refine h.andThen hm fun h => ?_
  unfold State.cartForceStop
  exact .ite h.cartStop h

def cartDrainTimeoutScope : Scope := cartStopScope ||| cartForceInScope

theorem Within.cartDrainTimeout {c : Nat} (h : s.Within M t) (hm : cartDrainTimeoutScope.le M = true := by decide +kernel) :
    s.Within M (t.cartDrainTimeout c) := by
  refine h.andThen hm fun h => ?_
  unfold State.cartDrainTimeout
  exact .ite (.ite h.cartStop h.cartForceIn) h

def cartDrainCompleteScope : Scope := cartStopScope

theorem Within.cartDrainComplete {c : Nat} (h : s.Within M t) (hm : cartDrainCompleteScope.le M = true := by decide +kernel) :
    s.Within M (t.cartDrainComplete c) := by
  refine h.andThen hm fun h => ?_
  unfold State.cartDrainComplete
  exact .ite h.cartStop h

def trayButtonHoldScope : Scope := cartWithdrawScope

theorem Within.trayButtonHold (h : s.Within M t) (hm : trayButtonHoldScope.le M = true := by decide +kernel) :
    s.Within M (t.trayButtonHold) := by
  refine h.andThen hm fun h => ?_
  unfold State.trayButtonHold
  exact h.foldl (fun _ _ hu => .ite hu.cartWithdraw hu)

def trayButtonScope : Scope := scope [] [F.TRY_CART_CFG_LOCATE]

theorem Within.trayButton (h : s.Within M t) (hm : trayButtonScope.le M = true := by decide +kernel) : s.Within M (t.trayButton) := by
  refine h.andThen hm fun h => ?_
  unfold State.trayButton
  exact h.hwWr

def cartButtonHoldScope : Scope := scope [] [V.CART_HELD, F.TRY_CART_BTN] ||| cartForceInScope

theorem Within.cartButtonHold {c : Nat} (h : s.Within M t) (hm : cartButtonHoldScope.le M = true := by decide +kernel) :
    s.Within M (t.cartButtonHold c) := by
  refine h.andThen hm fun h => ?_
  unfold State.cartButtonHold
  exact h.wr.wr.cartForceIn

def cartButtonScope : Scope := scope [] [F.TRY_CART_BTN, V.CART_HELD] ||| cartEnableScope ||| cartRefuseScope ||| cartWithdrawScope

theorem Within.cartButton {c : Nat} {down : Bool} (h : s.Within M t) (hm : cartButtonScope.le M = true := by decide +kernel) :
    s.Within M (t.cartButton c down) := by
  refine h.andThen hm fun h => ?_
  unfold State.cartButton
  extract_lets _ _ s1 _ s2
  have hs1 : t.Within cartButtonScope s1 := h.wr
  have hs2 : t.Within cartButtonScope s2 := hs1.wr
  exact .ite hs1 (.ite (.ite hs1 hs1.cartEnable) (.ite hs2.cartRefuse (.ite hs2.cartWithdraw hs2)))

def preDrainCancelScope : Scope := scope [] [F.TRY_CART_TOUCH] ||| setCartScope ||| restoreScope

theorem Within.preDrainCancel {c : Nat} (h : s.Within M t) (hm : preDrainCancelScope.le M = true := by decide +kernel) :
    s.Within M (t.preDrainCancel c) := by
  refine h.andThen hm fun h => ?_
  unfold State.preDrainCancel
  extract_lets s1
  have hs1 : t.Within preDrainCancelScope s1 := h.wr
  exact .ite hs1.restore.setCart hs1

def cartCuffOpenScope : Scope := scope [] [F.TRY_CART_CUFF] ||| cartForceInScope

theorem Within.cartCuffOpen {c : Nat} (h : s.Within M t) (hm : cartCuffOpenScope.le M = true := by decide +kernel) :
    s.Within M (t.cartCuffOpen c) := by
  refine h.andThen hm fun h => ?_
  unfold State.cartCuffOpen
  exact h.wr.cartForceIn

def cartTouchScope : Scope := scope [] [F.TRY_CART_TOUCH] ||| cartWithdrawScope

theorem Within.cartTouch {c : Nat} {high : Bool} (h : s.Within M t) (hm : cartTouchScope.le M = true := by decide +kernel) :
    s.Within M (t.cartTouch c high) := by
  refine h.andThen hm fun h => ?_
  unfold State.cartTouch
  extract_lets _ s1
  have hs1 : t.Within cartTouchScope s1 := h.wr
  exact .ite hs1.cartWithdraw hs1

def cartLostScope : Scope := scope [] [V.CART_LATCH, F.TRY_CART_PRESENT, F.TRY_CART_UNDRAINED, F.TRY_CART_LAST_REASON] ||| linkDownScope
  ||| setCartScope ||| sendGramScope

theorem Within.cartLost {c : Nat} (h : s.Within M t) (hm : cartLostScope.le M = true := by decide +kernel) : s.Within M (t.cartLost c)
    := by
  refine h.andThen hm fun h => ?_
  unfold State.cartLost
  extract_lets _ s1 s2 s3
  have hs1 : t.Within cartLostScope s1 := h.wr.wr
  have hs2 : t.Within cartLostScope s2 := hs1.foldl (fun _ _ hu => hu.linkDown)
  have hs3 : t.Within cartLostScope s3 := hs2.setCart
  exact .ite hs1 (.ite hs2 (.ite hs3.wr.bump.sendGram.err hs3))

def cartInsertScope : Scope := scope [] [F.TRY_CART_PRESENT] ||| cartTrainScope

theorem Within.cartInsert {c : Nat} (h : s.Within M t) (hm : cartInsertScope.le M = true := by decide +kernel) :
    s.Within M (t.cartInsert c) := by
  refine h.andThen hm fun h => ?_
  unfold State.cartInsert
  extract_lets s1
  have hs1 : t.Within cartInsertScope s1 := h.wr
  exact .ite hs1.cartTrain hs1

def trayBusRecoveryScope : Scope := scope [.out] []

theorem Within.trayBusRecovery (h : s.Within M t) (hm : trayBusRecoveryScope.le M = true := by decide +kernel) :
    s.Within M (t.trayBusRecovery) := by
  refine h.andThen hm fun h => ?_
  unfold State.trayBusRecovery
  exact h.emit

def pumpStageClearScope : Scope := scope [] [F.TRY_STAGE_PUMP]

theorem Within.pumpStageClear (h : s.Within M t) (hm : pumpStageClearScope.le M = true := by decide +kernel) :
    s.Within M (t.pumpStageClear) := by
  refine h.andThen hm fun h => ?_
  unfold State.pumpStageClear
  exact .ite h.wr h

def pumpRecordScope : Scope := scope [] [F.TRY_STAGE_PUMP] ||| errScope

theorem Within.pumpRecord {stage : Nat} (h : s.Within M t) (hm : pumpRecordScope.le M = true := by decide +kernel) :
    s.Within M (t.pumpRecord stage) := by
  refine h.andThen hm fun h => ?_
  unfold State.pumpRecord
  exact h.wr.err

def pumpStage3Scope : Scope := pumpRecordScope ||| stopBeginScope

theorem Within.pumpStage3 (h : s.Within M t) (hm : pumpStage3Scope.le M = true := by decide +kernel) : s.Within M (t.pumpStage3) := by
  refine h.andThen hm fun h => ?_
  unfold State.pumpStage3
  extract_lets s1
  have hs1 : t.Within pumpStage3Scope s1 := h.pumpRecord
  exact .ite (.ite hs1.wr (.ite hs1.stopBegin hs1)) h

def updReqScope : Scope := scope [] [V.HBM_REQ]

theorem Within.updReq (h : s.Within M t) (hm : updReqScope.le M = true := by decide +kernel) : s.Within M (t.updReq) := by
  refine h.andThen hm fun h => ?_
  unfold State.updReq
  exact .ite h h.wr

def piecesWriteScope : Scope := memWriteScope

theorem Within.piecesWrite {p : Nat} {l : List (Nat × Nat)} {bs : List Byte} (h : s.Within M t) (hm : piecesWriteScope.le M = true := by decide +kernel)
    (e : t.piecesWrite p l bs = some u) : s.Within M u := by
  induction l generalizing t bs with
  | nil =>
    exact Within.of_some (h) e
  | cons x r ih =>
    unfold State.piecesWrite at e
    split at e
    · next v hv => exact ih (h.memWrite hm hv) e
    · cases e

def regionWriteScope : Scope := memWriteScope

theorem Within.regionWrite {p kind off : Nat} {bs : List Byte} (h : s.Within M t) (hm : regionWriteScope.le M = true := by decide +kernel)
    (e : t.regionWrite p kind off bs = some u) : s.Within M u := by
  unfold State.regionWrite at e
  split at e
  · exact h.piecesWrite hm e
  · cases e

def updWriteScope : Scope := scope [] [V.HBM_REQ] ||| updReqScope ||| regionWriteScope

theorem Within.updWrite {p kind off : Nat} {bs : List Byte} (h : s.Within M t) (hm : updWriteScope.le M = true := by decide +kernel)
    (e : t.updWrite p kind off bs = some u) : s.Within M u := by
  unfold State.updWrite at e
  rw [Option.map_eq_some_iff] at e
  obtain ⟨v, hv, rfl⟩ := e
  exact ((h.updReq (Scope.part hm)).regionWrite (Scope.part hm) hv).wr (Scope.part hm)

def regionNoteScope : Scope := noteReadScope

theorem Within.regionNote {det p kind off n : Nat} (h : s.Within M t) (hm : regionNoteScope.le M = true := by decide +kernel) :
    s.Within M (t.regionNote det p kind off n) := by
  refine h.andThen hm fun h => ?_
  unfold State.regionNote
  split
  · exact h.foldl (fun _ _ hu => hu.noteRead)
  · exact h

def updNoteScope : Scope := regionNoteScope ||| updReqScope

theorem Within.updNote {p kind off n : Nat} (h : s.Within M t) (hm : updNoteScope.le M = true := by decide +kernel) :
    s.Within M (t.updNote p kind off n) := by
  refine h.andThen hm fun h => ?_
  unfold State.updNote
  exact h.updReq.regionNote.wr

def optNoteScope : Scope := updNoteScope

theorem Within.optNote {p off n : Nat} (h : s.Within M t) (hm : optNoteScope.le M = true := by decide +kernel) :
    s.Within M (t.optNote p off n) := by
  refine h.andThen hm fun h => ?_
  unfold State.optNote
  exact h.updNote

def shardReadLostScope : Scope := shardLostScope ||| optNoteScope ||| stepFailScope

theorem Within.shardReadLost {p k off n : Nat} (h : s.Within M t) (hm : shardReadLostScope.le M = true := by decide +kernel) :
    s.Within M (t.shardReadLost p k off n) := by
  refine h.andThen hm fun h => ?_
  unfold State.shardReadLost
  extract_lets s1
  have hs1 : t.Within shardReadLostScope s1 := h.optNote.shardLost
  exact .ite h (.ite hs1 hs1.stepFail)

def snapPacketScope : Scope := scope [] [V.SNAP_SEQ] ||| shardReadLostScope ||| sendScope

theorem Within.snapPacket {p k i colour g : Nat} {h' : ShardE} (h : s.Within M t) (hm : snapPacketScope.le M = true := by decide +kernel) :
    s.Within M (t.snapPacket p k i colour g h') := by
  refine h.andThen hm fun h => ?_
  unfold State.snapPacket
  extract_lets _ s1
  have hs1 : t.Within snapPacketScope s1 := h.optNote
  split
  · exact h.shardReadLost
  · split
    · extract_lets
      exact hs1.wr.send

def snapshotShardScope : Scope := scope [] [F.SEC_KEY_EXHAUSTED] ||| snapPacketScope ||| updWriteScope

theorem Within.snapshotShard {p k arg1 : Nat} {h' : ShardE} (h : s.Within M t) (hm : snapshotShardScope.le M = true := by decide +kernel) :
    s.Within M ((t.snapshotShard p k arg1 h').1) := by
  refine h.andThen hm fun h => ?_
  unfold State.snapshotShard
  extract_lets _ _ _ _ _ _ s1
  have hs1 : t.Within snapshotShardScope s1 := h.optNote
  split
  · exact h
  · split
    · split
      · exact h
      · split
        · exact h.wr
        · exact h.foldl (fun _ _ hu => hu.snapPacket)
    · split
      · exact h
      · split
        · exact h.shardReadLost
        · split
          · split
            · next u e =>
                have hu2 : t.Within snapshotShardScope u := hs1.updWrite (e := e)
                exact hu2
            · exact hs1

/-- One shard's turn of the snapshot of a partition. -/
def exportTurn (p : Nat) (a : State × Nat) (k : Nat) : State × Nat :=
  match a.1.img.shardValid p k with
  | some h => ((a.1.snapshotShard p k (1 + a.2 * 2 ^ 16) h).1, a.2 + ceilDiv (64 + recBytes h * h.lchunk + 16) 4096)
  | none => a

theorem exportPart_eq : State.exportPart = fun s p => ((List.range 4096).foldl (exportTurn p) (s, 256 * s.sense (444 + 2 * p) 2)).1 := by
  delta State.exportPart
  rfl

theorem exportPart_eq_foldl (t : State) (p : Nat) :
    t.exportPart p = ((List.range 4096).foldl (exportTurn p) (t, 256 * t.sense (444 + 2 * p) 2)).1 :=
  congrFun (congrFun exportPart_eq t) p

def exportPartScope : Scope := snapshotShardScope

theorem Within.snapshotShard_pair {p k x n : Nat} {h' : ShardE} (h : s.Within M t) (hm : exportPartScope.le M = true) :
    s.Within M ((t.snapshotShard p k x h').1, n).1 := h.snapshotShard hm

theorem Within.exportTurn {p k : Nat} {a : State × Nat} (h : s.Within M a.1) (hm : exportPartScope.le M = true) :
    s.Within M (exportTurn p a k).1 := by
  unfold State.exportTurn
  split
  · exact h.snapshotShard_pair hm
  · exact h

theorem Within.exportTurns {p n : Nat} {l : List Nat} (h : s.Within M t) (hm : exportPartScope.le M = true) :
    s.Within M (l.foldl (State.exportTurn p) (t, n)).1 := Within.foldl_fst h fun _ _ hu => hu.exportTurn hm

theorem Within.exportPart {p : Nat} (h : s.Within M t) (hm : exportPartScope.le M = true := by decide +kernel) :
    s.Within M (t.exportPart p) := by
  rw [exportPart_eq_foldl]
  exact h.exportTurns hm

def pumpExportScope : Scope := scope [] [F.TRY_STAGE_EXPORT_DONE] ||| sendGramScope ||| pumpRecordScope ||| exportPartScope

theorem Within.pumpExport (h : s.Within M t) (hm : pumpExportScope.le M = true := by decide +kernel) : s.Within M (t.pumpExport) := by
  refine h.andThen hm fun h => ?_
  unfold State.pumpExport
  extract_lets s1 s2
  have hs1 : t.Within pumpExportScope s1 := h.pumpRecord.sendGram
  have hs2 : t.Within pumpExportScope s2 := hs1.foldl (fun _ _ hu => .ite hu.exportPart hu)
  exact hs2.wr

def pumpStage2Scope : Scope := pumpExportScope

theorem Within.pumpStage2 (h : s.Within M t) (hm : pumpStage2Scope.le M = true := by decide +kernel) : s.Within M (t.pumpStage2) := by
  refine h.andThen hm fun h => ?_
  unfold State.pumpStage2
  exact .ite h.pumpExport h

def pumpStage1Scope : Scope := scope [] [F.TRY_STAGE_EXPORT_DONE] ||| pumpRecordScope

theorem Within.pumpStage1 (h : s.Within M t) (hm : pumpStage1Scope.le M = true := by decide +kernel) : s.Within M (t.pumpStage1) := by
  refine h.andThen hm fun h => ?_
  unfold State.pumpStage1
  exact .ite h.wr.pumpRecord h

def autonomousHoldScope : Scope := scope [] [F.TRY_STAGE_HOLD]

theorem Within.autonomousHold (h : s.Within M t) (hm : autonomousHoldScope.le M = true := by decide +kernel) :
    s.Within M (t.autonomousHold) := by
  refine h.andThen hm fun h => ?_
  unfold State.autonomousHold
  exact .ite h h.wr

def managerLostScope : Scope := scope [] [F.TRY_STAGE_MGR_A, F.TRY_STAGE_MGR_B] ||| errScope

theorem Within.managerLost {m : Nat} (h : s.Within M t) (hm : managerLostScope.le M = true := by decide +kernel) :
    s.Within M (t.managerLost m) := by
  refine h.andThen hm fun h => ?_
  unfold State.managerLost
  exact .ite (h.wrMem [F.TRY_STAGE_MGR_A, F.TRY_STAGE_MGR_B] (by split <;> simp)).err h

def managerHeartbeatScope : Scope := scope [] [F.TRY_STAGE_HOLD, F.TRY_STAGE_MGR_A, F.TRY_STAGE_MGR_B]

theorem Within.managerHeartbeat {m : Nat} (h : s.Within M t) (hm : managerHeartbeatScope.le M = true := by decide +kernel) :
    s.Within M (t.managerHeartbeat m) := by
  refine h.andThen hm fun h => ?_
  unfold State.managerHeartbeat
  exact (h.wrMem [F.TRY_STAGE_MGR_A, F.TRY_STAGE_MGR_B] (by split <;> simp)).wr

def telemetryOutScope : Scope := scope [] [V.TRAY_SEQ] ||| sendGramScope

theorem Within.telemetryOut (h : s.Within M t) (hm : telemetryOutScope.le M = true := by decide +kernel) : s.Within M (t.telemetryOut)
    := by
  refine h.andThen hm fun h => ?_
  unfold State.telemetryOut
  extract_lets _ _ s1 s2
  have hs1 : t.Within telemetryOutScope s1 := h.sendGram
  have hs2 : t.Within telemetryOutScope s2 := .ite hs1.bump hs1
  exact hs2.sendGram

def telemetrySendScope : Scope := telemetryOutScope

theorem Within.telemetrySend (h : s.Within M t) (hm : telemetrySendScope.le M = true := by decide +kernel) : s.Within M (t.telemetrySend)
    := by
  refine h.andThen hm fun h => ?_
  unfold State.telemetrySend
  exact .ite h h.telemetryOut

def standbyQualifyScope : Scope := scope [] [F.TRY_OWN_QUALIFIED]

theorem Within.standbyQualify (h : s.Within M t) (hm : standbyQualifyScope.le M = true := by decide +kernel) :
    s.Within M (t.standbyQualify) := by
  refine h.andThen hm fun h => ?_
  unfold State.standbyQualify
  exact .ite h.wr h

def degradedClearScope : Scope := becomeStandbyScope

theorem Within.degradedClear (h : s.Within M t) (hm : degradedClearScope.le M = true := by decide +kernel) : s.Within M (t.degradedClear)
    := by
  refine h.andThen hm fun h => ?_
  unfold State.degradedClear
  exact .ite h.becomeStandby h

def contestResolveScope : Scope := scope [] [F.TRY_OWN_CONTEST, F.TRY_OWN_QUALIFIED, F.TRY_OWN_ROLE, V.CONTEST_HOLD]

theorem Within.contestResolve {peerPass : Bool} (h : s.Within M t) (hm : contestResolveScope.le M = true := by decide +kernel) :
    s.Within M (t.contestResolve peerPass) := by
  refine h.andThen hm fun h => ?_
  unfold State.contestResolve
  extract_lets _ _ s1
  have hs1 : t.Within contestResolveScope s1 := h.wr
  exact .ite h (.ite hs1.wr.wr (.ite hs1.wr hs1))

def contestStartScope : Scope := scope [] [F.TRY_OWN_CONTESTS, F.TRY_OWN_CONTEST] ||| errScope

theorem Within.contestStart (h : s.Within M t) (hm : contestStartScope.le M = true := by decide +kernel) : s.Within M (t.contestStart)
    := by
  refine h.andThen hm fun h => ?_
  unfold State.contestStart
  extract_lets
  exact .ite h.wr.bump.err h

def seeOwnerScope : Scope := scope [] [V.OWNER_SEEN, F.TRY_OWN_HANDOVERS]

theorem Within.seeOwner {w : Nat} (h : s.Within M t) (hm : seeOwnerScope.le M = true := by decide +kernel) : s.Within M (t.seeOwner w)
    := by
  refine h.andThen hm fun h => ?_
  unfold State.seeOwner
  extract_lets _ s1
  have hs1 : t.Within seeOwnerScope s1 := h.wr
  exact .ite hs1 hs1.bump

def ownerPublishScope : Scope := scope [.out] [V.PEER_INTEG, V.PEER_PLAUS, V.TRAY_SEQ, V.PEER_STAGE, V.PEER_CAP, F.TRY_OWN_PEER_LIVE,
  V.INTEG, V.INTEG_LOADED] ||| seeOwnerScope

theorem Within.ownerPublish {pub : List Nat} (h : s.Within M t) (hm : ownerPublishScope.le M = true := by decide +kernel) :
    s.Within M (t.ownerPublish pub) := by
  refine h.andThen hm fun h => ?_
  unfold State.ownerPublish
  extract_lets _ s1 s2 s3
  have hs1 : t.Within ownerPublishScope s1 := h.foldl (fun _ _ hu2 => hu2.wr)
  have hs2 : t.Within ownerPublishScope s2 := hs1.wr.wr.wr.wr
  have hs3 : t.Within ownerPublishScope s3 := hs2.wr.seeOwner
  exact .ite h (.ite h.emit (.ite hs3 (hs3.wr.foldl (fun _ _ hu => hu.wr))))

def ownConflictScope : Scope := scope [] [F.TRY_OWN_PEER_LIVE, F.TRY_OWN_CONTEST] ||| seeOwnerScope ||| becomeStandbyScope

theorem Within.ownConflict (h : s.Within M t) (hm : ownConflictScope.le M = true := by decide +kernel) : s.Within M (t.ownConflict) := by
  refine h.andThen hm fun h => ?_
  unfold State.ownConflict
  extract_lets s1
  have hs1 : t.Within ownConflictScope s1 := h.wr
  exact .ite hs1.wr.becomeStandby.seeOwner hs1

def trayClaimScope : Scope := scope [] [F.TRY_OWN_PEER_LIVE, F.TRY_OWN_CONTEST, F.TRY_OWN_ROLE] ||| seeOwnerScope

theorem Within.trayClaim {long : Bool} (h : s.Within M t) (hm : trayClaimScope.le M = true := by decide +kernel) :
    s.Within M (t.trayClaim long) := by
  refine h.andThen hm fun h => ?_
  unfold State.trayClaim
  extract_lets s1
  have hs1 : t.Within trayClaimScope s1 := h.wr
  exact .ite hs1.wr.wr.seeOwner hs1.wr

def yofenWatchdogScope : Scope := scope [] [V.KICK_INJ] ||| yofenResetScope

theorem Within.yofenWatchdog (h : s.Within M t) (hm : yofenWatchdogScope.le M = true := by decide +kernel) : s.Within M (t.yofenWatchdog)
    := by
  refine h.andThen hm fun h => ?_
  unfold State.yofenWatchdog
  exact .ite h.yofenReset.wr h

def yofenKickScope : Scope := scope [] [V.KICK_INJ, V.KICK_NS] ||| injFiredScope

theorem Within.yofenKick (h : s.Within M t) (hm : yofenKickScope.le M = true := by decide +kernel) : s.Within M (t.yofenKick) := by
  refine h.andThen hm fun h => ?_
  unfold State.yofenKick
  exact .ite h (.ite h.injFired.wr h.wr.wr)

def alertReleaseScope : Scope := scope [] [F.TRY_ALERT_ASSERTED] ||| accNoticeScope

theorem Within.alertRelease (h : s.Within M t) (hm : alertReleaseScope.le M = true := by decide +kernel) : s.Within M (t.alertRelease)
    := by
  refine h.andThen hm fun h => ?_
  unfold State.alertRelease
  exact .ite h.wr.accNotice h

def alertAssertScope : Scope := scope [] [F.TRY_CAP_THR, F.TRY_ALERT_ASSERTED] ||| noticeScope

theorem Within.alertAssert (h : s.Within M t) (hm : alertAssertScope.le M = true := by decide +kernel) : s.Within M (t.alertAssert) := by
  refine h.andThen hm fun h => ?_
  unfold State.alertAssert
  extract_lets s1
  have hs1 : t.Within alertAssertScope s1 := h.wr.wr
  exact hs1.notice

def capStepScope : Scope := scope [.free] [F.TRY_CAP_CAP_W, F.TRY_CAP_SOURCE, F.TRY_CAP_THR]

theorem Within.capStep (h : s.Within M t) (hm : capStepScope.le M = true := by decide +kernel) : s.Within M (t.capStep) := by
  refine h.andThen hm fun h => ?_
  unfold State.capStep
  split
  · exact h
  · split <;> exact h.freshen.wr.wr.showEx

def dutyStoreScope : Scope := scope [.free] [F.TRY_PWM_COMPUTED, V.DUTY] ||| dutyOutScope

theorem Within.dutyStore {i d : Nat} (h : s.Within M t) (hm : dutyStoreScope.le M = true := by decide +kernel) :
    s.Within M (t.dutyStore i d) := by
  refine h.andThen hm fun h => ?_
  unfold State.dutyStore
  extract_lets
  exact h.wr.show32.dutyOut

def trayControlScope : Scope := scope [] [F.TRY_PWM_APPLIED, V.TRAY_MS, F.TRY_OWN_PEER_LIVE, V.INTEG] ||| dutyStoreScope

theorem Within.trayControl {applied : List Nat} {peerLive : Bool} (h : s.Within M t)
    (hm : trayControlScope.le M = true := by decide +kernel) : s.Within M (t.trayControl applied peerLive) := by
  refine h.andThen hm fun h => ?_
  unfold State.trayControl
  extract_lets s1 s2
  have hs1 : t.Within trayControlScope s1 := by
    unfold s1
    refine h.foldl fun _ _ hu2 => by
      split
      · exact hu2.wr
      · exact hu2
  have hs2 : t.Within trayControlScope s2 := hs1.wr.wr
  split
  · split
    · split
      · extract_lets s3
        have hs3 : t.Within trayControlScope s3 := hs2.wr.wr.wr
        exact hs3.foldl (fun _ _ hu => hu.dutyStore)

def trayStepScope : Scope := trayControlScope

theorem Within.trayStep {applied : List Nat} {peerLive : Bool} (h : s.Within M t) (hm : trayStepScope.le M = true := by decide +kernel) :
    s.Within M (t.trayStep applied peerLive) := by
  refine h.andThen hm fun h => ?_
  unfold State.trayStep
  exact .ite h h.trayControl

def tachLostScope : Scope := scope [] [F.TRY_TACH_RPM, F.TRY_TACH_LOST] ||| errScope

theorem Within.tachLost {i : Nat} (h : s.Within M t) (hm : tachLostScope.le M = true := by decide +kernel) : s.Within M (t.tachLost i)
    := by
  refine h.andThen hm fun h => ?_
  unfold State.tachLost
  extract_lets s1
  have hs1 : t.Within tachLostScope s1 := h.wr.wr
  exact .ite h (.ite hs1 hs1.err)

def plausNoteScope : Scope := scope [] [F.TRY_OWN_PLAUS_OK, V.PLAUS_FAILED, F.TRY_OWN_QUALIFIED, F.TRY_OWN_ROLE] ||| errScope

theorem Within.plausNote (h : s.Within M t) (hm : plausNoteScope.le M = true := by decide +kernel) : s.Within M (t.plausNote) := by
  refine h.andThen hm fun h => ?_
  unfold State.plausNote
  extract_lets _ _ s1 s2
  have hs1 : t.Within plausNoteScope s1 := h.wr.wr
  have hs2 : t.Within plausNoteScope s2 := .ite hs1.err hs1
  exact .ite hs2.wr.wr hs2

def adcNoteScope : Scope := scope [] [F.TRY_ADC_IMPLAUS, V.ADC_BAD_AT, F.TRY_ADC_STICKY, V.ADC_REC] ||| errScope

theorem Within.adcNote {n : Nat} {bad : Bool} (h : s.Within M t) (hm : adcNoteScope.le M = true := by decide +kernel) :
    s.Within M (t.adcNote n bad) := by
  refine h.andThen hm fun h => ?_
  unfold State.adcNote
  extract_lets _ s1 s2
  have hs1 : t.Within adcNoteScope s1 := h.wr
  have hs2 : t.Within adcNoteScope s2 := hs1.raise.wr
  exact .ite (.ite hs2.wr.err hs2) hs1

def adcStoreScope : Scope := scope [.free] [F.TRY_ADC_CODE, F.TRY_ADC_VALUE]

theorem Within.adcStore {codes : List Nat} {n : Nat} (h : s.Within M t) (hm : adcStoreScope.le M = true := by decide +kernel) :
    s.Within M (t.adcStore codes n) := by
  refine h.andThen hm fun h => ?_
  unfold State.adcStore
  extract_lets
  exact h.wr.showEx

def adcTakeScope : Scope := scope [] [V.P_SUM, F.TRY_CAP_POWER_W, V.TJ, V.TJQ, F.TRY_TACH_RPM, F.TRY_TACH_LOST] ||| adcStoreScope
  ||| adcNoteScope ||| plausNoteScope

theorem Within.adcTake {codes temps rpms : List Nat} (h : s.Within M t) (hm : adcTakeScope.le M = true := by decide +kernel) :
    s.Within M (t.adcTake codes temps rpms) := by
  refine h.andThen hm fun h => ?_
  unfold State.adcTake
  extract_lets s1 _ s2 s3 s4 s5 s6 s7
  have hs1 : t.Within adcTakeScope s1 := h.foldl (fun _ _ hu4 => hu4.adcStore)
  have hs2 : t.Within adcTakeScope s2 := hs1.foldl (fun _ _ hu3 => hu3.adcNote)
  have hs3 : t.Within adcTakeScope s3 := hs2.plausNote
  have hs4 : t.Within adcTakeScope s4 := hs3.wr
  have hs5 : t.Within adcTakeScope s5 := hs4.showEx
  have hs6 : t.Within adcTakeScope s6 := by
    unfold s6
    split
    · exact hs5
    · exact hs5.wr
  have hs7 : t.Within adcTakeScope s7 := by
    unfold s7
    refine hs6.foldl fun _ _ hu2 => by
      split
      · exact hu2
      · exact hu2.wr
  refine hs7.foldl fun _ _ hu => by
    split
    · extract_lets t8
      have ht8 : t.Within adcTakeScope t8 := hu.wr
      exact .ite ht8 ht8.wr
    · exact hu

def adcWindowScope : Scope := adcTakeScope

theorem Within.adcWindow {codes temps rpms : List Nat} (h : s.Within M t) (hm : adcWindowScope.le M = true := by decide +kernel) :
    s.Within M (t.adcWindow codes temps rpms) := by
  refine h.andThen hm fun h => ?_
  unfold State.adcWindow
  exact .ite h h.adcTake

def movRestartScope : Scope := scope [] [V.PAGER_STOP] ||| movRestartDueScope ||| injFiredScope ||| errScope

theorem Within.movRestart {q : Nat} (h : s.Within M t) (hm : movRestartScope.le M = true := by decide +kernel) :
    s.Within M (t.movRestart q) := by
  refine h.andThen hm fun h => ?_
  unfold State.movRestart
  extract_lets _ s1 s2
  have hs1 : t.Within movRestartScope s1 := .ite h.injFired h
  have hs2 : t.Within movRestartScope s2 := hs1.err.wr
  exact .ite h (.ite h.movRestartDue hs2.wr.movRestartDue)

def movBeatTimeoutScope : Scope := movBusErrorScope

theorem Within.movBeatTimeout {q : Nat} (h : s.Within M t) (hm : movBeatTimeoutScope.le M = true := by decide +kernel) :
    s.Within M (t.movBeatTimeout q) := by
  refine h.andThen hm fun h => ?_
  unfold State.movBeatTimeout
  exact h.movBusError

def movBusErrorCmdScope : Scope := movBusErrorScope

theorem Within.movBusErrorCmd {q cause : Nat} (h : s.Within M t) (hm : movBusErrorCmdScope.le M = true := by decide +kernel) :
    s.Within M (t.movBusErrorCmd q cause) := by
  refine h.andThen hm fun h => ?_
  unfold State.movBusErrorCmd
  exact h.movBusError

def movDrainEndScope : Scope := movEndingScope ||| movSettleScope ||| movContinueScope

theorem Within.movDrainEnd {q p c : Nat} (h : s.Within M t) (hm : movDrainEndScope.le M = true := by decide +kernel) :
    s.Within M (t.movDrainEnd q p c) := by
  refine h.andThen hm fun h => ?_
  unfold State.movDrainEnd
  extract_lets s1
  have hs1 : t.Within movDrainEndScope s1 := h.setMov.movSettle
  exact .ite h (.ite h.movEnding (.ite hs1.wr.movContinue.movSettle hs1))

def asReqScope : Scope := scope [] [V.HBM_REQ]

theorem Within.asReq {r q : Nat} {f : State → State} (h : s.Within M t) (H : ∀ u, s.Within M u → s.Within M (f u))
    (hm : asReqScope.le M = true := by decide +kernel) : s.Within M (t.asReq r q f) := (H _ (h.wr (Scope.part hm))).wr (Scope.part hm)

def movFetchNoteScope : Scope := asReqScope ||| noteReadScope

theorem Within.movFetchNote {q p c pc : Nat} (h : s.Within M t) (hm : movFetchNoteScope.le M = true := by decide +kernel) :
    s.Within M (t.movFetchNote q p c pc) := by
  refine h.andThen hm fun h => ?_
  unfold State.movFetchNote
  exact h.asReq (fun _ hu => hu.noteRead)

def movStopScope : Scope := scope [] [V.MOV_DATAC] ||| movEndingScope ||| errScope

theorem Within.movStop {q p c status word : Nat} (h : s.Within M t) (hm : movStopScope.le M = true := by decide +kernel) :
    s.Within M (t.movStop q p c status word) := by
  refine h.andThen hm fun h => ?_
  unfold State.movStop
  extract_lets s1
  have hs1 : t.Within movStopScope s1 := h.movEnding
  exact .ite hs1.wr hs1.err

def setPosScope : Scope := scope [] [F.MOV_CH_OFF_OFFSET, F.MOV_CH_POS_BEAT, F.MOV_CH_POS_I2, F.MOV_CH_POS_I1, F.MOV_CH_POS_I0]

theorem Within.setPos {q p c i0 i1 i2 off : Nat} (h : s.Within M t) (hm : setPosScope.le M = true := by decide +kernel) :
    s.Within M (t.setPos q p c i0 i1 i2 off) := by
  refine h.andThen hm fun h => ?_
  unfold State.setPos
  exact h.wr.wr.wr.wr.wr

def movFetchScope : Scope := scope [] [F.MOV_CH_STAT_PC] ||| setPosScope ||| movStopScope ||| movFetchNoteScope ||| sampleBeginScope

theorem Within.movFetch {q p c pc : Nat} (h : s.Within M t) (hm : movFetchScope.le M = true := by decide +kernel) :
    s.Within M (t.movFetch q p c pc) := by
  refine h.andThen hm fun h => ?_
  unfold State.movFetch
  extract_lets s1 _ s2
  have hs1 : t.Within movFetchScope s1 := h.wr.setPos
  have hs2 : t.Within movFetchScope s2 := .ite hs1.movFetchNote hs1
  exact .ite hs1.movStop (.ite hs2.sampleBegin hs2.movStop)

def movNextScope : Scope := movFetchScope

theorem Within.movNext {q p c next : Nat} (h : s.Within M t) (hm : movNextScope.le M = true := by decide +kernel) :
    s.Within M (t.movNext q p c next) := by
  refine h.andThen hm fun h => ?_
  unfold State.movNext
  exact h.sampleEnd.movFetch

def movLinkScope : Scope := movNextScope

theorem Within.movLink {q p c : Nat} (h : s.Within M t) (hm : movLinkScope.le M = true := by decide +kernel) : s.Within M (t.movLink q p c)
    := by
  refine h.andThen hm fun h => ?_
  unfold State.movLink
  split
  · exact h
  · exact h.movNext

def evtAddScope : Scope := scope [] [F.MOV_EVT_COUNT, V.EVT_SIGC, V.EVT_SIG]

theorem Within.evtAdd {q p k n : Nat} (h : s.Within M t) (hm : evtAddScope.le M = true := by decide +kernel) :
    s.Within M (t.evtAdd q p k n) := by
  refine h.andThen hm fun h => ?_
  unfold State.evtAdd
  exact h.wr.wr.bump

def movSignalScope : Scope := evtAddScope ||| vectorScope ||| trigAddScope ||| movNextScope

theorem Within.movSignal {q p c : Nat} (h : s.Within M t) (hm : movSignalScope.le M = true := by decide +kernel) :
    s.Within M (t.movSignal q p c) := by
  refine h.andThen hm fun h => ?_
  unfold State.movSignal
  split
  · exact h
  · extract_lets _ t1
    have ht1 : t.Within movSignalScope t1 := by
      unfold t1
      split
      · exact h.evtAdd
      · exact h.vector
      · exact h.trigAdd
    exact ht1.movNext

def movWaitMetScope : Scope := movNextScope

theorem Within.movWaitMet {q p c : Nat} (h : s.Within M t) (hm : movWaitMetScope.le M = true := by decide +kernel) :
    s.Within M (t.movWaitMet q p c) := by
  refine h.andThen hm fun h => ?_
  unfold State.movWaitMet
  extract_lets
  exact .ite h.setMov.movNext h

def movWaitScope : Scope := movNextScope

theorem Within.movWait {q p c : Nat} (h : s.Within M t) (hm : movWaitScope.le M = true := by decide +kernel) : s.Within M (t.movWait q p c)
    := by
  refine h.andThen hm fun h => ?_
  unfold State.movWait
  split
  · exact h
  · exact .ite h.movNext h.setMov

def movDiffScope : Scope := scope [] [V.MOV_MISM, V.MOV_FWORD, V.MOV_FIRST]

theorem Within.movDiff {q p c off : Nat} {ds : List Nat} (h : s.Within M t) (hm : movDiffScope.le M = true := by decide +kernel) :
    s.Within M (t.movDiff q p c off ds) := by
  refine h.andThen hm fun h => ?_
  unfold State.movDiff
  extract_lets s1
  have hs1 : t.Within movDiffScope s1 := h.wr
  split
  · exact h
  · exact .ite hs1 hs1.wr.wr

def runNoteScope : Scope := noteReadScope ||| slabSpanScope

theorem Within.runNote {q p space : Nat} {a : ℤ} {n : Nat} (h : s.Within M t) (hm : runNoteScope.le M = true := by decide +kernel) :
    s.Within M (t.runNote q p space a n) := by
  refine h.andThen hm fun h => ?_
  unfold State.runNote
  exact .ite h.noteRead (.ite h.slabSpan h)

def movAfterScope : Scope := movNextScope ||| movBusErrorScope

theorem Within.movAfter {q p c next : Nat} {e' : RunEnd} (h : s.Within M t) (hm : movAfterScope.le M = true := by decide +kernel) :
    s.Within M (t.movAfter q p c next e') := by
  refine h.andThen hm fun h => ?_
  unfold State.movAfter
  extract_lets s1
  have hs1 : t.Within movAfterScope s1 := h.wr
  split
  · exact hs1
  · exact hs1.movNext
  · exact hs1.movStop
  · exact hs1.movBusError

def movUnitScope : Scope := scope [] [V.HBM_REQ, V.MOV_ROT] ||| unitStartScope

theorem Within.movUnit {q p c : Nat} (h : s.Within M t) (hm : movUnitScope.le M = true := by decide +kernel) : s.Within M (t.movUnit q p c)
    := by
  refine h.andThen hm fun h => ?_
  unfold State.movUnit
  exact h.unitStart.wr.wr

def movCompareScope : Scope := movUnitScope ||| movAfterScope ||| runNoteScope ||| movDiffScope ||| hostFailScope

theorem Within.movCompare {q p c : Nat} {host : List Byte} (h : s.Within M t) (hm : movCompareScope.le M = true := by decide +kernel) :
    s.Within M (t.movCompare q p c host) := by
  refine h.andThen hm fun h => ?_
  unfold State.movCompare
  extract_lets unit pc off
  have hunit : t.Within movCompareScope unit := h.movUnit
  split
  · exact h
  · extract_lets sa sb const x y n m ra rb a b
    have ha : t.Within movCompareScope a := hunit.runNote
    have hb : t.Within movCompareScope b := .ite ha ha.runNote
    clear_value ra rb
    refine .ite h (.ite hunit.movAfter ?_)
    split
    · exact hb.movDiff.setPos.movAfter
    · exact hb.hostFail.movAfter
    · exact hb.hostFail.movAfter
    · exact hb.setPos.movAfter
    · exact hb.setPos.movAfter
    · exact hb.setPos.movAfter

def compareRowScope : Scope := readGateScope ||| movCompareScope

theorem Within.compareRow {q p c : Nat} {host : List Byte} (h : s.Within M t) (hm : compareRowScope.le M = true := by decide +kernel) :
    s.Within M (t.compareRow q p c host) := by
  refine h.andThen hm fun h => ?_
  unfold State.compareRow
  exact .ite (h.readGate (fun _ hu => hu.movCompare)) h.movCompare

def movFillScope : Scope := movUnitScope ||| movAfterScope ||| hostFailScope ||| runWriteScope

theorem Within.movFill {q p c : Nat} (h : s.Within M t) (hm : movFillScope.le M = true := by decide +kernel) : s.Within M (t.movFill q p c)
    := by
  refine h.andThen hm fun h => ?_
  unfold State.movFill
  extract_lets t1
  have ht1 : t.Within movFillScope t1 := h.movUnit
  split
  · exact h
  · extract_lets
    split
    · exact h
    · split
      · exact ht1.movAfter
      · split
        · exact ht1.hostFail.movAfter
        · split
          · next u e =>
              have hu : t.Within movFillScope u := ht1.runWrite (e := e)
              exact hu.setPos.movAfter
          · exact ht1.movAfter

def moveUnspecifiedScope : Scope := bytesUnspecifiedScope

theorem Within.moveUnspecified {q p a b : Nat} {d : ℤ} {m : Nat} (h : s.Within M t)
    (hm : moveUnspecifiedScope.le M = true := by decide +kernel) : s.Within M (t.moveUnspecified q p a b d m) := by
  refine h.andThen hm fun h => ?_
  unfold State.moveUnspecified
  split
  · exact h
  · refine h.foldl fun _ _ hu => by
      extract_lets
      exact hu.bytesUnspecified

def copyPartScope : Scope := runNoteScope ||| hostFailScope ||| runWriteScope

theorem Within.copyPart {q p ss ds : Nat} {a d : ℤ} {n : Nat} {host : List Byte} (h : s.Within M t)
    (hm : copyPartScope.le M = true := by decide +kernel) : s.Within M ((t.copyPart q p ss ds a d n host).1) := by
  refine h.andThen hm fun h => ?_
  unfold State.copyPart
  extract_lets r noted
  have hnoted : t.Within copyPartScope noted := h.runNote
  clear_value r
  split
  · dsimp only
    exact hnoted.hostFail
  · split
    · dsimp only
      exact hnoted.hostFail
    · split
      · next v e => exact hnoted.runWrite (e := e)
      · exact hnoted
  · split
    · dsimp only
      exact hnoted.hostFail
    · split
      · next v e => exact hnoted.runWrite (e := e)
      · exact hnoted

def moveIssueScope : Scope := copyPartScope ||| moveUnspecifiedScope

theorem Within.moveIssue {q p a b k left : Nat} {i : Nat × Nat × Nat} {off : Nat} {host : List Byte} (h : s.Within M t)
    (hm : moveIssueScope.le M = true := by decide +kernel) : s.Within M (t.moveIssue q p a b k left i off host).1 := by
  induction k generalizing t left i off host with
  | zero => exact h
  | succ k ih =>
    unfold State.moveIssue
    extract_lets ss ds n m x d
    split
    · exact h
    · split
      · exact h
      · have hu : s.Within M (((t.copyPart q p ss ds (x + off) (d + off) m host).1).moveUnspecified q p a b (d + off)
            (t.copyPart q p ss ds (x + off) (d + off) m host).2.1) := (h.copyPart (Scope.part hm)).moveUnspecified (Scope.part hm)
        dsimp only
        split
        · exact hu
        · split
          · exact hu
          · split
            · exact hu
            · exact ih hu

def movMoveScope : Scope := moveIssueScope ||| movUnitScope ||| movAfterScope

theorem Within.movMove {q p c : Nat} {host : List Byte} (h : s.Within M t) (hm : movMoveScope.le M = true := by decide +kernel) :
    s.Within M (t.movMove q p c host) := by
  refine h.andThen hm fun h => ?_
  unfold State.movMove
  split
  · exact h
  · split
    · exact h
    · split
      · next u _ _ _ e =>
          have hu : t.Within movMoveScope u := h.movUnit.moveIssue.of_fst e
          exact hu.setPos.movAfter

def moveRowScope : Scope := readGateScope ||| movMoveScope

theorem Within.moveRow {q p c : Nat} {host : List Byte} (h : s.Within M t) (hm : moveRowScope.le M = true := by decide +kernel) :
    s.Within M (t.moveRow q p c host) := by
  refine h.andThen hm fun h => ?_
  unfold State.moveRow
  exact .ite (h.readGate (fun _ hu => hu.movMove)) h.movMove

def movStartScope : Scope := scope [] [V.MOV_FIRST, V.MOV_MISM, V.MOV_TAG, V.MOV_START_E, V.MOV_WROTE, V.MOV_FWORD] ||| cmdDoneScope
  ||| cmdStartScope ||| movFetchScope

theorem Within.movStart {q p entry : Nat} (h : s.Within M t) (hm : movStartScope.le M = true := by decide +kernel) :
    s.Within M (t.movStart q p entry) := by
  refine h.andThen hm fun h => ?_
  unfold State.movStart
  extract_lets _ _ s1 s2 s3
  have hs1 : t.Within movStartScope s1 := h.cmdStart
  have hs2 : t.Within movStartScope s2 := hs1.wr.wr.wr.wr
  have hs3 : t.Within movStartScope s3 := hs2.wr.setMov.eraseRegs [V.MOV_WROTE] (fun _ _ hn => by simp only [List.forall_mem_cons] at hn; simp [hn])
  exact .ite h (.ite h.ringStop (.ite h.cmdStart.cmdDone (.ite h hs3.movFetch)))

def prkStatScope : Scope := scope [] [F.PRK_STAT_COUNT, F.PRK_STAT_OVF] ||| countLocalScope

theorem Within.prkStat {q p c n : Nat} (h : s.Within M t) (hm : prkStatScope.le M = true := by decide +kernel) :
    s.Within M (t.prkStat q p c n) := by
  refine h.andThen hm fun h => ?_
  unfold State.prkStat
  exact .ite h h.bumpOvf.countLocal

def parkServiceFaultScope : Scope := scope [] [F.PRK_QUEUE_FAULTED] ||| errScope ||| setParkedScope ||| nackScope ||| prkStatScope

theorem Within.parkServiceFault {q : Nat} (h : s.Within M t) (hm : parkServiceFaultScope.le M = true := by decide +kernel) :
    s.Within M (t.parkServiceFault q) := by
  refine h.andThen hm fun h => ?_
  unfold State.parkServiceFault
  extract_lets _ s1
  have hs1 : t.Within parkServiceFaultScope s1 := h.setParked.wr.err
  exact .ite h (hs1.foldl (fun _ _ hu => hu.prkStat.nack))

def replyPScope : Scope := sendScope

theorem Within.replyP {q op status : Nat} {k : Packet} {pl : List Byte} (h : s.Within M t)
    (hm : replyPScope.le M = true := by decide +kernel) : s.Within M (t.replyP q op status k pl) := by
  refine h.andThen hm fun h => ?_
  unfold State.replyP
  extract_lets
  exact h.send

def parkDoScope : Scope := nackScope ||| prkStatScope ||| writePlacesScope ||| replyPScope ||| notePlacesScope

theorem Within.parkDo {q : Nat} {r : Parked} (h : s.Within M t) (hm : parkDoScope.le M = true := by decide +kernel) :
    s.Within M (t.parkDo q r) := by
  refine h.andThen hm fun h => ?_
  unfold State.parkDo
  extract_lets k p d noted
  have hnoted : t.Within parkDoScope noted := h.notePlaces
  clear_value d
  refine .ite h.prkStat.nack ?_
  split
  · split
    exact h.writePlaces.countBeats.prkStat.prkStat.prkStat.replyP
  · split
    · exact hnoted.prkStat.replyP
    · exact hnoted.prkStat.nack

def parkApplyScope : Scope := unitScope ||| asReqScope ||| parkDoScope ||| setParkedScope

theorem Within.parkApply {q p : Nat} (h : s.Within M t) (hm : parkApplyScope.le M = true := by decide +kernel) :
    s.Within M (t.parkApply q p) := by
  refine h.andThen hm fun h => ?_
  unfold State.parkApply
  split
  · exact h
  · exact .ite h (h.unit (fun _ hu => hu.asReq (fun _ hu2 => hu2.setParked.parkDo)))

def e2eRecordScope : Scope := scope [] [V.E2E_INJ] ||| errScope

theorem Within.e2eRecord {q : Nat} {k : Packet} {c : Cause} (h : s.Within M t) (hm : e2eRecordScope.le M = true := by decide +kernel) :
    s.Within M (t.e2eRecord q k c) := by
  refine h.andThen hm fun h => ?_
  unfold State.e2eRecord
  exact h.err.wr

def takeSvcScope : Scope := scope [.svc] []

theorem Within.takeSvc {q port : Nat} {k : Packet} (h : s.Within M t) (hm : takeSvcScope.le M = true := by decide +kernel) :
    s.Within M (t.takeSvc q port k) := by
  refine h.andThen hm fun h => ?_
  unfold State.takeSvc
  exact h.svc

def atServiceScope : Scope := takeSvcScope ||| e2eRecordScope ||| discardScope

theorem Within.atService {q port : Nat} {k : Packet} {f : State → State} (h : s.Within M t) (H : ∀ u, s.Within M u → s.Within M (f u))
    (hm : atServiceScope.le M = true := by decide +kernel) : s.Within M (t.atService q port k f) := by
  unfold State.atService
  extract_lets u
  have hu : s.Within M u := h.takeSvc (Scope.part hm)
  split
  · exact (hu.e2eRecord (Scope.part hm)).discard (Scope.part hm)
  · exact H _ hu

def parkInScope : Scope := scope [] [F.PRK_QUEUE_PEAK] ||| atServiceScope ||| prkStatScope ||| setParkedScope

theorem Within.parkIn {q : Nat} {k : Packet} (h : s.Within M t) (hm : parkInScope.le M = true := by decide +kernel) :
    s.Within M (t.parkIn q k) := by
  refine h.andThen hm fun h => ?_
  unfold State.parkIn
  extract_lets
  refine h.atService fun _ hu => by
    split
    · exact hu.prkStat.nack
    · extract_lets s1
      have hs1 : t.Within parkInScope s1 := hu.setParked
      exact .ite hu.prkStat.nack (.ite hu.prkStat.nack hs1.wr)

def parkReadScope : Scope := parkInScope

theorem Within.parkRead {q : Nat} {k : Packet} (h : s.Within M t) (hm : parkReadScope.le M = true := by decide +kernel) :
    s.Within M (t.parkRead q k) := by
  refine h.andThen hm fun h => ?_
  unfold State.parkRead
  exact .ite h.parkIn h

def parkWriteScope : Scope := parkInScope

theorem Within.parkWrite {q : Nat} {k : Packet} (h : s.Within M t) (hm : parkWriteScope.le M = true := by decide +kernel) :
    s.Within M (t.parkWrite q k) := by
  refine h.andThen hm fun h => ?_
  unfold State.parkWrite
  exact .ite h.parkIn h

def gramProgressTimeoutScope : Scope := scope [] [F.GRM_FAULT_VALID, F.GRM_FAULT_OPCODE, F.GRM_FAULT_PART, F.GRM_FAULT_FAULTED]
  ||| injFiredScope ||| gramStopScope

theorem Within.gramProgressTimeout {q p : Nat} (h : s.Within M t) (hm : gramProgressTimeoutScope.le M = true := by decide +kernel) :
    s.Within M (t.gramProgressTimeout q p) := by
  refine h.andThen hm fun h => ?_
  unfold State.gramProgressTimeout
  extract_lets _ s1 s2 s3
  have hs1 : t.Within gramProgressTimeoutScope s1 := .ite h.injFired h
  have hs2 : t.Within gramProgressTimeoutScope s2 := hs1.wr.wr.wr.raise
  have hs3 : t.Within gramProgressTimeoutScope s3 := hs2.err
  exact .ite h (hs3.foldl (fun _ _ hu => .ite hu.gramStop hu))

def gramFaultScope : Scope := gramProgressTimeoutScope

theorem Within.gramFault {q : Nat} (h : s.Within M t) (hm : gramFaultScope.le M = true := by decide +kernel) : s.Within M (t.gramFault q)
    := by
  refine h.andThen hm fun h => ?_
  unfold State.gramFault
  split
  · exact h.gramProgressTimeout
  · exact h

def hbmLockTimeoutScope : Scope := scope [] [F.ARB_HBM_LOG_VALID, F.ARB_HBM_LOG_REQ, F.ARB_HBM_LOG_PC, F.ARB_HBM_LOG_STACK,
  F.ARB_HBM_LOG_FIRES, V.SCRUB_STOP] ||| gramFaultScope

theorem Within.hbmLockTimeout {q l pc req : Nat} (h : s.Within M t) (hm : hbmLockTimeoutScope.le M = true := by decide +kernel) :
    s.Within M (t.hbmLockTimeout q l pc req) := by
  refine h.andThen hm fun h => ?_
  unfold State.hbmLockTimeout
  extract_lets _ s1 s2 s3 s4
  have hs1 : t.Within hbmLockTimeoutScope s1 := .ite h.injFired h
  have hs2 : t.Within hbmLockTimeoutScope s2 := hs1.wr.wr.wr.raise
  have hs3 : t.Within hbmLockTimeoutScope s3 := hs2.bump.countLocal
  have hs4 : t.Within hbmLockTimeoutScope s4 := hs3.err
  exact .ite h (.ite hs4.gramFault (.ite hs4.wr hs4))

def scrubSectorScope : Scope := scope [.badSectors] [] ||| lockedBeatsScope ||| noteCorrectedScope ||| noteSectorScope

theorem Within.scrubSector {stack sector : Nat} (h : s.Within M t) (hm : scrubSectorScope.le M = true := by decide +kernel) :
    s.Within M (t.scrubSector stack sector) := by
  refine h.andThen hm fun h => ?_
  unfold State.scrubSector
  extract_lets _ __src1
  have h__src1 : t.Within scrubSectorScope __src1 := h.noteCorrected.countBeat.lockedBeats
  exact .ite h__src1.badSectors (.ite h.noteSector h)

def scrubNextScope : Scope := scope [] [V.SCRUB_LINE, V.SCRUB_DONE, F.HBM_SCRUB_PASSES]

theorem Within.scrubNext {q l : Nat} (h : s.Within M t) (hm : scrubNextScope.le M = true := by decide +kernel) :
    s.Within M (t.scrubNext q l) := by
  refine h.andThen hm fun h => ?_
  unfold State.scrubNext
  extract_lets _ s1
  have hs1 : t.Within scrubNextScope s1 := h.wr
  exact .ite h.wr (.ite hs1.bump.wr hs1.wr)

def patrolScrubScope : Scope := scrubNextScope ||| asReqScope ||| scrubSectorScope

theorem Within.patrolScrub {q l : Nat} (h : s.Within M t) (hm : patrolScrubScope.le M = true := by decide +kernel) :
    s.Within M (t.patrolScrub q l) := by
  refine h.andThen hm fun h => ?_
  unfold State.patrolScrub
  extract_lets
  exact .ite h ((h.asReq (fun _ hu => hu.countBeat.foldl (fun _ _ hu2 => hu2.scrubSector))).scrubNext)

def lcfLossScope : Scope := linkRetrainScope

theorem Within.lcfLoss {q k : Nat} (h : s.Within M t) (hm : lcfLossScope.le M = true := by decide +kernel) : s.Within M (t.lcfLoss q k)
    := by
  refine h.andThen hm fun h => ?_
  unfold State.lcfLoss
  exact .ite h.linkRetrain h

def ucwWindowScope : Scope := linkRetrainScope

theorem Within.ucwWindow {q k : Nat} (h : s.Within M t) (hm : ucwWindowScope.le M = true := by decide +kernel) :
    s.Within M (t.ucwWindow q k) := by
  refine h.andThen hm fun h => ?_
  unfold State.ucwWindow
  extract_lets _ s1
  have hs1 : t.Within ucwWindowScope s1 := h.wr
  exact .ite hs1.linkRetrain hs1

def degradeSwitchScope : Scope := scope [] [F.LNK_PORT_STAT_LANES, F.LNK_PORT_STAT_DEGRADES, V.LNK_PEER_CTDN] ||| framesBeginScope
  ||| lnkRecordScope

theorem Within.degradeSwitch {q k : Nat} (h : s.Within M t) (hm : degradeSwitchScope.le M = true := by decide +kernel) :
    s.Within M (t.degradeSwitch q k) := by
  refine h.andThen hm fun h => ?_
  unfold State.degradeSwitch
  extract_lets s1 s2
  have hs1 : t.Within degradeSwitchScope s1 := h.wr.wr.framesBegin
  have hs2 : t.Within degradeSwitchScope s2 := h.wr.wr.framesBegin
  exact .ite hs1.bump.lnkRecord (.ite hs2.bump.lnkRecord h)

def uCheckScope : Scope := scope [] [V.LNK_CTDN_U, V.LNK_KEEP] ||| linkRetrainScope

theorem Within.uCheck {q k : Nat} {inj : Bool} (h : s.Within M t) (hm : uCheckScope.le M = true := by decide +kernel) :
    s.Within M (t.uCheck q k inj) := by
  refine h.andThen hm fun h => ?_
  unfold State.uCheck
  extract_lets
  exact .ite h (.ite (.ite h (.ite h.linkRetrain (.ite h h.wr.wr.wr))) (.ite h.linkRetrain h))

def lanesReadScope : Scope := scope [] [V.LNK_LANE_COUNT, F.LNK_LANE_CORR_LAST]

theorem Within.lanesRead {q k : Nat} (h : s.Within M t) (hm : lanesReadScope.le M = true := by decide +kernel) :
    s.Within M (t.lanesRead q k) := by
  refine h.andThen hm fun h => ?_
  unfold State.lanesRead
  exact h.foldl (fun _ _ hu => hu.wr.wr)

def laneWindowScope : Scope := lanesReadScope ||| injFiredScope ||| uCheckScope

theorem Within.laneWindow {q k : Nat} (h : s.Within M t) (hm : laneWindowScope.le M = true := by decide +kernel) :
    s.Within M (t.laneWindow q k) := by
  refine h.andThen hm fun h => ?_
  unfold State.laneWindow
  extract_lets _ s1 _ s2
  have hs1 : t.Within laneWindowScope s1 := h.lanesRead
  have hs2 : t.Within laneWindowScope s2 := .ite hs1.injFired hs1
  exact hs2.setBad.uCheck

def creditStarveScope : Scope := lcfSendScope

theorem Within.creditStarve {q k v : Nat} (h : s.Within M t) (hm : creditStarveScope.le M = true := by decide +kernel) :
    s.Within M (t.creditStarve q k v) := by
  refine h.andThen hm fun h => ?_
  unfold State.creditStarve
  exact .ite h.lcfSend h

def rxFlitScope : Scope := scope [] [V.RX_LEFT, V.INGRESS_OPEN]

theorem Within.rxFlit {q k f : Nat} (h : s.Within M t) (hm : rxFlitScope.le M = true := by decide +kernel) : s.Within M (t.rxFlit q k f)
    := by
  refine h.andThen hm fun h => ?_
  unfold State.rxFlit
  extract_lets _ s1
  have hs1 : t.Within rxFlitScope s1 := h.wr
  exact .ite h (.ite (.ite h h.wr) (.ite hs1.wr hs1))

def regainScope : Scope := scope [] [V.RX_LEFT, V.LNK_LOST_BOUND]

theorem Within.regain {q k n l : Nat} (h : s.Within M t) (hm : regainScope.le M = true := by decide +kernel) :
    s.Within M (t.regain q k n l) := by
  refine h.andThen hm fun h => ?_
  unfold State.regain
  exact .ite h.wr.wr h

def rxFlitsScope : Scope := regainScope ||| rxFlitScope

theorem Within.rxFlits {q k c : Nat} {fs : List Nat} (h : s.Within M t) (hm : rxFlitsScope.le M = true := by decide +kernel) :
    s.Within M (t.rxFlits q k c fs) := by
  refine h.andThen hm fun h => ?_
  unfold State.rxFlits
  extract_lets s1
  have hs1 : t.Within rxFlitsScope s1 := .ite h.regain h
  exact hs1.foldl (fun _ _ hu => hu.rxFlit)

def countSymbolsScope : Scope := scope [] [F.LNK_LANE_CORR_TOTAL, V.LNK_LANE_COUNT]

theorem Within.countSymbols {q k : Nat} {wrong : List Nat} {extra : Nat → Nat} (h : s.Within M t)
    (hm : countSymbolsScope.le M = true := by decide +kernel) : s.Within M (t.countSymbols q k wrong extra) := by
  refine h.andThen hm fun h => ?_
  unfold State.countSymbols
  extract_lets
  refine h.foldl fun _ _ hu => by
    extract_lets
    exact hu.bumpSat.bump

def stompIngressScope : Scope := scope [] [V.INGRESS_OPEN] ||| mapPacketScope

theorem Within.stompIngress {q k : Nat} (h : s.Within M t) (hm : stompIngressScope.le M = true := by decide +kernel) :
    s.Within M (t.stompIngress q k) := by
  refine h.andThen hm fun h => ?_
  unfold State.stompIngress
  exact .ite h.wr.mapPacket h

def rxDamagedScope : Scope := scope [] [V.RX_LEFT, V.LNK_LOST_BOUND] ||| stompIngressScope

theorem Within.rxDamaged {q k c : Nat} (h : s.Within M t) (hm : rxDamagedScope.le M = true := by decide +kernel) :
    s.Within M (t.rxDamaged q k c) := by
  refine h.andThen hm fun h => ?_
  unfold State.rxDamaged
  extract_lets _ _ s1
  have hs1 : t.Within rxDamagedScope s1 := (Within.ite h h.stompIngress).wr
  exact .ite h (.ite hs1.wr hs1)

def codewordScope : Scope := scope [] [V.RX_CW, V.RX_CW_RUN, V.UCW_COUNT, F.LNK_PORT_ERR_UCW, V.RX_LCF_BAD] ||| injFiredScope
  ||| lnkRecordScope ||| rxDamagedScope ||| countSymbolsScope ||| rxFlitsScope

theorem Within.codeword {q k : Nat} {levels : List Nat} (h : s.Within M t) (hm : codewordScope.le M = true := by decide +kernel) :
    s.Within M (t.codeword q k levels) := by
  refine h.andThen hm fun h => ?_
  unfold State.codeword
  extract_lets _ _ _ _ s1 s2 s3 s4 s5
  have hs1 : t.Within codewordScope s1 := .ite h.injFired (.ite h.raise h)
  have hs2 : t.Within codewordScope s2 := hs1.wr
  have hs3 : t.Within codewordScope s3 := hs2.bump.bumpSat.runOf
  have hs4 : t.Within codewordScope s4 := .ite hs3.wr hs3
  have hs5 : t.Within codewordScope s5 := .ite hs4.lnkRecord hs4
  split
  · exact h
  · split
    · exact .ite hs5.rxDamaged hs5
    · extract_lets s6 s7
      have hs6 : t.Within codewordScope s6 := hs2.countSymbols
      have hs7 : t.Within codewordScope s7 := hs6.runOf
      exact .ite hs7.rxFlits hs7

def peerWakeScope : Scope := scope [] [V.LNK_P2] ||| wakeUpScope

theorem Within.peerWake {q k : Nat} (h : s.Within M t) (hm : peerWakeScope.le M = true := by decide +kernel) : s.Within M (t.peerWake q k)
    := by
  refine h.andThen hm fun h => ?_
  unfold State.peerWake
  exact .ite h.wr.wakeUp h

def linkWakeScope : Scope := wakeUpScope

theorem Within.linkWake {q k : Nat} (h : s.Within M t) (hm : linkWakeScope.le M = true := by decide +kernel) : s.Within M (t.linkWake q k)
    := by
  refine h.andThen hm fun h => ?_
  unfold State.linkWake
  extract_lets t1
  have ht1 : t.Within linkWakeScope t1 := h.wakeUp
  exact .ite ht1.wr h

def quietIdleScope : Scope := scope [] [V.LNK_QUIET_REQ] ||| lcfSendScope

theorem Within.quietIdle {q k : Nat} (h : s.Within M t) (hm : quietIdleScope.le M = true := by decide +kernel) :
    s.Within M (t.quietIdle q k) := by
  refine h.andThen hm fun h => ?_
  unfold State.quietIdle
  exact .ite h.lcfSend.wr h

def peerRetrainScope : Scope := linkRetrainScope

theorem Within.peerRetrain {q k : Nat} (h : s.Within M t) (hm : peerRetrainScope.le M = true := by decide +kernel) :
    s.Within M (t.peerRetrain q k) := by
  refine h.andThen hm fun h => ?_
  unfold State.peerRetrain
  exact h.linkRetrain

def goQuietScope : Scope := scope [] [V.QUIET_FRAMES, V.LNK_QUIET_REQ] ||| setLnkScope

theorem Within.goQuiet {q k : Nat} (h : s.Within M t) (hm : goQuietScope.le M = true := by decide +kernel) : s.Within M (t.goQuiet q k)
    := by
  refine h.andThen hm fun h => ?_
  unfold State.goQuiet
  exact h.setLnk.wr.wr

def quietAckScope : Scope := goQuietScope

theorem Within.quietAck {q k : Nat} (h : s.Within M t) (hm : quietAckScope.le M = true := by decide +kernel) : s.Within M (t.quietAck q k)
    := by
  refine h.andThen hm fun h => ?_
  unfold State.quietAck
  extract_lets s1
  have hs1 : t.Within quietAckScope s1 := h.wr
  exact .ite (.ite hs1.goQuiet hs1) h

def quietReqScope : Scope := goQuietScope ||| lcfSendScope

theorem Within.quietReq {q k : Nat} (h : s.Within M t) (hm : quietReqScope.le M = true := by decide +kernel) : s.Within M (t.quietReq q k)
    := by
  refine h.andThen hm fun h => ?_
  unfold State.quietReq
  exact .ite h (.ite h.wr (.ite h.goQuiet (.ite h.lcfSend.goQuiet.wr h)))

def syncReqScope : Scope := scope [] [V.LNK_LIMIT, V.LNK_RCVD, F.LNK_PORT_ERR_SYNCS] ||| lnkRecordScope ||| countLegacyScope

theorem Within.syncReq {q k v sent : Nat} (h : s.Within M t) (hm : syncReqScope.le M = true := by decide +kernel) :
    s.Within M (t.syncReq q k v sent) := by
  refine h.andThen hm fun h => ?_
  unfold State.syncReq
  extract_lets _ s1
  have hs1 : t.Within syncReqScope s1 := h.bump.bump
  exact .ite hs1.bump.countLegacy.lnkRecord h

def peerLimitsScope : Scope := scope [] [V.LNK_PEER_LIMIT]

theorem Within.peerLimits {q k l : Nat} (h : s.Within M t) (hm : peerLimitsScope.le M = true := by decide +kernel) :
    s.Within M (t.peerLimits q k l) := by
  refine h.andThen hm fun h => ?_
  unfold State.peerLimits
  exact h.foldl (fun _ _ hu => hu.wr)

def lcfReceiveScope : Scope := scope [] [F.LNK_PORT_ERR_LCF_BAD, V.LNK_PEER_STATE, V.LNK_PEER_CTDN, V.LNK_PEER_LANES] ||| injFiredScope
  ||| regainScope ||| peerLimitsScope ||| uCheckScope

theorem Within.lcfReceive {q k l : Nat} (h : s.Within M t) (hm : lcfReceiveScope.le M = true := by decide +kernel) :
    s.Within M (t.lcfReceive q k l) := by
  refine h.andThen hm fun h => ?_
  unfold State.lcfReceive
  extract_lets _ _ s1 s2 s3 s4 s5 s6
  have hs1 : t.Within lcfReceiveScope s1 := h.wr.runOf
  have hs2 : t.Within lcfReceiveScope s2 := hs1.runOf
  have hs3 : t.Within lcfReceiveScope s3 := hs2.wr.wr
  have hs4 : t.Within lcfReceiveScope s4 := hs3.wr.wr.wr
  have hs5 : t.Within lcfReceiveScope s5 := hs4.regain
  have hs6 : t.Within lcfReceiveScope s6 := .ite hs5.peerLimits hs5
  exact .ite h (.ite h.injFired.lnkRecord (.ite hs2.bump hs6.setBad.uCheck))

def retrainTimeoutScope : Scope := scope [] [F.LNK_PORT_STAT_PEER_RX_OK] ||| setLnkScope

theorem Within.retrainTimeout {q k : Nat} (h : s.Within M t) (hm : retrainTimeoutScope.le M = true := by decide +kernel) :
    s.Within M (t.retrainTimeout q k) := by
  refine h.andThen hm fun h => ?_
  unfold State.retrainTimeout
  exact .ite h.setLnk.wr h

def framesStartScope : Scope := framesBeginScope

theorem Within.framesStart {q k : Nat} (h : s.Within M t) (hm : framesStartScope.le M = true := by decide +kernel) :
    s.Within M (t.framesStart q k) := by
  refine h.andThen hm fun h => ?_
  unfold State.framesStart
  exact .ite h.framesBegin h

def x2SlotEndScope : Scope := scope [] [F.LNK_PORT_STAT_LANES, V.LNK_SLOT] ||| framesStartScope ||| rxBeginScope

theorem Within.x2SlotEnd {q k : Nat} (h : s.Within M t) (hm : x2SlotEndScope.le M = true := by decide +kernel) :
    s.Within M (t.x2SlotEnd q k) := by
  refine h.andThen hm fun h => ?_
  unfold State.x2SlotEnd
  extract_lets
  exact .ite h.wr.wr.rxBegin.framesStart h

def linkTrainScope : Scope := scope [] [F.LNK_PORT_STAT_RATE, V.LNK_ATTEMPT, F.LNK_PORT_STAT_PEER_RX_OK, V.LNK_SLOT, F.LNK_PORT_STAT_LANES,
  V.LNK_PEER_BAD, F.LNK_LANE_CTLE] ||| setLnkScope ||| rxBeginScope ||| setBadScope

theorem Within.linkTrain {q k a : Nat} (h : s.Within M t) (hm : linkTrainScope.le M = true := by decide +kernel) :
    s.Within M (t.linkTrain q k a) := by
  refine h.andThen hm fun h => ?_
  unfold State.linkTrain
  extract_lets s1 s2 s3
  have hs1 : t.Within linkTrainScope s1 := h.setLnk.wr.wr
  have hs2 : t.Within linkTrainScope s2 := hs1.wr.wr.wr
  have hs3 : t.Within linkTrainScope s3 := hs2.wr.setBad.rxBegin
  exact hs3.foldl (fun _ _ hu => hu.wr)

def attemptTimeoutScope : Scope := linkTrainScope ||| linkDownScope

theorem Within.attemptTimeout {q k : Nat} (h : s.Within M t) (hm : attemptTimeoutScope.le M = true := by decide +kernel) :
    s.Within M (t.attemptTimeout q k) := by
  refine h.andThen hm fun h => ?_
  unfold State.attemptTimeout
  extract_lets
  exact .ite (.ite h.linkTrain h.linkDown) h

def enterUpScope : Scope := scope [] [F.LNK_PORT_STAT_LANES, V.LNK_PEER_LIMIT, V.LNK_LIMIT, V.LNK_RCVD, V.LNK_SENT] ||| setLnkScope
  ||| setBadScope ||| portOpenScope

theorem Within.enterUp {q k : Nat} (h : s.Within M t) (hm : enterUpScope.le M = true := by decide +kernel) : s.Within M (t.enterUp q k)
    := by
  refine h.andThen hm fun h => ?_
  unfold State.enterUp
  extract_lets _ s1 s2 s3
  have hs1 : t.Within enterUpScope s1 := h.setLnk.wr
  have hs2 : t.Within enterUpScope s2 := .ite hs1 hs1.setBad
  have hs3 : t.Within enterUpScope s3 := hs2.foldl (fun _ _ hu => hu.wr.wr.wr.wr)
  exact .ite hs3 hs3.portOpen

def alignDoneScope : Scope := enterUpScope

theorem Within.alignDone {q k : Nat} (h : s.Within M t) (hm : alignDoneScope.le M = true := by decide +kernel) :
    s.Within M (t.alignDone q k) := by
  refine h.andThen hm fun h => ?_
  unfold State.alignDone
  exact .ite h (.ite (.ite h.enterUp h) (.ite h.enterUp h))

def trainLanesScope : Scope := scope [.free] [F.LNK_LANE_POL, F.LNK_LANE_CTLE]

theorem Within.trainLanes {q k : Nat} (h : s.Within M t) (hm : trainLanesScope.le M = true := by decide +kernel) :
    s.Within M (t.trainLanes q k) := by
  refine h.andThen hm fun h => ?_
  unfold State.trainLanes
  refine h.foldl fun _ _ hu => by
    extract_lets _ t1
    have ht1 : t.Within trainLanesScope t1 := hu.freshen.wr
    exact .ite ht1.wr ht1

def trainEndScope : Scope := framesStartScope ||| setLnkScope ||| trainLanesScope

theorem Within.trainEnd {q k : Nat} (h : s.Within M t) (hm : trainEndScope.le M = true := by decide +kernel) : s.Within M (t.trainEnd q k)
    := by
  refine h.andThen hm fun h => ?_
  unfold State.trainEnd
  exact .ite h.trainLanes.setLnk.framesStart h

def signalDetectScope : Scope := linkTrainScope

theorem Within.signalDetect {q k lanes : Nat} (h : s.Within M t) (hm : signalDetectScope.le M = true := by decide +kernel) :
    s.Within M (t.signalDetect q k lanes) := by
  refine h.andThen hm fun h => ?_
  unfold State.signalDetect
  exact .ite h.linkTrain h

def depthBroadcastScope : Scope := scope [] [V.UPDEPTH]

theorem Within.depthBroadcast {q : Nat} (h : s.Within M t) (hm : depthBroadcastScope.le M = true := by decide +kernel) :
    s.Within M (t.depthBroadcast q) := by
  refine h.andThen hm fun h => ?_
  unfold State.depthBroadcast
  exact h.foldl (fun _ _ hu => .ite hu (hu.foldl (fun _ _ hu2 => hu2.foldl (fun _ _ hu3 => hu3.wr))))

def flushEndScope : Scope := scope [] [F.COR_PORT_FLUSHING] ||| portOpenScope

theorem Within.flushEnd {q k : Nat} (h : s.Within M t) (hm : flushEndScope.le M = true := by decide +kernel) : s.Within M (t.flushEnd q k)
    := by
  refine h.andThen hm fun h => ?_
  unfold State.flushEnd
  extract_lets s1
  have hs1 : t.Within flushEndScope s1 := h.wr
  exact .ite (.ite hs1.portOpen hs1) h

def outTakeScope : Scope := scope [.mitEgress, .reasm] []

theorem Within.outTake {q o : Nat} {r : Reas} (h : s.Within M t) (hm : outTakeScope.le M = true := by decide +kernel) :
    s.Within M (t.outTake q o r) := by
  refine h.andThen hm fun h => ?_
  unfold State.outTake
  extract_lets
  exact .ite h.mitEgress h.reasm

def samplePacketScope : Scope := scope [] [V.PS_COUNT] ||| samplePutScope

theorem Within.samplePacket {q part port unit id addr latency wait began : Nat} (h : s.Within M t)
    (hm : samplePacketScope.le M = true := by decide +kernel) : s.Within M (t.samplePacket q part port unit id addr latency wait began)
    := by
  refine h.andThen hm fun h => ?_
  unfold State.samplePacket
  extract_lets _ s1
  have hs1 : t.Within samplePacketScope s1 := h.wr
  exact .ite (.ite hs1.samplePut hs1) h

def mirLostScope : Scope := scope [] [F.COR_MIR_STAT_LOST]

theorem Within.mirLost {q i : Nat} (h : s.Within M t) (hm : mirLostScope.le M = true := by decide +kernel) : s.Within M (t.mirLost q i)
    := by
  refine h.andThen hm fun h => ?_
  unfold State.mirLost
  exact h.bump

def mirDeliverScope : Scope := scope [] [F.COR_MIR_PTR_PROD, V.MIR_SEQ] ||| mirLostScope ||| ringWriteScope ||| mirVectorScope
  ||| hostFailScope ||| sendScope

theorem Within.mirDeliver {q i taken : Nat} {bs : List Byte} (h : s.Within M t) (hm : mirDeliverScope.le M = true := by decide +kernel) :
    s.Within M (t.mirDeliver q i taken bs) := by
  refine h.andThen hm fun h => ?_
  unfold State.mirDeliver
  extract_lets
  split
  · exact h.emit
  · split
    · exact h.mirLost
    · split
      · next u e =>
          have hu : t.Within mirDeliverScope u := h.ringWrite (e := e)
          exact hu.bump.mirVector
      · exact h.hostFail.mirLost
  · exact .ite h.mirLost h.bump.send
  · exact h

def mirOneScope : Scope := scope [] [V.MIR_COUNT, F.COR_MIR_STAT_TAKEN] ||| mirDeliverScope

theorem Within.mirOne {q port dir : Nat} {k : Packet} {disc : Option Cause} {depth wait i : Nat} (h : s.Within M t)
    (hm : mirOneScope.le M = true := by decide +kernel) : s.Within M (t.mirOne q port dir k disc depth wait i) := by
  refine h.andThen hm fun h => ?_
  unfold State.mirOne
  extract_lets _ _ s1
  have hs1 : t.Within mirOneScope s1 := h.wr
  exact .ite (.ite hs1.wr.mirDeliver hs1) h

def mirrorScope : Scope := mirOneScope

theorem Within.mirror {q port dir : Nat} {k : Packet} {disc : Option Cause} {depth wait : Nat} (h : s.Within M t)
    (hm : mirrorScope.le M = true := by decide +kernel) : s.Within M (t.mirror q port dir k disc depth wait) := by
  refine h.andThen hm fun h => ?_
  unfold State.mirror
  exact h.foldl (fun _ _ hu => hu.mirOne)

def putFlitsScope : Scope := scope [.out] [V.TX_RESEND, V.TX_PART, V.TX_FIRST, V.TX_NEXT]

theorem Within.putFlits {q o : Nat} {k : Packet} (h : s.Within M t) (hm : putFlitsScope.le M = true := by decide +kernel) :
    s.Within M (t.putFlits q o k) := by
  refine h.andThen hm fun h => ?_
  unfold State.putFlits
  extract_lets
  exact h.wr.wr.wr.wr.emit

def putWireScope : Scope := scope [] [V.LNK_SENT, V.RTR_FLIT_OUT, V.RTR_PKT_OUT] ||| putFlitsScope ||| mirrorScope ||| samplePacketScope

theorem Within.putWire {q o : Nat} {k : Packet} {inPort admitted since release : Nat} {ingress : Packet} (h : s.Within M t)
    (hm : putWireScope.le M = true := by decide +kernel) : s.Within M (t.putWire q o k inPort admitted since release ingress) := by
  refine h.andThen hm fun h => ?_
  unfold State.putWire
  extract_lets _ _ s1 s2 s3 s4 s5 s6
  have hs1 : t.Within putWireScope s1 := h.bump.putFlits
  have hs2 : t.Within putWireScope s2 := hs1.bump.bump
  have hs3 : t.Within putWireScope s3 := hs2.countLocal.countLocal
  have hs4 : t.Within putWireScope s4 := hs3.countLegacy.countLegacy
  have hs5 : t.Within putWireScope s5 := hs4.mirror
  have hs6 : t.Within putWireScope s6 := hs5.samplePacket
  exact hs6.emit

def ageOutScope : Scope := injUpdateScope ||| countDiscardScope ||| outTakeScope

theorem Within.ageOut {q o : Nat} {r : Reas} (h : s.Within M t) (hm : ageOutScope.le M = true := by decide +kernel) :
    s.Within M (t.ageOut q o r) := by
  refine h.andThen hm fun h => ?_
  unfold State.ageOut
  exact h.outTake.countDiscard.injUpdate

def packetReleaseScope : Scope := ageOutScope ||| putWireScope

theorem Within.packetRelease {q o : Nat} (h : s.Within M t) (hm : packetReleaseScope.le M = true := by decide +kernel) :
    s.Within M (t.packetRelease q o) := by
  refine h.andThen hm fun h => ?_
  unfold State.packetRelease
  split
  · exact h
  · split
    · exact h
    · exact .ite h.ageOut h.outTake.putWire.injUpdate

def countStreamScope : Scope := countLocalScope

theorem Within.countStream {q o : Nat} {h' : Held} {c : Copy} (h : s.Within M t) (hm : countStreamScope.le M = true := by decide +kernel) :
    s.Within M (t.countStream q o h' c) := by
  refine h.andThen hm fun h => ?_
  unfold State.countStream
  extract_lets _ _ _ s1
  have hs1 : t.Within countStreamScope s1 := h.countLocal.countLocal
  exact .ite h (.ite hs1.countLocal.countLocal (.ite h.countLocal h))

def deliverScope : Scope := scope [.reasm, .staging, .svc] [V.LNK_RCVD, V.E2E_INJ] ||| injFiredScope

theorem Within.deliver {q o : Nat} {h' : Held} {c : Copy} (h : s.Within M t) (hm : deliverScope.le M = true := by decide +kernel) :
    s.Within M (t.deliver q o h' c) := by
  refine h.andThen hm fun h => ?_
  unfold State.deliver
  extract_lets _ _ _ _ _ _ s1 _ s2
  have hs1 : t.Within deliverScope s1 := h.bump
  have hs2 : t.Within deliverScope s2 := .ite h.injFired.wr h
  split
  · split
    · extract_lets
      exact h.reasm
    · exact h
  · exact .ite hs1.staging hs2.svc

def streamOutScope : Scope := scope [.bufs] [V.DEFICIT] ||| mirrorScope ||| deliverScope ||| countStreamScope

theorem Within.streamOut {q o v : Nat} {h' : Held} {c : Copy} (h : s.Within M t) (hm : streamOutScope.le M = true := by decide +kernel) :
    s.Within M (t.streamOut q o v h' c) := by
  refine h.andThen hm fun h => ?_
  unfold State.streamOut
  extract_lets s1 s2 s3
  have hs1 : t.Within streamOutScope s1 := h.wr
  have hs2 : t.Within streamOutScope s2 := hs1.bufs
  have hs3 : t.Within streamOutScope s3 := .ite hs2 hs2.mirror
  exact hs3.countStream.deliver

def roundEndScope : Scope := scope [] [V.DEFICIT, V.ROUND_PTR]

theorem Within.roundEnd {q o : Nat} {vs : List Nat} (h : s.Within M t) (hm : roundEndScope.le M = true := by decide +kernel) :
    s.Within M (t.roundEnd q o vs) := by
  refine h.andThen hm fun h => ?_
  unfold State.roundEnd
  extract_lets s1
  have hs1 : t.Within roundEndScope s1 := h.foldl (fun _ _ hu => .ite hu (.ite hu.wr hu.wr))
  exact .ite h hs1.wr

def streamStartScope : Scope := roundEndScope ||| streamOutScope

theorem Within.streamStart {q o b : Nat} (h : s.Within M t) (hm : streamStartScope.le M = true := by decide +kernel) :
    s.Within M (t.streamStart q o b) := by
  refine h.andThen hm fun h => ?_
  unfold State.streamStart
  extract_lets s1
  have hs1 : t.Within streamStartScope s1 := h.roundEnd
  split
  · exact h
  · split
    · exact hs1
    · split
      · exact hs1
      · exact hs1.streamOut

def sramHookScope : Scope := injWithScope ||| sramFireScope

theorem Within.sramHook {q m p a b : Nat} (h : s.Within M t) (hm : sramHookScope.le M = true := by decide +kernel) :
    s.Within M (t.sramHook q m p a b) := by
  refine h.andThen hm fun h => ?_
  unfold State.sramHook
  exact .ite (h.injWith (fun _ hu => hu.sramFire)) h

def linkHeldScope : Scope := scope [.bufs] [V.LINK_SEQ] ||| linkedScope

theorem Within.linkHeld {q : Nat} {h' : Held} (h : s.Within M t) (hm : linkHeldScope.le M = true := by decide +kernel) :
    s.Within M (t.linkHeld q h') := by
  refine h.andThen hm fun h => ?_
  unfold State.linkHeld
  extract_lets _ _ s1 s2
  have hs1 : t.Within linkHeldScope s1 := h.wr
  have hs2 : t.Within linkHeldScope s2 := hs1.bufs
  exact hs2.foldl (fun _ _ hu => hu.linked)

def noteHeaderScope : Scope := scope [] [V.HDR_NS]

theorem Within.noteHeader {q i : Nat} (h : s.Within M t) (hm : noteHeaderScope.le M = true := by decide +kernel) :
    s.Within M (t.noteHeader q i) := by
  refine h.andThen hm fun h => ?_
  unfold State.noteHeader
  exact .ite h.wr h

def admitHeldScope : Scope := noteHeaderScope ||| mirrorScope ||| discardScope ||| grantScope ||| linkHeldScope

theorem Within.admitHeld {q i b : Nat} {h' : Held} {rest : List Held} (h : s.Within M t)
    (hm : admitHeldScope.le M = true := by decide +kernel) : s.Within M (t.admitHeld q i b h' rest) := by
  refine h.andThen hm fun h => ?_
  unfold State.admitHeld
  extract_lets s1 s2
  have hs1 : t.Within admitHeldScope s1 := h.noteHeader
  have hs2 : t.Within admitHeldScope s2 := hs1.staging
  split
  · extract_lets _ _ s3 s4 s5
    have hs3 : t.Within admitHeldScope s3 := hs2.mirror
    have hs4 : t.Within admitHeldScope s4 := hs3.foldl (fun _ _ hu2 => hu2.countDiscard)
    have hs5 : t.Within admitHeldScope s5 := hs4.foldl (fun _ _ hu => hu.discard)
    exact .ite hs5.grant hs5.linkHeld

def bankAdmitScope : Scope := scope [] [V.COR_ADMIT] ||| admitHeldScope

theorem Within.bankAdmit {q i : Nat} (h : s.Within M t) (hm : bankAdmitScope.le M = true := by decide +kernel) :
    s.Within M (t.bankAdmit q i) := by
  refine h.andThen hm fun h => ?_
  unfold State.bankAdmit
  split
  · exact h
  · split
    · exact h
    · split
      · exact h.admitHeld.wr
      · exact h

def admitRowScope : Scope := bankAdmitScope ||| sramHookScope

theorem Within.admitRow {q i : Nat} (h : s.Within M t) (hm : admitRowScope.le M = true := by decide +kernel) : s.Within M (t.admitRow q i)
    := by
  refine h.andThen hm fun h => ?_
  unfold State.admitRow
  extract_lets _ t1
  have ht1 : t.Within admitRowScope t1 := h.bankAdmit
  split
  · exact .ite ht1.sramHook ht1
  · exact ht1

def noticeRepeatScope : Scope := scope [.notices] [] ||| mitOutScope

theorem Within.noticeRepeat (h : s.Within M t) (hm : noticeRepeatScope.le M = true := by decide +kernel) : s.Within M (t.noticeRepeat)
    := by
  refine h.andThen hm fun h => ?_
  unfold State.noticeRepeat
  split
  · exact h
  · exact h.notices.mitOut

def mitCarryResendScope : Scope := roundPutScope ||| mitCarryScope

theorem Within.mitCarryResend {c seq : Nat} (h : s.Within M t) (hm : mitCarryResendScope.le M = true := by decide +kernel) :
    s.Within M (t.mitCarryResend c seq) := by
  refine h.andThen hm fun h => ?_
  unfold State.mitCarryResend
  split
  · extract_lets
    split
    · exact .ite h.mitCarry.roundPut h
    · exact h
  · exact h

def mitPeerResendScope : Scope := roundPutScope ||| mitRowToScope ||| mitColToScope

theorem Within.mitPeerResend {c seq : Nat} (h : s.Within M t) (hm : mitPeerResendScope.le M = true := by decide +kernel) :
    s.Within M (t.mitPeerResend c seq) := by
  refine h.andThen hm fun h => ?_
  unfold State.mitPeerResend
  split
  · extract_lets
    split
    · exact h
    · split
      · exact (h.foldl (fun _ _ hu => hu.mitRowTo)).roundPut
      · exact (h.foldl (fun _ _ hu2 => hu2.mitColTo)).roundPut
      · exact h
  · exact h

def mitCourierLateScope : Scope := mitCarryScope

theorem Within.mitCourierLate {c p : Nat} {e : CtxE} {rd : Round} (h : s.Within M t) (hm : mitCourierLateScope.le M = true := by decide +kernel) :
    s.Within M (Machine.mitCourierLate c p e t rd) := by
  refine h.andThen hm fun h => ?_
  unfold Machine.mitCourierLate
  split
  · exact .ite h h.mitCarry
  · exact h

def mitIgnoredScope : Scope := mitStatScope

theorem Within.mitIgnored {c : Nat} (h : s.Within M t) (hm : mitIgnoredScope.le M = true := by decide +kernel) :
    s.Within M (t.mitIgnored c) := by
  refine h.andThen hm fun h => ?_
  unfold State.mitIgnored
  exact h.mitStat

def atCombinerScope : Scope := takeSvcScope ||| e2eRecordScope ||| countDiscardScope

theorem Within.atCombiner {k : Packet} {f : State → State} (h : s.Within M t) (H : ∀ u, s.Within M u → s.Within M (f u))
    (hm : atCombinerScope.le M = true := by decide +kernel) : s.Within M (t.atCombiner k f) := by
  unfold State.atCombiner
  extract_lets q u
  have hu : s.Within M u := h.takeSvc (Scope.part hm)
  refine .ite h (.ite (hu.countDiscard (Scope.part hm)) ?_)
  split
  · exact (hu.e2eRecord (Scope.part hm)).countDiscard (Scope.part hm)
  · exact H _ hu

def mitCourierScope : Scope := atCombinerScope ||| mitIgnoredScope ||| mitInputAtScope ||| mitCourierLateScope

theorem Within.mitCourier {k : Packet} (h : s.Within M t) (hm : mitCourierScope.le M = true := by decide +kernel) :
    s.Within M (t.mitCourier k) := by
  refine h.andThen hm fun h => ?_
  unfold State.mitCourier
  extract_lets
  refine h.atCombiner fun _ hu => by
    extract_lets s1
    have hs1 : t.Within mitCourierScope s1 := by
      unfold s1
      split
      · split
        · exact .ite hu hu.mitStat.err
        · exact hu
      · exact hu
    split
    · exact .ite hu.mitIgnored (hs1.mitInputAt (fun _ _ hu2 => hu2.mitCourierLate))
    · exact hu.mitIgnored

def mitRow1Scope : Scope := sramHookScope

theorem Within.mitRow1 {k : Packet} {f : State → Packet → State} (h : s.Within M t) (H : ∀ u k, s.Within M u → s.Within M (f u k))
    (hm : mitRow1Scope.le M = true := by decide +kernel) : s.Within M (t.mitRow1 k f) := .ite ((H _ _ h).sramHook hm) (H _ _ h)

def mitColLateScope : Scope := mitColToScope

theorem Within.mitColLate {c p y : Nat} {rd : Round} (h : s.Within M t) (hm : mitColLateScope.le M = true := by decide +kernel) :
    s.Within M (Machine.mitColLate c p y t rd) := by
  refine h.andThen hm fun h => ?_
  unfold Machine.mitColLate
  split
  · exact .ite h h.mitColTo
  · exact h

def mitColumnInScope : Scope := atCombinerScope ||| mitIgnoredScope ||| mitInputAtScope ||| mitColLateScope

theorem Within.mitColumnIn {k : Packet} (h : s.Within M t) (hm : mitColumnInScope.le M = true := by decide +kernel) :
    s.Within M (t.mitColumnIn k) := by
  refine h.andThen hm fun h => ?_
  unfold State.mitColumnIn
  extract_lets
  refine h.atCombiner fun _ hu => by
    split
    · exact .ite hu.mitIgnored (hu.mitInputAt (fun _ _ hu2 => hu2.mitColLate))
    · exact hu.mitIgnored

def mitRowLateScope : Scope := mitRowToScope

theorem Within.mitRowLate {c p x : Nat} {rd : Round} (h : s.Within M t) (hm : mitRowLateScope.le M = true := by decide +kernel) :
    s.Within M (Machine.mitRowLate c p x t rd) := by
  refine h.andThen hm fun h => ?_
  unfold Machine.mitRowLate
  split
  · exact .ite h h.mitRowTo
  · exact h

def mitRowInScope : Scope := atCombinerScope ||| mitIgnoredScope ||| mitInputAtScope ||| mitRowLateScope

theorem Within.mitRowIn {k : Packet} (h : s.Within M t) (hm : mitRowInScope.le M = true := by decide +kernel) : s.Within M (t.mitRowIn k)
    := by
  refine h.andThen hm fun h => ?_
  unfold State.mitRowIn
  extract_lets
  refine h.atCombiner fun _ hu => by
    split
    · exact .ite hu.mitIgnored (hu.mitInputAt (fun _ _ hu2 => hu2.mitRowLate))
    · exact hu.mitIgnored

def mitResultToScope : Scope := mitToRankScope

theorem Within.mitResultTo {c p rank seq aborted : Nat} {m : MVal} (h : s.Within M t)
    (hm : mitResultToScope.le M = true := by decide +kernel) : s.Within M (t.mitResultTo c p rank seq aborted m) := by
  refine h.andThen hm fun h => ?_
  unfold State.mitResultTo
  exact h.mitToRank

def mitMemberLateScope : Scope := mitResultToScope

theorem Within.mitMemberLate {c p rank : Nat} {rd : Round} (h : s.Within M t) (hm : mitMemberLateScope.le M = true := by decide +kernel) :
    s.Within M (Machine.mitMemberLate c p rank t rd) := by
  refine h.andThen hm fun h => ?_
  unfold Machine.mitMemberLate
  refine .ite h ?_
  split <;> exact h.mitResultTo

def mitMemberScope : Scope := atCombinerScope ||| mitIgnoredScope ||| mitInputAtScope ||| mitMemberLateScope

theorem Within.mitMember {k : Packet} (h : s.Within M t) (hm : mitMemberScope.le M = true := by decide +kernel) :
    s.Within M (t.mitMember k) := by
  refine h.andThen hm fun h => ?_
  unfold State.mitMember
  extract_lets
  refine h.atCombiner fun _ hu => by
    split
    · exact .ite hu.mitIgnored (hu.mitInputAt (fun _ _ hu2 => hu2.mitMemberLate))
    · exact hu.mitIgnored

def updPutScope : Scope := scope [.upd] []

theorem Within.updPut {p k i : Nat} {c : UpdChunk} (h : s.Within M t) (hm : updPutScope.le M = true := by decide +kernel) :
    s.Within M (t.updPut p k i c) := by
  refine h.andThen hm fun h => ?_
  unfold State.updPut
  exact h.upd

def applyDoneScope : Scope := updPutScope

theorem Within.applyDone {p entry : Nat} (h : s.Within M t) (hm : applyDoneScope.le M = true := by decide +kernel) :
    s.Within M (t.applyDone p entry) := by
  refine h.andThen hm fun h => ?_
  unfold State.applyDone
  extract_lets
  refine h.foldl fun _ _ hu => by
    split
    · exact hu.updPut
    · exact hu

def gramDoneScope : Scope := gramEndScope ||| applyDoneScope

theorem Within.gramDone {q p op entry : Nat} (h : s.Within M t) (hm : gramDoneScope.le M = true := by decide +kernel) :
    s.Within M (t.gramDone q p op entry) := by
  refine h.andThen hm fun h => ?_
  unfold State.gramDone
  exact (Within.ite h.applyDone h).gramEnd

def gramNonFiniteScope : Scope := scope [] [V.GRM_NF] ||| grmStatScope ||| errScope

theorem Within.gramNonFinite {q p n : Nat} (h : s.Within M t) (hm : gramNonFiniteScope.le M = true := by decide +kernel) :
    s.Within M (t.gramNonFinite q p n) := by
  refine h.andThen hm fun h => ?_
  unfold State.gramNonFinite
  extract_lets s1
  have hs1 : t.Within gramNonFiniteScope s1 := h.grmStat
  exact .ite h (.ite hs1 hs1.wr.err)

def tileSectorsScope : Scope := scope [.badSectors] [] ||| noteOneScope

theorem Within.tileSectors {p : Nat} {stage : Option Nat} {d : Desc} {ws : List ((Nat × Nat) × Nat)} (h : s.Within M t)
    (hm : tileSectorsScope.le M = true := by decide +kernel) : s.Within M (t.tileSectors p stage d ws) := by
  refine h.andThen hm fun h => ?_
  unfold State.tileSectors
  extract_lets
  split
  · exact h
  · refine h.foldl fun _ _ hu => by
      extract_lets
      exact .ite hu (.ite hu.badSectors hu.noteOne)

def optWriteScope : Scope := updWriteScope

theorem Within.optWrite {p off : Nat} {bs : List Byte} (h : s.Within M t) (hm : optWriteScope.le M = true := by decide +kernel)
    (e : t.optWrite p off bs = some u) : s.Within M u := h.updWrite hm e

def elemPutScope : Scope := optWriteScope ||| memWriteScope

theorem Within.elemPut {p : Nat} {stage : Option Nat} {d : Desc} {i j w : Nat} (h : s.Within M t) (hm : elemPutScope.le M = true := by decide +kernel) :
    s.Within M (t.elemPut p stage d i j w) := by
  unfold State.elemPut
  refine h.getD fun u e => ?_
  split at e
  · exact h.optWrite (Scope.part hm) e
  · exact h.memWrite (Scope.part hm) e

def putElemsScope : Scope := elemPutScope

theorem Within.putElems {p : Nat} {stage : Option Nat} {d : Desc} {ws : List ((Nat × Nat) × Nat)} (h : s.Within M t)
    (hm : putElemsScope.le M = true := by decide +kernel) : s.Within M (t.putElems p stage d ws) := by
  refine h.andThen hm fun h => ?_
  unfold State.putElems
  exact (h.wr.foldl (fun _ _ hu => hu.elemPut)).wr

def putTileScope : Scope := putElemsScope ||| tileSectorsScope ||| injFlipScope

theorem Within.putTile {p : Nat} {stage : Option Nat} {d : Desc} {ws : List ((Nat × Nat) × Nat)} (h : s.Within M t)
    (hm : putTileScope.le M = true := by decide +kernel) : s.Within M (t.putTile p stage d ws) := by
  refine h.andThen hm fun h => ?_
  unfold State.putTile
  extract_lets s1 t2
  have hs1 : t.Within putTileScope s1 := h.foldl (fun _ _ hu => hu.countBeat)
  have ht2 : t.Within putTileScope t2 := hs1.tileSectors.wr.putElems.wr
  split
  · split
    · exact ht2.injFlip
    · exact ht2
  · exact hs1.tileSectors.putElems

def freeWorkScope : Scope := scope [.free] [] ||| memWriteScope

theorem Within.freeWork {p entry : Nat} (h : s.Within M t) (hm : freeWorkScope.le M = true := by decide +kernel) :
    s.Within M (t.freeWork p entry) := by
  refine h.andThen hm fun h => ?_
  unfold State.freeWork
  extract_lets _ _ __src1
  have h__src1 : t.Within freeWorkScope __src1 := h.getD fun _ e => h.memWrite (e := e)
  exact .ite h__src1.free h

def gramEffectScope : Scope := scope [] [F.GRM_PROG_DONE] ||| freeWorkScope ||| putTileScope ||| gramNonFiniteScope ||| gramDoneScope

theorem Within.gramEffect {q p : Nat} {u' : Nat × GPass × (Nat × Nat) × Nat} (h : s.Within M t)
    (hm : gramEffectScope.le M = true := by decide +kernel) : s.Within M (t.gramEffect q p u') := by
  refine h.andThen hm fun h => ?_
  unfold State.gramEffect
  extract_lets _ _ _ _ s1 s2
  have hs1 : t.Within gramEffectScope s1 := .ite h.freshen h
  have hs2 : t.Within gramEffectScope s2 := .ite hs1.freeWork hs1
  split
  · extract_lets _ _ _ s3 s4 s5 s6
    have hs3 : t.Within gramEffectScope s3 := hs2.putTile
    have hs4 : t.Within gramEffectScope s4 := hs3.grmStat.grmStat
    have hs5 : t.Within gramEffectScope s5 := .ite hs4.gramNonFinite hs4
    have hs6 : t.Within gramEffectScope s6 := hs5.wr
    exact .ite hs6.grmStat.gramEnd (.ite hs6.gramDone hs6)

def gramUnitScope : Scope := gramProgressTimeoutScope ||| unitScope ||| asReqScope ||| noteReadScope ||| gramEffectScope

theorem Within.gramUnit {q p : Nat} (h : s.Within M t) (hm : gramUnitScope.le M = true := by decide +kernel) : s.Within M (t.gramUnit q p)
    := by
  refine h.andThen hm fun h => ?_
  unfold State.gramUnit
  extract_lets
  split
  · exact h
  · split
    · exact h.gramProgressTimeout
    · split
      · exact h.gramStop
      · split
        · exact h.err.gramStop
        · refine h.unit fun _ hu => by
            refine hu.asReq fun _ hu2 => by
              extract_lets
              split
              · exact hu2.noteRead.gramStop
              · exact (hu2.foldl (fun _ _ hu3 => hu3.noteRead)).gramEffect

def gramRowScope : Scope := gramUnitScope ||| sramHookScope

theorem Within.gramRow {q p : Nat} (h : s.Within M t) (hm : gramRowScope.le M = true := by decide +kernel) : s.Within M (t.gramRow q p)
    := by
  refine h.andThen hm fun h => ?_
  unfold State.gramRow
  exact (Within.ite h.sramHook h).gramUnit

def gramRunScope : Scope := scope [] [F.GRM_PROG_TOTAL, F.GRM_PROG_DONE, V.GRM_TAINT, V.GRM_NF, V.GRM_STEP] ||| cmdStartScope
  ||| gramDoneScope

theorem Within.gramRun {q p op entry : Nat} (h : s.Within M t) (hm : gramRunScope.le M = true := by decide +kernel) :
    s.Within M (t.gramRun q p op entry) := by
  refine h.andThen hm fun h => ?_
  unfold State.gramRun
  extract_lets s1 s2 s3
  have hs1 : t.Within gramRunScope s1 := h.cmdStart
  have hs2 : t.Within gramRunScope s2 := hs1.wr.wr.wr.wr
  have hs3 : t.Within gramRunScope s3 := hs2.wr.wr.wr
  exact .ite hs3.gramEnd (.ite hs3.gramDone hs3)

def gramWaitReleaseScope : Scope := gramRunScope

theorem Within.gramWaitRelease {q p : Nat} (h : s.Within M t) (hm : gramWaitReleaseScope.le M = true := by decide +kernel) :
    s.Within M (t.gramWaitRelease q p) := by
  refine h.andThen hm fun h => ?_
  unfold State.gramWaitRelease
  extract_lets
  exact .ite h (.ite h.cmdStart.gramEnd (.ite h (.ite h.gramRun h.wr.ringStop)))

def gramCmdScope : Scope := scope [] [F.GRM_PART_TAG, F.GRM_PART_OPCODE] ||| gramRunScope

theorem Within.gramCmd {q p op entry : Nat} (h : s.Within M t) (hm : gramCmdScope.le M = true := by decide +kernel) :
    s.Within M (t.gramCmd q p op entry) := by
  refine h.andThen hm fun h => ?_
  unfold State.gramCmd
  extract_lets s1
  have hs1 : t.Within gramCmdScope s1 := h.wr.wr
  exact .ite h (.ite hs1.cmdStart.gramEnd (.ite hs1.ringStop (.ite hs1.gramRun hs1.wr.wr.wr)))

def setTScope : Scope := scope [] [F.UPD_PART_T_T] ||| cmdStartScope ||| cmdDoneScope

theorem Within.setT {q p entry : Nat} (h : s.Within M t) (hm : setTScope.le M = true := by decide +kernel) : s.Within M (t.setT q p entry)
    := by
  refine h.andThen hm fun h => ?_
  unfold State.setT
  extract_lets s1
  have hs1 : t.Within setTScope s1 := h.cmdStart
  exact .ite h (.ite hs1.wr.cmdDone hs1.cmdDone)

def importShardScope : Scope := scope [] [V.SHARD_LOST, V.IMPORTED] ||| updNoteScope ||| optWriteScope

theorem Within.importShard {p k offPages : Nat} {h' : ShardE} (h : s.Within M t) (hm : importShardScope.le M = true := by decide +kernel) :
    s.Within M ((t.importShard p k offPages h').1) := by
  refine h.andThen hm fun h => ?_
  unfold State.importShard
  extract_lets _ _ s1
  have hs1 : t.Within importShardScope s1 := h.updNote
  split
  · exact h
  · split
    · exact h
    · split
      · exact h.updNote
      · extract_lets
        split
        · exact hs1
        · split
          · exact hs1
          · split
            · next u e =>
                have hu : t.Within importShardScope u := hs1.optWrite (e := e)
                exact hu.wr.wr
            · exact hs1

def shardCmdScope : Scope := ringStopScope ||| cmdStartScope ||| cmdDoneScope

theorem Within.shardCmd {q p op entry : Nat} {quiet : Bool} {run : State → Nat → ShardE → State × Nat} (h : s.Within M t)
    (H : ∀ u k e, s.Within M u → s.Within M (run u k e).1) (hm : shardCmdScope.le M = true := by decide +kernel) :
    s.Within M (t.shardCmd q p op entry quiet run) := by
  unfold State.shardCmd
  refine .ite h ?_
  extract_lets k
  split
  · exact h.ringStop (Scope.part hm)
  · exact .ite h ((H _ _ _ (h.cmdStart (Scope.part hm))).cmdDone (Scope.part hm))

def importCmdScope : Scope := shardCmdScope ||| importShardScope

theorem Within.importCmd {q p entry : Nat} (h : s.Within M t) (hm : importCmdScope.le M = true := by decide +kernel) :
    s.Within M (t.importCmd q p entry) := by
  refine h.andThen hm fun h => ?_
  unfold State.importCmd
  exact h.shardCmd fun _ _ _ hu => hu.importShard

def snapshotCmdScope : Scope := shardCmdScope ||| snapshotShardScope

theorem Within.snapshotCmd {q p entry : Nat} (h : s.Within M t) (hm : snapshotCmdScope.le M = true := by decide +kernel) :
    s.Within M (t.snapshotCmd q p entry) := by
  refine h.andThen hm fun h => ?_
  unfold State.snapshotCmd
  exact h.shardCmd fun _ _ _ hu => hu.snapshotShard

def instForgetScope : Scope := scope [] [V.INST_FIRST] ||| instPutScope

theorem Within.instForget {p coll : Nat} {e' : CollE} {step : Nat} {what : Key} (h : s.Within M t)
    (hm : instForgetScope.le M = true := by decide +kernel) : s.Within M (t.instForget p coll e' step what) := by
  refine h.andThen hm fun h => ?_
  unfold State.instForget
  split
  · exact h.instPut
  · exact h.wr

def updStatScope : Scope := scope [] [F.UPD_STAT_COUNT, F.UPD_STAT_OVF] ||| countLocalScope

theorem Within.updStat {p c n : Nat} (h : s.Within M t) (hm : updStatScope.le M = true := by decide +kernel) : s.Within M (t.updStat p c n)
    := by
  refine h.andThen hm fun h => ?_
  unfold State.updStat
  exact h.bumpOvf.countLocal

def publishChunkScope : Scope := shardReadLostScope ||| updStatScope ||| publishToRacksScope

theorem Within.publishChunk {p k i : Nat} {h' : ShardE} {g step flags : Nat} {racks : Bool} (h : s.Within M t)
    (hm : publishChunkScope.le M = true := by decide +kernel) : s.Within M (t.publishChunk p k i h' g step flags racks) := by
  refine h.andThen hm fun h => ?_
  unfold State.publishChunk
  extract_lets
  split
  · exact h
  · split
    · exact h.shardReadLost
    · extract_lets s1 s2
      have hs1 : t.Within publishChunkScope s1 := h.optNote.instPacket
      have hs2 : t.Within publishChunkScope s2 := hs1.updStat
      split
      · exact hs2
      · split
        · exact hs2.publishToRacks
        · exact hs2

def publishShardScope : Scope := scope [] [V.PUB_OVER] ||| publishChunkScope ||| instForgetScope

theorem Within.publishShard {p k arg1 : Nat} {h' : ShardE} (h : s.Within M t) (hm : publishShardScope.le M = true := by decide +kernel) :
    s.Within M (t.publishShard p k arg1 h') := by
  refine h.andThen hm fun h => ?_
  unfold State.publishShard
  extract_lets _ _ _ _ _ _ s1
  have hs1 : t.Within publishShardScope s1 := .ite h.wr h
  exact hs1.foldl (fun _ _ hu => hu.instForget.publishChunk)

def publishCmdScope : Scope := shardCmdScope ||| publishShardScope

theorem Within.publishCmd {q p entry : Nat} (h : s.Within M t) (hm : publishCmdScope.le M = true := by decide +kernel) :
    s.Within M (t.publishCmd q p entry) := by
  refine h.andThen hm fun h => ?_
  unfold State.publishCmd
  refine h.shardCmd fun _ _ _ hu => ?_
  split
  · exact hu
  · exact hu.publishShard

def updateProgressTimeoutScope : Scope := scope [] [F.UPD_FAULT_FAULTED] ||| injFiredScope ||| stepFailScope

theorem Within.updateProgressTimeout {q : Nat} (h : s.Within M t) (hm : updateProgressTimeoutScope.le M = true := by decide +kernel) :
    s.Within M (t.updateProgressTimeout q) := by
  refine h.andThen hm fun h => ?_
  unfold State.updateProgressTimeout
  extract_lets _ s1 s2
  have hs1 : t.Within updateProgressTimeoutScope s1 := .ite h.injFired h
  have hs2 : t.Within updateProgressTimeoutScope s2 := hs1.wr.err
  exact .ite h (hs2.foldl (fun _ _ hu => .ite hu.stepFail hu))

def stepTimerExpiryScope : Scope := stepFailScope

theorem Within.stepTimerExpiry {p : Nat} (h : s.Within M t) (hm : stepTimerExpiryScope.le M = true := by decide +kernel) :
    s.Within M (t.stepTimerExpiry p) := by
  refine h.andThen hm fun h => ?_
  unfold State.stepTimerExpiry
  extract_lets
  split
  · exact h.abortRups.stepEnd.err
  · exact h.stepFail
  · exact h.stepFail
  · exact h

def publishEndScope : Scope := stepEndScope

theorem Within.publishEnd {p : Nat} (h : s.Within M t) (hm : publishEndScope.le M = true := by decide +kernel) :
    s.Within M (t.publishEnd p) := by
  refine h.andThen hm fun h => ?_
  unfold State.publishEnd
  exact .ite h.stepEnd h

def passesEndScope : Scope := publishEndScope

theorem Within.passesEnd {p : Nat} (h : s.Within M t) (hm : passesEndScope.le M = true := by decide +kernel) : s.Within M (t.passesEnd p)
    := by
  refine h.andThen hm fun h => ?_
  unfold State.passesEnd
  exact .ite h.wr.publishEnd h

def completeRupsScope : Scope := instCompleteScope

theorem Within.completeRups {p step : Nat} (h : s.Within M t) (hm : completeRupsScope.le M = true := by decide +kernel) :
    s.Within M (t.completeRups p step) := by
  refine h.andThen hm fun h => ?_
  unfold State.completeRups
  exact h.foldl (fun _ _ hu => .ite hu.instComplete hu)

def stepDecidedScope : Scope := scope [] [F.UPD_CLIP_STEP_TAG, F.UPD_CLIP_K, F.UPD_NORM_NORM, V.CLIP_KNOWN, V.STEP_K, F.UPD_PART_T_T]
  ||| completeRupsScope ||| updStatScope ||| passesEndScope

theorem Within.stepDecided {p : Nat} (h : s.Within M t) (hm : stepDecidedScope.le M = true := by decide +kernel) :
    s.Within M (t.stepDecided p) := by
  refine h.andThen hm fun h => ?_
  unfold State.stepDecided
  extract_lets _ s1
  have hs1 : t.Within stepDecidedScope s1 := h.stepFlagRecord
  split
  · exact h
  · split
    · exact h
    · split
      · extract_lets
        split
        · extract_lets s2 s3 _ s4
          have hs2 : t.Within stepDecidedScope s2 := hs1.wr.wr.wr
          have hs3 : t.Within stepDecidedScope s3 := hs2.wr
          have hs4 : t.Within stepDecidedScope s4 := .ite hs3 hs3.wr
          exact .ite hs3.wr.updStat.completeRups.stepEnd hs4.wr.bump.passesEnd
      · exact h

def nonFiniteScope : Scope := scope [] [V.NONFINITE_SEEN] ||| updStatScope ||| errScope

theorem Within.nonFinite {p k i n : Nat} (h : s.Within M t) (hm : nonFiniteScope.le M = true := by decide +kernel) :
    s.Within M (t.nonFinite p k i n) := by
  refine h.andThen hm fun h => ?_
  unfold State.nonFinite
  extract_lets s1
  have hs1 : t.Within nonFiniteScope s1 := h.updStat
  exact .ite h (.ite hs1 hs1.wr.err)

def chunkFinalScope : Scope := updPutScope ||| publishChunkScope ||| passesEndScope

theorem Within.chunkFinal {p k i : Nat} {h' : ShardE} {c : UpdChunk} (h : s.Within M t)
    (hm : chunkFinalScope.le M = true := by decide +kernel) : s.Within M (t.chunkFinal p k i h' c) := by
  refine h.andThen hm fun h => ?_
  unfold State.chunkFinal
  extract_lets _ s1 s2 s3
  have hs1 : t.Within chunkFinalScope s1 := h.updPut
  have hs2 : t.Within chunkFinalScope s2 := hs1.publishChunk
  have hs3 : t.Within chunkFinalScope s3 := .ite hs2.wr hs2
  exact hs3.passesEnd

def smoothAllScope : Scope := optWriteScope

theorem Within.smoothAll {p : Nat} {g : Grp} {ledg fac count n : Nat} (h : s.Within M t)
    (hm : smoothAllScope.le M = true := by decide +kernel) : s.Within M (t.smoothAll p g ledg fac count n) := by
  refine h.andThen hm fun h => ?_
  unfold State.smoothAll
  refine h.foldl fun _ _ hu => by
    extract_lets _ t1
    have ht1 : t.Within smoothAllScope t1 := hu.getD fun _ e => hu.optWrite (e := e)
    exact ht1.getD fun _ e => ht1.optWrite (e := e)

def betweenPassesScope : Scope := scope [] [V.GROUP_READY, V.GROUP_RATIO] ||| smoothAllScope

theorem Within.betweenPasses {p gi : Nat} {h' : ShardE} {sg : Seg} {g : Grp} (h : s.Within M t)
    (hm : betweenPassesScope.le M = true := by decide +kernel) : s.Within M (t.betweenPasses p gi h' sg g) := by
  refine h.andThen hm fun h => ?_
  unfold State.betweenPasses
  extract_lets s1
  have hs1 : t.Within betweenPassesScope s1 := h.wr
  exact .ite h (.ite hs1.wr hs1.smoothAll.smoothAll)

def factAddScope : Scope := optWriteScope

theorem Within.factAdd {p off : Nat} {x : ℤ} (h : s.Within M t) (hm : factAddScope.le M = true := by decide +kernel) :
    s.Within M ((t.factAdd p off x).1) := by
  refine h.andThen hm fun h => ?_
  unfold State.factAdd
  split
  · exact h
  · dsimp only
    split
    · next v e => exact h.optWrite (e := e)
    · exact h

def satRecordScope : Scope := scope [] [V.LEDGER_SAT] ||| errScope

theorem Within.satRecord {p k i : Nat} {o : Bool} (h : s.Within M t) (hm : satRecordScope.le M = true := by decide +kernel) :
    s.Within M (t.satRecord p k i o) := by
  refine h.andThen hm fun h => ?_
  unfold State.satRecord
  exact .ite h.wr.err h

def firstPassScope : Scope := stepFailScope ||| shardLostScope ||| nonFiniteScope ||| satRecordScope ||| updPutScope ||| factAddScope

theorem Within.firstPass {p k i gi : Nat} {h' : ShardE} {sg : Seg} {g : Grp} {u' : Setup} {c : UpdChunk} {r : Rec} {gs : List Nat}
    (h : s.Within M t) (hm : firstPassScope.le M = true := by decide +kernel) : s.Within M (t.firstPass p k i gi h' sg g u' c r gs) := by
  refine h.andThen hm fun h => ?_
  unfold State.firstPass
  extract_lets off e xs r' ww uu f e0
  split
  · split
    · exact h.shardLost.stepFail
    · next v hv =>
      have hw := h.optWrite (e := hv)
      exact hw.ledgerAdd.ledgerAdd.satRecord.nonFinite.updPut
  · have hfold : ∀ l : List (Nat × Nat), t.Within firstPassScope (l.foldl (fun (t : State × Bool × List Nat) x =>
        match mul32 x.1 u'.k with
        | none => (t.1, t.2.1, t.2.2 ++ [x.2])
        | some y =>
          let q := squareLedger g.fw y
          let (a, o1) := t.1.factAdd p (f.rl + 16 * ((e0 + x.2) / f.cols)) q
          let (b, o2) := a.factAdd p (f.cl + 16 * ((e0 + x.2) % f.cols)) q
          (b, t.2.1 || o1 || o2, t.2.2)) (t, false, [])).1 := fun l => by
      refine Within.foldl_fst h fun v x hv => ?_
      split
      · dsimp only
        exact hv
      · dsimp only
        exact hv.factAdd.factAdd
    dsimp only
    exact (hfold _).satRecord.nonFinite.updPut

def passNoteScope : Scope := optNoteScope

theorem Within.passNote {p i off : Nat} {h' : ShardE} {c : UpdChunk} (h : s.Within M t)
    (hm : passNoteScope.le M = true := by decide +kernel) : s.Within M (t.passNote p i off h' c) := by
  refine h.andThen hm fun h => ?_
  unfold State.passNote
  extract_lets s1
  have hs1 : t.Within passNoteScope s1 := h.optNote
  exact .ite hs1.optNote hs1

def updatePassScope : Scope := unitScope ||| passNoteScope ||| firstPassScope ||| betweenPassesScope ||| chunkFinalScope

theorem Within.updatePass {p k i : Nat} (h : s.Within M t) (hm : updatePassScope.le M = true := by decide +kernel) :
    s.Within M (t.updatePass p k i) := by
  refine h.andThen hm fun h => ?_
  unfold State.updatePass
  split
  · extract_lets
    split
    · exact h
    · refine h.unit fun _ hu => by
        extract_lets _ _ s1 s2
        have hs1 : t.Within updatePassScope s1 := hu.passNote.updStat
        have hs2 : t.Within updatePassScope s2 := .ite hs1.betweenPasses hs1
        split
        · extract_lets
          split
          · exact hs1.firstPass
          · split
            · exact hs2.shardLost.stepFail
            · next u e =>
                have hu2 : t.Within updatePassScope u := hs2.optWrite (e := e)
                exact hu2.nonFinite.chunkFinal
        · exact hu.passNote.shardLost.stepFail
  · exact h

def updatePassCmdScope : Scope := updateProgressTimeoutScope ||| updatePassScope

theorem Within.updatePassCmd {p k i : Nat} (h : s.Within M t) (hm : updatePassCmdScope.le M = true := by decide +kernel) :
    s.Within M (t.updatePassCmd p k i) := by
  refine h.andThen hm fun h => ?_
  unfold State.updatePassCmd
  split
  · exact .ite h.updateProgressTimeout h.updatePass
  · exact h

def updatePassRowScope : Scope := updatePassCmdScope

theorem Within.updatePassRow {p k i : Nat} (h : s.Within M t) (hm : updatePassRowScope.le M = true := by decide +kernel) :
    s.Within M (t.updatePassRow p k i) := by
  refine h.andThen hm fun h => ?_
  unfold State.updatePassRow
  exact .ite h.updatePassCmd h

def normSumScope : Scope := scope [] [V.NORM_LEDGER, V.STEPFLG_OVF]

theorem Within.normSum {p : Nat} {m : ℤ} (h : s.Within M t) (hm : normSumScope.le M = true := by decide +kernel) :
    s.Within M (t.normSum p m) := by
  refine h.andThen hm fun h => ?_
  unfold State.normSum
  extract_lets _ s1
  have hs1 : t.Within normSumScope s1 := h.wr
  exact .ite hs1.wr hs1

def handoffSlotScope : Scope := slotPutScope ||| instFlagsScope ||| settleScope ||| chunkResultedScope

theorem Within.handoffSlot {p : Nat} {h' : Handoff} {e' : CollE} (h : s.Within M t)
    (hm : handoffSlotScope.le M = true := by decide +kernel) : s.Within M (t.handoffSlot p h' e') := by
  refine h.andThen hm fun h => ?_
  unfold State.handoffSlot
  extract_lets _ s1 s2
  have hs1 : t.Within handoffSlotScope s1 := by
    unfold s1
    split
    · exact .ite h.slotDrop h.slotPut
    · exact h
  have hs2 : t.Within handoffSlotScope s2 := hs1.instFlags
  exact hs2.chunkResulted.settle

def localFinalScope : Scope := scope [] [F.UPD_PART_STEP_STATE, V.STEP_TIMER] ||| mitSelfScope

theorem Within.localFinal {p : Nat} (h : s.Within M t) (hm : localFinalScope.le M = true := by decide +kernel) :
    s.Within M (t.localFinal p) := by
  refine h.andThen hm fun h => ?_
  unfold State.localFinal
  extract_lets _ _ s1 s2
  have hs1 : t.Within localFinalScope s1 := h.wr
  have hs2 : t.Within localFinalScope s2 := hs1.wr
  split
  · exact h
  · split
    · exact h
    · split
      · exact .ite hs2.mitSelf hs2
      · exact hs2

def handoffAcceptScope : Scope := localFinalScope ||| handoffSlotScope ||| normSumScope ||| optWriteScope ||| updPutScope
  ||| shardLostScope

theorem Within.handoffAccept {p : Nat} {h' : Handoff} {e' : CollE} {sh : ShardE} (h : s.Within M t)
    (hm : handoffAcceptScope.le M = true := by decide +kernel) : s.Within M (t.handoffAccept p h' e' sh) := by
  refine h.andThen hm fun h => ?_
  unfold State.handoffAccept
  extract_lets
  split
  · exact h.handoffSlot.localFinal
  · split
    · extract_lets s1 _ s2 s3
      have hs1 : t.Within handoffAcceptScope s1 := h.instFlags
      have hs2 : t.Within handoffAcceptScope s2 := hs1.normSum
      have hs3 : t.Within handoffAcceptScope s3 := by
        unfold s3
        split
        · split
          · next u e =>
              have hu : t.Within handoffAcceptScope u := hs2.optWrite (e := e)
              exact hu.updPut
          · exact hs2.shardLost
        · exact hs2.updPut
      exact hs3.handoffSlot.localFinal

def stepOpenScope : Scope := scope [] [V.ENDED_T, V.ENDED_STEP, V.STEP_K, F.UPD_PART_STEP_STEP_TAG, F.UPD_PART_STEP_STATE]
  ||| updClearScope

theorem Within.stepOpen {p step : Nat} (h : s.Within M t) (hm : stepOpenScope.le M = true := by decide +kernel) :
    s.Within M (t.stepOpen p step) := by
  refine h.andThen hm fun h => ?_
  unfold State.stepOpen
  extract_lets _ s1
  have hs1 : t.Within stepOpenScope s1 := h.wr.wr
  exact hs1.updClear.wr.wr.wr

def handoffDropScope : Scope := scope [.handoffs] []

theorem Within.handoffDrop {p : Nat} {h' : Handoff} (h : s.Within M t) (hm : handoffDropScope.le M = true := by decide +kernel) :
    s.Within M (t.handoffDrop p h') := by
  refine h.andThen hm fun h => ?_
  unfold State.handoffDrop
  extract_lets
  exact h.handoffs

def chunkHandoffScope : Scope := handoffDropScope ||| sltEventScope ||| updStatScope ||| stepOpenScope ||| handoffAcceptScope

theorem Within.chunkHandoff {p coll step chunk : Nat} (h : s.Within M t) (hm : chunkHandoffScope.le M = true := by decide +kernel) :
    s.Within M (t.chunkHandoff p coll step chunk) := by
  refine h.andThen hm fun h => ?_
  unfold State.chunkHandoff
  extract_lets _ _ _ _ _ s1
  have hs1 : t.Within chunkHandoffScope s1 := .ite h.stepOpen h
  split
  · exact h
  · split
    · exact h.handoffDrop
    · split
      · exact h.handoffDrop
      · exact .ite h (.ite h.handoffDrop.sltEvent.slotDrop.settle (.ite (.ite h h.handoffs.updStat) hs1.handoffDrop.handoffAccept))

def handoffRowScope : Scope := chunkHandoffScope

theorem Within.handoffRow {p coll step chunk : Nat} (h : s.Within M t) (hm : handoffRowScope.le M = true := by decide +kernel) :
    s.Within M (t.handoffRow p coll step chunk) := by
  refine h.andThen hm fun h => ?_
  unfold State.handoffRow
  split
  · exact .ite h.chunkHandoff h
  · exact h.chunkHandoff

def podHoldExpiryScope : Scope := settleScope ||| slotDropScope ||| slotPutScope

theorem Within.podHoldExpiry {p coll step chunk : Nat} (h : s.Within M t) (hm : podHoldExpiryScope.le M = true := by decide +kernel) :
    s.Within M (t.podHoldExpiry p coll step chunk) := by
  refine h.andThen hm fun h => ?_
  unfold State.podHoldExpiry
  extract_lets
  split
  · split
    · exact h
    · split
      · exact .ite h.slotDrop.settle h.slotPut
      · exact h.slotDrop.settle
  · exact h

def waitAddScope : Scope := scope [.waits] []

theorem Within.waitAdd {q p : Nat} {w : WaitItem} (h : s.Within M t) (hm : waitAddScope.le M = true := by decide +kernel) :
    s.Within M (t.waitAdd q p w) := by
  refine h.andThen hm fun h => ?_
  unfold State.waitAdd
  exact h.waits

def partialResendTimerScope : Scope := waitRunScope ||| waitAddScope

theorem Within.partialResendTimer {p coll step chunk : Nat} (h : s.Within M t)
    (hm : partialResendTimerScope.le M = true := by decide +kernel) : s.Within M (t.partialResendTimer p coll step chunk) := by
  refine h.andThen hm fun h => ?_
  unfold State.partialResendTimer
  extract_lets
  split
  · split
    · extract_lets
      exact .ite h (.ite h.waitRun h.waitAdd)
    · exact h
  · exact h

def trigArmScope : Scope := scope [] [V.TRIG_CTX] ||| errScope ||| trigTestScope

theorem Within.trigArm {p widx ctx : Nat} (h : s.Within M t) (hm : trigArmScope.le M = true := by decide +kernel) :
    s.Within M (t.trigArm p widx ctx) := by
  refine h.andThen hm fun h => ?_
  unfold State.trigArm
  extract_lets
  exact .ite h (.ite h.err h.wr.wr.trigTest)

def trigDropScope : Scope := scope [.trigOps] []

theorem Within.trigDrop {p n : Nat} (h : s.Within M t) (hm : trigDropScope.le M = true := by decide +kernel) : s.Within M (t.trigDrop p n)
    := by
  refine h.andThen hm fun h => ?_
  unfold State.trigDrop
  extract_lets
  exact h.trigOps

def triggerOpCompleteScope : Scope := trigAddScope ||| sampleEndScope ||| trigDropScope ||| trigArmScope

theorem Within.triggerOpComplete {p n : Nat} (h : s.Within M t) (hm : triggerOpCompleteScope.le M = true := by decide +kernel) :
    s.Within M (t.triggerOpComplete p n) := by
  refine h.andThen hm fun h => ?_
  unfold State.triggerOpComplete
  split
  · exact h
  · extract_lets s1
    have hs1 : t.Within triggerOpCompleteScope s1 := h.trigDrop.sampleEnd.trigAdd
    exact .ite h (.ite hs1 hs1.trigArm)

def trigEndScope : Scope := scope [.trigOps] [] ||| sampleWaitScope

theorem Within.trigEnd {p n : Nat} {o : TrigOp} {aborted : Bool} (h : s.Within M t) (hm : trigEndScope.le M = true := by decide +kernel) :
    s.Within M (t.trigEnd p n o aborted) := by
  refine h.andThen hm fun h => ?_
  unfold State.trigEnd
  extract_lets _ s1
  have hs1 : t.Within trigEndScope s1 := .ite h.sampleWait h
  exact hs1.trigOps

def waitEpochScope : Scope := trigEndScope

theorem Within.waitEpoch {p n : Nat} (h : s.Within M t) (hm : waitEpochScope.le M = true := by decide +kernel) :
    s.Within M (t.waitEpoch p n) := by
  refine h.andThen hm fun h => ?_
  unfold State.waitEpoch
  split
  · exact h
  · exact .ite h.trigEnd h

def incrementOpScope : Scope := trigAddScope ||| trigEndScope

theorem Within.incrementOp {p n : Nat} (h : s.Within M t) (hm : incrementOpScope.le M = true := by decide +kernel) :
    s.Within M (t.incrementOp p n) := by
  refine h.andThen hm fun h => ?_
  unfold State.incrementOp
  split
  · exact h
  · exact h.trigEnd.trigAdd

def signalHostScope : Scope := cqPostScope ||| trigEndScope

theorem Within.signalHost {p n : Nat} (h : s.Within M t) (hm : signalHostScope.le M = true := by decide +kernel) :
    s.Within M (t.signalHost p n) := by
  refine h.andThen hm fun h => ?_
  unfold State.signalHost
  split
  · exact h
  · extract_lets _ _ _ t1
    have ht1 : t.Within signalHostScope t1 := h.cqPost
    exact .ite h (.ite ht1.trigOps ht1.trigEnd)

def snapshotOpScope : Scope := trigEndScope ||| snapshotShardScope

theorem Within.snapshotOp {p n : Nat} (h : s.Within M t) (hm : snapshotOpScope.le M = true := by decide +kernel) :
    s.Within M (t.snapshotOp p n) := by
  refine h.andThen hm fun h => ?_
  unfold State.snapshotOp
  split
  · exact h
  · extract_lets
    split
    · exact h.trigEnd
    · split
      · exact h
      · split
        · next u _ e =>
            have hu : t.Within snapshotOpScope u := h.snapshotShard.of_fst e
            exact hu.trigEnd

def publishOpScope : Scope := trigEndScope ||| publishShardScope

theorem Within.publishOp {p n : Nat} (h : s.Within M t) (hm : publishOpScope.le M = true := by decide +kernel) :
    s.Within M (t.publishOp p n) := by
  refine h.andThen hm fun h => ?_
  unfold State.publishOp
  split
  · exact h
  · extract_lets
    split
    · exact h.trigEnd
    · exact .ite h (.ite h.trigEnd h.publishShard.trigEnd)

def updateShardScope : Scope := scope [] [V.UPD_STARTED] ||| trigEndScope

theorem Within.updateShard {p n : Nat} (h : s.Within M t) (hm : updateShardScope.le M = true := by decide +kernel) :
    s.Within M (t.updateShard p n) := by
  refine h.andThen hm fun h => ?_
  unfold State.updateShard
  split
  · exact h
  · extract_lets
    exact .ite h.trigEnd (.ite h (.ite h.trigEnd (.ite (.ite h.trigEnd h.wr) (.ite h.trigEnd h))))

def trigInstScope : Scope := trigEndScope

theorem Within.trigInst {p n op : Nat} {f : State → TrigOp → Nat → CollE → Inst → State} (h : s.Within M t)
    (H : ∀ u o c e i, s.Within M u → s.Within M (f u o c e i)) (hm : trigInstScope.le M = true := by decide +kernel) :
    s.Within M (t.trigInst p n op f) := by
  unfold State.trigInst
  split
  · exact h
  · extract_lets coll
    split
    · exact h.trigEnd hm
    · split
      · exact h
      · exact .ite (h.trigEnd hm) (.ite (H _ _ _ _ _ h) h)

def normContributeScope : Scope := scope [] [V.NORM_OPS] ||| trigInstScope ||| normSumScope ||| instFlagsScope ||| localFinalScope

theorem Within.normContribute {p n : Nat} (h : s.Within M t) (hm : normContributeScope.le M = true := by decide +kernel) :
    s.Within M (t.normContribute p n) := by
  refine h.andThen hm fun h => ?_
  unfold State.normContribute
  refine h.trigInst fun _ _ _ _ _ hu => by
    extract_lets _ s1
    have hs1 : t.Within normContributeScope s1 := by
      unfold s1
      refine hu.foldl fun _ _ hu2 => by
        split <;> exact hu2.instFlags.normSum
    exact .ite hs1.bumpSat.trigEnd.localFinal (.ite hu.trigEnd hu)

def convertCrownsScope : Scope := convertHeldScope ||| waitAddScope

theorem Within.convertCrowns {p coll step : Nat} {e' : CollE} (h : s.Within M t) (hm : convertCrownsScope.le M = true := by decide +kernel)
    : s.Within M (t.convertCrowns p coll step e') := by
  refine h.andThen hm fun h => ?_
  unfold State.convertCrowns
  refine h.foldl fun _ _ hu => by
    extract_lets
    split
    · split
      · split
        · exact hu.convertHeld
        · exact hu
      · exact hu.waitAdd
    · exact hu

def releaseCrownsScope : Scope := slotPutScope

theorem Within.releaseCrowns {p coll step : Nat} {sel : Nat → Bool} (h : s.Within M t)
    (hm : releaseCrownsScope.le M = true := by decide +kernel) : s.Within M (t.releaseCrowns p coll step sel) := by
  refine h.andThen hm fun h => ?_
  unfold State.releaseCrowns
  refine h.foldl fun _ _ hu => by
    extract_lets
    exact .ite hu.slotPut hu

def convertMulticastScope : Scope := trigInstScope ||| settleScope ||| releaseCrownsScope ||| convertCrownsScope

theorem Within.convertMulticast {p n : Nat} (h : s.Within M t) (hm : convertMulticastScope.le M = true := by decide +kernel) :
    s.Within M (t.convertMulticast p n) := by
  refine h.andThen hm fun h => ?_
  unfold State.convertMulticast
  refine h.trigInst fun _ _ _ _ _ hu => by
    extract_lets _ s1
    have hs1 : t.Within convertMulticastScope s1 := .ite hu hu.instPut.convertCrowns.releaseCrowns.settle
    split
    · exact .ite hs1.trigEnd hs1
    · exact hs1

def reduceForwardScope : Scope := trigInstScope ||| releaseCrownsScope ||| instPutScope

theorem Within.reduceForward {p n : Nat} (h : s.Within M t) (hm : reduceForwardScope.le M = true := by decide +kernel) :
    s.Within M (t.reduceForward p n) := by
  refine h.andThen hm fun h => ?_
  unfold State.reduceForward
  refine h.trigInst fun _ _ _ _ _ hu => by
    extract_lets _ s1
    have hs1 : t.Within reduceForwardScope s1 := .ite hu hu.instPut.releaseCrowns
    exact .ite hu.trigEnd (.ite hs1 hs1.trigEnd)

def patienceExpiryScope : Scope := abortEventScope

theorem Within.patienceExpiry {p coll step : Nat} (h : s.Within M t) (hm : patienceExpiryScope.le M = true := by decide +kernel) :
    s.Within M (t.patienceExpiry p coll step) := by
  refine h.andThen hm fun h => ?_
  unfold State.patienceExpiry
  split
  · exact h
  · split
    · exact .ite h h.abortEvent
    · exact h

def resendAnyScope : Scope := resendChunkScope ||| waitAddScope ||| updStatScope ||| shardReadLostScope

theorem Within.resendAny {p coll step chunk rank : Nat} {e' : CollE} {i : Inst} (h : s.Within M t)
    (hm : resendAnyScope.le M = true := by decide +kernel) : s.Within M (t.resendAny p coll step chunk rank e' i) := by
  refine h.andThen hm fun h => ?_
  unfold State.resendAny
  extract_lets c fromSlot
  have hslot : t.Within resendAnyScope (fromSlot t) := by
    dsimp only [fromSlot]
    split
    · exact .ite h (.ite h.resendChunk h.waitAdd)
    · exact h
  clear_value fromSlot
  refine .ite hslot ?_
  extract_lets j
  split
  · extract_lets v now ended
    refine .ite ?_ hslot
    split
    · exact h.instPacket.updStat
    · exact h.shardReadLost
  · exact hslot

def nonMemberScope : Scope := nackScope ||| sltEventScope

theorem Within.nonMember {q : Nat} {k : Packet} (h : s.Within M t) (hm : nonMemberScope.le M = true := by decide +kernel) :
    s.Within M (t.nonMember q k) := by
  refine h.andThen hm fun h => ?_
  unfold State.nonMember
  exact h.sltEvent.nack

def gapNackScope : Scope := atServiceScope ||| nonMemberScope ||| settleScope ||| resendAnyScope

theorem Within.gapNack {q : Nat} {k : Packet} (h : s.Within M t) (hm : gapNackScope.le M = true := by decide +kernel) :
    s.Within M (t.gapNack q k) := by
  refine h.andThen hm fun h => ?_
  unfold State.gapNack
  extract_lets
  refine h.atService fun _ hu => by
    split
    · extract_lets
      split
      · exact hu.nonMember
      · refine Within.settle ?_
        refine hu.foldl fun _ _ hu2 => by
          extract_lets
          exact .ite hu2.resendAny hu2
    · exact hu.nonMember

def doneCmdScope : Scope := scope [] [F.SEQ_SLOW_BAD_DONE] ||| atServiceScope ||| nonMemberScope ||| checkCompleteScope ||| settleScope
  ||| publishEndScope

theorem Within.doneCmd {q : Nat} {k : Packet} (h : s.Within M t) (hm : doneCmdScope.le M = true := by decide +kernel) :
    s.Within M (t.doneCmd q k) := by
  refine h.andThen hm fun h => ?_
  unfold State.doneCmd
  extract_lets
  refine h.atService fun _ hu => by
    split
    · split
      · extract_lets s1
        have hs1 : t.Within doneCmdScope s1 := hu.instPut.checkComplete
        exact .ite hu.nonMember (.ite hu.bump (.ite hu hs1.publishEnd.settle))
      · exact hu
      · exact .ite hu hu.nonMember
    · exact hu.nonMember

def warmOneScope : Scope := scope [] [V.WARM_NS] ||| warmShowScope ||| engineWakeScope

theorem Within.warmOne {p q e' holdUs : Nat} (h : s.Within M t) (hm : warmOneScope.le M = true := by decide +kernel) :
    s.Within M (t.warmOne p q e' holdUs) := by
  refine h.andThen hm fun h => ?_
  unfold State.warmOne
  extract_lets
  exact h.engineWake.wr.warmShow

def warmScope : Scope := cmdStartScope ||| warmOneScope ||| cmdDoneScope

theorem Within.warm {q p entry : Nat} (h : s.Within M t) (hm : warmScope.le M = true := by decide +kernel) : s.Within M (t.warm q p entry)
    := by
  refine h.andThen hm fun h => ?_
  unfold State.warm
  extract_lets _ _ _ _ s1 s2
  have hs1 : t.Within warmScope s1 := h.cmdStart
  have hs2 : t.Within warmScope s2 := hs1.foldl (fun _ _ hu => .ite hu.warmOne hu)
  exact .ite h (.ite h.ringStop hs2.cmdDone)

def stepReplayEndScope : Scope := scope [] [F.SEQ_STEP_REPLAY] ||| cmdDoneScope

theorem Within.stepReplayEnd {p : Nat} (h : s.Within M t) (hm : stepReplayEndScope.le M = true := by decide +kernel) :
    s.Within M (t.stepReplayEnd p) := by
  refine h.andThen hm fun h => ?_
  unfold State.stepReplayEnd
  exact .ite h.wr.cmdDone h

def replayResetScope : Scope := scope [.insts] [] ||| slotDropScope ||| handoffsDropScope

theorem Within.replayReset {p step : Nat} (h : s.Within M t) (hm : replayResetScope.le M = true := by decide +kernel) :
    s.Within M (t.replayReset p step) := by
  refine h.andThen hm fun h => ?_
  unfold State.replayReset
  refine h.foldl fun _ _ hu => by
    extract_lets _ t1 t2
    have ht1 : t.Within replayResetScope t1 := hu.foldl (fun _ _ hu2 => hu2.slotDrop)
    have ht2 : t.Within replayResetScope t2 := ht1.handoffsDrop
    exact .ite ht2.insts hu

def stepReplayScope : Scope := scope [] [V.REPLAY_QUAD, V.REPLAY_STEP, F.SEQ_STEP_REPLAY, V.REPLAY_ENTRY] ||| cmdStartScope ||| settleScope
  ||| replayResetScope

theorem Within.stepReplay {q p entry : Nat} (h : s.Within M t) (hm : stepReplayScope.le M = true := by decide +kernel) :
    s.Within M (t.stepReplay q p entry) := by
  refine h.andThen hm fun h => ?_
  unfold State.stepReplay
  extract_lets _ s1 s2
  have hs1 : t.Within stepReplayScope s1 := h.cmdStart
  have hs2 : t.Within stepReplayScope s2 := hs1.wr.wr.wr
  exact .ite h hs2.wr.replayReset.settle

def abortCollectiveScope : Scope := cmdStartScope ||| cmdDoneScope ||| abortEventScope

theorem Within.abortCollective {q p entry : Nat} (h : s.Within M t) (hm : abortCollectiveScope.le M = true := by decide +kernel) :
    s.Within M (t.abortCollective q p entry) := by
  refine h.andThen hm fun h => ?_
  unfold State.abortCollective
  extract_lets _ s1
  have hs1 : t.Within abortCollectiveScope s1 := h.cmdStart
  split
  · exact h
  · split
    · exact h.ringStop
    · exact hs1.abortEvent.cmdDone

def incrementCmdScope : Scope := cmdDoneScope ||| trigAddScope ||| cmdStartScope

theorem Within.incrementCmd {q p entry : Nat} (h : s.Within M t) (hm : incrementCmdScope.le M = true := by decide +kernel) :
    s.Within M (t.incrementCmd q p entry) := by
  refine h.andThen hm fun h => ?_
  unfold State.incrementCmd
  exact .ite h (.ite h.ringStop h.cmdStart.trigAdd.cmdDone)

def triggerCmdScope : Scope := cmdDoneScope ||| trigArmScope ||| cmdStartScope

theorem Within.triggerCmd {q p entry : Nat} (h : s.Within M t) (hm : triggerCmdScope.le M = true := by decide +kernel) :
    s.Within M (t.triggerCmd q p entry) := by
  refine h.andThen hm fun h => ?_
  unfold State.triggerCmd
  extract_lets
  exact .ite h (.ite h.ringStop h.cmdStart.trigArm.cmdDone)

def closeOrRecallScope : Scope := tryCloseScope ||| waitAddScope

theorem Within.closeOrRecall {q p coll step chunk : Nat} {e' : CollE} {bank : Nat} (h : s.Within M t)
    (hm : closeOrRecallScope.le M = true := by decide +kernel) : s.Within M (t.closeOrRecall q p coll step chunk e' bank) := by
  refine h.andThen hm fun h => ?_
  unfold State.closeOrRecall
  extract_lets t1
  have ht1 : t.Within closeOrRecallScope t1 := h.tryClose
  split
  · exact ht1
  · exact .ite ht1.waitAdd ht1

def armInstScope : Scope := instPutScope ||| closeOrRecallScope

theorem Within.armInst {p coll : Nat} {e' : CollE} {i : Inst} (h : s.Within M t) (hm : armInstScope.le M = true := by decide +kernel) :
    s.Within M (t.armInst p coll e' i) := by
  refine h.andThen hm fun h => ?_
  unfold State.armInst
  extract_lets s1
  have hs1 : t.Within armInstScope s1 := h.instPut
  refine hs1.foldl fun _ _ hu => by
    extract_lets _ t2
    have ht2 : t.Within armInstScope t2 := hu.slotPut
    exact ht2.closeOrRecall

def armStandingScope : Scope := armInstScope

theorem Within.armStanding {p : Nat} (h : s.Within M t) (hm : armStandingScope.le M = true := by decide +kernel) :
    s.Within M (t.armStanding p) := by
  refine h.andThen hm fun h => ?_
  unfold State.armStanding
  refine h.foldl fun _ _ hu => by
    extract_lets
    exact .ite hu.armInst hu

def armStepScope : Scope := scope [] [F.SEQ_STEP_ARMED] ||| cmdStartScope ||| cmdDoneScope ||| armStandingScope ||| trigArmScope

theorem Within.armStep {q p entry : Nat} (h : s.Within M t) (hm : armStepScope.le M = true := by decide +kernel) :
    s.Within M (t.armStep q p entry) := by
  refine h.andThen hm fun h => ?_
  unfold State.armStep
  extract_lets _ _ s1 s2 _ s3
  have hs1 : t.Within armStepScope s1 := h.cmdStart
  have hs2 : t.Within armStepScope s2 := hs1.wr.armStanding
  have hs3 : t.Within armStepScope s3 := .ite hs2 (hs2.foldl (fun _ _ hu => hu.trigArm))
  exact .ite h (.ite hs1.cmdDone hs3.cmdDone)

def collectiveScope : Scope := cmdDoneScope ||| cmdStartScope ||| armInstScope

theorem Within.collective {q p entry : Nat} (h : s.Within M t) (hm : collectiveScope.le M = true := by decide +kernel) :
    s.Within M (t.collective q p entry) := by
  refine h.andThen hm fun h => ?_
  unfold State.collective
  extract_lets
  split
  · exact h
  · split
    · exact h.ringStop
    · extract_lets
      split
      · exact h.ringStop
      · split
        · exact h
        · exact h.cmdStart.cmdDone
        · exact h.cmdStart.instPut.cmdDone
        · extract_lets
          exact .ite h.cmdStart.cmdDone h.cmdStart.armInst.cmdDone

def cqKeepScope : Scope := scope [.cqWait] []

theorem Within.cqKeep {p k : Nat} {rs : List Nat} (h : s.Within M t) (hm : cqKeepScope.le M = true := by decide +kernel) :
    s.Within M (t.cqKeep p k rs) := by
  refine h.andThen hm fun h => ?_
  unfold State.cqKeep
  exact h.cqWait

def signalEndScope : Scope := scope [.trigOps] []

theorem Within.signalEnd {p rcd : Nat} (h : s.Within M t) (hm : signalEndScope.le M = true := by decide +kernel) :
    s.Within M (t.signalEnd p rcd) := by
  refine h.andThen hm fun h => ?_
  unfold State.signalEnd
  extract_lets
  split
  · split
    · exact h.trigOps
    · exact h
  · exact h

def cqRecordWriteScope : Scope := signalEndScope ||| cqPutScope ||| cqKeepScope

theorem Within.cqRecordWrite {p k : Nat} (h : s.Within M t) (hm : cqRecordWriteScope.le M = true := by decide +kernel) :
    s.Within M (t.cqRecordWrite p k) := by
  refine h.andThen hm fun h => ?_
  unfold State.cqRecordWrite
  split
  · exact .ite h.cqVector h
  · exact .ite h.cqKeep.cqPut.signalEnd h

def doorbellScope : Scope := atServiceScope ||| replyPScope ||| ringDoorbellScope

theorem Within.doorbell {q : Nat} {k : Packet} (h : s.Within M t) (hm : doorbellScope.le M = true := by decide +kernel) :
    s.Within M (t.doorbell q k) := by
  refine h.andThen hm fun h => ?_
  unfold State.doorbell
  extract_lets
  refine h.atService fun _ hu => by
    extract_lets
    exact .ite hu.replyP hu.ringDoorbell.replyP

def slabLockTimeoutScope : Scope := scope [] [F.ARB_SLAB_LOG_VALID, F.ARB_SLAB_LOG_REQ, F.ARB_SLAB_LOG_PORT, F.ARB_SLAB_LOG_BANK,
  F.ARB_SLAB_LOG_FIRES, V.ENGINE_FAULT] ||| countLocalScope ||| injFiredScope ||| errScope ||| abortEventScope

theorem Within.slabLockTimeout {q bank port req : Nat} {busy : List (Nat × Nat × Nat × Nat)} (h : s.Within M t)
    (hm : slabLockTimeoutScope.le M = true := by decide +kernel) : s.Within M (t.slabLockTimeout q bank port req busy) := by
  refine h.andThen hm fun h => ?_
  unfold State.slabLockTimeout
  extract_lets s1 s2 _ s3 s4
  have hs1 : t.Within slabLockTimeoutScope s1 := h.wr.wr.wr.raise
  have hs2 : t.Within slabLockTimeoutScope s2 := hs1.bump.countLocal
  have hs3 : t.Within slabLockTimeoutScope s3 := .ite hs2.injFired hs2
  have hs4 : t.Within slabLockTimeoutScope s4 := hs3.err
  split
  · exact hs4
  · refine hs4.wr.foldl fun _ _ hu => by
      split
      · exact hu.abortEvent
      · exact hu

def slabTimeoutScope : Scope := slabLockTimeoutScope ||| movBusErrorScope

theorem Within.slabTimeout {q bank port req : Nat} {busy : List (Nat × Nat × Nat × Nat)} (h : s.Within M t)
    (hm : slabTimeoutScope.le M = true := by decide +kernel) : s.Within M (t.slabTimeout q bank port req busy) := by
  refine h.andThen hm fun h => ?_
  unfold State.slabTimeout
  extract_lets t1
  have ht1 : t.Within slabTimeoutScope t1 := h.slabLockTimeout
  exact .ite ht1.movBusError ht1

def pagerClearScope : Scope := scope [.pagerOp] []

theorem Within.pagerClear {q : Nat} (h : s.Within M t) (hm : pagerClearScope.le M = true := by decide +kernel) :
    s.Within M (t.pagerClear q) := by
  refine h.andThen hm fun h => ?_
  unfold State.pagerClear
  exact h.pagerOp

def slotUnlockScope : Scope := slotPutScope

theorem Within.slotUnlock {k : Key} (h : s.Within M t) (hm : slotUnlockScope.le M = true := by decide +kernel) :
    s.Within M (t.slotUnlock k) := by
  refine h.andThen hm fun h => ?_
  unfold State.slotUnlock
  split
  · exact h.slotPut
  · exact h

def pagerOpCompleteScope : Scope := settleScope ||| slotUnlockScope ||| pagerClearScope

theorem Within.pagerOpComplete {q : Nat} (h : s.Within M t) (hm : pagerOpCompleteScope.le M = true := by decide +kernel) :
    s.Within M (t.pagerOpComplete q) := by
  refine h.andThen hm fun h => ?_
  unfold State.pagerOpComplete
  split
  · exact h
  · exact .ite h h.pagerClear.slotUnlock.settle

def pagerMarkScope : Scope := scope [.pagerOp] []

theorem Within.pagerMark {q : Nat} {o : PagerOp} (h : s.Within M t) (hm : pagerMarkScope.le M = true := by decide +kernel) :
    s.Within M (t.pagerMark q o) := by
  refine h.andThen hm fun h => ?_
  unfold State.pagerMark
  exact h.pagerOp

def recallIntoScope : Scope := slotPutScope ||| putLedgerScope ||| slabBeatsScope ||| memoryAbortScope

theorem Within.recallInto {q p f : Nat} {k : Key} {x : Slot} {data : Option (List Byte)} (h : s.Within M t)
    (hm : recallIntoScope.le M = true := by decide +kernel) : s.Within M (t.recallInto q p f k x data) := by
  refine h.andThen hm fun h => ?_
  unfold State.recallInto
  split
  · exact h.slabBeats.putLedger.slotPut
  · exact h.memoryAbort

def pagerStartScope : Scope := bankStartScope ||| engineTakeScope

theorem Within.pagerStart {q p : Nat} (h : s.Within M t) (hm : pagerStartScope.le M = true := by decide +kernel) :
    s.Within M (t.pagerStart q p) := by
  refine h.andThen hm fun h => ?_
  unfold State.pagerStart
  exact h.engineTake.bankStart

def spillToScope : Scope := scope [] [V.HBM_REQ] ||| memWriteScope ||| slabBeatsScope ||| slotPutScope

theorem Within.spillTo {q p n : Nat} {k : Key} {x : Slot} (h : s.Within M t) (hm : spillToScope.le M = true := by decide +kernel)
    (e : t.spillTo q p n k x = some u) : s.Within M u := by
  refine h.andThen hm fun h => ?_
  unfold State.spillTo at e
  split at e
  · dsimp only at e
    split at e
    · next v hv =>
      exact Within.of_some ((h.wr.memWrite (e := hv)).wr.slabBeats.slotPut) e
    · cases e
  · cases e

def recordNoteScope : Scope := asReqScope ||| noteReadScope

theorem Within.recordNote {q p : Nat} {x : Slot} (h : s.Within M t) (hm : recordNoteScope.le M = true := by decide +kernel) :
    s.Within M (t.recordNote q p x) := by
  refine h.andThen hm fun h => ?_
  unfold State.recordNote
  split
  · split
    · exact h.asReq (fun _ hu => hu.noteRead)
    · exact h
  · exact h

def pagerSwapScope : Scope := recordNoteScope ||| spillToScope ||| pagerStartScope ||| slotUnlockScope ||| sltEventScope
  ||| recallIntoScope ||| pagerMarkScope

theorem Within.pagerSwap {q p : Nat} (h : s.Within M t) (hm : pagerSwapScope.le M = true := by decide +kernel) :
    s.Within M (t.pagerSwap q p) := by
  refine h.andThen hm fun h => ?_
  unfold State.pagerSwap
  split
  · exact h
  · split
    · extract_lets _ s1
      have hs1 : t.Within pagerSwapScope s1 := h.recordNote
      split
      · split
        · next u e =>
            have hu : t.Within pagerSwapScope u := hs1.spillTo (e := e)
            extract_lets t2
            have ht2 : t.Within pagerSwapScope t2 := hu.slotUnlock.pagerStart
            exact ht2.pagerMark.recallInto.sltEvent
        · exact hs1
      · exact h
    · exact h

def pagerRecallScope : Scope := pagerMarkScope ||| pagerStartScope ||| sltEventScope ||| recallIntoScope ||| recordNoteScope

theorem Within.pagerRecall {q p : Nat} (h : s.Within M t) (hm : pagerRecallScope.le M = true := by decide +kernel) :
    s.Within M (t.pagerRecall q p) := by
  refine h.andThen hm fun h => ?_
  unfold State.pagerRecall
  split
  · exact h
  · split
    · extract_lets s1
      have hs1 : t.Within pagerRecallScope s1 := h.pagerStart.pagerMark
      exact hs1.recordNote.recallInto.sltEvent
    · exact h

def pagerSpillScope : Scope := spillToScope ||| sltEventScope ||| pagerMarkScope ||| pagerStartScope

theorem Within.pagerSpill {q p : Nat} (h : s.Within M t) (hm : pagerSpillScope.le M = true := by decide +kernel) :
    s.Within M (t.pagerSpill q p) := by
  refine h.andThen hm fun h => ?_
  unfold State.pagerSpill
  split
  · exact h
  · split
    · split
      · next u e =>
          have hu : t.Within pagerSpillScope u := h.spillTo (e := e)
          exact hu.pagerStart.pagerMark.sltEvent
      · exact h
    · exact h

def rackChunkScope : Scope := settleScope ||| waitAddScope ||| writeResultScope

theorem Within.rackChunk {k : Packet} (h : s.Within M t) (hm : rackChunkScope.le M = true := by decide +kernel) :
    s.Within M (t.rackChunk k) := by
  refine h.andThen hm fun h => ?_
  unfold State.rackChunk
  extract_lets
  split
  · exact h.sltEvent
  · split
    · exact .ite h.waitAdd.settle h.writeResult
    · exact h.wastedOn
    · exact h.sltEvent

def forwardToScope : Scope := stageScope

theorem Within.forwardTo {q q' port : Nat} {k : Packet} (h : s.Within M t) (hm : forwardToScope.le M = true := by decide +kernel) :
    s.Within M (t.forwardTo q q' port k) := by
  refine h.andThen hm fun h => ?_
  unfold State.forwardTo
  exact h.stage

def rackPartScope : Scope := atServiceScope ||| forwardToScope ||| rackChunkScope

theorem Within.rackPart {q : Nat} {k : Packet} (h : s.Within M t) (hm : rackPartScope.le M = true := by decide +kernel) :
    s.Within M (t.rackPart q k) := by
  refine h.andThen hm fun h => ?_
  unfold State.rackPart
  extract_lets
  exact h.atService (fun _ hu => .ite hu.forwardTo (hu.foldl (fun _ _ hu2 => hu2.rackChunk)))

def publishFromRackScope : Scope := rackPartScope

theorem Within.publishFromRack {q : Nat} {k : Packet} (h : s.Within M t) (hm : publishFromRackScope.le M = true := by decide +kernel) :
    s.Within M (t.publishFromRack q k) := by
  refine h.andThen hm fun h => ?_
  unfold State.publishFromRack
  exact .ite h.rackPart (h.atService (fun _ hu => hu.countDiscard))

def resultFromRackScope : Scope := rackPartScope

theorem Within.resultFromRack {q : Nat} {k : Packet} (h : s.Within M t) (hm : resultFromRackScope.le M = true := by decide +kernel) :
    s.Within M (t.resultFromRack q k) := by
  refine h.andThen hm fun h => ?_
  unfold State.resultFromRack
  exact .ite h.rackPart (h.atService (fun _ hu => hu.countDiscard))

def wastedPacketScope : Scope := sltEventScope

theorem Within.wastedPacket {q p n : Nat} (h : s.Within M t) (hm : wastedPacketScope.le M = true := by decide +kernel) :
    s.Within M (t.wastedPacket q p n) := by
  refine h.andThen hm fun h => ?_
  unfold State.wastedPacket
  exact h.foldl (fun _ _ hu => hu.sltEvent)

def instEnsureScope : Scope := instPutScope

theorem Within.instEnsure {p coll : Nat} {e' : CollE} {i : Inst} (h : s.Within M t) (hm : instEnsureScope.le M = true := by decide +kernel)
    : s.Within M (t.instEnsure p coll e' i) := by
  refine h.andThen hm fun h => ?_
  unfold State.instEnsure
  split
  · exact h
  · exact h.instPut

def slotCreateScope : Scope := scope [] [V.SLOT_SEQ] ||| sltEventScope ||| giveFrameScope ||| injFiredScope

theorem Within.slotCreate {q p coll step chunk : Nat} {e' : CollE} {i : Inst} {crown podnew : Bool} (h : s.Within M t)
    (hm : slotCreateScope.le M = true := by decide +kernel) : s.Within M (t.slotCreate q p coll step chunk e' i crown podnew) := by
  refine h.andThen hm fun h => ?_
  unfold State.slotCreate
  extract_lets _ _ _ _ t1 t2
  have ht1 : t.Within slotCreateScope t1 := h.wr
  have ht2 : t.Within slotCreateScope t2 := (Within.ite ht1.slotPut ht1.giveFrame).sltEvent
  exact .ite ht2.injFired ht2

def deferredScope : Scope := scope [] [F.SLT_PART_USE_LAST_DEFER] ||| nackScope ||| sltEventScope

theorem Within.deferred {q : Nat} {k : Packet} {cause : Nat} (h : s.Within M t) (hm : deferredScope.le M = true := by decide +kernel) :
    s.Within M (t.deferred q k cause) := by
  refine h.andThen hm fun h => ?_
  unfold State.deferred
  exact h.wr.sltEvent.nack

def republishRackScope : Scope := publishToRacksScope

theorem Within.republishRack {k : Packet} {e' : CollE} (h : s.Within M t) (hm : republishRackScope.le M = true := by decide +kernel) :
    s.Within M (t.republishRack k e') := by
  refine h.andThen hm fun h => ?_
  unfold State.republishRack
  extract_lets
  split
  · split
    · exact .ite h.publishToRacks h
    · exact h
  · exact h

def partialSlotScope : Scope := partialIntoScope ||| settleScope ||| waitAddScope ||| republishRackScope ||| wastedPacketScope
  ||| deferredScope ||| slotCreateScope ||| instEnsureScope

theorem Within.partialSlot {c : Nat} {k : Packet} {e' : CollE} {i : Inst} {bit : Nat} (h : s.Within M t)
    (hm : partialSlotScope.le M = true := by decide +kernel) : s.Within M (t.partialSlot c k e' i bit) := by
  refine h.andThen hm fun h => ?_
  unfold State.partialSlot
  extract_lets
  split
  · exact .ite h.partialInto h.waitAdd.settle
  · exact .ite h.wastedPacket.republishRack (.ite h.deferred h.instEnsure.slotCreate.waitAdd.settle)

def partialReceiveScope : Scope := atServiceScope ||| forwardToScope ||| nonMemberScope ||| partialSlotScope

theorem Within.partialReceive {q : Nat} {k : Packet} (h : s.Within M t) (hm : partialReceiveScope.le M = true := by decide +kernel) :
    s.Within M (t.partialReceive q k) := by
  refine h.andThen hm fun h => ?_
  unfold State.partialReceive
  extract_lets
  refine h.atService fun _ hu => by
    split
    · exact hu.forwardTo
    · split
      · exact hu.countDiscard
      · split
        · extract_lets
          split
          · exact hu.nonMember
          · split
            · exact hu.nack
            · exact hu.wastedPacket
            · exact .ite hu.wastedPacket (.ite hu.partialSlot hu.nonMember)
            · exact .ite hu.partialSlot hu.nonMember
        · exact hu.nonMember

def slotHookScope : Scope := sramHookScope

theorem Within.slotHook {q p coll step : Nat} (h : s.Within M t) (hm : slotHookScope.le M = true := by decide +kernel) :
    s.Within M (t.slotHook q p coll step) := by
  refine h.andThen hm fun h => ?_
  unfold State.slotHook
  exact .ite h.sramHook.sramHook h

def partialRowScope : Scope := slotHookScope ||| partialReceiveScope

theorem Within.partialRow {q : Nat} {k : Packet} (h : s.Within M t) (hm : partialRowScope.le M = true := by decide +kernel) :
    s.Within M (t.partialRow q k) := by
  refine h.andThen hm fun h => ?_
  unfold State.partialRow
  exact h.partialReceive.slotHook

def partialDeliveredScope : Scope := settleScope ||| slotDropScope

theorem Within.partialDelivered {q p coll step chunk : Nat} (h : s.Within M t)
    (hm : partialDeliveredScope.le M = true := by decide +kernel) : s.Within M (t.partialDelivered q p coll step chunk) := by
  refine h.andThen hm fun h => ?_
  unfold State.partialDelivered
  extract_lets
  split
  · exact .ite h.slotDrop.settle h
  · exact h

def tier0PartialScope : Scope := settleScope ||| waitAddScope ||| addTier0Scope ||| slotCreateScope

theorem Within.tier0Partial {q p coll step chunk : Nat} (h : s.Within M t) (hm : tier0PartialScope.le M = true := by decide +kernel) :
    s.Within M (t.tier0Partial q p coll step chunk) := by
  refine h.andThen hm fun h => ?_
  unfold State.tier0Partial
  extract_lets
  split
  · split
    · extract_lets
      split
      · exact h
      · split
        · exact .ite h.addTier0 h.waitAdd.settle
        · exact .ite h.sltEvent h.slotCreate.waitAdd.settle
        · exact h.sltEvent
        · exact h
    · exact h
  · exact h

def tier0RowScope : Scope := slotHookScope ||| tier0PartialScope

theorem Within.tier0Row {q p coll step chunk : Nat} (h : s.Within M t) (hm : tier0RowScope.le M = true := by decide +kernel) :
    s.Within M (t.tier0Row q p coll step chunk) := by
  refine h.andThen hm fun h => ?_
  unfold State.tier0Row
  extract_lets _ s1
  have hs1 : t.Within tier0RowScope s1 := .ite h h.countLocal.countLocal
  exact hs1.tier0Partial.slotHook

def holdSumScope : Scope := checkReadyScope ||| slotPutScope

theorem Within.holdSum {p coll step chunk : Nat} {e' : CollE} (h : s.Within M t) (hm : holdSumScope.le M = true := by decide +kernel) :
    s.Within M (t.holdSum p coll step chunk e') := by
  refine h.andThen hm fun h => ?_
  unfold State.holdSum
  extract_lets
  split
  · exact .ite h.slotPut.instPut.checkReady h
  · exact h

def crownProceedScope : Scope := sendPartialScope ||| crownResultScope ||| resultToRacksScope

theorem Within.crownProceed {p coll step chunk : Nat} {e' : CollE} (h : s.Within M t)
    (hm : crownProceedScope.le M = true := by decide +kernel) : s.Within M (t.crownProceed p coll step chunk e') := by
  refine h.andThen hm fun h => ?_
  unfold State.crownProceed
  extract_lets
  split
  · split
    · split
      · extract_lets s1
        have hs1 : t.Within crownProceedScope s1 := h.sendPartial
        exact .ite h (.ite hs1.chunkResulted hs1)
      · exact .ite h h.crownResult
      · extract_lets s1
        have hs1 : t.Within crownProceedScope s1 := .ite h h.resultToRacks
        split
        · exact h
        · split
          · exact hs1.crownResult
          · exact hs1
    · exact h
  · exact h

def readoutDoneScope : Scope := localFinalScope ||| crownProceedScope

theorem Within.readoutDone {q p coll step chunk : Nat} {e' : CollE} {x : Slot} {range : Nat} (h : s.Within M t)
    (hm : readoutDoneScope.le M = true := by decide +kernel) : s.Within M (t.readoutDone q p coll step chunk e' x range) := by
  refine h.andThen hm fun h => ?_
  unfold State.readoutDone
  extract_lets _ s1
  have hs1 : t.Within readoutDoneScope s1 := h.slotPut
  exact .ite hs1.crownProceed.localFinal hs1

def slotReadoutCompleteScope : Scope := unitScope ||| readoutDoneScope ||| slabBeatsScope ||| holdSumScope

theorem Within.slotReadoutComplete {q p coll step chunk : Nat} (h : s.Within M t)
    (hm : slotReadoutCompleteScope.le M = true := by decide +kernel) : s.Within M (t.slotReadoutComplete q p coll step chunk) := by
  refine h.andThen hm fun h => ?_
  unfold State.slotReadoutComplete
  extract_lets
  split
  · split
    · split
      · exact h
      · split
        · exact h.unit (fun _ hu => hu.slabBeats.readoutDone)
        · exact h.holdSum.localFinal
    · exact h
  · exact h

def waitDropScope : Scope := scope [.waits] []

theorem Within.waitDrop {q p coll step chunk : Nat} (h : s.Within M t) (hm : waitDropScope.le M = true := by decide +kernel) :
    s.Within M (t.waitDrop q p coll step chunk) := by
  refine h.andThen hm fun h => ?_
  unfold State.waitDrop
  extract_lets
  exact h.waits

def admTakeScope : Scope := scope [.admMsgs] []

theorem Within.admTake {m : AdmMsg} (h : s.Within M t) (hm : admTakeScope.le M = true := by decide +kernel) : s.Within M (t.admTake m)
    := by
  refine h.andThen hm fun h => ?_
  unfold State.admTake
  exact h.admMsgs

def admissionReplyScope : Scope := admTakeScope ||| settleScope ||| slotCreateScope ||| slotDropScope ||| deferredScope ||| waitDropScope

theorem Within.admissionReply {q p coll step chunk : Nat} {granted : Bool} (h : s.Within M t)
    (hm : admissionReplyScope.le M = true := by decide +kernel) : s.Within M (t.admissionReply q p coll step chunk granted) := by
  refine h.andThen hm fun h => ?_
  unfold State.admissionReply
  extract_lets _ s1
  have hs1 : t.Within admissionReplyScope s1 := h.admTake
  split
  · exact h
  · split
    · split
      · exact hs1
      · split
        · split
          · exact hs1.slotCreate.settle
          · exact hs1.slotDrop
        · exact hs1.slotDrop.waitDrop.foldl (fun _ _ hu => hu.deferred)
    · exact hs1

def admSayScope : Scope := scope [.admMsgs] []

theorem Within.admSay {m : AdmMsg} (h : s.Within M t) (hm : admSayScope.le M = true := by decide +kernel) : s.Within M (t.admSay m) := by
  refine h.andThen hm fun h => ?_
  unfold State.admSay
  exact h.admMsgs

def admissionRequestScope : Scope := admTakeScope ||| admSayScope ||| slotCreateScope

theorem Within.admissionRequest {q p coll step chunk : Nat} (h : s.Within M t)
    (hm : admissionRequestScope.le M = true := by decide +kernel) : s.Within M (t.admissionRequest q p coll step chunk) := by
  refine h.andThen hm fun h => ?_
  unfold State.admissionRequest
  extract_lets _ s1
  have hs1 : t.Within admissionRequestScope s1 := h.admTake
  split
  · exact h
  · split
    · exact hs1.admSay
    · split
      · exact hs1.admSay
      · split
        · exact hs1.admSay
        · exact .ite hs1.admSay hs1.slotCreate.admSay

def askCrownScope : Scope := scope [] [V.SLOT_SEQ] ||| slotPutScope ||| admSayScope

theorem Within.askCrown {q p coll step chunk : Nat} {e' : CollE} {i : Inst} (h : s.Within M t)
    (hm : askCrownScope.le M = true := by decide +kernel) : s.Within M (t.askCrown q p coll step chunk e' i) := by
  refine h.andThen hm fun h => ?_
  unfold State.askCrown
  extract_lets _ _ s1
  have hs1 : t.Within askCrownScope s1 := h.slotPut.wr
  exact hs1.admSay

def contribChunkScope : Scope := waitAddScope ||| admitChunkScope ||| instEnsureScope ||| slotCreateScope ||| askCrownScope

theorem Within.contribChunk {q acc : Nat} {k : Packet} {e' : CollE} {i : Inst} {c : Nat} (h : s.Within M t)
    (hm : contribChunkScope.le M = true := by decide +kernel) : s.Within M ((t.contribChunk q acc k e' i c).1) := by
  refine h.andThen hm fun h => ?_
  unfold State.contribChunk
  extract_lets p coll step wait join
  have hjoin : ∀ u, t.Within contribChunkScope u → t.Within contribChunkScope (join u) := fun u hu => by
    unfold join
    split
    · exact .ite hu.admitChunk hu.waitAdd
    · exact hu
  clear_value join
  split
  · exact hjoin _ h.instEnsure
  · split
    · dsimp only
      exact h.sltEvent
    · split
      · exact h
      · split
        · split
          · exact hjoin _ h.instEnsure.slotCreate
          · exact h
        · dsimp only [wait]
          exact h.instEnsure.askCrown.waitAdd

def contribChunksScope : Scope := contribChunkScope ||| settleScope ||| deferredScope

theorem Within.contribChunks {q acc : Nat} {k : Packet} {e' : CollE} {i : Inst} (h : s.Within M t)
    (hm : contribChunksScope.le M = true := by decide +kernel) : s.Within M (t.contribChunks q acc k e' i) := by
  refine h.andThen hm fun h => ?_
  unfold State.contribChunks
  extract_lets r1
  have hr1 : t.Within contribChunksScope r1.1 := by
    unfold r1
    refine Within.foldl_fst h fun _ _ hu => by
      extract_lets u2
      have hu2 : t.Within contribChunksScope u2.1 := hu.contribChunk
      exact hu2
  split
  · exact hr1.deferred.settle
  · exact hr1.settle

def contribInstScope : Scope := wastedPacketScope ||| contribChunksScope

theorem Within.contribInst {q acc : Nat} {k : Packet} {e' : CollE} (h : s.Within M t)
    (hm : contribInstScope.le M = true := by decide +kernel) : s.Within M (t.contribInst q acc k e') := by
  refine h.andThen hm fun h => ?_
  unfold State.contribInst
  extract_lets
  split
  · exact h.nack
  · split
    · exact h.nack
    · exact h.wastedPacket
    · exact .ite h.wastedPacket (.ite h.nack h.contribChunks)
    · exact .ite h.nack h.contribChunks

def contribScope : Scope := atServiceScope ||| forwardToScope ||| contribInstScope ||| nonMemberScope

theorem Within.contrib {q : Nat} {k : Packet} (h : s.Within M t) (hm : contribScope.le M = true := by decide +kernel) :
    s.Within M (t.contrib q k) := by
  refine h.andThen hm fun h => ?_
  unfold State.contrib
  extract_lets
  refine h.atService fun _ hu => by
    split
    · exact hu.countDiscard
    · split
      · exact .ite hu.forwardTo (.ite hu.contribInst hu.nonMember)
      · exact hu.nonMember

def contribRowScope : Scope := slotHookScope ||| contribScope

theorem Within.contribRow {q : Nat} {k : Packet} (h : s.Within M t) (hm : contribRowScope.le M = true := by decide +kernel) :
    s.Within M (t.contribRow q k) := by
  refine h.andThen hm fun h => ?_
  unfold State.contribRow
  exact h.contrib.slotHook

def cnackReceiveScope : Scope := atServiceScope

theorem Within.cnackReceive {q : Nat} {k : Packet} (h : s.Within M t) (hm : cnackReceiveScope.le M = true := by decide +kernel) :
    s.Within M (t.cnackReceive q k) := by
  refine h.andThen hm fun h => ?_
  unfold State.cnackReceive
  exact h.atService (fun _ hu => hu)

def resultResendTimerScope : Scope := settleScope ||| resendAnyScope

theorem Within.resultResendTimer {p coll step : Nat} (h : s.Within M t) (hm : resultResendTimerScope.le M = true := by decide +kernel) :
    s.Within M (t.resultResendTimer p coll step) := by
  refine h.andThen hm fun h => ?_
  unfold State.resultResendTimer
  split
  · exact h
  · split
    · exact h
    · extract_lets _ s1
      have hs1 : t.Within resultResendTimerScope s1 := h.instPut
      exact .ite h ((hs1.foldl (fun _ _ hu => hu.foldl (fun _ _ hu2 => .ite hu2 hu2.resendAny))).settle)

def epochFlipScope : Scope := flipNowScope ||| knitNextScope ||| groupApplyScope

theorem Within.epochFlip {p : Nat} (h : s.Within M t) (hm : epochFlipScope.le M = true := by decide +kernel) : s.Within M (t.epochFlip p)
    := by
  refine h.andThen hm fun h => ?_
  unfold State.epochFlip
  exact .ite h (.ite ((h.foldl (fun _ _ hu => hu.resyncImg)).flipNow) (.ite h.groupApply.flipNow.knitNext h))

def ageExpiryScope : Scope := ageOutScope

theorem Within.ageExpiry {q o : Nat} (h : s.Within M t) (hm : ageExpiryScope.le M = true := by decide +kernel) :
    s.Within M (t.ageExpiry q o) := by
  refine h.andThen hm fun h => ?_
  unfold State.ageExpiry
  split
  · exact h
  · exact .ite h.ageOut h

def steerScope : Scope := scope [.svc] [] ||| countDiscardScope ||| mitPutScope ||| noteHeaderScope

theorem Within.steer {q k : Nat} {pk : Packet} {ds : List Dest} (h : s.Within M t) (hm : steerScope.le M = true := by decide +kernel) :
    s.Within M (t.steer q k pk ds) := by
  refine h.andThen hm fun h => ?_
  unfold State.steer
  refine h.noteHeader.foldl fun _ _ hu => by
    extract_lets _ t1
    have ht1 : t.Within steerScope t1 := hu.wr.countLocal
    exact .ite hu.countDiscard (.ite ht1.svc hu.mitPut)

def countInScope : Scope := scope [] [V.RTR_FLIT_IN, V.RTR_PKT_IN] ||| countLocalScope ||| countLegacyScope

theorem Within.countIn {q k : Nat} {pk : Packet} (h : s.Within M t) (hm : countInScope.le M = true := by decide +kernel) :
    s.Within M (t.countIn q k pk) := by
  refine h.andThen hm fun h => ?_
  unfold State.countIn
  extract_lets s1 s2
  have hs1 : t.Within countInScope s1 := h.bump.bump
  have hs2 : t.Within countInScope s2 := hs1.countLocal.countLocal
  exact hs2.countLegacy.countLegacy

def headerArrivalScope : Scope := scope [] [V.LNK_LOST_BOUND, V.LNK_RCVD, V.INGRESS_OPEN, V.INGRESS_UID] ||| injFiredScope ||| countInScope
  ||| discardScope ||| grantScope ||| mirrorScope ||| steerScope

theorem Within.headerArrival {q k : Nat} {pk : Packet} (h : s.Within M t) (hm : headerArrivalScope.le M = true := by decide +kernel) :
    s.Within M (t.headerArrival q k pk) := by
  refine h.andThen hm fun h => ?_
  unfold State.headerArrival
  extract_lets s1 r s2 s3 s4
  have hs1 : t.Within headerArrivalScope s1 := h.countIn
  have hs2 : t.Within headerArrivalScope s2 := hs1.bump
  clear_value r
  refine .ite h (.ite h (.ite h.injFired.wr (.ite hs1.discard.wr ?_)))
  split
  · exact hs2.mirror.discard.grant
  · have hs3 : t.Within headerArrivalScope s3 := hs2.foldl fun _ _ hu => hu.countDiscard
    exact .ite hs3.mirror.steer.wr.grant (.ite hs3.mirror.grant hs3.wr.wr.stage.grant)

def zeroMovesScope : Scope := zeroDevScope

theorem Within.zeroMoves {ms : List (Nat × Nat × Nat)} (h : s.Within M t) (hm : zeroMovesScope.le M = true := by decide +kernel) :
    s.Within M (t.zeroMoves ms) := by
  refine h.andThen hm fun h => ?_
  unfold State.zeroMoves
  exact h.foldl (fun _ _ hu => hu.zeroDev)

def zeroWatchScope : Scope := scope [] [V.ZERO_BUSERR, V.ZERO_LOST]

theorem Within.zeroWatch (h : s.Within M t) (hm : zeroWatchScope.le M = true := by decide +kernel) : s.Within M (t.zeroWatch) := by
  refine h.andThen hm fun h => ?_
  unfold State.zeroWatch
  exact h.eraseRegs ([V.ZERO_BUSERR, V.ZERO_LOST]) (fun _ _ hn => by simp only [List.forall_mem_cons] at hn; simp [hn])

def borderZeroizeEndScope : Scope := scope [] [V.KNT_TRIES] ||| knitNextScope ||| borderApplyScope ||| zeroWatchScope ||| zeroMovesScope

theorem Within.borderZeroizeEnd {mismatch : List (Nat × Nat)} (h : s.Within M t)
    (hm : borderZeroizeEndScope.le M = true := by decide +kernel) : s.Within M (t.borderZeroizeEnd mismatch) := by
  refine h.andThen hm fun h => ?_
  unfold State.borderZeroizeEnd
  extract_lets _ _ s1
  have hs1 : t.Within borderZeroizeEndScope s1 := h.foldl (fun _ _ hu => hu.wr)
  exact .ite (.ite h.borderApply.knitNext (.ite h.zeroMoves.wr.zeroWatch hs1.knitFail)) h

def borderDrainTimeoutScope : Scope := knitFailScope

theorem Within.borderDrainTimeout (h : s.Within M t) (hm : borderDrainTimeoutScope.le M = true := by decide +kernel) :
    s.Within M (t.borderDrainTimeout) := by
  refine h.andThen hm fun h => ?_
  unfold State.borderDrainTimeout
  exact .ite h.knitFail h

def borderDrainEndScope : Scope := scope [] [V.KNT_TRIES, V.KNT_WAIT] ||| zeroWatchScope ||| zeroMovesScope

theorem Within.borderDrainEnd (h : s.Within M t) (hm : borderDrainEndScope.le M = true := by decide +kernel) :
    s.Within M (t.borderDrainEnd) := by
  refine h.andThen hm fun h => ?_
  unfold State.borderDrainEnd
  exact .ite h.zeroMoves.wr.wr.zeroWatch h

def voteCommitTimeoutScope : Scope := knitVoteScope

theorem Within.voteCommitTimeout (h : s.Within M t) (hm : voteCommitTimeoutScope.le M = true := by decide +kernel) :
    s.Within M (t.voteCommitTimeout) := by
  refine h.andThen hm fun h => ?_
  unfold State.voteCommitTimeout
  exact h.knitVote

def knitVoteResultScope : Scope := voteDoneScope

theorem Within.knitVoteResult (h : s.Within M t) (hm : knitVoteResultScope.le M = true := by decide +kernel) :
    s.Within M (t.knitVoteResult) := by
  refine h.andThen hm fun h => ?_
  unfold State.knitVoteResult
  split
  · exact h
  · split
    · exact .ite h h.voteDone
    · exact h.voteDone

def quietTimeoutScope : Scope := knitFailScope

theorem Within.quietTimeout (h : s.Within M t) (hm : quietTimeoutScope.le M = true := by decide +kernel) : s.Within M (t.quietTimeout)
    := by
  refine h.andThen hm fun h => ?_
  unfold State.quietTimeout
  extract_lets
  exact .ite h.knitFail h

def groupCommitScope : Scope := knitNextScope ||| groupApplyScope ||| quadResetScope

theorem Within.groupCommit (h : s.Within M t) (hm : groupCommitScope.le M = true := by decide +kernel) : s.Within M (t.groupCommit) := by
  refine h.andThen hm fun h => ?_
  unfold State.groupCommit
  extract_lets _ _ s1 s2 s3
  have hs1 : t.Within groupCommitScope s1 := h.eraseRegs [V.QUIESCE] (fun _ _ hn => by simp only [List.forall_mem_cons] at hn; simp [hn])
  have hs2 : t.Within groupCommitScope s2 := hs1.groupApply
  have hs3 : t.Within groupCommitScope s3 := hs2.foldl (fun _ _ hu => hu.quadReset.wr)
  split
  · exact h
  · split
    · exact h.groupApply.knitNext
    · exact .ite h.groupApply.knitNext h
    · exact .ite hs3.knitNext h
    · exact h

def knitFetchedScope : Scope := stageKnitScope ||| knitStageScope

theorem Within.knitFetched {bs : List Byte} (h : s.Within M t) (hm : knitFetchedScope.le M = true := by decide +kernel) :
    s.Within M (t.knitFetched bs) := by
  refine h.andThen hm fun h => ?_
  unfold State.knitFetched
  extract_lets _ s1 _ s2
  have hs1 : t.Within knitFetchedScope s1 := h.stageKnit.wr
  have hs2 : t.Within knitFetchedScope s2 := .ite hs1.wr hs1
  split
  · exact h
  · split
    · exact h
    · split
      · exact hs2.knitFail
      · exact hs2.knitStage

def fetchDoneScope : Scope := readGateScope ||| knitFetchedScope

theorem Within.fetchDone {bs : List Byte} (h : s.Within M t) (hm : fetchDoneScope.le M = true := by decide +kernel) :
    s.Within M (t.fetchDone bs) := by
  refine h.andThen hm fun h => ?_
  unfold State.fetchDone
  exact .ite (h.readGate (fun _ hu => hu.knitFetched)) h

def seamCrcScope : Scope := scope [] [V.SEAM_RETRY]

theorem Within.seamCrc {a b : Nat} (h : s.Within M t) (hm : seamCrcScope.le M = true := by decide +kernel) : s.Within M (t.seamCrc a b)
    := by
  refine h.andThen hm fun h => ?_
  unfold State.seamCrc
  exact h.bump

end State

end Sys2Proof.Machine
end

section
/-! SUPPORT. From a scope to the frames of the statements, and from an operation to its command. -/

namespace Sys2Proof.Machine

set_option Elab.async false

variable {M : Scope} {s t u : State}

/-! ## The bits of parts and of fields -/

/-- Every part. -/
def allParts : List Part :=
  [.img, .hbm, .flash, .badSectors, .staging, .bufs, .reasm, .svc, .mitEgress, .parkQ, .movCmds, .mit, .notices, .slots, .slab, .waits, .admMsgs,
   .pagerOp, .insts, .trigOps, .cqWait, .psBuf, .handoffs, .upd, .errDue, .errLog, .hatLog, .out, .free]

theorem mem_allParts (p : Part) : p ∈ allParts := by cases p <;> simp [allParts]

/-- Two parts share no bit. -/
theorem Part.apart_bits {p q : Part} (h : p ≠ q) : p.bits.apart q.bits = true := by
  have key : ∀ p ∈ allParts, ∀ q ∈ allParts, p ≠ q → p.bits.apart q.bits = true := by decide +kernel
  exact key p (mem_allParts p) q (mem_allParts q) h

/-- The bits of a part are odd ones, below that of the floors. -/
theorem Part.testBit_bits {p : Part} {i : Nat} (h : p.bits.testBit i = true) : i % 2 = 1 ∧ i < 63 := by
  have key : ∀ p ∈ allParts, p.bits < 2 ^ 63 ∧ ∀ i < 63, p.bits.testBit i = true → i % 2 = 1 := by decide +kernel
  obtain ⟨hlt, hodd⟩ := key p (mem_allParts p)
  have hi : i < 63 := by
    by_contra hi
    rw [Nat.testBit_lt_two_pow (hlt.trans_le (Nat.pow_le_pow_right (by decide) (not_lt.1 hi)))] at h
    cases h
  exact ⟨hodd i hi h, hi⟩

/-- The bits of a field: that of its number, and, for the counters of boot flash, that of the floors. -/
theorem Fld.testBit_bits {f : Fld} {i : Nat} (h : f.bits.testBit i = true) : i = 2 * f.id ∨ (i = 63 ∧ f.id = V.FLASH_CTR.id) := by
  rw [Fld.bits, Nat.testBit_or, Bool.or_eq_true, Nat.testBit_two_pow, decide_eq_true_eq] at h
  rcases h with h | h
  · exact .inl h.symm
  · cases e : f.id == V.FLASH_CTR.id
    · simp [e] at h
    · rw [e, cond_true, floorCtrs, Nat.testBit_two_pow, decide_eq_true_eq] at h
      exact .inr ⟨h.symm, eq_of_beq e⟩

/-- A bit of a scope of parts and fields is that of a listed part or field. -/
theorem Scope.testBit_scope_iff {ps : List Part} {fs : List Fld} {i : Nat} :
    (scope ps fs).testBit i = true ↔ (∃ f ∈ fs, f.bits.testBit i = true) ∨ ∃ p ∈ ps, p.bits.testBit i = true := by
  rw [Scope.testBit_scope, Bool.or_eq_true, List.any_eq_true, List.any_eq_true]

/-! ## Frames -/

namespace State.Within

/-- Nothing but the listed parts and fields changes. -/
theorem toWrites {ps : List Part} {fs : List Fld} (h : s.Within M t) (hm : M.le (scope ps fs) = true := by decide +kernel) :
    s.writes ps fs t := by
  refine ⟨h.queue, fun p hp => h.parts p (Scope.apart_of_le hm (Scope.apart_of_bits fun i hi => ?_)),
    fun f ix hf => h.regs (Scope.apart_of_le hm (Scope.apart_of_bits fun i hi => ?_)) f ix
      (Scope.apart_of_le hm (Scope.apart_of_bits fun i hi => ?_))⟩ <;> rw [← Bool.not_eq_true, Scope.testBit_scope_iff]
  · obtain ⟨hodd, hlt⟩ := Part.testBit_bits hi
    rintro (⟨f, _, hb⟩ | ⟨q, hq, hb⟩)
    · rcases Fld.testBit_bits hb with e | ⟨e, _⟩ <;> omega
    · rw [Scope.apart_bit (Part.apart_bits fun e : q = p => hp (e ▸ hq)) hi] at hb
      cases hb
  · rw [anyReg, Nat.testBit_two_pow, decide_eq_true_eq] at hi
    rintro (⟨f, _, hb⟩ | ⟨q, _, hb⟩)
    · rcases Fld.testBit_bits hb with e | ⟨e, _⟩ <;> omega
    · have := Part.testBit_bits hb
      omega
  · rintro (⟨g, hg, hb⟩ | ⟨q, _, hb⟩)
    · refine hf g hg ?_
      rcases Fld.testBit_bits hi with e | ⟨e, hf'⟩ <;> rcases Fld.testBit_bits hb with e' | ⟨e', hg'⟩ <;> omega
    · have := Part.testBit_bits hb
      rcases Fld.testBit_bits hi with e | ⟨e, _⟩ <;> omega

end State.Within

/-- The block of a field number. -/
def blockOf (i : Nat) : Option Block := ((blockTable.find? fun r => decide (i < r.1)).map Prod.snd).join

/-- A scope holds, of the parts, only listed ones, and of the registers only such as lie in listed blocks or in none. -/
def Scope.within (M : Scope) (ps : List Part) (bs : List Block) : Bool :=
  (allParts.all fun p => ps.contains p || M.apart p.bits) && M.apart anyReg &&
    (List.range 1287).all fun i => !(M.testBit (2 * i) || (i == V.FLASH_CTR.id && M.testBit 63)) || (blockOf i).all fun b => bs.contains b

theorem Fld.id_lt_of_block {f : Fld} {b : Block} (h : f.block = some b) : f.id < 1287 := by
  unfold Fld.block at h
  cases e : blockTable.find? fun r => decide (f.id < r.1) with
  | none => simp [e] at h
  | some r =>
    have hlt : f.id < r.1 := by simpa using List.find?_some e
    have hr : ∀ r ∈ blockTable, r.1 ≤ 1287 := by decide +kernel
    exact hlt.trans_le (hr r (List.mem_of_find?_eq_some e))

/-- Nothing but the listed parts and the registers of the listed blocks changes. -/
theorem State.Within.toTouches {ps : List Part} {bs : List Block} (h : s.Within M t) (hm : M.within ps bs = true := by decide +kernel) :
    s.touches ps bs t := by
  simp only [Scope.within, Bool.and_eq_true, List.all_eq_true] at hm
  obtain ⟨⟨hparts, hany⟩, hblocks⟩ := hm
  refine ⟨h.queue, fun p hp => h.parts p ?_, fun f b ix hf hb => h.regs hany f ix (Scope.apart_of_bits fun i hi => ?_)⟩
  · have := hparts p (mem_allParts p)
    rw [Bool.or_eq_true, List.contains_iff_mem] at this
    exact this.resolve_left hp
  · have := hblocks f.id (List.mem_range.2 (Fld.id_lt_of_block hf))
    rw [show blockOf f.id = some b from hf, Option.all_some, Bool.or_eq_true, List.contains_iff_mem, Bool.not_eq_true', Bool.or_eq_false_iff] at this
    obtain ⟨hid, hfloor⟩ := this.resolve_right hb
    rcases Fld.testBit_bits hi with e | ⟨e, hf'⟩
    · rw [e, hid]
    · rw [e]
      simpa [hf'] using hfloor

/-! ## Commands -/

/-- A command whose operation stays within a scope stays within it, whether it runs or not. -/
theorem State.run_within {ok up : Bool} {f : State → State} (e : s.run ok up f = .next t) (h : s.Within M (f s)) : s.Within M t := by
  have put : s.Within M ((f s).withQueue s.pending) := by
    rw [← h.queue]
    exact h
  rcases State.run_cases s ok up f with ⟨_, he⟩ | ⟨_, he⟩ <;> rw [he] at e <;> cases e
  · exact .refl
  · exact put

end Sys2Proof.Machine
end

section
/-! SUPPORT. Every command stays within the scope of its operation. -/

namespace Sys2Proof.Machine

set_option Elab.async false

theorem within_registerWrite {fn : Nat} {off : Nat} {size : Nat} {value : BitVec 64} {s t : State} (e : exec (.registerWrite fn off size value) s = .next t) : s.Within State.registerWriteScope t :=
  State.run_within ((exec_registerWrite ..).symm.trans e) State.Within.refl.registerWrite

theorem within_splitReadLow {fn : Nat} {off : Nat} {size : Nat} {s t : State} (e : exec (.splitReadLow fn off size) s = .next t) : s.Within State.registerReadScope t :=
  State.run_within ((exec_splitReadLow ..).symm.trans e) State.Within.refl.registerRead

theorem within_seamCrcError {a : Nat} {b : Nat} {s t : State} (e : exec (.seamCrcError a b) s = .next t) : s.Within State.seamCrcScope t :=
  State.run_within ((exec_seamCrcError ..).symm.trans e) State.Within.refl.seamCrc

theorem within_seamDown {a : Nat} {b : Nat} {s t : State} (e : exec (.seamDown a b) s = .next t) : s.Within State.seamDownScope t :=
  State.run_within ((exec_seamDown ..).symm.trans e) State.Within.refl.seamDown

theorem within_knitLoad {fn : Nat} {s t : State} (e : exec (.knitLoad fn) s = .next t) : s.Within State.knitLoadScope t :=
  State.run_within ((exec_knitLoad ..).symm.trans e) State.Within.refl.knitLoad

theorem within_knitAbort {fn : Nat} {s t : State} (e : exec (.knitAbort fn) s = .next t) : s.Within State.knitAbortScope t :=
  State.run_within ((exec_knitAbort ..).symm.trans e) State.Within.refl.knitAbort

theorem within_knitCommit {fn : Nat} {s t : State} (e : exec (.knitCommit fn) s = .next t) : s.Within State.knitCommitScope t :=
  State.run_within ((exec_knitCommit ..).symm.trans e) State.Within.refl.knitCommit

theorem within_knitFetchComplete {file : List Byte} {s t : State} (e : exec (.knitFetchComplete file) s = .next t) : s.Within State.fetchDoneScope t :=
  State.run_within ((exec_knitFetchComplete ..).symm.trans e) State.Within.refl.fetchDone

theorem within_groupCommit {s t : State} (e : exec .groupCommit s = .next t) : s.Within State.groupCommitScope t :=
  State.run_within ((exec_groupCommit ..).symm.trans e) State.Within.refl.groupCommit

theorem within_resyncEnd {s t : State} (e : exec .resyncEnd s = .next t) : s.Within State.resyncEndScope t :=
  State.run_within ((exec_resyncEnd ..).symm.trans e) State.Within.refl.resyncEnd

theorem within_quietTimeout {s t : State} (e : exec .quietTimeout s = .next t) : s.Within State.quietTimeoutScope t :=
  State.run_within ((exec_quietTimeout ..).symm.trans e) State.Within.refl.quietTimeout

theorem within_knitVoteResult {s t : State} (e : exec .knitVoteResult s = .next t) : s.Within State.knitVoteResultScope t :=
  State.run_within ((exec_knitVoteResult ..).symm.trans e) State.Within.refl.knitVoteResult

theorem within_voteCommitTimeout {s t : State} (e : exec .voteCommitTimeout s = .next t) : s.Within State.voteCommitTimeoutScope t :=
  State.run_within ((exec_voteCommitTimeout ..).symm.trans e) State.Within.refl.voteCommitTimeout

theorem within_borderDrainEnd {s t : State} (e : exec .borderDrainEnd s = .next t) : s.Within State.borderDrainEndScope t :=
  State.run_within ((exec_borderDrainEnd ..).symm.trans e) State.Within.refl.borderDrainEnd

theorem within_borderDrainTimeout {s t : State} (e : exec .borderDrainTimeout s = .next t) : s.Within State.borderDrainTimeoutScope t :=
  State.run_within ((exec_borderDrainTimeout ..).symm.trans e) State.Within.refl.borderDrainTimeout

theorem within_borderZeroizeEnd {mismatch : List (Nat × Nat)} {s t : State} (e : exec (.borderZeroizeEnd mismatch) s = .next t) : s.Within State.borderZeroizeEndScope t :=
  State.run_within ((exec_borderZeroizeEnd ..).symm.trans e) State.Within.refl.borderZeroizeEnd

theorem within_packetHeaderArrival {q : Nat} {port : Nat} {pkt : Packet} {s t : State} (e : exec (.packetHeaderArrival q port pkt) s = .next t) : s.Within State.headerArrivalScope t :=
  State.run_within ((exec_packetHeaderArrival ..).symm.trans e) State.Within.refl.headerArrival

theorem within_ageExpiry {q : Nat} {port : Nat} {s t : State} (e : exec (.ageExpiry q port) s = .next t) : s.Within State.ageExpiryScope t :=
  State.run_within ((exec_ageExpiry ..).symm.trans e) State.Within.refl.ageExpiry

theorem within_epochFlip {p : Nat} {s t : State} (e : exec (.epochFlip p) s = .next t) : s.Within State.epochFlipScope t :=
  State.run_within ((exec_epochFlip ..).symm.trans e) State.Within.refl.epochFlip

theorem within_epochRetire {p : Nat} {s t : State} (e : exec (.epochRetire p) s = .next t) : s.Within State.epochRetireScope t :=
  State.run_within ((exec_epochRetire ..).symm.trans e) State.Within.refl.epochRetire

theorem within_resultResendTimer {p : Nat} {coll : Nat} {step : Nat} {s t : State} (e : exec (.resultResendTimer p coll step) s = .next t) : s.Within State.resultResendTimerScope t :=
  State.run_within ((exec_resultResendTimer ..).symm.trans e) State.Within.refl.resultResendTimer

theorem within_cnackReceive {q : Nat} {pkt : Packet} {s t : State} (e : exec (.cnackReceive q pkt) s = .next t) : s.Within State.cnackReceiveScope t :=
  State.run_within ((exec_cnackReceive ..).symm.trans e) State.Within.refl.cnackReceive

theorem within_kegusTestWrite {reg : Nat} {value : BitVec 64} {s t : State} (e : exec (.kegusTestWrite reg value) s = .next t) : s.Within State.kegusTestWriteScope t :=
  State.run_within ((exec_kegusTestWrite ..).symm.trans e) State.Within.refl.kegusTestWrite

theorem within_contrib {q : Nat} {pkt : Packet} {s t : State} (e : exec (.contrib q pkt) s = .next t) : s.Within State.contribRowScope t :=
  State.run_within ((exec_contrib ..).symm.trans e) State.Within.refl.contribRow

theorem within_admissionRequest {q : Nat} {p : Nat} {coll : Nat} {step : Nat} {chunk : Nat} {s t : State} (e : exec (.admissionRequest q p coll step chunk) s = .next t) : s.Within State.admissionRequestScope t :=
  State.run_within ((exec_admissionRequest ..).symm.trans e) State.Within.refl.admissionRequest

theorem within_admissionReply {q : Nat} {p : Nat} {coll : Nat} {step : Nat} {chunk : Nat} {granted : Bool} {s t : State} (e : exec (.admissionReply q p coll step chunk granted) s = .next t) : s.Within State.admissionReplyScope t :=
  State.run_within ((exec_admissionReply ..).symm.trans e) State.Within.refl.admissionReply

theorem within_slotReadoutComplete {q : Nat} {p : Nat} {coll : Nat} {step : Nat} {chunk : Nat} {s t : State} (e : exec (.slotReadoutComplete q p coll step chunk) s = .next t) : s.Within State.slotReadoutCompleteScope t :=
  State.run_within ((exec_slotReadoutComplete ..).symm.trans e) State.Within.refl.slotReadoutComplete

theorem within_tier0Partial {q : Nat} {p : Nat} {coll : Nat} {step : Nat} {chunk : Nat} {s t : State} (e : exec (.tier0Partial q p coll step chunk) s = .next t) : s.Within State.tier0RowScope t :=
  State.run_within ((exec_tier0Partial ..).symm.trans e) State.Within.refl.tier0Row

theorem within_partialDelivered {q : Nat} {p : Nat} {coll : Nat} {step : Nat} {chunk : Nat} {s t : State} (e : exec (.partialDelivered q p coll step chunk) s = .next t) : s.Within State.partialDeliveredScope t :=
  State.run_within ((exec_partialDelivered ..).symm.trans e) State.Within.refl.partialDelivered

theorem within_partialReceive {q : Nat} {pkt : Packet} {s t : State} (e : exec (.partialReceive q pkt) s = .next t) : s.Within State.partialRowScope t :=
  State.run_within ((exec_partialReceive ..).symm.trans e) State.Within.refl.partialRow

theorem within_resultFromRack {q : Nat} {pkt : Packet} {s t : State} (e : exec (.resultFromRack q pkt) s = .next t) : s.Within State.resultFromRackScope t :=
  State.run_within ((exec_resultFromRack ..).symm.trans e) State.Within.refl.resultFromRack

theorem within_publishFromRack {q : Nat} {pkt : Packet} {s t : State} (e : exec (.publishFromRack q pkt) s = .next t) : s.Within State.publishFromRackScope t :=
  State.run_within ((exec_publishFromRack ..).symm.trans e) State.Within.refl.publishFromRack

theorem within_pagerSpill {q : Nat} {p : Nat} {s t : State} (e : exec (.pagerSpill q p) s = .next t) : s.Within State.pagerSpillScope t :=
  State.run_within ((exec_pagerSpill ..).symm.trans e) State.Within.refl.pagerSpill

theorem within_pagerRecall {q : Nat} {p : Nat} {s t : State} (e : exec (.pagerRecall q p) s = .next t) : s.Within State.pagerRecallScope t :=
  State.run_within ((exec_pagerRecall ..).symm.trans e) State.Within.refl.pagerRecall

theorem within_pagerSwap {q : Nat} {p : Nat} {s t : State} (e : exec (.pagerSwap q p) s = .next t) : s.Within State.pagerSwapScope t :=
  State.run_within ((exec_pagerSwap ..).symm.trans e) State.Within.refl.pagerSwap

theorem within_pagerOpComplete {q : Nat} {s t : State} (e : exec (.pagerOpComplete q) s = .next t) : s.Within State.pagerOpCompleteScope t :=
  State.run_within ((exec_pagerOpComplete ..).symm.trans e) State.Within.refl.pagerOpComplete

theorem within_sweepEnd {p : Nat} {s t : State} (e : exec (.sweepEnd p) s = .next t) : s.Within State.sweepEndScope t :=
  State.run_within ((exec_sweepEnd ..).symm.trans e) State.Within.refl.sweepEnd

theorem within_slabLockTimeout {q : Nat} {bank : Nat} {port : Nat} {req : Nat} {busy : List (Nat × Nat × Nat × Nat)} {s t : State} (e : exec (.slabLockTimeout q bank port req busy) s = .next t) : s.Within State.slabTimeoutScope t :=
  State.run_within ((exec_slabLockTimeout ..).symm.trans e) State.Within.refl.slabTimeout

theorem within_ringDoorbell {q : Nat} {p : Nat} {e : Nat} {prod : BitVec 32} {s t : State} (e : exec (.ringDoorbell q p e prod) s = .next t) : s.Within State.ringDoorbellScope t :=
  State.run_within ((exec_ringDoorbell ..).symm.trans e) State.Within.refl.ringDoorbell

theorem within_doorbell {q : Nat} {pkt : Packet} {s t : State} (e : exec (.doorbell q pkt) s = .next t) : s.Within State.doorbellScope t :=
  State.run_within ((exec_doorbell ..).symm.trans e) State.Within.refl.doorbell

theorem within_ringErrClear {q : Nat} {p : Nat} {e : Nat} {s t : State} (e : exec (.ringErrClear q p e) s = .next t) : s.Within State.ringErrClearScope t :=
  State.run_within ((exec_ringErrClear ..).symm.trans e) State.Within.refl.ringErrClear

theorem within_cqRecordWrite {p : Nat} {k : Nat} {s t : State} (e : exec (.cqRecordWrite p k) s = .next t) : s.Within State.cqRecordWriteScope t :=
  State.run_within ((exec_cqRecordWrite ..).symm.trans e) State.Within.refl.cqRecordWrite

theorem within_collective {q : Nat} {p : Nat} {entry : BitVec 512} {s t : State} (e : exec (.collective q p entry) s = .next t) : s.Within State.collectiveScope t :=
  State.run_within ((exec_collective ..).symm.trans e) State.Within.refl.collective

theorem within_armStep {q : Nat} {p : Nat} {entry : BitVec 512} {s t : State} (e : exec (.armStep q p entry) s = .next t) : s.Within State.armStepScope t :=
  State.run_within ((exec_armStep ..).symm.trans e) State.Within.refl.armStep

theorem within_trigger {q : Nat} {p : Nat} {entry : BitVec 512} {s t : State} (e : exec (.trigger q p entry) s = .next t) : s.Within State.triggerCmdScope t :=
  State.run_within ((exec_trigger ..).symm.trans e) State.Within.refl.triggerCmd

theorem within_increment {q : Nat} {p : Nat} {entry : BitVec 512} {s t : State} (e : exec (.increment q p entry) s = .next t) : s.Within State.incrementCmdScope t :=
  State.run_within ((exec_increment ..).symm.trans e) State.Within.refl.incrementCmd

theorem within_abortCollective {q : Nat} {p : Nat} {entry : BitVec 512} {s t : State} (e : exec (.abortCollective q p entry) s = .next t) : s.Within State.abortCollectiveScope t :=
  State.run_within ((exec_abortCollective ..).symm.trans e) State.Within.refl.abortCollective

theorem within_stepReplay {q : Nat} {p : Nat} {entry : BitVec 512} {s t : State} (e : exec (.stepReplay q p entry) s = .next t) : s.Within State.stepReplayScope t :=
  State.run_within ((exec_stepReplay ..).symm.trans e) State.Within.refl.stepReplay

theorem within_stepReplayEnd {p : Nat} {s t : State} (e : exec (.stepReplayEnd p) s = .next t) : s.Within State.stepReplayEndScope t :=
  State.run_within ((exec_stepReplayEnd ..).symm.trans e) State.Within.refl.stepReplayEnd

theorem within_warm {q : Nat} {p : Nat} {entry : BitVec 512} {s t : State} (e : exec (.warm q p entry) s = .next t) : s.Within State.warmScope t :=
  State.run_within ((exec_warm ..).symm.trans e) State.Within.refl.warm

theorem within_done {q : Nat} {pkt : Packet} {s t : State} (e : exec (.done q pkt) s = .next t) : s.Within State.doneCmdScope t :=
  State.run_within ((exec_done ..).symm.trans e) State.Within.refl.doneCmd

theorem within_gapNack {q : Nat} {pkt : Packet} {s t : State} (e : exec (.gapNack q pkt) s = .next t) : s.Within State.gapNackScope t :=
  State.run_within ((exec_gapNack ..).symm.trans e) State.Within.refl.gapNack

theorem within_patienceExpiry {p : Nat} {coll : Nat} {step : Nat} {s t : State} (e : exec (.patienceExpiry p coll step) s = .next t) : s.Within State.patienceExpiryScope t :=
  State.run_within ((exec_patienceExpiry ..).symm.trans e) State.Within.refl.patienceExpiry

theorem within_reduceForward {p : Nat} {n : Nat} {s t : State} (e : exec (.reduceForward p n) s = .next t) : s.Within State.reduceForwardScope t :=
  State.run_within ((exec_reduceForward ..).symm.trans e) State.Within.refl.reduceForward

theorem within_convertMulticast {p : Nat} {n : Nat} {s t : State} (e : exec (.convertMulticast p n) s = .next t) : s.Within State.convertMulticastScope t :=
  State.run_within ((exec_convertMulticast ..).symm.trans e) State.Within.refl.convertMulticast

theorem within_normContribute {p : Nat} {n : Nat} {s t : State} (e : exec (.normContribute p n) s = .next t) : s.Within State.normContributeScope t :=
  State.run_within ((exec_normContribute ..).symm.trans e) State.Within.refl.normContribute

theorem within_updateShard {p : Nat} {n : Nat} {s t : State} (e : exec (.updateShard p n) s = .next t) : s.Within State.updateShardScope t :=
  State.run_within ((exec_updateShard ..).symm.trans e) State.Within.refl.updateShard

theorem within_publishOp {p : Nat} {n : Nat} {s t : State} (e : exec (.publishOp p n) s = .next t) : s.Within State.publishOpScope t :=
  State.run_within ((exec_publishOp ..).symm.trans e) State.Within.refl.publishOp

theorem within_snapshotOp {p : Nat} {n : Nat} {s t : State} (e : exec (.snapshotOp p n) s = .next t) : s.Within State.snapshotOpScope t :=
  State.run_within ((exec_snapshotOp ..).symm.trans e) State.Within.refl.snapshotOp

theorem within_signalHost {p : Nat} {n : Nat} {s t : State} (e : exec (.signalHost p n) s = .next t) : s.Within State.signalHostScope t :=
  State.run_within ((exec_signalHost ..).symm.trans e) State.Within.refl.signalHost

theorem within_incrementOp {p : Nat} {n : Nat} {s t : State} (e : exec (.incrementOp p n) s = .next t) : s.Within State.incrementOpScope t :=
  State.run_within ((exec_incrementOp ..).symm.trans e) State.Within.refl.incrementOp

theorem within_waitEpoch {p : Nat} {n : Nat} {s t : State} (e : exec (.waitEpoch p n) s = .next t) : s.Within State.waitEpochScope t :=
  State.run_within ((exec_waitEpoch ..).symm.trans e) State.Within.refl.waitEpoch

theorem within_triggerOpComplete {p : Nat} {n : Nat} {s t : State} (e : exec (.triggerOpComplete p n) s = .next t) : s.Within State.triggerOpCompleteScope t :=
  State.run_within ((exec_triggerOpComplete ..).symm.trans e) State.Within.refl.triggerOpComplete

theorem within_partialResendTimer {p : Nat} {coll : Nat} {step : Nat} {chunk : Nat} {s t : State} (e : exec (.partialResendTimer p coll step chunk) s = .next t) : s.Within State.partialResendTimerScope t :=
  State.run_within ((exec_partialResendTimer ..).symm.trans e) State.Within.refl.partialResendTimer

theorem within_podHoldExpiry {p : Nat} {coll : Nat} {step : Nat} {chunk : Nat} {s t : State} (e : exec (.podHoldExpiry p coll step chunk) s = .next t) : s.Within State.podHoldExpiryScope t :=
  State.run_within ((exec_podHoldExpiry ..).symm.trans e) State.Within.refl.podHoldExpiry

theorem within_stragClear {p : Nat} {s t : State} (e : exec (.stragClear p) s = .next t) : s.Within State.stragClearScope t :=
  State.run_within ((exec_stragClear ..).symm.trans e) State.Within.refl.stragClear

theorem within_chunkHandoff {p : Nat} {coll : Nat} {step : Nat} {chunk : Nat} {s t : State} (e : exec (.chunkHandoff p coll step chunk) s = .next t) : s.Within State.handoffRowScope t :=
  State.run_within ((exec_chunkHandoff ..).symm.trans e) State.Within.refl.handoffRow

theorem within_updatePass {p : Nat} {shard : Nat} {chunk : Nat} {s t : State} (e : exec (.updatePass p shard chunk) s = .next t) : s.Within State.updatePassRowScope t :=
  State.run_within ((exec_updatePass ..).symm.trans e) State.Within.refl.updatePassRow

theorem within_stepDecided {p : Nat} {s t : State} (e : exec (.stepDecided p) s = .next t) : s.Within State.stepDecidedScope t :=
  State.run_within ((exec_stepDecided ..).symm.trans e) State.Within.refl.stepDecided

theorem within_stepTimerExpiry {p : Nat} {s t : State} (e : exec (.stepTimerExpiry p) s = .next t) : s.Within State.stepTimerExpiryScope t :=
  State.run_within ((exec_stepTimerExpiry ..).symm.trans e) State.Within.refl.stepTimerExpiry

theorem within_updateProgressTimeout {q : Nat} {s t : State} (e : exec (.updateProgressTimeout q) s = .next t) : s.Within State.updateProgressTimeoutScope t :=
  State.run_within ((exec_updateProgressTimeout ..).symm.trans e) State.Within.refl.updateProgressTimeout

theorem within_publish {q : Nat} {p : Nat} {entry : BitVec 512} {s t : State} (e : exec (.publish q p entry) s = .next t) : s.Within State.publishCmdScope t :=
  State.run_within ((exec_publish ..).symm.trans e) State.Within.refl.publishCmd

theorem within_snapshot {q : Nat} {p : Nat} {entry : BitVec 512} {s t : State} (e : exec (.snapshot q p entry) s = .next t) : s.Within State.snapshotCmdScope t :=
  State.run_within ((exec_snapshot ..).symm.trans e) State.Within.refl.snapshotCmd

theorem within_import {q : Nat} {p : Nat} {entry : BitVec 512} {s t : State} (e : exec (.import_ q p entry) s = .next t) : s.Within State.importCmdScope t :=
  State.run_within ((exec_import ..).symm.trans e) State.Within.refl.importCmd

theorem within_setT {q : Nat} {p : Nat} {entry : BitVec 512} {s t : State} (e : exec (.setT q p entry) s = .next t) : s.Within State.setTScope t :=
  State.run_within ((exec_setT ..).symm.trans e) State.Within.refl.setT

theorem within_gramAcc {q : Nat} {p : Nat} {entry : BitVec 512} {s t : State} (e : exec (.gramAcc q p entry) s = .next t) : s.Within State.gramCmdScope t :=
  State.run_within ((exec_gramAcc ..).symm.trans e) State.Within.refl.gramCmd

theorem within_matmul {q : Nat} {p : Nat} {entry : BitVec 512} {s t : State} (e : exec (.matmul q p entry) s = .next t) : s.Within State.gramCmdScope t :=
  State.run_within ((exec_matmul ..).symm.trans e) State.Within.refl.gramCmd

theorem within_nsRoot {q : Nat} {p : Nat} {entry : BitVec 512} {s t : State} (e : exec (.nsRoot q p entry) s = .next t) : s.Within State.gramCmdScope t :=
  State.run_within ((exec_nsRoot ..).symm.trans e) State.Within.refl.gramCmd

theorem within_nsOrtho {q : Nat} {p : Nat} {entry : BitVec 512} {s t : State} (e : exec (.nsOrtho q p entry) s = .next t) : s.Within State.gramCmdScope t :=
  State.run_within ((exec_nsOrtho ..).symm.trans e) State.Within.refl.gramCmd

theorem within_apply {q : Nat} {p : Nat} {entry : BitVec 512} {s t : State} (e : exec (.apply q p entry) s = .next t) : s.Within State.gramCmdScope t :=
  State.run_within ((exec_apply ..).symm.trans e) State.Within.refl.gramCmd

theorem within_gramWaitRelease {q : Nat} {p : Nat} {s t : State} (e : exec (.gramWaitRelease q p) s = .next t) : s.Within State.gramWaitReleaseScope t :=
  State.run_within ((exec_gramWaitRelease ..).symm.trans e) State.Within.refl.gramWaitRelease

theorem within_gramUnit {q : Nat} {p : Nat} {s t : State} (e : exec (.gramUnit q p) s = .next t) : s.Within State.gramRowScope t :=
  State.run_within ((exec_gramUnit ..).symm.trans e) State.Within.refl.gramRow

theorem within_gramProgressTimeout {q : Nat} {p : Nat} {s t : State} (e : exec (.gramProgressTimeout q p) s = .next t) : s.Within State.gramProgressTimeoutScope t :=
  State.run_within ((exec_gramProgressTimeout ..).symm.trans e) State.Within.refl.gramProgressTimeout

theorem within_mitMember {pkt : Packet} {s t : State} (e : exec (.mitMember pkt) s = .next t) : s.Within (State.mitRow1Scope ||| State.mitMemberScope) t :=
  State.run_within ((exec_mitMember ..).symm.trans e) (State.Within.refl.mitRow1 fun _ _ hu => hu.mitMember)

theorem within_mitRow {pkt : Packet} {s t : State} (e : exec (.mitRow pkt) s = .next t) : s.Within (State.mitRow1Scope ||| State.mitRowInScope) t :=
  State.run_within ((exec_mitRow ..).symm.trans e) (State.Within.refl.mitRow1 fun _ _ hu => hu.mitRowIn)

theorem within_mitColumn {pkt : Packet} {s t : State} (e : exec (.mitColumn pkt) s = .next t) : s.Within (State.mitRow1Scope ||| State.mitColumnInScope) t :=
  State.run_within ((exec_mitColumn ..).symm.trans e) (State.Within.refl.mitRow1 fun _ _ hu => hu.mitColumnIn)

theorem within_mitCourier {pkt : Packet} {s t : State} (e : exec (.mitCourier pkt) s = .next t) : s.Within (State.mitRow1Scope ||| State.mitCourierScope) t :=
  State.run_within ((exec_mitCourier ..).symm.trans e) (State.Within.refl.mitRow1 fun _ _ hu => hu.mitCourier)

theorem within_mitRoundAbort {c : Nat} {seq : BitVec 32} {s t : State} (e : exec (.mitRoundAbort c seq) s = .next t) : s.Within State.mitRoundAbortScope t :=
  State.run_within ((exec_mitRoundAbort ..).symm.trans e) State.Within.refl.mitRoundAbort

theorem within_mitPeerResend {c : Nat} {seq : BitVec 32} {s t : State} (e : exec (.mitPeerResend c seq) s = .next t) : s.Within State.mitPeerResendScope t :=
  State.run_within ((exec_mitPeerResend ..).symm.trans e) State.Within.refl.mitPeerResend

theorem within_mitCarryResend {c : Nat} {seq : BitVec 32} {s t : State} (e : exec (.mitCarryResend c seq) s = .next t) : s.Within State.mitCarryResendScope t :=
  State.run_within ((exec_mitCarryResend ..).symm.trans e) State.Within.refl.mitCarryResend

theorem within_mitRoleSet {c : Nat} {role : Nat} {s t : State} (e : exec (.mitRoleSet c role) s = .next t) : s.Within State.mitRoleSetScope t :=
  State.run_within ((exec_mitRoleSet ..).symm.trans e) State.Within.refl.mitRoleSet

theorem within_noticeEnWrite {value : Nat} {s t : State} (e : exec (.noticeEnWrite value) s = .next t) : s.Within State.noticeEnWriteScope t :=
  State.run_within ((exec_noticeEnWrite ..).symm.trans e) State.Within.refl.noticeEnWrite

theorem within_noticeRepeat {s t : State} (e : exec .noticeRepeat s = .next t) : s.Within State.noticeRepeatScope t :=
  State.run_within ((exec_noticeRepeat ..).symm.trans e) State.Within.refl.noticeRepeat

theorem within_bankAdmit {q : Nat} {input : Nat} {s t : State} (e : exec (.bankAdmit q input) s = .next t) : s.Within State.admitRowScope t :=
  State.run_within ((exec_bankAdmit ..).symm.trans e) State.Within.refl.admitRow

theorem within_egressStreamStart {q : Nat} {output : Nat} {bank : Nat} {s t : State} (e : exec (.egressStreamStart q output bank) s = .next t) : s.Within State.streamStartScope t :=
  State.run_within ((exec_egressStreamStart ..).symm.trans e) State.Within.refl.streamStart

theorem within_packetRelease {q : Nat} {output : Nat} {s t : State} (e : exec (.packetRelease q output) s = .next t) : s.Within State.packetReleaseScope t :=
  State.run_within ((exec_packetRelease ..).symm.trans e) State.Within.refl.packetRelease

theorem within_flushEnd {q : Nat} {port : Nat} {s t : State} (e : exec (.flushEnd q port) s = .next t) : s.Within State.flushEndScope t :=
  State.run_within ((exec_flushEnd ..).symm.trans e) State.Within.refl.flushEnd

theorem within_depthBroadcast {q : Nat} {s t : State} (e : exec (.depthBroadcast q) s = .next t) : s.Within State.depthBroadcastScope t :=
  State.run_within ((exec_depthBroadcast ..).symm.trans e) State.Within.refl.depthBroadcast

theorem within_mirCtlWrite {q : Nat} {session : Nat} {value : BitVec 64} {s t : State} (e : exec (.mirCtlWrite q session value) s = .next t) : s.Within State.mirCtlWriteScope t :=
  State.run_within ((exec_mirCtlWrite ..).symm.trans e) State.Within.refl.mirCtlWrite

theorem within_lowClr {q : Nat} {s t : State} (e : exec (.lowClr q) s = .next t) : s.Within State.lowClrScope t :=
  State.run_within ((exec_lowClr ..).symm.trans e) State.Within.refl.lowClr

theorem within_peakClr {q : Nat} {output : Nat} {cls : Nat} {s t : State} (e : exec (.peakClr q output cls) s = .next t) : s.Within State.peakClrScope t :=
  State.run_within ((exec_peakClr ..).symm.trans e) State.Within.refl.peakClr

theorem within_linkDownHoldEnd {q : Nat} {port : Nat} {s t : State} (e : exec (.linkDownHoldEnd q port) s = .next t) : s.Within State.downHoldEndScope t :=
  State.run_within ((exec_linkDownHoldEnd ..).symm.trans e) State.Within.refl.downHoldEnd

theorem within_linkSignalDetect {q : Nat} {port : Nat} {lanes : Nat} {s t : State} (e : exec (.linkSignalDetect q port lanes) s = .next t) : s.Within State.signalDetectScope t :=
  State.run_within ((exec_linkSignalDetect ..).symm.trans e) State.Within.refl.signalDetect

theorem within_linkTrainEnd {q : Nat} {port : Nat} {s t : State} (e : exec (.linkTrainEnd q port) s = .next t) : s.Within State.trainEndScope t :=
  State.run_within ((exec_linkTrainEnd ..).symm.trans e) State.Within.refl.trainEnd

theorem within_linkAlignDone {q : Nat} {port : Nat} {s t : State} (e : exec (.linkAlignDone q port) s = .next t) : s.Within State.alignDoneScope t :=
  State.run_within ((exec_linkAlignDone ..).symm.trans e) State.Within.refl.alignDone

theorem within_linkAttemptTimeout {q : Nat} {port : Nat} {s t : State} (e : exec (.linkAttemptTimeout q port) s = .next t) : s.Within State.attemptTimeoutScope t :=
  State.run_within ((exec_linkAttemptTimeout ..).symm.trans e) State.Within.refl.attemptTimeout

theorem within_linkX2SlotEnd {q : Nat} {port : Nat} {s t : State} (e : exec (.linkX2SlotEnd q port) s = .next t) : s.Within State.x2SlotEndScope t :=
  State.run_within ((exec_linkX2SlotEnd ..).symm.trans e) State.Within.refl.x2SlotEnd

theorem within_linkRetrainTimeout {q : Nat} {port : Nat} {s t : State} (e : exec (.linkRetrainTimeout q port) s = .next t) : s.Within State.retrainTimeoutScope t :=
  State.run_within ((exec_linkRetrainTimeout ..).symm.trans e) State.Within.refl.retrainTimeout

theorem within_lcfReceive {q : Nat} {port : Nat} {flit : BitVec 512} {s t : State} (e : exec (.lcfReceive q port flit) s = .next t) : s.Within State.lcfReceiveScope t :=
  State.run_within ((exec_lcfReceive ..).symm.trans e) State.Within.refl.lcfReceive

theorem within_syncReq {q : Nat} {port : Nat} {vc : Nat} {sent : BitVec 16} {s t : State} (e : exec (.syncReq q port vc sent) s = .next t) : s.Within State.syncReqScope t :=
  State.run_within ((exec_syncReq ..).symm.trans e) State.Within.refl.syncReq

theorem within_quiet {q : Nat} {port : Nat} {s t : State} (e : exec (.quiet q port) s = .next t) : s.Within State.quietReqScope t :=
  State.run_within ((exec_quiet ..).symm.trans e) State.Within.refl.quietReq

theorem within_quietAck {q : Nat} {port : Nat} {s t : State} (e : exec (.quietAck q port) s = .next t) : s.Within State.quietAckScope t :=
  State.run_within ((exec_quietAck ..).symm.trans e) State.Within.refl.quietAck

theorem within_retrain {q : Nat} {port : Nat} {s t : State} (e : exec (.retrain q port) s = .next t) : s.Within State.peerRetrainScope t :=
  State.run_within ((exec_retrain ..).symm.trans e) State.Within.refl.peerRetrain

theorem within_quietIdleExpiry {q : Nat} {port : Nat} {s t : State} (e : exec (.quietIdleExpiry q port) s = .next t) : s.Within State.quietIdleScope t :=
  State.run_within ((exec_quietIdleExpiry ..).symm.trans e) State.Within.refl.quietIdle

theorem within_linkWake {q : Nat} {port : Nat} {s t : State} (e : exec (.linkWake q port) s = .next t) : s.Within State.linkWakeScope t :=
  State.run_within ((exec_linkWake ..).symm.trans e) State.Within.refl.linkWake

theorem within_peerSignalWake {q : Nat} {port : Nat} {s t : State} (e : exec (.peerSignalWake q port) s = .next t) : s.Within State.peerWakeScope t :=
  State.run_within ((exec_peerSignalWake ..).symm.trans e) State.Within.refl.peerWake

theorem within_codewordDecode {q : Nat} {port : Nat} {l0 l1 l2 l3 : BitVec 1360} {s t : State} (e : exec (.codewordDecode q port l0 l1 l2 l3) s = .next t) : s.Within State.codewordScope t :=
  State.run_within ((exec_codewordDecode ..).symm.trans e) State.Within.refl.codeword

theorem within_creditStarve {q : Nat} {port : Nat} {vc : Nat} {s t : State} (e : exec (.creditStarve q port vc) s = .next t) : s.Within State.creditStarveScope t :=
  State.run_within ((exec_creditStarve ..).symm.trans e) State.Within.refl.creditStarve

theorem within_laneErrorWindow {q : Nat} {port : Nat} {s t : State} (e : exec (.laneErrorWindow q port) s = .next t) : s.Within State.laneWindowScope t :=
  State.run_within ((exec_laneErrorWindow ..).symm.trans e) State.Within.refl.laneWindow

theorem within_degradeSwitch {q : Nat} {port : Nat} {s t : State} (e : exec (.degradeSwitch q port) s = .next t) : s.Within State.degradeSwitchScope t :=
  State.run_within ((exec_degradeSwitch ..).symm.trans e) State.Within.refl.degradeSwitch

theorem within_ucwWindow {q : Nat} {port : Nat} {s t : State} (e : exec (.ucwWindow q port) s = .next t) : s.Within State.ucwWindowScope t :=
  State.run_within ((exec_ucwWindow ..).symm.trans e) State.Within.refl.ucwWindow

theorem within_lcfLoss {q : Nat} {port : Nat} {s t : State} (e : exec (.lcfLoss q port) s = .next t) : s.Within State.lcfLossScope t :=
  State.run_within ((exec_lcfLoss ..).symm.trans e) State.Within.refl.lcfLoss

theorem within_linkRetrainWrite {q : Nat} {port : Nat} {value : BitVec 64} {s t : State} (e : exec (.linkRetrainWrite q port value) s = .next t) : s.Within State.retrainWriteScope t :=
  State.run_within ((exec_linkRetrainWrite ..).symm.trans e) State.Within.refl.retrainWrite

theorem within_linkEnWrite {q : Nat} {port : Nat} {value : BitVec 64} {s t : State} (e : exec (.linkEnWrite q port value) s = .next t) : s.Within State.enWriteScope t :=
  State.run_within ((exec_linkEnWrite ..).symm.trans e) State.Within.refl.enWrite

theorem within_linkInject {q : Nat} {value : BitVec 64} {s t : State} (e : exec (.linkInject q value) s = .next t) : s.Within State.linkInjectScope t :=
  State.run_within ((exec_linkInject ..).symm.trans e) State.Within.refl.linkInject

theorem within_patrolScrub {q : Nat} {stack : Nat} {s t : State} (e : exec (.patrolScrub q stack) s = .next t) : s.Within State.patrolScrubScope t :=
  State.run_within ((exec_patrolScrub ..).symm.trans e) State.Within.refl.patrolScrub

theorem within_hbmRetire {q : Nat} {stack : Nat} {channel : Nat} {whole : Bool} {s t : State} (e : exec (.hbmRetire q stack channel whole) s = .next t) : s.Within State.hbmRetireScope t :=
  State.run_within ((exec_hbmRetire ..).symm.trans e) State.Within.refl.hbmRetire

theorem within_hbmRetireCmd {q : Nat} {value : BitVec 64} {s t : State} (e : exec (.hbmRetireCmd q value) s = .next t) : s.Within State.hbmRetireCmdScope t :=
  State.run_within ((exec_hbmRetireCmd ..).symm.trans e) State.Within.refl.hbmRetireCmd

theorem within_spareRemapEnd {q : Nat} {ext : Nat} {s t : State} (e : exec (.spareRemapEnd q ext) s = .next t) : s.Within State.spareRemapEndScope t :=
  State.run_within ((exec_spareRemapEnd ..).symm.trans e) State.Within.refl.spareRemapEnd

theorem within_hbmLockTimeout {q : Nat} {stack : Nat} {pc : Nat} {req : Nat} {s t : State} (e : exec (.hbmLockTimeout q stack pc req) s = .next t) : s.Within State.hbmLockTimeoutScope t :=
  State.run_within ((exec_hbmLockTimeout ..).symm.trans e) State.Within.refl.hbmLockTimeout

theorem within_hbmInject {q : Nat} {value : BitVec 64} {s t : State} (e : exec (.hbmInject q value) s = .next t) : s.Within State.hbmInjectScope t :=
  State.run_within ((exec_hbmInject ..).symm.trans e) State.Within.refl.hbmInject

theorem within_parkWrite {q : Nat} {pkt : Packet} {s t : State} (e : exec (.parkWrite q pkt) s = .next t) : s.Within State.parkWriteScope t :=
  State.run_within ((exec_parkWrite ..).symm.trans e) State.Within.refl.parkWrite

theorem within_parkRead {q : Nat} {pkt : Packet} {s t : State} (e : exec (.parkRead q pkt) s = .next t) : s.Within State.parkReadScope t :=
  State.run_within ((exec_parkRead ..).symm.trans e) State.Within.refl.parkRead

theorem within_parkApply {q : Nat} {p : Nat} {s t : State} (e : exec (.parkApply q p) s = .next t) : s.Within State.parkApplyScope t :=
  State.run_within ((exec_parkApply ..).symm.trans e) State.Within.refl.parkApply

theorem within_parkServiceFault {q : Nat} {s t : State} (e : exec (.parkServiceFault q) s = .next t) : s.Within State.parkServiceFaultScope t :=
  State.run_within ((exec_parkServiceFault ..).symm.trans e) State.Within.refl.parkServiceFault

theorem within_moverStart {q : Nat} {p : Nat} {entry : BitVec 512} {s t : State} (e : exec (.moverStart q p entry) s = .next t) : s.Within State.movStartScope t :=
  State.run_within ((exec_moverStart ..).symm.trans e) State.Within.refl.movStart

theorem within_moverPause {q : Nat} {p : Nat} {c : Nat} {entry : BitVec 512} {s t : State} (e : exec (.moverPause q p c entry) s = .next t) : s.Within State.movPauseCmdScope t :=
  State.run_within ((exec_moverPause ..).symm.trans e) State.Within.refl.movPauseCmd

theorem within_moverResume {q : Nat} {p : Nat} {c : Nat} {entry : BitVec 512} {s t : State} (e : exec (.moverResume q p c entry) s = .next t) : s.Within State.movResumeCmdScope t :=
  State.run_within ((exec_moverResume ..).symm.trans e) State.Within.refl.movResumeCmd

theorem within_moverAbort {q : Nat} {p : Nat} {c : Nat} {entry : BitVec 512} {s t : State} (e : exec (.moverAbort q p c entry) s = .next t) : s.Within State.movAbortCmdScope t :=
  State.run_within ((exec_moverAbort ..).symm.trans e) State.Within.refl.movAbortCmd

theorem within_moverErrClear {q : Nat} {p : Nat} {c : Nat} {s t : State} (e : exec (.moverErrClear q p c) s = .next t) : s.Within State.movErrClearScope t :=
  State.run_within ((exec_moverErrClear ..).symm.trans e) State.Within.refl.movErrClear

theorem within_move {q : Nat} {p : Nat} {c : Nat} {host : List Byte} {s t : State} (e : exec (.move q p c host) s = .next t) : s.Within State.moveRowScope t :=
  State.run_within ((exec_move ..).symm.trans e) State.Within.refl.moveRow

theorem within_fill {q : Nat} {p : Nat} {c : Nat} {s t : State} (e : exec (.fill q p c) s = .next t) : s.Within State.movFillScope t :=
  State.run_within ((exec_fill ..).symm.trans e) State.Within.refl.movFill

theorem within_compare {q : Nat} {p : Nat} {c : Nat} {host : List Byte} {s t : State} (e : exec (.compare q p c host) s = .next t) : s.Within State.compareRowScope t :=
  State.run_within ((exec_compare ..).symm.trans e) State.Within.refl.compareRow

theorem within_wait {q : Nat} {p : Nat} {c : Nat} {s t : State} (e : exec (.wait q p c) s = .next t) : s.Within State.movWaitScope t :=
  State.run_within ((exec_wait ..).symm.trans e) State.Within.refl.movWait

theorem within_waitMet {q : Nat} {p : Nat} {c : Nat} {s t : State} (e : exec (.waitMet q p c) s = .next t) : s.Within State.movWaitMetScope t :=
  State.run_within ((exec_waitMet ..).symm.trans e) State.Within.refl.movWaitMet

theorem within_signal {q : Nat} {p : Nat} {c : Nat} {s t : State} (e : exec (.signal q p c) s = .next t) : s.Within State.movSignalScope t :=
  State.run_within ((exec_signal ..).symm.trans e) State.Within.refl.movSignal

theorem within_link {q : Nat} {p : Nat} {c : Nat} {s t : State} (e : exec (.link q p c) s = .next t) : s.Within State.movLinkScope t :=
  State.run_within ((exec_link ..).symm.trans e) State.Within.refl.movLink

theorem within_end {q : Nat} {p : Nat} {c : Nat} {s t : State} (e : exec (.end_ q p c) s = .next t) : s.Within State.movEndScope t :=
  State.run_within ((exec_end ..).symm.trans e) State.Within.refl.movEnd

theorem within_pauseDrainEnd {q : Nat} {p : Nat} {c : Nat} {s t : State} (e : exec (.pauseDrainEnd q p c) s = .next t) : s.Within State.movDrainEndScope t :=
  State.run_within ((exec_pauseDrainEnd ..).symm.trans e) State.Within.refl.movDrainEnd

theorem within_moverRecordWrite {q : Nat} {p : Nat} {c : Nat} {s t : State} (e : exec (.moverRecordWrite q p c) s = .next t) : s.Within State.movRecordWriteScope t :=
  State.run_within ((exec_moverRecordWrite ..).symm.trans e) State.Within.refl.movRecordWrite

theorem within_moverBusError {q : Nat} {cause : Nat} {s t : State} (e : exec (.moverBusError q cause) s = .next t) : s.Within State.movBusErrorCmdScope t :=
  State.run_within ((exec_moverBusError ..).symm.trans e) State.Within.refl.movBusErrorCmd

theorem within_moverBeatTimeout {q : Nat} {s t : State} (e : exec (.moverBeatTimeout q) s = .next t) : s.Within State.movBeatTimeoutScope t :=
  State.run_within ((exec_moverBeatTimeout ..).symm.trans e) State.Within.refl.movBeatTimeout

theorem within_moverRestart {q : Nat} {s t : State} (e : exec (.moverRestart q) s = .next t) : s.Within State.movRestartScope t :=
  State.run_within ((exec_moverRestart ..).symm.trans e) State.Within.refl.movRestart

theorem within_eventCounterWrite {q : Nat} {p : Nat} {n : Nat} {value : BitVec 32} {s t : State} (e : exec (.eventCounterWrite q p n value) s = .next t) : s.Within State.evtWriteScope t :=
  State.run_within ((exec_eventCounterWrite ..).symm.trans e) State.Within.refl.evtWrite

theorem within_adcWindow {codes : List Nat} {temps : List Nat} {rpms : List Nat} {s t : State} (e : exec (.adcWindow codes temps rpms) s = .next t) : s.Within State.adcWindowScope t :=
  State.run_within ((exec_adcWindow ..).symm.trans e) State.Within.refl.adcWindow

theorem within_tachLost {n : Nat} {s t : State} (e : exec (.tachLost n) s = .next t) : s.Within State.tachLostScope t :=
  State.run_within ((exec_tachLost ..).symm.trans e) State.Within.refl.tachLost

theorem within_trayStep {applied : List Nat} {peerLive : Bool} {s t : State} (e : exec (.trayStep applied peerLive) s = .next t) : s.Within State.trayStepScope t :=
  State.run_within ((exec_trayStep ..).symm.trans e) State.Within.refl.trayStep

theorem within_capStep {s t : State} (e : exec .capStep s = .next t) : s.Within State.capStepScope t :=
  State.run_within ((exec_capStep ..).symm.trans e) State.Within.refl.capStep

theorem within_pwrAlertAssert {s t : State} (e : exec .pwrAlertAssert s = .next t) : s.Within State.alertAssertScope t :=
  State.run_within ((exec_pwrAlertAssert ..).symm.trans e) State.Within.refl.alertAssert

theorem within_pwrAlertRelease {s t : State} (e : exec .pwrAlertRelease s = .next t) : s.Within State.alertReleaseScope t :=
  State.run_within ((exec_pwrAlertRelease ..).symm.trans e) State.Within.refl.alertRelease

theorem within_accGo {value : BitVec 64} {s t : State} (e : exec (.accGo value) s = .next t) : s.Within State.accGoScope t :=
  State.run_within ((exec_accGo ..).symm.trans e) State.Within.refl.accGo

theorem within_yofenKick {s t : State} (e : exec .yofenKick s = .next t) : s.Within State.yofenKickScope t :=
  State.run_within ((exec_yofenKick ..).symm.trans e) State.Within.refl.yofenKick

theorem within_yofenWatchdog {s t : State} (e : exec .yofenWatchdog s = .next t) : s.Within State.yofenWatchdogScope t :=
  State.run_within ((exec_yofenWatchdog ..).symm.trans e) State.Within.refl.yofenWatchdog

theorem within_trayClaim {long : Bool} {s t : State} (e : exec (.trayClaim long) s = .next t) : s.Within State.trayClaimScope t :=
  State.run_within ((exec_trayClaim ..).symm.trans e) State.Within.refl.trayClaim

theorem within_trayOwnConflict {s t : State} (e : exec .trayOwnConflict s = .next t) : s.Within State.ownConflictScope t :=
  State.run_within ((exec_trayOwnConflict ..).symm.trans e) State.Within.refl.ownConflict

theorem within_ownerPublish {heard : List Nat} {s t : State} (e : exec (.ownerPublish heard) s = .next t) : s.Within State.ownerPublishScope t :=
  State.run_within ((exec_ownerPublish ..).symm.trans e) State.Within.refl.ownerPublish

theorem within_contestStart {s t : State} (e : exec .contestStart s = .next t) : s.Within State.contestStartScope t :=
  State.run_within ((exec_contestStart ..).symm.trans e) State.Within.refl.contestStart

theorem within_contestResolve {peerPass : Bool} {s t : State} (e : exec (.contestResolve peerPass) s = .next t) : s.Within State.contestResolveScope t :=
  State.run_within ((exec_contestResolve ..).symm.trans e) State.Within.refl.contestResolve

theorem within_degradedClear {s t : State} (e : exec .degradedClear s = .next t) : s.Within State.degradedClearScope t :=
  State.run_within ((exec_degradedClear ..).symm.trans e) State.Within.refl.degradedClear

theorem within_standbyQualify {s t : State} (e : exec .standbyQualify s = .next t) : s.Within State.standbyQualifyScope t :=
  State.run_within ((exec_standbyQualify ..).symm.trans e) State.Within.refl.standbyQualify

theorem within_trayYield {s t : State} (e : exec .trayYield s = .next t) : s.Within State.trayYieldScope t :=
  State.run_within ((exec_trayYield ..).symm.trans e) State.Within.refl.trayYield

theorem within_telemetrySend {s t : State} (e : exec .telemetrySend s = .next t) : s.Within State.telemetrySendScope t :=
  State.run_within ((exec_telemetrySend ..).symm.trans e) State.Within.refl.telemetrySend

theorem within_managerHeartbeat {m : Nat} {s t : State} (e : exec (.managerHeartbeat m) s = .next t) : s.Within State.managerHeartbeatScope t :=
  State.run_within ((exec_managerHeartbeat ..).symm.trans e) State.Within.refl.managerHeartbeat

theorem within_managerLost {m : Nat} {s t : State} (e : exec (.managerLost m) s = .next t) : s.Within State.managerLostScope t :=
  State.run_within ((exec_managerLost ..).symm.trans e) State.Within.refl.managerLost

theorem within_autonomousHold {s t : State} (e : exec .autonomousHold s = .next t) : s.Within State.autonomousHoldScope t :=
  State.run_within ((exec_autonomousHold ..).symm.trans e) State.Within.refl.autonomousHold

theorem within_pumpStage1 {s t : State} (e : exec .pumpStage1 s = .next t) : s.Within State.pumpStage1Scope t :=
  State.run_within ((exec_pumpStage1 ..).symm.trans e) State.Within.refl.pumpStage1

theorem within_pumpStage2 {s t : State} (e : exec .pumpStage2 s = .next t) : s.Within State.pumpStage2Scope t :=
  State.run_within ((exec_pumpStage2 ..).symm.trans e) State.Within.refl.pumpStage2

theorem within_pumpStage3 {s t : State} (e : exec .pumpStage3 s = .next t) : s.Within State.pumpStage3Scope t :=
  State.run_within ((exec_pumpStage3 ..).symm.trans e) State.Within.refl.pumpStage3

theorem within_pumpStageClear {s t : State} (e : exec .pumpStageClear s = .next t) : s.Within State.pumpStageClearScope t :=
  State.run_within ((exec_pumpStageClear ..).symm.trans e) State.Within.refl.pumpStageClear

theorem within_trayBusRecovery {s t : State} (e : exec .trayBusRecovery s = .next t) : s.Within State.trayBusRecoveryScope t :=
  State.run_within ((exec_trayBusRecovery ..).symm.trans e) State.Within.refl.trayBusRecovery

theorem within_trayInject {value : BitVec 64} {s t : State} (e : exec (.trayInject value) s = .next t) : s.Within State.trayInjectScope t :=
  State.run_within ((exec_trayInject ..).symm.trans e) State.Within.refl.trayInject

theorem within_cartInsert {c : Nat} {s t : State} (e : exec (.cartInsert c) s = .next t) : s.Within State.cartInsertScope t :=
  State.run_within ((exec_cartInsert ..).symm.trans e) State.Within.refl.cartInsert

theorem within_cartPresenceLost {c : Nat} {s t : State} (e : exec (.cartPresenceLost c) s = .next t) : s.Within State.cartLostScope t :=
  State.run_within ((exec_cartPresenceLost ..).symm.trans e) State.Within.refl.cartLost

theorem within_cartTouch {c : Nat} {high : Bool} {s t : State} (e : exec (.cartTouch c high) s = .next t) : s.Within State.cartTouchScope t :=
  State.run_within ((exec_cartTouch ..).symm.trans e) State.Within.refl.cartTouch

theorem within_cartCuffOpen {c : Nat} {s t : State} (e : exec (.cartCuffOpen c) s = .next t) : s.Within State.cartCuffOpenScope t :=
  State.run_within ((exec_cartCuffOpen ..).symm.trans e) State.Within.refl.cartCuffOpen

theorem within_preDrainCancel {c : Nat} {s t : State} (e : exec (.preDrainCancel c) s = .next t) : s.Within State.preDrainCancelScope t :=
  State.run_within ((exec_preDrainCancel ..).symm.trans e) State.Within.refl.preDrainCancel

theorem within_cartButton {c : Nat} {down : Bool} {s t : State} (e : exec (.cartButton c down) s = .next t) : s.Within State.cartButtonScope t :=
  State.run_within ((exec_cartButton ..).symm.trans e) State.Within.refl.cartButton

theorem within_cartButtonHold {c : Nat} {s t : State} (e : exec (.cartButtonHold c) s = .next t) : s.Within State.cartButtonHoldScope t :=
  State.run_within ((exec_cartButtonHold ..).symm.trans e) State.Within.refl.cartButtonHold

theorem within_trayButton {s t : State} (e : exec .trayButton s = .next t) : s.Within State.trayButtonScope t :=
  State.run_within ((exec_trayButton ..).symm.trans e) State.Within.refl.trayButton

theorem within_trayButtonHold {s t : State} (e : exec .trayButtonHold s = .next t) : s.Within State.trayButtonHoldScope t :=
  State.run_within ((exec_trayButtonHold ..).symm.trans e) State.Within.refl.trayButtonHold

theorem within_cartDrain {c : Nat} {s t : State} (e : exec (.cartDrain c) s = .next t) : s.Within State.cartDrainScope t :=
  State.run_within ((exec_cartDrain ..).symm.trans e) State.Within.refl.cartDrain

theorem within_cartForce {c : Nat} {s t : State} (e : exec (.cartForce c) s = .next t) : s.Within State.cartForceScope t :=
  State.run_within ((exec_cartForce ..).symm.trans e) State.Within.refl.cartForce

theorem within_cartRejoin {c : Nat} {s t : State} (e : exec (.cartRejoin c) s = .next t) : s.Within State.cartRejoinScope t :=
  State.run_within ((exec_cartRejoin ..).symm.trans e) State.Within.refl.cartRejoin

theorem within_cartDrainComplete {c : Nat} {s t : State} (e : exec (.cartDrainComplete c) s = .next t) : s.Within State.cartDrainCompleteScope t :=
  State.run_within ((exec_cartDrainComplete ..).symm.trans e) State.Within.refl.cartDrainComplete

theorem within_cartDrainTimeout {c : Nat} {s t : State} (e : exec (.cartDrainTimeout c) s = .next t) : s.Within State.cartDrainTimeoutScope t :=
  State.run_within ((exec_cartDrainTimeout ..).symm.trans e) State.Within.refl.cartDrainTimeout

theorem within_cartForceStop {c : Nat} {s t : State} (e : exec (.cartForceStop c) s = .next t) : s.Within State.cartForceStopScope t :=
  State.run_within ((exec_cartForceStop ..).symm.trans e) State.Within.refl.cartForceStop

theorem within_cartSafe {c : Nat} {s t : State} (e : exec (.cartSafe c) s = .next t) : s.Within State.cartSafeScope t :=
  State.run_within ((exec_cartSafe ..).symm.trans e) State.Within.refl.cartSafe

theorem within_cartInService {c : Nat} {s t : State} (e : exec (.cartInService c) s = .next t) : s.Within State.cartInServiceScope t :=
  State.run_within ((exec_cartInService ..).symm.trans e) State.Within.refl.cartInService

theorem within_vinLow {s t : State} (e : exec .vinLow s = .next t) : s.Within State.vinLowScope t :=
  State.run_within ((exec_vinLow ..).symm.trans e) State.Within.refl.vinLow

theorem within_vinHoldupEnd {s t : State} (e : exec .vinHoldupEnd s = .next t) : s.Within State.vinHoldupEndScope t :=
  State.run_within ((exec_vinHoldupEnd ..).symm.trans e) State.Within.refl.vinHoldupEnd

theorem within_vinGood {s t : State} (e : exec .vinGood s = .next t) : s.Within State.vinGoodScope t :=
  State.run_within ((exec_vinGood ..).symm.trans e) State.Within.refl.vinGood

theorem within_railTimeout {s t : State} (e : exec .railTimeout s = .next t) : s.Within State.railTimeoutScope t :=
  State.run_within ((exec_railTimeout ..).symm.trans e) State.Within.refl.railTimeout

theorem within_vauxLow {s t : State} (e : exec .vauxLow s = .next t) : s.Within State.vauxLowScope t :=
  State.run_within ((exec_vauxLow ..).symm.trans e) State.Within.refl.vauxLow

theorem within_powerRequest {target : Nat} {s t : State} (e : exec (.powerRequest target) s = .next t) : s.Within State.powerRequestScope t :=
  State.run_within ((exec_powerRequest ..).symm.trans e) State.Within.refl.powerRequest

theorem within_p2QuietEnd {expired : Bool} {s t : State} (e : exec (.p2QuietEnd expired) s = .next t) : s.Within State.p2QuietEndScope t :=
  State.run_within ((exec_p2QuietEnd ..).symm.trans e) State.Within.refl.p2QuietEnd

theorem within_yofenIdleStop {s t : State} (e : exec .yofenIdleStop s = .next t) : s.Within State.yofenIdleStopScope t :=
  State.run_within ((exec_yofenIdleStop ..).symm.trans e) State.Within.refl.yofenIdleStop

theorem within_engineGate {q : Nat} {e : Nat} {s t : State} (e : exec (.engineGate q e) s = .next t) : s.Within State.gateRowScope t :=
  State.run_within ((exec_engineGate ..).symm.trans e) State.Within.refl.gateRow

theorem within_engineWake {q : Nat} {e : Nat} {s t : State} (e : exec (.engineWake q e) s = .next t) : s.Within State.engineWakeScope t :=
  State.run_within ((exec_engineWake ..).symm.trans e) State.Within.refl.engineWake

theorem within_warmHoldEnd {q : Nat} {e : Nat} {p : Nat} {s t : State} (e : exec (.warmHoldEnd q e p) s = .next t) : s.Within State.warmHoldEndScope t :=
  State.run_within ((exec_warmHoldEnd ..).symm.trans e) State.Within.refl.warmHoldEnd

theorem within_refclkLost {s t : State} (e : exec .refclkLost s = .next t) : s.Within State.refclkLostScope t :=
  State.run_within ((exec_refclkLost ..).symm.trans e) State.Within.refl.refclkLost

theorem within_refclkReturn {s t : State} (e : exec .refclkReturn s = .next t) : s.Within State.refclkReturnScope t :=
  State.run_within ((exec_refclkReturn ..).symm.trans e) State.Within.refl.refclkReturn

theorem within_refclkLossTimeout {s t : State} (e : exec .refclkLossTimeout s = .next t) : s.Within State.refclkTimeoutScope t :=
  State.run_within ((exec_refclkLossTimeout ..).symm.trans e) State.Within.refl.refclkTimeout

theorem within_oscCalibrate {s t : State} (e : exec .oscCalibrate s = .next t) : s.Within State.oscCalibrateScope t :=
  State.run_within ((exec_oscCalibrate ..).symm.trans e) State.Within.refl.oscCalibrate

theorem within_thermalTrip {s t : State} (e : exec .thermalTrip s = .next t) : s.Within State.thermalTripScope t :=
  State.run_within ((exec_thermalTrip ..).symm.trans e) State.Within.refl.thermalTrip

theorem within_coldReset {s t : State} (e : exec .coldReset s = .next t) : s.Within State.coldResetScope t :=
  State.run_within ((exec_coldReset ..).symm.trans e) State.Within.refl.coldReset

theorem within_moduleReset {cool : Bool} {s t : State} (e : exec (.moduleReset cool) s = .next t) : s.Within State.moduleResetScope t :=
  State.run_within ((exec_moduleReset ..).symm.trans e) State.Within.refl.moduleReset

theorem within_quadrantReset {q : Nat} {s t : State} (e : exec (.quadrantReset q) s = .next t) : s.Within State.quadResetScope t :=
  State.run_within ((exec_quadrantReset ..).symm.trans e) State.Within.refl.quadReset

theorem within_partitionReset {p : Nat} {flr : Bool} {s t : State} (e : exec (.partitionReset p flr) s = .next t) : s.Within State.partResetScope t :=
  State.run_within ((exec_partitionReset ..).symm.trans e) State.Within.refl.partReset

theorem within_perst {asserted : Bool} {s t : State} (e : exec (.perst asserted) s = .next t) : s.Within State.perstScope t :=
  State.run_within ((exec_perst ..).symm.trans e) State.Within.refl.perst

theorem within_startupStepComplete {ok : Bool} {failed : List Nat} {s t : State} (e : exec (.startupStepComplete ok failed) s = .next t) : s.Within State.startupStepScope t :=
  State.run_within ((exec_startupStepComplete ..).symm.trans e) State.Within.refl.startupStep

theorem within_loadtestRun {s t : State} (e : exec .loadtestRun s = .next t) : s.Within State.loadtestRunScope t :=
  State.run_within ((exec_loadtestRun ..).symm.trans e) State.Within.refl.loadtestRun

theorem within_loadtestPhaseEnd {crcOk : Bool} {s t : State} (e : exec (.loadtestPhaseEnd crcOk) s = .next t) : s.Within State.loadtestPhaseScope t :=
  State.run_within ((exec_loadtestPhaseEnd ..).symm.trans e) State.Within.refl.loadtestPhase

theorem within_lifecycleObject {obj : List Byte} {s t : State} (e : exec (.lifecycleObject obj) s = .next t) : s.Within (State.secFetchedScope ||| State.lifecycleObjectScope) t :=
  State.run_within ((exec_lifecycleObject ..).symm.trans e) (State.Within.refl.secFetched fun _ hu => hu.lifecycleObject)

theorem within_ownerEnrol {cert : List Byte} {s t : State} (e : exec (.ownerEnrol cert) s = .next t) : s.Within (State.secFetchedScope ||| State.ownerEnrolScope) t :=
  State.run_within ((exec_ownerEnrol ..).symm.trans e) (State.Within.refl.secFetched fun _ hu => hu.ownerEnrol)

theorem within_firmwareFloor {s t : State} (e : exec .firmwareFloor s = .next t) : s.Within (State.secPlainScope ||| State.firmwareFloorScope) t :=
  State.run_within ((exec_firmwareFloor ..).symm.trans e) (State.Within.refl.secPlain fun _ hu => hu.firmwareFloor)

theorem within_knitFloor {s t : State} (e : exec .knitFloor s = .next t) : s.Within (State.secPlainScope ||| State.knitFloorScope) t :=
  State.run_within ((exec_knitFloor ..).symm.trans e) (State.Within.refl.secPlain fun _ hu => hu.knitFloor)

theorem within_challengeRead {s t : State} (e : exec .challengeRead s = .next t) : s.Within State.chalReadScope t :=
  State.run_within ((exec_challengeRead ..).symm.trans e) State.Within.refl.chalRead

theorem within_debugRequestD1 {s t : State} (e : exec .debugRequestD1 s = .next t) : s.Within State.requestD1Scope t :=
  State.run_within ((exec_debugRequestD1 ..).symm.trans e) State.Within.refl.requestD1

theorem within_tokenSubmit {token : List Byte} {s t : State} (e : exec (.tokenSubmit token) s = .next t) : s.Within State.tokenFetchedScope t :=
  State.run_within ((exec_tokenSubmit ..).symm.trans e) State.Within.refl.tokenFetched

theorem within_debugRelease {s t : State} (e : exec .debugRelease s = .next t) : s.Within State.debugReleaseScope t :=
  State.run_within ((exec_debugRelease ..).symm.trans e) State.Within.refl.debugRelease

theorem within_grantExpiry {s t : State} (e : exec .grantExpiry s = .next t) : s.Within State.grantExpiryScope t :=
  State.run_within ((exec_grantExpiry ..).symm.trans e) State.Within.refl.grantExpiry

theorem within_bypass {s t : State} (e : exec .bypass s = .next t) : s.Within State.jtagBypassScope t :=
  State.run_within ((exec_bypass ..).symm.trans e) State.Within.refl.jtagBypass

theorem within_idcode {s t : State} (e : exec .idcode s = .next t) : s.Within State.jtagIdcodeScope t :=
  State.run_within ((exec_idcode ..).symm.trans e) State.Within.refl.jtagIdcode

theorem within_samplePreload {bits : BitVec 4096} {s t : State} (e : exec (.samplePreload bits) s = .next t) : s.Within State.jtagSampleScope t :=
  State.run_within ((exec_samplePreload ..).symm.trans e) State.Within.refl.jtagSample

theorem within_extest {bits : BitVec 4096} {s t : State} (e : exec (.extest bits) s = .next t) : s.Within State.jtagExtestScope t :=
  State.run_within ((exec_extest ..).symm.trans e) State.Within.refl.jtagExtest

theorem within_extestPulse {bits : BitVec 4096} {s t : State} (e : exec (.extestPulse bits) s = .next t) : s.Within State.jtagPulseScope t :=
  State.run_within ((exec_extestPulse ..).symm.trans e) State.Within.refl.jtagPulse

theorem within_extestTrain {bits : BitVec 4096} {s t : State} (e : exec (.extestTrain bits) s = .next t) : s.Within State.jtagTrainScope t :=
  State.run_within ((exec_extestTrain ..).symm.trans e) State.Within.refl.jtagTrain

theorem within_clamp {s t : State} (e : exec .clamp s = .next t) : s.Within State.jtagClampScope t :=
  State.run_within ((exec_clamp ..).symm.trans e) State.Within.refl.jtagClamp

theorem within_highz {s t : State} (e : exec .highz s = .next t) : s.Within State.jtagHighzScope t :=
  State.run_within ((exec_highz ..).symm.trans e) State.Within.refl.jtagHighz

theorem within_dbgReq {bit : Bool} {s t : State} (e : exec (.dbgReq bit) s = .next t) : s.Within State.jtagReqScope t :=
  State.run_within ((exec_dbgReq ..).symm.trans e) State.Within.refl.jtagReq

theorem within_dbgToken {token : List Byte} {s t : State} (e : exec (.dbgToken token) s = .next t) : s.Within State.jtagTokenScope t :=
  State.run_within ((exec_dbgToken ..).symm.trans e) State.Within.refl.jtagToken

theorem within_dbgAccess {bits : BitVec 96} {s t : State} (e : exec (.dbgAccess bits) s = .next t) : s.Within State.dbgAccessScope t :=
  State.run_within ((exec_dbgAccess ..).symm.trans e) State.Within.refl.dbgAccess

theorem within_firmwareUpdate {addr : Nat} {data : List Byte} {s t : State} (e : exec (.firmwareUpdate addr data) s = .next t) : s.Within State.firmwareUpdateScope t :=
  State.run_within ((exec_firmwareUpdate ..).symm.trans e) State.Within.refl.firmwareUpdate

theorem within_getVersion {s t : State} (e : exec .getVersion s = .next t) : s.Within State.getVersionScope t :=
  State.run_within ((exec_getVersion ..).symm.trans e) State.Within.refl.getVersion

theorem within_getCapabilities {s t : State} (e : exec .getCapabilities s = .next t) : s.Within State.getCapabilitiesScope t :=
  State.run_within ((exec_getCapabilities ..).symm.trans e) State.Within.refl.getCapabilities

theorem within_negotiateAlgorithms {s t : State} (e : exec .negotiateAlgorithms s = .next t) : s.Within State.negotiateAlgorithmsScope t :=
  State.run_within ((exec_negotiateAlgorithms ..).symm.trans e) State.Within.refl.negotiateAlgorithms

theorem within_getDigests {s t : State} (e : exec .getDigests s = .next t) : s.Within State.getDigestsScope t :=
  State.run_within ((exec_getDigests ..).symm.trans e) State.Within.refl.getDigests

theorem within_getCertificate {off : Nat} {len : Nat} {s t : State} (e : exec (.getCertificate off len) s = .next t) : s.Within State.getCertificateScope t :=
  State.run_within ((exec_getCertificate ..).symm.trans e) State.Within.refl.getCertificate

theorem within_challenge {nonce : List Byte} {s t : State} (e : exec (.challenge nonce) s = .next t) : s.Within State.spdmChallengeScope t :=
  State.run_within ((exec_challenge ..).symm.trans e) State.Within.refl.spdmChallenge

theorem within_getMeasurements {index : Nat} {nonce : List Byte} {s t : State} (e : exec (.getMeasurements index nonce) s = .next t) : s.Within State.getMeasurementsScope t :=
  State.run_within ((exec_getMeasurements ..).symm.trans e) State.Within.refl.getMeasurements

theorem within_setEndpointId {binding : Nat} {eid : BitVec 8} {s t : State} (e : exec (.setEndpointId binding eid) s = .next t) : s.Within State.setEidScope t :=
  State.run_within ((exec_setEndpointId ..).symm.trans e) State.Within.refl.setEid

theorem within_pldmSensorRead {n : Nat} {s t : State} (e : exec (.pldmSensorRead n) s = .next t) : s.Within State.pldmReadScope t :=
  State.run_within ((exec_pldmSensorRead ..).symm.trans e) State.Within.refl.pldmRead

theorem within_pldmEffecterWrite {n : Nat} {value : BitVec 64} {s t : State} (e : exec (.pldmEffecterWrite n value) s = .next t) : s.Within State.pldmWriteScope t :=
  State.run_within ((exec_pldmEffecterWrite ..).symm.trans e) State.Within.refl.pldmWrite

theorem within_bar2Read {fn : Nat} {off : Nat} {len : Nat} {s t : State} (e : exec (.bar2Read fn off len) s = .next t) : s.Within State.bar2ReadScope t :=
  State.run_within ((exec_bar2Read ..).symm.trans e) State.Within.refl.bar2Read

theorem within_bar2Write {fn : Nat} {off : Nat} {data : List Byte} {poisoned : Bool} {s t : State} (e : exec (.bar2Write fn off data poisoned) s = .next t) : s.Within State.bar2WriteScope t :=
  State.run_within ((exec_bar2Write ..).symm.trans e) State.Within.refl.bar2Write

theorem within_pf0Flr {s t : State} (e : exec .pf0Flr s = .next t) : s.Within State.pf0FlrScope t :=
  State.run_within ((exec_pf0Flr ..).symm.trans e) State.Within.refl.pf0Flr

theorem within_pcieLinkDown {down : Bool} {s t : State} (e : exec (.pcieLinkDown down) s = .next t) : s.Within State.pcieLinkDownScope t :=
  State.run_within ((exec_pcieLinkDown ..).symm.trans e) State.Within.refl.pcieLinkDown

theorem within_hostAccessFail {fn : Nat} {user : Nat} {q : Nat} {c : Nat} {s t : State} (e : exec (.hostAccessFail fn user q c) s = .next t) : s.Within State.hostAccessFailScope t :=
  State.run_within ((exec_hostAccessFail ..).symm.trans e) State.Within.refl.hostAccessFail

theorem within_msixUnmask {fn : Nat} {vec : Nat} {s t : State} (e : exec (.msixUnmask fn vec) s = .next t) : s.Within State.msixUnmaskScope t :=
  State.run_within ((exec_msixUnmask ..).symm.trans e) State.Within.refl.msixUnmask

theorem within_counterClear {value : BitVec 64} {s t : State} (e : exec (.counterClear value) s = .next t) : s.Within State.counterClearScope t :=
  State.run_within ((exec_counterClear ..).symm.trans e) State.Within.refl.counterClear

theorem within_tallySweep {due : List Nat} {skipped : List Nat} {s t : State} (e : exec (.tallySweep due skipped) s = .next t) : s.Within State.tallySweepScope t :=
  State.run_within ((exec_tallySweep ..).symm.trans e) State.Within.refl.tallySweep

theorem within_samplerCtlWrite {q : Nat} {value : BitVec 64} {s t : State} (e : exec (.samplerCtlWrite q value) s = .next t) : s.Within State.samplerCtlScope t :=
  State.run_within ((exec_samplerCtlWrite ..).symm.trans e) State.Within.refl.samplerCtl

theorem within_injectEnableWrite {value : BitVec 64} {s t : State} (e : exec (.injectEnableWrite value) s = .next t) : s.Within State.injectEnableScope t :=
  State.run_within ((exec_injectEnableWrite ..).symm.trans e) State.Within.refl.injectEnable

theorem within_errorInject {value : BitVec 64} {s t : State} (e : exec (.errorInject value) s = .next t) : s.Within State.errorInjectScope t :=
  State.run_within ((exec_errorInject ..).symm.trans e) State.Within.refl.errorInject

theorem within_debugWindowAccess {write : Bool} {off : Nat} {size : Nat} {value : BitVec 64} {s t : State} (e : exec (.debugWindowAccess write off size value) s = .next t) : s.Within State.debugWindowScope t :=
  State.run_within ((exec_debugWindowAccess ..).symm.trans e) State.Within.refl.debugWindow

theorem within_cartLatchClose {c : Nat} {s t : State} (e : exec (.cartLatchClose c) s = .next t) : s.Within State.cartLatchCloseScope t :=
  State.run_within ((exec_cartLatchClose ..).symm.trans e) State.Within.refl.cartLatchClose

theorem within_retrainPrbsEnd {q : Nat} {port : Nat} {s t : State} (e : exec (.retrainPrbsEnd q port) s = .next t) : s.Within State.retrainPrbsEndScope t :=
  State.run_within ((exec_retrainPrbsEnd ..).symm.trans e) State.Within.refl.retrainPrbsEnd

theorem within_yofenReboot {s t : State} (e : exec .yofenReboot s = .next t) : s.Within State.yofenRebootScope t :=
  State.run_within ((exec_yofenReboot ..).symm.trans e) State.Within.refl.yofenReboot

theorem within_quadrantResetEnd {q : Nat} {s t : State} (e : exec (.quadrantResetEnd q) s = .next t) : s.Within State.quadResetEndScope t :=
  State.run_within ((exec_quadrantResetEnd ..).symm.trans e) State.Within.refl.quadResetEnd

theorem within_moduleResetRelease {s t : State} (e : exec .moduleResetRelease s = .next t) : s.Within State.moduleReleaseScope t :=
  State.run_within ((exec_moduleResetRelease ..).symm.trans e) State.Within.refl.moduleRelease

theorem within_ieee1588Time {ns : BitVec 64} {s t : State} (e : exec (.ieee1588Time ns) s = .next t) : s.Within State.ieee1588Scope t :=
  State.run_within ((exec_ieee1588Time ..).symm.trans e) State.Within.refl.ieee1588

end Sys2Proof.Machine
end
section
/-! What each command leaves unchanged: the frames of the families of commands. -/

namespace Sys2Proof.Machine

set_option Elab.async false

/-- Settles O24: each command stays within the scope of its operation, which holds only listed parts and registers. -/
theorem linkFrame : Obligations.LinkFrame :=
  ⟨fun _ _ _ _ e => (within_seamCrcError e).toWrites,
   fun _ _ _ _ e => (within_seamDown e).toWrites,
   fun _ _ _ _ e => (within_linkDownHoldEnd e).toWrites,
   fun _ _ _ _ _ e => (within_linkSignalDetect e).toWrites,
   fun _ _ _ _ e => (within_linkTrainEnd e).toWrites,
   fun _ _ _ _ e => (within_linkAlignDone e).toWrites,
   fun _ _ _ _ e => (within_linkAttemptTimeout e).toWrites,
   fun _ _ _ _ e => (within_linkX2SlotEnd e).toWrites,
   fun _ _ _ _ e => (within_linkRetrainTimeout e).toWrites,
   fun _ _ _ _ _ e => (within_lcfReceive e).toWrites,
   fun _ _ _ _ _ _ e => (within_syncReq e).toWrites,
   fun _ _ _ _ e => (within_quiet e).toWrites,
   fun _ _ _ _ e => (within_quietAck e).toWrites,
   ⟨fun _ _ _ _ e => (within_retrain e).toWrites,
    fun _ _ _ _ e => (within_ucwWindow e).toWrites,
    fun _ _ _ _ e => (within_lcfLoss e).toWrites,
    fun _ _ _ _ _ e => (within_linkRetrainWrite e).toWrites⟩,
   fun _ _ _ _ e => (within_quietIdleExpiry e).toWrites,
   fun _ _ _ _ e => (within_linkWake e).toWrites,
   fun _ _ _ _ e => (within_peerSignalWake e).toWrites,
   fun _ _ _ _ _ _ _ _ e => (within_codewordDecode e).toWrites,
   fun _ _ _ _ _ e => (within_creditStarve e).toWrites,
   fun _ _ _ _ e => (within_laneErrorWindow e).toWrites,
   fun _ _ _ _ e => (within_degradeSwitch e).toWrites,
   fun _ _ _ _ _ e => (within_linkEnWrite e).toWrites,
   fun _ _ _ _ e => (within_linkInject e).toWrites,
   fun _ _ _ _ e => (within_retrainPrbsEnd e).toWrites⟩

/-- Settles O25: each command stays within the scope of its operation, which holds only listed parts and registers. -/
theorem switchFrame : Obligations.SwitchFrame :=
  ⟨fun _ _ _ _ _ e => (within_packetHeaderArrival e).toWrites,
   fun _ _ _ _ e => (within_ageExpiry e).toWrites,
   fun _ _ _ _ e => (within_bankAdmit e).toTouches,
   fun _ _ _ _ _ e => (within_egressStreamStart e).toWrites,
   fun _ _ _ _ e => (within_packetRelease e).toWrites,
   fun _ _ _ _ e => (within_flushEnd e).toWrites,
   fun _ _ _ e => (within_depthBroadcast e).toWrites,
   fun _ _ _ _ _ e => (within_mirCtlWrite e).toWrites,
   fun _ _ _ e => (within_lowClr e).toWrites,
   fun _ _ _ _ _ e => (within_peakClr e).toWrites⟩

/-- Settles O26: each command stays within the scope of its operation, which holds only listed parts and registers. -/
theorem knitFrame : Obligations.KnitFrame :=
  ⟨fun _ _ _ e => (within_knitLoad e).toWrites,
   ⟨fun _ _ _ e => (within_knitAbort e).toWrites,
    fun _ _ _ e => (within_knitCommit e).toWrites,
    fun _ _ e => (within_quietTimeout e).toWrites,
    fun _ _ e => (within_voteCommitTimeout e).toWrites,
    fun _ _ e => (within_borderDrainTimeout e).toWrites⟩,
   fun _ _ _ e => (within_knitFetchComplete e).toWrites,
   fun _ _ e => (within_groupCommit e).toTouches,
   fun _ _ e => (within_resyncEnd e).toWrites,
   fun _ _ e => (within_knitVoteResult e).toWrites,
   fun _ _ e => (within_borderDrainEnd e).toWrites,
   fun _ _ _ e => (within_borderZeroizeEnd e).toTouches,
   fun _ _ _ e => (within_epochFlip e).toWrites,
   fun _ _ _ e => (within_epochRetire e).toWrites⟩

/-- Settles O27: each command stays within the scope of its operation, which holds only listed parts and registers. -/
theorem slotFrame : Obligations.SlotFrame :=
  ⟨⟨fun _ _ _ _ e => (within_contrib e).toTouches,
    fun _ _ _ _ _ _ _ e => (within_tier0Partial e).toTouches,
    fun _ _ _ _ e => (within_partialReceive e).toTouches⟩,
   fun _ _ _ _ _ _ _ e => (within_admissionRequest e).toWrites,
   fun _ _ _ _ _ _ _ _ e => (within_admissionReply e).toWrites,
   fun _ _ _ _ _ _ _ e => (within_slotReadoutComplete e).toWrites,
   fun _ _ _ _ _ _ _ e => (within_partialDelivered e).toWrites,
   ⟨fun _ _ _ _ e => (within_resultFromRack e).toWrites,
    fun _ _ _ _ e => (within_publishFromRack e).toWrites⟩,
   fun _ _ _ _ e => (within_pagerSpill e).toWrites,
   fun _ _ _ _ e => (within_pagerRecall e).toWrites,
   fun _ _ _ _ e => (within_pagerSwap e).toWrites,
   fun _ _ _ e => (within_pagerOpComplete e).toWrites,
   fun _ _ _ e => (within_sweepEnd e).toWrites,
   fun _ _ _ _ _ _ _ e => (within_slabLockTimeout e).toWrites⟩

/-- Settles O28: each command stays within the scope of its operation, which holds only listed parts and registers. -/
theorem seqFrame : Obligations.SeqFrame :=
  ⟨fun _ _ _ _ _ e => (within_resultResendTimer e).toWrites,
   fun _ _ _ _ e => (within_cnackReceive e).toWrites,
   fun _ _ _ _ _ _ e => (within_ringDoorbell e).toWrites,
   fun _ _ _ _ e => (within_doorbell e).toWrites,
   fun _ _ _ _ _ e => (within_ringErrClear e).toWrites,
   fun _ _ _ _ e => (within_cqRecordWrite e).toWrites,
   fun _ _ _ _ _ e => (within_collective e).toWrites,
   fun _ _ _ _ _ e => (within_armStep e).toWrites,
   fun _ _ _ _ _ e => (within_trigger e).toWrites,
   fun _ _ _ _ _ e => (within_increment e).toWrites,
   fun _ _ _ _ _ e => (within_abortCollective e).toWrites,
   fun _ _ _ _ _ e => (within_stepReplay e).toWrites,
   fun _ _ _ e => (within_stepReplayEnd e).toWrites,
   fun _ _ _ _ _ e => (within_warm e).toWrites,
   fun _ _ _ _ e => (within_done e).toWrites,
   fun _ _ _ _ e => (within_gapNack e).toWrites,
   fun _ _ _ _ _ e => (within_patienceExpiry e).toWrites,
   ⟨fun _ _ _ _ _ _ e => (within_partialResendTimer e).toWrites,
    fun _ _ _ _ _ _ e => (within_podHoldExpiry e).toWrites⟩,
   fun _ _ _ e => (within_stragClear e).toWrites⟩

/-- Settles O29: each command stays within the scope of its operation, which holds only listed parts and registers. -/
theorem trigFrame : Obligations.TrigFrame :=
  ⟨fun _ _ _ _ e => (within_reduceForward e).toWrites,
   fun _ _ _ _ e => (within_convertMulticast e).toWrites,
   fun _ _ _ _ e => (within_normContribute e).toWrites,
   fun _ _ _ _ e => (within_updateShard e).toWrites,
   fun _ _ _ _ e => (within_publishOp e).toWrites,
   fun _ _ _ _ e => (within_snapshotOp e).toWrites,
   fun _ _ _ _ e => (within_signalHost e).toWrites,
   fun _ _ _ _ e => (within_incrementOp e).toWrites,
   fun _ _ _ _ e => (within_waitEpoch e).toWrites,
   fun _ _ _ _ e => (within_triggerOpComplete e).toWrites⟩

/-- Settles O30: each command stays within the scope of its operation, which holds only listed parts and registers. -/
theorem updateFrame : Obligations.UpdateFrame :=
  ⟨fun _ _ _ _ _ _ e => (within_chunkHandoff e).toWrites,
   fun _ _ _ _ _ e => (within_updatePass e).toWrites,
   fun _ _ _ e => (within_stepDecided e).toWrites,
   fun _ _ _ e => (within_stepTimerExpiry e).toWrites,
   fun _ _ _ e => (within_updateProgressTimeout e).toWrites,
   fun _ _ _ _ _ e => (within_publish e).toWrites,
   fun _ _ _ _ _ e => (within_snapshot e).toWrites,
   fun _ _ _ _ _ e => (within_import e).toWrites,
   fun _ _ _ _ _ e => (within_setT e).toWrites⟩

/-- Settles O31: each command stays within the scope of its operation, which holds only listed parts and registers. -/
theorem gramFrame : Obligations.GramFrame :=
  ⟨⟨fun _ _ _ _ _ e => (within_gramAcc e).toWrites,
    fun _ _ _ _ _ e => (within_matmul e).toWrites,
    fun _ _ _ _ _ e => (within_nsRoot e).toWrites,
    fun _ _ _ _ _ e => (within_nsOrtho e).toWrites,
    fun _ _ _ _ _ e => (within_apply e).toWrites⟩,
   fun _ _ _ _ e => (within_gramWaitRelease e).toWrites,
   fun _ _ _ _ e => (within_gramUnit e).toTouches,
   fun _ _ _ _ e => (within_gramProgressTimeout e).toWrites⟩

/-- Settles O32: each command stays within the scope of its operation, which holds only listed parts and registers. -/
theorem mittenFrame : Obligations.MittenFrame :=
  ⟨⟨fun _ _ _ e => (within_mitMember e).toTouches,
    fun _ _ _ e => (within_mitRow e).toTouches,
    fun _ _ _ e => (within_mitColumn e).toTouches,
    fun _ _ _ e => (within_mitCourier e).toTouches⟩,
   fun _ _ _ _ e => (within_mitRoundAbort e).toWrites,
   fun _ _ _ _ e => (within_mitPeerResend e).toWrites,
   fun _ _ _ _ e => (within_mitCarryResend e).toWrites,
   fun _ _ _ _ e => (within_mitRoleSet e).toWrites,
   fun _ _ _ e => (within_noticeEnWrite e).toWrites,
   fun _ _ e => (within_noticeRepeat e).toWrites⟩

/-- Settles O33: each command stays within the scope of its operation, which holds only listed parts and registers. -/
theorem hbmFrame : Obligations.HbmFrame :=
  ⟨fun _ _ _ _ e => (within_patrolScrub e).toWrites,
   ⟨fun _ _ _ _ _ _ e => (within_hbmRetire e).toWrites,
    fun _ _ _ _ e => (within_hbmRetireCmd e).toWrites⟩,
   fun _ _ _ _ e => (within_spareRemapEnd e).toWrites,
   fun _ _ _ _ _ _ e => (within_hbmLockTimeout e).toWrites,
   fun _ _ _ _ e => (within_hbmInject e).toWrites,
   ⟨fun _ _ _ _ e => (within_parkWrite e).toWrites,
    fun _ _ _ _ e => (within_parkRead e).toWrites⟩,
   fun _ _ _ _ e => (within_parkApply e).toWrites,
   fun _ _ _ e => (within_parkServiceFault e).toWrites⟩

/-- Settles O34: each command stays within the scope of its operation, which holds only listed parts and registers. -/
theorem moverFrame : Obligations.MoverFrame :=
  ⟨fun _ _ _ _ _ e => (within_moverStart e).toWrites,
   ⟨fun _ _ _ _ _ _ e => (within_moverPause e).toWrites,
    fun _ _ _ _ _ _ e => (within_moverAbort e).toWrites⟩,
   fun _ _ _ _ _ _ e => (within_moverResume e).toWrites,
   fun _ _ _ _ _ e => (within_moverErrClear e).toWrites,
   fun _ _ _ _ _ _ e => (within_move e).toWrites,
   fun _ _ _ _ _ e => (within_fill e).toWrites,
   fun _ _ _ _ _ _ e => (within_compare e).toWrites,
   ⟨fun _ _ _ _ _ e => (within_wait e).toWrites,
    fun _ _ _ _ _ e => (within_waitMet e).toWrites,
    fun _ _ _ _ _ e => (within_link e).toWrites⟩,
   fun _ _ _ _ _ e => (within_signal e).toWrites,
   fun _ _ _ _ _ e => (within_end e).toWrites,
   fun _ _ _ _ _ e => (within_pauseDrainEnd e).toWrites,
   fun _ _ _ _ _ e => (within_moverRecordWrite e).toWrites,
   ⟨fun _ _ _ _ e => (within_moverBusError e).toWrites,
    fun _ _ _ e => (within_moverBeatTimeout e).toWrites⟩,
   fun _ _ _ e => (within_moverRestart e).toWrites,
   fun _ _ _ _ _ _ e => (within_eventCounterWrite e).toWrites⟩

/-- Settles O35: each command stays within the scope of its operation, which holds only listed parts and registers. -/
theorem trayFrame : Obligations.TrayFrame :=
  ⟨fun _ _ _ _ _ e => (within_adcWindow e).toWrites,
   fun _ _ _ e => (within_tachLost e).toWrites,
   fun _ _ _ _ e => (within_trayStep e).toWrites,
   fun _ _ e => (within_capStep e).toWrites,
   fun _ _ e => (within_pwrAlertAssert e).toWrites,
   fun _ _ e => (within_pwrAlertRelease e).toWrites,
   fun _ _ _ e => (within_accGo e).toWrites,
   fun _ _ e => (within_yofenKick e).toWrites,
   fun _ _ e => (within_yofenWatchdog e).toWrites,
   fun _ _ _ e => (within_trayClaim e).toWrites,
   fun _ _ e => (within_trayOwnConflict e).toWrites,
   fun _ _ _ e => (within_ownerPublish e).toWrites,
   fun _ _ e => (within_contestStart e).toWrites,
   fun _ _ _ e => (within_contestResolve e).toWrites,
   ⟨fun _ _ e => (within_degradedClear e).toWrites,
    fun _ _ e => (within_trayYield e).toWrites⟩,
   fun _ _ e => (within_standbyQualify e).toWrites,
   fun _ _ e => (within_telemetrySend e).toWrites,
   fun _ _ _ e => (within_managerHeartbeat e).toWrites,
   fun _ _ _ e => (within_managerLost e).toWrites,
   fun _ _ e => (within_autonomousHold e).toWrites,
   fun _ _ e => (within_pumpStage1 e).toWrites,
   fun _ _ e => (within_pumpStage2 e).toWrites,
   fun _ _ e => ⟨(within_pumpStage3 e).queue, by simp⟩,
   fun _ _ e => (within_pumpStageClear e).toWrites,
   fun _ _ e => (within_trayBusRecovery e).toWrites,
   fun _ _ _ e => (within_trayInject e).toWrites,
   fun _ _ e => (within_yofenReboot e).toWrites⟩

/-- Settles O36: each command stays within the scope of its operation, which holds only listed parts and registers. -/
theorem cartFrame : Obligations.CartFrame :=
  ⟨fun _ _ _ e => (within_cartInsert e).toWrites,
   fun _ _ _ e => (within_cartPresenceLost e).toWrites,
   fun _ _ _ _ e => (within_cartTouch e).toWrites,
   fun _ _ _ e => (within_cartCuffOpen e).toWrites,
   fun _ _ _ e => (within_preDrainCancel e).toWrites,
   fun _ _ _ _ e => (within_cartButton e).toWrites,
   fun _ _ _ e => (within_cartButtonHold e).toWrites,
   fun _ _ e => (within_trayButton e).toWrites,
   fun _ _ e => (within_trayButtonHold e).toWrites,
   fun _ _ _ e => (within_cartDrain e).toWrites,
   fun _ _ _ e => (within_cartForce e).toWrites,
   ⟨fun _ _ _ e => (within_cartRejoin e).toWrites,
    fun _ _ _ e => (within_cartSafe e).toWrites⟩,
   ⟨fun _ _ _ e => (within_cartDrainComplete e).toWrites,
    fun _ _ _ e => (within_cartForceStop e).toWrites⟩,
   fun _ _ _ e => (within_cartDrainTimeout e).toWrites,
   fun _ _ _ e => (within_cartInService e).toWrites,
   fun _ _ e => (within_vinLow e).toWrites,
   fun _ _ _ e => (within_cartLatchClose e).toWrites⟩

/-- Settles O40: each command stays within the scope of its operation, which holds only listed parts and registers. -/
theorem obsFrame : Obligations.ObsFrame :=
  ⟨fun _ _ _ e => (within_counterClear e).toWrites,
   fun _ _ _ _ e => (within_tallySweep e).toWrites,
   fun _ _ _ _ e => (within_samplerCtlWrite e).toWrites,
   fun _ _ _ e => (within_injectEnableWrite e).toWrites,
   fun _ _ _ e => (within_errorInject e).toTouches⟩

end Sys2Proof.Machine
end
section
/-! What every step keeps: the queue, the form of the memories, boot flash and the rollback floors. -/

namespace Sys2Proof.Machine

set_option Elab.async false

variable {s t : State} {c : Instr}

/-- Every command stays within some scope. -/
theorem exec_within (e : exec c s = .next t) : ∃ M, s.Within M t := by
  cases c with
  | registerWrite => exact ⟨_, within_registerWrite e⟩
  | splitReadLow => exact ⟨_, within_splitReadLow e⟩
  | seamCrcError => exact ⟨_, within_seamCrcError e⟩
  | seamDown => exact ⟨_, within_seamDown e⟩
  | knitLoad => exact ⟨_, within_knitLoad e⟩
  | knitAbort => exact ⟨_, within_knitAbort e⟩
  | knitCommit => exact ⟨_, within_knitCommit e⟩
  | knitFetchComplete => exact ⟨_, within_knitFetchComplete e⟩
  | groupCommit => exact ⟨_, within_groupCommit e⟩
  | resyncEnd => exact ⟨_, within_resyncEnd e⟩
  | quietTimeout => exact ⟨_, within_quietTimeout e⟩
  | knitVoteResult => exact ⟨_, within_knitVoteResult e⟩
  | voteCommitTimeout => exact ⟨_, within_voteCommitTimeout e⟩
  | borderDrainEnd => exact ⟨_, within_borderDrainEnd e⟩
  | borderDrainTimeout => exact ⟨_, within_borderDrainTimeout e⟩
  | borderZeroizeEnd => exact ⟨_, within_borderZeroizeEnd e⟩
  | packetHeaderArrival => exact ⟨_, within_packetHeaderArrival e⟩
  | ageExpiry => exact ⟨_, within_ageExpiry e⟩
  | epochFlip => exact ⟨_, within_epochFlip e⟩
  | epochRetire => exact ⟨_, within_epochRetire e⟩
  | resultResendTimer => exact ⟨_, within_resultResendTimer e⟩
  | cnackReceive => exact ⟨_, within_cnackReceive e⟩
  | kegusTestWrite => exact ⟨_, within_kegusTestWrite e⟩
  | contrib => exact ⟨_, within_contrib e⟩
  | admissionRequest => exact ⟨_, within_admissionRequest e⟩
  | admissionReply => exact ⟨_, within_admissionReply e⟩
  | slotReadoutComplete => exact ⟨_, within_slotReadoutComplete e⟩
  | tier0Partial => exact ⟨_, within_tier0Partial e⟩
  | partialDelivered => exact ⟨_, within_partialDelivered e⟩
  | partialReceive => exact ⟨_, within_partialReceive e⟩
  | resultFromRack => exact ⟨_, within_resultFromRack e⟩
  | publishFromRack => exact ⟨_, within_publishFromRack e⟩
  | pagerSpill => exact ⟨_, within_pagerSpill e⟩
  | pagerRecall => exact ⟨_, within_pagerRecall e⟩
  | pagerSwap => exact ⟨_, within_pagerSwap e⟩
  | pagerOpComplete => exact ⟨_, within_pagerOpComplete e⟩
  | sweepEnd => exact ⟨_, within_sweepEnd e⟩
  | slabLockTimeout => exact ⟨_, within_slabLockTimeout e⟩
  | ringDoorbell => exact ⟨_, within_ringDoorbell e⟩
  | doorbell => exact ⟨_, within_doorbell e⟩
  | ringErrClear => exact ⟨_, within_ringErrClear e⟩
  | cqRecordWrite => exact ⟨_, within_cqRecordWrite e⟩
  | collective => exact ⟨_, within_collective e⟩
  | armStep => exact ⟨_, within_armStep e⟩
  | trigger => exact ⟨_, within_trigger e⟩
  | increment => exact ⟨_, within_increment e⟩
  | abortCollective => exact ⟨_, within_abortCollective e⟩
  | stepReplay => exact ⟨_, within_stepReplay e⟩
  | stepReplayEnd => exact ⟨_, within_stepReplayEnd e⟩
  | warm => exact ⟨_, within_warm e⟩
  | done => exact ⟨_, within_done e⟩
  | gapNack => exact ⟨_, within_gapNack e⟩
  | patienceExpiry => exact ⟨_, within_patienceExpiry e⟩
  | reduceForward => exact ⟨_, within_reduceForward e⟩
  | convertMulticast => exact ⟨_, within_convertMulticast e⟩
  | normContribute => exact ⟨_, within_normContribute e⟩
  | updateShard => exact ⟨_, within_updateShard e⟩
  | publishOp => exact ⟨_, within_publishOp e⟩
  | snapshotOp => exact ⟨_, within_snapshotOp e⟩
  | signalHost => exact ⟨_, within_signalHost e⟩
  | incrementOp => exact ⟨_, within_incrementOp e⟩
  | waitEpoch => exact ⟨_, within_waitEpoch e⟩
  | triggerOpComplete => exact ⟨_, within_triggerOpComplete e⟩
  | partialResendTimer => exact ⟨_, within_partialResendTimer e⟩
  | podHoldExpiry => exact ⟨_, within_podHoldExpiry e⟩
  | stragClear => exact ⟨_, within_stragClear e⟩
  | chunkHandoff => exact ⟨_, within_chunkHandoff e⟩
  | updatePass => exact ⟨_, within_updatePass e⟩
  | stepDecided => exact ⟨_, within_stepDecided e⟩
  | stepTimerExpiry => exact ⟨_, within_stepTimerExpiry e⟩
  | updateProgressTimeout => exact ⟨_, within_updateProgressTimeout e⟩
  | publish => exact ⟨_, within_publish e⟩
  | snapshot => exact ⟨_, within_snapshot e⟩
  | import_ => exact ⟨_, within_import e⟩
  | setT => exact ⟨_, within_setT e⟩
  | gramAcc => exact ⟨_, within_gramAcc e⟩
  | matmul => exact ⟨_, within_matmul e⟩
  | nsRoot => exact ⟨_, within_nsRoot e⟩
  | nsOrtho => exact ⟨_, within_nsOrtho e⟩
  | apply => exact ⟨_, within_apply e⟩
  | gramWaitRelease => exact ⟨_, within_gramWaitRelease e⟩
  | gramUnit => exact ⟨_, within_gramUnit e⟩
  | gramProgressTimeout => exact ⟨_, within_gramProgressTimeout e⟩
  | mitMember => exact ⟨_, within_mitMember e⟩
  | mitRow => exact ⟨_, within_mitRow e⟩
  | mitColumn => exact ⟨_, within_mitColumn e⟩
  | mitCourier => exact ⟨_, within_mitCourier e⟩
  | mitRoundAbort => exact ⟨_, within_mitRoundAbort e⟩
  | mitPeerResend => exact ⟨_, within_mitPeerResend e⟩
  | mitCarryResend => exact ⟨_, within_mitCarryResend e⟩
  | mitRoleSet => exact ⟨_, within_mitRoleSet e⟩
  | noticeEnWrite => exact ⟨_, within_noticeEnWrite e⟩
  | noticeRepeat => exact ⟨_, within_noticeRepeat e⟩
  | bankAdmit => exact ⟨_, within_bankAdmit e⟩
  | egressStreamStart => exact ⟨_, within_egressStreamStart e⟩
  | packetRelease => exact ⟨_, within_packetRelease e⟩
  | flushEnd => exact ⟨_, within_flushEnd e⟩
  | depthBroadcast => exact ⟨_, within_depthBroadcast e⟩
  | mirCtlWrite => exact ⟨_, within_mirCtlWrite e⟩
  | lowClr => exact ⟨_, within_lowClr e⟩
  | peakClr => exact ⟨_, within_peakClr e⟩
  | linkDownHoldEnd => exact ⟨_, within_linkDownHoldEnd e⟩
  | linkSignalDetect => exact ⟨_, within_linkSignalDetect e⟩
  | linkTrainEnd => exact ⟨_, within_linkTrainEnd e⟩
  | linkAlignDone => exact ⟨_, within_linkAlignDone e⟩
  | linkAttemptTimeout => exact ⟨_, within_linkAttemptTimeout e⟩
  | linkX2SlotEnd => exact ⟨_, within_linkX2SlotEnd e⟩
  | linkRetrainTimeout => exact ⟨_, within_linkRetrainTimeout e⟩
  | lcfReceive => exact ⟨_, within_lcfReceive e⟩
  | syncReq => exact ⟨_, within_syncReq e⟩
  | quiet => exact ⟨_, within_quiet e⟩
  | quietAck => exact ⟨_, within_quietAck e⟩
  | retrain => exact ⟨_, within_retrain e⟩
  | quietIdleExpiry => exact ⟨_, within_quietIdleExpiry e⟩
  | linkWake => exact ⟨_, within_linkWake e⟩
  | peerSignalWake => exact ⟨_, within_peerSignalWake e⟩
  | codewordDecode => exact ⟨_, within_codewordDecode e⟩
  | creditStarve => exact ⟨_, within_creditStarve e⟩
  | laneErrorWindow => exact ⟨_, within_laneErrorWindow e⟩
  | degradeSwitch => exact ⟨_, within_degradeSwitch e⟩
  | ucwWindow => exact ⟨_, within_ucwWindow e⟩
  | lcfLoss => exact ⟨_, within_lcfLoss e⟩
  | linkRetrainWrite => exact ⟨_, within_linkRetrainWrite e⟩
  | linkEnWrite => exact ⟨_, within_linkEnWrite e⟩
  | linkInject => exact ⟨_, within_linkInject e⟩
  | patrolScrub => exact ⟨_, within_patrolScrub e⟩
  | hbmRetire => exact ⟨_, within_hbmRetire e⟩
  | hbmRetireCmd => exact ⟨_, within_hbmRetireCmd e⟩
  | spareRemapEnd => exact ⟨_, within_spareRemapEnd e⟩
  | hbmLockTimeout => exact ⟨_, within_hbmLockTimeout e⟩
  | hbmInject => exact ⟨_, within_hbmInject e⟩
  | parkWrite => exact ⟨_, within_parkWrite e⟩
  | parkRead => exact ⟨_, within_parkRead e⟩
  | parkApply => exact ⟨_, within_parkApply e⟩
  | parkServiceFault => exact ⟨_, within_parkServiceFault e⟩
  | moverStart => exact ⟨_, within_moverStart e⟩
  | moverPause => exact ⟨_, within_moverPause e⟩
  | moverResume => exact ⟨_, within_moverResume e⟩
  | moverAbort => exact ⟨_, within_moverAbort e⟩
  | moverErrClear => exact ⟨_, within_moverErrClear e⟩
  | move => exact ⟨_, within_move e⟩
  | fill => exact ⟨_, within_fill e⟩
  | compare => exact ⟨_, within_compare e⟩
  | wait => exact ⟨_, within_wait e⟩
  | waitMet => exact ⟨_, within_waitMet e⟩
  | signal => exact ⟨_, within_signal e⟩
  | link => exact ⟨_, within_link e⟩
  | end_ => exact ⟨_, within_end e⟩
  | pauseDrainEnd => exact ⟨_, within_pauseDrainEnd e⟩
  | moverRecordWrite => exact ⟨_, within_moverRecordWrite e⟩
  | moverBusError => exact ⟨_, within_moverBusError e⟩
  | moverBeatTimeout => exact ⟨_, within_moverBeatTimeout e⟩
  | moverRestart => exact ⟨_, within_moverRestart e⟩
  | eventCounterWrite => exact ⟨_, within_eventCounterWrite e⟩
  | adcWindow => exact ⟨_, within_adcWindow e⟩
  | tachLost => exact ⟨_, within_tachLost e⟩
  | trayStep => exact ⟨_, within_trayStep e⟩
  | capStep => exact ⟨_, within_capStep e⟩
  | pwrAlertAssert => exact ⟨_, within_pwrAlertAssert e⟩
  | pwrAlertRelease => exact ⟨_, within_pwrAlertRelease e⟩
  | accGo => exact ⟨_, within_accGo e⟩
  | yofenKick => exact ⟨_, within_yofenKick e⟩
  | yofenWatchdog => exact ⟨_, within_yofenWatchdog e⟩
  | trayClaim => exact ⟨_, within_trayClaim e⟩
  | trayOwnConflict => exact ⟨_, within_trayOwnConflict e⟩
  | ownerPublish => exact ⟨_, within_ownerPublish e⟩
  | contestStart => exact ⟨_, within_contestStart e⟩
  | contestResolve => exact ⟨_, within_contestResolve e⟩
  | degradedClear => exact ⟨_, within_degradedClear e⟩
  | standbyQualify => exact ⟨_, within_standbyQualify e⟩
  | trayYield => exact ⟨_, within_trayYield e⟩
  | telemetrySend => exact ⟨_, within_telemetrySend e⟩
  | managerHeartbeat => exact ⟨_, within_managerHeartbeat e⟩
  | managerLost => exact ⟨_, within_managerLost e⟩
  | autonomousHold => exact ⟨_, within_autonomousHold e⟩
  | pumpStage1 => exact ⟨_, within_pumpStage1 e⟩
  | pumpStage2 => exact ⟨_, within_pumpStage2 e⟩
  | pumpStage3 => exact ⟨_, within_pumpStage3 e⟩
  | pumpStageClear => exact ⟨_, within_pumpStageClear e⟩
  | trayBusRecovery => exact ⟨_, within_trayBusRecovery e⟩
  | trayInject => exact ⟨_, within_trayInject e⟩
  | cartInsert => exact ⟨_, within_cartInsert e⟩
  | cartPresenceLost => exact ⟨_, within_cartPresenceLost e⟩
  | cartTouch => exact ⟨_, within_cartTouch e⟩
  | cartCuffOpen => exact ⟨_, within_cartCuffOpen e⟩
  | preDrainCancel => exact ⟨_, within_preDrainCancel e⟩
  | cartButton => exact ⟨_, within_cartButton e⟩
  | cartButtonHold => exact ⟨_, within_cartButtonHold e⟩
  | trayButton => exact ⟨_, within_trayButton e⟩
  | trayButtonHold => exact ⟨_, within_trayButtonHold e⟩
  | cartDrain => exact ⟨_, within_cartDrain e⟩
  | cartForce => exact ⟨_, within_cartForce e⟩
  | cartRejoin => exact ⟨_, within_cartRejoin e⟩
  | cartDrainComplete => exact ⟨_, within_cartDrainComplete e⟩
  | cartDrainTimeout => exact ⟨_, within_cartDrainTimeout e⟩
  | cartForceStop => exact ⟨_, within_cartForceStop e⟩
  | cartSafe => exact ⟨_, within_cartSafe e⟩
  | cartInService => exact ⟨_, within_cartInService e⟩
  | vinLow => exact ⟨_, within_vinLow e⟩
  | vinHoldupEnd => exact ⟨_, within_vinHoldupEnd e⟩
  | vinGood => exact ⟨_, within_vinGood e⟩
  | railTimeout => exact ⟨_, within_railTimeout e⟩
  | vauxLow => exact ⟨_, within_vauxLow e⟩
  | powerRequest => exact ⟨_, within_powerRequest e⟩
  | p2QuietEnd => exact ⟨_, within_p2QuietEnd e⟩
  | yofenIdleStop => exact ⟨_, within_yofenIdleStop e⟩
  | engineGate => exact ⟨_, within_engineGate e⟩
  | engineWake => exact ⟨_, within_engineWake e⟩
  | warmHoldEnd => exact ⟨_, within_warmHoldEnd e⟩
  | refclkLost => exact ⟨_, within_refclkLost e⟩
  | refclkReturn => exact ⟨_, within_refclkReturn e⟩
  | refclkLossTimeout => exact ⟨_, within_refclkLossTimeout e⟩
  | oscCalibrate => exact ⟨_, within_oscCalibrate e⟩
  | thermalTrip => exact ⟨_, within_thermalTrip e⟩
  | coldReset => exact ⟨_, within_coldReset e⟩
  | moduleReset => exact ⟨_, within_moduleReset e⟩
  | quadrantReset => exact ⟨_, within_quadrantReset e⟩
  | partitionReset => exact ⟨_, within_partitionReset e⟩
  | perst => exact ⟨_, within_perst e⟩
  | startupStepComplete => exact ⟨_, within_startupStepComplete e⟩
  | loadtestRun => exact ⟨_, within_loadtestRun e⟩
  | loadtestPhaseEnd => exact ⟨_, within_loadtestPhaseEnd e⟩
  | lifecycleObject => exact ⟨_, within_lifecycleObject e⟩
  | ownerEnrol => exact ⟨_, within_ownerEnrol e⟩
  | firmwareFloor => exact ⟨_, within_firmwareFloor e⟩
  | knitFloor => exact ⟨_, within_knitFloor e⟩
  | challengeRead => exact ⟨_, within_challengeRead e⟩
  | debugRequestD1 => exact ⟨_, within_debugRequestD1 e⟩
  | tokenSubmit => exact ⟨_, within_tokenSubmit e⟩
  | debugRelease => exact ⟨_, within_debugRelease e⟩
  | grantExpiry => exact ⟨_, within_grantExpiry e⟩
  | bypass => exact ⟨_, within_bypass e⟩
  | idcode => exact ⟨_, within_idcode e⟩
  | samplePreload => exact ⟨_, within_samplePreload e⟩
  | extest => exact ⟨_, within_extest e⟩
  | extestPulse => exact ⟨_, within_extestPulse e⟩
  | extestTrain => exact ⟨_, within_extestTrain e⟩
  | clamp => exact ⟨_, within_clamp e⟩
  | highz => exact ⟨_, within_highz e⟩
  | dbgReq => exact ⟨_, within_dbgReq e⟩
  | dbgToken => exact ⟨_, within_dbgToken e⟩
  | dbgAccess => exact ⟨_, within_dbgAccess e⟩
  | firmwareUpdate => exact ⟨_, within_firmwareUpdate e⟩
  | getVersion => exact ⟨_, within_getVersion e⟩
  | getCapabilities => exact ⟨_, within_getCapabilities e⟩
  | negotiateAlgorithms => exact ⟨_, within_negotiateAlgorithms e⟩
  | getDigests => exact ⟨_, within_getDigests e⟩
  | getCertificate => exact ⟨_, within_getCertificate e⟩
  | challenge => exact ⟨_, within_challenge e⟩
  | getMeasurements => exact ⟨_, within_getMeasurements e⟩
  | setEndpointId => exact ⟨_, within_setEndpointId e⟩
  | pldmSensorRead => exact ⟨_, within_pldmSensorRead e⟩
  | pldmEffecterWrite => exact ⟨_, within_pldmEffecterWrite e⟩
  | bar2Read => exact ⟨_, within_bar2Read e⟩
  | bar2Write => exact ⟨_, within_bar2Write e⟩
  | pf0Flr => exact ⟨_, within_pf0Flr e⟩
  | pcieLinkDown => exact ⟨_, within_pcieLinkDown e⟩
  | hostAccessFail => exact ⟨_, within_hostAccessFail e⟩
  | msixUnmask => exact ⟨_, within_msixUnmask e⟩
  | counterClear => exact ⟨_, within_counterClear e⟩
  | tallySweep => exact ⟨_, within_tallySweep e⟩
  | samplerCtlWrite => exact ⟨_, within_samplerCtlWrite e⟩
  | injectEnableWrite => exact ⟨_, within_injectEnableWrite e⟩
  | errorInject => exact ⟨_, within_errorInject e⟩
  | debugWindowAccess => exact ⟨_, within_debugWindowAccess e⟩
  | cartLatchClose => exact ⟨_, within_cartLatchClose e⟩
  | retrainPrbsEnd => exact ⟨_, within_retrainPrbsEnd e⟩
  | yofenReboot => exact ⟨_, within_yofenReboot e⟩
  | quadrantResetEnd => exact ⟨_, within_quadrantResetEnd e⟩
  | moduleResetRelease => exact ⟨_, within_moduleResetRelease e⟩
  | ieee1588Time => exact ⟨_, within_ieee1588Time e⟩

/-! ## The queue -/

/-- A step answers a next state whose queue is the one before it without its front command. -/
theorem step_pending (s : State) : ∃ t, step s = .next t ∧ t.pending = s.pending.drop 1 := by
  unfold step
  split
  · next h => exact ⟨_, rfl, by rw [(State.Within.refl.tick (M := State.tickScope)).queue, h]; rfl⟩
  · next i r h =>
    obtain ⟨t, e, hq⟩ := exec_answers i { s with pending := r }
    exact ⟨t, e, by rw [hq, h]; rfl⟩

/-- A run answers a next state whose queue is the first one without as many front commands as it has steps. -/
theorem run_pending (n : Nat) (s : State) : ∃ t : State, core.run n s = .next t ∧ t.pending = s.pending.drop n := by
  induction n generalizing s with
  | zero => exact ⟨s, rfl, rfl⟩
  | succ n ih =>
    obtain ⟨t, e, hq⟩ := step_pending s
    obtain ⟨u, e', hq'⟩ := ih t
    refine ⟨u, ?_, by rw [hq', hq, List.drop_drop, Nat.add_comm]⟩
    have hstep : core.step s = .next t := e
    simp only [Host.Core.run, hstep]
    exact e'

/-- Settles O42: what a run leaves waiting is a suffix of what waited. -/
theorem runsNeverStop : Obligations.RunsNeverStop := by
  intro n s
  obtain ⟨t, e, hq⟩ := run_pending n s
  exact ⟨t, e, hq, fun hs i hi => hs i (List.mem_of_mem_drop (hq ▸ hi))⟩

/-! ## The form of the memories -/

/-- Settles O43: each operation stays within a scope, and what does so keeps the form. -/
theorem memoryOperationsKeepForm : Obligations.MemoryOperationsKeepForm := by
  intro s w
  refine ⟨fun _ _ _ => ?_, fun _ _ _ t e => ?_, fun _ _ _ => ?_, fun _ _ => ?_, fun _ _ _ _ _ _ => ?_⟩
  · exact (State.Within.refl.devWrite (M := State.devWriteScope)).form w
  · exact (State.Within.refl.memWrite (M := State.memWriteScope) (e := e)).form w
  · exact (State.Within.refl.zeroDev (M := State.zeroDevScope)).form w
  · exact (State.Within.refl.flashPut (M := scope [.flash] [])).form w
  · exact (State.Within.refl.img (M := scope [.img] []) (Mem.wf_writeN _ _ _)).form w

/-- Settles O45: a cycle and every command stay within a scope, and what does so keeps the form. -/
theorem memoryFormKept : Obligations.MemoryFormKept := by
  intro s t w e
  unfold step at e
  split at e
  · rw [← Host.Outcome.next.inj e]
    exact (State.Within.refl.tick (M := State.tickScope)).form w
  · obtain ⟨M, h⟩ := exec_within e
    exact h.form w

/-! ## Boot flash and its counters -/

/-- Settles O49: of the commands but those listed, none has boot flash in its scope. -/
theorem bootFlashChangesOnlyByItsCommands : Obligations.BootFlashChangesOnlyByItsCommands := by
  intro c s t hc e
  cases c with
  | registerWrite => exact (within_registerWrite e).parts .flash (by decide +kernel)
  | splitReadLow => exact (within_splitReadLow e).parts .flash (by decide +kernel)
  | seamCrcError => exact (within_seamCrcError e).parts .flash (by decide +kernel)
  | seamDown => exact (within_seamDown e).parts .flash (by decide +kernel)
  | knitLoad => exact (within_knitLoad e).parts .flash (by decide +kernel)
  | knitAbort => exact (within_knitAbort e).parts .flash (by decide +kernel)
  | knitCommit => exact (within_knitCommit e).parts .flash (by decide +kernel)
  | knitFetchComplete => exact (within_knitFetchComplete e).parts .flash (by decide +kernel)
  | groupCommit => exact (within_groupCommit e).parts .flash (by decide +kernel)
  | resyncEnd => exact (within_resyncEnd e).parts .flash (by decide +kernel)
  | quietTimeout => exact (within_quietTimeout e).parts .flash (by decide +kernel)
  | knitVoteResult => exact (within_knitVoteResult e).parts .flash (by decide +kernel)
  | voteCommitTimeout => exact (within_voteCommitTimeout e).parts .flash (by decide +kernel)
  | borderDrainEnd => exact (within_borderDrainEnd e).parts .flash (by decide +kernel)
  | borderDrainTimeout => exact (within_borderDrainTimeout e).parts .flash (by decide +kernel)
  | borderZeroizeEnd => exact (within_borderZeroizeEnd e).parts .flash (by decide +kernel)
  | packetHeaderArrival => exact (within_packetHeaderArrival e).parts .flash (by decide +kernel)
  | ageExpiry => exact (within_ageExpiry e).parts .flash (by decide +kernel)
  | epochFlip => exact (within_epochFlip e).parts .flash (by decide +kernel)
  | epochRetire => exact (within_epochRetire e).parts .flash (by decide +kernel)
  | resultResendTimer => exact (within_resultResendTimer e).parts .flash (by decide +kernel)
  | cnackReceive => exact (within_cnackReceive e).parts .flash (by decide +kernel)
  | kegusTestWrite => exact (within_kegusTestWrite e).parts .flash (by decide +kernel)
  | contrib => exact (within_contrib e).parts .flash (by decide +kernel)
  | admissionRequest => exact (within_admissionRequest e).parts .flash (by decide +kernel)
  | admissionReply => exact (within_admissionReply e).parts .flash (by decide +kernel)
  | slotReadoutComplete => exact (within_slotReadoutComplete e).parts .flash (by decide +kernel)
  | tier0Partial => exact (within_tier0Partial e).parts .flash (by decide +kernel)
  | partialDelivered => exact (within_partialDelivered e).parts .flash (by decide +kernel)
  | partialReceive => exact (within_partialReceive e).parts .flash (by decide +kernel)
  | resultFromRack => exact (within_resultFromRack e).parts .flash (by decide +kernel)
  | publishFromRack => exact (within_publishFromRack e).parts .flash (by decide +kernel)
  | pagerSpill => exact (within_pagerSpill e).parts .flash (by decide +kernel)
  | pagerRecall => exact (within_pagerRecall e).parts .flash (by decide +kernel)
  | pagerSwap => exact (within_pagerSwap e).parts .flash (by decide +kernel)
  | pagerOpComplete => exact (within_pagerOpComplete e).parts .flash (by decide +kernel)
  | sweepEnd => exact (within_sweepEnd e).parts .flash (by decide +kernel)
  | slabLockTimeout => exact (within_slabLockTimeout e).parts .flash (by decide +kernel)
  | ringDoorbell => exact (within_ringDoorbell e).parts .flash (by decide +kernel)
  | doorbell => exact (within_doorbell e).parts .flash (by decide +kernel)
  | ringErrClear => exact (within_ringErrClear e).parts .flash (by decide +kernel)
  | cqRecordWrite => exact (within_cqRecordWrite e).parts .flash (by decide +kernel)
  | collective => exact (within_collective e).parts .flash (by decide +kernel)
  | armStep => exact (within_armStep e).parts .flash (by decide +kernel)
  | trigger => exact (within_trigger e).parts .flash (by decide +kernel)
  | increment => exact (within_increment e).parts .flash (by decide +kernel)
  | abortCollective => exact (within_abortCollective e).parts .flash (by decide +kernel)
  | stepReplay => exact (within_stepReplay e).parts .flash (by decide +kernel)
  | stepReplayEnd => exact (within_stepReplayEnd e).parts .flash (by decide +kernel)
  | warm => exact (within_warm e).parts .flash (by decide +kernel)
  | done => exact (within_done e).parts .flash (by decide +kernel)
  | gapNack => exact (within_gapNack e).parts .flash (by decide +kernel)
  | patienceExpiry => exact (within_patienceExpiry e).parts .flash (by decide +kernel)
  | reduceForward => exact (within_reduceForward e).parts .flash (by decide +kernel)
  | convertMulticast => exact (within_convertMulticast e).parts .flash (by decide +kernel)
  | normContribute => exact (within_normContribute e).parts .flash (by decide +kernel)
  | updateShard => exact (within_updateShard e).parts .flash (by decide +kernel)
  | publishOp => exact (within_publishOp e).parts .flash (by decide +kernel)
  | snapshotOp => exact (within_snapshotOp e).parts .flash (by decide +kernel)
  | signalHost => exact (within_signalHost e).parts .flash (by decide +kernel)
  | incrementOp => exact (within_incrementOp e).parts .flash (by decide +kernel)
  | waitEpoch => exact (within_waitEpoch e).parts .flash (by decide +kernel)
  | triggerOpComplete => exact (within_triggerOpComplete e).parts .flash (by decide +kernel)
  | partialResendTimer => exact (within_partialResendTimer e).parts .flash (by decide +kernel)
  | podHoldExpiry => exact (within_podHoldExpiry e).parts .flash (by decide +kernel)
  | stragClear => exact (within_stragClear e).parts .flash (by decide +kernel)
  | chunkHandoff => exact (within_chunkHandoff e).parts .flash (by decide +kernel)
  | updatePass => exact (within_updatePass e).parts .flash (by decide +kernel)
  | stepDecided => exact (within_stepDecided e).parts .flash (by decide +kernel)
  | stepTimerExpiry => exact (within_stepTimerExpiry e).parts .flash (by decide +kernel)
  | updateProgressTimeout => exact (within_updateProgressTimeout e).parts .flash (by decide +kernel)
  | publish => exact (within_publish e).parts .flash (by decide +kernel)
  | snapshot => exact (within_snapshot e).parts .flash (by decide +kernel)
  | import_ => exact (within_import e).parts .flash (by decide +kernel)
  | setT => exact (within_setT e).parts .flash (by decide +kernel)
  | gramAcc => exact (within_gramAcc e).parts .flash (by decide +kernel)
  | matmul => exact (within_matmul e).parts .flash (by decide +kernel)
  | nsRoot => exact (within_nsRoot e).parts .flash (by decide +kernel)
  | nsOrtho => exact (within_nsOrtho e).parts .flash (by decide +kernel)
  | apply => exact (within_apply e).parts .flash (by decide +kernel)
  | gramWaitRelease => exact (within_gramWaitRelease e).parts .flash (by decide +kernel)
  | gramUnit => exact (within_gramUnit e).parts .flash (by decide +kernel)
  | gramProgressTimeout => exact (within_gramProgressTimeout e).parts .flash (by decide +kernel)
  | mitMember => exact (within_mitMember e).parts .flash (by decide +kernel)
  | mitRow => exact (within_mitRow e).parts .flash (by decide +kernel)
  | mitColumn => exact (within_mitColumn e).parts .flash (by decide +kernel)
  | mitCourier => exact (within_mitCourier e).parts .flash (by decide +kernel)
  | mitRoundAbort => exact (within_mitRoundAbort e).parts .flash (by decide +kernel)
  | mitPeerResend => exact (within_mitPeerResend e).parts .flash (by decide +kernel)
  | mitCarryResend => exact (within_mitCarryResend e).parts .flash (by decide +kernel)
  | mitRoleSet => exact (within_mitRoleSet e).parts .flash (by decide +kernel)
  | noticeEnWrite => exact (within_noticeEnWrite e).parts .flash (by decide +kernel)
  | noticeRepeat => exact (within_noticeRepeat e).parts .flash (by decide +kernel)
  | bankAdmit => exact (within_bankAdmit e).parts .flash (by decide +kernel)
  | egressStreamStart => exact (within_egressStreamStart e).parts .flash (by decide +kernel)
  | packetRelease => exact (within_packetRelease e).parts .flash (by decide +kernel)
  | flushEnd => exact (within_flushEnd e).parts .flash (by decide +kernel)
  | depthBroadcast => exact (within_depthBroadcast e).parts .flash (by decide +kernel)
  | mirCtlWrite => exact (within_mirCtlWrite e).parts .flash (by decide +kernel)
  | lowClr => exact (within_lowClr e).parts .flash (by decide +kernel)
  | peakClr => exact (within_peakClr e).parts .flash (by decide +kernel)
  | linkDownHoldEnd => exact (within_linkDownHoldEnd e).parts .flash (by decide +kernel)
  | linkSignalDetect => exact (within_linkSignalDetect e).parts .flash (by decide +kernel)
  | linkTrainEnd => exact (within_linkTrainEnd e).parts .flash (by decide +kernel)
  | linkAlignDone => exact (within_linkAlignDone e).parts .flash (by decide +kernel)
  | linkAttemptTimeout => exact (within_linkAttemptTimeout e).parts .flash (by decide +kernel)
  | linkX2SlotEnd => exact (within_linkX2SlotEnd e).parts .flash (by decide +kernel)
  | linkRetrainTimeout => exact (within_linkRetrainTimeout e).parts .flash (by decide +kernel)
  | lcfReceive => exact (within_lcfReceive e).parts .flash (by decide +kernel)
  | syncReq => exact (within_syncReq e).parts .flash (by decide +kernel)
  | quiet => exact (within_quiet e).parts .flash (by decide +kernel)
  | quietAck => exact (within_quietAck e).parts .flash (by decide +kernel)
  | retrain => exact (within_retrain e).parts .flash (by decide +kernel)
  | quietIdleExpiry => exact (within_quietIdleExpiry e).parts .flash (by decide +kernel)
  | linkWake => exact (within_linkWake e).parts .flash (by decide +kernel)
  | peerSignalWake => exact (within_peerSignalWake e).parts .flash (by decide +kernel)
  | codewordDecode => exact (within_codewordDecode e).parts .flash (by decide +kernel)
  | creditStarve => exact (within_creditStarve e).parts .flash (by decide +kernel)
  | laneErrorWindow => exact (within_laneErrorWindow e).parts .flash (by decide +kernel)
  | degradeSwitch => exact (within_degradeSwitch e).parts .flash (by decide +kernel)
  | ucwWindow => exact (within_ucwWindow e).parts .flash (by decide +kernel)
  | lcfLoss => exact (within_lcfLoss e).parts .flash (by decide +kernel)
  | linkRetrainWrite => exact (within_linkRetrainWrite e).parts .flash (by decide +kernel)
  | linkEnWrite => exact (within_linkEnWrite e).parts .flash (by decide +kernel)
  | linkInject => exact (within_linkInject e).parts .flash (by decide +kernel)
  | patrolScrub => exact (within_patrolScrub e).parts .flash (by decide +kernel)
  | hbmRetire => exact (within_hbmRetire e).parts .flash (by decide +kernel)
  | hbmRetireCmd => exact (within_hbmRetireCmd e).parts .flash (by decide +kernel)
  | spareRemapEnd => exact (within_spareRemapEnd e).parts .flash (by decide +kernel)
  | hbmLockTimeout => exact (within_hbmLockTimeout e).parts .flash (by decide +kernel)
  | hbmInject => exact (within_hbmInject e).parts .flash (by decide +kernel)
  | parkWrite => exact (within_parkWrite e).parts .flash (by decide +kernel)
  | parkRead => exact (within_parkRead e).parts .flash (by decide +kernel)
  | parkApply => exact (within_parkApply e).parts .flash (by decide +kernel)
  | parkServiceFault => exact (within_parkServiceFault e).parts .flash (by decide +kernel)
  | moverStart => exact (within_moverStart e).parts .flash (by decide +kernel)
  | moverPause => exact (within_moverPause e).parts .flash (by decide +kernel)
  | moverResume => exact (within_moverResume e).parts .flash (by decide +kernel)
  | moverAbort => exact (within_moverAbort e).parts .flash (by decide +kernel)
  | moverErrClear => exact (within_moverErrClear e).parts .flash (by decide +kernel)
  | move => exact (within_move e).parts .flash (by decide +kernel)
  | fill => exact (within_fill e).parts .flash (by decide +kernel)
  | compare => exact (within_compare e).parts .flash (by decide +kernel)
  | wait => exact (within_wait e).parts .flash (by decide +kernel)
  | waitMet => exact (within_waitMet e).parts .flash (by decide +kernel)
  | signal => exact (within_signal e).parts .flash (by decide +kernel)
  | link => exact (within_link e).parts .flash (by decide +kernel)
  | end_ => exact (within_end e).parts .flash (by decide +kernel)
  | pauseDrainEnd => exact (within_pauseDrainEnd e).parts .flash (by decide +kernel)
  | moverRecordWrite => exact (within_moverRecordWrite e).parts .flash (by decide +kernel)
  | moverBusError => exact (within_moverBusError e).parts .flash (by decide +kernel)
  | moverBeatTimeout => exact (within_moverBeatTimeout e).parts .flash (by decide +kernel)
  | moverRestart => exact (within_moverRestart e).parts .flash (by decide +kernel)
  | eventCounterWrite => exact (within_eventCounterWrite e).parts .flash (by decide +kernel)
  | adcWindow => exact (within_adcWindow e).parts .flash (by decide +kernel)
  | tachLost => exact (within_tachLost e).parts .flash (by decide +kernel)
  | trayStep => exact (within_trayStep e).parts .flash (by decide +kernel)
  | capStep => exact (within_capStep e).parts .flash (by decide +kernel)
  | pwrAlertAssert => exact (within_pwrAlertAssert e).parts .flash (by decide +kernel)
  | pwrAlertRelease => exact (within_pwrAlertRelease e).parts .flash (by decide +kernel)
  | accGo => exact (within_accGo e).parts .flash (by decide +kernel)
  | yofenKick => exact (within_yofenKick e).parts .flash (by decide +kernel)
  | yofenWatchdog => exact (within_yofenWatchdog e).parts .flash (by decide +kernel)
  | trayClaim => exact (within_trayClaim e).parts .flash (by decide +kernel)
  | trayOwnConflict => exact (within_trayOwnConflict e).parts .flash (by decide +kernel)
  | ownerPublish => exact (within_ownerPublish e).parts .flash (by decide +kernel)
  | contestStart => exact (within_contestStart e).parts .flash (by decide +kernel)
  | contestResolve => exact (within_contestResolve e).parts .flash (by decide +kernel)
  | degradedClear => exact (within_degradedClear e).parts .flash (by decide +kernel)
  | standbyQualify => exact (within_standbyQualify e).parts .flash (by decide +kernel)
  | trayYield => exact (within_trayYield e).parts .flash (by decide +kernel)
  | telemetrySend => exact (within_telemetrySend e).parts .flash (by decide +kernel)
  | managerHeartbeat => exact (within_managerHeartbeat e).parts .flash (by decide +kernel)
  | managerLost => exact (within_managerLost e).parts .flash (by decide +kernel)
  | autonomousHold => exact (within_autonomousHold e).parts .flash (by decide +kernel)
  | pumpStage1 => exact (within_pumpStage1 e).parts .flash (by decide +kernel)
  | pumpStage2 => exact (within_pumpStage2 e).parts .flash (by decide +kernel)
  | pumpStage3 => exact (within_pumpStage3 e).parts .flash (by decide +kernel)
  | pumpStageClear => exact (within_pumpStageClear e).parts .flash (by decide +kernel)
  | trayBusRecovery => exact (within_trayBusRecovery e).parts .flash (by decide +kernel)
  | trayInject => exact (within_trayInject e).parts .flash (by decide +kernel)
  | cartInsert => exact (within_cartInsert e).parts .flash (by decide +kernel)
  | cartPresenceLost => exact (within_cartPresenceLost e).parts .flash (by decide +kernel)
  | cartTouch => exact (within_cartTouch e).parts .flash (by decide +kernel)
  | cartCuffOpen => exact (within_cartCuffOpen e).parts .flash (by decide +kernel)
  | preDrainCancel => exact (within_preDrainCancel e).parts .flash (by decide +kernel)
  | cartButton => exact (within_cartButton e).parts .flash (by decide +kernel)
  | cartButtonHold => exact (within_cartButtonHold e).parts .flash (by decide +kernel)
  | trayButton => exact (within_trayButton e).parts .flash (by decide +kernel)
  | trayButtonHold => exact (within_trayButtonHold e).parts .flash (by decide +kernel)
  | cartDrain => exact (within_cartDrain e).parts .flash (by decide +kernel)
  | cartForce => exact (within_cartForce e).parts .flash (by decide +kernel)
  | cartRejoin => exact (within_cartRejoin e).parts .flash (by decide +kernel)
  | cartDrainComplete => exact (within_cartDrainComplete e).parts .flash (by decide +kernel)
  | cartDrainTimeout => exact (within_cartDrainTimeout e).parts .flash (by decide +kernel)
  | cartForceStop => exact (within_cartForceStop e).parts .flash (by decide +kernel)
  | cartSafe => exact (within_cartSafe e).parts .flash (by decide +kernel)
  | cartInService => exact (within_cartInService e).parts .flash (by decide +kernel)
  | vinLow => exact (within_vinLow e).parts .flash (by decide +kernel)
  | vinHoldupEnd => exact (within_vinHoldupEnd e).parts .flash (by decide +kernel)
  | vinGood => exact (within_vinGood e).parts .flash (by decide +kernel)
  | railTimeout => exact (within_railTimeout e).parts .flash (by decide +kernel)
  | vauxLow => exact (within_vauxLow e).parts .flash (by decide +kernel)
  | powerRequest => exact (within_powerRequest e).parts .flash (by decide +kernel)
  | p2QuietEnd => exact (within_p2QuietEnd e).parts .flash (by decide +kernel)
  | yofenIdleStop => exact (within_yofenIdleStop e).parts .flash (by decide +kernel)
  | engineGate => exact (within_engineGate e).parts .flash (by decide +kernel)
  | engineWake => exact (within_engineWake e).parts .flash (by decide +kernel)
  | warmHoldEnd => exact (within_warmHoldEnd e).parts .flash (by decide +kernel)
  | refclkLost => exact (within_refclkLost e).parts .flash (by decide +kernel)
  | refclkReturn => exact (within_refclkReturn e).parts .flash (by decide +kernel)
  | refclkLossTimeout => exact (within_refclkLossTimeout e).parts .flash (by decide +kernel)
  | oscCalibrate => exact (within_oscCalibrate e).parts .flash (by decide +kernel)
  | thermalTrip => exact (within_thermalTrip e).parts .flash (by decide +kernel)
  | coldReset => exact (within_coldReset e).parts .flash (by decide +kernel)
  | moduleReset => exact (within_moduleReset e).parts .flash (by decide +kernel)
  | quadrantReset => exact (within_quadrantReset e).parts .flash (by decide +kernel)
  | partitionReset => exact (within_partitionReset e).parts .flash (by decide +kernel)
  | perst => exact (within_perst e).parts .flash (by decide +kernel)
  | startupStepComplete => cases hc
  | loadtestRun => exact (within_loadtestRun e).parts .flash (by decide +kernel)
  | loadtestPhaseEnd => exact (within_loadtestPhaseEnd e).parts .flash (by decide +kernel)
  | lifecycleObject => cases hc
  | ownerEnrol => cases hc
  | firmwareFloor => exact (within_firmwareFloor e).parts .flash (by decide +kernel)
  | knitFloor => exact (within_knitFloor e).parts .flash (by decide +kernel)
  | challengeRead => exact (within_challengeRead e).parts .flash (by decide +kernel)
  | debugRequestD1 => exact (within_debugRequestD1 e).parts .flash (by decide +kernel)
  | tokenSubmit => exact (within_tokenSubmit e).parts .flash (by decide +kernel)
  | debugRelease => exact (within_debugRelease e).parts .flash (by decide +kernel)
  | grantExpiry => exact (within_grantExpiry e).parts .flash (by decide +kernel)
  | bypass => exact (within_bypass e).parts .flash (by decide +kernel)
  | idcode => exact (within_idcode e).parts .flash (by decide +kernel)
  | samplePreload => exact (within_samplePreload e).parts .flash (by decide +kernel)
  | extest => exact (within_extest e).parts .flash (by decide +kernel)
  | extestPulse => exact (within_extestPulse e).parts .flash (by decide +kernel)
  | extestTrain => exact (within_extestTrain e).parts .flash (by decide +kernel)
  | clamp => exact (within_clamp e).parts .flash (by decide +kernel)
  | highz => exact (within_highz e).parts .flash (by decide +kernel)
  | dbgReq => exact (within_dbgReq e).parts .flash (by decide +kernel)
  | dbgToken => exact (within_dbgToken e).parts .flash (by decide +kernel)
  | dbgAccess => exact (within_dbgAccess e).parts .flash (by decide +kernel)
  | firmwareUpdate => cases hc
  | getVersion => exact (within_getVersion e).parts .flash (by decide +kernel)
  | getCapabilities => exact (within_getCapabilities e).parts .flash (by decide +kernel)
  | negotiateAlgorithms => exact (within_negotiateAlgorithms e).parts .flash (by decide +kernel)
  | getDigests => exact (within_getDigests e).parts .flash (by decide +kernel)
  | getCertificate => exact (within_getCertificate e).parts .flash (by decide +kernel)
  | challenge => exact (within_challenge e).parts .flash (by decide +kernel)
  | getMeasurements => exact (within_getMeasurements e).parts .flash (by decide +kernel)
  | setEndpointId => exact (within_setEndpointId e).parts .flash (by decide +kernel)
  | pldmSensorRead => exact (within_pldmSensorRead e).parts .flash (by decide +kernel)
  | pldmEffecterWrite => exact (within_pldmEffecterWrite e).parts .flash (by decide +kernel)
  | bar2Read => exact (within_bar2Read e).parts .flash (by decide +kernel)
  | bar2Write => exact (within_bar2Write e).parts .flash (by decide +kernel)
  | pf0Flr => exact (within_pf0Flr e).parts .flash (by decide +kernel)
  | pcieLinkDown => exact (within_pcieLinkDown e).parts .flash (by decide +kernel)
  | hostAccessFail => exact (within_hostAccessFail e).parts .flash (by decide +kernel)
  | msixUnmask => exact (within_msixUnmask e).parts .flash (by decide +kernel)
  | counterClear => exact (within_counterClear e).parts .flash (by decide +kernel)
  | tallySweep => exact (within_tallySweep e).parts .flash (by decide +kernel)
  | samplerCtlWrite => exact (within_samplerCtlWrite e).parts .flash (by decide +kernel)
  | injectEnableWrite => exact (within_injectEnableWrite e).parts .flash (by decide +kernel)
  | errorInject => exact (within_errorInject e).parts .flash (by decide +kernel)
  | debugWindowAccess => exact (within_debugWindowAccess e).parts .flash (by decide +kernel)
  | cartLatchClose => exact (within_cartLatchClose e).parts .flash (by decide +kernel)
  | retrainPrbsEnd => exact (within_retrainPrbsEnd e).parts .flash (by decide +kernel)
  | yofenReboot => exact (within_yofenReboot e).parts .flash (by decide +kernel)
  | quadrantResetEnd => exact (within_quadrantResetEnd e).parts .flash (by decide +kernel)
  | moduleResetRelease => exact (within_moduleResetRelease e).parts .flash (by decide +kernel)
  | ieee1588Time => exact (within_ieee1588Time e).parts .flash (by decide +kernel)

/-- The rollback floors keep their values under every command but those that reach SEC_CMD. -/
theorem floors_kept (hc : (match c with | .firmwareFloor | .knitFloor | .registerWrite .. | .debugWindowAccess .. => true | _ => false) = false)
    (e : exec c s = .next t) : ∀ i, i < 2 → t.rd V.FLASH_CTR [i] = s.rd V.FLASH_CTR [i] := by
  cases c with
  | registerWrite => cases hc
  | splitReadLow => exact (within_splitReadLow e).floors (by decide +kernel)
  | seamCrcError => exact (within_seamCrcError e).floors (by decide +kernel)
  | seamDown => exact (within_seamDown e).floors (by decide +kernel)
  | knitLoad => exact (within_knitLoad e).floors (by decide +kernel)
  | knitAbort => exact (within_knitAbort e).floors (by decide +kernel)
  | knitCommit => exact (within_knitCommit e).floors (by decide +kernel)
  | knitFetchComplete => exact (within_knitFetchComplete e).floors (by decide +kernel)
  | groupCommit => exact (within_groupCommit e).floors (by decide +kernel)
  | resyncEnd => exact (within_resyncEnd e).floors (by decide +kernel)
  | quietTimeout => exact (within_quietTimeout e).floors (by decide +kernel)
  | knitVoteResult => exact (within_knitVoteResult e).floors (by decide +kernel)
  | voteCommitTimeout => exact (within_voteCommitTimeout e).floors (by decide +kernel)
  | borderDrainEnd => exact (within_borderDrainEnd e).floors (by decide +kernel)
  | borderDrainTimeout => exact (within_borderDrainTimeout e).floors (by decide +kernel)
  | borderZeroizeEnd => exact (within_borderZeroizeEnd e).floors (by decide +kernel)
  | packetHeaderArrival => exact (within_packetHeaderArrival e).floors (by decide +kernel)
  | ageExpiry => exact (within_ageExpiry e).floors (by decide +kernel)
  | epochFlip => exact (within_epochFlip e).floors (by decide +kernel)
  | epochRetire => exact (within_epochRetire e).floors (by decide +kernel)
  | resultResendTimer => exact (within_resultResendTimer e).floors (by decide +kernel)
  | cnackReceive => exact (within_cnackReceive e).floors (by decide +kernel)
  | kegusTestWrite => exact (within_kegusTestWrite e).floors (by decide +kernel)
  | contrib => exact (within_contrib e).floors (by decide +kernel)
  | admissionRequest => exact (within_admissionRequest e).floors (by decide +kernel)
  | admissionReply => exact (within_admissionReply e).floors (by decide +kernel)
  | slotReadoutComplete => exact (within_slotReadoutComplete e).floors (by decide +kernel)
  | tier0Partial => exact (within_tier0Partial e).floors (by decide +kernel)
  | partialDelivered => exact (within_partialDelivered e).floors (by decide +kernel)
  | partialReceive => exact (within_partialReceive e).floors (by decide +kernel)
  | resultFromRack => exact (within_resultFromRack e).floors (by decide +kernel)
  | publishFromRack => exact (within_publishFromRack e).floors (by decide +kernel)
  | pagerSpill => exact (within_pagerSpill e).floors (by decide +kernel)
  | pagerRecall => exact (within_pagerRecall e).floors (by decide +kernel)
  | pagerSwap => exact (within_pagerSwap e).floors (by decide +kernel)
  | pagerOpComplete => exact (within_pagerOpComplete e).floors (by decide +kernel)
  | sweepEnd => exact (within_sweepEnd e).floors (by decide +kernel)
  | slabLockTimeout => exact (within_slabLockTimeout e).floors (by decide +kernel)
  | ringDoorbell => exact (within_ringDoorbell e).floors (by decide +kernel)
  | doorbell => exact (within_doorbell e).floors (by decide +kernel)
  | ringErrClear => exact (within_ringErrClear e).floors (by decide +kernel)
  | cqRecordWrite => exact (within_cqRecordWrite e).floors (by decide +kernel)
  | collective => exact (within_collective e).floors (by decide +kernel)
  | armStep => exact (within_armStep e).floors (by decide +kernel)
  | trigger => exact (within_trigger e).floors (by decide +kernel)
  | increment => exact (within_increment e).floors (by decide +kernel)
  | abortCollective => exact (within_abortCollective e).floors (by decide +kernel)
  | stepReplay => exact (within_stepReplay e).floors (by decide +kernel)
  | stepReplayEnd => exact (within_stepReplayEnd e).floors (by decide +kernel)
  | warm => exact (within_warm e).floors (by decide +kernel)
  | done => exact (within_done e).floors (by decide +kernel)
  | gapNack => exact (within_gapNack e).floors (by decide +kernel)
  | patienceExpiry => exact (within_patienceExpiry e).floors (by decide +kernel)
  | reduceForward => exact (within_reduceForward e).floors (by decide +kernel)
  | convertMulticast => exact (within_convertMulticast e).floors (by decide +kernel)
  | normContribute => exact (within_normContribute e).floors (by decide +kernel)
  | updateShard => exact (within_updateShard e).floors (by decide +kernel)
  | publishOp => exact (within_publishOp e).floors (by decide +kernel)
  | snapshotOp => exact (within_snapshotOp e).floors (by decide +kernel)
  | signalHost => exact (within_signalHost e).floors (by decide +kernel)
  | incrementOp => exact (within_incrementOp e).floors (by decide +kernel)
  | waitEpoch => exact (within_waitEpoch e).floors (by decide +kernel)
  | triggerOpComplete => exact (within_triggerOpComplete e).floors (by decide +kernel)
  | partialResendTimer => exact (within_partialResendTimer e).floors (by decide +kernel)
  | podHoldExpiry => exact (within_podHoldExpiry e).floors (by decide +kernel)
  | stragClear => exact (within_stragClear e).floors (by decide +kernel)
  | chunkHandoff => exact (within_chunkHandoff e).floors (by decide +kernel)
  | updatePass => exact (within_updatePass e).floors (by decide +kernel)
  | stepDecided => exact (within_stepDecided e).floors (by decide +kernel)
  | stepTimerExpiry => exact (within_stepTimerExpiry e).floors (by decide +kernel)
  | updateProgressTimeout => exact (within_updateProgressTimeout e).floors (by decide +kernel)
  | publish => exact (within_publish e).floors (by decide +kernel)
  | snapshot => exact (within_snapshot e).floors (by decide +kernel)
  | import_ => exact (within_import e).floors (by decide +kernel)
  | setT => exact (within_setT e).floors (by decide +kernel)
  | gramAcc => exact (within_gramAcc e).floors (by decide +kernel)
  | matmul => exact (within_matmul e).floors (by decide +kernel)
  | nsRoot => exact (within_nsRoot e).floors (by decide +kernel)
  | nsOrtho => exact (within_nsOrtho e).floors (by decide +kernel)
  | apply => exact (within_apply e).floors (by decide +kernel)
  | gramWaitRelease => exact (within_gramWaitRelease e).floors (by decide +kernel)
  | gramUnit => exact (within_gramUnit e).floors (by decide +kernel)
  | gramProgressTimeout => exact (within_gramProgressTimeout e).floors (by decide +kernel)
  | mitMember => exact (within_mitMember e).floors (by decide +kernel)
  | mitRow => exact (within_mitRow e).floors (by decide +kernel)
  | mitColumn => exact (within_mitColumn e).floors (by decide +kernel)
  | mitCourier => exact (within_mitCourier e).floors (by decide +kernel)
  | mitRoundAbort => exact (within_mitRoundAbort e).floors (by decide +kernel)
  | mitPeerResend => exact (within_mitPeerResend e).floors (by decide +kernel)
  | mitCarryResend => exact (within_mitCarryResend e).floors (by decide +kernel)
  | mitRoleSet => exact (within_mitRoleSet e).floors (by decide +kernel)
  | noticeEnWrite => exact (within_noticeEnWrite e).floors (by decide +kernel)
  | noticeRepeat => exact (within_noticeRepeat e).floors (by decide +kernel)
  | bankAdmit => exact (within_bankAdmit e).floors (by decide +kernel)
  | egressStreamStart => exact (within_egressStreamStart e).floors (by decide +kernel)
  | packetRelease => exact (within_packetRelease e).floors (by decide +kernel)
  | flushEnd => exact (within_flushEnd e).floors (by decide +kernel)
  | depthBroadcast => exact (within_depthBroadcast e).floors (by decide +kernel)
  | mirCtlWrite => exact (within_mirCtlWrite e).floors (by decide +kernel)
  | lowClr => exact (within_lowClr e).floors (by decide +kernel)
  | peakClr => exact (within_peakClr e).floors (by decide +kernel)
  | linkDownHoldEnd => exact (within_linkDownHoldEnd e).floors (by decide +kernel)
  | linkSignalDetect => exact (within_linkSignalDetect e).floors (by decide +kernel)
  | linkTrainEnd => exact (within_linkTrainEnd e).floors (by decide +kernel)
  | linkAlignDone => exact (within_linkAlignDone e).floors (by decide +kernel)
  | linkAttemptTimeout => exact (within_linkAttemptTimeout e).floors (by decide +kernel)
  | linkX2SlotEnd => exact (within_linkX2SlotEnd e).floors (by decide +kernel)
  | linkRetrainTimeout => exact (within_linkRetrainTimeout e).floors (by decide +kernel)
  | lcfReceive => exact (within_lcfReceive e).floors (by decide +kernel)
  | syncReq => exact (within_syncReq e).floors (by decide +kernel)
  | quiet => exact (within_quiet e).floors (by decide +kernel)
  | quietAck => exact (within_quietAck e).floors (by decide +kernel)
  | retrain => exact (within_retrain e).floors (by decide +kernel)
  | quietIdleExpiry => exact (within_quietIdleExpiry e).floors (by decide +kernel)
  | linkWake => exact (within_linkWake e).floors (by decide +kernel)
  | peerSignalWake => exact (within_peerSignalWake e).floors (by decide +kernel)
  | codewordDecode => exact (within_codewordDecode e).floors (by decide +kernel)
  | creditStarve => exact (within_creditStarve e).floors (by decide +kernel)
  | laneErrorWindow => exact (within_laneErrorWindow e).floors (by decide +kernel)
  | degradeSwitch => exact (within_degradeSwitch e).floors (by decide +kernel)
  | ucwWindow => exact (within_ucwWindow e).floors (by decide +kernel)
  | lcfLoss => exact (within_lcfLoss e).floors (by decide +kernel)
  | linkRetrainWrite => exact (within_linkRetrainWrite e).floors (by decide +kernel)
  | linkEnWrite => exact (within_linkEnWrite e).floors (by decide +kernel)
  | linkInject => exact (within_linkInject e).floors (by decide +kernel)
  | patrolScrub => exact (within_patrolScrub e).floors (by decide +kernel)
  | hbmRetire => exact (within_hbmRetire e).floors (by decide +kernel)
  | hbmRetireCmd => exact (within_hbmRetireCmd e).floors (by decide +kernel)
  | spareRemapEnd => exact (within_spareRemapEnd e).floors (by decide +kernel)
  | hbmLockTimeout => exact (within_hbmLockTimeout e).floors (by decide +kernel)
  | hbmInject => exact (within_hbmInject e).floors (by decide +kernel)
  | parkWrite => exact (within_parkWrite e).floors (by decide +kernel)
  | parkRead => exact (within_parkRead e).floors (by decide +kernel)
  | parkApply => exact (within_parkApply e).floors (by decide +kernel)
  | parkServiceFault => exact (within_parkServiceFault e).floors (by decide +kernel)
  | moverStart => exact (within_moverStart e).floors (by decide +kernel)
  | moverPause => exact (within_moverPause e).floors (by decide +kernel)
  | moverResume => exact (within_moverResume e).floors (by decide +kernel)
  | moverAbort => exact (within_moverAbort e).floors (by decide +kernel)
  | moverErrClear => exact (within_moverErrClear e).floors (by decide +kernel)
  | move => exact (within_move e).floors (by decide +kernel)
  | fill => exact (within_fill e).floors (by decide +kernel)
  | compare => exact (within_compare e).floors (by decide +kernel)
  | wait => exact (within_wait e).floors (by decide +kernel)
  | waitMet => exact (within_waitMet e).floors (by decide +kernel)
  | signal => exact (within_signal e).floors (by decide +kernel)
  | link => exact (within_link e).floors (by decide +kernel)
  | end_ => exact (within_end e).floors (by decide +kernel)
  | pauseDrainEnd => exact (within_pauseDrainEnd e).floors (by decide +kernel)
  | moverRecordWrite => exact (within_moverRecordWrite e).floors (by decide +kernel)
  | moverBusError => exact (within_moverBusError e).floors (by decide +kernel)
  | moverBeatTimeout => exact (within_moverBeatTimeout e).floors (by decide +kernel)
  | moverRestart => exact (within_moverRestart e).floors (by decide +kernel)
  | eventCounterWrite => exact (within_eventCounterWrite e).floors (by decide +kernel)
  | adcWindow => exact (within_adcWindow e).floors (by decide +kernel)
  | tachLost => exact (within_tachLost e).floors (by decide +kernel)
  | trayStep => exact (within_trayStep e).floors (by decide +kernel)
  | capStep => exact (within_capStep e).floors (by decide +kernel)
  | pwrAlertAssert => exact (within_pwrAlertAssert e).floors (by decide +kernel)
  | pwrAlertRelease => exact (within_pwrAlertRelease e).floors (by decide +kernel)
  | accGo => exact (within_accGo e).floors (by decide +kernel)
  | yofenKick => exact (within_yofenKick e).floors (by decide +kernel)
  | yofenWatchdog => exact (within_yofenWatchdog e).floors (by decide +kernel)
  | trayClaim => exact (within_trayClaim e).floors (by decide +kernel)
  | trayOwnConflict => exact (within_trayOwnConflict e).floors (by decide +kernel)
  | ownerPublish => exact (within_ownerPublish e).floors (by decide +kernel)
  | contestStart => exact (within_contestStart e).floors (by decide +kernel)
  | contestResolve => exact (within_contestResolve e).floors (by decide +kernel)
  | degradedClear => exact (within_degradedClear e).floors (by decide +kernel)
  | standbyQualify => exact (within_standbyQualify e).floors (by decide +kernel)
  | trayYield => exact (within_trayYield e).floors (by decide +kernel)
  | telemetrySend => exact (within_telemetrySend e).floors (by decide +kernel)
  | managerHeartbeat => exact (within_managerHeartbeat e).floors (by decide +kernel)
  | managerLost => exact (within_managerLost e).floors (by decide +kernel)
  | autonomousHold => exact (within_autonomousHold e).floors (by decide +kernel)
  | pumpStage1 => exact (within_pumpStage1 e).floors (by decide +kernel)
  | pumpStage2 => exact (within_pumpStage2 e).floors (by decide +kernel)
  | pumpStage3 => exact (within_pumpStage3 e).floors (by decide +kernel)
  | pumpStageClear => exact (within_pumpStageClear e).floors (by decide +kernel)
  | trayBusRecovery => exact (within_trayBusRecovery e).floors (by decide +kernel)
  | trayInject => exact (within_trayInject e).floors (by decide +kernel)
  | cartInsert => exact (within_cartInsert e).floors (by decide +kernel)
  | cartPresenceLost => exact (within_cartPresenceLost e).floors (by decide +kernel)
  | cartTouch => exact (within_cartTouch e).floors (by decide +kernel)
  | cartCuffOpen => exact (within_cartCuffOpen e).floors (by decide +kernel)
  | preDrainCancel => exact (within_preDrainCancel e).floors (by decide +kernel)
  | cartButton => exact (within_cartButton e).floors (by decide +kernel)
  | cartButtonHold => exact (within_cartButtonHold e).floors (by decide +kernel)
  | trayButton => exact (within_trayButton e).floors (by decide +kernel)
  | trayButtonHold => exact (within_trayButtonHold e).floors (by decide +kernel)
  | cartDrain => exact (within_cartDrain e).floors (by decide +kernel)
  | cartForce => exact (within_cartForce e).floors (by decide +kernel)
  | cartRejoin => exact (within_cartRejoin e).floors (by decide +kernel)
  | cartDrainComplete => exact (within_cartDrainComplete e).floors (by decide +kernel)
  | cartDrainTimeout => exact (within_cartDrainTimeout e).floors (by decide +kernel)
  | cartForceStop => exact (within_cartForceStop e).floors (by decide +kernel)
  | cartSafe => exact (within_cartSafe e).floors (by decide +kernel)
  | cartInService => exact (within_cartInService e).floors (by decide +kernel)
  | vinLow => exact (within_vinLow e).floors (by decide +kernel)
  | vinHoldupEnd => exact (within_vinHoldupEnd e).floors (by decide +kernel)
  | vinGood => exact (within_vinGood e).floors (by decide +kernel)
  | railTimeout => exact (within_railTimeout e).floors (by decide +kernel)
  | vauxLow => exact (within_vauxLow e).floors (by decide +kernel)
  | powerRequest => exact (within_powerRequest e).floors (by decide +kernel)
  | p2QuietEnd => exact (within_p2QuietEnd e).floors (by decide +kernel)
  | yofenIdleStop => exact (within_yofenIdleStop e).floors (by decide +kernel)
  | engineGate => exact (within_engineGate e).floors (by decide +kernel)
  | engineWake => exact (within_engineWake e).floors (by decide +kernel)
  | warmHoldEnd => exact (within_warmHoldEnd e).floors (by decide +kernel)
  | refclkLost => exact (within_refclkLost e).floors (by decide +kernel)
  | refclkReturn => exact (within_refclkReturn e).floors (by decide +kernel)
  | refclkLossTimeout => exact (within_refclkLossTimeout e).floors (by decide +kernel)
  | oscCalibrate => exact (within_oscCalibrate e).floors (by decide +kernel)
  | thermalTrip => exact (within_thermalTrip e).floors (by decide +kernel)
  | coldReset => exact (within_coldReset e).floors (by decide +kernel)
  | moduleReset => exact (within_moduleReset e).floors (by decide +kernel)
  | quadrantReset => exact (within_quadrantReset e).floors (by decide +kernel)
  | partitionReset => exact (within_partitionReset e).floors (by decide +kernel)
  | perst => exact (within_perst e).floors (by decide +kernel)
  | startupStepComplete => exact (within_startupStepComplete e).floors (by decide +kernel)
  | loadtestRun => exact (within_loadtestRun e).floors (by decide +kernel)
  | loadtestPhaseEnd => exact (within_loadtestPhaseEnd e).floors (by decide +kernel)
  | lifecycleObject => exact (within_lifecycleObject e).floors (by decide +kernel)
  | ownerEnrol => exact (within_ownerEnrol e).floors (by decide +kernel)
  | firmwareFloor => cases hc
  | knitFloor => cases hc
  | challengeRead => exact (within_challengeRead e).floors (by decide +kernel)
  | debugRequestD1 => exact (within_debugRequestD1 e).floors (by decide +kernel)
  | tokenSubmit => exact (within_tokenSubmit e).floors (by decide +kernel)
  | debugRelease => exact (within_debugRelease e).floors (by decide +kernel)
  | grantExpiry => exact (within_grantExpiry e).floors (by decide +kernel)
  | bypass => exact (within_bypass e).floors (by decide +kernel)
  | idcode => exact (within_idcode e).floors (by decide +kernel)
  | samplePreload => exact (within_samplePreload e).floors (by decide +kernel)
  | extest => exact (within_extest e).floors (by decide +kernel)
  | extestPulse => exact (within_extestPulse e).floors (by decide +kernel)
  | extestTrain => exact (within_extestTrain e).floors (by decide +kernel)
  | clamp => exact (within_clamp e).floors (by decide +kernel)
  | highz => exact (within_highz e).floors (by decide +kernel)
  | dbgReq => exact (within_dbgReq e).floors (by decide +kernel)
  | dbgToken => exact (within_dbgToken e).floors (by decide +kernel)
  | dbgAccess => exact (within_dbgAccess e).floors (by decide +kernel)
  | firmwareUpdate => exact (within_firmwareUpdate e).floors (by decide +kernel)
  | getVersion => exact (within_getVersion e).floors (by decide +kernel)
  | getCapabilities => exact (within_getCapabilities e).floors (by decide +kernel)
  | negotiateAlgorithms => exact (within_negotiateAlgorithms e).floors (by decide +kernel)
  | getDigests => exact (within_getDigests e).floors (by decide +kernel)
  | getCertificate => exact (within_getCertificate e).floors (by decide +kernel)
  | challenge => exact (within_challenge e).floors (by decide +kernel)
  | getMeasurements => exact (within_getMeasurements e).floors (by decide +kernel)
  | setEndpointId => exact (within_setEndpointId e).floors (by decide +kernel)
  | pldmSensorRead => exact (within_pldmSensorRead e).floors (by decide +kernel)
  | pldmEffecterWrite => exact (within_pldmEffecterWrite e).floors (by decide +kernel)
  | bar2Read => exact (within_bar2Read e).floors (by decide +kernel)
  | bar2Write => exact (within_bar2Write e).floors (by decide +kernel)
  | pf0Flr => exact (within_pf0Flr e).floors (by decide +kernel)
  | pcieLinkDown => exact (within_pcieLinkDown e).floors (by decide +kernel)
  | hostAccessFail => exact (within_hostAccessFail e).floors (by decide +kernel)
  | msixUnmask => exact (within_msixUnmask e).floors (by decide +kernel)
  | counterClear => exact (within_counterClear e).floors (by decide +kernel)
  | tallySweep => exact (within_tallySweep e).floors (by decide +kernel)
  | samplerCtlWrite => exact (within_samplerCtlWrite e).floors (by decide +kernel)
  | injectEnableWrite => exact (within_injectEnableWrite e).floors (by decide +kernel)
  | errorInject => exact (within_errorInject e).floors (by decide +kernel)
  | debugWindowAccess => cases hc
  | cartLatchClose => exact (within_cartLatchClose e).floors (by decide +kernel)
  | retrainPrbsEnd => exact (within_retrainPrbsEnd e).floors (by decide +kernel)
  | yofenReboot => exact (within_yofenReboot e).floors (by decide +kernel)
  | quadrantResetEnd => exact (within_quadrantResetEnd e).floors (by decide +kernel)
  | moduleResetRelease => exact (within_moduleResetRelease e).floors (by decide +kernel)
  | ieee1588Time => exact (within_ieee1588Time e).floors (by decide +kernel)

end Sys2Proof.Machine
end
section
/-! The rollback floors under FIRMWARE_FLOOR and KNIT_FLOOR (R493, R497). -/

namespace Sys2Proof.Machine

set_option Elab.async false

variable {s t : State}

/-! ## Numbers in bytes -/

theorem ofLE_lt (l : List Byte) : ofLE l < 256 ^ l.length := by
  induction l with
  | nil => simp [ofLE]
  | cons b r ih =>
    have hb := b.isLt
    rw [ofLE, List.length_cons, pow_succ]
    omega

theorem leAt_lt (bs : List Byte) (off n : Nat) : leAt bs off n < 256 ^ n := by
  have hlen : (bytesAt bs off n).length = n := by
    simp only [bytesAt, List.length_append, List.length_replicate, List.length_take]
    omega
  have := ofLE_lt (bytesAt bs off n)
  rwa [hlen] at this

theorem ofLE_leBytes (n x : Nat) : ofLE (leBytes n x) = x % 256 ^ n := by
  induction n generalizing x with
  | zero => simp [leBytes, ofLE, Nat.mod_one]
  | succ n ih =>
    rw [leBytes, ofLE, ih, BitVec.toNat_ofNat, pow_succ' 256 n, Nat.mod_mul]

theorem leAt_leBytes_four (i v : Nat) (l : List Byte) : leAt (leBytes 1 i ++ (leBytes 4 v ++ l)) 1 4 = v % 2 ^ 32 := by
  have h : bytesAt (leBytes 1 i ++ (leBytes 4 v ++ l)) 1 4 = leBytes 4 v := by simp [bytesAt, leBytes]
  rw [leAt, h, ofLE_leBytes]
  rfl

/-! ## The increment of a counter of boot flash -/

/-- What boot flash checks before it takes an increment command. -/
def State.raiseOk (s : State) (req : List Byte) : Bool :=
  s.rdb V.FLASH_KEYED [] && decide (leAt req 0 1 < 8) && bytesAt req 9 32 == hmac (leBytes 32 (s.rd V.FLASH_KEY [])) (0xA2 :: bytesAt req 0 9)
    && leAt req 5 4 == s.rd V.FLASH_SEQ [] && decide (s.flashCtr (leAt req 0 1) < leAt req 1 4)

theorem State.flashCmd_raise (s : State) (req : List Byte) :
    (s.flashCmd 0xA2 req).1 = if s.raiseOk req then (s.wr V.FLASH_CTR [leAt req 0 1] (leAt req 1 4)).bump V.FLASH_SEQ [] 1 else s := rfl

/-- The first byte of the response says whether the command was taken. -/
theorem State.leAt_flashCmd_raise (s : State) (req : List Byte) : leAt (s.flashCmd 0xA2 req).2 0 1 = b2n !s.raiseOk req := by
  have h : ∃ l, (s.flashCmd 0xA2 req).2 = leBytes 1 (b2n !s.raiseOk req) ++ l := ⟨_, List.append_assoc ..⟩
  obtain ⟨l, h⟩ := h
  rw [h, State.leAt_leBytes_one]
  cases s.raiseOk req <;> rfl

/-- What stays within a scope apart from the counters of boot flash keeps each. -/
theorem State.Within.flashCtr {M : Scope} (h : s.Within M t) (j : Nat) (ha : M.apart anyReg = true := by decide +kernel)
    (hf : M.apart V.FLASH_CTR.bits = true := by decide +kernel) : t.flashCtr j = s.flashCtr j := h.regs ha V.FLASH_CTR [j] hf

/-- A raise that boot flash confirms has raised its counter to the value, and no other. -/
theorem State.ctrRaise_flashCtr {i v : Nat} (hi : i < 256) (hv : v < 2 ^ 32) (e : s.ctrRaise i v = some t) :
    t.flashCtr i = v ∧ ∀ j, j ≠ i → t.flashCtr j = s.flashCtr j := by
  unfold State.ctrRaise at e
  dsimp only at e
  generalize hreq : leBytes 1 i ++ leBytes 4 v ++ (s.flashCmd 0xA3 []).2 ++
    hmac flashKey (0xA2 :: (leBytes 1 i ++ leBytes 4 v ++ (s.flashCmd 0xA3 []).2)) = req at e
  have hidx : leAt req 0 1 = i := by
    rw [← hreq, List.append_assoc, List.append_assoc, State.leAt_leBytes_one, Nat.mod_eq_of_lt hi]
  have hval : leAt req 1 4 = v := by
    rw [← hreq, List.append_assoc, List.append_assoc, leAt_leBytes_four, Nat.mod_eq_of_lt hv]
  split at e
  · next hok =>
    have hok : s.raiseOk req = true := by
      rw [Bool.and_eq_true, decide_eq_true_eq, State.leAt_flashCmd_raise] at hok
      cases h : s.raiseOk req
      · rw [h] at hok
        exact absurd hok.1 (by decide)
      · rfl
    rw [State.flashCmd_raise, if_pos hok, hidx, hval] at e
    have hshow : ∀ (u : State) (j : Nat), u.showCounters.flashCtr j = u.flashCtr j := fun u j =>
      (State.Within.refl.showCounters (M := State.showCountersScope)).flashCtr j
    have hbump : ∀ (u : State) (j : Nat), (u.bump V.FLASH_SEQ [] 1).flashCtr j = u.flashCtr j := fun u j => State.rd_wr_ne (by decide) ..
    rw [← Option.some.inj e]
    simp only [hshow, hbump]
    refine ⟨?_, fun j hj => State.rd_wr_other (by simpa using hj) ..⟩
    exact (State.rd_wr_same ..).trans (Nat.mod_eq_of_lt hv)
  · cases e

/-! ## The raise of a floor -/

theorem State.flashCtr_secDone (s : State) (r j : Nat) : (s.secDone r).flashCtr j = s.flashCtr j :=
  (State.Within.refl.secDone (M := State.secDoneScope)).flashCtr j

/-- The result that an operation of SEC_CMD ends with. -/
theorem State.rd_result_secDone (s : State) {r : Nat} (hr : r < 8) : (s.secDone r).rd F.SEC_STATUS_RESULT [] = r := by
  unfold State.secDone
  extract_lets busy quiet u
  have hu : u.rd F.SEC_STATUS_RESULT [] = r := by
    rw [State.rd_wr_ne (by decide), State.rd_wr_same]
    exact Nat.mod_eq_of_lt (hr.trans (by decide))
  split
  · exact ((State.Within.refl.msix (M := State.msixScope)).regs (by decide +kernel) F.SEC_STATUS_RESULT [] (by decide +kernel)).trans hu
  · exact hu

/-- The raise of a floor leaves it or sets it to the greater of its value and the new one; result 0 says the latter.  Other counters keep theirs. -/
theorem State.floorRaise_flashCtr {i v : Nat} (hi : i < 256) (hv : v < 2 ^ 32) :
    ((s.floorRaise i v).flashCtr i = s.flashCtr i ∨ (s.floorRaise i v).flashCtr i = max (s.flashCtr i) v) ∧
      ((s.floorRaise i v).rd F.SEC_STATUS_RESULT [] = 0 → (s.floorRaise i v).flashCtr i = max (s.flashCtr i) v) ∧
      ∀ j, j ≠ i → (s.floorRaise i v).flashCtr j = s.flashCtr j := by
  by_cases h : v ≤ s.flashCtr i
  · have he : ∀ j, (s.floorRaise i v).flashCtr j = s.flashCtr j := fun j => by rw [State.floorRaise_of_le h, State.flashCtr_secDone]
    have hmax : max (s.flashCtr i) v = s.flashCtr i := max_eq_left h
    exact ⟨.inl (he i), fun _ => (he i).trans hmax.symm, fun j _ => he j⟩
  · cases e : s.ctrRaise i v with
    | some t =>
      obtain ⟨hval, hother⟩ := State.ctrRaise_flashCtr hi hv e
      have hmax : max (s.flashCtr i) v = v := max_eq_right (by omega)
      rw [State.floorRaise_of_some h e, State.flashCtr_secDone, hval, hmax]
      exact ⟨.inr rfl, fun _ => rfl, fun j hj => by rw [State.flashCtr_secDone, hother j hj]⟩
    | none =>
      rw [State.floorRaise_of_none h e, State.flashCtr_secDone, State.rd_result_secDone _ (by decide)]
      exact ⟨.inl rfl, fun hr => absurd hr (by decide), fun j _ => State.flashCtr_secDone ..⟩

/-! ## The two commands -/

/-- What the Yofen's start on demand leaves alone. -/
theorem State.yofDemand_keeps (s : State) : let u := s.yofDemand.wr F.SEC_STATUS_BUSY [] 1
    (∀ j, u.flashCtr j = s.flashCtr j) ∧ u.flash = s.flash ∧ u.rd V.BASE_SERIAL [] = s.rd V.BASE_SERIAL [] := by
  have h : s.Within State.secPlainScope (s.yofDemand.wr F.SEC_STATUS_BUSY [] 1) :=
    (State.Within.refl.yofDemand (Scope.le_trans (by decide +kernel) Scope.le_refl)).wr
  exact ⟨h.flashCtr, h.parts .flash (by decide +kernel), h.regs (by decide +kernel) V.BASE_SERIAL [] (by decide +kernel)⟩

/-- Settles O50: of the commands but those that reach SEC_CMD none has the floors in its scope, and the two commands raise theirs by `floorRaise`. -/
theorem floorsRiseOnlyBySecCmd : Obligations.FloorsRiseOnlyBySecCmd := by
  refine ⟨fun c s t hc e => ⟨floors_kept hc e 0 (by decide), floors_kept hc e 1 (by decide)⟩, fun s hbar hrun => ?_, fun s hbar hrun hser => ?_⟩
  · obtain ⟨hctr, hflash, _⟩ := s.yofDemand_keeps
    refine ⟨_, (exec_firmwareFloor ..).trans (State.run_goes rfl hbar (State.secPlain_of_yofRuns _ hrun)), ?_⟩
    have hlt : min (leAt (s.flashBytes 0x10000 12) 8 4) (leAt (s.flashBytes 0x40000 12) 8 4) < 2 ^ 32 :=
      (min_le_left _ _).trans_lt (leAt_lt _ _ 4)
    obtain ⟨hor, hres, hother⟩ := State.floorRaise_flashCtr (s := s.yofDemand.wr F.SEC_STATUS_BUSY [] 1) (i := 0) (by decide) hlt
    rw [hctr] at hor hres
    have hother := (hother 1 (by decide)).trans (hctr 1)
    simp only [State.flashCtr] at hor hres hother
    simp only [State.firmwareFloor, State.flashBytes, hflash, State.rd_withQueue]
    exact ⟨hor, hres, hother⟩
  · obtain ⟨hctr, _, hserial⟩ := s.yofDemand_keeps
    refine ⟨_, (exec_knitFloor ..).trans (State.run_goes rfl hbar (State.secPlain_of_yofRuns _ hrun)), ?_⟩
    obtain ⟨hor, hres, hother⟩ := State.floorRaise_flashCtr (s := s.yofDemand.wr F.SEC_STATUS_BUSY [] 1) (i := 1) (by decide) hser
    rw [hctr] at hor hres
    have hother := (hother 0 (by decide)).trans (hctr 0)
    simp only [State.flashCtr] at hor hres hother
    simp only [State.knitFloor, hserial, State.rd_withQueue]
    exact ⟨hor, hres, hother⟩

end Sys2Proof.Machine
end

section
/-! The bytes that a write of HBM stores: a device write, and a write of the host through BAR2. -/

namespace Sys2Proof.Machine

set_option Elab.async false

variable {s t : State}

/-! ## A device write -/

/-- A byte of the run just written. -/
theorem Mem.read_writeN_same (bs : List Byte) (a : Nat) (m : Mem) (i : Nat) (h : i < bs.length) : Mem.read (a + i) (Mem.writeN a bs m) = bs[i] := by
  induction bs generalizing a m i with
  | nil => cases h
  | cons b r ih =>
    rw [Mem.writeN]
    cases i with
    | zero => rw [Nat.add_zero, Mem.read_writeN_other r _ _ _ (.inl (Nat.lt_succ_self a)), Mem.read_write_same]; rfl
    | succ i =>
      rw [show a + (i + 1) = a + 1 + i by omega, ih (a + 1) _ i (Nat.lt_of_succ_lt_succ h)]
      rfl

/-- A device write writes its bytes, and the injection that it may fire writes none. -/
theorem State.hbm_devWrite (s : State) (stack dev : Nat) (bs : List Byte) : (s.devWrite stack dev bs).hbm = Mem.writeN (hbmKey stack dev) bs s.hbm := by
  unfold State.devWrite
  extract_lets stored secs whole clean
  have hfire : (clean.injFlip stack dev).hbm = clean.hbm := (State.Within.refl.injFlip (M := State.injFlipScope)).parts .hbm (by decide +kernel)
  split
  · next h => rw [List.isEmpty_iff.1 h]; rfl
  · split
    · exact hfire
    · rfl

/-- Settles O44: the bytes are those of the run written, and the rest is the scope of a device write. -/
theorem deviceWriteIsExact : Obligations.DeviceWriteIsExact := by
  intro stack dev bs s
  refine ⟨fun i h => ?_, fun a ha => ?_, (State.Within.refl.devWrite (M := State.devWriteScope)).toWrites⟩
  · rw [State.hbm_devWrite, Mem.read_writeN_same]
  · rw [State.hbm_devWrite, Mem.read_writeN_other]
    by_contra h
    exact ha (by omega)

/-! ## A write of partition memory -/

/-- Writing placed pieces changes no byte outside them. -/
theorem State.bytesBut_writePlaces (l : List (Loc × Nat)) (bs : List Byte) (s : State) : s.bytesBut (· ∈ placeKeys l) (s.writePlaces l bs) := by
  induction l generalizing s bs with
  | nil => exact fun _ _ => rfl
  | cons pc r ih =>
    intro a ha
    have hout : a ∉ placeKeys r ∧ ¬∃ i, i < pc.2 ∧ hbmKey pc.1.stack pc.1.dev + i = a := by
      simpa only [placeKeys, List.flatMap_cons, List.mem_append, List.mem_map, List.mem_range, not_or, and_comm] using ha
    obtain ⟨hr, hpc⟩ := hout
    rw [State.writePlaces, ih (bs.drop pc.2) (s.devWrite pc.1.stack pc.1.dev (bs.take pc.2)) a hr, State.hbm_devWrite, Mem.read_writeN_other]
    by_contra h
    refine hpc ⟨a - hbmKey pc.1.stack pc.1.dev, ?_, by omega⟩
    rw [List.length_take] at h
    omega

/-- A write of partition memory changes no byte outside the places of its range. -/
theorem State.bytesBut_memWrite {p a : Nat} {bs : List Byte} (e : s.memWrite p a bs = some t) :
    s.bytesBut (fun x => ∃ ps, s.place p a bs.length = some ps ∧ x ∈ placeKeys ps) t := by
  unfold State.memWrite at e
  split at e
  · cases e
  · next ps hplace =>
    split at e
    · rw [← Option.some.inj e]
      intro x hx
      have hcount : ((s.writePlaces ps bs).countBeats 19 p ps).hbm = (s.writePlaces ps bs).hbm :=
        (State.Within.refl.countBeats (M := State.countBeatsScope)).parts .hbm (by decide +kernel)
      rw [hcount]
      exact State.bytesBut_writePlaces ps bs s x fun h => hx ⟨ps, hplace, h⟩
    · cases e

/-! ## BAR2_WRITE -/

/-- What stays within a scope apart from the images and from the mapping of extents keeps where a range lies. -/
theorem State.Within.place {M : Scope} (h : s.Within M t) (hi : M.apart Part.img.bits = true := by decide +kernel)
    (ha : M.apart anyReg = true := by decide +kernel) (hf : M.apart F.HBM_EXTENT_REMAPPED.bits = true := by decide +kernel) (p a n : Nat) :
    t.place p a n = s.place p a n :=
  place_congr (h.parts .img hi) (h.regs ha F.HBM_EXTENT_REMAPPED · hf) p a n

/-- What stays within a scope apart from HBM keeps every byte of it. -/
theorem State.Within.hbm_eq {M : Scope} (h : s.Within M t) (hm : M.apart Part.hbm.bits = true := by decide +kernel) : t.hbm = s.hbm := h.parts .hbm hm

/-- A host write stores to the places of its range alone, and a poisoned one nowhere. -/
theorem State.bytesBut_bar2Write (s : State) (f off : Nat) (bs : List Byte) (poisoned : Bool) :
    s.bytesBut (fun a => ∃ ps, s.place f (s.bar2Addr f off) bs.length = some ps ∧ poisoned = false ∧ a ∈ placeKeys ps)
      (s.bar2Write f off bs poisoned) := by
  unfold State.bar2Write
  extract_lets u
  have hu : s.Within State.countModuleScope u := State.Within.refl.countModule
  have haddr : u.bar2Addr f off = s.bar2Addr f off := by
    unfold State.bar2Addr
    rw [hu.regs (by decide +kernel) F.PCI_APER_BASE [f] (by decide +kernel)]
  clear_value u
  intro a ha
  rw [← hu.hbm_eq]
  split
  · have herr : u.Within (State.errScope ||| State.aerScope) ((u.err { det := 0x17, sev := 1, part := f }).aer f 3) := State.Within.refl.err.aer
    rw [herr.hbm_eq]
  · next hpoisoned =>
    split
    · have hraise : u.Within (scope [] [F.PCI_FN_STAT_BADBAR2, V.RAISED]) (u.raise F.PCI_FN_STAT_BADBAR2 [f]) := State.Within.refl.raise
      rw [hraise.hbm_eq]
    · split
      · have hv : u.Within State.noteMergeScope (u.noteMerge f (u.bar2Addr f off) bs.length) := State.Within.refl.noteMerge
        have hwrote : ∀ v : State, (v.hostWrote f (u.bar2Addr f off) bs.length).hbm = v.hbm := fun v =>
          (State.Within.refl.hostWrote (M := State.hostWroteScope)).hbm_eq
        rw [hwrote]
        cases e : (u.noteMerge f (u.bar2Addr f off) bs.length).memWrite f (u.bar2Addr f off) bs with
        | none => rfl
        | some w =>
          rw [Option.getD_some, State.bytesBut_memWrite e a, hv.hbm_eq]
          rw [hv.place, haddr, hu.place]
          rintro ⟨ps, hplace, hmem⟩
          exact ha ⟨ps, hplace, Bool.eq_false_iff.2 hpoisoned, hmem⟩
      · rfl

/-- Settles O48. -/
theorem hostWriteStaysInPlace : Obligations.HostWriteStaysInPlace := by
  intro fn off data poisoned s t e
  rw [exec_bar2Write] at e
  rcases State.run_cases s _ _ (fun t => t.bar2Write fn off data poisoned) with ⟨_, he⟩ | ⟨_, he⟩ <;> rw [he] at e <;>
    rw [← Host.Outcome.next.inj e]
  · exact fun _ _ => rfl
  · exact s.bytesBut_bar2Write fn off data poisoned

end Sys2Proof.Machine
end

section
/-! The bytes of HBM under the commands that write records only: error rings and completion queues. -/

namespace Sys2Proof.Machine

set_option Elab.async false

variable {M : Scope} {s t : State}

/-- A scope apart from what places rings and from the bytes of completion queues keeps every byte outside the error rings. -/
theorem State.Within.toErrRings (h : s.Within M t) (hp : M.apart placeScope = true := by decide +kernel)
    (hc : M.apart cqBytes = true := by decide +kernel) : s.bytesBut s.inErrRing t := fun a ha =>
  h.bytes hp a fun hw => hw.elim (fun x => absurd (x.1.symm.trans hc) Bool.false_ne_true) fun x => ha x.2

/-- A scope apart from what places rings and from the bytes of error rings keeps every byte outside the completion queues. -/
theorem State.Within.toQueues (h : s.Within M t) (hp : M.apart placeScope = true := by decide +kernel)
    (hr : M.apart ringBytes = true := by decide +kernel) : s.bytesBut s.inCompletionQueue t := fun a ha =>
  h.bytes hp a fun hw => hw.elim (fun x => ha x.2) fun x => absurd (x.1.symm.trans hr) Bool.false_ne_true

/-- Settles O47: each command stays within the scope of its operation, which says nothing of where rings lie and holds no bytes of error rings. -/
theorem completionRecordsStayInTheirQueues : Obligations.CompletionRecordsStayInTheirQueues :=
  ⟨fun _ _ _ _ _ e => (within_resultResendTimer e).toQueues,
   fun _ _ _ _ e => (within_contrib e).toQueues,
   fun _ _ _ _ _ _ _ _ e => (within_admissionReply e).toQueues,
   fun _ _ _ _ _ _ _ e => (within_slotReadoutComplete e).toQueues,
   fun _ _ _ _ _ _ _ e => (within_tier0Partial e).toQueues,
   fun _ _ _ _ _ _ _ e => (within_partialDelivered e).toQueues,
   fun _ _ _ _ e => (within_partialReceive e).toQueues,
   fun _ _ _ _ e => (within_resultFromRack e).toQueues,
   fun _ _ _ _ e => (within_publishFromRack e).toQueues,
   fun _ _ _ e => (within_pagerOpComplete e).toQueues,
   fun _ _ _ _ _ _ e => (within_ringDoorbell e).toQueues,
   fun _ _ _ _ e => (within_doorbell e).toQueues,
   fun _ _ _ _ _ e => (within_ringErrClear e).toQueues,
   fun _ _ _ _ e => (within_cqRecordWrite e).toQueues,
   fun _ _ _ _ _ e => (within_collective e).toQueues,
   fun _ _ _ _ _ e => (within_armStep e).toQueues,
   fun _ _ _ _ _ e => (within_trigger e).toQueues,
   fun _ _ _ _ _ e => (within_increment e).toQueues,
   fun _ _ _ _ _ e => (within_abortCollective e).toQueues,
   fun _ _ _ _ _ e => (within_stepReplay e).toQueues,
   fun _ _ _ e => (within_stepReplayEnd e).toQueues,
   fun _ _ _ _ _ e => (within_warm e).toQueues,
   fun _ _ _ _ e => (within_done e).toQueues,
   fun _ _ _ _ e => (within_gapNack e).toQueues,
   fun _ _ _ _ e => (within_convertMulticast e).toQueues,
   fun _ _ _ _ e => (within_signalHost e).toQueues,
   fun _ _ _ _ _ _ e => (within_partialResendTimer e).toQueues,
   fun _ _ _ _ _ _ e => (within_podHoldExpiry e).toQueues,
   fun _ _ _ e => (within_stepDecided e).toQueues,
   fun _ _ _ _ _ e => (within_publish e).toQueues,
   fun _ _ _ _ _ e => (within_setT e).toQueues,
   fun _ _ _ _ _ e => (within_gramAcc e).toQueues,
   fun _ _ _ _ _ e => (within_matmul e).toQueues,
   fun _ _ _ _ _ e => (within_nsRoot e).toQueues,
   fun _ _ _ _ _ e => (within_nsOrtho e).toQueues,
   fun _ _ _ _ _ e => (within_apply e).toQueues,
   fun _ _ _ _ e => (within_gramWaitRelease e).toQueues,
   fun _ _ _ _ e => (within_gramProgressTimeout e).toQueues,
   fun _ _ _ e => (within_mitMember e).toQueues,
   fun _ _ _ e => (within_mitRow e).toQueues,
   fun _ _ _ e => (within_mitColumn e).toQueues,
   fun _ _ _ e => (within_mitCourier e).toQueues,
   fun _ _ _ _ _ _ e => (within_hbmRetire e).toQueues,
   fun _ _ _ _ e => (within_hbmRetireCmd e).toQueues,
   fun _ _ _ _ _ _ e => (within_hbmLockTimeout e).toQueues,
   fun _ _ _ _ _ e => (within_moverStart e).toQueues,
   fun _ _ _ _ _ _ e => (within_moverPause e).toQueues,
   fun _ _ _ _ _ _ e => (within_moverResume e).toQueues,
   fun _ _ _ _ _ _ e => (within_moverAbort e).toQueues,
   fun _ _ _ _ _ e => (within_moverErrClear e).toQueues,
   fun _ _ _ _ _ e => (within_pauseDrainEnd e).toQueues,
   fun _ _ _ e => (within_quadrantReset e).toQueues,
   fun _ _ _ e => (within_errorInject e).toQueues,
   fun _ _ _ _ _ e => (within_moverRecordWrite e).toQueues⟩

end Sys2Proof.Machine
end

section
/-! An idle step: one core cycle, after those that the throttle skips (log entries 1 and 81). -/

namespace Sys2Proof.Machine

set_option Elab.async false

variable {M : Scope} {s t u : State}

/-! ## What waits for the end of a cycle -/

theorem State.jtagTokenDue_of_none (h : s.rd V.JTAG_TOKN [] = 0) : s.jtagTokenDue = s := if_pos h

theorem State.dbgAccessDue_of_none (h : s.rd V.DBGA_REQ [] = 0) : s.dbgAccessDue = s := if_pos h

theorem State.abortsDue_of_none (h : s.rdb V.ABORT_DUE [] = false) : s.abortsDue = s := if_neg (by simp [h])

theorem State.roundsDue_of_none (h : s.rdb V.ROUND_DUE [] = false) : s.roundsDue = s := if_neg (by simp [h])

/-- A loop whose every turn leaves the state as it is. -/
theorem State.foldl_of_fixed {α : Type} {g : State → α → State} {l : List α} (h : ∀ x ∈ l, g s x = s) : l.foldl g s = s := by
  induction l with
  | nil => rfl
  | cons a r ih => rw [List.foldl_cons, h a (.head _), ih fun x hx => h x (.tail _ hx)]

theorem State.retiresDue_of_none (h : ∀ kv ∈ s.regs, kv.1.headD 0 ≠ V.RET_DUE.id) : s.retiresDue = s := by
  have hkeys : (s.regs.filter fun kv => kv.1.headD 0 == V.RET_DUE.id) = [] := by simpa [List.filter_eq_nil_iff] using h
  have hregs : s.eraseRegs (fun f _ => f == V.RET_DUE.id) = s := by
    unfold State.eraseRegs
    rw [SMap.eraseIf, List.filter_eq_self.2]
    rintro ⟨k, v⟩ hk
    cases k with
    | nil => rfl
    | cons i ix => simpa using h _ hk
  simp only [State.retiresDue, hkeys, hregs, List.map_nil, List.foldl_nil]

theorem State.movRestartDue_of_none {q : Nat} (h : s.rd V.MOV_RESTART [q] = 0) : s.movRestartDue q = s := by simp [State.movRestartDue, h]

theorem State.movRestartsDue_of_none (h : ∀ q, q < 4 → s.rd V.MOV_RESTART [q] = 0) : (List.range 4).foldl State.movRestartDue s = s :=
  State.foldl_of_fixed fun q hq => State.movRestartDue_of_none (h q (List.mem_range.1 hq))

theorem State.errFlush_of_none (h : s.errDue = []) : s.errFlush = s := by
  obtain ⟨⟩ := s
  subst h
  rfl

theorem State.dueVector_of_none (h : ∀ f ∈ [V.VEC1_DUE, V.CQ_VEC_DUE, V.MIR_VEC_DUE, V.MOV_VEC_DUE], ∀ ix, s.rdb f ix = false) (k : List Nat) :
    s.dueVector k = s := by
  simp only [List.forall_mem_cons] at h
  obtain ⟨h1, h2, h3, h4, _⟩ := h
  simp [State.dueVector, h1, h2, h3, h4]

theorem State.dueVectors_of_none (h : ∀ f ∈ [V.VEC1_DUE, V.CQ_VEC_DUE, V.MIR_VEC_DUE, V.MOV_VEC_DUE], ∀ ix, s.rdb f ix = false) :
    s.dueVectors = s := State.foldl_of_fixed fun k _ => State.dueVector_of_none h k

/-! ## The end of a cycle, and the next -/

/-- The end of a cycle in which no debug token and no DBG_ACCESS waits. -/
def State.cycleEnd (s : State) : State := ((List.range 4).foldl State.movRestartDue s.abortsDue.roundsDue.retiresDue).errFlush

def State.cycleEndScope : Scope := abortsDueScope ||| roundsDueScope ||| retiresDueScope ||| movRestartDueScope ||| errFlushScope

theorem State.Within.cycleEnd (h : s.Within M t) (hm : State.cycleEndScope.le M = true := by decide +kernel) : s.Within M t.cycleEnd :=
  h.andThen hm fun h => (h.abortsDue.roundsDue.retiresDue.foldl fun _ _ hu => hu.movRestartDue).errFlush

theorem State.tick_eq (hj : s.rd V.JTAG_TOKN [] = 0) (hd : s.rd V.DBGA_REQ [] = 0) : s.tick = s.cycleEnd.advance.dueVectors := by
  rw [State.tick, State.jtagTokenDue_of_none hj, State.dbgAccessDue_of_none hd, State.cycleEnd]

/-- The next state of an idle step. -/
theorem step_idle (hp : s.pending = []) : step s = .next s.tick := by rw [step, hp]

theorem tick_of_step (hp : s.pending = []) (e : step s = .next t) : t = s.tick := by
  rw [step_idle hp] at e
  exact (Host.Outcome.next.inj e).symm

/-! ## Time and the cycle counters -/

/-- What stays within a scope apart from a field keeps it. -/
theorem State.Within.rd_eq (h : s.Within M t) (f : Fld) (ix : List Nat) (ha : M.apart anyReg = true := by decide +kernel)
    (hf : M.apart f.bits = true := by decide +kernel) : t.rd f ix = s.rd f ix := h.regs ha f ix hf

/-- The clock's cycle counts 625 ps. -/
theorem State.rd_time_clockCycle (s : State) (b : Bool) : (s.clockCycle b).rd V.TIME_PS [] = (s.rd V.TIME_PS [] + 625) % 2 ^ 84 := by
  unfold State.clockCycle
  extract_lets v
  have hv : s.Within (countCycleScope ||| selectsDueScope) v := State.Within.refl.countCycle.selectsDue
  have hrest : ((v.bump V.TIME_PS [] 625).Within (scope [] [F.CTR_LEG_CYCLE_COUNT, V.CLK] ||| linkCycleScope ||| sweepCycleScope)
      (((List.range 4).foldl State.linkCycle (((v.bump V.TIME_PS [] 625).bump F.CTR_LEG_CYCLE_COUNT [] 1).bump V.CLK [] 1)).sweepCycle)) :=
    (State.Within.refl.bump.bump.foldl fun _ _ hu => hu.linkCycle).sweepCycle
  rw [hrest.rd_eq V.TIME_PS [], State.bump, State.rd_wr_same, hv.rd_eq V.TIME_PS []]
  rfl

/-- Cycles of the clock, one after another. -/
theorem State.rd_time_clockCycles (l : List Nat) (b : Bool) (s : State) :
    (l.foldl (fun t _ => t.clockCycle b) s).rd V.TIME_PS [] % 2 ^ 84 = (s.rd V.TIME_PS [] + 625 * l.length) % 2 ^ 84 := by
  induction l generalizing s with
  | nil => rfl
  | cons a r ih =>
    rw [List.foldl_cons, ih, State.rd_time_clockCycle, List.length_cons]
    omega

/-- The quadrant's cycle counts one cycle of it, where it runs, and none of another. -/
theorem State.rd_cycle_quadCycle (s : State) (p q : Nat) : (s.quadCycle p).rd V.CYCLE [q] =
    if p = q ∧ s.quadUp q = true then (s.rd V.CYCLE [q] + 1) % 2 ^ 64 else s.rd V.CYCLE [q] := by
  unfold State.quadCycle
  have hrest : (s.bump V.CYCLE [p] 1).Within (scope [] [V.COR_ADMIT] ||| bankEndsScope ||| wheelCycleScope ||| coreCycleScope)
      (((((s.bump V.CYCLE [p] 1).wr V.COR_ADMIT [p] 0).bankEnds p).wheelCycle p).coreCycle p) :=
    State.Within.refl.wr.bankEnds.wheelCycle.coreCycle
  split
  · next hup =>
    rw [hrest.rd_eq V.CYCLE [q], State.bump]
    by_cases h : p = q
    · subst h
      rw [if_pos ⟨rfl, hup⟩, State.rd_wr_same]
      rfl
    · rw [if_neg (fun x => h x.1), State.rd_wr_other (by simpa using Ne.symm h)]
  · next hup =>
    rw [if_neg]
    rintro ⟨rfl, h⟩
    exact hup h

/-- The fields that say whether a quadrant runs. -/
theorem State.Within.quadUp (h : s.Within M t) (q : Nat) (ha : M.apart anyReg = true := by decide +kernel)
    (hq : M.apart V.QRESET.bits = true := by decide +kernel) (hm : M.apart V.MRESET.bits = true := by decide +kernel) : t.quadUp q = s.quadUp q := by
  simp only [State.quadUp, State.rdb, h.rd_eq V.QRESET [q] ha hq, h.rd_eq V.MRESET [] ha hm]

/-- Each quadrant of a list that runs counts one cycle. -/
theorem State.rd_cycle_quadCycles (q : Nat) {l : List Nat} (hl : l.Nodup) (s : State) : (l.foldl State.quadCycle s).rd V.CYCLE [q] =
    if q ∈ l ∧ s.quadUp q = true then (s.rd V.CYCLE [q] + 1) % 2 ^ 64 else s.rd V.CYCLE [q] := by
  induction l generalizing s with
  | nil => simp
  | cons p r ih =>
    obtain ⟨hp, hr⟩ := List.nodup_cons.1 hl
    have hup : (s.quadCycle p).quadUp q = s.quadUp q := (State.Within.refl.quadCycle (M := quadCycleScope)).quadUp q
    rw [List.foldl_cons, ih hr, hup, State.rd_cycle_quadCycle]
    by_cases h : p = q
    · subst h
      simp [hp]
    · simp [h, Ne.symm h]

/-- What the end of a cycle leaves alone: the power state, the clock and the counters of cycles. -/
theorem State.rd_cycleEnd (s : State) : ∀ f ∈ [F.HAT_PSTATE_STATE, F.TRY_CAP_THR, V.CLK, V.TIME_PS, V.CYCLE, V.QRESET, V.MRESET], ∀ ix,
    s.cycleEnd.rd f ix = s.rd f ix := fun f hf ix => by
  have key : ∀ f ∈ [F.HAT_PSTATE_STATE, F.TRY_CAP_THR, V.CLK, V.TIME_PS, V.CYCLE, V.QRESET, V.MRESET], cycleEndScope.apart f.bits = true := by
    decide +kernel
  exact (State.Within.refl.cycleEnd (M := cycleEndScope)).rd_eq f ix (by decide +kernel) (key f hf)

/-- The cycles that pass in one advance. -/
theorem State.rd_time_advance (s : State) :
    s.advance.rd V.TIME_PS [] = (s.rd V.TIME_PS [] + 625 * (1 + if s.pstate < 2 then s.skips else 0)) % 2 ^ 84 := by
  unfold State.advance
  split
  · have hquads : ∀ u : State, ((List.range 4).foldl State.quadCycle u).rd V.TIME_PS [] = u.rd V.TIME_PS [] := fun u =>
      (State.Within.refl.foldl fun _ _ hu => hu.quadCycle : u.Within quadCycleScope _).rd_eq V.TIME_PS []
    have hskips := State.rd_time_clockCycles (List.range s.skips) true s
    rw [List.length_range] at hskips
    rw [hquads, State.rd_time_clockCycle]
    omega
  · rw [State.bump, State.rd_wr_same, (State.Within.refl.selectsDue (M := selectsDueScope)).rd_eq V.TIME_PS []]
    rfl

/-- The cycle counters in one advance. -/
theorem State.rd_cycle_advance (s : State) {q : Nat} (hq : q < 4) :
    s.advance.rd V.CYCLE [q] = if s.pstate < 2 ∧ s.quadUp q = true then (s.rd V.CYCLE [q] + 1) % 2 ^ 64 else s.rd V.CYCLE [q] := by
  unfold State.advance
  split
  · next hp =>
    have hclock : s.Within clockCycleScope (((List.range s.skips).foldl (fun t _ => t.clockCycle true) s).clockCycle false) :=
      (State.Within.refl.foldl fun _ _ hu => hu.clockCycle).clockCycle
    rw [State.rd_cycle_quadCycles q List.nodup_range, hclock.quadUp q, hclock.rd_eq V.CYCLE [q]]
    simp [hp, hq]
  · next hp =>
    rw [if_neg fun h => hp h.1]
    exact (State.Within.refl.selectsDue.bump : s.Within (selectsDueScope ||| scope [] [V.TIME_PS]) _).rd_eq V.CYCLE [q]

/-! ## The whole of it -/

/-- An advance in which no Tally sweep runs. -/
def State.quietAdvanceScope : Scope :=
  countCycleScope ||| selectsDueScope ||| linkCycleScope ||| quadCycleScope ||| scope [] [V.TIME_PS, F.CTR_LEG_CYCLE_COUNT, V.CLK]

/-- A cycle of the clock in which no Tally sweep runs. -/
theorem State.Within.clockCycle_quiet {b : Bool} (h : s.Within State.quietAdvanceScope t) (hz : s.rd V.SWEEP_PROGS [] = 0) :
    s.Within State.quietAdvanceScope (t.clockCycle b) := by
  unfold State.clockCycle
  extract_lets v
  have hv : s.Within State.quietAdvanceScope v := h.countCycle.selectsDue
  have hlinks : s.Within State.quietAdvanceScope
      ((List.range 4).foldl State.linkCycle (((v.bump V.TIME_PS [] 625).bump F.CTR_LEG_CYCLE_COUNT [] 1).bump V.CLK [] 1)) :=
    hv.bump.bump.bump.foldl fun _ _ hu => hu.linkCycle
  rw [State.sweepCycle, hlinks.rd_eq V.SWEEP_PROGS [], hz]
  exact hlinks

theorem State.Within.advance_quiet (hz : s.rd V.SWEEP_PROGS [] = 0) : s.Within State.quietAdvanceScope s.advance := by
  unfold State.advance
  exact .ite (((State.Within.refl.foldl fun _ _ hu => hu.clockCycle_quiet hz).clockCycle_quiet hz).foldl fun _ _ hu => hu.quadCycle)
    State.Within.refl.selectsDue.bump

/-- A cycle's end in which no Mover restart is due. -/
theorem State.Within.cycleEnd_quiet (hr : ∀ q, q < 4 → s.rd V.MOV_RESTART [q] = 0) :
    s.Within (abortsDueScope ||| roundsDueScope ||| retiresDueScope ||| errFlushScope) s.cycleEnd := by
  have hdue : s.Within (abortsDueScope ||| roundsDueScope ||| retiresDueScope) s.abortsDue.roundsDue.retiresDue :=
    State.Within.refl.abortsDue.roundsDue.retiresDue
  rw [State.cycleEnd, State.movRestartsDue_of_none fun q hq => (hdue.rd_eq V.MOV_RESTART [q]).trans (hr q hq)]
  exact (hdue.mono (by decide +kernel)).errFlush

/-- An idle step in which no token, access, restart or sweep waits changes no byte outside the rings of records. -/
theorem bytesBut_idleStep (hp : s.pending = []) (hj : s.rd V.JTAG_TOKN [] = 0) (hd : s.rd V.DBGA_REQ [] = 0)
    (hr : ∀ q, q < 4 → s.rd V.MOV_RESTART [q] = 0) (hz : s.rd V.SWEEP_PROGS [] = 0) (e : step s = .next t) :
    s.bytesBut (fun a => s.inErrRing a ∨ s.inCompletionQueue a) t := by
  have hend := State.Within.cycleEnd_quiet hr
  have hadv := State.Within.advance_quiet ((hend.rd_eq V.SWEEP_PROGS []).trans hz)
  have htick : s.Within (State.abortsDueScope ||| State.roundsDueScope ||| State.retiresDueScope ||| State.errFlushScope |||
      State.quietAdvanceScope ||| State.dueVectorsScope) s.tick := by
    rw [State.tick_eq hj hd]
    exact ((hend.mono (by decide +kernel)).trans (hadv.mono (by decide +kernel))).dueVectors
  rw [tick_of_step hp e]
  exact fun a ha => htick.bytes (by decide +kernel) a fun hw => ha (hw.elim (fun x => .inr x.2) fun x => .inl x.2)

/-- Settles O46: each command stays within the scope of its operation, which says nothing of where rings lie and holds no bytes of queues. -/
theorem errorRecordsStayInTheirRings : Obligations.ErrorRecordsStayInTheirRings :=
  ⟨fun _ _ _ _ _ e => (within_splitReadLow e).toErrRings,
   fun _ _ e => (within_firmwareFloor e).toErrRings,
   fun _ _ e => (within_knitFloor e).toErrRings,
   fun _ _ e => (within_challengeRead e).toErrRings,
   fun _ _ e => (within_getVersion e).toErrRings,
   fun _ _ e => (within_getCapabilities e).toErrRings,
   fun _ _ e => (within_negotiateAlgorithms e).toErrRings,
   fun _ _ e => (within_getDigests e).toErrRings,
   fun _ _ _ _ e => (within_getCertificate e).toErrRings,
   fun _ _ _ e => (within_challenge e).toErrRings,
   fun _ _ _ _ e => (within_getMeasurements e).toErrRings,
   fun _ _ _ _ e => (within_setEndpointId e).toErrRings,
   fun _ _ _ e => (within_pldmSensorRead e).toErrRings,
   fun _ _ e => (within_yofenReboot e).toErrRings,
   fun _ _ hp hj hd hr hz e => bytesBut_idleStep hp hj hd hr hz e⟩

/-- Settles O2: the end of the cycle and the advance each stay within their scope, and where nothing waits only the advance is left. -/
theorem idleStepIsOneCoreCycle : Obligations.IdleStepIsOneCoreCycle := by
  refine ⟨fun s hp => ⟨s.tick, step_idle hp, ?_⟩, fun s t hp e hj hd => ?_⟩
  · rw [(State.Within.refl.tick (M := State.tickScope)).queue, hp]
  · rw [tick_of_step hp e, State.tick_eq hj hd]
    have hend := s.rd_cycleEnd
    simp only [List.forall_mem_cons] at hend
    obtain ⟨hstate, hthr, hclk, htime, hcycle, hqreset, hmreset, _⟩ := hend
    have hdue : ∀ u : State, u.Within State.dueVectorsScope u.dueVectors := fun u => State.Within.refl.dueVectors
    have hps : s.cycleEnd.pstate = s.pstate := hstate []
    refine ⟨?_, fun q hq => ?_, ?_, fun hab hro hre hmo her hve => ?_⟩
    · rw [(hdue _).rd_eq V.TIME_PS [], State.rd_time_advance, htime, hps, State.skips, hthr, hclk]
    · rw [(hdue _).rd_eq V.CYCLE [q], State.rd_cycle_advance _ hq, hcycle, hps, State.quadUp, State.rdb, State.rdb, hqreset, hmreset]
      rfl
    · exact (State.Within.refl.cycleEnd.advance.dueVectors : s.Within (State.cycleEndScope ||| State.advanceScope ||| State.dueVectorsScope) _).toTouches
    · have hquiet : s.cycleEnd = s := by
        rw [State.cycleEnd, State.abortsDue_of_none hab, State.roundsDue_of_none hro, State.retiresDue_of_none hre,
          State.movRestartsDue_of_none hmo, State.errFlush_of_none her]
      have hadv : s.Within State.advanceScope s.advance := State.Within.refl.advance
      have hnone : ∀ f ∈ [V.VEC1_DUE, V.CQ_VEC_DUE, V.MIR_VEC_DUE, V.MOV_VEC_DUE], ∀ ix, s.advance.rdb f ix = false := fun f hf ix => by
        have key : ∀ f ∈ [V.VEC1_DUE, V.CQ_VEC_DUE, V.MIR_VEC_DUE, V.MOV_VEC_DUE], State.advanceScope.apart f.bits = true := by decide +kernel
        have := hve f hf ix
        rw [State.rdb] at this ⊢
        rwa [hadv.rd_eq f ix (by decide +kernel) (key f hf)]
      rw [hquiet, State.dueVectors_of_none hnone]
      exact hadv.toWrites

end Sys2Proof.Machine
end
